-- ==== Sys2Proof/Word.lean ====
section
/-! DEFINITION. The machine's word types: bytes, 32-bit and 64-bit register words, 128-bit schedule
words and 256-bit carter instructions (R7, R9, R85, R230). Helpers over them stand in Machine/Bits.lean. -/

namespace Sys2Proof

abbrev Byte := BitVec 8
abbrev W16 := BitVec 16
abbrev W32 := BitVec 32
abbrev W64 := BitVec 64
abbrev W128 := BitVec 128
abbrev W256 := BitVec 256

end Sys2Proof
end

