-- ==== Sys2Proof/Units.lean ====
section
/-! DEFINITION. The operand types of the commands: units by their numbers (R6, R31), mesh packets (R52),
Ebsober messages and frames (R304, R312), fault events (R381) and the readings and physical events that
commands carry. -/

namespace Sys2Proof

/-- Parish index p (R6). -/
abbrev Par := Fin 56
/-- Physical croft index q = 500 p + 25 row + column (R31). -/
abbrev Phys := Fin 28000
/-- Holding h. -/
abbrev Hold := Fin 16
/-- Gate number (R6). -/
abbrev GateId := Fin 28
/-- Port of a gate. -/
abbrev PortId := Fin 3
/-- Lane of a gate. -/
abbrev LaneId := Fin 24
/-- Stream channel context of a gate (R224). -/
abbrev Ctx := Fin 2048
/-- Carter channel of a croft (R224). -/
abbrev Chn := Fin 8
/-- Steward S0 or S1. -/
abbrev Stw := Fin 2

/-- Plane A or B (R49). -/
inductive Plane where
  | a | b
deriving DecidableEq, Repr, Inhabited

/-- A fault event on its way to the fault controller (R380–R392). -/
structure Report where
  source   : Nat
  loc      : W32
  time     : Nat := 0
  syndrome : W64 := 0
  opcode   : W16 := 0
  /-- The class the event carries, where it has one of its own (R388). -/
  tclass   : Option Bool := none
  /-- The holding of the channel, for gate events (R383). -/
  chanHold : Option Nat := none
  /-- A carter's request that a steward held in reset has refused (R337). -/
  refused  : Option (Fin 2) := none
deriving DecidableEq, Repr, Inhabited

/-- A parish summary on its way to a step controller (R159). -/
structure Summary where
  parish     : Nat
  step       : W32
  sat        : W32
  inf        : W32
  nan        : W32
  resid      : W32
  acks       : Nat
  incomplete : Bool
deriving DecidableEq, Repr, Inhabited

/-- The unit that waits for the answer to a request. The spec gives the TAG layout of carters (R233) and of
gates (R297) alone, so a packet of the model carries its requester beside its TAG (log 5). From `summary` on they ride with
control packets whose content the spec gives and whose layout it does not (R421, log 124): a reeve's summary for a
holding, a tally call, a fault report, the shadow record of a number, and a heartbeat of a steward. -/
inductive Requester where
  | nobody
  | carter (q c : Nat)
  | post (q : Nat)
  | gate (g c : Nat)
  /-- Multicast WRITEs, which nothing answers: their bytes count as they leave (R242), for the channel's generation. -/
  | castCarter (q c : Nat) (gen : BitVec 4)
  | castGate (g c : Nat) (gen : BitVec 4)
  | core (st n : Nat)
  | scaleToken (h n : Nat)
  | record (h n i : Nat)
  | verdict (h n : Nat)
  | stcReg (h n o : Nat)
  | summary (h : Nat) (m : Summary)
  | tallyCall (p : Nat) (step : W32)
  | report (r : Report)
  | shadow (n : Nat)
  | heartbeat (st : Nat)
deriving DecidableEq, Repr, Inhabited

/-- A mesh packet: the header fields of R52, the channel of R50, the payload bytes, and its requester. -/
structure Packet where
  op      : BitVec 8  := 0
  dest    : W16       := 0
  src     : W16       := 0
  tag     : W16       := 0
  vc      : BitVec 2  := 0
  origVc  : BitVec 2  := 0
  plane   : Plane     := .a
  escaped : Bool      := false
  poison  : Bool      := false
  tclass  : Bool      := false
  holding : BitVec 4  := 0
  attach  : BitVec 4  := 0
  mgroup  : BitVec 8  := 0
  window  : BitVec 4  := 0
  gen     : BitVec 8  := 0
  offset  : W32       := 0
  length  : BitVec 13 := 0
  nack    : BitVec 8  := 0
  opdata  : BitVec 96 := 0
  payload : List Byte := []
  who     : Requester := .nobody
deriving DecidableEq, Repr, Inhabited

/-- What the SEC-DED check of a router or a network interface finds on the packet's flits (R64). -/
inductive FlitErr where
  | none
  | corrected (flits : Nat)
  | uncorrBody
  | uncorrHead
  /-- No error of the packet's flits: the receive queue of the stitched link has left the range of 2 to 6 flits (R42). -/
  | slip
deriving DecidableEq, Repr, Inhabited

/-- Side of a router: N, E, S, W (R381). -/
inductive Dir where
  | n | e | s | w
deriving DecidableEq, Repr, Inhabited

/-- A link, named by its sending router (R381). -/
structure Link where
  q     : Nat
  plane : Plane
  dir   : Dir
  skip  : Bool
deriving DecidableEq, Repr, Inhabited

/-- An Ebsober message: header fields of R312 and its payload. -/
structure Msg where
  op      : BitVec 8  := 0
  status  : BitVec 8  := 0
  tag     : BitVec 13 := 0
  addr    : BitVec 48 := 0
  arg0    : W32 := 0
  arg1    : W32 := 0
  arg2    : W64 := 0
  payload : List Byte := []
deriving DecidableEq, Repr, Inhabited

/-- A codeword as a lane receives it (R303): whether it decoded, how many symbols were corrected, its marker (0xA5C and
the counter), and the 640 bytes of its frame. -/
structure Frame where
  decodes : Bool
  corr    : Nat
  marker  : BitVec 20
  bytes   : List Byte
deriving DecidableEq, Repr, Inhabited

/-- A read on the two-wire bus: the device address that the rack controller sends and the 16-bit offset (R18). -/
structure BusRead where
  addr : BitVec 7
  off  : W16
deriving DecidableEq, Repr

/-- What the cable's own memory declares (R300). -/
structure CableMemory where
  lanes      : Nat
  watts      : Nat
  copper     : Bool
  lengthCm   : Nat
  host200    : Bool
  lossPerM   : Nat
deriving DecidableEq, Repr, Inhabited

/-- A cage of the module: one of 84 lane cages or 2 management cages (R14 table of connectors). -/
inductive Cage where
  | lane (port : Fin 84)
  | management (st : Stw)
deriving DecidableEq, Repr

/-- IEEE 1149.1 instructions by the distinction R19 makes. -/
inductive TapInstr where
  | bypass | sample | extest
  /-- PRELOAD, with the cells that the tester shifts into the boundary-scan register. -/
  | preload (cells : List Bool)
  | other (code : Nat)
deriving DecidableEq, Repr, Inhabited

/-- One NORM message (R313). -/
structure NormMsg where
  step    : W32
  count   : BitVec 3
  origin  : BitVec 8
  replay  : Bool
  hops    : BitVec 8
  partialSum : W64
deriving DecidableEq, Repr, Inhabited

/-- Who asks for a replay (R267): software, the fault controller, or a replay notice. -/
inductive ReplayAsk where
  | software | faults | notice
deriving DecidableEq, Repr, Inhabited

/-- The physical findings that end a bring-up stage (R352–R354). -/
structure StageResult where
  ledgerOk    : Bool := true
  steward0Ok  : Bool := true
  steward1Ok  : Bool := true
  deadRouters : List (Nat × Plane) := []
  downLinks   : List Link := []
  /-- Failing wires of stitched links: link, group of 16 wires, wire 0 to 16 (R47). -/
  badWires    : List (Link × Nat × Nat) := []
  /-- Parishes that fail to lock or to pass link self-test (R353). -/
  offParishes : List Nat := []
deriving DecidableEq, Repr, Inhabited

/-- What the self-test of a croft finds (R369). -/
inductive SelfTest where
  | pass
  | badRow (bank row : Nat)
  | broken
deriving DecidableEq, Repr, Inhabited

/-- What a request at the control service asks for (R340). -/
inductive ControlRequest where
  | status
  | readFaults
  | createHolding (h : Hold)
  | resetHolding (h : Hold)
  | destroyHolding (h : Hold)
  | setAllotment (h : Hold) (res : W32) (power : W32)
  /-- The registers that a map sets, by steward physical address and value. -/
  | loadMap (h : Hold) (writes : List (BitVec 48 × W64))
  | startRun (h : Hold)
  | stopRun (h : Hold)
  | takeCheckpoint (h : Hold)
  | restoreCheckpoint (h : Hold)
deriving DecidableEq, Repr

/-- What the ECC of a ledger block finds: nothing, codewords corrected, or one that is uncorrectable (R400). -/
inductive BlockEcc where
  | clean
  | corrected (codewords : Nat)
  | uncorrectable
deriving DecidableEq, Repr, Inhabited

/-- A done report: the step, and the croft that sends it, none where the write is no croft's (R251). -/
structure DoneReport where
  croft : Option (Fin 26880)
  step  : W32
deriving DecidableEq, Repr, Inhabited

/-- The channel of a request: a croft carter channel or a gate stream channel (R224). -/
inductive ChanId where
  | croft (q : Phys) (c : Chn)
  | gate (g : GateId) (c : Ctx)
deriving DecidableEq, Repr

end Sys2Proof
end

