-- ==== Sys2Proof/Syntax.lean ====
section
/-! DEFINITION. The commands: one constructor per row of spec/opcode_table.json. -/

namespace Sys2Proof

/-- A command to the block, or an event of the block. Each constructor is one row of the opcode table; its
docstring names the row and the rule that governs it. -/
inductive Instr where
  /-- BUSBAR_WITHIN_LIMITS (R352). -/
  | busbarWithinLimits
  /-- BUSBAR_REMOVAL (R407). -/
  | busbarRemoval
  /-- SUPPLY_TRIP (R408). -/
  | supplyTrip (k : Fin 8) (high : Bool)
  /-- MOD_RESET_N_FALL (R22). -/
  | modResetNFall
  /-- MODULE_RESET (R22). -/
  | moduleReset
  /-- MOD_RESET_N_RISE (R22). -/
  | modResetNRise
  /-- TRIP_LATCH_CLEAR (R24). -/
  | tripLatchClear
  /-- PARISH_TRIP (R45). -/
  | parishTrip (p : Par) (network : Bool) (peak : W16)
  /-- TRIP_REPORT (R45). -/
  | tripReport (p : Par)
  /-- REFCLK_LOSS (R27). -/
  | refclkLoss
  /-- REFCLK_RETURN (R413). -/
  | refclkReturn
  /-- EPOCH_EDGE (R415). -/
  | epochEdge
  /-- EPOCH_LOSS (R28). -/
  | epochLoss
  /-- SUPPLY_READING (R29). -/
  | supplyReading (k : Fin 8) (current voltage : W16)
  /-- COOLANT_READING (R29). -/
  | coolantReading (inlet outlet : W16)
  /-- SENSOR_READING (R37). -/
  | sensorReading (p : Par) (s0 s1 s2 s3 : W16) (computeMv networkMv computeCur networkCur : W16)
  /-- TWB_READ (R18). -/
  | twbRead (read : BusRead)
  /-- TAP_INSTRUCTION (R19). -/
  | tapInstruction (i : TapInstr)
  /-- CABLE_INSERT_REMOVE (R26). -/
  | cableInsertRemove (c : Cage) (cable : Option CableMemory)
  /-- PAR_MAPOUT_WRITE (R36). -/
  | parMapoutWrite (p : Par) (v : W32)
  /-- ROW_MAP_SWITCH (R36). -/
  | rowMapSwitch (p : Par)
  /-- COMPUTE_EN_SET (R44). -/
  | computeEnSet (p : Par)
  /-- COMPUTE_EN_CLEAR (R44). -/
  | computeEnClear (p : Par)
  /-- COMPUTE_RAIL_UP (R44). -/
  | computeRailUp (p : Par)
  /-- PCLK_TARGET_WRITE (R41). -/
  | pclkTargetWrite (p : Par) (v : W32)
  /-- PCLK_STEP (R40). -/
  | pclkStep (p : Par)
  /-- NCLK_LOCK_LOSS (R39). -/
  | nclkLockLoss (p : Par)
  /-- TALLY_RECORD (R38). -/
  | tallyRecord (p : Par) (k : Packet)
  /-- TALLY_CALL (R38). -/
  | tallyCall (p : Par) (step : W32)
  /-- TALLY_TIMEOUT (R38). -/
  | tallyTimeout (p : Par) (step : W32)
  /-- PACKET_INJECT (R53). -/
  | packetInject (k : Packet)
  /-- PACKET_HOP (R59). -/
  | packetHop (i : Nat) (err : FlitErr)
  /-- ESCAPE (R57). -/
  | escape (i : Nat)
  /-- PACKET_DELIVER (R35). -/
  | packetDeliver (i : Nat) (err : FlitErr)
  /-- LIVENESS_PULSE (R65). -/
  | livenessPulse (q : Phys) (plane : Plane)
  /-- LINK_DOWN (R65). -/
  | linkDown (l : Link)
  /-- ROUTER_DEAD (R67). -/
  | routerDead (q : Phys) (plane : Plane)
  /-- PARISH_DEAD_ISOLATE (R69). -/
  | parishDeadIsolate (p : Par)
  /-- NET_TBL_DATA_WRITE (R73). -/
  | netTblDataWrite (p : Par) (v : W32)
  /-- NET_MCAST_HI_WRITE (R73). -/
  | netMcastHiWrite (p : Par) (v : W32)
  /-- TBL_APPLIED (R73). -/
  | tblApplied (p : Par)
  /-- REG_WRITE (R75). -/
  | regWrite (k : Packet)
  /-- REG_READ (R75). -/
  | regRead (k : Packet)
  /-- STEWARD_LOAD (R332). -/
  | stewardLoad (st : Stw) (core : Fin 16) (addr : BitVec 48) (bytes : Nat)
  /-- STEWARD_STORE (R332). -/
  | stewardStore (st : Stw) (core : Fin 16) (addr : BitVec 48) (bytes : Nat) (v : W64)
  /-- STEWARD_ACCESS_TIMEOUT (R332). -/
  | stewardAccessTimeout (st : Stw) (core : Fin 16)
  /-- WRITE (R94). -/
  | write (k : Packet)
  /-- READ_REQ (R94). -/
  | readReq (k : Packet)
  /-- TOKEN (R91). -/
  | token (k : Packet)
  /-- WRITE_COMMIT (R94). -/
  | writeCommit (q : Phys)
  /-- CLOSE_COMPLETE (R95). -/
  | closeComplete (q : Phys) (w : Fin 16)
  /-- WIN_CMD_OPEN (R92). -/
  | winCmdOpen (q : Phys) (v : W32)
  /-- WIN_CMD_CLOSE (R95). -/
  | winCmdClose (q : Phys) (v : W32)
  /-- CROFT_RESET (R100). -/
  | croftReset (q : Phys)
  /-- CROFT_RESET_DONE (R100). -/
  | croftResetDone (q : Phys)
  /-- FENCE_WRITE (R99). -/
  | fenceWrite (q : Phys) (fence : Bool)
  /-- SEQ_START (R85). -/
  | seqStart (q : Phys) (v : W32)
  /-- SEQ_STOP (R423). -/
  | seqStop (q : Phys)
  /-- STOP_IDLE (R423). -/
  | stopIdle (q : Phys)
  /-- CRF_SEQ_SLOTS_WRITE (R84). -/
  | crfSeqSlotsWrite (q : Phys) (v : W32)
  /-- CRF_STEP_WRITE (R250). -/
  | crfStepWrite (q : Phys) (v : W32)
  /-- CRF_REPAIR_DATA_WRITE (R83). -/
  | crfRepairDataWrite (q : Phys) (v : W32)
  /-- REPAIR_DONE (R83). -/
  | repairDone (q : Phys)
  /-- SCRUB (R81). -/
  | scrub (q : Phys) (bank : Fin 8) (row : Fin 4096)
  /-- NOP (R85). -/
  | nop (q : Phys)
  /-- LOAD (R145). -/
  | load (q : Phys)
  /-- STREAM (R145). -/
  | stream (q : Phys)
  /-- ADDIN (R145). -/
  | addin (q : Phys)
  /-- DRAIN (R153). -/
  | drain (q : Phys)
  /-- RUN (R215). -/
  | run (q : Phys)
  /-- FEED_24 (R183). -/
  | feed24 (q : Phys)
  /-- MERGE (R188). -/
  | merge (q : Phys)
  /-- FEED_MERGE (R189). -/
  | feedMerge (q : Phys)
  /-- SELECT (R192). -/
  | select (q : Phys)
  /-- FEED_LIST (R195). -/
  | feedList (q : Phys)
  /-- GLEAN (R196). -/
  | glean (q : Phys)
  /-- GATHER_COMPLETE (R178). -/
  | gatherComplete (q : Phys)
  /-- CARTER_WORD_START (R226). -/
  | carterWordStart (q : Phys)
  /-- CARTER_WORD_ABORT (R243). -/
  | carterWordAbort (q : Phys)
  /-- CARTER_WORD_DESTROY (R227). -/
  | carterWordDestroy (q : Phys)
  /-- LOOP (R87). -/
  | loop (q : Phys)
  /-- ENDLOOP (R87). -/
  | endloop (q : Phys)
  /-- SEQ_WAIT_QUEUE (R88). -/
  | seqWaitQueue (q : Phys)
  /-- SEQ_WAIT_STEP (R88). -/
  | seqWaitStep (q : Phys)
  /-- WAIT_END (R88). -/
  | waitEnd (q : Phys)
  /-- WAIT_TIMEOUT (R88). -/
  | waitTimeout (q : Phys)
  /-- POST (R91). -/
  | post (q : Phys)
  /-- REMOTE_POST (R91). -/
  | remotePost (q : Phys)
  /-- WINDOW_OPEN (R92). -/
  | windowOpen (q : Phys)
  /-- WINDOW_CLOSE (R95). -/
  | windowClose (q : Phys)
  /-- PHASE (R89). -/
  | phase (q : Phys)
  /-- PHASE_END (R89). -/
  | phaseEnd (q : Phys)
  /-- TALLY (R90). -/
  | tally (q : Phys)
  /-- HALT (R90). -/
  | halt (q : Phys)
  /-- LOAD_START (R146). -/
  | loadStart (q : Phys)
  /-- LOAD_READY (R146). -/
  | loadReady (q : Phys)
  /-- STREAM_START (R146). -/
  | streamStart (q : Phys)
  /-- STREAM_LINE (R135). -/
  | streamLine (q : Phys)
  /-- ADDIN_LINE (R137). -/
  | addinLine (q : Phys)
  /-- CHECKSUM_INJECT (R140). -/
  | checksumInject (q : Phys)
  /-- DRAIN_START (R154). -/
  | drainStart (q : Phys)
  /-- DRAIN_ROW (R147). -/
  | drainRow (q : Phys)
  /-- DRAIN_END (R151). -/
  | drainEnd (q : Phys)
  /-- VECTOR_START (R220). -/
  | vectorStart (q : Phys)
  /-- BEAT (R219). -/
  | beat (q : Phys)
  /-- VECTOR_END (R218). -/
  | vectorEnd (q : Phys)
  /-- RESIDUE_INJECT (R222). -/
  | residueInject (q : Phys)
  /-- CAR_CMD_START (R226). -/
  | carCmdStart (q : Phys) (v : W32)
  /-- CAR_CMD_ABORT (R243). -/
  | carCmdAbort (q : Phys) (v : W32)
  /-- CAR_CMD_DESTROY (R227). -/
  | carCmdDestroy (q : Phys) (v : W32)
  /-- MOVE (R233). -/
  | move (q : Phys) (c : Chn)
  /-- SPLIT_PLANES (R238). -/
  | splitPlanes (q : Phys) (c : Chn)
  /-- MERGE_PLANES (R238). -/
  | mergePlanes (q : Phys) (c : Chn)
  /-- INTERLEAVE (R239). -/
  | interleave (q : Phys) (c : Chn)
  /-- DEINTERLEAVE (R239). -/
  | deinterleave (q : Phys) (c : Chn)
  /-- CARTER_LOOP (R231). -/
  | carterLoop (q : Phys) (c : Chn)
  /-- CARTER_WAIT_QUEUE (R235). -/
  | carterWaitQueue (q : Phys) (c : Chn)
  /-- CARTER_WAIT_EVENT (R235). -/
  | carterWaitEvent (q : Phys) (c : Chn)
  /-- CARTER_WAIT_ARRIVAL (R235). -/
  | carterWaitArrival (q : Phys) (c : Chn)
  /-- CARTER_WAIT_STEP (R235). -/
  | carterWaitStep (q : Phys) (c : Chn)
  /-- CARTER_WAIT_CHANNEL (R235). -/
  | carterWaitChannel (q : Phys) (c : Chn)
  /-- CARTER_WAIT_END (R235). -/
  | carterWaitEnd (q : Phys) (c : Chn)
  /-- CARTER_WAIT_TIMEOUT (R235). -/
  | carterWaitTimeout (q : Phys) (c : Chn)
  /-- SIGNAL_QUEUE (R237). -/
  | signalQueue (q : Phys) (c : Chn)
  /-- SIGNAL_TOKEN (R237). -/
  | signalToken (q : Phys) (c : Chn)
  /-- SIGNAL_FLAG (R237). -/
  | signalFlag (q : Phys) (c : Chn)
  /-- CARTER_END (R237). -/
  | carterEnd (q : Phys) (c : Chn)
  /-- WRITE_ACK (R242). -/
  | writeAck (k : Packet)
  /-- READ_DATA (R233). -/
  | readData (k : Packet)
  /-- NACK (R240). -/
  | nack (k : Packet)
  /-- REG_DATA (R242). -/
  | regData (k : Packet)
  /-- REQUEST_TIMEOUT (R240). -/
  | requestTimeout (ch : ChanId) (tag : W16)
  /-- RETRY (R240). -/
  | retry (ch : ChanId) (tag : W16)
  /-- CHANNEL_DRAIN_END (R241). -/
  | channelDrainEnd (ch : ChanId)
  /-- RUN_WRITE (R249). -/
  | runWrite (h : Hold) (run : Bool)
  /-- REPLAY (R267). -/
  | replay (h : Hold) (ask : ReplayAsk)
  /-- ABANDON (R249). -/
  | abandon (h : Hold)
  /-- RESTORE_HOLD_WRITE (R268). -/
  | restoreHoldWrite (h : Hold) (hold : Bool)
  /-- STC_STEP_WRITE (R252). -/
  | stcStepWrite (h : Hold) (v : W32)
  /-- OPENING (R165). -/
  | opening (h : Hold)
  /-- SCALE_TOKEN_ACK (R165). -/
  | scaleTokenAck (h : Hold) (k : Packet)
  /-- TALLY_SUMMARY (R159). -/
  | tallySummary (h : Hold) (m : Summary)
  /-- TALLY_CALL_TIMER (R38). -/
  | tallyCallTimer (h : Hold)
  /-- STC_NORM_PART_HI_WRITE (R282). -/
  | stcNormPartHiWrite (h : Hold) (v : W32)
  /-- NORM (R283). -/
  | norm (h : Hold) (m : NormMsg)
  /-- VERDICT_TOKEN_RETRY (R163). -/
  | verdictTokenRetry (h : Hold) (n : Fin 26880)
  /-- OVERFLOW_RESTART (R164). -/
  | overflowRestart (h : Hold)
  /-- NORM_TIMEOUT (R285). -/
  | normTimeout (h : Hold)
  /-- DONE_REPORT (R251). -/
  | doneReport (h : Hold) (r : DoneReport)
  /-- GO (R170). -/
  | go (h : Hold)
  /-- FILL_WRITE (R170). -/
  | fillWrite (h : Hold) (v : W32)
  /-- RESTORE_CROFTS_STOPPED (R268). -/
  | restoreCroftsStopped (h : Hold)
  /-- RESTORE_CONTEXTS_FREE (R268). -/
  | restoreContextsFree (h : Hold)
  /-- FINGERPRINT (R273). -/
  | fingerprint (h : Hold) (m : Msg)
  /-- HARVEST_CHUNK (R263). -/
  | harvestChunk (g : GateId) (port : PortId) (m : Msg)
  /-- PORT_ENABLE (R300). -/
  | portEnable (g : GateId) (port : PortId)
  /-- PORT_DISABLE (R301). -/
  | portDisable (g : GateId) (port : PortId)
  /-- ROLE_WRITE (R320). -/
  | roleWrite (g : GateId) (port : PortId) (v : W32)
  /-- CABLE_CHECK (R300). -/
  | cableCheck (g : GateId) (port : PortId)
  /-- CABLE_ALARM_POLL (R300). -/
  | cableAlarmPoll (g : GateId) (port : PortId) (fatal : Byte)
  /-- TRAIN_SUCCESS (R301). -/
  | trainSuccess (g : GateId) (l : LaneId) (loss : W16)
  /-- TRAIN_TIMEOUT (R301). -/
  | trainTimeout (g : GateId) (l : LaneId)
  /-- LOCK (R303). -/
  | lock (g : GateId) (l : LaneId)
  /-- LOCK_TIMEOUT (R301). -/
  | lockTimeout (g : GateId) (l : LaneId)
  /-- LOSS_OF_LOCK (R303). -/
  | lossOfLock (g : GateId) (l : LaneId)
  /-- CAPS (R310). -/
  | caps (g : GateId) (l : LaneId) (f : Frame)
  /-- DATA (R306). -/
  | data (g : GateId) (l : LaneId) (f : Frame)
  /-- IDLE (R304). -/
  | idle (g : GateId) (l : LaneId) (f : Frame)
  /-- ACK_TIMEOUT (R306). -/
  | ackTimeout (g : GateId) (l : LaneId)
  /-- TIME (R311). -/
  | time (g : GateId) (l : LaneId) (f : Frame)
  /-- TIME_FRAME_TIMER (R311). -/
  | timeFrameTimer (g : GateId) (port : PortId)
  /-- EBSOBER_READ_DATA (R314). -/
  | ebsoberReadData (g : GateId) (port : PortId) (m : Msg)
  /-- WRITE_DONE (R323). -/
  | writeDone (g : GateId) (port : PortId) (m : Msg)
  /-- SHARD_DATA (R314). -/
  | shardData (g : GateId) (port : PortId) (m : Msg)
  /-- SHARD_DONE (R323). -/
  | shardDone (g : GateId) (port : PortId) (m : Msg)
  /-- ERROR (R315). -/
  | error (g : GateId) (port : PortId) (m : Msg)
  /-- PERMUTE_DATA (R313). -/
  | permuteData (g : GateId) (port : PortId) (m : Msg)
  /-- PERMUTE_ACK (R313). -/
  | permuteAck (g : GateId) (port : PortId) (m : Msg)
  /-- GAT_CH_START (R322). -/
  | gatChStart (g : GateId) (c : Ctx) (holding : BitVec 4)
  /-- GAT_CH_ABORT (R323). -/
  | gatChAbort (g : GateId) (c : Ctx) (gen : BitVec 4)
  /-- GAT_CH_DESTROY (R322). -/
  | gatChDestroy (g : GateId) (c : Ctx) (gen : BitVec 4)
  /-- STORE_TIMEOUT (R324). -/
  | storeTimeout (g : GateId) (tag : BitVec 13)
  /-- MERGE_WAIT_EXPIRY (R325). -/
  | mergeWaitExpiry (g : GateId)
  /-- GATE_LOST (R380). -/
  | gateLost (g : GateId)
  /-- HEARTBEAT (R336). -/
  | heartbeat (st : Stw)
  /-- HEARTBEAT_TIMEOUT (R336). -/
  | heartbeatTimeout (st : Stw)
  /-- KICK (R336). -/
  | kick (st : Stw)
  /-- WATCHDOG_EXPIRY (R336). -/
  | watchdogExpiry (st : Stw)
  /-- TAKEOVER (R337). -/
  | takeover (st : Stw)
  /-- RELEASE (R338). -/
  | release (st : Stw)
  /-- SHADOW_RECORD (R334). -/
  | shadowRecord (n : Nat)
  /-- CREATE (R342). -/
  | create (h : Hold)
  /-- RESET (R344). -/
  | reset (h : Hold)
  /-- DESTROY (R343). -/
  | destroy (h : Hold)
  /-- HOLDING_RESET_DONE (R344). -/
  | holdingResetDone (h : Hold)
  /-- ALT_RES_WRITE (R345). -/
  | altResWrite (h : Hold) (v : W32)
  /-- ALT_POWER_WRITE (R347). -/
  | altPowerWrite (h : Hold) (v : W32)
  /-- ALT_MODULE_CAP_WRITE (R348). -/
  | altModuleCapWrite (v : W32)
  /-- ALLOTMENT_APPLIED (R345). -/
  | allotmentApplied (h : Hold)
  /-- HOLDING_POWER_READING (R347). -/
  | holdingPowerReading (h : Hold) (watts : Nat)
  /-- MODULE_POWER_READING (R348). -/
  | modulePowerReading
  /-- STAGE_COMPLETE (R352). -/
  | stageComplete (r : StageResult)
  /-- SECTION_DIGEST (R360). -/
  | sectionDigest (copyB : Bool)
  /-- COMPUTE_WAVE (R368). -/
  | computeWave (k : Fin 8)
  /-- CROFT_SELFTEST (R369). -/
  | croftSelftest (q : Phys) (r : SelfTest)
  /-- SOW_OPEN (R373). -/
  | sowOpen
  /-- SOW_SEND (R373). -/
  | sowSend
  /-- SOW_CHECK (R373). -/
  | sowCheck
  /-- SOW_END (R373). -/
  | sowEnd
  /-- SOW_OP_DONE (R379). -/
  | sowOpDone
  /-- CHUNK_CHECK (R372). -/
  | chunkCheck (q : Phys) (c : Fin 512)
  /-- COMMIT (R363). -/
  | commit
  /-- FUSE_BLOW_DONE (R363). -/
  | fuseBlowDone
  /-- GET_VERSION (R366). -/
  | getVersion (st : Stw)
  /-- GET_CAPABILITIES (R366). -/
  | getCapabilities (st : Stw)
  /-- NEGOTIATE_ALGORITHMS (R366). -/
  | negotiateAlgorithms (st : Stw)
  /-- GET_DIGESTS (R366). -/
  | getDigests (st : Stw)
  /-- GET_CERTIFICATE (R366). -/
  | getCertificate (st : Stw) (slot : Nat) (off len : Nat)
  /-- CHALLENGE (R366). -/
  | challenge (st : Stw) (slot : Nat) (nonce : List Byte)
  /-- GET_MEASUREMENTS (R367). -/
  | getMeasurements (st : Stw) (index : Nat)
  /-- UNSUPPORTED_REQUEST (R366). -/
  | unsupportedRequest (st : Stw) (code : Byte)
  /-- FAULT_REPORT (R382). -/
  | faultReport (r : Report)
  /-- CAUSE_END (R384). -/
  | causeEnd (d : Fin 17) (source : Nat) (loc : W32)
  /-- TALLY_SLOT_CLOSE (R386). -/
  | tallySlotClose (source : Nat) (loc : W32)
  /-- RECORD_APPEND (R393). -/
  | recordAppend (d : Fin 17)
  /-- FLT_CLEAR_WRITE (R394). -/
  | fltClearWrite (v : W32)
  /-- LEVEL_CLEAR (R395). -/
  | levelClear
  /-- BELL_PULSE_END (R395). -/
  | bellPulseEnd
  /-- FLT_INJECT_WRITE (R401). -/
  | fltInjectWrite (v : W32)
  /-- LDG_READ (R404). -/
  | ldgRead (block : BitVec 20) (found : BlockEcc)
  /-- LDG_WRITE (R404). -/
  | ldgWrite (block : BitVec 20) (bad : Bool)
  /-- LDG_OP_DONE (R402). -/
  | ldgOpDone
  /-- REGISTER_WRITE (R13). -/
  | registerWrite (addr : BitVec 48) (bytes : Nat) (v : W64)
  /-- AUX_CONVERTER_START (R407). -/
  | auxConverterStart
  /-- BUSBAR_OVERVOLTAGE (R407). -/
  | busbarOvervoltage
  /-- SHADOW_ACK (R334). -/
  | shadowAck (n : Nat)
  /-- CONTROL_SERVICE_REQUEST (R340). -/
  | controlServiceRequest (st : Stw) (r : ControlRequest)
  /-- SCHED_ILLEGAL (R85). -/
  | schedIllegal (q : Phys)
  /-- CARTER_ILLEGAL (R230). -/
  | carterIllegal (q : Phys) (c : Chn)
  /-- CAGE_SUPPLY_SHORT (R419). -/
  | cageSupplyShort (g : GateId) (port : PortId)
  /-- STEWARD_UE (R380). -/
  | stewardUe (st : Stw)
  /-- ABANDON_COMPLETE (R249). -/
  | abandonComplete (h : Hold)
deriving DecidableEq, Repr

end Sys2Proof
end

