-- ==== Sys2Proof/Decode.lean ====
section
/-! DEFINITION. The reading of a command from a word. The opcode table gives no row any bits: its commands arrive
at pins, links and registers, so no word spells one. -/

namespace Sys2Proof

/-- The command that a word spells by the table's bits: none, for no row has bits. -/
def decodeTableWord (_nbits _w : Nat) : Option Instr := none

end Sys2Proof
end

