-- ==== Sys2Proof/Machine/Bits.lean ====
section
/-! DEFINITION. Bit fields, byte order (R7), saturating counts and two's complement, as the register and word
layouts of the spec use them. -/

namespace Sys2Proof.Machine

/-- Bits [hi:lo] of a register or word held as a number. -/
def bitsOf (v hi lo : Nat) : Nat := v / 2 ^ lo % 2 ^ (hi + 1 - lo)

/-- Bits [hi:lo] of a register. -/
def fld (v : W64) (hi lo : Nat) : Nat := bitsOf v.toNat hi lo

/-- Bit i of a register. -/
def bit (v : W64) (i : Nat) : Bool := v.getLsbD i

/-- A mask of bits [hi:lo]. -/
def maskOf (hi lo : Nat) : W64 := BitVec.ofNat 64 ((2 ^ (hi + 1 - lo) - 1) * 2 ^ lo)

/-- A register with bits [hi:lo] replaced by n, cut to the field. -/
def setFld (v : W64) (hi lo n : Nat) : W64 :=
  (v &&& ~~~ maskOf hi lo) ||| (BitVec.ofNat 64 (n % 2 ^ (hi + 1 - lo) * 2 ^ lo))

/-- 1 for true, 0 for false. -/
def b2n (b : Bool) : Nat := if b then 1 else 0

/-- A count that saturates at 2^32 − 1. -/
def satAdd (a b : Nat) : Nat := min (a + b) 0xFFFFFFFF

/-- The k bytes of a number, byte 0 first (R7). -/
def leBytes : Nat → Nat → List Byte
  | 0, _ => []
  | k + 1, n => BitVec.ofNat 8 n :: leBytes k (n / 256)

/-- The number that bytes spell, byte 0 least significant (R7). -/
def ofLe : List Byte → Nat
  | [] => 0
  | b :: bs => b.toNat + 256 * ofLe bs

/-- The k bytes of a number, most significant first (SHA-384). -/
def beBytes (k n : Nat) : List Byte := (leBytes k n).reverse

/-- The number that bytes spell, most significant first. -/
def ofBe (bs : List Byte) : Nat := ofLe bs.reverse

/-- Bytes lo to lo + len − 1 of a list, zero past its end. -/
def slice (bs : List Byte) (lo len : Nat) : List Byte :=
  let t := (bs.drop lo).take len
  t ++ List.replicate (len - t.length) 0

/-- A w-bit field read as two's complement. -/
def signed (w n : Nat) : Int := if 2 * (n % 2 ^ w) < 2 ^ w then (n % 2 ^ w : Nat) else (n % 2 ^ w : Nat) - (2 ^ w : Nat)

/-- The w-bit two's complement code of an integer, wrapped. -/
def unsigned (w : Nat) (x : Int) : Nat := (x % (2 ^ w : Nat)).toNat

/-- Ceiling of a quotient. -/
def ceilDiv (a b : Nat) : Nat := (a + b - 1) / b

/-- Run f n times. -/
def iter {α : Type} : Nat → (α → α) → α → α
  | 0, _, x => x
  | n + 1, f, x => iter n f (f x)

end Sys2Proof.Machine
end

