-- ==== Sys2Proof/Machine/Tab.lean ====
section
/-! DEFINITION. Sparse tables in canonical form: pairs of a key and a value with strictly rising keys and no
entry equal to the table's default. Memory is such a table of bytes with one default byte. -/

namespace Sys2Proof.Machine

/-- The value at a key: the listed one, or the default. -/
def Tab.get {α : Type} (d : Nat → α) : List (Nat × α) → Nat → α
  | [], k => d k
  | (j, v) :: t, k => if k = j then v else Tab.get d t k

/-- The table with key k removed. -/
def Tab.erase {α : Type} : List (Nat × α) → Nat → List (Nat × α)
  | [], _ => []
  | (j, v) :: t, k => if k = j then Tab.erase t k else (j, v) :: Tab.erase t k

/-- The table with key k listed at value v. -/
def Tab.insert {α : Type} : List (Nat × α) → Nat → α → List (Nat × α)
  | [], k, v => [(k, v)]
  | (j, w) :: t, k, v =>
    if k < j then (k, v) :: (j, w) :: t
    else if k = j then (k, v) :: t
    else (j, w) :: Tab.insert t k v

/-- Writing a value in place of what the key held: the default leaves no entry. -/
def Tab.set {α : Type} [DecidableEq α] (d : Nat → α) (t : List (Nat × α)) (k : Nat) (v : α) : List (Nat × α) :=
  if v = d k then Tab.erase t k else Tab.insert (Tab.erase t k) k v

/-- Every key from lo to hi − 1 back at its default. -/
def Tab.clear {α : Type} (t : List (Nat × α)) (lo hi : Nat) : List (Nat × α) :=
  t.filter fun e => e.1 < lo || hi ≤ e.1

/-- The canonical form. -/
def Tab.wf {α : Type} [DecidableEq α] (d : Nat → α) (t : List (Nat × α)) : Bool :=
  decide (t.Pairwise fun a b => a.1 < b.1) && t.all fun e => decide (e.2 ≠ d e.1)

/-- What a byte of memory that nothing has written reads as: zero (log 2). -/
def memDefault (_ : Nat) : Byte := 0

/-- One byte of a memory. -/
def Memory.byte (m : List (Nat × Byte)) (a : Nat) : Byte := Tab.get memDefault m a

/-- A memory with one byte written. -/
def Memory.put (m : List (Nat × Byte)) (a : Nat) (b : Byte) : List (Nat × Byte) := Tab.set memDefault m a b

/-- The n bytes from address a. -/
def Memory.read (m : List (Nat × Byte)) (a : Nat) : Nat → List Byte
  | 0 => []
  | n + 1 => Memory.byte m a :: Memory.read m (a + 1) n

/-- A memory with bytes written from address a. -/
def Memory.write (m : List (Nat × Byte)) (a : Nat) : List Byte → List (Nat × Byte)
  | [] => m
  | b :: bs => Memory.write (Memory.put m a b) (a + 1) bs

/-- The memory's canonical form: addresses strictly rising, no entry equal to what an unlisted address reads. -/
def Memory.wf (m : List (Nat × Byte)) : Bool := Tab.wf memDefault m

end Sys2Proof.Machine
end

