-- ==== Sys2Proof/Machine/RegMap.lean ====
section
/-! DEFINITION. The register map: the offset of every register in its unit's register space, and for each block a
list of its registers with their stride, count, width, reset value (R12) and the bits of each access code (R13).
A croft's space is the local offset less 0x0F00_0000 (R74); a parish's holds PAR_ and, from 0x1000, NET_; a gate's
holds GAT_ and, from 0x4_0000, LNK_; the module's holds MOD_, STW_ of S0 and of S1, HLD_, ALT_, SEC_, FLT_ and LDG_,
one megabyte apart. -/

namespace Sys2Proof.Machine

/-- One row of a register map: offset, stride and count, width, reset value, and the bits that read and write as
RW, W1C and RC. All other bits ignore writes. -/
structure RegDef where
  off    : Nat
  stride : Nat := 0
  count  : Nat := 1
  wide   : Bool := false
  rst    : W64 := 0
  rw     : W64 := 0
  w1c    : W64 := 0
  rc     : W64 := 0
deriving DecidableEq, Repr

namespace Reg

/-- MOD_ID. -/
def modId : Nat := 0x0
/-- MOD_SUPPLY, number i. -/
def modSupply (i : Nat) : Nat := 0x100 + 0x4 * i
/-- MOD_COOLANT. -/
def modCoolant : Nat := 0x120
/-- MOD_WAFER_TEMP. -/
def modWaferTemp : Nat := 0x124
/-- MOD_SERVICE. -/
def modService : Nat := 0x130
/-- PAR_STATUS. -/
def parStatus : Nat := 0x0
/-- PAR_CTRL. -/
def parCtrl : Nat := 0x4
/-- PAR_PCLK. -/
def parPclk : Nat := 0x8
/-- PAR_TEMP_A. -/
def parTempA : Nat := 0x10
/-- PAR_TEMP_B. -/
def parTempB : Nat := 0x14
/-- PAR_RAIL. -/
def parRail : Nat := 0x20
/-- PAR_CURRENT. -/
def parCurrent : Nat := 0x24
/-- PAR_MAPOUT. -/
def parMapout : Nat := 0x30
/-- PAR_ROWMAP, number i. -/
def parRowmap (i : Nat) : Nat := 0x40 + 0x4 * i
/-- PAR_TALLY_CFG. -/
def parTallyCfg : Nat := 0xa0
/-- PAR_TALLY_STAT. -/
def parTallyStat : Nat := 0xa4
/-- PAR_TALLY_STRAY. -/
def parTallyStray : Nat := 0xa8
/-- NET_STATUS. -/
def netStatus : Nat := 0x1000
/-- NET_CFG. -/
def netCfg : Nat := 0x1004
/-- NET_ARB. -/
def netArb : Nat := 0x1008
/-- NET_TBL_SEL. -/
def netTblSel : Nat := 0x1010
/-- NET_TBL_DATA. -/
def netTblData : Nat := 0x1014
/-- NET_MCAST_SEL. -/
def netMcastSel : Nat := 0x1020
/-- NET_MCAST_LO. -/
def netMcastLo : Nat := 0x1024
/-- NET_MCAST_HI. -/
def netMcastHi : Nat := 0x1028
/-- NET_ERR_CORR. -/
def netErrCorr : Nat := 0x1040
/-- NET_ERR_UNCORR. -/
def netErrUncorr : Nat := 0x1044
/-- NET_ESCAPES. -/
def netEscapes : Nat := 0x1048
/-- NET_MCAST_DROP. -/
def netMcastDrop : Nat := 0x104c
/-- CRF_ID. -/
def crfId : Nat := 0x0
/-- CRF_STATUS. -/
def crfStatus : Nat := 0x4
/-- CRF_CTRL. -/
def crfCtrl : Nat := 0x8
/-- CRF_STEP. -/
def crfStep : Nat := 0xc
/-- CRF_SEQ_CTRL. -/
def crfSeqCtrl : Nat := 0x10
/-- CRF_SEQ_STATUS. -/
def crfSeqStatus : Nat := 0x14
/-- CRF_SEQ_SLOTS. -/
def crfSeqSlots : Nat := 0x18
/-- CRF_SEQ_STALL. -/
def crfSeqStall : Nat := 0x1c
/-- CRF_TOKQ. -/
def crfTokq : Nat := 0x20
/-- CRF_FAULT. -/
def crfFault : Nat := 0x24
/-- CRF_WIN_CMD. -/
def crfWinCmd : Nat := 0x30
/-- CRF_WIN_LIMIT. -/
def crfWinLimit : Nat := 0x34
/-- CRF_WIN_RANGE, number i. -/
def crfWinRange (i : Nat) : Nat := 0x40 + 0x8 * i
/-- CRF_WIN_STATE, number i. -/
def crfWinState (i : Nat) : Nat := 0x44 + 0x8 * i
/-- CRF_ECC_CORR. -/
def crfEccCorr : Nat := 0xc0
/-- CRF_ECC_UNCORR. -/
def crfEccUncorr : Nat := 0xc4
/-- CRF_ECC_LOG. -/
def crfEccLog : Nat := 0xc8
/-- CRF_REPAIR_SEL. -/
def crfRepairSel : Nat := 0xd0
/-- CRF_REPAIR_DATA. -/
def crfRepairData : Nat := 0xd4
/-- CRF_REPAIR_STATUS. -/
def crfRepairStatus : Nat := 0xd8
/-- ARR_STATUS. -/
def arrStatus : Nat := 0x3000
/-- ARR_CTRL. -/
def arrCtrl : Nat := 0x3004
/-- ARR_DRAIN_SCALE. -/
def arrDrainScale : Nat := 0x3008
/-- ARR_TSCALE. -/
def arrTscale : Nat := 0x300c
/-- ARR_LUT_X0. -/
def arrLutX0 : Nat := 0x3010
/-- ARR_LUT_INVSTEP. -/
def arrLutInvstep : Nat := 0x3014
/-- ARR_FAULT. -/
def arrFault : Nat := 0x3020
/-- ARR_CHK_LOG. -/
def arrChkLog : Nat := 0x3024
/-- ARR_SAT_COUNT. -/
def arrSatCount : Nat := 0x3030
/-- ARR_NAN_COUNT. -/
def arrNanCount : Nat := 0x3034
/-- ARR_CHK_SKIP. -/
def arrChkSkip : Nat := 0x3038
/-- ARR_CHK_COUNT. -/
def arrChkCount : Nat := 0x303c
/-- ARR_ACC_CORR. -/
def arrAccCorr : Nat := 0x3040
/-- ARR_ACC_UNCORR. -/
def arrAccUncorr : Nat := 0x3044
/-- ARR_AMAX, number i. -/
def arrAmax (i : Nat) : Nat := 0x3080 + 0x4 * i
/-- ARR_LUT, number i. -/
def arrLut (i : Nat) : Nat := 0x3400 + 0x4 * i
/-- STC_LS_CFG. -/
def stcLsCfg : Nat := 0x0
/-- STC_LS_GROWTH. -/
def stcLsGrowth : Nat := 0x4
/-- STC_LS_STATE. -/
def stcLsState : Nat := 0x8
/-- STC_CFG. -/
def stcCfg : Nat := 0xc
/-- STC_VERDICT. -/
def stcVerdict : Nat := 0x10
/-- STC_VERDICT_STEP. -/
def stcVerdictStep : Nat := 0x14
/-- STC_SKIPS. -/
def stcSkips : Nat := 0x18
/-- STC_FAULT. -/
def stcFault : Nat := 0x1c
/-- STC_TALLY_SAT. -/
def stcTallySat : Nat := 0x20
/-- STC_TALLY_INF. -/
def stcTallyInf : Nat := 0x24
/-- STC_TALLY_NAN. -/
def stcTallyNan : Nat := 0x28
/-- STC_TALLY_RESID. -/
def stcTallyResid : Nat := 0x2c
/-- STC_TALLY_ACKS. -/
def stcTallyAcks : Nat := 0x30
/-- STC_TALLY_STEP. -/
def stcTallyStep : Nat := 0x34
/-- STC_RESID_LIMIT. -/
def stcResidLimit : Nat := 0x40
/-- STC_HIST. -/
def stcHist : Nat := 0x44
/-- STC_SEED_LO. -/
def stcSeedLo : Nat := 0x50
/-- STC_SEED_HI. -/
def stcSeedHi : Nat := 0x54
/-- GTH_STATUS. -/
def gthStatus : Nat := 0x4000
/-- GTH_CFG. -/
def gthCfg : Nat := 0x4004
/-- GTH_FAULT. -/
def gthFault : Nat := 0x4008
/-- GTH_FAULT_LOG. -/
def gthFaultLog : Nat := 0x400c
/-- GTH_PRED_THETA, number i. -/
def gthPredTheta (i : Nat) : Nat := 0x4100 + 0x20 * i
/-- GTH_PRED_GUARD, number i. -/
def gthPredGuard (i : Nat) : Nat := 0x4104 + 0x20 * i
/-- GTH_PRED_MISS_EPS, number i. -/
def gthPredMissEps (i : Nat) : Nat := 0x4108 + 0x20 * i
/-- GTH_PRED_LIMIT, number i. -/
def gthPredLimit (i : Nat) : Nat := 0x410c + 0x20 * i
/-- GTH_PRED_CTRL, number i. -/
def gthPredCtrl (i : Nat) : Nat := 0x4110 + 0x20 * i
/-- GTH_PRED_STEP, number i. -/
def gthPredStep (i : Nat) : Nat := 0x4114 + 0x20 * i
/-- GTH_PRED_COUNT, number i. -/
def gthPredCount (i : Nat) : Nat := 0x4118 + 0x20 * i
/-- GTH_PRED_WIN, number i. -/
def gthPredWin (i : Nat) : Nat := 0x411c + 0x20 * i
/-- VEC_STATUS. -/
def vecStatus : Nat := 0x2000
/-- VEC_CTRL. -/
def vecCtrl : Nat := 0x2004
/-- VEC_TSCALE. -/
def vecTscale : Nat := 0x2008
/-- VEC_FAULT. -/
def vecFault : Nat := 0x2010
/-- VEC_FAULT_LOG. -/
def vecFaultLog : Nat := 0x2014
/-- VEC_SAT_COUNT. -/
def vecSatCount : Nat := 0x2020
/-- VEC_NAN_COUNT. -/
def vecNanCount : Nat := 0x2024
/-- VEC_TB_CORR. -/
def vecTbCorr : Nat := 0x2028
/-- VEC_TB_UNCORR. -/
def vecTbUncorr : Nat := 0x202c
/-- VEC_CONST, number i. -/
def vecConst (i : Nat) : Nat := 0x2040 + 0x4 * i
/-- VEC_AMAX, number i. -/
def vecAmax (i : Nat) : Nat := 0x2080 + 0x4 * i
/-- VEC_RED, number i. -/
def vecRed (i : Nat) : Nat := 0x2100 + 0x8 * i
/-- VEC_DESC, number i. -/
def vecDesc (i : Nat) : Nat := 0x2400 + 0x8 * i
/-- VEC_PROG, number i. -/
def vecProg (i : Nat) : Nat := 0x2800 + 0x4 * i
/-- CAR_STATUS. -/
def carStatus : Nat := 0x1000
/-- CAR_CFG. -/
def carCfg : Nat := 0x1004
/-- CAR_CMD. -/
def carCmd : Nat := 0x1008
/-- CAR_CMD_HANDLE. -/
def carCmdHandle : Nat := 0x100c
/-- CAR_FAULT. -/
def carFault : Nat := 0x1010
/-- CAR_EVENT. -/
def carEvent : Nat := 0x1014
/-- CAR_RETRIES. -/
def carRetries : Nat := 0x1018
/-- CAR_LATE. -/
def carLate : Nat := 0x101c
/-- CAR_ARRIVE, number i. -/
def carArrive (i : Nat) : Nat := 0x1040 + 0x4 * i
/-- CAR_CH_HANDLE, number i. -/
def carChHandle (i : Nat) : Nat := 0x1100 + 0x20 * i
/-- CAR_CH_STATUS, number i. -/
def carChStatus (i : Nat) : Nat := 0x1104 + 0x20 * i
/-- CAR_CH_PC, number i. -/
def carChPc (i : Nat) : Nat := 0x1108 + 0x20 * i
/-- CAR_CH_C0, number i. -/
def carChC0 (i : Nat) : Nat := 0x110c + 0x20 * i
/-- CAR_CH_C1, number i. -/
def carChC1 (i : Nat) : Nat := 0x1110 + 0x20 * i
/-- CAR_CH_BYTES, number i. -/
def carChBytes (i : Nat) : Nat := 0x1118 + 0x20 * i
/-- STC_STEP. -/
def stcStep : Nat := 0x100
/-- STC_SEQ_CTRL. -/
def stcSeqCtrl : Nat := 0x104
/-- STC_SEQ_STATUS. -/
def stcSeqStatus : Nat := 0x108
/-- STC_ENROLLED. -/
def stcEnrolled : Nat := 0x10c
/-- STC_DONE. -/
def stcDone : Nat := 0x110
/-- STC_DONE_COUNT. -/
def stcDoneCount : Nat := 0x114
/-- STC_REPLAY_CFG. -/
def stcReplayCfg : Nat := 0x118
/-- STC_REPLAYS. -/
def stcReplays : Nat := 0x11c
/-- STC_SEQ_FAULT. -/
def stcSeqFault : Nat := 0x120
/-- STC_MIRROR. -/
def stcMirror : Nat := 0x124
/-- STC_FPRINT_LO. -/
def stcFprintLo : Nat := 0x128
/-- STC_FPRINT_HI. -/
def stcFprintHi : Nat := 0x12c
/-- STC_FPRINT_PEER_LO. -/
def stcFprintPeerLo : Nat := 0x130
/-- STC_FPRINT_PEER_HI. -/
def stcFprintPeerHi : Nat := 0x134
/-- STC_STEP_TIME. -/
def stcStepTime : Nat := 0x138
/-- STC_TALLY_LIMIT. -/
def stcTallyLimit : Nat := 0x13c
/-- STC_SCHED_CFG. -/
def stcSchedCfg : Nat := 0x200
/-- STC_SCHED_WARM. -/
def stcSchedWarm : Nat := 0x204
/-- STC_SCHED_DECAY. -/
def stcSchedDecay : Nat := 0x208
/-- STC_SCHED_F_START. -/
def stcSchedFStart : Nat := 0x20c
/-- STC_SCHED_F_PEAK. -/
def stcSchedFPeak : Nat := 0x210
/-- STC_SCHED_F_END. -/
def stcSchedFEnd : Nat := 0x214
/-- STC_SCHED_POS. -/
def stcSchedPos : Nat := 0x218
/-- STC_SCHED_REWARM. -/
def stcSchedRewarm : Nat := 0x21c
/-- STC_SCHED_OUT. -/
def stcSchedOut : Nat := 0x220
/-- STC_NORM_CFG. -/
def stcNormCfg : Nat := 0x240
/-- STC_NORM_CLIP. -/
def stcNormClip : Nat := 0x244
/-- STC_NORM_PART_LO. -/
def stcNormPartLo : Nat := 0x248
/-- STC_NORM_PART_HI. -/
def stcNormPartHi : Nat := 0x24c
/-- STC_NORM_SUM_LO. -/
def stcNormSumLo : Nat := 0x250
/-- STC_NORM_SUM_HI. -/
def stcNormSumHi : Nat := 0x254
/-- STC_NORM_KAPPA. -/
def stcNormKappa : Nat := 0x258
/-- STC_NORM_STATUS. -/
def stcNormStatus : Nat := 0x25c
/-- STC_UPD_FAULT. -/
def stcUpdFault : Nat := 0x260
/-- GAT_STATUS. -/
def gatStatus : Nat := 0x0
/-- GAT_CFG. -/
def gatCfg : Nat := 0x4
/-- GAT_TIMEOUT. -/
def gatTimeout : Nat := 0x8
/-- GAT_FAULT. -/
def gatFault : Nat := 0xc
/-- GAT_MERGED. -/
def gatMerged : Nat := 0x10
/-- GAT_ALLOT, number i. -/
def gatAllot (i : Nat) : Nat := 0x40 + 0x4 * i
/-- GAT_CH_CMD, number i. -/
def gatChCmd (i : Nat) : Nat := 0x10000 + 0x40 * i
/-- GAT_CH_CFG, number i. -/
def gatChCfg (i : Nat) : Nat := 0x10004 + 0x40 * i
/-- GAT_CH_ADDR_LO, number i. -/
def gatChAddrLo (i : Nat) : Nat := 0x10008 + 0x40 * i
/-- GAT_CH_ADDR_HI, number i. -/
def gatChAddrHi (i : Nat) : Nat := 0x1000c + 0x40 * i
/-- GAT_CH_LEN, number i. -/
def gatChLen (i : Nat) : Nat := 0x10010 + 0x40 * i
/-- GAT_CH_DEST, number i. -/
def gatChDest (i : Nat) : Nat := 0x10014 + 0x40 * i
/-- GAT_CH_DOFF, number i. -/
def gatChDoff (i : Nat) : Nat := 0x10018 + 0x40 * i
/-- GAT_CH_HANDLE, number i. -/
def gatChHandle (i : Nat) : Nat := 0x1001c + 0x40 * i
/-- GAT_CH_STATUS, number i. -/
def gatChStatus (i : Nat) : Nat := 0x10020 + 0x40 * i
/-- GAT_CH_BYTES, number i. -/
def gatChBytes (i : Nat) : Nat := 0x10028 + 0x40 * i
/-- LNK_PORT_CTRL, number i. -/
def lnkPortCtrl (i : Nat) : Nat := 0x40000 + 0x40 * i
/-- LNK_PORT_STATUS, number i. -/
def lnkPortStatus (i : Nat) : Nat := 0x40004 + 0x40 * i
/-- LNK_PARTNER_ID_LO, number i. -/
def lnkPartnerIdLo (i : Nat) : Nat := 0x40008 + 0x40 * i
/-- LNK_PARTNER_ID_HI, number i. -/
def lnkPartnerIdHi (i : Nat) : Nat := 0x4000c + 0x40 * i
/-- LNK_PARTNER_CAPS, number i. -/
def lnkPartnerCaps (i : Nat) : Nat := 0x40010 + 0x40 * i
/-- LNK_EXPECT_ID_LO, number i. -/
def lnkExpectIdLo (i : Nat) : Nat := 0x40018 + 0x40 * i
/-- LNK_EXPECT_ID_HI, number i. -/
def lnkExpectIdHi (i : Nat) : Nat := 0x4001c + 0x40 * i
/-- LNK_TIME_OFFSET, number i. -/
def lnkTimeOffset (i : Nat) : Nat := 0x40020 + 0x40 * i
/-- LNK_TIME_DELAY, number i. -/
def lnkTimeDelay (i : Nat) : Nat := 0x40024 + 0x40 * i
/-- LNK_PORT_REPLAYS, number i. -/
def lnkPortReplays (i : Nat) : Nat := 0x40028 + 0x40 * i
/-- LNK_LANE_STATUS, number i. -/
def lnkLaneStatus (i : Nat) : Nat := 0x40100 + 0x20 * i
/-- LNK_LANE_MEAS, number i. -/
def lnkLaneMeas (i : Nat) : Nat := 0x40104 + 0x20 * i
/-- LNK_LANE_FEC_CORR, number i. -/
def lnkLaneFecCorr (i : Nat) : Nat := 0x40108 + 0x20 * i
/-- LNK_LANE_FEC_UNCORR, number i. -/
def lnkLaneFecUncorr (i : Nat) : Nat := 0x4010c + 0x20 * i
/-- LNK_LANE_CRC_ERR, number i. -/
def lnkLaneCrcErr (i : Nat) : Nat := 0x40110 + 0x20 * i
/-- LNK_FAULT. -/
def lnkFault : Nat := 0x40400
/-- STW_ID of steward st. -/
def stwId (st : Nat) : Nat := 0x100000 + 0x100000 * st
/-- STW_ROLE of steward st. -/
def stwRole (st : Nat) : Nat := 0x100004 + 0x100000 * st
/-- STW_CTRL of steward st. -/
def stwCtrl (st : Nat) : Nat := 0x100008 + 0x100000 * st
/-- STW_CFG of steward st. -/
def stwCfg (st : Nat) : Nat := 0x10000c + 0x100000 * st
/-- STW_KICK of steward st. -/
def stwKick (st : Nat) : Nat := 0x100010 + 0x100000 * st
/-- STW_HEARTBEAT of steward st. -/
def stwHeartbeat (st : Nat) : Nat := 0x100014 + 0x100000 * st
/-- STW_TAKEOVERS of steward st. -/
def stwTakeovers (st : Nat) : Nat := 0x100018 + 0x100000 * st
/-- STW_BUSERR_ADDR_LO of steward st. -/
def stwBuserrAddrLo (st : Nat) : Nat := 0x100020 + 0x100000 * st
/-- STW_BUSERR_ADDR_HI of steward st. -/
def stwBuserrAddrHi (st : Nat) : Nat := 0x100024 + 0x100000 * st
/-- STW_BUSERR_INFO of steward st. -/
def stwBuserrInfo (st : Nat) : Nat := 0x100028 + 0x100000 * st
/-- HLD_CTRL, number i. -/
def hldCtrl (i : Nat) : Nat := 0x300000 + 0x10 * i
/-- HLD_RECT, number i. -/
def hldRect (i : Nat) : Nat := 0x300004 + 0x10 * i
/-- HLD_STATUS, number i. -/
def hldStatus (i : Nat) : Nat := 0x300008 + 0x10 * i
/-- HLD_OWNER, number i. -/
def hldOwner (i : Nat) : Nat := 0x300800 + 0x4 * i
/-- ALT_RES, number i. -/
def altRes (i : Nat) : Nat := 0x400000 + 0x20 * i
/-- ALT_POWER, number i. -/
def altPower (i : Nat) : Nat := 0x400004 + 0x20 * i
/-- ALT_STATUS, number i. -/
def altStatus (i : Nat) : Nat := 0x400008 + 0x20 * i
/-- ALT_MODULE_CAP. -/
def altModuleCap : Nat := 0x400400
/-- ALT_MODULE_STATUS. -/
def altModuleStatus : Nat := 0x400404
/-- SEC_BOOT_STATUS. -/
def secBootStatus : Nat := 0x500000
/-- SEC_SECURITY. -/
def secSecurity : Nat := 0x500004
/-- SEC_SVN. -/
def secSvn : Nat := 0x500008
/-- SEC_FUSE_CMD. -/
def secFuseCmd : Nat := 0x50000c
/-- SEC_SERIAL_LO. -/
def secSerialLo : Nat := 0x500010
/-- SEC_SERIAL_HI. -/
def secSerialHi : Nat := 0x500014
/-- SEC_SOW_CMD. -/
def secSowCmd : Nat := 0x500100
/-- SEC_SOW_ROUND. -/
def secSowRound : Nat := 0x500104
/-- SEC_SOW_RANGE. -/
def secSowRange : Nat := 0x500108
/-- SEC_SOW_DEST. -/
def secSowDest : Nat := 0x50010c
/-- SEC_SOW_SRC. -/
def secSowSrc : Nat := 0x500110
/-- SEC_SOW_PARISH. -/
def secSowParish : Nat := 0x500114
/-- SEC_SOW_BAD. -/
def secSowBad : Nat := 0x500118
/-- SEC_SOW_MAP, number i. -/
def secSowMap (i : Nat) : Nat := 0x500120 + 0x4 * i
/-- FLT_STATUS. -/
def fltStatus : Nat := 0x600000
/-- FLT_BELL. -/
def fltBell : Nat := 0x600004
/-- FLT_CLEAR. -/
def fltClear : Nat := 0x600008
/-- FLT_EVENTS. -/
def fltEvents : Nat := 0x60000c
/-- FLT_INJECT_UNIT. -/
def fltInjectUnit : Nat := 0x600010
/-- FLT_INJECT. -/
def fltInject : Nat := 0x600014
/-- FLT_CAUSES, number i. -/
def fltCauses (i : Nat) : Nat := 0x600040 + 0x4 * i
/-- FLT_CLASS, number i. -/
def fltClass (i : Nat) : Nat := 0x600100 + 0x4 * i
/-- FLT_REC, number i. -/
def fltRec (i : Nat) : Nat := 0x600400 + 0x4 * i
/-- LDG_STATUS. -/
def ldgStatus : Nat := 0x700000
/-- LDG_CMD. -/
def ldgCmd : Nat := 0x700004
/-- LDG_CYCLE. -/
def ldgCycle : Nat := 0x700008
/-- LDG_LOG_NEXT. -/
def ldgLogNext : Nat := 0x70000c
/-- LDG_CORR. -/
def ldgCorr : Nat := 0x700010
/-- LDG_UNCORR. -/
def ldgUncorr : Nat := 0x700014
/-- LDG_BUF, number i. -/
def ldgBuf (i : Nat) : Nat := 0x701000 + 0x4 * i

end Reg

/-- The MOD_ block. -/
def modRegs : List RegDef := [
  { off := 0x0, rst := 0x56000100 },
  { off := 0x100, stride := 0x4, count := 8 },
  { off := 0x120 },
  { off := 0x124 },
  { off := 0x130 }]

/-- The PAR_ block. -/
def parRegs : List RegDef := [
  { off := 0x0 },
  { off := 0x4, rw := 0x1 },
  { off := 0x8, rst := 0x151915, rw := 0x1f },
  { off := 0x10 },
  { off := 0x14 },
  { off := 0x20 },
  { off := 0x24 },
  { off := 0x30 },
  { off := 0x40, stride := 0x4, count := 20 },
  { off := 0xa0, rst := 0x3e80000, rw := 0xffff01ff },
  { off := 0xa4 },
  { off := 0xa8, rc := 0xffff }]

/-- The NET_ block. -/
def netRegs : List RegDef := [
  { off := 0x1000 },
  { off := 0x1004, rst := 0x100400, rw := 0xffffff },
  { off := 0x1008, rst := 0x224, rw := 0xfff },
  { off := 0x1010, rw := 0xe03ff03f },
  { off := 0x1014, rw := 0x7 },
  { off := 0x1020, rw := 0xff },
  { off := 0x1024, rw := 0xffffffff },
  { off := 0x1028, rw := 0x80000fff },
  { off := 0x1040, rc := 0xffffffff },
  { off := 0x1044, rc := 0xffffffff },
  { off := 0x1048, rc := 0xffffffff },
  { off := 0x104c, rc := 0xffffffff }]

/-- The CRF_ block. -/
def crfRegs : List RegDef := [
  { off := 0x0 },
  { off := 0x4 },
  { off := 0x8, rw := 0x1 },
  { off := 0xc, rw := 0xffffffff },
  { off := 0x10, rw := 0x3 },
  { off := 0x14 },
  { off := 0x18, rw := 0xf },
  { off := 0x1c, rc := 0xffffffff },
  { off := 0x20 },
  { off := 0x24, w1c := 0x1ff },
  { off := 0x30 },
  { off := 0x34, rst := 0x10, rw := 0x1f },
  { off := 0x40, stride := 0x8, count := 16, rw := 0xffffffff },
  { off := 0x44, stride := 0x8, count := 16 },
  { off := 0xc0, rc := 0xffffffff },
  { off := 0xc4, rc := 0xffffffff },
  { off := 0xc8 },
  { off := 0xd0, rw := 0x71f },
  { off := 0xd4, rw := 0x80000fff },
  { off := 0xd8, rst := 0x20 }]

/-- The ARR_ block. -/
def arrRegs : List RegDef := [
  { off := 0x3000 },
  { off := 0x3004 },
  { off := 0x3008, rst := 0x3f800000, rw := 0xffffffff },
  { off := 0x300c, rst := 0x3f800000, rw := 0xffffffff },
  { off := 0x3010, rw := 0xffffffff },
  { off := 0x3014, rst := 0x3f800000, rw := 0xffffffff },
  { off := 0x3020, w1c := 0x7f },
  { off := 0x3024 },
  { off := 0x3030, rc := 0xffffffff },
  { off := 0x3034, rc := 0xffffffff },
  { off := 0x3038, rc := 0xffffffff },
  { off := 0x303c, rc := 0xffffffff },
  { off := 0x3040, rc := 0xffffffff },
  { off := 0x3044, rc := 0xffffffff },
  { off := 0x3080, stride := 0x4, count := 16, rc := 0xffffffff },
  { off := 0x3400, stride := 0x4, count := 256, rw := 0xffffffff }]

/-- The STC_ block. -/
def stcRegs : List RegDef := [
  { off := 0x0, rst := 0x200010, rw := 0xffffff },
  { off := 0x4, rst := 0x7d0, rw := 0xffff },
  { off := 0x8, rst := 0x10, rw := 0xffff00ff },
  { off := 0xc, rw := 0xbf },
  { off := 0x10 },
  { off := 0x14 },
  { off := 0x18, rc := 0xffffffff },
  { off := 0x1c, w1c := 0x7 },
  { off := 0x20 },
  { off := 0x24 },
  { off := 0x28 },
  { off := 0x2c },
  { off := 0x30 },
  { off := 0x34 },
  { off := 0x40, rst := 0xffffffff, rw := 0xffffffff },
  { off := 0x44, rw := 0x1f },
  { off := 0x50 },
  { off := 0x54 },
  { off := 0x100, rw := 0xffffffff },
  { off := 0x104, rw := 0x3 },
  { off := 0x108 },
  { off := 0x10c },
  { off := 0x110 },
  { off := 0x114 },
  { off := 0x118, rst := 0x2, rw := 0x7 },
  { off := 0x11c, rc := 0xffffffff },
  { off := 0x120, w1c := 0xf },
  { off := 0x124, rw := 0x1 },
  { off := 0x128 },
  { off := 0x12c },
  { off := 0x130 },
  { off := 0x134 },
  { off := 0x138 },
  { off := 0x13c, rst := 0x2710, rw := 0xffff },
  { off := 0x200, rst := 0x6030, rw := 0xf037 },
  { off := 0x204, rw := 0xffffffff },
  { off := 0x208, rw := 0xffffffff },
  { off := 0x20c, rst := 0x3f800000, rw := 0xffffffff },
  { off := 0x210, rst := 0x3f800000, rw := 0xffffffff },
  { off := 0x214, rst := 0x3f800000, rw := 0xffffffff },
  { off := 0x218, rw := 0xffffffff },
  { off := 0x21c, rw := 0xffffffff },
  { off := 0x220 },
  { off := 0x240, rst := 0x640100, rw := 0xffffffff },
  { off := 0x244, rw := 0xffffffff },
  { off := 0x248, rw := 0xffffffff },
  { off := 0x24c, rw := 0xffffffff },
  { off := 0x250 },
  { off := 0x254 },
  { off := 0x258, rst := 0x3f800000 },
  { off := 0x25c },
  { off := 0x260, w1c := 0x3 }]

/-- The GTH_ block. -/
def gthRegs : List RegDef := [
  { off := 0x4000 },
  { off := 0x4004, rw := 0x1 },
  { off := 0x4008, w1c := 0x7f },
  { off := 0x400c },
  { off := 0x4100, stride := 0x20, count := 16, rw := 0xffffffff },
  { off := 0x4104, stride := 0x20, count := 16, rw := 0xffffffff },
  { off := 0x4108, stride := 0x20, count := 16, rw := 0xffffffff },
  { off := 0x410c, stride := 0x20, count := 16, rst := 0x1000400, rw := 0xffffffff },
  { off := 0x4110, stride := 0x20, count := 16, rst := 0x40, rw := 0x1ff },
  { off := 0x4114, stride := 0x20, count := 16 },
  { off := 0x4118, stride := 0x20, count := 16 },
  { off := 0x411c, stride := 0x20, count := 16, rw := 0xffffffff }]

/-- The VEC_ block. -/
def vecRegs : List RegDef := [
  { off := 0x2000 },
  { off := 0x2004 },
  { off := 0x2008, rst := 0x3f800000, rw := 0xffffffff },
  { off := 0x2010, w1c := 0x7f },
  { off := 0x2014 },
  { off := 0x2020, rc := 0xffffffff },
  { off := 0x2024, rc := 0xffffffff },
  { off := 0x2028, rc := 0xffffffff },
  { off := 0x202c, rc := 0xffffffff },
  { off := 0x2040, stride := 0x4, count := 16, rw := 0xffffffff },
  { off := 0x2080, stride := 0x4, count := 16, rc := 0xffffffff },
  { off := 0x2100, stride := 0x8, count := 16, wide := true, rw := 0xffffffffffffffff },
  { off := 0x2400, stride := 0x8, count := 128, wide := true, rw := 0xffffffffffffffff },
  { off := 0x2800, stride := 0x4, count := 512, rw := 0xffffffff }]

/-- The CAR_ block. -/
def carRegs : List RegDef := [
  { off := 0x1000 },
  { off := 0x1004, rst := 0x3203, rw := 0xffff07 },
  { off := 0x1008, rw := 0x7ffff },
  { off := 0x100c, rw := 0xffffffff },
  { off := 0x1010, w1c := 0x7 },
  { off := 0x1014, rw := 0xffff },
  { off := 0x1018, rc := 0xffffffff },
  { off := 0x101c, rc := 0xffffffff },
  { off := 0x1040, stride := 0x4, count := 16 },
  { off := 0x1100, stride := 0x20, count := 8 },
  { off := 0x1104, stride := 0x20, count := 8 },
  { off := 0x1108, stride := 0x20, count := 8 },
  { off := 0x110c, stride := 0x20, count := 8 },
  { off := 0x1110, stride := 0x20, count := 8 },
  { off := 0x1118, stride := 0x20, count := 8, wide := true }]

/-- The GAT_ block. -/
def gatRegs : List RegDef := [
  { off := 0x0 },
  { off := 0x4, rst := 0x14003, rw := 0x1ff07 },
  { off := 0x8, rst := 0x3e80032, rw := 0xffffffff },
  { off := 0xc, w1c := 0x7 },
  { off := 0x10, rc := 0xffffffff },
  { off := 0x40, stride := 0x4, count := 16, rst := 0x800010, rw := 0xfff01ff },
  { off := 0x10000, stride := 0x40, count := 2048 },
  { off := 0x10004, stride := 0x40, count := 2048, rw := 0xfffffff1 },
  { off := 0x10008, stride := 0x40, count := 2048, rw := 0xffffffff },
  { off := 0x1000c, stride := 0x40, count := 2048, rw := 0xffff },
  { off := 0x10010, stride := 0x40, count := 2048, rw := 0xffffffff },
  { off := 0x10014, stride := 0x40, count := 2048, rw := 0xffffffff },
  { off := 0x10018, stride := 0x40, count := 2048, rw := 0xffffffff },
  { off := 0x1001c, stride := 0x40, count := 2048 },
  { off := 0x10020, stride := 0x40, count := 2048 },
  { off := 0x10028, stride := 0x40, count := 2048, wide := true }]

/-- The LNK_ block. -/
def lnkRegs : List RegDef := [
  { off := 0x40000, stride := 0x40, count := 3, rst := 0x1000000, rw := 0xf000771 },
  { off := 0x40004, stride := 0x40, count := 3 },
  { off := 0x40008, stride := 0x40, count := 3 },
  { off := 0x4000c, stride := 0x40, count := 3 },
  { off := 0x40010, stride := 0x40, count := 3 },
  { off := 0x40018, stride := 0x40, count := 3, rw := 0xffffffff },
  { off := 0x4001c, stride := 0x40, count := 3, rw := 0xffffffff },
  { off := 0x40020, stride := 0x40, count := 3 },
  { off := 0x40024, stride := 0x40, count := 3 },
  { off := 0x40028, stride := 0x40, count := 3, rc := 0xffffffff },
  { off := 0x40100, stride := 0x20, count := 24 },
  { off := 0x40104, stride := 0x20, count := 24 },
  { off := 0x40108, stride := 0x20, count := 24, rc := 0xffffffff },
  { off := 0x4010c, stride := 0x20, count := 24, rc := 0xffffffff },
  { off := 0x40110, stride := 0x20, count := 24, rc := 0xffffffff },
  { off := 0x40400, w1c := 0xf }]

/-- The STW_ block. -/
def stwRegs : List RegDef := [
  { off := 0x100000 },
  { off := 0x100004 },
  { off := 0x100008, rst := 0x1, rw := 0x1 },
  { off := 0x10000c, rst := 0x3e8, rw := 0xffff },
  { off := 0x100010 },
  { off := 0x100014 },
  { off := 0x100018, rc := 0xffffffff },
  { off := 0x100020 },
  { off := 0x100024 },
  { off := 0x100028, rc := 0xc00fff00 }]

/-- The STW_ block of S1. -/
def stw1Regs : List RegDef := stwRegs.map fun d => { d with off := d.off + 0x100000 }

/-- The HLD_ block. -/
def hldRegs : List RegDef := [
  { off := 0x300000, stride := 0x10, count := 16 },
  { off := 0x300004, stride := 0x10, count := 16, rw := 0x7777 },
  { off := 0x300008, stride := 0x10, count := 16 },
  { off := 0x300800, stride := 0x4, count := 56, rst := 0x1f }]

/-- The ALT_ block. -/
def altRegs : List RegDef := [
  { off := 0x400000, stride := 0x20, count := 16, rst := 0x800210, rw := 0xfff3fff },
  { off := 0x400004, stride := 0x20, count := 16, rst := 0x6978, rw := 0xffff },
  { off := 0x400008, stride := 0x20, count := 16, rst := 0x190000 },
  { off := 0x400400, rst := 0x6978, rw := 0xffff },
  { off := 0x400404, rst := 0x190000 }]

/-- The SEC_ block. -/
def secRegs : List RegDef := [
  { off := 0x500000 },
  { off := 0x500004 },
  { off := 0x500008 },
  { off := 0x50000c },
  { off := 0x500010 },
  { off := 0x500014 },
  { off := 0x500100 },
  { off := 0x500104, rw := 0xffff },
  { off := 0x500108, rw := 0x1ff01ff },
  { off := 0x50010c, rw := 0xffffffff },
  { off := 0x500110, rw := 0xffffffff },
  { off := 0x500114, rw := 0x3f },
  { off := 0x500118, rc := 0xffffffff },
  { off := 0x500120, stride := 0x4, count := 15 }]

/-- The FLT_ block. -/
def fltRegs : List RegDef := [
  { off := 0x600000 },
  { off := 0x600004, w1c := 0x1 },
  { off := 0x600008, rw := 0x1f },
  { off := 0x60000c, rc := 0xffffffff },
  { off := 0x600010, rw := 0xffffffff },
  { off := 0x600014 },
  { off := 0x600040, stride := 0x4, count := 17 },
  { off := 0x600100, stride := 0x4, count := 128, rw := 0xe3ffffff },
  { off := 0x600400, stride := 0x4, count := 272 }]

/-- The LDG_ block. -/
def ldgRegs : List RegDef := [
  { off := 0x700000 },
  { off := 0x700004, rw := 0xfffff },
  { off := 0x700008 },
  { off := 0x70000c },
  { off := 0x700010, rc := 0xffffffff },
  { off := 0x700014, rc := 0xffffffff },
  { off := 0x701000, stride := 0x4, count := 1024, rw := 0xffffffff }]

/-- The row of a map that covers an offset (R10: none where no register lies). -/
def findReg (defs : List RegDef) (off : Nat) : Option RegDef :=
  defs.find? fun d =>
    if d.count = 1 then off == d.off
    else d.off ≤ off && off < d.off + d.stride * d.count && (off - d.off) % d.stride == 0

/-- The reset value of the register at an offset; zero where none lies. -/
def resetOf (defs : List RegDef) (off : Nat) : W64 :=
  match findReg defs off with
  | some d => d.rst
  | none => 0

/-- The reset word of FLT_CLASS for a source code (R390). -/
def fltClassReset (code : Nat) : W64 :=
  if code ∈ [0, 1, 16, 17, 18, 32, 37, 38, 78] then 0x21010001
  else if code ∈ [40, 56, 61] then 0x01010001
  else if code ∈ [66, 67, 74, 79, 80] then 0x61010001
  else if code = 64 then 0xE104803C
  else if code = 65 then 0xE1024001
  else if (2 ≤ code && code ≤ 8) || (19 ≤ code && code ≤ 22) || (24 ≤ code && code ≤ 29) || (33 ≤ code && code ≤ 36)
      || code ∈ [41, 42, 45, 49, 50, 52, 57, 58] then 0x02010001
  else if code ∈ [68, 70, 71] then 0x22010001
  else if code ∈ [72, 77] then 0x03010001
  else if code ∈ [76, 81] then 0x23010001
  else if code = 60 then 0x20010001
  else if code ∈ [30, 44, 46, 48, 51, 53, 62, 63, 69, 73, 75] then 0x00010001
  else 0

def croftMap : List RegDef := crfRegs ++ carRegs ++ vecRegs ++ arrRegs ++ gthRegs
def parishMap : List RegDef := parRegs ++ netRegs
def gateMap : List RegDef := gatRegs ++ lnkRegs
def stcMap : List RegDef := stcRegs
def moduleMap : List RegDef :=
  modRegs ++ stwRegs ++ stw1Regs ++ hldRegs ++ altRegs ++ secRegs ++ fltRegs ++ ldgRegs

/-- Reset values of a croft's registers. -/
def croftReset : Nat → W64 := resetOf croftMap
/-- Reset values of a parish's registers. -/
def parishReset : Nat → W64 := resetOf parishMap
/-- Reset values of a gate's registers. -/
def gateReset : Nat → W64 := resetOf gateMap
/-- Reset values of a step controller's registers. -/
def stcReset : Nat → W64 := resetOf stcMap
/-- Reset values of the module's registers, those of FLT_CLASS by R390. -/
def moduleReset (off : Nat) : W64 :=
  if Reg.fltClass 0 ≤ off && off < Reg.fltClass 128 && (off - Reg.fltClass 0) % 4 == 0 then
    fltClassReset ((off - Reg.fltClass 0) / 4)
  else resetOf moduleMap off

/-- A register after a software write of v, by the access codes of its bits (R13). -/
def RegDef.write (d : RegDef) (old v : W64) : W64 :=
  (old &&& ~~~ (d.rw ||| d.w1c)) ||| (v &&& d.rw) ||| (old &&& d.w1c &&& ~~~ v)

/-- A register after a software read: RC bits clear (R13). -/
def RegDef.afterRead (d : RegDef) (old : W64) : W64 := old &&& ~~~ d.rc

end Sys2Proof.Machine
end

