-- ==== Sys2Proof/Config.lean ====
section
/-! DEFINITION. What the spec leaves to the part or to the Tolif image's authors: the free values, and the
parsed contents of image sections whose byte layout the spec does not give. Nothing here has a body, so no
proof can rest on a value of it. -/

namespace Sys2Proof

/-- A holding's entry of the image (R358 section 7). -/
structure HoldingEntry where
  holding   : Nat := 0
  rect      : W32 := 0
  allotRes  : W32 := 0x00800210
  power     : W32 := 0x00006978
  lsCfg     : W32 := 0x00200010
  lsGrowth  : W32 := 0x000007D0
  resid     : W32 := 0xFFFFFFFF
  mirror    : Bool := false
  schedCfg  : W32 := 0x00006030
  warm      : W32 := 0
  decay     : W32 := 0
  fStart    : W32 := 0x3F800000
  fPeak     : W32 := 0x3F800000
  fEnd      : W32 := 0x3F800000
  normCfg   : W32 := 0x00640100
  normClip  : W32 := 0
  seed      : W64 := 0
  stagingBase : BitVec 16 := 0
  stagingLen  : BitVec 16 := 0
  rowsUsed  : List (Nat × Nat) := []
deriving DecidableEq, Repr, Inhabited

/-- One port of the installation map (R318, R319). -/
structure PortEntry where
  port   : Nat := 0
  role   : BitVec 3 := 0
  dir    : BitVec 2 := 0
  expect : W64 := 0
deriving DecidableEq, Repr, Inhabited

/-- The contents of a Tolif image that bring-up uses (R358). -/
structure Image where
  holdings : List HoldingEntry := []
  ports    : List PortEntry := []
  /-- Factory defects: parish, parish row, physical column (R36). -/
  defects  : List (Nat × Nat × Nat) := []
  /-- Repair rows: physical croft, bank, row (R82). -/
  repairs  : List (Nat × Nat × Nat) := []
  /-- Power ceilings in W: parish, code, watts (R347). -/
  ceilings : List (Nat × Nat × Nat) := []
  /-- FAULT_TABLE: the 128 words of FLT_CLASS (R385). -/
  faultTable : List W32 := []
  ringPos  : Byte := 0
  ringN    : Byte := 1
  /-- MIRROR of the module's CAPS frames (R310). -/
  mirror   : Byte := 0
  /-- The voltage-frequency table: the compute rail in mV by PCLK code (R43). -/
  vf       : List Nat := []
  /-- Spare-wire steering: link code, group, wire (R47). -/
  steering : List (Nat × Nat × Nat) := []
  /-- Management addressing of S0 and S1 (R339). -/
  addressing : List (List Byte) := []
deriving DecidableEq, Repr, Inhabited

/-- The contents of sections 3 to 7 of an image copy, by section type, each from its own bytes by offset. The spec gives
the header and the section table byte by byte (R357) but no layout of a section (log 8). -/
opaque Config.parseSection : Nat → List (Nat × Byte) → Image

/-- Map-outs among the ledger's field records, from the area's bytes: parish, parish row, physical column (log 8). -/
opaque Config.fieldMapouts : List (Nat × Byte) → List (Nat × Nat × Nat)

/-- Repairs among the ledger's field records: physical croft, bank, row (log 8). -/
opaque Config.fieldRepairs : List (Nat × Byte) → List (Nat × Nat × Nat)

/-- A byte of the ledger's field-record area with bring-up's own records among it: ledger offset, repairs, units found, wire
failures, and the byte that software's writes leave there (R402; log 8). -/
opaque Config.fieldByte : Nat → List (Nat × Nat × Nat) → List Nat → List (Nat × Nat × Nat) → Byte → Byte

/-- The digest of measurement 12, from the security byte, the fuse counter and the unit serial: the spec gives no
byte layout of the three (R367; log 8). -/
opaque Config.stateMeasurement : Byte → Nat → W64 → List Byte

/-- The vendor root and a steward die's DeviceID certificates, from the bytes of the ledger's identity area (log 8). -/
opaque Config.identityCerts : Nat → List (Nat × Byte) → List (List Byte)

/-- SHA-384 of the stewards' boot ROM, which R367 measures. -/
opaque Config.romDigest : List Byte

/-- The SEC-DED check bits of a flit, over its 256 data bits and sideband bits [53:0]: the spec gives no code matrix
(R50; log 137). -/
opaque Config.flitEcc : BitVec 256 → BitVec 54 → BitVec 10

/-! ### The harvest of a job (R262, R263)

Which chunks a holding's map has, the shard of each, its elements, the payload format, and the harvest croft that adds up a
half of it are the map's. A module's own partial of an element is what that croft's accumulator rows hold there (R261; log
10). -/

/-- The chunk indices of a holding's map. -/
opaque Config.harvestIndices : Nat → List Nat

/-- The shard of a chunk, and its number of elements: holding, index. -/
opaque Config.chunkShard : Nat → Nat → Nat
opaque Config.chunkElems : Nat → Nat → Nat

/-- The job's payload format is BF16. -/
opaque Config.harvestBf16 : Nat → Bool

/-- The logical croft and the first accumulator row that hold a module's own partial of a chunk's half: holding, index,
half. -/
opaque Config.harvestHome : Nat → Nat → Nat → Nat × Nat

/-- A partial whose croft or row there is none of: holding, step, chunk index, half, element (log 10). -/
opaque Config.ownPartial : Nat → Nat → Nat → Nat → Nat → W32

/-- Levels of the canopy connector nets that the model holds no level of, at a draw: TWB_SCL and TWB_SDA, the timing
inputs, and the nets of the lane and management cages, whose cells and their order the spec leaves to the part
(R19; log 133). -/
opaque Config.netLevels : Nat → List Bool

/-- A byte that the spec leaves undefined, drawn by the machine's counter of free values (log 3). -/
opaque Config.freeByte : Nat → Byte

/-- A 64-bit value that the spec leaves undefined, drawn by the same counter (log 3). -/
opaque Config.freeWord : Nat → W64

/-- A certificate over a public key, signed by the holder of a seed (R365): subject key, signing seed. -/
opaque Config.certificate : List Byte → List Byte → List Byte

/-- An SPDM signature by the holder of a seed over a transcript (R366). -/
opaque Config.signature : List Byte → List Byte → Nat → List Byte

end Sys2Proof
end

