-- ==== Sys2Proof/Value.lean ====
section
/-! DEFINITION. The exact values that operands decode to (R103, R110): NaN, an infinity, or a signed dyadic
number. Formats and rounding stand in Machine/Floats.lean. -/

namespace Sys2Proof

/-- An exact value: `num neg mag exp` is (−1)^neg × mag × 2^exp, where mag = 0 is a signed zero. -/
inductive FV where
  | nan
  | inf (neg : Bool)
  | num (neg : Bool) (mag : Nat) (exp : Int)
deriving DecidableEq, Repr, Inhabited

end Sys2Proof
end

