-- ==== Sys2Proof/Machine/State.lean ====
section
/-! DEFINITION. The block's state as plain data: the register file, the crofts, parishes, gates, stewards,
step controllers, fault controller and ledger, the packets under way and the queue of waiting commands. -/

namespace Sys2Proof.Machine

/-- A sparse table in canonical form: keys strictly rising, no entry equal to the table's default. -/
abbrev Tab (α : Type) := List (Nat × α)

/-- A byte memory: a table of bytes by address. -/
abbrev Memory := List Host.Cell

/-- Why a command stops the machine. -/
inductive Fault where
  /-- Raised by a command whose operand no sender can form: a packet, message or frame whose byte lists do not
  have the lengths its own fields give (Sys2Proof.Instr.wellFormed). Safe: no such event exists. -/
  | illFormed
deriving DecidableEq, Repr

/-- Why a command has no meaning. -/
inductive Refusal where
  /-- A command that the model has not reached. Safe: nothing follows from it. No arm of exec answers it. -/
  | notModelled (mnemonic : String)
deriving DecidableEq, Repr

/-! ### Supply, clocks and pins (chapters 01 and 17) -/

/-- Where the busbar stands (R352, R407). -/
inductive Busbar where
  | absent    -- below 40 V: "54 V absent"
  | low       -- 40 V to 48 V
  | within    -- 48 V to 58 V
  | above     -- 58 V to 62 V
  | high      -- above 62 V
deriving DecidableEq, Repr, Inhabited

/-- The columns of R20: 54 V absent; held in reset, or the stewards not yet running; the stewards running. -/
inductive PinColumn where
  | off | held | live
deriving DecidableEq, Repr, Inhabited

structure Power where
  busbar    : Busbar := .absent
  auxOn     : Bool := false
  /-- Input current limit of the first 25 ms above 40 V (R409). -/
  inrush    : Bool := false
  /-- Converter groups turned off under R23 (R408). -/
  groupsOff : List Nat := []
  resetN    : Bool := true
  tripLatch : Bool := false
  /-- A thermal trip that bring-up has still to record: its sensor reading and parish (R24, R392). The spec gives the
  latch alone a place of its own; that the reading lasts until it is recorded is DESIGN CHOICE (log 123). -/
  tripRecord : Option W64 := none
  /-- MODULE_RESET has followed the last fall of MOD_RESET_N, which is low still (R22). -/
  resetDone : Bool := false
  thermLow  : Bool := false
  /-- Sensors, 4p + i, and the outlet, 224, whose last reading is not yet 3 °C below the alert threshold (R23). -/
  hot       : List Nat := []
  /-- Consecutive 100 µs readings above or below the module cap (R348). -/
  capBelow  : Nat := 0
  modCode   : Nat := 25
  modWatts  : Nat := 0
deriving DecidableEq, Repr, Inhabited

structure Clock where
  /-- Module time in ns. -/
  now       : Nat := 0
  /-- Nanoseconds of REFCLK since t0, which paces the slew. -/
  ticks     : Nat := 0
  refclk    : Bool := true
  refclkOk  : Bool := false
  epochSeen : Bool := false
  epochLock : Bool := false
  missing   : Nat := 0
  /-- Consecutive accepted edges within 2 µs after EPOCH_LOSS (R415). -/
  goodEdges : Nat := 0
  /-- Module time is slewed towards an edge or a partner by this many ns (R321, R415). -/
  slew      : Int := 0
  /-- The global port whose partner module time is slewed towards, while it is a link that slews it (R321). -/
  slewPort  : Option Nat := none
deriving DecidableEq, Repr, Inhabited

/-! ### Parishes and the mesh (chapters 02 and 03) -/

inductive ParState where
  | off | netOn | computeUp | on | tripped
deriving DecidableEq, Repr, Inhabited

/-- The sums of one step in a reeve (R159). -/
structure Tally where
  sat : Nat := 0
  inf : Nat := 0
  nan : Nat := 0
  resid : Nat := 0
  acks : Nat := 0
  /-- The timeout has started. -/
  timing : Bool := false
  /-- The timeout has elapsed. -/
  elapsed : Bool := false
deriving DecidableEq, Repr, Inhabited

/-- A multicast group entry (R61). -/
structure Group where
  lo : W32 := 0
  hi : W32 := 0
deriving DecidableEq, Repr, Inhabited

/-- A table or group write that is being applied (R73). -/
inductive TblWrite where
  | hop (sel : W32) (dir : BitVec 3)
  | group (index : Nat) (lo hi : W32)
deriving DecidableEq, Repr, Inhabited

structure Parish where
  /-- PAR_ registers by offset, and NET_ registers from 0x1000. -/
  regs      : Tab W64 := []
  st        : ParState := .off
  nclkLock  : Bool := false
  pclkLock  : Bool := false
  /-- The row maps have been loaded since reset, so each CRF_ID shows the croft that it backs (R36, R101). -/
  mapped    : Bool := false
  /-- Dead by R69 or R39: handled as a dead parish. -/
  dead      : Bool := false
  /-- PARISH_DEAD has been raised and the isolation is awaited (R69). -/
  dying     : Bool := false
  /-- Steps of the PCLK code towards the effective target are under way (R40). -/
  pclkMoving : Bool := false
  /-- Map-out requests waiting for the switch, in the order written: parish row, physical column (R36). -/
  mapouts   : List (Nat × Nat) := []
  /-- The oldest step not yet forwarded (R38). -/
  tallyStep : W32 := 0
  tally0    : Tally := {}
  tally1    : Tally := {}
  /-- Summaries sent to a holding's step controller and not acknowledged (R335). -/
  sentSums  : List (Nat × Summary) := []
  /-- Overwritten NEXT_HOP and ESCAPE entries: router, plane, table and destination in one index (R59). -/
  hops      : Tab Nat := []
  groups    : Tab Group := []
  tblWrite  : Option TblWrite := none
  /-- The rail that tripped and its peak current, for the record (R392). -/
  trip      : Option (Bool × W16) := none
deriving DecidableEq, Repr, Inhabited

/-- A packet on the mesh, at the router of a physical position. -/
structure Flight where
  pkt  : Packet
  pos  : Nat
  /-- Where a multicast copy is on its tree (R62): 0 trunk both ways, 1 trunk north, 2 trunk south, 3 branch
  both ways, 4 branch east, 5 branch west. -/
  leg  : Nat := 0
  /-- The link over which the packet reached this router. -/
  via  : Option Link := none
  /-- The column to which a trunk that has stepped aside returns (R68). -/
  home : Option Nat := none
  /-- The physical position into which the first router of the destination parish translated DEST (R35). -/
  aim  : Option Nat := none
  /-- It has taken a skip link or border lanes (R60). -/
  detoured : Bool := false
  /-- At its destination's network interface. -/
  here : Bool := false
deriving DecidableEq, Repr, Inhabited

/-! ### Crofts (chapters 04 to 10) -/

/-- What the check bits of a stored 32-byte codeword say (R80). -/
inductive Ecc where
  | clean | corr | uncorr | parity
deriving DecidableEq, Repr, Inhabited

inductive SeqState where
  | idle | run | wait | halted
deriving DecidableEq, Repr, Inhabited

/-- What holds the sequencer (R86). -/
inductive Held where
  | nothing
  | queue (k : Nat)
  | stepEvent
  /-- A WINDOW close with WAIT_CLOSED, which has issued. -/
  | closing (w : Nat)
  /-- A WINDOW open of an index that is CLOSING, which has not. -/
  | opening (w : Nat)
  | phase (slot : Nat)
  | unitFull
  | postFull (k : Nat)
deriving DecidableEq, Repr, Inhabited

structure SeqLoop where
  body : Nat := 0
  left : Nat := 0
deriving DecidableEq, Repr, Inhabited

structure Seq where
  st      : SeqState := .idle
  slot    : Nat := 0
  pc      : Nat := 0
  loops   : List SeqLoop := []
  held    : Held := .nothing
  /-- A STOP waits for the units (R423). -/
  stopping : Bool := false
  /-- A step change has occurred since the sequencer last took a step number (R88). -/
  stepNew : Bool := false
  /-- A replay mark has armed the next WAIT on the step event (R250). -/
  armed   : Bool := false
  /-- It has become HALTED by the outcome of R80, with FAULT set. -/
  fault   : Bool := false
  /-- Number of words issued, which orders the words of the units (R422). -/
  issued  : Nat := 0
deriving DecidableEq, Repr, Inhabited

/-- A word in a unit's command queue, with the handle registers as it issued. -/
structure QWord where
  word : W128 := 0
  hs   : List W32 := []
  num  : Nat := 0
deriving DecidableEq, Repr, Inhabited

/-- A stationary buffer: the decoded tile lines and the row sums (R129). -/
structure SBuf where
  loaded : Bool := false
  fmt    : Nat := 0
  sparse : Bool := false
  resid  : Bool := false
  lines  : List (List FV) := []
  /-- Row sums over lines 0–31 and over lines 32–63, which the checksum columns use apart for split lines (R189). -/
  sums   : List FV := []
  sumsHi : List FV := []
deriving DecidableEq, Repr, Inhabited

/-- A tile whose header a unit has read (R114). -/
structure Tile where
  base   : Nat := 0
  fmt    : Nat := 0
  layout : Nat := 0
  arg    : Nat := 0
  lines  : Nat := 1
  resid  : Bool := false
  count  : Nat := 0
  scale  : FV := .num false 1 0
  /-- The residual bitmap as a number (R121). -/
  bitmap : Nat := 0
deriving DecidableEq, Repr, Inhabited

/-- Where a reader of consecutive tiles stands (R131): the address of the next tile, the open tile, its next line. -/
structure Cursor where
  addr : Nat := 0
  tile : Option Tile := none
  line : Nat := 0
deriving DecidableEq, Repr, Inhabited

/-- A running STREAM or ADDIN: the next line, where its tiles stand, and their FORMAT. -/
structure StreamRun where
  q     : QWord := {}
  line  : Nat := 0
  cur   : Cursor := {}
  fmt   : Option Nat := none
  /-- The last line's place in a T2 pair: 0 alone, 1 first, 2 second (R133). -/
  pair  : Nat := 0
deriving DecidableEq, Repr, Inhabited

/-- A running DRAIN: the next row, the address of the current tile, the rows of the current group as FP32. -/
structure DrainRun where
  q    : QWord := {}
  row  : Nat := 0
  dest : Nat := 0
  /-- The per-column scales and biases, read from PARAM before the first row (R154). -/
  scales : List W32 := []
  biases : List W32 := []
  /-- The rows of the current group after activation. -/
  rows : List (List W32) := []
  amax : W32 := 0
deriving DecidableEq, Repr, Inhabited

/-- A value in a lane: 32 bits, or 64 where a P64 instruction or a 64-bit source wrote it (R203, R214). -/
structure VLane where
  wide : Bool := false
  bits : W64 := 0
deriving DecidableEq, Repr, Inhabited

/-- An output of a VECTOR word that commits at a cycle counted from beat 0's entry (R219). -/
structure VecWrite where
  due   : Nat := 0
  addr  : Nat := 0
  bytes : List Byte := []
deriving DecidableEq, Repr, Inhabited

/-- Events of a conversion, and the amax of what it converted (R151, R156, R217). -/
structure Events where
  sat   : Nat := 0
  inf   : Nat := 0
  nan   : Nat := 0
  resid : Nat := 0
  amax  : FV := .num false 0 0
deriving DecidableEq, Repr, Inhabited

/-- A quantised block: scale code, element codes, elements clipped. -/
structure Block where
  scale : Nat
  codes : List Nat
  clips : Nat
deriving DecidableEq, Repr, Inhabited

/-- One line of 64 values as an output tile stores it. -/
structure OutLine where
  scales : List Nat := []
  codes  : List Nat := []
  /-- Residual blocks by block of the line. -/
  resids : List (Option Block) := []
  ev     : Events := {}
deriving DecidableEq, Repr, Inhabited

/-- A running VECTOR word with what it captured at its start (R211, R220). -/
structure VecRun where
  q      : QWord := {}
  prog   : List W32 := []
  descs  : List W64 := []
  consts : List W32 := []
  reds   : List W64 := []
  tscale : W32 := 0
  /-- Streams of one element for the whole word, read before beat 0 (R219). -/
  scalars : Tab W64 := []
  beat   : Nat := 0
  red    : W64 := 0
  amax   : W32 := 0
  /-- TILE inputs: stream, and where its tiles stand. -/
  cursors : List (Nat × Cursor) := []
  /-- TILE output: address of the current tile, its lines so far. -/
  outTile  : Nat := 0
  outLines : List OutLine := []
  /-- The cycle in which the next beat enters, counted from beat 0's entry without bank waits, and the outputs that
  have not committed by the last beat's (R219). -/
  cycle   : Nat := 0
  pending : List VecWrite := []
deriving DecidableEq, Repr, Inhabited

/-- A feed word of the gather engine (R179). -/
structure Feed where
  q     : QWord := {}
  taken : Bool := false
  given : Nat := 0
  /-- FEED_24: where its two tile sequences stand. -/
  curA  : Cursor := {}
  curB  : Cursor := {}
  /-- The four indices of a feed map entry (R188), or the entries of a block list (R194). -/
  list  : List Nat := []
deriving DecidableEq, Repr, Inhabited

/-- The gather engine's counts of one slot in the step in progress (R197). -/
structure PredCounts where
  skipped : Nat := 0
  audited : Nat := 0
  misses  : Nat := 0
  gleaned : Nat := 0
  ran     : Bool := false
deriving DecidableEq, Repr, Inhabited

/-- The four step counters (R156). -/
structure StepCounts where
  sat : Nat := 0
  inf : Nat := 0
  nan : Nat := 0
  resid : Nat := 0
deriving DecidableEq, Repr, Inhabited

/-- A request that a channel has sent and that is not answered (R233), or that failed and waits for its retry. -/
structure Req where
  pkt     : Packet
  /-- Local destination of a read. -/
  dst     : Nat := 0
  /-- Payload bytes of the request. -/
  len     : Nat := 0
  /-- A read's bytes, by offset in it: those that have arrived under its present TAG, and those that have been committed
  and counted once (R240, R242). -/
  came    : List Nat := []
  got     : List Nat := []
  retries : Nat := 0
  /-- It failed and its backoff runs (R240). -/
  backoff : Bool := false
deriving DecidableEq, Repr, Inhabited

/-- What carries a MOVE or RESHUFFLE that has begun (R230 to R239), its offsets in effect. -/
structure Moving where
  srcWin  : Bool := false
  /-- 0 LOCAL, 1 WINDOW, 2 MULTICAST, 3 REGISTER. -/
  dst     : Nat := 0
  plane   : Nat := 0
  tclass  : Bool := false
  srcOff  : Nat := 0
  dstOff  : Nat := 0
  grant   : W32 := 0
  ep      : Nat := 0
  mgroup  : Nat := 0
  mwin    : Nat := 0
  mgen    : Nat := 0
  len     : Nat := 1
  /-- 0 for a MOVE, else RS_OP. -/
  rsOp    : Nat := 0
  width   : Nat := 0
  streams : Nat := 0
  gran    : Nat := 0
  pstride : Nat := 0
  /-- Bytes moved or issued so far, and packets issued. -/
  next    : Nat := 0
  packets : Nat := 0
  /-- Failed attempts at the next piece, and the TAG under which it failed (R240). -/
  tries   : Nat := 0
  failed  : Option W16 := none
  /-- Source registers read so far: each is read once (R232). -/
  readRegs : List (Nat × List Byte) := []
deriving DecidableEq, Repr, Inhabited

structure CarLoop where
  body  : Nat := 0
  len   : Nat := 0
  iter  : Nat := 0
  count : Nat := 0
  src   : W32 := 0
  dst   : W32 := 0
deriving DecidableEq, Repr, Inhabited

inductive ChState where
  | free | run | wait | draining | done | aborted | halted
deriving DecidableEq, Repr, Inhabited

/-- A channel context: of a carter (R228) or of a gate (R322). -/
structure Chan where
  st       : ChState := .free
  gen      : BitVec 4 := 0
  /-- Address of the instruction being executed, in 32-byte units. -/
  pc       : Nat := 0
  loops    : List CarLoop := []
  c0       : W32 := 0
  c1       : W32 := 0
  bytes    : Nat := 0
  cause    : Nat := 0
  code     : Byte := 0
  used     : Nat := 0
  indoubt  : Bool := false
  late     : Bool := false
  tclass   : Bool := false
  /-- The drain ends ABORTED (R243); otherwise HALTED. -/
  aborting : Bool := false
  /-- The context is freed when the drain ends (R227). -/
  destroying : Bool := false
  /-- The MOVE or RESHUFFLE in progress. -/
  moving   : Option Moving := none
  outst    : List Req := []
  /-- Sequence number of the next TAG. -/
  seq      : Nat := 0
  /-- A step change has occurred since the channel last took a step number (R235). -/
  stepNew  : Bool := false
  /-- Schedule slot whose word started the channel (R229). -/
  slot     : Option Nat := none
  /-- The notify TOKEN has been sent (R322). -/
  notified : Bool := false
  /-- Fetches of the current instruction that met an uncorrectable codeword (R240). -/
  fetchTries : Nat := 0
  /-- The instruction fetched last, and whether it is the one at pc: it is fetched once, as it is to execute (R228). -/
  instr    : W256 := 0
  fetched  : Bool := false
  /-- Bytes of read data for croft registers of which four are not yet there (R232). -/
  regPart  : List (Nat × Byte) := []
deriving DecidableEq, Repr, Inhabited

/-- An accepted remote write that has not committed (R94). -/
structure Accepted where
  pkt  : Packet
  addr : Nat
deriving DecidableEq, Repr, Inhabited

inductive SowMark where
  | none | ok | bad
deriving DecidableEq, Repr, Inhabited

structure Croft where
  /-- The five register blocks, by local offset less 0x0F00_0000 (R74). -/
  regs    : Tab W64 := []
  /-- Scratchpad, accumulator memory, tile buffers and schedule slots, by local offset (R74). -/
  mem     : Memory := []
  ecc     : Tab Ecc := []
  /-- Repair tables: 32 × bank + entry, holding the row replaced (R82). -/
  repairs : Tab (Option Nat) := []
  /-- A repair copy under way: bank, entry, row (R83). -/
  repairing : Option (Nat × Nat × Nat) := none
  seq     : Seq := {}
  tokq    : Tab (List W32) := []
  hreg    : Tab W32 := []
  arrayQ  : List QWord := []
  drainQ  : List QWord := []
  vecQ    : List QWord := []
  gathQ   : List QWord := []
  sbuf0   : SBuf := {}
  sbuf1   : SBuf := {}
  loading : Option QWord := none
  streaming : Option StreamRun := none
  draining : Option DrainRun := none
  vector  : Option VecRun := none
  feeds   : List Feed := []
  /-- Words of the engine that have done their work and not yet completed, with their result counts (R178). -/
  gathDone : List (QWord × Nat) := []
  counts  : StepCounts := {}
  /-- The step counters as the last step change captured them (R250). -/
  captured : StepCounts := {}
  pred    : Tab PredCounts := []
  /-- Writes to PRED_CTRL (2k) and PRED_WIN (2k + 1) that take effect at the next step change (R200). -/
  predNext : Tab (Option W32) := []
  chans   : Tab Chan := []
  accepted : List Accepted := []
  /-- The most recent corrected event, as CRF_ECC_LOG shows it (R102). -/
  corrLog : W64 := 0
  /-- The fault handling fences the croft (R98). -/
  faultFence : Bool := false
  resetting : Bool := false
  /-- A croft reset has completed since FENCE last became 1 (R99). -/
  resetSince : Bool := false
  /-- Cycles may have been counted in CRF_SEQ_STALL since it was last read: a number that the model does not count
  (R78, R86; log 14). -/
  stalled : Bool := false
  /-- CRF_STEP has been written since the last croft reset (R250). -/
  stepWritten : Bool := false
  injectChk : Bool := false
  injectRes : Bool := false
  posts   : List W16 := []
  /-- Program of the running or last VECTOR word (VEC_STATUS.PROG). -/
  vecProg : Nat := 0
  /-- The logical croft that it last backed, once it backs none (CRF_ID.LOGICAL, R33). -/
  lastId  : Nat := 0
  sowMask : Tab Nat := []
  sowMark : Tab SowMark := []
deriving DecidableEq, Repr, Inhabited

/-! ### Step controllers (chapters 07, 11 and 12) -/

inductive StcState where
  | idle | opening | work | combine | update | restoring | stopped | warmHold
deriving DecidableEq, Repr, Inhabited

structure Stc where
  /-- STC_ registers by offset. -/
  regs      : Tab W64 := []
  st        : StcState := .idle
  handed    : Bool := false
  horizon   : Bool := false
  replays   : Nat := 0
  ireplays  : Nat := 0
  /-- Replays of the open step that do not count against LIMIT: a takeover's (R337). -/
  uncounted : Nat := 0
  /-- STOPPED was entered by a HELD verdict (R249). -/
  heldStop  : Bool := false
  /-- An ABANDON stops the crofts (R249). -/
  abandoning : Bool := false
  /-- A step has ended, or RUN or GO was written, and the opening waits for a row map switch (R36). -/
  openPending : Bool := false
  /-- In OPENING: 0 before the scale TOKENs leave, 1 after. In a restore or an ABANDON: the order of R268 last begun. -/
  order     : Nat := 0
  /-- Crofts whose scale TOKEN is acknowledged, and whose write of CRF_STEP is answered. -/
  ackToken  : List Nat := []
  stepped   : List Nat := []
  /-- Crofts that have still to be written their replay mark after a step change (R268). -/
  toMark    : List Nat := []
  /-- Harvest chunks taken in the attempt: 2 × index + half (R317). -/
  chunks    : List Nat := []
  /-- The attempt's own chunks have left, those that this module starts (R262). -/
  started   : Bool := false
  /-- Chunks that no port of their direction is UP for: half, index, message (R262; log 10). -/
  unsent    : List (Nat × Nat × Msg) := []
  /-- Final sums of the module's own shard: FP32 bytes by 2 × index + half (R262). -/
  kept      : Tab (List Byte) := []
  /-- Crofts stopped for an OVERFLOW verdict's restart (R164). -/
  restarting : Bool := false
  /-- Parishes whose summary of the open attempt has arrived, and the sums. -/
  parishes  : List Nat := []
  sums      : Tally := {}
  /-- The totals of the open attempt are published (R159). -/
  published : Bool := false
  incomplete : Bool := false
  localBad  : Bool := false
  committed : Bool := false
  /-- Crofts whose done report the open step has counted (R251, R337). -/
  doneBy    : List Nat := []
  /-- Partials held, by ring position (R283). -/
  parts     : Tab (Option W64) := []
  combined  : Bool := false
  /-- The five handles of the schedule record, and how many each croft has acknowledged (R286). -/
  record    : List W32 := []
  recAcks   : Tab Nat := []
  /-- Verdict and record TOKENs refused and to be sent again, and the retries used: 8 n + order, 5 the verdict's (R163). -/
  refused   : List Nat := []
  tokTries  : Tab Nat := []
  mismatches : Nat := 0
  /-- The partner's FINGERPRINT of this attempt: fingerprint and partial (R273). -/
  peerPrint : Option (W64 × W64) := none
  callsSent : Bool := false
  /-- Module time at which the open attempt's step was opened, and the last completed step (R275). -/
  opened    : Nat := 0
  lastOpen  : Option Nat := none
deriving DecidableEq, Repr, Inhabited

/-! ### Gates and lanes (chapter 13) -/

/-- An outstanding parameter-store request (R314). -/
structure StoreReq where
  /-- Its tag, 0 to 8,191; 8,192 for a request that waits for one. -/
  tag     : Nat
  port    : Nat
  msg     : Msg
  /-- The channels it serves: context, first byte and length of its own bytes. -/
  parts   : List (Nat × Nat × Nat)
  got     : Nat := 0
  retries : Nat := 0
  backoff : Bool := false
  /-- Held behind an overlapping write, or waiting for its port (R314, R324). -/
  heldBack : Bool := false
deriving DecidableEq, Repr, Inhabited

/-- An open group of the merger (R325). -/
structure MergeGroup where
  port  : Nat
  lo    : Nat
  hi    : Nat
  parts : List (Nat × Nat × Nat)
deriving DecidableEq, Repr, Inhabited

inductive PortState where
  | off | training | up | mismatch | down
deriving DecidableEq, Repr, Inhabited

/-- The capabilities of R310 as recorded. -/
structure Caps where
  kind     : Nat := 0
  flags    : Byte := 0
  deviceId : W64 := 0
  maxTags  : Nat := 0
  credits  : List Nat := []
  storeSize : Nat := 0
  ringPos  : Byte := 0
  ringN    : Byte := 0
  mirror   : Byte := 0
  /-- Bytes 12 to 44 of the frame, FLAGS bits 0 and 2 cleared, to compare a later lane's with. -/
  raw      : List Byte := []
deriving DecidableEq, Repr, Inhabited

structure Port where
  st       : PortState := .off
  cable    : Option CableMemory := none
  powered  : Bool := false
  caps     : Option Caps := none
  epochLock : Bool := false
  /-- EPOCH_LOCK of the last TIME frame (R321). -/
  timeLock : Bool := false
  /-- A ROLE written while the port was not UP, which takes effect when it comes UP (R320). -/
  nextRole : Option Nat := none
  /-- Isolated by the fault controller: out of service until the power cycle ends (R389). -/
  barred   : Bool := false
  txPseq   : Nat := 0
  rxPseq   : Nat := 0
  /-- Frames received out of port order: PSEQ, virtual channel, payload (R308). -/
  held     : List (Nat × Nat × List Byte) := []
  /-- Channel streams received, by virtual channel (R312). -/
  streams  : Tab (List Byte) := []
  /-- Messages to be sent: virtual channel, holding (16: none), message. -/
  txMsgs   : List (Nat × Nat × Msg) := []
  /-- The transmit arbiter's deficits by holding, and the holding it served last (R326). -/
  deficit  : Tab Nat := []
  turn     : Nat := 0
  /-- Credits left to send with, last total seen and units freed, by virtual channel (R309). -/
  credit   : Tab Nat := []
  seen     : Tab Nat := []
  freed    : Tab Nat := []
  rx       : List Msg := []
  discarded : Nat := 0
  lastTTx  : Nat := 0
  lastTRx  : Nat := 0
  permuted : Memory := []
  /-- Tags of PERMUTE_DATA sent and not acknowledged; no command of the table sends one. -/
  permOut  : List Nat := []
deriving DecidableEq, Repr, Inhabited

inductive LaneState where
  | off | train | lock | caps | up | retrain | failed
deriving DecidableEq, Repr, Inhabited

/-- A DATA frame in a lane's replay buffer (R306). -/
structure TxFrame where
  lseq  : Nat
  pseq  : Nat
  vc    : Nat
  first : Nat
  bytes : List Byte
deriving DecidableEq, Repr, Inhabited

structure Lane where
  st       : LaneState := .off
  attempts : Nat := 0
  adapted  : Bool := false
  retrains : Nat := 0
  /-- Module times of the last retrains (R301). -/
  times    : List Nat := []
  capsRx   : Bool := false
  /-- Permanently failed: held in FAILED from bring-up on (R397). -/
  barred   : Bool := false
  /-- Next LSEQ to send, and the frames not yet acknowledged. -/
  txSeq    : Nat := 0
  replayBuf : List TxFrame := []
  rxSeq    : Nat := 0
  nak      : Bool := false
  /-- ACKSEQ of the last NAK answered by a replay, the module time at which that replay's last frame has left, and consecutive
  replays without an advance (R306). -/
  nakSeen  : Option Nat := none
  replayEnd : Nat := 0
  replays  : Nat := 0
  /-- Counter of the next codeword to send, and the codewords sent that carry something, newest last (what the partner
  sees): marker and frame (R303). -/
  txCount  : Byte := 0
  sent     : List (BitVec 20 × List Byte) := []
  /-- The counter of the last codeword received, and the runs of good and of bad codewords (R303). -/
  rxCount  : Option Byte := none
  goodRun  : Nat := 0
  badRun   : Nat := 0
deriving DecidableEq, Repr, Inhabited

structure Gate where
  /-- GAT_ registers by offset, and LNK_ registers from 0x4_0000. -/
  regs    : Tab W64 := []
  lost    : Bool := false
  /-- MOD_RESET_N is low: the transmitters are in electrical idle (R20). -/
  quiet   : Bool := false
  chans   : Tab Chan := []
  store   : List StoreReq := []
  merger  : List MergeGroup := []
  /-- New reads that an overlapping write holds out of the merger (R314, R325). -/
  waiting : List MergeGroup := []
  nextTag : Nat := 0
  /-- Bytes of store data received for a context but not yet written to the wafer. -/
  buffered : Tab (List Byte) := []
  discarded : Nat := 0
  ports   : Tab Port := []
  lanes   : Tab Lane := []
deriving DecidableEq, Repr, Inhabited

/-! ### Stewards and holdings (chapter 14) -/

inductive Role where
  | booting | active | standby | lost
deriving DecidableEq, Repr, Inhabited

/-- An access of a steward core that awaits its answer (R332). -/
structure CoreAccess where
  addr  : BitVec 48
  store : Bool
  tag   : W16
deriving DecidableEq, Repr, Inhabited

structure Steward where
  role      : Role := .booting
  /-- The reeve holds the die in reset, and packets to it are refused (R336). -/
  heldReset : Bool := false
  /-- The watchdog has expired and not been restarted since. -/
  expired   : Bool := false
  heartbeats : W32 := 0
  access    : Tab (Option CoreAccess) := []
  /-- Last value loaded by each core, and its access-fault exceptions. -/
  loaded    : Tab W64 := []
  exceptions : Tab Nat := []
  /-- The cores' debug is open for the power cycle (R364). -/
  coreDebug : Bool := false
  mgmtCable : Bool := false
  mgmtUp    : Bool := false
  /-- The die's 256 MiB SRAM (R330). -/
  sram      : Memory := []
deriving DecidableEq, Repr, Inhabited

inductive HldState where
  | free | active | resetting | destroying
deriving DecidableEq, Repr, Inhabited

structure Holding where
  st      : HldState := .free
  err     : Bool := false
  /-- ALT_ writes held during a reset (R344). -/
  altRes  : Option W32 := none
  altPower : Option W32 := none
  /-- The reset is a CREATE's, which loads the ALT_ registers too. -/
  creating : Bool := false
  busy    : Bool := false
  code    : Nat := 25
  watts   : Nat := 0
  below   : Nat := 0
  noCode  : Bool := false
deriving DecidableEq, Repr, Inhabited

/-! ### Faults and the ledger (chapter 16) -/

/-- A record's fields (R392). -/
structure Record where
  first    : Nat := 0
  last     : Nat := 0
  sources  : W128 := 0
  syndrome : W64 := 0
  unit     : W32 := 0
  opcode   : W16 := 0
  temp     : W16 := 0
  voltage  : W16 := 0
  merges   : Nat := 0
  source   : Nat := 0
  severity : Nat := 0
  domain   : Nat := 0
  flags    : Byte := 0
  cycle    : W16 := 0
  number   : Nat := 0
deriving DecidableEq, Repr, Inhabited

structure TallySlot where
  source : Nat
  loc    : W32
  count  : Nat
deriving DecidableEq, Repr, Inhabited

/-- A history entry (R403). -/
structure Hist where
  unit    : W32 := 0
  sub     : W16 := 0xFFFF
  source  : Nat := 0
  permanent : Bool := false
  applied : Bool := false
  cycle   : W16 := 0
  cur     : Nat := 0
  prev    : Nat := 0
  recCycle : W16 := 0
  recNum  : Nat := 0
deriving DecidableEq, Repr, Inhabited

structure FaultCtl where
  /-- Records by domain: open or last. -/
  records : Tab (Option Record) := []
  nextRec : Nat := 0
  slots   : List TallySlot := []
  /-- Causes in force: domain, source, location (R384). -/
  causes  : List (Nat × Nat × W32) := []
  /-- Domains whose open record has merged an event since its last copy. -/
  dirty   : List Nat := []
  bellLow : Bool := false
  pulse   : Bool := false
  /-- Bring-up failed: the bell is held low until module reset (R354). -/
  bootBell : Bool := false
deriving DecidableEq, Repr, Inhabited

/-- An input that its sender holds until the ACTIVE steward acknowledges it (R335, R382): a message at a gate's port, a
fault report, and a reeve's summary for a holding. -/
inductive SenderHeld where
  | msg (m : Msg)
  | report (r : Report)
  | summary (h : Nat) (m : Summary)
deriving DecidableEq, Repr

/-- What a shadow record tells the partner's set (R334, R382). -/
inductive Change where
  | stc (h : Nat) (c : Stc)
  | faults (f : FaultCtl)
  | flt (o : Nat) (v : W64)
deriving DecidableEq, Repr

/-- A shadow record that the partner has not acknowledged: what an input or a register write has changed, nothing where it
was accepted alone, and the actions that wait for it (R334). -/
structure Shadow where
  num     : Nat
  changes : List Change := []
  applied : Bool := false
  release : List Packet := []
  /-- Messages for a port: gate, local port, virtual channel, message. -/
  msgs    : List (Nat × Nat × Nat × Msg) := []
  acks    : List SenderHeld := []
  /-- Steward cores whose store to a step controller retires with it: steward and core (R332). -/
  cores   : List (Nat × Nat) := []
  /-- Holdings whose gate contexts an ABORT reaches (R268, R327). -/
  aborts  : List Nat := []
  /-- Holdings whose reeves discard what they hold of a step (R268). -/
  discards : List (Nat × W32) := []
  /-- Locations that the fault handling isolates (R389). -/
  isolate : List W32 := []
deriving DecidableEq, Repr

/-- Two records as one. -/
def Shadow.join (a b : Shadow) : Shadow :=
  { a with
    changes := a.changes ++ b.changes, release := a.release ++ b.release, msgs := a.msgs ++ b.msgs, acks := a.acks ++ b.acks
    cores := a.cores ++ b.cores, aborts := a.aborts ++ b.aborts, discards := a.discards ++ b.discards
    isolate := a.isolate ++ b.isolate }

/-- An operation of LDG_CMD: READ with the state of the codewords it meets, or WRITE with whether its block is worn. -/
inductive LdgOp where
  | read (block : Nat) (found : BlockEcc)
  | write (block : Nat) (bad : Bool)
deriving DecidableEq, Repr, Inhabited

structure Ledger where
  bytes   : Memory := []
  history : Tab (Option Hist) := []
  /-- The record log's appended copies, by slot. -/
  log     : Tab (Option Record) := []
  logNext : Nat := 0
  wrapped : Bool := false
  spare   : Nat := 1024
  /-- Repairs written as field records: physical croft, bank, row (R369). -/
  repairs : List (Nat × Nat × Nat) := []
  /-- Units that bring-up has found dead, down or failed and has recorded: location codes (R354). -/
  found : List W32 := []
  /-- Wire failures added to the defect map: link code, group, wire (R47). -/
  wires : List (Nat × Nat × Nat) := []
  /-- Retired blocks (R389). -/
  retired : List Nat := []
  cycle   : Nat := 0
  answers : Bool := false
  /-- An LDG_CMD operation or an append is under way, and the operations that wait until it is over, oldest first (R403). -/
  busy    : Bool := false
  waiting : List LdgOp := []
deriving DecidableEq, Repr, Inhabited

/-! ### Bring-up, trust and sowing (chapter 15) -/

/-- One steward die's fuses (R361, R363, R365). -/
structure Fuses where
  slots   : List (List Byte) := []
  revoked : BitVec 4 := 0
  svn     : Nat := 0
  uds     : List Byte := []
  serial  : W64 := 0
deriving DecidableEq, Repr, Inhabited

/-- The layered identity of the booted image (R365). -/
structure Identity where
  cdi1    : List Byte := []
  chain   : List (List Byte) := []
  /-- Measurements 1 to 12 (R367). -/
  blocks  : List (List Byte) := []
deriving DecidableEq, Repr, Inhabited

/-- What a checkpoint of a holding holds of the module's registers (R175, R201, R294): STC_LS_STATE, STC_HIST.FILL, the step
number, STC_SCHED_POS and STC_SCHED_REWARM, and each croft's GTH_PRED_CTRL_k and GTH_PRED_WIN_k by croft and offset. -/
structure Checkpoint where
  lsState : W64 := 0
  fill    : Nat := 0
  step    : W64 := 0
  pos     : W64 := 0
  rewarm  : W64 := 0
  preds   : List (Nat × Nat × W64) := []
deriving DecidableEq, Repr, Inhabited

/-- The algorithms of R366: TPM_ALG_ECDSA_ECC_NIST_P384 and TPM_ALG_SHA_384. -/
inductive SpdmAlg where
  | ecdsaP384 | sha384
deriving DecidableEq, Repr, Inhabited

/-- An answer of the SPDM responder (R366). -/
inductive SpdmAnswer where
  /-- The version entries: major and minor. -/
  | version (entries : List (Nat × Nat))
  /-- CERT_CAP, CHAL_CAP and MEAS_CAP with signature; the rest of the module's answer is refusals. -/
  | capabilities (cert chal meas : Bool)
  /-- The asymmetric algorithm and the hash, by their TPM_ALG names. -/
  | algorithms (asym hash : SpdmAlg)
  | digests (d : List Byte)
  | certificate (part : List Byte)
  | challenge (digest sig : List Byte)
  | measurements (blocks : List (Nat × List Byte)) (sig : List Byte)
  /-- The number of measurement blocks. -/
  | blockCount (n : Nat)
  /-- ERROR InvalidRequest. -/
  | invalid
  /-- ERROR UnsupportedRequest. -/
  | unsupported
deriving DecidableEq, Repr, Inhabited

/-- An answer of the control service (R340). -/
inductive ControlAnswer where
  | done
  | status (holdings : List Nat)
  /-- The open records. -/
  | records (rs : List Record)
  | refusedNaming (active : Nat)
  | notReady
deriving DecidableEq, Repr, Inhabited

structure Sec where
  running : Bool := false
  stage   : Nat := 0
  /-- This bring-up has raised LDG_CYCLE. -/
  cycled  : Bool := false
  fail    : Nat := 0
  copyB   : Bool := false
  badA    : Bool := false
  badB    : Bool := false
  image   : Image := default
  udsLocked : Bool := false
  fuses0  : Fuses := {}
  fuses1  : Fuses := {}
  /-- Each steward's own identity. -/
  identity0 : Identity := {}
  identity1 : Identity := {}
  fuseBusy : Bool := false
  fuseErr : Bool := false
  svn     : Nat := 0
  sowOpen : Bool := false
  sowBusy : Bool := false
  sowErr  : Bool := false
  /-- The round in progress as OPEN announced it: number, range, destination (R373). -/
  sowRound : Nat := 0
  sowC0   : Nat := 0
  sowC1   : Nat := 0
  sowDest : W32 := 0
  /-- Bitmaps of the last CHECK, by parish (R374). -/
  sowMap  : Tab Nat := []
  /-- SPDM answers, with the steward that gave each. -/
  spdm    : List (Nat × SpdmAnswer) := []
  control : List ControlAnswer := []
  /-- The last checkpoint taken of each holding (R340). -/
  saved   : Tab (Option Checkpoint) := []
  /-- DEBUG of SEC_SECURITY (R364). -/
  debug   : Bool := false
  keySlot : Nat := 0
deriving DecidableEq, Repr, Inhabited

/-- The boundary-scan register's two stages (R19, IEEE 1149.1): what PRELOAD has latched, which EXTEST drives onto the
module's outputs, and the levels of the nets that SAMPLE or EXTEST has captured. -/
structure Scan where
  latch : List Bool := []
  taken : List Bool := []
deriving DecidableEq, Repr, Inhabited

/-! ### The whole module -/

structure State where
  /-- MOD_, STW_, HLD_, ALT_, SEC_, FLT_ and LDG_ registers that no other field computes (Machine/RegMap.lean). -/
  regs     : Tab W64
  power    : Power
  clock    : Clock
  parishes : Tab Parish
  /-- Dead routers: 2 q + plane (R66). -/
  deadR    : List Nat
  /-- Links down (R65). -/
  linksDown : List Link
  /-- Stitched links whose group of wires is steered onto its spare: link code, group, wire (R47). -/
  steered  : List (Nat × Nat × Nat)
  /-- Times of each link's corrected and uncorrectable flits of the last 1 ms, by link code (R64). -/
  linkCorr : Tab (List Nat)
  linkUnc  : Tab (List Nat)
  /-- Time of each router's last liveness pulse, by 2 q + plane (R65). -/
  pulses   : Tab Nat
  crofts   : Tab Croft
  stcs     : Tab Stc
  gates    : Tab Gate
  stewards : Tab Steward
  shadows  : List Shadow
  shadowNum : Nat
  /-- Locations whose isolation an acknowledged record has released, within the command that isolates them (R389). -/
  toIsolate : List W32
  /-- The partner's set as the records it has applied leave it: step controllers, fault controller and FLT_ registers. -/
  shadowStcs : Tab Stc
  shadowFaults : FaultCtl
  shadowFlt : Tab W64
  holdings : Tab Holding
  faults   : FaultCtl
  ledger   : Ledger
  sec      : Sec
  /-- Cables in the lane cages and the answers of the two-wire bus and the test port. -/
  cables   : Tab (Option CableMemory)
  twb      : Option W32
  tap      : TapInstr
  /-- The boundary-scan register over the canopy connector nets (R19). -/
  bscan    : Scan
  slotId   : BitVec 3
  /-- Packets that units have made and no network interface has injected. -/
  outq     : List Packet
  flights  : List Flight
  /-- Packets delivered to their endpoint and not yet acted on. -/
  inbox    : List Packet
  reports  : List Report
  summaries : List (Nat × Summary)
  /-- Tally calls that have reached a reeve and that it has not acted on: parish and step (R38). -/
  calls    : List (Nat × W32)
  /-- The model's own counter of free values (log 3). -/
  freeCtr  : Nat
  pending  : List Instr
deriving DecidableEq, Repr

/-- The machine right after reset: every field at its reset value, every register at the value of its map, no
memory byte listed, no command waiting. -/
def State.reset : State :=
  { regs := [], power := {}, clock := {}, parishes := [], deadR := [], linksDown := [], steered := [], linkCorr := [],
    linkUnc := [], pulses := [], crofts := [], stcs := [], gates := [], stewards := [],
    shadows := [], shadowNum := 0, toIsolate := [], shadowStcs := [], shadowFaults := {}, shadowFlt := [], holdings := [], faults := {}, ledger := {}, sec := {}, cables := [],
    twb := none, tap := .bypass, bscan := {}, slotId := 0, outq := [], flights := [], inbox := [], reports := [],
    summaries := [], calls := [], freeCtr := 0, pending := [] }

end Sys2Proof.Machine
end

