-- ==== Sys2Proof/Machine/Site.lean ====
section
/-! DEFINITION. One croft as the commands of the croft see it, and the named operations over its registers,
memories, token queues, windows and faults (chapter 04). -/

namespace Sys2Proof.Machine

/-- OPCODE of an event that a mesh packet raises: origin 3 and the packet's OP (R392). -/
def packetOpcode (k : Packet) : W16 := BitVec.ofNat 16 (3 * 2 ^ 12 + k.op.toNat)

/-- ATTACH of an answer: bits [15:12] of the TAG of a gate's packet (R297). -/
def answerAttach (k : Packet) : BitVec 4 :=
  if 0x7000 ≤ k.src.toNat ∧ k.src.toNat < 0x701C then BitVec.ofNat 4 (bitsOf k.tag.toNat 15 12) else 0

/-- The unit code of an event's location (R381): KIND in bits [31:28], and the index that the kind's unit has. -/
def unitCode (kind index : Nat) : W32 := BitVec.ofNat 32 (kind * 2 ^ 28 + index)

/-- The code of a croft, KIND 0, for its own sources and those of its array, gather engine, vector engine and carter
(R381). -/
def locCroft (q : Nat) : W32 := BitVec.ofNat 32 q

/-- A croft under a command: what it knows of its surroundings, its own state, and what it hands out. -/
structure Site where
  /-- Physical index (R31), and the logical croft that it backs (R32). -/
  q      : Nat
  n      : Option Nat
  /-- The holding that owns its parish; 16 where none does. -/
  hold   : Nat
  /-- A cause of R98 outside the croft holds it fenced. -/
  cut    : Bool
  /-- Module time in ns. -/
  now    : Nat
  /-- The row maps have been loaded since reset, so CRF_ID shows the croft (R36). -/
  shown  : Bool := true
  c      : Croft
  /-- The holding's rounding seed (R174). -/
  seed   : W64 := 0
  free   : Nat
  out    : List Packet := []
  raised : List Report := []
deriving DecidableEq, Repr

namespace Site

/-! ### Registers -/

def reg (x : Site) (o : Nat) : W64 := Tab.get croftReset x.c.regs o

def setReg (x : Site) (o : Nat) (v : W64) : Site :=
  { x with c := { x.c with regs := Tab.set croftReset x.c.regs o v } }

/-- A register's 32-bit value as a number. -/
def num (x : Site) (o : Nat) : Nat := (x.reg o).toNat

/-- Bits [hi:lo] of a register. -/
def field (x : Site) (o hi lo : Nat) : Nat := fld (x.reg o) hi lo

def setField (x : Site) (o hi lo n : Nat) : Site := x.setReg o (setFld (x.reg o) hi lo n)

/-- A counting register, which saturates at 2^32 − 1. -/
def count (x : Site) (o n : Nat) : Site := x.setReg o (BitVec.ofNat 64 (satAdd (x.num o) n))

/-- A value that the spec leaves open, and the counter moved on (log 3). -/
def fresh (x : Site) : W64 × Site := (Config.freeWord x.free, { x with free := x.free + 1 })

/-- Hand a packet to the network interface. -/
def send (x : Site) (k : Packet) : Site := { x with out := x.out ++ [k] }

/-- Cycles that CRF_SEQ_STALL counts may pass: a full unit queue, a bank's conflicts, a hold of R422 (R78, R86). Their
number is free until the register is read (log 14). -/
def stalls (x : Site) : Site := { x with c := { x.c with stalled := true } }

/-! ### Faults (R101, R380) -/

/-- The register of a croft's source code, and the source's bit in it. -/
def faultBit (code : Nat) : Nat × Nat :=
  if code < 16 then (Reg.crfFault, code)
  else if code < 24 then (Reg.arrFault, code - 16)
  else if code < 32 then (Reg.gthFault, code - 24)
  else if code < 40 then (Reg.vecFault, code - 32)
  else (Reg.carFault, code - 40)

/-- Raise a source: set its bit and report the event at the croft's location. Of the classes of R388, none is that
of the units acting on schedule words. -/
def raise (x : Site) (code : Nat) (opc : W16 := 0) (syn : W64 := 0) (cls : Option Bool := none)
    (refused : Option (Fin 2) := none) : Site :=
  let b := faultBit code
  let x := x.setReg b.1 (x.reg b.1 ||| BitVec.ofNat 64 (2 ^ b.2))
  { x with raised := x.raised ++
      [{ source := code, loc := locCroft x.q, time := x.now, syndrome := syn, opcode := opc, tclass := cls, refused }] }

/-! ### Sequencer (R85, R90) -/

def setSeq (x : Site) (q : Seq) : Site := { x with c := { x.c with seq := q } }

/-- The sequencer issues no further word and becomes HALTED, with FAULT set but by a HALT word; words in unit queues run on
(R80, R90). A STOP under way goes on to IDLE (R423). -/
def seqHalt (x : Site) (fault : Bool := true) : Site := x.setSeq { x.c.seq with st := .halted, held := .nothing, fault }

/-- Raise a source with the scheduled-unit outcome of R80. -/
def raiseHalt (x : Site) (code : Nat) (opc : W16 := 0) (syn : W64 := 0) : Site :=
  (x.raise code opc syn).seqHalt

/-- The fence of R98: CRF_CTRL.FENCE, which hardware sets for every other cause (R99), or a cause that holds. -/
def fenced (x : Site) : Bool := bit (x.reg Reg.crfCtrl) 0 || x.cut || x.c.faultFence

/-- The croft runs: neither fenced nor in a croft reset. -/
def live (x : Site) : Bool := !x.fenced && !x.c.resetting

/-! ### Address map (R74) -/

inductive Region where
  | scratch | acc | tile | slot | block | none
deriving DecidableEq, Repr

/-- The region of a local offset. -/
def region (a : Nat) : Region :=
  if a < 0x200000 then .scratch
  else if 0x01000000 ≤ a ∧ a < 0x01020000 then .acc
  else if 0x02000000 ≤ a ∧ a < 0x02010000 then .tile
  else if 0x03000000 ≤ a ∧ a < 0x03008000 then .slot
  else if 0x0F000000 ≤ a ∧ a < 0x0F005000 then .block
  else .none

/-- The offset at which a region ends. -/
def regionEnd (a : Nat) : Nat :=
  match region a with
  | .scratch => 0x200000
  | .acc => 0x01020000
  | .tile => 0x02010000
  | .slot => 0x03008000
  | .block => 0x0F005000
  | .none => a

/-- All n bytes from a lie in one region. -/
def inRegion (a n : Nat) : Bool := region a != .none && a + n ≤ regionEnd a

/-! ### Error correction (R80, R102, R143, R213) -/

def eccOf (x : Site) (cw : Nat) : Ecc := Tab.get (fun _ => Ecc.clean) x.c.ecc cw

def setEcc (x : Site) (cw : Nat) (e : Ecc) : Site :=
  { x with c := { x.c with ecc := Tab.set (fun _ => Ecc.clean) x.c.ecc cw e } }

/-- CRF_ECC_LOG of an event at a scratchpad codeword: bank, row and codeword by R76. -/
def eccLog (cw : Nat) (uncorr parity : Bool) : W64 :=
  BitVec.ofNat 64 (2 ^ 31 + b2n uncorr * 2 ^ 30 + b2n parity * 2 ^ 29 + cw % 2 * 2 ^ 15 + cw / 2 % 8 * 2 ^ 12 + cw / 16 % 4096)

/-- Where an accumulator codeword lies, as the syndrome of ACC_UE gives it (R392). -/
def accSyndrome (cw : Nat) (parity : Bool) : W64 :=
  let i := cw - 0x01000000 / 32
  BitVec.ofNat 64 (i / 8 % 512 + i % 8 * 2 ^ 9 + b2n parity * 2 ^ 12)

/-- Where a tile buffer codeword lies, as the syndrome of TB_UE gives it (R392). -/
def tileSyndrome (x : Site) (cw : Nat) (parity : Bool) : W64 :=
  let i := cw - 0x02000000 / 32
  BitVec.ofNat 64 (x.num Reg.vecFaultLog % 2 ^ 32 + i / 16 % 32 * 2 ^ 32 + i / 512 * 2 ^ 37 + i % 16 * 2 ^ 39 + b2n parity * 2 ^ 43)

/-- VEC_FAULT_LOG holds the first fault since VEC_FAULT was last all clear (R223). -/
def vecLog (x : Site) (src stream instr beat : Nat) : Site :=
  if x.num Reg.vecFault = 0 then
    x.setReg Reg.vecFaultLog (BitVec.ofNat 64 (2 ^ 31 + src * 2 ^ 28 + stream * 2 ^ 25 + instr * 2 ^ 20 + beat % 8192))
  else x

/-- The beat that a tile buffer event belongs to: the running word's for a scheduled read. -/
def beatOf (x : Site) (cls : Option Bool) : Nat :=
  match cls, x.c.vector with
  | none, some v => v.beat
  | _, _ => 0

/-- A read of one 32-byte codeword through its correction: the event counted, logged and raised, and whether the
codeword is uncorrectable. -/
def check (x : Site) (cw : Nat) (opc : W16) (cls : Option Bool) : Site × Bool :=
  let e := x.eccOf cw
  let parity := e == .parity
  match region (32 * cw), e with
  | _, .clean => (x, false)
  | .scratch, .corr =>
    let x := x.count Reg.crfEccCorr 1
    ({ x with c := { x.c with corrLog := eccLog cw false false } }, false)
  | .scratch, _ =>
    let x := (x.count Reg.crfEccUncorr 1).setReg Reg.crfEccLog (eccLog cw true parity)
    (x.raise (if parity then 1 else 0) opc (eccLog cw true parity) cls, true)
  | .acc, .corr => (x.count Reg.arrAccCorr 1, false)
  | .acc, _ => ((x.count Reg.arrAccUncorr 1).raise (if parity then 18 else 17) opc (accSyndrome cw parity) cls, true)
  | .tile, .corr => (x.count Reg.vecTbCorr 1, false)
  | .tile, _ =>
    let x := (x.count Reg.vecTbUncorr 1).vecLog (if parity then 6 else 5) 0 0 (x.beatOf cls)
    (x.raise (if parity then 38 else 37) opc (x.tileSyndrome cw parity) cls, true)
  | _, _ => (x, false)

/-- Codeword reads from index cw on. -/
def checks (x : Site) (cw : Nat) (opc : W16) (cls : Option Bool) : Nat → Site × Bool
  | 0 => (x, false)
  | n + 1 =>
    let r := x.check cw opc cls
    let t := r.1.checks (cw + 1) opc cls n
    (t.1, r.2 || t.2)

/-- The number of codewords that n bytes from a touch. -/
def codewords (a n : Nat) : Nat := if n = 0 then 0 else (a + n - 1) / 32 + 1 - a / 32

/-- How many of n bytes from a lie in the region of a. -/
def within (a n : Nat) : Nat := min n (regionEnd a - a)

/-- A read of n bytes by a unit: the bytes, and whether the read met an uncorrectable codeword. What lies outside
every region raises ADDR_ILLEGAL and returns zeros (R74). -/
def readBytes (x : Site) (a n : Nat) (opc : W16 := 0) (cls : Option Bool := none) : Site × List Byte × Bool :=
  let m := within a n
  let r := x.checks (a / 32) opc cls (codewords a m)
  let y := if m < n then r.1.raise 6 opc 0 cls else r.1
  (y, Memory.read x.c.mem a m ++ List.replicate (n - m) 0, r.2)

/-- Bytes stored and their whole codewords' check bits made good. -/
def store (x : Site) (a : Nat) (bs : List Byte) : Site :=
  { x with c := { x.c with
      mem := Memory.write x.c.mem a bs
      ecc := Tab.clear x.c.ecc (ceilDiv a 32) ((a + bs.length) / 32) } }

/-- The read, correction and merge that a write of part of codeword cw makes (R79): an uncorrectable codeword
keeps the poison check pattern. -/
def merge (x : Site) (cw : Nat) (opc : W16) (cls : Option Bool) : Site :=
  let r := x.check cw opc cls
  if r.2 then r.1.setEcc cw .uncorr else r.1.setEcc cw .clean

/-- An unscheduled write of any byte range (R79): partial codewords at its ends are merged. -/
def storeBytes (x : Site) (a : Nat) (bs : List Byte) (opc : W16 := 0) (cls : Option Bool := none) : Site :=
  let e := a + bs.length
  let x := if a % 32 ≠ 0 ∨ bs.length < 32 then x.merge (a / 32) opc cls else x
  let x := if e % 32 ≠ 0 ∧ e / 32 ≠ a / 32 then x.merge (e / 32) opc cls else x
  x.store a bs

/-- The sequencer runs schedule slot k. -/
def runs (x : Site) (k : Nat) : Bool := (x.c.seq.st = .run || x.c.seq.st = .wait) && x.c.seq.slot == k

/-- The part of a write that falls in schedule slot k (R84): into the running slot it is discarded and raises
SCHED_WRITE_ACTIVE; into another slot it clears the slot's VALID bit. -/
def putSlot (x : Site) (a : Nat) (bs : List Byte) (opc : W16) (cls : Option Bool) (k : Nat) : Site :=
  let base := 0x03000000 + 0x2000 * k
  let lo := max a base
  let hi := min (a + bs.length) (base + 0x2000)
  if hi ≤ lo then x
  else if x.runs k then x.raise 4 opc 0 cls
  else
    (x.setReg Reg.crfSeqSlots (x.reg Reg.crfSeqSlots &&& ~~~ BitVec.ofNat 64 (2 ^ k))).store lo
      ((bs.drop (lo - a)).take (hi - lo))

/-- A write of bytes that lie in one region. -/
def putBytes (x : Site) (a : Nat) (bs : List Byte) (opc : W16) (cls : Option Bool) : Site :=
  if bs.isEmpty then x
  else if region a = .slot then (List.range 4).foldl (fun x k => x.putSlot a bs opc cls k) x
  else x.storeBytes a bs opc cls

/-- A unit's write of bytes: what lies outside every region raises ADDR_ILLEGAL and is not written (R74). -/
def writeBytes (x : Site) (a : Nat) (bs : List Byte) (opc : W16 := 0) (cls : Option Bool := none) : Site :=
  let m := within a bs.length
  let x := if m < bs.length then x.raise 6 opc 0 cls else x
  x.putBytes a (bs.take m) opc cls

/-- An output tile that a word leaves incomplete: its bytes are undefined, each a free value (R424; log 3). -/
def leaveOpen (x : Site) (a n : Nat) : Site :=
  let m := within a n
  { x with
    c := { x.c with mem := Memory.write x.c.mem a ((List.range m).map fun i => Config.freeByte (x.free + i)) }
    free := x.free + m }

/-! ### Token queues (R91) -/

def queue (x : Site) (k : Nat) : List W32 := Tab.get (fun _ => []) x.c.tokq k

def setQueue (x : Site) (k : Nat) (l : List W32) : Site :=
  { x with c := { x.c with tokq := Tab.set (fun _ => []) x.c.tokq k l } }

def queueFull (x : Site) (k : Nat) : Bool := 16 ≤ (x.queue k).length

/-- Push a handle into a queue that has space. -/
def push (x : Site) (k : Nat) (h : W32) : Site := x.setQueue k (x.queue k ++ [h])

/-- Handle register Hk of the sequencer. -/
def hreg (x : Site) (k : Nat) : W32 := Tab.get (fun _ => 0) x.c.hreg k

def setHreg (x : Site) (k : Nat) (h : W32) : Site :=
  { x with c := { x.c with hreg := Tab.set (fun _ => 0) x.c.hreg k h } }

/-! ### Windows (R92 to R95) -/

/-- CRF_WIN_STATE_w.STATE: 0 CLOSED, 1 OPEN, 2 CLOSING. -/
def winState (x : Site) (w : Nat) : Nat := x.field (Reg.crfWinState w) 9 8
def winGen (x : Site) (w : Nat) : Nat := x.field (Reg.crfWinState w) 7 0
def winPerm (x : Site) (w : Nat) : Nat := x.field (Reg.crfWinState w) 14 12
def winBase (x : Site) (w : Nat) : Nat := 32 * x.field (Reg.crfWinRange w) 15 0
def winLen (x : Site) (w : Nat) : Nat := 32 * (x.field (Reg.crfWinRange w) 31 16 + 1)

/-- The windows that are OPEN or CLOSING. -/
def winsInUse (x : Site) : Nat := ((List.range 16).filter fun w => x.winState w != 0).length

/-- CRF_WIN_LIMIT.LIMIT; above 16 it acts as 16. -/
def winLimit (x : Site) : Nat := min 16 (x.field Reg.crfWinLimit 4 0)

/-- Why an OPEN of index w with base and length is refused (R92): 1 by the index or the range, 2 by the limit. -/
def openRefused (x : Site) (w base lenM1 : Nat) : Option Nat :=
  if x.winState w = 1 ∨ 65536 < base + lenM1 + 1 then some 1
  else if x.winLimit ≤ x.winsInUse then some 2
  else none

/-- The window's grant (R93). -/
def grant (x : Site) (w : Nat) : W32 := BitVec.ofNat 32 (x.n.getD 0 * 2 ^ 12 + w * 2 ^ 8 + x.winGen w)

/-- Open index w: range and permissions latched, the generation kept, the arrival counter zeroed (R92, R245). -/
def openWin (x : Site) (w base lenM1 perm : Nat) : Site :=
  let x := x.setReg (Reg.crfWinRange w) (BitVec.ofNat 64 (lenM1 % 65536 * 65536 + base % 65536))
  let x := x.setReg (Reg.crfWinState w) (BitVec.ofNat 64 (perm % 8 * 2 ^ 12 + 2 ^ 8 + x.winGen w))
  x.setReg (Reg.carArrive w) 0

/-- Close index w: the generation rises by one, modulo 256, and the state is CLOSING (R95). -/
def closeWin (x : Site) (w : Nat) : Site :=
  if x.winState w = 1 then
    (x.setField (Reg.crfWinState w) 7 0 (x.winGen w + 1)).setField (Reg.crfWinState w) 9 8 2
  else x

/-- No accepted write of window w is uncommitted. -/
def winDrained (x : Site) (w : Nat) : Bool := x.c.accepted.all fun a => a.pkt.window.toNat != w

/-- The sequencer goes on where it has waited for window w's close: for its WAIT_CLOSED, or to open it again (R86). -/
def closeReleases (x : Site) (w : Nat) : Site :=
  if (x.c.seq.held = .closing w ∨ x.c.seq.held = .opening w) ∧ x.live then
    x.setSeq { x.c.seq with st := .run, held := .nothing }
  else x

/-- A CLOSING window whose accepted writes have committed becomes CLOSED. -/
def closeDone (x : Site) (w : Nat) : Site :=
  if x.winState w = 2 ∧ x.winDrained w then (x.setField (Reg.crfWinState w) 9 8 0).closeReleases w else x

/-! ### Packets -/

/-- A packet from this croft (R52). -/
def packet (x : Site) (op : Nat) (dest : Nat) (vc : Nat) : Packet :=
  { op := BitVec.ofNat 8 op, dest := BitVec.ofNat 16 dest, src := BitVec.ofNat 16 (x.n.getD 0),
    vc := BitVec.ofNat 2 vc, origVc := BitVec.ofNat 2 vc, holding := BitVec.ofNat 4 (min x.hold 15) }

/-- The answer to a packet, on the packet's plane, with its TAG (R52, R54, R297). -/
def answer (x : Site) (k : Packet) (op vc : Nat) : Packet :=
  { x.packet op k.src.toNat vc with
    tag := k.tag, plane := k.plane, tclass := k.tclass, who := k.who, attach := answerAttach k }

/-- Refuse a unicast request with a NACK code (R71). -/
def refuse (x : Site) (k : Packet) (code : Nat) : Site :=
  x.send { x.answer k 0x05 1 with nack := BitVec.ofNat 8 code }

/-- The entry checks of R94 on a WRITE, READ_REQ or TOKEN: the NACK code of the first that fails. -/
def entryCheck (x : Site) (k : Packet) : Option Nat :=
  let w := k.window.toNat
  let perm := if k.op = 0x02 then 0 else if k.origVc = 2 then 2 else 1
  let isTok := k.op = 0x06
  if x.c.resetting then some 0x06
  else if x.fenced then some 0x0B
  else if k.holding ≠ 0xF ∧ k.holding.toNat ≠ x.hold then some 0x07
  else if ¬ isTok ∧ (x.winState w ≠ 1 ∨ (k.op = 0x01 ∧ k.gen.toNat ≠ x.winGen w)) then some 0x03
  else if ¬ isTok ∧ x.winPerm w / 2 ^ perm % 2 = 0 then some 0x05
  else if ¬ isTok ∧ x.winLen w < k.offset.toNat + k.length.toNat then some 0x04
  else if isTok ∧ x.queueFull (bitsOf k.opdata.toNat 33 32) then some 0x0C
  else none

/-! ### Channels (R225, R241) -/

def chan (x : Site) (i : Nat) : Chan := Tab.get (fun _ => ({} : Chan)) x.c.chans i

def setChan (x : Site) (i : Nat) (c : Chan) : Site :=
  { x with c := { x.c with chans := Tab.set (fun _ => ({} : Chan)) x.c.chans i c } }

/-- A channel's handle (R225). -/
def handle (x : Site) (i : Nat) : W32 :=
  BitVec.ofNat 32 (x.n.getD 0 % 2 ^ 15 * 2 ^ 15 + i * 16 + (x.chan i).gen.toNat)

end Site

/-! ### Channel states, for carters and gates -/

/-- CAR_CH_STATUS.STATE and GAT_CH_STATUS.STATE. -/
def ChState.code : ChState → Nat
  | .free => 0 | .run => 1 | .wait => 2 | .draining => 3 | .done => 4 | .aborted => 5 | .halted => 6

/-- A channel's status register (the CAR_CH_STATUS_c and GAT_CH_STATUS_c tables). -/
def Chan.status (c : Chan) : Nat :=
  c.code.toNat * 2 ^ 24 + min c.used 7 * 2 ^ 18 + b2n c.indoubt * 2 ^ 17 + b2n c.late * 2 ^ 16 + c.cause * 2 ^ 8 + c.st.code

/-- RUN, WAIT or DRAINING. -/
def Chan.active (c : Chan) : Bool := c.st = .run || c.st = .wait || c.st = .draining

/-- Requests in flight: those that have not failed and wait for their retry. -/
def Chan.inFlight (c : Chan) : List Req := c.outst.filter fun r => !r.backoff

/-- The end of a drain (R227, R241, R243): HALTED or ABORTED, and FREE where a DESTROY waits. -/
def Chan.settle (c : Chan) : Chan :=
  let c := if c.st = .draining ∧ c.outst = [] then { c with st := if c.aborting then .aborted else .halted } else c
  if c.destroying ∧ (c.st = .done ∨ c.st = .aborted ∨ c.st = .halted) then { c with st := .free, destroying := false } else c

/-- Stop issuing and drain: requests that wait for a retry are dropped, the others awaited (R241, R243). -/
def Chan.stop (c : Chan) (cause : Nat) (code : Byte) (used : Nat) (abort : Bool) : Chan :=
  { c with st := .draining, aborting := abort, cause, code, used, moving := none, outst := c.inFlight }

/-- An ABORT (R243). -/
def Chan.abort (c : Chan) : Chan :=
  match c.st with
  | .run | .wait => c.stop 6 0 0 true
  | .done => { c with late := true }
  | _ => c

/-- A DESTROY (R227): a running channel is aborted, and the context freed once the channel has ended. -/
def Chan.destroy (c : Chan) : Chan :=
  if c.st = .free then c
  else
    let c := { c.abort with destroying := true }
    if c.st = .done ∨ c.st = .aborted ∨ c.st = .halted then { c with st := .free, destroying := false } else c

/-- The fence of R244. -/
def Chan.fence (c : Chan) : Chan :=
  if c.active then
    { c with st := if c.destroying then .free else .aborted, destroying := false, cause := 5, code := 0,
             indoubt := c.indoubt || !c.outst.isEmpty, outst := [], moving := none }
  else c

/-- A channel as a START leaves it (R226): its generation one higher, its status, loops and bytes clear. -/
def Chan.started (c : Chan) (pc : Nat) (c0 : W32) (slot : Option Nat) : Chan :=
  { st := .run, gen := c.gen + 1, pc, c0, slot, seq := c.seq }

namespace Site

/-- Halt a channel: it drains, and CARTER_HALT is raised with its status and handle, or CARTER_ILLEGAL for an
illegal instruction (R230, R241, R392; log 12), which halts the sequencer too where a word started the channel (R247). -/
def haltChan (x : Site) (i cause : Nat) (opc : Nat) (code : Byte := 0) (used : Nat := 0)
    (refused : Option (Fin 2) := none) : Site :=
  let c := x.chan i
  if c.st = .run ∨ c.st = .wait then
    let x := x.setChan i (c.stop cause code used false)
    let o : W16 := BitVec.ofNat 16 (2 * 2 ^ 12 + opc)
    if cause = 4 then
      let x := x.raise 41 o 0 (some c.tclass)
      if c.slot.isSome then x.seqHalt else x
    else x.raise 40 o (BitVec.ofNat 64 ((x.handle i).toNat * 2 ^ 32 + (x.chan i).status)) (some c.tclass) refused
  else x

/-- Requests outstanding in the carter (CAR_STATUS.OUTSTANDING). -/
def outstanding (x : Site) : Nat := ((List.range 8).map fun i => (x.chan i).outst.length).sum

/-- The fence of R98 and R99 as it begins: FENCE set, unit queues emptied, every unit stopped, channels ABORTED. A croft
reset that another cause has already seen completed goes on counting, FENCE having stood at 1. -/
def fence (x : Site) : Site :=
  let x := x.setReg Reg.crfCtrl (x.reg Reg.crfCtrl ||| 1)
  { x with c := { x.c with
      seq := { x.c.seq with st := .idle, held := .nothing, stopping := false }
      arrayQ := [], drainQ := [], vecQ := [], gathQ := [], feeds := [], gathDone := []
      loading := none, streaming := none, draining := none, vector := none
      chans := x.c.chans.map fun e => (e.1, e.2.fence) } }

end Site

end Sys2Proof.Machine
end

