-- ==== Sys2Proof/Machine/Operands.lean ====
section
/-! DEFINITION. The operand forms of the schedule words (R85, R145, R153, R178, R215, R229) and of the carter
instructions (R230): their fields, and which words and instructions are legal. -/

namespace Sys2Proof.Machine

/-- Bits [hi:lo] of a schedule word. -/
def wfield (w : W128) (hi lo : Nat) : Nat := bitsOf w.toNat hi lo

/-- CLASS and OP of a word. -/
def wordClass (w : W128) : Nat := wfield w 127 124
def wordOp (w : W128) : Nat := wfield w 111 108

/-- The bits of [111:0] that a class's layout shows. -/
def shown : Nat → Nat
  | 0x1 => 2 ^ 112 - 2 ^ 69
  | 0x2 => 2 ^ 112 - 2 ^ 16
  | 0x3 => (2 ^ 112 - 2 ^ 70) + (2 ^ 69 - 2 ^ 55) + 2 ^ 53 + (2 ^ 32 - 2 ^ 16)
  | 0x4 => (2 ^ 112 - 2 ^ 37) + (2 ^ 32 - 2 ^ 16)
  | 0x5 => 2 ^ 112 - 2 ^ 82
  | 0x6 => 2 ^ 18 - 1
  | 0x7 => 2 ^ 18 - 2 ^ 16
  | 0x8 => (2 ^ 32 - 2 ^ 16) + 7
  | 0x9 => (2 ^ 63 - 2 ^ 48) + (2 ^ 39 - 1)
  | 0xA => (2 ^ 64 - 2 ^ 32) + (2 ^ 13 - 1)
  | 0xB => 3
  | _ => 0

/-- A word that its class's layout allows: class, OP and field values, and zero where the layout shows zero. -/
def wordLegal (w : W128) : Bool :=
  let c := wordClass w
  let op := wordOp w
  let zeros := w.toNat % 2 ^ 112 &&& (2 ^ 112 - 1 - shown c) == 0
  zeros && match c with
    | 0x1 => 1 ≤ op && op ≤ 3
    | 0x2 => wfield w 111 109 ≤ 5 && wfield w 102 101 ≤ 2
    | 0x3 => op == 1
    | 0x4 => 1 ≤ op && op ≤ 6
    | 0x5 => 1 ≤ op && op ≤ 3
    | 0x8 => wfield w 2 0 ≤ 4
    | 0xA => wfield w 1 0 == 1 || wfield w 1 0 == 2
    | 0xE | 0xF => false
    | _ => true

/-- OPCODE of an event of a word: origin 1, CLASS in [7:4] and OP in [3:0] (R392). -/
def wordOpcode (w : W128) : W16 := BitVec.ofNat 16 (2 ^ 12 + wordClass w * 16 + wordOp w)

/-! ### Carter instructions -/

/-- Bits [hi:lo] of a carter instruction. -/
def cfield (i : W256) (hi lo : Nat) : Nat := bitsOf i.toNat hi lo

def carOpc (i : W256) : Nat := cfield i 255 252

/-- OPCODE of an event of a carter instruction: origin 2 and its OPC (R392). -/
def carOpcode (opc : Nat) : W16 := BitVec.ofNat 16 (2 * 2 ^ 12 + opc)

/-- The bits of [251:0] that an instruction's layout shows. -/
def carShown : Nat → Nat
  | 1 => 2 ^ 252 - 2 ^ 121
  | 2 => 2 ^ 252 - 2 ^ 73
  | 3 => 2 ^ 252 - 2 ^ 162
  | 4 => 2 ^ 252 - 2 ^ 196
  | 5 => 2 ^ 252 - 2 ^ 194
  | _ => 0

/-- The targets of a MOVE or RESHUFFLE are a legal combination (R232, R233). -/
def moveTargets (i : W256) (reshuffle : Bool) : Bool :=
  let src := cfield i 251 250
  let dst := cfield i 249 248
  let srcH := cfield i 244 243
  let dstH := cfield i 242 241
  let len := cfield i 240 221 + 1
  src ≤ 1 && cfield i 247 246 ≤ 2 && srcH ≤ 2 && dstH ≤ 2 &&
  (src == 0 || dst == 0 && !reshuffle) &&
  (src == 0 || srcH != 0) && (dst != 1 || dstH != 0) &&
  (dst != 3 || len % 4 == 0)

/-- The fields of a RESHUFFLE (R230, R238, R239). -/
def reshuffleFields (i : W256) : Bool :=
  let op := cfield i 120 117
  let w := cfield i 116 112
  let k := cfield i 111 108 + 1
  let g := cfield i 107 105
  let len := cfield i 240 221 + 1
  cfield i 104 73 % 32 == 0 &&
  if op == 1 || op == 2 then
    (w == 2 || w == 4 || w == 6 || w == 8 || w == 16) && cfield i 111 108 == 0 && g == 0 &&
      len * 8 % w == 0 && len * 8 / w % 256 == 0
  else if op == 3 || op == 4 then w == 0 && 2 ≤ k && g ≤ 5 && len % (32 * k) == 0
  else false

/-- An instruction that the tables of R230 allow, but for the loop nesting, which depends on the channel. -/
def carLegal (i : W256) : Bool :=
  let opc := carOpc i
  let zeros := i.toNat % 2 ^ 252 &&& (2 ^ 252 - 1 - carShown opc) == 0
  zeros && match opc with
    | 0 => true
    | 1 => moveTargets i false
    | 2 => moveTargets i true && reshuffleFields i
    | 3 => 1 ≤ cfield i 233 226
    | 4 => cfield i 251 249 ≤ 4 && (cfield i 251 249 != 0 || cfield i 248 245 ≤ 3) && (cfield i 251 249 != 4 || cfield i 248 245 ≤ 7)
    | 5 => cfield i 251 250 ≤ 2 && (cfield i 251 250 != 1 || cfield i 208 194 < 26880)
    | _ => false

end Sys2Proof.Machine
end

