-- ==== Sys2Proof/WellFormed.lean ====
section
/-! DEFINITION. Which commands a sender can form: byte lists of the lengths that a packet's, message's or frame's
own fields give, register accesses of a width that exists. -/

namespace Sys2Proof

/-- A packet's payload has the bytes its head flit announces: LENGTH in WRITE and READ_DATA, at most the sixteen
body flits of R51; none in the single-flit operations. -/
def Packet.wellFormed (k : Packet) : Bool :=
  if k.op = 0x01 ∨ k.op = 0x03 then k.payload.length == min k.length.toNat 512 else k.payload.length == 0

/-- A frame that decodes has the 640 bytes of R304. -/
def Frame.wellFormed (f : Frame) : Bool := !f.decodes || f.bytes.length == 640

/-- A message carries at most 4,096 payload bytes (R312). -/
def Msg.wellFormed (m : Msg) : Bool := m.payload.length ≤ 4096

/-- A core's access is of one, two, four or eight bytes. -/
def accessWidth (n : Nat) : Bool := n == 1 || n == 2 || n == 4 || n == 8

/-- The well-formedness of a command. -/
def Instr.wellFormed : Instr → Bool
  | .tallyRecord _ k | .packetInject k | .regWrite k | .regRead k | .write k | .readReq k | .token k
  | .writeAck k | .readData k | .nack k | .regData k | .scaleTokenAck _ k => k.wellFormed
  | .caps _ _ f | .data _ _ f | .idle _ _ f | .time _ _ f => f.wellFormed
  | .fingerprint _ m | .harvestChunk _ _ m | .ebsoberReadData _ _ m | .writeDone _ _ m | .shardData _ _ m
  | .shardDone _ _ m | .error _ _ m | .permuteData _ _ m | .permuteAck _ _ m => m.wellFormed
  | .stewardLoad _ _ _ n | .stewardStore _ _ _ n _ | .registerWrite _ n _ => accessWidth n
  | _ => true

end Sys2Proof
end

