-- ==== Sys2Proof/Machine/Ops.lean ====
section
/-! DEFINITION. The named operations over the module's state: its units and their registers, the row maps, fences,
fault events, packets of the network domain, shadow records and module time. -/

namespace Sys2Proof.Machine

/-- The outcome of a command of well-formed operands; no sender can form any other (R51, R304). -/
def checked (wf : Bool) (t : State) : Host.Outcome State Fault Refusal :=
  if wf then .next t else .fault .illFormed

/-! ### Units -/

namespace Parish
def reg (p : Parish) (o : Nat) : W64 := Tab.get parishReset p.regs o
def setReg (p : Parish) (o : Nat) (v : W64) : Parish := { p with regs := Tab.set parishReset p.regs o v }
def field (p : Parish) (o hi lo : Nat) : Nat := fld (p.reg o) hi lo
def setField (p : Parish) (o hi lo n : Nat) : Parish := p.setReg o (setFld (p.reg o) hi lo n)
/-- A counting register; top is its saturation value. -/
def count (p : Parish) (o n : Nat) (top : Nat := 0xFFFFFFFF) : Parish :=
  p.setReg o (BitVec.ofNat 64 (min ((p.reg o).toNat + n) top))
/-- The network domain is on. -/
def net (p : Parish) : Bool := p.st != .off && p.st != .tripped
end Parish

namespace Stc
def reg (c : Stc) (o : Nat) : W64 := Tab.get stcReset c.regs o
def setReg (c : Stc) (o : Nat) (v : W64) : Stc := { c with regs := Tab.set stcReset c.regs o v }
def num (c : Stc) (o : Nat) : Nat := (c.reg o).toNat
def setNum (c : Stc) (o n : Nat) : Stc := c.setReg o (BitVec.ofNat 64 n)
def field (c : Stc) (o hi lo : Nat) : Nat := fld (c.reg o) hi lo
def setField (c : Stc) (o hi lo n : Nat) : Stc := c.setReg o (setFld (c.reg o) hi lo n)
def count (c : Stc) (o n : Nat) : Stc := c.setNum o (satAdd (c.num o) n)
/-- No step is open in IDLE, STOPPED and WARM_HOLD (R388). -/
def stepOpen (c : Stc) : Bool := !(c.st = .idle || c.st = .stopped || c.st = .warmHold)
end Stc

namespace Gate
def reg (g : Gate) (o : Nat) : W64 := Tab.get gateReset g.regs o
def setReg (g : Gate) (o : Nat) (v : W64) : Gate := { g with regs := Tab.set gateReset g.regs o v }
def num (g : Gate) (o : Nat) : Nat := (g.reg o).toNat
def setNum (g : Gate) (o n : Nat) : Gate := g.setReg o (BitVec.ofNat 64 n)
def field (g : Gate) (o hi lo : Nat) : Nat := fld (g.reg o) hi lo
def setField (g : Gate) (o hi lo n : Nat) : Gate := g.setReg o (setFld (g.reg o) hi lo n)
def count (g : Gate) (o n : Nat) : Gate := g.setNum o (satAdd (g.num o) n)
def port (g : Gate) (i : Nat) : Port := Tab.get (fun _ => ({} : Port)) g.ports i
def setPort (g : Gate) (i : Nat) (p : Port) : Gate := { g with ports := Tab.set (fun _ => ({} : Port)) g.ports i p }
def lane (g : Gate) (i : Nat) : Lane := Tab.get (fun _ => ({} : Lane)) g.lanes i
def setLane (g : Gate) (i : Nat) (l : Lane) : Gate := { g with lanes := Tab.set (fun _ => ({} : Lane)) g.lanes i l }
def chan (g : Gate) (i : Nat) : Chan := Tab.get (fun _ => ({} : Chan)) g.chans i
def setChan (g : Gate) (i : Nat) (c : Chan) : Gate := { g with chans := Tab.set (fun _ => ({} : Chan)) g.chans i c }
end Gate

namespace State

def croft (s : State) (q : Nat) : Croft := Tab.get (fun _ => ({} : Croft)) s.crofts q
def setCroft (s : State) (q : Nat) (c : Croft) : State :=
  { s with crofts := Tab.set (fun _ => ({} : Croft)) s.crofts q c }
def parish (s : State) (p : Nat) : Parish := Tab.get (fun _ => ({} : Parish)) s.parishes p
def setParish (s : State) (p : Nat) (v : Parish) : State :=
  { s with parishes := Tab.set (fun _ => ({} : Parish)) s.parishes p v }
def stc (s : State) (h : Nat) : Stc := Tab.get (fun _ => ({} : Stc)) s.stcs h
def gate (s : State) (g : Nat) : Gate := Tab.get (fun _ => ({} : Gate)) s.gates g
def setGate (s : State) (g : Nat) (v : Gate) : State := { s with gates := Tab.set (fun _ => ({} : Gate)) s.gates g v }
def steward (s : State) (i : Nat) : Steward := Tab.get (fun _ => ({} : Steward)) s.stewards i
def setSteward (s : State) (i : Nat) (v : Steward) : State :=
  { s with stewards := Tab.set (fun _ => ({} : Steward)) s.stewards i v }
def holding (s : State) (h : Nat) : Holding := Tab.get (fun _ => ({} : Holding)) s.holdings h
def setHolding (s : State) (h : Nat) (v : Holding) : State :=
  { s with holdings := Tab.set (fun _ => ({} : Holding)) s.holdings h v }

/-! ### The module's registers -/

def reg (s : State) (o : Nat) : W64 := Tab.get Machine.moduleReset s.regs o
def setReg (s : State) (o : Nat) (v : W64) : State := { s with regs := Tab.set Machine.moduleReset s.regs o v }
def num (s : State) (o : Nat) : Nat := (s.reg o).toNat
def setNum (s : State) (o n : Nat) : State := s.setReg o (BitVec.ofNat 64 n)
def field (s : State) (o hi lo : Nat) : Nat := fld (s.reg o) hi lo
def setField (s : State) (o hi lo n : Nat) : State := s.setReg o (setFld (s.reg o) hi lo n)
def count (s : State) (o n : Nat) : State := s.setNum o (satAdd (s.num o) n)

/-- A value that the spec leaves open (log 3). -/
def fresh (s : State) : W64 × State := (Config.freeWord s.freeCtr, { s with freeCtr := s.freeCtr + 1 })

/-! ### Supply and time -/

/-- The stewards and the ledger die are supplied and out of module reset. -/
def up (s : State) : Bool := s.power.auxOn && s.power.resetN

/-- Without supply and in module reset no part of the module acts, and no write takes effect (R20, R21). -/
def whenUp (s : State) (f : State → State) : State := if s.up then f s else s

/-- The stewards run: the last column of R20. -/
def alive (s : State) : Bool := s.up && s.sec.running

/-- A nanosecond of module time, which runs while bring-up has begun (log 1), slewed by up to 100 ppm (R415). -/
def tick (s : State) : State :=
  if s.alive then
    let c := s.clock
    let d : Int := if c.ticks % 10000 = 0 then c.slew.sign else 0
    { s with clock := { c with now := (c.now + 1 + d).toNat, ticks := c.ticks + 1, slew := c.slew - d } }
  else s

/-- The ACTIVE steward. -/
def active (s : State) : Option Nat :=
  if (s.steward 0).role = .active then some 0
  else if (s.steward 1).role = .active then some 1
  else none

/-- The STANDBY steward beside an ACTIVE one. -/
def standby (s : State) : Option Nat :=
  if (s.steward 0).role = .standby then some 0
  else if (s.steward 1).role = .standby then some 1
  else none

/-! ### Shadow records (R334, R382) -/

/-- A packet of the network domain for control, on plane A (R421), with HOLDING 0xF (R52). -/
def control (op : Nat) (src dest vc : Nat) : Packet :=
  { op := BitVec.ofNat 8 op, dest := BitVec.ofNat 16 dest, src := BitVec.ofNat 16 src, vc := BitVec.ofNat 2 vc,
    origVc := BitVec.ofNat 2 vc, holding := 0xF }

/-- The endpoint of the ACTIVE steward, S0's where none is. -/
def activeEndpoint (s : State) : Nat := 0x7100 + s.active.getD 0

/-- The record of a number on its way to the STANDBY steward. The spec gives it no OP: it rides as a register write, whose
answer is its acknowledgement (log 124). -/
def shadowPacket (s : State) (n : Nat) : Packet :=
  { control 0x12 s.activeEndpoint (0x7100 + s.standby.getD 1) 3 with who := .shadow n }

/-- A shadow record leaves, under its number, for the STANDBY steward. -/
def sendShadow (s : State) (d : Shadow) : State :=
  { s with
    shadows := s.shadows ++ [{ d with num := s.shadowNum }], shadowNum := s.shadowNum + 1
    outq := s.outq ++ [s.shadowPacket s.shadowNum] }

/-- A change of the ACTIVE steward's set is recorded for the partner's, where there is a STANDBY partner. -/
def shadow (s : State) (c : Change) : State := if s.standby.isSome then s.sendShadow { num := 0, changes := [c] } else s

/-- What one input or register write brings about goes to the partner as one record: its changes and its actions stand or
fall together (R334). -/
def asOne (s : State) (f : State → State) : State :=
  let t := f s
  if s.standby.isNone then t
  else match t.shadows.drop s.shadows.length with
    | d :: e :: ds =>
      if t.shadows.take s.shadows.length = s.shadows then
        let late (k : Packet) : Bool := match k.who with
          | .shadow n => decide (d.num < n)
          | _ => false
        { t with
          shadows := s.shadows ++ [(e :: ds).foldl Shadow.join d], shadowNum := d.num + 1
          outq := t.outq.filter fun k => !late k }
      else t
    | _ => t

/-- A step controller of the ACTIVE set changes. -/
def setStc (s : State) (h : Nat) (v : Stc) : State :=
  { s with stcs := Tab.set (fun _ => ({} : Stc)) s.stcs h v }.shadow (.stc h v)

/-- The ACTIVE steward's fault controller changes. -/
def setFaults (s : State) (f : FaultCtl) : State := { s with faults := f }.shadow (.faults f)

/-- A step controller acts: there is an ACTIVE steward (R334), and its holding is ACTIVE (R344). -/
def acts (s : State) (h : Nat) : Bool := s.active.isSome && (s.holding h).st = .active

/-- A register of the FLT_ block changes. -/
def setFlt (s : State) (o : Nat) (v : W64) : State := (s.setReg o v).shadow (.flt o v)

/-! ### Geometry and row maps (R6, R30 to R32, R53) -/

/-- The number of the parish of a physical croft. -/
def parOf (q : Nat) : Nat := q / 500

/-- The parish of a logical croft. -/
def parOfLogical (n : Nat) : Nat := 8 * (n / 192 / 20) + n % 192 / 24

/-- The parish under a gate: those whose row + column is even, in ascending order (R6). -/
def parOfGate (g : Nat) : Nat :=
  let r := g / 4
  8 * r + 2 * (g % 4) + r % 2

/-- PAR_ROWMAP_r of a parish. -/
def rowMap (s : State) (p r : Nat) : W64 := (s.parish p).reg (Reg.parRowmap r)

/-- The physical column that backs logical column j of a row by its map (R32). -/
def mapColumn (m : W64) (j : Nat) : Nat := if bit m 30 && fld m 4 0 ≤ j then j + 1 else j

/-- The physical croft that backs logical croft n; none in a LOST row (R32, R33). -/
def physOf (s : State) (n : Nat) : Option Nat :=
  let p := parOfLogical n
  let r := n / 192 % 20
  let m := s.rowMap p r
  if bit m 31 then none else some (500 * p + 25 * r + mapColumn m (n % 192 % 24))

/-- The logical croft that a physical croft backs. -/
def logicalOf (s : State) (q : Nat) : Option Nat :=
  let p := parOf q
  let r := q % 500 / 25
  let c := q % 25
  let m := s.rowMap p r
  let n j := 192 * (20 * (p / 8) + r) + 24 * (p % 8) + j
  if bit m 31 then none
  else if bit m 30 then
    if c = fld m 4 0 then none
    else if c < fld m 4 0 then some (n c)
    else some (n (c - 1))
  else if c = 24 then none
  else some (n c)

/-- The holding that owns a parish (HLD_OWNER_p); 16 or more where none does. -/
def owner (s : State) (p : Nat) : Nat := s.field (Reg.hldOwner p) 4 0

/-- A position is dead when either of its routers is (R66). -/
def deadPos (s : State) (q : Nat) : Bool := s.deadR.contains (2 * q) || s.deadR.contains (2 * q + 1)

/-- Packets reach the croft at a position: the network domain of its parish is on, and the position is not dead (R66). -/
def atCroft (s : State) (q : Nat) : Bool := (s.parish (parOf q)).net && !s.deadPos q

/-- The causes of R98 outside a croft: it backs no logical croft, a router of its position is dead, or the compute
rail of its parish is not up. -/
def cut (s : State) (q : Nat) : Bool :=
  (s.logicalOf q).isNone || s.deadPos q || (s.parish (parOf q)).st != .on

/-! ### Locations and events (R380 to R382) -/

def locRouter (q plane : Nat) : W32 := unitCode 1 (plane * 2 ^ 16 + q)
def dirCode : Dir → Nat
  | .n => 0 | .e => 1 | .s => 2 | .w => 3
def planeCode : Plane → Nat
  | .a => 0 | .b => 1
/-- Direction, skip, plane and sending router of a link. -/
def linkCode (l : Link) : Nat := dirCode l.dir * 2 ^ 18 + b2n l.skip * 2 ^ 17 + planeCode l.plane * 2 ^ 16 + l.q
def locLink (l : Link) : W32 := unitCode 2 (linkCode l)
def locParish (p : Nat) : W32 := unitCode 3 p
def locGate (g : Nat) : W32 := unitCode 4 g
def locLane (g l : Nat) : W32 := unitCode 5 (l * 2 ^ 5 + g)
def locPort (g k : Nat) : W32 := unitCode 6 (3 * g + k)
def locSteward (i : Nat) : W32 := unitCode 7 i
def locLedger (block : Nat) : W32 := unitCode 8 block
/-- The code of a holding, for the step controller's sources (R381). -/
def locHolding (h : Nat) : W32 := unitCode 9 h
def locModule : W32 := unitCode 10 0

/-- The parish of a location code, where it has one: crofts, routers, links and parishes. -/
def parOfLoc (loc : W32) : Option Nat :=
  let kind := loc.toNat / 2 ^ 28
  if kind ≤ 2 then some (parOf (loc.toNat % 2 ^ 15))
  else if kind = 3 then some (loc.toNat % 64)
  else none

/-- The endpoint from which a report goes to the ACTIVE steward: the reeve's for wafer units and for GATE_LOST, the gate's
for its own events; none for what the converter controller, the ledger and the stewards report directly (R382). -/
def reporter (r : Report) : Option Nat :=
  let i := r.loc.toNat % 2 ^ 28
  match r.loc.toNat / 2 ^ 28 with
  | 0 | 1 | 2 => some (0x7200 + i % 2 ^ 15 / 500)
  | 3 => if r.source = 70 then none else some (0x7200 + i % 64)
  | 4 => some (if r.source = 80 then 0x7200 + parOfGate (i % 32) else 0x7000 + i % 32)
  | 5 => some (0x7000 + i % 32)
  | 6 => some (0x7000 + i / 3)
  | _ => none

/-- A report on its way to the ACTIVE steward. -/
def reportPackets (s : State) (r : Report) : List Packet :=
  match reporter r with
  | some e => [{ control 0x11 e s.activeEndpoint 3 with who := .report r }]
  | none => []

/-- No unit of a parish whose network domain is off raises an event (R382), the reeve that polls a gate among them. -/
def mayRaise (s : State) (r : Report) : Bool :=
  match r.loc.toNat / 2 ^ 28 with
  | 0 | 1 | 2 => (s.parish (r.loc.toNat % 2 ^ 15 / 500)).net
  | 4 => r.source != 80 || (s.parish (parOfGate (r.loc.toNat % 32))).net
  | _ => true

/-- Events of units: each is kept by its reporter until it is acknowledged, and its report leaves (R382). -/
def reportAll (s : State) (rs : List Report) : State :=
  let mine := rs.filter s.mayRaise
  { s with reports := s.reports ++ mine, outq := s.outq ++ mine.flatMap s.reportPackets }

/-! ### Crofts -/

/-- A croft as its commands see it. -/
def site (s : State) (q : Nat) : Site :=
  { q, n := s.logicalOf q, hold := min 16 (s.owner (parOf q)), cut := s.cut q, now := s.clock.now,
    shown := (s.parish (parOf q)).mapped, c := s.croft q, free := s.freeCtr
    seed := BitVec.ofNat 64 (((s.stc (s.owner (parOf q))).reg Reg.stcSeedHi).toNat * 2 ^ 32 +
      ((s.stc (s.owner (parOf q))).reg Reg.stcSeedLo).toNat) }

/-- The state with a croft as its command left it, its packets handed to the network interface and its events to
the reeve. -/
def putSite (s : State) (x : Site) : State :=
  { s.setCroft x.q x.c with
    freeCtr := x.free, outq := s.outq ++ x.out }.reportAll x.raised

/-- A command that acts on one croft. -/
def onCroft (s : State) (q : Nat) (f : Site → Site) : State := s.putSite { f (s.site q) with q }

/-- The fence of R98 and R99 on a list of crofts. -/
def fenceAll (s : State) (qs : List Nat) : State := qs.foldl (fun s q => s.onCroft q Site.fence) s

/-- The 500 crofts of a parish. -/
def croftsOf (p : Nat) : List Nat := (List.range 500).map fun i => 500 * p + i

/-- The parishes of a holding. -/
def parishesOf (s : State) (h : Nat) : List Nat := (List.range 56).filter fun p => s.owner p = h

/-- The physical crofts that back the logical crofts of a holding. -/
def holdingCrofts (s : State) (h : Nat) : List Nat :=
  ((s.parishesOf h).flatMap croftsOf).filter fun q => (s.logicalOf q).isSome

/-! ### Events -/

/-- Report an event, stamped with module time; every class but those of R388's exceptions is REPLAY. -/
def raise (s : State) (code : Nat) (loc : W32) (syn : W64 := 0) (opc : W16 := 0) (cls : Option Bool := some false)
    (hold : Option Nat := none) : State :=
  s.reportAll
    [{ source := code, loc, time := s.clock.now, syndrome := syn, opcode := opc, tclass := cls, chanHold := hold }]

/-- OPCODE of an event that a register access raises: origin 5 and the register's offset (R392). -/
def accessOpcode (o : Nat) : W16 := BitVec.ofNat 16 (5 * 2 ^ 12 + o % 2 ^ 12)

/-- OPCODE of an event about an Ebsober message: origin 4 and the OP (R392). -/
def msgOpcode (m : Msg) : W16 := BitVec.ofNat 16 (4 * 2 ^ 12 + m.op.toNat)

/-- Raise a source of a step controller: its bit, and the event at the holding (R380). -/
def raiseStc (s : State) (h r bitPos code : Nat) (opc : W16 := 0) : State :=
  let c := s.stc h
  (s.setStc h (c.setReg r (c.reg r ||| BitVec.ofNat 64 (2 ^ bitPos)))).raise code (locHolding h) 0 opc

/-! ### Packets -/

/-- Hand packets to the network interface of their source. -/
def emit (s : State) (ks : List Packet) : State := { s with outq := s.outq ++ ks }

/-- The answer to a packet from the endpoint that it was sent to, on its plane, with its TAG (R52, R54). -/
def answerTo (k : Packet) (op vc : Nat) : Packet :=
  { op := BitVec.ofNat 8 op, dest := k.src, src := k.dest, vc := BitVec.ofNat 2 vc, origVc := BitVec.ofNat 2 vc,
    plane := k.plane, holding := 0xF, tag := k.tag, tclass := k.tclass, who := k.who, attach := answerAttach k }

/-- A NACK with a code of R71. -/
def nackTo (k : Packet) (code : Nat) : Packet := { answerTo k 0x05 1 with nack := BitVec.ofNat 8 code }

/-- HOLDING of a packet from an endpoint: the holding of a croft, 0xF for any other source (R52) and for a croft of no
holding. -/
def holdingOf (s : State) (e : Nat) : BitVec 4 :=
  if e < 26880 && s.owner (parOfLogical e) < 16 then BitVec.ofNat 4 (s.owner (parOfLogical e)) else 0xF

/-- The answer with the HOLDING of the endpoint that it comes from. -/
def sign (s : State) (k : Packet) : Packet := { k with holding := s.holdingOf k.src.toNat }

/-- Two unicast packets of one source, destination, plane and ORIG_VC, whose order R60 keeps. -/
def sameFlow (a b : Packet) : Bool :=
  a.dest != 0xFFFF && a.origVc != 2 && a.src == b.src && a.dest == b.dest && a.plane == b.plane && a.origVc == b.origVc

/-- An earlier packet of its flow has arrived at the endpoint and waits there (R60). -/
def waitsTurn (s : State) (k : Packet) : Bool := (s.inbox.takeWhile fun j => j != k).any (sameFlow k)

/-- The packets of the inbox less one copy of this one. -/
def take (s : State) (k : Packet) : State := { s with inbox := s.inbox.erase k }

/-- A packet at its endpoint, which acts on it as f says; it waits behind an earlier one of its flow (R60). Without supply or
in module reset nothing arrives (R21, R22). -/
def inTurn (s : State) (k : Packet) (f : State → State) : Host.Outcome State Fault Refusal :=
  checked k.wellFormed (if !s.up || s.waitsTurn k then s else s.asOne f)

end State

end Sys2Proof.Machine
end

