-- ==== Sys2Proof/Machine/Croft.lean ====
section
/-! DEFINITION. The croft's entry side and control (chapter 04): remote WRITE, READ_REQ and TOKEN, window commands,
fencing and croft reset, sequencer control, CRF_STEP, row repair and the scrubber. -/

namespace Sys2Proof.Machine
namespace Site

/-! ### Windows -/

/-- A window command of CRF_WIN_CMD (R92, R95): OPEN refused sets ERR, an accepted one clears it. -/
def winCmd (x : Site) (v : W64) : Site :=
  let w := fld v 3 0
  if fld v 31 30 = 1 then
    let base := x.field (Reg.crfWinRange w) 15 0
    let len := x.field (Reg.crfWinRange w) 31 16
    if x.winState w = 2 ∨ (x.openRefused w base len).isSome then x.setField Reg.crfWinCmd 11 11 1
    else (x.openWin w base len (fld v 6 4)).setField Reg.crfWinCmd 11 11 0
  else if fld v 31 30 = 2 then (x.closeWin w).closeDone w
  else x

/-! ### Croft reset (R100) -/

/-- A croft reset begins: packets are refused from now on. -/
def beginReset (x : Site) : Site := { x with c := { x.c with resetting := true } }

/-- Commit the oldest accepted write: its bytes, its arrival count, and the WRITE_ACK of a unicast (R94, R245). -/
def commitWrite (x : Site) : Site :=
  match x.c.accepted with
  | [] => x
  | a :: rest =>
    let w := a.pkt.window.toNat
    let x := { x with c := { x.c with accepted := rest } }
    let x := if a.pkt.payload.isEmpty then x else x.storeBytes a.addr a.pkt.payload (packetOpcode a.pkt) (some a.pkt.tclass)
    let x := x.count (Reg.carArrive w) a.pkt.payload.length
    let x := if a.pkt.origVc = 2 then x else x.send (x.answer a.pkt 0x04 1)
    x.closeDone w

/-- The sow checker's mask of chunk packets committed (R372), for writes into window 15. -/
def sowNote (x : Site) (a : Accepted) : Site :=
  if a.pkt.window = 15 then
    let c := a.pkt.offset.toNat / 4096
    let m := Tab.get (fun _ => 0) x.c.sowMask c
    let m := if m.testBit (a.pkt.offset.toNat % 4096 / 512) then m else m + 2 ^ (a.pkt.offset.toNat % 4096 / 512)
    { x with c := { x.c with sowMask := Tab.set (fun _ => 0) x.c.sowMask c m } }
  else x

/-- The registers that a croft reset leaves (R100, R155, R202, R223, R247): those of CRF_ but CRF_STEP, CRF_SEQ_CTRL,
CRF_SEQ_SLOTS and the window ranges; of the other blocks the fault registers and logs and the array's and vector
engine's error counters. -/
def keptByReset (o : Nat) : Bool :=
  if o < 0x1000 then
    !(o == Reg.crfStep || o == Reg.crfSeqCtrl || o == Reg.crfSeqSlots || (List.range 16).any fun w => o == Reg.crfWinRange w)
  else [Reg.carFault, Reg.arrFault, Reg.arrChkLog, Reg.arrAccCorr, Reg.arrAccUncorr, Reg.gthFault, Reg.gthFaultLog,
    Reg.vecFault, Reg.vecFaultLog, Reg.vecTbCorr, Reg.vecTbUncorr].contains o

/-- The croft as a reset leaves it (R100, R244): accepted writes committed, windows CLOSED with a generation more,
memories zero, queues and units empty, channels FREE. -/
def resetDone (x : Site) : Site :=
  let x := iter x.c.accepted.length commitWrite x
  let x := (List.range 16).foldl (fun x w =>
    (x.setField (Reg.crfWinState w) 7 0 (x.winGen w + 1)).setField (Reg.crfWinState w) 9 8 0) x
  let chans := (List.range 8).foldl (fun t i =>
    Tab.set (fun _ => ({} : Chan)) t i { gen := (x.chan i).gen + 1, seq := (x.chan i).seq }) ([] : Tab Chan)
  { x with c := {
      regs := x.c.regs.filter fun e => keptByReset e.1
      repairs := x.c.repairs
      corrLog := x.c.corrLog
      chans
      faultFence := x.c.faultFence
      lastId := x.c.lastId
      sowMask := x.c.sowMask, sowMark := x.c.sowMark
      stalled := x.c.stalled
      resetSince := x.fenced } }

/-! ### Fencing (R99) -/

/-- A write of CRF_CTRL.FENCE. The next time FENCE becomes 1 it asks for a croft reset of its own. -/
def writeFence (x : Site) (on : Bool) : Site :=
  if on then (if bit (x.reg Reg.crfCtrl) 0 then x else x.fence)
  else if x.c.resetSince && !x.cut && !x.c.faultFence then
    let x := x.setReg Reg.crfCtrl (x.reg Reg.crfCtrl &&& ~~~ 1)
    { x with c := { x.c with resetSince := false } }
  else x

/-! ### Sequencer control -/

/-- START (R85): word 0 of START_SLOT, if the sequencer is IDLE or HALTED and the slot is VALID. -/
def start (x : Site) (slot : Nat) : Site :=
  if x.live ∧ (x.c.seq.st = .idle ∨ x.c.seq.st = .halted) ∧ bit (x.reg Reg.crfSeqSlots) slot then
    x.setSeq { x.c.seq with st := .run, slot, pc := 0, loops := [], held := .nothing, stopping := false }
  else x

/-- Every unit queue is empty and every unit idle; a unit's writes commit with it (R89, R423). -/
def unitsIdle (x : Site) : Bool :=
  x.c.arrayQ.isEmpty && x.c.drainQ.isEmpty && x.c.vecQ.isEmpty && x.c.gathQ.isEmpty && x.c.loading.isNone &&
    x.c.streaming.isNone && x.c.draining.isNone && x.c.vector.isNone && x.c.feeds.isEmpty && x.c.gathDone.isEmpty

/-- STOP (R423): the sequencer leaves a WAIT, issues no further word and keeps its STATE until its units have
drained; a HALTED one stays HALTED until then. -/
def stop (x : Site) : Site :=
  let st := x.c.seq.st
  if !x.live || st = .idle then x
  else x.setSeq { x.c.seq with st := if st = .halted then .halted else .run, held := .nothing, stopping := true }

/-- The sequencer that a STOP has stopped reaches IDLE once its units have drained. -/
def stopIdle (x : Site) : Site :=
  if x.c.seq.stopping ∧ x.unitsIdle then x.setSeq { x.c.seq with st := .idle, stopping := false } else x

/-- A write of CRF_SEQ_CTRL: the slot, then STOP or else START. -/
def seqCtrl (x : Site) (v : W64) : Site :=
  let x := x.setField Reg.crfSeqCtrl 1 0 (fld v 1 0)
  if bit v 3 then x.stop else if bit v 2 then x.start (fld v 1 0) else x

/-- A write of CRF_SEQ_SLOTS; the running slot's bit is not cleared (R84). -/
def seqSlots (x : Site) (v : W64) : Site :=
  let running := x.c.seq.st = .run ∨ x.c.seq.st = .wait
  let kept := if running then 2 ^ x.c.seq.slot &&& x.num Reg.crfSeqSlots else 0
  x.setReg Reg.crfSeqSlots (BitVec.ofNat 64 ((fld v 3 0) ||| kept))

/-! ### CRF_STEP (R250) -/

/-- CRF_STATUS.STATE. -/
def status (x : Site) : Nat :=
  if x.c.resetting then 5
  else if x.fenced then 4
  else match x.c.seq.st with
    | .idle => 0 | .run => 1 | .wait => 2
    | .halted => 3

/-- Every amax slot of the array and of the vector engine at zero. -/
def zeroAmax (x : Site) : Site :=
  (List.range 16).foldl (fun x k => (x.setReg (Reg.arrAmax k) 0).setReg (Reg.vecAmax k) 0) x

/-- The gather engine's work at a step change: its counts and windows, in Machine/Gather.lean. -/
def stepWrite (x : Site) (v : W64) (roll : Site → Site) : Site :=
  let n := fld v 31 0
  if n ≠ x.num Reg.crfStep ∨ !x.c.stepWritten then
    let x := roll x
    let x := (x.setReg Reg.crfStep (BitVec.ofNat 64 n)).zeroAmax
    { x with c := { x.c with
        stepWritten := true
        captured := x.c.counts
        seq := { x.c.seq with stepNew := true }
        chans := x.c.chans.map fun e => (e.1, { e.2 with stepNew := true }) } }
  else if x.status = 0 ∨ x.status = 3 then
    let x := x.zeroAmax
    { x with c := { x.c with
        tokq := [], hreg := []
        counts := x.c.captured
        pred := x.c.pred.map fun e => (e.1, ({} : PredCounts))
        seq := { x.c.seq with armed := true } } }
  else x

/-! ### Row repair (R82, R83) -/

def repair (x : Site) (bank entry : Nat) : Option Nat := Tab.get (fun _ => none) x.c.repairs (32 * bank + entry)

def setRepair (x : Site) (bank entry : Nat) (row : Option Nat) : Site :=
  { x with c := { x.c with repairs := Tab.set (fun _ => none) x.c.repairs (32 * bank + entry) row } }

/-- Free entries of a bank's table. -/
def repairFree (x : Site) (bank : Nat) : List Nat := (List.range 32).filter fun e => (x.repair bank e).isNone

/-- A row of a bank has a repair entry. -/
def rowRepaired (x : Site) (bank row : Nat) : Bool := (List.range 32).any fun e => x.repair bank e == some row

/-- A write of CRF_REPAIR_DATA (R83): ignored while a copy runs or with VALID = 0; refused with ERR for an entry in
use, or a row already repaired in the bank. ERR stands at bit 9 of CRF_REPAIR_STATUS. -/
def repairData (x : Site) (v : W64) : Site :=
  let bank := x.field Reg.crfRepairSel 10 8
  let entry := x.field Reg.crfRepairSel 4 0
  let row := fld v 11 0
  if x.c.repairing.isSome || !bit v 31 then x
  else if (x.repair bank entry).isSome || x.rowRepaired bank row then x.setField Reg.crfRepairStatus 9 9 1
  else
    let x := x.setField Reg.crfRepairStatus 9 9 0
    { x with c := { x.c with repairing := some (bank, entry, row) } }

/-- The two codewords of a bank row (R76). -/
def rowCodewords (bank row : Nat) : Nat × Nat := (row * 16 + bank * 2, row * 16 + bank * 2 + 1)

/-- The copy of one codeword into the spare: corrected, or with the poison check pattern. -/
def copyCodeword (x : Site) (cw : Nat) : Site :=
  let r := x.check cw 0 none
  if r.2 then r.1.setEcc cw .uncorr else r.1.setEcc cw .clean

/-- The copier's row read, corrected, and the table entry switched. -/
def repairDone (x : Site) : Site :=
  match x.c.repairing with
  | none => x
  | some (bank, entry, row) =>
    let cw := rowCodewords bank row
    let x := ((x.copyCodeword cw.1).copyCodeword cw.2).setRepair bank entry (some row)
    { x with c := { x.c with repairing := none } }

/-- The scrubber's read of one codeword: a corrected one is written back, an uncorrectable one left (R80, R81). -/
def scrubCodeword (x : Site) (cw : Nat) : Site :=
  let r := x.check cw 0 none
  if r.2 then r.1 else r.1.setEcc cw .clean

/-! ### Remote access (R94) -/

/-- Where a packet's payload goes. -/
def windowAddr (x : Site) (k : Packet) : Nat := x.winBase k.window.toNat + k.offset.toNat

/-- A WRITE: accepted into its window, or refused; a multicast copy that fails a check is dropped, to be counted in
NET_MCAST_DROP by the parish (R63). The flag says that it was dropped. -/
def remoteWrite (x : Site) (k : Packet) : Site × Bool :=
  match x.entryCheck k with
  | some code => if k.origVc = 2 then (x, true) else (x.refuse k code, false)
  | none =>
    let a : Accepted := ⟨k, x.windowAddr k⟩
    ({ x with c := { x.c with accepted := x.c.accepted ++ [a] } }, false)

/-- READ_DATA packets of up to 512 bytes, ascending; after an uncorrectable codeword a NACK ends them (R51, R80). -/
def readChunks (x : Site) (k : Packet) (a off left : Nat) : Nat → Site
  | 0 => x
  | fuel + 1 =>
    if left = 0 then x
    else
      let n := min 512 left
      let r := x.readBytes a n (packetOpcode k) (some k.tclass)
      if r.2.2 then r.1.refuse k 0x0A
      else
        let d := { r.1.answer k 0x03 1 with payload := r.2.1, length := BitVec.ofNat 13 n, offset := BitVec.ofNat 32 off }
        (r.1.send d).readChunks k (a + n) (off + n) (left - n) fuel

def remoteRead (x : Site) (k : Packet) : Site :=
  match x.entryCheck k with
  | some code => x.refuse k code
  | none => x.readChunks k (x.windowAddr k) k.offset.toNat k.length.toNat 9

/-- A TOKEN: its handle pushed, or refused; at a full queue TOKEN_OVERFLOW is raised as well (R91). -/
def remoteToken (x : Site) (k : Packet) : Site :=
  let qu := bitsOf k.opdata.toNat 33 32
  match x.entryCheck k with
  | some code =>
    let x := if code = 0x0C then x.raise 5 (packetOpcode k) 0 (some k.tclass) else x
    x.refuse k code
  | none => (x.push qu (k.opdata.setWidth 32)).send (x.answer k 0x04 1)

end Site

/-- The croft that a packet reached: the one that backs its DEST. -/
def State.reached (s : State) (k : Packet) : Option Nat :=
  if k.dest.toNat < 26880 then s.physOf k.dest.toNat else none

/-- A packet that a croft serves. -/
def State.serve (s : State) (k : Packet) (f : Site → Site) : State :=
  match s.reached k with
  | none => s.take k
  | some q => (s.take k).onCroft q f

/-- A WRITE at its croft; a dropped multicast copy is counted in its parish (R63). -/
def State.serveWrite (s : State) (k : Packet) : State :=
  match s.reached k with
  | none => s.take k
  | some q =>
    let s := s.take k
    let dropped := ((s.site q).remoteWrite k).2
    let t := s.onCroft q fun x => (x.remoteWrite k).1
    let p := State.parOf q
    if dropped then t.setParish p ((t.parish p).count Reg.netMcastDrop 1) else t

/-- A write of a register of the CRF_ block reaches the croft, or is refused: throughout a croft reset (R100), at a dead
position and where the network domain is off (R66, R46). -/
def State.onRegs (s : State) (q : Nat) (f : Site → Site) : State :=
  if s.atCroft q then s.onCroft q fun x => if x.c.resetting then x else f x else s

/-! ### The commands -/

def execWrite (k : Packet) (s : State) : Host.Outcome State Fault Refusal :=
  s.inTurn k fun s => s.serveWrite k

def execReadReq (k : Packet) (s : State) : Host.Outcome State Fault Refusal :=
  s.inTurn k fun s => s.serve k fun x => x.remoteRead k

def execToken (k : Packet) (s : State) : Host.Outcome State Fault Refusal :=
  s.inTurn k fun s => s.serve k fun x => x.remoteToken k

/-- The oldest accepted write commits; the sow checker notes it (R372). -/
def execWriteCommit (q : Phys) (s : State) : Host.Outcome State Fault Refusal :=
  .next (s.onCroft q fun x =>
    match x.c.accepted with
    | [] => x
    | a :: _ => (x.sowNote a).commitWrite)

/-- The window becomes CLOSED, and a sequencer that waits for it goes on. -/
def execCloseComplete (q : Phys) (w : Fin 16) (s : State) : Host.Outcome State Fault Refusal :=
  .next (s.onCroft q fun x =>
    let x := x.closeDone w
    if x.winState w = 0 then x.closeReleases w else x)

def execWinCmdOpen (q : Phys) (v : W32) (s : State) : Host.Outcome State Fault Refusal :=
  if v.toNat / 2 ^ 30 = 1 then .next (s.onRegs q fun x => x.winCmd (v.setWidth 64)) else .next s

def execWinCmdClose (q : Phys) (v : W32) (s : State) : Host.Outcome State Fault Refusal :=
  if v.toNat / 2 ^ 30 = 2 then .next (s.onRegs q fun x => x.winCmd (v.setWidth 64)) else .next s

def execCroftReset (q : Phys) (s : State) : Host.Outcome State Fault Refusal :=
  .next (s.onRegs q Site.beginReset)

def execCroftResetDone (q : Phys) (s : State) : Host.Outcome State Fault Refusal :=
  .next (s.onCroft q fun x => if x.c.resetting then x.resetDone else x)

def execFenceWrite (q : Phys) (fence : Bool) (s : State) : Host.Outcome State Fault Refusal :=
  .next (s.onRegs q fun x => x.writeFence fence)

def execSeqStart (q : Phys) (v : W32) (s : State) : Host.Outcome State Fault Refusal :=
  if v.getLsbD 2 && !v.getLsbD 3 then .next (s.onRegs q fun x => x.seqCtrl (v.setWidth 64)) else .next s

def execSeqStop (q : Phys) (s : State) : Host.Outcome State Fault Refusal := .next (s.onCroft q Site.stop)

def execStopIdle (q : Phys) (s : State) : Host.Outcome State Fault Refusal := .next (s.onCroft q Site.stopIdle)

def execCrfSeqSlotsWrite (q : Phys) (v : W32) (s : State) : Host.Outcome State Fault Refusal :=
  .next (s.onRegs q fun x => x.seqSlots (v.setWidth 64))

def execCrfRepairDataWrite (q : Phys) (v : W32) (s : State) : Host.Outcome State Fault Refusal :=
  .next (s.onRegs q fun x => x.repairData (v.setWidth 64))

def execRepairDone (q : Phys) (s : State) : Host.Outcome State Fault Refusal :=
  .next (s.onCroft q Site.repairDone)

def execScrub (q : Phys) (bank : Fin 8) (row : Fin 4096) (s : State) : Host.Outcome State Fault Refusal :=
  .next (s.onCroft q fun x =>
    let cw := Site.rowCodewords bank row
    (x.scrubCodeword cw.1).scrubCodeword cw.2)

end Sys2Proof.Machine
end

