-- ==== Sys2Proof/Machine/Sequencer.lean ====
section
/-! DEFINITION. The sequencer (R84 to R91, R422): fetching and issuing schedule words, its own classes, and the issue
of words into the command queues of the units. PCLK cycles are not counted: DELAY sets no state (log 4). -/

namespace Sys2Proof.Machine
namespace Site

/-- The word at the sequencer's pc. -/
def nextWord (x : Site) : W128 :=
  BitVec.ofNat 128 (ofLe (Memory.read x.c.mem (0x03000000 + 0x2000 * x.c.seq.slot + 16 * x.c.seq.pc) 16))

/-- The sequencer may issue its next word: it runs, or tries again a word that could not issue. -/
def canIssue (x : Site) : Bool :=
  x.live && (x.c.seq.st = .run && !x.c.seq.stopping ||
    x.c.seq.st = .wait && match x.c.seq.held with
      | .unitFull | .postFull _ | .opening _ => true
      | _ => false)

/-- The next word, where the sequencer may issue it and it is a legal word of a class. -/
def issuing (x : Site) (cls : Nat) : Option W128 :=
  let w := x.nextWord
  if x.canIssue && x.c.seq.pc < 512 && wordLegal w && wordClass w == cls then some w else none

/-- The word has issued: the pc moves past it. -/
def issued (x : Site) : Site :=
  x.setSeq { x.c.seq with st := .run, held := .nothing, pc := x.c.seq.pc + 1, issued := x.c.seq.issued + 1 }

/-- The word cannot issue yet. -/
def stay (x : Site) (h : Held) : Site := x.setSeq { x.c.seq with st := .wait, held := h }

/-- SCHED_ILLEGAL: the sequencer becomes HALTED without issuing the word. -/
def schedIllegal (x : Site) : Site := x.raiseHalt 2 (wordOpcode x.nextWord)

/-- The handle registers as a word issues. -/
def handles (x : Site) : List W32 := (List.range 4).map x.hreg

/-- A word as a unit's queue takes it. -/
def qword (x : Site) (w : W128) : QWord := { word := w, hs := x.handles, num := x.c.seq.issued }

/-- Issue a word into a unit's command queue of four entries, or hold the sequencer (R86). From here on its accesses may
wait for banks. -/
def enqueue (x : Site) (w : W128) (q : List QWord) (put : List QWord → Croft → Croft) : Site :=
  if 4 ≤ q.length then (x.stay .unitFull).stalls
  else
    let e := x.qword w
    { x with c := put (q ++ [e]) x.c }.issued.stalls

def enqueueArray (x : Site) (op : Nat) : Site :=
  match x.issuing 0x1 with
  | some w => if wordOp w = op then x.enqueue w x.c.arrayQ fun q c => { c with arrayQ := q } else x
  | none => x

def enqueueGather (x : Site) (op : Nat) : Site :=
  match x.issuing 0x4 with
  | some w => if wordOp w = op then x.enqueue w x.c.gathQ fun q c => { c with gathQ := q } else x
  | none => x

/-! ### Loops (R87) -/

def loopWord (x : Site) : Site :=
  match x.issuing 0x6 with
  | none => x
  | some w =>
    let l := x.c.seq.loops
    if 4 ≤ l.length ∨ wfield w 17 16 ≠ l.length then x.schedIllegal
    else
      let y := x.issued
      y.setSeq { y.c.seq with loops := l ++ [{ body := x.c.seq.pc + 1, left := wfield w 15 0 + 1 }] }

def endloopWord (x : Site) : Site :=
  match x.issuing 0x7 with
  | none => x
  | some w =>
    let l := x.c.seq.loops
    match l.getLast? with
    | none => x.schedIllegal
    | some t =>
      if wfield w 17 16 + 1 ≠ l.length then x.schedIllegal
      else
        let y := x.issued
        if 1 < t.left then
          y.setSeq { y.c.seq with pc := t.body, loops := l.dropLast ++ [{ t with left := t.left - 1 }] }
        else y.setSeq { y.c.seq with loops := l.dropLast }

/-! ### Waits (R88) -/

/-- The sequencer takes a step number. -/
def takeStep (x : Site) : Site := x.setSeq { x.c.seq with stepNew := false, armed := false }

/-- The wait's condition: a handle in the queue, or a step change or an armed replay mark. -/
def waitMet (x : Site) : Held → Bool
  | .queue k => !(x.queue k).isEmpty
  | .stepEvent => x.c.seq.stepNew || x.c.seq.armed
  | _ => false

/-- A met WAIT: the head popped into Hq, or CRF_STEP taken. -/
def waitTake (x : Site) : Held → Site
  | .queue k =>
    match x.queue k with
    | [] => x
    | h :: t => (x.setQueue k t).setHreg k h
  | .stepEvent => x.takeStep
  | _ => x

/-- A WAIT word on a source: met at once, or held (its word stays at the pc until the wait ends). -/
def waitWord (x : Site) (step : Bool) : Site :=
  match x.issuing 0x8 with
  | none => x
  | some w =>
    let src := wfield w 2 0
    if (src = 4) ≠ step then x
    else
      let h : Held := if step then .stepEvent else .queue src
      if x.waitMet h then (x.waitTake h).issued else x.stay h

/-- The held WAIT's condition has become true. -/
def waitEnd (x : Site) : Site :=
  if x.live && x.c.seq.st = .wait && x.waitMet x.c.seq.held then (x.waitTake x.c.seq.held).issued else x

/-- The WAIT's TIMEOUT expires; a condition that is true counts as met (R88). -/
def waitTimeout (x : Site) : Site :=
  let isWait := match x.c.seq.held with
    | .queue _ | .stepEvent => true
    | _ => false
  if x.live && x.c.seq.st = .wait && isWait && wfield x.nextWord 31 16 != 0 then
    if x.waitMet x.c.seq.held then x.waitEnd else x.raiseHalt 3 (wordOpcode x.nextWord)
  else x

/-! ### Posts (R91) -/

/-- The handle that a POST word makes. -/
def postHandle (x : Site) (w : W128) : W32 :=
  let imm : W32 := BitVec.ofNat 32 (wfield w 31 0)
  if wfield w 36 36 = 1 then x.hreg (wfield w 35 34) + imm else imm

def postWord (x : Site) : Site :=
  match x.issuing 0x9 with
  | none => x
  | some w =>
    if wfield w 37 37 = 1 then x
    else
      let k := wfield w 33 32
      if x.queueFull k then x.stay (.postFull k) else (x.push k (x.postHandle w)).issued

/-- A TOKEN from the sequencer; its NACK raises TOKEN_NACK here. Its TAG is open (log 5). -/
def remotePost (x : Site) : Site :=
  match x.issuing 0x9 with
  | none => x
  | some w =>
    if wfield w 37 37 = 0 then x
    else
      let k := { x.packet 0x06 (wfield w 62 48) 0 with
        opdata := BitVec.ofNat 96 ((x.postHandle w).toNat + wfield w 33 32 * 2 ^ 32)
        plane := if wfield w 38 38 = 1 then .b else .a
        who := .post x.q }
      (x.send k).issued

/-! ### Windows (R92, R93, R95) -/

def windowOpen (x : Site) : Site :=
  match x.issuing 0xA with
  | none => x
  | some w =>
    let i := wfield w 5 2
    let base := wfield w 47 32
    let len := wfield w 63 48
    if wfield w 1 0 ≠ 1 then x
    else if x.winState i = 2 then x.stay (.opening i)
    else match x.openRefused i base len with
      | some 2 => x.raiseHalt 7 (wordOpcode w)
      | some _ => x.schedIllegal
      | none =>
        let g := wfield w 12 11
        if wfield w 10 10 = 1 ∧ x.queueFull g then x.stay (.postFull g)
        else
          let y := x.openWin i base len (wfield w 8 6)
          let y := if wfield w 10 10 = 1 then y.push g (y.grant i) else y
          y.issued

def windowClose (x : Site) : Site :=
  match x.issuing 0xA with
  | none => x
  | some w =>
    let i := wfield w 5 2
    if wfield w 1 0 ≠ 2 then x
    else
      let y := (((x.closeWin i).closeDone i)).issued
      if wfield w 9 9 = 1 ∧ y.winState i = 2 then y.stay (.closing i) else y

/-! ### Phases, tallies and halts (R89, R90) -/

def phaseWord (x : Site) : Site :=
  match x.issuing 0xB with
  | none => x
  | some w => x.stay (.phase (wfield w 1 0))

/-- Every channel that a word of the running slot started is DONE, HALTED or ABORTED; a freed context has ended. -/
def slotChansEnded (x : Site) : Bool :=
  (List.range 8).all fun i =>
    let c := x.chan i
    c.slot != some x.c.seq.slot || !c.active

def phaseEnd (x : Site) : Site :=
  match x.c.seq.held with
  | .phase slot =>
    if x.live && x.c.seq.st = .wait && x.unitsIdle && x.slotChansEnded then
      if bit (x.reg Reg.crfSeqSlots) slot then
        x.setSeq { x.c.seq with st := .run, held := .nothing, slot, pc := 0, loops := [], issued := x.c.seq.issued + 1 }
      else x.schedIllegal
    else x
  | _ => x

def haltWord (x : Site) : Site :=
  match x.issuing 0xD with
  | none => x
  | some _ => x.issued.seqHalt false

/-- The next word breaks the nesting of R87. -/
def nestingBroken (x : Site) (w : W128) : Bool :=
  let d := x.c.seq.loops.length
  wordClass w == 0x6 && (4 ≤ d || wfield w 17 16 != d) || wordClass w == 0x7 && wfield w 17 16 + 1 != d

/-- The sequencer reaches an illegal word or runs past word 511 (R85, R87). -/
def reachIllegal (x : Site) : Site :=
  if x.canIssue && (512 ≤ x.c.seq.pc || !wordLegal x.nextWord || x.nestingBroken x.nextWord) then x.schedIllegal else x

end Site

/-! ### The commands -/

def execNop (q : Phys) (s : State) : Host.Outcome State Fault Refusal :=
  .next (s.onCroft q fun x => if (x.issuing 0x0).isSome then x.issued else x)

def execLoad (q : Phys) (s : State) : Host.Outcome State Fault Refusal := .next (s.onCroft q fun x => x.enqueueArray 1)

def execStream (q : Phys) (s : State) : Host.Outcome State Fault Refusal := .next (s.onCroft q fun x => x.enqueueArray 2)

def execAddin (q : Phys) (s : State) : Host.Outcome State Fault Refusal := .next (s.onCroft q fun x => x.enqueueArray 3)

def execDrain (q : Phys) (s : State) : Host.Outcome State Fault Refusal :=
  .next (s.onCroft q fun x => match x.issuing 0x2 with
    | some w => x.enqueue w x.c.drainQ fun l c => { c with drainQ := l }
    | none => x)

def execRun (q : Phys) (s : State) : Host.Outcome State Fault Refusal :=
  .next (s.onCroft q fun x => match x.issuing 0x3 with
    | some w => x.enqueue w x.c.vecQ fun l c => { c with vecQ := l }
    | none => x)

def execLoop (q : Phys) (s : State) : Host.Outcome State Fault Refusal := .next (s.onCroft q Site.loopWord)

def execEndloop (q : Phys) (s : State) : Host.Outcome State Fault Refusal := .next (s.onCroft q Site.endloopWord)

def execSeqWaitQueue (q : Phys) (s : State) : Host.Outcome State Fault Refusal :=
  .next (s.onCroft q fun x => x.waitWord false)

def execSeqWaitStep (q : Phys) (s : State) : Host.Outcome State Fault Refusal :=
  .next (s.onCroft q fun x => x.waitWord true)

def execWaitEnd (q : Phys) (s : State) : Host.Outcome State Fault Refusal := .next (s.onCroft q Site.waitEnd)

def execWaitTimeout (q : Phys) (s : State) : Host.Outcome State Fault Refusal := .next (s.onCroft q Site.waitTimeout)

def execPost (q : Phys) (s : State) : Host.Outcome State Fault Refusal := .next (s.onCroft q Site.postWord)

def execRemotePost (q : Phys) (s : State) : Host.Outcome State Fault Refusal := .next (s.onCroft q Site.remotePost)

def execWindowOpen (q : Phys) (s : State) : Host.Outcome State Fault Refusal := .next (s.onCroft q Site.windowOpen)

def execWindowClose (q : Phys) (s : State) : Host.Outcome State Fault Refusal := .next (s.onCroft q Site.windowClose)

def execPhase (q : Phys) (s : State) : Host.Outcome State Fault Refusal := .next (s.onCroft q Site.phaseWord)

def execPhaseEnd (q : Phys) (s : State) : Host.Outcome State Fault Refusal := .next (s.onCroft q Site.phaseEnd)

def execHalt (q : Phys) (s : State) : Host.Outcome State Fault Refusal := .next (s.onCroft q Site.haltWord)

def execSchedIllegal (q : Phys) (s : State) : Host.Outcome State Fault Refusal :=
  .next (s.onCroft q Site.reachIllegal)

end Sys2Proof.Machine
end

