-- ==== Sys2Proof/Machine/Channels.lean ====
section
/-! DEFINITION. Carter channels: creation, aborts and destruction, by CARTER words (R226 to R229) and through CAR_CMD. -/

namespace Sys2Proof.Machine
namespace Site

/-- START accepted: the context's next generation runs at pc. -/
def startChan (x : Site) (i pc : Nat) (c0 : W32) (slot : Option Nat) : Site :=
  x.setChan i ((x.chan i).started pc c0 slot)

/-- START is refused in RUN, WAIT and DRAINING. -/
def chanBusy (x : Site) (i : Nat) : Bool := (x.chan i).active

/-! ### CARTER words (R229) -/

/-- The word that issues, where it is a CARTER word of this OP. -/
def carterWord (x : Site) (op : Nat) : Option W128 :=
  match x.issuing 0x5 with
  | some w => if wordOp w = op then some w else none
  | none => none

def wordChan (w : W128) : Nat := wfield w 107 105

/-- The word's program address. -/
def wordProg (x : Site) (w : W128) : Nat :=
  let base := wfield w 104 89
  if wfield w 88 88 = 1 then (base + (x.hreg (wfield w 87 86)).toNat) % 65536 else base

def carterStart (x : Site) : Site :=
  match x.carterWord 1 with
  | none => x
  | some w =>
    let i := wordChan w
    let k := wfield w 83 82
    if x.chanBusy i then x.issued.raiseHalt 42 (wordOpcode w)
    else if wfield w 84 84 = 1 ∧ x.queueFull k then x.stay (.postFull k)
    else
      let c0 := if wfield w 85 85 = 1 then x.hreg (wfield w 87 86) else 0
      let y := x.startChan i (x.wordProg w) c0 (some x.c.seq.slot)
      let y := if wfield w 84 84 = 1 then y.push k (y.handle i) else y
      y.issued

def carterAbort (x : Site) : Site :=
  match x.carterWord 2 with
  | none => x
  | some w => (x.setChan (wordChan w) (x.chan (wordChan w)).abort).issued

def carterDestroy (x : Site) : Site :=
  match x.carterWord 3 with
  | none => x
  | some w => (x.setChan (wordChan w) (x.chan (wordChan w)).destroy).issued

/-! ### CAR_CMD -/

/-- CAR_CMD.ERR. -/
def carErr (x : Site) (on : Bool) : Site := x.setField Reg.carCmd 29 29 (b2n on)

/-- A write of CAR_CMD: CHANNEL and PROG, and the command of OP; C0 and C1 of a START are zero. -/
def carCmd (x : Site) (v : W64) : Site :=
  let i := fld v 18 16
  let stale := x.num Reg.carCmdHandle != (x.handle i).toNat
  if !x.live then x
  else
    let x := x.setField Reg.carCmd 18 0 (fld v 18 0)
    match fld v 31 30 with
    | 1 => if x.chanBusy i then x.carErr true else (x.startChan i (fld v 15 0) 0 none).carErr false
    | 2 => if stale then x.carErr true else (x.setChan i (x.chan i).abort).carErr false
    | 3 => if stale then x.carErr true else (x.setChan i (x.chan i).destroy).carErr false
    | _ => x

end Site

/-! ### The commands -/

def execCarterWordStart (q : Phys) (s : State) : Host.Outcome State Fault Refusal :=
  .next (s.onCroft q Site.carterStart)

def execCarterWordAbort (q : Phys) (s : State) : Host.Outcome State Fault Refusal :=
  .next (s.onCroft q Site.carterAbort)

def execCarterWordDestroy (q : Phys) (s : State) : Host.Outcome State Fault Refusal :=
  .next (s.onCroft q Site.carterDestroy)

def execCarCmdStart (q : Phys) (v : W32) (s : State) : Host.Outcome State Fault Refusal :=
  if v.toNat / 2 ^ 30 = 1 then .next (s.onCroft q fun x => x.carCmd (v.setWidth 64)) else .next s

def execCarCmdAbort (q : Phys) (v : W32) (s : State) : Host.Outcome State Fault Refusal :=
  if v.toNat / 2 ^ 30 = 2 then .next (s.onCroft q fun x => x.carCmd (v.setWidth 64)) else .next s

def execCarCmdDestroy (q : Phys) (v : W32) (s : State) : Host.Outcome State Fault Refusal :=
  if v.toNat / 2 ^ 30 = 3 then .next (s.onCroft q fun x => x.carCmd (v.setWidth 64)) else .next s

end Sys2Proof.Machine
end

