-- ==== Sys2Proof/Machine/Floats.lean ====
section
/-! DEFINITION. Number formats (chapter 05): exact arithmetic on decoded values with the IEEE 754 rules for NaN,
infinities and signed zeros, rounding of an exact fraction to a format's codes, and the draws of stochastic
rounding. -/

namespace Sys2Proof

/-! ### Exact values -/

namespace FV

def zero : FV := .num false 0 0
def one : FV := .num false 1 0
def isNan (x : FV) : Bool := x == .nan
def isFinite (x : FV) : Bool :=
  match x with
  | .num _ _ _ => true
  | _ => false
def isInf (x : FV) : Bool :=
  match x with
  | .inf _ => true
  | _ => false
def isZero (x : FV) : Bool :=
  match x with
  | .num _ 0 _ => true
  | _ => false

/-- The sign bit; false for NaN. -/
def sign (x : FV) : Bool :=
  match x with
  | .nan => false
  | .inf s => s
  | .num s _ _ => s

def neg (x : FV) : FV :=
  match x with
  | .nan => .nan
  | .inf s => .inf !s
  | .num s m e => .num (!s) m e

def abs (x : FV) : FV := if x.sign then x.neg else x

/-- The integer that a finite value is at exponent e, which is not above its own. -/
def at_ (s : Bool) (m : Nat) (e base : Int) : Int :=
  let n : Int := (m * 2 ^ (e - base).toNat : Nat)
  if s then -n else n

/-- The finite value of an integer at an exponent; an exact zero is +0 (R135). -/
def ofInt (n : Int) (e : Int) : FV := .num (decide (n < 0)) n.natAbs e

/-- The exact sum. A zero sum is +0, but −0 of two negative zeros, as IEEE 754 addition under RNE gives it. -/
def add (x y : FV) : FV :=
  match x, y with
  | .nan, _ | _, .nan => .nan
  | .inf s, .inf t => if s = t then .inf s else .nan
  | .inf s, _ | _, .inf s => .inf s
  | .num s 0 e, .num t 0 _ => .num (s && t) 0 e
  | .num _ 0 _, y => y
  | x, .num _ 0 _ => x
  | .num s m e, .num t n d => ofInt (at_ s m e (min e d) + at_ t n d (min e d)) (min e d)

def sub (x y : FV) : FV := x.add y.neg

/-- The exact product. -/
def mul (x y : FV) : FV :=
  match x, y with
  | .nan, _ | _, .nan => .nan
  | .inf s, .inf t => .inf (s != t)
  | .inf s, .num t n _ | .num t n _, .inf s => if n = 0 then .nan else .inf (s != t)
  | .num s m e, .num t n d => .num (s != t) (m * n) (e + d)

/-- A × B + C with no rounding. -/
def fma (a b c : FV) : FV := (a.mul b).add c

/-- A finite value times 2^k. -/
def shift (x : FV) (k : Int) : FV :=
  match x with
  | .num s m e => .num s m (e + k)
  | x => x

/-- x < y in the order of the extended reals; false where either is NaN. The zeros are equal. -/
def lt (x y : FV) : Bool :=
  match x, y with
  | .nan, _ | _, .nan => false
  | .inf s, .inf t => s && !t
  | .inf s, _ => s
  | _, .inf t => !t
  | .num s m e, .num t n d => decide (at_ s m e (min e d) < at_ t n d (min e d))

def le (x y : FV) : Bool := !x.isNan && !y.isNan && !y.lt x
def eqv (x y : FV) : Bool := x.le y && y.le x

/-- Larger of two values, the first where they are equal. -/
def maxOf (x y : FV) : FV := if x.lt y then y else x

/-- The magnitude of a finite value as a fraction. -/
def frac (x : FV) : Nat × Nat :=
  match x with
  | .num _ m e => (m * 2 ^ e.toNat, 2 ^ (-e).toNat)
  | _ => (0, 1)

end FV

namespace Machine

/-! ### Rounding a fraction to a grid of codes (R119, R124, R118) -/

/-- The rounding of a magnitude: to nearest with ties to an even code, stochastic with a 16-bit draw, or upward. -/
inductive Rnd where
  | rne
  | sr (u : Nat)
  | up
deriving DecidableEq, Repr

/-- The integer that a magnitude code denotes, in units of the format's least step: fields of m mantissa bits. -/
def codeInt (m c : Nat) : Nat := if c / 2 ^ m = 0 then c else (2 ^ m + c % 2 ^ m) * 2 ^ (c / 2 ^ m - 1)

/-- The largest code whose value is not above q steps. -/
def floorCode (m q : Nat) : Nat :=
  let l := Nat.log2 q
  if q < 2 ^ (m + 1) then q else (l - m) * 2 ^ m + q / 2 ^ (l - m)

/-- The code of n ÷ d, where d > 0, in a format of m mantissa bits and least step 2^−f. -/
def roundCode (m f n d : Nat) (r : Rnd) : Nat :=
  let x := n * 2 ^ f
  let c := floorCode m (x / d)
  let rest := x - codeInt m c * d
  let gap := (codeInt m (c + 1) - codeInt m c) * d
  match r with
  | .rne => if gap < 2 * rest ∨ (2 * rest = gap ∧ c % 2 = 1) then c + 1 else c
  | .sr u => if u < rest * 65536 / gap then c + 1 else c
  | .up => if rest = 0 then c else c + 1

/-! ### IEEE formats (R103, R107, R128) -/

/-- A format with infinities and NaNs: exponent and mantissa bits. -/
structure Fl where
  e : Nat
  m : Nat
deriving DecidableEq, Repr

def fp32 : Fl := ⟨8, 23⟩
def fp64 : Fl := ⟨11, 52⟩
def bf16 : Fl := ⟨8, 7⟩

namespace Fl
def bias (F : Fl) : Nat := 2 ^ (F.e - 1) - 1
/-- The least step is 2^−f. -/
def f (F : Fl) : Nat := F.bias - 1 + F.m
/-- The code of +Inf. -/
def infCode (F : Fl) : Nat := (2 ^ F.e - 1) * 2 ^ F.m
def signCode (F : Fl) (s : Bool) : Nat := if s then 2 ^ (F.e + F.m) else 0
/-- The canonical quiet NaN (R107). -/
def nanCode (F : Fl) : Nat := F.infCode + 2 ^ (F.m - 1)

def decode (F : Fl) (c : Nat) : FV :=
  let s := c / 2 ^ (F.e + F.m) % 2 = 1
  let a := c % 2 ^ (F.e + F.m)
  if F.infCode < a then .nan
  else if a = F.infCode then .inf s
  else if a / 2 ^ F.m = 0 then .num s a (-(F.f : Int))
  else .num s (2 ^ F.m + a % 2 ^ F.m) ((a / 2 ^ F.m : Nat) - 1 - (F.f : Int))

/-- The code of a fraction with a sign, and whether it overflowed to Inf. Under SR a magnitude above the largest
finite value takes the RNE result (R124). -/
def encodeFrac (F : Fl) (s : Bool) (n d : Nat) (r : Rnd) : Nat × Bool :=
  let top := codeInt F.m (F.infCode - 1)
  let r := if r = .rne ∨ n * 2 ^ F.f ≤ top * d then r else .rne
  let c := roundCode F.m F.f n d r
  if F.infCode ≤ c then (F.signCode s + F.infCode, true) else (F.signCode s + c, false)

/-- The code of a value rounded once, and whether a finite value became Inf. -/
def encode (F : Fl) (x : FV) (r : Rnd := .rne) : Nat × Bool :=
  match x with
  | .nan => (F.nanCode, false)
  | .inf s => (F.signCode s + F.infCode, false)
  | .num s m e => F.encodeFrac s (m * 2 ^ e.toNat) (2 ^ (-e).toNat) r

/-- A value rounded once to the format, as a value. -/
def round (F : Fl) (x : FV) : FV := F.decode (F.encode x).1

/-- RU32 of R118 and R169: upward to the format, Inf past its largest value. -/
def roundUp (F : Fl) (n d : Nat) : Nat := min F.infCode (roundCode F.m F.f n d .up)

end Fl

/-- FP32 bits as a value, and a value rounded to FP32 bits. -/
def f32 (w : W32) : FV := fp32.decode w.toNat
def toF32 (x : FV) : W32 := BitVec.ofNat 32 (fp32.encode x).1
def f64 (w : W64) : FV := fp64.decode w.toNat
def toF64 (x : FV) : W64 := BitVec.ofNat 64 (fp64.encode x).1

/-- A NaN made canonical (R107). -/
def canon32 (w : W32) : W32 := if (f32 w).isNan then 0x7FC00000 else w

/-! ### Stochastic rounding (R125, R126) -/

def gamma : W64 := 0x9E3779B97F4A7C15

def mix (z : W64) : W64 :=
  let z := (z ^^^ (z >>> 30)) * 0xBF58476D1CE4E5B9
  let z := (z ^^^ (z >>> 27)) * 0x94D049BB133111EB
  z ^^^ (z >>> 31)

/-- The 16-bit value of element j of an operation with key K. -/
def draw (key : W64) (j : Nat) : Nat :=
  let w := mix (key + BitVec.ofNat 64 (j / 4 + 1) * gamma)
  bitsOf w.toNat (16 * (j % 4) + 15) (16 * (j % 4))

/-- The key of an operation: seed, CRF_STEP, logical croft and seed tag. -/
def drawKey (seed : W64) (step n tag : Nat) : W64 :=
  seed ^^^ mix (BitVec.ofNat 64 (step % 2 ^ 32 * 2 ^ 32 + n % 2 ^ 15 * 2 ^ 16 + tag % 2 ^ 16))

/-- The rounding of element j under a converting word's mode. -/
def rndOf (stochastic : Bool) (key : W64) (j : Nat) : Rnd := if stochastic then .sr (draw key j) else .rne

end Machine
end Sys2Proof
end

