-- ==== Sys2Proof/Machine/Functions.lean ====
section
/-! DEFINITION. The functions that the spec asks to be correctly rounded (R148, R213): reciprocal, reciprocal square
root, 2^x, log2 x, SiLU and GELU. The first two are exact before their one rounding; the others are formed in fixed
point with 512 fraction bits and rounded once (log 9). -/

namespace Sys2Proof.Machine

/-- The fixed point of this file: 2^512. -/
def fxOne : Nat := 2 ^ 512

/-- Terms of 2 atanh(n ÷ d) = 2 Σ (n ÷ d)^(2k+1) ÷ (2k + 1). -/
def atanhTerms : Nat → Nat → Nat → Nat → Nat → Nat → Nat
  | 0, _, _, _, _, acc => acc
  | t + 1, n, d, k, p, acc => atanhTerms t n d (k + 1) (p * n / d * n / d) (acc + 2 * p / (2 * k + 1))

/-- ln of (1 + z) ÷ (1 − z) with z = n ÷ d, at most 1 ÷ 3. -/
def lnRatio (n d : Nat) : Nat := atanhTerms 170 n d 0 (fxOne * n / d) 0

def ln2 : Nat := lnRatio 1 3

/-- Terms of e^r for r below 1. -/
def expTerms : Nat → Nat → Nat → Nat → Nat → Nat
  | 0, _, _, _, acc => acc
  | t + 1, r, k, p, acc => expTerms t r (k + 1) (p * r / fxOne / (k + 1)) (acc + p)

/-- e^r of a fixed-point r below 1. -/
def expFx (r : Nat) : Nat := expTerms 110 r 0 fxOne 0

/-- e^(n ÷ d) of a non-negative fraction below 512, as a numerator over fxOne. -/
def expFrac (n d : Nat) : Nat :=
  let x := n * fxOne / d
  2 ^ (x / ln2) * expFx (x % ln2)

/-- The FP32 code of a fraction, +0 where it rounds to zero (R148, R213). -/
def f32Frac (s : Bool) (n d : Nat) : W32 :=
  let c := (fp32.encodeFrac s n d .rne).1
  if c % 2 ^ 31 = 0 then 0 else BitVec.ofNat 32 c

/-- 1 ÷ A. -/
def rcp (x : FV) : FV :=
  match x with
  | .nan => .nan
  | .inf s => .num s 0 0
  | .num s 0 _ => .inf s
  | .num s m e =>
    fp32.decode (fp32.encodeFrac s (2 ^ (-e).toNat) (m * 2 ^ e.toNat) .rne).1

/-- 1 ÷ √A. For an even exponent the root of 2^800 ÷ m is cut to an integer, a lost rest kept as a sticky bit. -/
def rsqrt (x : FV) : FV :=
  match x with
  | .nan => .nan
  | .inf s => if s then .nan else .num false 0 0
  | .num s 0 _ => .inf s
  | .num true _ _ => .nan
  | .num false m e =>
    let odd := e % 2 ≠ 0
    let m := if odd then 2 * m else m
    let e := if odd then e - 1 else e
    let r := Nat.sqrt (2 ^ 800 / m)
    let sticky := if r * r * m = 2 ^ 800 then 0 else 1
    let k : Int := -401 - e / 2
    fp32.round (.num false (2 * r + sticky) k)

/-- 2^A. -/
def exp2 (x : FV) : FV :=
  match x with
  | .nan => .nan
  | .inf s => if s then .num false 0 0 else .inf false
  | .num s m e =>
    let a := (FV.num s m e).abs
    if (FV.num false 2 8).lt a then (if s then .num false 0 0 else .inf false)
    else
      -- a = k + r with 0 ≤ r < 1, in fixed point; a negative A is −k − 1 + (1 − r)
      let f := a.frac
      let x := f.1 * fxOne / f.2
      let k : Int := if s then -((x / fxOne : Nat) : Int) - b2n (x % fxOne != 0) else (x / fxOne : Nat)
      let r := if s then (fxOne - x % fxOne) % fxOne else x % fxOne
      f32 (toF32 (.num false (expFx (r * ln2 / fxOne)) (k - 512)))

/-- log2 A. -/
def log2 (x : FV) : FV :=
  match x with
  | .nan => .nan
  | .inf s => if s then .nan else .inf false
  | .num _ 0 _ => .inf true
  | .num true _ _ => .nan
  | .num false m e =>
    let l := Nat.log2 m
    let p := 2 ^ l
    let fx := lnRatio (m - p) (m + p) * fxOne / ln2
    fp32.round (FV.ofInt ((e + l) * fxOne + fx) (-512))

/-- t ÷ (1 + e^−w), with w the fraction n ÷ d of the sign of t (R147): SiLU and GELU. -/
def gated (s : Bool) (t : Nat × Nat) (n d : Nat) : W32 :=
  if 400 * d ≤ n then (if s then 0 else f32Frac false t.1 t.2)
  else
    let e := expFrac n d
    -- positive: t e^w ÷ (e^w + 1); negative: t ÷ (1 + e^|w|)
    if s then f32Frac true (t.1 * fxOne) (t.2 * (fxOne + e)) else f32Frac false (t.1 * e) (t.2 * (fxOne + e))

def silu (t : FV) : W32 :=
  match t with
  | .num s _ _ => let f := t.frac; gated s f f.1 f.2
  | .nan => 0x7FC00000
  | .inf s => if s then 0 else 0x7F800000

/-- 0.5 t (1 + tanh y) = t ÷ (1 + e^−2y), y = 0.79788456 (t + 0.044715 t³). -/
def gelu (t : FV) : W32 :=
  match t with
  | .num s _ _ =>
    let f := t.frac
    let n := f.1
    let d := f.2
    gated s f (2 * 79788456 * (n * d * d * 1000000 + 44715 * n * n * n)) (10 ^ 8 * 1000000 * d * d * d)
  | .nan => 0x7FC00000
  | .inf s => if s then 0 else 0x7F800000

end Sys2Proof.Machine
end

