-- ==== Sys2Proof/Machine/Tiles.lean ====
section
/-! DEFINITION. Tiles in memory (R103 to R123, R181 to R187): element and scale codes, headers and their checks,
reading a tile's lines, choosing scales, quantising blocks, and writing dense tiles. -/

namespace Sys2Proof.Machine

/-! ### Formats (R103, R110, R115) -/

/-- Bits of an element. -/
def fmtWidth (f : Nat) : Nat :=
  match f with
  | 0 | 1 => 4
  | 2 => 2
  | 3 | 4 => 6
  | 8 | 12 => 16
  | 9 => 32
  | _ => 8

/-- Element bytes of a line of 64. -/
def lineBytes (f : Nat) : Nat := fmtWidth f * 8

/-- Blocks of a line: B. -/
def lineBlocks (f : Nat) : Nat :=
  match f with
  | 1 => 4
  | 2 => 1
  | 8 | 9 | 12 => 0
  | _ => 2

/-- Elements of a block. -/
def blockLen (f : Nat) : Nat := if lineBlocks f = 0 then 64 else 64 / lineBlocks f

/-- Block scales are E4M3 (R108). -/
def scaleE4 (f : Nat) : Bool := f == 1 || f == 2

/-- Mantissa bits and shift f of a block element's magnitude grid; T2 rounds by its own rule. -/
def eltGrid (f : Nat) : Nat × Nat :=
  match f with
  | 0 | 1 => (1, 1)
  | 3 => (3, 3)
  | 4 => (2, 4)
  | 5 | 10 => (3, 9)
  | 6 | 11 => (2, 16)
  | _ => (7, 6)

/-- The magnitude code of the largest finite element. -/
def eltMaxCode (f : Nat) : Nat :=
  match f with
  | 0 | 1 => 7
  | 3 | 4 => 31
  | 5 | 10 => 0x7E
  | 6 | 11 => 0x7B
  | _ => 127

/-- The magnitude of an E4M3 scale's code. -/
def e4m3 (c : Nat) : FV := if c % 128 = 127 then .nan else .num false (codeInt 3 (c % 128)) (-9)

/-- The value of an element code alone (R103 to R106). Code 10 of T2 is refused before. -/
def eltValue (f c : Nat) : FV :=
  let mag (w m sh : Nat) : FV :=
    let a := c % 2 ^ (w - 1)
    .num (c / 2 ^ (w - 1) % 2 = 1 && codeInt m a != 0) (codeInt m a) (-(sh : Int))
  match f with
  | 0 | 1 => mag 4 1 1
  | 2 => if c = 1 then .one else if c = 3 then .num true 1 0 else .zero
  | 3 => mag 6 3 3
  | 4 => mag 6 2 4
  | 5 | 10 => if c % 128 = 127 then .nan else mag 8 3 9
  | 6 | 11 =>
    if 0x7C < c % 128 then .nan else if c % 128 = 0x7C then .inf (c / 128 % 2 = 1) else mag 8 2 16
  | 8 | 12 => bf16.decode c
  | 9 => fp32.decode c
  | _ => FV.ofInt (signed 8 c) (-6)

/-- An element code as a unit writes it that passes the element on: a negative zero with sign bit 0 (R106), a NaN in the
canonical code of its format (R107). -/
def canonCode (f c : Nat) : Nat :=
  match f with
  | 0 | 1 => if c = 0x8 then 0 else c
  | 3 | 4 => if c = 0x20 then 0 else c
  | 5 | 10 => if c % 128 = 127 then 0x7F else if c = 0x80 then 0 else c
  | 6 | 11 => if 0x7C < c % 128 then 0x7F else if c = 0x80 then 0 else c
  | 8 | 12 => if (bf16.decode c).isNan then 0x7FC0 else c
  | 9 => if (fp32.decode c).isNan then 0x7FC00000 else c
  | _ => c

/-- The value of a block scale code (R108). -/
def scaleValue (f c : Nat) : FV :=
  if scaleE4 f then e4m3 c else if c = 255 then .nan else .num false 1 ((c : Int) - 127)

/-- Element codes of w bits packed from the least significant bit of byte 0 upward (R113). -/
def packCodes (w : Nat) (cs : List Nat) : List Byte :=
  leBytes (w * cs.length / 8) (cs.foldr (fun c n => c + 2 ^ w * n) 0)

/-- The codes that bytes hold. -/
def unpackCodes (w n : Nat) (bs : List Byte) : List Nat :=
  let v := ofLe bs
  (List.range n).map fun i => v / 2 ^ (w * i) % 2 ^ w

/-! ### Headers (R114, R116, R181, R186) -/

/-- What a reader finds wrong with a tile: an uncorrectable codeword, already raised; a breach of R116, of R186, of
R181, of R182 or of R184; a LAYOUT or FORMAT that the reader does not take. -/
inductive TileErr where
  | ue | header | bitmap | sparse | nibble | transpose | foreign
deriving DecidableEq, Repr

namespace Tile

def ofHeader (base : Nat) (v : W64) : Tile :=
  { base, fmt := fld v 3 0, layout := fld v 5 4, arg := fld v 47 32, lines := fld v 29 24 + 1,
    resid := bit v 6, count := fld v 16 8 }

/-- The header's first breach, by R116 and then by its layout's own rule. -/
def headerErr (t : Tile) (v : W64) : Option TileErr :=
  let zeros := fld v 63 48 == 0 && fld v 31 30 == 0 && fld v 23 17 == 0 && !bit v 7
  if !zeros || 12 < t.fmt || t.layout = 3 then some .header
  else if t.layout = 0 ∧ t.arg ≠ 0 then some .header
  else if t.resid ∧ 1 < t.fmt then some .header
  else if t.count ≠ 0 ∧ !t.resid then some .header
  else if t.layout = 2 ∧ (t.fmt ≠ 0 ∨ t.resid ∨ t.arg ≠ 0) then some .sparse
  else if t.layout = 1 ∧ (t.fmt = 2 ∨ 8 < t.fmt ∨ t.resid ∨ 15 < t.arg ∨ (t.lines ≠ 32 ∧ t.lines ≠ 64) ∨
      (t.lines = 32 ∧ 3 < t.arg)) then some .bitmap
  else none

/-- First byte of the block scales. -/
def scales (t : Tile) : Nat := t.base + 8 + if t.fmt = 1 then 4 else 0
/-- First byte of the elements of a DENSE or SPARSE_2_4 tile. -/
def elements (t : Tile) : Nat := t.scales + t.lines * lineBlocks t.fmt
/-- First byte after the elements: the residual section, or the metadata of a SPARSE_2_4 tile. -/
def after (t : Tile) : Nat := t.elements + t.lines * lineBytes t.fmt
def bitmapBytes (t : Tile) : Nat := ceilDiv (t.lines * lineBlocks t.fmt) 8
/-- Bytes of a residual element block. -/
def residBlock (t : Tile) : Nat := if t.fmt = 1 then 8 else 16
/-- Bytes of one present block of a BLOCK_SPARSE tile (R187). -/
def sparseBlock (t : Tile) : Nat := 32 * (lineBlocks t.fmt / 2) + 16 * lineBytes t.fmt
/-- Blocks present among the first i. -/
def rank (n i : Nat) : Nat := ((List.range i).filter fun j => n.testBit j).length
/-- Bytes of the residual section (R121). -/
def residBytes (t : Tile) : Nat := if t.resid then t.bitmapBytes + t.count * (1 + t.residBlock) else 0

/-- The stored size (R112, R181, R186). -/
def stored (t : Tile) : Nat :=
  match t.layout with
  | 0 => t.after + t.residBytes - t.base
  | 1 => t.scales - t.base + rank t.arg 4 * t.sparseBlock
  | _ => t.after + 16 * t.lines - t.base

/-- The occupied size. -/
def occupied (t : Tile) : Nat := ceilDiv t.stored 32 * 32

end Tile

/-! ### Reading -/

/-- The outcome of a read of a tile, or of part of one. -/
structure TileRead (α : Type) where
  x   : Site
  err : Option TileErr
  val : α

namespace Site

/-- A tile's header, tile scale and residual bitmap, checked (R109, R116). A tile whose header is sound, but which the
reader does not take, is refused as such with nothing more read (log 40). Bits of the bitmap's last byte beyond its blocks
are not looked at (log 151). -/
def openTile (x : Site) (a : Nat) (opc : W16) (takes : Tile → Bool := fun _ => true) : TileRead Tile :=
  let h := x.readBytes a 8 opc
  let v : W64 := BitVec.ofNat 64 (ofLe h.2.1)
  let t := Tile.ofHeader a v
  if h.2.2 then ⟨h.1, some .ue, t⟩
  else if t.headerErr v = some .header then ⟨h.1, some .header, t⟩
  else if !takes t then ⟨h.1, some .foreign, t⟩
  else match t.headerErr v with
  | some e => ⟨h.1, some e, t⟩
  | none =>
    let r := if t.fmt = 1 then h.1.readBytes (a + 8) 4 opc else (h.1, [], false)
    let s := if t.fmt = 1 then fp32.decode (ofLe r.2.1) else .one
    let t := { t with scale := s }
    if r.2.2 then ⟨r.1, some .ue, t⟩
    else if !(s.isFinite && FV.zero.lt s) then ⟨r.1, some .header, t⟩
    else if t.resid then
      let b := r.1.readBytes t.after t.bitmapBytes opc
      let n := t.lines * lineBlocks t.fmt
      let m := ofLe b.2.1 % 2 ^ n
      let t := { t with bitmap := m }
      if b.2.2 then ⟨b.1, some .ue, t⟩
      else if Tile.rank m n ≠ t.count then ⟨b.1, some .header, t⟩
      else ⟨b.1, none, t⟩
    else ⟨r.1, none, t⟩

/-- Element codes under their block scales, as values; the breach that a scale or a code makes (R116). A negative code
under a scale of zero is a negative zero (log 152). -/
def decodeBlock (t : Tile) (scale : Nat) (cs : List Nat) : Option TileErr × List FV :=
  let bad := (scaleE4 t.fmt && 128 ≤ scale) || (t.fmt == 2 && cs.contains 2)
  let s := (scaleValue t.fmt scale).mul t.scale
  let vs := if s.isNan then cs.map fun _ => FV.nan else cs.map fun c => (eltValue t.fmt c).mul s
  (if bad then some .header else none, vs)

/-- Blocks of a line from scale bytes and element bytes. -/
def decodeLine (t : Tile) (scales elems : List Byte) : Option TileErr × List FV :=
  let cs := unpackCodes (fmtWidth t.fmt) (elems.length * 8 / fmtWidth t.fmt) elems
  if lineBlocks t.fmt = 0 then (none, cs.map (eltValue t.fmt))
  else
    let n := blockLen t.fmt
    (List.range scales.length).foldl (fun acc b =>
      let r := decodeBlock t (scales.getD b 0).toNat ((cs.drop (n * b)).take n)
      (acc.1.orElse fun _ => r.1, acc.2 ++ r.2)) (none, [])

/-- The residual value of block b of line l, where the bitmap marks one (R121, R122). -/
def readResid (x : Site) (t : Tile) (l b : Nat) (opc : W16) : TileRead (List FV) :=
  let i := l * lineBlocks t.fmt + b
  let n := blockLen t.fmt
  if t.bitmap.testBit i then
    let k := Tile.rank t.bitmap i
    let at0 := t.after + t.bitmapBytes
    let s := x.readBytes (at0 + k) 1 opc
    let e := s.1.readBytes (at0 + t.count + k * t.residBlock) t.residBlock opc
    let r := decodeBlock t (ofLe s.2.1) (unpackCodes (fmtWidth t.fmt) n e.2.1)
    ⟨e.1, if s.2.2 || e.2.2 then some .ue else r.1, r.2⟩
  else ⟨x, none, List.replicate n FV.zero⟩

/-- Add the residuals of a line's blocks. -/
def addResids (x : Site) (t : Tile) (l : Nat) (vs : List FV) (opc : W16) : TileRead (List FV) :=
  (List.range (lineBlocks t.fmt)).foldl (fun acc b =>
    let r := acc.x.readResid t l b opc
    ⟨r.x, acc.err.orElse fun _ => r.err,
      acc.val ++ List.zipWith FV.add ((vs.drop (blockLen t.fmt * b)).take (blockLen t.fmt)) r.val⟩) ⟨x, none, []⟩

/-- Line l of a DENSE tile. -/
def denseLine (x : Site) (t : Tile) (l : Nat) (opc : W16) : TileRead (List FV) :=
  let nb := lineBlocks t.fmt
  let s := x.readBytes (t.scales + l * nb) nb opc
  let e := s.1.readBytes (t.elements + l * lineBytes t.fmt) (lineBytes t.fmt) opc
  let r := decodeLine t s.2.1 e.2.1
  if s.2.2 || e.2.2 then ⟨e.1, some .ue, r.2⟩
  else if r.1.isSome then ⟨e.1, r.1, r.2⟩
  else if t.resid then e.1.addResids t l r.2 opc
  else ⟨e.1, none, r.2⟩

/-- K half bk of line l of a BLOCK_SPARSE tile; an absent block reads as zero (R186). -/
def sparseHalf (x : Site) (t : Tile) (l bk : Nat) (opc : W16) : TileRead (List FV) :=
  let i := 2 * (l / 32) + bk
  if t.arg.testBit i then
    let at0 := t.scales + Tile.rank t.arg i * t.sparseBlock
    let nb := lineBlocks t.fmt / 2
    let half := lineBytes t.fmt / 2
    let s := x.readBytes (at0 + l % 32 * nb) nb opc
    let e := s.1.readBytes (at0 + 32 * nb + l % 32 * half) half opc
    let r := decodeLine t s.2.1 e.2.1
    ⟨e.1, if s.2.2 || e.2.2 then some .ue else r.1, r.2⟩
  else ⟨x, none, List.replicate 32 FV.zero⟩

/-- The nibble of group g (R182): the positions that it names, where it is legal. -/
def nibble (n : Nat) : Option (Nat × Nat) :=
  match n with
  | 0x4 => some (0, 1) | 0x8 => some (0, 2) | 0xC => some (0, 3)
  | 0x9 => some (1, 2) | 0xD => some (1, 3) | 0xE => some (2, 3)
  | _ => none

/-- Four logical positions of a group from its two stored elements. -/
def spread (p : Nat × Nat) (a b : FV) : List FV :=
  (List.range 4).map fun i => if i = p.1 then a else if i = p.2 then b else FV.zero

/-- Line l of a SPARSE_2_4 tile: its 128 logical positions. -/
def metaLine (x : Site) (t : Tile) (l : Nat) (opc : W16) : TileRead (List FV) :=
  let s := x.readBytes (t.scales + l * 2) 2 opc
  let e := s.1.readBytes (t.elements + l * 32) 32 opc
  let m := e.1.readBytes (t.after + l * 16) 16 opc
  let r := decodeLine t s.2.1 e.2.1
  let ns := (unpackCodes 4 32 m.2.1).map nibble
  if s.2.2 || e.2.2 || m.2.2 then ⟨m.1, some .ue, []⟩
  else if ns.any Option.isNone then ⟨m.1, some .nibble, []⟩
  else ⟨m.1, r.1, (List.range 32).flatMap fun g =>
    spread ((ns.getD g none).getD (0, 1)) (r.2.getD (2 * g) FV.zero) (r.2.getD (2 * g + 1) FV.zero)⟩

/-- A stored line of a tile; lines that the tile does not store read as zero (R112). -/
def tileLine (x : Site) (t : Tile) (l : Nat) (opc : W16) : TileRead (List FV) :=
  if t.lines ≤ l then ⟨x, none, List.replicate (if t.layout = 2 then 128 else 64) FV.zero⟩
  else match t.layout with
  | 0 => x.denseLine t l opc
  | 1 =>
    let a := x.sparseHalf t l 0 opc
    let b := a.x.sparseHalf t l 1 opc
    ⟨b.x, a.err.orElse fun _ => b.err, a.val ++ b.val⟩
  | _ => x.metaLine t l opc

/-- K half bk of line l of a DENSE tile of block elements holds a residual block. -/
def halfResid (t : Tile) (l bk : Nat) : Bool :=
  let nb := lineBlocks t.fmt / 2
  (List.range nb).any fun b => t.bitmap.testBit (l * lineBlocks t.fmt + bk * nb + b)

/-- Line l of the tile holds a residual block. -/
def lineResid (t : Tile) (l : Nat) : Bool :=
  (List.range (lineBlocks t.fmt)).any fun b => t.bitmap.testBit (l * lineBlocks t.fmt + b)

/-- Lines 0 to n − 1, up to the first that fails, with its number. -/
def tileLines (x : Site) (t : Tile) (opc : W16) : Nat → TileRead (List (List FV))
  | 0 => ⟨x, none, []⟩
  | n + 1 =>
    let r := x.tileLines t opc n
    if r.err.isSome then r
    else
      let l := r.x.tileLine t n opc
      if l.err.isSome then ⟨l.x, l.err, r.val⟩ else ⟨l.x, none, r.val ++ [l.val]⟩

end Site

/-! ### Scales and quantised blocks (R117 to R124) -/

def Events.plus (a b : Events) : Events :=
  { sat := a.sat + b.sat, inf := a.inf + b.inf, nan := a.nan + b.nan, resid := a.resid + b.resid,
    amax := a.amax.maxOf b.amax }

/-- The largest magnitude of finite values. -/
def amaxOf (xs : List FV) : FV := xs.foldl (fun a x => a.maxOf x.abs) FV.zero

/-- The E8M0 exponent X for an amax (R117), clamped. -/
def e8m0 (f : Nat) (isFloor : Bool) (amax : FV) : Int :=
  match amax with
  | .num _ m e =>
    if m = 0 then -127
    else
      let top := codeInt (eltGrid f).1 (eltMaxCode f)
      let x0 : Int := (Nat.log2 m : Int) + e + (eltGrid f).2 - Nat.log2 top
      let x := if isFloor || m * 2 ^ Nat.log2 top ≤ top * 2 ^ Nat.log2 m then x0 else x0 + 1
      max (-127) (min 127 x)
  | _ => -127

/-- RU of R118: the code of the smallest E4M3 value that is at least n ÷ d; 448's when none is. -/
def ruE4m3 (n d : Nat) : Nat := min 0x7E (roundCode 3 9 n d .up)

/-- The fraction |x| ÷ s of finite values, s above zero. -/
def ratio (x s : FV) : Nat × Nat :=
  let a := x.abs.frac
  let b := s.frac
  (a.1 * b.2, a.2 * b.1)

/-- An element's code for v = ±n ÷ d, and whether it was clipped (R119, R124). Zero has sign bit 0 (R106). -/
def eltCode (f : Nat) (neg : Bool) (v : Nat × Nat) (r : Rnd) : Nat × Bool :=
  if f = 2 then (if v.2 < 2 * v.1 then (if neg then 3 else 1) else 0, false)
  else
    let g := eltGrid f
    let top := eltMaxCode f
    let clip := codeInt g.1 top * v.2 < v.1 * 2 ^ g.2
    let c := if clip then top else roundCode g.1 g.2 v.1 v.2 r
    let w := fmtWidth f
    (if c = 0 then 0 else if neg then (if f = 7 then 2 ^ w - c else 2 ^ (w - 1) + c) else c, clip)

/-- A block of finite inputs quantised: element k rounds by r k. T is the F4-16 tile scale. -/
def quantise (f : Nat) (isFloor : Bool) (T : FV) (xs : List FV) (r : Nat → Rnd) : Block :=
  let amax := amaxOf xs
  let code :=
    if f = 1 then
      let v := ratio amax T
      ruE4m3 v.1 (6 * v.2)
    else if f = 2 then
      let v := (xs.foldl (fun a x => a.add x.abs) FV.zero).frac
      ruE4m3 v.1 (64 * v.2)
    else (e8m0 f isFloor amax + 127).toNat
  let s := (scaleValue f code).mul (if f = 1 then T else .one)
  let es := xs.mapIdx fun k x => if s.isZero then (0, false) else eltCode f x.sign (ratio x s) (r k)
  { scale := code, codes := es.map (·.1), clips := (es.filter (·.2)).length }

/-- The values that a quantised block decodes to. -/
def Block.values (f : Nat) (T : FV) (b : Block) : List FV :=
  (Site.decodeBlock { fmt := f, scale := if f = 1 then T else .one } b.scale b.codes).2

/-- One block converted: its primary block, its residual block where one is formed, and its events (R120, R123).
thresh is the threshold × 256, none where residuals are off. -/
def convertBlock (f : Nat) (isFloor : Bool) (T : FV) (thresh : Option Nat) (xs : List FV) (r : Nat → Rnd) :
    Block × Option Block × Events :=
  if xs.all FV.isFinite then
    let b := quantise f isFloor T xs r
    let amax := amaxOf xs
    let ev : Events := { sat := b.clips, amax }
    match thresh with
    | none => (b, none, ev)
    | some th =>
      let errs := List.zipWith FV.sub xs (b.values f T)
      let worst := ratio (amaxOf errs) .one
      let big := ratio amax .one
      -- ε > THRESH ÷ 256, by cross multiplication
      if !amax.isZero && decide (th * big.1 * worst.2 < 256 * worst.1 * big.2) then
        let rb := quantise f false T errs fun _ => .rne
        (b, some rb, { ev with resid := 1, sat := b.clips + rb.clips })
      else (b, none, ev)
  else (⟨if scaleE4 f then 0x7F else 0xFF, xs.map fun _ => 0, 0⟩, none, { nan := 1 })

/-- A line converted into a format: by blocks, or element by element for BF16, FP32 and complex BF16. -/
def convertLine (f : Nat) (isFloor : Bool) (T : FV) (thresh : Option Nat) (xs : List FV) (r : Nat → Rnd) : OutLine :=
  if lineBlocks f = 0 then
    let F := if f = 9 then fp32 else bf16
    let es := xs.mapIdx fun k x => F.encode x (r k)
    let out := es.map fun e => F.decode e.1
    { codes := es.map (·.1)
      ev := { inf := (es.filter (·.2)).length, nan := (out.filter FV.isNan).length,
              amax := amaxOf (out.filter FV.isFinite) } }
  else
    let n := blockLen f
    (List.range (lineBlocks f)).foldl (fun o b =>
      let c := convertBlock f isFloor T thresh ((xs.drop (n * b)).take n) (fun k => r (n * b + k))
      { scales := o.scales ++ [c.1.scale], codes := o.codes ++ c.1.codes, resids := o.resids ++ [c.2.1],
        ev := o.ev.plus c.2.2 }) {}

/-- The tile scale of R118: RU32 of tile amax ÷ 2,688 over the finite inputs; 1.0 for none or zero. -/
def tileScale (xs : List FV) : W32 :=
  let a := amaxOf (xs.filter FV.isFinite)
  if a.isZero then 0x3F800000 else let f := a.frac; BitVec.ofNat 32 (fp32.roundUp f.1 (2688 * f.2))

/-- The bytes of a DENSE tile, padded to its occupied size (R112 to R114, R121, R123). -/
def tileBytes (f : Nat) (T : W32) (ls : List OutLine) : List Byte :=
  let rs := ls.flatMap fun l => l.resids
  let kept := rs.filterMap id
  let some' := !kept.isEmpty
  let header := (ls.length - 1) * 2 ^ 24 + (if some' then kept.length * 2 ^ 8 + 2 ^ 6 else 0) + f
  let map := rs.mapIdx fun i r => if r.isSome then 2 ^ i else 0
  let resid :=
    if some' then
      leBytes (ceilDiv rs.length 8) map.sum ++ (kept.map fun b => BitVec.ofNat 8 b.scale) ++
        kept.flatMap fun b => packCodes (fmtWidth f) b.codes
    else []
  let body := leBytes 8 header ++ (if f = 1 then leBytes 4 T.toNat else []) ++
    (ls.flatMap fun l => l.scales.map fun s => BitVec.ofNat 8 s) ++
    (ls.flatMap fun l => packCodes (fmtWidth f) l.codes) ++ resid
  body ++ List.replicate (ceilDiv body.length 32 * 32 - body.length) 0

/-- The bytes that an output tile of some lines can occupy: with residuals, those of a residual block for each of its
blocks (R121). -/
def tileRoom (f lines : Nat) (resid : Bool) : Nat :=
  Tile.occupied { fmt := f, lines, resid, count := if resid then lines * lineBlocks f else 0 }

/-- The occupied size of a full DENSE tile without residuals (R115). -/
def fullTile (f : Nat) : Nat := Tile.occupied { fmt := f, lines := 64 }

/-- The events of a line or tile. -/
def eventsOf (ls : List OutLine) : Events := ls.foldl (fun e l => e.plus l.ev) {}

end Sys2Proof.Machine
end

