-- ==== Sys2Proof/Machine/Flags.lean ====
section
/-! DEFINITION. What the units count and flag: the event counters of the array and the vector engine with the four step
counters behind them (R136, R151, R156, R217), the fault logs of the units, the checksum log (R139), and the bytes
that words in the units' queues have still to read or write (R422). -/

namespace Sys2Proof.Machine
namespace Site

/-! ### Counters -/

/-- The step counters after a unit's events (R156). -/
def stepEvents (x : Site) (e : Events) : Site :=
  { x with c := { x.c with counts := {
      sat := x.c.counts.sat + e.sat, inf := x.c.counts.inf + e.inf
      nan := x.c.counts.nan + e.nan, resid := x.c.counts.resid + e.resid } } }

/-- Events of the array and its drain: ARR_SAT_COUNT, ARR_NAN_COUNT and the step counters (R136, R151). -/
def arrEvents (x : Site) (e : Events) : Site :=
  ((x.count Reg.arrSatCount (e.sat + e.inf)).count Reg.arrNanCount e.nan).stepEvents e

/-- Events of the vector engine (R217). -/
def vecEvents (x : Site) (e : Events) : Site :=
  ((x.count Reg.vecSatCount (e.sat + e.inf)).count Reg.vecNanCount e.nan).stepEvents e

/-- Fold an amax into a slot register (R151, R217). -/
def foldAmax (x : Site) (o : Nat) (v : W32) : Site :=
  if (f32 ((x.reg o).setWidth 32)).lt (f32 v) then x.setReg o (v.setWidth 64) else x

/-! ### Faults of the scheduled units (R80, R139, R155, R202, R223) -/

/-- A source of the array other than CHECKSUM: the scheduled-unit outcome. -/
def arrFaulted (x : Site) (code : Nat) (q : QWord) : Site := x.raiseHalt code (wordOpcode q.word)

/-- GTH_FAULT_LOG holds the first fault since GTH_FAULT was last all clear. -/
def gthLog (x : Site) (op line addr : Nat) : Site :=
  if x.num Reg.gthFault = 0 then
    x.setReg Reg.gthFaultLog (BitVec.ofNat 64 (2 ^ 31 + op * 2 ^ 24 + line % 256 * 2 ^ 16 + addr / 32 % 65536))
  else x

/-- A source of the gather-and-merge engine; op is 0 for a check made during a LOAD. -/
def gthFaulted (x : Site) (code : Nat) (q : QWord) (op line addr : Nat) : Site :=
  let x := x.gthLog op line addr
  x.raiseHalt code (wordOpcode q.word) (x.reg Reg.gthFaultLog)

/-- A source of the vector engine with the scheduled-unit outcome. -/
def vecFaulted (x : Site) (code : Nat) (q : QWord) (stream instr beat : Nat) : Site :=
  let x := x.vecLog (code - 32) stream instr beat
  x.raiseHalt code (wordOpcode q.word) (x.reg Reg.vecFaultLog)

/-- The source that a tile's breach raises, and the outcome of R80: an uncorrectable codeword has been raised as it
was read; R116 belongs to the reading unit, the rules of the sparse layouts to the engine. -/
def tileFault (x : Site) (e : TileErr) (q : QWord) (own : Site → Site) (op line addr : Nat) : Site :=
  match e with
  | .ue => x.seqHalt
  | .header | .foreign => own x
  | .bitmap => x.gthFaulted 26 q op line addr
  | .sparse => x.gthFaulted 29 q op line addr
  | .nibble => x.gthFaulted 24 q op line addr
  | .transpose => x.gthFaulted 25 q op line addr

/-- A checksum mismatch: CHECKSUM raised and logged; nothing stops (R139). -/
def mismatch (x : Site) (q : QWord) (sbuf part row : Nat) : Site :=
  let logged := bit (x.reg Reg.arrFault) 0
  let log := if logged then setFld (x.reg Reg.arrChkLog) 30 30 1
    else BitVec.ofNat 64 (2 ^ 31 + sbuf * 2 ^ 10 + part * 2 ^ 9 + row)
  let x := x.setReg Reg.arrChkLog log
  x.raise 16 (wordOpcode q.word) log

/-! ### Hazards (R143, R180, R220, R422) -/

/-- A range of local offsets that a word reads or writes. -/
structure Span where
  lo    : Nat
  hi    : Nat
  wr    : Bool := false
deriving DecidableEq, Repr

/-- Two accesses that R422 orders. -/
def Span.clash (a b : Span) : Bool := (a.wr || b.wr) && decide (a.lo < b.hi) && decide (b.lo < a.hi)

/-- H[HREG][15:0] as the word issued, where its flag asks for it. -/
def hAdd (q : QWord) (use hreg : Nat) : Nat := if use = 1 then (q.hs.getD hreg 0).toNat % 65536 else 0

/-- A scratchpad offset of a word: a field in 32-byte units with a handle added, modulo 2^16. -/
def scratchAddr (field add : Nat) : Nat := 32 * ((field + add) % 65536)

def scratchEnd : Nat := 0x200000
/-- The local offset of accumulator row r (R141). -/
def accRow (r : Nat) : Nat := 0x01000000 + 256 * r

def arrAddr (q : QWord) : Nat := scratchAddr (wfield q.word 103 88) (hAdd q (wfield q.word 106 106) (wfield q.word 105 104))
def arrLines (q : QWord) : Nat := wfield q.word 87 80 + 1
def arrRow (q : QWord) : Nat := wfield q.word 79 71

/-- The tile at an address as its header now stands: what a word would read there. -/
def tileSpan (x : Site) (a : Nat) : Span :=
  let t := Tile.ofHeader a (BitVec.ofNat 64 (ofLe (Memory.read x.c.mem a 8)))
  ⟨a, a + t.occupied, false⟩

/-- What the next line of consecutive tiles reads. -/
def cursorSpan (x : Site) (c : Cursor) : Span :=
  match c.tile with
  | some t => if c.line < t.lines then ⟨t.base, t.base + t.occupied, false⟩ else x.tileSpan c.addr
  | none => x.tileSpan c.addr

/-- What a reader of consecutive tiles with so many lines left can still read, in a region that ends at top: the open
tile while lines of it are left, and every byte behind it until the last tile is known (R422). -/
def cursorReach (c : Cursor) (left top : Nat) : List Span :=
  if left = 0 then []
  else match c.tile with
  | some t =>
    if t.lines ≤ c.line then [⟨c.addr, top, false⟩]
    else [⟨t.base, if left ≤ t.lines - c.line then t.base + t.occupied else top, false⟩]
  | none => [⟨c.addr, top, false⟩]

/-- What an ARRAY word can still reach, from line i of its tiles on. -/
def arrReach (q : QWord) (c : Cursor) (i : Nat) : List Span :=
  if wordOp q.word = 1 then cursorReach c 1 scratchEnd
  else
    (if wordOp q.word = 2 ∧ wfield q.word 69 69 = 1 then [] else cursorReach c (arrLines q - i) scratchEnd) ++
      [⟨accRow (arrRow q + i), accRow (arrRow q + arrLines q), true⟩]

def drainDest (q : QWord) : Nat := scratchAddr (wfield q.word 79 64) (hAdd q (wfield q.word 33 33) (wfield q.word 35 34))
def drainRows (q : QWord) : Nat := wfield q.word 87 80 + 1
def drainAcc (q : QWord) : Nat := wfield q.word 96 88
def drainParam (q : QWord) : Nat := 32 * wfield q.word 63 48

/-- Bytes that a DRAIN word reads at PARAM (R153). -/
def paramBytes (q : QWord) : Nat := (if wfield q.word 102 101 = 2 then 256 else 0) + 256 * wfield q.word 100 100
def drainFmt (q : QWord) : Nat := wfield q.word 108 105
/-- F4-16 with TSRC = 0: the tile scale comes of all the rows, which are read twice (R150). -/
def twoPass (q : QWord) : Bool := drainFmt q == 1 && wfield q.word 97 97 == 0

/-- What a DRAIN word can still reach, from row i and destination d on. -/
def drainReach (q : QWord) (i d : Nat) : List Span :=
  [⟨accRow (drainAcc q + i), accRow (drainAcc q + drainRows q), wfield q.word 98 98 = 1⟩,
   ⟨drainParam q, drainParam q + (if i = 0 then paramBytes q else 0), false⟩,
   ⟨d, if i < drainRows q then scratchEnd else d, true⟩]

def gathA (q : QWord) : Nat := scratchAddr (wfield q.word 107 92) (hAdd q (wfield q.word 42 42) (wfield q.word 41 40))
def gathB (q : QWord) : Nat := 32 * wfield q.word 91 76
def gathDest (q : QWord) : Nat := 32 * wfield q.word 75 60
def gathCount (q : QWord) : Nat := wfield q.word 59 48
/-- OP 1, 3 or 5 (R179). -/
def isFeed (q : QWord) : Bool := wordOp q.word % 2 = 1

/-- What a GATHER word can reach: FEED_MERGE's 8 bytes of the feed map, and of what depends on data everything behind
(R422). -/
def gathReach (q : QWord) : List Span :=
  match wordOp q.word with
  | 2 => [⟨gathA q, scratchEnd, false⟩, ⟨gathDest q, scratchEnd, true⟩, ⟨gathB q, scratchEnd, true⟩]
  | 4 => [⟨gathA q, scratchEnd, false⟩, ⟨gathDest q, scratchEnd, true⟩]
  | 6 => [⟨gathA q, scratchEnd, false⟩, ⟨gathB q, scratchEnd, false⟩, ⟨gathDest q, scratchEnd, true⟩]
  | 3 => [⟨gathA q, scratchEnd, false⟩, ⟨gathB q + 8 * gathCount q, gathB q + 8 * gathCount q + 8, false⟩]
  | _ => [⟨gathA q, scratchEnd, false⟩, ⟨gathB q, scratchEnd, false⟩]

/-- The lines that a feed has still to give to the STREAM that has taken it. -/
def feedLeft (x : Site) (f : Feed) : Nat :=
  match x.c.streaming with
  | some r => arrLines r.q - f.given
  | none => 0

/-- What a feed can still read: all that its word can reach, or what its first line has made known. -/
def feedReach (x : Site) (f : Feed) : List Span :=
  let q := f.q
  let left := x.feedLeft f
  let fmt := (f.curA.tile.getD {}).fmt
  let blocks (kbs : List Nat) : List Span :=
    (kbs.filter (· ≠ 0xFFFF)).map fun kb => x.tileSpan (gathA q + kb / 2 * fullTile fmt)
  if !f.taken ∨ f.given = 0 then gathReach q
  else if wordOp q.word = 1 then cursorReach f.curA left scratchEnd ++ cursorReach f.curB left scratchEnd
  else if left = 0 then []
  else if wordOp q.word = 3 then blocks f.list
  else
    let es := f.list.map (· % 2 ^ 14)
    if wfield q.word 43 43 = 1 then blocks ((es.drop (gathCount q)).take 2)
    else blocks ((es.drop (gathCount q + f.given / 32)).take (ceilDiv left 32))

/-- A stream descriptor's fields (R206). -/
def descEn (d : W64) : Bool := bit d 63
def descOut (d : W64) : Bool := bit d 62
def descRegion (d : W64) : Nat := fld d 59 58
def descFmt (d : W64) : Nat := fld d 57 54
def descUnit (d : W64) : Bool := bit d 15
def descInner (d : W64) : Nat := fld d 14 0 + 1
def regionBase (r : Nat) : Nat := if r = 0 then 0 else if r = 1 then 0x02000000 else 0x01000000
def regionTop (r : Nat) : Nat := if r = 0 then 0x200000 else if r = 1 then 0x02010000 else 0x01020000

/-- The local offset of a stream's first byte in a word. -/
def descBase (q : QWord) (d : W64) : Nat :=
  regionBase (descRegion d) + scratchAddr (fld d 47 32) (hAdd q (fld d 61 61) (wfield q.word 56 55))

/-- Bytes of an element of a flat stream (R208). -/
def descWidth (d : W64) : Nat :=
  match descFmt d with
  | 0 => 4
  | 2 => 8
  | _ => 2

/-- The local offset of element e of a flat stream (R207). -/
def elemAddr (q : QWord) (d : W64) (e : Nat) : Nat :=
  descBase q d + 32 * (e / descInner d) * fld d 31 16 + (if descUnit d then e % descInner d * descWidth d else 0)

/-- The last element of the row of element e, or of the word. -/
def rowLast (d : W64) (e count : Nat) : Nat := min (count - 1) (e / descInner d * descInner d + descInner d - 1)

/-- The bytes of one stream over the elements from e on, before n: whole codewords for an output. -/
def streamReach (q : QWord) (d : W64) (e n : Nat) : List Span :=
  if !descEn d || n ≤ e then []
  else if descFmt d = 5 then [⟨descBase q d, regionTop (descRegion d), descOut d⟩]
  else
    let rows := List.range' (e / descInner d) ((n - 1) / descInner d + 1 - e / descInner d)
    rows.map fun r =>
      let first := max e (r * descInner d)
      let last := min (n - 1) (r * descInner d + descInner d - 1)
      let lo := elemAddr q d first
      let hi := elemAddr q d last + descWidth d
      if descOut d then ⟨lo / 32 * 32, ceilDiv hi 32 * 32, true⟩ else ⟨lo, hi, false⟩

def vecCount (q : QWord) : Nat := wfield q.word 99 80 + 1

/-- The descriptors of the set that a VECTOR word names, as they stand. -/
def descSet (x : Site) (q : QWord) : List W64 :=
  (List.range 8).map fun s => x.reg (Reg.vecDesc (8 * wfield q.word 103 100 + s))

/-- What a VECTOR word can still reach, from element e on. -/
def vecReach (q : QWord) (ds : List W64) (e : Nat) : List Span :=
  ds.flatMap fun d => streamReach q d e (vecCount q)

/-- What a running VECTOR word can still reach: its flat streams from the next beat on, its TILE inputs from where they
stand, its TILE output from the tile in progress, and the outputs that have not committed. -/
def runReach (v : VecRun) : List Span :=
  let e := 128 * v.beat
  let n := vecCount v.q
  v.pending.map (fun w => ⟨w.addr / 32 * 32, ceilDiv (w.addr + w.bytes.length) 32 * 32, true⟩) ++
    (v.descs.zipIdx).flatMap fun p =>
      if descFmt p.1 ≠ 5 then streamReach v.q p.1 e n
      else if !descEn p.1 then []
      else if descOut p.1 then (if n ≤ e then [] else [⟨v.outTile, regionTop (descRegion p.1), true⟩])
      else match v.cursors.find? fun c => c.1 == p.2 with
        | some c => cursorReach c.2 ((n - e) / 64) (regionTop (descRegion p.1))
        | none => []

/-- What the words issued before number n have still to read or write. -/
def earlier (x : Site) (n : Nat) : List Span :=
  let old (q : QWord) (r : List Span) : List Span := if q.num < n then r else []
  (x.c.arrayQ.flatMap fun q => old q (arrReach q { addr := arrAddr q } 0)) ++
  (match x.c.streaming with
    | some r => old r.q (arrReach r.q r.cur r.line)
    | none => []) ++
  (x.c.drainQ.flatMap fun q => old q (drainReach q 0 (drainDest q))) ++
  (match x.c.draining with
    | some r => old r.q (drainReach r.q (if twoPass r.q then r.row - r.rows.length else r.row) r.dest)
    | none => []) ++
  (x.c.vecQ.flatMap fun q => old q (vecReach q (x.descSet q) 0)) ++
  (match x.c.vector with
    | some v => old v.q (runReach v)
    | none => []) ++
  (x.c.gathQ.flatMap fun q => old q (gathReach q)) ++
  (x.c.feeds.flatMap fun f => old f.q (x.feedReach f))

/-- The accesses of word number n wait for a word issued before it. -/
def held (x : Site) (n : Nat) (acc : List Span) : Bool :=
  let es := x.earlier n
  acc.any fun a => es.any a.clash

end Site
end Sys2Proof.Machine
end

