-- ==== Sys2Proof/Machine/Gather.lean ====
section
/-! DEFINITION. The gather-and-merge engine (chapter 08): its feeds, MERGE, SELECT and GLEAN, the predictor's state at
a step change, and the GATHER words. Gatherings of lines for a STREAM are asked for by Machine/Array.lean. -/

namespace Sys2Proof.Machine
namespace Site

/-! ### Reading tiles in sequence (R131) -/

/-- The next line of consecutive tiles, for a reader that takes some tiles only. At an error the cursor names the line at
fault. -/
def nextLine (x : Site) (c : Cursor) (opc : W16) (takes : Tile → Bool := fun _ => true) :
    TileRead (Cursor × Tile × List FV) :=
  let openNext (x : Site) : TileRead (Cursor × Tile) :=
    let r := x.openTile c.addr opc takes
    ⟨r.x, r.err, ({ addr := c.addr + r.val.occupied, tile := some r.val, line := 0 }, r.val)⟩
  let r : TileRead (Cursor × Tile) :=
    match c.tile with
    | some t => if c.line < t.lines then ⟨x, none, (c, t)⟩ else openNext x
    | none => openNext x
  if r.err.isSome then ⟨r.x, r.err, (r.val.1, r.val.2, [])⟩
  else
    let l := r.x.tileLine r.val.2 r.val.1.line opc
    let line := if l.err.isSome then r.val.1.line else r.val.1.line + 1
    ⟨l.x, l.err, ({ r.val.1 with line }, r.val.2, l.val)⟩

/-- The place of line l of a sequence of tiles: the tile that stores it, open at that line. -/
def seekLine (x : Site) (a l : Nat) (opc : W16) : Nat → TileRead Cursor
  | 0 => ⟨x, none, { addr := a }⟩
  | n + 1 =>
    let t := x.openTile a opc
    if t.err.isSome then ⟨t.x, t.err, { addr := a, tile := some t.val }⟩
    else if l < t.val.lines then ⟨t.x, none, { addr := a + t.val.occupied, tile := some t.val, line := l }⟩
    else t.x.seekLine (a + t.val.occupied) (l - t.val.lines) opc n

/-- The next n lines of consecutive tiles, up to the first that fails. -/
def nextLines (x : Site) (c : Cursor) (opc : W16) : Nat → TileRead (Cursor × List (List FV))
  | 0 => ⟨x, none, (c, [])⟩
  | n + 1 =>
    let r := x.nextLines c opc n
    if r.err.isSome then r
    else
      let l := r.x.nextLine r.val.1 opc
      ⟨l.x, l.err, (l.val.1, r.val.2 ++ [l.val.2.2])⟩

/-- Tile line and tile offset of a fault, as GTH_FAULT_LOG has them (R202). -/
structure Spot where
  line : Nat := 0
  addr : Nat := 0
deriving DecidableEq, Repr

/-- Where a cursor stands in its open tile. -/
def spotOf (c : Cursor) : Spot :=
  match c.tile with
  | some t => ⟨c.line, t.base⟩
  | none => ⟨0, c.addr⟩

/-! ### Block lists (R194) -/

/-- The entries of a block list and its NB, after its checks: the first entry at fault, where one is. -/
def readList (x : Site) (a : Nat) (opc : W16) : TileRead (List Nat × Nat × Option Nat) :=
  let h := x.readBytes a 8 opc
  let v := ofLe h.2.1
  let n := bitsOf v 15 0
  let nb := bitsOf v 31 16
  let b := h.1.readBytes (a + 8) (2 * n) opc
  let es := unpackCodes 16 n b.2.1
  let bad i :=
    let e := es.getD i 0
    e / 2 ^ 14 == 3 || nb ≤ e % 2 ^ 14 || (0 < i && e % 2 ^ 14 ≤ es.getD (i - 1) 0 % 2 ^ 14)
  let wrong := if nb < n then some 0 else (List.range n).find? bad
  ⟨b.1, if h.2.2 || b.2.2 then some .ue else none, (es, nb, wrong)⟩

/-- The bytes of a block list, padded to whole codewords (R79). -/
def listBytes (es : List Nat) (nb step : Nat) : List Byte :=
  let bs := leBytes 8 (es.length + nb * 2 ^ 16 + step * 2 ^ 32) ++ es.flatMap (leBytes 2)
  bs ++ List.replicate (ceilDiv bs.length 32 * 32 - bs.length) 0

/-! ### Feeds (R179, R183, R189, R195) -/

/-- What a feed answers when its STREAM asks for a line: lines for array lines 0–31 and 32–63 (or one for both), the
FORMAT, and whether a block of it has a residual (R133); the end of its entries; a fault of its own that it has raised; or
lines that the array has refused. -/
inductive FeedOut where
  | line (fmt : Nat) (a : List FV) (b : Option (List FV)) (resid : Bool)
  | done
  | fault
  | refused
deriving DecidableEq, Repr

/-- K half of line i of a tile of the source row of a K gather or a FEED_MERGE (R189): where a fault of it lies, whether
it holds a residual block, and its values. -/
def kBlock (x : Site) (f : Feed) (fmt kb i : Nat) (opc : W16) : TileRead (Spot × Bool × List FV) :=
  let at0 := gathA f.q + kb / 2 * fullTile fmt
  let r := x.openTile at0 opc fun t => t.layout == 0 && t.fmt == fmt
  if r.err.isSome then ⟨r.x, r.err, (⟨0, at0⟩, false, [])⟩
  else
    let l := r.x.tileLine r.val i opc
    ⟨l.x, l.err, (⟨i, at0⟩, halfResid r.val i (kb % 2), (l.val.drop (32 * (kb % 2))).take 32)⟩

/-- Line i of a split or K-gathered feed from the K blocks named, 0xFFFF being none. -/
def kLine (x : Site) (f : Feed) (fmt i : Nat) (kbs : List Nat) (opc : W16) : TileRead (Spot × Bool × List FV) :=
  kbs.foldl (fun acc kb =>
    if acc.err.isSome then acc
    else if kb = 0xFFFF then ⟨acc.x, none, (acc.val.1, acc.val.2.1, acc.val.2.2 ++ List.replicate 32 FV.zero)⟩
    else
      let r := acc.x.kBlock f fmt kb i opc
      ⟨r.x, r.err, (r.val.1, acc.val.2.1 || r.val.2.1, acc.val.2.2 ++ r.val.2.2)⟩) ⟨x, none, ({}, false, [])⟩

/-- A breach that a feed meets in its operands: what is not of the pair raises PAIR_ILLEGAL. -/
def feedFails (x : Site) (f : Feed) (e : TileErr) (p : Spot) : Site × Feed × FeedOut :=
  let q := f.q
  let op := wordOp q.word
  if e = .foreign then (x.arrFaulted 20 q, f, .fault)
  else (x.tileFault e q (fun x => x.gthFaulted 29 q op p.line p.addr) op p.line p.addr, f, .fault)

/-- A feed breaks R195: FEED_MISSING. -/
def feedMissing (x : Site) (f : Feed) (p : Spot) : Site × Feed × FeedOut :=
  (x.gthFaulted 28 f.q (wordOp f.q.word) p.line p.addr, f, .fault)

/-- FEED_24: line i of both sequences joined (R183). -/
def feed24 (x : Site) (f : Feed) (i : Nat) : Site × Feed × FeedOut :=
  let opc := wordOpcode f.q.word
  let takes (t : Tile) : Bool := t.layout == 0 && t.fmt == 0
  let a := x.nextLine f.curA opc takes
  match a.err with
  | some e => a.x.feedFails f e (spotOf a.val.1)
  | none =>
    let b := a.x.nextLine f.curB opc takes
    match b.err with
    | some e => b.x.feedFails f e (spotOf b.val.1)
    | none =>
      let resid := lineResid a.val.2.1 (a.val.1.line - 1) || lineResid b.val.2.1 (b.val.1.line - 1)
      (b.x, { f with curA := a.val.1, curB := b.val.1, given := i + 1 }, .line 0 (a.val.2.2 ++ b.val.2.2) none resid)

/-- The header of a feed's source, read before its first line. -/
def feedSource (x : Site) (f : Feed) (i : Nat) (takes : Tile → Bool) : TileRead Feed :=
  if i ≠ 0 then ⟨x, none, f⟩
  else
    let t := x.openTile (gathA f.q) (wordOpcode f.q.word) takes
    ⟨t.x, t.err, { f with curA := { addr := gathA f.q, tile := some t.val, line := 0 } }⟩

/-- FEED_MERGE: line i in split form, from the K blocks of the feed map's entry (R189). -/
def feedMerge (x : Site) (f : Feed) (i total : Nat) (pairs : Nat → Bool) : Site × Feed × FeedOut :=
  let q := f.q
  let opc := wordOpcode q.word
  let src : Spot := ⟨0, gathA q⟩
  let s := x.feedSource f i fun t => t.layout == 0
  match s.err with
  | some e => s.x.feedFails f e src
  | none =>
    let fmt := (s.val.curA.tile.getD {}).fmt
    if !pairs fmt then (s.x.arrFaulted 20 q, f, .refused) else
    let m := if i = 0 then s.x.readBytes (gathB q + 8 * gathCount q) 8 opc else (s.x, [], false)
    let f := if i = 0 then { s.val with list := unpackCodes 16 4 m.2.1 } else s.val
    if m.2.2 then m.1.feedFails f .ue src
    else if 64 < total then m.1.feedMissing f src
    else
      let a := m.1.kLine f fmt i (f.list.take 2) opc
      match a.err with
      | some e => a.x.feedFails f e a.val.1
      | none =>
        let b := a.x.kLine f fmt i (f.list.drop 2) opc
        match b.err with
        | some e => b.x.feedFails f e b.val.1
        | none => (b.x, { f with given := i + 1 }, .line fmt a.val.2.2 (some b.val.2.2) (a.val.2.1 || b.val.2.1))

/-- FEED_LIST with KGATHER: line i from the K blocks of entries COUNT and COUNT + 1 (R195). -/
def feedK (x : Site) (f : Feed) (fmt i : Nat) : Site × Feed × FeedOut :=
  let e := gathCount f.q
  match f.list[e]? with
  | none => (x, f, .done)
  | some b =>
    let second := match f.list[e + 1]? with
      | some c => c % 2 ^ 14
      | none => 0xFFFF
    let r := x.kLine f fmt i [b % 2 ^ 14, second] (wordOpcode f.q.word)
    match r.err with
    | some .foreign => r.x.feedMissing f r.val.1
    | some er => r.x.feedFails f er r.val.1
    | none => (r.x, { f with given := i + 1 }, .line fmt r.val.2.2 none r.val.2.1)

/-- FEED_LIST without KGATHER: line i, of the blocks of the entries from COUNT on, 32 lines each (R195). -/
def feedLines (x : Site) (f : Feed) (src : Tile) (i : Nat) : Site × Feed × FeedOut :=
  let opc := wordOpcode f.q.word
  match f.list[gathCount f.q + i / 32]? with
  | none => (x, f, .done)
  | some b =>
    let blk := b % 2 ^ 14
    let at0 := gathA f.q + blk / 2 * src.occupied
    let t := x.openTile at0 opc fun t => t.fmt == src.fmt && t.layout == 0 && !t.resid && t.lines == 64
    match t.err with
    | some .foreign => t.x.feedMissing f ⟨0, at0⟩
    | some e => t.x.feedFails f e ⟨0, at0⟩
    | none =>
      let l := 32 * (blk % 2) + i % 32
      let r := t.x.tileLine t.val l opc
      match r.err with
      | some e => r.x.feedFails f e ⟨l, at0⟩
      | none => (r.x, { f with given := i + 1 }, .line src.fmt r.val none false)

/-- FEED_LIST: its source's header and its list, checked before the first line, and then line i; only a line gather bars
residuals (R195). -/
def feedList (x : Site) (f : Feed) (i total : Nat) (pairs : Nat → Bool) : Site × Feed × FeedOut :=
  let q := f.q
  let src : Spot := ⟨0, gathA q⟩
  let gatherK := wfield q.word 43 43 = 1
  let s := x.feedSource f i fun t => t.fmt != 2 && t.layout == 0 && (gatherK || !t.resid)
  match s.err with
  | some .foreign => s.x.feedMissing f src
  | some e => s.x.feedFails f e src
  | none =>
    let t := s.val.curA.tile.getD {}
    if !pairs t.fmt then (s.x.arrFaulted 20 q, f, .refused)
    else if (gatherK ∧ 64 < total) ∨ (!gatherK ∧ total % 32 ≠ 0) then s.x.feedMissing f src
    else
      let l := if i = 0 then s.x.readList (gathB q) (wordOpcode q.word) else ⟨s.x, none, (s.val.list, 0, none)⟩
      if l.err.isSome then l.x.feedFails f .ue ⟨0, gathB q⟩
      else match l.val.2.2 with
      | some k => (l.x.gthFaulted 27 q 5 k (gathB q), f, .fault)
      | none =>
        let f := { s.val with list := l.val.1 }
        if gatherK then l.x.feedK f t.fmt i else l.x.feedLines f t i

/-- What a feed does when line i of the total that its STREAM names is asked for; pairs are the FORMATs that the
stationary buffer accepts. -/
def feedLine (x : Site) (f : Feed) (i total : Nat) (pairs : Nat → Bool) : Site × Feed × FeedOut :=
  if wordOp f.q.word = 1 then x.feed24 f i
  else if wordOp f.q.word = 3 then x.feedMerge f i total pairs
  else x.feedList f i total pairs

/-! ### MERGE (R188) -/

/-- A line of 32 K positions without elements: zeros under the scale that R188 names. -/
def absentLine (f : Nat) : List Byte × List Byte :=
  (List.replicate (lineBlocks f / 2) (if scaleE4 f then 0 else 0x7F), List.replicate (lineBytes f / 2) 0)

/-- The 32 element codes of a line's K half as they are written on. -/
def canonBytes (f : Nat) (bs : List Byte) : List Byte :=
  packCodes (fmtWidth f) ((unpackCodes (fmtWidth f) 32 bs).map (canonCode f))

/-- The lines of one block of 32 lines and 32 K positions, as scale bytes and element bytes, their negative zeros and NaNs
canonical (R106, R107); lines that the tile does not store are absent lines (R112; log 139). At an error, the line at
fault. -/
def rawBlock (x : Site) (t : Tile) (h bk : Nat) (opc : W16) : TileRead (Spot × List (List Byte × List Byte)) :=
  let nb := lineBlocks t.fmt / 2
  let half := lineBytes t.fmt / 2
  (List.range 32).foldl (fun acc l =>
    if acc.err.isSome then acc
    else if t.lines ≤ 32 * h + l then ⟨acc.x, none, (acc.val.1, acc.val.2 ++ [absentLine t.fmt])⟩
    else
    let at0 := t.scales + Tile.rank t.arg (2 * h + bk) * t.sparseBlock
    let sa := if t.layout = 1 then at0 + l * nb else t.scales + (32 * h + l) * (2 * nb) + bk * nb
    let ea := if t.layout = 1 then at0 + 32 * nb + l * half else t.elements + (32 * h + l) * (2 * half) + bk * half
    let s := acc.x.readBytes sa nb opc
    let e := s.1.readBytes ea half opc
    let bad := scaleE4 t.fmt && s.2.1.any fun b => 128 ≤ b.toNat
    let err := if s.2.2 || e.2.2 then some TileErr.ue else if bad then some .header else none
    ⟨e.1, err, (⟨32 * h + l, t.base⟩, acc.val.2 ++ [(s.2.1, canonBytes t.fmt e.2.1)])⟩) ⟨x, none, ({}, [])⟩

/-- The block (h, bk) of a tile is present. -/
def present (t : Tile) (h bk : Nat) : Bool :=
  if t.layout = 1 then t.arg.testBit (2 * h + bk) else 32 * h < t.lines

/-- The stored tiles of a tile row from an address, and where the next would lie; at an error, where the tile at fault
lies. -/
def rowTiles (x : Site) (a : Nat) (opc : W16) : Nat → TileRead (List Tile × Nat)
  | 0 => ⟨x, none, ([], a)⟩
  | n + 1 =>
    let r := x.rowTiles a opc n
    if r.err.isSome then r
    else
      let t := r.x.openTile r.val.2 opc
      ⟨t.x, t.err, (r.val.1 ++ [t.val], if t.err.isSome then r.val.2 else r.val.2 + t.val.occupied)⟩

/-- The present K blocks of block row 2t + h: tile and half. -/
def rowBlocks (ts : List Tile) (h : Nat) : List (Nat × Nat) :=
  (List.range ts.length).flatMap fun c =>
    ([0, 1].filter fun bk => present (ts.getD c {}) h bk).map fun bk => (c, bk)

/-- The block of an entry of L_h, or the absent one. -/
def entryBlock (x : Site) (ts : List Tile) (f : Nat) (ls : List (Nat × Nat)) (h k : Nat) (opc : W16) :
    TileRead (Spot × List (List Byte × List Byte)) :=
  match ls[k]? with
  | some (c, bk) => x.rawBlock (ts.getD c {}) h bk opc
  | none => ⟨x, none, ({}, List.replicate 32 (absentLine f))⟩

/-- The K index of an entry of L_h; 0xFFFF for a missing one. -/
def entryIndex (ls : List (Nat × Nat)) (k : Nat) : Nat :=
  match ls[k]? with
  | some (c, bk) => 2 * c + bk
  | none => 0xFFFF

/-- The blocks of the entries of L_h named, up to the first that fails. -/
def entryBlocks (x : Site) (ts : List Tile) (f : Nat) (opc : W16) (es : List (List (Nat × Nat) × Nat × Nat)) :
    TileRead (Spot × List (List (List Byte × List Byte))) :=
  es.foldl (fun acc e =>
    if acc.err.isSome then acc
    else
      let b := acc.x.entryBlock ts f e.1 e.2.1 e.2.2 opc
      ⟨b.x, b.err, (b.val.1, acc.val.2 ++ [b.val.2])⟩) ⟨x, none, ({}, [])⟩

/-- One compacted tile. -/
def compact (x : Site) (ts : List Tile) (f p : Nat) (T : W32) (l0 l1 : List (Nat × Nat)) (opc : W16) :
    TileRead (Spot × List Byte) :=
  let r := x.entryBlocks ts f opc [(l0, 0, 2 * p), (l0, 0, 2 * p + 1), (l1, 1, 2 * p), (l1, 1, 2 * p + 1)]
  let b (i : Nat) := r.val.2.getD i []
  let ls := List.zip (b 0) (b 1) ++ List.zip (b 2) (b 3)
  let body := leBytes 8 (63 * 2 ^ 24 + f) ++ (if f = 1 then leBytes 4 T.toNat else []) ++
    (ls.flatMap fun l => l.1.1 ++ l.2.1) ++ (ls.flatMap fun l => l.1.2 ++ l.2.2)
  ⟨r.x, r.err, (r.val.1, body ++ List.replicate (ceilDiv body.length 32 * 32 - body.length) 0)⟩

/-- A word of the engine that has done its work, with its result count. -/
def gathDone (x : Site) (q : QWord) (n : Nat) : Site := { x with c := { x.c with gathDone := x.c.gathDone ++ [(q, n)] } }

/-- The compacted tiles of passes 0 to n − 1, written in order up to the first that fails, whose bytes are then
undefined (R424). -/
def compactAll (x : Site) (q : QWord) (ts : List Tile) (f : Nat) (T : W32) (l0 l1 : List (Nat × Nat)) :
    Nat → TileRead Spot
  | 0 => ⟨x, none, {}⟩
  | n + 1 =>
    let r := x.compactAll q ts f T l0 l1 n
    if r.err.isSome then r
    else
      let opc := wordOpcode q.word
      let t := r.x.compact ts f n T l0 l1 opc
      if t.err.isSome then ⟨t.x.leaveOpen (gathDest q + n * fullTile f) (fullTile f), t.err, t.val.1⟩
      else ⟨t.x.writeBytes (gathDest q + n * fullTile f) t.val.2 opc, none, {}⟩

def runMerge (x : Site) (q : QWord) : Site :=
  let opc := wordOpcode q.word
  let bad (x : Site) (code : Nat) (p : Spot) : Site := x.gthFaulted code q 2 p.line p.addr
  let r := x.rowTiles (gathA q) opc (gathCount q)
  match r.err with
  | some e => r.x.tileFault e q (fun x => bad x 29 ⟨0, r.val.2⟩) 2 0 r.val.2
  | none =>
    let ts := r.val.1
    let f := (ts.headD {}).fmt
    let wrong (t : Tile) : Bool := t.fmt != f || t.layout == 2 || t.resid || t.fmt == 2 || decide (8 < t.fmt)
    match ts.find? wrong, ts.find? fun t => f == 1 && t.scale != (ts.headD {}).scale with
    | some t, _ => bad r.x 29 ⟨0, t.base⟩
    | none, some t => bad r.x 26 ⟨0, t.base⟩
    | none, none =>
      let l0 := rowBlocks ts 0
      let l1 := rowBlocks ts 1
      let passes := ceilDiv (max l0.length l1.length) 2
      let T : W32 := BitVec.ofNat 32 (ofLe (Memory.read x.c.mem (gathA q + 8) 4))
      let w := r.x.compactAll q ts f T l0 l1 passes
      match w.err with
      | some e => w.x.tileFault e q (fun x => bad x 29 w.val) 2 w.val.line w.val.addr
      | none =>
        let map := (List.range passes).flatMap fun p =>
          [entryIndex l0 (2 * p), entryIndex l0 (2 * p + 1), entryIndex l1 (2 * p), entryIndex l1 (2 * p + 1)].flatMap
            (leBytes 2)
        let pad := List.replicate (ceilDiv map.length 32 * 32 - map.length) 0
        (w.x.writeBytes (gathB q) (map ++ pad) opc).gathDone q passes

/-! ### The predictor (R191 to R196) -/

def slotOf (q : QWord) : Nat := wfield q.word 47 44
/-- MODE of a slot: 0 WARMUP, 1 ON, 2 OFF. -/
def predMode (x : Site) (k : Nat) : Nat := x.field (Reg.gthPredCtrl k) 8 7
def predCounts (x : Site) (k : Nat) : PredCounts := Tab.get (fun _ => ({} : PredCounts)) x.c.pred k
def setPredCounts (x : Site) (k : Nat) (v : PredCounts) : Site :=
  { x with c := { x.c with pred := Tab.set (fun _ => ({} : PredCounts)) x.c.pred k v } }

/-- The largest of values; NaN where one of them is. -/
def largest (vs : List FV) : FV := vs.foldl (fun a v => if a.isNan || v.isNan then .nan else a.maxOf v) (.inf true)

/-- The class of a score (R192): 0 ACTIVE, 1 GUARD, 2 SKIPPED. -/
def classify (sc th g : FV) : Nat :=
  let g := if g.lt FV.zero then FV.zero else g
  if sc.isNan || th.lt sc then 0 else if (th.sub g).lt sc && sc.le th then 1 else 2

/-- The classes of the blocks of n sketch tiles from an address, and where the next tile lies; at an error, the tile and
the line at fault. A tile that is not DENSE of FP32 or BF16 is foreign to the word. -/
def sketch (x : Site) (a : Nat) (th g : FV) (opc : W16) : Nat → TileRead (List Nat × Spot)
  | 0 => ⟨x, none, ([], ⟨0, a⟩)⟩
  | n + 1 =>
    let r := x.sketch a th g opc n
    if r.err.isSome then r
    else
      let t := r.x.openTile r.val.2.addr opc fun t => t.layout == 0 && (t.fmt == 8 || t.fmt == 9)
      if t.err.isSome then ⟨t.x, t.err, r.val⟩
      else
        let l := t.x.tileLines t.val opc t.val.lines
        let c h := classify (largest (l.val.flatMap fun v => (v.drop (32 * h)).take 32)) th g
        if l.err.isSome then ⟨l.x, l.err, (r.val.1, ⟨l.val.length, r.val.2.addr⟩)⟩
        else ⟨l.x, none, (r.val.1 ++ [c 0, c 1], ⟨0, r.val.2.addr + t.val.occupied⟩)⟩

/-- SELECT (R192 to R194): its list written and its blocks counted. One that ends at a fault has counted none of the blocks
that it had classified (log 153). -/
def runSelect (x : Site) (q : QWord) : Site :=
  let k := slotOf q
  let opc := wordOpcode q.word
  let th := f32 ((x.reg (Reg.gthPredTheta k)).setWidth 32)
  let g := f32 ((x.reg (Reg.gthPredGuard k)).setWidth 32)
  let r := x.sketch (gathA q) th g opc (gathCount q)
  let p := r.val.2
  match r.err with
  | some e => r.x.tileFault e q (fun x => x.gthFaulted 29 q 4 p.line p.addr) 4 p.line p.addr
  | none =>
    let x := r.x
    let mode := x.predMode k
    let key := drawKey x.seed (x.num Reg.crfStep) (x.n.getD 0) (wfield q.word 31 16)
    let cs := r.val.1
    let audited (b : Nat) : Bool := mode == 0 || decide (draw key b < 1024)
    let entry (b c : Nat) : Option Nat :=
      if mode = 2 then some b
      else if c = 2 then (if audited b then some (2 * 2 ^ 14 + b) else none)
      else some (c * 2 ^ 14 + b)
    let es := (cs.mapIdx entry).filterMap id
    let skipped := (cs.filter (· = 2)).length
    let aud := (es.filter fun e => e / 2 ^ 14 = 2).length
    let old := x.predCounts k
    let x := x.setPredCounts k (if mode = 2 then { old with ran := true }
      else { old with skipped := old.skipped + skipped, audited := old.audited + aud, ran := true })
    (x.writeBytes (gathDest q) (listBytes es cs.length (x.num Reg.crfStep)) opc).gathDone q es.length

/-- The largest |h| of entry e, over lines 32e to 32e + 31 of the drained tiles (R131, R196); at an error, the place. -/
def activation (x : Site) (a e : Nat) (opc : W16) : TileRead (Spot × FV) :=
  let s := x.seekLine a (32 * e) opc (32 * e + 1)
  if s.err.isSome then ⟨s.x, s.err, (spotOf s.val, .nan)⟩
  else
    let l := s.x.nextLines s.val opc 32
    ⟨l.x, l.err, (spotOf l.val.1, largest (l.val.2.flatMap fun v => v.map FV.abs))⟩

/-- Which of the first n entries stay in the down list, and the misses among the audited; at an error, its place. -/
def gleaned (x : Site) (q : QWord) (es : List Nat) (eps : FV) : Nat → TileRead (Spot × List Nat × Nat)
  | 0 => ⟨x, none, ({}, [], 0)⟩
  | n + 1 =>
    let r := x.gleaned q es eps n
    let e := es.getD n 0
    let kept := r.val.2.1
    let missed := r.val.2.2
    if r.err.isSome then r
    else if e / 2 ^ 14 ≠ 2 then ⟨r.x, none, ({}, kept ++ [e], missed)⟩
    else
      let h := r.x.activation (gathA q) n (wordOpcode q.word)
      if h.err.isSome then ⟨h.x, h.err, (h.val.1, kept, missed)⟩
      else if h.val.2.isNan || eps.lt h.val.2 then ⟨h.x, none, ({}, kept ++ [e], missed + 1)⟩
      else ⟨h.x, none, ({}, kept, missed)⟩

/-- GLEAN (R196): its list written, its misses and guards counted. One that ends at a fault has counted none (log 153). -/
def runGlean (x : Site) (q : QWord) : Site :=
  let k := slotOf q
  let opc := wordOpcode q.word
  let l := x.readList (gathB q) opc
  if l.err.isSome then l.x.seqHalt
  else match l.val.2.2 with
  | some i => l.x.gthFaulted 27 q 6 i (gathB q)
  | none =>
    let es := l.val.1
    let eps := f32 ((l.x.reg (Reg.gthPredMissEps k)).setWidth 32)
    let r := l.x.gleaned q es eps es.length
    match r.err with
    | some e =>
      let p := r.val.1
      r.x.tileFault e q (fun x => x.gthFaulted 29 q 6 p.line p.addr) 6 p.line p.addr
    | none =>
      let mode := r.x.predMode k
      let kept := if mode = 1 then r.val.2.1 else es
      let guards := (es.filter fun e => e / 2 ^ 14 = 1).length
      let old := r.x.predCounts k
      let x := if mode = 2 then r.x else r.x.setPredCounts k
        { old with misses := old.misses + r.val.2.2, gleaned := old.gleaned + guards + r.val.2.2 }
      (x.writeBytes (gathDest q) (listBytes kept l.val.2.1 (x.num Reg.crfStep)) opc).gathDone q kept.length

/-! ### The engine's order (R179) -/

/-- Feed words at the head of the queue wait for their STREAMs; the next other word runs once no feed and no unfinished
word stands before it and R422 allows. -/
def advance (x : Site) : Nat → Site
  | 0 => x
  | fuel + 1 =>
    match x.c.gathQ with
    | [] => x
    | q :: rest =>
      let y := { x with c := { x.c with gathQ := rest } }
      if isFeed q then
        let f : Feed := { q, curA := { addr := gathA q }, curB := { addr := gathB q } }
        { y with c := { y.c with feeds := y.c.feeds ++ [f] } }.advance fuel
      else if !x.c.feeds.isEmpty || !x.c.gathDone.isEmpty then x
      else if x.held q.num (gathReach q) then x.stalls
      else if wordOp q.word = 2 then y.runMerge q
      else if wordOp q.word = 4 then y.runSelect q
      else y.runGlean q

/-- Post a completed word's count (R178); a full queue holds the completion. -/
def complete (x : Site) : Site :=
  match x.c.gathDone with
  | [] => x
  | (q, n) :: rest =>
    let k := wfield q.word 38 37
    if wfield q.word 39 39 = 1 ∧ x.queueFull k then x
    else
      let x := { x with c := { x.c with gathDone := rest, feeds := x.c.feeds.filter fun f => f.q.num != q.num } }
      if wfield q.word 39 39 = 1 then x.push k (BitVec.ofNat 32 n) else x

/-- A word completes; the words behind it go on. -/
def gatherComplete (x : Site) : Site :=
  let x := if x.c.gathDone.isEmpty then x.advance 5 else x
  x.complete.advance 5

/-- A GATHER word issues; the engine goes on where it can. -/
def gatherWord (x : Site) (op : Nat) : Site := (x.enqueueGather op).advance 5

/-! ### A change of CRF_STEP (R197 to R200) -/

/-- Slot k at a step change: counts published, window tested, DENSE_LEFT lowered, and then what software has written. -/
def rollSlot (x : Site) (k : Nat) : Site :=
  let c := x.predCounts k
  let cap (n : Nat) : Nat := min n 0xFFFF
  let two (hi lo : Nat) : W64 := BitVec.ofNat 64 (cap hi * 2 ^ 16 + cap lo)
  let x := (x.setReg (Reg.gthPredStep k) (two c.audited c.misses)).setReg (Reg.gthPredCount k) (two c.skipped c.gleaned)
  let x := x.setPredCounts k {}
  let mode := x.predMode k
  let left := x.field (Reg.gthPredCtrl k) 6 0
  let left' := if c.ran then left - 1 else left
  let x := x.setField (Reg.gthPredCtrl k) 6 0 left'
  let x :=
    if mode = 2 then x
    else
      let a := cap (x.field (Reg.gthPredWin k) 31 16 + c.audited)
      let m := cap (x.field (Reg.gthPredWin k) 15 0 + c.misses)
      let need := max 1 (x.field (Reg.gthPredLimit k) 31 16)
      let off := decide (x.field (Reg.gthPredLimit k) 15 0 * a < m * 65536)
      let x := if mode = 0 ∧ left' = 0 then x.setField (Reg.gthPredCtrl k) 8 7 1 else x
      if need ≤ a then
        let x := x.setReg (Reg.gthPredWin k) 0
        if off then
          let x := (x.setField (Reg.gthPredCtrl k) 8 7 2).gthLog 0 0 0
          x.raise 30 0 (x.reg Reg.gthFaultLog)
        else x
      else x.setReg (Reg.gthPredWin k) (two a m)
  let next (i : Nat) : Option W32 := Tab.get (fun _ => none) x.c.predNext i
  let x := match next (2 * k) with
    | some v => x.setReg (Reg.gthPredCtrl k) (v.setWidth 64)
    | none => x
  match next (2 * k + 1) with
  | some v => x.setReg (Reg.gthPredWin k) (v.setWidth 64)
  | none => x

/-- The gather engine at a step change. -/
def roll (x : Site) : Site :=
  let x := (List.range 16).foldl rollSlot x
  { x with c := { x.c with predNext := [] } }

/-- A write of GTH_PRED_CTRL_k or GTH_PRED_WIN_k, which takes effect at the next step change (R200). -/
def predWrite (x : Site) (k : Nat) (win : Bool) (v : W32) : Site :=
  let put (x : Site) (i : Nat) (v : W32) : Site :=
    { x with c := { x.c with predNext := Tab.set (fun _ => none) x.c.predNext i (some v) } }
  if win then put x (2 * k + 1) v
  else if bitsOf v.toNat 8 7 = 3 then x
  else put x (2 * k) (BitVec.ofNat 32 (bitsOf v.toNat 8 7 * 2 ^ 7 + min 64 (bitsOf v.toNat 6 0)))

end Site

/-! ### The commands -/

def execFeed24 (q : Phys) (s : State) : Host.Outcome State Fault Refusal := .next (s.onCroft q fun x => x.gatherWord 1)
def execMerge (q : Phys) (s : State) : Host.Outcome State Fault Refusal := .next (s.onCroft q fun x => x.gatherWord 2)
def execFeedMerge (q : Phys) (s : State) : Host.Outcome State Fault Refusal := .next (s.onCroft q fun x => x.gatherWord 3)
def execSelect (q : Phys) (s : State) : Host.Outcome State Fault Refusal := .next (s.onCroft q fun x => x.gatherWord 4)
def execFeedList (q : Phys) (s : State) : Host.Outcome State Fault Refusal := .next (s.onCroft q fun x => x.gatherWord 5)
def execGlean (q : Phys) (s : State) : Host.Outcome State Fault Refusal := .next (s.onCroft q fun x => x.gatherWord 6)
def execGatherComplete (q : Phys) (s : State) : Host.Outcome State Fault Refusal :=
  .next (s.onCroft q Site.gatherComplete)

/-- A write of CRF_STEP: a step change, or a replay mark (R250). -/
def execCrfStepWrite (q : Phys) (v : W32) (s : State) : Host.Outcome State Fault Refusal :=
  .next (s.onRegs q fun x => x.stepWrite (v.setWidth 64) Site.roll)

end Sys2Proof.Machine
end

