-- ==== Sys2Proof/Machine/CroftRegs.lean ====
section
/-! DEFINITION. Access to a croft's registers: the five blocks of R74 with the access effects of R13, by REG_WRITE and
REG_READ packets (R75, R99) and by the croft's own carter (R232). -/

namespace Sys2Proof.Machine
namespace Site

/-! ### Registers that show the croft's state -/

/-- CRF_SEQ_STATUS.WAIT_SRC. -/
def waitSrc (h : Held) : Nat :=
  match h with
  | .nothing => 0
  | .queue k | .postFull k => k
  | .stepEvent => 4
  | .closing _ | .opening _ => 5
  | .phase _ => 6
  | .unitFull => 7

/-- A bit for each of the eight channels. -/
def chanBits (x : Site) (p : Chan → Bool) : Nat :=
  ((List.range 8).map fun i => if p (x.chan i) then 2 ^ i else 0).sum

/-- The value of a channel register, by its place in the channel's 32 bytes. -/
def chanReg (x : Site) (i o : Nat) : Nat :=
  let c := x.chan i
  if o = 0x00 then (x.handle i).toNat
  else if o = 0x04 then c.status
  else if o = 0x08 then c.loops.length * 2 ^ 16 + c.pc % 2 ^ 16
  else if o = 0x0C then c.c0.toNat
  else if o = 0x10 then c.c1.toNat
  else c.bytes

/-- The value of the registers that show other state; none where the register holds its own value. -/
def shownReg (x : Site) (o : Nat) : Option Nat :=
  let c := x.c
  -- FENCE stands at 1 for as long as any cause of R98 holds (R99)
  if o = Reg.crfCtrl then some (x.num Reg.crfCtrl ||| b2n x.fenced)
  else if o = Reg.crfId then some (if x.shown then x.q * 2 ^ 16 + x.n.getD x.c.lastId else 0)
  else if o = Reg.crfStatus then
    -- FAULT: the register's table names the CRF_FAULT bits, R80 a halt by any unit's fault (log 141)
    some (c.seq.slot * 2 ^ 5 + b2n (x.num Reg.crfFault != 0 || c.seq.st = .halted && c.seq.fault) * 2 ^ 4 + x.status)
  else if o = Reg.crfSeqStatus then
    let held := c.seq.st = .wait
    some (c.seq.loops.length * 2 ^ 20 + b2n held * 2 ^ 15 + (if held then waitSrc c.seq.held else 0) * 2 ^ 12 +
      c.seq.slot * 2 ^ 10 + c.seq.pc % 512)
  else if o = Reg.crfTokq then
    some (((List.range 4).map fun k => (x.queue k).length * 2 ^ (8 * k)).sum)
  else if o = Reg.crfEccLog then
    some (if x.num Reg.crfFault % 4 = 0 then c.corrLog.toNat else x.num Reg.crfEccLog)
  else if o = Reg.crfRepairData then
    match x.repair (x.field Reg.crfRepairSel 10 8) (x.field Reg.crfRepairSel 4 0) with
    | some row => some (2 ^ 31 + row)
    | none => some 0
  else if o = Reg.crfRepairStatus then
    some (x.field Reg.crfRepairStatus 9 9 * 2 ^ 9 + b2n c.repairing.isSome * 2 ^ 8 +
      (x.repairFree (x.field Reg.crfRepairSel 10 8)).length)
  else if o = Reg.arrStatus then
    let addin := match c.streaming with
      | some r => wordOp r.q.word == 3
      | none => false
    some (b2n c.sbuf1.loaded * 2 ^ 9 + b2n c.sbuf0.loaded * 2 ^ 8 + b2n c.draining.isSome * 8 + b2n addin * 4 +
      b2n (c.streaming.isSome && !addin) * 2 + b2n c.loading.isSome)
  else if o = Reg.vecStatus then some (c.vecProg % 16 * 2 ^ 4 + c.vecQ.length * 2 + b2n c.vector.isSome)
  else if o = Reg.gthStatus then
    some (b2n (!c.feeds.isEmpty) * 8 + b2n (!c.feeds.isEmpty || !c.gathDone.isEmpty))
  else if o = Reg.carStatus then
    some (x.outstanding * 2 ^ 16 + x.chanBits (fun c => c.st = .wait) * 2 ^ 8 + x.chanBits Chan.active)
  else if 0x1100 ≤ o ∧ o < 0x1200 then some (x.chanReg ((o - 0x1100) / 32) (o % 32))
  else none

/-! ### Access (R9, R10, R13) -/

/-- The sequencer waits for a unit's queue, or a unit has work: cycles go on being counted. -/
def stalling (x : Site) : Bool := x.c.seq.held == .unitFull || !x.unitsIdle

/-- A read of CRF_SEQ_STALL: any number of cycles where some may have passed since the last read (log 14), and the count
starts anew. -/
def readStall (x : Site) : Site × W64 :=
  if x.c.stalled then
    let f := x.fresh
    ({ f.2 with c := { f.2.c with stalled := x.stalling } }, (f.1.setWidth 32).setWidth 64)
  else (x, 0)

/-- A read of n bytes at an offset of the blocks. -/
def readReg (x : Site) (o n : Nat) : Site × W64 :=
  match findReg croftMap o with
  | none => (x, 0)
  | some d =>
    if n ≠ (if d.wide then 8 else 4) then (x, 0)
    else if o = Reg.crfSeqStall then x.readStall
    else match x.shownReg o with
      | some v => (x, BitVec.ofNat 64 v)
      | none => (if d.rc = 0 then x else x.setReg o (d.afterRead (x.reg o)), x.reg o)

/-- A write of CRF_CTRL. -/
def writeCtrl (x : Site) (v : W64) : Site :=
  let x := x.writeFence (bit v 0)
  if bit v 1 then x.beginReset else x

/-- The predictor register of an offset: its slot, and whether it is PRED_WIN; none for another register. -/
def predReg (o : Nat) : Option (Nat × Bool) :=
  if 0x4100 ≤ o ∧ o < 0x4300 ∧ o % 32 = 0x10 then some ((o - 0x4100) / 32, false)
  else if 0x4100 ≤ o ∧ o < 0x4300 ∧ o % 32 = 0x1C then some ((o - 0x4100) / 32, true)
  else none

/-- A write of n bytes at an offset of the blocks. -/
def writeReg (x : Site) (o n : Nat) (v : W64) : Site :=
  match findReg croftMap o with
  | none => x
  | some d =>
    if n ≠ (if d.wide then 8 else 4) then x
    else if o = Reg.crfCtrl then x.writeCtrl v
    else if o = Reg.crfStep then x.stepWrite v Site.roll
    else if o = Reg.crfSeqCtrl then x.seqCtrl v
    else if o = Reg.crfSeqSlots then x.seqSlots v
    else if o = Reg.crfWinCmd then x.winCmd v
    else if o = Reg.crfRepairData then x.repairData v
    else if o = Reg.carCmd then x.carCmd v
    else if 0x40 ≤ o ∧ o < 0xC0 ∧ x.winState ((o - 0x40) / 8) ≠ 0 then x
    else if o = Reg.arrCtrl then { x with c := { x.c with injectChk := x.c.injectChk || bit v 0 } }
    else if o = Reg.vecCtrl then { x with c := { x.c with injectRes := x.c.injectRes || bit v 0 } }
    else match predReg o with
      | some (k, win) => x.predWrite k win (v.setWidth 32)
      | none =>
        let x := x.setReg o (d.write (x.reg o) v)
        if o = Reg.arrFault ∧ x.field Reg.arrFault 0 0 = 0 then x.setReg Reg.arrChkLog 0 else x

/-! ### Register packets (R75, R99) -/

/-- The width of a register packet's access: a carter's is of 4 bytes, any other of the register's own width. -/
def packetWidth (k : Packet) (o : Nat) : Nat :=
  match k.who, findReg croftMap o with
  | .carter _ _, _ => 4
  | _, some d => if d.wide then 8 else 4
  | _, none => 4

/-- Why a register packet is refused. -/
def regRefused (x : Site) (k : Packet) : Option Nat :=
  let a := k.offset.toNat
  if x.c.resetting then some 0x06
  else if k.holding ≠ 0xF then some 0x07
  else if a < 0x0F000000 ∨ 0x0F005000 ≤ a ∨ a % 4 ≠ 0 then some 0x0C
  else if x.fenced ∧ 0x0F001000 ≤ a then some 0x0B
  else none

/-- REG_DATA with a value. -/
def regReply (x : Site) (k : Packet) (v : W64) : Site :=
  x.send { x.answer k 0x14 3 with opdata := v.setWidth 96 }

def regWritePacket (x : Site) (k : Packet) : Site :=
  match x.regRefused k with
  | some code => x.refuse k code
  | none =>
    let o := k.offset.toNat - 0x0F000000
    let v : W64 := k.opdata.setWidth 64
    (x.writeReg o (packetWidth k o) v).regReply k v

def regReadPacket (x : Site) (k : Packet) : Site :=
  match x.regRefused k with
  | some code => x.refuse k code
  | none =>
    let o := k.offset.toNat - 0x0F000000
    let r := x.readReg o (packetWidth k o)
    r.1.regReply k r.2

end Site
end Sys2Proof.Machine
end

