-- ==== Sys2Proof/Machine/Header.lean ====
section
/-! DEFINITION. The flits of a packet (R50 to R52): the head flit's 256 bits, the body flits, and the sideband of each. -/

namespace Sys2Proof

/-- A flit: 256 data bits and its sideband. -/
structure Flit where
  data : BitVec 256
  side : BitVec 64
deriving DecidableEq, Repr

namespace Packet

/-- The head flit's data bits, by the header table of R52. -/
def header (k : Packet) : BitVec 256 :=
  BitVec.ofNat 256 (k.opdata.toNat * 2 ^ 160 + k.nack.toNat * 2 ^ 144 + k.length.toNat * 2 ^ 128 + k.offset.toNat * 2 ^ 96 +
    k.tag.toNat * 2 ^ 80 + k.gen.toNat * 2 ^ 72 + k.window.toNat * 2 ^ 64 + k.escaped.toNat * 2 ^ 60 +
    k.tclass.toNat * 2 ^ 59 + (match k.plane with | .a => 0 | .b => 1) * 2 ^ 58 + k.origVc.toNat * 2 ^ 56 +
    k.op.toNat * 2 ^ 48 + k.holding.toNat * 2 ^ 44 + k.attach.toNat * 2 ^ 40 + k.mgroup.toNat * 2 ^ 32 +
    k.src.toNat * 2 ^ 16 + k.dest.toNat)

/-- The packet whose head flit is w: what its sideband and its body flits say, and who waits, come from elsewhere. -/
def ofHeader (w : BitVec 256) (vc : BitVec 2) (poison : Bool) (payload : List Byte) (who : Requester) : Packet :=
  { dest := w.extractLsb' 0 16, src := w.extractLsb' 16 16, mgroup := w.extractLsb' 32 8, attach := w.extractLsb' 40 4
    holding := w.extractLsb' 44 4, op := w.extractLsb' 48 8, origVc := w.extractLsb' 56 2
    plane := if w.getLsbD 58 then .b else .a, tclass := w.getLsbD 59, escaped := w.getLsbD 60
    window := w.extractLsb' 64 4, gen := w.extractLsb' 72 8, tag := w.extractLsb' 80 16, offset := w.extractLsb' 96 32
    length := w.extractLsb' 128 13, nack := w.extractLsb' 144 8, opdata := w.extractLsb' 160 96
    vc, poison, payload, who }

/-- Body flits of a packet: ⌈LENGTH ÷ 32⌉ where it has a payload (R51). -/
def bodies (k : Packet) : Nat := (k.payload.length + 31) / 32

/-- Sideband bits [53:0] of flit i, 0 the head: TYPE, VC, POISON and LAST_BYTES (R50). -/
def side (k : Packet) (i : Nat) : BitVec 54 :=
  let last := i = k.bodies
  let type := if k.bodies = 0 then 3 else if i = 0 then 0 else if last then 2 else 1
  let lastBytes := if last && k.bodies != 0 then (k.payload.length + 31) % 32 else 0
  BitVec.ofNat 54 (lastBytes * 2 ^ 16 + k.poison.toNat * 2 ^ 4 + k.vc.toNat * 2 ^ 2 + type)

/-- A flit with its check bits, which the spec calls SEC-DED and gives no matrix of (Config.flitEcc, log 137). -/
def flit (data : BitVec 256) (side : BitVec 54) : Flit := { data, side := Config.flitEcc data side ++ side }

/-- The packet as it crosses a link: the head flit, and body flit i with payload bytes 32i to 32i + 31. -/
def flits (k : Packet) : List Flit :=
  flit k.header (k.side 0) :: (List.range k.bodies).map fun i =>
    flit (BitVec.ofNat 256 (Machine.ofLe (Machine.slice k.payload (32 * i) 32))) (k.side (i + 1))

end Packet

end Sys2Proof
end

