-- ==== Sys2Proof/Machine/Parish.lean ====
section
/-! DEFINITION. Parishes (chapter 02): power regions and trips, clocks, row maps and their switch. The tallies of a
reeve stand in Machine/Tally.lean. -/

namespace Sys2Proof.Machine
namespace State

/-- The endpoint of a packet lies in a parish: crofts by their logical number, reeves, stewards and the ledger. -/
def endpointPar (e : Nat) : Option Nat :=
  if e < 26880 then some (parOfLogical e)
  else if 0x7000 ≤ e ∧ e < 0x701C then some (parOfGate (e - 0x7000))
  else if e = 0x7100 then some 26
  else if e = 0x7101 then some 30
  else if 0x7200 ≤ e ∧ e < 0x7238 then some (e - 0x7200)
  else if e = 0x7300 then some 28
  else none

/-- An event that the reeve of a parish holds: those that it reports, but for PARISH_DEAD, which it reports before the
parish powers off (R382). -/
def heldByReeve (p : Nat) (r : Report) : Bool := reporter r == some (0x7200 + p) && r.source != 71

/-- What a parish whose rails go off loses besides its crofts (R45, R46): what its network domain holds, and the
reports its reeve holds (R382). Its links into its neighbours are down, and a packet cut off there ends in a poisoned
tail (R65). Its sensors, which no reeve reads any more, hold no alert (R23). -/
def loseParish (s : State) (p : Nat) : State :=
  let v := s.parish p
  let s := s.setParish p { v with st := .tripped, nclkLock := false, pclkLock := false, pclkMoving := false,
                                  dying := false, mapouts := [], tblWrite := none, sentSums := [] }
  let own (i : Nat) : Bool := decide (i / 4 = p ∧ i < 224)
  let warm := s.power.hot.filter fun i => !own i
  let cutOff (f : Flight) : Bool := !f.here && f.via.any fun l => parOf l.q = p
  let keep (k : Packet) : Bool := endpointPar k.src.toNat != some p
  { s with
    power := { s.power with hot := warm, thermLow := s.power.thermLow && !warm.isEmpty }
    flights := (s.flights.filter fun f => parOf f.pos != p).map fun f =>
      if cutOff f then { f with pkt := { f.pkt with poison := true } } else f
    outq := s.outq.filter keep
    inbox := s.inbox.filter fun k => endpointPar k.dest.toNat != some p
    reports := s.reports.filter fun r => !heldByReeve p r }

/-- Both rails of a parish go off and its boundary is isolated (R45, R46): its crofts are fenced too. -/
def isolate (s : State) (p : Nat) : State := (s.fenceAll (croftsOf p)).loseParish p

/-! ### Row maps (R36) -/

/-- One map-out by the three rules of R36. -/
def mapOutRow (m : W64) (col : Nat) : W64 :=
  if !bit m 30 then setFld (setFld m 30 30 1) 4 0 col
  else if fld m 4 0 = col then m
  else setFld m 31 31 1

/-- Map-outs applied in their order, and every croft that backs a logical croft no more fenced, its CRF_ID keeping
the croft it backed where the module was running (R33, R34, R36). -/
def switchRows (s : State) (p : Nat) (ms : List (Nat × Nat)) (running : Bool := true) : State :=
  let before := s.logicalOf
  let v := ms.foldl (fun v m => v.setReg (Reg.parRowmap m.1) (mapOutRow (v.reg (Reg.parRowmap m.1)) m.2)) (s.parish p)
  let t := s.setParish p { v with mapouts := [], mapped := true }
  ((croftsOf p).filter fun q => (before q).isSome && (t.logicalOf q).isNone).foldl
    (fun s q => s.onCroft q fun x => { x with c := { x.fence.c with lastId := if running then (before q).getD 0 else 0 } }) t

/-! ### Crofts of a holding (R248) -/

/-- The logical numbers of the enrolled crofts. -/
def enrolled (s : State) (h : Nat) : List Nat := (s.holdingCrofts h).filterMap s.logicalOf

/-- The site of a logical croft; none in a LOST row. -/
def siteOf (s : State) (n : Nat) : Option Site := (s.physOf n).map s.site

/-- Every carter context of the enrolled crofts is FREE; a fence has ended those of a fenced croft. -/
def allFree (s : State) (h : Nat) : Bool :=
  (s.enrolled h).all fun n => match s.siteOf n with
    | some x => x.fenced || (List.range 8).all fun i => (x.chan i).st = .free
    | none => true

/-- The step boundary of R36: between steps, in IDLE, WARM_HOLD and STOPPED, and in the restore hold of R268,
which its order 3 begins: every carter context is FREE. -/
def atBoundary (s : State) (h : Nat) : Bool :=
  let c := s.stc h
  c.st = .idle || c.st = .stopped || c.st = .warmHold || c.openPending ||
    (c.st = .restoring && c.order = 2 && bit (c.reg Reg.stcSeqCtrl) 1 && s.allFree h)

/-- No carter of the holding's crofts and no stream channel of the holding has a mesh request outstanding (R36). -/
def quiet (s : State) (h : Nat) : Bool :=
  ((s.crofts.filter fun e => s.owner (parOf e.1) = h).all fun e => (s.site e.1).outstanding = 0) &&
  (s.gates.all fun g => g.2.chans.all fun c =>
    Gate.field g.2 (Reg.gatChCfg c.1) 13 10 != h || c.2.outst.isEmpty)

/-- A write to PAR_MAPOUT: out of range it is ignored; it is applied at once in a parish of no holding, after
those that were written while a holding still owned it. -/
def writeMapout (s : State) (p : Nat) (v : W32) : State :=
  let row := fld (v.setWidth 64) 4 0
  let col := fld (v.setWidth 64) 9 5
  let par := s.parish p
  if !par.net || 19 < row || 24 < col then s
  else if 16 ≤ s.owner p then s.switchRows p (par.mapouts ++ [(row, col)])
  else s.setParish p { par with mapouts := par.mapouts ++ [(row, col)] }

/-! ### Power and clocks (R40, R41, R44) -/

/-- A write of PAR_CTRL.COMPUTE_EN. -/
def writeComputeEn (s : State) (p : Nat) (on : Bool) : State :=
  let v := s.parish p
  if !v.net then s
  else if on then
    let v := v.setField Reg.parCtrl 0 0 1
    s.setParish p { v with st := if v.st = .netOn then .computeUp else v.st }
  else
    let v := v.setField Reg.parCtrl 0 0 0
    if v.st = .computeUp ∨ v.st = .on then (s.setParish p { v with st := .netOn }).fenceAll (croftsOf p)
    else s.setParish p v

/-- The effective PCLK target (R41). -/
def pclkTarget (v : Parish) : Nat := min (v.field Reg.parPclk 4 0) (v.field Reg.parPclk 12 8)

/-- A write of PAR_PCLK.TARGET; above 25 it is ignored. -/
def writePclkTarget (s : State) (p : Nat) (w : W32) : State :=
  let v := s.parish p
  let code := fld (w.setWidth 64) 4 0
  if !v.net || 25 < code then s
  else
    let v := v.setField Reg.parPclk 4 0 code
    s.setParish p { v with pclkMoving := v.field Reg.parPclk 20 16 != pclkTarget v }

/-- PAR_PCLK.CAP as the allotment controller writes it (R348). -/
def writePclkCap (s : State) (p code : Nat) : State :=
  let v := (s.parish p).setField Reg.parPclk 12 8 code
  s.setParish p { v with pclkMoving := v.net && v.field Reg.parPclk 20 16 != pclkTarget v }

end State

/-! ### The commands -/

def execParMapoutWrite (p : Par) (v : W32) (s : State) : Host.Outcome State Fault Refusal :=
  .next (s.writeMapout p v)

/-- The switch of R36, at a step boundary of the parish's holding with no request outstanding. -/
def execRowMapSwitch (p : Par) (s : State) : Host.Outcome State Fault Refusal :=
  let v := s.parish p
  let h := s.owner p
  if v.net ∧ v.mapouts ≠ [] ∧ (16 ≤ h ∨ (s.atBoundary h ∧ s.quiet h)) then .next (s.switchRows p v.mapouts)
  else .next s

def execComputeEnSet (p : Par) (s : State) : Host.Outcome State Fault Refusal := .next (s.writeComputeEn p true)

def execComputeEnClear (p : Par) (s : State) : Host.Outcome State Fault Refusal := .next (s.writeComputeEn p false)

/-- COMPUTE_UP becomes ON. The rail has been a fencing cause of every croft until now, so FENCE stands at 1 from here on by
itself (R99), whatever croft reset the croft has had since it first read 1. -/
def execComputeRailUp (p : Par) (s : State) : Host.Outcome State Fault Refusal :=
  let v := s.parish p
  if v.st = .computeUp then
    .next ((s.setParish p { v with st := .on }).fenceAll (State.croftsOf p))
  else .next s

def execPclkTargetWrite (p : Par) (v : W32) (s : State) : Host.Outcome State Fault Refusal :=
  .next (s.writePclkTarget p v)

/-- One code towards the effective target (R40). -/
def execPclkStep (p : Par) (s : State) : Host.Outcome State Fault Refusal :=
  let v := s.parish p
  let cur := v.field Reg.parPclk 20 16
  let tgt := State.pclkTarget v
  if !v.net || cur == tgt then .next s
  else
    let cur := if cur < tgt then cur + 1 else cur - 1
    .next (s.setParish p { v.setField Reg.parPclk 20 16 cur with pclkMoving := cur != tgt })

/-- The parish stops its output at its boundary, and its neighbours treat it as a dead parish (R39). -/
def execNclkLockLoss (p : Par) (s : State) : Host.Outcome State Fault Refusal :=
  let v := s.parish p
  if v.net then .next (s.setParish p { v with nclkLock := false, dead := true }) else .next s

end Sys2Proof.Machine
end

