-- ==== Sys2Proof/Machine/Mesh.lean ====
section
/-! DEFINITION. The mesh planes (chapter 03): injection, hops by tables and by coordinates, escapes, multicast trees,
delivery, dead routers and parishes, and the NET_ tables. A packet moves whole: flits, credits and arbitration take
time and change no content (log 4). -/

namespace Sys2Proof.Machine

/-- What a router does with a unicast packet: hand it to its network interface, refuse it, let it stand, send it on,
or send it past the dead position of its croft to the router beyond, which refuses it (R67). -/
inductive Route where
  | here
  | refuse (code : Nat)
  | stand
  | go (pos : Nat) (via : Option Link)
  | beyond (pos : Nat) (via : Option Link)
deriving DecidableEq, Repr

namespace State

/-! ### Positions -/

/-- Physical row and column on the wafer, 0–139 and 0–199. -/
def gridRow (q : Nat) : Nat := 20 * (parOf q / 8) + q % 500 / 25
def gridCol (q : Nat) : Nat := 25 * (parOf q % 8) + q % 25
/-- The physical croft at a row and column. -/
def atGrid (r c : Nat) : Nat := 500 * (8 * (r / 20) + c / 25) + 25 * (r % 20) + c % 25

/-- The router of a plane is dead (R66). -/
def routerDead (s : State) (q : Nat) (pl : Plane) : Bool := s.deadR.contains (2 * q + planeCode pl)

/-- The neighbours treat a parish as dead: it is off, tripped, dead by R69 from the death of its routers on, or has
lost its NCLK lock (R39). -/
def parDown (s : State) (p : Nat) : Bool := !(s.parish p).net || (s.parish p).dead || (s.parish p).dying

/-- A fixed attach router of steward, reeve or ledger, or the next if that router is dead (R53). -/
def attachOr (s : State) (pl : Plane) (p r c r' c' : Nat) : Nat :=
  let q := 500 * p + 25 * r + c
  if s.routerDead q pl then 500 * p + 25 * r' + c' else q

/-- The router of attach point att of a gate (R53). -/
def gateRouter (g att : Nat) : Nat := 500 * parOfGate g + 25 * (2 + 5 * (att / 3)) + (4 + 8 * (att % 3))

/-- The first attach point from att on, ascending modulo 12, whose router is alive on a plane (R297). -/
def liveAttach (s : State) (g att : Nat) (pl : Plane) : Option Nat :=
  ((List.range 12).map fun i => (att + i) % 12).find? fun a => !s.routerDead (gateRouter g a) pl

/-- The router to which an endpoint attaches on a plane (R53, R297). -/
def attachOf (s : State) (e att : Nat) (pl : Plane) : Option Nat :=
  if e < 26880 then s.physOf e
  else if 0x7000 ≤ e ∧ e < 0x701C then (s.liveAttach (e - 0x7000) att pl).map (gateRouter (e - 0x7000))
  else if e = 0x7100 then some (s.attachOr pl 26 9 12 10 12)
  else if e = 0x7101 then some (s.attachOr pl 30 9 12 10 12)
  else if 0x7200 ≤ e ∧ e < 0x7238 then some (s.attachOr pl (e - 0x7200) 1 12 1 13)
  else if e = 0x7300 then some (s.attachOr pl 28 9 12 10 12)
  else none

/-- The operations that a requester sends and that are answered (R51). -/
def requestOp (k : Packet) : Bool :=
  k.op == 0x01 || k.op == 0x02 || k.op == 0x06 || k.op == 0x12 || k.op == 0x13

/-- The router at which a packet is injected: a gate's own request at the attach point that its TAG names, the gate's
other packets at its first live one (R297, log 4). -/
def sourceOf (s : State) (k : Packet) : Option Nat :=
  let e := k.src.toNat
  let gateReq := 0x7000 ≤ e && e < 0x701C && requestOp k
  s.attachOf e (if gateReq then bitsOf k.tag.toNat 15 12 else 0) k.plane

/-! ### Tables (R59, R73) -/

/-- The index of an entry: router within the parish, plane, table, destination parish. -/
def hopIndex (router plane table entry : Nat) : Nat := ((router * 2 + plane) * 2 + table) * 64 + entry

/-- The default of both tables: plane A takes the column first, plane B the row; 0 N, 1 E, 2 S, 3 W, 4 LOCAL. -/
def hopDefault (p idx : Nat) : Nat :=
  let d := idx % 64
  let plane := idx / 128 % 2
  let ew := if p % 8 < d % 8 then 1 else 3
  let ns := if p / 8 < d / 8 then 2 else 0
  if d = p then 4
  else if plane = 0 then (if d % 8 ≠ p % 8 then ew else ns)
  else (if d / 8 ≠ p / 8 then ns else ew)

def hop (s : State) (p idx : Nat) : Nat := Tab.get (hopDefault p) (s.parish p).hops idx

def setHops (p : Nat) (v : Parish) (dir : Nat) (idxs : List Nat) : Parish :=
  { v with hops := idxs.foldl (fun t i => Tab.set (hopDefault p) t i dir) v.hops }

def group (s : State) (p g : Nat) : Group := Tab.get (fun _ => ({} : Group)) (s.parish p).groups g

end State

/-- A multicast group's fields (R61). -/
def Group.x0 (g : Group) : Nat := bitsOf g.lo.toNat 7 0
def Group.x1 (g : Group) : Nat := bitsOf g.lo.toNat 15 8
def Group.y0 (g : Group) : Nat := bitsOf g.lo.toNat 23 16
def Group.y1 (g : Group) : Nat := bitsOf g.lo.toNat 31 24
def Group.xstep (g : Group) : Nat := bitsOf g.hi.toNat 3 0 + 1
def Group.ystep (g : Group) : Nat := bitsOf g.hi.toNat 7 4 + 1
def Group.valid (g : Group) : Bool := bitsOf g.hi.toNat 31 31 = 1

def Group.rowIn (g : Group) (y : Nat) : Bool := g.y0 ≤ y && y ≤ g.y1 && (y - g.y0) % g.ystep == 0

/-- Logical croft n is a member of a group. -/
def Group.member (g : Group) (n : Nat) : Bool :=
  g.valid && g.rowIn (n / 192) && g.x0 ≤ n % 192 && n % 192 ≤ g.x1 && (n % 192 - g.x0) % g.xstep == 0

/-- An entry as a commit leaves it: VALID forced to 0 where its bounds are no rectangle of the grid. -/
def Group.commit (lo hi : W32) : Group :=
  let g : Group := { lo, hi := hi &&& 0x80000FFF }
  if g.x1 < g.x0 ∨ g.y1 < g.y0 ∨ 191 < g.x1 ∨ 139 < g.y1 then { g with hi := g.hi &&& 0x00000FFF } else g

namespace State

/-- NET_STATUS.TBL_BUSY. -/
def tblBusy (v : Parish) : Bool := v.tblWrite.isSome

/-- A write of NET_TBL_SEL, NET_MCAST_SEL or a data register is ignored while TBL_BUSY is 1 (R73). -/
def writeTblData (s : State) (p : Nat) (w : W32) : State :=
  let v := s.parish p
  let sel := v.reg Reg.netTblSel
  let dir := bitsOf w.toNat 2 0
  if !v.net || tblBusy v || 4 < dir || 19 < fld sel 21 17 || 24 < fld sel 16 12 || 55 < fld sel 5 0 then s
  else s.setParish p { v with tblWrite := some (.hop (sel.setWidth 32) (BitVec.ofNat 3 dir)) }

def writeMcastHi (s : State) (p : Nat) (w : W32) : State :=
  let v := s.parish p
  if !v.net || tblBusy v then s
  else
    let entry := TblWrite.group (v.field Reg.netMcastSel 7 0) ((v.reg Reg.netMcastLo).setWidth 32) (w &&& 0x80000FFF)
    s.setParish p { v with tblWrite := some entry }

/-- The entries that NET_TBL_SEL selects. -/
def selected (sel : W32) : List Nat :=
  let v := sel.setWidth 64
  let one r := hopIndex r (fld v 30 30) (fld v 29 29) (fld v 5 0)
  if bit v 31 then (List.range 500).map one else [one (25 * fld v 21 17 + fld v 16 12)]

/-! ### Refusals (R71) -/

/-- A request to one endpoint. -/
def isRequest (k : Packet) : Bool := k.dest != 0xFFFF && requestOp k

/-- A packet refused at a router: a request draws a NACK from there, any other packet is gone. -/
def refuseAt (s : State) (k : Packet) (code pos : Nat) : State :=
  if isRequest k then { s with flights := s.flights ++ [{ pkt := s.sign (nackTo k code), pos }] } else s

/-- A packet refused at its own source, whatever its operation: the NACK reaches its own unit from its own network
interface (R53, R54). -/
def refuseHome (s : State) (k : Packet) (code : Nat) : State :=
  { s with inbox := s.inbox ++ [s.sign (nackTo k code)] }

/-- The channels of R54 allow the packet. -/
def channelOk (k : Packet) : Bool :=
  if k.op = 0x01 then (if k.dest = 0xFFFF then k.vc = 2 && k.plane = .b else k.vc = 0)
  else if k.op = 0x02 ∨ k.op = 0x06 then k.vc = 0
  else if k.op = 0x03 ∨ k.op = 0x04 ∨ k.op = 0x05 then k.vc = 1
  else if k.op = 0x10 ∨ k.op = 0x11 ∨ k.op = 0x12 ∨ k.op = 0x13 ∨ k.op = 0x14 then k.vc = 3
  else true

/-- DEST names an endpoint, and ATTACH is one of the twelve points for a gate and zero otherwise (R52, R53). -/
def destOk (k : Packet) : Bool :=
  let e := k.dest.toNat
  let isGate := 0x7000 ≤ e && e < 0x701C
  (endpointPar e).isSome && (if isGate then k.attach.toNat < 12 else k.attach == 0) ||
    e == 0xFFFF && k.op == 0x01 && k.attach == 0

/-- LENGTH lies in the range of R51 for the operation. -/
def lengthOk (k : Packet) : Bool :=
  let l := k.length.toNat
  if k.op = 0x01 ∨ k.op = 0x03 then 1 ≤ l && l ≤ 512
  else if k.op = 0x02 then 1 ≤ l && l ≤ 4096
  else l == 0

/-- The operation is one of R54. -/
def opKnown (k : Packet) : Bool :=
  k.op.toNat ∈ [0x01, 0x02, 0x03, 0x04, 0x05, 0x06, 0x10, 0x11, 0x12, 0x13, 0x14]

/-- An earlier packet of its flow waits at the network interface of its source (R60). -/
def waitsBehind (s : State) (k : Packet) : Bool := (s.outq.takeWhile fun j => j != k).any (sameFlow k)

/-- Flight i would pass an earlier packet of its flow: at a router one that is there too, at its endpoint any that has not
arrived, by another attach point among them. One that has escaped or been detoured has left the order (R60). -/
def wouldPass (s : State) (i : Nat) (f : Flight) : Bool :=
  let free (g : Flight) : Bool := g.pkt.escaped || g.detoured
  (s.flights.take i).any fun g =>
    sameFlow f.pkt g.pkt && (f.here || g.pos == f.pos && !g.here) && !free f && !free g

/-- The last flit of a packet leaves its network interface: the bytes of a multicast WRITE are complete (R242). -/
def castLeft (s : State) (k : Packet) : State :=
  let counted (c : Chan) (gen : BitVec 4) : Chan :=
    if c.gen = gen ∧ c.st ≠ .free then { c with bytes := c.bytes + k.length.toNat } else c
  match k.who with
  | .castCarter q c gen => s.onCroft q fun x => x.setChan c (counted (x.chan c) gen)
  | .castGate g c gen => s.setGate g ((s.gate g).setChan c (counted ((s.gate g).chan c) gen))
  | _ => s

/-- What the network interface of a source does with a packet: refuse, drop a multicast WRITE to an entry that is
not VALID (R61), or put it on the mesh, its channel in ORIG_VC (R52). A packet whose source backs no croft (a LOST row), has a dead router on its
plane, or lies in a parish whose network domain is off is gone without an answer: DESIGN CHOICE (log 128). -/
def inject (s : State) (k : Packet) : State :=
  let s := { s with outq := s.outq.erase k }
  match s.sourceOf k with
  | none => s
  | some pos =>
    let p := parOf pos
    if !(s.parish p).net || s.routerDead pos k.plane then s
    else if !destOk k || !channelOk k then s.refuseHome k 0x0C
    else if k.dest = 0xFFFF ∧ !(s.group p k.mgroup.toNat).valid then
      s.setParish p ((s.parish p).count Reg.netMcastDrop 1)
    else { s.castLeft k with flights := s.flights ++ [{ pkt := { k with origVc := k.vc, escaped := false }, pos }] }

/-! ### Links -/

/-- The link from router q one step in a direction. -/
def linkFrom (q : Nat) (pl : Plane) (d : Dir) (skip : Bool) : Link := { q, plane := pl, dir := d, skip }

/-- The position n steps away; none off the wafer. -/
def stepTo (q : Nat) (d : Dir) (n : Nat) : Option Nat :=
  let r := gridRow q
  let c := gridCol q
  match d with
  | .n => if n ≤ r then some (atGrid (r - n) c) else none
  | .s => if r + n < 140 then some (atGrid (r + n) c) else none
  | .w => if n ≤ c then some (atGrid r (c - n)) else none
  | .e => if c + n < 200 then some (atGrid r (c + n)) else none

/-- The router at a link's other end; none off the wafer. -/
def linkEnd (l : Link) : Option Nat := stepTo l.q l.dir (if l.skip then 2 else 1)

/-- The link crosses a stitched boundary between two parishes. -/
def stitched (_ : State) (l : Link) : Bool := (linkEnd l).any fun t => parOf t != parOf l.q

/-! ### Flit errors (R42, R64) -/

/-- Times of the last millisecond. -/
def recent (now : Nat) (ts : List Nat) : List Nat := ts.filter fun t => now < t + 1000000

/-- The effect of what a check finds on a packet that arrived over a link at a router of parish p; none when the
packet is discarded. A packet that came over no link with a location code (at its source's router, or over border lanes)
counts against none, and raises nothing: R64 and R381 name no location for it, DESIGN CHOICE (log 147). -/
def checkFlits (s : State) (p : Nat) (via : Option Link) (k : Packet) (e : FlitErr) : State × Option Packet :=
  let now := s.clock.now
  match e with
  | .none => (s, some k)
  | .slip =>
    match via with
    | some l => (if s.stitched l then s.raise 66 (locLink l) 0 (packetOpcode k) (some k.tclass) else s, some k)
    | none => (s, some k)
  | .corrected n =>
    let s := s.setParish p ((s.parish p).count Reg.netErrCorr n)
    match via with
    | none => (s, some k)
    | some l =>
      let ts := recent now (Tab.get (fun _ => []) s.linkCorr (linkCode l)) ++ List.replicate n now
      let s := { s with linkCorr := Tab.set (fun _ => []) s.linkCorr (linkCode l) ts }
      let s := if (s.parish p).field Reg.netCfg 23 16 < ts.length then
        s.raise 64 (locLink l) (BitVec.ofNat 64 ts.length) (packetOpcode k) (some k.tclass) else s
      (s, some k)
  | .uncorrBody =>
    let s := s.setParish p ((s.parish p).count Reg.netErrUncorr 1)
    let s := match via with
      | none => s
      | some l => { s with linkUnc := Tab.set (fun _ => []) s.linkUnc (linkCode l)
                              (recent now (Tab.get (fun _ => []) s.linkUnc (linkCode l)) ++ [now]) }
    (s, some { k with poison := true })
  | .uncorrHead =>
    match via with
    | none => (s, none)
    | some l =>
      let ts := recent now (Tab.get (fun _ => []) s.linkUnc (linkCode l)) ++ [now]
      ({ s with linkUnc := Tab.set (fun _ => []) s.linkUnc (linkCode l) ts }.raise 65 (locLink l)
        (BitVec.ofNat 64 ts.length) (packetOpcode k), none)

/-! ### Unicast hops (R59, R67, R68, R70) -/

/-- A position on the outer ring of its parish. -/
def onRing (q : Nat) : Bool :=
  let r := q % 500 / 25
  let c := q % 25
  r == 0 || r == 19 || c == 0 || c == 24

/-- Rows or columns of a parish in a direction. -/
def span : Dir → Nat
  | .n | .s => 20
  | .e | .w => 25

/-- Where a packet on a straight leg comes to next, and the link it takes: the neighbour, the router beyond a dead
one by skip link, or the edge router of the opposite neighbour round a dead parish by border lanes. A dead router of an
outer ring is never passed by skip link (R69). -/
def straight (s : State) (q : Nat) (pl : Plane) (d : Dir) : Option (Nat × Option Link) :=
  match stepTo q d 1 with
  | none => none
  | some t =>
    if parOf t ≠ parOf q ∧ s.parDown (parOf t) then
      match stepTo q d (span d + 1) with
      | some u => if s.parDown (parOf u) then none else some (u, none)
      | none => none
    else if s.routerDead t pl then
      if onRing t then none
      else match stepTo q d 2 with
      | some u => some (u, some (linkFrom q pl d true))
      | none => none
    else some (t, some (linkFrom q pl d false))

/-- A link carries flits: it is not marked down, and neither of its ends is isolated (R65). -/
def linkUp (s : State) (l : Link) : Bool :=
  !s.linksDown.contains l && (s.parish (parOf l.q)).net && (linkEnd l).any fun t => (s.parish (parOf t)).net

/-- The direction of the first leg inside the destination parish, from (r, c) to (r', c'): along the row first on
plane A, along the column first on plane B; and that of the second leg. -/
def legs (pl : Plane) (r c r' c' : Nat) : Option Dir × Option Dir :=
  let h := if c < c' then some Dir.e else if c' < c then some Dir.w else none
  let v := if r < r' then some Dir.s else if r' < r then some Dir.n else none
  match pl with
  | .a => (h, v)
  | .b => (v, h)

/-- Inside the destination parish: the next direction. Before a dead turn router the packet turns first (R68). A turn
position of which the other plane's router alone is dead is passed as usual, its router on the packet's plane being
alive (R66): DEDUCED (log 149). -/
def innerDir (s : State) (q t : Nat) (pl : Plane) : Option Dir :=
  match legs pl (gridRow q) (gridCol q) (gridRow t) (gridCol t) with
  | (none, d) => d
  | (some d, none) => some d
  | (some d, some d') =>
    match stepTo q d 1 with
    | none => some d
    | some u =>
      let atTurn := match pl with
        | .a => gridCol u == gridCol t
        | .b => gridRow u == gridRow t
      if atTurn && s.routerDead u pl then some d' else some d

/-- Move flight i to a position over a link; a link that is down loses the packet (R65). No link is the border lanes. -/
def moveFlight (s : State) (i : Nat) (f : Flight) (k : Packet) (dst : Nat) (via : Option Link) : State :=
  let lost := match via with
    | some l => !s.linkUp l
    | none => false
  let aside := match via with
    | some l => l.skip
    | none => true
  if lost then { s with flights := s.flights.eraseIdx i }
  else { s with flights := s.flights.set i { f with pkt := k, pos := dst, via, detoured := f.detoured || aside } }

/-- The dead or absent place that a packet meets: its destination lies in a parish that is down (R70, R71). -/
def meetsDown (s : State) (q : Nat) (d : Dir) (k : Packet) : Bool :=
  match stepTo q d 1 with
  | some t => parOf t ≠ parOf q && s.parDown (parOf t) && endpointPar k.dest.toNat == some (parOf t)
  | none => false

def dirOf (n : Nat) : Option Dir :=
  match n with
  | 0 => some .n | 1 => some .e | 2 => some .s | 3 => some .w | _ => none

/-- A parish that has lost its NCLK lock sends nothing over its boundary (R39). -/
def outputStopped (s : State) (p : Nat) : Bool := (s.parish p).dead

/-- What a router does with a unicast packet to send it one step in a direction. -/
def routeTowards (s : State) (q : Nat) (k : Packet) (d : Dir) : Route :=
  if s.meetsDown q d k then .refuse 0x08
  else match s.straight q k.plane d with
    | some (t, via) => if parOf t ≠ parOf q ∧ s.outputStopped (parOf q) then .stand else .go t via
    | none => .stand

/-- What a router in the destination parish does with a packet for position t (R35, R66 to R68). A croft of a dead
position is reached on neither plane: on the plane of the dead router the packet skips past it to the router beyond,
and on the other the position's own router refuses it, MISROUTED too (DESIGN CHOICE, log 129). Nothing passes a dead
position of the outer ring by skip link: before it a packet stands until its parish is isolated (R69). -/
def routeInside (s : State) (q t : Nat) (k : Packet) : Route :=
  let croft : Bool := k.dest.toNat < 26880
  if q = t then (if croft && s.deadPos t then .refuse 0x02 else .here)
  else match s.innerDir q t k.plane with
    | none => .stand
    | some d =>
      if croft ∧ stepTo q d 1 = some t ∧ s.routerDead t k.plane then
        if onRing t then .stand
        else match stepTo q d 2 with
          | some u => .beyond u (some (linkFrom q k.plane d true))
          | none => .stand
      else s.routeTowards q k d

/-- Where a packet inside its destination parish goes: a croft's position is the one that the first router there
translated it into (R35). -/
def aimOf (s : State) (k : Packet) (aim : Option Nat) : Option Nat :=
  match aim with
  | some t => some t
  | none => s.attachOf k.dest.toNat k.attach.toNat k.plane

/-- The table of R59 that a packet follows: 1 ESCAPE, which the control channel takes, 0 NEXT_HOP. -/
def tableOf (k : Packet) : Nat := if k.vc = 3 then 1 else 0

/-- The two levels of R59. An entry that says LOCAL for another parish names no output: the packet stands, DESIGN
CHOICE (log 130). -/
def route (s : State) (q : Nat) (k : Packet) (aim : Option Nat) : Route :=
  match endpointPar k.dest.toNat with
  | none => .refuse 0x0C
  | some pd =>
    if pd ≠ parOf q then
      match dirOf (s.hop (parOf q) (hopIndex (q % 500) (planeCode k.plane) (tableOf k) pd)) with
      | some d => s.routeTowards q k d
      | none => .stand
    else match s.aimOf k aim with
      | none => .refuse (if k.dest.toNat < 26880 then 0x01 else 0x0B)
      | some t => s.routeInside q t k

/-- The flight with the position that the first router of the destination parish has found for a croft (R35). -/
def aimed (s : State) (f : Flight) (k : Packet) : Flight :=
  if k.dest.toNat < 26880 ∧ endpointPar k.dest.toNat = some (parOf f.pos) then { f with aim := s.aimOf k f.aim } else f

/-- One hop of a unicast packet. -/
def hopUnicast (s : State) (i : Nat) (f : Flight) (k : Packet) : State :=
  let f := s.aimed f k
  match s.route f.pos k f.aim with
  | .here => { s with flights := s.flights.set i { f with pkt := k, here := true } }
  | .refuse code => { s with flights := s.flights.eraseIdx i }.refuseAt k code f.pos
  | .stand => s
  | .go t via => s.moveFlight i f k t via
  | .beyond t via => s.moveFlight i { f with here := true } k t via

/-- A packet from router q reaches its endpoint within n hops over links that are up. -/
def routesTo (s : State) (k : Packet) : Nat → Nat → Bool
  | 0, _ => false
  | n + 1, q =>
    match s.route q k none with
    | .here => true
    | .go t via => (via.all s.linkUp) && s.routesTo k n t
    | _ => false

/-! ### Multicast trees (R62, R68, R425) -/

/-- The copies that leave a router for its outputs, the network interface's own among them. -/
def branches (s : State) (f : Flight) (k : Packet) : List Flight :=
  let q := f.pos
  let g := s.group (parOf q) k.mgroup.toNat
  let y := gridRow q
  let c := gridCol q
  let east := 25 * (g.x1 / 24) + 24
  let west := 25 * (g.x0 / 24)
  let open_ (l : Option Link) : Bool := l.all s.linkUp
  let stopped (t : Nat) : Bool := parOf t != parOf q && s.outputStopped (parOf q)
  let via (x : Option (Nat × Option Link)) (leg : Nat) (home : Option Nat) : List Flight :=
    match x with
    | some (t, l) => if open_ l && !stopped t then [{ pkt := k, pos := t, leg, via := l, home }] else []
    | none => []
  -- over two links, the second from the corner u
  let corner (l : Link) (u : Nat) (l' : Link) (t leg : Nat) (home : Option Nat) : List Flight :=
    if s.linkUp l && s.linkUp l' && !stopped u && !stopped t then [{ pkt := k, pos := t, leg, via := some l', home }]
    else []
  -- a trunk meets a dead router: one column aside, and back in the row after
  let trunk (d : Dir) (leg : Nat) : List Flight :=
    match f.home with
    | some h =>
      match stepTo q d 1 with
      | some u =>
        let back : Dir := if h < gridCol q then .w else .e
        corner (linkFrom q .b d false) u (linkFrom u .b back false) (atGrid (gridRow u) h) leg none
      | none => []
    | none =>
      match stepTo q d 1 with
      | none => []
      | some t =>
        if s.routerDead t .b ∧ !s.parDown (parOf t) then
          let side : Dir := if c % 25 = 23 then .w else .e
          match stepTo q side 1 with
          | some u => corner (linkFrom q .b side false) u (linkFrom u .b d false) (atGrid (gridRow t) (gridCol u)) leg (some c)
          | none => []
        else via (s.straight q .b d) leg none
  let onTrunk := f.leg ≤ 2
  let north := if onTrunk ∧ f.leg ≠ 2 ∧ g.y0 < y then trunk .n 1 else []
  let south := if onTrunk ∧ f.leg ≠ 1 ∧ y < g.y1 then trunk .s 2 else []
  let inRow := if onTrunk then g.rowIn y else true
  let toEast := if inRow ∧ (onTrunk ∨ f.leg = 4) ∧ c < east then via (s.straight q .b .e) 4 none else []
  let toWest := if inRow ∧ (onTrunk ∨ f.leg = 5) ∧ west < c then via (s.straight q .b .w) 5 none else []
  let mine := match s.logicalOf q with
    | some n => if inRow && g.member n && !s.deadPos q then [{ f with pkt := k, here := true }] else []
    | none => []
  if g.valid then mine ++ north ++ south ++ toEast ++ toWest else []

/-- A copy passes the croft of a dead position, a member that cannot accept it (R63, R66). -/
def deadMember (s : State) (f : Flight) (k : Packet) : Bool :=
  let g := s.group (parOf f.pos) k.mgroup.toNat
  s.deadPos f.pos && (s.logicalOf f.pos).any fun n => g.member n && (2 < f.leg || g.rowIn (gridRow f.pos))

/-- One hop of a multicast packet: its copies in its place. -/
def hopMulticast (s : State) (i : Nat) (f : Flight) (k : Packet) : State :=
  let p := parOf f.pos
  let t := { s with flights := s.flights.eraseIdx i ++ s.branches f k }
  if s.deadMember f k then t.setParish p ((t.parish p).count Reg.netMcastDrop 1) else t

/-! ### Dead routers and parishes (R65 to R69) -/

/-- Two positions of one parish touch, orthogonally or diagonally. -/
def touching (a b : Nat) : Bool :=
  parOf a == parOf b && a != b &&
    (a % 500 / 25 ≤ b % 500 / 25 + 1 && b % 500 / 25 ≤ a % 500 / 25 + 1) && (a % 25 ≤ b % 25 + 1 && b % 25 ≤ a % 25 + 1)

/-- Dead positions of a parish, each once. -/
def deadPositions (s : State) (p : Nat) : List Nat := (croftsOf p).filter s.deadPos

/-- R69 holds for the parish. -/
def parishDeadByRouters (s : State) (p : Nat) : Bool :=
  let ds := s.deadPositions p
  ds.any fun a => onRing a || ds.any (touching a)

/-- PARISH_DEAD where R69 now holds of a parish. -/
def checkParish (s : State) (p : Nat) : State :=
  let v := s.parish p
  if s.parishDeadByRouters p && !v.dying then (s.setParish p { v with dying := true }).raise 71 (locParish p) else s

/-- A router is marked dead: its croft is fenced and ROUTER_DEAD is raised. -/
def markRouter (s : State) (q : Nat) (pl : Plane) : State :=
  if s.routerDead q pl || !(s.parish (parOf q)).net then s
  else
    let s := { s with deadR := s.deadR ++ [2 * q + planeCode pl] }
    (s.onCroft q Site.fence).raise 67 (locRouter q (planeCode pl))

/-- A router dies during operation: PARISH_DEAD is raised too where R69 now holds. -/
def markDead (s : State) (q : Nat) (pl : Plane) : State :=
  if s.routerDead q pl || !(s.parish (parOf q)).net then s else (s.markRouter q pl).checkParish (parOf q)

/-- Mark a link down until the next bring-up. A packet that came over it and is still at its receiving router has
been cut off there and ends in a poisoned tail (R65; log 4). -/
def downLink (s : State) (l : Link) : State :=
  if s.linksDown.contains l then s
  else
    { s with
      linksDown := s.linksDown ++ [l]
      flights := s.flights.map fun f => if f.via = some l ∧ !f.here then { f with pkt := { f.pkt with poison := true } } else f }

/-! ### Delivery -/

/-- A packet in the hands of its endpoint: a summary and a tally call where the step controllers and the reeve take
them; a fault report and a heartbeat with nothing more than their arrival, which FAULT_REPORT and HEARTBEAT_TIMEOUT
stand for; a shadow record refused for the mesh's sake goes out again; any other in the inbox. -/
def handIn (s : State) (k : Packet) : State :=
  match k.who with
  | .summary h m => { s with summaries := s.summaries ++ [(h, m)] }
  | .tallyCall p step => { s with calls := s.calls ++ [(p, step)] }
  | .report _ | .heartbeat _ => s
  | .shadow n =>
    if k.op ≠ 0x05 then { s with inbox := s.inbox ++ [k] }
    else if s.shadows.any fun d => d.num = n && !d.applied then s.emit [s.shadowPacket n] else s
  | _ => { s with inbox := s.inbox ++ [k] }

/-- What the network interface of the destination does with a packet. A multicast copy is handed to its croft under
the croft's number, its ORIG_VC still the stream channel; a poisoned or over-long one is discarded here and not counted
in NET_MCAST_DROP, no member having refused it: DESIGN CHOICE (log 148). Where several of its checks fail the spec gives no order: the
model asks for the croft's number (MISROUTED), then for POISON, an unknown OP, LENGTH, and a fenced unit: DESIGN CHOICE
(log 131). -/
def deliver (s : State) (i : Nat) (f : Flight) (k : Packet) : State :=
  let s := { s with flights := s.flights.eraseIdx i }
  let q := f.pos
  let e := k.dest.toNat
  let stewardLost := (e == 0x7100 && (s.steward 0).heldReset) || (e == 0x7101 && (s.steward 1).heldReset)
  let gateLost := 0x7000 ≤ e && e < 0x701C && (s.gate (e - 0x7000)).lost
  if k.dest = 0xFFFF then
    match s.logicalOf q with
    | some n =>
      if k.poison || !lengthOk k then s
      else { s with inbox := s.inbox ++ [{ k with dest := BitVec.ofNat 16 n }] }
    | none => s
  else if e < 26880 ∧ s.logicalOf q ≠ some e then (s.refuseAt k 0x02 q).raise 68 (BitVec.ofNat 32 q) 0 (packetOpcode k) (some k.tclass)
  else if k.poison ∧ (isRequest k ∨ !(k.op = 0x03 ∨ k.op = 0x04 ∨ k.op = 0x05 ∨ k.op = 0x14)) then s.refuseAt k 0x09 q
  else if !opKnown k then { s with flights := s.flights ++ [{ pkt := s.sign (nackTo k 0x0C), pos := q }] }
  else if !lengthOk k then s.refuseAt k 0x0C q
  else if stewardLost || gateLost then s.refuseAt k 0x0B q
  else s.handIn k

end State

/-! ### The commands -/

/-- The network interface of the source takes a packet, unless an earlier one of its flow waits (R60). -/
def execPacketInject (k : Packet) (s : State) : Host.Outcome State Fault Refusal :=
  checked k.wellFormed (if s.waitsBehind k then s else s.inject k)

/-- A router receives packet i, checks its flits and forwards it; it stays behind an earlier one of its flow (R60). -/
def execPacketHop (i : Nat) (err : FlitErr) (s : State) : Host.Outcome State Fault Refusal :=
  match s.flights[i]? with
  | none => .next s
  | some f =>
    if f.here || !(s.parish (State.parOf f.pos)).net || s.wouldPass i f then .next s
    else match s.checkFlits (State.parOf f.pos) f.via f.pkt err with
      | (s, none) => .next { s with flights := s.flights.eraseIdx i }
      | (s, some k) => if k.dest = 0xFFFF then .next (s.hopMulticast i f k) else .next (s.hopUnicast i f k)

/-- The packet moves to the control channel and follows the ESCAPE tables from here (R57). A multicast copy, for which
there is no ESCAPE entry, stays on its tree: DESIGN CHOICE (log 132). -/
def execEscape (i : Nat) (s : State) : Host.Outcome State Fault Refusal :=
  match s.flights[i]? with
  | none => .next s
  | some f =>
    if f.here || f.pkt.vc == 3 then .next s
    else
      let p := State.parOf f.pos
      let s := s.setParish p ((s.parish p).count Reg.netEscapes 1)
      .next { s with flights := s.flights.set i { f with pkt := { f.pkt with vc := 3, escaped := true } } }

def execPacketDeliver (i : Nat) (err : FlitErr) (s : State) : Host.Outcome State Fault Refusal :=
  match s.flights[i]? with
  | none => .next s
  | some f =>
    if !f.here || s.wouldPass i f then .next s
    else match s.checkFlits (State.parOf f.pos) f.via f.pkt err with
      | (s, none) => .next { s with flights := s.flights.eraseIdx i }
      | (s, some k) => .next (s.deliver i f k)

/-- A live router sends a pulse on each link. -/
def execLivenessPulse (q : Phys) (plane : Plane) (s : State) : Host.Outcome State Fault Refusal :=
  if s.routerDead q plane ∨ !(s.parish (State.parOf q)).net then .next s
  else .next { s with pulses := Tab.set (fun _ => 0) s.pulses (2 * q + State.planeCode plane) s.clock.now }

def execLinkDown (l : Link) (s : State) : Host.Outcome State Fault Refusal := .next (s.whenUp fun s => s.downLink l)

def execRouterDead (q : Phys) (plane : Plane) (s : State) : Host.Outcome State Fault Refusal :=
  .next (s.markDead q plane)

/-- The reeve that holds PARISH_DEAD has it acknowledged, or 50 µs have passed (R69). -/
def execParishDeadIsolate (p : Par) (s : State) : Host.Outcome State Fault Refusal :=
  if (s.parish p).dying then .next (s.isolate p) else .next s

def execNetTblDataWrite (p : Par) (v : W32) (s : State) : Host.Outcome State Fault Refusal :=
  .next (s.writeTblData p v)

def execNetMcastHiWrite (p : Par) (v : W32) (s : State) : Host.Outcome State Fault Refusal :=
  .next (s.writeMcastHi p v)

/-- The write that TBL_BUSY shows has taken effect in every router that it selects. -/
def execTblApplied (p : Par) (s : State) : Host.Outcome State Fault Refusal :=
  let v := s.parish p
  match v.tblWrite with
  | none => .next s
  | some (.hop sel dir) =>
    .next (s.setParish p { State.setHops p v dir.toNat (State.selected sel) with tblWrite := none })
  | some (.group g lo hi) =>
    let t := Tab.set (fun _ => ({} : Group)) v.groups g (Group.commit lo hi)
    .next (s.setParish p { v with tblWrite := none, groups := t })

end Sys2Proof.Machine
end

