-- ==== Sys2Proof/Machine/Carter.lean ====
section
/-! DEFINITION. The carter (chapter 10): instruction fetch, MOVE and RESHUFFLE, loops, waits, signals and END. A MOVE
command issues every piece of its transfer that the limits of R233 and R234 allow; where some are left, a further MOVE
command goes on with them. -/

namespace Sys2Proof.Machine

/-! ### The pieces of a transfer -/

namespace Moving

/-- Bytes of one plane or stream, on the strided side. -/
def segLen (m : Moving) : Nat :=
  if m.rsOp = 1 ∨ m.rsOp = 2 then m.len / m.width else if m.rsOp = 0 then m.len else m.len / m.streams

/-- The destination offset of output byte p. -/
def dstAt (m : Moving) (p : Nat) : Nat :=
  let o := if m.rsOp = 1 ∨ m.rsOp = 4 then p / m.segLen * m.pstride + p % m.segLen else p
  (m.dstOff + o) % 2 ^ 32

/-- Source bytes that output byte p is made of, as offsets. -/
def sources (m : Moving) (p : Nat) : List Nat :=
  let at_ (o : Nat) : Nat := (m.srcOff + o) % 2 ^ 32
  match m.rsOp with
  | 1 => (List.range m.width).map fun t => at_ (p % m.segLen * m.width + t)
  | 2 => (List.range 8).map fun t =>
      let b := 8 * p + t
      at_ (b % m.width * m.pstride + b / m.width / 8)
  | 3 =>
    let g := p / m.gran
    [at_ (g % m.streams * m.pstride + g / m.streams * m.gran + p % m.gran)]
  | 4 =>
    let s := p / m.segLen
    let r := p % m.segLen
    [at_ ((r / m.gran * m.streams + s) * m.gran + r % m.gran)]
  | _ => [at_ p]

/-- A byte whose bit t is f t. -/
def byteOf (f : Nat → Bool) : Byte := BitVec.ofNat 8 ((List.range 8).map fun t => if f t then 2 ^ t else 0).sum

/-- Output byte p from its source bytes (R238, R239). -/
def outByte (m : Moving) (p : Nat) (bs : List Byte) : Byte :=
  match m.rsOp with
  | 1 =>
    let j := p / m.segLen
    byteOf fun t => (bs.getD ((t * m.width + j) / 8) 0).getLsbD ((t * m.width + j) % 8)
  | 2 => byteOf fun t => (bs.getD t 0).getLsbD ((8 * p + t) / m.width % 8)
  | _ => bs.getD 0 0

/-- The contiguous ranges of the source or destination side: offset and length. -/
def ranges (m : Moving) (dst : Bool) : List (Nat × Nat) :=
  let strided := if dst then m.rsOp = 1 ∨ m.rsOp = 4 else m.rsOp = 2 ∨ m.rsOp = 3
  let o := if dst then m.dstOff else m.srcOff
  if strided then
    (List.range (m.len / m.segLen)).map fun j => ((o + j * m.pstride) % 2 ^ 32, m.segLen)
  else [(o % 2 ^ 32, m.len)]

/-- Bytes of the piece at p, for a destination that takes at most `most` at a time, none crossing a multiple of it. -/
def pieceLen (m : Moving) (most : Nat) : Nat :=
  let p := m.next
  let seg := if m.rsOp = 1 ∨ m.rsOp = 4 then m.segLen - p % m.segLen else m.len - p
  min (min seg (m.len - p)) (most - m.dstAt p % most)

def planeOf (m : Moving) : Plane := if m.plane = 1 ∨ (m.plane = 2 ∧ m.packets % 2 = 1) then .b else .a

end Moving

namespace Chan

/-- Offsets of effective source and destination under the open loops (R231). -/
def loopOffset (c : Chan) (off : Nat) (dst : Bool) : Nat :=
  let sum := (c.loops.map fun l => l.iter * (if dst then l.dst.toNat else l.src.toNat)).sum
  (off + sum) % 2 ^ 32

def handleReg (c : Chan) (h : Nat) : Nat := if h = 1 then c.c0.toNat else if h = 2 then c.c1.toNat else 0

/-- The channel past the instruction at its pc: the pc moves on, and bodies that end there are closed (R231). -/
def closeLoops : Nat → Chan → Chan
  | 0, c => c
  | n + 1, c =>
    match c.loops.getLast? with
    | none => c
    | some l =>
      if c.pc ≠ l.body + l.len then c
      else if l.iter + 1 < l.count then
        { c with pc := l.body, loops := c.loops.dropLast ++ [{ l with iter := l.iter + 1 }] }
      else closeLoops n { c with loops := c.loops.dropLast }

def advance (c : Chan) : Chan := closeLoops 4 { c with pc := c.pc + 1, st := .run, moving := none, fetched := false }

end Chan

/-- What decides whether two destinations share bytes (R234): the base of a window of a logical croft, and the members of a
multicast group. -/
structure Far where
  base   : Nat → Nat → Nat
  member : Nat → Nat → Bool

namespace Site

def modChan (x : Site) (i : Nat) (f : Chan → Chan) : Site := x.setChan i (f (x.chan i))

/-- The next TAG of a channel (R233). -/
def nextTag (x : Site) (i : Nat) : W16 := BitVec.ofNat 16 (i * 2 ^ 13 + (x.chan i).seq % 8192)

def useTag (x : Site) (i : Nat) : Site := x.modChan i fun c => { c with seq := (c.seq + 1) % 8192 }

/-- A request has a free place in the channel and the carter (R233). -/
def place (x : Site) (i : Nat) : Bool := (x.chan i).outst.length < 16 && x.outstanding < 64

/-- Send a request of a channel under its next TAG. -/
def request (x : Site) (i : Nat) (k : Packet) (dst len : Nat) : Site :=
  let k := { k with tag := x.nextTag i, who := .carter x.q i }
  let x := (x.useTag i).send k
  x.modChan i fun c => { c with outst := c.outst ++ [{ pkt := k, dst, len }] }

/-! ### Fetch (R230, R240) -/

/-- The instruction at a channel's pc, without a read. -/
def carPeek (x : Site) (i : Nat) : W256 := BitVec.ofNat 256 (ofLe (Memory.read x.c.mem (32 * (x.chan i).pc) 32))

def carRetryLimit (x : Site) : Nat := x.field Reg.carCfg 2 0

/-- LOOP breaks the nesting of R231. -/
def loopIllegal (c : Chan) (w : W256) : Bool :=
  let last := c.pc + 1 + cfield w 233 226
  4 ≤ c.loops.length || cfield w 251 250 != c.loops.length || c.loops.any fun l => l.body + l.len < last

/-- The channel's next instruction is illegal, or lies beyond the scratchpad. -/
def instrIllegal (x : Site) (i : Nat) : Bool :=
  let w := x.carPeek i
  65536 ≤ (x.chan i).pc || !carLegal w || carOpc w == 3 && loopIllegal (x.chan i) w

/-- The read of an instruction: an uncorrectable codeword is a bus error, retried under CAR_CFG.RETRY. -/
def carFetch (x : Site) (i : Nat) : Site × Bool :=
  let c := x.chan i
  let x := if c.fetchTries = 0 then x else x.count Reg.carRetries 1
  let r := x.check c.pc (carOpcode 0) (some c.tclass)
  let w := x.carPeek i
  if !r.2 then (r.1.modChan i fun c => { c with fetchTries := 0, instr := w, fetched := true }, true)
  else if x.carRetryLimit ≤ c.fetchTries then (r.1.haltChan i 3 0 0 c.fetchTries, false)
  else (r.1.modChan i fun c => { c with fetchTries := c.fetchTries + 1 }, false)

/-- A command of channel i that executes the instruction at its pc: f acts where the channel runs, is between
instructions, and has fetched a legal instruction for which p holds, or fetches it now. -/
def carInstr (x : Site) (i : Nat) (p : W256 → Bool) (f : Site → W256 → Site) : Site :=
  let c := x.chan i
  let w := if c.fetched then c.instr else x.carPeek i
  if !x.live || c.st != .run || c.moving.isSome || !c.fetched && x.instrIllegal i || !p w then x
  else if c.fetched then f x w
  else
    let r := x.carFetch i
    if r.2 then f r.1 w else r.1

/-! ### Local access (R232) -/

/-- Whether a local range can be moved: 0 it can, 1 it breaks the rules of its region, 2 it lies outside. -/
def localRange (a n : Nat) : Nat :=
  if !inRegion a n then 2
  else match region a with
    | .acc | .tile => if a % 32 = 0 ∧ n % 32 = 0 then 0 else 1
    | .block => if a % 4 = 0 ∧ n % 4 = 0 then 0 else 1
    | _ => 0

/-- Channel i still writes: a register that its own transfer has written may have fenced the croft or aborted the channel
(R243, R244). -/
def stillWrites (x : Site) (i : Nat) : Bool := x.live && (x.chan i).active && !(x.chan i).aborting

/-- Bytes for croft registers, in ascending order: a register is written once its four bytes are there (R232). The
addresses of the bytes that registers have taken are answered. -/
def takeRegBytes (x : Site) (i a : Nat) : List Byte → Site × List Nat
  | [] => (x, [])
  | b :: bs =>
    if !x.stillWrites i then (x, [])
    else
      let u := a / 4 * 4
      let part := ((x.chan i).regPart.filter fun e => e.1 != a) ++ [(a, b)]
      let whole := (List.range 4).filterMap fun k => (part.find? fun e => e.1 == u + k).map (·.2)
      if whole.length = 4 then
        let x := (x.modChan i fun c => { c with regPart := part.filter fun e => e.1 / 4 * 4 != u }).writeReg
          (u - 0x0F000000) 4 (BitVec.ofNat 64 (ofLe whole))
        let r := x.takeRegBytes i (a + 1) bs
        (r.1, (List.range 4).map (u + ·) ++ r.2)
      else (x.modChan i fun c => { c with regPart := part }).takeRegBytes i (a + 1) bs

/-- A byte written at an address is stored: it lies in a region, and not in the slot that the sequencer runs (R74, R84). -/
def stores (x : Site) (a : Nat) : Bool :=
  match region a with
  | .none => false
  | .slot => !x.runs ((a - 0x03000000) / 0x2000)
  | _ => true

/-- A local write of channel i, with the addresses of the bytes that it has committed. -/
def localStore (x : Site) (i a : Nat) (bs : List Byte) (opc : Nat) (cls : Bool) : Site × List Nat :=
  if region a = .block then x.takeRegBytes i a bs
  else
    (x.writeBytes a bs (carOpcode opc) (some cls),
      ((List.range bs.length).map (a + ·)).filter fun b => x.stores b && region b == region a)

/-- One read of each unit, 32-byte codeword or 4-byte register, that holds one of the addresses; a register that the
transfer has read before, known, is not read again. -/
def readUnits (x : Site) (opc : Nat) (cls : Bool) (known : List (Nat × List Byte)) :
    List Nat → Site × List (Nat × List Byte) × Bool
  | [] => (x, [], false)
  | u :: us =>
    if region u = .block then
      match known.find? fun e => e.1 == u with
      | some e =>
        let t := x.readUnits opc cls known us
        (t.1, e :: t.2.1, t.2.2)
      | none =>
        let r := x.readReg (u - 0x0F000000) 4
        let t := r.1.readUnits opc cls known us
        (t.1, (u, leBytes 4 r.2.toNat) :: t.2.1, t.2.2)
    else
      let r := x.readBytes u 32 (carOpcode opc) (some cls)
      let t := r.1.readUnits opc cls known us
      (t.1, (u, r.2.1) :: t.2.1, r.2.2 || t.2.2)

/-- The unit of an address. -/
def unitOf (a : Nat) : Nat := if region a = .block then a / 4 * 4 else a / 32 * 32

/-- The n output bytes at p, read from the source, whether a codeword was uncorrectable, and the registers read so far. -/
def gatherOut (x : Site) (m : Moving) (p n : Nat) (opc : Nat) : Site × List Byte × Bool × List (Nat × List Byte) :=
  let needs := (List.range n).map fun k => m.sources (p + k)
  let r := x.readUnits opc m.tclass m.readRegs ((needs.flatten.map unitOf).dedup)
  let byteAt (a : Nat) : Byte :=
    match r.2.1.find? fun e => e.1 = unitOf a with
    | some e => e.2.getD (a - unitOf a) 0
    | none => 0
  let bytes := (List.range n).map fun k => m.outByte (p + k) ((needs.getD k []).map byteAt)
  let regs := r.2.1.filter fun e => region e.1 = .block && !m.readRegs.any fun k => k.1 == e.1
  (r.1, bytes, r.2.2, m.readRegs ++ regs)

/-! ### MOVE and RESHUFFLE (R230 to R239) -/

/-- The transfer that an instruction describes, its offsets in effect. -/
def moveOf (c : Chan) (w : W256) : Moving :=
  let srcWin := cfield w 251 250 = 1
  let dst := cfield w 249 248
  let srcH := cfield w 244 243
  let dstH := cfield w 242 241
  let src := c.loopOffset (cfield w 220 189) false
  let dstO := c.loopOffset (cfield w 188 157) true
  let add (h : Nat) : Nat := c.handleReg h % 65536 * 32
  { srcWin, dst, plane := cfield w 247 246, tclass := cfield w 245 245 = 1
    srcOff := if srcWin then src else (src + add srcH) % 2 ^ 32
    dstOff := if dst = 0 then (dstO + add dstH) % 2 ^ 32 else dstO
    grant := BitVec.ofNat 32 (c.handleReg (if srcWin then srcH else dstH))
    ep := cfield w 156 141, mgroup := cfield w 140 133, mwin := cfield w 132 129, mgen := cfield w 128 121
    len := cfield w 240 221 + 1
    rsOp := if carOpc w = 2 then cfield w 120 117 else 0
    width := cfield w 116 112, streams := cfield w 111 108 + 1, gran := 2 ^ cfield w 107 105
    pstride := cfield w 104 73 }

/-- Whether the targets of a transfer are legal, as localRange says of the worst of its local ranges. -/
def moveRefused (m : Moving) : Nat :=
  let src := if m.srcWin then [] else (m.ranges false).map fun r => localRange r.1 r.2
  let dst := if m.dst = 0 then (m.ranges true).map fun r => localRange r.1 r.2
    else if m.dst = 3 ∧ m.dstOff % 4 ≠ 0 then [1] else []
  (src ++ dst).foldl max 0

/-- A piece's bytes cannot be read: a local bus error, retried or halting the channel (R240). -/
def localError (x : Site) (i : Nat) (m : Moving) (opc : Nat) : Site :=
  if x.carRetryLimit ≤ m.tries then x.haltChan i 3 opc 0 m.tries
  else
    let tag := x.nextTag i
    (x.useTag i).modChan i fun c => { c with moving := some { m with failed := some tag } }

/-- Set the transfer on past n bytes, of which so many are committed as they go. A channel that its own local write has
stopped, by CAR_CMD or CRF_CTRL, stays so (R227, R243, R244). -/
def moved (x : Site) (i : Nat) (m : Moving) (n done : Nat) : Site :=
  x.modChan i fun c =>
    let c := if c.st != .free then { c with bytes := c.bytes + done } else c
    if c.st = .run ∧ c.moving.isSome then
      { c with moving := some { m with next := m.next + n, packets := m.packets + 1, tries := 0, failed := none } }
    else c

/-- The packet of a piece to a window, a multicast group or a register. -/
def piecePacket (x : Site) (m : Moving) (off n : Nat) (bs : List Byte) : Packet :=
  let g := m.grant.toNat
  match m.dst with
  | 1 =>
    { x.packet 0x01 (bitsOf g 26 12) 0 with
      plane := m.planeOf, tclass := m.tclass, window := BitVec.ofNat 4 (bitsOf g 11 8)
      gen := BitVec.ofNat 8 (bitsOf g 7 0), offset := BitVec.ofNat 32 off, length := BitVec.ofNat 13 n, payload := bs }
  | 2 =>
    { x.packet 0x01 0xFFFF 2 with
      plane := .b, tclass := m.tclass, mgroup := BitVec.ofNat 8 m.mgroup, window := BitVec.ofNat 4 m.mwin
      gen := BitVec.ofNat 8 m.mgen, offset := BitVec.ofNat 32 off, length := BitVec.ofNat 13 n, payload := bs }
  | _ =>
    { x.packet 0x12 m.ep 3 with
      plane := m.planeOf, tclass := m.tclass, offset := BitVec.ofNat 32 off, opdata := BitVec.ofNat 96 (ofLe bs) }

/-! ### Writes of one channel that overlap (R234) -/

/-- This croft's endpoint. -/
def ownEp (x : Site) : Nat := x.n.getD 0

/-- The base of a window of a logical croft. -/
def baseOf (x : Site) (far : Far) (n w : Nat) : Nat := if n = x.ownEp then x.winBase w else far.base n w

/-- Where the bytes of an unanswered request land: an endpoint, and the local offset of the first; a read's land here. -/
def landing (x : Site) (far : Far) (r : Req) : Nat × Nat :=
  let dest := r.pkt.dest.toNat
  if r.pkt.op = 0x02 then (x.ownEp, r.dst)
  else if r.pkt.op = 0x01 then (dest, x.baseOf far dest r.pkt.window.toNat + r.pkt.offset.toNat)
  else (dest, r.pkt.offset.toNat)

/-- Bytes that a request of the channel not yet answered writes; a TOKEN writes none. -/
def landingLen (r : Req) : Nat := if r.pkt.op = 0x06 then 0 else r.len

/-- Where a piece of a transfer lands on an endpoint, by its local offset; none where it does not. -/
def pieceSpot (x : Site) (far : Far) (m : Moving) (off ep : Nat) : Option Nat :=
  let g := m.grant.toNat
  let only (e a : Nat) : Option Nat := if ep = e then some a else none
  if m.dst = 0 then only x.ownEp off
  else if m.dst = 1 then only (bitsOf g 26 12) (x.baseOf far ep (bitsOf g 11 8) + off)
  else if m.dst = 2 then (if far.member m.mgroup ep then some (x.baseOf far ep m.mwin + off) else none)
  else only m.ep off

/-- Destination bytes overlap those of an earlier write of the channel that is not answered. -/
def clashes (x : Site) (far : Far) (i : Nat) (m : Moving) (off n : Nat) : Bool :=
  (x.chan i).outst.any fun r =>
    let l := x.landing far r
    match x.pieceSpot far m off l.1 with
    | some a => l.2 < a + n && a < l.2 + landingLen r
    | none => false

/-- One piece of a transfer; none where it must wait for a place or for an earlier write. -/
def movePiece (x : Site) (far : Far) (i : Nat) (m : Moving) (opc : Nat) : Option Site :=
  let p := m.next
  let off := m.dstAt p
  if m.srcWin then
    let src := (m.srcOff + p) % 2 ^ 32
    let n := min (m.len - p) (4096 - src % 4096)
    let g := m.grant.toNat
    if !x.place i || x.clashes far i m off n then none
    else
      let k := { x.packet 0x02 (bitsOf g 26 12) 0 with
        plane := m.planeOf, tclass := m.tclass, window := BitVec.ofNat 4 (bitsOf g 11 8)
        gen := BitVec.ofNat 8 (bitsOf g 7 0), offset := BitVec.ofNat 32 src, length := BitVec.ofNat 13 n }
      some ((x.request i k off n).moved i m n 0)
  else
    let most := if m.dst = 0 then (if region off = .block then 4 else 32) else if m.dst = 3 then 4 else 512
    let n := m.pieceLen most
    let full := (m.dst = 1 ∨ m.dst = 3) && !x.place i
    if full || x.clashes far i m off n then none
    else
      let r := x.gatherOut m p n opc
      let m := { m with readRegs := r.2.2.2 }
      if r.2.2.1 then some (r.1.localError i m opc)
      else if m.dst = 0 then
        let w := r.1.localStore i off r.2.1 opc m.tclass
        some (w.1.moved i m n w.2.length)
      else
        let k := x.piecePacket m off n r.2.1
        if m.dst = 2 then
          some (((r.1.useTag i).send { k with tag := r.1.nextTag i, who := .castCarter x.q i (x.chan i).gen }).moved i m n 0)
        else some ((r.1.request i k 0 n).moved i m n 0)

/-- Issue pieces until the transfer is complete, or one must wait. -/
def pump (x : Site) (far : Far) (i : Nat) (opc : Nat) : Nat → Site
  | 0 => x
  | fuel + 1 =>
    match (x.chan i).moving with
    | none => x
    | some m =>
      if m.failed.isSome then x
      else if m.len ≤ m.next then x.modChan i Chan.advance
      else match x.movePiece far i m opc with
        | none => x
        | some y => y.pump far i opc fuel

/-- Begin a MOVE or RESHUFFLE: its class becomes the channel's, and a transfer that is refused moves nothing. -/
def beginMove (x : Site) (far : Far) (i : Nat) (w : W256) : Site :=
  let opc := carOpc w
  let m := moveOf (x.chan i) w
  let x := x.modChan i fun c => { c with tclass := m.tclass }
  match moveRefused m with
  | 0 => (x.modChan i fun c => { c with moving := some m }).pump far i opc (m.len + 2)
  | 1 => x.haltChan i 4 opc
  | _ => (x.raise 6 (carOpcode opc) 0 (some m.tclass)).haltChan i 4 opc

/-- A MOVE, or a RESHUFFLE with operation rs: begun, or gone on with. -/
def moveCmd (x : Site) (far : Far) (i rs : Nat) : Site :=
  let opc := if rs = 0 then 1 else 2
  match (x.chan i).moving with
  | some m =>
    if x.live && (x.chan i).st = .run && m.rsOp == rs then x.pump far i opc (m.len + 2) else x
  | none => x.carInstr i (fun w => carOpc w == opc && (rs == 0 || cfield w 120 117 == rs)) fun x w => x.beginMove far i w

/-! ### LOOP, WAIT, SIGNAL and END (R231, R235 to R237) -/

def loopInstr (x : Site) (i : Nat) : Site :=
  x.carInstr i (fun w => carOpc w == 3) fun x w => x.modChan i fun c =>
    let l : CarLoop :=
      { body := c.pc + 1, len := cfield w 233 226, iter := 0, count := cfield w 249 234 + 1
        src := BitVec.ofNat 32 (cfield w 225 194), dst := BitVec.ofNat 32 (cfield w 193 162) }
    { c with pc := c.pc + 1, loops := c.loops ++ [l], fetched := false }

/-- Channel j waits with an instruction for which p holds. -/
def waitsFor (x : Site) (j : Nat) (on id : Nat) : Bool :=
  let w := (x.chan j).instr
  (x.chan j).st = .wait && carOpc w == 4 && cfield w 251 249 == on && cfield w 248 245 == id

/-- A waiter that R236 serves before channel i: the sequencer for a queue, and the channels of lower index. -/
def served (x : Site) (i on id : Nat) : Bool :=
  (on == 0 && x.c.seq.st = .wait && x.c.seq.held = .queue id && !x.fenced) ||
    (List.range i).any fun j => x.waitsFor j on id

/-- The condition of channel i's WAIT. -/
def carWaitMet (x : Site) (i : Nat) (w : W256) : Bool :=
  let id := cfield w 248 245
  match cfield w 251 249 with
  | 0 => !(x.queue id).isEmpty && !x.served i 0 id
  | 1 => bit (x.reg Reg.carEvent) id && !x.served i 1 id
  | 2 => max 1 (cfield w 227 196) ≤ x.num (Reg.carArrive id)
  | 3 => (x.chan i).stepNew
  | _ => !(x.chan id).active

/-- The effect of a met WAIT, and the channel past it. -/
def carWaitTake (x : Site) (i : Nat) (w : W256) : Site :=
  let id := cfield w 248 245
  let x := match cfield w 251 249 with
    | 0 =>
      match x.queue id with
      | [] => x
      | h :: t =>
        (x.setQueue id t).modChan i fun c => if cfield w 244 244 = 1 then { c with c1 := h } else { c with c0 := h }
    | 1 => x.setReg Reg.carEvent (x.reg Reg.carEvent &&& ~~~ BitVec.ofNat 64 (2 ^ id))
    | 2 => x.setReg (Reg.carArrive id) (BitVec.ofNat 64 (x.num (Reg.carArrive id) - max 1 (cfield w 227 196)))
    | 3 => x.modChan i fun c => { c with stepNew := false }
    | _ => x
  x.modChan i Chan.advance

/-- A WAIT: met at once, or the channel is held in state WAIT. -/
def waitInstr (x : Site) (i on : Nat) : Site :=
  x.carInstr i (fun w => carOpc w == 4 && cfield w 251 249 == on) fun x w =>
    if x.carWaitMet i w then x.carWaitTake i w else x.modChan i fun c => { c with st := .wait }

def carWaitEnd (x : Site) (i : Nat) : Site :=
  let w := (x.chan i).instr
  if x.live && (x.chan i).st = .wait && x.carWaitMet i w then x.carWaitTake i w else x

/-- The TIMEOUT expires; a condition that is true counts as met. -/
def carWaitTimeout (x : Site) (i : Nat) : Site :=
  let w := (x.chan i).instr
  if x.live && (x.chan i).st = .wait && cfield w 243 228 != 0 then
    if x.carWaitMet i w then x.carWaitTake i w else x.haltChan i 7 4
  else x

/-- Every earlier write of the channel is answered or committed. -/
def writesDone (c : Chan) : Bool := c.outst.all fun r => r.pkt.op == 0x06

/-- The handle that a SIGNAL sends. -/
def signalHandle (x : Site) (i : Nat) (w : W256) : W32 :=
  let imm : W32 := BitVec.ofNat 32 (cfield w 240 209)
  match cfield w 242 241 with
  | 0 => imm
  | 1 => (x.chan i).c0 + imm
  | 2 => (x.chan i).c1 + imm
  | _ => x.handle i

/-- A SIGNAL, fetched once, issues when the channel's earlier writes are answered and its queue or a place is free. -/
def signalInstr (x : Site) (i to_ : Nat) : Site :=
  x.carInstr i (fun w => carOpc w == 5 && cfield w 251 250 == to_) fun x w =>
    let k := cfield w 249 248
    if !(writesDone (x.chan i) && (to_ != 0 || !x.queueFull k) && (to_ != 1 || x.place i)) then x
    else
      let h := x.signalHandle i w
      let x := match to_ with
        | 0 => x.push k h
        | 1 =>
          let t := { x.packet 0x06 (cfield w 208 194) 0 with
            plane := if cfield w 243 243 = 1 then .b else .a, tclass := (x.chan i).tclass
            opdata := BitVec.ofNat 96 (h.toNat + k * 2 ^ 32) }
          x.request i t 0 0
        | _ => x.setReg Reg.carEvent (x.reg Reg.carEvent ||| BitVec.ofNat 64 (2 ^ cfield w 247 244))
      x.modChan i Chan.advance

/-- The end of END's wait: a channel that has fetched END is DONE once every request is answered (R237, R242). -/
def endWait (x : Site) (i : Nat) : Site :=
  x.modChan i fun c =>
    if c.st = .run ∧ c.fetched ∧ carOpc c.instr = 0 ∧ c.outst.isEmpty then { c with st := .done } else c

/-- END: fetched, it waits for every outstanding request. -/
def endInstr (x : Site) (i : Nat) : Site := x.carInstr i (fun w => carOpc w == 0) fun x _ => x.endWait i

/-- An illegal instruction, or a fetch beyond the scratchpad. -/
def carIllegal (x : Site) (i : Nat) : Site :=
  let c := x.chan i
  if !x.live || c.st != .run || c.moving.isSome || c.fetched || !x.instrIllegal i then x
  else if 65536 ≤ c.pc then x.haltChan i 4 0
  else
    let r := x.carFetch i
    if r.2 then r.1.haltChan i 4 (carOpc (x.carPeek i)) else r.1

end Site

namespace State

/-- Window bases of the crofts, and multicast groups as the croft's own parish holds them. -/
def far (s : State) (q : Nat) : Far :=
  { base := fun n w => match s.physOf n with
      | some t => (s.site t).winBase w
      | none => 0
    member := fun g n => (s.group (parOf q) g).member n }

end State

/-! ### The commands -/

def execMove (q : Phys) (c : Chn) (s : State) : Host.Outcome State Fault Refusal :=
  .next (s.onCroft q fun x => x.moveCmd (s.far q) c 0)

def execSplitPlanes (q : Phys) (c : Chn) (s : State) : Host.Outcome State Fault Refusal :=
  .next (s.onCroft q fun x => x.moveCmd (s.far q) c 1)

def execMergePlanes (q : Phys) (c : Chn) (s : State) : Host.Outcome State Fault Refusal :=
  .next (s.onCroft q fun x => x.moveCmd (s.far q) c 2)

def execInterleave (q : Phys) (c : Chn) (s : State) : Host.Outcome State Fault Refusal :=
  .next (s.onCroft q fun x => x.moveCmd (s.far q) c 3)

def execDeinterleave (q : Phys) (c : Chn) (s : State) : Host.Outcome State Fault Refusal :=
  .next (s.onCroft q fun x => x.moveCmd (s.far q) c 4)

def execCarterLoop (q : Phys) (c : Chn) (s : State) : Host.Outcome State Fault Refusal :=
  .next (s.onCroft q fun x => x.loopInstr c)

def execCarterWaitQueue (q : Phys) (c : Chn) (s : State) : Host.Outcome State Fault Refusal :=
  .next (s.onCroft q fun x => x.waitInstr c 0)

def execCarterWaitEvent (q : Phys) (c : Chn) (s : State) : Host.Outcome State Fault Refusal :=
  .next (s.onCroft q fun x => x.waitInstr c 1)

def execCarterWaitArrival (q : Phys) (c : Chn) (s : State) : Host.Outcome State Fault Refusal :=
  .next (s.onCroft q fun x => x.waitInstr c 2)

def execCarterWaitStep (q : Phys) (c : Chn) (s : State) : Host.Outcome State Fault Refusal :=
  .next (s.onCroft q fun x => x.waitInstr c 3)

def execCarterWaitChannel (q : Phys) (c : Chn) (s : State) : Host.Outcome State Fault Refusal :=
  .next (s.onCroft q fun x => x.waitInstr c 4)

def execCarterWaitEnd (q : Phys) (c : Chn) (s : State) : Host.Outcome State Fault Refusal :=
  .next (s.onCroft q fun x => x.carWaitEnd c)

def execCarterWaitTimeout (q : Phys) (c : Chn) (s : State) : Host.Outcome State Fault Refusal :=
  .next (s.onCroft q fun x => x.carWaitTimeout c)

def execSignalQueue (q : Phys) (c : Chn) (s : State) : Host.Outcome State Fault Refusal :=
  .next (s.onCroft q fun x => x.signalInstr c 0)

def execSignalToken (q : Phys) (c : Chn) (s : State) : Host.Outcome State Fault Refusal :=
  .next (s.onCroft q fun x => x.signalInstr c 1)

def execSignalFlag (q : Phys) (c : Chn) (s : State) : Host.Outcome State Fault Refusal :=
  .next (s.onCroft q fun x => x.signalInstr c 2)

def execCarterEnd (q : Phys) (c : Chn) (s : State) : Host.Outcome State Fault Refusal :=
  .next (s.onCroft q fun x => x.endInstr c)

def execCarterIllegal (q : Phys) (c : Chn) (s : State) : Host.Outcome State Fault Refusal :=
  .next (s.onCroft q fun x => x.carIllegal c)

end Sys2Proof.Machine
end

