-- ==== Sys2Proof/Machine/Array.lean ====
section
/-! DEFINITION. The matrix array (chapter 06): LOAD, the exact pass of STREAM with its one rounding and its checksum,
and ADDIN. One command is one line of a word. -/

namespace Sys2Proof.Machine
namespace Site

/-! ### Buffers -/

def sbuf (x : Site) (b : Nat) : SBuf := if b = 0 then x.c.sbuf0 else x.c.sbuf1
def setSbuf (x : Site) (b : Nat) (v : SBuf) : Site :=
  { x with c := if b = 0 then { x.c with sbuf0 := v } else { x.c with sbuf1 := v } }

/-- The buffer that a word names. -/
def arrSbuf (q : QWord) : Nat := wfield q.word 107 107

/-! ### LOAD (R129, R145, R184, R185) -/

/-- The positions that group g of stored line l names. -/
def named (x : Site) (t : Tile) (l g : Nat) : List Nat :=
  if t.lines ≤ l then []
  else
    let b := ofLe (Memory.read x.c.mem (t.after + 16 * l + g / 2) 1)
    match nibble (if g % 2 = 0 then b % 16 else b / 16) with
    | some (i, j) => [i, j]
    | none => []

/-- A mask breaks R184 at line l: a position of some group is named a third time within its set of four. -/
def brokenAt (x : Site) (t : Tile) (l : Nat) : Bool :=
  (List.range 32).any fun g =>
    (x.named t l g).any fun p =>
      2 < ((List.range' (l / 4 * 4) (l % 4 + 1)).filter fun j => (x.named t j g).contains p).length

/-- The sums of lists, position by position. -/
def columnSums (n : Nat) (ls : List (List FV)) : List FV :=
  ls.foldl (fun a l => List.zipWith FV.add a l) (List.replicate n FV.zero)

/-- A LOAD begins: its tile is read and checked; the buffer becomes loaded when the LOAD is ready. -/
def loadRun (x : Site) (q : QWord) : Site :=
  let b := arrSbuf q
  let a := arrAddr q
  let opc := wordOpcode q.word
  let own (x : Site) : Site := x.arrFaulted 19 q
  let x := x.setSbuf b {}
  let t := x.openTile a opc
  match t.err with
  | some e => t.x.tileFault e q own 0 0 a
  | none =>
    if t.val.fmt = 9 then t.x.arrFaulted 20 q
    else
      let l := t.x.tileLines t.val opc t.val.lines
      match l.err with
      | some e => l.x.tileFault e q own 0 l.val.length a
      | none =>
        let broken := if t.val.layout = 2 ∧ bit (x.reg Reg.gthCfg) 0 then
          (List.range t.val.lines).find? (x.brokenAt t.val) else none
        match broken with
        | some n => l.x.tileFault .transpose q own 0 n a
        | none =>
          let y := l.x.setSbuf b { fmt := t.val.fmt, sparse := t.val.layout = 2, resid := t.val.count != 0, lines := l.val }
          { y with c := { y.c with loading := some q } }

/-- The first ARRAY word in the queue is a LOAD whose conditions hold (R146). -/
def loadStart (x : Site) : Site :=
  match x.c.arrayQ with
  | [] => x
  | q :: rest =>
    let busy : Bool := match x.c.streaming with
      | some r => wordOp r.q.word == 2 && arrSbuf r.q == arrSbuf q
      | none => false
    if wordOp q.word ≠ 1 ∨ x.c.loading.isSome ∨ busy then x
    else if x.held q.num [x.tileSpan (arrAddr q)] then x.stalls
    else { x with c := { x.c with arrayQ := rest } }.loadRun q

/-- The buffer is ready, its row sums included. -/
def loadReady (x : Site) : Site :=
  match x.c.loading with
  | none => x
  | some q =>
    let b := arrSbuf q
    let v := x.sbuf b
    let n := if v.sparse then 128 else 64
    let x := x.setSbuf b { v with loaded := true, sums := columnSums n (v.lines.take 32), sumsHi := columnSums n (v.lines.drop 32) }
    { x with c := { x.c with loading := none } }

/-! ### The exact pass (R134) -/

/-- Σ a × w, exactly; an exact zero is +0. -/
def dot (a w : List FV) : FV := (List.zipWith FV.mul a w).foldl FV.add FV.zero

/-- Complex elements as pairs. -/
def pairsOf : List FV → List (FV × FV)
  | a :: b :: t => (a, b) :: pairsOf t
  | _ => []

/-- The real and the imaginary part of Σ a × w over complex elements. -/
def cdot (a w : List FV) : FV × FV :=
  let ps := List.zip (pairsOf a) (pairsOf w)
  ((ps.map fun p => (p.1.1.mul p.2.1).add (p.1.2.mul p.2.2).neg).foldl FV.add FV.zero,
   (ps.map fun p => (p.1.1.mul p.2.2).add (p.1.2.mul p.2.1)).foldl FV.add FV.zero)

def isComplex (f : Nat) : Bool := f == 10 || f == 11 || f == 12

/-- Stationary line n, zero where the tile does not store it. -/
def statLine (v : SBuf) (n : Nat) : List FV := v.lines.getD n (List.replicate (if v.sparse then 128 else 64) FV.zero)

/-- The 64 pass values of a line; lines 32–63 take the second list of a split line. -/
def passValues (v : SBuf) (a : List FV) (b : Option (List FV)) : List FV :=
  if isComplex v.fmt then (List.range 32).flatMap fun n => let c := cdot a (statLine v n); [c.1, c.2]
  else (List.range 64).map fun n => dot (if n < 32 then a else b.getD a) (statLine v n)

/-- Every other element, from the first or from the second. -/
def everyOther (ps : List FV) (odd : Bool) : List FV := (pairsOf ps).map fun p => if odd then p.2 else p.1

/-- The comparisons of a line: what the checksum column forms, and the pass values it must equal, by part (R138,
R189). -/
def compared (v : SBuf) (a : List FV) (b : Option (List FV)) (ps : List FV) : List (FV × List FV) :=
  let both := List.zipWith FV.add v.sums v.sumsHi
  if isComplex v.fmt then
    let s := cdot a both
    [(s.1, everyOther ps false), (s.2, everyOther ps true)]
  else match b with
  | some b => [(dot a v.sums, ps.take 32), (dot b v.sumsHi, ps.drop 32)]
  | none => [(dot a both, ps)]

/-- The checksum of a line: counted as compared or skipped, and a mismatch raised. part names the place in a T2 pair. -/
def checksum (x : Site) (q : QWord) (v : SBuf) (a : List FV) (b : Option (List FV)) (ps : List FV) (row part : Nat) : Site :=
  let cs := compared v a b ps
  if cs.all fun c => c.1.isFinite && c.2.all FV.isFinite then
    let x := x.count Reg.arrChkCount 1
    let differs (c : FV × List FV) : Bool := !(c.1.sub (c.2.foldl FV.add FV.zero)).isZero
    let found := (List.range cs.length).filter fun i =>
      (i == 0 && x.c.injectChk) || differs (cs.getD i (FV.zero, []))
    let x := { x with c := { x.c with injectChk := false } }
    found.foldl (fun x i => x.mismatch q (arrSbuf q) (if cs.length = 1 then part else i) row) x
  else x.count Reg.arrChkSkip 1

/-! ### Accumulator rows (R135, R137, R141) -/

/-- The 64 elements of an accumulator row. -/
def accValues (x : Site) (r : Nat) : List W32 :=
  (unpackCodes 32 64 (Memory.read x.c.mem (accRow r) 256)).map (BitVec.ofNat 32)

/-- A read of an accumulator row through its correction; where it poisons, an uncorrectable codeword is left with the
poison check pattern. -/
def checkAcc (x : Site) (r : Nat) (opc : W16) (poison : Bool) : Site × Bool :=
  (List.range 8).foldl (fun s i =>
    let cw := accRow r / 32 + i
    let c := s.1.check cw opc none
    (if c.2 && poison then c.1.setEcc cw .uncorr else c.1, s.2 || c.2)) (x, false)

def storeRow (x : Site) (r : Nat) (ws : List W32) : Site := x.store (accRow r) (ws.flatMap fun w => leBytes 4 w.toNat)

/-- The values of an array word rounded once each into a row, with the events of R136. -/
def writeRow (x : Site) (r : Nat) (vs : List FV) : Site :=
  let es := vs.map fun v => fp32.encode v
  let x := x.arrEvents { inf := (es.filter (·.2)).length, nan := (vs.filter FV.isNan).length }
  x.storeRow r (es.map fun e => BitVec.ofNat 32 e.1)

/-! ### STREAM and ADDIN -/

/-- R132: the streamed FORMATs that a stationary FORMAT accepts. -/
def pairOk (v : SBuf) (f : Nat) : Bool :=
  match v.fmt with
  | 2 => f == 0 || f == 1
  | 3 | 4 => f == 3 || f == 4
  | 5 | 6 => f == 5 || f == 6
  | 10 | 11 => f == 10 || f == 11
  | g => f == g

/-- The feed that the running STREAM has taken. -/
def takenFeed (x : Site) : Option Feed := x.c.feeds.find? (·.taken)

def setTaken (x : Site) (f : Feed) : Site :=
  { x with c := { x.c with feeds := x.c.feeds.map fun g => if g.q.num = f.q.num then f else g } }

/-- The running word ends. Its feed completes with the lines supplied, or ends with it at a fault of its own. -/
def endStream (x : Site) (complete : Bool) : Site :=
  let done := match x.takenFeed with
    | some f => if complete then [(f.q, f.given)] else []
    | none => []
  { x with c := { x.c with
      streaming := none
      feeds := x.c.feeds.filter fun g => !g.taken
      gathDone := x.c.gathDone ++ done } }

/-- The accumulator rows that an ARRAY word writes. -/
def arrRows (q : QWord) : Span := ⟨accRow (arrRow q), accRow (arrRow q + arrLines q), true⟩

/-- The next word starts, a STREAM or an ADDIN, once no word before it has still to read or write its rows (R143 to R146,
R179). Of several breaches RANGE is raised before SBUF_EMPTY, and that before PAIR_ILLEGAL (log 154). -/
def streamStart (x : Site) : Site :=
  match x.c.arrayQ with
  | [] => x
  | q :: rest =>
    let op := wordOp q.word
    let loadsIt : Bool := match x.c.loading with
      | some l => arrSbuf l == arrSbuf q
      | none => false
    if op = 1 ∨ x.c.streaming.isSome ∨ (op = 2 ∧ loadsIt) then x
    else if x.held q.num [arrRows q] then x.stalls
    else
      let y := { x with c := { x.c with arrayQ := rest } }
      let v := x.sbuf (arrSbuf q)
      let run : StreamRun := { q, cur := { addr := arrAddr q } }
      let go (y : Site) : Site := { y with c := { y.c with streaming := some run } }
      if 512 < arrRow q + arrLines q then y.arrFaulted 21 q
      else if op = 3 then go y
      else if !v.loaded then y.arrFaulted 22 q
      else if isComplex v.fmt ∧ 32 < v.lines.length then y.arrFaulted 20 q
      else if wfield q.word 69 69 = 0 then (if v.sparse then y.arrFaulted 20 q else go y)
      else match x.c.feeds.find? fun f => !f.taken with
      | some f => go (y.setTaken { f with taken := true })
      | none => if x.c.gathQ.any isFeed then x else y.gthFaulted 28 q 0 0 0

/-- Where a streamed line stands in the pairs of a T2 stationary tile (R133): a line with a residual shares no cycle. -/
def pairPlace (last : Nat) (resid : Bool) : Nat := if resid then 0 else if last = 1 then 2 else 1

/-- The streamed line i of a STREAM: its FORMAT and values, or the end, or a fault that has been raised. A BLOCK_SPARSE
tile is taken as any other of its FORMAT (log 155). -/
def streamInput (x : Site) (r : StreamRun) (v : SBuf) : Site × StreamRun × FeedOut :=
  let q := r.q
  if wfield q.word 69 69 = 1 then
    match x.takenFeed with
    | none => (x, r, .done)
    | some f =>
      let is24 : Bool := wordOp f.q.word = 1
      if is24 ≠ v.sparse then (x.arrFaulted 20 q, r, .refused)
      else
        let o := x.feedLine f r.line (arrLines q) (pairOk v)
        match o.2.2 with
        | .line fmt a b resid => (o.1.setTaken o.2.1, { r with pair := pairPlace r.pair resid }, .line fmt a b resid)
        | e => (o.1, r, e)
  else
    let l := x.nextLine r.cur (wordOpcode q.word) fun t => t.layout != 2 && pairOk v t.fmt && (r.fmt.getD t.fmt == t.fmt)
    let t := l.val.2.1
    match l.err with
    | some .foreign => (l.x.arrFaulted 20 q, r, .fault)
    | some e => (l.x.tileFault e q (fun x => x.arrFaulted 19 q) 0 l.val.1.line t.base, r, .fault)
    | none =>
      let resid := lineResid t (l.val.1.line - 1)
      (l.x, { r with cur := l.val.1, fmt := some t.fmt, pair := pairPlace r.pair resid }, .line t.fmt l.val.2.2 none resid)

/-- The accesses of the next line of a STREAM or ADDIN. -/
def lineSpans (x : Site) (r : StreamRun) : List Span :=
  let row := accRow (arrRow r.q + r.line)
  let acc : Span := ⟨row, row + 256, true⟩
  if wordOp r.q.word = 2 ∧ wfield r.q.word 69 69 = 1 then [acc] else [acc, x.cursorSpan r.cur]

/-- The reads of the feed that the next line takes. -/
def feedHeld (x : Site) : Bool :=
  match x.takenFeed with
  | some f =>
    x.held f.q.num (if wordOp f.q.word = 1 then [x.cursorSpan f.curA, x.cursorSpan f.curB] else x.feedReach f)
  | none => false

/-- One line of a STREAM. -/
def streamLine (x : Site) : Site :=
  match x.c.streaming with
  | none => x
  | some r =>
    let q := r.q
    if wordOp q.word ≠ 2 then x
    else if x.held q.num (x.lineSpans r) || x.feedHeld then x.stalls
    else
      let v := x.sbuf (arrSbuf q)
      let i := x.streamInput r v
      match i.2.2 with
      | .done => i.1.endStream true
      | .refused => i.1.endStream true
      | .fault => i.1.endStream false
      | .line _ a b _ =>
        let row := arrRow q + r.line
        let accumulate := wfield q.word 70 70 = 1
        let c := if accumulate then i.1.checkAcc row (wordOpcode q.word) true else (i.1, false)
        if c.2 then c.1.seqHalt.endStream true
        else
          let ps := passValues v a b
          let old := (c.1.accValues row).map f32
          let vs := if accumulate then List.zipWith FV.add old ps else ps
          let part := if v.fmt = 2 ∧ i.2.1.pair = 2 then 1 else 0
          let x := (c.1.writeRow row vs).checksum q v a b ps row part
          let r := { i.2.1 with line := r.line + 1 }
          if r.line = arrLines q then x.endStream true else { x with c := { x.c with streaming := some r } }

/-- One line of an ADDIN. -/
def addinLine (x : Site) : Site :=
  match x.c.streaming with
  | none => x
  | some r =>
    let q := r.q
    if wordOp q.word ≠ 3 then x
    else if x.held q.num (x.lineSpans r) then x.stalls
    else
      let l := x.nextLine r.cur (wordOpcode q.word) fun t => t.layout == 0 && (t.fmt == 8 || t.fmt == 9)
      let t := l.val.2.1
      match l.err with
      | some .foreign => (l.x.arrFaulted 20 q).endStream false
      | some e => (l.x.tileFault e q (fun x => x.arrFaulted 19 q) 0 l.val.1.line t.base).endStream false
      | none =>
        let row := arrRow q + r.line
        let c := l.x.checkAcc row (wordOpcode q.word) true
        if c.2 then c.1.seqHalt.endStream false
        else
          let x := c.1.writeRow row (List.zipWith FV.add ((c.1.accValues row).map f32) l.val.2.2)
          let r := { r with line := r.line + 1, cur := l.val.1 }
          if r.line = arrLines q then x.endStream false else { x with c := { x.c with streaming := some r } }

end Site

/-! ### The commands -/

def execLoadStart (q : Phys) (s : State) : Host.Outcome State Fault Refusal := .next (s.onCroft q Site.loadStart)
def execLoadReady (q : Phys) (s : State) : Host.Outcome State Fault Refusal := .next (s.onCroft q Site.loadReady)
def execStreamStart (q : Phys) (s : State) : Host.Outcome State Fault Refusal := .next (s.onCroft q Site.streamStart)
def execStreamLine (q : Phys) (s : State) : Host.Outcome State Fault Refusal := .next (s.onCroft q Site.streamLine)
def execAddinLine (q : Phys) (s : State) : Host.Outcome State Fault Refusal := .next (s.onCroft q Site.addinLine)

/-- A write of ARR_CTRL.INJECT = 1 (R140); refused in a fenced croft (R99). -/
def execChecksumInject (q : Phys) (s : State) : Host.Outcome State Fault Refusal :=
  .next (s.onCroft q fun x => if x.live then { x with c := { x.c with injectChk := true } } else x)

end Sys2Proof.Machine
end

