-- ==== Sys2Proof/Machine/Schedule.lean ====
section
/-! DEFINITION. The pure rules of a step controller: the loss-scale keeper (R166), the clipping coefficient (R284), the
schedule engine and its record (R286, R293), and chunk fingerprints (R272). -/

namespace Sys2Proof.Machine

/-! ### Roots and quotients of FP values -/

/-- The square root of a value rounded once to FP64; NaN below zero. -/
def sqrt64 (x : FV) : FV :=
  match x with
  | .nan => .nan
  | .inf s => if s then .nan else .inf false
  | .num s 0 e => .num s 0 e
  | .num true _ _ => .nan
  | .num false m e =>
    let odd := e % 2 ≠ 0
    let m := if odd then 2 * m else m
    let e := if odd then e - 1 else e
    let n := m * 2 ^ 256
    let r := Nat.sqrt n
    fp64.round (.num false (2 * r + (if r * r = n then 0 else 1)) (e / 2 - 129))

/-- a ÷ b rounded once to FP32. -/
def div32 (a b : FV) : W32 :=
  let s := a.sign != b.sign
  let inf : W32 := BitVec.ofNat 32 (fp32.signCode s + fp32.infCode)
  let zero : W32 := BitVec.ofNat 32 (fp32.signCode s)
  match a, b with
  | .nan, _ | _, .nan => 0x7FC00000
  | .inf _, .inf _ => 0x7FC00000
  | .inf _, _ => inf
  | _, .inf _ => zero
  | .num _ 0 _, .num _ 0 _ => 0x7FC00000
  | _, .num _ 0 _ => inf
  | a, b =>
    let p := a.frac
    let q := b.frac
    BitVec.ofNat 32 (fp32.encodeFrac s (p.1 * q.2) (p.2 * q.1) .rne).1

/-- A fraction of non-negative integers rounded once to FP32. -/
def ratio32 (n d : Nat) : W32 := BitVec.ofNat 32 (fp32.encodeFrac false n d .rne).1

/-! ### cosramp (R293) -/

/-- Terms of atan(1 ÷ k), alternating, in fixed point. -/
def atanTerms : Nat → Nat → Nat → Nat → Int → Int
  | 0, _, _, _, acc => acc
  | t + 1, k, n, p, acc =>
    let term : Int := (p / (2 * n + 1) : Nat)
    atanTerms t k (n + 1) (p / (k * k)) (if n % 2 = 0 then acc + term else acc - term)

def atanInv (k : Nat) : Int := atanTerms 120 k 0 (fxOne / k) 0

/-- π in fixed point, by Machin's formula. -/
def piFx : Int := 16 * atanInv 5 - 4 * atanInv 239

/-- Terms of cos x for a fixed-point x². -/
def cosTerms : Nat → Int → Nat → Int → Int → Int
  | 0, _, _, _, acc => acc
  | t + 1, xx, n, p, acc => cosTerms t xx (n + 1) (-(p * xx / fxOne / ((2 * n + 1) * (2 * n + 2) : Nat))) (acc + p)

/-- 0.5 (1 + cos πp) = cos²(πp ÷ 2) of a fraction p from 0 to 1, rounded once. -/
def cosramp (p : FV) : W32 :=
  let f := p.frac
  if f.1 = f.2 then 0
  else
    let x := piFx * (f.1 * fxOne / f.2 : Nat) / fxOne / 2
    let c := cosTerms 100 (x * x / fxOne) 0 fxOne 0
    ratio32 (c * c / fxOne).toNat fxOne

namespace Stc

/-- The open step, or the next one. -/
def step (c : Stc) : Nat := c.num Reg.stcStep

/-- The module fingerprint. -/
def print (c : Stc) : W64 := BitVec.ofNat 64 (c.num Reg.stcFprintHi * 2 ^ 32 + c.num Reg.stcFprintLo)
def setPrint (c : Stc) (v : W64) : Stc :=
  (c.setNum Reg.stcFprintLo (v.toNat % 2 ^ 32)).setNum Reg.stcFprintHi (v.toNat / 2 ^ 32)

/-! ### The loss-scale keeper (R165 to R167) -/

def exp (c : Stc) : Int := signed 8 (c.field Reg.stcLsState 7 0)
def minExp (c : Stc) : Int := signed 8 (c.field Reg.stcLsCfg 15 8)
def maxExp (c : Stc) : Int := signed 8 (c.field Reg.stcLsCfg 23 16)

/-- The FP32 bit pattern of S = 2^EXP. -/
def scaleBits (c : Stc) : W32 := BitVec.ofNat 32 ((c.exp + 127).toNat * 2 ^ 23)

def setKeeper (c : Stc) (e : Int) (clean : Nat) : Stc := c.setNum Reg.stcLsState (clean * 65536 + unsigned 8 e)

/-- A CLEAN verdict: CLEAN and EXP, and the history fill of a holding with delayed scaling (R170). -/
def keepClean (c : Stc) : Stc :=
  let n := c.field Reg.stcLsState 31 16
  let iv := c.field Reg.stcLsGrowth 15 0
  let c :=
    if iv = 0 ∨ n + 1 < iv then c.setKeeper c.exp (min (n + 1) 65535)
    else c.setKeeper (if c.exp < c.maxExp then c.exp + 1 else c.exp) 0
  let fill := c.field Reg.stcHist 4 0
  if c.field Reg.stcCfg 7 7 = 1 ∧ fill < 16 then
    let c := c.setField Reg.stcHist 4 0 (fill + 1)
    if fill + 1 = 16 then c.setField Reg.stcHist 31 31 1 else c
  else c

/-- An OVERFLOW verdict with EXP above MIN_EXP, or at it. -/
def keepOverflow (c : Stc) : Stc :=
  (c.setKeeper (if c.minExp < c.exp then c.exp - 1 else c.exp) 0).count Reg.stcSkips 1

/-! ### The combination (R283, R284) -/

/-- RING_N; 0 acts as 1. -/
def ringN (c : Stc) : Nat := max 1 (c.field Reg.stcNormCfg 15 8)
def ringPos (c : Stc) : Nat := c.field Reg.stcNormCfg 7 0

def part (c : Stc) (i : Nat) : Option W64 := Tab.get (fun _ => none) c.parts i
def setPart (c : Stc) (i : Nat) (v : W64) : Stc := { c with parts := Tab.set (fun _ => none) c.parts i (some v) }

/-- Every ring position's partial is held. -/
def allParts (c : Stc) : Bool := (List.range c.ringN).all fun i => (c.part i).isSome

/-- G: the partials added in ascending position, each add RNE64. -/
def total (c : Stc) : W64 :=
  (List.range c.ringN).foldl (fun g i => toF64 ((f64 g).add (f64 ((c.part i).getD 0)))) 0

/-- κ of a finite G. -/
def kappa (c : Stc) (g : W64) : W32 :=
  let n := fp32.round (sqrt64 (f64 g))
  let clip := f32 ((c.reg Reg.stcNormClip).setWidth 32)
  if clip.isZero || n.le clip then 0x3F800000 else div32 clip n

/-! ### The schedule engine (R293) -/

def fp (c : Stc) (o : Nat) : FV := f32 ((c.reg o).setWidth 32)

/-- A difference of two registers, rounded on its own. -/
def diff (a b : FV) : FV := fp32.round (a.sub b)

/-- x + y × z in one rounding. -/
def fused (x y z : FV) : W32 := toF32 (FV.fma y z x)

/-- The factor of the curve at update u, before the re-warm. -/
def curve (c : Stc) (u : Nat) : W32 :=
  let w := c.num Reg.stcSchedWarm
  let d := c.num Reg.stcSchedDecay
  let start := c.fp Reg.stcSchedFStart
  let peak := c.fp Reg.stcSchedFPeak
  let last := c.fp Reg.stcSchedFEnd
  if u < w then fused start (f32 (ratio32 (u + 1) w)) (diff peak start)
  else if d = 0 then (c.reg Reg.stcSchedFPeak).setWidth 32
  else
    let v := u - w
    if d ≤ v ∧ c.field Reg.stcSchedCfg 2 2 = 0 then (c.reg Reg.stcSchedFEnd).setWidth 32
    else
      let p := f32 (ratio32 (v % d) d)
      if c.field Reg.stcSchedCfg 1 0 = 1 then fused last (f32 (cosramp p)) (diff peak last)
      else fused peak p (diff last peak)

/-- FACTOR: the curve's factor, times the re-warm's while DONE is below LEN. -/
def factor (c : Stc) (u : Nat) : W32 :=
  let len := c.field Reg.stcSchedRewarm 31 16
  let done := c.field Reg.stcSchedRewarm 15 0
  let f := c.curve u
  if done < len then toF32 ((f32 f).mul (f32 (ratio32 (done + 1) len))) else f

/-- The five handles: ROW, FRAC, FACTOR, COUNT, KAPPA. -/
def recordOf (c : Stc) : List W32 :=
  let u := c.num Reg.stcSchedPos
  let l := 2 ^ c.field Reg.stcSchedCfg 15 12
  let i := min (u / l) 1022
  let frac := if l ≤ u - i * l then 0x3F800000 else ratio32 (u - i * l) l
  [BitVec.ofNat 32 (i * 32), frac, c.factor u, ratio32 (min (u + 1) (2 ^ 24)) 1, (c.reg Reg.stcNormKappa).setWidth 32]

/-- The registers once the record and its verdict TOKENs have been sent: POS, and REWARM.DONE below LEN (R286). -/
def advanceSchedule (c : Stc) : Stc :=
  let len := c.field Reg.stcSchedRewarm 31 16
  let done := c.field Reg.stcSchedRewarm 15 0
  let c := c.count Reg.stcSchedPos 1
  if done < len then c.setField Reg.stcSchedRewarm 15 0 (done + 1) else c

end Stc

/-! ### Chunk fingerprints (R272) -/

/-- One bit of the CRC-64, most significant first. -/
def crc64Bit (crc : W64) (b : Bool) : W64 :=
  if crc.getLsbD 63 != b then (crc <<< 1) ^^^ 0x42F0E1EBA9EA3693 else crc <<< 1

def crc64Byte (crc : W64) (b : Byte) : W64 :=
  [7, 6, 5, 4, 3, 2, 1, 0].foldl (fun c i => crc64Bit c (b.getLsbD i)) crc

def crc64 (bs : List Byte) : W64 := ~~~ (bs.foldl crc64Byte (~~~ 0))

/-- A chunk's fingerprint: the CRC over the step, the chunk index and the payload. -/
def chunkPrint (step : W32) (index : Nat) (payload : List Byte) : W64 :=
  crc64 (leBytes 4 step.toNat ++ leBytes 4 index ++ payload)

end Sys2Proof.Machine
end

