-- ==== Sys2Proof/Machine/Frames.lean ====
section
/-! DEFINITION. The Ebsober link's sending side (chapter 13): frames and their CRC, messages as bytes, the transmit
arbiter, and lanes with their replay buffers. A message starts a frame of its own (log 20). -/

namespace Sys2Proof
namespace Machine

/-! ### Frames (R304, R305) -/

/-- CRC-32 of IEEE 802.3, one byte on. -/
def crc32Byte (c : W32) (b : Byte) : W32 :=
  iter 8 (fun c => if c.getLsbD 0 then c >>> 1 ^^^ 0xEDB88320 else c >>> 1) (c ^^^ b.setWidth 32)

def crc32 (bs : List Byte) : W32 := ~~~ bs.foldl crc32Byte 0xFFFFFFFF

/-- A frame header's fields. -/
structure FrameHdr where
  credits : Nat := 0
  credv   : Bool := false
  cvc     : Nat := 0
  first   : Nat := 0
  vc      : Nat := 0
  pseq    : Nat := 0
  nak     : Bool := false
  ackv    : Bool := false
  ackseq  : Nat := 0
  lseq    : Nat := 0
  ftype   : Nat := 0
deriving DecidableEq, Repr

/-- The header's 96 bits as a number. -/
def FrameHdr.bits (h : FrameHdr) : Nat :=
  h.credits % 2 ^ 16 * 2 ^ 80 + b2n h.credv * 2 ^ 74 + h.cvc % 4 * 2 ^ 72 + h.first % 64 * 2 ^ 66 + h.vc % 4 * 2 ^ 64 +
  h.pseq % 2 ^ 32 * 2 ^ 32 + b2n h.nak * 2 ^ 29 + b2n h.ackv * 2 ^ 28 + h.ackseq % 4096 * 2 ^ 16 + h.lseq % 4096 * 16 +
  h.ftype % 16

def FrameHdr.parse (n : Nat) : FrameHdr :=
  { credits := bitsOf n 95 80, credv := n.testBit 74, cvc := bitsOf n 73 72, first := bitsOf n 71 66, vc := bitsOf n 65 64,
    pseq := bitsOf n 63 32, nak := n.testBit 29, ackv := n.testBit 28, ackseq := bitsOf n 27 16, lseq := bitsOf n 15 4,
    ftype := bitsOf n 3 0 }

/-- A frame's 640 bytes. -/
def frameOf (h : FrameHdr) (payload : List Byte) : List Byte :=
  let b := leBytes 12 h.bits ++ slice payload 0 624
  b ++ leBytes 4 (crc32 b).toNat

/-- The marker of a lane's codeword n (R303). A lane sends codewords without a gap; of those that it sends, the model lists
and counts the ones whose frames carry something (log 20). -/
def codewordMarker (n : Nat) : BitVec 20 := 0xA5C#12 ++ BitVec.ofNat 8 n

/-- Bits [19:8] of a codeword's marker are right, and it decoded. -/
def codewordGood (f : Frame) : Bool := f.decodes && f.marker.extractLsb' 8 12 == 0xA5C

/-- A received codeword holds a good frame. -/
def goodFrame (f : Frame) : Bool :=
  let n := ofLe (f.bytes.take 12)
  f.decodes && crc32 (f.bytes.take 636) == BitVec.ofNat 32 (ofLe (f.bytes.drop 636)) &&
    bitsOf n 3 0 ≤ 3 && bitsOf n 79 75 == 0 && bitsOf n 31 30 == 0

end Machine

open Machine

/-! ### Messages (R312) -/

/-- A message's header and payload. -/
def Msg.bytes (m : Msg) : List Byte :=
  leBytes 32 (m.op.toNat + m.status.toNat * 2 ^ 8 + m.tag.toNat * 2 ^ 16 + m.payload.length * 2 ^ 32 +
    m.addr.toNat * 2 ^ 48 + m.arg0.toNat * 2 ^ 96 + m.arg1.toNat * 2 ^ 128 + m.arg2.toNat * 2 ^ 192) ++ m.payload

/-- The message whose 32-byte header and payload begin a channel stream. -/
def Msg.parse (bs : List Byte) : Msg :=
  let n := ofLe (bs.take 32)
  { op := BitVec.ofNat 8 n, status := BitVec.ofNat 8 (bitsOf n 15 8), tag := BitVec.ofNat 13 (bitsOf n 28 16)
    addr := BitVec.ofNat 48 (bitsOf n 95 48), arg0 := BitVec.ofNat 32 (bitsOf n 127 96)
    arg1 := BitVec.ofNat 32 (bitsOf n 159 128), arg2 := BitVec.ofNat 64 (bitsOf n 255 192)
    payload := (bs.drop 32).take (bitsOf n 44 32) }

/-- Units of 64 bytes that a message costs (R309). -/
def Msg.units (m : Msg) : Nat := ceilDiv (32 + m.payload.length) 64

namespace Machine

/-- The virtual channel and the roles that carry an operation towards the module (R313, R318); none for an operation
that is sent to stores alone, or is unknown. -/
def opPlace (op : Nat) : Option (Nat × List Nat) :=
  if op ∈ [0x81, 0x82, 0x83, 0x84] then some (1, [1])
  else if op = 0x8F then some (1, [1, 2])
  else if op = 0x40 ∨ op = 0x41 then some (2, [2])
  else if op = 0xC1 then some (1, [2])
  else if op = 0x42 then some (3, [4])
  else if op = 0x43 then some (3, [2])
  else none

namespace Port
def credits (p : Port) (vc : Nat) : Nat := Tab.get (fun _ => 0) p.credit vc
def setCredits (p : Port) (vc n : Nat) : Port := { p with credit := Tab.set (fun _ => 0) p.credit vc n }
def freedOf (p : Port) (vc : Nat) : Nat := Tab.get (fun _ => 0) p.freed vc
def stream (p : Port) (vc : Nat) : List Byte := Tab.get (fun _ => []) p.streams vc
end Port

namespace Gate

/-! ### Lanes -/

def laneUp (g : Gate) (l : Nat) : Bool := (g.lane l).st = .up

/-- The lanes of a port that are UP. -/
def lanesUp (g : Gate) (k : Nat) : List Nat := ((List.range 8).map fun i => 8 * k + i).filter g.laneUp

def portState (g : Gate) (k : Nat) : PortState := (g.port k).st
def portIsUp (g : Gate) (k : Nat) : Bool := (g.port k).st = .up

/-- The role of a port. -/
def role (g : Gate) (k : Nat) : Nat := g.field (Reg.lnkPortCtrl k) 6 4

/-- A port takes an operation on a virtual channel: it is known, the channel is its own, and the role carries it (R313). -/
def carries (g : Gate) (k vc op : Nat) : Bool :=
  match opPlace op with
  | some (c, roles) => c == vc && roles.contains (g.role k)
  | none => false

/-- A frame leaves on a lane with the lane's acknowledgement state and the freed units of virtual channel cvc, in a
codeword of its own whose counter is one higher than the last one's (R303). In electrical idle nothing is seen of it. -/
def transmit (g : Gate) (l : Nat) (h : FrameHdr) (cvc : Nat) (payload : List Byte) : Gate :=
  let v := g.lane l
  let h := { h with
    nak := v.nak, ackv := true, ackseq := (v.rxSeq + 4095) % 4096
    credv := true, cvc, credits := (g.port (l / 8)).freedOf cvc }
  let word := (codewordMarker v.txCount.toNat, frameOf h payload)
  g.setLane l { v with txCount := v.txCount + 1, sent := if g.quiet then v.sent else v.sent ++ [word] }

/-- An IDLE frame. -/
def sendIdle (g : Gate) (l cvc : Nat) : Gate := g.transmit l {} cvc []

/-- A DATA frame leaves on a lane under its next LSEQ and into its replay buffer (R306); in MISMATCH it stays there (R319). -/
def sendOn (g : Gate) (l : Nat) (t : TxFrame) : Gate :=
  let v := g.lane l
  let t := { t with lseq := v.txSeq }
  let g := g.setLane l { v with txSeq := (v.txSeq + 1) % 4096, replayBuf := v.replayBuf ++ [t] }
  if g.portState (l / 8) = .mismatch then g
  else g.transmit l { first := t.first, vc := t.vc, pseq := t.pseq, lseq := t.lseq, ftype := 1 } t.vc t.bytes

/-- Frames of a port not yet acknowledged. -/
def unacked (g : Gate) (k : Nat) : List TxFrame := (g.lanesUp k).flatMap fun l => (g.lane l).replayBuf

/-- The lowest UP lane of a port with room in its replay buffer. -/
def openLane (g : Gate) (k : Nat) : Option Nat := (g.lanesUp k).find? fun l => (g.lane l).replayBuf.length < 256

/-- The DATA frames of a message: payload of 624 bytes each, FIRST 0 in the first and 63 in the rest. -/
def framesOf (bs : List Byte) : List (Nat × List Byte) :=
  (List.range (ceilDiv bs.length 624)).map fun i => (if i = 0 then 0 else 63, slice bs (624 * i) 624)

/-- A DATA frame of a port, under the next PSEQ (R308). -/
def sendData (g : Gate) (k vc : Nat) (f : Nat × List Byte) : Gate :=
  match g.openLane k with
  | none => g
  | some l =>
    let p := g.port k
    let g := g.setPort k { p with txPseq := (p.txPseq + 1) % 2 ^ 32 }
    g.sendOn l { lseq := 0, pseq := p.txPseq, vc, first := f.1, bytes := f.2 }

/-! ### The transmit arbiter (R326) -/

/-- Bytes that a message weighs: those a request for data will draw, else its own. -/
def weight (m : Msg) : Nat :=
  if m.op = 0x01 then m.arg0.toNat else if m.op = 0x03 then m.arg2.toNat else 32 + m.payload.length

/-- SHARE of a holding's allotment; above 256 it acts as 256. -/
def share (g : Gate) (h : Nat) : Nat := min 256 (g.field (Reg.gatAllot h) 8 0)

/-- The first message of a list that the credits of its channel cover. -/
def ready (p : Port) (on : Nat × Nat × Msg → Bool) : Option (Nat × Nat × Msg) :=
  match p.txMsgs.find? on with
  | some e => if e.2.2.units ≤ p.credits e.1 then some e else none
  | none => none

/-- Rounds until the deficit of a holding covers its message. -/
def rounds (g : Gate) (p : Port) (e : Nat × Nat × Msg) : Nat :=
  ceilDiv (weight e.2.2 - Tab.get (fun _ => 0) p.deficit e.2.1) (64 * g.share e.2.1)

/-- The message to send next and the arbiter after it: CTRL, then RSP, then REQ and PEER by deficit round robin among
the holdings, a holding of share 0 only where no other has a message. -/
def pick (g : Gate) (k : Nat) : Option (Port × (Nat × Nat × Msg)) :=
  let p := g.port k
  match ready p fun e => e.1 == 3, ready p fun e => e.1 == 1 with
  | some e, _ => some (p, e)
  | none, some e => some (p, e)
  | none, none =>
    let all := (List.range 16).filterMap fun h => ready p fun e => (e.1 == 0 || e.1 == 2) && e.2.1 == h
    let heavy := all.filter fun e => g.share e.2.1 ≠ 0
    match heavy with
    | [] => all.head?.map fun e => (p, e)
    | e :: _ =>
      let r := (heavy.map (g.rounds p)).foldl min (g.rounds p e)
      let first := heavy.filter fun e => g.rounds p e = r
      let after := first.filter fun e => p.turn < e.2.1
      match (after ++ first).head? with
      | none => none
      | some w =>
        let deficit := heavy.foldl (fun t e =>
          let d := Tab.get (fun _ => 0) p.deficit e.2.1 + r * 64 * g.share e.2.1
          Tab.set (fun _ => 0) t e.2.1 (if e.2.1 = w.2.1 then d - weight w.2.2 else d)) ([] : Tab Nat)
        some ({ p with deficit, turn := w.2.1 }, w)

/-- The next PSEQ less the lowest one of a frame not yet acknowledged. -/
def pseqSpan (g : Gate) (k : Nat) : Nat :=
  ((g.unacked k).map fun t => ((g.port k).txPseq + 2 ^ 32 - t.pseq) % 2 ^ 32).foldl max 0

/-- Messages leave a port that is UP while credits allow, and no frame's PSEQ is 256 or more above the lowest one not yet
acknowledged (R308). -/
def pump (k : Nat) : Nat → Gate → Gate
  | 0, g => g
  | fuel + 1, g =>
    if !g.portIsUp k then g
    else match g.pick k with
      | none => g
      | some (p, e) =>
        let fs := framesOf e.2.2.bytes
        if 256 < g.pseqSpan k + fs.length then g
        else
          let p := { p with txMsgs := p.txMsgs.erase e }.setCredits e.1 (p.credits e.1 - e.2.2.units)
          pump k fuel (fs.foldl (fun g f => g.sendData k e.1 f) (g.setPort k p))

/-- Everything that can leave a port leaves. -/
def flush (g : Gate) (k : Nat) : Gate := pump k ((g.port k).txMsgs.length + 1) g

/-- Queue a message at a port, and send what can leave. -/
def post (g : Gate) (k vc hold : Nat) (m : Msg) : Gate :=
  let p := g.port k
  (g.setPort k { p with txMsgs := p.txMsgs ++ [(vc, hold, m)] }).flush k

/-- An operation that is answered. -/
def msgRequest (op : Nat) : Bool := op ∈ [0x01, 0x02, 0x03, 0x04, 0x41]

/-- A message that the port does not take is discarded and counted, and a request answered with MALFORMED (R313). -/
def discardMsg (g : Gate) (k : Nat) (m : Msg) : Gate :=
  let g := g.setPort k { g.port k with discarded := (g.port k).discarded + 1 }
  if msgRequest m.op.toNat then g.post k 1 16 { op := 0x8F, status := 4, tag := m.tag } else g

end Gate
end Machine
end Sys2Proof
end

