-- ==== Sys2Proof/Machine/Streams.lean ====
section
/-! DEFINITION. Gate stream channels (chapter 13): descriptors, requests to the stores and through the merger, packets to
and from the wafer, completion, failures and retries, aborts and destruction. -/

namespace Sys2Proof.Machine
namespace Gate

/-! ### Descriptors (R322) -/

def ctxHold (g : Gate) (c : Nat) : Nat := g.field (Reg.gatChCfg c) 13 10
def ctxPort (g : Gate) (c : Nat) : Nat := g.field (Reg.gatChCfg c) 5 4
def ctxWrite (g : Gate) (c : Nat) : Bool := bit (g.reg (Reg.gatChCfg c)) 0
def ctxMulti (g : Gate) (c : Nat) : Bool := bit (g.reg (Reg.gatChCfg c)) 6
def ctxShard (g : Gate) (c : Nat) : Bool := bit (g.reg (Reg.gatChCfg c)) 7
def ctxClass (g : Gate) (c : Nat) : Bool := bit (g.reg (Reg.gatChCfg c)) 9
def ctxNotify (g : Gate) (c : Nat) : Bool := bit (g.reg (Reg.gatChCfg c)) 31
def ctxPlane (g : Gate) (c : Nat) : Plane := if bit (g.reg (Reg.gatChCfg c)) 8 then .b else .a
def ctxAddr (g : Gate) (c : Nat) : Nat := g.num (Reg.gatChAddrLo c) + g.field (Reg.gatChAddrHi c) 15 0 * 2 ^ 32
def ctxLen (g : Gate) (c : Nat) : Nat := g.num (Reg.gatChLen c) + 1
def ctxDest (g : Gate) (c : Nat) : Nat := g.num (Reg.gatChDest c)
def ctxDoff (g : Gate) (c : Nat) : Nat := g.num (Reg.gatChDoff c)

/-- Port 3, a multicast WRITE, a multicast destination with other bits set, or a store range past 2^48. -/
def ctxIllegal (g : Gate) (c : Nat) : Bool :=
  g.ctxPort c == 3 || g.ctxMulti c && (g.ctxWrite c || bitsOf (g.ctxDest c) 31 24 != 0 || bitsOf (g.ctxDest c) 15 12 != 0) ||
    2 ^ 48 < g.ctxAddr c + g.ctxLen c

/-- A context's handle (R225). -/
def handle (g : Gate) (gi c : Nat) : W32 :=
  BitVec.ofNat 32 (2 ^ 30 + (0x7000 + gi) * 2 ^ 15 + c * 16 + (g.chan c).gen.toNat)

def modChan (g : Gate) (c : Nat) (f : Chan → Chan) : Gate := g.setChan c (f (g.chan c))

/-- Retries per request, GAT_CFG.RETRY. -/
def retryLimit (g : Gate) : Nat := g.field Reg.gatCfg 2 0

/-! ### Store requests (R314) -/

/-- A write of the store: RANGE_WRITE or SHARD_OUT. -/
def storeWrites (r : StoreReq) : Bool := r.msg.op == 0x02 || r.msg.op == 0x04

/-- Bytes of the store that a request covers. -/
def storeLen (r : StoreReq) : Nat :=
  if r.msg.op = 0x01 then r.msg.arg0.toNat else if r.msg.op = 0x02 then r.msg.payload.length else r.msg.arg2.toNat

/-- The store at the other end of a port, by its DEVICE_ID. -/
def storeAt (g : Gate) (port : Nat) : W64 := ((g.port port).caps.getD {}).deviceId

/-- Two requests on one store of which one writes and whose ranges overlap. -/
def overlaps (a b : StoreReq) : Bool :=
  let lo (r : StoreReq) : Nat := r.msg.addr.toNat
  (storeWrites a || storeWrites b) && lo a < lo b + storeLen b && lo b < lo a + storeLen a

/-- Two requests of the gate that may not be outstanding together. -/
def conflict (g : Gate) (a b : StoreReq) : Bool := (a.port == b.port || g.storeAt a.port == g.storeAt b.port) && overlaps a b

/-- A request that another gate has outstanding, with its store, may not be so together with this one. -/
def farConflict (g : Gate) (o : W64 × StoreReq) (r : StoreReq) : Bool := o.1 == g.storeAt r.port && overlaps o.2 r

/-- Sent and unanswered. -/
def sentReq (r : StoreReq) : Bool := !r.heldBack && !r.backoff

/-- Sent at some time and not answered: on its way, in its backoff, or waiting to be sent again (R314). -/
def unanswered (r : StoreReq) : Bool := !r.heldBack || 0 < r.retries

/-- The next free of the 8,192 tags. -/
def freeTag (g : Gate) : Option Nat :=
  let n := (g.store.filter fun r => r.tag < 8192).length
  if 8192 ≤ n then none
  else ((List.range (n + 1)).map fun i => (g.nextTag + i) % 8192).find? fun t => g.store.all fun r => r.tag != t

/-- A request under the next free tag, or under none. -/
def tagged (g : Gate) (r : StoreReq) : Gate × StoreReq :=
  match g.freeTag with
  | some t => ({ g with nextTag := (t + 1) % 8192 }, { r with tag := t, msg := { r.msg with tag := BitVec.ofNat 13 t } })
  | none => (g, { r with tag := 8192 })

/-- Put a request under a tag, or in wait of one, held until it can be sent; first, where it goes before all others. -/
def hold (g : Gate) (port : Nat) (m : Msg) (parts : List (Nat × Nat × Nat)) (first : Bool := false) : Gate :=
  let r := g.tagged { tag := 8192, port, msg := m, parts, heldBack := true }
  { r.1 with store := if first then r.2 :: r.1.store else r.1.store ++ [r.2] }

/-- A merger's group as the request that it will be. -/
def groupReq (m : MergeGroup) : StoreReq :=
  { tag := 8192, port := m.port, parts := m.parts
    msg := { op := 0x01, addr := BitVec.ofNat 48 m.lo, arg0 := BitVec.ofNat 32 (m.hi - m.lo) } }

/-- The request at a place of the list can be sent (R314, R318): its port is UP and a store's, a tag is free for it here and
at the store, no request before it or in the merger conflicts with it, nor one sent by this gate or, in far, by another. -/
def sendable (g : Gate) (far : List (W64 × StoreReq)) (i : Nat) (r : StoreReq) : Bool :=
  let others := g.store.eraseIdx i
  r.heldBack && g.portIsUp r.port && g.role r.port == 1 && (r.tag < 8192 || g.freeTag.isSome) &&
    (others.filter fun o => o.port = r.port && sentReq o).length < ((g.port r.port).caps.getD {}).maxTags &&
    (others.all fun o => !(unanswered o && g.conflict o r)) && (far.all fun o => !g.farConflict o r) &&
    (g.merger.all fun m => !g.conflict (groupReq m) r) &&
    (g.store.take i).all fun o => !(o.heldBack && g.conflict o r)

/-- Send every held request that can be sent, in order. -/
def releaseFrom (far : List (W64 × StoreReq)) (i : Nat) : Nat → Gate → Gate
  | 0, g => g
  | fuel + 1, g =>
    match g.store[i]? with
    | none => g
    | some r =>
      if g.sendable far i r then
        let hold := match r.parts with
          | (c, _, _) :: _ => g.ctxHold c
          | [] => 16
        let t := if r.tag < 8192 then (g, r) else g.tagged r
        let g := { t.1 with store := t.1.store.set i { t.2 with heldBack := false } }
        releaseFrom far (i + 1) fuel (g.post r.port 0 hold t.2.msg)
      else releaseFrom far (i + 1) fuel g

/-! ### The request merger (R325) -/

/-- The index of the oldest group that a request may join. -/
def joins (g : Gate) (port lo n : Nat) : Option Nat :=
  g.merger.findIdx? fun m =>
    m.port == port && lo ≤ m.hi && m.lo ≤ lo + n && max m.hi (lo + n) - min m.lo lo ≤ 65536

/-- A group leaves as one RANGE_READ, before the requests that came after its own. -/
def sendGroup (g : Gate) (i : Nat) : Gate :=
  match g.merger[i]? with
  | none => g
  | some m => { g with merger := g.merger.eraseIdx i }.hold m.port (groupReq m).msg m.parts true

/-- A write of this gate, or one that another has outstanding, holds a new read back (R314). -/
def blocked (g : Gate) (far : List (W64 × StoreReq)) (m : MergeGroup) : Bool :=
  (g.store.any fun o => storeWrites o && g.conflict o (groupReq m)) ||
    far.any fun o => storeWrites o.2 && g.farConflict o (groupReq m)

/-- A new read into the merger: it joins a group or opens one. -/
def join (g : Gate) (r : MergeGroup) : Gate :=
  match g.joins r.port r.lo (r.hi - r.lo) with
  | some i =>
    match g.merger[i]? with
    | none => g
    | some m =>
      let m := { m with lo := min m.lo r.lo, hi := max m.hi r.hi, parts := m.parts ++ r.parts }
      let g := { g with merger := g.merger.set i m }.count Reg.gatMerged 1
      if 65536 ≤ m.hi - m.lo then g.sendGroup i else g
  | none => { g with merger := g.merger ++ [r] }

/-- A new RANGE_READ of a channel: into the merger, unless a write holds it back, or under a tag of its own. -/
def rangeRead (g : Gate) (far : List (W64 × StoreReq)) (r : MergeGroup) : Gate :=
  if !bit (g.reg Reg.gatCfg) 16 then g.hold r.port (groupReq r).msg r.parts
  else if g.blocked far r then { g with waiting := g.waiting ++ [r] }
  else g.join r

/-- What can go on does: reads that no write holds back any more go to the merger, and held requests out. -/
def release (g : Gate) (far : List (W64 × StoreReq)) : Gate :=
  let g := g.waiting.foldl (fun g r => g.rangeRead far r) { g with waiting := [] }
  releaseFrom far 0 g.store.length g

/-- A request part belongs to a context. -/
def partOf (c : Nat) (p : Nat × Nat × Nat) : Bool := p.1 == c

/-- What a context has asked of the stores, in the merger, before it and under tags. -/
def storeParts (g : Gate) (c : Nat) : Nat :=
  ((g.waiting ++ g.merger).map fun m => (m.parts.filter (partOf c)).length).sum + (g.store.map fun r => (r.parts.filter (partOf c)).length).sum

/-- A context that stops issuing takes back what it has not sent. -/
def dropUnsent (g : Gate) (c : Nat) : Gate :=
  let less (ms : List MergeGroup) : List MergeGroup :=
    (ms.map fun m => { m with parts := m.parts.filter fun p => !partOf c p }).filter fun m => !m.parts.isEmpty
  let store := (g.store.map fun r =>
    if sentReq r then r else { r with parts := r.parts.filter fun p => !partOf c p }).filter fun r => sentReq r || !r.parts.isEmpty
  { g with merger := less g.merger, waiting := less g.waiting, store }

/-- ABORT of a context (R323). -/
def abortChan (g : Gate) (c : Nat) (cause : Nat := 6) : Gate :=
  let v := g.chan c
  if v.st = .run then (g.setChan c (v.stop cause 0 0 true)).dropUnsent c else g.setChan c v.abort

/-- DESTROY of a context: a running channel is aborted first, and the context FREE once it has ended. -/
def destroyChan (g : Gate) (c : Nat) (cause : Nat := 6) : Gate :=
  let g := if (g.chan c).st = .run then g.abortChan c cause else g
  g.modChan c Chan.destroy

/-- Contexts of a holding that are not FREE. -/
def contextsOf (g : Gate) (h : Nat) : List Nat := (g.chans.filter fun e => e.2.st != .free && g.ctxHold e.1 == h).map (·.1)

end Gate

namespace State

def modGate (s : State) (gi : Nat) (f : Gate → Gate) : State := s.setGate gi (f (s.gate gi))

/-- Requests that the other gates have sent and that are not answered, each with its store. -/
def sentElsewhere (s : State) (gi : Nat) : List (W64 × StoreReq) :=
  s.gates.flatMap fun e =>
    if e.1 = gi then [] else (e.2.store.filter Gate.unanswered).map fun r => (e.2.storeAt r.port, r)

/-- The held store requests of every gate that can go out do. -/
def releaseStores (s : State) : State :=
  (s.gates.map (·.1)).foldl (fun s gi => s.modGate gi fun g => g.release (s.sentElsewhere gi)) s

/-- Raise a source of a gate's GAT_FAULT (R380). -/
def raiseGate (s : State) (gi b code : Nat) (opc : W16) (syn : W64 := 0) (cls : Bool := false) (hold : Option Nat := none) :
    State :=
  let g := s.gate gi
  let s := s.setGate gi (g.setReg Reg.gatFault (g.reg Reg.gatFault ||| BitVec.ofNat 64 (2 ^ b)))
  s.raise code (locGate gi) syn opc (some cls) hold

/-- Halt a channel of a gate: it drains, and GATE_HALT carries its status and handle (R324, R392). -/
def haltGate (s : State) (gi c cause : Nat) (code : Byte) (used : Nat) (opc : W16) : State :=
  let g := s.gate gi
  if (g.chan c).st = .run then
    let g := (g.setChan c ((g.chan c).stop cause code used false)).dropUnsent c
    (s.setGate gi g).raiseGate gi 0 56 opc (BitVec.ofNat 64 ((g.handle gi c).toNat * 2 ^ 32 + (g.chan c).status))
      (g.ctxClass c) (some (g.ctxHold c))
  else s

/-- A message that waits at a port is served. -/
def takeMsg (s : State) (gi k : Nat) (m : Msg) : State :=
  s.modGate gi fun g => g.setPort k { g.port k with rx := (g.port k).rx.erase m }

/-- A message for a step controller is served, at the first port where it waits. -/
def takeAnyMsg (s : State) (m : Msg) : State :=
  match (List.range 84).find? fun i => ((s.gate (i / 3)).port (i % 3)).rx.contains m with
  | some i => s.takeMsg (i / 3) (i % 3) m
  | none => s

/-! ### Packets of a channel (R297) -/

/-- A packet of a channel, before its TAG. -/
def gatePacket (s : State) (gi c op dest vc : Nat) : Packet :=
  let g := s.gate gi
  { op := BitVec.ofNat 8 op, dest := BitVec.ofNat 16 dest, src := BitVec.ofNat 16 (0x7000 + gi), vc := BitVec.ofNat 2 vc,
    origVc := BitVec.ofNat 2 vc, plane := if vc = 2 then .b else g.ctxPlane c, holding := BitVec.ofNat 4 (g.ctxHold c)
    tclass := g.ctxClass c, who := .gate gi c }

/-- Send a packet at the channel's attach point, or the next that is alive, under the channel's next sequence number. -/
def gateTagged (s : State) (gi c : Nat) (k : Packet) : State × Packet :=
  let v := (s.gate gi).chan c
  let att := (s.liveAttach gi (c % 12) k.plane).getD 0
  let k := { k with tag := BitVec.ofNat 16 (att * 4096 + v.seq % 4096) }
  ((s.modGate gi fun g => g.modChan c fun v => { v with seq := (v.seq + 1) % 4096 }).emit [k], k)

/-- Send a request that is answered. -/
def gateRequest (s : State) (gi c : Nat) (k : Packet) (len : Nat) : State :=
  let r := s.gateTagged gi c k
  r.1.modGate gi fun g => g.modChan c fun v => { v with outst := v.outst ++ [{ pkt := r.2, len }] }

/-- Bytes complete. -/
def gateBytes (s : State) (gi c n : Nat) : State :=
  s.modGate gi fun g => g.modChan c fun v => { v with bytes := v.bytes + n }

/-- Store data into the wafer from window offset off on: WRITE packets of at most 512 bytes, none across a 512-byte
boundary; a multicast one counts as it leaves the network interface (R242). -/
def gateWrite (gi c off : Nat) (bs : List Byte) : Nat → State → State
  | 0, s => s
  | fuel + 1, s =>
    if bs.isEmpty then s
    else
      let g := s.gate gi
      let n := min bs.length (512 - off % 512)
      let d := g.ctxDest c
      let multi := g.ctxMulti c
      let k := { s.gatePacket gi c 0x01 (if multi then 0xFFFF else bitsOf d 26 12) (if multi then 2 else 0) with
        mgroup := if multi then BitVec.ofNat 8 (bitsOf d 23 16) else 0
        window := BitVec.ofNat 4 (bitsOf d 11 8), gen := BitVec.ofNat 8 (bitsOf d 7 0)
        offset := BitVec.ofNat 32 off, length := BitVec.ofNat 13 n, payload := bs.take n }
      let s := if multi then (s.gateTagged gi c { k with who := .castGate gi c (g.chan c).gen }).1 else s.gateRequest gi c k n
      gateWrite gi c (off + n) (bs.drop n) fuel s

/-! ### A channel going on (R322, R323) -/

/-- Requests of one channel that are unanswered at a time, of each kind (log 20). -/
def streamDepth : Nat := 16

/-- The next request of a READ channel. -/
def readStep (s : State) (gi c : Nat) (m : Moving) : Option State :=
  let g := s.gate gi
  let a := g.ctxAddr c + m.next
  let port := g.ctxPort c
  if streamDepth ≤ g.storeParts c then none
  else if g.ctxShard c then
    let msg : Msg := { op := 0x03, addr := BitVec.ofNat 48 a, arg2 := BitVec.ofNat 64 m.len }
    let g := g.modChan c fun v => { v with moving := some { m with next := m.len } }
    some (s.setGate gi (g.hold port msg [(c, a, m.len)])).releaseStores
  else
    let n := min (m.len - m.next) (4096 - a % 4096)
    let g := g.modChan c fun v => { v with moving := some { m with next := m.next + n } }
    some (s.setGate gi (g.rangeRead (s.sentElsewhere gi) { port, lo := a, hi := a + n, parts := [(c, a, n)] })).releaseStores

/-- The SHARD_OUT of a context, if it is sent. -/
def shardOut (g : Gate) (c : Nat) : Option StoreReq :=
  g.store.find? fun r => r.msg.op == 0x04 && Gate.sentReq r && r.parts.any (Gate.partOf c)

/-- The next read of a WRITE channel: one piece of at most 4,096 bytes at a time, after its SHARD_OUT where it has one. -/
def writeStep' (s : State) (gi c : Nat) (m : Moving) : Option State :=
  let g := s.gate gi
  let v := g.chan c
  let begun := g.storeParts c ≠ 0
  if g.ctxShard c ∧ m.next = 0 ∧ !begun then
    let a := g.ctxAddr c
    let msg : Msg := { op := 0x04, addr := BitVec.ofNat 48 a, arg2 := BitVec.ofNat 64 m.len }
    some (s.setGate gi (g.hold (g.ctxPort c) msg [(c, a, m.len)])).releaseStores
  else if (v.outst.any fun r => r.pkt.op == 0x02) || streamDepth ≤ g.storeParts c || g.ctxShard c && (shardOut g c).isNone then none
  else
    let n := min (m.len - m.next) 4096
    let d := g.ctxDest c
    let k := { s.gatePacket gi c 0x02 (bitsOf d 26 12) 0 with
      window := BitVec.ofNat 4 (bitsOf d 11 8), gen := BitVec.ofNat 8 (bitsOf d 7 0)
      offset := BitVec.ofNat 32 (g.ctxDoff c + m.next), length := BitVec.ofNat 13 n }
    let s := s.modGate gi fun g =>
      { g.modChan c fun v => { v with moving := some { m with next := m.next + n } } with
        buffered := Tab.set (fun _ => []) g.buffered c [] }
    some (s.gateRequest gi c k n)

/-- Issue what the channel can. -/
def gatePump (gi c : Nat) : Nat → State → State
  | 0, s => s
  | fuel + 1, s =>
    let g := s.gate gi
    match (g.chan c).st, (g.chan c).moving with
    | .run, some m =>
      if m.len ≤ m.next then s
      else match (if g.ctxWrite c then s.writeStep' gi c m else s.readStep gi c m) with
        | some t => gatePump gi c fuel t
        | none => s
    | _, _ => s

/-- The channel's last acknowledgement: its notify TOKEN goes out, or it is DONE. -/
def gateFinish (s : State) (gi c : Nat) : State :=
  let g := s.gate gi
  let v := g.chan c
  let issued := match v.moving with
    | some m => m.len ≤ m.next
    | none => true
  if !(v.st = .run) || !issued || !v.outst.isEmpty || g.storeParts c != 0 then s
  else if g.ctxNotify c && !v.notified then
    let k := { s.gatePacket gi c 0x06 (g.field (Reg.gatChCfg c) 28 14) 0 with
      opdata := BitVec.ofNat 96 ((g.handle gi c).toNat + g.field (Reg.gatChCfg c) 30 29 * 2 ^ 32) }
    (s.gateRequest gi c k 0).modGate gi fun g => g.modChan c fun v => { v with notified := true }
  else s.modGate gi fun g => g.modChan c fun v => { v with st := .done, moving := none }

/-- A channel goes on after an answer. -/
def gateGo (s : State) (gi c : Nat) : State :=
  (gatePump gi c (2 * streamDepth + 4) s.releaseStores).gateFinish gi c

/-! ### Failures (R324) -/

/-- Part p of a failed store request: it is retried after its backoff, or at once when its port is UP again, or its
channel halts. In a drain it is gone, in doubt where no answer came. -/
def failPart (s : State) (gi : Nat) (r : StoreReq) (p : Nat × Nat × Nat) (cause code : Nat) (permits later : Bool) : State :=
  let g := s.gate gi
  let v := g.chan p.1
  if v.st = .draining then
    if cause = 4 then s.modGate gi fun g => g.modChan p.1 fun v => { v with indoubt := true } else s
  else if !(v.st = .run) then s
  else if !permits || g.retryLimit ≤ r.retries then s.haltGate gi p.1 cause (BitVec.ofNat 8 code) r.retries (msgOpcode r.msg)
  else
    let one := r.parts.length ≤ 1
    let msg := if one then r.msg else { r.msg with addr := BitVec.ofNat 48 p.2.1, arg0 := BitVec.ofNat 32 p.2.2 }
    let again := { r with msg, parts := [p], retries := r.retries + 1, backoff := !later, heldBack := later, got := if one then r.got else 0 }
    -- the first part keeps the tag, which is free again; any other takes one of its own
    let t := if g.store.any fun o => o.tag == r.tag then g.tagged again else (g, again)
    let g := { t.1 with store := t.1.store ++ [t.2] }
    let g := if r.msg.op = 0x04 then
      g.modChan p.1 fun v => { v with
        moving := some { v.moving.getD {} with next := 0 }, outst := v.outst.filter fun o => o.pkt.op != 0x02 }
      else g
    s.setGate gi g

/-- A store request fails: an ERROR for a merged group is one for each request in it (R325). -/
def failStore (s : State) (gi : Nat) (r : StoreReq) (cause code : Nat) (permits later : Bool) : State :=
  let s := s.modGate gi fun g => { g with store := g.store.erase r }
  (r.parts.foldl (fun s p => s.failPart gi r p cause code permits later) s).releaseStores

/-- A mesh request of a channel fails (R324, R240). -/
def failMesh (s : State) (gi c : Nat) (r : Req) (cause code : Nat) (permits : Bool) : State :=
  let g := s.gate gi
  let v := g.chan c
  let rest := v.outst.erase r
  if v.st = .draining then
    s.modGate gi fun g => g.setChan c { v with outst := rest, indoubt := v.indoubt || cause == 2 }
  else if !permits || g.retryLimit ≤ r.retries then
    (s.modGate gi fun g => g.setChan c { v with outst := rest }).haltGate gi c cause (BitVec.ofNat 8 code) r.retries
      (packetOpcode r.pkt)
  else s.modGate gi fun g => g.setChan c { v with outst := rest ++ [{ r with backoff := true }] }

/-! ### Commands of GAT_CH_CMD -/

def setGateErr (s : State) (gi c : Nat) (on : Bool) : State :=
  s.modGate gi fun g => g.setField (Reg.gatChCmd c) 29 29 (b2n on)

/-- A register write of holding h reaches a context: HOLDING 0xF reaches all, another those FREE or its own (R322). -/
def reaches (g : Gate) (c h : Nat) : Bool := h == 15 || (g.chan c).st = .free || g.ctxHold c == h

/-- START would raise the holding's contexts above its limit. -/
def overLimit (g : Gate) (c h : Nat) : Bool :=
  let n := (g.contextsOf h).length + (if (g.contextsOf h).contains c then 0 else 1)
  min 2048 (g.field (Reg.gatAllot h) 27 16) < n

/-- START of a context by a write of holding h: refused in RUN and DRAINING, refused above the limit, HALTED for an
illegal descriptor (log 21). -/
def gateStart (s : State) (gi c h : Nat) : State :=
  let g := s.gate gi
  let owner := if h = 15 then g.ctxHold c else h
  if g.lost || !reaches g c h then s
  else if (g.chan c).active then (s.setGateErr gi c true).raiseGate gi 2 58 (accessOpcode (Reg.gatChCmd c)) 0 (g.ctxClass c) (some (g.ctxHold c))
  else if overLimit g c owner then s.setGateErr gi c true
  else
    let v := (g.chan c).started 0 0 none
    let g := (g.setField (Reg.gatChCfg c) 13 10 owner).setChan c { v with moving := some { len := g.ctxLen c } }
    let s := (s.setGate gi g).setGateErr gi c false
    if g.ctxIllegal c then
      let s := s.modGate gi fun g => g.modChan c fun v => { v with st := .halted, cause := 5, moving := none }
      s.raiseGate gi 1 57 (accessOpcode (Reg.gatChCmd c)) 0 (g.ctxClass c) (some owner)
    else s.gateGo gi c

/-- ABORT and DESTROY act only with the context's generation. -/
def gateAbort (s : State) (gi c gen h : Nat) : State :=
  let g := s.gate gi
  if g.lost || !reaches g c h then s
  else if (g.chan c).gen.toNat ≠ gen then s.setGateErr gi c true
  else (s.modGate gi fun g => g.abortChan c).releaseStores.setGateErr gi c false

def gateDestroy (s : State) (gi c gen h : Nat) : State :=
  let g := s.gate gi
  if g.lost || !reaches g c h then s
  else if (g.chan c).gen.toNat ≠ gen then s.setGateErr gi c true
  else (s.modGate gi fun g => g.destroyChan c).releaseStores.setGateErr gi c false

end State

/-! ### The commands -/

def execGatChStart (g : GateId) (c : Ctx) (holding : BitVec 4) (s : State) : Host.Outcome State Fault Refusal :=
  .next (s.whenUp fun s => s.gateStart g c holding.toNat)

def execGatChAbort (g : GateId) (c : Ctx) (gen : BitVec 4) (s : State) : Host.Outcome State Fault Refusal :=
  .next (s.whenUp fun s => s.gateAbort g c gen.toNat 15)

def execGatChDestroy (g : GateId) (c : Ctx) (gen : BitVec 4) (s : State) : Host.Outcome State Fault Refusal :=
  .next (s.whenUp fun s => s.gateDestroy g c gen.toNat 15)

/-- The oldest request unanswered under a tag times out; one that waits for its port too. -/
def execStoreTimeout (g : GateId) (tag : BitVec 13) (s : State) : Host.Outcome State Fault Refusal :=
  match (s.gate g).store.find? fun r => r.tag = tag.toNat && !r.backoff with
  | none => .next s
  | some r => .next (s.failStore g r 4 0 true false)

/-- The oldest group of the merger has waited MERGE_WAIT cycles. -/
def execMergeWaitExpiry (g : GateId) (s : State) : Host.Outcome State Fault Refusal :=
  .next (s.modGate g fun v => v.sendGroup 0).releaseStores

end Sys2Proof.Machine
end

