-- ==== Sys2Proof/Machine/Harvest.lean ====
section
/-! DEFINITION. The harvest round the ring (R262 to R264, R272, R316, R317): the ports towards a neighbour, and the chunks
that the module starts, adds to, sends on and keeps. -/

namespace Sys2Proof.Machine

/-! ### Chunks as numbers -/

/-- FP32 values of a payload of FP32 or BF16 elements. -/
def chunkValues (bf : Bool) (bs : List Byte) : List W32 :=
  let w := if bf then 2 else 4
  (List.range (bs.length / w)).map fun i =>
    let n := ofLe (slice bs (w * i) w)
    if bf then toF32 (bf16.decode n) else BitVec.ofNat 32 n

/-- The payload of FP32 values: with BF16 each is rounded once more, by RNE (R263). -/
def chunkPayload (bf : Bool) (vs : List W32) : List Byte :=
  vs.flatMap fun v => if bf then leBytes 2 (bf16.encode (f32 v)).1 else leBytes 4 v.toNat

/-- RNE32(incoming + own partial), element by element. -/
def chunkSum (own : Nat → W32) (vs : List W32) : List W32 :=
  vs.mapIdx fun i v => toF32 ((f32 v).add (f32 (own i)))

namespace State

/-! ### Ports and ring neighbours -/

/-- Global ports of a role and direction that are UP: gate and local port, in ascending global port order. -/
def portsOf (s : State) (role dir : Nat) : List (Nat × Nat) :=
  ((List.range 84).map fun i => (i / 3, i % 3)).filter fun gk =>
    let g := s.gate gk.1
    (g.port gk.2).st = .up && g.field (Reg.lnkPortCtrl gk.2) 6 4 == role && g.field (Reg.lnkPortCtrl gk.2) 9 8 == dir

/-- The device at a port's other end. -/
def partnerOf (s : State) (gk : Nat × Nat) : W64 := ((((s.gate gk.1).port gk.2).caps).getD {}).deviceId

/-- The devices at the other ends of ports, each once. -/
def devicesOf (s : State) (ps : List (Nat × Nat)) : List W64 :=
  ps.foldl (fun l gk => if l.contains (s.partnerOf gk) then l else l ++ [s.partnerOf gk]) []

/-- The port for chunk i to each device in a direction: of its ports that are UP, number i modulo their count (R316); both
members of a mirrored position are served (R317). -/
def chunkPorts (s : State) (dir i : Nat) : List (Nat × Nat) :=
  let ps := s.portsOf 2 dir
  (s.devicesOf ps).filterMap fun d =>
    let mine := ps.filter fun gk => s.partnerOf gk = d
    mine[i % mine.length]?

/-! ### The replay horizon (R264) -/

/-- The holding whose open attempt a chunk belongs to: its step and count of installation-wide replays are the chunk's
(log 22). -/
def chunkHolding (s : State) (m : Msg) : Option Nat :=
  (List.range 16).find? fun h =>
    let c := s.stc h
    s.acts h && c.stepOpen && decide (1 < c.ringN) && c.step == m.arg0.toNat &&
      c.ireplays % 8 == bitsOf m.arg1.toNat 2 0

/-- A gate has sent a chunk of holding h on a PEER port: the attempt that it is of is past its horizon. -/
def passHorizon (s : State) (h : Nat) (m : Msg) : State :=
  let c := s.stc h
  if !c.horizon && c.step == m.arg0.toNat && c.ireplays % 8 == bitsOf m.arg1.toNat 2 0 then s.setStc h { c with horizon := true }
  else s

/-- A gate has acknowledged a chunk at the link level. -/
def chunkAcked (s : State) (m : Msg) : State :=
  match s.chunkHolding m with
  | some h => s.passHorizon h m
  | none => s

/-- Chunks that wait at a port to be sent, with their holdings. -/
def chunksAt (s : State) (gi k : Nat) : List (Nat × Msg) :=
  (((s.gate gi).port k).txMsgs.filter fun e => e.1 == 2 && e.2.2.op == 0x40).map fun e => e.2

/-- Of the chunks that waited at a port, those that are gone have been sent. -/
def chunksLeave (s : State) (was : List (Nat × Msg)) (gi k : Nat) : State :=
  (was.filter fun e => !(s.chunksAt gi k).contains e).foldl (fun s e => s.passHorizon e.1 e.2) s

/-- Everything that can leave a port leaves, chunks among it. -/
def flushPort (s : State) (gi k : Nat) : State := (s.modGate gi fun g => g.flush k).chunksLeave (s.chunksAt gi k) gi k

/-! ### Sending on, and keeping -/

/-- A chunk that a gate sends or keeps enters the module fingerprint (R272). -/
def countChunk (s : State) (h i : Nat) (payload : List Byte) : State :=
  let c := s.stc h
  s.setStc h (c.setPrint (c.print ^^^ chunkPrint (BitVec.ofNat 32 c.step) i payload))

/-- A chunk goes to ports, whose gates send it as their credits allow. -/
def launch (s : State) (h i : Nat) (m : Msg) (ps : List (Nat × Nat)) : State :=
  ps.foldl (fun s gk =>
    (s.modGate gk.1 fun g => g.post gk.2 2 h m).chunksLeave ((h, m) :: s.chunksAt gk.1 gk.2) gk.1 gk.2) (s.countChunk h i m.payload)

/-- Values leave as a chunk: half 0 towards NEXT, half 1 towards PREV. Where no port of that direction is UP, the chunk waits
for one: DESIGN CHOICE (log 10). -/
def sendChunk (s : State) (h i half : Nat) (vs : List W32) : State :=
  let c := s.stc h
  let bf := Config.harvestBf16 h
  let m : Msg :=
    { op := 0x40, addr := BitVec.ofNat 48 i, arg0 := BitVec.ofNat 32 c.step, payload := chunkPayload bf vs
      arg1 := BitVec.ofNat 32 (c.ireplays % 8 + half * 2 ^ 8 + b2n bf * 2 ^ 9) }
  match s.chunkPorts (1 + half) i with
  | [] => s.setStc h { c with unsent := c.unsent ++ [(half, i, m)] }
  | ps => s.launch h i m ps

/-- The chunks of a holding that waited for a port of their direction leave where one is UP now. -/
def sendUnsent (s : State) (h : Nat) : State :=
  let c := s.stc h
  let go (e : Nat × Nat × Msg) : Bool := !(s.chunkPorts (1 + e.1) e.2.1).isEmpty
  if c.unsent.any go then
    (c.unsent.filter go).foldl (fun s e => s.launch h e.2.1 e.2.2 (s.chunkPorts (1 + e.1) e.2.1))
      (s.setStc h { c with unsent := c.unsent.filter fun e => !go e })
  else s

/-- The chunks of every holding that waited for a port. -/
def sendWaiting (s : State) : State := (List.range 16).foldl sendUnsent s

/-- The final sum of a half of a chunk of the module's own shard is kept, as FP32: it crosses no link, so no rounding to
BF16 is due (R263; log 10). Keeping one is no passing of the horizon, for no gate sends or acknowledges it. -/
def keepChunk (s : State) (h i half : Nat) (vs : List W32) : State :=
  let bs := chunkPayload false vs
  let s := s.countChunk h i bs
  s.setStc h { s.stc h with kept := Tab.set (fun _ => []) (s.stc h).kept (2 * i + half) bs }

/-- Values of chunk i of a half at this module: kept where it owns the shard, else sent on (R262). -/
def passChunk (s : State) (h i half : Nat) (vs : List W32) : State :=
  let c := s.stc h
  if Config.chunkShard h i % c.ringN = c.ringPos % c.ringN then s.keepChunk h i half vs else s.sendChunk h i half vs

/-- The harvest croft that adds up a half of a chunk, and its first accumulator row there. -/
def harvestSite (s : State) (h i half : Nat) : Option Site :=
  (s.siteOf (Config.harvestHome h i half).1).filter fun x => x.live

def harvestRow (h i half e : Nat) : Nat := (Config.harvestHome h i half).2 + e / 64

/-- The module's own partial of a chunk: the sum that its harvest croft holds, element by element (R261). -/
def ownChunk (s : State) (h i half : Nat) : Nat → W32 := fun e =>
  match s.harvestSite h i half, decide (harvestRow h i half e < 512) with
  | some x, true => (x.accValues (harvestRow h i half e)).getD (e % 64) 0
  | _, _ => Config.ownPartial h (s.stc h).step i half e

/-- The sum that the harvest croft has formed stands in its accumulator rows, as an ADDIN leaves it (R145, R262). -/
def holdSum (s : State) (h i half : Nat) (vs : List W32) : State :=
  match s.harvestSite h i half with
  | none => s
  | some x =>
    let row := harvestRow h i half 0
    s.onCroft x.q fun x => x.store (Site.accRow row) ((vs.take ((512 - row) * 64)).flatMap fun v => leBytes 4 v.toNat)

/-- This module starts half 0 of shard j at position j + 1, and half 1 at j − 1. -/
def startsHalf (c : Stc) (shard half : Nat) : Bool :=
  c.ringPos % c.ringN == (if half = 0 then shard + 1 else shard + c.ringN - 1) % c.ringN

/-- The chunks that this module starts leave with its own partial, once in an attempt. -/
def startChunks (s : State) (h : Nat) : State :=
  let c := s.stc h
  if c.started then s
  else
    let all := (Config.harvestIndices h).flatMap fun i => [(i, 0), (i, 1)]
    let mine := all.filter fun e => startsHalf c (Config.chunkShard h e.1 % c.ringN) e.2
    mine.foldl (fun s e =>
      s.passChunk h e.1 e.2 ((List.range (Config.chunkElems h e.1)).map (s.ownChunk h e.1 e.2)))
      (s.setStc h { c with started := true })

/-- A received chunk: the module adds its own partial, and sends the sum on or keeps it. -/
def addChunk (s : State) (h i half : Nat) (bf : Bool) (payload : List Byte) : State :=
  let s := s.startChunks h
  let s := s.setStc h { s.stc h with chunks := (s.stc h).chunks ++ [2 * i + half], horizon := true }
  let vs := chunkSum (s.ownChunk h i half) (chunkValues bf payload)
  (s.holdSum h i half vs).passChunk h i half vs

end State
end Sys2Proof.Machine
end

