-- ==== Sys2Proof/Machine/Link.lean ====
section
/-! DEFINITION. The Ebsober link (chapter 13): ports and cages, lane training, frames received with their
acknowledgements and credits, port order, channel streams, capabilities and time. -/

namespace Sys2Proof.Machine

/-- LNK_LANE_STATUS.STATE. -/
def LaneState.code : LaneState → Nat
  | .off => 0 | .train => 1 | .lock => 2 | .caps => 3 | .up => 4 | .retrain => 5 | .failed => 6

/-- LNK_PORT_STATUS.STATE. -/
def PortState.code : PortState → Nat
  | .off => 0 | .training => 1 | .up => 2 | .mismatch => 3 | .down => 4

namespace Gate

/-- LNK_LANE_STATUS. -/
def laneStatus (g : Gate) (l : Nat) : Nat :=
  let v := g.lane l
  min v.retrains 255 * 2 ^ 16 + b2n v.adapted * 8 + v.st.code

/-- A port that has left UP or been turned off begins afresh (log 20); messages that are no requests wait. -/
def freshPort (p : Port) (st : PortState) : Port :=
  { st, cable := p.cable, powered := p.powered, nextRole := p.nextRole, barred := p.barred, txMsgs := p.txMsgs.filter fun e => e.1 != 0
    discarded := p.discarded, permuted := p.permuted, rx := p.rx }

/-- MIN_LANES; 0 acts as 1, above 8 as 8. -/
def minLanes (g : Gate) (k : Nat) : Nat := max 1 (min 8 (g.field (Reg.lnkPortCtrl k) 27 24))

/-- The partner matches (R319). -/
def partnerOk (g : Gate) (k : Nat) : Bool :=
  match (g.port k).caps with
  | none => false
  | some c =>
    let want := if g.role k = 1 then 1 else 0
    let id := g.num (Reg.lnkExpectIdHi k) * 2 ^ 32 + g.num (Reg.lnkExpectIdLo k)
    (c.kind == want || c.kind == 2 && bit (g.reg (Reg.lnkPortCtrl k)) 10) && (id == 0 || c.deviceId.toNat == id)

/-- The frames of a lane that has left UP are sent again on the port's other lanes under their PSEQ (R307). -/
def rehome (g : Gate) (l : Nat) : Gate :=
  let v := g.lane l
  let k := l / 8
  v.replayBuf.foldl (fun g t =>
    match g.openLane k with
    | some j => g.sendOn j t
    | none => g) (g.setLane l { v with replayBuf := [] })

/-- A lane in a new state; a barred one stays FAILED. -/
def moveLane (g : Gate) (l : Nat) (st : LaneState) : Gate :=
  let v := g.lane l
  if v.barred then g
  else
    let g := g.setLane l { v with st, goodRun := 0, badRun := 0 }
    if v.st = .up then g.rehome l else g

/-- The role that was written before the port came UP (R320). -/
def takeRole (g : Gate) (k : Nat) : Gate :=
  match (g.port k).nextRole with
  | some r => (g.setPort k { g.port k with nextRole := none }).setField (Reg.lnkPortCtrl k) 6 4 r
  | none => g

end Gate

namespace State

/-- Raise a source of a gate's LNK_FAULT (R329). -/
def raiseLink (s : State) (gi b : Nat) (loc : W32) (syn : W64 := 0) (opc : W16 := 0) : State :=
  let g := s.gate gi
  (s.setGate gi (g.setReg Reg.lnkFault (g.reg Reg.lnkFault ||| BitVec.ofNat 64 (2 ^ b)))).raise (60 + b) loc syn opc

/-- Every unanswered request on a port fails as it goes down (R324). -/
def failPort (s : State) (gi k : Nat) : State :=
  ((s.gate gi).store.filter fun r => r.port = k && Gate.sentReq r).foldl (fun s r => s.failStore gi r 7 0 true true) s

/-! ### Time from a partner (R321) -/

/-- The port that may slew module time: the lowest UP PEER port whose partner's last TIME frame carried EPOCH_LOCK. -/
def timePort (s : State) : Option Nat :=
  (List.range 84).find? fun i =>
    let g := s.gate (i / 3)
    g.portIsUp (i % 3) && g.role (i % 3) == 2 && (g.port (i % 3)).timeLock

/-- A slew towards a partner ends with the port's place as the one that slews. -/
def checkSlew (s : State) : State :=
  if s.clock.slewPort.isSome && s.clock.slewPort != s.timePort then
    { s with clock := { s.clock with slew := 0, slewPort := none } }
  else s

/-! ### Ports (R307, R319, R320) -/

/-- A port whose partner does not match; the requests of one that was UP fail. -/
def portMismatch (s : State) (gi k : Nat) (opc : W16) : State :=
  let p := (s.gate gi).port k
  let s := (s.modGate gi fun g => g.setPort k { p with st := .mismatch }).raiseLink gi 2 (locPort gi k) 0 opc
  if p.st = .up then s.failPort gi k else s

/-- Every lane of a port OFF. -/
def lanesOff (s : State) (gi k : Nat) : State :=
  (List.range 8).foldl (fun s i => s.modGate gi fun g => g.moveLane (8 * k + i) .off) s

/-- A cage without its supply. -/
def unpower (s : State) (gi k : Nat) (st : PortState) : State :=
  s.modGate gi fun g => g.setPort k { Gate.freshPort (g.port k) st with powered := false, cable := none }

/-- A port comes UP, and a role written before takes effect: the partner must match it too, and UNUSED, which carries
nothing, turns the cage off (R318). -/
def portUp (s : State) (gi k : Nat) (opc : W16) : State :=
  let s := s.modGate gi fun g => g.takeRole k
  if (s.gate gi).role k = 0 then (s.lanesOff gi k).unpower gi k .off
  else if (s.gate gi).partnerOk k then
    ((s.modGate gi fun g => g.setPort k { g.port k with st := .up }).releaseStores.flushPort gi k).sendWaiting
  else s.portMismatch gi k opc

/-- The port's state follows its UP lanes and its partner; opc is the OPCODE of what a register write brings about. -/
def portUpdate (s : State) (gi k : Nat) (opc : W16 := 0) : State :=
  let g := s.gate gi
  let p := g.port k
  (if g.minLanes k ≤ (g.lanesUp k).length then
    if g.partnerOk k then (if p.st = .up then s.flushPort gi k else s.portUp gi k opc)
    else if p.st = .mismatch then s
    else s.portMismatch gi k opc
  else if p.st = .up ∨ p.st = .mismatch then
    ((s.setGate gi (g.setPort k (Gate.freshPort p .down))).raiseLink gi 1 (locPort gi k) 0 opc).failPort gi k
  else s).checkSlew

/-- A lane in a new state, and its port after it. -/
def laneTo (s : State) (gi l : Nat) (st : LaneState) : State :=
  (s.modGate gi fun g => g.moveLane l st).portUpdate gi (l / 8)

/-- FAILED, with LANE_DOWN. -/
def laneFail (s : State) (gi l : Nat) : State :=
  let s := s.modGate gi fun g => g.moveLane l .failed
  let g := s.gate gi
  let syn := g.num (Reg.lnkLaneMeas l) * 2 ^ 32 + g.laneStatus l
  (s.raiseLink gi 0 (locLane gi l) (BitVec.ofNat 64 syn)).portUpdate gi (l / 8)

/-- Train from the beginning. -/
def laneTrain (s : State) (gi l : Nat) : State :=
  (s.modGate gi fun g => g.setLane l { g.lane l with attempts := 1 }).laneTo gi l .train

/-- RETRAIN, or FAILED after three retrains within 10 s (R301). -/
def laneRetrain (s : State) (gi l : Nat) : State :=
  let v := (s.gate gi).lane l
  let recent := v.times.filter fun t => s.clock.now < t + 10000000000
  if 3 ≤ recent.length then s.laneFail gi l
  else
    (s.modGate gi fun g => g.setLane l
      { g.lane l with attempts := 1, retrains := v.retrains + 1, times := recent ++ [s.clock.now] }).laneTo gi l .retrain

/-- The module's unit serial number (R310). -/
def serial (s : State) : W64 := if s.active = some 1 then s.sec.fuses1.serial else s.sec.fuses0.serial

/-! ### CAPS and TIME frames (R310, R311) -/

/-- Bytes 12 to 44 of the module's CAPS frame. -/
def capsPayload (s : State) (gi k : Nat) (ack : Bool) : List Byte :=
  leBytes 2 0x0100 ++ [0, BitVec.ofNat 8 (b2n ack + 2 + 4 * b2n s.clock.epochLock)] ++ leBytes 8 s.serial.toNat ++
    [BitVec.ofNat 8 (3 * gi + k), 8] ++ leBytes 2 0 ++ leBytes 2 256 ++ leBytes 2 2048 ++ leBytes 2 2048 ++ leBytes 2 128 ++
    leBytes 6 0 ++ [s.sec.image.ringPos, s.sec.image.ringN, s.sec.image.mirror]

def sendCaps (s : State) (gi l : Nat) : State :=
  let payload := s.capsPayload gi (l / 8) ((s.gate gi).lane l).capsRx
  s.modGate gi fun g => g.transmit l { ftype := 3 } 0 payload

/-- A partner's capabilities; `raw` compares without CAPS_ACK and EPOCH_LOCK. -/
def capsOf (b : List Byte) : Caps :=
  let at_ (lo n : Nat) : Nat := ofLe (slice b lo n)
  { kind := at_ 2 1, flags := b.getD 3 0, deviceId := BitVec.ofNat 64 (at_ 4 8), maxTags := at_ 14 2
    credits := [at_ 16 2, at_ 18 2, at_ 20 2, at_ 22 2], storeSize := at_ 24 6
    ringPos := b.getD 30 0, ringN := b.getD 31 0, mirror := b.getD 32 0
    raw := (slice b 0 33).set 3 (b.getD 3 0 &&& 0xFA) }

/-- A lane comes UP with its sequence numbers at zero. -/
def enterUp (s : State) (gi l : Nat) : State :=
  (s.modGate gi fun g => g.setLane l { g.lane l with
    txSeq := 0, rxSeq := 0, nakSeen := none, replays := 0, replayBuf := [] }).laneTo gi l .up

/-- A good CAPS frame. The port takes EPOCH_LOCK from it; in state CAPS, CAPS_ACK is answered, and the lane enters UP once both sides have set it, or fails
where its partner differs from the one recorded. -/
def takeCaps (s : State) (gi l : Nat) (b : List Byte) : State :=
  let k := l / 8
  let c := capsOf b
  let ack := c.flags.getLsbD 0
  let s := s.modGate gi fun g => g.setPort k { g.port k with epochLock := c.flags.getLsbD 2 }
  if !(((s.gate gi).lane l).st = .caps) then s
  else
    let s := s.modGate gi fun g => g.setLane l { g.lane l with capsRx := true }
    let s := s.sendCaps gi l
    let p := (s.gate gi).port k
    match p.caps with
    | some d =>
      if d.raw ≠ c.raw then (s.laneFail gi l).raiseLink gi 2 (locPort gi k)
      else if !ack then s
      else s.enterUp gi l
    | none =>
      if !ack then s
      else
        -- no more than 32,767 units are ever outstanding on a channel (R309)
        let credit := (List.range 4).foldl (fun t vc => Tab.set (fun _ => 0) t vc (min 32767 (c.credits.getD vc 0))) ([] : Tab Nat)
        (s.modGate gi fun g => g.setPort k { p with caps := some c, credit }).enterUp gi l

/-- Bytes 12 to 39 of a TIME frame. -/
def timePayload (s : State) (p : Port) : List Byte :=
  [BitVec.ofNat 8 (b2n s.clock.epochLock), 0, 0, 0] ++ leBytes 8 s.clock.now ++ leBytes 8 p.lastTTx ++ leBytes 8 p.lastTRx

def sendTime (s : State) (gi k : Nat) : State :=
  let g := s.gate gi
  if g.portIsUp k || g.portState k = .mismatch then
    match (g.lanesUp k).head? with
    | none => s
    | some l => s.modGate gi fun g => g.transmit l { ftype := 2 } 0 (s.timePayload (g.port k))
  else s

/-- A good TIME frame. -/
def takeTime (s : State) (gi l : Nat) (b : List Byte) : State :=
  let k := l / 8
  let at_ (lo : Nat) : Int := ofLe (slice b lo 8)
  let now : Int := s.clock.now
  let offset := (at_ 20 - at_ 12 + (at_ 4 - now)) / 2
  let delay := (now - at_ 12 - (at_ 4 - at_ 20)) / 2
  let s := s.modGate gi fun g =>
    let lock := (b.getD 0 0).getLsbD 0
    let p := { g.port k with epochLock := lock, timeLock := lock, lastTTx := ofLe (slice b 4 8), lastTRx := s.clock.now }
    ((g.setPort k p).setNum (Reg.lnkTimeOffset k) (unsigned 32 offset)).setNum (Reg.lnkTimeDelay k) (unsigned 32 delay)
  if !s.clock.epochLock && s.timePort == some (3 * gi + k) then
    { s with clock := { s.clock with slew := offset, slewPort := s.timePort } }
  else s.checkSlew

/-! ### Acknowledgements (R306, R309) -/

/-- Send a lane's unacknowledged frames again, 25.6 ns each; the eighth replay without an advance takes it to RETRAIN. A port
in MISMATCH sends none (R319). -/
def replayLane (s : State) (gi l : Nat) : State :=
  let v := (s.gate gi).lane l
  if v.replayBuf.isEmpty || (s.gate gi).portState (l / 8) = .mismatch then s
  else
    let fin := s.clock.now + ceilDiv (256 * v.replayBuf.length) 10
    let s := s.modGate gi fun g =>
      let g := (g.count (Reg.lnkPortReplays (l / 8)) 1).setLane l { v with replays := v.replays + 1, replayEnd := fin }
      v.replayBuf.foldl (fun g t =>
        g.transmit l { first := t.first, vc := t.vc, pseq := t.pseq, lseq := t.lseq, ftype := 1 } t.vc t.bytes) g
    if 8 ≤ v.replays + 1 then s.laneRetrain gi l else s

/-- The acknowledgement, the NAK and the credits of a frame header. -/
def takeAck (s : State) (gi l : Nat) (h : FrameHdr) : State :=
  let k := l / 8
  let v := (s.gate gi).lane l
  let s := if h.credv then s.modGate gi fun g =>
      let p := g.port k
      let d := (h.credits + 2 ^ 16 - Tab.get (fun _ => 0) p.seen h.cvc) % 2 ^ 16
      g.setPort k { p.setCredits h.cvc (p.credits h.cvc + d) with seen := Tab.set (fun _ => 0) p.seen h.cvc h.credits }
    else s
  if !(v.st = .up) || !h.ackv then s.flushPort gi k
  else
    let n := match v.replayBuf.findIdx? fun t => t.lseq == h.ackseq with
      | some i => i + 1
      | none => 0
    let v := if n = 0 then v else { v with replayBuf := v.replayBuf.drop n, replays := 0, nakSeen := none }
    -- a further NAK with the same ACKSEQ counts once the replay that it would repeat has been sent
    let again := h.nak && (v.nakSeen != some h.ackseq || v.replayEnd ≤ s.clock.now)
    let v := if again then { v with nakSeen := some h.ackseq } else v
    let s := s.modGate gi fun g => g.setLane l v
    let s := if again then s.replayLane gi l else s
    s.flushPort gi k

/-! ### DATA frames (R306, R308, R312, R313) -/

/-- A message that a port serves: one that waits there, or one that arrives as it is served, which the port must take. -/
def atPort (s : State) (gi k vc : Nat) (m : Msg) (act : State → State) : State :=
  let g := s.gate gi
  if (g.port k).rx.contains m then act (s.takeMsg gi k m)
  else if !g.portIsUp k then s
  else if g.carries k vc m.op.toNat then act s
  else s.modGate gi fun g => g.discardMsg k m

/-- A message is complete in its channel stream: its units are freed, and it waits to be served, or is discarded. A harvest
chunk has been acknowledged at the link level by then. -/
def msgArrives (gi k vc : Nat) (m : Msg) (s : State) : State :=
  let takes := (s.gate gi).carries k vc m.op.toNat
  let s := s.modGate gi fun g =>
    let p := g.port k
    let p := { p with freed := Tab.set (fun _ => 0) p.freed vc ((p.freedOf vc + m.units) % 2 ^ 16) }
    if takes then g.setPort k { p with rx := p.rx ++ [m] } else (g.setPort k p).discardMsg k m
  if takes && m.op == 0x40 then s.chunkAcked m else s

/-- Messages of a channel stream: padding is passed over, and a whole message taken off. -/
def parseStream (gi k vc : Nat) : Nat → State → State
  | 0, s => s
  | fuel + 1, s =>
    let p := (s.gate gi).port k
    let b := p.stream vc
    let put (b : List Byte) (s : State) : State := s.modGate gi fun g =>
      let p := g.port k
      g.setPort k { p with streams := Tab.set (fun _ => []) p.streams vc b }
    if b.length < 16 then s
    else if b.head? = some 0 then parseStream gi k vc fuel (put (b.drop 16) s)
    else
      let whole := ceilDiv (32 + bitsOf (ofLe (slice b 4 2)) 12 0) 16 * 16
      if b.length < whole then s
      else parseStream gi k vc fuel (msgArrives gi k vc (Msg.parse (b.take whole)) (put (b.drop whole) s))

/-- Release held frames in PSEQ order to their channels. -/
def releaseFrames (gi k : Nat) : Nat → State → State
  | 0, s => s
  | fuel + 1, s =>
    let p := (s.gate gi).port k
    match p.held.find? fun e => e.1 = p.rxPseq with
    | none => s
    | some e =>
      let p := { p with
        held := p.held.erase e, rxPseq := (p.rxPseq + 1) % 2 ^ 32
        streams := Tab.set (fun _ => []) p.streams e.2.1 (p.stream e.2.1 ++ e.2.2) }
      let s := s.modGate gi fun g => g.setPort k p
      releaseFrames gi k fuel (parseStream gi k e.2.1 ((p.stream e.2.1).length / 16 + 1) s)

/-- A discard at a lane: NAK until the expected frame comes. -/
def discardFrame (s : State) (gi l : Nat) : State :=
  s.modGate gi fun g =>
    let up := (g.lane l).st = .up
    let g := g.setLane l { g.lane l with nak := true }
    if up then g.sendIdle l 0 else g

/-- A good DATA frame: accepted in its lane's order on a lane that is UP, whether or not enough lanes are UP for the port to
be so; any other is discarded. A port in MISMATCH carries none: DESIGN CHOICE, it discards it (log 91). -/
def takeData (s : State) (gi l : Nat) (h : FrameHdr) (b : List Byte) : State :=
  let k := l / 8
  let g := s.gate gi
  let v := g.lane l
  let p := g.port k
  if !(v.st = .up) ∨ g.portState k = .mismatch ∨ h.lseq ≠ v.rxSeq then s.discardFrame gi l
  else
    let s := s.modGate gi fun g => g.setLane l { v with rxSeq := (v.rxSeq + 1) % 4096, nak := false }
    let d := (h.pseq + 2 ^ 32 - p.rxPseq) % 2 ^ 32
    let s := if d < 256 ∧ !(p.held.any fun e => e.1 = h.pseq) then
        let t := s.modGate gi fun g => g.setPort k { p with held := p.held ++ [(h.pseq, h.vc, b)] }
        releaseFrames gi k 257 t
      else s
    s.modGate gi fun g => g.sendIdle l h.vc

/-- A lane holds codeword lock: CAPS, and CAPS frames leave. -/
def laneLock (s : State) (gi l : Nat) : State :=
  ((s.modGate gi fun g => g.setLane l { g.lane l with capsRx := false, nak := false }).laneTo gi l .caps).sendCaps gi l

/-- The marker and the counter of a codeword, and the runs of good and of bad codewords (R303). A bad one fails to decode or
carries no 0xA5C; a counter that does not rise by one breaks a run of good ones alone: DEDUCED (log 142). -/
def countCodeword (v : Lane) (f : Frame) : Lane :=
  let n : Byte := f.marker.extractLsb' 0 8
  let rises := v.rxCount.all fun m => n == m + 1
  { v with
    rxCount := if f.decodes then some n else v.rxCount.map (· + 1)
    goodRun := if !codewordGood f then 0 else if rises then v.goodRun + 1 else 1
    badRun := if codewordGood f then 0 else v.badRun + 1 }

/-- Lock after eight good codewords in LOCK, its loss after four bad ones in UP. -/
def lockUpdate (s : State) (gi l : Nat) : State :=
  let v := (s.gate gi).lane l
  if v.st = .lock ∧ 8 ≤ v.goodRun then s.laneLock gi l
  else if v.st = .up ∧ 4 ≤ v.badRun then s.laneRetrain gi l
  else s

/-- A frame received on a lane in CAPS or UP: a bad one is discarded, and a good one of the type that the command names
acted on. -/
def receiveFrame (s : State) (gi l : Nat) (f : Frame) (ftype : Nat) (act : State → FrameHdr → List Byte → State) : State :=
  let h := FrameHdr.parse (ofLe (f.bytes.take 12))
  let crcBad := crc32 (f.bytes.take 636) != BitVec.ofNat 32 (ofLe (f.bytes.drop 636))
  let s := s.modGate gi fun g =>
    if !f.decodes then g.count (Reg.lnkLaneFecUncorr l) 1
    else (g.count (Reg.lnkLaneFecCorr l) f.corr).count (Reg.lnkLaneCrcErr l) (b2n crcBad)
  if !goodFrame f then s.discardFrame gi l
  else if h.ftype ≠ ftype then s
  else act (s.takeAck gi l h) h ((f.bytes.drop 12).take 624)

/-- A codeword received on a lane that locks or has locked: its frame, where frames flow, and then its part in the lock.
While the stewards do not run or MOD_RESET_N is low the receivers ignore what comes (R20). -/
def receive (s : State) (gi l : Nat) (f : Frame) (ftype : Nat) (act : State → FrameHdr → List Byte → State) : State :=
  let st := ((s.gate gi).lane l).st
  if !s.alive || (s.gate gi).lost || !(st = .up || st = .caps || st = .lock) then s
  else
    let s := s.modGate gi fun g => g.setLane l (countCodeword (g.lane l) f)
    (if st = .lock then s else s.receiveFrame gi l f ftype act).lockUpdate gi l

/-! ### Ports and cages (R300, R301, R320, R419) -/

/-- The cable in a port's cage. -/
def cableOf (s : State) (gi k : Nat) : Option CableMemory := Tab.get (fun _ => none) s.cables (3 * gi + k)

/-- A cable that R300 accepts. -/
def cableOk (c : CableMemory) : Bool :=
  c.lanes == 8 && c.watts ≤ 25 && (if c.copper then c.lengthCm ≤ 150 else c.host200)

def enablePort (s : State) (gi k : Nat) : State :=
  let g := s.gate gi
  if !s.alive || g.lost || (g.port k).barred || bit (g.reg (Reg.lnkPortCtrl k)) 0 then s
  else
    let g := g.setField (Reg.lnkPortCtrl k) 0 0 1
    let p := g.port k
    s.setGate gi (if g.role k = 0 then g else g.setPort k { Gate.freshPort p .training with powered := true, cable := none })

/-- The cage goes off with every lane; a port that was UP goes down. -/
def cageOff (s : State) (gi k : Nat) (st : PortState) (opc : W16 := 0) : State :=
  ((s.lanesOff gi k).portUpdate gi k opc).unpower gi k st

def disablePort (s : State) (gi k : Nat) (opc : W16 := 0) : State :=
  (s.modGate gi fun g => g.setField (Reg.lnkPortCtrl k) 0 0 0).cageOff gi k .off opc

/-- The cable's memory is read: its lanes train, all but those that only a disable of the port lets train again (R301), or the
cage is turned off. -/
def checkCable (s : State) (gi k : Nat) : State :=
  let p := (s.gate gi).port k
  match s.cableOf gi k with
  | none => s
  | some c =>
    if !p.powered || p.cable.isSome then s
    else if cableOk c then
      let s := s.modGate gi fun g => g.setPort k { p with cable := some c, st := .training }
      (((List.range 8).map fun i => 8 * k + i).filter fun l => ((s.gate gi).lane l).st = .off).foldl
        (fun s l => s.laneTrain gi l) s
    else (s.cageOff gi k .off).raiseLink gi 3 (locPort gi k)

/-- A write of ROLE by R320: at once on a port that is UP, and when it comes UP on any other. UNUSED carries nothing, so a
port that takes it loses its lanes and its cage's supply (R318). -/
def writeRole (s : State) (gi k : Nat) (v : W32) : State :=
  let role := bitsOf v.toNat 6 4
  let g := s.gate gi
  let opc := accessOpcode (Reg.lnkPortCtrl k)
  if !s.alive || g.lost || 5 ≤ role then s
  else if g.portIsUp k then
    let t := s.setGate gi (g.setField (Reg.lnkPortCtrl k) 6 4 role)
    if role = 0 then t.cageOff gi k .off opc else (t.portUpdate gi k opc).sendWaiting
  else s.setGate gi (g.setPort k { g.port k with nextRole := some role })

end State

/-! ### The commands -/

def execPortEnable (g : GateId) (port : PortId) (s : State) : Host.Outcome State Fault Refusal := .next (s.enablePort g port)

def execPortDisable (g : GateId) (port : PortId) (s : State) : Host.Outcome State Fault Refusal :=
  if (s.gate g).lost then .next s else .next (s.disablePort g port)

def execRoleWrite (g : GateId) (port : PortId) (v : W32) (s : State) : Host.Outcome State Fault Refusal :=
  .next (s.writeRole g port v)

def execCableCheck (g : GateId) (port : PortId) (s : State) : Host.Outcome State Fault Refusal := .next (s.checkCable g port)

/-- Bit i of the flags that the cable declares fatal takes lane i of the port to FAILED. -/
def execCableAlarmPoll (g : GateId) (port : PortId) (fatal : Byte) (s : State) : Host.Outcome State Fault Refusal :=
  let ls := (List.range 8).filter fun i => fatal.getLsbD i && ((s.gate g).lane (8 * port + i)).st != .off &&
    ((s.gate g).lane (8 * port + i)).st != .failed
  .next (ls.foldl (fun s i => s.laneFail g (8 * port + i)) s)

/-- Equalisation has succeeded: LOCK, with the two figures of R302. -/
def execTrainSuccess (g : GateId) (l : LaneId) (loss : W16) (s : State) : Host.Outcome State Fault Refusal :=
  let v := (s.gate g).lane l
  if s.alive && (v.st = .train || v.st = .retrain) then
    let cable := ((s.gate g).port (l / 8)).cable
    let length := match cable with
      | some c => if c.copper then (loss.toNat - 30) * 20 / c.lossPerM else c.lengthCm / 5
      | none => 0
    let s := s.modGate g fun d =>
      (d.setLane l { v with adapted := true }).setNum (Reg.lnkLaneMeas l) (min length 0xFFFF * 2 ^ 16 + loss.toNat)
    .next (s.laneTo g l .lock)
  else .next s

/-- 500 ms without success: up to three attempts, then FAILED. -/
def execTrainTimeout (g : GateId) (l : LaneId) (s : State) : Host.Outcome State Fault Refusal :=
  let v := (s.gate g).lane l
  if v.st = .train ∨ v.st = .retrain then
    if 3 ≤ v.attempts then .next (s.laneFail g l)
    else .next (s.modGate g fun d => d.setLane l { v with attempts := v.attempts + 1 })
  else .next s

/-- Eight locked codewords: CAPS, and CAPS frames leave. -/
def execLock (g : GateId) (l : LaneId) (s : State) : Host.Outcome State Fault Refusal :=
  let v := (s.gate g).lane l
  if s.alive && v.st = .lock then .next (s.laneLock g l) else .next s

def execLockTimeout (g : GateId) (l : LaneId) (s : State) : Host.Outcome State Fault Refusal :=
  let v := (s.gate g).lane l
  if v.st = .lock ∨ v.st = .caps then .next (s.laneTrain g l) else .next s

def execLossOfLock (g : GateId) (l : LaneId) (s : State) : Host.Outcome State Fault Refusal :=
  if ((s.gate g).lane l).st = .up then .next (s.laneRetrain g l) else .next s

def execCaps (g : GateId) (l : LaneId) (f : Frame) (s : State) : Host.Outcome State Fault Refusal :=
  checked f.wellFormed (s.receive g l f 3 fun s _ b => s.takeCaps g l b)

def execData (g : GateId) (l : LaneId) (f : Frame) (s : State) : Host.Outcome State Fault Refusal :=
  checked f.wellFormed (s.receive g l f 1 fun s h b => s.takeData g l h b)

def execIdle (g : GateId) (l : LaneId) (f : Frame) (s : State) : Host.Outcome State Fault Refusal :=
  checked f.wellFormed (s.receive g l f 0 fun s _ _ => s)

def execTime (g : GateId) (l : LaneId) (f : Frame) (s : State) : Host.Outcome State Fault Refusal :=
  checked f.wellFormed (s.receive g l f 2 fun s _ b => s.takeTime g l b)

def execAckTimeout (g : GateId) (l : LaneId) (s : State) : Host.Outcome State Fault Refusal :=
  if ((s.gate g).lane l).st = .up then .next (s.replayLane g l) else .next s

def execTimeFrameTimer (g : GateId) (port : PortId) (s : State) : Host.Outcome State Fault Refusal :=
  .next (s.sendTime g port)

/-- A cable goes into a cage or out of it (R26): one that leaves takes its lanes or its management port down. -/
def execCableInsertRemove (c : Cage) (cable : Option CableMemory) (s : State) : Host.Outcome State Fault Refusal :=
  match c with
  | .management st =>
    let v := s.steward st
    .next (s.setSteward st { v with mgmtCable := cable.isSome
                                    mgmtUp := cable.isSome && s.up && 5 ≤ s.sec.stage && v.role != .lost })
  | .lane port =>
    let g := port.val / 3
    let k := port.val % 3
    let s := { s with cables := Tab.set (fun _ => none) s.cables port.val cable }
    match cable with
    | some _ => .next s
    | none =>
      let live := (List.range 8).filter fun i =>
        let st := ((s.gate g).lane (8 * k + i)).st
        st != .off && st != .failed
      let s := live.foldl (fun s i => s.laneFail g (8 * k + i)) s
      .next (s.modGate g fun d => d.setPort k { d.port k with cable := none })

/-- The cage's supply has gone off on a short: its port fails as a lost port (R419). -/
def execCageSupplyShort (g : GateId) (port : PortId) (s : State) : Host.Outcome State Fault Refusal :=
  let p := (s.gate g).port port
  if p.powered then .next ((s.cageOff g port .down).raiseLink g 3 (State.locPort g port)) else .next s

end Sys2Proof.Machine
end

