-- ==== Sys2Proof/Machine/Tally.lean ====
section
/-! DEFINITION. Tallies (R38, R90, R156 to R159): the record of a croft's TALLY word, and the sums of a reeve for the
oldest step it has not forwarded and the step after, with their timeouts. -/

namespace Sys2Proof.Machine

/-! ### The record (R158) -/

/-- OPDATA of a tally record, its bits counted from 160. -/
def tallyOpdata (step : Nat) (c : StepCounts) : BitVec 96 :=
  BitVec.ofNat 96 (step % 2 ^ 32 * 2 ^ 64 + min c.sat 65535 * 2 ^ 48 + min c.inf 65535 * 2 ^ 32 +
    min c.nan 65535 * 2 ^ 16 + min c.resid 32767 * 2 + 1)

namespace Site

/-- A TALLY word: the record goes to the reeve of the croft's parish, and the step counters are zero. -/
def tallyWord (x : Site) : Site :=
  match x.issuing 0xC with
  | none => x
  | some _ =>
    let k := { x.packet 0x10 (0x7200 + x.q / 500) 3 with
      holding := 0xF, opdata := tallyOpdata (x.num Reg.crfStep) x.c.counts }
    let y := (x.send k).issued
    { y with c := { y.c with counts := {} } }

end Site

/-! ### The reeve (R38) -/

namespace Tally

/-- A record's fields added to the sums, each saturating at 2^32 − 1. -/
def addRecord (t : Tally) (d : Nat) : Tally :=
  { t with
    sat := satAdd t.sat (bitsOf d 63 48), inf := satAdd t.inf (bitsOf d 47 32), nan := satAdd t.nan (bitsOf d 31 16)
    resid := satAdd t.resid (bitsOf d 15 1), acks := t.acks + bitsOf d 0 0, timing := true }

end Tally

namespace Parish

/-- PAR_TALLY_CFG.EXPECT; above 480 it acts as 480. -/
def expect (v : Parish) : Nat := min 480 (v.field Reg.parTallyCfg 8 0)

/-- The sums of the oldest step s or of s + 1; none for any other step. -/
def tallyOf (v : Parish) (step : W32) : Option Tally :=
  if step = v.tallyStep then some v.tally0
  else if step = v.tallyStep + 1 then some v.tally1
  else none

def setTally (v : Parish) (step : W32) (t : Tally) : Parish :=
  if step = v.tallyStep then { v with tally0 := t } else { v with tally1 := t }

/-- The oldest step is s, with no sums. -/
def tallyBase (v : Parish) (step : W32) : Parish := { v with tallyStep := step, tally0 := {}, tally1 := {} }

/-- The reeve discards the sums, the timeout and the forwarded mark of a step (R38, R268): a step that has gone out
is the oldest again. -/
def tallyDiscard (v : Parish) (step : W32) : Parish :=
  let v := { v with sentSums := v.sentSums.filter fun e => e.2.step != step }
  if step = v.tallyStep then { v with tally0 := {} }
  else if step + 1 = v.tallyStep then { v with tallyStep := step, tally0 := {}, tally1 := v.tally0 }
  else v.tallyBase step

end Parish

namespace State

/-- A reeve's summary for a holding on its way to the step controllers (R421). -/
def summaryPacket (s : State) (p h : Nat) (m : Summary) : Packet :=
  { control 0x10 (0x7200 + p) s.activeEndpoint 3 with who := .summary h m }

/-- Forward the summary of the oldest step to the holding's step controller; the reeve keeps it until it is acknowledged
(R335). PAR_TALLY_STAT.ACKS holds at most 511:
the spec gives no value for more, and 511 there is DESIGN CHOICE (log 125). -/
def forwardSummary (s : State) (p : Nat) : State :=
  let v := s.parish p
  let t := v.tally0
  let incomplete : Bool := t.acks < v.expect
  let m : Summary :=
    { parish := p, step := v.tallyStep, sat := BitVec.ofNat 32 t.sat, inf := BitVec.ofNat 32 t.inf,
      nan := BitVec.ofNat 32 t.nan, resid := BitVec.ofNat 32 t.resid, acks := t.acks, incomplete }
  let stat := v.tallyStep.toNat % 2 ^ 16 * 2 ^ 16 + b2n incomplete * 2 ^ 9 + min t.acks 511
  let h := s.owner p
  let v := { v with tallyStep := v.tallyStep + 1, tally0 := v.tally1, tally1 := {}, sentSums := v.sentSums ++ [(h, m)] }
  let s := s.setParish p (v.setReg Reg.parTallyStat (BitVec.ofNat 64 stat))
  let s := s.emit [s.summaryPacket p h m]
  if incomplete then s.raise 69 (locParish p) else s

/-- The oldest step's summary may go out. -/
def summaryDue (v : Parish) : Bool := v.expect != 0 && (v.expect ≤ v.tally0.acks || v.tally0.elapsed)

/-- Forward what is due: the oldest step, and then the next where it is due as well. This is asked at each record and
each timeout, and not at a write that lowers EXPECT: DESIGN CHOICE (log 126). -/
def forwardDue (s : State) (p : Nat) : State :=
  let s := if summaryDue (s.parish p) then s.forwardSummary p else s
  if summaryDue (s.parish p) then s.forwardSummary p else s

/-- A record that is added to no sum. -/
def strayRecord (s : State) (p : Nat) : State :=
  s.setParish p ((s.parish p).count Reg.parTallyStray 1 0xFFFF)

/-- A tally record at its reeve. -/
def tallyRecord (s : State) (p : Nat) (k : Packet) : State :=
  let v := s.parish p
  let step : W32 := BitVec.ofNat 32 (bitsOf k.opdata.toNat 95 64)
  if !v.net then s
  else match v.tallyOf step with
    | none => s.strayRecord p
    | some t =>
      if v.expect = 0 then s.strayRecord p
      else (s.setParish p (v.setTally step (t.addRecord k.opdata.toNat))).forwardDue p

/-- A tally call at a reeve. -/
def tallyCall (s : State) (p : Nat) (step : W32) : State :=
  let s := { s with calls := s.calls.erase (p, step) }
  let v := s.parish p
  match v.tallyOf step with
  | none => s
  | some t => if !v.net || v.expect = 0 then s else s.setParish p (v.setTally step { t with timing := true })

/-- The timeout of a step elapses. -/
def tallyTimeout (s : State) (p : Nat) (step : W32) : State :=
  let v := s.parish p
  match v.tallyOf step with
  | none => s
  | some t =>
    if !v.net || !t.timing then s
    else (s.setParish p (v.setTally step { t with elapsed := true })).forwardDue p

end State

/-! ### The commands -/

def execTally (q : Phys) (s : State) : Host.Outcome State Fault Refusal := .next (s.onCroft q Site.tallyWord)

def execTallyRecord (p : Par) (k : Packet) (s : State) : Host.Outcome State Fault Refusal :=
  s.inTurn k fun s => (s.take k).tallyRecord p k

/-- A tally call that has reached the reeve; with none there nothing happens. -/
def execTallyCall (p : Par) (step : W32) (s : State) : Host.Outcome State Fault Refusal :=
  if s.calls.contains (p.val, step) then .next (s.tallyCall p step) else .next s

def execTallyTimeout (p : Par) (step : W32) (s : State) : Host.Outcome State Fault Refusal :=
  .next (s.tallyTimeout p step)

end Sys2Proof.Machine
end

