-- ==== Sys2Proof/Machine/Shadows.lean ====
section
/-! DEFINITION. The visible actions of the ACTIVE steward's set, which wait for the partner's acknowledgement of the shadow
record that they go with (R334, R335, R382). -/

namespace Sys2Proof.Machine
namespace State

/-! ### Actions on gates, reeves and senders -/

/-- ABORT to every gate context of the holding that is not FREE (R327). -/
def abortHolding (s : State) (h : Nat) (cause : Nat := 6) : State :=
  ((List.range 28).foldl (fun s i => s.modGate i fun g =>
    (g.contextsOf h).foldl (fun g c => g.abortChan c cause) g) s).releaseStores

/-- The attempt that ends takes its summaries with it, those on their way too (log 127). -/
def dropSummaries (s : State) (h step : Nat) : State :=
  let old (k : Packet) : Bool := match k.who with
    | .summary g m => g == h && m.step.toNat == step
    | _ => false
  { s with
    summaries := s.summaries.filter fun e => !(e.1 = h && e.2.step.toNat = step)
    outq := s.outq.filter fun k => !old k
    flights := s.flights.filter fun f => !old f.pkt }

/-- The reeves of a holding discard what they hold of a step (R268). -/
def discardStep (s : State) (e : Nat × W32) : State :=
  ((s.parishesOf e.1).foldl (fun s p => s.setParish p ((s.parish p).tallyDiscard e.2)) s).dropSummaries e.1 e.2.toNat

/-- A sender lets go of an input that is acknowledged. -/
def acknowledge (s : State) (a : SenderHeld) : State :=
  match a with
  | .msg m => s.takeAnyMsg m
  | .report r => { s with reports := s.reports.erase r }
  | .summary h m =>
    let v := s.parish m.parish
    s.setParish m.parish { v with sentSums := v.sentSums.erase (h, m) }

/-- A core's store to a step controller retires (R332). -/
def retireStore (s : State) (c : Nat × Nat) : State :=
  let v := s.steward c.1
  s.setSteward c.1 { v with access := Tab.set (fun _ => none) v.access c.2 none }

/-! ### Records and their actions -/

/-- The actions of a record go out. Locations to isolate are handed to the fault handling (State.isolateDue). -/
def perform (s : State) (d : Shadow) : State :=
  let s := s.emit d.release
  let s := d.msgs.foldl (fun s m => s.modGate m.1 fun g => g.post m.2.1 m.2.2.1 16 m.2.2.2) s
  let s := d.cores.foldl retireStore (d.acks.foldl acknowledge s)
  let s := d.discards.foldl discardStep (d.aborts.foldl (fun s h => s.abortHolding h) s)
  { s with toIsolate := s.toIsolate ++ d.isolate }

/-- Actions that another unit can see: they wait for the partner's acknowledgement of a shadow record where there is a
STANDBY partner, and go out at once where there is none. -/
def waitFor (s : State) (d : Shadow) : State := if s.standby.isSome then s.sendShadow d else s.perform d

/-- Packets, and messages for ports, of the ACTIVE set. -/
def publish (s : State) (ks : List Packet) (ms : List (Nat × Nat × Nat × Msg) := []) : State :=
  s.waitFor { num := 0, release := ks, msgs := ms }

/-- The ACTIVE set has accepted an input: its sender is told once the record is acknowledged. -/
def accept (s : State) (a : SenderHeld) : State := s.waitFor { num := 0, acks := [a] }

/-- An input or a register write takes effect in the ACTIVE steward's set, as one record; with no ACTIVE steward none acts,
and its sender holds an input (R334, R335). -/
def onSet (s : State) (f : State → State) : State := if s.active.isSome then s.asOne f else s

end State
end Sys2Proof.Machine
end

