-- ==== Sys2Proof/Machine/StepCtl.lean ====
section
/-! DEFINITION. Step controllers (chapters 07, 11 and 12): openings, tallies, handover, verdicts, step ends, replays and
ABANDON. A controller's TOKENs, register writes and messages are the visible actions of R334: State.publish. -/

namespace Sys2Proof.Machine
namespace Stc

def run (c : Stc) : Bool := bit (c.reg Reg.stcSeqCtrl) 0
def setRun (c : Stc) (on : Bool) : Stc := c.setField Reg.stcSeqCtrl 0 0 (b2n on)
def restoreHold (c : Stc) : Bool := bit (c.reg Reg.stcSeqCtrl) 1
def mirror (c : Stc) : Bool := bit (c.reg Reg.stcMirror) 0

/-- The committed partial P. -/
def partial_ (c : Stc) : W64 := BitVec.ofNat 64 (c.num Reg.stcNormPartHi * 2 ^ 32 + c.num Reg.stcNormPartLo)

/-- What is cleared at each OPENING and at each replay restore (R275, R295): sums, partials and fingerprints. -/
def clearAttempt (c : Stc) : Stc :=
  let c := { c with
    handed := false, horizon := false, heldStop := false, ackToken := [], stepped := [], toMark := [], chunks := []
    started := false, kept := [], unsent := []
    restarting := false, parishes := [], sums := {}, published := false, incomplete := false, localBad := false
    committed := false, parts := [], combined := false, record := [], recAcks := [], refused := [], tokTries := []
    peerPrint := none, callsSent := false }
  let c := (c.setNum Reg.stcNormPartLo 0).setNum Reg.stcNormPartHi 0
  let c := (c.setPrint 0).setNum Reg.stcFprintPeerLo 0
  (c.setNum Reg.stcFprintPeerHi 0).setField Reg.stcMirror 1 1 0

/-- STC_VERDICT and STC_VERDICT_STEP of a verdict: 1 CLEAN, 2 OVERFLOW, 3 HELD. -/
def setVerdict (c : Stc) (result : Nat) (nonfinite refused : Bool) : Stc :=
  let v := result * 2 ^ 30 + b2n c.localBad * 2 ^ 29 + b2n nonfinite * 2 ^ 28 + b2n c.incomplete * 2 ^ 27 + b2n refused * 2 ^ 26
  (c.setNum Reg.stcVerdict v).setNum Reg.stcVerdictStep c.step

/-- STOPPED, which clears RUN. -/
def toStopped (c : Stc) (held : Bool) : Stc := { c.setRun false with st := .stopped, heldStop := held }

/-- Enter an IDLE in which nothing is under way. -/
def toIdle (c : Stc) : Stc := { c with st := .idle, openPending := false, abandoning := false, order := 0 }

/-- NACK codes that permit a retry (R71). -/
def retriable (code : Nat) : Bool := code ∈ [0x02, 0x06, 0x09, 0x0A, 0x0B]

end Stc

namespace State

/-! ### Crofts of the holding (R248) -/

/-- Every enrolled croft reads IDLE (R164). -/
def allIdle (s : State) (h : Nat) : Bool :=
  (s.enrolled h).all fun n => (s.siteOf n).all fun x => x.status == 0

/-- Every enrolled croft reads one of these states in CRF_STATUS, or FENCED: a fenced croft runs nothing (R98), and R271
has it replaced in the restore that waits for these states (log 42). -/
def allRead (s : State) (h : Nat) (states : List Nat) : Bool :=
  (s.enrolled h).all fun n => match s.siteOf n with
    | some x => states.contains x.status || x.status == 4
    | none => true

/-! ### Packets to the crofts (R165, R163, R286, R333) -/

/-- A TOKEN of the controller. -/
def stcToken (s : State) (n queue : Nat) (handle : W32) (who : Requester) : Packet :=
  { control 0x06 s.activeEndpoint n 0 with opdata := BitVec.ofNat 96 (handle.toNat + queue * 2 ^ 32), who }

def scaleToken (s : State) (h n : Nat) : Packet :=
  let c := s.stc h
  s.stcToken n (c.field Reg.stcCfg 1 0) c.scaleBits (.scaleToken h n)

def recordToken (s : State) (h n i : Nat) : Packet :=
  let c := s.stc h
  s.stcToken n (c.field Reg.stcSchedCfg 5 4) (c.record.getD i 0) (.record h n i)

def verdictToken (s : State) (h n : Nat) : Packet :=
  let c := s.stc h
  s.stcToken n (c.field Reg.stcCfg 3 2) (BitVec.ofNat 32 c.step) (.verdict h n)

/-- A write of a croft's register. -/
def stcWrite (s : State) (h n o v : Nat) : Packet :=
  { control 0x12 s.activeEndpoint n 3 with
    offset := BitVec.ofNat 32 (0x0F000000 + o), opdata := BitVec.ofNat 96 v, who := .stcReg h n o }

/-- STOP to CRF_SEQ_CTRL of every enrolled croft. -/
def stopCrofts (s : State) (h : Nat) : State := s.publish ((s.enrolled h).map fun n => s.stcWrite h n Reg.crfSeqCtrl 8)

/-- START at ENTRY_SLOT to every enrolled croft. -/
def startCrofts (s : State) (h : Nat) : State :=
  let slot := (s.stc h).field Reg.stcCfg 5 4
  s.publish ((s.enrolled h).map fun n => s.stcWrite h n Reg.crfSeqCtrl (4 + slot))

/-- DESTROY, with the current handle, for every carter context of an enrolled croft that is not FREE (R268). -/
def destroyContexts (s : State) (h : Nat) : State :=
  s.publish ((s.enrolled h).flatMap fun n => match s.siteOf n with
    | none => []
    | some x =>
      if x.fenced then []
      else ((List.range 8).filter fun i => (x.chan i).st != .free).flatMap fun i =>
        [s.stcWrite h n Reg.carCmdHandle (x.handle i).toNat, s.stcWrite h n Reg.carCmd (3 * 2 ^ 30 + i * 2 ^ 16)])

/-! ### Messages to other modules (R283, R316, R317) -/

/-- One port for each device towards NEXT: the lowest, both members of a mirrored position among them. -/
def nextPorts (s : State) : List (Nat × Nat) :=
  (s.portsOf 2 1).foldl (fun l gk => if (l.any fun m => s.partnerOf m = s.partnerOf gk) then l else l ++ [gk]) []

/-- A NORM as a message. -/
def normMsg (m : NormMsg) : Msg :=
  { op := 0x43, arg0 := m.step, arg2 := m.partialSum
    arg1 := BitVec.ofNat 32 (m.count.toNat + m.origin.toNat * 2 ^ 8 + b2n m.replay * 2 ^ 16 + m.hops.toNat * 2 ^ 24) }

/-- A CTRL message to every device towards NEXT. -/
def sendNext (s : State) (m : NormMsg) : State := s.publish [] (s.nextPorts.map fun gk => (gk.1, gk.2, 3, normMsg m))

/-- The holding's own NORM, or its replay notice with a NaN partial. -/
def sendNorm (s : State) (h : Nat) (replay : Bool) (v : W64) : State :=
  let c := s.stc h
  if c.ringN = 1 then s
  else s.sendNext { step := BitVec.ofNat 32 c.step, count := BitVec.ofNat 3 c.ireplays,
                    origin := BitVec.ofNat 8 c.ringPos, replay, hops := 1, partialSum := v }

/-- The FINGERPRINT of a mirrored holding, on the lowest MIRROR port that is UP. -/
def sendPrint (s : State) (h : Nat) : State :=
  let c := s.stc h
  match ((List.range 3).flatMap fun d => s.portsOf 4 d).head? with
  | none => s
  | some gk =>
    s.publish [] [(gk.1, gk.2, 3,
      { op := 0x42, arg0 := BitVec.ofNat 32 c.step, arg1 := BitVec.ofNat 32 (c.ireplays % 8), arg2 := c.print,
        payload := leBytes 8 c.partial_.toNat })]

/-! ### HELD (R162, R164) -/

/-- The HELD verdict: STOPPED, and the keeper as it was. -/
def held (s : State) (h : Nat) (refused : Bool) : State :=
  let c := s.stc h
  if c.abandoning || !(c.st = .opening || c.st = .work || c.st = .restoring) then s
  else (s.setStc h ((c.setVerdict 3 false refused).toStopped true)).raiseStc h Reg.stcFault 0 44

/-! ### Handover, combination and verdicts (R161, R282 to R286) -/

/-- A row map switch is pending in a parish of the holding (R36). -/
def switchPending (s : State) (h : Nat) : Bool := (s.parishesOf h).any fun p => (s.parish p).mapouts != []

/-- Publish the totals once every summary is in (R159), with RESID_BUDGET and LOCAL_BAD. -/
def publishTotals (s : State) (h : Nat) : State :=
  let c := s.stc h
  let allIn := (s.parishesOf h).all fun p => c.parishes.contains p || (s.parish p).expect == 0
  if c.published || !allIn then s
  else
    let t := c.sums
    let c := (c.setNum Reg.stcTallySat t.sat).setNum Reg.stcTallyInf t.inf
    let c := (c.setNum Reg.stcTallyNan t.nan).setNum Reg.stcTallyResid t.resid
    let c := (c.setNum Reg.stcTallyAcks (min t.acks 0xFFFFFFFF)).setNum Reg.stcTallyStep c.step
    let c := { c with published := true, localBad := (t.inf != 0 || t.nan != 0) && !c.incomplete }
    let s := s.setStc h c
    if c.num Reg.stcResidLimit < t.resid then s.raiseStc h Reg.stcFault 2 46 else s

/-- An OPENING (R249, R252, R275): the attempt's counts and comparisons start afresh, and the reeves' oldest step is the
step that opens. -/
def beginOpening (s : State) (h : Nat) : State :=
  let c := s.stc h
  let c := match c.lastOpen with
    | some t => c.setNum Reg.stcStepTime (min ((s.clock.now - t) / 1000) 0xFFFFFFFF)
    | none => c
  let c := { c.clearAttempt.setNum Reg.stcDoneCount 0 with
    st := .opening, order := 0, replays := 0, ireplays := 0, uncounted := 0, mismatches := 0, openPending := false
    doneBy := [], opened := s.clock.now, lastOpen := none }
  let base (v : Parish) : Parish :=
    if v.tallyStep.toNat = c.step then v else v.tallyBase (BitVec.ofNat 32 c.step)
  let s := (s.parishesOf h).foldl (fun s p => s.setParish p (base (s.parish p))) (s.setStc h c)
  s.publishTotals h

/-- A step may open: no row map switch is pending (R36), and STC_HIST.HOLD is 0: while it is 1 no step opens, whatever
state the controller is in (R170; log 140). -/
def mayOpen (s : State) (h : Nat) : Bool := !s.switchPending h && (s.stc h).field Reg.stcHist 31 31 == 0

/-- Open the next step, or wait until it may open. -/
def tryOpen (s : State) (h : Nat) : State :=
  if s.mayOpen h then s.beginOpening h else s.setStc h { s.stc h with openPending := true }

/-- A step ends (R252): WARM_HOLD, the next OPENING, or IDLE. -/
def endStep (s : State) (h : Nat) : State :=
  let c := s.stc h
  let c := c.setNum Reg.stcStep ((c.step + 1) % 2 ^ 32)
  let c := { c with lastOpen := some c.opened, restarting := false, refused := [], record := [] }
  if c.field Reg.stcHist 31 31 = 1 then s.setStc h { c with st := .warmHold }
  else if c.run then (s.setStc h c).tryOpen h
  else s.setStc h c.toIdle

/-- The done count stands at STC_ENROLLED in UPDATE. -/
def checkDone (s : State) (h : Nat) : State :=
  let c := s.stc h
  if c.st = .update ∧ !c.abandoning ∧ !c.openPending ∧ (s.enrolled h).length ≤ c.field Reg.stcDoneCount 14 0 then s.endStep h
  else s

/-- OVERFLOW (R164): the keeper, STC_SKIPS, and STOP to every croft. -/
def verdictOverflow (s : State) (h : Nat) : State :=
  let c := s.stc h
  let atFloor : Bool := c.exp ≤ c.minExp
  let s := s.setStc h { (c.setVerdict 2 true false).keepOverflow with restarting := true }
  let s := if atFloor then s.raiseStc h Reg.stcFault 1 45 else s
  s.stopCrofts h

/-- CLEAN (R163, R286): κ, the keeper, and the schedule record to every croft. -/
def verdictClean (s : State) (h : Nat) (g : W64) : State :=
  let c := s.stc h
  let c := (c.setVerdict 1 false false).keepClean
  let c := c.setReg Reg.stcNormKappa ((c.kappa g).setWidth 64)
  let rec_ := c.recordOf
  let c := { c.setReg Reg.stcSchedOut ((rec_.getD 2 0).setWidth 64) with st := .update, record := rec_ }
  let c := if (s.enrolled h).isEmpty then c.advanceSchedule else c
  let s := s.setStc h c
  (s.publish ((s.enrolled h).flatMap fun n => (List.range 5).map fun i => s.recordToken h n i)).checkDone h

/-- Form G once every partial is held, and reach the verdict. -/
def combine (s : State) (h : Nat) : State :=
  let c := s.stc h
  if c.st = .combine ∧ s.acts h ∧ c.handed ∧ !c.combined ∧ !c.abandoning ∧ c.allParts then
    let g := c.total
    let c := (c.setNum Reg.stcNormSumLo (g.toNat % 2 ^ 32)).setNum Reg.stcNormSumHi (g.toNat / 2 ^ 32)
    let s := s.setStc h { c with combined := true }
    if (f64 g).isFinite then s.verdictClean h g else s.verdictOverflow h
  else s

/-- The handover (R265, R282): at the latest of the commit, the last summary and the mirror comparison. -/
def tryHandover (s : State) (h : Nat) : State :=
  let c := s.stc h
  let compared := !c.mirror || c.field Reg.stcMirror 2 1 == 3
  if c.st = .work ∧ s.acts h ∧ !c.abandoning ∧ c.committed ∧ c.published ∧ !c.incomplete ∧ compared then
    let own : W64 := if c.localBad then 0x7FF8000000000000 else c.partial_
    let s := s.setStc h { c.setPart c.ringPos own with st := .combine, handed := true }
    (s.sendNorm h false own).combine h
  else s

/-! ### Replays (R267 to R269, R337) -/

/-- t0 of a replay restore: STOP to every croft, ABORT to every gate context. -/
def startRestore (s : State) (h : Nat) : State :=
  let c := s.stc h
  let s := s.setStc h { c.clearAttempt with st := .restoring, order := 1 }
  (s.stopCrofts h).waitFor { num := 0, aborts := [h] }

/-- The states in which a request for a replay acts. -/
def replayActs (c : Stc) (ask : ReplayAsk) : Bool :=
  let early := c.st = .opening || c.st = .work || c.st = .restoring || (c.st = .combine && !c.handed)
  match ask with
  | .software => early || (c.st = .stopped && c.heldStop)
  | .faults => early
  | .notice => early || (c.st = .stopped && c.heldStop) || (c.st = .combine && !c.combined)

/-- A replay, local or installation-wide. A request in RESTORING starts the restore again and is no further replay;
`counted` is false for a takeover's. -/
def replayNow (s : State) (h : Nat) (wide notice counted : Bool) : State :=
  let c := s.stc h
  let again := c.st = .restoring && !notice
  if counted ∧ !again ∧ c.field Reg.stcReplayCfg 2 0 ≤ c.replays - c.uncounted then
    (s.setStc h (c.toStopped false)).raiseStc h Reg.stcSeqFault 1 49
  else
    let s := if wide && !notice then s.sendNorm h true 0x7FF8000000000000 else s
    let c := s.stc h
    let c := { c with
      replays := if again then c.replays else c.replays + 1
      uncounted := if counted || again then c.uncounted else c.uncounted + 1
      ireplays := if wide then c.ireplays + 1 else c.ireplays }
    (s.setStc h c).startRestore h

/-- A request for a replay (R267): its scope is set by the horizon. -/
def replay (s : State) (h : Nat) (ask : ReplayAsk) : State :=
  let c := s.stc h
  if s.acts h && !c.abandoning && replayActs c ask then
    s.replayNow h (ask = .notice || c.horizon) (ask = .notice) true
  else s

/-- What follows in a restore once the crofts have answered: scale TOKENs after the marks, and START after these. -/
def restoreNext (s : State) (h : Nat) : State :=
  let c := s.stc h
  if c.st != .restoring || c.abandoning then s
  else
    let all := s.enrolled h
    let s :=
      if c.order = 4 ∧ c.toMark = [] ∧ all.all c.stepped.contains then
        (s.setStc h { c with order := 5, ackToken := [] }).publish (all.map fun n => s.scaleToken h n)
      else s
    let c := s.stc h
    if c.order = 5 ∧ all.all c.ackToken.contains then
      let s := s.startCrofts h
      ((s.setStc h ({ s.stc h with st := .work, order := 0 }.count Reg.stcReplays 1)).raiseStc h
        Reg.stcSeqFault 0 48).publishTotals h
    else s

/-! ### Answers (R165, R163) -/

/-- OPENING ends when every enrolled croft holds CRF_STEP = s. -/
def openingDone (s : State) (h : Nat) : State :=
  let c := s.stc h
  if c.st = .opening ∧ c.order = 1 ∧ !c.abandoning ∧ (s.enrolled h).all c.stepped.contains then
    s.setStc h { c with st := .work, order := 0 }
  else s

/-- A scale TOKEN's answer: CRF_STEP = s follows in an OPENING, and a refusal is a HELD condition. -/
def scaleAnswer (s : State) (h n : Nat) (ok : Bool) : State :=
  let c := s.stc h
  let mine := (c.st = .opening && c.order == 1 || c.st = .restoring && c.order == 5) && !c.abandoning && s.acts h
  if !mine then s
  else if !ok then s.held h true
  else
    let s := s.setStc h { c with ackToken := if c.ackToken.contains n then c.ackToken else c.ackToken ++ [n] }
    if c.st = .opening then s.publish [s.stcWrite h n Reg.crfStep c.step] else s.restoreNext h

/-- The answer to a register write of the controller. -/
def stcAnswer (s : State) (h n o : Nat) (ok : Bool) (v : Nat) : State :=
  let c := s.stc h
  if o ≠ Reg.crfStep ∨ c.abandoning ∨ !s.acts h then s
  else if c.st = .opening ∧ c.order = 1 ∧ ok ∧ v = c.step then
    (s.setStc h { c with stepped := if c.stepped.contains n then c.stepped else c.stepped ++ [n] }).openingDone h
  else if c.st = .restoring ∧ c.order = 4 then
    if c.toMark.contains n then
      (s.setStc h { c with toMark := c.toMark.erase n }).publish [s.stcWrite h n Reg.crfStep c.step]
    else
      (s.setStc h { c with stepped := if c.stepped.contains n then c.stepped else c.stepped ++ [n] }).restoreNext h
  else s

/-- A record TOKEN acknowledged: the verdict TOKEN goes to the croft once all five are, and the schedule advances once
those of every enrolled croft are (R286). -/
def recordAnswer (s : State) (h n : Nat) : State :=
  let c := s.stc h
  if c.st = .update && s.acts h then
    let k := Tab.get (fun _ => 0) c.recAcks n + 1
    let c := { c with recAcks := Tab.set (fun _ => 0) c.recAcks n k }
    let last := k == 5 && (s.enrolled h).all fun m => 5 ≤ Tab.get (fun _ => 0) c.recAcks m
    let s := s.setStc h (if last then c.advanceSchedule else c)
    if k = 5 then s.publish [s.verdictToken h n] else s
  else s

/-- A record or verdict TOKEN refused after the verdict: TOKEN_REFUSED, and a retry where the code permits one. -/
def refusedAnswer (s : State) (h n i code : Nat) : State :=
  let c := s.stc h
  if c.st = .update && s.acts h then
    let key := 8 * n + i
    let tries := Tab.get (fun _ => 0) c.tokTries key
    let c := c.setField Reg.stcVerdict 26 26 1
    if Stc.retriable code ∧ tries < 3 then
      s.setStc h { c with refused := c.refused ++ [key], tokTries := Tab.set (fun _ => 0) c.tokTries key (tries + 1) }
    else s.setStc h c
  else s

/-! ### Mirror pairs (R273) -/

/-- Compare the two members once both fingerprints are there. -/
def comparePrints (s : State) (h : Nat) (opc : W16) : State :=
  let c := s.stc h
  match c.peerPrint with
  | none => s
  | some (f, p) =>
    if !c.mirror || !c.committed || c.abandoning || !(c.st = .work) || c.field Reg.stcMirror 1 1 = 1 then s
    else if f = c.print ∧ p = c.partial_ then (s.setStc h (c.setField Reg.stcMirror 2 1 3)).tryHandover h
    else
      let c := { c.setField Reg.stcMirror 2 1 1 with mismatches := c.mismatches + 1 }
      let s := s.setStc h c
      if c.mismatches = 1 then s.replayNow h true false true
      else (s.setStc h (c.toStopped false)).raiseStc h Reg.stcSeqFault 2 50 opc

/-- The commit of P (R282). The chunks that this module starts have left by then: no row of the table is their leaving,
and the norm pass over the reduced gradients follows the harvest (log 10). -/
def commitPartial (s : State) (h : Nat) (v : W32) : State :=
  let c := s.stc h
  if !s.acts h then s
  else if c.st = .work ∧ !c.committed ∧ !c.abandoning then
    let s := s.startChunks h
    let s := s.setStc h { (s.stc h).setReg Reg.stcNormPartHi (v.setWidth 64) with committed := true }
    if c.mirror then (s.sendPrint h).comparePrints h (accessOpcode Reg.stcNormPartHi) else s.tryHandover h
  else s.raiseStc h Reg.stcUpdFault 1 53 (accessOpcode Reg.stcNormPartHi)

/-! ### Takeover (R337) -/

/-- Enrolled crofts that hold CRF_STEP = s and wait on the step event in ENTRY_SLOT. -/
def waiting (s : State) (h : Nat) : List Nat :=
  let c := s.stc h
  (s.enrolled h).filter fun n => match s.siteOf n with
    | some x => x.num Reg.crfStep == c.step && x.c.seq.st = .wait && x.c.seq.held = .stepEvent &&
        x.c.seq.slot == c.field Reg.stcCfg 5 4
    | none => false

/-- Done reports at a takeover: a croft that waits on the step event counts as done, whether or not its report has been
counted (R337). -/
def madeGood (s : State) (h : Nat) : Nat :=
  let c := s.stc h
  max (c.field Reg.stcDoneCount 14 0) (c.doneBy ++ (s.waiting h).filter fun n => !c.doneBy.contains n).length

/-- A holding at a takeover. -/
def resolve (s : State) (h : Nat) : State :=
  let c := s.stc h
  match c.st with
  | .opening | .work | .restoring => if c.abandoning then s else s.replayNow h c.horizon false false
  | .update => (s.setStc h (c.setField Reg.stcDoneCount 14 0 (s.madeGood h))).checkDone h
  | .idle | .combine | .stopped | .warmHold => s

/-! ### Writes of STC_ registers -/

/-- A write of STC_SEQ_CTRL.RUN; a 1 is ignored while the module is halted (R387). -/
def writeRun (s : State) (h : Nat) (on halted : Bool) : State :=
  let c := s.stc h
  if on then
    if halted then s
    else
      let s := s.setStc h (c.setRun true)
      if c.st = .idle ∧ !c.abandoning ∧ !c.openPending ∧ s.acts h then s.tryOpen h else s
  else
    let c := c.setRun false
    s.setStc h (if c.openPending then c.toIdle else c)

/-- A write of STC_SEQ_CTRL.ABANDON: the crofts stop as in a restore, and RUN clears. -/
def abandon (s : State) (h : Nat) : State :=
  let c := s.stc h
  if !s.acts h || c.abandoning then s
  else
    let c := c.setRun false
    if c.st = .idle then s.setStc h c.toIdle
    else (s.setStc h { c with abandoning := true, order := 1, openPending := false }).stopCrofts h

def writeStep (s : State) (h : Nat) (v : W32) : State :=
  let c := s.stc h
  if c.st = .idle ∧ !c.abandoning then s.setStc h (c.setReg Reg.stcStep (v.setWidth 64)) else s

/-- A write of STC_HIST.FILL: ignored while a step is open, above 16, and where DELAYED is 0, for FILL then stays 0
(R170; log 140). -/
def writeFill (s : State) (h : Nat) (v : W32) : State :=
  let c := s.stc h
  let n := bitsOf v.toNat 4 0
  if c.stepOpen || 16 < n || c.field Reg.stcCfg 7 7 = 0 then s else s.setStc h (c.setField Reg.stcHist 4 0 n)

/-- A write of 1 to STC_HIST.GO. -/
def writeGo (s : State) (h : Nat) : State :=
  let c := s.stc h
  if c.field Reg.stcHist 31 31 = 0 then s
  else
    let c := c.setField Reg.stcHist 31 31 0
    let s := s.setStc h c
    if c.abandoning || !s.acts h then s
    else if c.st = .warmHold then (if c.run then s.tryOpen h else s.setStc h c.toIdle)
    else if c.st = .idle && c.openPending then s.tryOpen h
    else s

/-- A done report at STC_DONE, of croft n where a croft sends it (R251). -/
def doneReport (s : State) (h : Nat) (n : Option Nat) (v : W32) : State :=
  let c := s.stc h
  let o := Reg.stcDoneCount
  if !s.acts h then s
  else if c.st = .update ∧ !c.openPending ∧ v.toNat = c.step then
    let c := { c with doneBy := c.doneBy ++ n.toList.filter fun m => !c.doneBy.contains m }
    (s.setStc h (c.setField o 14 0 (c.field o 14 0 + 1))).checkDone h
  else (s.setStc h (c.setField o 31 16 (min (c.field o 31 16 + 1) 0xFFFF))).raiseStc h Reg.stcSeqFault 3 51
    (accessOpcode Reg.stcDone)

/-! ### Summaries and messages that arrive -/

/-- A tally call for the open step to the reeve of every parish of the holding (R38). -/
def sendCalls (s : State) (h : Nat) : State :=
  let step : W32 := BitVec.ofNat 32 (s.stc h).step
  (s.setStc h { s.stc h with callsSent := true }).publish ((s.parishesOf h).map fun p =>
    { control 0x10 s.activeEndpoint (0x7200 + p) 3 with who := .tallyCall p step })

/-- A parish summary (R159, R162): the first of the attempt has the tally calls sent. One that the set holds already, or
that is for no open attempt, changes nothing. -/
def tallySummary (s : State) (h : Nat) (m : Summary) : State :=
  let c := s.stc h
  let takes := (c.st = .opening || c.st = .work || (c.st = .stopped && c.heldStop)) && !c.abandoning && s.acts h
  if !takes || m.step.toNat ≠ c.step || c.parishes.contains m.parish || s.owner m.parish ≠ h || c.published then s
  else
    let t := c.sums
    let t := { t with sat := satAdd t.sat m.sat.toNat, inf := satAdd t.inf m.inf.toNat, nan := satAdd t.nan m.nan.toNat,
                      resid := satAdd t.resid m.resid.toNat, acks := t.acks + m.acks }
    let c := { c with parishes := c.parishes ++ [m.parish], sums := t, incomplete := c.incomplete || m.incomplete }
    let s := (s.setStc h c).publishTotals h
    let s := if c.callsSent then s else s.sendCalls h
    if m.incomplete then s.held h false else s.tryHandover h

/-- A NORM for this holding (R283, R267). Messages for another step or replay count are discarded. -/
def takeNorm (s : State) (h : Nat) (m : NormMsg) : State :=
  let c := s.stc h
  if m.step.toNat ≠ c.step || m.count.toNat ≠ c.ireplays % 8 || !s.acts h then s
  else if m.replay then s.replay h .notice
  else
    let i := m.origin.toNat
    if c.ringN ≤ i || i == c.ringPos || (c.part i).isSome || c.combined || !c.stepOpen then s
    else (s.setStc h (c.setPart i m.partialSum)).combine h

/-- A NORM at this module: sent on towards NEXT before it is used (R316), and acknowledged to its gate (R335). -/
def normArrives (s : State) (h : Nat) (m : NormMsg) : State :=
  let s := if m.hops.toNat + 1 < (s.stc h).ringN then s.sendNext { m with hops := m.hops + 1 } else s
  (s.takeNorm h m).accept (.msg (normMsg m))

/-- The partner's FINGERPRINT. -/
def fingerprint (s : State) (h : Nat) (m : Msg) : State :=
  let c := s.stc h
  if m.arg0.toNat ≠ c.step || bitsOf m.arg1.toNat 2 0 ≠ c.ireplays % 8 || !c.mirror || !c.stepOpen || !s.acts h then s
  else
    let c := (c.setNum Reg.stcFprintPeerLo (m.arg2.toNat % 2 ^ 32)).setNum Reg.stcFprintPeerHi (m.arg2.toNat / 2 ^ 32)
    (s.setStc h { c with peerPrint := some (m.arg2, BitVec.ofNat 64 (ofLe m.payload)) }).comparePrints h (msgOpcode m)

/-- Some open record holds a HALT_MODULE event (R387). -/
def moduleHalted (s : State) : Bool :=
  s.faults.records.any fun e => match e.2 with
    | some r => r.severity == 3 && r.flags.getLsbD 0
    | none => false

end State

/-! ### The commands -/

def execRunWrite (h : Hold) (run : Bool) (s : State) : Host.Outcome State Fault Refusal :=
  .next (s.onSet fun s => s.writeRun h run s.moduleHalted)

def execReplay (h : Hold) (ask : ReplayAsk) (s : State) : Host.Outcome State Fault Refusal :=
  .next (s.asOne fun s => s.replay h ask)

def execAbandon (h : Hold) (s : State) : Host.Outcome State Fault Refusal :=
  .next (s.asOne fun s => s.abandon h)

def execRestoreHoldWrite (h : Hold) (hold : Bool) (s : State) : Host.Outcome State Fault Refusal :=
  .next (s.onSet fun s => s.setStc h ((s.stc h).setField Reg.stcSeqCtrl 1 1 (b2n hold)))

def execStcStepWrite (h : Hold) (v : W32) (s : State) : Host.Outcome State Fault Refusal :=
  .next (s.onSet fun s => s.writeStep h v)

/-- The opening that waited for a switch or for GO begins, and the scale TOKENs of an opening leave. -/
def execOpening (h : Hold) (s : State) : Host.Outcome State Fault Refusal := .next (s.asOne fun s =>
  let c := s.stc h
  let s := if c.openPending ∧ !c.abandoning ∧ s.mayOpen h ∧ s.acts h then s.beginOpening h else s
  let c := s.stc h
  if c.st = .opening ∧ c.order = 0 ∧ !c.abandoning ∧ s.acts h then
    ((s.setStc h { c with order := 1 }).publish ((s.enrolled h).map fun n => s.scaleToken h n)).openingDone h
  else s)

def execScaleTokenAck (h : Hold) (k : Packet) (s : State) : Host.Outcome State Fault Refusal :=
  s.inTurn k fun s => match k.who with
    | .scaleToken g n => if g = h.val then (s.take k).scaleAnswer h n (k.op = 0x04 && !k.poison) else s.take k
    | _ => s.take k

def execTallySummary (h : Hold) (m : Summary) (s : State) : Host.Outcome State Fault Refusal :=
  let s := { s with summaries := s.summaries.erase (h.val, m) }
  .next (s.onSet fun s => (s.tallySummary h m).accept (.summary h m))

/-- STC_TALLY_LIMIT has elapsed in the attempt: tally calls to the holding's reeves (R38). -/
def execTallyCallTimer (h : Hold) (s : State) : Host.Outcome State Fault Refusal :=
  let c := s.stc h
  if (c.st = .opening ∨ c.st = .work) ∧ !c.abandoning ∧ !c.callsSent ∧ s.acts h ∧ c.num Reg.stcTallyLimit ≠ 0 then
    .next (s.asOne fun s => s.sendCalls h)
  else .next s

def execStcNormPartHiWrite (h : Hold) (v : W32) (s : State) : Host.Outcome State Fault Refusal :=
  .next (s.asOne fun s => s.commitPartial h v)

def execNorm (h : Hold) (m : NormMsg) (s : State) : Host.Outcome State Fault Refusal :=
  .next (s.onSet fun s => s.normArrives h m)

/-- The oldest refused TOKEN of croft n is sent again. -/
def execVerdictTokenRetry (h : Hold) (n : Fin 26880) (s : State) : Host.Outcome State Fault Refusal :=
  let c := s.stc h
  match c.refused.find? fun key => key / 8 = n.val with
  | none => .next s
  | some key =>
    let t := s.setStc h { c with refused := c.refused.erase key }
    if !s.acts h then .next s
    else if c.st = .update then
      .next (s.asOne fun _ => t.publish [if key % 8 = 5 then s.verdictToken h n else s.recordToken h n (key % 8)])
    else .next t

/-- Every croft stopped for an OVERFLOW reads IDLE: START at the entry slot, and the step ends. -/
def execOverflowRestart (h : Hold) (s : State) : Host.Outcome State Fault Refusal :=
  let c := s.stc h
  if c.st = .combine ∧ c.restarting ∧ !c.abandoning ∧ s.acts h ∧ s.allIdle h then
    .next (s.asOne fun s => (s.startCrofts h).endStep h)
  else .next s

def execNormTimeout (h : Hold) (s : State) : Host.Outcome State Fault Refusal :=
  let c := s.stc h
  if c.st = .combine ∧ c.handed ∧ !c.combined ∧ s.acts h then
    .next (s.asOne fun s => s.raiseStc h Reg.stcUpdFault 0 52)
  else .next s

def execDoneReport (h : Hold) (r : DoneReport) (s : State) : Host.Outcome State Fault Refusal :=
  .next (s.asOne fun s => s.doneReport h (r.croft.map (·.val)) r.step)

def execGo (h : Hold) (s : State) : Host.Outcome State Fault Refusal := .next (s.onSet fun s => s.writeGo h)

def execFillWrite (h : Hold) (v : W32) (s : State) : Host.Outcome State Fault Refusal :=
  .next (s.onSet fun s => s.writeFill h v)

/-- Orders 1 and 2 of a restore or an ABANDON (R268). -/
def execRestoreCroftsStopped (h : Hold) (s : State) : Host.Outcome State Fault Refusal :=
  let c := s.stc h
  if (c.st = .restoring ∨ c.abandoning) ∧ c.order = 1 ∧ s.acts h ∧ s.allRead h [0, 3] then
    .next (s.asOne fun s => (s.setStc h { c with order := 2 }).destroyContexts h)
  else .next s

/-- Orders 3 and 4 (R268): once RESTORE_HOLD is 0, the marks, and the reeves discard what they hold of the step. -/
def execRestoreContextsFree (h : Hold) (s : State) : Host.Outcome State Fault Refusal := .next (s.asOne fun s =>
  let c := s.stc h
  if c.st = .restoring ∧ !c.abandoning ∧ c.order = 2 ∧ s.acts h ∧ s.allFree h ∧ !c.restoreHold then
    let change := (s.enrolled h).filter fun n => match s.siteOf n with
      | some x => x.num Reg.crfStep != c.step || !x.c.stepWritten
      | none => false
    let s := s.setStc h { c with order := 4, toMark := change, stepped := [] }
    let s := s.waitFor { num := 0, discards := [(h, BitVec.ofNat 32 c.step)] }
    ((s.publish ((s.enrolled h).map fun n => s.stcWrite h n Reg.crfStep c.step)).restoreNext h)
  else s)

def execFingerprint (h : Hold) (m : Msg) (s : State) : Host.Outcome State Fault Refusal :=
  checked m.wellFormed (s.onSet fun s => (s.fingerprint h m).accept (.msg m))

def execAbandonComplete (h : Hold) (s : State) : Host.Outcome State Fault Refusal :=
  let c := s.stc h
  if c.abandoning ∧ s.acts h ∧ s.allRead h [0, 3] ∧ s.allFree h then .next (s.setStc h c.toIdle) else .next s

end Sys2Proof.Machine
end

