-- ==== Sys2Proof/Machine/Store.lean ====
section
/-! DEFINITION. Messages that a module's ports serve (chapter 13): answers of parameter stores, permute data, and harvest
chunks (R263, R272, R316, R317). -/

namespace Sys2Proof.Machine
namespace State

/-- A response to a tag that is not outstanding is discarded and counted (R315). -/
def countDiscard (s : State) (gi : Nat) : State := s.modGate gi fun g => { g with discarded := g.discarded + 1 }

/-- The outstanding request of a port that a response answers. -/
def answered (s : State) (gi k : Nat) (m : Msg) (ops : List Nat) : Option StoreReq :=
  (s.gate gi).store.find? fun r => r.tag == m.tag.toNat && r.port == k && Gate.sentReq r && ops.contains r.msg.op.toNat

/-- A channel uses what arrives for it: it runs, or drains after a halt (R241, R243). -/
def takesData (v : Chan) : Bool := v.st = .run || v.st = .draining && !v.aborting

/-- A part's own bytes of data at store address lo, into the wafer. -/
def partData (s : State) (gi : Nat) (p : Nat × Nat × Nat) (lo : Nat) (bs : List Byte) : State :=
  let g := s.gate gi
  let a := max lo p.2.1
  let e := min (lo + bs.length) (p.2.1 + p.2.2)
  if takesData (g.chan p.1) && decide (a < e) then
    s.gateWrite gi p.1 (g.ctxDoff p.1 + (a - g.ctxAddr p.1)) ((bs.drop (a - lo)).take (e - a)) (bs.length + 1)
  else s

/-- READ_DATA or SHARD_DATA: each joined request gets exactly its own bytes, each byte once, and LAST ends the request. -/
def storeData (s : State) (gi k : Nat) (m : Msg) (op : Nat) : State :=
  match s.answered gi k m [op] with
  | none => s.countDiscard gi
  | some r =>
    let skip := r.msg.addr.toNat + r.got - m.addr.toNat
    let bs := m.payload.drop skip
    let got := max r.got (m.addr.toNat + m.payload.length - r.msg.addr.toNat)
    let last := m.arg1.getLsbD 0
    let s := s.modGate gi fun g =>
      { g with store := if last then g.store.erase r else g.store.map fun q => if q = r then { r with got } else q }
    let s := r.parts.foldl (fun s p => s.partData gi p (m.addr.toNat + skip) bs) s
    if last then r.parts.foldl (fun s p => s.gateGo gi p.1) s else s

/-- WRITE_DONE or SHARD_DONE: the bytes of the request are complete. -/
def storeDone (s : State) (gi k : Nat) (m : Msg) (op : Nat) : State :=
  match s.answered gi k m [op] with
  | none => s.countDiscard gi
  | some r =>
    let s := s.modGate gi fun g => { g with store := g.store.erase r }
    r.parts.foldl (fun s p => (s.gateBytes gi p.1 p.2.2).gateGo gi p.1) s

/-- ERROR: STATUS BUSY and MEDIA permit a retry. -/
def storeError (s : State) (gi k : Nat) (m : Msg) : State :=
  match s.answered gi k m [1, 2, 3, 4] with
  | none => s.countDiscard gi
  | some r => s.failStore gi r 3 m.status.toNat (m.status = 1 || m.status = 3) false

/-- A harvest chunk: the first copy of its index in the attempt counts. -/
def takeChunk (s : State) (m : Msg) : State :=
  match s.chunkHolding m with
  | none => s
  | some h =>
    let key := 2 * m.addr.toNat + bitsOf m.arg1.toNat 8 8
    if (s.stc h).chunks.contains key then s
    else s.addChunk h m.addr.toNat (bitsOf m.arg1.toNat 8 8) (m.arg1.getLsbD 9) m.payload

end State

/-! ### The commands -/

def execHarvestChunk (g : GateId) (port : PortId) (m : Msg) (s : State) : Host.Outcome State Fault Refusal :=
  checked m.wellFormed (if m.op = 0x40 then s.asOne fun s => s.atPort g port 2 m fun s => s.takeChunk m else s)

def execEbsoberReadData (g : GateId) (port : PortId) (m : Msg) (s : State) : Host.Outcome State Fault Refusal :=
  checked m.wellFormed (if m.op = 0x81 then s.atPort g port 1 m fun s => s.storeData g port m 0x01 else s)

def execWriteDone (g : GateId) (port : PortId) (m : Msg) (s : State) : Host.Outcome State Fault Refusal :=
  checked m.wellFormed (if m.op = 0x82 then s.atPort g port 1 m fun s => s.storeDone g port m 0x02 else s)

def execShardData (g : GateId) (port : PortId) (m : Msg) (s : State) : Host.Outcome State Fault Refusal :=
  checked m.wellFormed (if m.op = 0x83 then s.atPort g port 1 m fun s => s.storeData g port m 0x03 else s)

def execShardDone (g : GateId) (port : PortId) (m : Msg) (s : State) : Host.Outcome State Fault Refusal :=
  checked m.wellFormed (if m.op = 0x84 then s.atPort g port 1 m fun s => s.storeDone g port m 0x04 else s)

def execError (g : GateId) (port : PortId) (m : Msg) (s : State) : Host.Outcome State Fault Refusal :=
  checked m.wellFormed (if m.op = 0x8F then s.atPort g port 1 m fun s => s.storeError g port m else s)

/-- The bytes go into the port's permute area, and PERMUTE_ACK answers them. -/
def execPermuteData (g : GateId) (port : PortId) (m : Msg) (s : State) : Host.Outcome State Fault Refusal :=
  checked m.wellFormed
    (if m.op = 0x41 then s.atPort g port 2 m fun s => s.modGate g fun d =>
        let p := d.port port
        (d.setPort port { p with permuted := Memory.write p.permuted m.addr.toNat m.payload }).post port 1 16
          { op := 0xC1, tag := m.tag }
    else s)

/-- The PERMUTE_DATA of the tag is complete. -/
def execPermuteAck (g : GateId) (port : PortId) (m : Msg) (s : State) : Host.Outcome State Fault Refusal :=
  checked m.wellFormed
    (if m.op = 0xC1 then s.atPort g port 1 m fun s =>
      let p := (s.gate g).port port
      if p.permOut.contains m.tag.toNat then
        s.modGate g fun d => d.setPort port { p with permOut := p.permOut.erase m.tag.toNat }
      else s.countDiscard g
    else s)

end Sys2Proof.Machine
end

