-- ==== Sys2Proof/Machine/Answers.lean ====
section
/-! DEFINITION. Answers that reach their requesters (R240 to R243, R324, R332): acknowledgements, read data, register data
and NACKs, requests that time out, retries and the end of drains. -/

namespace Sys2Proof.Machine

/-- What an answer says to its requester: 0 for a completion, else the refusing code, a poisoned one's LINK_POISON. -/
def answerCode (k : Packet) : Nat := if k.poison then 0x09 else if k.op = 0x05 then k.nack.toNat else 0

namespace Site

/-- The unanswered request of channel i under a TAG. -/
def waitingReq (x : Site) (i : Nat) (tag : W16) : Option Req :=
  (x.chan i).outst.find? fun r => r.pkt.tag == tag && !r.backoff

/-- OPC of the instruction that a channel executes, or has executed last. -/
def opcAt (x : Site) (i : Nat) : Nat := carOpc (x.chan i).instr

/-- The steward held in reset that has refused a register write, a done report or a partial commit (R337). -/
def lostSteward (r : Req) (code : Nat) : Option (Fin 2) :=
  if code = 0x0B ∧ r.pkt.op = 0x12 then
    if r.pkt.dest = 0x7100 then some 0 else if r.pkt.dest = 0x7101 then some 1 else none
  else none

/-- A request of a channel fails (R240, R241). -/
def failReq (x : Site) (i : Nat) (r : Req) (cause code : Nat) (permits : Bool) : Site :=
  let c := x.chan i
  let rest := c.outst.erase r
  if c.st = .draining then x.setChan i { c with outst := rest, indoubt := c.indoubt || cause == 2 }
  else if !permits || x.carRetryLimit ≤ r.retries then
    (x.setChan i { c with outst := rest }).haltChan i cause (x.opcAt i) (BitVec.ofNat 8 code) r.retries (lostSteward r code)
  else x.setChan i { c with outst := rest ++ [{ r with backoff := true }] }

/-- Bytes of a read, to its local destination. The read is answered once all its bytes have arrived under its TAG; each
byte that is committed counts once, and none is used after an abort (R240, R242, R243). -/
def readArrives (x : Site) (i : Nat) (r : Req) (k : Packet) : Site :=
  let c := x.chan i
  let o := k.offset.toNat - r.pkt.offset.toNat
  let r1 : Req := { r with came := r.came ++ (List.range k.payload.length).map (o + ·) }
  let whole := (List.range r.len).all r1.came.contains
  let x := x.setChan i { c with
    outst := if whole then c.outst.erase r else c.outst.map fun q => if q = r then r1 else q }
  if c.aborting then x
  else
    let w := x.localStore i (r.dst + o) k.payload 1 r.pkt.tclass
    let new := (w.2.map (· - r.dst)).filter fun b => !r.got.contains b
    w.1.modChan i fun c =>
      if c.st = .free then c
      else { c with
        bytes := c.bytes + new.length
        outst := c.outst.map fun q => if q = r1 then { r1 with got := r1.got ++ new } else q }

/-- An answer to a channel's request. -/
def carAnswer (x : Site) (i : Nat) (k : Packet) : Site :=
  if !x.live then x
  else match x.waitingReq i k.tag with
    | none => x.count Reg.carLate 1
    | some r =>
      let code := answerCode k
      if code ≠ 0 then x.failReq i r 1 code (Stc.retriable code)
      else if k.op = 0x03 then (x.readArrives i r k).endWait i
      else (x.modChan i fun c => { c with outst := c.outst.erase r, bytes := c.bytes + r.len }).endWait i

/-- A TOKEN of a POST word refused: TOKEN_NACK, whatever the state of the croft by then (R91). -/
def postAnswer (x : Site) (k : Packet) : Site :=
  if answerCode k = 0 then x else x.raise 8 (BitVec.ofNat 16 (3 * 2 ^ 12 + 0x06)) 0 (some k.tclass)

/-- A failed request, piece or read is issued again under a new TAG (R240). -/
def retry (x : Site) (i : Nat) (tag : W16) : Site :=
  let c := x.chan i
  if !x.live || !(c.st = .run || c.st = .wait) then x
  else match c.outst.find? fun r => r.backoff && r.pkt.tag == tag with
    | some r =>
      let k := { r.pkt with tag := x.nextTag i }
      let x := ((x.useTag i).count Reg.carRetries 1).send k
      x.modChan i fun c => { c with outst := c.outst.map fun q =>
        if q = r then { r with pkt := k, retries := r.retries + 1, backoff := false, came := [] } else q }
    | none =>
      match c.moving with
      | some m =>
        if m.failed = some tag then
          (x.count Reg.carRetries 1).modChan i fun c =>
            { c with moving := some { m with failed := none, tries := m.tries + 1 } }
        else x
      | none => x

def requestTimeout (x : Site) (i : Nat) (tag : W16) : Site :=
  if !x.live then x
  else match x.waitingReq i tag with
    | none => x
    | some r => x.failReq i r 2 0 true

end Site

namespace State

/-! ### Gates -/

/-- Read data of a WRITE channel: a whole piece goes to the store (R322). -/
def gateReadArrives (s : State) (gi c : Nat) (r : Req) (k : Packet) : State :=
  let g := s.gate gi
  let v := g.chan c
  let have_ := Tab.get (fun _ => []) g.buffered c
  let o := k.offset.toNat - r.pkt.offset.toNat
  let data := if o = have_.length then have_ ++ k.payload else have_
  if data.length < r.len then s.modGate gi fun g => { g with buffered := Tab.set (fun _ => []) g.buffered c data }
  else
    let g := { g.setChan c { v with outst := v.outst.erase r } with buffered := Tab.set (fun _ => []) g.buffered c [] }
    let s := s.setGate gi g
    if !takesData v then s
    else
      let a := g.ctxAddr c + (r.pkt.offset.toNat + 2 ^ 32 - g.ctxDoff c) % 2 ^ 32
      let addr : BitVec 48 := BitVec.ofNat 48 a
      let port := g.ctxPort c
      let s := if g.ctxShard c then
          match shardOut g c with
          | some o => s.modGate gi fun g => g.post port 0 (g.ctxHold c) { op := 0x05, tag := o.msg.tag, addr, payload := data }
          | none => s
        else (s.modGate gi fun g => g.hold port { op := 0x02, addr, payload := data } [(c, a, data.length)]).releaseStores
      s.gateGo gi c

/-- An answer to a gate's request. -/
def gateAnswer (s : State) (gi c : Nat) (k : Packet) : State :=
  let v := (s.gate gi).chan c
  match v.outst.find? fun r => r.pkt.tag == k.tag && !r.backoff with
  | none => s
  | some r =>
    let code := answerCode k
    if code ≠ 0 then s.failMesh gi c r 1 code (Stc.retriable code)
    else if k.op = 0x03 then s.gateReadArrives gi c r k
    else
      (s.modGate gi fun g => g.setChan c { v with outst := v.outst.erase r, bytes := v.bytes + r.len }).gateGo gi c

/-- A retry of a gate channel: the failed mesh request of the TAG, or the failed store request of the tag (R324). -/
def gateRetry (s : State) (gi c : Nat) (tag : W16) : State :=
  let g := s.gate gi
  let v := g.chan c
  if !(v.st = .run) then s
  else match v.outst.find? fun r => r.backoff && r.pkt.tag == tag with
    | some r =>
      let t := s.modGate gi fun g => g.setChan c { v with outst := v.outst.erase r }
      let t := if r.pkt.op = 0x02 then t.modGate gi fun g => { g with buffered := Tab.set (fun _ => []) g.buffered c [] } else t
      let sent := t.gateTagged gi c r.pkt
      sent.1.modGate gi fun g => g.modChan c fun v =>
        { v with outst := v.outst ++ [{ r with pkt := sent.2, retries := r.retries + 1, backoff := false }] }
    | none =>
      match g.store.find? fun r => r.backoff && r.tag == tag.toNat && r.parts.any (Gate.partOf c) with
      | some r =>
        let t := g.tagged { r with backoff := false, heldBack := true }
        (s.setGate gi { t.1 with store := t.1.store.erase r ++ [t.2] }).gateGo gi c
      | none => s

def gateTimeout (s : State) (gi c : Nat) (tag : W16) : State :=
  match ((s.gate gi).chan c).outst.find? fun r => r.pkt.tag == tag && !r.backoff with
  | none => s
  | some r => s.failMesh gi c r 2 0 true

/-! ### Steward cores (R332) -/

/-- A failed access: an access-fault exception in the core, and STW_BUSERR of the first since it was read. -/
def coreFail (s : State) (st n code : Nat) (a : CoreAccess) : State :=
  let v := s.steward st
  let v := { v with
    access := Tab.set (fun _ => none) v.access n none
    exceptions := Tab.set (fun _ => 0) v.exceptions n (Tab.get (fun _ => 0) v.exceptions n + 1) }
  let s := s.setSteward st v
  if bit (s.reg (Reg.stwBuserrInfo st)) 31 then s
  else
    let s := s.setNum (Reg.stwBuserrInfo st) (2 ^ 31 + b2n a.store * 2 ^ 30 + n % 16 * 2 ^ 16 + code % 256 * 2 ^ 8)
    let s := s.setNum (Reg.stwBuserrAddrLo st) (a.addr.toNat % 2 ^ 32)
    s.setNum (Reg.stwBuserrAddrHi st) (a.addr.toNat / 2 ^ 32)

def coreAccess (s : State) (st n : Nat) : Option CoreAccess := Tab.get (fun _ => none) (s.steward st).access n

/-- A core's access completes with a value. -/
def coreDone (s : State) (st n : Nat) (v : W64) : State :=
  let w := s.steward st
  s.setSteward st { w with
    access := Tab.set (fun _ => none) w.access n none, loaded := Tab.set (fun _ => 0) w.loaded n v }

def coreAnswer (s : State) (st n : Nat) (k : Packet) : State :=
  match s.coreAccess st n with
  | none => s
  | some a =>
    if a.tag ≠ k.tag then s
    else if k.poison then s.coreFail st n 0xFE a
    else if k.op = 0x05 then s.coreFail st n k.nack.toNat a
    else s.coreDone st n (if a.store then Tab.get (fun _ => 0) (s.steward st).loaded n else k.opdata.setWidth 64)

/-! ### Every requester -/

/-- An answer at its requester. -/
def answer (s : State) (k : Packet) : State :=
  let s := s.take k
  let code := answerCode k
  match k.who with
  | .nobody | .castCarter _ _ _ | .castGate _ _ _ | .summary _ _ | .tallyCall _ _ | .report _ | .shadow _ | .heartbeat _ => s
  | .carter q c => s.onCroft q fun x => x.carAnswer c k
  | .post q => s.onCroft q fun x => x.postAnswer k
  | .gate g c => s.gateAnswer g c k
  | .core st n => s.coreAnswer st n k
  | .scaleToken h n => s.scaleAnswer h n (code = 0)
  | .record h n i => if code = 0 then s.recordAnswer h n else s.refusedAnswer h n i code
  | .verdict h n => if code = 0 then s else s.refusedAnswer h n 5 code
  | .stcReg h n o => s.stcAnswer h n o (code = 0) (k.opdata.toNat % 2 ^ 64)

end State

/-! ### The commands -/

def execWriteAck (k : Packet) (s : State) : Host.Outcome State Fault Refusal :=
  s.inTurn k fun s => if k.op = 0x04 then s.answer k else s

def execReadData (k : Packet) (s : State) : Host.Outcome State Fault Refusal :=
  s.inTurn k fun s => if k.op = 0x03 then s.answer k else s

def execNack (k : Packet) (s : State) : Host.Outcome State Fault Refusal :=
  s.inTurn k fun s => if k.op = 0x05 then s.answer k else s

def execRegData (k : Packet) (s : State) : Host.Outcome State Fault Refusal :=
  s.inTurn k fun s => if k.op = 0x14 then s.answer k else s

def execRequestTimeout (ch : ChanId) (tag : W16) (s : State) : Host.Outcome State Fault Refusal :=
  match ch with
  | .croft q c => .next (s.onCroft q fun x => x.requestTimeout c tag)
  | .gate g c => .next (s.gateTimeout g c tag)

def execRetry (ch : ChanId) (tag : W16) (s : State) : Host.Outcome State Fault Refusal :=
  match ch with
  | .croft q c => .next (s.onCroft q fun x => x.retry c tag)
  | .gate g c => .next (s.gateRetry g c tag)

/-- The drain is over once every request is answered or has timed out. -/
def execChannelDrainEnd (ch : ChanId) (s : State) : Host.Outcome State Fault Refusal :=
  match ch with
  | .croft q c => .next (s.onCroft q fun x => x.modChan c Chan.settle)
  | .gate g c =>
    if (s.gate g).storeParts c = 0 then .next (s.modGate g fun v => v.modChan c Chan.settle) else .next s

end Sys2Proof.Machine
end

