-- ==== Sys2Proof/Machine/Ledger.lean ====
section
/-! DEFINITION. The parish ledger (chapter 16): fault records and their log, the history table, and the block operations of
LDG_CMD. -/

namespace Sys2Proof.Machine

/-! ### Records and history entries as bytes (R392, R403) -/

/-- Bytes with the CRC-32 of R305 over them. -/
def withCrc (b : List Byte) : List Byte := b ++ leBytes 4 (crc32 b).toNat

def Record.bytes (r : Record) : List Byte :=
  withCrc (leBytes 8 r.first ++ leBytes 8 r.last ++ leBytes 16 r.sources.toNat ++ leBytes 8 r.syndrome.toNat ++
    leBytes 4 r.unit.toNat ++ leBytes 2 r.opcode.toNat ++ leBytes 2 r.temp.toNat ++ leBytes 2 r.voltage.toNat ++
    leBytes 2 r.merges ++ leBytes 1 r.source ++ leBytes 1 r.severity ++ leBytes 1 r.domain ++ [r.flags] ++
    leBytes 2 r.cycle.toNat ++ leBytes 2 r.number)

def Hist.bytes (h : Hist) : List Byte :=
  withCrc (leBytes 4 h.unit.toNat ++ leBytes 2 h.sub.toNat ++
    leBytes 2 (h.source + 2 ^ 8 * (1 + 2 * b2n h.permanent + 4 * b2n h.applied)) ++ leBytes 2 h.cycle.toNat ++
    leBytes 1 h.cur ++ leBytes 1 h.prev ++ leBytes 2 h.recCycle.toNat ++ leBytes 2 h.recNum ++ List.replicate 12 0)

namespace Ledger

def histDefault (_ : Nat) : Option Hist := none
def logDefault (_ : Nat) : Option Record := none

def entry (l : Ledger) (i : Nat) : Option Hist := Tab.get histDefault l.history i
def setEntry (l : Ledger) (i : Nat) (h : Hist) : Ledger := { l with history := Tab.set histDefault l.history i (some h) }

/-! ### Layout (R402) -/

/-- Blocks of image copy A, image copy B, the header, the field records, the identity area, the history table and the
record log. -/
def inCopyA (b : Nat) : Bool := b < 0x60000
def inCopyB (b : Nat) : Bool := 0x60000 ≤ b && b < 0xC0000
def inHeader (b : Nat) : Bool := b == 0xC0000
def inFields (b : Nat) : Bool := 0xC0100 ≤ b && b < 0xC0200
def inIdentity (b : Nat) : Bool := 0xC0001 ≤ b && b < 0xC0100
def inHistory (b : Nat) : Bool := 0xC0200 ≤ b && b < 0xC0A00
def inLog (b : Nat) : Bool := 0xC0A00 ≤ b && b < 0xC4A00

/-- Bring-up has added field records: repairs, units found and wire failures. -/
def hasFields (l : Ledger) : Bool := !(l.repairs.isEmpty && l.found.isEmpty && l.wires.isEmpty)

/-- The 4,096 bytes of a block. What bring-up has added among the field records shows there, in a layout that the spec does
not give (log 8). -/
def block (l : Ledger) (b : Nat) : List Byte :=
  if inHistory b then
    (List.range 128).flatMap fun i => match l.entry (128 * (b - 0xC0200) + i) with
      | some h => h.bytes
      | none => List.replicate 32 0
  else if inLog b then
    (List.range 64).flatMap fun i => match Tab.get logDefault l.log (64 * (b - 0xC0A00) + i) with
      | some r => r.bytes
      | none => List.replicate 64 0
  else
    let bs := Memory.read l.bytes (4096 * b) 4096
    if inFields b && l.hasFields then
      bs.mapIdx fun i x => Config.fieldByte (4096 * b + i) l.repairs (l.found.map fun u => u.toNat) l.wires x
    else bs

/-- The header as bring-up writes it: LDG_CYCLE in bytes 0 to 3 and the unit serial in bytes 8 to 15, a layout that is
DESIGN CHOICE (log 150). -/
def writeHeader (l : Ledger) (serial : W64) : Ledger :=
  { l with bytes := Memory.write l.bytes 0xC0000000 (leBytes 8 (l.cycle % 2 ^ 32) ++ leBytes 8 serial.toNat) }

/-- Append a record's copy to the log (R393); a ledger that does not answer keeps none. -/
def append (l : Ledger) (r : Record) : Ledger :=
  if !l.answers then l
  else
    let next := (l.logNext + 1) % 1048576
    { l with log := Tab.set logDefault l.log l.logNext (some r), logNext := next
             wrapped := l.wrapped || next == 0, busy := true }

/-! ### History (R396, R403) -/

/-- SUB of an event (R396); 0xFFFF where it has none. -/
def subOf (source : Nat) (syn : W64) : Nat :=
  if source = 0 then bitsOf syn.toNat 14 0
  else if source = 17 ∨ source = 18 then 0x8000 + bitsOf syn.toNat 8 0
  else if source = 37 ∨ source = 38 then 0xC000 + 32 * bitsOf syn.toNat 38 37 + bitsOf syn.toNat 36 32
  else 0xFFFF

/-- The entry of a location. -/
def findEntry (l : Ledger) (unit : W32) (sub : Nat) : Option (Nat × Hist) :=
  l.history.findSome? fun e => match e.2 with
    | some h => if h.unit = unit ∧ h.sub.toNat = sub then some (e.1, h) else none
    | none => none

/-- The entry that a new location takes: the lowest free one, or of a full table the one not PERMANENT with the smallest
cycle, the lowest offset winning a tie. -/
def newEntry (l : Ledger) : Option Nat :=
  if l.history.length < 262144 then
    (List.range (l.history.length + 1)).find? fun i => (l.entry i).isNone
  else
    (l.history.foldl (fun (b : Option (Nat × Nat)) e => match e.2, b with
      | some h, some (_, c) => if !h.permanent && h.cycle.toNat < c then some (e.1, h.cycle.toNat) else b
      | some h, none => if h.permanent then b else some (e.1, h.cycle.toNat)
      | none, _ => b) none).map (·.1)

/-- The counts after one more event in power cycle c. -/
def addCount (h : Hist) (c : Nat) : Hist :=
  let cyc : W16 := BitVec.ofNat 16 c
  let h :=
    if h.cycle = cyc ∧ h.cur ≠ 0 then { h with cur := min 255 (h.cur + 1) }
    else if h.cycle + 1 = cyc ∧ h.cur ≠ 0 then { h with prev := h.cur, cycle := cyc, cur := 1 }
    else { h with prev := 0, cycle := cyc, cur := 1 }
  { h with permanent := h.permanent || 3 ≤ h.cur + h.prev }

/-- Count an event at its location; whether the location has now become permanent. -/
def countEvent (l : Ledger) (unit : W32) (sub source recNum : Nat) : Ledger × Bool :=
  if !l.answers then (l, false)
  else
    let (at_, old) : Option Nat × Hist := match l.findEntry unit sub with
      | some (i, h) => (some i, h)
      | none => (l.newEntry, { unit, sub := BitVec.ofNat 16 sub })
    match at_ with
    | none => (l, false)
    | some i =>
      let h := { addCount old l.cycle with source, recCycle := BitVec.ofNat 16 l.cycle, recNum }
      (l.setEntry i h, h.permanent && !old.permanent)

/-- The entries of a history block that software's bytes for it remove: they are PERMANENT, their bytes are zero, and every
other entry's bytes are as they stand (R397, R404; log 116). -/
def removals (l : Ledger) (b : Nat) (bs : List Byte) : List Nat :=
  let zero : List Byte := List.replicate 32 0
  let old (i : Nat) : List Byte := match l.entry (128 * (b - 0xC0200) + i) with
    | some h => h.bytes
    | none => zero
  let changed := (List.range 128).filter fun i => slice bs (32 * i) 32 != old i
  let removed (i : Nat) : Bool := slice bs (32 * i) 32 == zero &&
    ((l.entry (128 * (b - 0xC0200) + i)).map fun h => h.permanent) == some true
  if inHistory b && changed.all removed then changed.map fun i => 128 * (b - 0xC0200) + i else []

/-- Retire a block to a spare. -/
def retire (l : Ledger) (b : Nat) : Ledger :=
  if l.spare = 0 ∨ l.retired.contains b then l else { l with spare := l.spare - 1, retired := l.retired ++ [b] }

end Ledger

namespace State

/-! ### LDG_CMD (R404) -/

/-- LDG_CMD with its BLOCK and ERR. -/
def ldgCmd (s : State) (b : Nat) (err : Bool) : State :=
  ({ s with ledger := { s.ledger with busy := true } }.setNum Reg.ldgCmd (b2n err * 2 ^ 29 + b % 2 ^ 20))

/-- LDG_BUF filled with a block's bytes. -/
def fillBuf (s : State) (bs : List Byte) : State :=
  (List.range 1024).foldl (fun s w => s.setNum (Reg.ldgBuf w) (ofLe (slice bs (4 * w) 4))) s

/-- The bytes of LDG_BUF. -/
def bufBytes (s : State) : List Byte := (List.range 1024).flatMap fun w => leBytes 4 (s.num (Reg.ldgBuf w))

def ldgRead (s : State) (b : Nat) (found : BlockEcc) : State :=
  if !s.ledger.answers then s.ldgCmd b true
  else match found with
    | .uncorrectable =>
      (((s.ldgCmd b true).fillBuf []).count Reg.ldgUncorr 1).raise 78 (locLedger b) 0 (accessOpcode Reg.ldgCmd)
    | .corrected n => ((s.ldgCmd b false).fillBuf (s.ledger.block b)).count Reg.ldgCorr n
    | .clean => (s.ldgCmd b false).fillBuf (s.ledger.block b)

/-- The areas that LDG_CMD may not write. -/
def ldgProtected (s : State) (b : Nat) : Bool :=
  let booted := 2 ≤ s.sec.stage && (if s.sec.copyB then Ledger.inCopyB b else Ledger.inCopyA b)
  booted || Ledger.inHistory b || Ledger.inLog b || Ledger.inIdentity b

/-- WRITE: LDG_BUF to the block, or the removal of permanent entries from a block of the history table. -/
def ldgWrite (s : State) (b : Nat) (bad : Bool) : State :=
  let gone := s.ledger.removals b s.bufBytes
  if !s.ledger.answers || s.ldgProtected b && gone.isEmpty || bad && s.ledger.spare == 0 then s.ldgCmd b true
  else
    let bs := s.bufBytes
    let s := s.ldgCmd b false
    let l := if bad then s.ledger.retire b else s.ledger
    { s with ledger :=
        if Ledger.inHistory b then { l with history := gone.foldl (fun t i => Tab.set Ledger.histDefault t i none) l.history }
        else { l with bytes := Memory.write l.bytes (4096 * b) bs } }

def runLdg (s : State) (o : LdgOp) : State :=
  match o with
  | .read b found => s.ldgRead b found
  | .write b bad => s.ldgWrite b bad

/-- An operation of LDG_CMD: it waits while the ledger is busy (R403). -/
def ldgOp (s : State) (o : LdgOp) : State :=
  if !s.up then s
  else if s.ledger.busy then
    let b := match o with
      | .read b _ => b
      | .write b _ => b
    { s with ledger := { s.ledger with waiting := s.ledger.waiting ++ [o] } }.setField Reg.ldgCmd 19 0 b
  else s.runLdg o

/-- The operation or append under way is over, and the oldest operation that waits is performed. -/
def ldgDone (s : State) : State :=
  let t := { s with ledger := { s.ledger with busy := false, waiting := s.ledger.waiting.drop 1 } }
  match s.ledger.waiting with
  | [] => t
  | o :: _ => t.runLdg o

end State

/-! ### The commands -/

def execLdgRead (block : BitVec 20) (found : BlockEcc) (s : State) : Host.Outcome State Fault Refusal :=
  .next (s.ldgOp (.read block.toNat found))

def execLdgWrite (block : BitVec 20) (bad : Bool) (s : State) : Host.Outcome State Fault Refusal :=
  .next (s.ldgOp (.write block.toNat bad))

def execLdgOpDone (s : State) : Host.Outcome State Fault Refusal := .next s.ldgDone

end Sys2Proof.Machine
end

