-- ==== Sys2Proof/Machine/Holdings.lean ====
section
/-! DEFINITION. Holdings and allotments (chapter 14): creation, resets and destruction, windows and channels and shares, and
the power codes of holdings and module. -/

namespace Sys2Proof.Machine

/-- STC_NORM_CFG as written: a RING_POS not below RING_N is ignored. -/
def State.normCfg (old v : W64) : W64 := if fld v 7 0 < max 1 (fld v 15 8) then v else setFld v 7 0 (fld old 7 0)

/-- A word of the image in a step controller's register: the bits that a write would change. -/
def Stc.load (c : Stc) (o : Nat) (v : W32) : Stc :=
  match findReg stcMap o with
  | some d => c.setReg o (d.write (c.reg o) (v.setWidth 64))
  | none => c

/-- A step controller as the holding's image entry loads it (R176, R275, R295, R167, R174); its LS_CFG is not checked
(log 157). -/
def Stc.ofImage (e : HoldingEntry) : Stc :=
  let set (o : Nat) (v : W32) (c : Stc) : Stc := c.load o v
  let c := set Reg.stcLsCfg e.lsCfg {}
  let c := set Reg.stcResidLimit e.resid (set Reg.stcLsGrowth e.lsGrowth c)
  let c := c.setKeeper (signed 8 (c.field Reg.stcLsCfg 7 0)) 0
  let c := c.setField Reg.stcMirror 0 0 (b2n e.mirror)
  let c := set Reg.stcSchedDecay e.decay (set Reg.stcSchedWarm e.warm (set Reg.stcSchedCfg e.schedCfg c))
  let c := set Reg.stcSchedFEnd e.fEnd (set Reg.stcSchedFPeak e.fPeak (set Reg.stcSchedFStart e.fStart c))
  let ring : W32 := (State.normCfg (c.reg Reg.stcNormCfg) (e.normCfg.setWidth 64)).setWidth 32
  let c := set Reg.stcNormClip e.normClip (set Reg.stcNormCfg ring c)
  (c.setNum Reg.stcSeedLo (e.seed.toNat % 2 ^ 32)).setNum Reg.stcSeedHi (e.seed.toNat / 2 ^ 32)

namespace State

/-- The holding's entry of the booted image; the registers' reset values where it has none. -/
def imageEntry (s : State) (h : Nat) : HoldingEntry :=
  (s.sec.image.holdings.find? fun e => e.holding = h).getD { holding := h }

/-! ### Allotments (R345 to R348) -/

/-- ALT_RES's values as they act. -/
def altChannels (s : State) (h : Nat) : Nat := min 2048 (s.field (Reg.altRes h) 27 16)
def altShare (s : State) (h : Nat) : Nat := min 256 (s.field (Reg.altRes h) 13 5)
def altWindows (s : State) (h : Nat) : Nat := min 16 (s.field (Reg.altRes h) 4 0)

/-- The holding's allotments reach every croft of it and every gate. -/
def applyAllotment (s : State) (h : Nat) : State :=
  let win := s.altWindows h
  let s := ((s.parishesOf h).flatMap croftsOf).foldl (fun s q =>
    s.onCroft q fun x => x.setField Reg.crfWinLimit 4 0 win) s
  (List.range 28).foldl (fun s i => s.modGate i fun g =>
    (g.setField (Reg.gatAllot h) 27 16 (s.altChannels h)).setField (Reg.gatAllot h) 8 0 (s.altShare h)) s

/-- The ceiling of a parish at a code, from the image. -/
def ceiling (s : State) (p code : Nat) : Nat :=
  match s.sec.image.ceilings.find? fun e => e.1 = p && e.2.1 = code with
  | some e => e.2.2
  | none => 0

/-- The highest code whose ceilings the allotment covers; none where no code does (R347). -/
def powerCode (s : State) (h : Nat) : Option Nat :=
  let ps := s.parishesOf h
  let watts := s.field (Reg.altPower h) 15 0
  (List.range 26).reverse.find? fun c => (ps.map fun p => s.ceiling p c).sum ≤ watts

/-- PAR_PCLK.CAP of every parish: the lower of the module code and its holding's code (R348). -/
def writeCaps (s : State) : State :=
  (List.range 56).foldl (fun s p =>
    let h := s.owner p
    s.writePclkCap p (if h < 16 then min s.power.modCode (s.holding h).code else s.power.modCode)) s

/-- The power code formed anew from the ceilings. -/
def formCode (s : State) (h : Nat) : State :=
  let c := s.powerCode h
  (s.setHolding h { s.holding h with code := c.getD 0, noCode := c.isNone, below := 0 }).writeCaps

/-- A write of ALT_RES: ignored for a FREE holding, held during a reset. -/
def writeAltRes (s : State) (h : Nat) (v : W32) : State :=
  let d := s.holding h
  match d.st with
  | .free => s
  | .active => (s.setReg (Reg.altRes h) ((v &&& 0x0FFF3FFF).setWidth 64)).setHolding h { d with busy := true }
  | _ => s.setHolding h { d with altRes := some v }

def writeAltPower (s : State) (h : Nat) (v : W32) : State :=
  let d := s.holding h
  match d.st with
  | .free => s
  | .active =>
    ((s.setReg (Reg.altPower h) ((v &&& 0xFFFF).setWidth 64)).setHolding h { d with busy := true }).formCode h
  | _ => s.setHolding h { d with altPower := some v }

/-- A 1 ms reading of the holding's rails: over the allotment the code falls by one, and ten readings below 95% of it
raise it by one, no higher than the ceilings give. -/
def holdingReading (s : State) (h watts : Nat) : State :=
  let d := s.holding h
  let cap := s.field (Reg.altPower h) 15 0
  if d.st = .free then s
  else if cap < watts then (s.setHolding h { d with watts, below := 0, code := d.code - 1 }).writeCaps
  else if 100 * watts < 95 * cap then
    if d.below = 9 then
      (s.setHolding h { d with watts, below := 0, code := max d.code (min (d.code + 1) ((s.powerCode h).getD 0)) }).writeCaps
    else s.setHolding h { d with watts, below := d.below + 1 }
  else s.setHolding h { d with watts, below := 0 }

/-- Input power of the converter groups in mW × 10: mV times 0.1 A. -/
def inputPower (s : State) : Nat :=
  ((List.range 8).map fun k => s.field (Reg.modSupply k) 31 16 * s.field (Reg.modSupply k) 15 0).sum

/-- A 100 µs reading of the module's input power. -/
def moduleReading (s : State) : State :=
  let p := s.inputPower
  let cap := s.field Reg.altModuleCap 15 0 * 10000
  let w : Power := { s.power with modWatts := p / 10000 }
  if cap < p then { s with power := { w with capBelow := 0, modCode := w.modCode - 1 } }.writeCaps
  else if 100 * p < 95 * cap then
    if w.capBelow = 99 then { s with power := { w with capBelow := 0, modCode := min 25 (w.modCode + 1) } }.writeCaps
    else { s with power := { w with capBelow := w.capBelow + 1 } }
  else { s with power := { w with capBelow := 0 } }

/-! ### Creation, reset and destruction (R341 to R344) -/

def setHldErr (s : State) (h : Nat) (on : Bool) : State := s.setField (Reg.hldCtrl h) 29 29 (b2n on)

/-- The parishes of HLD_RECT, and whether the rectangle is one. -/
def rectOf (s : State) (h : Nat) : List Nat :=
  let c0 := s.field (Reg.hldRect h) 2 0
  let r0 := s.field (Reg.hldRect h) 6 4
  let c1 := s.field (Reg.hldRect h) 10 8
  let r1 := s.field (Reg.hldRect h) 14 12
  (List.range 56).filter fun p => c0 ≤ p % 8 && p % 8 ≤ c1 && r0 ≤ p / 8 && p / 8 ≤ r1

def rectOk (s : State) (h : Nat) : Bool :=
  let c0 := s.field (Reg.hldRect h) 2 0
  let r0 := s.field (Reg.hldRect h) 6 4
  let c1 := s.field (Reg.hldRect h) 10 8
  let r1 := s.field (Reg.hldRect h) 14 12
  c0 ≤ c1 && r0 ≤ r1 && c1 ≤ 7 && r1 ≤ 6

/-- VALID = 0 in every group entry of the holding. -/
def clearGroups (h : Nat) (v : Parish) : Parish :=
  { v with groups := v.groups.foldl (fun t e =>
      if bitsOf e.2.hi.toNat 11 8 = h then Tab.set (fun _ => ({} : Group)) t e.1 { e.2 with hi := e.2.hi &&& 0x00000FFF }
      else t) v.groups }

/-- t0 of a holding reset. -/
def startReset (s : State) (h : Nat) (st : HldState) (creating : Bool) : State :=
  let s := s.setHolding h { s.holding h with st, creating }
  let c := s.stc h
  let s := s.setStc h { c with abandoning := false, openPending := false, order := 0 }
  let s := (s.holdingCrofts h).foldl (fun s q => s.onCroft q Site.beginReset) s
  let s := s.abortHolding h 8
  (List.range 56).foldl (fun s p => s.setParish p (clearGroups h (s.parish p))) s

def createHolding (s : State) (h : Nat) : State :=
  let ps := s.rectOf h
  let ok := (s.holding h).st = .free && s.rectOk h &&
    ps.all fun p => decide (16 ≤ s.owner p) && (s.parish p).st = .on
  if !ok then s.setHldErr h true
  else (ps.foldl (fun s p => s.setNum (Reg.hldOwner p) h) (s.setHldErr h false)).startReset h .resetting true

/-- RESET: refused for a FREE holding, and ignored while a reset is in progress. -/
def resetHolding (s : State) (h : Nat) : State :=
  match (s.holding h).st with
  | .free => s.setHldErr h true
  | .active => (s.setHldErr h false).startReset h .resetting false
  | _ => s

def destroyHolding (s : State) (h : Nat) : State :=
  match (s.holding h).st with
  | .free => s.setHldErr h true
  | .active => (s.setHldErr h false).startReset h .destroying false
  | .resetting => (s.setHldErr h false).setHolding h { s.holding h with st := .destroying }
  | .destroying => s

/-- Every gate context of the holding has drained. -/
def gatesDrained (s : State) (h : Nat) : Bool :=
  s.gates.all fun e => (e.2.contextsOf h).all fun c => (e.2.chan c).outst.isEmpty && e.2.storeParts c == 0

/-- The end of a holding reset: crofts reset, contexts FREE, the step controller and the allotments loaded again. -/
def finishReset (s : State) (h : Nat) : State :=
  let d := s.holding h
  let s := (s.holdingCrofts h).foldl (fun s q => s.onCroft q fun x => if x.c.resetting then x.resetDone else x) s
  let s := (List.range 28).foldl (fun s i => s.modGate i fun g =>
    (g.contextsOf h).foldl (fun g c => (g.modChan c Chan.settle).destroyChan c 8) g) s
  let e := s.imageEntry h
  let s := s.setStc h (Stc.ofImage e)
  let res := (d.altRes.getD e.allotRes) &&& 0x0FFF3FFF
  let power := (d.altPower.getD e.power) &&& 0xFFFF
  let s := ((s.setReg (Reg.altRes h) (res.setWidth 64)).setReg (Reg.altPower h) (power.setWidth 64)).applyAllotment h
  if d.st = .destroying then
    let s := (s.parishesOf h).foldl (fun s p => s.setNum (Reg.hldOwner p) 0x1F) s
    let s := (s.setReg (Reg.altRes h) (moduleReset (Reg.altRes h))).setReg (Reg.altPower h) (moduleReset (Reg.altPower h))
    (s.setHolding h {}).writeCaps
  else
    let d := { d with st := .active, creating := false, altRes := none, altPower := none, busy := false }
    (s.setHolding h d).formCode h

end State

/-! ### The commands -/

def execCreate (h : Hold) (s : State) : Host.Outcome State Fault Refusal := .next (s.whenUp fun s => s.createHolding h)

def execReset (h : Hold) (s : State) : Host.Outcome State Fault Refusal := .next (s.whenUp fun s => s.resetHolding h)

def execDestroy (h : Hold) (s : State) : Host.Outcome State Fault Refusal := .next (s.whenUp fun s => s.destroyHolding h)

/-- The croft resets and gate drains of a holding reset are complete. -/
def execHoldingResetDone (h : Hold) (s : State) : Host.Outcome State Fault Refusal :=
  let st := (s.holding h).st
  if (st = .resetting ∨ st = .destroying) ∧ s.gatesDrained h then .next (s.finishReset h) else .next s

def execAltResWrite (h : Hold) (v : W32) (s : State) : Host.Outcome State Fault Refusal := .next (s.writeAltRes h v)

def execAltPowerWrite (h : Hold) (v : W32) (s : State) : Host.Outcome State Fault Refusal := .next (s.writeAltPower h v)

def execAltModuleCapWrite (v : W32) (s : State) : Host.Outcome State Fault Refusal :=
  .next (s.whenUp fun s => s.setReg Reg.altModuleCap ((v &&& 0xFFFF).setWidth 64))

def execAllotmentApplied (h : Hold) (s : State) : Host.Outcome State Fault Refusal :=
  let d := s.holding h
  if d.busy then .next ((s.setHolding h { d with busy := false }).applyAllotment h) else .next s

def execHoldingPowerReading (h : Hold) (watts : Nat) (s : State) : Host.Outcome State Fault Refusal :=
  .next (s.holdingReading h watts)

def execModulePowerReading (s : State) : Host.Outcome State Fault Refusal :=
  if s.up then .next s.moduleReading else .next s

end Sys2Proof.Machine
end

