-- ==== Sys2Proof/Machine/Stewards.lean ====
section
/-! DEFINITION. The stewards (chapter 14): heartbeats and watchdogs, takeover and release, and shadow records. -/

namespace Sys2Proof.Machine
namespace State

/-- The other steward. -/
def otherSteward (i : Nat) : Nat := 1 - i

def modSteward (s : State) (i : Nat) (f : Steward → Steward) : State := s.setSteward i (f (s.steward i))

/-! ### The partner's set (R334, R382) -/

/-- The FLT_ registers among the module's. -/
def fltPart (s : State) : Tab W64 := s.regs.filter fun e => (findReg fltRegs e.1).isSome

/-- A change in the partner's set. -/
def applyChange (s : State) (c : Change) : State :=
  match c with
  | .stc h v => { s with shadowStcs := Tab.set (fun _ => ({} : Stc)) s.shadowStcs h v }
  | .faults f => { s with shadowFaults := f }
  | .flt o v => { s with shadowFlt := Tab.set Machine.moduleReset s.shadowFlt o v }

/-- The partner's set is brought to the ACTIVE one's, as a steward becomes STANDBY. -/
def syncShadow (s : State) : State :=
  { s with shadowStcs := s.stcs, shadowFaults := s.faults, shadowFlt := s.fltPart, shadows := [] }

/-- The partner's set acts: what no applied record has told it is lost with the lost steward. -/
def adoptShadow (s : State) : State :=
  let rest := s.regs.filter fun e => (findReg fltRegs e.1).isNone
  { s with
    stcs := s.shadowStcs, faults := s.shadowFaults
    regs := s.shadowFlt.foldl (fun t e => Tab.set Machine.moduleReset t e.1 e.2) rest }

/-- No partner is there to acknowledge: everything that waits goes out. -/
def releaseShadows (s : State) : State := s.shadows.foldl perform { s with shadows := [] }

/-! ### Takeover and release (R336 to R338) -/

/-- What senders hold unacknowledged is delivered again: the reeves' summaries and the fault reports; a message waits at
its gate's port (R335, R382). -/
def redeliver (s : State) : State :=
  let sums := s.parishes.flatMap fun e => e.2.sentSums.map fun m => s.summaryPacket e.1 m.1 m.2
  s.emit (sums ++ s.reports.flatMap s.reportPackets)

/-- The steward becomes ACTIVE, its set acts, and every holding is resolved; a holding reset under way begins again. The
actions of the records that its set has applied are its own now, and leave from its endpoint; a STANDBY partner's set is
brought to its own before anything else happens. -/
def becomeActive (s : State) (i : Nat) : State :=
  let s := (s.modSteward i fun v => { v with role := .active, expired := false }).count (Reg.stwTakeovers i) 1
  let from_ (k : Packet) : Packet := { k with src := BitVec.ofNat 16 s.activeEndpoint }
  let mine := (s.shadows.filter (·.applied)).map fun (d : Shadow) => { d with release := d.release.map from_ }
  let s := mine.foldl perform { s with shadows := [] }
  let s := if s.standby.isSome then s.syncShadow else s
  let s := s.redeliver
  (List.range 16).foldl (fun s h =>
    match (s.holding h).st with
    | .free => s
    | .active => s.resolve h
    | st => s.startReset h st (s.holding h).creating) s

/-- A takeover by the STANDBY steward: the die of its partner is held in reset. -/
def takeover (s : State) (i : Nat) : State :=
  if (s.steward i).role = .standby ∧ (s.steward (otherSteward i)).role = .lost then
    ((s.modSteward (otherSteward i) fun v => { v with heldReset := true, access := [] }).adoptShadow).becomeActive i
  else s

/-- A steward is LOST. Where it was ACTIVE, its partner declares it so with STEWARD_LOST, and takes over if AUTO is 1; where
it was STANDBY, nothing waits for it any more. -/
def loseSteward (s : State) (i : Nat) : State :=
  let was := (s.steward i).role
  let j := otherSteward i
  if was = .lost then s
  else
    let s := s.modSteward i fun v => { v with role := .lost, mgmtUp := false }
    if was = .active then
      let s := if (s.steward j).role = .standby then s.raise 74 (locSteward i) else s
      if bit (s.reg (Reg.stwCtrl j)) 0 then s.takeover j else s
    else (s.modSteward i fun v => { v with heldReset := true, access := [] }).releaseShadows

/-- The STANDBY steward declares its partner LOST. -/
def declareLost (s : State) (i : Nat) : State :=
  if (s.steward i).role = .standby then s.loseSteward (otherSteward i) else s

/-- Isolation holds the steward's die in reset, whether or not its partner takes over (R389). -/
def isolateSteward (s : State) (i : Nat) : State :=
  (s.loseSteward i).modSteward i fun v => { v with heldReset := true, access := [] }

/-- RELEASE: the partner takes over at once, its set brought to the releasing one's by the records under way. -/
def release (s : State) (i : Nat) : State :=
  let j := otherSteward i
  if (s.steward i).role = .active ∧ (s.steward j).role = .standby then
    let s := s.modSteward i fun v => { v with role := .standby }
    let s := { s with shadows := s.shadows.map fun (d : Shadow) => { d with applied := true } }
    s.becomeActive j
  else s

/-! ### What status requests show -/

def stateCode : HldState → Nat
  | .free => 0 | .active => 1 | .resetting => 2 | .destroying => 3

/-- STATE of the sixteen holdings. -/
def holdingStates (s : State) : List Nat := (List.range 16).map fun h => stateCode (s.holding h).st

/-- The open records. -/
def openRecords (s : State) : List Record :=
  s.faults.records.filterMap fun e => e.2.filter fun r => r.flags.getLsbD 0

end State

/-! ### The commands -/

/-- A heartbeat packet leaves for the partner while the watchdog has not expired. The spec gives it no OP: it rides as a
register write (log 124). -/
def execHeartbeat (st : Stw) (s : State) : Host.Outcome State Fault Refusal :=
  let v := s.steward st
  let k := { State.control 0x12 (0x7100 + st) (0x7100 + State.otherSteward st) 3 with who := .heartbeat st }
  if v.role = .active ∧ !v.expired then
    .next ((s.setSteward st { v with heartbeats := v.heartbeats + 1 }).emit [k])
  else .next s

def execKick (st : Stw) (s : State) : Host.Outcome State Fault Refusal :=
  .next (s.modSteward st fun v => if v.heldReset then v else { v with expired := false })

def execWatchdogExpiry (st : Stw) (s : State) : Host.Outcome State Fault Refusal :=
  .next (s.whenUp fun s => s.modSteward st fun v => if v.heldReset then v else { v with expired := true })

/-- The record's packet has reached the partner: the change is made in its set and answered. Records are taken in the
order of their numbers (R60). -/
def execShadowRecord (n : Nat) (s : State) : Host.Outcome State Fault Refusal :=
  match s.inbox.find? (fun k => k.who = .shadow n && k.op = 0x12), s.shadows.find? (fun d => !d.applied) with
  | some k, some d =>
    if d.num = n then
      let s := d.changes.foldl State.applyChange (s.take k)
      let s := { s with shadows := s.shadows.map fun (e : Shadow) => if e.num = n then { e with applied := true } else e }
      .next (s.emit [State.answerTo k 0x14 3])
    else .next s
  | _, _ => .next s

/-- An uncorrectable codeword in a steward's SRAM (R380). -/
def execStewardUe (st : Stw) (s : State) : Host.Outcome State Fault Refusal :=
  if (s.steward st).heldReset || !s.up then .next s else .next (s.raise 79 (State.locSteward st))

end Sys2Proof.Machine
end

