-- ==== Sys2Proof/Machine/Supply.lean ====
section
/-! DEFINITION. Supply, reset, protection, timing inputs and measurements of the module (chapters 01 and 17). -/

namespace Sys2Proof.Machine
namespace State

/-- The management cables as they stand in their cages. -/
def mgmtCables (s : State) : Tab Steward :=
  [0, 1].foldl (fun t i => Tab.set (fun _ => ({} : Steward)) t i { mgmtCable := (s.steward i).mgmtCable }) []

/-- What power-off and module reset leave (R21, R22, R402): the ledger die, the fuses, what stands outside the
module, and what the converter controller holds. Everything else starts again from its reset value. -/
def cold (s : State) : State :=
  { State.reset with
    power := { busbar := s.power.busbar, auxOn := s.power.auxOn, inrush := s.power.inrush, groupsOff := s.power.groupsOff,
               resetN := s.power.resetN, resetDone := s.power.resetDone, tripLatch := s.power.tripLatch,
               tripRecord := s.power.tripRecord }
    clock := { refclk := s.clock.refclk }
    ledger := { s.ledger with busy := false, answers := false, waiting := [] }
    stewards := s.mgmtCables
    sec := { fuses0 := s.sec.fuses0, fuses1 := s.sec.fuses1, udsLocked := false }
    cables := s.cables, slotId := s.slotId, freeCtr := s.freeCtr, pending := s.pending }

/-- A busbar between 40 V and 62 V. -/
def feeds : Busbar → Bool
  | .absent | .high => false
  | .low | .within | .above => true

/-- The auxiliary converter runs while the busbar reads 40–62 V and the trip latch is clear (R407). As it stops and as
it starts, no unit holds anything (R21). -/
def supplyAux (s : State) : State :=
  let on : Bool := feeds s.power.busbar && !s.power.tripLatch
  let t := { s with power := { s.power with auxOn := on } }
  if on = s.power.auxOn then t else t.cold

/-- Module reset (R22, R408): everything from its reset value, the converter groups on again. -/
def moduleReset (s : State) : State := { s with power := { s.power with groupsOff := [] } }.cold

/-- Bring-up begins, with module time 0 at t0, once 54 V is within limits and MOD_RESET_N is high (R352, R378). -/
def tryBringUp (s : State) : State :=
  if s.power.busbar = .within ∧ s.up ∧ !s.sec.running then
    { s with sec := { s.sec with running := true, stage := 0 }, clock := { s.clock with now := 0, ticks := 0 } }
  else s

/-! ### Pins (R20) -/

/-- The gates with their transmitters in electrical idle, or out of it again. -/
def idleGates (s : State) (on : Bool) : Tab Gate := s.gates.map fun e => (e.1, { e.2 with quiet := on })

/-- The column of R20 in which the pins stand. -/
def pins (s : State) : PinColumn := if !s.power.auxOn then .off else if s.alive then .live else .held

/-- Cell i drives its net in EXTEST, while the test access port is active. -/
def scanned (s : State) (i : Nat) : Option Bool :=
  if s.tap = .extest ∧ s.pins ≠ .off then some (s.bscan.latch.getD i true) else none

/-- The module drives ERR_BELL_N low. -/
def bellPin (s : State) : Bool := !((s.scanned 0).getD (!(s.pins = .live && s.faults.bellLow)))
/-- The module drives THERM_ALERT_N low. -/
def alertPin (s : State) : Bool := !((s.scanned 1).getD (!(s.pins = .live && s.power.thermLow)))
/-- The module acknowledges a transfer on the two-wire bus, once Papione has been started (R18). -/
def twbAnswers (s : State) : Bool := s.pins = .live && 5 ≤ s.sec.stage
/-- A cage's 3.3 V is on. -/
def cagePin (s : State) (g k : Nat) : Bool := s.pins = .live && ((s.gate g).port k).powered
/-- A lane's transmitter leaves electrical idle once its port trains. -/
def lanePin (s : State) (g l : Nat) : Bool :=
  let st := ((s.gate g).lane l).st
  s.pins = .live && st != .off && st != .failed
/-- A management port's link is up. -/
def mgmtPin (s : State) (i : Nat) : Bool := s.pins = .live && (s.steward i).mgmtUp

/-- SAMPLE and EXTEST take the levels of the canopy connector's nets: ERR_BELL_N, THERM_ALERT_N, MOD_RESET_N,
SLOT_ID[2:0] and PRESENT_N, which the canopy ties to ground, then the others. IEEE 1149.1 leaves the cells and their order
to the part: DESIGN CHOICE (log 133). -/
def capture (s : State) : State :=
  let slot := s.slotId
  let known := [!s.bellPin, !s.alertPin, s.power.resetN, slot.getLsbD 0, slot.getLsbD 1, slot.getLsbD 2, false]
  { s with freeCtr := s.freeCtr + 1, bscan := { s.bscan with taken := known ++ Config.netLevels s.freeCtr } }

/-- MOD_SERVICE.REFCLK_OK: REFCLK has been present for 10 ms, and both PLLs of every parish have locked to it (R413).
While a parish is off or tripped its PLLs are not locked, so the bit is 0: DEDUCED (log 134). -/
def refclkShown (s : State) : Bool :=
  s.clock.refclkOk && (List.range 56).all fun p => (s.parish p).nclkLock && (s.parish p).pclkLock

/-! ### Thermal protection (R23) -/

/-- Alert thresholds in 0.125 °C (R23). -/
def waferAlert : Int := 760
def outletAlert : Int := 480
def waferTrip : Int := 880

/-- THERM_ALERT_N after a reading of sensor i: low from a reading at the threshold, released when every sensor reads
3 °C below its threshold or cooler. It raises THERMAL_ALERT as it goes low. -/
def alert (s : State) (i : Nat) (t threshold : Int) : State :=
  let warm := if threshold - 24 < t then s.power.hot.filter (· ≠ i) ++ [i] else s.power.hot.filter (· ≠ i)
  let low := if threshold ≤ t then true else s.power.thermLow && !warm.isEmpty
  let was := s.power.thermLow
  let s := { s with power := { s.power with hot := warm, thermLow := low } }
  if low && !was then s.raise 75 locModule else s

/-- The thermal trip (R23): every converter group and the auxiliary converter off, the latch set, no record yet. The spec
does not say which reading bring-up records where a second one reaches the threshold before then: the last one does,
DESIGN CHOICE (log 146). -/
def thermalTrip (s : State) (reading : W16) (p : Nat) : State :=
  let syn : W64 := BitVec.ofNat 64 (reading.toNat + p * 2 ^ 16)
  ({ s with power := { s.power with tripLatch := true, tripRecord := some syn } }.supplyAux).cold

/-- A sensor register's two readings, two's complement. -/
def tempsOf (v : Parish) : List Int :=
  [signed 16 (v.field Reg.parTempA 15 0), signed 16 (v.field Reg.parTempA 31 16),
   signed 16 (v.field Reg.parTempB 15 0), signed 16 (v.field Reg.parTempB 31 16)]

/-- MOD_WAFER_TEMP: the hottest sensor of the parishes whose reeve runs, the lowest p winning a tie. A parish with no
reading since reset counts with the reset value of its registers, 0 °C: DESIGN CHOICE (log 135). -/
def waferTemp (s : State) : W64 :=
  let best := (List.range 56).foldl (fun (b : Option (Int × Nat)) p =>
    let v := s.parish p
    if v.net then
      let t := (tempsOf v).foldl max (-32768)
      match b with
      | some (u, _) => if u < t then some (t, p) else b
      | none => some (t, p)
    else b) none
  match best with
  | some (t, p) => BitVec.ofNat 64 (unsigned 16 t * 2 ^ 16 + p)
  | none => 0

/-- A read of the MOD_ block at an offset, MOD_SERVICE among it. -/
def modRead (s : State) (o : Nat) : W64 :=
  if o = Reg.modService then
    BitVec.ofNat 64 (b2n s.bellPin * 8 + b2n s.alertPin * 4 + b2n s.clock.epochLock * 2 + b2n s.refclkShown)
  else if (findReg modRegs o).isSome then s.reg o
  else 0

/-- The whole millisecond nearest to module time. -/
def nearestMs (t : Nat) : Nat := (t + 500000) / 1000000 * 1000000

end State

/-! ### Supply and reset -/

def execBusbarWithinLimits (s : State) : Host.Outcome State Fault Refusal :=
  .next ({ s with power := { s.power with busbar := .within } }.supplyAux).tryBringUp

def execBusbarRemoval (s : State) : Host.Outcome State Fault Refusal :=
  .next (({ s with power := { s.power with busbar := .absent, inrush := false } }.supplyAux).cold)

/-- The busbar comes into the converter's range: past 40 V, where the input current is limited first (R409), or down to
62 V after an overvoltage (R407). -/
def execAuxConverterStart (s : State) : Host.Outcome State Fault Refusal :=
  match s.power.busbar with
  | .absent => .next ({ s with power := { s.power with busbar := .low, inrush := true } }.supplyAux)
  | .high => .next ({ s with power := { s.power with busbar := .above } }.supplyAux)
  | _ => .next s

def execBusbarOvervoltage (s : State) : Host.Outcome State Fault Refusal :=
  .next (({ s with power := { s.power with busbar := .high } }.supplyAux).cold)

/-- The busbar as a group's trip shows it: below 44 V or above 60 V, where it fed the module (R23). -/
def trippedAt (b : Busbar) (high : Bool) : Busbar := if State.feeds b then (if high then .above else .low) else b

/-- The group's parishes become TRIPPED and SUPPLY_TRIP is raised (R408), recorded while the stewards run. -/
def execSupplyTrip (k : Fin 8) (high : Bool) (s : State) : Host.Outcome State Fault Refusal :=
  let s := { s with power := { s.power with busbar := trippedAt s.power.busbar high } }
  if s.power.groupsOff.contains k.val then .next s
  else
    let ps := (List.range 7).map fun r => 8 * r + k.val
    let s := if s.power.auxOn then ps.foldl (fun s p => s.isolate p) s else s
    let s := { s with power := { s.power with groupsOff := s.power.groupsOff ++ [k.val] } }
    if s.power.auxOn then .next (s.raise 81 State.locModule) else .next s

/-- The pins go to the middle column of R20 (State.pins): cages, lanes, management links, bell and alert are released,
the bell even inside its minimum, which thus ends: from here it follows LEVEL. -/
def execModResetNFall (s : State) : Host.Outcome State Fault Refusal :=
  .next { s with
    power := { s.power with resetN := false, resetDone := false }
    gates := s.idleGates true
    faults := { s.faults with pulse := false, bellLow := bit (s.reg Reg.fltBell) 0 || s.faults.bootBell } }

def execModuleReset (s : State) : Host.Outcome State Fault Refusal :=
  if s.power.resetN then .next s
  else .next { s.moduleReset with power := { s.moduleReset.power with resetDone := true } }

/-- Bring-up begins or waits, nothing having been held in reset. After a pulse shorter than 1 ms the module may have
reset or not (R22): a free value. Where it has not, bring-up goes on, or begins if nothing had begun it. -/
def execModResetNRise (s : State) : Host.Outcome State Fault Refusal :=
  if s.power.resetN then .next s
  else
    let t := { s with
      power := { s.power with resetN := true, resetDone := false }
      gates := s.idleGates false }
    if s.power.resetDone then .next t.moduleReset.tryBringUp
    else
      let f := t.fresh
      if f.1.getLsbD 0 then .next f.2.moduleReset.tryBringUp else .next f.2.tryBringUp

/-- MOD_RESET_N low for 10 ms, or 54 V absent for 1 s (R24, R408). -/
def execTripLatchClear (s : State) : Host.Outcome State Fault Refusal :=
  if !s.power.resetN || s.power.busbar = .absent then
    let off := if s.power.busbar = .absent then [] else s.power.groupsOff
    .next ({ s with power := { s.power with tripLatch := false, groupsOff := off } }.supplyAux)
  else .next s

/-! ### Parish trips (R45) -/

def execParishTrip (p : Par) (network : Bool) (peak : W16) (s : State) : Host.Outcome State Fault Refusal :=
  if (s.parish p).net then
    let s := s.isolate p
    .next (s.setParish p { s.parish p with trip := some (network, peak) })
  else .next s

def execTripReport (p : Par) (s : State) : Host.Outcome State Fault Refusal :=
  match (s.parish p).trip with
  | none => .next s
  | some (network, peak) =>
    let s := s.setParish p { s.parish p with trip := none }
    .next (s.raise 70 (State.locParish p) (BitVec.ofNat 64 (b2n network + peak.toNat * 2 ^ 16)))

/-! ### Timing inputs -/

/-- The PLLs hold their frequency; after READY the source is raised (R27, R355). -/
def execRefclkLoss (s : State) : Host.Outcome State Fault Refusal :=
  let t := { s with clock := { s.clock with refclk := false, refclkOk := false } }
  if s.clock.refclk && s.up && s.sec.stage == 8 then .next (t.raise 72 State.locModule) else .next t

/-- The three cases of R415. -/
def execEpochEdge (s : State) : Host.Outcome State Fault Refusal :=
  let c := s.clock
  let near := State.nearestMs c.now
  let d : Int := near - c.now
  if !s.alive then .next s
  else if !c.epochSeen then
    .next { s with clock := { c with
      now := near, epochSeen := true, epochLock := true, missing := 0, slew := 0, slewPort := none } }
  else if c.epochLock then
    if d.natAbs ≤ 2000 then .next { s with clock := { c with slew := d, slewPort := none, missing := 0 } }
    else .next { s with clock := { c with missing := c.missing + 1 } }
  else
    let good := if d.natAbs ≤ 2000 then c.goodEdges + 1 else 0
    .next { s with clock := { c with
      slew := d, slewPort := none, goodEdges := good, epochLock := 3 ≤ good, missing := 0 } }

/-- Three consecutive expected edges are missing. No edge is expected before the first one has arrived, nor while
EPOCH_LOSS holds: DESIGN CHOICE (log 136). -/
def execEpochLoss (s : State) : Host.Outcome State Fault Refusal :=
  if s.clock.epochLock then
    .next ({ s with clock := { s.clock with epochLock := false, goodEdges := 0, missing := 0 } }.raise 73 State.locModule)
  else .next s

/-! ### Measurements (R29, R37, R48) -/

def execSupplyReading (k : Fin 8) (current voltage : W16) (s : State) : Host.Outcome State Fault Refusal :=
  if s.alive then .next (s.setNum (Reg.modSupply k) (current.toNat * 2 ^ 16 + voltage.toNat)) else .next s

def execCoolantReading (inlet outlet : W16) (s : State) : Host.Outcome State Fault Refusal :=
  if s.alive then
    .next ((s.setNum Reg.modCoolant (outlet.toNat * 2 ^ 16 + inlet.toNat)).alert 224 outlet.toInt State.outletAlert)
  else .next s

/-- The reeve publishes its readings; a reading of 110 °C or more trips the module (R23). The trip needs neither reeve
nor stewards, only the converter controller, which the busbar feeds (R15): it fires in reset too (R22). -/
def execSensorReading (p : Par) (s0 s1 s2 s3 computeMv networkMv computeCur networkCur : W16) (s : State) :
    Host.Outcome State Fault Refusal :=
  let v := s.parish p
  let hot := [s0, s1, s2, s3].find? fun t => State.waferTrip ≤ t.toInt
  if !v.net || !s.alive then
    match hot with
    | some t => if s.power.busbar = .absent then .next s else .next (s.thermalTrip t p)
    | none => .next s
  else
    let two (hi lo : W16) : W64 := BitVec.ofNat 64 (hi.toNat * 2 ^ 16 + lo.toNat)
    let v := (v.setReg Reg.parTempA (two s1 s0)).setReg Reg.parTempB (two s3 s2)
    let v := (v.setReg Reg.parRail (two computeMv networkMv)).setReg Reg.parCurrent (two computeCur networkCur)
    let s := s.setParish p v
    let s := s.setReg Reg.modWaferTemp s.waferTemp
    match hot with
    | some t => .next (s.thermalTrip t p)
    | none =>
      let s := s.alert (4 * p) s0.toInt State.waferAlert
      let s := s.alert (4 * p + 1) s1.toInt State.waferAlert
      let s := s.alert (4 * p + 2) s2.toInt State.waferAlert
      .next (s.alert (4 * p + 3) s3.toInt State.waferAlert)

/-! ### Service connector -/

/-- The module answers at its own address once Papione runs (R18): the MOD_ block at the offset, or no
acknowledgement. -/
def execTwbRead (read : BusRead) (s : State) : Host.Outcome State Fault Refusal :=
  let mine := read.addr = 0x50 + s.slotId.setWidth 7
  let answer := if s.twbAnswers ∧ mine then some ((s.modRead read.off.toNat).setWidth 32) else none
  .next { s with twb := answer }

/-- Instructions other than the mandatory four run as BYPASS without debug authorisation (R19). The boundary-scan
register takes the levels of its nets with SAMPLE and EXTEST, and latches what the tester shifts in with PRELOAD. -/
def execTapInstruction (i : TapInstr) (s : State) : Host.Outcome State Fault Refusal :=
  if s.pins = .off then .next s
  else match i with
    | .bypass => .next { s with tap := i }
    | .sample | .extest => .next { s with tap := i }.capture
    | .preload cells => .next { s with tap := i, bscan := { s.bscan with latch := cells } }
    | .other _ => .next { s with tap := if s.sec.debug then i else .bypass }

end Sys2Proof.Machine
end

