-- ==== Sys2Proof/Machine/Faults.lean ====
section
/-! DEFINITION. The fault controller (chapter 16): domains, causes, classification, tallies, isolation, the step response,
records, history and the bell. -/

namespace Sys2Proof.Machine

/-- A code that names a source (R380). -/
def sourceNamed (c : Nat) : Bool :=
  c ≤ 8 || 16 ≤ c && c ≤ 22 || 24 ≤ c && c ≤ 30 || 32 ≤ c && c ≤ 38 || 40 ≤ c && c ≤ 42 || 44 ≤ c && c ≤ 46 ||
    48 ≤ c && c ≤ 53 || 56 ≤ c && c ≤ 58 || 60 ≤ c && c ≤ 81

namespace State

def modFaults (s : State) (f : FaultCtl → FaultCtl) : State := s.setFaults (f s.faults)

/-- Bits hi to lo of a FLT_ register. -/
def setFltField (s : State) (o hi lo n : Nat) : State := s.setFlt o (setFld (s.reg o) hi lo n)

/-- A location's kind and index (R381). -/
def locKind (loc : W32) : Nat := loc.toNat / 2 ^ 28
def locIndex (loc : W32) : Nat := loc.toNat % 2 ^ 28

/-! ### Domains and causes (R383, R384) -/

/-- The STEWARD_LOST record takes the CARTER_HALT of a request that the lost steward has refused (R337). -/
def ofLostSteward (s : State) (r : Report) : Bool :=
  match r.refused with
  | some i => (s.steward i).role == .lost
  | none => false

/-- The fault domain of an event; a location of no parish of the wafer is the module's. -/
def domainOf (s : State) (r : Report) : Nat :=
  if s.ofLostSteward r then 16
  else match parOfLoc r.loc with
    | some p => if p < 56 ∧ s.owner p < 16 then s.owner p else 16
    | none =>
      if locKind r.loc = 9 then locIndex r.loc % 16
      else if locKind r.loc = 4 then r.chanHold.getD 16
      else 16

/-- A source whose cause outlasts its event. -/
def lasting (c : Nat) : Bool := c < 64 || c ∈ [67, 70, 71, 72, 74, 75, 79, 80]

/-- The bit of a register-held source at its unit. -/
def sourceBit (s : State) (c : Nat) (loc : W32) : Bool :=
  let i := locIndex loc
  if c < 44 then
    let b := Site.faultBit c
    bit (Tab.get croftReset (s.croft (i % 2 ^ 15)).regs b.1) b.2
  else if c < 48 then bit ((s.stc (i % 16)).reg Reg.stcFault) (c - 44)
  else if c < 52 then bit ((s.stc (i % 16)).reg Reg.stcSeqFault) (c - 48)
  else if c < 56 then bit ((s.stc (i % 16)).reg Reg.stcUpdFault) (c - 52)
  else if c < 60 then bit ((s.gate (i % 32)).reg Reg.gatFault) (c - 56)
  else bit ((s.gate (if locKind loc = 5 then i % 32 else i / 3)).reg Reg.lnkFault) (c - 60)

/-- The cause of a source at a location still holds. -/
def causeHolds (s : State) (c : Nat) (loc : W32) : Bool :=
  let i := locIndex loc
  if c < 64 then s.sourceBit c loc
  else if c = 67 then (s.logicalOf (i % 2 ^ 15)).isSome
  else if c = 70 ∨ c = 71 then s.owner (i % 64) < 16
  else if c = 72 then !s.clock.refclk
  else if c = 74 ∨ c = 79 then (s.steward (i % 2)).role != .lost
  else if c = 75 then s.power.thermLow
  else if c = 80 then (s.gate (i % 32)).chans.any fun e => e.2.st != .free
  else false

/-- FLT_CAUSES_d. -/
def causeCount (s : State) (d : Nat) : Nat := (s.faults.causes.filter fun e => e.1 = d).length

/-! ### Classification (R385, R386) -/

def classOf (s : State) (c : Nat) : W64 := s.reg (Reg.fltClass c)

/-- The severity that an event takes now; none for one that only adds to its tally slot. -/
def takes (s : State) (r : Report) : State × Option Nat :=
  let k := s.classOf r.source
  let sev := fld k 25 24
  if !bit k 31 then (s, some sev)
  else
    let n := max 1 (fld k 23 16)
    let f := s.faults
    match f.slots.find? fun t => t.source = r.source && t.loc = r.loc with
    | some t =>
      if n ≤ t.count + 1 then (s.setFaults { f with slots := f.slots.erase t }, some sev)
      else
        let slots := f.slots.map fun u => if u = t then { t with count := t.count + 1 } else u
        (s.setFaults { f with slots }, none)
    | none =>
      if n = 1 ∨ 4096 ≤ f.slots.length then (s, some sev)
      else (s.setFaults { f with slots := f.slots ++ [{ source := r.source, loc := r.loc, count := 1 }] }, none)

/-! ### Isolation (R389) -/

/-- The links from a router, and the link back of each. -/
def linksOf (q : Nat) (pl : Plane) : List Link :=
  [Dir.n, Dir.e, Dir.s, Dir.w].flatMap fun d => [linkFrom q pl d false, linkFrom q pl d true].filter fun l =>
    (stepTo q d (if l.skip then 2 else 1)).isSome

def opposite : Dir → Dir
  | .n => .s | .s => .n | .e => .w | .w => .e

def linkBack (l : Link) : Option Link :=
  (stepTo l.q l.dir (if l.skip then 2 else 1)).map fun t => linkFrom t l.plane (opposite l.dir) l.skip

/-- A link marked down in both directions. -/
def downBoth (s : State) (l : Link) : State :=
  let s := s.downLink l
  match linkBack l with
  | some b => s.downLink b
  | none => s

/-- At self-test, a router left with no live link is dead. -/
def aloneRouter (s : State) (q : Nat) (pl : Plane) : State :=
  if (linksOf q pl).all fun l => s.linksDown.contains l then s.markRouter q pl else s

/-- A router left with no live link is dead. -/
def deadIfAlone (s : State) (q : Nat) (pl : Plane) : State :=
  if (linksOf q pl).all fun l => s.linksDown.contains l then s.markDead q pl else s

/-- A croft fenced by the fault handling and mapped out. -/
def isolateCroft (s : State) (q : Nat) : State :=
  let s := s.onCroft q fun x => { x.fence with c := { x.fence.c with faultFence := true } }
  s.writeMapout (parOf q) (BitVec.ofNat 32 (q % 500 / 25 + q % 25 * 2 ^ 5))

/-- A gate out of service: its ports disabled, its contexts aborted, and the gate lost. -/
def isolateGate (s : State) (gi : Nat) : State :=
  let s := (List.range 3).foldl (fun s k => s.disablePort gi k) s
  s.modGate gi fun g => { (g.chans.map (·.1)).foldl (fun g c => g.abortChan c) g with lost := true }

/-- The link that a location names. -/
def linkOfLoc (loc : W32) : Link :=
  let n := loc.toNat
  { q := n % 2 ^ 15, plane := if n.testBit 16 then .b else .a, skip := n.testBit 17
    dir := match bitsOf n 19 18 with | 0 => .n | 1 => .e | 2 => .s | _ => .w }

/-- A router out of service: its links are down, so that it is dead, and a neighbour left with no live link too. -/
def isolateRouter (s : State) (q : Nat) (pl : Plane) : State :=
  let ls := linksOf q pl
  let s := (ls.foldl downBoth s).markDead q pl
  ((ls.filterMap linkBack).map fun b => b.q).eraseDups.foldl (fun s t => s.deadIfAlone t pl) s

/-- A lane out of service: FAILED, and no enable of its port trains it again for the rest of the power cycle. -/
def isolateLane (s : State) (gi l : Nat) : State :=
  let s := if ((s.gate gi).lane l).st = .failed then s else s.laneFail gi l
  s.modGate gi fun g => g.setLane l { g.lane l with barred := true }

/-- A port out of service: disabled, and no later ENABLE takes it for the rest of the power cycle. -/
def isolatePort (s : State) (gi k : Nat) : State :=
  (s.disablePort gi k).modGate gi fun g => g.setPort k { g.port k with barred := true }

/-- Isolation of a location of any kind; a kind that R389 does not name is left as it is. -/
def isolateLoc (s : State) (loc : W32) : State :=
  let i := locIndex loc
  match locKind loc with
  | 0 => if i < 28000 then s.isolateCroft i else s
  | 1 =>
    let q := i % 2 ^ 15
    let pl : Plane := if i.testBit 16 then .b else .a
    if 28000 ≤ q then s else (s.isolateRouter q pl).isolateCroft q
  | 2 =>
    let l := linkOfLoc loc
    if 28000 ≤ l.q then s
    else
      let s := (s.downBoth l).deadIfAlone l.q l.plane
      match linkBack l with
      | some b => s.deadIfAlone b.q b.plane
      | none => s
  | 3 =>
    if i < 56 then
      let s := s.isolate i
      s.setParish i { s.parish i with dead := true }
    else s
  | 4 => if i < 28 then s.isolateGate i else s
  | 5 => if i % 32 < 28 ∧ i / 32 < 24 then s.isolateLane (i % 32) (i / 32) else s
  | 6 => if i < 84 then s.isolatePort (i / 3) (i % 3) else s
  | 7 => s.isolateSteward (i % 2)
  | 8 => { s with ledger := s.ledger.retire (i % 2 ^ 20) }
  | _ => s

/-- The isolations whose record the partner has acknowledged are made (R382). One of a steward can bring on those that waited
for its own answer. -/
def isolateDue : Nat → State → State
  | 0, s => s
  | fuel + 1, s =>
    if s.toIsolate.isEmpty then s
    else isolateDue fuel (s.toIsolate.foldl isolateLoc { s with toIsolate := [] })

/-- Every isolation that is due. -/
def settle (s : State) : State := isolateDue 3 s

/-- Isolation of the location maps out a croft. -/
def mapsOut (loc : W32) : Bool := locKind loc ≤ 1

/-! ### Records (R391 to R393) -/

def openRecord (s : State) (d : Nat) : Option Record :=
  match Tab.get (fun _ => none) s.faults.records d with
  | some r => if r.flags.getLsbD 0 then some r else none
  | none => none

def putRecord (s : State) (d : Nat) (r : Record) : State :=
  s.modFaults fun f => { f with records := Tab.set (fun _ => none) f.records d (some r) }

def appendRecord (s : State) (r : Record) : State := { s with ledger := s.ledger.append r }

/-- TEMP of a location: the hottest sensor of its parish, or MOD_WAFER_TEMP.TMAX. -/
def tempOf (s : State) (loc : W32) : W16 :=
  match parOfLoc loc with
  | some p => BitVec.ofNat 16 (unsigned 16 ((tempsOf (s.parish p)).foldl max (-32768)))
  | none => BitVec.ofNat 16 (s.field Reg.modWaferTemp 31 16)

/-- VOLTAGE of an event in domain d: the lowest supply voltage for the module's; else the compute rail for crofts, the
network rail for routers, links and parishes, and the lowest supply voltage for what no rail of a parish feeds (log 26). -/
def voltageOf (s : State) (d : Nat) (loc : W32) : W16 :=
  match parOfLoc loc, decide (d = 16) with
  | some p, false =>
    let v := s.parish p
    BitVec.ofNat 16 (if locKind loc = 0 then v.field Reg.parRail 31 16 else v.field Reg.parRail 15 0)
  | _, _ => BitVec.ofNat 16 (((List.range 8).map fun k => s.field (Reg.modSupply k) 15 0).foldl min 0xFFFF)

/-- FLAGS of a new record: OPEN, TCLASS, PERMANENT, BOOT. -/
def newFlags (s : State) (cls perm : Bool) : Byte :=
  BitVec.ofNat 8 (1 + 4 * b2n cls + 8 * b2n perm + 16 * b2n (s.sec.running && s.sec.stage != 8))

/-- The number of the record that an event in domain d goes into. -/
def recordNum (s : State) (d : Nat) : Nat :=
  match s.openRecord d with
  | some r => r.number
  | none => s.faults.nextRec % 65536

/-- An event that takes a severity opens the domain's record or merges into it; a copy is appended at an opening and at
a rise of the severity. PERMANENT is set by an event that has made its location permanent (R397). -/
def record (s : State) (d sev : Nat) (cls perm : Bool) (r : Report) : State :=
  match s.openRecord d with
  | none =>
    let n : Record :=
      { first := r.time, last := r.time, sources := BitVec.ofNat 128 (2 ^ r.source), syndrome := r.syndrome, unit := r.loc
        opcode := r.opcode, temp := s.tempOf r.loc, voltage := s.voltageOf d r.loc, source := r.source, severity := sev
        domain := d, flags := s.newFlags cls perm, cycle := BitVec.ofNat 16 s.ledger.cycle, number := s.recordNum d }
    ((s.putRecord d n).appendRecord n).modFaults fun f => { f with nextRec := f.nextRec + 1 }
  | some o =>
    let m := { o with
      last := r.time, sources := o.sources ||| BitVec.ofNat 128 (2 ^ r.source), merges := min 65535 (o.merges + 1)
      severity := max o.severity sev, flags := if perm then o.flags ||| 8 else o.flags }
    let s := s.putRecord d m
    if o.severity < m.severity then s.appendRecord m
    else s.modFaults fun f => { f with dirty := if f.dirty.contains d then f.dirty else f.dirty ++ [d] }

/-! ### The bell (R395) -/

def ring (s : State) : State :=
  if bit (s.reg Reg.fltBell) 0 then s
  else (s.setFltField Reg.fltBell 0 0 1).modFaults fun f => { f with pulse := true, bellLow := true }

/-- Some open record holds a HALT event. -/
def haltOpen (s : State) : Bool :=
  s.faults.records.any fun e => match e.2 with
    | some r => r.flags.getLsbD 0 && 2 ≤ r.severity
    | none => false

/-! ### An event at the fault controller (R387, R388) -/

/-- The traffic class of an event in a holding's domain. -/
def eventClass (s : State) (d : Nat) (r : Report) : Bool :=
  match r.tclass with
  | some c => c
  | none => d < 16 && (s.stc d).handed

/-- What a DEGRADE event asks of its holding: nothing, a replay, or a halt in its place. -/
inductive StepResponse where
  | nothing | replay | halt
deriving DecidableEq, Repr

def stepResponse (s : State) (d : Nat) (cls : Bool) : StepResponse :=
  let c := s.stc d
  if 16 ≤ d ∨ !c.stepOpen then .nothing
  else if !cls && (c.st = .opening || c.st = .work || c.st = .restoring || c.st = .combine && !c.handed) then .replay
  else .halt

/-- ABANDON to the holding of a domain, or to every holding from the module's. -/
def haltDomain (s : State) (d : Nat) : State :=
  if d < 16 then s.abandon d else (List.range 16).foldl (fun s h => s.abandon h) s

/-- An event that takes a severity. Its history comes first, for its record shows what it has made of the location. -/
def act (s : State) (d sev0 : Nat) (r : Report) : State :=
  let cls := s.eventClass d r
  let resp := if sev0 = 1 then s.stepResponse d cls else .nothing
  let sev := if resp = .halt then 2 else sev0
  let k := s.classOf r.source
  let counted := if bit k 29 then s.ledger.countEvent r.loc (Ledger.subOf r.source r.syndrome) r.source (s.recordNum d)
    else (s.ledger, false)
  let s := { s with ledger := counted.1 }.record d sev cls counted.2 r
  let s := if 2 ≤ sev then s.ring else s
  let isolate := 1 ≤ sev && bit k 30 || counted.2 && locKind r.loc == 0
  let s := if resp = .replay ∧ isolate ∧ mapsOut r.loc then s.setStc d ((s.stc d).setField Reg.stcSeqCtrl 1 1 1) else s
  let s := if isolate then (s.waitFor { num := 0, isolate := [r.loc] }).settle else s
  let s := if resp = .replay then s.replay d .faults else s
  if sev = 3 then s.haltDomain 16 else if sev = 2 then s.haltDomain d else s

/-- An event arrives: it is counted, starts its cause, and is classified. -/
def event (s : State) (r : Report) (injected : Bool) : State :=
  let d := s.domainOf r
  let s := s.setFlt Reg.fltEvents (BitVec.ofNat 64 (satAdd (s.num Reg.fltEvents) 1))
  let key := (d, r.source, r.loc)
  let s := if lasting r.source && !injected && !s.faults.causes.contains key then
      s.modFaults fun f => { f with causes := f.causes ++ [key] }
    else s
  match s.takes r with
  | (s, none) => s
  | (s, some sev) => s.act d sev r

/-! ### Writes of FLT_ registers (R394, R395, R401) -/

/-- FLT_CLEAR: refused while causes are in force; else the record is CLEARED and appended (R394). -/
def fltClear (s : State) (v : W32) : State :=
  let d := bitsOf v.toNat 4 0
  if 16 < d then s
  else s.asOne fun s =>
    let s := s.setFltField Reg.fltClear 4 0 d
    if s.causeCount d ≠ 0 then s.setFltField Reg.fltClear 31 31 1
    else
      let s := s.setFltField Reg.fltClear 31 31 0
      match s.openRecord d with
      | none => s
      | some r =>
        let r := { r with flags := (r.flags &&& 0xFE) ||| 2 }
        ((s.putRecord d r).appendRecord r).modFaults fun f => { f with dirty := f.dirty.erase d }

/-- LEVEL written with 1: ignored while an open record holds a HALT event. -/
def levelClear (s : State) : State :=
  if s.haltOpen then s
  else s.asOne fun s => (s.setFltField Reg.fltBell 0 0 0).modFaults fun f => { f with bellLow := f.pulse || f.bootBell }

/-- A report that the partner's set already holds: it is acknowledged, and not counted again (R335, R382). -/
def reportTaken (s : State) (r : Report) : Bool := s.shadows.any fun d => d.acks.contains (.report r)

/-- A report reaches the ACTIVE steward's fault controller. Its reporter keeps it until it is acknowledged (R382). -/
def faultReport (s : State) (r : Report) : State :=
  if s.active.isNone || !sourceNamed r.source || s.reportTaken r then s
  else s.asOne fun s => (s.event r false).accept (.report r)

/-- FLT_INJECT: a named source raised at FLT_INJECT_UNIT, its cause ending with the event (R401). -/
def fltInject (s : State) (v : W32) : State :=
  let c := bitsOf v.toNat 6 0
  if !sourceNamed c then s
  else s.asOne fun s =>
    s.event { source := c, loc := (s.reg Reg.fltInjectUnit).setWidth 32, time := s.clock.now, tclass := some false } true

end State

/-! ### The commands -/

/-- The cause of a source has ended at its unit. -/
def execCauseEnd (d : Fin 17) (source : Nat) (loc : W32) (s : State) : Host.Outcome State Fault Refusal :=
  if s.causeHolds source loc then .next s
  else .next (s.modFaults fun f => { f with causes := f.causes.erase (d.val, source, loc) })

/-- W has passed since the slot opened. -/
def execTallySlotClose (source : Nat) (loc : W32) (s : State) : Host.Outcome State Fault Refusal :=
  .next (s.modFaults fun f => { f with slots := f.slots.filter fun t => !(t.source = source && t.loc = loc) })

/-- A copy of a record that has merged an event since the last 100 ms. -/
def execRecordAppend (d : Fin 17) (s : State) : Host.Outcome State Fault Refusal :=
  match s.openRecord d with
  | none => .next s
  | some r =>
    if s.faults.dirty.contains d.val then
      .next ((s.appendRecord r).modFaults fun f => { f with dirty := f.dirty.erase d.val })
    else .next s

def execFltClearWrite (v : W32) (s : State) : Host.Outcome State Fault Refusal := .next (s.whenUp fun s => s.fltClear v)

def execLevelClear (s : State) : Host.Outcome State Fault Refusal := .next (s.whenUp State.levelClear)

/-- After its 16 µs the pin follows LEVEL. -/
def execBellPulseEnd (s : State) : Host.Outcome State Fault Refusal :=
  .next (s.modFaults fun f => { f with pulse := false, bellLow := bit (s.reg Reg.fltBell) 0 || f.bootBell })

/-- The acknowledgement of the oldest record lets what waited for it go out, isolations among it. -/
def execShadowAck (n : Nat) (s : State) : Host.Outcome State Fault Refusal :=
  match s.inbox.find? (fun k => k.who = .shadow n && k.op = 0x14), s.shadows with
  | some k, d :: ds =>
    if d.num = n ∧ d.applied then .next ({ s.take k with shadows := ds }.perform d).settle else .next s
  | _, _ => .next s

def execRelease (st : Stw) (s : State) : Host.Outcome State Fault Refusal := .next (s.release st).settle

/-- The gate answers none of its reeve's polls, and its reeve reports it lost (R380). -/
def execGateLost (g : GateId) (s : State) : Host.Outcome State Fault Refusal :=
  if !s.up || (s.gate g).lost then .next s
  else .next ((s.modGate g fun v => { v with lost := true }).raise 80 (State.locGate g))

end Sys2Proof.Machine
end

