-- ==== Sys2Proof/Machine/Sha.lean ====
section
/-! DEFINITION. SHA-384 and HMAC-SHA-384 (FIPS 180-4 and FIPS 198-1), by which R357 to R367 digest sections and derive
the layered identity. -/

namespace Sys2Proof.Machine

/-- The whole number under the cube root of n · 2^192, by halving an interval that holds it. -/
def cubeRoot (n : Nat) : Nat → Nat → Nat → Nat
  | 0, lo, _ => lo
  | k + 1, lo, hi =>
    let m := (lo + hi) / 2
    if m ^ 3 ≤ n * 2 ^ 192 then cubeRoot n k m hi else cubeRoot n k lo m

/-- The first n primes from p on, trying at most k numbers. -/
def primesFrom : Nat → Nat → Nat → List Nat
  | 0, _, _ => []
  | k + 1, p, n =>
    if n = 0 then []
    else if (List.range p).all fun d => d < 2 || p % d != 0 then p :: primesFrom k (p + 1) (n - 1)
    else primesFrom k (p + 1) n

/-- The round constants of SHA-384: the first 64 bits of the fractional parts of the cube roots of the first eighty
primes. The largest prime, 409, has a cube root below 8. -/
def shaK : List Nat := (primesFrom 500 2 80).map fun p => cubeRoot p 67 0 (2 ^ 67) % 2 ^ 64

/-- SHA-384's initial hash value. -/
def shaInit : List W64 := [
  0xcbbb9d5dc1059ed8, 0x629a292a367cd507, 0x9159015a3070dd17, 0x152fecd8f70e5939,
  0x67332667ffc00b31, 0x8eb44a8768581511, 0xdb0c2e0d64f98fa7, 0x47b5481dbefa4fa4]

/-- The message schedule from its first sixteen words, newest first. -/
def shaSchedule : Nat → List W64 → List W64
  | 0, w => w
  | n + 1, w =>
    let x (i : Nat) : W64 := w.getD i 0
    let s0 := (x 14).rotateRight 1 ^^^ (x 14).rotateRight 8 ^^^ x 14 >>> 7
    let s1 := (x 1).rotateRight 19 ^^^ (x 1).rotateRight 61 ^^^ x 1 >>> 6
    shaSchedule n ((s1 + x 6 + s0 + x 15) :: w)

/-- One round on the eight working variables a to h. -/
def shaRound (v : List W64) (kw : Nat × W64) : List W64 :=
  match v with
  | [a, b, c, d, e, f, g, h] =>
    let s1 := e.rotateRight 14 ^^^ e.rotateRight 18 ^^^ e.rotateRight 41
    let t1 := h + s1 + (e &&& f ^^^ ~~~ e &&& g) + BitVec.ofNat 64 kw.1 + kw.2
    let s0 := a.rotateRight 28 ^^^ a.rotateRight 34 ^^^ a.rotateRight 39
    [t1 + (s0 + (a &&& b ^^^ a &&& c ^^^ b &&& c)), a, b, c, d + t1, e, f, g]
  | _ => v

/-- One 128-byte block. -/
def shaBlock (h : List W64) (block : List Byte) : List W64 :=
  let w := (List.range 16).map fun i => BitVec.ofNat 64 (ofBe (slice block (8 * i) 8))
  let v := (shaK.zip (shaSchedule 64 w.reverse).reverse).foldl shaRound h
  h.zipWith (· + ·) v

def shaBlocks : Nat → List W64 → List Byte → List W64
  | 0, h, _ => h
  | n + 1, h, bs => shaBlocks n (shaBlock h (bs.take 128)) (bs.drop 128)

/-- SHA-384 of a message of whole bytes: 48 bytes. -/
def sha384 (m : List Byte) : List Byte :=
  let pad := List.replicate ((239 - m.length % 128) % 128) (0 : Byte)
  let p := m ++ [0x80] ++ pad ++ beBytes 16 (8 * m.length)
  ((shaBlocks (p.length / 128) shaInit p).take 6).flatMap fun w => beBytes 8 w.toNat

/-- HMAC-SHA-384 of a message under a key. -/
def hmac384 (key m : List Byte) : List Byte :=
  let k := slice (if 128 < key.length then sha384 key else key) 0 128
  sha384 ((k.map fun b => b ^^^ 0x5C) ++ sha384 ((k.map fun b => b ^^^ 0x36) ++ m))

/-- The bytes of ASCII characters. -/
def ascii (cs : List Nat) : List Byte := cs.map (BitVec.ofNat 8)

end Sys2Proof.Machine
end

