-- ==== Sys2Proof/Machine/P384.lean ====
section
/-! DEFINITION. ECDSA on the curve P-384 with SHA-384 and the key-pair procedure with extra random bits (FIPS 186-5), by
which R359 verifies an image and R365 generates its key pairs. The curve's constants and the formulas are PRESUMED from
that standard, which the rules cite (log 29). -/

namespace Sys2Proof.Machine
namespace P384

/-- The field's prime, the order of the base point, the curve's b, and the base point. -/
def p : Nat := 2 ^ 384 - 2 ^ 128 - 2 ^ 96 + 2 ^ 32 - 1
def n : Nat := 0xffffffffffffffffffffffffffffffffffffffffffffffffc7634d81f4372ddf581a0db248b0a77aecec196accc52973
def b : Nat := 0xb3312fa7e23ee7e4988e056be3f82d19181d9c6efe8141120314088f5013875ac656398d8a2ed19d2a85c8edd3ec2aef
def gx : Nat := 0xaa87ca22be8b05378eb1c71ef320ad746e1d3b628ba79b9859f741e082542a385502f25dbf55296c3a545e3872760ab7
def gy : Nat := 0x3617de4a96262c6f5d9e98bf9292dc29f8f41dbd289a147ce9da3113b5f0b8c00a60b1ce1d7e819d7a431d7c90ea0e5f

/-- A point in Jacobian coordinates; z = 0 at infinity. -/
structure Point where
  x : Nat
  y : Nat
  z : Nat
deriving DecidableEq, Repr

def infinity : Point := ⟨1, 1, 0⟩
def base : Point := ⟨gx, gy, 1⟩

def mul (a c : Nat) : Nat := a * c % p
/-- Difference of two field elements. -/
def sub (a c : Nat) : Nat := (a + p - c) % p

/-- a to the power e modulo m, over as many bits of e as the count says. -/
def powMod (m a : Nat) : Nat → Nat → Nat
  | 0, _ => 1
  | k + 1, e =>
    let h := powMod m a k (e / 2)
    if e % 2 = 1 then h * h % m * a % m else h * h % m

/-- The inverse modulo a prime below 2^384. -/
def inverse (m a : Nat) : Nat := powMod m a 384 (m - 2)

def double (q : Point) : Point :=
  let zz := mul q.z q.z
  let yy := mul q.y q.y
  let xyy := mul q.x yy
  let slope := mul 3 (mul (sub q.x zz) ((q.x + zz) % p))
  let x := sub (mul slope slope) (mul 8 xyy)
  ⟨x, sub (mul slope (sub (mul 4 xyy) x)) (mul 8 (mul yy yy)), mul 2 (mul q.y q.z)⟩

def add (q r : Point) : Point :=
  if q.z = 0 then r
  else if r.z = 0 then q
  else
    let qq := mul q.z q.z
    let rr := mul r.z r.z
    let u := mul q.x rr
    let v := mul q.y (mul rr r.z)
    let h := sub (mul r.x qq) u
    let d := sub (mul r.y (mul qq q.z)) v
    if h = 0 then (if d = 0 then double q else infinity)
    else
      let hh := mul h h
      let uhh := mul u hh
      let hhh := mul h hh
      let x := sub (sub (mul d d) hhh) (mul 2 uhh)
      ⟨x, sub (mul d (sub uhh x)) (mul v hhh), mul h (mul q.z r.z)⟩

/-- The multiple of a point, over as many bits of the factor as the count says. -/
def times (q : Point) : Nat → Nat → Point
  | 0, _ => infinity
  | k + 1, e =>
    let h := double (times q k (e / 2))
    if e % 2 = 1 then add h q else h

def onCurve (x y : Nat) : Bool := mul y y == (sub (mul x (mul x x)) (mul 3 x) + b) % p

end P384

open P384

/-- A valid signature of a message under a public key: X, Y, r and s are little-endian (R357, R359). -/
def ecdsaValid (key message signature : List Byte) : Bool :=
  let x := ofLe (slice key 0 48)
  let y := ofLe (slice key 48 48)
  let r := ofLe (slice signature 0 48)
  let t := ofLe (slice signature 48 48)
  let w := inverse n t
  let u := ofBe (sha384 message) * w % n
  let v := r * w % n
  let q := add (times base 384 u) (times ⟨x, y, 1⟩ 384 v)
  let zz := mul q.z q.z
  decide (x < p) && decide (y < p) && onCurve x y && decide (0 < r) && decide (r < n) && decide (0 < t) && decide (t < n) &&
    q.z != 0 && (mul r zz == q.x || decide (r + n < p) && mul (r + n) zz == q.x)

/-- The public key generated from a 48-byte seed that supplies the extra random bits (R365), in the layout of R357. -/
def publicKey (seed : List Byte) : List Byte :=
  let q := times base 384 (ofBe seed % (n - 1) + 1)
  let z := inverse p q.z
  let zz := mul z z
  leBytes 48 (mul q.x zz) ++ leBytes 48 (mul q.y (mul z zz))

end Sys2Proof.Machine
end

