-- ==== Sys2Proof/Machine/Sow.lean ====
section
/-! DEFINITION. Sowing (chapter 15): rounds through SEC_SOW_CMD, chunks from the ledger, the sow checkers and the completion
bitmaps. -/

namespace Sys2Proof.Machine

namespace Site

def sowMaskOf (x : Site) (c : Nat) : Nat := Tab.get (fun _ => 0) x.c.sowMask c
def sowMarkOf (x : Site) (c : Nat) : SowMark := Tab.get (fun _ => SowMark.none) x.c.sowMark c

/-- Clear the states of chunks c0 to c1. -/
def sowClear (x : Site) (c0 c1 : Nat) : Site :=
  { x with c := { x.c with sowMask := Tab.clear x.c.sowMask c0 (c1 + 1), sowMark := Tab.clear x.c.sowMark c0 (c1 + 1) } }

/-- The checker reads chunk c back: its mark, and whether it is BAD (R371, R372). -/
def chunkCheck (x : Site) (c round : Nat) : Site × Bool :=
  if x.sowMaskOf c ≠ 255 then (x, false)
  else
    let r := x.readBytes (x.winBase 15 + 4096 * c) 4096
    let b := r.2.1
    let ok := !r.2.2 && crc32 (b.take 4092) == BitVec.ofNat 32 (ofLe (b.drop 4092)) &&
      ofLe (slice b 4088 4) == round * 2 ^ 16 + c
    let y := r.1
    ({ y with c := { y.c with
        sowMask := Tab.set (fun _ => 0) y.c.sowMask c 0
        sowMark := Tab.set (fun _ => SowMark.none) y.c.sowMark c (if ok then .ok else .bad) } }, !ok)

end Site

namespace State

def modSec (s : State) (f : Sec → Sec) : State := { s with sec := f s.sec }

/-- SEC_SOW_CMD's refusal: the OP is ignored and sets ERR. -/
def sowRefuse (s : State) : State := s.modSec fun c => { c with sowErr := true }

/-- Logical croft n is a destination of the round (R373). -/
def sowDestination (s : State) (n : Nat) : Bool :=
  let d := s.sec.sowDest.toNat
  if d.testBit 31 then (s.group (parOfLogical n) (bitsOf d 15 8)).member n else bitsOf d 30 16 == n

/-- OPEN: the round, its range and destination announced, and the range's chunk states cleared in every checker. -/
def sowOpen (s : State) : State :=
  let c := s.sec
  let c0 := s.field Reg.secSowRange 8 0
  let c1 := s.field Reg.secSowRange 24 16
  if c.sowBusy || c.sowOpen || c1 < c0 then s.sowRefuse
  else
    let s := s.modSec fun c => { c with
      sowErr := false, sowBusy := true, sowOpen := true, sowRound := s.field Reg.secSowRound 15 0, sowC0 := c0, sowC1 := c1
      sowDest := (s.reg Reg.secSowDest).setWidth 32 }
    (s.crofts.map (·.1)).foldl (fun s q => s.onCroft q fun x => x.sowClear c0 c1) s

/-- The eight packets of chunk c, from the ledger (R371). -/
def chunkPackets (s : State) (c : Nat) : List Packet :=
  let d := s.num Reg.secSowDest
  let multi := d.testBit 31
  let a := s.num Reg.secSowSrc + 4096 * (c - s.sec.sowC0)
  (List.range 8).map fun i =>
    { op := 0x01, dest := BitVec.ofNat 16 (if multi then 0xFFFF else bitsOf d 30 16), src := BitVec.ofNat 16 s.activeEndpoint
      vc := if multi then 2 else 0, origVc := if multi then 2 else 0, plane := if multi then .b else .a, tclass := true
      holding := 0xF, mgroup := if multi then BitVec.ofNat 8 (bitsOf d 15 8) else 0, window := 15, gen := BitVec.ofNat 8 d
      offset := BitVec.ofNat 32 (4096 * c + 512 * i), length := 512, payload := slice (s.ledger.block (a / 4096)) (512 * i) 512 }

/-- SEND: chunks C0 to C1 of the round leave for the destination. -/
def sowSend (s : State) : State :=
  let c := s.sec
  if c.sowBusy || !c.sowOpen || s.field Reg.secSowSrc 11 0 != 0 then s.sowRefuse
  else
    let ks := (List.range (c.sowC1 + 1 - c.sowC0)).flatMap fun i => s.chunkPackets (c.sowC0 + i)
    (s.modSec fun c => { c with sowErr := false, sowBusy := true }).emit ks

/-- The completion bit of logical croft n (R374). -/
def sowBit (s : State) (n : Nat) : Bool :=
  if !s.sowDestination n then true
  else match s.physOf n with
    | none => true
    | some q => (List.range (s.sec.sowC1 + 1 - s.sec.sowC0)).all fun i => (s.site q).sowMarkOf (s.sec.sowC0 + i) == .ok

/-- The logical croft of bit i of parish p. -/
def sowCroft (p i : Nat) : Nat := 192 * (20 * (p / 8) + i / 24) + 24 * (p % 8) + i % 24

/-- A parish's completion bitmap. -/
def sowBitmap (s : State) (p : Nat) : Nat := ((List.range 480).map fun i => if s.sowBit (sowCroft p i) then 2 ^ i else 0).sum

/-- CHECK: every reeve forms its completion bitmap. -/
def sowCheck (s : State) : State :=
  let c := s.sec
  if c.sowBusy || !c.sowOpen then s.sowRefuse
  else
    let m := (List.range 56).foldl (fun t p => Tab.set (fun _ => 0) t p (s.sowBitmap p)) ([] : Tab Nat)
    s.modSec fun c => { c with sowErr := false, sowBusy := true, sowMap := m }

/-- END. -/
def sowEnd (s : State) : State :=
  let c := s.sec
  if c.sowBusy || !c.sowOpen then s.sowRefuse
  else s.modSec fun c => { c with sowErr := false, sowBusy := true, sowOpen := false }

/-- A chunk's mask is full: the checker of its croft reads it back, in an open round and in its range. -/
def chunkCheck (s : State) (q c : Nat) : State :=
  let e := s.sec
  if !e.sowOpen || c < e.sowC0 || e.sowC1 < c then s
  else
    let bad := ((s.site q).chunkCheck c e.sowRound).2
    let s := s.onCroft q fun x => (x.chunkCheck c e.sowRound).1
    if bad then s.count Reg.secSowBad 1 else s

end State

/-! ### The commands -/

def execSowOpen (s : State) : Host.Outcome State Fault Refusal := .next (s.whenUp State.sowOpen)

def execSowSend (s : State) : Host.Outcome State Fault Refusal := .next (s.whenUp State.sowSend)

def execSowCheck (s : State) : Host.Outcome State Fault Refusal := .next (s.whenUp State.sowCheck)

def execSowEnd (s : State) : Host.Outcome State Fault Refusal := .next (s.whenUp State.sowEnd)

def execSowOpDone (s : State) : Host.Outcome State Fault Refusal := .next (s.modSec fun c => { c with sowBusy := false })

def execChunkCheck (q : Phys) (c : Fin 512) (s : State) : Host.Outcome State Fault Refusal := .next (s.chunkCheck q c)

end Sys2Proof.Machine
end

