-- ==== Sys2Proof/Machine/BringUp.lean ====
section
/-! DEFINITION. Bring-up and the chain of trust (chapter 15): the stages, the Tolif image and its verification, the
layered identity, compute waves and self-tests, and the anti-rollback fuses. -/

namespace Sys2Proof.Machine

namespace Fuses

/-- The hash fused in key slot k, and whether the slot is programmed (R361). -/
def slot (f : Fuses) (k : Nat) : List Byte := f.slots.getD k []
def programmed (f : Fuses) (k : Nat) : Bool := (f.slot k).any fun b => b != 0

end Fuses

namespace State

/-! ### The image (R356 to R360) -/

/-- Ledger offset of copy A or B. -/
def copyBase (b : Bool) : Nat := if b then 0x60000000 else 0

/-- Bytes of a copy. -/
def copyBytes (s : State) (b : Bool) (off n : Nat) : List Byte := Memory.read s.ledger.bytes (copyBase b + off) n

/-- Bytes lo to lo + n − 1 of a copy's header as a number. -/
def headerNum (s : State) (b : Bool) (lo n : Nat) : Nat := ofLe (s.copyBytes b lo n)

def imageSvn (s : State) (b : Bool) : Nat := s.headerNum b 11 1
def imageSequence (s : State) (b : Bool) : Nat := s.headerNum b 16 8

/-- The section table: entries of 80 bytes from byte 256. -/
def sectionTable (s : State) (b : Bool) : List Byte := s.copyBytes b 256 (80 * s.headerNum b 14 2)
def sectionEntries (s : State) (b : Bool) : List (List Byte) :=
  (List.range (s.headerNum b 14 2)).map fun i => s.copyBytes b (256 + 80 * i) 80

/-- The entry of a section type. -/
def sectionOf (s : State) (b : Bool) (type : Nat) : Option (List Byte) :=
  (s.sectionEntries b).find? fun e => ofLe (e.take 2) = type

/-- The digest that the table gives a section. -/
def sectionDigest (s : State) (b : Bool) (type : Nat) : List Byte :=
  match s.sectionOf b type with
  | some e => slice e 24 48
  | none => List.replicate 48 0

/-- OFFSET and LENGTH of an entry. -/
def sectionOff (e : List Byte) : Nat := ofLe (slice e 8 8)
def sectionLen (e : List Byte) : Nat := ofLe (slice e 16 8)

/-- The section's bytes, where it lies within the copy. -/
def sectionBytes (s : State) (b : Bool) (e : List Byte) : Option (List Byte) :=
  if sectionOff e + sectionLen e ≤ 0x60000000 then some (s.copyBytes b (sectionOff e) (sectionLen e)) else none

/-- A section's bytes by offset, those that the ledger lists. -/
def sectionCells (s : State) (b : Bool) (type : Nat) : List (Nat × Byte) :=
  match s.sectionOf b type with
  | none => []
  | some e =>
    let base := copyBase b + sectionOff e
    (s.ledger.bytes.filter fun c => base ≤ c.1 && c.1 < base + sectionLen e).map fun c => (c.1 - base, c.2)

/-- R358 holds of the section table: types 1 to 8 once each, type 9 at most once, no other; every section within the
copy and no two of them overlapping. -/
def tableOk (s : State) (b : Bool) : Bool :=
  let es := s.sectionEntries b
  let count (t : Nat) : Nat := (es.filter fun e => ofLe (e.take 2) = t).length
  let apart (e f : List Byte) : Bool :=
    sectionOff e + sectionLen e ≤ sectionOff f || sectionOff f + sectionLen f ≤ sectionOff e
  ((List.range 8).all fun i => count (i + 1) = 1) && count 9 ≤ 1 &&
    (es.all fun e => 1 ≤ ofLe (e.take 2) && ofLe (e.take 2) ≤ 9 && decide (sectionOff e + sectionLen e ≤ 0x60000000)) &&
    decide (es.Pairwise fun e f => apart e f = true)

/-- The contents of a copy that bring-up uses, each from the bytes of its own section (R358). -/
def imageOf (s : State) (b : Bool) : Image :=
  let of (t : Nat) : Image := Config.parseSection t (s.sectionCells b t)
  { vf := (of 3).vf, ceilings := (of 3).ceilings
    defects := (of 4).defects, repairs := (of 4).repairs, steering := (of 4).steering
    ports := (of 5).ports, ringPos := (of 5).ringPos, ringN := (of 5).ringN, mirror := (of 5).mirror
    addressing := (of 5).addressing
    faultTable := (of 6).faultTable
    holdings := (of 7).holdings }

/-- A section other than BL1 whose digest does not match (R360). -/
def sectionMismatch (s : State) (b : Bool) : Bool :=
  (s.sectionEntries b).any fun e => ofLe (e.take 2) != 1 && (s.sectionBytes b e).all fun bs => sha384 bs != slice e 24 48

/-- Checks 1 of R359: the constants and the reserved bytes of R357. -/
def headerOk (s : State) (b : Bool) : Bool :=
  s.copyBytes b 0 8 == ascii [0x54, 0x4F, 0x4C, 0x49, 0x46, 0x49, 0x4D, 0x47] && s.headerNum b 8 2 == 0x0100 &&
    s.headerNum b 13 1 == 0 && 8 ≤ s.headerNum b 14 2 && s.headerNum b 14 2 ≤ 32 &&
    (s.copyBytes b 224 32).all (· == 0) &&
    (s.sectionEntries b).all fun e => (slice e 2 6).all (· == 0) && (slice e 72 8).all (· == 0)

/-- Checks 2 to 5: key slot, serial, security version and revocations against a die's fuses. -/
def keysOk (s : State) (b : Bool) (f : Fuses) : Bool :=
  let k := s.headerNum b 10 1
  let revoke := s.headerNum b 12 1
  let serial := s.headerNum b 24 8
  k < 4 && f.programmed k && !f.revoked.getLsbD k && sha384 (s.copyBytes b 32 96) == f.slot k &&
    (serial == 0 || serial == f.serial.toNat) && f.svn ≤ s.imageSvn b && !revoke.testBit k &&
    (List.range 4).any fun j => f.programmed j && !f.revoked.getLsbD j && !revoke.testBit j

/-- Checks 6 and 7: the signature over bytes 0–127 and the section table, and the digest of BL1. -/
def signedOk (s : State) (b : Bool) : Bool :=
  ecdsaValid (s.copyBytes b 32 96) (s.copyBytes b 0 128 ++ s.sectionTable b) (s.copyBytes b 128 96) &&
    match s.sectionOf b 1 with
    | some e => match s.sectionBytes b e with
      | some bs => sha384 bs == slice e 24 48
      | none => false
    | none => false

/-- A steward's ROM accepts a copy that BL1 has not marked bad (R359, R360). That it refuses a copy whose section table
breaks R358 is DESIGN CHOICE (log 106): R359 lists what must hold and does not name the table. -/
def accepted (s : State) (f : Fuses) (b : Bool) : Bool :=
  s.ledger.answers && !(if b then s.sec.badB else s.sec.badA) && s.headerOk b && s.tableOk b && s.keysOk b f && s.signedOk b

/-- Of the accepted copies, the one with the greater SVN, then the greater SEQUENCE; copy A on a tie. -/
def chooseCopy (s : State) (f : Fuses) : Option Bool :=
  match s.accepted f false, s.accepted f true with
  | true, true =>
    let a := s.imageSvn false * 2 ^ 64 + s.imageSequence false
    let b := s.imageSvn true * 2 ^ 64 + s.imageSequence true
    some (decide (a < b))
  | true, false => some false
  | false, true => some true
  | false, false => none

/-! ### Identity (R364, R365, R367) -/

/-- A DEBUG_TOKEN for this unit, whose digest in the signed table matches (R364). -/
def debugToken (s : State) (b : Bool) (serial : W64) : Bool :=
  match s.sectionOf b 9 with
  | some e =>
    let token := ascii [0x54, 0x4F, 0x4C, 0x49, 0x46, 0x44, 0x42, 0x47] ++ leBytes 8 serial.toNat
    s.sectionBytes b e == some token && sha384 token == slice e 24 48
  | none => false

/-- The security byte of R365. -/
def securityByte (debug : Bool) (revoked : BitVec 4) : Byte := BitVec.ofNat 8 (b2n debug * 128 + revoked.toNat)

/-- A die's identity under the booted copy: each secret, key pair and certificate of the table of R365, and the blocks
of R367. -/
def identityOf (s : State) (b : Bool) (die : Nat) (f : Fuses) : Identity :=
  let sec := securityByte s.sec.debug f.revoked
  let alias_ := ascii [0x41, 0x4C, 0x49, 0x41, 0x53]
  let device := hmac384 f.uds (ascii [0x4A, 0x4D, 0x2D, 0x49, 0x44, 0x45, 0x4E, 0x54])
  let cdi0 := hmac384 f.uds (sha384 (s.copyBytes b 0 128 ++ s.sectionDigest b 1 ++ [sec]))
  let later := (List.range 8).flatMap fun i => s.sectionDigest b (2 + i)
  let cdi1 := hmac384 cdi0 (sha384 later)
  let seed0 := hmac384 cdi0 alias_
  let seed1 := hmac384 cdi1 alias_
  { cdi1
    chain := Config.identityCerts die (s.ledger.bytes.filter fun c => Ledger.inIdentity (c.1 / 4096)) ++
      [Config.certificate (publicKey seed0) device, Config.certificate (publicKey seed1) seed0]
    blocks := [Config.romDigest, sha384 (s.copyBytes b 0 256)] ++ ((List.range 9).map fun i => s.sectionDigest b (1 + i)) ++
      [Config.stateMeasurement sec f.svn f.serial] }

/-! ### Failure (R354) -/

/-- Bring-up ends: the bell is low until module reset, and the record is written where the ledger answers. -/
def bootFail (s : State) (code : Nat) : State :=
  let s := s.modSec fun c => { c with fail := code }
  let s := s.modFaults fun f => { f with bootBell := true, bellLow := true }
  if s.ledger.answers then
    s.event { source := 77, loc := locModule, time := s.clock.now, tclass := some false } false
  else s

/-- Bring-up goes on: it has begun, has not failed, and REFCLK is present (R355). -/
def bringingUp (s : State) : Bool := s.up && s.sec.running && s.sec.fail == 0 && s.clock.refclk

/-! ### Permanent locations (R397) -/

/-- Permanent history entries. -/
def permanents (s : State) : List Hist :=
  s.ledger.history.filterMap fun e => match e.2 with
    | some h => if h.permanent then some h else none
    | none => none

/-- APPLIED in the entries that a stage has retired. -/
def markApplied (s : State) (p : Hist → Bool) : State :=
  { s with ledger := s.ledger.history.foldl (fun l e => match e.2 with
      | some h => if h.permanent && p h then l.setEntry e.1 { h with applied := true } else l
      | none => l) s.ledger }

/-- The permanent entries of a kind of location are retired by f, and marked. -/
def retireKind (s : State) (kind : Nat) (p : Hist → Bool) (f : State → W32 → State) : State :=
  let mine (h : Hist) : Bool := locKind h.unit == kind && p h
  (((s.permanents.filter mine).map fun h => h.unit).foldl f s).markApplied mine

/-! ### Stages 0 to 3: stewards, network domains and self-test (R352, R353) -/

/-- Units recorded in the ledger, each once, while it answers. The spec does not say where among its field records:
DESIGN CHOICE (log 107). -/
def recordUnits (s : State) (locs : List W32) : State :=
  if s.ledger.answers then
    { s with ledger := { s.ledger with found := s.ledger.found ++ (locs.filter fun l => !s.ledger.found.contains l).eraseDups } }
  else s

/-- The parishes left off, the routers dead and the links down, recorded as R354 has every unit that fails in a stage. -/
def recordFound (s : State) : State :=
  s.recordUnits (((List.range 56).filter fun p => (s.parish p).dead).map locParish ++
    s.deadR.map (fun k => locRouter (k / 2) (k % 2)) ++ s.linksDown.map locLink)

/-- P25 to P30 (R353). -/
def bootRow : List Nat := [25, 26, 27, 28, 29, 30]

/-- A parish is left off (R46, R69). -/
def leaveOff (s : State) (p : Nat) : State :=
  let s := if (s.parish p).net then s.isolate p else s
  s.setParish p { s.parish p with st := .off, dead := true }

/-- The network rail of a parish comes up and its PLLs lock. -/
def netUp (s : State) (p : Nat) : State :=
  let v := s.parish p
  if v.st = .off && !v.dead && !s.power.groupsOff.contains (p % 8) then
    s.setParish p { v with st := .netOn, nclkLock := true, pclkLock := true
                           pclkMoving := v.field Reg.parPclk 20 16 != pclkTarget v }
  else s

/-- Network rails of a list of parishes: those that fail, or that history retires, are left off. -/
def netStage (s : State) (r : StageResult) (ps : List Nat) : State :=
  let s := (ps.filter r.offParishes.contains).foldl leaveOff s
  let s := s.retireKind 3 (fun h => ps.contains (locIndex h.unit)) fun s loc => s.leaveOff (locIndex loc)
  ps.foldl netUp s

/-- A router of the event's location, marked dead with its links (R397). -/
def retireRouter (s : State) (loc : W32) : State :=
  let q := locIndex loc % 2 ^ 15
  let pl : Plane := if (locIndex loc).testBit 16 then .b else .a
  if q < 28000 then ((linksOf q pl).foldl downBoth s).markRouter q pl else s

/-- A link of the event's location, marked down both ways, and a router left with no live link. -/
def retireLink (s : State) (loc : W32) : State :=
  let l := linkOfLoc loc
  if l.q < 28000 then
    let s := (s.downBoth l).aloneRouter l.q l.plane
    match linkBack l with
    | some b => s.aloneRouter b.q b.plane
    | none => s
  else s

/-- A group of wires of a stitched link at self-test (R47): one failing wire is steered onto the spare, two or more take
the link down. A failure that the defect map does not hold is added to it. -/
def testGroup (s : State) (r : StageResult) (g : Link × Nat) : State :=
  let wires := ((r.badWires.filter fun w => (w.1, w.2.1) = g).map fun w => w.2.2).eraseDups
  let entries := wires.map fun w => (linkCode g.1, g.2, w)
  let known := s.sec.image.steering ++ s.ledger.wires
  let s := if s.ledger.answers then
    { s with ledger := { s.ledger with wires := s.ledger.wires ++ entries.filter fun e => !known.contains e } } else s
  match entries with
  | [] => s
  | [e] => { s with steered := s.steered ++ [e] }
  | _ => s.downLink g.1

/-- Wire groups of the stitched links of a list of parishes. -/
def wireTest (s : State) (r : StageResult) (ps : List Nat) : State :=
  let mine := r.badWires.filter fun w => ps.contains (parOf w.1.q) && s.stitched w.1
  let s := { s with steered := s.steered.filter fun e => !mine.any fun w => linkCode w.1 = e.1 }
  ((mine.map fun w => (w.1, w.2.1)).eraseDups).foldl (fun s g => s.testGroup r g) s

/-- Link self-test of a list of parishes (R47, R66, R69): links down, dead routers, and dead parishes left off. -/
def selfTest (s : State) (r : StageResult) (ps : List Nat) : State :=
  let inPs (h : Hist) : Bool := ps.contains (parOf (locIndex h.unit % 2 ^ 15))
  let s := s.wireTest r ps
  let s := (r.downLinks.filter fun l => ps.contains (parOf l.q)).foldl downLink s
  let s := s.retireKind 2 inPs retireLink
  let s := (r.deadRouters.filter fun d => ps.contains (parOf d.1)).foldl (fun s d => s.markRouter d.1 d.2) s
  let s := s.retireKind 1 inPs retireRouter
  (ps.filter s.parishDeadByRouters).foldl leaveOff s

/-- A register access of steward i and its answer find their way between the steward and the ledger, on plane A. -/
def ledgerReached (s : State) (i : Nat) : Bool :=
  let ask := control 0x13 (0x7100 + i) 0x7300 3
  let back := control 0x14 0x7300 (0x7100 + i) 3
  match s.attachOf (0x7100 + i) 0 .a, s.attachOf 0x7300 0 .a with
  | some a, some b =>
    (s.parish (parOf a)).net && (s.parish (parOf b)).net && s.routesTo ask 400 a && s.routesTo back 400 b
  | _, _ => false

/-- Either steward reaches the ledger over what has come up of the boot row (R353). -/
def bootPath (s : State) : Bool := s.ledgerReached 0 || s.ledgerReached 1

def stageRom (s : State) (r : StageResult) : State :=
  let s := (s.netStage r bootRow).selfTest r bootRow
  let s := { s with clock := { s.clock with refclkOk := true } }
  if !s.bootPath then s.bootFail 3
  else
    let s := { s with ledger := { s.ledger with answers := true } }
    s.recordFound.modSec fun c => { c with stage := 1 }

/-- A steward passes its self-test, and history has not retired it (R333, R397). -/
def stewardOk (s : State) (r : StageResult) (i : Nat) : Bool :=
  (if i = 0 then r.steward0Ok else r.steward1Ok) &&
    !(s.permanents.any fun h => locKind h.unit == 7 && locIndex h.unit % 2 == i)

def dieFuses (s : State) (i : Nat) : Fuses := if i = 0 then s.sec.fuses0 else s.sec.fuses1

/-- The revocations of an accepted copy, on one die (R362). -/
def revoke (f : Fuses) (n : Nat) : Fuses := { f with revoked := f.revoked ||| BitVec.ofNat 4 n }

/-- The roles of R333: the ACTIVE steward is i. -/
def chooseRoles (s : State) (i : Nat) (both : Bool) : State :=
  let j := otherSteward i
  let s := s.modSteward i fun v => { v with role := .active }
  if both then (s.modSteward j fun v => { v with role := .standby }).syncShadow
  else (s.modSteward j fun v => { v with role := .lost, heldReset := true }).raise 74 (locSteward j)

/-- The copy that steward i's own ROM boots: none where its die fails, or where its fuses refuse both copies (R360). -/
def romChoice (s : State) (r : StageResult) (i : Nat) : Option Bool :=
  if s.stewardOk r i then s.chooseCopy (s.dieFuses i) else none

/-- A die's fuses once its own ROM has accepted a copy (R362). -/
def revoked (s : State) (r : StageResult) (i : Nat) : Fuses :=
  match s.romChoice r i with
  | some b => revoke (s.dieFuses i) (s.headerNum b 12 1)
  | none => s.dieFuses i

/-- LDG_CYCLE rises by one in stage 1 of a bring-up, whatever the stage comes to, and the header takes it (R402, R404). -/
def raiseCycle (s : State) : State :=
  if s.sec.cycled || !s.ledger.answers then s
  else { s with ledger := { s.ledger with cycle := s.ledger.cycle + 1 }.writeHeader s.serial }.modSec fun c =>
    { c with cycled := true }

/-- What the ROM sets before a copy's BL1 starts: the serial, security and SVN registers show it from then on, the UDS is
locked, and a DEBUG_TOKEN holds for the power cycle (R364, R365, R379). -/
def romSets (s : State) (i : Nat) (b : Bool) : State :=
  let debug := s.sec.debug || s.debugToken b (s.dieFuses i).serial
  let s := s.modSec fun c => { c with
    copyB := b, svn := s.imageSvn b, keySlot := s.headerNum b 10 1 % 4, debug, udsLocked := true }
  [0, 1].foldl (fun s i => s.modSteward i fun v => { v with coreDebug := debug }) s

/-- BL1 has read a copy's sections: its configuration, the fault classification table and the identity (R365, R385). -/
def bootCopy (s : State) (b : Bool) : State :=
  let s := s.modSec fun c => { c with image := s.imageOf b }
  let s := s.modSec fun c => { c with
    identity0 := s.identityOf b 0 c.fuses0, identity1 := s.identityOf b 1 c.fuses1 }
  let s := s.sec.image.faultTable.zipIdx.foldl (fun s e =>
    if e.2 < 128 then s.setReg (Reg.fltClass e.2) ((e.1 &&& 0xE3FFFFFF).setWidth 64) else s) s
  s.modSec fun c => { c with stage := 2 }

/-- The trip latch's record, the first of the power cycle (R24). -/
def recordTrip (s : State) : State :=
  match s.power.tripRecord with
  | none => s
  | some syn =>
    let s := { s with power := { s.power with tripRecord := none } }
    s.asOne fun s =>
      s.event { source := 76, loc := locModule, time := s.clock.now, syndrome := syn, tclass := some false } false

/-- BL1 finds a section's digest wrong: the copy is bad for the power cycle, and the ROM starts again (R360). -/
def markBad (s : State) (b : Bool) : State :=
  s.modSec fun c => { c with badA := c.badA || !b, badB := c.badB || b, stage := 1 }

/-- Both ROMs verify (R359, R360), each revokes on its own die (R362), and BL1 starts and reads the copy's sections. The
ACTIVE steward is the lower of those whose ROM has found a copy; a partner whose ROM has found none, or another one, is
LOST: DESIGN CHOICE (log 106). -/
def stageBl1 (s : State) (r : StageResult) : State :=
  let s := { s with ledger := { s.ledger with answers := r.ledgerOk } }.raiseCycle
  if !s.stewardOk r 0 && !s.stewardOk r 1 then s.bootFail 4
  else
    let i := if (s.romChoice r 0).isSome then 0 else 1
    match s.romChoice r i with
    | none => s.bootFail 1
    | some b =>
      let both := s.romChoice r (otherSteward i) = some b
      let s := (s.modSec fun c => { c with fuses0 := s.revoked r 0, fuses1 := s.revoked r 1 }).romSets i b
      if s.sectionMismatch b then s.markBad b
      else
        let s := (s.bootCopy b).chooseRoles i both
        let s := s.retireKind 8 (fun _ => true) fun s loc => { s with ledger := s.ledger.retire (locIndex loc % 2 ^ 20) }
        (s.markApplied fun h => locKind h.unit == 7).recordTrip

def stageNet (s : State) (r : StageResult) : State :=
  (s.netStage r ((List.range 56).filter fun p => !bootRow.contains p)).recordFound.modSec fun c => { c with stage := 3 }

/-! ### NEXT_HOP round dead parishes (R70, R352) -/

/-- The parish next to p in a direction, unless it is down or there is none. -/
def besides (s : State) (p : Nat) (d : Dir) : Option Nat :=
  let n := match d with
    | .n => if 8 ≤ p then some (p - 8) else none
    | .s => if p < 48 then some (p + 8) else none
    | .w => if p % 8 ≠ 0 then some (p - 1) else none
    | .e => if p % 8 ≠ 7 then some (p + 1) else none
  match n with
  | some t => if s.parDown t then none else some t
  | none => none

/-- Parish hops to d over parishes that are up, by parish, after n rounds; 99 for none yet. -/
def hopsTo (s : State) (d : Nat) : Nat → List Nat
  | 0 => (List.range 56).map fun p => if p = d then 0 else 99
  | n + 1 =>
    let far := s.hopsTo d n
    (List.range 56).map fun p =>
      ([Dir.n, .e, .s, .w].filterMap (s.besides p)).foldl (fun m t => min m (far.getD t 99 + 1)) (far.getD p 99)

/-- The first direction of a shortest way, the default one before N, E, S and W; the default where there is no way. -/
def hopRound (s : State) (far : List Nat) (p idx : Nat) : Nat :=
  let dflt := hopDefault p idx
  let good (n : Nat) : Bool := match dirOf n with
    | some d => (s.besides p d).any fun t => far.getD t 99 + 1 == far.getD p 99
    | none => false
  (([dflt, 0, 1, 2, 3] : List Nat).find? good).getD dflt

/-- NEXT_HOP of every router of parish p towards parish d, on both planes. -/
def rewriteHops (s : State) (d : Nat) (far : List Nat) (p : Nat) : State :=
  [0, 1].foldl (fun s pl =>
    s.setParish p (setHops p (s.parish p) (s.hopRound far p (hopIndex 0 pl 0 d))
      ((List.range 500).map fun r => hopIndex r pl 0 d))) s

/-- The tables lead round the dead parishes. R70 leaves the way to software; a shortest way is DESIGN CHOICE (log 110). -/
def rewriteTables (s : State) : State :=
  if (List.range 56).all fun p => !s.parDown p then s
  else (List.range 56).foldl (fun s d =>
    let far := s.hopsTo d 56
    ((List.range 56).filter fun p => (s.parish p).net).foldl (fun s p => s.rewriteHops d far p) s) s

/-- SUB names a memory row that a repair entry can replace: a scratchpad row (R396). -/
def rowSub (h : Hist) : Bool := decide (h.sub.toNat < 0x8000)

/-- Physical croft of a map-out entry. -/
def mapRow (s : State) (e : Nat × Nat × Nat) : State :=
  if e.1 < 56 ∧ e.2.1 < 20 ∧ e.2.2 < 25 then s.switchRows e.1 [(e.2.1, e.2.2)] false else s

/-- The ledger's field records (R402). -/
def fieldRecords (s : State) : List (Nat × Byte) :=
  s.ledger.bytes.filter fun e => 0xC0100000 ≤ e.1 && e.1 < 0xC0200000

/-- The map-outs and the repairs that they hold; an area of zeros holds none (log 8). -/
def fieldMapouts (s : State) : List (Nat × Nat × Nat) :=
  if s.fieldRecords.isEmpty then [] else Config.fieldMapouts s.fieldRecords
def fieldRepairs (s : State) : List (Nat × Nat × Nat) :=
  if s.fieldRecords.isEmpty then [] else Config.fieldRepairs s.fieldRecords

/-- The row maps are loaded: each CRF_ID shows its croft (R12, R36). -/
def mapsLoaded (s : State) : State := (List.range 56).foldl (fun s p => s.setParish p { s.parish p with mapped := true }) s

def stageSelfTest (s : State) (r : StageResult) : State :=
  let s := (s.selfTest r (List.range 56)).recordFound.rewriteTables
  let s := (s.sec.image.defects ++ s.fieldMapouts).foldl mapRow s
  let s := s.retireKind 0 (fun h => !rowSub h) fun s loc =>
    let q := locIndex loc
    s.mapRow (parOf q, q % 500 / 25, q % 25)
  s.mapsLoaded.modSec fun c => { c with stage := 4 }

/-! ### Stages 4 to 8 -/

/-- Papione starts: the two-wire bus answers, and the management ports come up (R18, R339). -/
def enterPapione (s : State) : State :=
  [0, 1].foldl (fun s i => s.modSteward i fun v => { v with mgmtUp := v.mgmtCable && v.role != .lost }) s

/-- A holding of the image is created, unless it lies on a LOST row of its map (R354) or stands already. -/
def createEntry (s : State) (e : HoldingEntry) : State :=
  if 16 ≤ e.holding ∨ (s.holding e.holding).st ≠ .free ∨ (e.rowsUsed.any fun u => bit (s.rowMap u.1 u.2) 31) then s
  else (s.setReg (Reg.hldRect e.holding) (e.rect.setWidth 64)).createHolding e.holding

/-- The holdings are created; a round of an earlier start of the stage is over. -/
def enterSowing (s : State) : State :=
  s.sec.image.holdings.foldl createEntry (s.modSec fun c => { c with sowOpen := false, sowBusy := false })

/-- A port of the installation map (R329): its role, direction and expected partner, enabled unless UNUSED. -/
def loadPort (s : State) (e : PortEntry) : State :=
  if 84 ≤ e.port then s
  else
    let gi := e.port / 3
    let k := e.port % 3
    let s := s.modGate gi fun g =>
      let g := (g.setField (Reg.lnkPortCtrl k) 6 4 e.role.toNat).setField (Reg.lnkPortCtrl k) 9 8 e.dir.toNat
      (g.setNum (Reg.lnkExpectIdLo k) (e.expect.toNat % 2 ^ 32)).setNum (Reg.lnkExpectIdHi k) (e.expect.toNat / 2 ^ 32)
    if e.role = 0 then s else s.enablePort gi k

def enterLanes (s : State) : State :=
  let s := s.retireKind 4 (fun h => locIndex h.unit < 28) fun s loc => s.modGate (locIndex loc) fun g => { g with lost := true }
  let s := s.retireKind 5 (fun h => locIndex h.unit % 32 < 28 && locIndex h.unit / 32 < 24) fun s loc =>
    let l := locIndex loc / 32
    s.modGate (locIndex loc % 32) fun g => g.setLane l { g.lane l with st := .failed, barred := true }
  s.sec.image.ports.foldl loadPort s

/-- What a stage does as it begins; the events of stages 0 to 4 come with what the stage finds, and with the commands of
stage 4 (R352). -/
def enterStage (s : State) (n : Nat) : State :=
  let s := s.modSec fun c => { c with stage := n }
  match n with
  | 5 => s.enterPapione
  | 6 => s.enterSowing
  | 7 => s.enterLanes
  | _ => s

/-- The current stage starts again (R355), once the ACTIVE steward has been replaced or REFCLK has returned. -/
def restartStage (s : State) : State :=
  if s.bringingUp && 1 ≤ s.sec.stage && s.sec.stage ≤ 7 then s.enterStage s.sec.stage else s

/-- After a command that may end a steward: bring-up repeats its stage where the ACTIVE steward has been lost and its partner
has taken over (R355). -/
def resume (before s : State) : State :=
  if s.active.isSome && s.active != before.active && (List.range 2).any fun i => (s.steward i).role == .lost then
    s.restartStage
  else s

/-- REFCLK is back: module timing goes on, and bring-up repeats the stage that it was lost in (R355). -/
def refclkBack (s : State) : State :=
  let t := { s with clock := { s.clock with refclk := true, refclkOk := s.alive } }
  if s.clock.refclk then t else t.restartStage

/-- A stage completes with what it found. -/
def stageComplete (s : State) (r : StageResult) : State :=
  if !s.bringingUp then s
  else match s.sec.stage with
    | 0 => s.stageRom r
    | 1 => s.stageBl1 r
    | 2 => s.stageNet r
    | 3 => s.stageSelfTest r
    | 4 => s.enterStage 5
    | 5 => s.enterStage 6
    | 6 => s.enterStage 7
    | 7 => s.enterStage 8
    | _ => s

/-- BL1 reads a section of the copy and its digest does not match (R360). In stage 1 the copy is the one that the ROM
chooses, later the one that it booted. -/
def sectionBad (s : State) (b : Bool) : State :=
  if s.bringingUp && 1 ≤ s.sec.stage && s.sec.stage ≤ 7 && (s.sec.stage == 1 || s.sec.copyB == b) && s.sectionMismatch b then
    s.markBad b
  else s

/-! ### Stage 4: compute waves and croft self-tests (R368, R369) -/

def computeWave (s : State) (k : Nat) : State :=
  if s.bringingUp && s.sec.stage == 4 then
    ((List.range 56).filter fun p => p % 8 = k && (s.parish p).st = .netOn).foldl (fun s p => s.writeComputeEn p true) s
  else s

/-- The repairs of a croft: of the defect map, the ledger's field records, and its permanent rows (R82, R397). -/
def repairsOf (s : State) (q : Nat) : List (Nat × Nat) :=
  let rows := (s.permanents.filter fun h => locKind h.unit == 0 && rowSub h && locIndex h.unit == q).map fun h =>
    (h.sub.toNat / 4096, h.sub.toNat % 4096)
  let named := (s.sec.image.repairs ++ s.fieldRepairs ++ s.ledger.repairs).filter fun e => e.1 = q
  (named.map fun e => (e.2.1, e.2.2)) ++ rows

end State

namespace Site

/-- A row takes its bank's lowest free repair entry; false with none free (R82). -/
def addRepair (x : Site) (bank row : Nat) : Site × Bool :=
  if x.rowRepaired bank row then (x, true)
  else match x.repairFree bank with
    | e :: _ => (x.setRepair bank e (some row), true)
    | [] => (x, false)

/-- Repair tables loaded: the croft, and whether every row found an entry. -/
def loadRepairs (x : Site) : List (Nat × Nat) → Site × Bool
  | [] => (x, true)
  | e :: es =>
    let r := x.addRepair e.1 e.2
    let t := r.1.loadRepairs es
    (t.1, r.2 && t.2)

/-- A croft that has passed serves its logical croft: its fence is lifted after its reset (R99). -/
def lift (x : Site) : Site := x.writeFence false

end Site

namespace State

/-- A croft is mapped out and recorded: no holding exists yet, so the switch is made at once (R36, R354, R369). -/
def mapOut (s : State) (q : Nat) : State :=
  (s.recordUnits [BitVec.ofNat 32 q]).writeMapout (parOf q) (BitVec.ofNat 32 (q % 500 / 25 + q % 25 * 2 ^ 5))

/-- Repair tables, croft reset and self-test of one croft. -/
def croftSelfTest (s : State) (q : Nat) (r : SelfTest) : State :=
  if !(s.bringingUp && s.sec.stage == 4 && (s.parish (parOf q)).st == .on && (s.logicalOf q).isSome) then s
  else
    let rows := s.repairsOf q
    let full := ((s.site q).loadRepairs rows).2
    let s := s.onCroft q fun x => (x.loadRepairs rows).1.beginReset.resetDone
    let s := s.markApplied fun h => locKind h.unit == 0 && rowSub h && locIndex h.unit == q
    if !full then s.mapOut q
    else match r with
      | .pass => s.onCroft q Site.lift
      | .badRow bank row =>
        if ((s.site q).addRepair (bank % 8) (row % 4096)).2 then
          let s := s.onCroft q fun x => (x.addRepair (bank % 8) (row % 4096)).1.lift
          { s with ledger := { s.ledger with repairs := s.ledger.repairs ++ [(q, bank % 8, row % 4096)] } }
        else s.mapOut q
      | .broken => s.mapOut q

/-! ### Fuses (R363) -/

/-- A steward whose counter, a thermometer of 64 fuses, a COMMIT raises. -/
def behind (s : State) (i : Nat) : Bool := (s.steward i).role != .lost && (s.dieFuses i).svn < min 64 s.sec.svn

def commit (s : State) : State :=
  if s.sec.stage ≠ 8 then s.modSec fun c => { c with fuseErr := true }
  else s.modSec fun c => { c with fuseErr := false, fuseBusy := c.fuseBusy || s.behind 0 || s.behind 1 }

/-- The fuses are blown: the counter stands at the booted image's number. -/
def fusesBlown (s : State) : State :=
  if !s.sec.fuseBusy then s
  else s.modSec fun c => { c with
    fuseBusy := false
    fuses0 := if s.behind 0 then { c.fuses0 with svn := min 64 c.svn } else c.fuses0
    fuses1 := if s.behind 1 then { c.fuses1 with svn := min 64 c.svn } else c.fuses1 }

end State

/-! ### The commands -/

/-- A report reaches the ACTIVE steward's fault controller (R382). -/
def execFaultReport (r : Report) (s : State) : Host.Outcome State Fault Refusal := .next (State.resume s (s.faultReport r))

def execFltInjectWrite (v : W32) (s : State) : Host.Outcome State Fault Refusal := .next (s.whenUp fun s => State.resume s (s.fltInject v))

/-- HB_TIMEOUT without a heartbeat at the STANDBY steward. -/
def execHeartbeatTimeout (st : Stw) (s : State) : Host.Outcome State Fault Refusal :=
  .next (State.resume s (s.declareLost st).settle)

def execTakeover (st : Stw) (s : State) : Host.Outcome State Fault Refusal := .next (State.resume s (s.takeover st).settle)

/-- REFCLK has been present for 10 ms (R413). -/
def execRefclkReturn (s : State) : Host.Outcome State Fault Refusal := .next s.refclkBack

def execStageComplete (r : StageResult) (s : State) : Host.Outcome State Fault Refusal := .next (s.stageComplete r)

def execSectionDigest (copyB : Bool) (s : State) : Host.Outcome State Fault Refusal := .next (s.sectionBad copyB)

def execComputeWave (k : Fin 8) (s : State) : Host.Outcome State Fault Refusal := .next (s.computeWave k)

def execCroftSelftest (q : Phys) (r : SelfTest) (s : State) : Host.Outcome State Fault Refusal := .next (s.croftSelfTest q r)

def execCommit (s : State) : Host.Outcome State Fault Refusal := .next (s.whenUp State.commit)

def execFuseBlowDone (s : State) : Host.Outcome State Fault Refusal := .next s.fusesBlown

end Sys2Proof.Machine
end

