-- ==== Sys2Proof/Machine/Drain.lean ====
section
/-! DEFINITION. The drain (R147 to R154): scale and bias, activation, clearing, and conversion into output tiles of 64
rows. One command is one row of a word. -/

namespace Sys2Proof.Machine
namespace Site

/-! ### The fused stage and the activations (R147 to R149) -/

/-- x × σ + β in one rounding; with σ = 1.0 and β = 0 the element itself. -/
def fusedStage (a : W32) (sigma beta : FV) : W32 :=
  if sigma.eqv .one && beta.isZero then canon32 a else toF32 (FV.fma (f32 a) sigma beta)

/-- The largest integer not above a finite non-negative value. -/
def floorOf (x : FV) : Nat := let f := x.frac; f.1 / f.2

/-- The table activation. -/
def tableAct (x : Site) (t : W32) : W32 :=
  let x0 := f32 ((x.reg Reg.arrLutX0).setWidth 32)
  let inv := f32 ((x.reg Reg.arrLutInvstep).setWidth 32)
  let e (i : Nat) : FV := f32 ((x.reg (Reg.arrLut i)).setWidth 32)
  let top : FV := .num false 255 0
  let v := fp32.round (((f32 t).sub x0).mul inv)
  if v.isNan then 0x7FC00000
  else
    let v := if v.lt FV.zero then FV.zero else if top.lt v then top else v
    let i := min (floorOf v) 254
    let f := v.sub (.num false i 0)
    let d := fp32.round ((e (i + 1)).sub (e i))
    toF32 (FV.fma f d (e i))

/-- ACT of a fused result. -/
def activate (x : Site) (act : Nat) (t : W32) : W32 :=
  let v := f32 t
  match act with
  | 0 => t
  | 1 => if v.isNan then 0x7FC00000 else if FV.zero.lt v then t else 0
  | 2 => if v.isNan then 0x7FC00000 else if FV.zero.lt v then toF32 (v.mul v) else 0
  | 3 => gelu v
  | 4 => silu v
  | _ => x.tableAct t

/-! ### Fields of a DRAIN word (R153) -/

/-- The threshold × 256, none where residuals are off. -/
def drainThresh (q : QWord) : Option Nat := if wfield q.word 99 99 = 1 then some (wfield q.word 47 40) else none
def drainTag (q : QWord) : Nat := wfield q.word 31 16 + hAdd q (wfield q.word 32 32) (wfield q.word 35 34)

/-- A tile scale that R109 permits. -/
def scaleOk (v : W32) : Bool := (f32 v).isFinite && FV.zero.lt (f32 v)

/-- What makes a DRAIN word raise FORMAT_ILLEGAL (R150). -/
def drainIllegal (x : Site) (q : QWord) : Bool :=
  let f := drainFmt q
  f == 7 || 12 < f || (wfield q.word 99 99 == 1 && 1 < f) ||
    (f == 1 && wfield q.word 97 97 == 1 && !scaleOk ((x.reg Reg.arrTscale).setWidth 32))

/-! ### Running -/

/-- The drain's amax folded and the word ended (R151). -/
def drainFinish (x : Site) : Site :=
  match x.c.draining with
  | none => x
  | some r =>
    if r.row < drainRows r.q then x
    else
      let x := x.foldAmax (Reg.arrAmax (wfield r.q.word 39 36)) r.amax
      { x with c := { x.c with draining := none } }

/-- The accumulator rows that a DRAIN word reads, and clears where CLEAR is set. -/
def drainSpan (q : QWord) : Span := ⟨accRow (drainAcc q), accRow (drainAcc q + drainRows q), wfield q.word 98 98 = 1⟩

/-- The next DRAIN word starts once the drain before it has read its last row and no word before it has still to write its
rows (R143, R154). RANGE is raised before FORMAT_ILLEGAL (log 154). -/
def drainStart (x : Site) : Site :=
  match x.c.drainQ with
  | [] => x
  | q :: rest =>
    let x := x.drainFinish
    if x.c.draining.isSome then x
    else if x.held q.num [drainSpan q] then x.stalls
    else
      let y := { x with c := { x.c with drainQ := rest } }
      if 512 < drainAcc q + drainRows q then y.arrFaulted 21 q
      else if y.drainIllegal q then y.arrFaulted 19 q
      else { y with c := { y.c with draining := some { q, dest := drainDest q } } }

/-- The FP32 values at PARAM: the per-column scales first, then the biases (R153). -/
def paramColumns (x : Site) (q : QWord) : Site × List W32 × List W32 × Bool :=
  let scales := wfield q.word 102 101 = 2
  let bias := wfield q.word 100 100 = 1
  let r := x.readBytes (drainParam q) (paramBytes q) (wordOpcode q.word)
  let cs := (unpackCodes 32 (paramBytes q / 4) r.2.1).map (BitVec.ofNat 32)
  (r.1, if scales then cs.take 64 else [], if bias then cs.drop (if scales then 64 else 0) else [], r.2.2)

/-- A row of a word converted under tile scale T; the draw of element j is that of 64 × row + column (R150). -/
def drainLine (x : Site) (q : QWord) (T : W32) (i : Nat) (u : List W32) : OutLine :=
  let key := drawKey x.seed (x.num Reg.crfStep) (x.n.getD 0) (drainTag q)
  let o := convertLine (drainFmt q) (wfield q.word 103 103 = 1) (f32 T) (drainThresh q) (u.map f32)
    fun k => rndOf (wfield q.word 104 104 = 1) key (64 * i + k)
  if lineBlocks (drainFmt q) = 0 then
    { o with ev := { o.ev with amax := amaxOf ((u.map f32).filter FV.isFinite) } }
  else o

/-- The tile scale, but for a tile that is read twice. -/
def drainScale (x : Site) (q : QWord) : W32 := if drainFmt q = 1 then (x.reg Reg.arrTscale).setWidth 32 else 0x3F800000

/-- The second reads of a group's rows, each row cleared after it where CLEAR is set (R150, R152). -/
def readAgain (x : Site) (r : DrainRun) : Site × Bool :=
  (List.range r.rows.length).foldl (fun s i =>
    let row := drainAcc r.q + (r.row - r.rows.length) + i
    let c := s.1.checkAcc row (wordOpcode r.q.word) false
    if s.2 then s
    else if c.2 then c
    else (if wfield r.q.word 98 98 = 1 then c.1.storeRow row (List.replicate 64 0) else c.1, false)) (x, false)

/-- The word ends at a fault of its own: nothing is folded, and the bytes of the tile whose rows it has begun are
undefined (R424). -/
def drainStop (x : Site) : Site :=
  let x := match x.c.draining with
    | some r =>
      if r.rows.isEmpty then x
      else
        let first := r.row - r.rows.length
        x.leaveOpen r.dest (tileRoom (drainFmt r.q) (min 64 (drainRows r.q - first)) (drainThresh r.q).isSome)
    | none => x
  { x.seqHalt with c := { x.seqHalt.c with draining := none } }

/-- Events of a line of a word: the counters, and the amax that the word will fold (R151). -/
def drainEvents (x : Site) (r : DrainRun) (ev : Events) : Site × DrainRun :=
  (x.arrEvents ev, { r with amax := toF32 ((f32 r.amax).maxOf ev.amax) })

/-- The tile of a complete group, written at DEST (R150). -/
def drainTile (x : Site) (r : DrainRun) : Site :=
  let q := r.q
  let s := if twoPass q then x.readAgain r else (x, false)
  if s.2 then s.1.drainStop
  else
    let x := s.1
    let T := if twoPass q then tileScale (r.rows.flatten.map f32) else x.drainScale q
    let ls := r.rows.mapIdx fun i u => x.drainLine q T (r.row - r.rows.length + i) u
    let e := if twoPass q then x.drainEvents r (eventsOf ls) else (x, r)
    let bytes := tileBytes (drainFmt q) T ls
    let x := e.1.writeBytes r.dest bytes (wordOpcode q.word)
    { x with c := { x.c with draining := some { e.2 with rows := [], dest := r.dest + bytes.length } } }

/-- The elements of a flat row that a finite accumulator value made infinite (R151). -/
def madeInf (q : QWord) (as us : List W32) : Nat :=
  if lineBlocks (drainFmt q) = 0 then
    ((List.zip as us).filter fun p => (f32 p.1).isFinite && (f32 p.2).isInf).length
  else 0

/-- One row: read, fused stage, activation, conversion, cleared where CLEAR is set; the tile of a complete group
follows. -/
def drainRow (x : Site) : Site :=
  match x.c.draining with
  | none => x
  | some r =>
    let q := r.q
    let opc := wordOpcode q.word
    let row := drainAcc q + r.row
    let clear := wfield q.word 98 98 = 1
    if drainRows q ≤ r.row then x
    else if x.held q.num ((drainReach q r.row r.dest).take 1 ++ (if r.row = 0 then ((drainReach q 0 0).drop 1).take 1 else []) ++
        [⟨r.dest, r.dest + 2 * fullTile (drainFmt q), true⟩]) then x.stalls
    else
      let s := if r.row = 0 then x.paramColumns q else (x, r.scales, r.biases, false)
      if s.2.2.2 then s.1.drainStop
      else
        let c := s.1.checkAcc row opc false
        if c.2 then c.1.drainStop
        else
          let x := c.1
          let r := { r with scales := s.2.1, biases := s.2.2.1 }
          let sigma (k : Nat) : FV :=
            if wfield q.word 102 101 = 2 then f32 (r.scales.getD k 0)
            else if wfield q.word 102 101 = 1 then f32 ((x.reg Reg.arrDrainScale).setWidth 32)
            else .one
          let beta (k : Nat) : FV := if wfield q.word 100 100 = 1 then f32 (r.biases.getD k 0) else .zero
          let as := x.accValues row
          let us := as.mapIdx fun k a => x.activate (wfield q.word 111 109) (fusedStage a (sigma k) (beta k))
          let x := if clear ∧ !twoPass q then x.storeRow row (List.replicate 64 0) else x
          let ev := if twoPass q then {} else (x.drainLine q (x.drainScale q) r.row us).ev
          let e := x.drainEvents r { ev with inf := ev.inf + madeInf q as us }
          let r : DrainRun := { e.2 with row := r.row + 1, rows := r.rows ++ [us] }
          let x := { e.1 with c := { e.1.c with draining := some r } }
          if r.row % 64 = 0 ∨ r.row = drainRows q then x.drainTile r else x

end Site

/-! ### The commands -/

def execDrainStart (q : Phys) (s : State) : Host.Outcome State Fault Refusal := .next (s.onCroft q Site.drainStart)
def execDrainRow (q : Phys) (s : State) : Host.Outcome State Fault Refusal := .next (s.onCroft q Site.drainRow)
def execDrainEnd (q : Phys) (s : State) : Host.Outcome State Fault Refusal := .next (s.onCroft q Site.drainFinish)

end Sys2Proof.Machine
end

