-- ==== Sys2Proof/Machine/RegView.lean ====
section
/-! DEFINITION. What a read of a register returns outside the crofts: the registers that show other state, and reads with
the access effects of R13. -/

namespace Sys2Proof.Machine

/-- STW_ROLE.ROLE. -/
def Role.code : Role → Nat
  | .booting => 0 | .active => 1 | .standby => 2 | .lost => 3

/-- PAR_STATUS.STATE. -/
def ParState.code : ParState → Nat
  | .off => 0 | .netOn => 1 | .computeUp => 2 | .on => 3 | .tripped => 4

/-- STC_SEQ_STATUS.STATE. -/
def StcState.code : StcState → Nat
  | .idle => 0 | .opening => 1 | .work => 2 | .combine => 3 | .update => 4 | .restoring => 5 | .stopped => 6 | .warmHold => 7

/-- Row and index of offset o within an array of registers that starts at base with a stride. -/
def rowOf (o base stride count : Nat) : Option Nat :=
  if base ≤ o ∧ o < base + stride * count ∧ (o - base) % stride = 0 then some ((o - base) / stride) else none

namespace State

/-! ### Parishes and the mesh -/

/-- PAR_STATUS. -/
def parStatus (s : State) (p : Nat) : Nat :=
  let v := s.parish p
  let rows (b : Nat) : Nat := ((List.range 20).filter fun r => bit (s.rowMap p r) b).length
  rows 31 * 2 ^ 13 + rows 30 * 2 ^ 8 + b2n v.pclkLock * 16 + b2n v.nclkLock * 8 + v.st.code

/-- NET_STATUS. -/
def netStatus (s : State) (p : Nat) : Nat :=
  let down (here : Bool) (n : Nat) : Nat :=
    let v := s.parish n
    b2n (here && (v.dead || v.dying || v.st = .tripped))
  (s.deadPositions p).length * 2 ^ 16 + b2n (tblBusy (s.parish p)) * 2 ^ 8 + down (p % 8 != 0) (p - 1) * 2 ^ 7 +
    down (decide (p < 48)) (p + 8) * 2 ^ 6 + down (p % 8 != 7) (p + 1) * 2 ^ 5 + down (decide (8 ≤ p)) (p - 8) * 2 ^ 4

/-- The entry that NET_TBL_SEL selects, of router (0, 0) where ALL is 1. -/
def selectedHop (s : State) (p : Nat) : Nat :=
  let v := (s.parish p).reg Reg.netTblSel
  if 55 < fld v 5 0 || (!bit v 31 && (19 < fld v 21 17 || 24 < fld v 16 12)) then 0
  else
    let router := if bit v 31 then 0 else 25 * fld v 21 17 + fld v 16 12
    s.hop p (hopIndex router (fld v 30 30) (fld v 29 29) (fld v 5 0))

/-- A read of n bytes in a parish's space; only PAR_STATUS answers while the network domain is off (R46, R73). -/
def readParish (s : State) (p o n : Nat) : State × W64 :=
  match findReg parishMap o with
  | none => (s, 0)
  | some d =>
    let v := s.parish p
    if n ≠ 4 then (s, 0)
    else if o = Reg.parStatus then (s, BitVec.ofNat 64 (s.parStatus p))
    else if !v.net || o == Reg.parMapout then (s, 0)
    else if o = Reg.netStatus then (s, BitVec.ofNat 64 (s.netStatus p))
    else if o = Reg.netTblData then (s, BitVec.ofNat 64 (s.selectedHop p))
    else if o = Reg.netMcastHi then (s, ((s.group p (v.field Reg.netMcastSel 7 0)).hi).setWidth 64)
    else (if d.rc = 0 then s else s.setParish p (v.setReg o (d.afterRead (v.reg o))), v.reg o)

/-! ### Step controllers -/

/-- STC_SEQ_STATUS. -/
def seqStatus (c : Stc) : Nat :=
  min c.ireplays 7 * 2 ^ 24 + min c.replays 7 * 2 ^ 21 + b2n c.horizon * 2 ^ 20 + b2n c.handed * 2 ^ 19 + c.st.code

/-- STC_NORM_STATUS. -/
def normStatus (c : Stc) : Nat := b2n c.committed * 2 ^ 31 + b2n c.combined * 2 ^ 30 + c.parts.length % 256

def readStc (s : State) (h o n : Nat) : State × W64 :=
  match findReg stcMap o with
  | none => (s, 0)
  | some d =>
    let c := s.stc h
    if n ≠ 4 then (s, 0)
    else if o = Reg.stcSeqStatus then (s, BitVec.ofNat 64 (seqStatus c))
    else if o = Reg.stcEnrolled then (s, BitVec.ofNat 64 (if (s.holding h).st = .free then 0 else (s.enrolled h).length))
    else if o = Reg.stcNormStatus then (s, BitVec.ofNat 64 (normStatus c))
    else if o = Reg.stcDone then (s, 0)
    else (if d.rc = 0 then s else s.setStc h (c.setReg o (d.afterRead (c.reg o))), c.reg o)

/-! ### Gates -/

/-- LNK_PORT_STATUS. -/
def portStatus (g : Gate) (k : Nat) : Nat :=
  let up := (g.lanesUp k).map fun l => l % 8
  (g.port k).st.code * 2 ^ 16 + (up.map fun i => 2 ^ i).sum * 2 ^ 8 + up.length

/-- LNK_PARTNER_CAPS. -/
def partnerCaps (c : Caps) : Nat :=
  c.mirror.toNat % 4 * 2 ^ 30 + c.ringN.toNat * 2 ^ 20 + c.ringPos.toNat * 2 ^ 12 + c.flags.toNat * 2 ^ 4 + c.kind % 16

/-- The registers of a gate that show other state. -/
def shownGate (g : Gate) (gi o : Nat) : Option Nat :=
  if o = Reg.gatStatus then
    some ((g.chans.filter fun e => e.2.st != .free).length % 4096 * 2 ^ 16 + (g.store.filter Gate.sentReq).length)
  else match rowOf o (Reg.gatChHandle 0) 0x40 2048, rowOf o (Reg.gatChStatus 0) 0x40 2048,
      rowOf o (Reg.gatChBytes 0) 0x40 2048 with
  | some c, _, _ => some (g.handle gi c).toNat
  | _, some c, _ => some (g.chan c).status
  | _, _, some c => some (g.chan c).bytes
  | none, none, none =>
    match rowOf o (Reg.lnkPortStatus 0) 0x40 3, rowOf o (Reg.lnkPartnerIdLo 0) 0x40 3, rowOf o (Reg.lnkPartnerIdHi 0) 0x40 3,
        rowOf o (Reg.lnkPartnerCaps 0) 0x40 3 with
    | some k, _, _, _ => some (portStatus g k)
    | _, some k, _, _ => some (((g.port k).caps.getD {}).deviceId.toNat % 2 ^ 32)
    | _, _, some k, _ => some (((g.port k).caps.getD {}).deviceId.toNat / 2 ^ 32)
    | _, _, _, some k => some (partnerCaps ((g.port k).caps.getD {}))
    | none, none, none, none =>
      match rowOf o (Reg.lnkLaneStatus 0) 0x20 24 with
      | some l => some (g.laneStatus l)
      | none => none

/-- A read in a gate's space; zero while the gate is lost (R328). -/
def readGate (s : State) (gi o n : Nat) : State × W64 :=
  match findReg gateMap o with
  | none => (s, 0)
  | some d =>
    let g := s.gate gi
    if n ≠ (if d.wide then 8 else 4) || g.lost then (s, 0)
    else match shownGate g gi o with
      | some v => (s, BitVec.ofNat 64 v)
      | none => (if d.rc = 0 then s else s.setGate gi (g.setReg o (d.afterRead (g.reg o))), g.reg o)

/-! ### The module's own blocks -/

/-- A croft of the holding holds more windows than its limit. -/
def winOver (s : State) (h : Nat) : Bool :=
  s.crofts.any fun e => s.owner (parOf e.1) = h && decide ((s.site e.1).winLimit < (s.site e.1).winsInUse)

/-- A gate holds more contexts of the holding than its limit. -/
def chanOver (s : State) (h : Nat) : Bool :=
  s.gates.any fun e => decide (min 2048 (e.2.field (Reg.gatAllot h) 27 16) < (e.2.contextsOf h).length)

/-- ALT_STATUS of a holding: BUSY until a write has been applied, one that is held during a reset among them (R345). -/
def altStatus (s : State) (h : Nat) : Nat :=
  let d := s.holding h
  let w := s.winOver h
  let c := s.chanOver h
  let power := d.noCode || decide (s.field (Reg.altPower h) 15 0 < d.watts)
  b2n (d.busy || d.altRes.isSome || d.altPower.isSome) * 2 ^ 31 + b2n (w || c || power) * 2 ^ 30 + b2n w * 2 ^ 29 + b2n c * 2 ^ 28 + d.code % 32 * 2 ^ 16 + min d.watts 0xFFFF

/-- The ACTIVE steward's fuses, S0's where none is. -/
def activeFuses (s : State) : Fuses := s.dieFuses (s.active.getD 0)

/-- SEC_SECURITY: its fields show the ACTIVE steward's own die, once the ROM has set them. -/
def secSecurity (s : State) : Nat :=
  let f := s.activeFuses
  let prog := ((List.range 4).map fun k => b2n (f.programmed k) * 2 ^ k).sum
  if s.sec.udsLocked then
    b2n s.sec.debug * 2 ^ 31 + 2 ^ 30 + prog * 2 ^ 20 + f.revoked.toNat * 2 ^ 16 + s.sec.keySlot % 4 * 2 ^ 12
  else 0

/-- FLT_STATUS. -/
def fltStatus (s : State) : Nat :=
  b2n s.moduleHalted * 2 ^ 31 + b2n (decide (4096 ≤ s.faults.slots.length)) * 2 ^ 30 + (s.openRecords.map fun r => 2 ^ r.domain).sum

/-- FLT_REC word w of domain d. -/
def recWord (s : State) (d w : Nat) : Nat :=
  match Tab.get (fun _ => none) s.faults.records d with
  | some (r : Record) => ofLe (slice r.bytes (4 * w) 4)
  | none => 0

/-- Registers of the SEC_, FLT_ and LDG_ blocks that show other state. -/
def shownSec (s : State) (o : Nat) : Option Nat :=
  let c := s.sec
  let fuses := s.activeFuses
  if o = Reg.secBootStatus then some (c.fail % 256 * 2 ^ 24 + b2n c.copyB * 2 ^ 16 + c.stage % 16)
  else if o = Reg.secSecurity then some s.secSecurity
  else if o = Reg.secSvn then some (if c.udsLocked then fuses.svn % 128 * 2 ^ 16 + c.svn % 128 else 0)
  else if o = Reg.secFuseCmd then some (b2n c.fuseErr * 2 ^ 29 + b2n c.fuseBusy * 2 ^ 28)
  else if o = Reg.secSerialLo then some (if c.udsLocked then fuses.serial.toNat % 2 ^ 32 else 0)
  else if o = Reg.secSerialHi then some (if c.udsLocked then fuses.serial.toNat / 2 ^ 32 else 0)
  else if o = Reg.secSowCmd then some (b2n c.sowErr * 2 ^ 28 + b2n c.sowBusy * 2 ^ 27 + b2n c.sowOpen * 2 ^ 26)
  else match rowOf o (Reg.secSowMap 0) 4 15 with
    | some w => some (Tab.get (fun _ => 0) c.sowMap (s.num Reg.secSowParish) / 2 ^ (32 * w) % 2 ^ 32)
    | none => none

def shownFlt (s : State) (o : Nat) : Option Nat :=
  let l := s.ledger
  if o = Reg.fltStatus then some s.fltStatus
  else if o = Reg.fltBell then some (b2n s.faults.pulse * 2 + s.field Reg.fltBell 0 0)
  else if o = Reg.fltInject then some 0
  else if o = Reg.ldgStatus then
    some ((if s.sec.cycled then l.spare * 2 ^ 10 else 0) + b2n (s.sec.cycled && l.wrapped) * 2 + b2n l.answers)
  else if o = Reg.ldgCmd then some (s.field Reg.ldgCmd 29 29 * 2 ^ 29 + b2n l.busy * 2 ^ 28 + s.field Reg.ldgCmd 19 0)
  else if o = Reg.ldgCycle then some (if s.sec.cycled then l.cycle % 2 ^ 32 else 0)
  else if o = Reg.ldgLogNext then some (if s.sec.cycled then l.logNext else 0)
  else match rowOf o (Reg.fltCauses 0) 4 17, rowOf o (Reg.fltRec 0) 4 272 with
    | some d, _ => some (s.causeCount d)
    | _, some i => some (s.recWord (i / 16) (i % 16))
    | none, none => none

/-- Registers of the MOD_, STW_, HLD_ and ALT_ blocks that show other state. -/
def shownMod (s : State) (o : Nat) : Option Nat :=
  if o = Reg.modService then some (s.modRead o).toNat
  else match (List.range 2).find? fun i => Reg.stwId i ≤ o && o < Reg.stwId i + 0x100000 with
  | some i =>
    let v := s.steward i
    if v.heldReset then some 0
    else if o = Reg.stwId i then some i
    else if o = Reg.stwRole i then some v.role.code
    else if o = Reg.stwHeartbeat i then some v.heartbeats.toNat
    else if o = Reg.stwKick i then some 0
    else none
  | none =>
    match rowOf o (Reg.hldStatus 0) 0x10 16, rowOf o (Reg.altStatus 0) 0x20 16 with
    | some h, _ => some ((s.parishesOf h).length * 2 ^ 16 + stateCode (s.holding h).st)
    | _, some h => some (s.altStatus h)
    | none, none => if o = Reg.altModuleStatus then some (s.power.modCode * 2 ^ 16 + min s.power.modWatts 0xFFFF) else none

/-- The value of a module register that shows other state. -/
def shown (s : State) (o : Nat) : Option Nat :=
  match s.shownMod o, s.shownSec o, s.shownFlt o with
  | some v, _, _ => some v
  | _, some v, _ => some v
  | _, _, v => v

/-- A read of n bytes in the module's space. -/
def readModule (s : State) (o n : Nat) : State × W64 :=
  match findReg moduleMap o with
  | none => (s, 0)
  | some d =>
    if n ≠ 4 then (s, 0)
    else match s.shown o with
      | some v => (s, BitVec.ofNat 64 v)
      | none =>
        let v := d.afterRead (s.reg o)
        (if d.rc = 0 then s else if (findReg fltRegs o).isSome then s.setFlt o v else s.setReg o v, s.reg o)

/-! ### The physical address map (R331) -/

end State

/-- What a physical address names: SRAM, a register space of a unit with its offset, or nothing. -/
inductive Place where
  | sram (a : Nat)
  | module (o : Nat)
  | parish (p o : Nat)
  | broadcast (o : Nat)
  | stc (h o : Nat)
  | gate (g o : Nat)
  | croft (n o : Nat)
  | nowhere
deriving DecidableEq, Repr

namespace Place

/-- Within 4 KiB blocks from base: the block and the offset. -/
def blocks (a base : Nat) : Nat × Nat := ((a - base) / 0x1000, (a - base) % 0x1000)

/-- The blocks of one register space each. -/
def single (a : Nat) : Place :=
  if 0x17000000 ≤ a ∧ a < 0x17001000 then .module (0x300000 + (a - 0x17000000))
  else if 0x18000000 ≤ a ∧ a < 0x18001000 then .module (0x400000 + (a - 0x18000000))
  else if 0x19000000 ≤ a ∧ a < 0x1A000000 then .module (0x600000 + min (a - 0x19000000) 0xFFFFF)
  else if 0x1A000000 ≤ a ∧ a < 0x1B000000 then .module (0x500000 + min (a - 0x1A000000) 0xFFFFF)
  else if 0x1B000000 ≤ a ∧ a < 0x1C000000 then .module (0x700000 + (a - 0x1B000000))
  else .nowhere

/-- The place of address a as steward st sees it. -/
def ofAddr (st a : Nat) : Place :=
  if a < 0x10000000 then .sram a
  else if 0x10000000 ≤ a ∧ a < 0x10001000 then .module (a - 0x10000000)
  else if 0x11000000 ≤ a ∧ a < 0x11038000 then
    let b := blocks a 0x11000000
    .parish b.1 b.2
  else if 0x12000000 ≤ a ∧ a < 0x12038000 then
    let b := blocks a 0x12000000
    .parish b.1 (0x1000 + b.2)
  else if 0x12038000 ≤ a ∧ a < 0x12039000 then .broadcast (0x1000 + (a - 0x12038000))
  else if 0x13000000 ≤ a ∧ a < 0x13010000 then
    let b := blocks a 0x13000000
    .stc b.1 b.2
  else if 0x14000000 ≤ a ∧ a < 0x14700000 then .gate ((a - 0x14000000) / 0x40000) ((a - 0x14000000) % 0x40000)
  else if 0x15000000 ≤ a ∧ a < 0x1501C000 then
    let b := blocks a 0x15000000
    .gate b.1 (0x40000 + b.2)
  else if 0x16000000 ≤ a ∧ a < 0x16001000 then .module (Reg.stwId st + (a - 0x16000000))
  else if 0x16001000 ≤ a ∧ a < 0x16002000 then .module (Reg.stwId (State.otherSteward st) + (a - 0x16001000))
  else if 0x400000000 ≤ a ∧ a < 0x469000000 then .croft ((a - 0x400000000) / 0x10000) ((a - 0x400000000) % 0x10000)
  else single a

end Place

end Sys2Proof.Machine
end

