-- ==== Sys2Proof/Machine/Registers.lean ====
section
/-! DEFINITION. Writes to the registers outside the crofts by their access codes and effects (R13), register packets at every
endpoint (R75, R322), and the accesses of the steward cores (R331, R332). -/

namespace Sys2Proof.Machine
namespace State

/-! ### Parishes and the mesh -/

/-- A write of n bytes in a parish's space; ignored while the network domain is off (R46, R73). -/
def writeParish (s : State) (p o n : Nat) (v : W64) : State :=
  match findReg parishMap o with
  | none => s
  | some d =>
    let x := s.parish p
    let w : W32 := v.setWidth 32
    if n ≠ 4 || !x.net then s
    else if o = Reg.parCtrl then s.writeComputeEn p (bit v 0)
    else if o = Reg.parPclk then s.writePclkTarget p w
    else if o = Reg.parMapout then s.writeMapout p w
    else if o = Reg.netTblData then s.writeTblData p w
    else if o = Reg.netMcastHi then s.writeMcastHi p w
    else if (o == Reg.netTblSel || o == Reg.netMcastSel) && tblBusy x then s
    else s.setParish p (x.setReg o (d.write (x.reg o) v))

/-- The broadcast alias of the NET_ blocks acts on all 56. -/
def writeBroadcast (s : State) (o n : Nat) (v : W64) : State :=
  (List.range 56).foldl (fun s p => s.writeParish p o n v) s

/-! ### Step controllers -/

/-- STC_LS_CFG keeps MIN_EXP ≤ INIT_EXP ≤ MAX_EXP within −126 to 127. -/
def lsCfgOk (v : W64) : Bool :=
  let lo := signed 8 (fld v 15 8)
  let init := signed 8 (fld v 7 0)
  let hi := signed 8 (fld v 23 16)
  decide (-126 ≤ lo) && decide (lo ≤ init) && decide (init ≤ hi)

/-- STC_LS_STATE as written, its EXP clamped to the nearer bound. -/
def lsClamp (c : Stc) (v : W64) : W64 :=
  let e := signed 8 (fld v 7 0)
  let e := if e < c.minExp then c.minExp else if signed 8 (c.field Reg.stcLsCfg 23 16) < e then
    signed 8 (c.field Reg.stcLsCfg 23 16) else e
  setFld v 7 0 (unsigned 8 e)

/-- STC_SEQ_CTRL: RESTORE_HOLD and RUN, then ABANDON, or else REPLAY (R275). -/
def writeSeqCtrl (s : State) (h : Nat) (v : W64) : State :=
  let s := s.setStc h ((s.stc h).setField Reg.stcSeqCtrl 1 1 (fld v 1 1))
  let s := s.writeRun h (bit v 0) s.moduleHalted
  if bit v 3 then s.abandon h else if bit v 2 then s.replay h .software else s

/-- The registers of chapter 12 that are written in IDLE alone (R295). -/
def idleOnly (o : Nat) : Bool := o == Reg.stcMirror || (0x200 ≤ o && o < 0x260 && o != Reg.stcNormPartLo)

/-- The registers that are written only while no step is open (R176). -/
def closedOnly (o : Nat) : Bool := o == Reg.stcLsCfg || o == Reg.stcLsState || o == Reg.stcCfg

/-- A write of n bytes of a step controller's register, by croft src where a croft's packet makes it. A new STC_LS_CFG
leaves EXP as it was, also outside its bounds (log 156); DELAYED cleared, or FILL written 0, leaves a hold standing until
GO (log 158). -/
def writeStc (s : State) (h o n : Nat) (v : W64) (src : Option Nat := none) : State :=
  match findReg stcMap o with
  | none => s
  | some d =>
    let c := s.stc h
    let w : W32 := v.setWidth 32
    if n ≠ 4 || s.active.isNone then s
    else if o = Reg.stcStep then s.writeStep h w
    else if o = Reg.stcSeqCtrl then s.writeSeqCtrl h v
    else if o = Reg.stcDone then s.doneReport h src w
    else if o = Reg.stcNormPartHi then s.commitPartial h w
    else if o = Reg.stcHist then
      let s := s.writeFill h w
      if bit v 8 then s.writeGo h else s
    else if idleOnly o && !(c.st = .idle && !c.abandoning) || closedOnly o && c.stepOpen then s
    else if o = Reg.stcNormPartLo && c.committed || o = Reg.stcLsCfg && !lsCfgOk v then s
    else
      let v := if o = Reg.stcLsState then lsClamp c v else if o = Reg.stcNormCfg then normCfg (c.reg o) v else v
      let c := c.setReg o (d.write (c.reg o) v)
      -- with DELAYED = 0, FILL stays 0 (R170)
      s.setStc h (if o = Reg.stcCfg ∧ c.field Reg.stcCfg 7 7 = 0 then c.setField Reg.stcHist 4 0 0 else c)

/-! ### Gates -/

/-- GAT_CH_CMD of a context by a write of holding h. -/
def writeGatCmd (s : State) (gi c h : Nat) (v : W64) : State :=
  if fld v 31 30 = 1 then s.gateStart gi c h
  else if fld v 31 30 = 2 then s.gateAbort gi c (fld v 3 0) h
  else if fld v 31 30 = 3 then s.gateDestroy gi c (fld v 3 0) h
  else s

/-- LNK_PORT_CTRL: MIN_LANES, TEST and DIR; a ROLE of 0 to 4; then ENABLE (R301, R320). -/
def writePortCtrl (s : State) (gi k : Nat) (v : W64) : State :=
  let o := Reg.lnkPortCtrl k
  let s := s.modGate gi fun g => ((g.setField o 27 24 (fld v 27 24)).setField o 10 8 (fld v 10 8 % 8))
  let s := (s.portUpdate gi k (accessOpcode o)).writeRole gi k (v.setWidth 32)
  let on := bit ((s.gate gi).reg o) 0
  if bit v 0 && !on then s.enablePort gi k
  else if !bit v 0 && on then s.disablePort gi k (accessOpcode o)
  else s

/-- The context of an offset among the GAT_CH_ registers. -/
def ctxOf (o : Nat) : Option Nat := if 0x10000 ≤ o ∧ o < 0x30000 then some ((o - 0x10000) / 0x40) else none

/-- A write of n bytes in a gate's space by holding h; ignored while the gate is lost (R328). -/
def writeGate (s : State) (gi o n h : Nat) (v : W64) : State :=
  match findReg gateMap o with
  | none => s
  | some d =>
    let g := s.gate gi
    if n ≠ (if d.wide then 8 else 4) || g.lost then s
    else match rowOf o (Reg.gatChCmd 0) 0x40 2048, rowOf o (Reg.lnkPortCtrl 0) 0x40 3 with
      | some c, _ => s.writeGatCmd gi c h v
      | _, some k => s.writePortCtrl gi k v
      | none, none =>
        let running := match ctxOf o with
          | some c => (g.chan c).active
          | none => false
        if running then s
        else
          let s := s.setGate gi (g.setReg o (d.write (g.reg o) v))
          -- a new expected identifier may match or not match the partner that is there (R319)
          match (List.range 3).find? fun k => o == Reg.lnkExpectIdLo k || o == Reg.lnkExpectIdHi k with
          | some k => s.portUpdate gi k (accessOpcode o)
          | none => s

/-! ### The module's own blocks -/

/-- STW_CTRL, STW_CFG and STW_KICK of steward i; ignored while it is held in reset (R349). -/
def writeStw (s : State) (i o : Nat) (d : RegDef) (v : W64) : State :=
  if (s.steward i).heldReset then s
  else if o = Reg.stwCtrl i then
    let s := s.setReg o (d.write (s.reg o) v)
    if bit v 2 && (s.steward i).role == .active then (s.release i).settle
    else if bit v 1 then resume s (s.takeover i).settle else s
  else if o = Reg.stwCfg i then s.setNum o (max 200 (fld v 15 0))
  else if o = Reg.stwKick i then s.modSteward i fun x => { x with expired := false }
  else s.setReg o (d.write (s.reg o) v)

/-- HLD_CTRL.OP. -/
def writeHldCtrl (s : State) (h : Nat) (v : W64) : State :=
  if fld v 31 30 = 1 then s.createHolding h
  else if fld v 31 30 = 2 then s.resetHolding h
  else if fld v 31 30 = 3 then s.destroyHolding h
  else s

/-- SEC_SOW_CMD.OP. -/
def writeSowCmd (s : State) (v : W64) : State :=
  if fld v 31 29 = 1 then s.sowOpen
  else if fld v 31 29 = 2 then s.sowSend
  else if fld v 31 29 = 3 then s.sowCheck
  else if fld v 31 29 = 4 then s.sowEnd
  else s

/-- LDG_CMD: BLOCK, and its OP (R404). -/
def writeLdgCmd (s : State) (v : W64) : State :=
  let b := fld v 19 0
  if fld v 31 30 = 1 then s.ldgOp (.read b .clean)
  else if fld v 31 30 = 2 then s.ldgOp (.write b false)
  else s.setField Reg.ldgCmd 19 0 b

/-- Registers of the SEC_ block whose writes wait for no OP (R379). -/
def sowHeld (o : Nat) : Bool := o == Reg.secSowRound || o == Reg.secSowRange || o == Reg.secSowDest || o == Reg.secSowSrc

/-- A write to the HLD_ and ALT_ blocks; none for another register. -/
def writeHld (s : State) (o : Nat) (d : RegDef) (v : W64) : Option State :=
  let w : W32 := v.setWidth 32
  match rowOf o (Reg.hldCtrl 0) 0x10 16, rowOf o (Reg.hldRect 0) 0x10 16, rowOf o (Reg.altRes 0) 0x20 16,
      rowOf o (Reg.altPower 0) 0x20 16 with
  | some h, _, _, _ => some (s.writeHldCtrl h v)
  | _, some h, _, _ => some (if (s.holding h).st = .free then s.setReg o (d.write (s.reg o) v) else s)
  | _, _, some h, _ => some (s.writeAltRes h w)
  | _, _, _, some h => some (s.writeAltPower h w)
  | none, none, none, none => none

/-- A write of n bytes in the module's space. -/
def writeModule (s : State) (o n : Nat) (v : W64) : State :=
  match findReg moduleMap o with
  | none => s
  | some d =>
    let w : W32 := v.setWidth 32
    if n ≠ 4 then s
    else match (List.range 2).find? fun i => Reg.stwId i ≤ o && o < Reg.stwId i + 0x100000, s.writeHld o d v with
      | some i, _ => s.writeStw i o d v
      | none, some t => t
      | none, none =>
        if o = Reg.secFuseCmd then (if fld v 31 30 = 1 then s.commit else s)
        else if o = Reg.secSowCmd then s.writeSowCmd v
        else if sowHeld o && s.sec.sowBusy || o = Reg.secSowParish && decide (55 < fld v 5 0) then s
        else if o = Reg.fltBell then (if bit v 0 then s.levelClear else s)
        else if o = Reg.fltClear then s.fltClear w
        else if o = Reg.fltInject then resume s (s.fltInject w)
        else if o = Reg.ldgCmd then s.writeLdgCmd v
        else match rowOf o (Reg.fltClass 0) 4 128 with
          | some c => if sourceNamed c then s.setFlt o (d.write (s.reg o) v) else s
          | none =>
            let v := d.write (s.reg o) v
            if (findReg fltRegs o).isSome then s.setFlt o v else s.setReg o v

/-! ### By place -/

/-- A read at a place outside the crofts and SRAM. -/
def readPlace (s : State) (x : Place) (n : Nat) : State × W64 :=
  match x with
  | .module o => s.readModule o n
  | .parish p o => s.readParish p o n
  | .stc h o => s.readStc h o n
  | .gate g o => s.readGate g o n
  | .sram _ | .broadcast _ | .croft _ _ | .nowhere => (s, 0)

/-- A write at a place outside the crofts and SRAM, by holding h, of croft src where a croft's packet makes it. -/
def writePlace (s : State) (x : Place) (n h : Nat) (v : W64) (src : Option Nat := none) : State :=
  match x with
  | .module o => s.writeModule o n v
  | .parish p o => s.writeParish p o n v
  | .broadcast o => s.writeBroadcast o n v
  | .stc g o => s.writeStc g o n v src
  | .gate g o => s.writeGate g o n h v
  | .sram _ | .croft _ _ | .nowhere => s

/-- A write of a croft's register without a packet, where a packet would not be refused. -/
def writeCroft (s : State) (n o bytes : Nat) (v : W64) : State :=
  match s.physOf n with
  | none => s
  | some q =>
    if !s.atCroft q then s
    else s.onCroft q fun x => if x.c.resetting || x.fenced && 0x1000 ≤ o then x else x.writeReg o bytes v

/-- The width of the register at a place; 4 where none lies. -/
def placeWidth (x : Place) : Nat :=
  let w (m : List RegDef) (o : Nat) : Nat := match findReg m o with
    | some d => if d.wide then 8 else 4
    | none => 4
  match x with
  | .gate _ o => w gateMap o
  | .croft _ o => w croftMap o
  | .module _ | .parish _ _ | .broadcast _ | .stc _ _ | .sram _ | .nowhere => 4

/-- An access that is narrower than its register, misaligned, or past a croft's blocks: no effect (R9, R75). R9 does not
name an access wider than the register; that it has no effect and reads 0 too is DESIGN CHOICE (log 39). -/
def coreVoid (x : Place) (addr bytes : Nat) : Bool :=
  bytes != placeWidth x || addr % placeWidth x != 0 || (match x with
    | .croft _ o => decide (0x5000 ≤ o)
    | _ => false)

/-- A write of a register by its steward physical address, as the ACTIVE steward sees it, at the register itself; no part of
the module without supply or in module reset answers (R21, R22). -/
def registerWrite (s : State) (addr bytes : Nat) (v : W64) : State :=
  let x := Place.ofAddr (s.active.getD 0) addr
  if !s.up || coreVoid x addr bytes then s
  else match x with
    | .croft n o => s.writeCroft n o bytes v
    | x => s.writePlace x bytes 15 v

/-! ### Register packets (R75, R251, R322) -/

/-- The place that a register packet names at an endpoint that is no croft: a gate's GAT_ block by its offset, and at
reeves, stewards, the ledger and for a gate's LNK_ block the steward physical address (log 28). -/
def packetPlace (k : Packet) : Place :=
  let e := k.dest.toNat
  let a := k.offset.toNat
  if 0x7000 ≤ e ∧ e < 0x701C then
    if a < 0x40000 then .gate (e - 0x7000) a
    else match Place.ofAddr 0 a with
      | .gate g o => if g = e - 0x7000 ∧ 0x40000 ≤ o then .gate g o else .nowhere
      | _ => .nowhere
  else if 0x7200 ≤ e ∧ e < 0x7238 then
    match Place.ofAddr 0 a with
    | .parish p o => if p = e - 0x7200 then .parish p o else .nowhere
    | _ => .nowhere
  else if e = 0x7100 ∨ e = 0x7101 then
    match Place.ofAddr (e - 0x7100) a with
    | .module o => .module o
    | .stc h o => .stc h o
    | _ => .nowhere
  else if e = 0x7300 then
    match Place.ofAddr 0 a with
    | .module o => if 0x700000 ≤ o then .module o else .nowhere
    | _ => .nowhere
  else .nowhere

/-- Why a register packet is refused there: a misaligned or foreign offset, and at a gate another holding's context or any
register but a context's (R322). R75 states MALFORMED for a misaligned offset or a foreign one at a croft; that a gate, a
reeve and a steward answer so too is DESIGN CHOICE (log 138). -/
def packetRefused (s : State) (k : Packet) : Option Nat :=
  let h := k.holding.toNat
  match packetPlace k with
  | .gate g o =>
    let mine := match ctxOf o with
      | some c => reaches (s.gate g) c h
      | none => h == 15
    if !mine then some 0x07 else if o % 4 ≠ 0 then some 0x0C else none
  | .nowhere => some 0x0C
  | _ => if k.offset.toNat % 4 ≠ 0 then some 0x0C else none

/-- The access width of a packet: a carter's is of 4 bytes. -/
def accessWidth (k : Packet) : Nat :=
  match k.who with
  | .carter _ _ => 4
  | _ => placeWidth (packetPlace k)

/-- Registers of the ACTIVE steward's set: those of its step controllers and its fault controller (R334, R382). -/
def ofSet (x : Place) : Bool :=
  match x with
  | .stc _ _ => true
  | .module o => (findReg fltRegs o).isSome
  | .croft _ _ | .parish _ _ | .broadcast _ | .gate _ _ | .sram _ | .nowhere => false

/-- REG_DATA with a value; from the ACTIVE steward's set it is a visible action (R334, R382). -/
def regAnswer (s : State) (k : Packet) (v : W64) : State :=
  let a : Packet := { answerTo k 0x14 3 with opdata := v.setWidth 96 }
  if ofSet (packetPlace k) then s.publish [a] else s.emit [a]

/-- A START that a gate refuses for the holding's limit is answered with a MALFORMED NACK. -/
def startOver (s : State) (k : Packet) (v : W64) : Bool :=
  match packetPlace k with
  | .gate g o =>
    match rowOf o (Reg.gatChCmd 0) 0x40 2048 with
    | some c =>
      let d := s.gate g
      let h := k.holding.toNat
      fld v 31 30 == 1 && !(d.chan c).active && overLimit d c (if h = 15 then d.ctxHold c else h)
    | none => false
  | _ => false

def regWriteAt (s : State) (k : Packet) : State :=
  let v : W64 := k.opdata.setWidth 64
  match s.packetRefused k with
  | some code => s.emit [nackTo k code]
  | none =>
    let bad := s.startOver k v
    let src := if k.src.toNat < 26880 then some k.src.toNat else none
    let s := s.writePlace (packetPlace k) (accessWidth k) k.holding.toNat v src
    if bad then s.emit [nackTo k 0x0C] else s.regAnswer k v

def regReadAt (s : State) (k : Packet) : State :=
  match s.packetRefused k with
  | some code => s.emit [nackTo k code]
  | none =>
    let r := s.readPlace (packetPlace k) (accessWidth k)
    r.1.regAnswer k r.2

/-! ### Steward cores (R331, R332) -/

/-- A core may start an access: its die runs, and its last access is over (R332). -/
def coreReady (s : State) (st n : Nat) : Bool :=
  s.up && !(s.steward st).heldReset && (s.coreAccess st n).isNone

/-- An access-fault exception outside the map: no packet, and no log. -/
def coreException (s : State) (st n : Nat) : State :=
  s.modSteward st fun v => { v with exceptions := Tab.set (fun _ => 0) v.exceptions n (Tab.get (fun _ => 0) v.exceptions n + 1) }

/-- The TAG of a core's access: the core, and a bit that turns with each packet. -/
def coreTag (s : State) (n : Nat) : W16 := BitVec.ofNat 16 (s.freeCtr % 4096 * 16 + n)

/-- An access goes out as a register packet to an endpoint. -/
def coreSend (s : State) (st n : Nat) (addr : BitVec 48) (store : Bool) (dest off : Nat) (v : W64) : State :=
  let tag := s.coreTag n
  let k : Packet := { control (if store then 0x12 else 0x13) (0x7100 + st) dest 3 with
    tag, offset := BitVec.ofNat 32 off, opdata := v.setWidth 96, who := .core st n }
  let s := s.modSteward st fun x => { x with access := Tab.set (fun _ => none) x.access n (some { addr, store, tag }) }
  { s with freeCtr := s.freeCtr + 1 }.emit [k]

/-- Where an access of steward st goes as a packet: endpoint and OFFSET; none for the steward's own die and for what no
packet reaches. The partner's STW_ block lies at its own die's address, and reads as zero while that is held in reset
(R349). -/
def coreRoute (s : State) (st addr : Nat) : Place → Option (Nat × Nat)
  | .croft n o => some (n, 0x0F000000 + o)
  | .parish p _ => if (s.parish p).net then some (0x7200 + p, addr) else none
  | .gate g o => if (s.gate g).lost then none else some (0x7000 + g, if o < 0x40000 then o else addr)
  | .module o =>
    let j := otherSteward st
    if 0x700000 ≤ o then some (0x7300, addr)
    else if Reg.stwId j ≤ o ∧ o < Reg.stwId j + 0x1000 ∧ !(s.steward j).heldReset then
      some (0x7100 + j, 0x16000000 + (o - Reg.stwId j))
    else none
  | .sram _ | .broadcast _ | .stc _ _ | .nowhere => none

/-- A core's store to a register of the set retires as an answered register write does: with its shadow record (R332, R334). -/
def storeToSet (s : State) (st n : Nat) (addr : BitVec 48) : State :=
  let access : CoreAccess := { addr, store := true, tag := s.coreTag n }
  (s.modSteward st fun w => { w with access := Tab.set (fun _ => none) w.access n (some access) }).waitFor
    { num := 0, cores := [(st, n)] }

def coreLoad (s : State) (st n : Nat) (addr : BitVec 48) (bytes : Nat) : State :=
  let x := Place.ofAddr st addr.toNat
  if !s.coreReady st n then s
  else match x with
    | .nowhere => s.coreException st n
    | .sram a => s.coreDone st n (BitVec.ofNat 64 (ofLe (Memory.read (s.steward st).sram a (min 8 bytes))))
    | x =>
      if coreVoid x addr.toNat bytes then s.coreDone st n 0
      else match s.coreRoute st addr.toNat x with
        | some (e, o) => s.coreSend st n addr false e o 0
        | none =>
          let r := s.readPlace x bytes
          r.1.coreDone st n r.2

def coreStore (s : State) (st n : Nat) (addr : BitVec 48) (bytes : Nat) (v : W64) : State :=
  let x := Place.ofAddr st addr.toNat
  if !s.coreReady st n then s
  else match x with
    | .nowhere => s.coreException st n
    | .sram a => s.modSteward st fun w => { w with sram := Memory.write w.sram a (leBytes (min 8 bytes) v.toNat) }
    | x =>
      if coreVoid x addr.toNat bytes then s
      else match s.coreRoute st addr.toNat x with
        | some (e, o) => s.coreSend st n addr true e o v
        | none =>
          s.asOne fun s =>
            let t := s.writePlace x bytes 15 v
            if ofSet x then t.storeToSet st n addr else t

end State

/-! ### The commands -/

/-- A REG_WRITE at its endpoint. -/
def execRegWrite (k : Packet) (s : State) : Host.Outcome State Fault Refusal :=
  s.inTurn k fun s =>
    if k.dest.toNat < 26880 then s.serve k fun x => x.regWritePacket k else (s.take k).regWriteAt k

/-- A REG_READ at its endpoint. -/
def execRegRead (k : Packet) (s : State) : Host.Outcome State Fault Refusal :=
  s.inTurn k fun s =>
    if k.dest.toNat < 26880 then s.serve k fun x => x.regReadPacket k else (s.take k).regReadAt k

def execStewardLoad (st : Stw) (core : Fin 16) (addr : BitVec 48) (bytes : Nat) (s : State) :
    Host.Outcome State Fault Refusal := checked (accessWidth bytes) (s.coreLoad st core addr bytes)

def execStewardStore (st : Stw) (core : Fin 16) (addr : BitVec 48) (bytes : Nat) (v : W64) (s : State) :
    Host.Outcome State Fault Refusal := checked (accessWidth bytes) (s.coreStore st core addr bytes v)

/-- An access without an answer for 50 µs (R332). -/
def execStewardAccessTimeout (st : Stw) (core : Fin 16) (s : State) : Host.Outcome State Fault Refusal :=
  match s.coreAccess st core with
  | none => .next s
  | some a => .next (s.coreFail st core 0xFF a)

def execRegisterWrite (addr : BitVec 48) (bytes : Nat) (v : W64) (s : State) : Host.Outcome State Fault Refusal :=
  checked (accessWidth bytes) (s.asOne fun s => s.registerWrite addr.toNat bytes v)

end Sys2Proof.Machine
end

