-- ==== Sys2Proof/Machine/Service.lean ====
section
/-! DEFINITION. Papione's control service (R340): its requests at the management ports, and checkpoints of a holding's
registers. -/

namespace Sys2Proof.Machine
namespace State

/-! ### Checkpoints (R175, R201, R294) -/

/-- Offsets of GTH_PRED_CTRL_k and GTH_PRED_WIN_k in a croft. -/
def predRegs : List Nat := (List.range 16).flatMap fun k => [Reg.gthPredCtrl k, Reg.gthPredWin k]

/-- The registers of a checkpoint as they stand. -/
def takeCheckpoint (s : State) (h : Nat) : State :=
  let c := s.stc h
  let preds := (s.enrolled h).flatMap fun n => match s.siteOf n with
    | some x => predRegs.map fun o => (n, o, x.reg o)
    | none => []
  let k : Checkpoint := { lsState := c.reg Reg.stcLsState, fill := c.field Reg.stcHist 4 0, step := c.reg Reg.stcStep
                          pos := c.reg Reg.stcSchedPos, rewarm := c.reg Reg.stcSchedRewarm, preds }
  { s with sec := { s.sec with saved := Tab.set (fun _ => none) s.sec.saved h (some k) } }

/-- Every register of the holding's last checkpoint written again, each as a register write of it acts. -/
def restoreCheckpoint (s : State) (h : Nat) : State :=
  match Tab.get (fun _ => none) s.sec.saved h with
  | none => s
  | some (k : Checkpoint) =>
    let put (s : State) (e : Nat × W64) : State := s.writeStc h e.1 4 e.2
    let s := [(Reg.stcStep, k.step), (Reg.stcLsState, k.lsState), (Reg.stcHist, BitVec.ofNat 64 k.fill),
      (Reg.stcSchedPos, k.pos), (Reg.stcSchedRewarm, k.rewarm)].foldl put s
    k.preds.foldl (fun s e => s.writeCroft e.1 e.2.1 4 e.2.2) s

/-! ### Requests (R340) -/

def answerControl (s : State) (a : ControlAnswer) : State := { s with sec := { s.sec with control := s.sec.control ++ [a] } }

/-- The registers of a holding's map are written, in its order, each as a register write of its own width acts; a croft of
another holding is left alone (log 25). What the map places in memory is sown or moved by other commands. -/
def loadMap (s : State) (h : Nat) (writes : List (BitVec 48 × W64)) : State :=
  writes.foldl (fun s w =>
    let x := Place.ofAddr (s.active.getD 0) w.1.toNat
    let mine : Bool := match x with
      | .croft n _ => s.owner (parOfLogical n) == h
      | _ => true
    if mine then s.registerWrite w.1.toNat (placeWidth x) w.2 else s) s

/-- The ACTIVE steward carries a request out. Checkpoints and what a run needs besides RUN are software's work over the
module's registers (log 25). -/
def serveControl (s : State) (r : ControlRequest) : State :=
  match r with
  | .status => s.answerControl (.status s.holdingStates)
  | .readFaults => s.answerControl (.records s.openRecords)
  | .createHolding h => (s.createHolding h).answerControl .done
  | .resetHolding h => (s.resetHolding h).answerControl .done
  | .destroyHolding h => (s.destroyHolding h).answerControl .done
  | .setAllotment h res power => ((s.writeAltRes h res).writeAltPower h power).answerControl .done
  | .startRun h => if s.sec.stage = 8 then (s.writeRun h true s.moduleHalted).answerControl .done else s.answerControl .notReady
  | .stopRun h => (s.writeRun h false false).answerControl .done
  | .takeCheckpoint h => (s.takeCheckpoint h).answerControl .done
  | .restoreCheckpoint h => (s.restoreCheckpoint h).answerControl .done
  | .loadMap h writes => (s.loadMap h writes).answerControl .done

end State

/-! ### The command -/

/-- A request at a steward's management port. -/
def execControlServiceRequest (st : Stw) (r : ControlRequest) (s : State) : Host.Outcome State Fault Refusal :=
  let v := s.steward st
  if !s.mgmtPin st || s.sec.stage < 5 then .next s
  else match v.role with
    | .active => .next (s.asOne fun s => s.serveControl r)
    | .standby =>
      match r with
      | .status => .next (s.answerControl (.status s.holdingStates))
      | _ => .next (s.answerControl (.refusedNaming (s.active.getD 2)))
    | _ => .next s

end Sys2Proof.Machine
end

