-- ==== Sys2Proof/Machine/Spdm.lean ====
section
/-! DEFINITION. Attestation (R366, R367): the SPDM requests at a steward's management port. -/

namespace Sys2Proof.Machine
namespace State

/-- A steward answers SPDM requests for itself while its management port is up (R20). -/
def spdmUp (s : State) (i : Nat) : Bool := s.mgmtPin i && (s.steward i).role != .lost

def spdm (s : State) (i : Nat) (a : SpdmAnswer) : State :=
  if s.spdmUp i then
    s.modSec fun c => { c with spdm := c.spdm ++ [(i, a)] }
  else s

def dieIdentity (s : State) (i : Nat) : Identity := if i = 0 then s.sec.identity0 else s.sec.identity1

/-- The certificate chain of slot 0: vendor root, DeviceID, Alias0, Alias1, in the chain format of SPDM (log 27). -/
def certChain (d : Identity) : List Byte :=
  let certs := d.chain.flatten
  leBytes 2 (52 + certs.length) ++ [0, 0] ++ sha384 (d.chain.headD []) ++ certs

/-- The seed of the Alias1 key pair, which signs responses. -/
def aliasSeed (d : Identity) : List Byte := hmac384 d.cdi1 (ascii [0x41, 0x4C, 0x49, 0x41, 0x53])

/-- A signature of Alias1, where an answer leaves; its randomness is free (log 3). -/
def signed (s : State) (i : Nat) (transcript : List Byte) : List Byte × State :=
  (Config.signature (aliasSeed (s.dieIdentity i)) transcript s.freeCtr,
    if s.spdmUp i then { s with freeCtr := s.freeCtr + 1 } else s)

end State

/-! ### The commands -/

/-- SPDM 1.3. -/
def execGetVersion (st : Stw) (s : State) : Host.Outcome State Fault Refusal := .next (s.spdm st (.version [(1, 3)]))

/-- Certificates, challenges and signed measurements; sessions, pre-shared keys, mutual authentication and certificate
provisioning are not supported. -/
def execGetCapabilities (st : Stw) (s : State) : Host.Outcome State Fault Refusal :=
  .next (s.spdm st (.capabilities true true true))

/-- P-384 and SHA-384. -/
def execNegotiateAlgorithms (st : Stw) (s : State) : Host.Outcome State Fault Refusal :=
  .next (s.spdm st (.algorithms .ecdsaP384 .sha384))

def execGetDigests (st : Stw) (s : State) : Host.Outcome State Fault Refusal :=
  .next (s.spdm st (.digests (sha384 (State.certChain (s.dieIdentity st)))))

/-- The asked portion of the chain of slot 0; no other slot holds one. -/
def execGetCertificate (st : Stw) (slot : Nat) (off len : Nat) (s : State) : Host.Outcome State Fault Refusal :=
  if slot = 0 then .next (s.spdm st (.certificate (((State.certChain (s.dieIdentity st)).drop off).take len)))
  else .next (s.spdm st .invalid)

def execChallenge (st : Stw) (slot : Nat) (nonce : List Byte) (s : State) : Host.Outcome State Fault Refusal :=
  if slot = 0 then
    let r := s.signed st nonce
    .next (r.2.spdm st (.challenge (sha384 (State.certChain (s.dieIdentity st))) r.1))
  else .next (s.spdm st .invalid)

/-- One block of R367, every block, or their number. -/
def execGetMeasurements (st : Stw) (index : Nat) (s : State) : Host.Outcome State Fault Refusal :=
  let blocks := ((s.dieIdentity st).blocks.zipIdx 1).map fun e => (e.2, e.1)
  if index = 0 then .next (s.spdm st (.blockCount blocks.length))
  else
    let asked := if index = 0xFF then blocks else blocks.filter fun e => e.1 = index
    if asked.isEmpty then .next (s.spdm st .invalid)
    else
      let r := s.signed st (asked.flatMap fun e => e.2)
      .next (r.2.spdm st (.measurements asked r.1))

/-- Every other request. -/
def execUnsupportedRequest (st : Stw) (_code : Byte) (s : State) : Host.Outcome State Fault Refusal :=
  .next (s.spdm st .unsupported)

end Sys2Proof.Machine
end

