-- ==== Sys2Proof/Machine/Vector.lean ====
section
/-! DEFINITION. The vector engine (chapter 09): streams and descriptor sets, element programs, reductions, and the flat
and TILE outputs. One command is one beat of a word. -/

namespace Sys2Proof.Machine

/-! ### Lanes (R203, R214) -/

namespace VLane
def val (l : VLane) : FV := if l.wide then f64 l.bits else f32 (l.bits.setWidth 32)
def fmt (wide : Bool) : Fl := if wide then fp64 else fp32
/-- A 32-bit lane. -/
def of32 (w : W32) : VLane := ⟨false, w.setWidth 64⟩

/-- A source in the width of an instruction: widened exactly, or narrowed by RNE, with whether a finite value became
Inf (R214). -/
def at_ (l : VLane) (wide : Bool) : W64 × Bool :=
  if l.wide = wide then (l.bits, false)
  else let e := (fmt wide).encode l.val; (BitVec.ofNat 64 e.1, e.2)
end VLane

/-! ### Instructions (R210 to R214) -/

structure Ins where
  opc  : Nat
  dst  : Nat
  a    : Nat
  b    : Nat
  c    : Nat
  p64  : Bool
  negA : Bool
  negB : Bool
  mode : Nat
deriving DecidableEq, Repr

namespace Ins

def decode (w : W32) : Ins :=
  let v := w.toNat
  { opc := bitsOf v 31 26, dst := bitsOf v 25 23, a := bitsOf v 22 17, b := bitsOf v 16 11, c := bitsOf v 10 5
    p64 := bitsOf v 4 4 = 1, negA := bitsOf v 3 3 = 1, negB := bitsOf v 2 2 = 1, mode := bitsOf v 1 0 }

/-- The operand codes that the opcode uses. -/
def operands (i : Ins) : List Nat :=
  match i.opc with
  | 0x01 | 0x08 | 0x09 | 0x0A | 0x0B | 0x14 | 0x15 => [i.a]
  | 0x02 | 0x03 | 0x05 | 0x06 | 0x0C | 0x0D => [i.a, i.b]
  | 0x04 | 0x07 => [i.a, i.b, i.c]
  | _ => []

def known (i : Ins) : Bool := i.opc ≤ 0x0D || i.opc == 0x14 || i.opc == 0x15
/-- The opcode writes a temporary. -/
def writes (i : Ins) : Bool := 1 ≤ i.opc && i.opc ≤ 0x0D
/-- Residue-checked: ADD, MUL, FMA (R221). -/
def residueChecked (i : Ins) : Bool := 2 ≤ i.opc && i.opc ≤ 4

/-- An illegal instruction on its own; ds are the word's descriptors. -/
def illegal (i : Ins) (ds : List W64) : Bool :=
  !i.known || i.operands.any (54 ≤ ·) || (i.p64 && 0x08 ≤ i.opc && i.opc ≤ 0x0B) ||
    (i.mode != 0 && i.opc != 7 && !(i.opc == 4 && i.mode == 1)) ||
    (i.opc == 0x15 && Site.descEn (ds.getD i.dst 0) && !Site.descOut (ds.getD i.dst 0))

/-- Lane cycles of an instruction (R212). -/
def cost (i : Ins) : Nat :=
  if i.opc = 0x00 ∨ i.opc = 0x14 ∨ i.opc = 0x15 then 0
  else if 0x08 ≤ i.opc ∧ i.opc ≤ 0x0B then 2
  else if i.p64 then 4 else 1

end Ins

/-- The program up to its END, or the number of the instruction that makes it illegal (R214). -/
def checkProgram (ds : List W64) : List W32 → Nat → List Nat → Nat → List Ins → Nat ⊕ List Ins
  | [], _, _, _, _ => .inl 31
  | w :: ws, n, wide, reds, acc =>
    let i := Ins.decode w
    let reds := if i.opc = 0x14 then reds + 1 else reds
    let wideRead := i.writes && !i.p64 && i.operands.any fun k => wide.contains k
    if i.illegal ds || 1 < reds || wideRead then .inl n
    else if i.opc = 0 then .inr acc
    else
      let wide := if !i.writes then wide else if i.p64 then i.dst :: wide else wide.filter (· ≠ i.dst)
      checkProgram ds ws (n + 1) wide reds (acc ++ [i])

/-- Smaller or larger of two values in a width; −0 below +0 (R212). -/
def minMax (wide larger : Bool) (a b : W64) : W64 :=
  let F := VLane.fmt wide
  let x := F.decode a.toNat
  let y := F.decode b.toNat
  if x.isNan || y.isNan then BitVec.ofNat 64 F.nanCode
  else
    let aBelow := x.lt y || (x.eqv y && x.sign && !y.sign)
    if larger then (if aBelow then b else a) else if aBelow then a else if y.lt x || (y.sign && !x.sign) then b else a

/-- A cond B of CSEL. -/
def cond (mode : Nat) (x y : FV) : Bool :=
  match mode with
  | 0 => x.lt y
  | 1 => x.le y
  | 2 => x.eqv y
  | _ => !x.eqv y

/-- What one element's program has done. -/
structure Elem where
  temps : List VLane := List.replicate 8 {}
  outs  : List (Nat × VLane) := []
  red   : Option VLane := none
  infs  : Nat := 0
deriving DecidableEq, Repr

/-- The result of an instruction from its operands in its width. -/
def alu (i : Ins) (xs : List W64) : W64 :=
  let F := VLane.fmt i.p64
  let raw (k : Nat) : W64 := xs.getD k 0
  let v (k : Nat) : FV := F.decode (raw k).toNat
  let enc (x : FV) : W64 := BitVec.ofNat 64 (F.encode x).1
  match i.opc with
  | 0x01 => if (v 0).isNan then BitVec.ofNat 64 F.nanCode else raw 0
  | 0x02 => enc ((v 0).add (v 1))
  | 0x03 => enc ((v 0).mul (v 1))
  | 0x04 => enc (FV.fma (v 0) (v 1) (v 2))
  | 0x05 => minMax i.p64 false (raw 0) (raw 1)
  | 0x06 => minMax i.p64 true (raw 0) (raw 1)
  | 0x07 => if (v 2).isNan then BitVec.ofNat 64 F.nanCode else raw 2
  | 0x08 => enc (exp2 (v 0))
  | 0x09 => enc (log2 (v 0))
  | 0x0A => enc (rcp (v 0))
  | 0x0B => enc (rsqrt (v 0))
  | 0x0C => raw 0 &&& raw 1
  | _ => raw 0 ||| raw 1

/-- One instruction of one element; src reads an operand code. -/
def insStep (src : List VLane → Nat → VLane) (st : Elem) (i : Ins) : Elem :=
  let signBit : W64 := if i.p64 then 0x8000000000000000 else 0x80000000
  let neg (k : Nat) : Bool := (k == 0 && i.negA) || (k == 1 && i.negB) || (k == 2 && i.opc == 4 && i.mode == 1)
  if i.opc = 0x14 ∨ i.opc = 0x15 then
    let l := src st.temps i.a
    let l := if i.negA then { l with bits := l.bits ^^^ (if l.wide then 0x8000000000000000 else 0x80000000) } else l
    if i.opc = 0x14 then { st with red := some l } else { st with outs := st.outs ++ [(i.dst, l)] }
  else
    let reads := i.operands.mapIdx fun k o =>
      let r := (src st.temps o).at_ i.p64
      (if neg k then r.1 ^^^ signBit else r.1, r.2)
    let infs := (reads.filter (·.2)).length
    let xs := reads.map (·.1)
    let F := VLane.fmt i.p64
    let take := i.opc != 7 || cond i.mode (F.decode (xs.getD 0 0).toNat) (F.decode (xs.getD 1 0).toNat)
    let r := alu i xs
    let made := i.opc != 1 && i.opc != 7 && (F.decode r.toNat).isInf && xs.all fun x => (F.decode x.toNat).isFinite
    let old := st.temps.getD i.dst {}
    -- what a CSEL without its condition writes: the old DST, in the width of the instruction
    let kept : W64 := if i.p64 then (old.at_ true).1 else (old.bits.setWidth 32).setWidth 64
    { st with
      temps := st.temps.set i.dst ⟨i.p64, if take then r else kept⟩
      infs := st.infs + infs + b2n (take && made) }

namespace Site

/-! ### Fields of a VECTOR word (R215) -/

def vecThresh (q : QWord) : Option Nat := if wfield q.word 70 70 = 1 then some (wfield q.word 68 61) else none
def vecTag (q : QWord) (k : Nat) : Nat := wfield q.word 31 16 + k + hAdd q (wfield q.word 53 53) (wfield q.word 56 55)
def vecRed (q : QWord) : Nat := wfield q.word 79 78
def vecRedSlot (q : QWord) : Nat := wfield q.word 77 74
def tileFmt (d : W64) : Nat := fld d 53 50
/-- A stream of one element for the whole word. -/
def isScalar (d : W64) : Bool := !descUnit d && fld d 31 16 == 0 && descFmt d != 5

/-! ### Checks at the start (R206 to R208, R215) -/

/-- Streams that a program reads and writes. -/
def streamsRead (p : List Ins) : List Nat :=
  ((p.flatMap Ins.operands).filter fun k => 8 ≤ k && k < 16).map (· - 8)
def streamsWritten (p : List Ins) : List Nat := (p.filter fun i => i.opc = 0x15).map (·.dst)

/-- A stream of the word breaks R206 to R208 by its descriptor alone. -/
def streamBad (q : QWord) (d : W64) (wr : Bool) : Bool :=
  let f := descFmt d
  !descEn d || descOut d != wr || bit d 60 || fld d 49 48 != 0 || descRegion d == 3 || 5 < f ||
    (wr && !descUnit d) || (f == 5 && vecCount q % 64 != 0) || (descRegion d == 2 && f != 0)

/-- The first stream at fault, where the word's streams break R206 or R208. -/
def streamsBad (q : QWord) (ds : List W64) (p : List Ins) : Option Nat :=
  let ins := (streamsRead p).eraseDups
  let outs := (streamsWritten p).eraseDups
  let tiles := outs.filter fun s => descFmt (ds.getD s 0) == 5
  match ins.find? fun s => streamBad q (ds.getD s 0) false with
  | some s => some s
  | none => match outs.find? fun s => streamBad q (ds.getD s 0) true with
    | some s => some s
    | none => if 6 < ins.length then ins[6]? else if 3 < outs.length then outs[3]? else if 1 < tiles.length then tiles[1]? else none

/-- The TILE output, and whether it breaks R215. -/
def tileOutput (ds : List W64) (p : List Ins) : Option Nat :=
  (streamsWritten p).find? fun s => descFmt (ds.getD s 0) == 5

def tileOutBad (q : QWord) (ds : List W64) (tscale : W32) (p : List Ins) : Option Nat :=
  match tileOutput ds p with
  | none => none
  | some s =>
    let f := tileFmt (ds.getD s 0)
    if 12 < f || (wfield q.word 70 70 == 1 && 1 < f) || (f == 1 && !scaleOk tscale) then some s else none

/-! ### Reading streams -/

/-- A read of a stream: its lanes, or a fault raised, after which the word ends. -/
structure StreamRead where
  x     : Site
  stop  : Bool := false
  lanes : List VLane := []

/-- The lane of an element's bytes (R208), and the element's width. -/
def laneOf (f n : Nat) : VLane :=
  match f with
  | 0 => .of32 (BitVec.ofNat 32 n)
  | 1 => .of32 (toF32 (bf16.decode n))
  | 2 => ⟨true, BitVec.ofNat 64 n⟩
  | 3 => .of32 (BitVec.ofNat 32 (n * 2 ^ 16))
  | _ => .of32 (BitVec.ofNat 32 n)

/-- A run of codewords read through their correction. -/
def checkList (x : Site) (cws : List Nat) (opc : W16) : Site × Bool :=
  cws.foldl (fun s cw => let c := s.1.check cw opc none; (c.1, s.2 || c.2)) (x, false)

/-- Elements e to e + n − 1 of a flat stream s. -/
def readFlat (x : Site) (q : QWord) (s : Nat) (d : W64) (e n beat : Nat) : StreamRead :=
  let w := descWidth d
  let as := (List.range n).map fun i => elemAddr q d (e + i)
  if as.any fun a => regionTop (descRegion d) < a + w then { x := x.vecFaulted 35 q s 0 beat, stop := true }
  else
    let c := x.checkList ((as.map (· / 32)).eraseDups) (wordOpcode q.word)
    if c.2 then { x := c.1.seqHalt, stop := true }
    else { x := c.1, lanes := as.map fun a => laneOf (descFmt d) (ofLe (Memory.read x.c.mem a w)) }

/-- The bytes of a tile line end here. -/
def lineEnd (t : Tile) (l : Nat) : Nat :=
  if t.layout = 0 then (if t.resid then t.base + t.stored else t.elements + (l + 1) * lineBytes t.fmt) else t.base + t.stored

/-- The next line of a TILE input, as FP32 lanes; a value beyond FP32 range becomes ±Inf and is counted (R208). -/
def readTileLine (x : Site) (q : QWord) (s : Nat) (d : W64) (c : Cursor) (beat : Nat) : StreamRead × Cursor :=
  let top := regionTop (descRegion d)
  let stop (x : Site) : StreamRead × Cursor := ({ x, stop := true }, c)
  let opening : Bool := match c.tile with
    | some t => t.lines ≤ c.line
    | none => true
  if opening && top < c.addr + 8 then stop (x.vecFaulted 35 q s 0 beat)
  else
    let h : W64 := BitVec.ofNat 64 (ofLe (Memory.read x.c.mem c.addr 8))
    let t : Tile := match opening, c.tile with
      | false, some t => t
      | _, _ => Tile.ofHeader c.addr h
    let l := if opening then 0 else c.line
    if (!opening || (t.headerErr h).isNone) && top < lineEnd t l then stop (x.vecFaulted 35 q s 0 beat)
    else
      let r := x.nextLine c (wordOpcode q.word) (·.layout != 2)
      match r.err with
      | some .foreign => stop (r.x.vecFaulted 34 q s 0 beat)
      | some e => stop (r.x.tileFault e q (fun x => x.vecFaulted 36 q s 0 beat) 0 r.val.1.line r.val.2.1.base)
      | none =>
        let es := r.val.2.2.map fun v => fp32.encode v
        let y := r.x.vecEvents { inf := (es.filter (·.2)).length }
        ({ x := y, lanes := es.map fun e => .of32 (BitVec.ofNat 32 e.1) }, r.val.1)

/-- n lines of a TILE input. -/
def readTileLines (x : Site) (q : QWord) (s : Nat) (d : W64) (c : Cursor) (beat : Nat) : Nat → StreamRead × Cursor
  | 0 => ({ x }, c)
  | n + 1 =>
    let r := x.readTileLines q s d c beat n
    if r.1.stop then r
    else
      let l := r.1.x.readTileLine q s d r.2 beat
      ({ l.1 with lanes := r.1.lanes ++ l.1.lanes }, l.2)

/-- The inputs of a beat: lanes by stream, and where the TILE inputs then stand. -/
def readInputs (x : Site) (v : VecRun) (ss : List Nat) (e n : Nat) : Site × Bool × List (Nat × List VLane) × List (Nat × Cursor) :=
  ss.foldl (fun acc s =>
    let d := v.descs.getD s 0
    if acc.2.1 then acc
    else if isScalar d then
      let l := laneOf (descFmt d) (Tab.get (fun _ => (0 : W64)) v.scalars s).toNat
      (acc.1, false, acc.2.2.1 ++ [(s, List.replicate n l)], acc.2.2.2)
    else if descFmt d = 5 then
      let c := ((v.cursors.find? fun c => c.1 == s).getD (s, {})).2
      let r := acc.1.readTileLines v.q s d c v.beat (n / 64)
      (r.1.x, r.1.stop, acc.2.2.1 ++ [(s, r.1.lanes)], acc.2.2.2 ++ [(s, r.2)])
    else
      let r := acc.1.readFlat v.q s d e n v.beat
      (r.x, r.stop, acc.2.2.1 ++ [(s, r.lanes)], acc.2.2.2)) (x, false, [], [])

/-! ### Start (R211, R219, R220) -/

/-- An output commits: its bytes, in whole codewords of good check bits. -/
def commitOut (x : Site) (w : VecWrite) : Site :=
  let y := x.store w.addr w.bytes
  { y with c := { y.c with ecc := Tab.clear x.c.ecc (w.addr / 32) (ceilDiv (w.addr + w.bytes.length) 32) } }

/-- The word's last outputs committed, its reduction slot final, its amax folded, and the word ended (R217, R218). -/
def vectorFinish (x : Site) : Site :=
  match x.c.vector with
  | none => x
  | some v =>
    if 128 * v.beat < vecCount v.q then x
    else
      let x := v.pending.foldl commitOut x
      let x := if vecRed v.q = 0 then x else x.setReg (Reg.vecRed (vecRedSlot v.q)) v.red
      let x := x.foldAmax (Reg.vecAmax (wfield v.q.word 60 57)) v.amax
      { x with c := { x.c with vector := none } }

/-- The streams of one element, read before beat 0. -/
def readScalars (x : Site) (q : QWord) (ds : List W64) (ss : List Nat) : Site × Bool × Tab W64 :=
  ss.foldl (fun acc s =>
    let d := ds.getD s 0
    if acc.2.1 || !isScalar d then acc
    else
      let r := acc.1.readFlat q s d 0 1 0
      let raw : W64 := BitVec.ofNat 64 (ofLe (Memory.read acc.1.c.mem (elemAddr q d 0) (descWidth d)))
      (r.x, r.stop, Tab.set (fun _ => 0) acc.2.2 s raw)) (x, false, [])

/-- A VECTOR word starts: it captures its program, descriptors and scalars, and checks them. -/
def vectorRun (x : Site) (q : QWord) : Site :=
  let p := wfield q.word 107 104
  let ds := x.descSet q
  let words := (List.range 32).map fun i => ((x.reg (Reg.vecProg (32 * p + i))).setWidth 32 : W32)
  let tscale : W32 := (x.reg Reg.vecTscale).setWidth 32
  let x := { x with c := { x.c with vecProg := p } }
  match checkProgram ds words 0 [] 0 [] with
  | .inl i => x.vecFaulted 33 q 0 i 0
  | .inr prog =>
    match streamsBad q ds prog with
    | some s => x.vecFaulted 34 q s 0 0
    | none => match tileOutBad q ds tscale prog with
      | some s => x.vecFaulted 36 q s 0 0
      | none =>
        let sc := x.readScalars q ds (streamsRead prog).eraseDups
        if sc.2.1 then sc.1
        else
          let reds := (List.range 16).map fun k => x.reg (Reg.vecRed k)
          let hasRed := prog.any fun i => i.opc == 0x14
          let v : VecRun :=
            { q, prog := words, descs := ds, tscale, reds, scalars := sc.2.2
              consts := (List.range 16).map fun k => ((x.reg (Reg.vecConst k)).setWidth 32 : W32)
              red := if wfield q.word 73 73 = 1 && hasRed then reds.getD (vecRedSlot q) 0 else 0
              cursors := ((List.range 8).filter fun s => descFmt (ds.getD s 0) == 5).map fun s =>
                (s, { addr := descBase q (ds.getD s 0) })
              outTile := match tileOutput ds prog with
                | some s => descBase q (ds.getD s 0)
                | none => 0 }
          { sc.1 with c := { sc.1.c with vector := some v } }

def vectorStart (x : Site) : Site :=
  match x.c.vecQ with
  | [] => x
  | q :: rest =>
    let x := x.vectorFinish
    if x.c.vector.isSome then x
    else if x.held q.num (vecReach q (x.descSet q) 0) then x.stalls
    else { x with c := { x.c with vecQ := rest } }.vectorRun q

/-! ### Reductions (R218) -/

def add64 (a b : W64) : W64 := toF64 ((f64 a).add (f64 b))

/-- Neighbouring lanes added. -/
def addPairs : List W64 → List W64
  | a :: b :: t => add64 a b :: addPairs t
  | l => l

/-- The value that a lane sends to the reduction unit, in FP64. -/
def redValue (kind : Nat) (l : VLane) : W64 :=
  let v := l.val
  if kind = 2 then toF64 (v.mul v) else toF64 v

/-- A beat's values combined into the slot. -/
def reduce (kind : Nat) (slot : W64) (ls : List VLane) : W64 :=
  if kind = 3 then
    ls.foldl (fun s l =>
      let a := f64 s
      let b := l.val.abs
      if a.isNan || b.isNan then BitVec.ofNat 64 fp64.nanCode else if a.lt b then toF64 b else s) slot
  else
    let vs := ls.map (redValue kind) ++ List.replicate (128 - ls.length) 0
    add64 slot ((iter 7 addPairs vs).headD 0)

/-! ### Outputs (R208, R209, R215 to R217) -/

/-- The bytes of an element in a flat format, with its events. -/
def flatBytes (f : Nat) (l : VLane) (r : Rnd) : List Byte × Events :=
  let v := l.val
  match f with
  | 3 | 4 =>
    let e : Nat × Bool := if l.wide then fp32.encode v r else ((if v.isNan then fp32.nanCode else l.bits.toNat % 2 ^ 32), false)
    (leBytes 2 (if f = 3 then e.1 / 2 ^ 16 else e.1), { inf := b2n e.2, nan := b2n v.isNan })
  | _ =>
    let F := if f = 0 then fp32 else if f = 1 then bf16 else fp64
    let e := F.encode v r
    (leBytes ((F.e + F.m + 1) / 8) e.1, { inf := b2n e.2, nan := b2n v.isNan })

/-- An element's bytes in a flat stream; after the last element that its row receives, the codeword's rest is zero
(R209). -/
def elemBytes (q : QWord) (d : W64) (e : Nat) (bs : List Byte) : List Byte :=
  let stop := elemAddr q d e + bs.length
  let pad := if e = rowLast d e (vecCount q) then ceilDiv stop 32 * 32 - stop else 0
  bs ++ List.replicate pad 0

/-- The elements of a beat for a flat output s: their writes, which commit 24 cycles after the beat's entry (R219), and
their events. -/
def flatWrites (x : Site) (v : VecRun) (s e : Nat) (ls : List VLane) : List VecWrite × Events :=
  let d := v.descs.getD s 0
  let key := drawKey x.seed (x.num Reg.crfStep) (x.n.getD 0) (vecTag v.q s)
  (ls.zipIdx).foldl (fun acc p =>
    let b := flatBytes (descFmt d) p.1 (rndOf (wfield v.q.word 72 72 = 1) key (e + p.2))
    let w : VecWrite := { due := v.cycle + 24, addr := elemAddr v.q d (e + p.2), bytes := elemBytes v.q d (e + p.2) b.1 }
    (acc.1 ++ [w], acc.2.plus b.2)) ([], {})

/-- The outputs that have committed by a cycle. -/
def commitDue (x : Site) (v : VecRun) : Site × VecRun :=
  ((v.pending.filter fun w => w.due ≤ v.cycle).foldl commitOut x,
   { v with pending := v.pending.filter fun w => v.cycle < w.due })

/-- The lines that the elements from e on make of a TILE output. -/
def linesOf (x : Site) (v : VecRun) (s : Nat) (vals : List FV) (e : Nat) : List OutLine :=
  let d := v.descs.getD s 0
  let q := v.q
  let key := drawKey x.seed (x.num Reg.crfStep) (x.n.getD 0) (vecTag q s)
  (List.range (vals.length / 64)).map fun i =>
    convertLine (tileFmt d) (wfield q.word 71 71 = 1) (f32 v.tscale) (vecThresh q) ((vals.drop (64 * i)).take 64)
      fun k => rndOf (wfield q.word 72 72 = 1) key (e + 64 * i + k)

/-- The tile that the lines of a TILE output go into, as its header will have it: of 64 lines, or of those that the word
has left. -/
def tileBegun (v : VecRun) (s e : Nat) : Tile :=
  { base := v.outTile, fmt := tileFmt (v.descs.getD s 0)
    lines := min 64 (v.outLines.length + ceilDiv (vecCount v.q - e) 64) }

/-- The bytes of a residual section. -/
def residSize (ls : List OutLine) (f : Nat) : Nat :=
  let rs := ls.flatMap fun l => l.resids
  let n := (rs.filter Option.isSome).length
  if n = 0 then 0 else ceilDiv rs.length 8 + n * (1 + fmtWidth f * blockLen f / 8)

/-- What a beat does to the word's TILE output. -/
structure TileStep where
  /-- Events and amax of the beat's lines. -/
  ev    : Events := {}
  /-- The lines so far of the tile that goes on, and where it lies. -/
  lines : List OutLine := []
  at_   : Nat := 0
  /-- Its writes, and the first byte after the last of them. -/
  outs  : List VecWrite := []
  top   : Nat := 0
  /-- Cycles that a completed tile adds. -/
  extra : Nat := 0

/-- The TILE output s over the elements of a beat (R215 to R219): each line's element bytes, and, with the tile's last
line, its header, scales and residual section. -/
def tileStep (x : Site) (v : VecRun) (s e : Nat) (ls : List VLane) : TileStep :=
  let t := tileBegun v s e
  let new := x.linesOf v s (ls.map VLane.val) e
  let all := v.outLines ++ new
  let elems : List VecWrite := new.mapIdx fun i l =>
    { due := v.cycle + 28, addr := t.elements + (v.outLines.length + i) * lineBytes t.fmt
      bytes := packCodes (fmtWidth t.fmt) l.codes }
  let ev := eventsOf new
  if all.length = t.lines then
    let bs := tileBytes t.fmt v.tscale all
    let extra := ceilDiv (residSize all t.fmt) 64
    let due := v.cycle + 28 + extra
    let rest : List VecWrite :=
      [{ due, addr := t.base, bytes := bs.take (t.elements - t.base) },
       { due, addr := t.after, bytes := bs.drop (t.after - t.base) }]
    { ev, at_ := t.base + bs.length, outs := elems ++ rest, top := t.base + bs.length, extra }
  else
    { ev, lines := all, at_ := t.base, outs := elems, top := t.elements + all.length * lineBytes t.fmt }

/-! ### One element -/

/-- Operand code k of element i of a beat. -/
def source (v : VecRun) (ins : List (Nat × List VLane)) (i : Nat) (ts : List VLane) (k : Nat) : VLane :=
  if k < 8 then ts.getD k {}
  else if k < 16 then (((ins.find? fun p => p.1 == k - 8).getD (0, [])).2).getD i {}
  else if k < 32 then .of32 (v.consts.getD (k - 16) 0)
  else if k < 36 then .of32 (v.q.hs.getD (k - 32) 0)
  else if k < 52 then ⟨true, v.reds.getD (k - 36) 0⟩
  else if k = 52 then {}
  else .of32 0x3F800000

/-- The armed mismatch takes the first checked operation of the beat (R222): an instruction, or a reduction add. -/
def residue (x : Site) (v : VecRun) (prog : List Ins) : Site :=
  let adds := (vecRed v.q == 1 || vecRed v.q == 2) && prog.any fun i => i.opc == 0x14
  let at' : Option Nat := match prog.findIdx? Ins.residueChecked with
    | some i => some i
    | none => if adds then some 31 else none
  match x.c.injectRes, at' with
  | true, some i =>
    let x := { x with c := { x.c with injectRes := false } }
    let x := x.vecLog 0 0 i v.beat
    x.raise 32 (wordOpcode v.q.word) (x.reg Reg.vecFaultLog)
  | _, _ => x

/-- The room of the tile that a word has begun and not completed. -/
def openRoom (v : VecRun) : Nat :=
  match checkProgram v.descs v.prog 0 [] 0 [] with
  | .inl _ => 0
  | .inr prog =>
    match tileOutput v.descs prog with
    | none => 0
    | some s =>
      let t := tileBegun v s (128 * v.beat)
      tileRoom t.fmt t.lines (vecThresh v.q).isSome

/-- The word ends at a fault: the outputs of its finished beats stand, its slots stay as they were, and the bytes of a
tile that it has begun are undefined (R424). -/
def vectorStop (x : Site) : Site :=
  let x := match x.c.vector with
    | some v =>
      let x := v.pending.foldl commitOut x
      if v.outLines.isEmpty then x else x.leaveOpen v.outTile (openRoom v)
    | none => x
  { x with c := { x.c with vector := none } }

/-- A flat output of the beat leaves its region. -/
def outLeaves (v : VecRun) (outs : List Nat) (e n : Nat) : Option Nat :=
  outs.find? fun s =>
    let d := v.descs.getD s 0
    descFmt d != 5 && (List.range n).any fun i => decide (regionTop (descRegion d) < elemAddr v.q d (e + i) + descWidth d)

/-! ### The cycles of a beat (R219) -/

/-- A program's lane cost LC. -/
def laneCost (prog : List Ins) : Nat := max 1 (prog.map Ins.cost).sum

/-- Where the elements that stream s moves in a beat lie, with the bytes that each counts: a TILE stream its two lines, a
stream of single elements one where a row begins in the beat, a scalar none. -/
def beatBytes (v : VecRun) (s e n : Nat) : List (Nat × Nat) :=
  let d := v.descs.getD s 0
  if isScalar d then []
  else if descFmt d = 5 then
    if descOut d then [(v.outTile, 2 * (lineBlocks (tileFmt d) + lineBytes (tileFmt d)))]
    else
      let c := ((v.cursors.find? fun c => c.1 == s).getD (s, {})).2
      let t := c.tile.getD {}
      [(t.base, 2 * (lineBlocks t.fmt + lineBytes t.fmt))]
  else if descUnit d then (List.range n).map fun i => (elemAddr v.q d (e + i), descWidth d)
  else ((List.range n).filterMap fun i =>
    if (e + i) % descInner d = 0 then some (elemAddr v.q d (e + i), descWidth d) else none).take 1

/-- The bytes moved within a range of offsets. -/
def bytesIn (lo hi : Nat) (ms : List (Nat × Nat)) : Nat := ((ms.filter fun m => lo ≤ m.1 ∧ m.1 < hi).map (·.2)).sum

/-- CB of a beat, from its program and what its streams read and write. -/
def beatCycles (prog : List Ins) (rd wr : List (Nat × Nat)) : Nat :=
  let both := rd ++ wr
  let buffer (k : Nat) : Nat :=
    let lo := 0x02000000 + 0x4000 * k
    max (ceilDiv (bytesIn lo (lo + 0x4000) rd) 512) (ceilDiv (bytesIn lo (lo + 0x4000) wr) 512)
  [ceilDiv (bytesIn 0 0x200000 both) 256, buffer 0, buffer 1, buffer 2, buffer 3,
    ceilDiv (bytesIn 0x01000000 0x01020000 both) 256].foldl max (laneCost prog)

/-! ### Beats -/

/-- The lanes that output stream s takes from the elements of a beat. -/
def outLanes (els : List Elem) (s : Nat) : List VLane :=
  els.map fun el => ((el.outs.reverse.find? fun o => o.1 == s).getD (s, {})).2

/-- A beat with its inputs read and its elements computed: its events and residue checks, its outputs on their way, its
reduction inputs, and its TILE output. -/
def beatDone (x : Site) (v : VecRun) (prog : List Ins) (els : List Elem) (cursors : List (Nat × Cursor))
    (t : Option TileStep) : Site :=
  let e := 128 * v.beat
  let n := els.length
  let outs := (streamsWritten prog).eraseDups
  let x := (x.vecEvents { inf := (els.map (·.infs)).sum }).residue v prog
  let flat := (outs.filter fun s => descFmt (v.descs.getD s 0) != 5).map fun s => x.flatWrites v s e (outLanes els s)
  let x := flat.foldl (fun x w => x.vecEvents w.2) x
  let reds := els.filterMap (·.red)
  let red := if vecRed v.q = 0 || reds.isEmpty then v.red else reduce (vecRed v.q) v.red reds
  let v := { v with cursors := v.cursors.map fun c => (cursors.find? fun d => d.1 == c.1).getD c }
  let ins := ((streamsRead prog).eraseDups).flatMap fun s => beatBytes v s e n
  let cb := beatCycles prog ins (outs.flatMap fun s => beatBytes v s e n)
  let v : VecRun := { v with beat := v.beat + 1, red, pending := v.pending ++ flat.flatMap (·.1) }
  let (x, v) : Site × VecRun := match t with
    | some t =>
      (x.vecEvents t.ev, { v with
        outLines := t.lines, outTile := t.at_, amax := toF32 ((f32 v.amax).maxOf t.ev.amax)
        pending := v.pending ++ t.outs, cycle := v.cycle + cb + t.extra })
    | none => (x, { v with cycle := v.cycle + cb })
  { x with c := { x.c with vector := some v } }

/-- One beat: what has committed by its entry is read, and its program run on each element. -/
def beat (x : Site) : Site :=
  match x.c.vector with
  | none => x
  | some v0 =>
    let e := 128 * v0.beat
    let n := min 128 (vecCount v0.q - e)
    if n = 0 then x
    else match checkProgram v0.descs v0.prog 0 [] 0 [] with
    | .inl _ => x.vectorStop
    | .inr prog =>
      let c := x.commitDue v0
      let v := c.2
      let x := { c.1 with c := { c.1.c with vector := some v } }
      let r := x.readInputs v (streamsRead prog).eraseDups e n
      if r.2.1 then r.1.vectorStop
      else match outLeaves v (streamsWritten prog).eraseDups e n with
      | some s => (r.1.vecFaulted 35 v.q s 0 v.beat).vectorStop
      | none =>
        let els := (List.range n).map fun i => prog.foldl (insStep (source v r.2.2.1 i)) {}
        let t := (tileOutput v.descs prog).map fun s => (s, r.1.tileStep v s e (outLanes els s))
        let leaves : Option Nat := match t with
          | some (s, o) => if regionTop (descRegion (v.descs.getD s 0)) < o.top then some s else none
          | none => none
        match leaves with
        | some s => (r.1.vecFaulted 35 v.q s 0 v.beat).vectorStop
        | none => r.1.beatDone v prog els r.2.2.2 (t.map (·.2))

end Site

/-! ### The commands -/

def execVectorStart (q : Phys) (s : State) : Host.Outcome State Fault Refusal := .next (s.onCroft q Site.vectorStart)
def execBeat (q : Phys) (s : State) : Host.Outcome State Fault Refusal := .next (s.onCroft q Site.beat)
def execVectorEnd (q : Phys) (s : State) : Host.Outcome State Fault Refusal := .next (s.onCroft q Site.vectorFinish)

/-- A write of VEC_CTRL.INJECT = 1 (R222); refused in a fenced croft (R99). -/
def execResidueInject (q : Phys) (s : State) : Host.Outcome State Fault Refusal :=
  .next (s.onCroft q fun x => if x.live then { x with c := { x.c with injectRes := true } } else x)

end Sys2Proof.Machine
end

