-- ==== Sys2Proof/Machine/Dispatch.lean ====
section
/-! DEFINITION. The dispatch of every command to its meaning. -/

namespace Sys2Proof.Machine

def exec (i : Instr) (s : State) : Host.Outcome State Fault Refusal :=
  match i with
  | .busbarWithinLimits => Sys2Proof.Machine.execBusbarWithinLimits s
  | .busbarRemoval => Sys2Proof.Machine.execBusbarRemoval s
  | .supplyTrip k high => Sys2Proof.Machine.execSupplyTrip k high s
  | .modResetNFall => Sys2Proof.Machine.execModResetNFall s
  | .moduleReset => Sys2Proof.Machine.execModuleReset s
  | .modResetNRise => Sys2Proof.Machine.execModResetNRise s
  | .tripLatchClear => Sys2Proof.Machine.execTripLatchClear s
  | .parishTrip p network peak => Sys2Proof.Machine.execParishTrip p network peak s
  | .tripReport p => Sys2Proof.Machine.execTripReport p s
  | .refclkLoss => Sys2Proof.Machine.execRefclkLoss s
  | .refclkReturn => Sys2Proof.Machine.execRefclkReturn s
  | .epochEdge => Sys2Proof.Machine.execEpochEdge s
  | .epochLoss => Sys2Proof.Machine.execEpochLoss s
  | .supplyReading k current voltage => Sys2Proof.Machine.execSupplyReading k current voltage s
  | .coolantReading inlet outlet => Sys2Proof.Machine.execCoolantReading inlet outlet s
  | .sensorReading p s0 s1 s2 s3 computeMv networkMv computeCur networkCur => Sys2Proof.Machine.execSensorReading p s0 s1 s2 s3 computeMv networkMv computeCur networkCur s
  | .twbRead read => Sys2Proof.Machine.execTwbRead read s
  | .tapInstruction j => Sys2Proof.Machine.execTapInstruction j s
  | .cableInsertRemove c cable => Sys2Proof.Machine.execCableInsertRemove c cable s
  | .parMapoutWrite p v => Sys2Proof.Machine.execParMapoutWrite p v s
  | .rowMapSwitch p => Sys2Proof.Machine.execRowMapSwitch p s
  | .computeEnSet p => Sys2Proof.Machine.execComputeEnSet p s
  | .computeEnClear p => Sys2Proof.Machine.execComputeEnClear p s
  | .computeRailUp p => Sys2Proof.Machine.execComputeRailUp p s
  | .pclkTargetWrite p v => Sys2Proof.Machine.execPclkTargetWrite p v s
  | .pclkStep p => Sys2Proof.Machine.execPclkStep p s
  | .nclkLockLoss p => Sys2Proof.Machine.execNclkLockLoss p s
  | .tallyRecord p k => Sys2Proof.Machine.execTallyRecord p k s
  | .tallyCall p step => Sys2Proof.Machine.execTallyCall p step s
  | .tallyTimeout p step => Sys2Proof.Machine.execTallyTimeout p step s
  | .packetInject k => Sys2Proof.Machine.execPacketInject k s
  | .packetHop j err => Sys2Proof.Machine.execPacketHop j err s
  | .escape j => Sys2Proof.Machine.execEscape j s
  | .packetDeliver j err => Sys2Proof.Machine.execPacketDeliver j err s
  | .livenessPulse q plane => Sys2Proof.Machine.execLivenessPulse q plane s
  | .linkDown l => Sys2Proof.Machine.execLinkDown l s
  | .routerDead q plane => Sys2Proof.Machine.execRouterDead q plane s
  | .parishDeadIsolate p => Sys2Proof.Machine.execParishDeadIsolate p s
  | .netTblDataWrite p v => Sys2Proof.Machine.execNetTblDataWrite p v s
  | .netMcastHiWrite p v => Sys2Proof.Machine.execNetMcastHiWrite p v s
  | .tblApplied p => Sys2Proof.Machine.execTblApplied p s
  | .regWrite k => Sys2Proof.Machine.execRegWrite k s
  | .regRead k => Sys2Proof.Machine.execRegRead k s
  | .stewardLoad st core addr bytes => Sys2Proof.Machine.execStewardLoad st core addr bytes s
  | .stewardStore st core addr bytes v => Sys2Proof.Machine.execStewardStore st core addr bytes v s
  | .stewardAccessTimeout st core => Sys2Proof.Machine.execStewardAccessTimeout st core s
  | .write k => Sys2Proof.Machine.execWrite k s
  | .readReq k => Sys2Proof.Machine.execReadReq k s
  | .token k => Sys2Proof.Machine.execToken k s
  | .writeCommit q => Sys2Proof.Machine.execWriteCommit q s
  | .closeComplete q w => Sys2Proof.Machine.execCloseComplete q w s
  | .winCmdOpen q v => Sys2Proof.Machine.execWinCmdOpen q v s
  | .winCmdClose q v => Sys2Proof.Machine.execWinCmdClose q v s
  | .croftReset q => Sys2Proof.Machine.execCroftReset q s
  | .croftResetDone q => Sys2Proof.Machine.execCroftResetDone q s
  | .fenceWrite q fence => Sys2Proof.Machine.execFenceWrite q fence s
  | .seqStart q v => Sys2Proof.Machine.execSeqStart q v s
  | .seqStop q => Sys2Proof.Machine.execSeqStop q s
  | .stopIdle q => Sys2Proof.Machine.execStopIdle q s
  | .crfSeqSlotsWrite q v => Sys2Proof.Machine.execCrfSeqSlotsWrite q v s
  | .crfStepWrite q v => Sys2Proof.Machine.execCrfStepWrite q v s
  | .crfRepairDataWrite q v => Sys2Proof.Machine.execCrfRepairDataWrite q v s
  | .repairDone q => Sys2Proof.Machine.execRepairDone q s
  | .scrub q bank row => Sys2Proof.Machine.execScrub q bank row s
  | .nop q => Sys2Proof.Machine.execNop q s
  | .load q => Sys2Proof.Machine.execLoad q s
  | .stream q => Sys2Proof.Machine.execStream q s
  | .addin q => Sys2Proof.Machine.execAddin q s
  | .drain q => Sys2Proof.Machine.execDrain q s
  | .run q => Sys2Proof.Machine.execRun q s
  | .feed24 q => Sys2Proof.Machine.execFeed24 q s
  | .merge q => Sys2Proof.Machine.execMerge q s
  | .feedMerge q => Sys2Proof.Machine.execFeedMerge q s
  | .select q => Sys2Proof.Machine.execSelect q s
  | .feedList q => Sys2Proof.Machine.execFeedList q s
  | .glean q => Sys2Proof.Machine.execGlean q s
  | .gatherComplete q => Sys2Proof.Machine.execGatherComplete q s
  | .carterWordStart q => Sys2Proof.Machine.execCarterWordStart q s
  | .carterWordAbort q => Sys2Proof.Machine.execCarterWordAbort q s
  | .carterWordDestroy q => Sys2Proof.Machine.execCarterWordDestroy q s
  | .loop q => Sys2Proof.Machine.execLoop q s
  | .endloop q => Sys2Proof.Machine.execEndloop q s
  | .seqWaitQueue q => Sys2Proof.Machine.execSeqWaitQueue q s
  | .seqWaitStep q => Sys2Proof.Machine.execSeqWaitStep q s
  | .waitEnd q => Sys2Proof.Machine.execWaitEnd q s
  | .waitTimeout q => Sys2Proof.Machine.execWaitTimeout q s
  | .post q => Sys2Proof.Machine.execPost q s
  | .remotePost q => Sys2Proof.Machine.execRemotePost q s
  | .windowOpen q => Sys2Proof.Machine.execWindowOpen q s
  | .windowClose q => Sys2Proof.Machine.execWindowClose q s
  | .phase q => Sys2Proof.Machine.execPhase q s
  | .phaseEnd q => Sys2Proof.Machine.execPhaseEnd q s
  | .tally q => Sys2Proof.Machine.execTally q s
  | .halt q => Sys2Proof.Machine.execHalt q s
  | .loadStart q => Sys2Proof.Machine.execLoadStart q s
  | .loadReady q => Sys2Proof.Machine.execLoadReady q s
  | .streamStart q => Sys2Proof.Machine.execStreamStart q s
  | .streamLine q => Sys2Proof.Machine.execStreamLine q s
  | .addinLine q => Sys2Proof.Machine.execAddinLine q s
  | .checksumInject q => Sys2Proof.Machine.execChecksumInject q s
  | .drainStart q => Sys2Proof.Machine.execDrainStart q s
  | .drainRow q => Sys2Proof.Machine.execDrainRow q s
  | .drainEnd q => Sys2Proof.Machine.execDrainEnd q s
  | .vectorStart q => Sys2Proof.Machine.execVectorStart q s
  | .beat q => Sys2Proof.Machine.execBeat q s
  | .vectorEnd q => Sys2Proof.Machine.execVectorEnd q s
  | .residueInject q => Sys2Proof.Machine.execResidueInject q s
  | .carCmdStart q v => Sys2Proof.Machine.execCarCmdStart q v s
  | .carCmdAbort q v => Sys2Proof.Machine.execCarCmdAbort q v s
  | .carCmdDestroy q v => Sys2Proof.Machine.execCarCmdDestroy q v s
  | .move q c => Sys2Proof.Machine.execMove q c s
  | .splitPlanes q c => Sys2Proof.Machine.execSplitPlanes q c s
  | .mergePlanes q c => Sys2Proof.Machine.execMergePlanes q c s
  | .interleave q c => Sys2Proof.Machine.execInterleave q c s
  | .deinterleave q c => Sys2Proof.Machine.execDeinterleave q c s
  | .carterLoop q c => Sys2Proof.Machine.execCarterLoop q c s
  | .carterWaitQueue q c => Sys2Proof.Machine.execCarterWaitQueue q c s
  | .carterWaitEvent q c => Sys2Proof.Machine.execCarterWaitEvent q c s
  | .carterWaitArrival q c => Sys2Proof.Machine.execCarterWaitArrival q c s
  | .carterWaitStep q c => Sys2Proof.Machine.execCarterWaitStep q c s
  | .carterWaitChannel q c => Sys2Proof.Machine.execCarterWaitChannel q c s
  | .carterWaitEnd q c => Sys2Proof.Machine.execCarterWaitEnd q c s
  | .carterWaitTimeout q c => Sys2Proof.Machine.execCarterWaitTimeout q c s
  | .signalQueue q c => Sys2Proof.Machine.execSignalQueue q c s
  | .signalToken q c => Sys2Proof.Machine.execSignalToken q c s
  | .signalFlag q c => Sys2Proof.Machine.execSignalFlag q c s
  | .carterEnd q c => Sys2Proof.Machine.execCarterEnd q c s
  | .writeAck k => Sys2Proof.Machine.execWriteAck k s
  | .readData k => Sys2Proof.Machine.execReadData k s
  | .nack k => Sys2Proof.Machine.execNack k s
  | .regData k => Sys2Proof.Machine.execRegData k s
  | .requestTimeout ch tag => Sys2Proof.Machine.execRequestTimeout ch tag s
  | .retry ch tag => Sys2Proof.Machine.execRetry ch tag s
  | .channelDrainEnd ch => Sys2Proof.Machine.execChannelDrainEnd ch s
  | .runWrite h run => Sys2Proof.Machine.execRunWrite h run s
  | .replay h ask => Sys2Proof.Machine.execReplay h ask s
  | .abandon h => Sys2Proof.Machine.execAbandon h s
  | .restoreHoldWrite h hold => Sys2Proof.Machine.execRestoreHoldWrite h hold s
  | .stcStepWrite h v => Sys2Proof.Machine.execStcStepWrite h v s
  | .opening h => Sys2Proof.Machine.execOpening h s
  | .scaleTokenAck h k => Sys2Proof.Machine.execScaleTokenAck h k s
  | .tallySummary h m => Sys2Proof.Machine.execTallySummary h m s
  | .tallyCallTimer h => Sys2Proof.Machine.execTallyCallTimer h s
  | .stcNormPartHiWrite h v => Sys2Proof.Machine.execStcNormPartHiWrite h v s
  | .norm h m => Sys2Proof.Machine.execNorm h m s
  | .verdictTokenRetry h n => Sys2Proof.Machine.execVerdictTokenRetry h n s
  | .overflowRestart h => Sys2Proof.Machine.execOverflowRestart h s
  | .normTimeout h => Sys2Proof.Machine.execNormTimeout h s
  | .doneReport h r => Sys2Proof.Machine.execDoneReport h r s
  | .go h => Sys2Proof.Machine.execGo h s
  | .fillWrite h v => Sys2Proof.Machine.execFillWrite h v s
  | .restoreCroftsStopped h => Sys2Proof.Machine.execRestoreCroftsStopped h s
  | .restoreContextsFree h => Sys2Proof.Machine.execRestoreContextsFree h s
  | .fingerprint h m => Sys2Proof.Machine.execFingerprint h m s
  | .harvestChunk g port m => Sys2Proof.Machine.execHarvestChunk g port m s
  | .portEnable g port => Sys2Proof.Machine.execPortEnable g port s
  | .portDisable g port => Sys2Proof.Machine.execPortDisable g port s
  | .roleWrite g port v => Sys2Proof.Machine.execRoleWrite g port v s
  | .cableCheck g port => Sys2Proof.Machine.execCableCheck g port s
  | .cableAlarmPoll g port fatal => Sys2Proof.Machine.execCableAlarmPoll g port fatal s
  | .trainSuccess g l loss => Sys2Proof.Machine.execTrainSuccess g l loss s
  | .trainTimeout g l => Sys2Proof.Machine.execTrainTimeout g l s
  | .lock g l => Sys2Proof.Machine.execLock g l s
  | .lockTimeout g l => Sys2Proof.Machine.execLockTimeout g l s
  | .lossOfLock g l => Sys2Proof.Machine.execLossOfLock g l s
  | .caps g l f => Sys2Proof.Machine.execCaps g l f s
  | .data g l f => Sys2Proof.Machine.execData g l f s
  | .idle g l f => Sys2Proof.Machine.execIdle g l f s
  | .ackTimeout g l => Sys2Proof.Machine.execAckTimeout g l s
  | .time g l f => Sys2Proof.Machine.execTime g l f s
  | .timeFrameTimer g port => Sys2Proof.Machine.execTimeFrameTimer g port s
  | .ebsoberReadData g port m => Sys2Proof.Machine.execEbsoberReadData g port m s
  | .writeDone g port m => Sys2Proof.Machine.execWriteDone g port m s
  | .shardData g port m => Sys2Proof.Machine.execShardData g port m s
  | .shardDone g port m => Sys2Proof.Machine.execShardDone g port m s
  | .error g port m => Sys2Proof.Machine.execError g port m s
  | .permuteData g port m => Sys2Proof.Machine.execPermuteData g port m s
  | .permuteAck g port m => Sys2Proof.Machine.execPermuteAck g port m s
  | .gatChStart g c holding => Sys2Proof.Machine.execGatChStart g c holding s
  | .gatChAbort g c gen => Sys2Proof.Machine.execGatChAbort g c gen s
  | .gatChDestroy g c gen => Sys2Proof.Machine.execGatChDestroy g c gen s
  | .storeTimeout g tag => Sys2Proof.Machine.execStoreTimeout g tag s
  | .mergeWaitExpiry g => Sys2Proof.Machine.execMergeWaitExpiry g s
  | .gateLost g => Sys2Proof.Machine.execGateLost g s
  | .heartbeat st => Sys2Proof.Machine.execHeartbeat st s
  | .heartbeatTimeout st => Sys2Proof.Machine.execHeartbeatTimeout st s
  | .kick st => Sys2Proof.Machine.execKick st s
  | .watchdogExpiry st => Sys2Proof.Machine.execWatchdogExpiry st s
  | .takeover st => Sys2Proof.Machine.execTakeover st s
  | .release st => Sys2Proof.Machine.execRelease st s
  | .shadowRecord n => Sys2Proof.Machine.execShadowRecord n s
  | .create h => Sys2Proof.Machine.execCreate h s
  | .reset h => Sys2Proof.Machine.execReset h s
  | .destroy h => Sys2Proof.Machine.execDestroy h s
  | .holdingResetDone h => Sys2Proof.Machine.execHoldingResetDone h s
  | .altResWrite h v => Sys2Proof.Machine.execAltResWrite h v s
  | .altPowerWrite h v => Sys2Proof.Machine.execAltPowerWrite h v s
  | .altModuleCapWrite v => Sys2Proof.Machine.execAltModuleCapWrite v s
  | .allotmentApplied h => Sys2Proof.Machine.execAllotmentApplied h s
  | .holdingPowerReading h watts => Sys2Proof.Machine.execHoldingPowerReading h watts s
  | .modulePowerReading => Sys2Proof.Machine.execModulePowerReading s
  | .stageComplete r => Sys2Proof.Machine.execStageComplete r s
  | .sectionDigest copyB => Sys2Proof.Machine.execSectionDigest copyB s
  | .computeWave k => Sys2Proof.Machine.execComputeWave k s
  | .croftSelftest q r => Sys2Proof.Machine.execCroftSelftest q r s
  | .sowOpen => Sys2Proof.Machine.execSowOpen s
  | .sowSend => Sys2Proof.Machine.execSowSend s
  | .sowCheck => Sys2Proof.Machine.execSowCheck s
  | .sowEnd => Sys2Proof.Machine.execSowEnd s
  | .sowOpDone => Sys2Proof.Machine.execSowOpDone s
  | .chunkCheck q c => Sys2Proof.Machine.execChunkCheck q c s
  | .commit => Sys2Proof.Machine.execCommit s
  | .fuseBlowDone => Sys2Proof.Machine.execFuseBlowDone s
  | .getVersion st => Sys2Proof.Machine.execGetVersion st s
  | .getCapabilities st => Sys2Proof.Machine.execGetCapabilities st s
  | .negotiateAlgorithms st => Sys2Proof.Machine.execNegotiateAlgorithms st s
  | .getDigests st => Sys2Proof.Machine.execGetDigests st s
  | .getCertificate st slot off len => Sys2Proof.Machine.execGetCertificate st slot off len s
  | .challenge st slot nonce => Sys2Proof.Machine.execChallenge st slot nonce s
  | .getMeasurements st index => Sys2Proof.Machine.execGetMeasurements st index s
  | .unsupportedRequest st code => Sys2Proof.Machine.execUnsupportedRequest st code s
  | .faultReport r => Sys2Proof.Machine.execFaultReport r s
  | .causeEnd d source loc => Sys2Proof.Machine.execCauseEnd d source loc s
  | .tallySlotClose source loc => Sys2Proof.Machine.execTallySlotClose source loc s
  | .recordAppend d => Sys2Proof.Machine.execRecordAppend d s
  | .fltClearWrite v => Sys2Proof.Machine.execFltClearWrite v s
  | .levelClear => Sys2Proof.Machine.execLevelClear s
  | .bellPulseEnd => Sys2Proof.Machine.execBellPulseEnd s
  | .fltInjectWrite v => Sys2Proof.Machine.execFltInjectWrite v s
  | .ldgRead block found => Sys2Proof.Machine.execLdgRead block found s
  | .ldgWrite block bad => Sys2Proof.Machine.execLdgWrite block bad s
  | .ldgOpDone => Sys2Proof.Machine.execLdgOpDone s
  | .registerWrite addr bytes v => Sys2Proof.Machine.execRegisterWrite addr bytes v s
  | .auxConverterStart => Sys2Proof.Machine.execAuxConverterStart s
  | .busbarOvervoltage => Sys2Proof.Machine.execBusbarOvervoltage s
  | .shadowAck n => Sys2Proof.Machine.execShadowAck n s
  | .controlServiceRequest st r => Sys2Proof.Machine.execControlServiceRequest st r s
  | .schedIllegal q => Sys2Proof.Machine.execSchedIllegal q s
  | .carterIllegal q c => Sys2Proof.Machine.execCarterIllegal q c s
  | .cageSupplyShort g port => Sys2Proof.Machine.execCageSupplyShort g port s
  | .stewardUe st => Sys2Proof.Machine.execStewardUe st s
  | .abandonComplete h => Sys2Proof.Machine.execAbandonComplete h s

end Sys2Proof.Machine
end

