-- ==== Sys2Proof/Safety.lean ====
section
/-! DEFINITION. What counts as a safe run, the trust state that power cycles do not undo, and the words in which the
statements speak of a command's own effect. -/

namespace Sys2Proof.Safety

open Sys2Proof.Machine

/-- One die's fuses have only been blown further: no revocation is undone, the counter does not fall, and what was
programmed at manufacture stands (R361 to R363, R365). -/
def FusesFrom (f g : Fuses) : Prop :=
  g.slots = f.slots ∧ g.uds = f.uds ∧ g.serial = f.serial ∧ g.revoked &&& f.revoked = f.revoked ∧ f.svn ≤ g.svn

/-- Both dies' fuses stand at or beyond a record of them. -/
def TrustFrom (f0 f1 : Fuses) (s : State) : Prop := FusesFrom f0 s.sec.fuses0 ∧ FusesFrom f1 s.sec.fuses1

/-- Every waiting command is one that a sender can form. -/
def QueueFormed (s : State) : Prop := ∀ c ∈ s.pending, c.wellFormed = true

/-! ### Crofts -/

/-- A register of a croft, by local offset less 0x0F00_0000 (R74). -/
def regOf (c : Croft) (o : Nat) : W64 := Tab.get croftReset c.regs o

/-- A channel of a croft's carter, and a handle register of its sequencer. -/
def chanOf (c : Croft) (i : Nat) : Chan := Tab.get (fun _ => {}) c.chans i
def hregOf (c : Croft) (k : Nat) : W32 := Tab.get (fun _ => 0) c.hreg k

/-- A command of croft q touched nothing else of the module but what the croft hands out: packets, events and the
count of free values. -/
def OnlyCroft (q : Nat) (s t : State) : Prop :=
  (∀ j, j ≠ q → t.croft j = s.croft j) ∧
  t = { s with crofts := t.crofts, freeCtr := t.freeCtr, outq := t.outq, reports := t.reports }

/-- Every byte of a croft's memory but n from address a reads as before. -/
def BytesKept (c d : Croft) (a n : Nat) : Prop :=
  ∀ j, (j < a ∨ a + n ≤ j) → Memory.byte d.mem j = Memory.byte c.mem j

/-- Bit n of the bits from address a, bit 0 of each byte first (R238). -/
def memBit (m : Memory) (a n : Nat) : Bool := (Memory.byte m (a + n / 8)).getLsbD (n % 8)

/-- Every register of a croft but these reads as before. -/
def RegsKept (c d : Croft) (os : List Nat) : Prop := ∀ o, o ∉ os → regOf d o = regOf c o

/-- What the check bits of a croft's codeword say (R80). -/
def eccAt (c : Croft) (cw : Nat) : Ecc := Tab.get (fun _ => Ecc.clean) c.ecc cw

/-- The row that an entry of a bank's repair table replaces, and that some entry replaces a row (R82). -/
def repairAt (c : Croft) (b e : Nat) : Option Nat := Tab.get (fun _ => none) c.repairs (32 * b + e)
def RowTaken (c : Croft) (b r : Nat) : Prop := ∃ e < 32, repairAt c b e = some r

/-- The sequencer of croft q runs, neither fenced nor in a croft reset, and the legal word w stands at its pc (R85, R86). -/
def Issues (s : State) (q : Nat) (w : W128) : Prop :=
  (s.site q).live = true ∧ (s.croft q).seq.st = .run ∧ (s.croft q).seq.stopping = false ∧ (s.croft q).seq.pc < 512 ∧
    (s.site q).nextWord = w ∧ wordLegal w = true

/-- The sequencer past the word that it has issued: its slot, its loops and its marks stand. -/
def past (v : Seq) : Seq := { v with st := .run, held := .nothing, pc := v.pc + 1, issued := v.issued + 1 }

/-- The sequencer held at a word that cannot issue yet. -/
def heldAt (v : Seq) (h : Held) : Seq := { v with st := .wait, held := h }

/-- A word as a unit's queue takes it, with the handle registers as it issues (R86). -/
def queued (s : State) (q : Nat) (w : W128) : QWord :=
  { word := w, hs := (List.range 4).map (hregOf (s.croft q)), num := (s.croft q).seq.issued }

/-- A croft with v in the register at o, and with bit b of it raised. -/
def withReg (c : Croft) (o : Nat) (v : W64) : Croft := { c with regs := Tab.set croftReset c.regs o v }
def withBit (c : Croft) (o b : Nat) : Croft := withReg c o (regOf c o ||| BitVec.ofNat 64 (2 ^ b))

/-- A croft with a token queue holding l. -/
def withQueue (c : Croft) (k : Nat) (l : List W32) : Croft := { c with tokq := Tab.set (fun _ => []) c.tokq k l }

/-- The stationary buffers of a croft (R129). -/
def bufOf (c : Croft) (b : Nat) : SBuf := if b = 0 then c.sbuf0 else c.sbuf1
def withBuf (c : Croft) (b : Nat) (v : SBuf) : Croft := if b = 0 then { c with sbuf0 := v } else { c with sbuf1 := v }

/-- The handles of a croft's token queue, oldest first. -/
def queueOf (c : Croft) (k : Nat) : List W32 := Tab.get (fun _ => []) c.tokq k

/-- The packet of an event's report: from its reporter's endpoint to the ACTIVE steward, on plane A (R382, R421). -/
def reportPacket (s : State) (e : Nat) (r : Report) : Packet :=
  { op := 0x11, dest := BitVec.ofNat 16 (0x7100 + s.active.getD 0), src := BitVec.ofNat 16 e, vc := 3, origVc := 3, holding := 0xF
    who := .report r }

/-- A packet that its endpoint finds in its inbox: no summary, tally call, report, heartbeat or shadow record (log 124). -/
def ForInbox (w : Requester) : Prop :=
  match w with
  | .summary _ _ | .tallyCall _ _ | .report _ | .heartbeat _ | .shadow _ => False
  | _ => True

/-- The unit at a packet's destination can take it: croft pos backs the croft that it names, the steward's die is not held
in reset, and the gate is not lost. -/
def UnitThere (s : State) (pos : Nat) (k : Packet) : Prop :=
  (k.dest.toNat < 26880 → s.logicalOf pos = some k.dest.toNat) ∧ (k.dest = 0x7100 → (s.steward 0).heldReset = false) ∧
    (k.dest = 0x7101 → (s.steward 1).heldReset = false) ∧
    (0x7000 ≤ k.dest.toNat → k.dest.toNat < 0x701C → (s.gate (k.dest.toNat - 0x7000)).lost = false)

/-- These packets are reports of events on their way to the ACTIVE steward (R382). -/
def Reports (ks : List Packet) : Prop := ∀ k ∈ ks, k.op = 0x11 ∧ ∃ r, k.who = .report r

/-- The state after an event is with its reporter: a reeve or a gate at endpoint e sends its report, the other units need no
packet (R382). -/
def raisedAt (s : State) (e : Option Nat) (r : Report) : State :=
  { s with reports := s.reports ++ [r], outq := s.outq ++ (e.map fun e => reportPacket s e r).toList }

/-- The state after an event of croft q is handed to its reeve, stamped with module time (R101, R388); none is raised where
the parish's network domain is off (R382). -/
def reported (s : State) (q source : Nat) (opcode : W16) (syndrome : W64) (cls : Option Bool) : State :=
  if (s.parish (q / 500)).net = true then raisedAt s (some (0x7200 + q / 500))
    { source, loc := BitVec.ofNat 32 q, time := s.clock.now, syndrome, opcode, tclass := cls }
  else s

/-- Croft q is neither fenced nor in a croft reset (R98, R100). -/
def Live (s : State) (q : Nat) : Prop := (s.site q).live = true

/-- Every unit's queue is empty and every unit of the croft idle (R89). -/
def UnitsIdle (c : Croft) : Prop :=
  c.arrayQ = [] ∧ c.drainQ = [] ∧ c.vecQ = [] ∧ c.gathQ = [] ∧ c.loading = none ∧ c.streaming = none ∧ c.draining = none ∧
    c.vector = none ∧ c.feeds = [] ∧ c.gathDone = []

/-- Every channel that a word of the running slot started has ended (R89). -/
def SlotChansEnded (c : Croft) : Prop :=
  ∀ i < 8, (chanOf c i).slot = some c.seq.slot → (chanOf c i).st ≠ .run ∧ (chanOf c i).st ≠ .wait ∧ (chanOf c i).st ≠ .draining

/-- Window w of a croft: STATE (0 CLOSED, 1 OPEN, 2 CLOSING), GEN, PERM, BASE and LEN − 1 (R92, R93). -/
def winState (c : Croft) (w : Nat) : Nat := fld (regOf c (Reg.crfWinState w)) 9 8
def winGen (c : Croft) (w : Nat) : Nat := fld (regOf c (Reg.crfWinState w)) 7 0
def winPerm (c : Croft) (w : Nat) : Nat := fld (regOf c (Reg.crfWinState w)) 14 12
def winBase (c : Croft) (w : Nat) : Nat := fld (regOf c (Reg.crfWinRange w)) 15 0
def winLen (c : Croft) (w : Nat) : Nat := fld (regOf c (Reg.crfWinRange w)) 31 16

/-- Only channel i of croft q changes, to v, beside what makes its croft c, packets handed out and free values. -/
def ChanTo (q i : Nat) (s t : State) (v : Chan) (c : Croft) : Prop :=
  OnlyCroft q s t ∧ t.reports = s.reports ∧ chanOf (t.croft q) i = v ∧
    (∀ j, j ≠ i → chanOf (t.croft q) j = chanOf (s.croft q) j) ∧ t.croft q = { c with chans := (t.croft q).chans }

/-- A channel that has fetched the instruction w and holds it. -/
def fetchedTo (v : Chan) (w : W256) : Chan := { v with instr := w, fetched := true }

/-- Channel i of croft q stands before the legal instruction w: it holds it, or its fetch reads it without error (R228,
R230, R231). -/
def CarterAt (s : State) (q i : Nat) (w : W256) : Prop :=
  Live s q ∧ (chanOf (s.croft q) i).st = .run ∧ (chanOf (s.croft q) i).moving = none ∧ carLegal w = true ∧
    (chanOf (s.croft q) i).fetchTries = 0 ∧
    ((chanOf (s.croft q) i).fetched = true ∧ (chanOf (s.croft q) i).instr = w ∨
      (chanOf (s.croft q) i).fetched = false ∧ (chanOf (s.croft q) i).pc < 65536 ∧ (s.site q).carPeek i = w ∧
        (carOpc w = 3 → Site.loopIllegal (chanOf (s.croft q) i) w = false) ∧
        eccAt (s.croft q) (chanOf (s.croft q) i).pc = .clean)

/-- A transfer of channel i of croft q can run: its channel has nothing outstanding, every codeword reads well, its
local ranges lie in the scratchpad and keep the rules of R232, and what it writes lies apart from what it reads. -/
def Movable (s : State) (q i : Nat) (m : Moving) : Prop :=
  (chanOf (s.croft q) i).outst = [] ∧ (∀ cw, eccAt (s.croft q) cw = .clean) ∧ Site.moveRefused m = 0 ∧
    (m.srcWin = false → ∀ p < m.len, ∀ a ∈ m.sources p, a < 0x200000) ∧
    (m.dst = 0 → (∀ p < m.len, m.dstAt p < 0x200000) ∧ (∀ p < m.len, ∀ r < m.len, m.dstAt p = m.dstAt r → p = r) ∧
      (m.srcWin = false → ∀ p < m.len, ∀ r < m.len, m.dstAt p ∉ m.sources r))

/-- A local transfer m of channel i has run and moved these bytes: nothing but its destination bytes, the channel and
check bits made good has changed. -/
def Moved (q i : Nat) (s t : State) (w : W256) (m : Moving) : Prop :=
  t.outq = s.outq ∧ (∀ cw, eccAt (t.croft q) cw = .clean) ∧
    ChanTo q i s t { fetchedTo (chanOf (s.croft q) i) w with
      tclass := m.tclass, bytes := (chanOf (s.croft q) i).bytes + m.len, moving := none }.advance
      { s.croft q with mem := (t.croft q).mem, ecc := (t.croft q).ecc } ∧
    ∀ a, (∀ p < m.len, m.dstAt p ≠ a) → Memory.byte (t.croft q).mem a = Memory.byte (s.croft q).mem a

/-- The handle of channel i of croft q at generation g (R225). -/
def chanHandle (s : State) (q i : Nat) (g : BitVec 4) : W32 :=
  BitVec.ofNat 32 ((s.logicalOf q).getD 0 % 2 ^ 15 * 2 ^ 15 + i * 16 + g.toNat)

/-- A channel that drains, its requests that wait for a retry dropped (R241), and one after an ABORT (R243) and after a DESTROY (R227). -/
def draining (v : Chan) (cause : Nat) (abort : Bool) : Chan :=
  { v with st := .draining, aborting := abort, cause, code := 0, used := 0, moving := none
           outst := v.outst.filter fun r => !r.backoff }
def aborted (v : Chan) : Chan :=
  if v.st = .run ∨ v.st = .wait then draining v 6 true
  else if v.st = .done then { v with late := true } else v
def destroyed (v : Chan) : Chan :=
  if v.st = .free then v
  else if v.st = .done ∨ v.st = .aborted ∨ v.st = .halted then { aborted v with st := .free, destroying := false }
  else { aborted v with destroying := true }

/-- The packet passes the checks of R94 at croft q, in their order. -/
def Passes (s : State) (q : Nat) (k : Packet) : Prop :=
  (s.croft q).resetting = false ∧ (s.site q).fenced = false ∧
    (k.holding = 15 ∨ k.holding.toNat = min 16 (s.owner (State.parOf q)))

/-- The packet passes the window's checks of R94: OPEN, its generation for a WRITE, the permission bit (0 READ,
1 WRITE, 2 MULTICAST_WRITE), and the range. -/
def InWindow (c : Croft) (k : Packet) (perm : Nat) : Prop :=
  winState c k.window.toNat = 1 ∧ (k.op = 0x01 → k.gen.toNat = winGen c k.window.toNat) ∧
    winPerm c k.window.toNat / 2 ^ perm % 2 = 1 ∧
    k.offset.toNat + k.length.toNat ≤ 32 * (winLen c k.window.toNat + 1)

/-- A packet can be acted on at its endpoint: the stewards are supplied and out of module reset, and no earlier packet of its
flow waits there (R20, R21, R60). -/
def InTurn (s : State) (k : Packet) : Prop := s.up = true ∧ s.waitsTurn k = false

/-- A packet's answer as its sender must see it: the operation, the sender as its destination, its TAG and plane. -/
def Answers (k a : Packet) (op : Nat) : Prop :=
  a.op = BitVec.ofNat 8 op ∧ a.dest = k.src ∧ a.tag = k.tag ∧ a.plane = k.plane ∧ a.vc = 1

/-- The grant of window w of the croft at q (R93). -/
def grantOf (s : State) (q w : Nat) : W32 :=
  BitVec.ofNat 32 ((s.logicalOf q).getD 0 * 2 ^ 12 + w * 2 ^ 8 + winGen (s.croft q) w)

/-- Gate b is gate a with held store requests of its own gone out, as the requests of another gate let them (R314). -/
def SendsOn (a b : Gate) : Prop :=
  b.lost = a.lost ∧ b.chans = a.chans ∧ b.buffered = a.buffered ∧ b.discarded = a.discarded ∧
    (∀ o, o ≠ Reg.gatMerged → b.reg o = a.reg o) ∧
    (∀ k, (b.port k).st = (a.port k).st ∧ (b.port k).rx = (a.port k).rx ∧ (b.port k).caps = (a.port k).caps ∧
      (b.port k).powered = (a.port k).powered ∧ (b.port k).cable = (a.port k).cable) ∧
    ∀ l, (b.lane l).st = (a.lane l).st

/-- A slew towards a partner goes on, or has ended with the port's place as the one that slews (R321). -/
def SlewKept (s t : State) : Prop := t.clock = s.clock ∨ t.clock = { s.clock with slew := 0, slewPort := none }

/-- Gate g changes, to v, and nothing else of the module but packets, messages handed out and events; requests that the
other gates hold may go out. -/
def GateTo (g : Nat) (s t : State) (v : Gate) : Prop :=
  t.gate g = v ∧ (∀ j, j ≠ g → SendsOn (s.gate j) (t.gate j)) ∧
    t = { s with gates := t.gates, outq := t.outq, reports := t.reports }

/-- Parish p changes, to v, and nothing else of the module but events, summaries and packets handed out. -/
def ParishTo (p : Nat) (s t : State) (v : Parish) : Prop :=
  t.parish p = v ∧ (∀ j, j ≠ p → t.parish j = s.parish j) ∧
    t = { s with parishes := t.parishes, reports := t.reports, summaries := t.summaries, inbox := t.inbox, outq := t.outq }

/-- The step controller of holding h acts: there is an ACTIVE steward, and the holding is ACTIVE (R334, R344). -/
def Acts (s : State) (h : Nat) : Prop := s.active.isSome = true ∧ (s.holding h).st = .active

/-- The tally calls for the open step, one to the reeve of each parish of the holding (R38). -/
def callPackets (s : State) (h : Nat) : List Packet :=
  (s.parishesOf h).map fun p =>
    { op := 0x10, src := BitVec.ofNat 16 (0x7100 + s.active.getD 0), dest := BitVec.ofNat 16 (0x7200 + p), vc := 3, origVc := 3
      holding := 15, who := .tallyCall p (BitVec.ofNat 32 (s.stc h).step) }

/-- The packet that carries shadow record n to STANDBY steward i (R334). -/
def recordPacket (s : State) (i n : Nat) : Packet :=
  { op := 0x12, src := BitVec.ofNat 16 (0x7100 + s.active.getD 0), dest := BitVec.ofNat 16 (0x7100 + i), vc := 3, origVc := 3
    holding := 15, who := .shadow n }

/-- State t with shadow record d on its way to STANDBY steward i (R334). -/
def shadowed (t : State) (i : Nat) (d : Shadow) : State :=
  { t with shadows := t.shadows ++ [{ d with num := t.shadowNum }], shadowNum := t.shadowNum + 1
           outq := t.outq ++ [recordPacket t i t.shadowNum] }

/-- Only step controllers have changed, with what tells the partner of it. -/
def OnlyStcs (s t : State) : Prop :=
  t = { s with stcs := t.stcs, shadows := t.shadows, shadowNum := t.shadowNum, outq := t.outq }

/-- The step controller of holding h changes, and the parishes' sums with it, and nothing else of the module but events,
packets handed out and shadow records. -/
def StcTo (h : Nat) (s t : State) : Prop :=
  (∀ j, j ≠ h → t.stc j = s.stc j) ∧
    t = { s with
      stcs := t.stcs, parishes := t.parishes, reports := t.reports, outq := t.outq, summaries := t.summaries, inbox := t.inbox
      shadows := t.shadows, shadowNum := t.shadowNum }

/-- Everything of the module but its supply starts again: the ledger die, the fuses, the cables and what waits stand, and
nothing else keeps its state (R21, R22, R402). -/
def Restarted (s t : State) : Prop :=
  t.regs = [] ∧ t.parishes = [] ∧ t.crofts = [] ∧ t.stcs = [] ∧ t.gates = [] ∧ t.holdings = [] ∧ t.faults = {} ∧
    (∀ i < 2, t.steward i = { mgmtCable := (s.steward i).mgmtCable }) ∧
    t.outq = [] ∧ t.flights = [] ∧ t.inbox = [] ∧ t.reports = [] ∧ t.shadows = [] ∧ t.calls = [] ∧ t.linksDown = [] ∧ t.deadR = [] ∧
    t.toIsolate = [] ∧ t.ledger = { s.ledger with busy := false, answers := false, waiting := [] } ∧
    t.sec.fuses0 = s.sec.fuses0 ∧ t.sec.fuses1 = s.sec.fuses1 ∧ t.sec.stage = 0 ∧ t.sec.running = false ∧ t.cables = s.cables ∧
    t.slotId = s.slotId ∧ t.clock = { refclk := s.clock.refclk } ∧ t.pending = s.pending

/-- Window w can open at this range: it is CLOSED, the range ends in the scratchpad, and the croft's limit allows one
more (R92). -/
def CanOpen (s : State) (q w base len : Nat) : Prop :=
  winState (s.croft q) w = 0 ∧ base + len + 1 ≤ 65536 ∧
    ((List.range 16).filter fun i => winState (s.croft q) i != 0).length < min 16 (fld (regOf (s.croft q) Reg.crfWinLimit) 4 0)

/-- d is c with window w opened: its range and permissions latched, its generation kept, its arrivals zero (R92). -/
def OpenedTo (c d : Croft) (w base len perm : Nat) : Prop :=
  winState d w = 1 ∧ winGen d w = winGen c w ∧ winPerm d w = perm ∧ winBase d w = base ∧ winLen d w = len ∧
    regOf d (Reg.carArrive w) = 0

/-- The window's accepted writes have all committed. -/
def WinDrained (c : Croft) (w : Nat) : Prop := ∀ a ∈ c.accepted, a.pkt.window.toNat ≠ w

/-- A register of a croft at offset o whose write stores its bits and does nothing else: it starts nothing, no open window
guards it, and it is no predictor register (R74, R92, R200). -/
def Plain (c : Croft) (o : Nat) : Prop :=
  o ∉ [Reg.crfCtrl, Reg.crfStep, Reg.crfSeqCtrl, Reg.crfSeqSlots, Reg.crfWinCmd, Reg.crfRepairData, Reg.carCmd, Reg.arrCtrl,
    Reg.vecCtrl, Reg.arrFault] ∧ Site.predReg o = none ∧ (0x40 ≤ o → o < 0xC0 → winState c ((o - 0x40) / 8) = 0)

/-- The register that a register packet names at a croft that does not refuse it (R75, R99). -/
def AtRegister (s : State) (q : Nat) (k : Packet) (o : Nat) (d : RegDef) : Prop :=
  (s.croft q).resetting = false ∧ k.holding = 15 ∧ k.offset.toNat = 0x0F000000 + o ∧ o < 0x5000 ∧ o % 4 = 0 ∧
    ((s.site q).fenced = true → o < 0x1000) ∧ findReg croftMap o = some d ∧ Site.packetWidth k o = (if d.wide = true then 8 else 4)

/-- A packet's REG_DATA with a value (R75). -/
def RegAnswers (k a : Packet) (v : W64) : Prop :=
  a.op = 0x14 ∧ a.dest = k.src ∧ a.tag = k.tag ∧ a.plane = k.plane ∧ a.vc = 3 ∧ a.opdata = v.setWidth 96

/-- A steward with an access of core n over: a value loaded, or an access-fault exception more (R332). -/
def loadedBy (v : Steward) (n : Nat) (x : W64) : Steward :=
  { v with access := Tab.set (fun _ => none) v.access n none, loaded := Tab.set (fun _ => 0) v.loaded n x }
def excepted (v : Steward) (n : Nat) : Steward :=
  { v with exceptions := Tab.set (fun _ => 0) v.exceptions n (Tab.get (fun _ => 0) v.exceptions n + 1) }

/-- Holdings that a takeover or a release leaves as they are: each FREE, or ACTIVE with no step that it resolves (R337). -/
def NothingToResolve (s : State) : Prop :=
  ∀ h < 16, (s.holding h).st = .free ∨ ((s.holding h).st = .active ∧
    ((s.stc h).st = .idle ∨ (s.stc h).st = .combine ∨ (s.stc h).st = .stopped ∨ (s.stc h).st = .warmHold))

/-- What senders hold unacknowledged, as packets for the ACTIVE steward: the reeves' summaries and the reports of events
(R335, R382). -/
def redelivered (s : State) : List Packet :=
  (s.parishes.flatMap fun e => e.2.sentSums.map fun m => s.summaryPacket e.1 m.1 m.2) ++ s.reports.flatMap s.reportPackets

/-- The steward st as the ACTIVE one from now on, a takeover counted, and what senders hold delivered again (R335, R337). -/
def actsNow (s : State) (st : Nat) : State :=
  let t := (s.setSteward st { s.steward st with role := .active, expired := false }).setNum (Reg.stwTakeovers st)
    (satAdd (s.num (Reg.stwTakeovers st)) 1)
  { t with outq := t.outq ++ redelivered t }

/-- The holding can be created over the rectangle of HLD_RECT: no condition of R342 refuses it. -/
def CanCreate (s : State) (h : Nat) : Prop :=
  (s.holding h).st = .free ∧ s.rectOk h = true ∧ ∀ p ∈ s.rectOf h, 16 ≤ s.owner p ∧ (s.parish p).st = .on

/-- Physical croft q backs a logical croft of holding h. -/
def CroftOf (s : State) (h q : Nat) : Prop := q < 28000 ∧ s.owner (State.parOf q) = h ∧ (s.logicalOf q).isSome = true

/-- A reset of holding h has begun in t: exactly its crofts are in a croft reset, and no other holding has changed (R344). -/
def ResetBegun (s t : State) (h : Nat) (st : HldState) : Prop :=
  (t.holding h).st = st ∧ (t.holding h).busy = (s.holding h).busy ∧ (∀ j, j ≠ h → t.holding j = s.holding j) ∧ (∀ j, j ≠ h → t.stc j = s.stc j) ∧
    (∀ q, CroftOf t h q → t.croft q = { s.croft q with resetting := true }) ∧ (∀ q, ¬ CroftOf t h q → t.croft q = s.croft q) ∧
    (∀ p, (t.parish p).regs = (s.parish p).regs ∧ (t.parish p).st = (s.parish p).st) ∧ t.flights = s.flights

/-- The ceilings of the holding's parishes at a code add up to no more than w watts (R347). -/
def CodeFits (s : State) (h w c : Nat) : Prop := ((s.parishesOf h).map fun p => s.ceiling p c).sum ≤ w

/-- c is the power code that w watts give the holding: the highest that fits, and 0 where none does (R347). -/
def IsPowerCode (s : State) (h w c : Nat) (none_ : Bool) : Prop :=
  if none_ = true then c = 0 ∧ ∀ d ≤ 25, ¬ CodeFits s h w d
  else c ≤ 25 ∧ CodeFits s h w c ∧ ∀ d ≤ 25, c < d → ¬ CodeFits s h w d

/-- Every parish is capped at the lower of the module code and its holding's (R348). -/
def CapsWritten (t : State) : Prop :=
  ∀ p < 56, (t.parish p).field Reg.parPclk 12 8 = (if t.owner p < 16 then min t.power.modCode (t.holding (t.owner p)).code else t.power.modCode) % 32

/-- The step controllers are as before, but that harvest chunks which ports let out have passed the horizon of their attempt
and entered the fingerprint (R264, R272). -/
def ChunksLeft (s t : State) : Prop :=
  ∀ h, t.stc h = { s.stc h with regs := (t.stc h).regs, horizon := (t.stc h).horizon, unsent := (t.stc h).unsent } ∧
    ((s.stc h).horizon = true → (t.stc h).horizon = true) ∧
    ∀ o, o ≠ Reg.stcFprintLo → o ≠ Reg.stcFprintHi → (t.stc h).reg o = (s.stc h).reg o

/-- Nothing of the module but gate g, what other gates send, packets handed out, events, chunks that leave and a slew that ends
has changed. -/
def OnlyGate (g : Nat) (s t : State) : Prop :=
  (∀ j, j ≠ g → SendsOn (s.gate j) (t.gate j)) ∧ SlewKept s t ∧ ChunksLeft s t ∧
    t = { s with gates := t.gates, outq := t.outq, reports := t.reports, clock := t.clock, stcs := t.stcs, shadows := t.shadows
                 shadowNum := t.shadowNum }

/-- Port k of gate g is in use: neither its ROLE nor one written for when it comes UP is UNUSED (R318, R320). -/
def InUse (s : State) (g k : Nat) : Prop := (s.gate g).role k ≠ 0 ∧ ((s.gate g).port k).nextRole ≠ some 0

/-- An event of this source at this location has been raised since s (R380). -/
def Raised (s t : State) (source : Nat) (loc : W32) : Prop :=
  ∃ l e r, t.reports = s.reports ++ l ++ e :: r ∧ e.source = source ∧ e.loc = loc ∧ e.time = s.clock.now

/-- Lane l of gate g can be moved: it is not retired for good (R397). -/
def Usable (s : State) (g l : Nat) : Prop := ((s.gate g).lane l).barred = false

/-- The state of lane l of gate g. -/
def laneSt (s : State) (g l : Nat) : LaneState := ((s.gate g).lane l).st

/-- Every other lane of gate g keeps its state. -/
def OtherLanes (s t : State) (g l : Nat) : Prop := ∀ j, j ≠ l → laneSt t g j = laneSt s g j

/-- A frame received at gate g: good, of this type, its header h and its payload of 624 bytes (R304, R305). -/
def Receives (s : State) (g : Nat) (f : Frame) (type_ : Nat) (h : FrameHdr) (b : List Byte) : Prop :=
  (s.gate g).lost = false ∧ f.wellFormed = true ∧ goodFrame f = true ∧ h = FrameHdr.parse (ofLe (f.bytes.take 12)) ∧ h.ftype = type_ ∧
    b = (f.bytes.drop 12).take 624

/-- A frame of this type with this payload, zero to its end, has left on lane l of gate g, in the lane's next codeword (R303,
R304). -/
def FrameSent (s t : State) (g l type_ : Nat) (payload : List Byte) : Prop :=
  ∃ h, h.ftype = type_ ∧ ((t.gate g).lane l).sent =
    ((s.gate g).lane l).sent ++ [(codewordMarker ((s.gate g).lane l).txCount.toNat, frameOf h payload)]

/-- Port k of gate g serves the message m: it waits there, or the port is UP and its ROLE carries it on channel vc (R313). -/
def AtPort (s : State) (g k vc : Nat) (m : Msg) : Prop :=
  m ∈ ((s.gate g).port k).rx ∨ (s.gate g).portIsUp k = true ∧ (s.gate g).carries k vc m.op.toNat = true

/-- The state once a message that waited at a port has been taken from it. -/
def msgTaken (s : State) (g k : Nat) (m : Msg) : State :=
  if m ∈ ((s.gate g).port k).rx then
    s.setGate g ((s.gate g).setPort k { (s.gate g).port k with rx := ((s.gate g).port k).rx.erase m })
  else s

/-- r is the outstanding request of port k of gate g that the response m answers, its operation among ops (R314, R315). -/
def Outstanding (s : State) (g k : Nat) (m : Msg) (r : StoreReq) (ops : List Nat) : Prop :=
  ∃ l e, (s.gate g).store = l ++ r :: e ∧ r.tag = m.tag.toNat ∧ r.port = k ∧ r.backoff = false ∧ r.heldBack = false ∧ r.msg.op.toNat ∈ ops ∧
    ∀ q ∈ l, q.tag ≠ r.tag

/-- The packets of a channel that carry these bytes to a window, from window offset off on (R242, R322). -/
def CarryBytes (d : Gate) (c off : Nat) (ks : List Packet) (bs : List Byte) : Prop :=
  (ks.map (·.payload)).flatten = bs ∧ ∀ (i : Nat) (k : Packet), ks[i]? = some k → k.op = 0x01 ∧ k.payload.length ≤ 512 ∧
    k.length.toNat = k.payload.length ∧ k.dest.toNat = bitsOf (d.ctxDest c) 26 12 ∧ k.window.toNat = bitsOf (d.ctxDest c) 11 8 ∧
    k.gen.toNat = bitsOf (d.ctxDest c) 7 0 ∧ k.offset.toNat = (off + ((ks.take i).map (·.payload.length)).sum) % 2 ^ 32

/-- No part of the ledger's history retires a unit (R397). -/
def NoPermanents (s : State) : Prop := s.permanents = []

/-- A bring-up that has failed with a code: the bell is held low (R354). -/
def failedWith (s : State) (code : Nat) : State :=
  ({ s with sec := { s.sec with fail := code } }).setFaults { s.faults with bootBell := true, bellLow := true }

/-- Chunk c's mark and mask of packets committed at a croft's sow checker (R372). -/
def sowMarkAt (c : Croft) (i : Nat) : SowMark := Tab.get (fun _ => SowMark.none) c.sowMark i
def sowMaskAt (c : Croft) (i : Nat) : Nat := Tab.get (fun _ => 0) c.sowMask i

/-- An answer of steward st's SPDM responder handed out (R366). -/
def spdmSent (s : State) (st : Nat) (a : SpdmAnswer) : State := { s with sec := { s.sec with spdm := s.sec.spdm ++ [(st, a)] } }

/-! ### Faults -/

/-- A copy of a record appended to the ledger's log (R393). -/
def logged (s : State) (r : Record) : State := { s with ledger := s.ledger.append r }

/-- Domain d's record is r. -/
def withRecord (s : State) (d : Nat) (r : Record) : State :=
  s.setFaults { s.faults with records := Tab.set (fun _ => none) s.faults.records d (some r) }

/-- Domain d's record has merged an event since its last copy (R393). -/
def withDirty (s : State) (d : Nat) : State :=
  s.setFaults { s.faults with dirty := if d ∈ s.faults.dirty then s.faults.dirty else s.faults.dirty ++ [d] }

/-- The record that an event opens in a domain (R391, R392); perm for one that has made its location permanent (R397). -/
def newRecord (s : State) (d sev : Nat) (cls perm : Bool) (r : Report) : Record :=
  { first := r.time, last := r.time, sources := BitVec.ofNat 128 (2 ^ r.source), syndrome := r.syndrome, unit := r.loc,
    opcode := r.opcode, temp := s.tempOf r.loc, voltage := s.voltageOf d r.loc, source := r.source, severity := sev, domain := d,
    flags := s.newFlags cls perm, cycle := BitVec.ofNat 16 s.ledger.cycle, number := s.faults.nextRec % 65536 }

/-- The state after an event has opened its domain's record. -/
def recordOpened (s : State) (d sev : Nat) (cls perm : Bool) (r : Report) : State :=
  let t := logged (withRecord s d (newRecord s d sev cls perm r)) (newRecord s d sev cls perm r)
  t.setFaults { t.faults with nextRec := t.faults.nextRec + 1 }

/-- An open record that an event merges into (R391, R397). -/
def merged (o : Record) (sev : Nat) (perm : Bool) (r : Report) : Record :=
  { o with
    last := r.time, sources := o.sources ||| BitVec.ofNat 128 (2 ^ r.source), merges := min 65535 (o.merges + 1)
    severity := max o.severity sev, flags := if perm = true then o.flags ||| 8 else o.flags }

/-- An event that the fault controller takes: it counts, and a cause that lasts starts (R382, R384). -/
def eventTaken (s : State) (r : Report) : State :=
  let key := (s.domainOf r, r.source, r.loc)
  let t := s.setFlt Reg.fltEvents (BitVec.ofNat 64 (satAdd (s.num Reg.fltEvents) 1))
  if State.lasting r.source = true ∧ key ∉ s.faults.causes then t.setFaults { t.faults with causes := s.faults.causes ++ [key] } else t

/-- The reporter of an event that has been taken lets go of it: at once where there is no STANDBY partner, and otherwise once
the partner has acknowledged the record of its acceptance (R334, R335). -/
def heard (s : State) (r : Report) : State :=
  match s.standby with
  | some i => shadowed s i { num := 0, acks := [.report r] }
  | none => { s with reports := s.reports.erase r }

/-- The bell is rung: LEVEL at 1 and a pulse, where LEVEL was 0 (R395). -/
def rung (s : State) : State :=
  if bit (s.reg Reg.fltBell) 0 = true then s
  else
    let t := s.setFlt Reg.fltBell (setFld (s.reg Reg.fltBell) 0 0 1)
    t.setFaults { t.faults with pulse := true, bellLow := true }

/-- No register lies at this offset of the block (R10). -/
def Vacant : Place → Prop
  | .module o => findReg moduleMap o = none
  | .parish _ o | .broadcast o => findReg parishMap o = none
  | .stc _ o => findReg stcMap o = none
  | .gate _ o => findReg gateMap o = none
  | .croft _ o => findReg croftMap o = none ∧ o < 0x5000
  | .sram _ | .nowhere => False

/-- A line's element codes of a format hold no negative zero: sign bit 1 and magnitude 0 (R106). -/
def NoNegativeZero (f : Nat) (cs : List Nat) : Prop := 2 ^ (fmtWidth f - 1) ∉ cs

/-- A request for a replay acts, and would be a replay more: it does not start again a restore that goes on (R267). -/
def WouldReplay (s : State) (h : Nat) (ask : ReplayAsk) : Prop :=
  Acts s h ∧ (s.stc h).abandoning = false ∧ State.replayActs (s.stc h) ask = true ∧
    ((s.stc h).st = .restoring → ask = .notice)

/-- Another try of one part of a store request: its own bytes, one retry more, waiting for its backoff (R315, R325). -/
def RetryOf (r x : StoreReq) (p : Nat × Nat × Nat) : Prop :=
  x.parts = [p] ∧ x.retries = r.retries + 1 ∧ x.backoff = true ∧ x.heldBack = false ∧ x.port = r.port


/-! ### The whole block -/

/-- Every memory and buffer of bytes is in its canonical form: addresses rising, no byte that an unlisted one reads as. -/
def MemoriesFormed (s : State) : Prop :=
  (∀ q, Memory.wf (s.croft q).mem = true) ∧ (∀ i, Memory.wf (s.steward i).sram = true) ∧ Memory.wf s.ledger.bytes = true ∧
    ∀ g k, Memory.wf ((s.gate g).port k).permuted = true

/-- The croft on which a command of one croft's units acts; none for every other command. -/
def unitOf : Instr → Option Phys
  | .writeCommit q | .croftReset q | .croftResetDone q | .seqStop q | .stopIdle q | .repairDone q | .nop q | .load q |
  .stream q | .addin q | .drain q | .run q | .feed24 q | .merge q | .feedMerge q | .select q | .feedList q | .glean q
  | .gatherComplete q | .carterWordStart q | .carterWordAbort q | .carterWordDestroy q | .loop q | .endloop q |
  .seqWaitQueue q | .seqWaitStep q | .waitEnd q | .waitTimeout q | .post q | .remotePost q | .windowOpen q |
  .windowClose q | .phase q | .phaseEnd q | .tally q | .halt q | .loadStart q | .loadReady q | .streamStart q |
  .streamLine q | .addinLine q | .checksumInject q | .drainStart q | .drainRow q | .drainEnd q | .vectorStart q |
  .beat q | .vectorEnd q | .residueInject q | .schedIllegal q
  | .closeComplete q _ | .winCmdOpen q _ | .winCmdClose q _ | .fenceWrite q _ | .seqStart q _ | .crfSeqSlotsWrite q _
  | .crfStepWrite q _ | .crfRepairDataWrite q _ | .carCmdStart q _ | .carCmdAbort q _ | .carCmdDestroy q _ | .move q _
  | .splitPlanes q _ | .mergePlanes q _ | .interleave q _ | .deinterleave q _ | .carterLoop q _ | .carterWaitQueue q _
  | .carterWaitEvent q _ | .carterWaitArrival q _ | .carterWaitStep q _ | .carterWaitChannel q _ | .carterWaitEnd q _
  | .carterWaitTimeout q _ | .signalQueue q _ | .signalToken q _ | .signalFlag q _ | .carterEnd q _ | .carterIllegal q _
  | .scrub q _ _ => some q
  | _ => none

end Sys2Proof.Safety
end

