-- ==== Sys2Proof/Certificates/Slice0/Obligations.lean ====
section
/-! DEFINITION. What the model must satisfy, rule by rule of spec/: each command completes where the spec says it does,
with its effect and its frame; the invariants that every step keeps. -/

open Sys2Proof Sys2Proof.Machine Sys2Proof.Safety

/-- A step takes the command at the front of the queue and is its execution with the queue's rest: the form of this model (log 1). -/
def Obligations.StepRunsFront : Prop :=
  ∀ (c : Instr) (s : State) (rest : List Instr), s.pending = c :: rest →
    step s = exec c { s with pending := rest }

/-- An empty queue: the model's choice of log 1, a tick of module time, which R414 counts in nanoseconds. -/
def Obligations.IdleStepsTick : Prop :=
  ∀ (s : State), s.pending = [] →
    (s.up = true → s.sec.running = true → s.clock.slew = 0 → step s = .next { s with clock := { s.clock with now := s.clock.now + 1, ticks := s.clock.ticks + 1 } }) ∧
    ((s.up = false ∨ s.sec.running = false) → step s = .next s) ∧ ∃ t, step s = .next t ∧ t = { s with clock := t.clock }

/-- Reset meets the invariants of the statements below. The value of an unlisted byte is the model's choice, log 2. -/
def Obligations.ResetMeetsTheInvariants : Prop :=
  TrustFrom State.reset.sec.fuses0 State.reset.sec.fuses1 State.reset ∧ MemoriesFormed State.reset ∧ QueueFormed State.reset ∧
    State.reset.pending = []

/-- R361 to R363, R365: the trust state that fuses hold survives everything. That a counter changes at FUSE_BLOW_DONE, and not yet at the COMMIT, is the model's reading, log 111. -/
def Obligations.StepsKeepTrust : Prop :=
  ∀ (f0 f1 : Fuses) (s t : State), TrustFrom f0 f1 s → step s = .next t → TrustFrom f0 f1 t ∧
    ((t.sec.fuses0.svn ≠ s.sec.fuses0.svn ∨ t.sec.fuses1.svn ≠ s.sec.fuses1.svn) → s.pending.head? = some .fuseBlowDone)

/-- The canonical form of the memories, the model's own form of them (log 2). -/
def Obligations.StepsKeepMemoriesFormed : Prop :=
  ∀ (s t : State), MemoriesFormed s → step s = .next t → MemoriesFormed t

/-- No ordinary data ends a run. What a sender can form is in WellFormed.lean (log 11). -/
def Obligations.FormedQueuesNeverStop : Prop :=
  (∀ (c : Instr) (s : State), (c.wellFormed = true → ∃ t, exec c s = .next t ∧ t.pending = s.pending ∧ t.slotId = s.slotId) ∧
     (c.wellFormed = false → exec c s = .fault .illFormed)) ∧
  (∀ (s : State), QueueFormed s → ∃ t, step s = .next t ∧ QueueFormed t ∧ t.pending = s.pending.tail)

/-- R78, R84, R129, R176, R202, R224: the units of a croft work on that croft alone. -/
def Obligations.UnitsTouchTheirCroftAlone : Prop :=
  ∀ (c : Instr) (q : Phys) (s : State), unitOf c = some q → ∃ t, exec c s = .next t ∧ OnlyCroft q s t

/-- R10, for every way of reaching a register. -/
def Obligations.EmptyOffsetsReadZero : Prop :=
  ∀ (s : State) (v : W64),
    (∀ (q : Nat) (k : Packet) o, k.wellFormed = true → InTurn s k → s.reached k = some q → (s.site q).regRefused k = none → k.dest.toNat < 26880 →
      k.offset.toNat = 0x0F000000 + o → Vacant (.croft q o) →
      (∃ a, RegAnswers k a (k.opdata.setWidth 64) ∧ exec (.regWrite k) s = .next { (s.take k).setCroft q (s.croft q) with outq := s.outq ++ [a] }) ∧
      (∃ a, RegAnswers k a 0 ∧ exec (.regRead k) s = .next { (s.take k).setCroft q (s.croft q) with outq := s.outq ++ [a] })) ∧
    (∀ k : Packet, k.wellFormed = true → InTurn s k → 26880 ≤ k.dest.toNat → s.packetRefused k = none → Vacant (State.packetPlace k) →
      s.standby = none →
      (∃ a, RegAnswers k a (k.opdata.setWidth 64) ∧ exec (.regWrite k) s = .next { s.take k with outq := s.outq ++ [a] }) ∧
      (∃ a, RegAnswers k a 0 ∧ exec (.regRead k) s = .next { s.take k with outq := s.outq ++ [a] })) ∧
    (∀ (st : Stw) (n : Fin 16) (a : BitVec 48) bytes, accessWidth bytes = true → s.coreReady st n = true →
      Vacant (Place.ofAddr st a.toNat) → s.coreRoute st a.toNat (Place.ofAddr st a.toNat) = none →
      exec (.stewardLoad st n a bytes) s = .next (s.setSteward st (loadedBy (s.steward st) n 0)) ∧
      (State.ofSet (Place.ofAddr st a.toNat) = false → exec (.stewardStore st n a bytes v) s = .next s) ∧
      (State.ofSet (Place.ofAddr st a.toNat) = true → s.standby = none → ∃ t, exec (.stewardStore st n a bytes v) s = .next t ∧
        t = { s with stewards := t.stewards } ∧ (∀ j, t.steward j = { s.steward j with access := (t.steward j).access }) ∧
        ∀ j m, t.coreAccess j m = s.coreAccess j m)) ∧
    (∀ (a : BitVec 48) bytes, accessWidth bytes = true → Vacant (Place.ofAddr (s.active.getD 0) a.toNat) →
      (∀ n o, Place.ofAddr (s.active.getD 0) a.toNat ≠ .croft n o) → exec (.registerWrite a bytes v) s = .next s)

/-- R106. Every format of R103 but T2 has a code with the sign alone; INT8 uses it as a number (log 19). -/
def Obligations.ZeroKeepsItsSignOnlyInWideFormats : Prop :=
  (∀ f ∈ [0, 1, 3, 4, 5, 6, 7, 10, 11],
    (∀ c, (eltValue f c).isZero = true → (eltValue f c).sign = false) ∧
    (f ≠ 7 → (eltValue f (2 ^ (fmtWidth f - 1))).isZero = true) ∧
    (∀ neg n d r, 0 < d → roundCode (eltGrid f).1 (eltGrid f).2 n d r = 0 → (eltCode f neg (n, d) r).1 = 0) ∧
    ∀ isFloor T th xs r,
      NoNegativeZero f (convertLine f isFloor T th xs r).codes ∧
        ∀ b, some b ∈ (convertLine f isFloor T th xs r).resids → NoNegativeZero f b.codes) ∧
  (∀ F ∈ [bf16, fp32, fp64], ∀ sg r e,
    (F.decode (F.encode (.num sg 0 e) r).1).isZero = true ∧ (F.decode (F.encode (.num sg 0 e) r).1).sign = sg)

/-- R225. -/
def Obligations.HandlesHaveTheirLayout : Prop :=
  ∀ (s : State) (k : Packet) (w : Nat), k.wellFormed = true → InTurn s k →
    let v : W64 := BitVec.ofNat 64 w
    let fields := fun (kind owner index gen : Nat) => fld v 31 30 = kind ∧ fld v 29 15 = owner ∧ fld v 14 4 = index ∧ fld v 3 0 = gen ∧ w < 2 ^ 32
    (∀ q n, ∀ i < 8, s.reached k = some q → s.logicalOf q = some n → n < 26880 → k.dest.toNat < 26880 → (s.site q).regRefused k = none →
      k.offset.toNat = 0x0F001100 + 32 * i → fields 0 n i (chanOf (s.croft q) i).gen.toNat →
      ∃ a, RegAnswers k a v ∧ exec (.regRead k) s = .next { (s.take k).setCroft q (s.croft q) with outq := s.outq ++ [a] }) ∧
    (∀ (g : GateId), ∀ c < 2048, k.dest.toNat = 0x7000 + g → k.offset.toNat = Reg.gatChHandle c → s.packetRefused k = none →
      (s.gate g).lost = false → fields 1 (0x7000 + g) c ((s.gate g).chan c).gen.toNat →
      ∃ a, RegAnswers k a v ∧ exec (.regRead k) s = .next { s.take k with outq := s.outq ++ [a] })

/-- R269. -/
def Obligations.ReplaysStopAtTheirLimit : Prop :=
  ∀ (h : Hold) (s : State) (ask : ReplayAsk), WouldReplay s h ask →
    let c := s.stc h
    (c.field Reg.stcReplayCfg 2 0 ≤ c.replays - c.uncounted → ∃ t e, exec (.replay h ask) s = .next t ∧ (t.stc h).st = .stopped ∧
      (t.stc h).run = false ∧ (t.stc h).reg Reg.stcSeqFault = c.reg Reg.stcSeqFault ||| 2 ∧ (t.stc h).replays = c.replays ∧
      (∀ j, j ≠ h.val → t.stc j = s.stc j) ∧ t = { s with stcs := t.stcs, reports := s.reports ++ [e], shadows := t.shadows, shadowNum := t.shadowNum, outq := t.outq } ∧ e.source = 49 ∧ e.loc = State.locHolding h) ∧
    (c.replays - c.uncounted < c.field Reg.stcReplayCfg 2 0 → ∃ t, exec (.replay h ask) s = .next t ∧ (t.stc h).st = .restoring ∧
      (t.stc h).replays = c.replays + 1 ∧ (t.stc h).uncounted = c.uncounted ∧ (t.stc h).run = c.run ∧ t.reports = s.reports)

/-- R315. -/
def Obligations.ErrorsPermitRetries : Prop :=
  ∀ (g : GateId) (k : PortId) (m : Msg) (s : State), m.wellFormed = true →
    let d := s.gate g
    let taken := msgTaken s g k m
    (∀ r, AtPort s g k 1 m → Outstanding s g k m r [0x01, 0x02, 0x03, 0x04] → m.op = 0x8F → r.retries < d.retryLimit →
      (∀ p ∈ r.parts, (d.chan p.1).st = .run) →
      (m.status = 1 ∨ m.status = 3 → ∃ t, exec (.error g k m) s = .next t ∧ t.reports = s.reports ∧ OnlyGate g s t ∧
        ∀ p ∈ r.parts, ((t.gate g).chan p.1).st = .run ∧ ∃ x ∈ (t.gate g).store, RetryOf r x p) ∧
      (m.status ≠ 1 ∧ m.status ≠ 3 → ∃ t, exec (.error g k m) s = .next t ∧
        ∀ p ∈ r.parts, ((t.gate g).chan p.1).st = .draining ∧ ((t.gate g).chan p.1).cause = 3 ∧ ((t.gate g).chan p.1).code = m.status)) ∧
    (∀ i ops, (i = .ebsoberReadData g k m ∧ m.op = 0x81 ∧ ops = [0x01] ∨ i = .shardData g k m ∧ m.op = 0x83 ∧ ops = [0x03] ∨
        i = .writeDone g k m ∧ m.op = 0x82 ∧ ops = [0x02] ∨ i = .shardDone g k m ∧ m.op = 0x84 ∧ ops = [0x04] ∨
        i = .error g k m ∧ m.op = 0x8F ∧ ops = [0x01, 0x02, 0x03, 0x04]) →
      AtPort s g k 1 m → (∀ r ∈ d.store, r.tag = m.tag.toNat → r.port ≠ k ∨ r.backoff = true ∨ r.heldBack = true ∨ r.msg.op.toNat ∉ ops) →
      exec i s = .next (s.setGate g { taken.gate g with discarded := d.discarded + 1 })) ∧
    (m.op = 0xC1 → AtPort s g k 1 m → m.tag.toNat ∉ (d.port k).permOut → exec (.permuteAck g k m) s = .next (s.setGate g { taken.gate g with discarded := d.discarded + 1 }))

/-- R350. -/
def Obligations.HoldingRegistersResetAndKeep : Prop :=
  ∀ (s : State),
    (s.power.resetN = false → ∃ t, exec .moduleReset s = .next t ∧ (∀ h, t.holding h = {}) ∧
      (∀ h < 16, (t.readModule (Reg.hldCtrl h) 4).2 = 0 ∧ (t.readModule (Reg.hldRect h) 4).2 = 0 ∧ (t.readModule (Reg.hldStatus h) 4).2 = 0) ∧
      ∀ p < 56, (t.readModule (Reg.hldOwner p) 4).2 = 0x1F) ∧
    ∀ (h : Hold) (v : W64),
      ((s.holding h).st ≠ .free →
        (∀ (a : BitVec 48), a.toNat = 0x17000004 + 0x10 * h → exec (.registerWrite a 4 v) s = .next s) ∧
        ∀ n j, s.writePlace (.module (Reg.hldRect h)) n j v = s) ∧
      (s.up = true → (s.holding h).st = .free → ∀ (a : BitVec 48), a.toNat = 0x17000004 + 0x10 * h →
        exec (.registerWrite a 4 v) s = .next (s.setReg (Reg.hldRect h) ((s.reg (Reg.hldRect h) &&& ~~~ 0x7777) ||| (v &&& 0x7777))))

/-- R78, R86. The cycles that CRF_SEQ_STALL counts are a free value, drawn when it is read (log 14). -/
def Obligations.UnitWordsEnterTheirQueues : Prop :=
  ∀ (q : Phys) (s : State) (w : W128), Issues s q w →
    let c := s.croft q
    (wordClass w = 0 → exec (.nop q) s = .next (s.setCroft q { c with seq := past c.seq })) ∧
    (wordClass w = 1 → c.arrayQ.length < 4 → ∀ i, (wordOp w = 1 ∧ i = .load q ∨ wordOp w = 2 ∧ i = .stream q ∨
      wordOp w = 3 ∧ i = .addin q) → exec i s =
        .next (s.setCroft q { c with arrayQ := c.arrayQ ++ [queued s q w], seq := past c.seq, stalled := true })) ∧
    (wordClass w = 2 → c.drainQ.length < 4 → exec (.drain q) s =
        .next (s.setCroft q { c with drainQ := c.drainQ ++ [queued s q w], seq := past c.seq, stalled := true })) ∧
    (wordClass w = 3 → c.vecQ.length < 4 → exec (.run q) s =
        .next (s.setCroft q { c with vecQ := c.vecQ ++ [queued s q w], seq := past c.seq, stalled := true })) ∧
    (wordClass w = 1 → 4 ≤ c.arrayQ.length → ∀ i, (wordOp w = 1 ∧ i = .load q ∨ wordOp w = 2 ∧ i = .stream q ∨
      wordOp w = 3 ∧ i = .addin q) → exec i s = .next (s.setCroft q { c with seq := heldAt c.seq .unitFull, stalled := true })) ∧
    (wordClass w = 2 → 4 ≤ c.drainQ.length → exec (.drain q) s =
        .next (s.setCroft q { c with seq := heldAt c.seq .unitFull, stalled := true })) ∧
    (wordClass w = 3 → 4 ≤ c.vecQ.length → exec (.run q) s =
        .next (s.setCroft q { c with seq := heldAt c.seq .unitFull, stalled := true }))

/-- R87, R88. -/
def Obligations.LoopsNestAndWaitsTakeTheirSource : Prop :=
  (∀ (q : Phys) (s : State) (w : W128), Issues s q w →
     let c := s.croft q
     (wordClass w = 6 → c.seq.loops.length < 4 → wfield w 17 16 = c.seq.loops.length →
       exec (.loop q) s = .next (s.setCroft q { c with seq := { past c.seq with
         loops := c.seq.loops ++ [{ body := c.seq.pc + 1, left := wfield w 15 0 + 1 }] } })) ∧
     (∀ l t, wordClass w = 7 → c.seq.loops = l ++ [t] → wfield w 17 16 = l.length → 1 < t.left →
       exec (.endloop q) s = .next (s.setCroft q { c with seq := { past c.seq with
         pc := t.body, loops := l ++ [{ t with left := t.left - 1 }] } })) ∧
     (∀ l t, wordClass w = 7 → c.seq.loops = l ++ [t] → wfield w 17 16 = l.length → t.left ≤ 1 →
       exec (.endloop q) s = .next (s.setCroft q { c with seq := { past c.seq with loops := l } }))) ∧
  (∀ (q : Phys) (s : State) (w : W128),
     let c := s.croft q
     (Issues s q w → wordClass w = 8 →
       (∀ h t, wfield w 2 0 ≠ 4 → queueOf c (wfield w 2 0) = h :: t → exec (.seqWaitQueue q) s =
         .next (s.setCroft q { withQueue c (wfield w 2 0) t with
           hreg := Tab.set (fun _ => 0) c.hreg (wfield w 2 0) h, seq := past c.seq })) ∧
       (wfield w 2 0 ≠ 4 → queueOf c (wfield w 2 0) = [] → exec (.seqWaitQueue q) s =
         .next (s.setCroft q { c with seq := heldAt c.seq (.queue (wfield w 2 0)) })) ∧
       (wfield w 2 0 = 4 → (c.seq.stepNew || c.seq.armed) = true → exec (.seqWaitStep q) s =
         .next (s.setCroft q { c with seq := { past c.seq with stepNew := false, armed := false } })) ∧
       (wfield w 2 0 = 4 → (c.seq.stepNew || c.seq.armed) = false → exec (.seqWaitStep q) s =
         .next (s.setCroft q { c with seq := heldAt c.seq .stepEvent }))) ∧
     ((s.site q).live = true → c.seq.st = .wait →
       (∀ k h t, c.seq.held = .queue k → queueOf c k = h :: t → exec (.waitEnd q) s =
         .next (s.setCroft q { withQueue c k t with hreg := Tab.set (fun _ => 0) c.hreg k h, seq := past c.seq })) ∧
       (c.seq.held = .stepEvent → (c.seq.stepNew || c.seq.armed) = true → exec (.waitEnd q) s =
         .next (s.setCroft q { c with seq := { past c.seq with stepNew := false, armed := false } })) ∧
       (∀ k, c.seq.held = .queue k → queueOf c k = [] → wfield (s.site q).nextWord 31 16 ≠ 0 → exec (.waitTimeout q) s =
         .next (reported (s.setCroft q { withBit c Reg.crfFault 3 with
           seq := { c.seq with st := .halted, held := .nothing, fault := true } }) q 3
           (wordOpcode (s.site q).nextWord) 0 none))))

/-- R91. -/
def Obligations.PostsPushHandles : Prop :=
  ∀ (q : Phys) (s : State) (w : W128), Issues s q w → wordClass w = 9 →
    let c := s.croft q
    let k := wfield w 33 32
    let imm : W32 := BitVec.ofNat 32 (wfield w 31 0)
    let v := if wfield w 36 36 = 1 then hregOf c (wfield w 35 34) + imm else imm
    (wfield w 37 37 = 0 → (queueOf c k).length < 16 →
      exec (.post q) s = .next (s.setCroft q { withQueue c k (queueOf c k ++ [v]) with seq := past c.seq })) ∧
    (wfield w 37 37 = 0 → 16 ≤ (queueOf c k).length →
      exec (.post q) s = .next (s.setCroft q { c with seq := heldAt c.seq (.postFull k) })) ∧
    (wfield w 37 37 = 1 → ∃ p, exec (.remotePost q) s =
        .next ({ s.setCroft q { c with seq := past c.seq } with outq := s.outq ++ [p] }) ∧
      p.op = 0x06 ∧ p.dest = BitVec.ofNat 16 (wfield w 62 48) ∧ p.opdata = BitVec.ofNat 96 (v.toNat + k * 2 ^ 32) ∧
      p.plane = (if wfield w 38 38 = 1 then Plane.b else Plane.a))

/-- R92, R93, R95. -/
def Obligations.WindowsOpenAndClose : Prop :=
  ∀ (q : Phys) (s : State),
    let c := s.croft q
    (∀ w, Issues s q w → wordClass w = 0xA → wfield w 1 0 = 1 → CanOpen s q (wfield w 5 2) (wfield w 47 32) (wfield w 63 48) →
      (wfield w 10 10 = 1 → (queueOf c (wfield w 12 11)).length < 16) →
      ∃ t, exec (.windowOpen q) s = .next t ∧ OnlyCroft q s t ∧ t.outq = s.outq ∧ t.reports = s.reports ∧
        OpenedTo c (t.croft q) (wfield w 5 2) (wfield w 47 32) (wfield w 63 48) (wfield w 8 6) ∧
        (t.croft q).seq = past c.seq ∧ (t.croft q).mem = c.mem ∧
        RegsKept c (t.croft q) [Reg.crfWinRange (wfield w 5 2), Reg.crfWinState (wfield w 5 2), Reg.carArrive (wfield w 5 2)] ∧
        ∀ k, queueOf (t.croft q) k = if wfield w 10 10 = 1 ∧ k = wfield w 12 11 then queueOf c k ++ [grantOf s q (wfield w 5 2)]
          else queueOf c k) ∧
    (∀ w, Issues s q w → wordClass w = 0xA → wfield w 1 0 = 2 → winState c (wfield w 5 2) = 1 →
      ∃ t, exec (.windowClose q) s = .next t ∧ OnlyCroft q s t ∧ t.outq = s.outq ∧ t.reports = s.reports ∧
        winGen (t.croft q) (wfield w 5 2) = (winGen c (wfield w 5 2) + 1) % 256 ∧
        (WinDrained c (wfield w 5 2) → winState (t.croft q) (wfield w 5 2) = 0 ∧ (t.croft q).seq = past c.seq) ∧
        (¬ WinDrained c (wfield w 5 2) → winState (t.croft q) (wfield w 5 2) = 2 ∧
          (t.croft q).seq = if wfield w 9 9 = 1 then heldAt (past c.seq) (.closing (wfield w 5 2)) else past c.seq) ∧
        (t.croft q).mem = c.mem ∧ (t.croft q).tokq = c.tokq ∧
        RegsKept c (t.croft q) [Reg.crfWinState (wfield w 5 2)]) ∧
    (∀ v : W32, s.atCroft q = true → c.resetting = false → bitsOf v.toNat 31 30 = 1 → CanOpen s q (bitsOf v.toNat 3 0) (winBase c (bitsOf v.toNat 3 0)) (winLen c (bitsOf v.toNat 3 0)) →
      ∃ t, exec (.winCmdOpen q v) s = .next t ∧ OnlyCroft q s t ∧ t.outq = s.outq ∧ t.reports = s.reports ∧
        OpenedTo c (t.croft q) (bitsOf v.toNat 3 0) (winBase c (bitsOf v.toNat 3 0)) (winLen c (bitsOf v.toNat 3 0)) (bitsOf v.toNat 6 4) ∧
        fld (regOf (t.croft q) Reg.crfWinCmd) 11 11 = 0 ∧ (t.croft q).mem = c.mem ∧ (t.croft q).tokq = c.tokq ∧
        (t.croft q).seq = c.seq ∧ RegsKept c (t.croft q) [Reg.crfWinRange (bitsOf v.toNat 3 0), Reg.crfWinState (bitsOf v.toNat 3 0),
          Reg.carArrive (bitsOf v.toNat 3 0), Reg.crfWinCmd]) ∧
    (∀ v : W32, s.atCroft q = true → c.resetting = false → bitsOf v.toNat 31 30 = 1 → (winState c (bitsOf v.toNat 3 0) = 1 ∨ winState c (bitsOf v.toNat 3 0) = 2 ∨
        65536 < winBase c (bitsOf v.toNat 3 0) + winLen c (bitsOf v.toNat 3 0) + 1 ∨
        min 16 (fld (regOf c Reg.crfWinLimit) 4 0) ≤ ((List.range 16).filter fun i => winState c i != 0).length) →
      exec (.winCmdOpen q v) s = .next (s.setCroft q { c with
        regs := Tab.set croftReset c.regs Reg.crfWinCmd (setFld (regOf c Reg.crfWinCmd) 11 11 1) })) ∧
    (∀ v : W32, s.atCroft q = true → c.resetting = false → bitsOf v.toNat 31 30 = 2 → winState c (bitsOf v.toNat 3 0) = 1 →
      ∃ t, exec (.winCmdClose q v) s = .next t ∧ OnlyCroft q s t ∧ t.outq = s.outq ∧ t.reports = s.reports ∧
        winGen (t.croft q) (bitsOf v.toNat 3 0) = (winGen c (bitsOf v.toNat 3 0) + 1) % 256 ∧
        (WinDrained c (bitsOf v.toNat 3 0) → winState (t.croft q) (bitsOf v.toNat 3 0) = 0) ∧
        (¬ WinDrained c (bitsOf v.toNat 3 0) → winState (t.croft q) (bitsOf v.toNat 3 0) = 2) ∧
        (t.croft q).mem = c.mem ∧ (t.croft q).tokq = c.tokq ∧
        (¬ (WinDrained c (bitsOf v.toNat 3 0) ∧ Live s q ∧
            (c.seq.held = .closing (bitsOf v.toNat 3 0) ∨ c.seq.held = .opening (bitsOf v.toNat 3 0))) → (t.croft q).seq = c.seq) ∧
        (WinDrained c (bitsOf v.toNat 3 0) → Live s q →
          (c.seq.held = .closing (bitsOf v.toNat 3 0) ∨ c.seq.held = .opening (bitsOf v.toNat 3 0)) →
          (t.croft q).seq = { c.seq with st := .run, held := .nothing }) ∧
        RegsKept c (t.croft q) [Reg.crfWinState (bitsOf v.toNat 3 0)]) ∧
    (∀ v : W32, s.atCroft q = true → c.resetting = true →
      (bitsOf v.toNat 31 30 = 1 → exec (.winCmdOpen q v) s = .next (s.setCroft q c)) ∧
      (bitsOf v.toNat 31 30 = 2 → exec (.winCmdClose q v) s = .next (s.setCroft q c))) ∧
    (∀ v : W32, s.atCroft q = false → (bitsOf v.toNat 31 30 = 1 → exec (.winCmdOpen q v) s = .next s) ∧
      (bitsOf v.toNat 31 30 = 2 → exec (.winCmdClose q v) s = .next s)) ∧
    (∀ w : Fin 16, winState c w = 2 → WinDrained c w → (s.site q).live = true →
      ∃ t, exec (.closeComplete q w) s = .next t ∧ OnlyCroft q s t ∧ t.outq = s.outq ∧ t.reports = s.reports ∧
        winState (t.croft q) w = 0 ∧ winGen (t.croft q) w = winGen c w ∧
        (t.croft q).seq = (if c.seq.held = .closing w ∨ c.seq.held = .opening w then
          { c.seq with st := .run, held := .nothing } else c.seq) ∧
        (t.croft q).mem = c.mem ∧ (t.croft q).tokq = c.tokq ∧ RegsKept c (t.croft q) [Reg.crfWinState w])

/-- R84, R85, R89, R90, R423. R423 names no STATE while a STOP drains: that it reads RUN, or HALTED where it was HALTED, and that STOP_IDLE makes a HALTED sequencer IDLE, is the model's reading, log 7. -/
def Obligations.SequencerStartsAndStops : Prop :=
  ∀ (q : Phys) (s : State),
    let c := s.croft q
    (∀ v : W32, v.getLsbD 2 = true → v.getLsbD 3 = false → s.atCroft q = true → Live s q → (c.seq.st = .idle ∨ c.seq.st = .halted) →
      bit (regOf c Reg.crfSeqSlots) (bitsOf v.toNat 1 0) = true →
      exec (.seqStart q v) s = .next (s.setCroft q { withReg c Reg.crfSeqCtrl (setFld (regOf c Reg.crfSeqCtrl) 1 0 (bitsOf v.toNat 1 0)) with
        seq := { c.seq with st := .run, slot := bitsOf v.toNat 1 0, pc := 0, loops := [], held := .nothing, stopping := false } })) ∧
    (Live s q → c.seq.st ≠ .idle → exec (.seqStop q) s = .next (s.setCroft q { c with
        seq := { c.seq with st := if c.seq.st = .halted then .halted else .run, held := .nothing, stopping := true } })) ∧
    (c.seq.stopping = true → UnitsIdle c →
      exec (.stopIdle q) s = .next (s.setCroft q { c with seq := { c.seq with st := .idle, stopping := false } })) ∧
    (∀ v : W32, s.atCroft q = true → c.resetting = false → exec (.crfSeqSlotsWrite q v) s = .next (s.setCroft q (withReg c Reg.crfSeqSlots (BitVec.ofNat 64
        (bitsOf v.toNat 3 0 ||| if c.seq.st = .run ∨ c.seq.st = .wait then
          2 ^ c.seq.slot &&& (regOf c Reg.crfSeqSlots).toNat else 0))))) ∧
    (∀ v : W32, s.atCroft q = true → c.resetting = true → exec (.crfSeqSlotsWrite q v) s = .next (s.setCroft q c)) ∧
    (∀ v : W32, s.atCroft q = false → exec (.crfSeqSlotsWrite q v) s = .next s ∧
      (v.getLsbD 2 = true → v.getLsbD 3 = false → exec (.seqStart q v) s = .next s)) ∧
    (∀ w, Issues s q w → wordClass w = 0xB →
      exec (.phase q) s = .next (s.setCroft q { c with seq := heldAt c.seq (.phase (wfield w 1 0)) })) ∧
    (∀ slot, Live s q → c.seq.st = .wait → c.seq.held = .phase slot → UnitsIdle c → SlotChansEnded c →
      bit (regOf c Reg.crfSeqSlots) slot = true → exec (.phaseEnd q) s = .next (s.setCroft q { c with
        seq := { c.seq with st := .run, held := .nothing, slot, pc := 0, loops := [], issued := c.seq.issued + 1 } })) ∧
    (∀ w, Issues s q w → wordClass w = 0xD → exec (.halt q) s = .next (s.setCroft q { c with
        seq := { past c.seq with st := .halted, fault := false } })) ∧
    (Live s q → c.seq.st = .run → c.seq.stopping = false → (512 ≤ c.seq.pc ∨ wordLegal (s.site q).nextWord = false) →
      exec (.schedIllegal q) s = .next (reported (s.setCroft q { withBit c Reg.crfFault 2 with
        seq := { c.seq with st := .halted, held := .nothing, fault := true } }) q 2 (wordOpcode (s.site q).nextWord) 0 none))

/-- R91, R94, R245. The OPCODE of the refused token's event is the model's, log 23. -/
def Obligations.RemoteAccessIsServed : Prop :=
  ((∀ (s : State) (k : Packet), k.wellFormed = true → s.waitsTurn k = true → exec (.write k) s = .next s ∧ exec (.readReq k) s = .next s ∧
     exec (.token k) s = .next s) ∧
   ∀ (q : Nat) (s : State) (k : Packet), s.reached k = some q → k.wellFormed = true → InTurn s k → Passes s q k →
     let c := s.croft q
     (k.op = 0x01 → InWindow c k (if k.origVc = 2 then 2 else 1) → exec (.write k) s = .next ((s.take k).setCroft q
       { c with accepted := c.accepted ++ [⟨k, 32 * winBase c k.window.toNat + k.offset.toNat⟩] })) ∧
     (k.op = 0x02 → InWindow c k 0 → k.length.toNat ≤ 4096 → (∀ cw, eccAt c cw = .clean) →
       32 * winBase c k.window.toNat + k.offset.toNat + k.length.toNat ≤ 0x200000 →
       ∃ ps, exec (.readReq k) s = .next { (s.take k).setCroft q c with outq := s.outq ++ ps } ∧ ps.length = (k.length.toNat + 511) / 512 ∧
         ∀ i (h : i < ps.length), Answers k ps[i] 0x03 ∧ ps[i].offset.toNat = k.offset.toNat + 512 * i ∧
           ps[i].length.toNat = min 512 (k.length.toNat - 512 * i) ∧
           ps[i].payload = Memory.read c.mem (32 * winBase c k.window.toNat + k.offset.toNat + 512 * i) (min 512 (k.length.toNat - 512 * i))) ∧
     (k.op = 0x06 → (queueOf c (bitsOf k.opdata.toNat 33 32)).length < 16 →
       ∃ a, Answers k a 0x04 ∧ exec (.token k) s = .next { (s.take k).setCroft q
         (withQueue c (bitsOf k.opdata.toNat 33 32) (queueOf c (bitsOf k.opdata.toNat 33 32) ++ [k.opdata.setWidth 32])) with
           outq := s.outq ++ [a] }) ∧
     (k.op = 0x06 → 16 ≤ (queueOf c (bitsOf k.opdata.toNat 33 32)).length →
       ∃ a, Answers k a 0x05 ∧ a.nack = 0x0C ∧ exec (.token k) s = .next (reported
         { (s.take k).setCroft q (withBit c Reg.crfFault 5) with outq := s.outq ++ [a] } q 5 0x3006 0 (some k.tclass)))) ∧
  (∀ (q : Phys) (s : State) (a : Accepted) (rest : List Accepted),
     let c := s.croft q
     c.accepted = a :: rest →
     ∃ t, exec (.writeCommit q) s = .next t ∧ OnlyCroft q s t ∧ (t.croft q).accepted = rest ∧
       (t.croft q).mem = (if a.pkt.payload = [] then c.mem else Memory.write c.mem a.addr a.pkt.payload) ∧
       (a.pkt.window.toNat < 16 → regOf (t.croft q) (Reg.carArrive a.pkt.window.toNat) =
         BitVec.ofNat 64 (satAdd (regOf c (Reg.carArrive a.pkt.window.toNat)).toNat a.pkt.payload.length)) ∧
       (winState c a.pkt.window.toNat = 2 → WinDrained { c with accepted := rest } a.pkt.window.toNat → Live s q →
         (c.seq.held = .closing a.pkt.window.toNat ∨ c.seq.held = .opening a.pkt.window.toNat) →
         (t.croft q).seq = { c.seq with st := .run, held := .nothing }) ∧
       (¬ (winState c a.pkt.window.toNat = 2 ∧ WinDrained { c with accepted := rest } a.pkt.window.toNat ∧ Live s q ∧
           (c.seq.held = .closing a.pkt.window.toNat ∨ c.seq.held = .opening a.pkt.window.toNat)) → (t.croft q).seq = c.seq) ∧
       (t.croft q).tokq = c.tokq ∧ (t.croft q).chans = c.chans ∧
       ∃ rs, Reports rs ∧ (a.pkt.origVc = 2 → t.outq = s.outq ++ rs) ∧
         (a.pkt.origVc ≠ 2 → ∃ k, Answers a.pkt k 0x04 ∧ t.outq = s.outq ++ k :: rs))

/-- R98, R99, R100, R244. -/
def Obligations.CroftResetsAndFences : Prop :=
  (∀ (q : Phys) (s : State),
     let c := s.croft q
     (s.atCroft q = true → exec (.croftReset q) s = .next (s.setCroft q { c with resetting := true })) ∧
     (s.atCroft q = false → exec (.croftReset q) s = .next s) ∧
     (c.resetting = true → ∃ t, exec (.croftResetDone q) s = .next t ∧ OnlyCroft q s t ∧
       let d := t.croft q
       d.resetting = false ∧ d.resetSince = (s.site q).fenced ∧ d.mem = [] ∧ d.ecc = [] ∧ d.seq = {} ∧ d.tokq = [] ∧ d.hreg = [] ∧
         UnitsIdle d ∧ d.accepted = [] ∧ d.repairs = c.repairs ∧
         (∀ w < 16, winState d w = 0 ∧ winGen d w = (winGen c w + 1) % 256 ∧ winPerm d w = winPerm c w) ∧
         (∀ i < 8, (chanOf d i).st = .free ∧ (chanOf d i).gen = (chanOf c i).gen + 1) ∧
         (∀ o, Site.keptByReset o = false → regOf d o = croftReset o) ∧
         (c.accepted = [] → ∀ o, Site.keptByReset o = true → (∀ w < 16, o ≠ Reg.crfWinState w) → regOf d o = regOf c o))) ∧
  (∀ (q : Phys) (s : State),
     let c := s.croft q
     (s.atCroft q = true → c.resetting = false → bit (regOf c Reg.crfCtrl) 0 = false → ∃ t, exec (.fenceWrite q true) s = .next t ∧ OnlyCroft q s t ∧
       t.outq = s.outq ∧ t.reports = s.reports ∧
       let d := t.croft q
       bit (regOf d Reg.crfCtrl) 0 = true ∧ RegsKept c d [Reg.crfCtrl] ∧ d.seq.st = .idle ∧ d.seq.stopping = false ∧
         UnitsIdle d ∧ (∀ i < 8, chanOf d i = (chanOf c i).fence) ∧ d.mem = c.mem ∧ d.tokq = c.tokq ∧
         d.accepted = c.accepted ∧ d.resetSince = c.resetSince) ∧
     (s.atCroft q = true → c.resetting = false → c.resetSince = true → s.cut q = false → c.faultFence = false →
       exec (.fenceWrite q false) s = .next (s.setCroft q { withReg c Reg.crfCtrl (regOf c Reg.crfCtrl &&& ~~~ 1) with
         resetSince := false })) ∧
     (s.atCroft q = true → (c.resetSince = false ∨ s.cut q = true ∨ c.faultFence = true) →
       exec (.fenceWrite q false) s = .next (s.setCroft q c)) ∧
     (s.atCroft q = true → c.resetting = true → ∀ on, exec (.fenceWrite q on) s = .next (s.setCroft q c)) ∧
     (s.atCroft q = false → ∀ on, exec (.fenceWrite q on) s = .next s))

/-- R81 to R83, R250. What the check bits say of a codeword is State's own form of them (log 15). -/
def Obligations.StepNumbersAndRepairs : Prop :=
  (∀ (q : Phys) (s : State) (v : W32),
     let c := s.croft q
     (s.atCroft q = true → c.resetting = false → ((regOf c Reg.crfStep).toNat ≠ v.toNat ∨ c.stepWritten = false) → ∃ t, exec (.crfStepWrite q v) s = .next t ∧ OnlyCroft q s t ∧
       let d := t.croft q
       regOf d Reg.crfStep = v.setWidth 64 ∧ (∀ k < 16, regOf d (Reg.arrAmax k) = 0 ∧ regOf d (Reg.vecAmax k) = 0) ∧
         d.captured = c.counts ∧ d.seq = { c.seq with stepNew := true } ∧
         (∀ i < 8, (chanOf c i).st ≠ .free → chanOf d i = { chanOf c i with stepNew := true }) ∧
         d.stepWritten = true ∧ d.mem = c.mem ∧ d.tokq = c.tokq) ∧
     (s.atCroft q = true → c.resetting = true → exec (.crfStepWrite q v) s = .next (s.setCroft q c)) ∧
     (s.atCroft q = false → exec (.crfStepWrite q v) s = .next s) ∧
     (s.atCroft q = true → (regOf c Reg.crfStep).toNat = v.toNat → c.stepWritten = true → Live s q → (c.seq.st = .idle ∨ c.seq.st = .halted) →
       ∃ t, exec (.crfStepWrite q v) s = .next t ∧ OnlyCroft q s t ∧ t.outq = s.outq ∧ t.reports = s.reports ∧
       let d := t.croft q
       (∀ k, queueOf d k = []) ∧ (∀ k, hregOf d k = 0) ∧ d.counts = c.captured ∧ d.seq = { c.seq with armed := true } ∧
         (∀ k < 16, regOf d (Reg.arrAmax k) = 0 ∧ regOf d (Reg.vecAmax k) = 0) ∧ d.chans = c.chans ∧ d.mem = c.mem)) ∧
  (∀ (q : Phys) (s : State),
     let c := s.croft q
     let bank := fld (regOf c Reg.crfRepairSel) 10 8
     let entry := fld (regOf c Reg.crfRepairSel) 4 0
     (∀ v : W32, s.atCroft q = true → c.resetting = false → v.getLsbD 31 = true → c.repairing = none → repairAt c bank entry = none → ¬ RowTaken c bank (bitsOf v.toNat 11 0) →
       exec (.crfRepairDataWrite q v) s = .next (s.setCroft q { withReg c Reg.crfRepairStatus (setFld (regOf c Reg.crfRepairStatus) 9 9 0) with
           repairing := some (bank, entry, bitsOf v.toNat 11 0) })) ∧
     (∀ v : W32, s.atCroft q = true → c.resetting = false → v.getLsbD 31 = true → c.repairing = none → (repairAt c bank entry ≠ none ∨ RowTaken c bank (bitsOf v.toNat 11 0)) →
       exec (.crfRepairDataWrite q v) s = .next (s.setCroft q
         (withReg c Reg.crfRepairStatus (setFld (regOf c Reg.crfRepairStatus) 9 9 1)))) ∧
     (∀ v : W32, s.atCroft q = true → c.resetting = true → exec (.crfRepairDataWrite q v) s = .next (s.setCroft q c)) ∧
     (∀ v : W32, s.atCroft q = false → exec (.crfRepairDataWrite q v) s = .next s) ∧
     (∀ b e r, c.repairing = some (b, e, r) → b < 8 → r < 4096 → ∃ t, exec (.repairDone q) s = .next t ∧ OnlyCroft q s t ∧
       let d := t.croft q
       d.repairing = none ∧ d.repairs = Tab.set (fun _ => none) c.repairs (32 * b + e) (some r) ∧ d.mem = c.mem ∧
         (∀ j < 2, eccAt d (16 * r + 2 * b + j) =
           if eccAt c (16 * r + 2 * b + j) = .clean ∨ eccAt c (16 * r + 2 * b + j) = .corr then .clean else .uncorr) ∧
         d.seq = c.seq ∧ d.tokq = c.tokq ∧ d.chans = c.chans) ∧
     (∀ (b : Fin 8) (r : Fin 4096), ∃ t, exec (.scrub q b r) s = .next t ∧ OnlyCroft q s t ∧
       let d := t.croft q
       (∀ j < 2, eccAt d (16 * r + 2 * b + j) =
           if eccAt c (16 * r + 2 * b + j) = .corr then .clean else eccAt c (16 * r + 2 * b + j)) ∧
         d.mem = c.mem ∧ d.repairs = c.repairs ∧ d.seq = c.seq ∧ d.tokq = c.tokq ∧ d.chans = c.chans))

/-- R226 to R229, R243. -/
def Obligations.CarterChannelsAreRuled : Prop :=
  (∀ (q : Phys) (s : State) (w : W128), Issues s q w → wordClass w = 5 →
     let c := s.croft q
     let i := wfield w 107 105
     let k := wfield w 83 82
     let h := hregOf c (wfield w 87 86)
     let prog := if wfield w 88 88 = 1 then (wfield w 104 89 + h.toNat) % 65536 else wfield w 104 89
     let c0 := if wfield w 85 85 = 1 then h else 0
     (wordOp w = 1 → (chanOf c i).active = false → (wfield w 84 84 = 1 → (queueOf c k).length < 16) →
       ∃ t, exec (.carterWordStart q) s = .next t ∧ t.outq = s.outq ∧
         ChanTo q i s t { st := .run, gen := (chanOf c i).gen + 1, pc := prog, c0, slot := some c.seq.slot, seq := (chanOf c i).seq }
           { (if wfield w 84 84 = 1 then withQueue c k (queueOf c k ++ [chanHandle s q i ((chanOf c i).gen + 1)]) else c) with
             seq := past c.seq }) ∧
     (wordOp w = 1 → (chanOf c i).active = true → exec (.carterWordStart q) s = .next (reported (s.setCroft q
       { withBit c Reg.carFault 2 with seq := { past c.seq with st := .halted, fault := true } }) q 42 (wordOpcode w) 0 none)) ∧
     (wordOp w = 2 → ∃ t, exec (.carterWordAbort q) s = .next t ∧ t.outq = s.outq ∧
       ChanTo q i s t (aborted (chanOf c i)) { c with seq := past c.seq }) ∧
     (wordOp w = 3 → ∃ t, exec (.carterWordDestroy q) s = .next t ∧ t.outq = s.outq ∧
       ChanTo q i s t (destroyed (chanOf c i)) { c with seq := past c.seq })) ∧
  ((∀ (q : Phys) (s : State) (v : W32), ¬ Live s q → ∀ e, (bitsOf v.toNat 31 30 = 1 ∧ e = .carCmdStart q v ∨
       bitsOf v.toNat 31 30 = 2 ∧ e = .carCmdAbort q v ∨ bitsOf v.toNat 31 30 = 3 ∧ e = .carCmdDestroy q v) →
     exec e s = .next (s.setCroft q (s.croft q))) ∧
   ∀ (q : Phys) (s : State) (v : W32), Live s q →
     let c := s.croft q
     let i := bitsOf v.toNat 18 16
     let cmd := fun (err : Nat) => setFld (setFld (regOf c Reg.carCmd) 18 0 (bitsOf v.toNat 18 0)) 29 29 err
     let current := (regOf c Reg.carCmdHandle).toNat = (chanHandle s q i (chanOf c i).gen).toNat
     (bitsOf v.toNat 31 30 = 1 → (chanOf c i).active = false → ∃ t, exec (.carCmdStart q v) s = .next t ∧ t.outq = s.outq ∧
       ChanTo q i s t { st := .run, gen := (chanOf c i).gen + 1, pc := bitsOf v.toNat 15 0, slot := none, seq := (chanOf c i).seq }
         (withReg c Reg.carCmd (cmd 0))) ∧
     (bitsOf v.toNat 31 30 = 1 → (chanOf c i).active = true →
       exec (.carCmdStart q v) s = .next (s.setCroft q (withReg c Reg.carCmd (cmd 1)))) ∧
     (bitsOf v.toNat 31 30 = 2 → current → ∃ t, exec (.carCmdAbort q v) s = .next t ∧ t.outq = s.outq ∧
       ChanTo q i s t (aborted (chanOf c i)) (withReg c Reg.carCmd (cmd 0))) ∧
     (bitsOf v.toNat 31 30 = 3 → current → ∃ t, exec (.carCmdDestroy q v) s = .next t ∧ t.outq = s.outq ∧
       ChanTo q i s t (destroyed (chanOf c i)) (withReg c Reg.carCmd (cmd 0))) ∧
     (¬ current → (bitsOf v.toNat 31 30 = 2 → exec (.carCmdAbort q v) s = .next (s.setCroft q (withReg c Reg.carCmd (cmd 1)))) ∧
       (bitsOf v.toNat 31 30 = 3 → exec (.carCmdDestroy q v) s = .next (s.setCroft q (withReg c Reg.carCmd (cmd 1))))))

/-- R88 (a true condition wins), R231, R235, R241. -/
def Obligations.CarterLoopsAndWaits : Prop :=
  (∀ (q : Phys) (i : Chn) (s : State) (w : W256), CarterAt s q i w →
     let c := s.croft q
     let v := fetchedTo (chanOf c i) w
     let id := cfield w 248 245
     (carOpc w = 3 → ∃ t, exec (.carterLoop q i) s = .next t ∧ t.outq = s.outq ∧
       ChanTo q i s t { v with pc := v.pc + 1, loops := v.loops ++ [{ body := v.pc + 1, len := cfield w 233 226, iter := 0, count := cfield w 249 234 + 1, src := BitVec.ofNat 32 (cfield w 225 194), dst := BitVec.ofNat 32 (cfield w 193 162) }], fetched := false } c) ∧
     (carOpc w = 4 → cfield w 251 249 = 0 → ∀ h l, queueOf c id = h :: l → (s.site q).served i 0 id = false →
       ∃ t, exec (.carterWaitQueue q i) s = .next t ∧ t.outq = s.outq ∧
         ChanTo q i s t (if cfield w 244 244 = 1 then { v with c1 := h } else { v with c0 := h }).advance (withQueue c id l)) ∧
     (carOpc w = 4 → cfield w 251 249 = 1 → bit (regOf c Reg.carEvent) id = true → (s.site q).served i 1 id = false →
       ∃ t, exec (.carterWaitEvent q i) s = .next t ∧ t.outq = s.outq ∧
         ChanTo q i s t v.advance (withReg c Reg.carEvent (regOf c Reg.carEvent &&& ~~~ BitVec.ofNat 64 (2 ^ id)))) ∧
     (carOpc w = 4 → cfield w 251 249 = 2 → max 1 (cfield w 227 196) ≤ (regOf c (Reg.carArrive id)).toNat →
       ∃ t, exec (.carterWaitArrival q i) s = .next t ∧ t.outq = s.outq ∧
         ChanTo q i s t v.advance (withReg c (Reg.carArrive id)
           (BitVec.ofNat 64 ((regOf c (Reg.carArrive id)).toNat - max 1 (cfield w 227 196))))) ∧
     (carOpc w = 4 → cfield w 251 249 = 3 → v.stepNew = true → ∃ t, exec (.carterWaitStep q i) s = .next t ∧ t.outq = s.outq ∧
         ChanTo q i s t { v with stepNew := false }.advance c) ∧
     (carOpc w = 4 → cfield w 251 249 = 4 → (chanOf c id).active = false →
       ∃ t, exec (.carterWaitChannel q i) s = .next t ∧ t.outq = s.outq ∧ ChanTo q i s t v.advance c) ∧
     (carOpc w = 4 → (s.site q).carWaitMet i w = false → ∀ e, (cfield w 251 249 = 0 ∧ e = .carterWaitQueue q i ∨
         cfield w 251 249 = 1 ∧ e = .carterWaitEvent q i ∨ cfield w 251 249 = 2 ∧ e = .carterWaitArrival q i ∨
         cfield w 251 249 = 3 ∧ e = .carterWaitStep q i ∨ cfield w 251 249 = 4 ∧ e = .carterWaitChannel q i) →
       ∃ t, exec e s = .next t ∧ t.outq = s.outq ∧ ChanTo q i s t { v with st := .wait } c)) ∧
  (∀ (q : Phys) (i : Chn) (s : State), Live s q → (chanOf (s.croft q) i).st = .wait →
     let c := s.croft q
     let v := chanOf c i
     let w := v.instr
     let id := cfield w 248 245
     (∀ e, (e = .carterWaitEnd q i ∨ cfield w 243 228 ≠ 0 ∧ e = .carterWaitTimeout q i) →
       (cfield w 251 249 = 0 → ∀ h l, queueOf c id = h :: l → (s.site q).served i 0 id = false → ∃ t, exec e s = .next t ∧ t.outq = s.outq ∧
         ChanTo q i s t (if cfield w 244 244 = 1 then { v with c1 := h } else { v with c0 := h }).advance (withQueue c id l)) ∧
       (cfield w 251 249 = 1 → bit (regOf c Reg.carEvent) id = true → (s.site q).served i 1 id = false → ∃ t, exec e s = .next t ∧
         t.outq = s.outq ∧ ChanTo q i s t v.advance (withReg c Reg.carEvent (regOf c Reg.carEvent &&& ~~~ BitVec.ofNat 64 (2 ^ id)))) ∧
       (cfield w 251 249 = 2 → max 1 (cfield w 227 196) ≤ (regOf c (Reg.carArrive id)).toNat →
         ∃ t, exec e s = .next t ∧ t.outq = s.outq ∧ ChanTo q i s t v.advance (withReg c (Reg.carArrive id)
           (BitVec.ofNat 64 ((regOf c (Reg.carArrive id)).toNat - max 1 (cfield w 227 196))))) ∧
       (cfield w 251 249 = 3 → v.stepNew = true → ∃ t, exec e s = .next t ∧ t.outq = s.outq ∧
         ChanTo q i s t { v with stepNew := false }.advance c) ∧
       (cfield w 251 249 = 4 → (chanOf c id).active = false → ∃ t, exec e s = .next t ∧ t.outq = s.outq ∧
         ChanTo q i s t v.advance c)) ∧
     (cfield w 243 228 ≠ 0 → (s.site q).carWaitMet i w = false → ∃ t syn, exec (.carterWaitTimeout q i) s = .next t ∧
       t.outq = (reported s q 40 0x2004 syn (some v.tclass)).outq ∧
       ChanTo q i s { t with reports := s.reports } (draining v 7 false) (withBit c Reg.carFault 0) ∧
       t.reports = (reported s q 40 0x2004 syn (some v.tclass)).reports))

/-- R80, R230, R236, R237, R241, R247. That an illegal instruction raises CARTER_ILLEGAL alone, CARTER_HALT staying clear, is the model's reading of R230 beside R241, log 12; the OPCODE and CLASS of its event are the model's, log 23. -/
def Obligations.CarterSignalsEndsAndIllegals : Prop :=
  (∀ (q : Phys) (i : Chn) (s : State) (w : W256), CarterAt s q i w →
     let c := s.croft q
     let v := fetchedTo (chanOf c i) w
     let k := cfield w 249 248
     let imm : W32 := BitVec.ofNat 32 (cfield w 240 209)
     let h : W32 := if cfield w 242 241 = 0 then imm else if cfield w 242 241 = 1 then v.c0 + imm
       else if cfield w 242 241 = 2 then v.c1 + imm else chanHandle s q i v.gen
     let quiet := ∀ r ∈ v.outst, r.pkt.op = 0x06
     (carOpc w = 5 → cfield w 251 250 = 0 → quiet → (queueOf c k).length < 16 → ∃ t, exec (.signalQueue q i) s = .next t ∧
       t.outq = s.outq ∧ ChanTo q i s t v.advance (withQueue c k (queueOf c k ++ [h]))) ∧
     (carOpc w = 5 → cfield w 251 250 = 1 → quiet → v.outst.length < 16 → (s.site q).outstanding < 64 →
       ∃ t p, exec (.signalToken q i) s = .next t ∧ t.outq = s.outq ++ [p] ∧
         p.op = 0x06 ∧ p.dest.toNat = cfield w 208 194 ∧ p.tag.toNat = i * 8192 + v.seq % 8192 ∧ p.tclass = v.tclass ∧ p.vc = 0 ∧
         p.opdata.toNat = h.toNat + k * 2 ^ 32 ∧ p.plane = (if cfield w 243 243 = 1 then .b else .a) ∧
         ChanTo q i s t { v with seq := (v.seq + 1) % 8192, outst := v.outst ++ [({ pkt := p } : Req)] }.advance c) ∧
     (carOpc w = 5 → cfield w 251 250 = 2 → quiet → ∃ t, exec (.signalFlag q i) s = .next t ∧ t.outq = s.outq ∧
       ChanTo q i s t v.advance (withBit c Reg.carEvent (cfield w 247 244))) ∧
     (carOpc w = 0 → v.outst = [] → ∃ t, exec (.carterEnd q i) s = .next t ∧ t.outq = s.outq ∧
       ChanTo q i s t { v with st := .done } c)) ∧
  (∀ (q : Phys) (i : Chn) (s : State), Live s q →
     let c := s.croft q
     let v := chanOf c i
     let w := (s.site q).carPeek i
     v.st = .run → v.moving = none → v.fetched = false → v.fetchTries = 0 → eccAt c v.pc = .clean →
     (65536 ≤ v.pc ∨ carLegal w = false ∨ carOpc w = 3 ∧ Site.loopIllegal v w = true) →
     let d := withBit c Reg.carFault 1
     let u := reported s q 41 (carOpcode (if 65536 ≤ v.pc then 0 else carOpc w)) 0 (some v.tclass)
     ∃ t, exec (.carterIllegal q i) s = .next t ∧ t.outq = u.outq ∧ t.reports = u.reports ∧
       ChanTo q i s { t with reports := s.reports } (draining (if 65536 ≤ v.pc then v else fetchedTo v w) 4 false)
         (if v.slot.isSome = true then { d with seq := { c.seq with st := .halted, held := .nothing, fault := true } } else d))

/-- R230 to R232, R238, R239. -/
def Obligations.CarterMovesBytes : Prop :=
  ∀ (q : Phys) (i : Chn) (s : State) (w : W256), CarterAt s q i w →
    let c := s.croft q
    let m := Site.moveOf (chanOf c i) w
    let W := cfield w 116 112
    let S := cfield w 111 108 + 1
    let G := 2 ^ cfield w 107 105
    let stride := cfield w 104 73
    cfield w 251 250 = 0 → cfield w 249 248 = 0 → Movable s q i m →
    (carOpc w = 1 → ∃ t, exec (.move q i) s = .next t ∧ Moved q i s t w m ∧
      ∀ p < m.len, Memory.byte (t.croft q).mem (m.dstOff + p) = Memory.byte c.mem (m.srcOff + p)) ∧
    (carOpc w = 2 → cfield w 120 117 = 1 → ∃ t, exec (.splitPlanes q i) s = .next t ∧ Moved q i s t w m ∧
      ∀ j < W, ∀ b < m.len / W, ∀ k < 8,
        memBit (t.croft q).mem ((m.dstOff + j * stride + b) % 2 ^ 32) k = memBit c.mem m.srcOff ((8 * b + k) * W + j)) ∧
    (carOpc w = 2 → cfield w 120 117 = 2 → ∃ t, exec (.mergePlanes q i) s = .next t ∧ Moved q i s t w m ∧
      ∀ n < 8 * m.len, memBit (t.croft q).mem m.dstOff n = memBit c.mem ((m.srcOff + n % W * stride) % 2 ^ 32) (n / W)) ∧
    (carOpc w = 2 → cfield w 120 117 = 3 → ∃ t, exec (.interleave q i) s = .next t ∧ Moved q i s t w m ∧
      ∀ p < m.len, Memory.byte (t.croft q).mem (m.dstOff + p) =
        Memory.byte c.mem ((m.srcOff + p / G % S * stride + p / G / S * G + p % G) % 2 ^ 32)) ∧
    (carOpc w = 2 → cfield w 120 117 = 4 → ∃ t, exec (.deinterleave q i) s = .next t ∧ Moved q i s t w m ∧
      ∀ j < S, ∀ r < m.len / S, Memory.byte (t.croft q).mem ((m.dstOff + j * stride + r) % 2 ^ 32) =
        Memory.byte c.mem (m.srcOff + (r / G * S + j) * G + r % G))

/-- R232, R233, R242. -/
def Obligations.CarterMovesSendPackets : Prop :=
  ∀ (q : Phys) (i : Chn) (s : State) (w : W256), CarterAt s q i w → carOpc w = 1 →
    let c := s.croft q
    let v := fetchedTo (chanOf c i) w
    let m := Site.moveOf v w
    Movable s q i m → (s.site q).outstanding < 64 →
    (m.srcWin = true → m.srcOff % 4096 + m.len ≤ 4096 → ∃ t p, exec (.move q i) s = .next t ∧ t.outq = s.outq ++ [p] ∧
      p.op = 0x02 ∧ p.dest.toNat = bitsOf m.grant.toNat 26 12 ∧ p.window.toNat = bitsOf m.grant.toNat 11 8 ∧
      p.gen.toNat = bitsOf m.grant.toNat 7 0 ∧ p.offset.toNat = m.srcOff ∧ p.length.toNat = m.len ∧
      p.tag.toNat = i * 8192 + v.seq % 8192 ∧ p.tclass = m.tclass ∧
      ChanTo q i s t { v with tclass := m.tclass, seq := (v.seq + 1) % 8192
                              outst := [{ pkt := p, dst := m.dstOff, len := m.len }] }.advance c) ∧
    (m.srcWin = false → m.dst = 1 → m.dstOff % 512 + m.len ≤ 512 → ∃ t p, exec (.move q i) s = .next t ∧ t.outq = s.outq ++ [p] ∧
      p.op = 0x01 ∧ p.origVc = 0 ∧ p.dest.toNat = bitsOf m.grant.toNat 26 12 ∧ p.window.toNat = bitsOf m.grant.toNat 11 8 ∧
      p.gen.toNat = bitsOf m.grant.toNat 7 0 ∧ p.offset.toNat = m.dstOff ∧ p.length.toNat = m.len ∧
      p.payload = Memory.read c.mem m.srcOff m.len ∧ p.tag.toNat = i * 8192 + v.seq % 8192 ∧ p.tclass = m.tclass ∧
      ChanTo q i s t { v with tclass := m.tclass, seq := (v.seq + 1) % 8192, outst := [{ pkt := p, len := m.len }] }.advance c) ∧
    (m.srcWin = false → m.dst = 2 → m.dstOff % 512 + m.len ≤ 512 → ∃ t p, exec (.move q i) s = .next t ∧ t.outq = s.outq ++ [p] ∧
      p.op = 0x01 ∧ p.origVc = 2 ∧ p.mgroup.toNat = m.mgroup ∧ p.window.toNat = m.mwin ∧ p.gen.toNat = m.mgen ∧
      p.offset.toNat = m.dstOff ∧ p.length.toNat = m.len ∧ p.payload = Memory.read c.mem m.srcOff m.len ∧ p.plane = .b ∧
      p.who = .castCarter q i v.gen ∧ p.tag.toNat = i * 8192 + v.seq % 8192 ∧
      ChanTo q i s t { v with tclass := m.tclass, seq := (v.seq + 1) % 8192 }.advance c) ∧
    (m.srcWin = false → m.dst = 3 → m.dstOff % 4 = 0 → m.len = 4 → ∃ t p, exec (.move q i) s = .next t ∧ t.outq = s.outq ++ [p] ∧
      p.op = 0x12 ∧ p.dest.toNat = m.ep ∧ p.offset.toNat = m.dstOff ∧ p.opdata.toNat = ofLe (Memory.read c.mem m.srcOff 4) ∧
      p.tag.toNat = i * 8192 + v.seq % 8192 ∧
      ChanTo q i s t { v with tclass := m.tclass, seq := (v.seq + 1) % 8192, outst := [{ pkt := p, len := 4 }] }.advance c)

/-- R38, R90, R158, R159, R421. The content of a summary's and a tally call's packet is the model's, log 124. -/
def Obligations.TalliesAreSummedAndForwarded : Prop :=
  (∀ (q : Phys) (s : State) (w : W128), Issues s q w → wordClass w = 0xC →
     let c := s.croft q
     ∃ p, exec (.tally q) s = .next { s.setCroft q { c with counts := {}, seq := past c.seq } with outq := s.outq ++ [p] } ∧
       p.op = 0x10 ∧ p.dest.toNat = 0x7200 + q / 500 ∧ p.holding = 15 ∧ p.vc = 3 ∧
       bitsOf p.opdata.toNat 95 64 = (regOf c Reg.crfStep).toNat % 2 ^ 32 ∧ bitsOf p.opdata.toNat 63 48 = min c.counts.sat 65535 ∧
       bitsOf p.opdata.toNat 47 32 = min c.counts.inf 65535 ∧ bitsOf p.opdata.toNat 31 16 = min c.counts.nan 65535 ∧
       bitsOf p.opdata.toNat 15 1 = min c.counts.resid 32767 ∧ bitsOf p.opdata.toNat 0 0 = 1) ∧
  (∀ (p : Par) (s : State) (k : Packet), k.wellFormed = true → InTurn s k →
     let v := s.parish p
     let d := k.opdata.toNat
     let step : W32 := BitVec.ofNat 32 (bitsOf d 95 64)
     let sums : Tally → Tally := fun a => { a with
       sat := min (a.sat + bitsOf d 63 48) (2 ^ 32 - 1), inf := min (a.inf + bitsOf d 47 32) (2 ^ 32 - 1)
       nan := min (a.nan + bitsOf d 31 16) (2 ^ 32 - 1), resid := min (a.resid + bitsOf d 15 1) (2 ^ 32 - 1)
       acks := a.acks + bitsOf d 0 0, timing := true }
     v.st ≠ .off → v.st ≠ .tripped →
     (step = v.tallyStep → v.tally0.acks + bitsOf d 0 0 < v.expect → v.tally0.elapsed = false →
       exec (.tallyRecord p k) s = .next ((s.take k).setParish p { v with tally0 := sums v.tally0 })) ∧
     (step = v.tallyStep + 1 → 0 < v.expect → v.tally0.acks < v.expect → v.tally0.elapsed = false →
       exec (.tallyRecord p k) s = .next ((s.take k).setParish p { v with tally1 := sums v.tally1 })) ∧
     (step = v.tallyStep → 0 < v.expect → v.expect ≤ v.tally0.acks + bitsOf d 0 0 → v.tally1.acks < v.expect → v.tally1.elapsed = false →
       ∃ t m, exec (.tallyRecord p k) s = .next t ∧ t.reports = s.reports ∧ t.summaries = s.summaries ∧
         t.outq = s.outq ++ [{ op := 0x10, src := BitVec.ofNat 16 (0x7200 + p), dest := BitVec.ofNat 16 (0x7100 + s.active.getD 0)
                               vc := 3, origVc := 3, holding := 15, who := .summary (s.owner p) m }] ∧
         (t.parish p).sentSums = v.sentSums ++ [(s.owner p, m)] ∧
         m.parish = p.val ∧ m.step = step ∧ m.sat.toNat = (sums v.tally0).sat ∧ m.inf.toNat = (sums v.tally0).inf ∧
         m.nan.toNat = (sums v.tally0).nan ∧ m.resid.toNat = (sums v.tally0).resid ∧ m.acks = (sums v.tally0).acks ∧ m.incomplete = false ∧
         ParishTo p s t (t.parish p) ∧ (t.parish p).tallyStep = step + 1 ∧ (t.parish p).tally0 = v.tally1 ∧ (t.parish p).tally1 = {}) ∧
     ((step ≠ v.tallyStep ∧ step ≠ v.tallyStep + 1 ∨ v.expect = 0) → exec (.tallyRecord p k) s =
       .next ((s.take k).setParish p (v.setReg Reg.parTallyStray (BitVec.ofNat 64 (min ((v.reg Reg.parTallyStray).toNat + 1) 65535)))))) ∧
  (∀ (p : Par) (s : State) (step : W32),
     let v := s.parish p
     v.st ≠ .off → v.st ≠ .tripped → 0 < v.expect →
     let called := { s with calls := s.calls.erase (p.val, step) }
     ((p.val, step) ∉ s.calls → exec (.tallyCall p step) s = .next s) ∧
     ((p.val, step) ∈ s.calls → step = v.tallyStep →
       exec (.tallyCall p step) s = .next (called.setParish p { v with tally0 := { v.tally0 with timing := true } })) ∧
     ((p.val, step) ∈ s.calls → step = v.tallyStep + 1 →
       exec (.tallyCall p step) s = .next (called.setParish p { v with tally1 := { v.tally1 with timing := true } })) ∧
     (step = v.tallyStep → v.tally0.timing = true → v.tally0.acks < v.expect → v.tally1.acks < v.expect → v.tally1.elapsed = false →
       ∃ t m, exec (.tallyTimeout p step) s = .next t ∧ t.summaries = s.summaries ∧ m.parish = p.val ∧ m.step = step ∧
         (t.parish p).sentSums = v.sentSums ++ [(s.owner p, m)] ∧
         m.acks = v.tally0.acks ∧ m.incomplete = true ∧ ParishTo p s t (t.parish p) ∧ (t.parish p).tallyStep = step + 1 ∧
         (t.parish p).tally0 = v.tally1 ∧ ∃ r, t.reports = s.reports ++ [r] ∧ r.source = 69 ∧ r.loc = State.locParish p ∧
           t.outq = s.outq ++ [{ op := 0x10, src := BitVec.ofNat 16 (0x7200 + p), dest := BitVec.ofNat 16 (0x7100 + s.active.getD 0)
                                 vc := 3, origVc := 3, holding := 15, who := .summary (s.owner p) m },
             reportPacket s (0x7200 + p) r]))

/-- R314, R322 to R325. -/
def Obligations.GateContextsAndStoreRequests : Prop :=
  (∀ (g : GateId) (i : Ctx) (s : State),
     let v := s.gate g
     let c := v.chan i
     (s.up = false → (∀ h, exec (.gatChStart g i h) s = .next s) ∧ ∀ gen, exec (.gatChAbort g i gen) s = .next s ∧
       exec (.gatChDestroy g i gen) s = .next s) ∧
     (s.up = true → v.lost = false →
     (∀ h : BitVec 4, (h = 15 ∨ c.st = .free ∨ v.ctxHold i = h.toNat) → c.active = false →
       State.overLimit v i (if h = 15 then v.ctxHold i else h.toNat) = false → v.ctxIllegal i = false →
       ∃ t, exec (.gatChStart g i h) s = .next t ∧ GateTo g s t (t.gate g) ∧ t.reports = s.reports ∧
         ((t.gate g).chan i).st = .run ∧ ((t.gate g).chan i).gen = c.gen + 1 ∧ ((t.gate g).chan i).bytes = 0 ∧
         (t.gate g).ctxHold i = (if h = 15 then v.ctxHold i else h.toNat) ∧ bit ((t.gate g).reg (Reg.gatChCmd i)) 29 = false ∧
         ∀ j, j ≠ i.val → ((t.gate g).chan j) = v.chan j) ∧
     (∀ h : BitVec 4, (h = 15 ∨ v.ctxHold i = h.toNat) → c.active = true →
       ∃ t, exec (.gatChStart g i h) s = .next t ∧ GateTo g s t (t.gate g) ∧ (t.gate g).chans = v.chans ∧
         bit ((t.gate g).reg (Reg.gatChCmd i)) 29 = true ∧ bit ((t.gate g).reg Reg.gatFault) 2 = true) ∧
     (∀ gen : BitVec 4, gen = c.gen → c.st = .run → ∃ t, exec (.gatChAbort g i gen) s = .next t ∧ GateTo g s t (t.gate g) ∧
         t.reports = s.reports ∧ ((t.gate g).chan i) = draining c 6 true) ∧
     (∀ gen : BitVec 4, gen = c.gen → c.st = .done → ∃ t, exec (.gatChAbort g i gen) s = .next t ∧ GateTo g s t (t.gate g) ∧
         ((t.gate g).chan i) = { c with late := true }) ∧
     (∀ gen : BitVec 4, gen = c.gen → c.st ≠ .wait → ∃ t, exec (.gatChDestroy g i gen) s = .next t ∧ GateTo g s t (t.gate g) ∧
         t.reports = s.reports ∧ ((t.gate g).chan i) = destroyed c) ∧
     (∀ gen : BitVec 4, gen ≠ c.gen → ∀ e, (e = .gatChAbort g i gen ∨ e = .gatChDestroy g i gen) →
       exec e s = .next (s.setGate g (v.setField (Reg.gatChCmd i) 29 29 1))))) ∧
  (∀ (g : GateId) (s : State),
     let v := s.gate g
     (∀ (tag : BitVec 13) r i a n, v.store.find? (fun r => r.tag = tag.toNat && !r.backoff) = some r → r.parts = [(i, a, n)] →
       r.msg.op ≠ 0x04 → (v.chan i).st = .run →
       (r.retries < v.retryLimit → ∃ t, exec (.storeTimeout g tag) s = .next t ∧ GateTo g s t (t.gate g) ∧ t.reports = s.reports ∧
         (t.gate g).chans = v.chans ∧ ∃ x ∈ (t.gate g).store, RetryOf r x (i, a, n) ∧
           ((∀ o ∈ v.store.erase r, o.tag ≠ r.tag) → x = { r with retries := r.retries + 1, backoff := true, heldBack := false })) ∧
       (v.retryLimit ≤ r.retries → ∃ t, exec (.storeTimeout g tag) s = .next t ∧ GateTo g s t (t.gate g) ∧
         ((t.gate g).chan i).st = .draining ∧ ((t.gate g).chan i).cause = 4 ∧ ((t.gate g).chan i).used = r.retries ∧
         bit ((t.gate g).reg Reg.gatFault) 0 = true ∧ ∃ e, t.reports = s.reports ++ [e] ∧ e.source = 56)) ∧
     (∀ m rest tag, v.merger = m :: rest → v.freeTag = some tag →
       ∃ t r, exec (.mergeWaitExpiry g) s = .next t ∧ GateTo g s t (t.gate g) ∧ t.reports = s.reports ∧
         (v.waiting = [] → (t.gate g).merger = rest) ∧
         r ∈ (t.gate g).store ∧ r.tag = tag ∧ r.port = m.port ∧ r.parts = m.parts ∧ r.msg.op = 0x01 ∧
         r.msg.addr.toNat = m.lo % 2 ^ 48 ∧ r.msg.arg0.toNat = (m.hi - m.lo) % 2 ^ 32))

/-- R80, R129, R140, R143 to R146, R155. That the buffer's loaded bit is clear from the start of a LOAD until it is ready is the model's reading, log 18; the order of the sources that one word raises is log 154. -/
def Obligations.ArrayLoadsAndStarts : Prop :=
  (∀ (q : Phys) (s : State),
     let c := s.croft q
     (∀ w rest, c.arrayQ = w :: rest → wordOp w.word = 1 → c.loading = none → c.streaming = none →
       (s.site q).held w.num [(s.site q).tileSpan (Site.arrAddr w)] = false →
       let y := Site.setSbuf { s.site q with c := { c with arrayQ := rest } } (Site.arrSbuf w) {}
       let t := y.openTile (Site.arrAddr w) (wordOpcode w.word)
       let l := t.x.tileLines t.val (wordOpcode w.word) t.val.lines
       t.err = none → l.err = none → t.val.fmt ≠ 9 → t.val.layout ≠ 2 →
       ∃ u, exec (.loadStart q) s = .next u ∧ OnlyCroft q s u ∧
         let d := u.croft q
         d.loading = some w ∧ d.arrayQ = rest ∧ bufOf d (Site.arrSbuf w) = { fmt := t.val.fmt, resid := t.val.count != 0, lines := l.val } ∧
           bufOf d (1 - Site.arrSbuf w) = bufOf c (1 - Site.arrSbuf w) ∧ d.mem = c.mem ∧ d.seq = c.seq ∧ d.streaming = none) ∧
     (∀ w, c.loading = some w → exec (.loadReady q) s = .next (s.setCroft q { withBuf c (Site.arrSbuf w)
       (let v := bufOf c (Site.arrSbuf w)
        { v with loaded := true, sums := Site.columnSums (if v.sparse then 128 else 64) (v.lines.take 32)
                 sumsHi := Site.columnSums (if v.sparse then 128 else 64) (v.lines.drop 32) }) with loading := none })) ∧
     exec (.checksumInject q) s = .next (s.setCroft q (if (s.site q).live = true then { c with injectChk := true } else c))) ∧
  (∀ (q : Phys) (s : State) (w : QWord) (rest : List QWord),
     let c := s.croft q
     let v := bufOf c (Site.arrSbuf w)
     let started := s.setCroft q { c with arrayQ := rest, streaming := some { q := w, cur := { addr := Site.arrAddr w } } }
     let halts := fun code bitNo => reported (s.setCroft q { withBit c Reg.arrFault bitNo with
       arrayQ := rest, seq := { c.seq with st := .halted, held := .nothing, fault := true } }) q code (wordOpcode w.word) 0 none
     c.arrayQ = w :: rest → c.streaming = none → c.loading = none →
     ((wordOp w.word = 2 ∨ wordOp w.word = 3) → (s.site q).held w.num [Site.arrRows w] = true →
       exec (.streamStart q) s = .next (s.setCroft q { c with stalled := true })) ∧
     ((s.site q).held w.num [Site.arrRows w] = false →
     (wordOp w.word = 3 → Site.arrRow w + Site.arrLines w ≤ 512 → exec (.streamStart q) s = .next started) ∧
     (wordOp w.word = 2 → Site.arrRow w + Site.arrLines w ≤ 512 → wfield w.word 69 69 = 0 → v.loaded = true → v.sparse = false →
       (v.fmt ∈ [10, 11, 12] → v.lines.length ≤ 32) → exec (.streamStart q) s = .next started) ∧
     (wordOp w.word = 2 ∨ wordOp w.word = 3 → 512 < Site.arrRow w + Site.arrLines w → exec (.streamStart q) s = .next (halts 21 5)) ∧
     (wordOp w.word = 2 → Site.arrRow w + Site.arrLines w ≤ 512 → v.loaded = false → exec (.streamStart q) s = .next (halts 22 6)) ∧
     (wordOp w.word = 2 → Site.arrRow w + Site.arrLines w ≤ 512 → wfield w.word 69 69 = 0 → v.loaded = true → v.fmt ∉ [10, 11, 12] →
       v.sparse = true → exec (.streamStart q) s = .next (halts 20 4))))

/-- R134, R135, R137. -/
def Obligations.ArrayLinesRoundOnce : Prop :=
  ∀ (q : Phys) (s : State) (r : StreamRun),
    let c := s.croft q
    let row := Site.arrRow r.q + r.line
    let old := ((s.site q).accValues row).map f32
    let put := fun (vs : List FV) => Memory.write c.mem (Site.accRow row)
      ((vs.map fun v => (BitVec.ofNat 32 (fp32.encode v).1 : W32)).flatMap fun w => leBytes 4 w.toNat)
    c.streaming = some r → (s.site q).held r.q.num ((s.site q).lineSpans r) = false → (∀ cw, eccAt c cw = .clean) →
    (wordOp r.q.word = 2 → wfield r.q.word 69 69 = 0 → (∀ f ∈ c.feeds, f.taken = false) → ∀ t cur ls,
      (s.site q).nextLine r.cur (wordOpcode r.q.word)
          (fun t => t.layout != 2 && Site.pairOk (bufOf c (Site.arrSbuf r.q)) t.fmt && (r.fmt.getD t.fmt == t.fmt)) = ⟨s.site q, none, (cur, t, ls)⟩ →
      ∃ u, exec (.streamLine q) s = .next u ∧ OnlyCroft q s u ∧
        let d := u.croft q
        let ps := Site.passValues (bufOf c (Site.arrSbuf r.q)) ls none
        d.mem = put (if wfield r.q.word 70 70 = 1 then List.zipWith FV.add old ps else ps) ∧
          (r.line + 1 = Site.arrLines r.q → d.streaming = none) ∧
          (r.line + 1 ≠ Site.arrLines r.q → ∃ r', d.streaming = some r' ∧ r'.q = r.q ∧ r'.line = r.line + 1 ∧ r'.cur = cur ∧ r'.fmt = some t.fmt) ∧
          d.seq = c.seq ∧ d.arrayQ = c.arrayQ ∧ d.sbuf0 = c.sbuf0 ∧ d.sbuf1 = c.sbuf1) ∧
    (wordOp r.q.word = 3 → ∀ t cur ls,
      (s.site q).nextLine r.cur (wordOpcode r.q.word) (fun t => t.layout == 0 && (t.fmt == 8 || t.fmt == 9)) = ⟨s.site q, none, (cur, t, ls)⟩ →
      ∃ u, exec (.addinLine q) s = .next u ∧ OnlyCroft q s u ∧
        let d := u.croft q
        d.mem = put (List.zipWith FV.add old ls) ∧ (r.line + 1 = Site.arrLines r.q → d.streaming = none) ∧
          (r.line + 1 ≠ Site.arrLines r.q → d.streaming = some { r with line := r.line + 1, cur }) ∧ d.seq = c.seq ∧ d.arrayQ = c.arrayQ)

/-- R147 to R154. That a tile's bytes are written when its last line is converted, and none with an earlier row, is the model's reading, log 57; that the scale, table and PARAM registers are read as they are used, ARR_DRAIN_SCALE at each row, is log 46. -/
def Obligations.DrainsConvertRows : Prop :=
  ∀ (q : Phys) (s : State),
    let c := s.croft q
    (∀ w rest, c.drainQ = w :: rest → c.draining = none → (s.site q).held w.num [Site.drainSpan w] = true →
      exec (.drainStart q) s = .next (s.setCroft q { c with stalled := true })) ∧
    (∀ w rest, c.drainQ = w :: rest → c.draining = none → (s.site q).held w.num [Site.drainSpan w] = false →
      (Site.drainAcc w + Site.drainRows w ≤ 512 → (s.site q).drainIllegal w = false → exec (.drainStart q) s = .next (s.setCroft q
        { c with drainQ := rest, draining := some { q := w, dest := Site.drainDest w } })) ∧
      (512 < Site.drainAcc w + Site.drainRows w → exec (.drainStart q) s = .next (reported (s.setCroft q { withBit c Reg.arrFault 5 with
        drainQ := rest, seq := { c.seq with st := .halted, held := .nothing, fault := true } }) q 21 (wordOpcode w.word) 0 none)) ∧
      (Site.drainAcc w + Site.drainRows w ≤ 512 → (s.site q).drainIllegal w = true → exec (.drainStart q) s =
        .next (reported (s.setCroft q { withBit c Reg.arrFault 3 with
        drainQ := rest, seq := { c.seq with st := .halted, held := .nothing, fault := true } }) q 19 (wordOpcode w.word) 0 none))) ∧
    (∀ r, c.draining = some r → r.row < Site.drainRows r.q → wfield r.q.word 102 101 ≠ 2 → wfield r.q.word 100 100 = 0 →
      Site.twoPass r.q = false → (∀ cw, eccAt c cw = .clean) →
      (s.site q).held r.q.num ([⟨Site.accRow (Site.drainAcc r.q + r.row), Site.accRow (Site.drainAcc r.q + Site.drainRows r.q), wfield r.q.word 98 98 = 1⟩] ++
        (if r.row = 0 then [⟨Site.drainParam r.q, Site.drainParam r.q, false⟩] else []) ++
        [⟨r.dest, r.dest + 2 * fullTile (Site.drainFmt r.q), true⟩]) = false →
      let row := Site.drainAcc r.q + r.row
      let sigma := if wfield r.q.word 102 101 = 1 then f32 ((regOf c Reg.arrDrainScale).setWidth 32) else FV.one
      let us := ((s.site q).accValues row).map fun a => (s.site q).activate (wfield r.q.word 111 109) (Site.fusedStage a sigma .zero)
      let m := if wfield r.q.word 98 98 = 1 then Memory.write c.mem (Site.accRow row) (List.replicate 256 0) else c.mem
      ((r.row + 1) % 64 ≠ 0 → r.row + 1 ≠ Site.drainRows r.q → ∃ u, exec (.drainRow q) s = .next u ∧ OnlyCroft q s u ∧
        (u.croft q).mem = m ∧ (u.croft q).seq = c.seq ∧
        ∃ r', (u.croft q).draining = some r' ∧ r'.q = r.q ∧ r'.row = r.row + 1 ∧ r'.dest = r.dest ∧ r'.rows = r.rows ++ [us]) ∧
      (((r.row + 1) % 64 = 0 ∨ r.row + 1 = Site.drainRows r.q) → Site.drainFmt r.q ≠ 1 →
        let ls := (r.rows ++ [us]).mapIdx fun i u => (s.site q).drainLine r.q 0x3F800000 (r.row - r.rows.length + i) u
        r.rows.length ≤ r.row → r.dest + (tileBytes (Site.drainFmt r.q) 0x3F800000 ls).length ≤ 0x200000 →
        ∃ u, exec (.drainRow q) s = .next u ∧ OnlyCroft q s u ∧
          (u.croft q).mem = Memory.write m r.dest (tileBytes (Site.drainFmt r.q) 0x3F800000 ls) ∧ (u.croft q).seq = c.seq ∧
          ∃ r', (u.croft q).draining = some r' ∧ r'.row = r.row + 1 ∧ r'.rows = [] ∧
            r'.dest = r.dest + (tileBytes (Site.drainFmt r.q) 0x3F800000 ls).length)) ∧
    (∀ r, c.draining = some r → Site.drainRows r.q ≤ r.row →
      let slot := Reg.arrAmax (wfield r.q.word 39 36)
      exec (.drainEnd q) s = .next (s.setCroft q
        { (if (f32 ((regOf c slot).setWidth 32)).lt (f32 r.amax) then withReg c slot (r.amax.setWidth 64) else c) with draining := none }))

/-- R211, R217 to R222. -/
def Obligations.VectorWordsRun : Prop :=
  ∀ (q : Phys) (s : State),
    let c := s.croft q
    (∀ w rest prog, c.vecQ = w :: rest → c.vector = none →
      let ds := (s.site q).descSet w
      let words := (List.range 32).map fun i => ((regOf c (Reg.vecProg (32 * wfield w.word 107 104 + i))).setWidth 32 : W32)
      (s.site q).held w.num (Site.vecReach w ds 0) = false → checkProgram ds words 0 [] 0 [] = .inr prog →
      Site.streamsBad w ds prog = none → Site.tileOutBad w ds ((regOf c Reg.vecTscale).setWidth 32) prog = none →
      (∀ k ∈ Site.streamsRead prog, Site.isScalar (ds.getD k 0) = false) →
      ∃ u v, exec (.vectorStart q) s = .next u ∧ OnlyCroft q s u ∧ u.croft q = { c with vecQ := rest, vector := some v, vecProg := wfield w.word 107 104 } ∧
        v.q = w ∧ v.beat = 0 ∧ v.prog = words ∧ v.descs = ds ∧ v.tscale = (regOf c Reg.vecTscale).setWidth 32 ∧ v.amax = 0 ∧ v.outLines = [] ∧ v.pending = [] ∧ v.cycle = 0) ∧
    (∀ v prog k, c.vector = some v → 128 * v.beat < Site.vecCount v.q → checkProgram v.descs v.prog 0 [] 0 [] = .inr prog →
      Site.streamsWritten prog = [k] → Site.descFmt (v.descs.getD k 0) < 5 → Site.descUnit (v.descs.getD k 0) = true → c.injectRes = false →
      let n := min 128 (Site.vecCount v.q - 128 * v.beat)
      let d := v.descs.getD k 0
      let key := drawKey (s.site q).seed (regOf c Reg.crfStep).toNat ((s.logicalOf q).getD 0) (Site.vecTag v.q k)
      Site.outLeaves v [k] (128 * v.beat) n = none → (∀ w ∈ v.pending, v.cycle < w.due) → ∀ ins cs,
      (s.site q).readInputs v (Site.streamsRead prog).eraseDups (128 * v.beat) n = (s.site q, false, ins, cs) →
      ∃ u v', exec (.beat q) s = .next u ∧ OnlyCroft q s u ∧ (u.croft q).vector = some v' ∧ v'.beat = v.beat + 1 ∧ v'.q = v.q ∧ v'.prog = v.prog ∧
        v'.amax = v.amax ∧ (u.croft q).seq = c.seq ∧ (u.croft q).mem = c.mem ∧
        v'.pending = v.pending ++ (List.range n).map fun i =>
          let e := prog.foldl (insStep (Site.source v ins i)) {}
          { due := v.cycle + 24, addr := Site.elemAddr v.q d (128 * v.beat + i)
            bytes := Site.elemBytes v.q d (128 * v.beat + i) (Site.flatBytes (Site.descFmt d)
              ((e.outs.reverse.find? fun o => o.1 == k).getD (k, {})).2 (rndOf (wfield v.q.word 72 72 = 1) key (128 * v.beat + i))).1 }) ∧
    (∀ v, c.vector = some v → Site.vecCount v.q ≤ 128 * v.beat → ∃ u, exec (.vectorEnd q) s = .next u ∧ OnlyCroft q s u ∧
      u.outq = s.outq ∧ u.reports = s.reports ∧ (u.croft q).vector = none ∧ (u.croft q).mem = v.pending.foldl (fun m w => Memory.write m w.addr w.bytes) c.mem ∧
      (Site.vecRed v.q ≠ 0 → regOf (u.croft q) (Reg.vecRed (Site.vecRedSlot v.q)) = v.red) ∧
      RegsKept c (u.croft q) [Reg.vecRed (Site.vecRedSlot v.q), Reg.vecAmax (wfield v.q.word 60 57)] ∧ (u.croft q).seq = c.seq) ∧
    exec (.residueInject q) s = .next (s.setCroft q (if (s.site q).live = true then { c with injectRes := true } else c))

/-- R178, R179, R188, R192 to R196. That the lists are padded with zeros to a whole codeword (listBytes) is the model's choice, log 59; that a SELECT or GLEAN which ends at a fault counts nothing is log 153. -/
def Obligations.GatherWordsQueueAndWork : Prop :=
  (∀ (q : Phys) (s : State),
     let c := s.croft q
     (∀ w, Issues s q w → wordClass w = 4 → c.gathQ = [] → ∀ i, (wordOp w = 1 ∧ i = .feed24 q ∨ wordOp w = 3 ∧ i = .feedMerge q ∨
         wordOp w = 5 ∧ i = .feedList q) →
       let k := queued s q w
       exec i s = .next (s.setCroft q { c with
         feeds := c.feeds ++ [{ q := k, curA := { addr := Site.gathA k }, curB := { addr := Site.gathB k } }], seq := past c.seq, stalled := true })) ∧
     (∀ w, Issues s q w → wordClass w = 4 → c.gathQ = [] → (c.feeds ≠ [] ∨ c.gathDone ≠ []) → ∀ i, (wordOp w = 2 ∧ i = .merge q ∨
         wordOp w = 4 ∧ i = .select q ∨ wordOp w = 6 ∧ i = .glean q) →
       exec i s = .next (s.setCroft q { c with gathQ := [queued s q w], seq := past c.seq, stalled := true })) ∧
     (∀ w n, c.gathDone = [(w, n)] → c.gathQ = [] → (wfield w.word 39 39 = 1 → (queueOf c (wfield w.word 38 37)).length < 16) →
       exec (.gatherComplete q) s = .next (s.setCroft q { (if wfield w.word 39 39 = 1 then
           withQueue c (wfield w.word 38 37) (queueOf c (wfield w.word 38 37) ++ [BitVec.ofNat 32 n]) else c) with
         gathDone := [], feeds := c.feeds.filter fun f => f.q.num != w.num }))) ∧
  (∀ (q : Phys) (s : State) (w : W128), Issues s q w → wordClass w = 4 →
     let c := s.croft q
     let k := queued s q w
     let y : Site := { s.site q with c := { c with gathQ := [], seq := past c.seq, stalled := true } }
     let opc := wordOpcode w
     c.gathQ = [] → c.feeds = [] → c.gathDone = [] →
     (Site.held { s.site q with c := { c with gathQ := [k], seq := past c.seq, stalled := true } } k.num (Site.gathReach k)) = false →
     (wordOp w = 2 →
       let r := y.rowTiles (Site.gathA k) opc (Site.gathCount k)
       let f := (r.val.1.headD {}).fmt
       let l0 := Site.rowBlocks r.val.1 0
       let l1 := Site.rowBlocks r.val.1 1
       let n := (max l0.length l1.length + 1) / 2
       r.x = y → r.err = none → (∀ t ∈ r.val.1, t.fmt = f ∧ t.layout ≠ 2 ∧ t.resid = false) → f ≠ 2 → f ≤ 8 → f ≠ 1 →
       (y.compactAll k r.val.1 f (BitVec.ofNat 32 (ofLe (Memory.read c.mem (Site.gathA k + 8) 4))) l0 l1 n).err = none →
       ∃ u, exec (.merge q) s = .next u ∧ OnlyCroft q s u ∧ (u.croft q).gathDone = [(k, n)] ∧ (u.croft q).gathQ = [] ∧ (u.croft q).seq = past c.seq) ∧
     (wordOp w = 4 →
       let slot := Site.slotOf k
       let mode := (s.site q).predMode slot
       let r := y.sketch (Site.gathA k) (f32 ((regOf c (Reg.gthPredTheta slot)).setWidth 32)) (f32 ((regOf c (Reg.gthPredGuard slot)).setWidth 32))
         opc (Site.gathCount k)
       let key := drawKey (s.site q).seed (regOf c Reg.crfStep).toNat ((s.logicalOf q).getD 0) (wfield w 31 16)
       let audited := fun (b : Nat) => mode = 0 ∨ draw key b < 1024
       r.x = y → r.err = none → ∃ u es, exec (.select q) s = .next u ∧ OnlyCroft q s u ∧
         (u.croft q).gathDone = [(k, es.length)] ∧ (u.croft q).seq = past c.seq ∧
         (mode = 2 → es = List.range r.val.1.length) ∧
         (mode ≠ 2 → ∀ e, e ∈ es ↔ ∃ b < r.val.1.length, e = r.val.1.getD b 0 * 2 ^ 14 + b ∧ (r.val.1.getD b 0 = 2 → audited b)) ∧
         (Site.gathDest k + (Site.listBytes es r.val.1.length 0).length ≤ 0x200000 → (u.croft q).mem = Memory.write c.mem (Site.gathDest k)
           (Site.listBytes es r.val.1.length (regOf c Reg.crfStep).toNat))) ∧
     (wordOp w = 6 →
       let slot := Site.slotOf k
       let mode := (s.site q).predMode slot
       let l := y.readList (Site.gathB k) opc
       let r := y.gleaned k l.val.1 (f32 ((regOf c (Reg.gthPredMissEps slot)).setWidth 32)) l.val.1.length
       let kept := if mode = 1 then r.val.2.1 else l.val.1
       l.x = y → l.err = none → l.val.2.2 = none → r.x = y → r.err = none → ∃ u, exec (.glean q) s = .next u ∧ OnlyCroft q s u ∧
         (u.croft q).gathDone = [(k, kept.length)] ∧ (u.croft q).seq = past c.seq ∧
         (Site.gathDest k + (Site.listBytes kept l.val.2.1 0).length ≤ 0x200000 → (u.croft q).mem = Memory.write c.mem (Site.gathDest k)
           (Site.listBytes kept l.val.2.1 (regOf c Reg.crfStep).toNat))))

/-- R240 to R243, R324. -/
def Obligations.AnswersReachRequesters : Prop :=
  (∀ (q : Phys) (i : Nat) (s : State) (k : Packet) (r : Req), k.wellFormed = true → InTurn s k → k.who = .carter q i → k.poison = false → Live s q →
     let c := s.croft q
     let v := chanOf c i
     let ends : Chan → Chan := fun u =>
       if u.st = .run ∧ u.fetched = true ∧ carOpc u.instr = 0 ∧ u.outst = [] then { u with st := .done } else u
     v.outst.find? (fun r => r.pkt.tag == k.tag && !r.backoff) = some r →
     (∀ e, (k.op = 0x04 ∧ e = .writeAck k ∨ k.op = 0x14 ∧ e = .regData k) → ∃ t, exec e s = .next t ∧ t.outq = s.outq ∧
       ChanTo q i (s.take k) t (ends { v with outst := v.outst.erase r, bytes := v.bytes + r.len }) c) ∧
     (k.op = 0x03 → v.st ≠ .free → v.aborting = false → r.pkt.offset.toNat ≤ k.offset.toNat →
       (∀ a ∈ v.outst, a ≠ r → a.pkt.tag ≠ r.pkt.tag) →
       let o := k.offset.toNat - r.pkt.offset.toNat
       let here := (List.range k.payload.length).map (o + ·)
       let came := r.came ++ here
       let new := here.filter fun b => !r.got.contains b
       r.dst + o + k.payload.length ≤ 0x200000 → (∀ cw, eccAt c cw = .clean) → ∃ t, exec (.readData k) s = .next t ∧ t.outq = s.outq ∧
         (∀ cw, eccAt (t.croft q) cw = .clean) ∧ (t.croft q).mem = Memory.write c.mem (r.dst + o) k.payload ∧
         ChanTo q i (s.take k) t (ends { v with bytes := v.bytes + new.length, outst :=
           if ∀ b < r.len, b ∈ came then v.outst.erase r
             else (v.outst.map fun a => if a = r then { r with came := came, got := r.got ++ new } else a) })
           { c with mem := (t.croft q).mem, ecc := (t.croft q).ecc }) ∧
     (k.op = 0x05 → k.nack ∈ [0x02, 0x06, 0x09, 0x0A, 0x0B] → v.st ≠ .draining → r.retries < fld (regOf c Reg.carCfg) 2 0 →
       ∃ t, exec (.nack k) s = .next t ∧ t.outq = s.outq ∧
         ChanTo q i (s.take k) t { v with outst := v.outst.erase r ++ [{ r with backoff := true }] } c) ∧
     (k.op = 0x05 → k.nack ≠ 0 → (k.nack ∉ [0x02, 0x06, 0x09, 0x0A, 0x0B] ∨ fld (regOf c Reg.carCfg) 2 0 ≤ r.retries) →
       (v.st = .run ∨ v.st = .wait) → ∃ t e, exec (.nack k) s = .next t ∧ (chanOf (t.croft q) i).st = .draining ∧
         (chanOf (t.croft q) i).cause = 1 ∧ (chanOf (t.croft q) i).code = k.nack ∧ (chanOf (t.croft q) i).used = r.retries ∧
         (chanOf (t.croft q) i).outst = ((v.outst.erase r).filter fun a => !a.backoff) ∧ bit (regOf (t.croft q) Reg.carFault) 0 = true ∧
         let u := if (s.parish (q / 500)).net = true then raisedAt s (some (0x7200 + q / 500)) e else s
         t.reports = u.reports ∧ t.outq = u.outq ∧ e.source = 40 ∧ e.loc.toNat = q)) ∧
  (∀ (q : Phys) (i : Chn) (s : State) (tag : W16) (r : Req), Live s q →
     let c := s.croft q
     let v := chanOf c i
     (v.outst.find? (fun r => r.pkt.tag == tag && !r.backoff) = some r →
       (v.st ≠ .draining → r.retries < fld (regOf c Reg.carCfg) 2 0 → ∃ t, exec (.requestTimeout (.croft q i) tag) s = .next t ∧ t.outq = s.outq ∧
         ChanTo q i s t { v with outst := v.outst.erase r ++ [{ r with backoff := true }] } c) ∧
       (v.st = .draining → ∃ t, exec (.requestTimeout (.croft q i) tag) s = .next t ∧ t.outq = s.outq ∧
         ChanTo q i s t { v with outst := v.outst.erase r, indoubt := true } c)) ∧
     (v.outst.find? (fun r => r.backoff && r.pkt.tag == tag) = some r → (v.st = .run ∨ v.st = .wait) →
       let k := { r.pkt with tag := BitVec.ofNat 16 (i * 8192 + v.seq % 8192) }
       ∃ t, exec (.retry (.croft q i) tag) s = .next t ∧ t.outq = s.outq ++ [k] ∧
         ChanTo q i s t { v with seq := (v.seq + 1) % 8192
                                 outst := v.outst.map fun a => if a = r then { r with pkt := k, retries := r.retries + 1, backoff := false, came := [] } else a }
           (withReg c Reg.carRetries (BitVec.ofNat 64 (satAdd (regOf c Reg.carRetries).toNat 1)))) ∧
     (v.st = .draining → v.outst = [] → ∃ t, exec (.channelDrainEnd (.croft q i)) s = .next t ∧ t.outq = s.outq ∧
         ChanTo q i s t (if v.destroying then { v with st := .free, destroying := false } else { v with st := if v.aborting then .aborted else .halted }) c)) ∧
  (∀ (g : GateId) (i : Ctx) (s : State) (r : Req),
     let v := s.gate g
     let c := v.chan i
     (∀ tag : W16, c.outst.find? (fun r => r.pkt.tag == tag && !r.backoff) = some r → c.st = .run → r.retries < v.retryLimit →
       exec (.requestTimeout (.gate g i) tag) s =
         .next (s.setGate g (v.setChan i { c with outst := c.outst.erase r ++ [{ r with backoff := true }] }))) ∧
     (∀ tag : W16, c.outst.find? (fun r => r.backoff && r.pkt.tag == tag) = some r → c.st = .run → r.pkt.op ≠ 0x02 →
       ∃ t p, exec (.retry (.gate g i) tag) s = .next t ∧ GateTo g s t (t.gate g) ∧ t.outq = s.outq ++ [p] ∧ p.op = r.pkt.op ∧
         p.dest = r.pkt.dest ∧ p.payload = r.pkt.payload ∧ p.tag.toNat % 4096 = c.seq % 4096 ∧ ((t.gate g).chan i).seq = (c.seq + 1) % 4096 ∧
         ((t.gate g).chan i).outst = c.outst.erase r ++ [{ r with pkt := p, retries := r.retries + 1, backoff := false }]) ∧
     (c.st = .draining → c.outst = [] → v.storeParts i = 0 → exec (.channelDrainEnd (.gate g i)) s =
       .next (s.setGate g (v.setChan i (if c.destroying then { c with st := .free, destroying := false }
         else { c with st := if c.aborting then .aborted else .halted })))) ∧
     (∀ k : Packet, k.wellFormed = true → InTurn s k → k.who = .gate g i → k.poison = false → k.op = 0x04 → c.st = .draining →
       c.outst.find? (fun r => r.pkt.tag == k.tag && !r.backoff) = some r →
       ∃ t, exec (.writeAck k) s = .next t ∧ GateTo g (s.take k) t (t.gate g) ∧
         (t.gate g).chan i = { c with outst := c.outst.erase r, bytes := c.bytes + r.len }))

/-- R19, R21 to R24, R352, R407 to R409. What a short pulse does is left open: a free value (log 3). That a SUPPLY_TRIP while no steward runs only notes its group and turns no parish off is the model's reading, log 101, and the inrush flag is the model's, log 143. -/
def Obligations.SupplyAndResetAct : Prop :=
  ∀ (s : State),
    let p := s.power
    let fed : Bool := p.busbar = .low ∨ p.busbar = .within ∨ p.busbar = .above
    let begun := fun (u : State) => { u with sec := { u.sec with running := true, stage := 0 }, clock := { u.clock with now := 0, ticks := 0 } }
    (p.tripLatch = false → p.resetN = true → s.sec.running = false → p.auxOn = true → exec .busbarWithinLimits s =
      .next (begun { s with power := { p with busbar := .within, auxOn := true } })) ∧
    (p.tripLatch = false → p.resetN = true → p.auxOn = false → ∃ u, exec .busbarWithinLimits s = .next (begun u) ∧ Restarted s u ∧
      u.power.busbar = .within ∧ u.power.auxOn = true ∧ u.power.groupsOff = p.groupsOff) ∧
    (p.busbar = .absent → p.tripLatch = false → p.auxOn = false → ∃ t, exec .auxConverterStart s = .next t ∧ Restarted s t ∧
      t.power.busbar = .low ∧ t.power.inrush = true ∧ t.power.auxOn = true) ∧
    (p.busbar = .absent → p.auxOn = !p.tripLatch → exec .auxConverterStart s =
      .next { s with power := { p with busbar := .low, inrush := true } }) ∧
    (p.busbar = .high → p.tripLatch = false → p.auxOn = false → ∃ t, exec .auxConverterStart s = .next t ∧ Restarted s t ∧
      t.power.busbar = .above ∧ t.power.auxOn = true) ∧
    (p.busbar = .high → p.auxOn = !p.tripLatch → exec .auxConverterStart s = .next { s with power := { p with busbar := .above } }) ∧
    (fed = true → exec .auxConverterStart s = .next s) ∧
    (∀ e b, (e = .busbarRemoval ∧ b = Busbar.absent ∨ e = .busbarOvervoltage ∧ b = Busbar.high) → ∃ t, exec e s = .next t ∧
      Restarted s t ∧ t.power.busbar = b ∧ t.power.auxOn = false ∧ t.power.tripLatch = p.tripLatch) ∧
    (∀ k v, k.val ∉ p.groupsOff → p.auxOn = true → ∃ t, exec (.supplyTrip k v) s = .next t ∧
      t.power = { p with busbar := trippedAt p.busbar v, groupsOff := p.groupsOff ++ [k.val], hot := t.power.hot, thermLow := p.thermLow && !t.power.hot.isEmpty } ∧
      (∀ i, i ∈ t.power.hot ↔ i ∈ p.hot ∧ ¬ (i < 224 ∧ i / 4 % 8 = k.val)) ∧ (∀ r < 7, (t.parish (8 * r + k)).st = .tripped) ∧
      (∀ p, p % 8 ≠ k.val → t.parish p = s.parish p) ∧ (∀ p, 56 ≤ p → t.parish p = s.parish p) ∧ t.regs = s.regs ∧
      ∃ l e, t.reports = l ++ [e] ∧ e.source = 81 ∧ e.loc = State.locModule) ∧
    (∀ k v, k.val ∉ p.groupsOff → p.auxOn = false → exec (.supplyTrip k v) s =
      .next { s with power := { p with busbar := trippedAt p.busbar v, groupsOff := p.groupsOff ++ [k.val] } }) ∧
    (∀ k v, k.val ∈ p.groupsOff → exec (.supplyTrip k v) s = .next { s with power := { p with busbar := trippedAt p.busbar v } }) ∧
    ((p.resetN = false ∨ p.busbar = .absent) →
      let off := if p.busbar = .absent then [] else p.groupsOff
      (p.auxOn = fed → exec .tripLatchClear s = .next { s with power := { p with tripLatch := false, groupsOff := off } }) ∧
      (p.auxOn ≠ fed → ∃ t, exec .tripLatchClear s = .next t ∧ Restarted s t ∧ t.power.tripLatch = false ∧ t.power.groupsOff = off ∧
        t.power.auxOn = fed ∧ t.power.busbar = p.busbar ∧ t.power.resetN = p.resetN)) ∧
    exec .modResetNFall s = .next { s with
      power := { p with resetN := false, resetDone := false }
      gates := s.idleGates true
      faults := { s.faults with pulse := false, bellLow := bit (s.reg Reg.fltBell) 0 || s.faults.bootBell } } ∧
    (p.resetN = false → ∃ t, exec .moduleReset s = .next t ∧ Restarted s t ∧ t.power.resetDone = true ∧ t.power.groupsOff = [] ∧
      t.power.busbar = p.busbar ∧ t.power.auxOn = p.auxOn ∧ t.power.resetN = false ∧ t.power.tripLatch = p.tripLatch) ∧
    (p.resetN = false → p.resetDone = true → ∃ u, Restarted s u ∧ u.power.resetN = true ∧ u.power.busbar = p.busbar ∧ u.power.groupsOff = [] ∧
      (p.busbar = .within → p.auxOn = true → exec .modResetNRise s = .next (begun u)) ∧
      ((p.busbar ≠ .within ∨ p.auxOn = false) → exec .modResetNRise s = .next u)) ∧
    (p.resetN = false → p.resetDone = false → ∃ t, exec .modResetNRise s = .next t ∧
      t.power.resetN = true ∧ t.freeCtr = s.freeCtr + 1 ∧ ((Config.freeWord s.freeCtr).getLsbD 0 = true ∧ t.parishes = [] ∧ t.crofts = [] ∨
        (Config.freeWord s.freeCtr).getLsbD 0 = false ∧
          let u := { s with power := { p with resetN := true }, gates := s.idleGates false, freeCtr := s.freeCtr + 1 }
          (p.busbar = .within ∧ p.auxOn = true ∧ s.sec.running = false → t = begun u) ∧
          (¬ (p.busbar = .within ∧ p.auxOn = true ∧ s.sec.running = false) → t = u)))

/-- R33, R36, R40, R41, R44 to R46. That the memory of a tripped parish's crofts stands is the model's choice, log 44; which packets count as crossing its links is the model's, log 4. -/
def Obligations.ParishRailsClocksAndRowMaps : Prop :=
  (∀ (p : Par) (s : State),
     let v := s.parish p
     (∀ net peak, v.st ≠ .off → v.st ≠ .tripped → ∃ t, exec (.parishTrip p net peak) s = .next t ∧ (t.parish p).st = .tripped ∧
       (t.parish p).trip = some (net, peak) ∧ (t.parish p).nclkLock = false ∧ (t.parish p).regs = v.regs ∧
       (∀ j, j ≠ p.val → t.parish j = s.parish j) ∧ (∀ q, State.parOf q = p → bit (regOf (t.croft q) Reg.crfCtrl) 0 = true ∧
         UnitsIdle (t.croft q) ∧ (t.croft q).mem = (s.croft q).mem) ∧ (∀ q, State.parOf q ≠ p → t.croft q = s.croft q) ∧
       (t.parish p).sentSums = [] ∧ (∀ r ∈ t.reports, r ∈ s.reports ∧ State.heldByReeve p r = false) ∧
       t.flights = (s.flights.filter fun f => State.parOf f.pos != p).map fun f =>
         if f.here = false ∧ (f.via.any fun l => State.parOf l.q == p.val) = true then { f with pkt := { f.pkt with poison := true } } else f) ∧
     (∀ net peak, v.trip = some (net, peak) → exec (.tripReport p) s = .next { s.setParish p { v with trip := none } with
       reports := s.reports ++ [{ source := 70, loc := State.locParish p, time := s.clock.now
                                  syndrome := BitVec.ofNat 64 ((if net then 1 else 0) + peak.toNat * 2 ^ 16), opcode := 0, tclass := some false }] }) ∧
     (v.st ≠ .off → v.st ≠ .tripped → exec (.computeEnSet p) s = .next (s.setParish p
       { v.setField Reg.parCtrl 0 0 1 with st := if v.st = .netOn then .computeUp else v.st })) ∧
     ((v.st = .computeUp ∨ v.st = .on) → ∃ t, exec (.computeEnClear p) s = .next t ∧
       t.parish p = { v.setField Reg.parCtrl 0 0 0 with st := .netOn } ∧ (∀ j, j ≠ p.val → t.parish j = s.parish j) ∧
       (∀ q, State.parOf q = p → bit (regOf (t.croft q) Reg.crfCtrl) 0 = true ∧ UnitsIdle (t.croft q)) ∧
       (∀ q, State.parOf q ≠ p → t.croft q = s.croft q)) ∧
     (v.st = .computeUp → ∃ t, exec (.computeRailUp p) s = .next t ∧ t.parish p = { v with st := .on } ∧
       (∀ j, j ≠ p.val → t.parish j = s.parish j) ∧ (∀ q, State.parOf q = p → bit (regOf (t.croft q) Reg.crfCtrl) 0 = true) ∧
       (∀ q, State.parOf q ≠ p → t.croft q = s.croft q)) ∧
     (∀ w : W32, v.st ≠ .off → v.st ≠ .tripped → bitsOf w.toNat 4 0 ≤ 25 → ∃ t, exec (.pclkTargetWrite p w) s = .next t ∧
       t = s.setParish p (t.parish p) ∧ (t.parish p).field Reg.parPclk 4 0 = bitsOf w.toNat 4 0 ∧
       (t.parish p).field Reg.parPclk 12 8 = v.field Reg.parPclk 12 8 ∧ (t.parish p).field Reg.parPclk 20 16 = v.field Reg.parPclk 20 16) ∧
     (∀ w : W32, 25 < bitsOf w.toNat 4 0 → exec (.pclkTargetWrite p w) s = .next s) ∧
     (v.st ≠ .off → v.st ≠ .tripped → v.field Reg.parPclk 20 16 ≠ State.pclkTarget v → ∃ t, exec (.pclkStep p) s = .next t ∧
       t = s.setParish p (t.parish p) ∧ (t.parish p).field Reg.parPclk 20 16 =
         (if v.field Reg.parPclk 20 16 < State.pclkTarget v then v.field Reg.parPclk 20 16 + 1 else v.field Reg.parPclk 20 16 - 1) ∧
       State.pclkTarget (t.parish p) = State.pclkTarget v) ∧
     (v.st ≠ .off → v.st ≠ .tripped → exec (.nclkLockLoss p) s = .next (s.setParish p { v with nclkLock := false, dead := true }))) ∧
  (∀ (p : Par) (s : State),
     let v := s.parish p
     v.st ≠ .off → v.st ≠ .tripped →
     (∀ w : W32, bitsOf w.toNat 4 0 ≤ 19 → bitsOf w.toNat 9 5 ≤ 24 → s.owner p < 16 → exec (.parMapoutWrite p w) s =
       .next (s.setParish p { v with mapouts := v.mapouts ++ [(bitsOf w.toNat 4 0, bitsOf w.toNat 9 5)] })) ∧
     (∀ w : W32, (19 < bitsOf w.toNat 4 0 ∨ 24 < bitsOf w.toNat 9 5) → exec (.parMapoutWrite p w) s = .next s) ∧
     (∀ l e, l ≠ [] → (e = .rowMapSwitch p ∧ l = v.mapouts ∧ (16 ≤ s.owner p ∨ s.atBoundary (s.owner p) = true ∧ s.quiet (s.owner p) = true) ∨
         ∃ w : W32, e = .parMapoutWrite p w ∧ bitsOf w.toNat 4 0 ≤ 19 ∧ bitsOf w.toNat 9 5 ≤ 24 ∧ 16 ≤ s.owner p ∧
           l = v.mapouts ++ [(bitsOf w.toNat 4 0, bitsOf w.toNat 9 5)]) →
       ∃ t, exec e s = .next t ∧ (t.parish p).mapouts = [] ∧ ∀ j < 20, t.rowMap p j =
         (l.filter fun m => m.1 == j).foldl (fun m e => State.mapOutRow m e.2) (s.rowMap p j)) ∧
     (∀ r c e, (e = .rowMapSwitch p ∧ v.mapouts = [(r, c)] ∧ (16 ≤ s.owner p ∨ s.atBoundary (s.owner p) = true ∧ s.quiet (s.owner p) = true) ∨
         (∃ w : W32, e = .parMapoutWrite p w ∧ r = bitsOf w.toNat 4 0 ∧ c = bitsOf w.toNat 9 5) ∧ v.mapouts = [] ∧ 16 ≤ s.owner p) → r < 20 → c < 25 →
       ∃ t, exec e s = .next t ∧ (t.parish p).mapouts = [] ∧ (t.parish p).mapped = true ∧ (t.parish p).st = v.st ∧ (∀ j, j ≠ p.val → t.parish j = s.parish j) ∧
         (∀ j < 20, j ≠ r → s.rowMap p j = t.rowMap p j) ∧
         (bit (s.rowMap p r) 30 = false → bit (t.rowMap p r) 30 = true ∧ fld (t.rowMap p r) 4 0 = c ∧ bit (t.rowMap p r) 31 = bit (s.rowMap p r) 31) ∧
         (bit (s.rowMap p r) 30 = true → fld (s.rowMap p r) 4 0 = c → t.rowMap p r = s.rowMap p r) ∧
         (bit (s.rowMap p r) 30 = true → fld (s.rowMap p r) 4 0 ≠ c → bit (t.rowMap p r) 31 = true) ∧
         (∀ q, State.parOf q = p → s.logicalOf q ≠ none → t.logicalOf q = none → bit (regOf (t.croft q) Reg.crfCtrl) 0 = true) ∧
         (∀ q, (State.parOf q ≠ p ∨ t.logicalOf q ≠ none) → t.croft q = s.croft q)))

/-- R18 to R20, R23, R27, R29, R37, R48, R355, R415. The cells of the boundary scan are the model's, log 133; the first edge's and an unread parish's part are log 135 and log 136. That a reading trips in reset and in a parish that is off is log 145, that the reading waits in tripRecord for bring-up log 123 (a later one in place of an earlier one, log 146), that each sensor's own reading lets go of the alert log 103, and the slew's size log 100: the model's readings. -/
def Obligations.TimingInputsAndReadings : Prop :=
  (∀ (s : State),
     let c := s.clock
     let near := (c.now + 500000) / 1000000 * 1000000
     let d : Int := (near : Int) - c.now
     let lost := { s with clock := { c with refclk := false, refclkOk := false } }
     let back := { s with clock := { c with refclk := true, refclkOk := s.alive } }
     let event := fun code => ({ source := code, loc := State.locModule, time := c.now, syndrome := 0, opcode := 0, tclass := some false } : Report)
     (c.refclk = true → s.up = true → s.sec.stage = 8 →
       exec .refclkLoss s = .next { lost with reports := s.reports ++ [event 72] }) ∧
     ((c.refclk = false ∨ s.up = false ∨ s.sec.stage ≠ 8) → exec .refclkLoss s = .next lost) ∧
     ((c.refclk = true ∨ s.alive = false ∨ s.sec.fail ≠ 0 ∨ s.sec.stage = 0 ∨ 8 ≤ s.sec.stage) → exec .refclkReturn s = .next back) ∧
     (c.refclk = false → exec .refclkReturn s = .next back.restartStage) ∧
     (s.alive = false → exec .epochEdge s = .next s) ∧
     (s.alive = true → c.epochSeen = false → exec .epochEdge s = .next { s with clock := { c with
       now := near, epochSeen := true, epochLock := true, missing := 0, slew := 0, slewPort := none } }) ∧
     (s.alive = true → c.epochSeen = true → c.epochLock = true → d.natAbs ≤ 2000 →
       exec .epochEdge s = .next { s with clock := { c with slew := d, slewPort := none, missing := 0 } }) ∧
     (s.alive = true → c.epochSeen = true → c.epochLock = true → 2000 < d.natAbs →
       exec .epochEdge s = .next { s with clock := { c with missing := c.missing + 1 } }) ∧
     (s.alive = true → c.epochSeen = true → c.epochLock = false →
       let good := if d.natAbs ≤ 2000 then c.goodEdges + 1 else 0
       exec .epochEdge s = .next { s with clock := { c with
         slew := d, slewPort := none, goodEdges := good, epochLock := decide (3 ≤ good), missing := 0 } }) ∧
     (c.epochLock = true → exec .epochLoss s = .next { s with
       clock := { c with epochLock := false, goodEdges := 0, missing := 0 }, reports := s.reports ++ [event 73] }) ∧
     (c.epochLock = false → exec .epochLoss s = .next s)) ∧
  (∀ (s : State),
     (∀ k i v, s.alive = true → exec (.supplyReading k i v) s =
       .next (s.setReg (Reg.modSupply k) (BitVec.ofNat 64 (i.toNat * 2 ^ 16 + v.toNat)))) ∧
     (∀ k i v, s.alive = false → exec (.supplyReading k i v) s = .next s) ∧
     (∀ inlet outlet : W16, s.alive = true → ∃ t, exec (.coolantReading inlet outlet) s = .next t ∧
       t.reg Reg.modCoolant = BitVec.ofNat 64 (outlet.toNat * 2 ^ 16 + inlet.toNat) ∧
       t = { s with regs := t.regs, power := t.power, reports := t.reports } ∧
       (480 ≤ outlet.toInt → t.power.thermLow = true ∧ (s.power.thermLow = false → ∃ e, t.reports = s.reports ++ [e] ∧ e.source = 75)) ∧
       (outlet.toInt < 480 → s.power.thermLow = false → t.power.thermLow = false ∧ t.reports = s.reports) ∧
       (outlet.toInt ≤ 456 → (∀ i ∈ s.power.hot, i = 224) → t.power.thermLow = false)) ∧
     (∀ inlet outlet : W16, s.alive = false → exec (.coolantReading inlet outlet) s = .next s) ∧
     (∀ (p : Par) (s0 s1 s2 s3 cv nv ci ni : W16), (s.parish p).net = true → s.alive = true →
       (∀ x ∈ [s0, s1, s2, s3], x.toInt < 880) → ∃ t, exec (.sensorReading p s0 s1 s2 s3 cv nv ci ni) s = .next t ∧
         (t.parish p).reg Reg.parTempA = BitVec.ofNat 64 (s1.toNat * 2 ^ 16 + s0.toNat) ∧
         (t.parish p).reg Reg.parTempB = BitVec.ofNat 64 (s3.toNat * 2 ^ 16 + s2.toNat) ∧
         (t.parish p).reg Reg.parRail = BitVec.ofNat 64 (cv.toNat * 2 ^ 16 + nv.toNat) ∧
         (t.parish p).reg Reg.parCurrent = BitVec.ofNat 64 (ci.toNat * 2 ^ 16 + ni.toNat) ∧
         t.reg Reg.modWaferTemp = t.waferTemp ∧
         (∀ j, j ≠ p.val → t.parish j = s.parish j) ∧ t.crofts = s.crofts ∧
         ((∃ x ∈ [s0, s1, s2, s3], 760 ≤ x.toInt) → s.power.thermLow = false →
           (∃ a l, t.reports = s.reports ++ a :: l ∧ a.source = 75))) ∧
     (∀ (p : Par) (s0 s1 s2 s3 cv nv ci ni : W16), ((s.parish p).net = false ∨ s.alive = false) →
       ((∀ x ∈ [s0, s1, s2, s3], x.toInt < 880) ∨ s.power.busbar = .absent) →
       exec (.sensorReading p s0 s1 s2 s3 cv nv ci ni) s = .next s) ∧
     (∀ (p : Par) (s0 s1 s2 s3 cv nv ci ni : W16), ((s.parish p).net = true ∧ s.alive = true ∨ s.power.busbar ≠ .absent) →
       (∃ x ∈ [s0, s1, s2, s3], 880 ≤ x.toInt) → ∃ t x, exec (.sensorReading p s0 s1 s2 s3 cv nv ci ni) s = .next t ∧ Restarted s t ∧
         x ∈ [s0, s1, s2, s3] ∧ 880 ≤ x.toInt ∧ t.power.tripLatch = true ∧ t.power.auxOn = false ∧
         t.power.tripRecord = some (BitVec.ofNat 64 (x.toNat + p * 2 ^ 16))) ∧
     (∀ (addr : BitVec 7) (off : W16), s.alive = true → 5 ≤ s.sec.stage → addr.toNat = 0x50 + s.slotId.toNat →
       exec (.twbRead { addr, off }) s = .next { s with twb := some ((s.modRead off.toNat).setWidth 32) }) ∧
     (∀ (addr : BitVec 7) (off : W16), (s.alive = false ∨ s.sec.stage < 5 ∨ addr.toNat ≠ 0x50 + s.slotId.toNat) →
       exec (.twbRead { addr, off }) s = .next { s with twb := none }) ∧
     (∀ i, s.power.auxOn = false → exec (.tapInstruction i) s = .next s) ∧
     (s.power.auxOn = true →
       exec (.tapInstruction .bypass) s = .next { s with tap := .bypass } ∧
       (∀ i, i = .sample ∨ i = .extest → exec (.tapInstruction i) s = .next { s with
         tap := i, freeCtr := s.freeCtr + 1
         bscan := { s.bscan with taken :=
           [if i = .extest then s.bscan.latch.getD 0 true else !(s.alive && s.faults.bellLow),
            if i = .extest then s.bscan.latch.getD 1 true else !(s.alive && s.power.thermLow), s.power.resetN,
            s.slotId.getLsbD 0, s.slotId.getLsbD 1, s.slotId.getLsbD 2, false] ++ Config.netLevels s.freeCtr } }) ∧
       (∀ cells, exec (.tapInstruction (.preload cells)) s = .next { s with
         tap := .preload cells, bscan := { s.bscan with latch := cells } }) ∧
       ∀ n, exec (.tapInstruction (.other n)) s = .next { s with tap := if s.sec.debug = true then .other n else .bypass }))

/-- R35, R39, R42, R52 to R54, R57, R59 to R64, R71, R242, R421. Packets move whole (log 4); the order of the interface's checks is log 131. That a multicast copy escapes too, and stays on its tree, is log 132, and that ROWMAP_MISMATCH is located at the croft that refused is log 36. -/
def Obligations.PacketsCrossTheMesh : Prop :=
  ∀ (s : State),
    (∀ k pos, k.wellFormed = true → s.waitsBehind k = false → s.sourceOf k = some pos → (s.parish (State.parOf pos)).net = true →
      s.routerDead pos k.plane = false →
      let gone := { s with outq := s.outq.erase k }
      (State.destOk k = true → State.channelOk k = true → (k.dest = 0xFFFF → (s.group (State.parOf pos) k.mgroup.toNat).valid = true) →
        exec (.packetInject k) s = .next { gone.castLeft k with
          flights := s.flights ++ [{ pkt := { k with origVc := k.vc, escaped := false }, pos }] }) ∧
      (State.destOk k = true → State.channelOk k = true → k.dest = 0xFFFF → (s.group (State.parOf pos) k.mgroup.toNat).valid = false →
        exec (.packetInject k) s = .next
          (gone.setParish (State.parOf pos) ((s.parish (State.parOf pos)).count Reg.netMcastDrop 1))) ∧
      ((State.destOk k = false ∨ State.channelOk k = false) →
        ∃ a, Answers k a 0x05 ∧ a.nack = 0x0C ∧ exec (.packetInject k) s = .next { gone with inbox := s.inbox ++ [a] })) ∧
    (∀ k, (∀ q c n, k.who ≠ .castCarter q c n) → (∀ g c n, k.who ≠ .castGate g c n) → s.castLeft k = s) ∧
    (∀ k q c, k.who = .castCarter q c (chanOf (s.croft q) c).gen → (chanOf (s.croft q) c).st ≠ .free →
      chanOf ((s.castLeft k).croft q) c = { chanOf (s.croft q) c with bytes := (chanOf (s.croft q) c).bytes + k.length.toNat }) ∧
    (∀ i f, s.flights[i]? = some f → f.here = false → (s.parish (State.parOf f.pos)).net = true → s.wouldPass i f = false →
      (∀ pd d t, f.pkt.dest ≠ 0xFFFF → State.endpointPar f.pkt.dest.toNat = some pd → pd ≠ State.parOf f.pos →
        State.dirOf (s.hop (State.parOf f.pos) (State.hopIndex (f.pos % 500) (State.planeCode f.pkt.plane) (if f.pkt.vc = 3 then 1 else 0) pd)) = some d →
        State.stepTo f.pos d 1 = some t → s.routerDead t f.pkt.plane = false → (State.parOf t ≠ State.parOf f.pos → s.parDown (State.parOf t) = false) →
        (State.parOf t ≠ State.parOf f.pos → (s.parish (State.parOf f.pos)).dead = true → exec (.packetHop i .none) s = .next s) ∧
        ((State.parOf t ≠ State.parOf f.pos → (s.parish (State.parOf f.pos)).dead = false) →
          ({ q := f.pos, plane := f.pkt.plane, dir := d, skip := false } : Link) ∉ s.linksDown →
          exec (.packetHop i .none) s = .next { s with
            flights := s.flights.set i { f with pos := t, via := some { q := f.pos, plane := f.pkt.plane, dir := d, skip := false } } })) ∧
      (f.pkt.dest ≠ 0xFFFF → State.endpointPar f.pkt.dest.toNat = some (State.parOf f.pos) →
        (f.aim = some f.pos ∨ f.aim = none ∧ s.attachOf f.pkt.dest.toNat f.pkt.attach.toNat f.pkt.plane = some f.pos) →
        (f.pkt.dest.toNat < 26880 → s.deadPos f.pos = false) →
        exec (.packetHop i .none) s = .next { s with flights := s.flights.set i { f with here := true, aim := if f.pkt.dest.toNat < 26880 then some f.pos else f.aim } }) ∧
      (f.pkt.dest = 0xFFFF →
        let t := { s with flights := s.flights.eraseIdx i ++ s.branches f f.pkt }
        let v := s.parish (State.parOf f.pos)
        exec (.packetHop i .none) s = .next
          (if s.deadMember f f.pkt = true then t.setParish (State.parOf f.pos) (v.count Reg.netMcastDrop 1) else t)) ∧
      (∀ l, f.via = some l → l.q < 28000 →
        let sent := fun (u : State) r => if (s.parish (State.parOf l.q)).net = true then raisedAt u (some (0x7200 + State.parOf l.q)) r else u
        (∃ u r, exec (.packetHop i .uncorrHead) s = .next (sent u r) ∧ r.source = 65 ∧ r.loc = State.locLink l ∧
          u = { s with flights := s.flights.eraseIdx i, linkUnc := u.linkUnc }) ∧
        (s.stitched l = true → ∃ u r, exec (.packetHop i .none) s = .next u ∧ exec (.packetHop i .slip) s = .next (sent u r) ∧
          r.source = 66 ∧ r.loc = State.locLink l))) ∧
    (∀ i f, s.flights[i]? = some f → f.here = false → f.pkt.vc ≠ 3 → exec (.escape i) s = .next
      { s.setParish (State.parOf f.pos) ((s.parish (State.parOf f.pos)).count Reg.netEscapes 1) with
        flights := s.flights.set i { f with pkt := { f.pkt with vc := 3, escaped := true } } }) ∧
    (∀ i f, s.flights[i]? = some f → f.here = true → s.wouldPass i f = false → f.pkt.dest ≠ 0xFFFF →
      let gone := { s with flights := s.flights.eraseIdx i }
      (UnitThere s f.pos f.pkt → f.pkt.poison = false → State.opKnown f.pkt = true → State.lengthOk f.pkt = true →
        (ForInbox f.pkt.who → exec (.packetDeliver i .none) s = .next { gone with inbox := s.inbox ++ [f.pkt] }) ∧
        (∀ h m, f.pkt.who = .summary h m → exec (.packetDeliver i .none) s = .next { gone with summaries := s.summaries ++ [(h, m)] }) ∧
        (∀ p n, f.pkt.who = .tallyCall p n → exec (.packetDeliver i .none) s = .next { gone with calls := s.calls ++ [(p, n)] })) ∧
      (f.pkt.dest.toNat < 26880 → s.logicalOf f.pos ≠ some f.pkt.dest.toNat → f.pos < 28000 → State.requestOp f.pkt = true →
        ∃ a e, Answers f.pkt a 0x05 ∧ a.nack = 0x02 ∧ e.source = 68 ∧ e.loc.toNat = f.pos ∧
          let t := { gone with flights := gone.flights ++ [{ pkt := a, pos := f.pos }] }
          exec (.packetDeliver i .none) s = .next
            (if (s.parish (State.parOf f.pos)).net = true then raisedAt t (some (0x7200 + State.parOf f.pos)) e else t)))

/-- R59, R61, R65 to R69, R73, R421. The content of a report's packet is the model's, log 124. That a link going down poisons every packet whose last hop was over it, one wholly across it too, and no other, is the model's reading of R65, log 4. -/
def Obligations.NetworkFollowsItsFaults : Prop :=
  ∀ (s : State),
    (∀ (q : Phys) (pl : Plane), s.routerDead q pl = false → (s.parish (State.parOf q)).net = true →
      (exec (.livenessPulse q pl) s = .next { s with pulses := Tab.set (fun _ => 0) s.pulses (2 * q + State.planeCode pl) s.clock.now }) ∧
      ∃ t e l, exec (.routerDead q pl) s = .next t ∧ t.deadR = s.deadR ++ [2 * q + State.planeCode pl] ∧
        bit (regOf (t.croft q) Reg.crfCtrl) 0 = true ∧ UnitsIdle (t.croft q) ∧ (∀ j, j ≠ q.val → t.croft j = s.croft j) ∧
        t.reports = s.reports ++ e :: l ∧ e.source = 67 ∧ e.loc = State.locRouter q (State.planeCode pl) ∧
        reportPacket s (0x7200 + State.parOf q) e ∈ t.outq) ∧
    (∀ l, s.up = false → exec (.linkDown l) s = .next s) ∧
    (∀ l, s.up = true → l ∉ s.linksDown → ∃ t, exec (.linkDown l) s = .next t ∧ t.linksDown = s.linksDown ++ [l] ∧
      t = { s with linksDown := t.linksDown, flights := t.flights } ∧ t.flights.length = s.flights.length ∧
      ∀ (i : Nat) (f : Flight), s.flights[i]? = some f → (f.via = some l ∧ f.here = false → t.flights[i]? = some { f with pkt := { f.pkt with poison := true } }) ∧
        (f.via ≠ some l ∨ f.here = true → t.flights[i]? = some f)) ∧
    (∀ p : Par, (s.parish p).dying = true → ∃ t, exec (.parishDeadIsolate p) s = .next t ∧ (t.parish p).st = .tripped ∧
      (t.parish p).dying = false ∧ (∀ j, j ≠ p.val → t.parish j = s.parish j) ∧
      (∀ q, State.parOf q = p → bit (regOf (t.croft q) Reg.crfCtrl) 0 = true ∧ UnitsIdle (t.croft q)) ∧
      (∀ q, State.parOf q ≠ p → t.croft q = s.croft q)) ∧
    (∀ p : Par, let v := s.parish p
      v.st ≠ .off → v.st ≠ .tripped → v.tblWrite = none →
      (∀ w : W32, bitsOf w.toNat 2 0 ≤ 4 → fld (v.reg Reg.netTblSel) 21 17 ≤ 19 → fld (v.reg Reg.netTblSel) 16 12 ≤ 24 →
        fld (v.reg Reg.netTblSel) 5 0 ≤ 55 → exec (.netTblDataWrite p w) s = .next (s.setParish p { v with
          tblWrite := some (.hop ((v.reg Reg.netTblSel).setWidth 32) (BitVec.ofNat 3 (bitsOf w.toNat 2 0))) })) ∧
      (∀ w : W32, exec (.netMcastHiWrite p w) s = .next (s.setParish p { v with
          tblWrite := some (.group (v.field Reg.netMcastSel 7 0) ((v.reg Reg.netMcastLo).setWidth 32) (w &&& 0x80000FFF)) }))) ∧
    (∀ (p : Par) sel dir, (s.parish p).tblWrite = some (.hop sel dir) → dir.toNat ≤ 4 → ∃ t, exec (.tblApplied p) s = .next t ∧
      (t.parish p).tblWrite = none ∧ t = s.setParish p (t.parish p) ∧ (t.parish p).regs = (s.parish p).regs ∧
      (∀ x ∈ State.selected sel, t.hop p x = dir.toNat) ∧ (∀ x, x ∉ State.selected sel → t.hop p x = s.hop p x)) ∧
    (∀ (p : Par) g lo hi, (s.parish p).tblWrite = some (.group g lo hi) → ∃ t, exec (.tblApplied p) s = .next t ∧
      (t.parish p).tblWrite = none ∧ t = s.setParish p (t.parish p) ∧ (∀ j, j ≠ g → t.group p j = s.group p j) ∧ (t.group p g).lo = lo ∧
      ((t.group p g).valid = true ↔ hi.getLsbD 31 = true ∧ bitsOf lo.toNat 7 0 ≤ bitsOf lo.toNat 15 8 ∧ bitsOf lo.toNat 15 8 ≤ 191 ∧
        bitsOf lo.toNat 23 16 ≤ bitsOf lo.toNat 31 24 ∧ bitsOf lo.toNat 31 24 ≤ 139))

/-- R165, R249, R250, R252, R170, R334. That HOLD holds any opening is the model's reading, log 140, and that the parishes' oldest tally step becomes STC_STEP as OPENING begins log 75. -/
def Obligations.StepsOpen : Prop :=
  ∀ (h : Hold) (s : State),
    let c := s.stc h
    let hold := c.field Reg.stcHist 31 31
    let opens := fun (e : Instr) => ∃ t, exec e s = .next t ∧ StcTo h s t ∧ t.reports = s.reports ∧ (s.standby = none → t.outq = s.outq) ∧
      (t.stc h).st = .opening ∧ (t.stc h).order = 0 ∧ (t.stc h).run = true ∧ (t.stc h).step = c.step ∧ (t.stc h).replays = 0 ∧
      (t.stc h).committed = false ∧ (t.stc h).num Reg.stcDoneCount = 0 ∧ (∀ p, s.owner p ≠ h → t.parish p = s.parish p) ∧
      (∀ p ∈ s.parishesOf h, (t.parish p).tallyStep.toNat = c.step % 2 ^ 32)
    (∀ b v e, e ∈ [Instr.runWrite h b, .stcStepWrite h v, .restoreHoldWrite h b, .go h, .fillWrite h v, .opening h] → s.active = none →
      exec e s = .next s) ∧
    (s.moduleHalted = true → exec (.runWrite h true) s = .next s) ∧
    (s.active.isSome = true → s.moduleHalted = false → c.st ≠ .idle → exec (.runWrite h true) s = .next (s.setStc h (c.setRun true))) ∧
    (Acts s h → s.moduleHalted = false → c.st = .idle → c.abandoning = false → c.openPending = false →
      (s.switchPending h = false → hold = 0 → opens (.runWrite h true)) ∧
      ((s.switchPending h = true ∨ hold ≠ 0) → exec (.runWrite h true) s =
        .next (s.asOne fun s => (s.setStc h (c.setRun true)).setStc h { c.setRun true with openPending := true }))) ∧
    (s.active.isSome = true → c.openPending = false → exec (.runWrite h false) s = .next (s.setStc h (c.setRun false))) ∧
    (s.active.isSome = true → c.openPending = true → exec (.runWrite h false) s = .next (s.setStc h { c.setRun false with
      st := .idle, openPending := false, abandoning := false, order := 0 })) ∧
    (Acts s h → c.openPending = false → c.st = .opening → c.order = 0 → c.abandoning = false → c.stepped = [] → s.enrolled h ≠ [] →
      exec (.opening h) s = .next (s.asOne fun s =>
        (s.setStc h { c with order := 1 }).publish ((s.enrolled h).map fun n => s.scaleToken h n))) ∧
    (Acts s h → c.openPending = true → s.switchPending h = false → hold = 0 → c.abandoning = false → s.enrolled h ≠ [] →
      ∃ t, exec (.opening h) s = .next t ∧ (t.stc h).st = .opening ∧ (t.stc h).order = 1 ∧ (t.stc h).step = c.step ∧
        (t.stc h).openPending = false) ∧
    (∀ k n, Acts s h → k.wellFormed = true → InTurn s k → k.who = .scaleToken h n → c.st = .opening → c.order = 1 → c.abandoning = false →
      (k.op = 0x04 → k.poison = false → n ∉ c.ackToken → exec (.scaleTokenAck h k) s =
        .next (s.asOne fun s => ((s.take k).setStc h { c with ackToken := c.ackToken ++ [n] }).publish
          [s.stcWrite h n Reg.crfStep c.step])) ∧
      ((k.op ≠ 0x04 ∨ k.poison = true) → ∃ t e, exec (.scaleTokenAck h k) s = .next t ∧ StcTo h (s.take k) t ∧ (t.stc h).st = .stopped ∧
        (t.stc h).run = false ∧ (t.stc h).field Reg.stcVerdict 31 30 = 3 ∧ (t.stc h).field Reg.stcVerdict 26 26 = 1 ∧
        bit ((t.stc h).reg Reg.stcFault) 0 = true ∧ t.reports = s.reports ++ [e] ∧ e.source = 44 ∧ e.loc = State.locHolding h)) ∧
    (s.active.isSome = true → ∀ v,
      (c.st = .idle → c.abandoning = false → exec (.stcStepWrite h v) s = .next (s.setStc h (c.setReg Reg.stcStep (v.setWidth 64)))) ∧
      ((c.st ≠ .idle ∨ c.abandoning = true) → exec (.stcStepWrite h v) s = .next s)) ∧
    (s.active.isSome = true → ∀ b, exec (.restoreHoldWrite h b) s =
      .next (s.setStc h (c.setField Reg.stcSeqCtrl 1 1 (if b = true then 1 else 0)))) ∧
    (hold = 0 → exec (.go h) s = .next s) ∧
    (s.active.isSome = true → hold = 1 →
      let d := c.setField Reg.stcHist 31 31 0
      let waits := c.st = .warmHold ∧ c.run = true ∨ c.st = .idle ∧ c.openPending = true
      ((c.abandoning = true ∨ (s.holding h).st ≠ .active ∨ c.st ≠ .warmHold ∧ ¬ waits) → exec (.go h) s = .next (s.setStc h d)) ∧
      ((s.holding h).st = .active → c.abandoning = false →
        (c.st = .warmHold → c.run = false → exec (.go h) s =
          .next (s.asOne fun s => (s.setStc h d).setStc h { d with
            st := .idle, openPending := false, abandoning := false, order := 0 })) ∧
        (waits → s.switchPending h = true → exec (.go h) s =
          .next (s.asOne fun s => (s.setStc h d).setStc h { d with openPending := true })) ∧
        (waits → s.switchPending h = false → ∃ t, exec (.go h) s = .next t ∧ StcTo h s t ∧ (t.stc h).st = .opening ∧ (t.stc h).order = 0 ∧
          (t.stc h).step = c.step))) ∧
    (s.active.isSome = true → ∀ v : W32,
      ((c.st = .idle ∨ c.st = .stopped ∨ c.st = .warmHold) → bitsOf v.toNat 4 0 ≤ 16 → c.field Reg.stcCfg 7 7 = 1 →
        exec (.fillWrite h v) s = .next (s.setStc h (c.setField Reg.stcHist 4 0 (bitsOf v.toNat 4 0)))) ∧
      ((c.st ≠ .idle ∧ c.st ≠ .stopped ∧ c.st ≠ .warmHold ∨ 16 < bitsOf v.toNat 4 0 ∨ c.field Reg.stcCfg 7 7 = 0) →
        exec (.fillWrite h v) s = .next s))

/-- R38, R159, R161, R162, R262, R265, R273, R275, R282, R283, R316, R334. That a half starts at the commit, and that a chunk waits where no port of its direction is UP, is the model's, log 10. -/
def Obligations.SumsAndPartialsArrive : Prop :=
  ∀ (h : Hold) (s : State),
    let c := s.stc h
    let raises := fun (e : Instr) (r bitPos code : Nat) => ∃ t x, exec e s = .next t ∧ StcTo h s t ∧
      t.stc h = c.setReg r (c.reg r ||| BitVec.ofNat 64 (2 ^ bitPos)) ∧ t.reports = s.reports ++ [x] ∧ x.source = code ∧ x.loc = State.locHolding h
    (∀ m : Summary, Acts s h → c.st = .work → c.abandoning = false → m.step.toNat = c.step → m.parish ∉ c.parishes →
      s.owner m.parish = h → c.published = false →
      let d := { c with
        parishes := c.parishes ++ [m.parish]
        sums := { c.sums with sat := satAdd c.sums.sat m.sat.toNat, inf := satAdd c.sums.inf m.inf.toNat, nan := satAdd c.sums.nan m.nan.toNat
                              resid := satAdd c.sums.resid m.resid.toNat, acks := c.sums.acks + m.acks } }
      let u := { s with summaries := s.summaries.erase (h.val, m) }
      (∀ p ∈ s.parishesOf h, p ≠ m.parish → p ∉ c.parishes → (s.parish p).expect ≠ 0 → m.incomplete = false →
        (c.callsSent = true → exec (.tallySummary h m) s = .next (u.asOne fun s => (s.setStc h d).accept (.summary h m))) ∧
        (c.callsSent = false → exec (.tallySummary h m) s =
          .next (u.asOne fun s => (((s.setStc h d).setStc h { d with callsSent := true }).publish (callPackets s h)).accept
            (.summary h m)))) ∧
      (m.incomplete = true → ∃ t, exec (.tallySummary h m) s = .next t ∧ (t.stc h).st = .stopped ∧ (t.stc h).run = false ∧
        (t.stc h).field Reg.stcVerdict 31 30 = 3 ∧ (t.stc h).field Reg.stcVerdict 27 27 = 1 ∧ bit ((t.stc h).reg Reg.stcFault) 0 = true ∧
        ∃ l e, t.reports = s.reports ++ l ++ [e] ∧ e.source = 44)) ∧
    (Acts s h → (c.st = .opening ∨ c.st = .work) → c.abandoning = false → c.callsSent = false → c.num Reg.stcTallyLimit ≠ 0 →
      exec (.tallyCallTimer h) s = .next (s.asOne fun s => (s.setStc h { c with callsSent := true }).publish (callPackets s h))) ∧
    (∀ v : W32, Acts s h → c.st = .work → c.committed = false → c.abandoning = false → c.mirror = false → c.published = false →
      (c.started = true → exec (.stcNormPartHiWrite h v) s =
        .next (s.setStc h { c.setReg Reg.stcNormPartHi (v.setWidth 64) with committed := true })) ∧
      (c.started = false → ∃ t, exec (.stcNormPartHiWrite h v) s = .next t ∧ (t.stc h).committed = true ∧ (t.stc h).started = true ∧
        (t.stc h).reg Reg.stcNormPartHi = v.setWidth 64 ∧ (t.stc h).st = .work ∧ (t.stc h).step = c.step ∧
        (∀ j, j ≠ h.val → t.stc j = s.stc j ∨ t.stc j = { s.stc j with horizon := true }) ∧
        (∀ g, SendsOn (s.gate g) (t.gate g)) ∧ t.crofts = s.crofts ∧ t.parishes = s.parishes ∧ t.reports = s.reports)) ∧
    (∀ v : W32, ¬ Acts s h → exec (.stcNormPartHiWrite h v) s = .next s) ∧
    (∀ v : W32, Acts s h → (c.st ≠ .work ∨ c.committed = true ∨ c.abandoning = true) → raises (.stcNormPartHiWrite h v) Reg.stcUpdFault 1 53) ∧
    (∀ v : W32, Acts s h → c.st = .work → c.committed = false → c.abandoning = false → c.mirror = false → c.published = true → c.incomplete = false →
      c.localBad = false → c.ringN = 1 → c.ringPos = 0 → c.parts = [] → c.combined = false → c.field Reg.stcDoneCount 14 0 < (s.enrolled h).length →
      let g : W64 := BitVec.ofNat 64 (v.toNat * 2 ^ 32 + c.num Reg.stcNormPartLo)
      (f64 g).isFinite = true → ∃ t, exec (.stcNormPartHiWrite h v) s = .next t ∧ (t.stc h).st = .update ∧
        (t.stc h).field Reg.stcVerdict 31 30 = 1 ∧ (t.stc h).num Reg.stcVerdictStep = c.step ∧ (t.stc h).step = c.step ∧ (t.stc h).record.length = 5 ∧
        t.crofts = s.crofts ∧ t.parishes = s.parishes) ∧
    (∀ m : NormMsg, Acts s h → m.step.toNat = c.step → m.count.toNat = c.ireplays % 8 → m.replay = false → m.origin.toNat < c.ringN →
      m.origin.toNat ≠ c.ringPos → c.part m.origin.toNat = none → c.st = .work → c.combined = false → c.ringN ≤ m.hops.toNat + 1 →
      exec (.norm h m) s = .next (s.asOne fun s => (s.setStc h
        { c with parts := Tab.set (fun _ => none) c.parts m.origin.toNat (some m.partialSum) }).accept (.msg (State.normMsg m)))) ∧
    (∀ m : Msg, Acts s h → m.wellFormed = true → m.arg0.toNat = c.step → bitsOf m.arg1.toNat 2 0 = c.ireplays % 8 → c.mirror = true → c.st = .work →
      c.committed = false → exec (.fingerprint h m) s = .next (s.asOne fun s => (s.setStc h
        { (c.setNum Reg.stcFprintPeerLo (m.arg2.toNat % 2 ^ 32)).setNum Reg.stcFprintPeerHi (m.arg2.toNat / 2 ^ 32) with
          peerPrint := some (m.arg2, BitVec.ofNat 64 (ofLe m.payload)) }).accept (.msg m))) ∧
    (Acts s h → c.st = .combine → c.handed = true → c.combined = false → raises (.normTimeout h) Reg.stcUpdFault 0 52) ∧
    (s.active = none → ∀ (m : NormMsg) (f : Msg) (y : Summary), f.wellFormed = true → exec (.norm h m) s = .next s ∧ exec (.fingerprint h f) s = .next s ∧
      exec (.tallyCallTimer h) s = .next s ∧ exec (.tallySummary h y) s = .next { s with summaries := s.summaries.erase (h.val, y) })

/-- R163, R164, R166, R167, R251, R252, R286. -/
def Obligations.StepsEndAndTheKeeperFollows : Prop :=
  (∀ (h : Hold) (s : State),
     let c := s.stc h
     let ended := fun (t : State) => (t.stc h).step = (c.step + 1) % 2 ^ 32 ∧ (t.stc h).lastOpen = some c.opened ∧ (t.stc h).st =
       if c.field Reg.stcHist 31 31 = 1 then .warmHold else .idle
     (∀ n k, Acts s h → c.refused.find? (fun key => key / 8 = n.val) = some k → c.st = .update → exec (.verdictTokenRetry h n) s =
       .next (s.asOne fun s => (s.setStc h { c with refused := c.refused.erase k }).publish
         [if k % 8 = 5 then s.verdictToken h n else s.recordToken h n (k % 8)])) ∧
     (Acts s h → c.st = .combine → c.restarting = true → c.abandoning = false →
       (s.allIdle h = true → c.run = false →
         ∃ t, exec (.overflowRestart h) s = .next t ∧ ended t ∧ t.parishes = s.parishes ∧ t.crofts = s.crofts) ∧
       (s.allIdle h = false → exec (.overflowRestart h) s = .next s)) ∧
     (∀ r : DoneReport, Acts s h → c.st = .update → c.openPending = false → r.step.toNat = c.step →
       c.field Reg.stcDoneCount 14 0 + 1 < (s.enrolled h).length → (s.enrolled h).length < 2 ^ 15 →
       let by_ := ((r.croft.map (·.val)).toList.filter fun n => !c.doneBy.contains n)
       exec (.doneReport h r) s = .next (s.setStc h { c.setField Reg.stcDoneCount 14 0 (c.field Reg.stcDoneCount 14 0 + 1) with
         doneBy := c.doneBy ++ by_ })) ∧
     (∀ r : DoneReport, Acts s h → c.st = .update → c.openPending = false → c.abandoning = false → r.step.toNat = c.step → c.run = false →
       c.field Reg.stcDoneCount 14 0 + 1 = (s.enrolled h).length → (s.enrolled h).length < 2 ^ 15 →
       ∃ t, exec (.doneReport h r) s = .next t ∧ ended t ∧ StcTo h s t ∧ t.reports = s.reports) ∧
     (∀ r : DoneReport, Acts s h → (c.st ≠ .update ∨ c.openPending = true ∨ r.step.toNat ≠ c.step) → ∃ t e, exec (.doneReport h r) s = .next t ∧
       StcTo h s t ∧ (t.stc h).st = c.st ∧
       (t.stc h).field Reg.stcDoneCount 31 16 = min (c.field Reg.stcDoneCount 31 16 + 1) 65535 ∧
       (t.stc h).field Reg.stcDoneCount 14 0 = c.field Reg.stcDoneCount 14 0 ∧ bit ((t.stc h).reg Reg.stcSeqFault) 3 = true ∧
       t.reports = s.reports ++ [e] ∧ e.source = 51 ∧ e.loc = State.locHolding h) ∧
     (∀ r : DoneReport, ¬ Acts s h → exec (.doneReport h r) s = .next s)) ∧
  (∀ (c : Stc),
     let n := c.field Reg.stcLsState 31 16
     let iv := c.field Reg.stcLsGrowth 15 0
     c.field Reg.stcCfg 7 7 = 0 →
     ((iv = 0 ∨ n + 1 < iv) → c.keepClean.exp = c.exp ∧ c.keepClean.field Reg.stcLsState 31 16 = min (n + 1) 65535) ∧
     (iv ≠ 0 → iv ≤ n + 1 → c.keepClean.exp = (if c.exp < c.maxExp then c.exp + 1 else c.exp) ∧ c.keepClean.field Reg.stcLsState 31 16 = 0) ∧
     (c.keepOverflow.exp = (if c.minExp < c.exp then c.exp - 1 else c.exp) ∧ c.keepOverflow.field Reg.stcLsState 31 16 = 0 ∧
       c.keepOverflow.num Reg.stcSkips = satAdd (c.num Reg.stcSkips) 1))

/-- R249, R267 to R269, R334, R335. The content of a shadow record's packet is the model's, log 124. That an ABANDON stops the crofts and leaves the gates' channels alone is the model's reading, log 82; that the restore drops the summaries of its step, those on their way too, is log 83 and log 127. -/
def Obligations.RestoresReplayAndActionsWait : Prop :=
  (∀ (h : Hold) (s : State),
     let c := s.stc h
     let stops := (s.enrolled h).map fun n => s.stcWrite h n Reg.crfSeqCtrl 8
     (∀ ask, Acts s h → c.abandoning = false → (c.st = .opening ∨ c.st = .work) → ask ≠ .notice → c.horizon = false → s.standby = none →
       c.replays - c.uncounted < c.field Reg.stcReplayCfg 2 0 → ∃ t, exec (.replay h ask) s = .next t ∧ (t.stc h).st = .restoring ∧
         (t.stc h).order = 1 ∧ (t.stc h).replays = c.replays + 1 ∧ (t.stc h).step = c.step ∧ (t.stc h).committed = false ∧
         t.outq = s.outq ++ stops ∧ t.crofts = s.crofts ∧ (∀ j, j ≠ h.val → t.stc j = s.stc j)) ∧
     (Acts s h → c.abandoning = false → (c.st = .idle → exec (.abandon h) s = .next (s.setStc h
         { c.setRun false with st := .idle, openPending := false, abandoning := false, order := 0 })) ∧
       (c.st ≠ .idle → exec (.abandon h) s = .next (s.asOne fun s => (s.setStc h
         { c.setRun false with abandoning := true, order := 1, openPending := false }).publish stops))) ∧
     (¬ Acts s h → (∀ ask, exec (.replay h ask) s = .next s) ∧ exec (.abandon h) s = .next s) ∧
     (Acts s h → c.abandoning = true → s.allRead h [0, 3] = true → s.allFree h = true → exec (.abandonComplete h) s = .next (s.setStc h
         { c with st := .idle, openPending := false, abandoning := false, order := 0 })) ∧
     (Acts s h → (c.st = .restoring ∨ c.abandoning = true) → c.order = 1 → s.allRead h [0, 3] = true →
       exec (.restoreCroftsStopped h) s = .next (s.asOne fun s => (s.setStc h { c with order := 2 }).destroyContexts h)) ∧
     (Acts s h → c.st = .restoring → c.abandoning = false → c.order = 2 → s.allFree h = true → c.restoreHold = false → s.enrolled h ≠ [] →
       s.standby = none → ∃ t, exec (.restoreContextsFree h) s = .next t ∧ (t.stc h).order = 4 ∧ (t.stc h).st = .restoring ∧
         t.outq = (s.outq.filter fun k => match k.who with
           | .summary g m => !(g == h.val && m.step.toNat == c.step % 2 ^ 32)
           | _ => true) ++ (s.enrolled h).map (fun n => s.stcWrite h n Reg.crfStep c.step) ∧ t.crofts = s.crofts ∧
         (∀ p ∈ s.parishesOf h, (t.parish p).tallyStep.toNat = c.step % 2 ^ 32 ∧ (t.parish p).tally0 = {}) ∧
         ∀ m, (h.val, m) ∈ t.summaries → m.step.toNat ≠ c.step % 2 ^ 32)) ∧
  (∀ (s : State) (ks : List Packet) (a : SenderHeld),
     (s.standby = none → s.publish ks = s.emit ks ∧ s.accept a = s.acknowledge a ∧ ∀ f, s.asOne f = f s) ∧
     (∀ i, s.standby = some i → s.publish ks = shadowed s i { num := 0, release := ks } ∧ s.accept a = shadowed s i { num := 0, acks := [a] } ∧
       (∀ h v, s.setStc h v = shadowed { s with stcs := Tab.set (fun _ => ({} : Stc)) s.stcs h v } i { num := 0, changes := [.stc h v] }) ∧
       (∀ f, s.setFaults f = shadowed { s with faults := f } i { num := 0, changes := [.faults f] }) ∧
       (∀ o v, s.setFlt o v = shadowed (s.setReg o v) i { num := 0, changes := [.flt o v] }) ∧
       ((∀ k ∈ s.outq, ∀ n, k.who = .shadow n → n < s.shadowNum) → ∀ h v,
         let t := { s with stcs := Tab.set (fun _ => ({} : Stc)) s.stcs h v }
         s.asOne (fun s => (s.setStc h v).publish ks) = shadowed t i { num := 0, changes := [.stc h v], release := ks } ∧
         s.asOne (fun s => (s.setStc h v).accept a) = shadowed t i { num := 0, changes := [.stc h v], acks := [a] })))

/-- R13, R21, R74, R75, R78, R99, R331, R334, R335, R387. CRF_SEQ_STALL's count is free (log 14). That a foreign packet is refused with FOREIGN_HOLDING at any offset, a malformed one too, is the model's reading, log 71. -/
def Obligations.RegistersTakeTheirBits : Prop :=
  (∀ (q : Nat) (s : State) (k : Packet), k.wellFormed = true → InTurn s k → s.reached k = some q →
     let c := s.croft q
     let v : W64 := k.opdata.setWidth 64
     (∀ o d, AtRegister s q k o d →
       (Plain c o → ∃ a, RegAnswers k a v ∧ exec (.regWrite k) s =
         .next { (s.take k).setCroft q (withReg c o (d.write (regOf c o) v)) with outq := s.outq ++ [a] }) ∧
       ((s.site q).shownReg o = none → o ≠ Reg.crfSeqStall → ∃ a, RegAnswers k a (regOf c o) ∧ exec (.regRead k) s =
         .next { (s.take k).setCroft q (if d.rc = 0 then c else withReg c o (regOf c o &&& ~~~ d.rc)) with outq := s.outq ++ [a] }) ∧
       (o = Reg.crfSeqStall → c.stalled = false → ∃ a, RegAnswers k a 0 ∧ exec (.regRead k) s =
         .next { (s.take k).setCroft q c with outq := s.outq ++ [a] }) ∧
       (o = Reg.crfSeqStall → c.stalled = true → ∃ a b, RegAnswers k a (((Config.freeWord s.freeCtr).setWidth 32).setWidth 64) ∧ exec (.regRead k) s =
         .next { (s.take k).setCroft q { c with stalled := b } with outq := s.outq ++ [a], freeCtr := s.freeCtr + 1 })) ∧
     (∀ code, (c.resetting = true ∧ code = 0x06 ∨ c.resetting = false ∧ k.holding ≠ 15 ∧ code = 0x07 ∨
         c.resetting = false ∧ k.holding = 15 ∧ 0x0F005000 ≤ k.offset.toNat ∧ code = 0x0C ∨
         c.resetting = false ∧ k.holding = 15 ∧ (s.site q).fenced = true ∧ 0x0F001000 ≤ k.offset.toNat ∧ k.offset.toNat < 0x0F005000 ∧
           k.offset.toNat % 4 = 0 ∧ code = 0x0B) →
       ∀ i, (i = .regWrite k ∨ i = .regRead k) → ∃ a, Answers k a 0x05 ∧ a.nack.toNat = code ∧
         exec i s = .next { (s.take k).setCroft q c with outq := s.outq ++ [a] })) ∧
  (∀ (s : State) (v : W64),
     (∀ (a : BitVec 48) bytes, accessWidth bytes = true → s.up = false → exec (.registerWrite a bytes v) s = .next s) ∧
     (∀ (n : Fin 26880) q o d (a : BitVec 48), s.physOf n = some q → findReg croftMap o = some d → o < 0x5000 → o % (if d.wide = true then 8 else 4) = 0 →
       s.up = true → a.toNat = 0x400000000 + 0x10000 * n + o →
       (s.atCroft q = false → exec (.registerWrite a (if d.wide = true then 8 else 4) v) s = .next s) ∧
       (s.atCroft q = true → Plain (s.croft q) o → (s.croft q).resetting = false → ((s.site q).fenced = true → o < 0x1000) →
       exec (.registerWrite a (if d.wide = true then 8 else 4) v) s =
         .next (s.setCroft q (withReg (s.croft q) o (d.write (regOf (s.croft q) o) v))))) ∧
     (∀ (c : Fin 128) (a : BitVec 48), s.up = true → a.toNat = 0x19000100 + 4 * c → sourceNamed c = true →
       exec (.registerWrite a 4 v) s = .next (s.setFlt (Reg.fltClass c) ((s.classOf c &&& ~~~ 0xE3FFFFFF) ||| (v &&& 0xE3FFFFFF)))) ∧
     (∀ (c : Fin 128) (a : BitVec 48), a.toNat = 0x19000100 + 4 * c → sourceNamed c = false → exec (.registerWrite a 4 v) s = .next s) ∧
     (∀ (h : Hold) (a : BitVec 48), a.toNat = 0x13000000 + 0x1000 * h + Reg.stcResidLimit →
       (s.up = true → s.active.isSome = true → exec (.registerWrite a 4 v) s = .next (s.setStc h ((s.stc h).setReg Reg.stcResidLimit
         (((s.stc h).reg Reg.stcResidLimit &&& ~~~ 0xFFFFFFFF) ||| (v &&& 0xFFFFFFFF))))) ∧
       (s.active = none → exec (.registerWrite a 4 v) s = .next s)) ∧
     (∀ (a : BitVec 48) bytes, accessWidth bytes = true → Place.ofAddr (s.active.getD 0) a.toNat = .nowhere →
       exec (.registerWrite a bytes v) s = .next s))

/-- R330 to R332, R334. Cores run outside the model (log 13). That an access to the steward's own die takes no packet, and a store in the ACTIVE set retires with its shadow record where R332 speaks of the echo, is the model's reading, log 73; the TAG of a core's access is log 5. -/
def Obligations.StewardCoresAccess : Prop :=
  ∀ (st : Stw) (n : Fin 16) (s : State),
    let v := s.steward st
    (s.coreReady st n = true → ∀ (addr : BitVec 48) (bytes : Nat) (x : W64), accessWidth bytes = true →
      (addr.toNat < 0x10000000 →
        exec (.stewardLoad st n addr bytes) s = .next (s.setSteward st (loadedBy v n (BitVec.ofNat 64 (ofLe (Memory.read v.sram addr.toNat bytes))))) ∧
        exec (.stewardStore st n addr bytes x) s = .next (s.setSteward st { v with sram := Memory.write v.sram addr.toNat (leBytes bytes x.toNat) })) ∧
      (Place.ofAddr st addr.toNat = .nowhere →
        exec (.stewardLoad st n addr bytes) s = .next (s.setSteward st (excepted v n)) ∧
        exec (.stewardStore st n addr bytes x) s = .next (s.setSteward st (excepted v n))) ∧
      (∀ h : Hold, addr.toNat = 0x13000000 + 0x1000 * h + Reg.stcResidLimit → bytes = 4 → s.active.isSome = true →
        let c := (s.stc h).setReg Reg.stcResidLimit (((s.stc h).reg Reg.stcResidLimit &&& ~~~ 0xFFFFFFFF) ||| (x &&& 0xFFFFFFFF))
        let y : CoreAccess := { addr, store := true, tag := BitVec.ofNat 16 (s.freeCtr % 4096 * 16 + n) }
        let w := { v with access := Tab.set (fun _ => none) v.access n (some y) }
        (s.standby = none → exec (.stewardStore st n addr bytes x) s = .next (((s.setStc h c).setSteward st w).retireStore (st.val, n.val))) ∧
        ∀ i, s.standby = some i → (∀ k ∈ s.outq, ∀ j, k.who = .shadow j → j < s.shadowNum) →
          exec (.stewardStore st n addr bytes x) s = .next (shadowed ({ s with stcs := Tab.set (fun _ => ({} : Stc)) s.stcs h c }.setSteward st w) i
            { num := 0, changes := [.stc h c], cores := [(st.val, n.val)] })) ∧
      (∀ m o, addr.toNat = 0x400000000 + 0x10000 * m + o → m < 26880 → o < 0x5000 → bytes = State.placeWidth (.croft m o) → o % bytes = 0 →
        ∀ (i : Instr) (store : Bool), (i = .stewardLoad st n addr bytes ∧ store = false ∨ i = .stewardStore st n addr bytes x ∧ store = true) →
        ∃ t k, exec i s = .next t ∧ t = { s with stewards := t.stewards, freeCtr := s.freeCtr + 1, outq := s.outq ++ [k] } ∧
          k.op = (if store = true then 0x12 else 0x13) ∧ k.dest.toNat = m ∧ k.src.toNat = 0x7100 + st ∧ k.offset.toNat = 0x0F000000 + o ∧
          k.holding = 15 ∧ k.vc = 3 ∧ (store = true → k.opdata = x.setWidth 96) ∧
          s.setSteward st { v with access := Tab.set (fun _ => none) v.access n (some { addr, store, tag := k.tag }) } = { s with stewards := t.stewards })) ∧
    (∀ a, s.coreAccess st n = some a →
      (bit (s.reg (Reg.stwBuserrInfo st)) 31 = false → ∃ t, exec (.stewardAccessTimeout st n) s = .next t ∧
        t = { s.setSteward st { excepted v n with access := Tab.set (fun _ => none) v.access n none } with regs := t.regs } ∧
        t.num (Reg.stwBuserrInfo st) = 2 ^ 31 + (if a.store = true then 2 ^ 30 else 0) + n * 2 ^ 16 + 0xFF00 ∧
        t.num (Reg.stwBuserrAddrLo st) + t.num (Reg.stwBuserrAddrHi st) * 2 ^ 32 = a.addr.toNat) ∧
      (bit (s.reg (Reg.stwBuserrInfo st)) 31 = true → exec (.stewardAccessTimeout st n) s =
        .next (s.setSteward st { excepted v n with access := Tab.set (fun _ => none) v.access n none })) ∧
      (∀ k, k.wellFormed = true → InTurn s k → k.who = .core st n → k.op = 0x14 → k.poison = false → k.tag = a.tag → a.store = false →
        exec (.regData k) s = .next ((s.take k).setSteward st (loadedBy v n (k.opdata.setWidth 64)))))

/-- R334 to R338, R340, R355, R380. What a request of the control service names is the model's, log 25; the packets' content is log 124. -/
def Obligations.StewardsTakeOver : Prop :=
  (∀ (st : Stw) (s : State),
     let v := s.steward st
     let j := State.otherSteward st
     let p := s.steward j
     (v.role = .active → v.expired = false → exec (.heartbeat st) s = .next { s.setSteward st { v with heartbeats := v.heartbeats + 1 } with
       outq := s.outq ++ [{ op := 0x12, src := BitVec.ofNat 16 (0x7100 + st), dest := BitVec.ofNat 16 (0x7100 + j), vc := 3, origVc := 3
                            holding := 15, who := .heartbeat st }] }) ∧
     ((v.role ≠ .active ∨ v.expired = true) → exec (.heartbeat st) s = .next s) ∧
     (v.heldReset = false → exec (.kick st) s = .next (s.setSteward st { v with expired := false }) ∧
       (s.up = true → exec (.watchdogExpiry st) s = .next (s.setSteward st { v with expired := true }))) ∧
     (s.up = false → exec (.watchdogExpiry st) s = .next s) ∧
     (v.role = .standby → p.role = .active →
       ∃ e, e.source = 74 ∧ e.loc = State.locSteward j ∧ e.time = s.clock.now ∧
         let lost := { s.setSteward j { p with role := .lost, mgmtUp := false } with reports := s.reports ++ [e] }
         (bit (s.reg (Reg.stwCtrl st)) 0 = false → s.toIsolate = [] → exec (.heartbeatTimeout st) s = .next lost) ∧
         (bit (s.reg (Reg.stwCtrl st)) 0 = true → exec (.heartbeatTimeout st) s = exec (.takeover st) lost)) ∧
     (v.role ≠ .standby → s.toIsolate = [] → exec (.heartbeatTimeout st) s = .next s) ∧
     (let u := (s.setSteward j { p with heldReset := true, access := [] }).adoptShadow
      u.stcs = s.shadowStcs ∧ u.faults = s.shadowFaults ∧
       (v.role = .standby → p.role = .lost → (∀ d ∈ s.shadows, d.applied = false) → s.toIsolate = [] → NothingToResolve u →
         exec (.takeover st) s =
         .next (State.restartStage (actsNow { u with shadows := [] } st)))) ∧
     ((v.role ≠ .standby ∨ p.role ≠ .lost) → s.toIsolate = [] → exec (.takeover st) s = .next s) ∧
     (v.role = .active → p.role = .standby → s.shadows = [] → s.toIsolate = [] → NothingToResolve s → exec (.release st) s =
       .next (actsNow (s.setSteward st { v with role := .standby }) j).syncShadow) ∧
     ((v.role ≠ .active ∨ p.role ≠ .standby) → s.toIsolate = [] → exec (.release st) s = .next s) ∧
     (∀ u : State, u.syncShadow = { u with shadowStcs := u.stcs, shadowFaults := u.faults, shadowFlt := u.syncShadow.shadowFlt, shadows := [] }) ∧
     (s.up = true → v.heldReset = false → ∃ e, e.source = 79 ∧ e.loc = State.locSteward st ∧
       exec (.stewardUe st) s = .next { s with reports := s.reports ++ [e] }) ∧
     ((s.up = false ∨ v.heldReset = true) → exec (.stewardUe st) s = .next s)) ∧
  (∀ (s : State) (n : Nat),
     let arrived := fun (op : BitVec 8) => s.inbox.find? fun k => k.who = .shadow n && k.op = op
     (∀ k d, arrived 0x12 = some k → s.shadows.find? (fun d => !d.applied) = some d →
       let told := d.changes.foldl State.applyChange s
       (d.num = n → exec (.shadowRecord n) s = .next { told with
         inbox := s.inbox.erase k, outq := s.outq ++ [State.answerTo k 0x14 3]
         shadows := s.shadows.map fun e => if e.num = n then { e with applied := true } else e }) ∧
       (d.num ≠ n → exec (.shadowRecord n) s = .next s)) ∧
     ((arrived 0x12 = none ∨ s.shadows.find? (fun d => !d.applied) = none) → exec (.shadowRecord n) s = .next s) ∧
     (∀ k d ds, arrived 0x14 = some k → s.shadows = d :: ds →
       let freed := { s with inbox := s.inbox.erase k, shadows := ds }
       (d.num = n → d.applied = true → exec (.shadowAck n) s = .next (freed.perform d).settle ∧
         (d.msgs = [] → d.acks = [] → d.cores = [] → d.aborts = [] → d.discards = [] → d.isolate = [] → s.toIsolate = [] →
           exec (.shadowAck n) s = .next { freed with outq := s.outq ++ d.release }) ∧
         (∀ loc, d = { num := n, applied := true, isolate := [loc] } → s.toIsolate = [] → (freed.isolateLoc loc).toIsolate = [] →
           exec (.shadowAck n) s = .next (freed.isolateLoc loc))) ∧
       ((d.num ≠ n ∨ d.applied = false) → exec (.shadowAck n) s = .next s)) ∧
     ((arrived 0x14 = none ∨ s.shadows = []) → exec (.shadowAck n) s = .next s) ∧
     (∀ h v, s.applyChange (.stc h v) = { s with shadowStcs := Tab.set (fun _ => ({} : Stc)) s.shadowStcs h v }) ∧
     (∀ f, s.applyChange (.faults f) = { s with shadowFaults := f }) ∧
     (∀ o v, s.applyChange (.flt o v) = { s with shadowFlt := Tab.set Machine.moduleReset s.shadowFlt o v })) ∧
  (∀ (st : Stw) (s : State), s.mgmtPin st = true → 5 ≤ s.sec.stage →
     let answered := fun (t : State) a => { t with sec := { t.sec with control := t.sec.control ++ [a] } }
     ((s.steward st).role = .active → ∀ (h : Hold),
       (∀ t, exec (.create h) s = .next t → exec (.controlServiceRequest st (.createHolding h)) s = .next (answered t .done)) ∧
       (∀ t, exec (.reset h) s = .next t → exec (.controlServiceRequest st (.resetHolding h)) s = .next (answered t .done)) ∧
       (∀ t, exec (.destroy h) s = .next t → exec (.controlServiceRequest st (.destroyHolding h)) s = .next (answered t .done)) ∧
       (∀ t, exec (.runWrite h false) s = .next t → exec (.controlServiceRequest st (.stopRun h)) s = .next (answered t .done)) ∧
       (∀ t, s.sec.stage = 8 → exec (.runWrite h true) s = .next t → exec (.controlServiceRequest st (.startRun h)) s = .next (answered t .done)) ∧
       (∀ res power t u, exec (.altResWrite h res) s = .next t → exec (.altPowerWrite h power) t = .next u →
         exec (.controlServiceRequest st (.setAllotment h res power)) s = .next (answered u .done))) ∧
     ((s.steward st).role = .active → ∀ (h : Hold),
       exec (.controlServiceRequest st (.takeCheckpoint h)) s = .next (answered (s.takeCheckpoint h) .done) ∧
       (∃ k : Checkpoint, Tab.get (fun _ => none) (s.takeCheckpoint h).sec.saved h = some k ∧ k.step = (s.stc h).reg Reg.stcStep ∧
         k.lsState = (s.stc h).reg Reg.stcLsState ∧ k.fill = (s.stc h).field Reg.stcHist 4 0 ∧ k.pos = (s.stc h).reg Reg.stcSchedPos ∧
         k.rewarm = (s.stc h).reg Reg.stcSchedRewarm ∧ s.takeCheckpoint h = { s with sec := { s.sec with saved := (s.takeCheckpoint h).sec.saved } }) ∧
       exec (.controlServiceRequest st (.restoreCheckpoint h)) s = .next (s.asOne fun s => answered (s.restoreCheckpoint h) .done) ∧
       (Tab.get (fun _ => none) s.sec.saved h = none → s.restoreCheckpoint h = s) ∧
       (s.sec.stage ≠ 8 → exec (.controlServiceRequest st (.startRun h)) s = .next (answered s .notReady))) ∧
     ((s.steward st).role = .active → ∀ (h : Hold) (ws : List (BitVec 48 × W64)),
       exec (.controlServiceRequest st (.loadMap h ws)) s = .next (s.asOne fun s => answered (s.loadMap h ws) .done) ∧
       s.loadMap h [] = s ∧
       (∀ (a : BitVec 48) v, let x := Place.ofAddr st a.toNat
         ((∀ n o, x ≠ .croft n o) ∨ (∃ n o, x = .croft n o ∧ s.owner (State.parOfLogical n) = h) →
           s.loadMap h ((a, v) :: ws) = (s.registerWrite a.toNat (State.placeWidth x) v).loadMap h ws ∧
           (∀ t, exec (.registerWrite a (State.placeWidth x) v) s = .next t →
             exec (.controlServiceRequest st (.loadMap h [(a, v)])) s = .next (answered t .done))) ∧
         (∀ n o, x = .croft n o → s.owner (State.parOfLogical n) ≠ h → s.loadMap h ((a, v) :: ws) = s.loadMap h ws))) ∧
     ((s.steward st).role = .active ∨ (s.steward st).role = .standby →
       exec (.controlServiceRequest st .status) s = .next (answered s (.status s.holdingStates))) ∧
     ((s.steward st).role = .active → exec (.controlServiceRequest st .readFaults) s = .next (answered s (.records s.openRecords))) ∧
     ((s.steward st).role = .standby → ∀ r, r ≠ .status →
       exec (.controlServiceRequest st r) s = .next (answered s (.refusedNaming (s.active.getD 2)))))

/-- R341 to R344. -/
def Obligations.HoldingsComeAndGo : Prop :=
  ∀ (h : Hold) (s : State),
    let d := s.holding h
    let err := fun (i : Instr) => exec i s = .next (s.setReg (Reg.hldCtrl h) (setFld (s.reg (Reg.hldCtrl h)) 29 29 1))
    (s.up = false → ∀ i ∈ [Instr.create h, .reset h, .destroy h], exec i s = .next s) ∧
    (s.up = true →
    (CanCreate s h → ∃ t, exec (.create h) s = .next t ∧ ResetBegun s t h .resetting ∧ (t.holding h).creating = true ∧
      (∀ p < 56, t.owner p = if p ∈ s.rectOf h then h.val else s.owner p)) ∧
    (¬ CanCreate s h → err (.create h)) ∧
    (d.st = .active → ∃ t, exec (.reset h) s = .next t ∧ ResetBegun s t h .resetting ∧ ∀ p, t.owner p = s.owner p) ∧
    (d.st = .active → ∃ t, exec (.destroy h) s = .next t ∧ ResetBegun s t h .destroying ∧ ∀ p, t.owner p = s.owner p) ∧
    (d.st = .free → err (.reset h) ∧ err (.destroy h))) ∧
    (s.gatesDrained h = true →
      (d.st = .resetting → ∃ t, exec (.holdingResetDone h) s = .next t ∧ (t.holding h).st = .active ∧ (t.holding h).altRes = none ∧
        (t.holding h).altPower = none ∧ (∀ j, j ≠ h.val → t.holding j = s.holding j) ∧ t.stc h = Stc.ofImage (s.imageEntry h) ∧
        (∀ j, j ≠ h.val → t.stc j = s.stc j) ∧ (∀ p, t.owner p = s.owner p) ∧
        t.reg (Reg.altRes h) = ((d.altRes.getD (s.imageEntry h).allotRes) &&& 0x0FFF3FFF).setWidth 64 ∧
        t.reg (Reg.altPower h) = ((d.altPower.getD (s.imageEntry h).power) &&& 0xFFFF).setWidth 64 ∧
        (∀ q, CroftOf s h q → (t.croft q).resetting = false) ∧ CapsWritten t) ∧
      (d.st = .destroying → ∃ t, exec (.holdingResetDone h) s = .next t ∧ t.holding h = {} ∧ (∀ j, j ≠ h.val → t.holding j = s.holding j) ∧
        t.stc h = Stc.ofImage (s.imageEntry h) ∧ t.reg (Reg.altRes h) = 0x00800210 ∧ t.reg (Reg.altPower h) = 0x6978 ∧
        (∀ p < 56, t.owner p = if s.owner p = h then 0x1F else s.owner p) ∧ (∀ q, CroftOf s h q → (t.croft q).resetting = false)))

/-- R344 to R348. A missing ceiling counts as 0 W (log 24). -/
def Obligations.AllotmentsAndPower : Prop :=
  (∀ (h : Hold) (s : State),
     let d := s.holding h
     (∀ v, (d.st = .active → exec (.altResWrite h v) s =
         .next ((s.setReg (Reg.altRes h) ((v &&& 0x0FFF3FFF).setWidth 64)).setHolding h { d with busy := true })) ∧
       (d.st = .resetting ∨ d.st = .destroying → exec (.altResWrite h v) s = .next (s.setHolding h { d with altRes := some v })) ∧
       (d.st = .free → exec (.altResWrite h v) s = .next s)) ∧
     (d.busy = true → ∃ t, exec (.allotmentApplied h) s = .next t ∧ t.holding h = { d with busy := false } ∧
       (∀ q, q < 28000 → s.owner (State.parOf q) = h → fld (regOf (t.croft q) Reg.crfWinLimit) 4 0 = min 16 (s.field (Reg.altRes h) 4 0) ∧
         RegsKept (s.croft q) (t.croft q) [Reg.crfWinLimit] ∧ (t.croft q).mem = (s.croft q).mem) ∧
       (∀ q, s.owner (State.parOf q) ≠ h → t.croft q = s.croft q) ∧
       (∀ i < 28, (t.gate i).field (Reg.gatAllot h) 27 16 = min 2048 (s.field (Reg.altRes h) 27 16) ∧
         (t.gate i).field (Reg.gatAllot h) 8 0 = min 256 (s.field (Reg.altRes h) 13 5) ∧
         t.gate i = { s.gate i with regs := (t.gate i).regs }) ∧
       t = { s with holdings := t.holdings, crofts := t.crofts, gates := t.gates })) ∧
  (∀ (h : Hold) (s : State),
     let d := s.holding h
     let cap := s.field (Reg.altPower h) 15 0
     (∀ v : W32, (d.st = .active → ∃ t, exec (.altPowerWrite h v) s = .next t ∧ t.reg (Reg.altPower h) = (v &&& 0xFFFF).setWidth 64 ∧
         (t.holding h).busy = true ∧ (t.holding h).st = .active ∧
         IsPowerCode s h (v.toNat % 2 ^ 16) (t.holding h).code (t.holding h).noCode ∧ CapsWritten t ∧
         t = { s with regs := t.regs, holdings := t.holdings, parishes := t.parishes }) ∧
       (d.st = .resetting ∨ d.st = .destroying → exec (.altPowerWrite h v) s = .next (s.setHolding h { d with altPower := some v })) ∧
       (d.st = .free → exec (.altPowerWrite h v) s = .next s)) ∧
     (s.up = false → ∀ v, exec (.altModuleCapWrite v) s = .next s) ∧
     (s.up = true → ∀ v : W32, exec (.altModuleCapWrite v) s = .next (s.setReg Reg.altModuleCap ((v &&& 0xFFFF).setWidth 64))) ∧
     (∀ watts, d.st ≠ .free →
       (cap < watts → ∃ t, exec (.holdingPowerReading h watts) s = .next t ∧ t.holding h = { d with watts, below := 0, code := d.code - 1 } ∧
         CapsWritten t ∧ t = { s with holdings := t.holdings, parishes := t.parishes }) ∧
       (watts ≤ cap → 95 * cap ≤ 100 * watts → exec (.holdingPowerReading h watts) s = .next (s.setHolding h { d with watts, below := 0 })) ∧
       (watts ≤ cap → 100 * watts < 95 * cap → d.below ≠ 9 →
         exec (.holdingPowerReading h watts) s = .next (s.setHolding h { d with watts, below := d.below + 1 })) ∧
       (watts ≤ cap → 100 * watts < 95 * cap → d.below = 9 → ∀ c, IsPowerCode s h cap c false → d.code < c →
         ∃ t, exec (.holdingPowerReading h watts) s = .next t ∧ t.holding h = { d with watts, below := 0, code := d.code + 1 } ∧ CapsWritten t)) ∧
     (s.up = true →
       let pw := s.inputPower
       let lim := 10000 * s.field Reg.altModuleCap 15 0
       (lim < pw → ∃ t, exec .modulePowerReading s = .next t ∧ t.power =
         { s.power with modWatts := pw / 10000, capBelow := 0, modCode := s.power.modCode - 1 } ∧ CapsWritten t ∧
         t = { s with power := t.power, parishes := t.parishes }) ∧
       (pw ≤ lim → 100 * pw < 95 * lim → s.power.capBelow = 99 → ∃ t, exec .modulePowerReading s = .next t ∧ t.power =
         { s.power with modWatts := pw / 10000, capBelow := 0, modCode := min 25 (s.power.modCode + 1) } ∧ CapsWritten t) ∧
       (pw ≤ lim → 100 * pw < 95 * lim → s.power.capBelow ≠ 99 → exec .modulePowerReading s = .next { s with power :=
         { s.power with modWatts := pw / 10000, capBelow := s.power.capBelow + 1 } })))

/-- R17, R26, R300, R301, R307, R318, R320, R389, R419. What a port keeps over ENABLE and what starts afresh is the model's, log 94 and log 20; that a port whose ROLE in force is UNUSED stays off, and one that takes it goes off, is the model's reading of R318, log 90. -/
def Obligations.PortsFollowTheirCages : Prop :=
  ∀ (g : GateId) (k : PortId) (s : State), (s.gate g).lost = false →
    let d := s.gate g
    let p := d.port k
    let kept := p.txMsgs.filter fun e => e.1 != 0
    let fresh : Port := { st := .training, powered := true, nextRole := p.nextRole, txMsgs := kept, discarded := p.discarded
                          permuted := p.permuted, rx := p.rx }
    (s.alive = true → p.barred = false → bit (d.reg (Reg.lnkPortCtrl k)) 0 = false →
      (d.role k ≠ 0 → exec (.portEnable g k) s = .next (s.setGate g ((d.setField (Reg.lnkPortCtrl k) 0 0 1).setPort k fresh))) ∧
      (d.role k = 0 → exec (.portEnable g k) s = .next (s.setGate g (d.setField (Reg.lnkPortCtrl k) 0 0 1)))) ∧
    ((s.alive = false ∨ p.barred = true ∨ bit (d.reg (Reg.lnkPortCtrl k)) 0 = true) → exec (.portEnable g k) s = .next s) ∧
    ((∀ i < 8, Usable s g (8 * k + i)) → ∃ t, exec (.portDisable g k) s = .next t ∧ OnlyGate g s t ∧
      bit ((t.gate g).reg (Reg.lnkPortCtrl k)) 0 = false ∧ ((t.gate g).port k).st = .off ∧ ((t.gate g).port k).powered = false ∧
      (∀ i < 8, laneSt t g (8 * k + i) = .off) ∧ (∀ l, l / 8 ≠ k.val → laneSt t g l = laneSt s g l) ∧
      (p.st = .up → Raised s t 61 (State.locPort g k))) ∧
    (∀ v : W32, (s.alive = false ∨ 5 ≤ bitsOf v.toNat 6 4 → exec (.roleWrite g k v) s = .next s) ∧ (s.alive = true →
      (bitsOf v.toNat 6 4 ≤ 4 → p.st ≠ .up →
        exec (.roleWrite g k v) s = .next (s.setGate g (d.setPort k { p with nextRole := some (bitsOf v.toNat 6 4) }))) ∧
      (1 ≤ bitsOf v.toNat 6 4 → bitsOf v.toNat 6 4 ≤ 4 → p.st = .up → ∃ t, exec (.roleWrite g k v) s = .next t ∧ OnlyGate g s t ∧
        (t.gate g).role k = bitsOf v.toNat 6 4) ∧
      (bitsOf v.toNat 6 4 = 0 → p.st = .up → (∀ i < 8, Usable s g (8 * k + i)) → ∃ t, exec (.roleWrite g k v) s = .next t ∧
        OnlyGate g s t ∧ (t.gate g).role k = 0 ∧ ((t.gate g).port k).st = .off ∧ ((t.gate g).port k).powered = false ∧
        (∀ i < 8, laneSt t g (8 * k + i) = .off) ∧ Raised s t 61 (State.locPort g k)))) ∧
    (∀ c, s.cableOf g k = some c → p.powered = true → p.cable = none → d.lanesUp k = [] →
      (c.lanes = 8 → c.watts ≤ 25 → (if c.copper = true then c.lengthCm ≤ 150 else c.host200 = true) →
        ∃ t, exec (.cableCheck g k) s = .next t ∧ OnlyGate g s t ∧ ((t.gate g).port k).cable = some c ∧
          (∀ i < 8, laneSt s g (8 * k + i) = .off → Usable s g (8 * k + i) →
            laneSt t g (8 * k + i) = .train ∧ ((t.gate g).lane (8 * k + i)).attempts = 1) ∧
          ∀ i < 8, laneSt s g (8 * k + i) ≠ .off → laneSt t g (8 * k + i) = laneSt s g (8 * k + i)) ∧
      ((∀ i < 8, Usable s g (8 * k + i)) → c.lanes ≠ 8 ∨ 25 < c.watts ∨ (if c.copper = true then 150 < c.lengthCm else c.host200 = false) →
        ∃ t, exec (.cableCheck g k) s = .next t ∧ OnlyGate g s t ∧ ((t.gate g).port k).powered = false ∧ ((t.gate g).port k).st = .off ∧
          (∀ i < 8, laneSt t g (8 * k + i) = .off) ∧ Raised s t 63 (State.locPort g k))) ∧
    (p.powered = true → (∀ i < 8, Usable s g (8 * k + i)) → ∃ t, exec (.cageSupplyShort g k) s = .next t ∧ OnlyGate g s t ∧
      ((t.gate g).port k).powered = false ∧ ((t.gate g).port k).st = .down ∧ (∀ i < 8, laneSt t g (8 * k + i) = .off) ∧
      Raised s t 63 (State.locPort g k)) ∧
    (p.powered = false → exec (.cageSupplyShort g k) s = .next s) ∧
    (∀ fatal : Byte, InUse s g k → ∃ t, exec (.cableAlarmPoll g k fatal) s = .next t ∧ OnlyGate g s t ∧
      (∀ i < 8, fatal.getLsbD i = true → laneSt s g (8 * k + i) ≠ .off → laneSt s g (8 * k + i) ≠ .failed → Usable s g (8 * k + i) →
        laneSt t g (8 * k + i) = .failed ∧ Raised s t 60 (State.locLane g (8 * k + i))) ∧
      (∀ i < 8, fatal.getLsbD i = false → laneSt t g (8 * k + i) = laneSt s g (8 * k + i)) ∧
      (∀ l, l / 8 ≠ k.val → laneSt t g l = laneSt s g l)) ∧
    (∀ (port : Fin 84) c, exec (.cableInsertRemove (.lane port) (some c)) s =
      .next { s with cables := Tab.set (fun _ => none) s.cables port.val (some c) }) ∧
    (∀ port : Fin 84, port.val = 3 * g + k → InUse s g k → ∃ t, exec (.cableInsertRemove (.lane port) none) s = .next t ∧
      OnlyGate g { s with cables := Tab.set (fun _ => none) s.cables port.val none } t ∧ ((t.gate g).port k).cable = none ∧
      ∀ i < 8, laneSt s g (8 * k + i) ≠ .off → laneSt s g (8 * k + i) ≠ .failed → Usable s g (8 * k + i) →
        laneSt t g (8 * k + i) = .failed ∧ Raised s t 60 (State.locLane g (8 * k + i))) ∧
    (∀ (st : Stw) c, exec (.cableInsertRemove (.management st) c) s = .next (s.setSteward st { s.steward st with
      mgmtCable := c.isSome, mgmtUp := c.isSome && s.up && decide (5 ≤ s.sec.stage) && (s.steward st).role != .lost }))

/-- R301 to R303, R306, R307. The rounding and unit of LENGTH and which retrain fails are the model's readings, log 89; replayEnd, by which a further NAK counts, is log 91. -/
def Obligations.LanesTrainAndRetrain : Prop :=
  ∀ (g : GateId) (l : LaneId) (s : State), Usable s g l → InUse s g (l / 8) → (s.gate g).quiet = false →
    let d := s.gate g
    let v := d.lane l
    (∀ loss : W16, s.alive = true → v.st = .train ∨ v.st = .retrain → ∃ t, exec (.trainSuccess g l loss) s = .next t ∧ OnlyGate g s t ∧ OtherLanes s t g l ∧
      laneSt t g l = .lock ∧ ((t.gate g).lane l).adapted = true ∧ (t.gate g).field (Reg.lnkLaneMeas l) 15 0 = loss.toNat ∧
      (∀ c, (d.port (l / 8)).cable = some c → c.copper = true → 30 ≤ loss.toNat → 0 < c.lossPerM → (loss.toNat - 30) * 20 / c.lossPerM < 2 ^ 16 →
        (t.gate g).field (Reg.lnkLaneMeas l) 31 16 = (loss.toNat - 30) * 20 / c.lossPerM) ∧
      (∀ c, (d.port (l / 8)).cable = some c → c.copper = false → c.lengthCm / 5 < 2 ^ 16 → (t.gate g).field (Reg.lnkLaneMeas l) 31 16 = c.lengthCm / 5)) ∧
    ((v.st = .train ∨ v.st = .retrain) → v.attempts < 3 → exec (.trainTimeout g l) s = .next (s.setGate g (d.setLane l { v with attempts := v.attempts + 1 }))) ∧
    ((v.st = .train ∨ v.st = .retrain) → 3 ≤ v.attempts → ∃ t, exec (.trainTimeout g l) s = .next t ∧ OnlyGate g s t ∧ OtherLanes s t g l ∧
      laneSt t g l = .failed ∧ Raised s t 60 (State.locLane g l)) ∧
    (s.alive = false → (∀ loss, exec (.trainSuccess g l loss) s = .next s) ∧ exec (.lock g l) s = .next s) ∧
    (s.alive = true → v.st = .lock → ∃ t, exec (.lock g l) s = .next t ∧ OnlyGate g s t ∧ OtherLanes s t g l ∧ laneSt t g l = .caps ∧
      ((t.gate g).lane l).capsRx = false ∧ FrameSent s t g l 3 (s.capsPayload g (l / 8) false)) ∧
    ((v.st = .lock ∨ v.st = .caps) → ∃ t, exec (.lockTimeout g l) s = .next t ∧ OnlyGate g s t ∧ OtherLanes s t g l ∧ laneSt t g l = .train ∧
      ((t.gate g).lane l).attempts = 1) ∧
    (v.st = .up →
      let recent := v.times.filter fun t => s.clock.now < t + 10000000000
      (recent.length < 3 → ∃ t, exec (.lossOfLock g l) s = .next t ∧ OnlyGate g s t ∧ OtherLanes s t g l ∧ laneSt t g l = .retrain ∧
        ((t.gate g).lane l).retrains = v.retrains + 1 ∧ ((t.gate g).lane l).times = recent ++ [s.clock.now] ∧ ((t.gate g).lane l).replayBuf = []) ∧
      (3 ≤ recent.length → ∃ t, exec (.lossOfLock g l) s = .next t ∧ OnlyGate g s t ∧ OtherLanes s t g l ∧ laneSt t g l = .failed ∧
        Raised s t 60 (State.locLane g l)) ∧
      ((v.replayBuf = [] ∨ (d.port (l / 8)).st = .mismatch) → exec (.ackTimeout g l) s = .next s) ∧
      (v.replayBuf ≠ [] → (d.port (l / 8)).st ≠ .mismatch → v.replays < 7 → ∃ w fs, exec (.ackTimeout g l) s = .next (s.setGate g ((d.count (Reg.lnkPortReplays (l / 8)) 1).setLane l w)) ∧
        w = { v with replays := v.replays + 1, sent := v.sent ++ fs, txCount := v.txCount + BitVec.ofNat 8 v.replayBuf.length
                     replayEnd := s.clock.now + ceilDiv (256 * v.replayBuf.length) 10 } ∧ fs.length = v.replayBuf.length ∧
        ∀ (i : Nat) (f : BitVec 20 × List Byte) (x : TxFrame), fs[i]? = some f → v.replayBuf[i]? = some x → ∃ h : FrameHdr,
          h.ftype = 1 ∧ h.lseq = x.lseq ∧ h.pseq = x.pseq ∧ h.vc = x.vc ∧ h.first = x.first ∧
            f = (codewordMarker (v.txCount.toNat + i), frameOf h x.bytes)) ∧
      (v.replayBuf ≠ [] → (d.port (l / 8)).st ≠ .mismatch → 7 ≤ v.replays → recent.length < 3 → ∃ t, exec (.ackTimeout g l) s = .next t ∧ OnlyGate g s t ∧ OtherLanes s t g l ∧
        laneSt t g l = .retrain ∧ ((t.gate g).lane l).retrains = v.retrains + 1))

/-- R303 to R312, R321. Messages, frames and codewords are placed as log 20 and log 142 say. That halves are rounded down is the model's, log 90; what DATA does at a port in MISMATCH, and nakSeen, are log 91; the slew is log 100. -/
def Obligations.FramesReceivedAreServed : Prop :=
  ∀ (g : GateId) (l : LaneId) (s : State) (f : Frame),
    let d := s.gate g
    let v := d.lane l
    let k := l.val / 8
    let p := d.port k
    let any := [Instr.caps g l f, .data g l f, .idle g l f, .time g l f]
    let steady := codewordGood f = true ∨ v.badRun < 3
    let recent := v.times.filter fun t => s.clock.now < t + 10000000000
    (f.wellFormed = true → s.alive = false → ∀ i ∈ any, exec i s = .next s) ∧
    (s.alive = true → d.quiet = false →
    (f.wellFormed = true → d.lost = false → v.st = .lock → InUse s g k → ∀ i ∈ any,
      let w := State.countCodeword v f
      (w.goodRun < 8 → exec i s = .next (s.setGate g (d.setLane l w))) ∧
      (8 ≤ w.goodRun → v.barred = false → ∃ t, exec i s = .next t ∧ OnlyGate g s t ∧ OtherLanes s t g l ∧ laneSt t g l = .caps ∧
        ((t.gate g).lane l).capsRx = false ∧ FrameSent s t g l 3 (s.capsPayload g k false))) ∧
    (f.wellFormed = true → d.lost = false → v.st = .up → v.barred = false → InUse s g k → codewordGood f = false → 3 ≤ v.badRun → f.decodes = false →
      ∀ i ∈ any, ∃ t, exec i s = .next t ∧ OnlyGate g s t ∧ OtherLanes s t g l ∧
        (recent.length < 3 → laneSt t g l = .retrain ∧ ((t.gate g).lane l).retrains = v.retrains + 1) ∧
        (3 ≤ recent.length → laneSt t g l = .failed ∧ Raised s t 60 (State.locLane g l))) ∧
    (f.wellFormed = true → goodFrame f = false → d.lost = false → v.st = .up → steady → ∀ i ∈ any,
      ∃ t, exec i s = .next t ∧ OnlyGate g s t ∧ OtherLanes s t g l ∧ (t.gate g).ports = d.ports ∧ t.reports = s.reports ∧
        ((t.gate g).lane l).nak = true ∧ ((t.gate g).lane l).rxSeq = v.rxSeq ∧ FrameSent s t g l 0 [] ∧ laneSt t g l = .up ∧
        ((t.gate g).lane l).badRun = (if codewordGood f = true then 0 else v.badRun + 1) ∧
        (f.decodes = false → (t.gate g).num (Reg.lnkLaneFecUncorr l) = satAdd (d.num (Reg.lnkLaneFecUncorr l)) 1)) ∧
    (∀ h b, Receives s g f 1 h b → v.st = .caps → ∃ t, exec (.data g l f) s = .next t ∧ OnlyGate g s t ∧ OtherLanes s t g l ∧
      laneSt t g l = .caps ∧ ((t.gate g).lane l).nak = true ∧ ((t.gate g).lane l).rxSeq = v.rxSeq ∧ ((t.gate g).lane l).sent = v.sent ∧
      ((t.gate g).port k).rx = p.rx ∧ ((t.gate g).port k).rxPseq = p.rxPseq) ∧
    (∀ h b, Receives s g f 1 h b → v.st = .up → steady → h.ackv = false →
      ((h.lseq ≠ v.rxSeq ∨ p.st = .mismatch) → ∃ t, exec (.data g l f) s = .next t ∧ OnlyGate g s t ∧ OtherLanes s t g l ∧ ((t.gate g).lane l).nak = true ∧
        ((t.gate g).lane l).rxSeq = v.rxSeq ∧ ((t.gate g).port k).rx = p.rx ∧ ((t.gate g).port k).rxPseq = p.rxPseq) ∧
      (∀ m : Msg, p.st ≠ .mismatch → h.lseq = v.rxSeq → h.pseq = p.rxPseq → p.rxPseq < 2 ^ 32 → p.held = [] → p.stream h.vc = [] → b = slice m.bytes 0 624 → m.bytes.length ≤ 624 →
        m.op ≠ 0 → (∃ roles, opPlace m.op.toNat = some (h.vc, roles) ∧ d.role k ∈ roles) →
        ∃ t, exec (.data g l f) s = .next t ∧ OnlyGate g s t ∧ OtherLanes s t g l ∧ ((t.gate g).lane l).nak = false ∧
          ((t.gate g).lane l).rxSeq = (v.rxSeq + 1) % 4096 ∧ ((t.gate g).port k).rx = p.rx ++ [m] ∧
          ((t.gate g).port k).rxPseq = (p.rxPseq + 1) % 2 ^ 32 ∧ ((t.gate g).port k).freedOf h.vc = (p.freedOf h.vc + m.units) % 2 ^ 16)) ∧
    (∀ h b, Receives s g f 0 h b → v.st = .up → steady → p.txMsgs = [] → h.nak = false → h.ackv = true →
      ∀ a x r, v.replayBuf = a ++ x :: r → x.lseq = h.ackseq → (∀ y ∈ a, y.lseq ≠ h.ackseq) →
        ∃ t, exec (.idle g l f) s = .next t ∧ OnlyGate g s t ∧ OtherLanes s t g l ∧ t.reports = s.reports ∧
          (t.gate g).lane l = { State.countCodeword v f with replayBuf := r, replays := 0, nakSeen := none } ∧
          (h.credv = true → ((t.gate g).port k).credits h.cvc =
            p.credits h.cvc + (h.credits + 2 ^ 16 - Tab.get (fun _ => 0) p.seen h.cvc) % 2 ^ 16)) ∧
    (∀ h b, Receives s g f 3 h b → v.st = .caps → v.barred = false → InUse s g k →
      let c := State.capsOf b
      (c.flags.getLsbD 0 = false → (∀ x, p.caps = some x → x.raw = c.raw) → ∃ t, exec (.caps g l f) s = .next t ∧ OnlyGate g s t ∧ OtherLanes s t g l ∧
        laneSt t g l = .caps ∧ ((t.gate g).lane l).capsRx = true ∧ FrameSent s t g l 3 (s.capsPayload g k true) ∧ ((t.gate g).port k).caps = p.caps) ∧
      (c.flags.getLsbD 0 = true → p.caps = none → p.st ≠ .up → p.st ≠ .mismatch → ∃ t, exec (.caps g l f) s = .next t ∧ OnlyGate g s t ∧ OtherLanes s t g l ∧
        laneSt t g l = .up ∧ ((t.gate g).lane l).rxSeq = 0 ∧ ((t.gate g).port k).caps = some c ∧ ((t.gate g).port k).epochLock = c.flags.getLsbD 2) ∧
      (∀ x, p.caps = some x → x.raw ≠ c.raw → ∃ t, exec (.caps g l f) s = .next t ∧ OnlyGate g s t ∧ OtherLanes s t g l ∧
        laneSt t g l = .failed ∧ Raised s t 62 (State.locPort g k))) ∧
    (∀ h b, Receives s g f 3 h b → v.st = .caps → (∀ i < 8, Usable s g (8 * k + i)) → p.caps = none → p.st = .training →
      p.nextRole = some 0 → (State.capsOf b).flags.getLsbD 0 = true → d.minLanes k ≤ (d.lanesUp k).length + 1 →
      (d.setPort k { p with caps := some (State.capsOf b) }).partnerOk k = true →
        ∃ t, exec (.caps g l f) s = .next t ∧ OnlyGate g s t ∧ (t.gate g).role k = 0 ∧ ((t.gate g).port k).st = .off ∧
          ((t.gate g).port k).powered = false ∧ ∀ i < 8, laneSt t g (8 * k + i) = .off) ∧
    (∀ h b, Receives s g f 3 h b → v.st = .up → steady → h.ackv = false → p.txMsgs = [] → ∃ t, exec (.caps g l f) s = .next t ∧ OnlyGate g s t ∧
      (t.gate g).lane l = State.countCodeword v f ∧ ((t.gate g).port k).epochLock = (State.capsOf b).flags.getLsbD 2 ∧
      ((t.gate g).port k).caps = p.caps ∧ t.reports = s.reports) ∧
    (∀ h b, Receives s g f 2 h b → v.st = .up → steady → h.ackv = false → p.txMsgs = [] →
      let at_ := fun lo => ((ofLe (slice b lo 8) : Nat) : Int)
      let now := (s.clock.now : Int)
      ∃ t, exec (.time g l f) s = .next t ∧ t = { s with gates := t.gates, clock := t.clock } ∧ (∀ j, j ≠ g.val → t.gate j = s.gate j) ∧
        (t.gate g).num (Reg.lnkTimeOffset k) = unsigned 32 ((at_ 20 - at_ 12 + (at_ 4 - now)) / 2) ∧
        (t.gate g).num (Reg.lnkTimeDelay k) = unsigned 32 ((now - at_ 12 - (at_ 4 - at_ 20)) / 2) ∧
        ((t.gate g).port k).lastTTx = ofLe (slice b 4 8) ∧ ((t.gate g).port k).lastTRx = s.clock.now ∧
        ((t.gate g).port k).epochLock = (b.getD 0 0).getLsbD 0 ∧
        ((t.gate g).port k).timeLock = (b.getD 0 0).getLsbD 0 ∧
        ((s.clock.epochLock = true ∨ t.timePort ≠ some (3 * g + k)) → SlewKept s t) ∧
        (s.clock.epochLock = false → t.timePort = some (3 * g + k) → t.clock = { s.clock with
          slew := (at_ 20 - at_ 12 + (at_ 4 - now)) / 2, slewPort := some (3 * g + k) }))) ∧
    (∀ (port : PortId) r, (d.port port).st = .up → d.lanesUp port = l.val :: r →
      let h : FrameHdr := { ftype := 2, nak := v.nak, ackv := true, ackseq := (v.rxSeq + 4095) % 4096, credv := true, credits := p.freedOf 0 }
      let word := (codewordMarker v.txCount.toNat, frameOf h (s.timePayload (d.port port)))
      exec (.timeFrameTimer g port) s = .next (s.setGate g (d.setLane l { v with
        txCount := v.txCount + 1, sent := if d.quiet = true then v.sent else v.sent ++ [word] })))

/-- R314, R315, R322 to R324. -/
def Obligations.StoreAnswersReachChannels : Prop :=
  ∀ (g : GateId) (k : PortId) (m : Msg) (s : State), m.wellFormed = true → AtPort s g k 1 m →
    let d := s.gate g
    (∀ r c lo, r.parts = [(c, lo, m.payload.length)] →
      let v := d.chan c
      (∀ i op, (i = .ebsoberReadData g k m ∧ m.op = 0x81 ∧ op = 0x01 ∨ i = .shardData g k m ∧ m.op = 0x83 ∧ op = 0x03) →
        Outstanding s g k m r [op] → m.payload ≠ [] → m.arg1.getLsbD 0 = true → m.addr = r.msg.addr → r.msg.addr.toNat = lo → r.got = 0 →
        d.ctxAddr c ≤ lo → v.st = .run → d.ctxWrite c = false → d.ctxMulti c = false → d.ctxDest c < 2 ^ 32 →
        ∃ t ks, exec i s = .next t ∧ OnlyGate g s t ∧ t.reports = s.reports ∧ t.outq = s.outq ++ ks ∧
          CarryBytes d c (d.ctxDoff c + (lo - d.ctxAddr c)) ks m.payload ∧ ((t.gate g).chan c).st = .run ∧ ((t.gate g).chan c).bytes = v.bytes ∧
          ((t.gate g).chan c).outst.map (·.pkt) = v.outst.map (·.pkt) ++ ks)) ∧
    (∀ r c lo n, r.parts = [(c, lo, n)] →
      let v := d.chan c
      (∀ i op, (i = .writeDone g k m ∧ m.op = 0x82 ∧ op = 0x02 ∨ i = .shardDone g k m ∧ m.op = 0x84 ∧ op = 0x04) →
        Outstanding s g k m r [op] →
        (∃ t, exec i s = .next t ∧ OnlyGate g s t ∧ t.reports = s.reports ∧ ((t.gate g).chan c).bytes = v.bytes + n) ∧
        (∀ mv, v.st = .run → v.moving = some mv → mv.len ≤ mv.next → v.outst = [] → d.ctxNotify c = false → d.storeParts c = 1 →
          ∃ t, exec i s = .next t ∧ ((t.gate g).chan c).st = .done ∧ ((t.gate g).chan c).bytes = v.bytes + n ∧ t.outq = s.outq)) ∧
      (Outstanding s g k m r [0x01, 0x02, 0x03, 0x04] → m.op = 0x8F → v.st = .run →
        (m.status = 1 ∨ m.status = 3 → r.retries < d.retryLimit → ∃ t x, exec (.error g k m) s = .next t ∧ OnlyGate g s t ∧
          t.reports = s.reports ∧ t.outq = s.outq ∧ x ∈ (t.gate g).store ∧ RetryOf r x (c, lo, n) ∧
          ((∀ q ∈ d.store.erase r, q.tag ≠ r.tag) → x.tag = r.tag)) ∧
        (m.status ≠ 1 ∧ m.status ≠ 3 ∨ d.retryLimit ≤ r.retries → ∃ t, exec (.error g k m) s = .next t ∧ OnlyGate g s t ∧
          ((t.gate g).chan c).st = .draining ∧ ((t.gate g).chan c).cause = 3 ∧ ((t.gate g).chan c).code = m.status ∧
          ((t.gate g).chan c).used = r.retries ∧ Raised s t 56 (State.locGate g))))

/-- R261 to R264, R272, R313, R316, R317, R328, R380, R382. Which croft sums a chunk, and in which rows, is left open: a free function, as the own partial of a chunk that has no such croft is (log 10, log 92). That a chunk belongs to the lowest holding that fits is log 22, that permOut is filled by no command log 93, and that a gate is lost at its event log 113: the model's readings. -/
def Obligations.PeerDataIsTaken : Prop :=
  ∀ (g : GateId) (k : PortId) (m : Msg) (s : State), m.wellFormed = true →
    let d := s.gate g
    let p := { d.port k with rx := (d.port k).rx.erase m }
    let ack : Msg := { op := 0xC1, tag := m.tag }
    (∀ i vc, (i = .permuteData g k m ∧ m.op = 0x41 ∧ vc = 2 ∨ i = .permuteAck g k m ∧ m.op = 0xC1 ∧ vc = 1 ∨
        i = .harvestChunk g k m ∧ m.op = 0x40 ∧ vc = 2) → m ∉ (d.port k).rx →
      (p.st ≠ .up → exec i s = .next s) ∧
      (p.st = .up → d.carries k vc m.op.toNat = false → exec i s = .next (s.setGate g (d.discardMsg k m)))) ∧
    (m.op = 0xC1 ∨ m.op = 0x40 → d.discardMsg k m = d.setPort k { d.port k with discarded := (d.port k).discarded + 1 }) ∧
    (m.op = 0x41 → p.txMsgs = [] → p.credits 1 = 0 → d.discardMsg k m = d.setPort k { d.port k with
      discarded := (d.port k).discarded + 1, txMsgs := [(1, 16, { op := 0x8F, status := 4, tag := m.tag })] }) ∧
    (m.op = 0x41 → AtPort s g k 2 m → p.st = .up → p.txMsgs = [] →
      let q := { p with permuted := Memory.write p.permuted m.addr.toNat m.payload }
      (p.credits 1 = 0 → exec (.permuteData g k m) s = .next (s.setGate g (d.setPort k { q with txMsgs := [(1, 16, ack)] }))) ∧
      (∀ l, 0 < p.credits 1 → d.openLane k = some l → d.pseqSpan k < 256 → d.quiet = false → ∃ t h b, exec (.permuteData g k m) s = .next t ∧ OnlyGate g s t ∧
        t.reports = s.reports ∧ t.outq = s.outq ∧ ((t.gate g).port k).permuted = q.permuted ∧ ((t.gate g).port k).txMsgs = [] ∧
        ((t.gate g).port k).credits 1 = p.credits 1 - 1 ∧ ((t.gate g).lane l).sent =
          (d.lane l).sent ++ [(codewordMarker (d.lane l).txCount.toNat, frameOf h b)] ∧
        h.ftype = 1 ∧ h.vc = 1 ∧ h.first = 0 ∧ h.pseq = p.txPseq ∧ b = ack.bytes)) ∧
    (m.op = 0xC1 → AtPort s g k 1 m → m.tag.toNat ∈ p.permOut → exec (.permuteAck g k m) s = .next (s.setGate g (d.setPort k { p with permOut := p.permOut.erase m.tag.toNat }))) ∧
    (m.op = 0x40 → AtPort s g k 2 m → ∀ h, s.chunkHolding m = some h →
      let c := s.stc h
      let i := m.addr.toNat
      let half := bitsOf m.arg1.toNat 8 8
      let key := 2 * i + half
      let bf := Config.harvestBf16 h
      let sum := chunkSum (s.ownChunk h i half) (chunkValues (m.arg1.getLsbD 9) m.payload)
      let heard := { c with chunks := c.chunks ++ [key], horizon := true }
      let printed := fun bs => heard.setPrint (c.print ^^^ chunkPrint (BitVec.ofNat 32 c.step) i bs)
      let taken := msgTaken s g k m
      (key ∈ c.chunks → exec (.harvestChunk g k m) s = .next taken) ∧
      (key ∉ c.chunks → ∃ u, exec (.harvestChunk g k m) s = .next u ∧ (u.stc h).started = true ∧ key ∈ (u.stc h).chunks ∧
        (u.stc h).horizon = true) ∧
      (key ∉ c.chunks → c.started = true → ∃ u, exec (.harvestChunk g k m) s = .next u ∧
        u = { taken with gates := u.gates, stcs := u.stcs, shadows := u.shadows, shadowNum := u.shadowNum, outq := u.outq, crofts := u.crofts } ∧
        (∀ j, j ≠ h → u.stc j = { s.stc j with horizon := (u.stc j).horizon }) ∧
        (s.harvestSite h i half = none → u.crofts = s.crofts) ∧
        (∀ x, s.harvestSite h i half = some x → (∀ q, q ≠ x.q → u.croft q = s.croft q) ∧
          ∀ (e : Nat) v, sum[e]? = some v → State.harvestRow h i half e < 512 → ∀ b < 4,
            Memory.byte (u.croft x.q).mem (Site.accRow (State.harvestRow h i half 0) + 4 * e + b) = (leBytes 4 v.toNat).getD b 0) ∧
        (if Config.chunkShard h i % c.ringN = c.ringPos % c.ringN then
          u.gates = taken.gates ∧
            u.stc h = { printed (chunkPayload false sum) with kept := Tab.set (fun _ => []) c.kept key (chunkPayload false sum) }
        else
          let next : Msg := { op := 0x40, addr := BitVec.ofNat 48 i, arg0 := BitVec.ofNat 32 c.step, payload := chunkPayload bf sum
                              arg1 := BitVec.ofNat 32 (c.ireplays % 8 + half * 2 ^ 8 + b2n bf * 2 ^ 9) }
          let ports := s.chunkPorts (1 + half) i
          (ports = [] → u.gates = taken.gates ∧ u.stc h = { heard with unsent := c.unsent ++ [(half, i, next)] }) ∧
          (ports ≠ [] → u.stc h = printed next.payload ∧
            u.gates = (ports.foldl (fun v gk => v.setGate gk.1 ((v.gate gk.1).post gk.2 2 h next)) taken).gates)))) ∧
    (∀ h i half e, (s.harvestSite h i half = none ∨ 512 ≤ State.harvestRow h i half e →
        s.ownChunk h i half e = Config.ownPartial h (s.stc h).step i half e) ∧
      ∀ x, s.harvestSite h i half = some x → State.harvestRow h i half e < 512 →
        s.ownChunk h i half e = (x.accValues (State.harvestRow h i half e)).getD (e % 64) 0) ∧
    (s.up = false → exec (.gateLost g) s = .next s) ∧
    (d.lost = true → exec (.gateLost g) s = .next s) ∧
    (s.up = true → d.lost = false →
      let gone := s.setGate g { d with lost := true }
      exec (.gateLost g) s = .next
        (if (s.parish (State.parOfGate g)).net = true then raisedAt gone (some (0x7200 + State.parOfGate g))
          { source := 80, loc := State.locGate g, time := s.clock.now, tclass := some false }
        else gone))

/-- R352 to R355, R360, R362 to R364. What a partner that boots otherwise becomes is the model's, log 106, and that it is reported then log 107. That a stage's events come with STAGE_COMPLETE, that SECTION_DIGEST leads back to stage 1, and that LDG_CYCLE rises once a power cycle is log 104. -/
def Obligations.BringUpPassesItsStages : Prop :=
  ∀ (s : State) (r : StageResult), s.bringingUp = true →
    (s.sec.stage = 0 →
      let u := { (s.netStage r State.bootRow).selfTest r State.bootRow with clock := { s.clock with refclkOk := true } }
      (u.bootPath = false → s.ledger.answers = false → exec (.stageComplete r) s = .next (failedWith u 3)) ∧
      (u.bootPath = true → NoPermanents s → ∃ t, exec (.stageComplete r) s = .next t ∧ t.sec = { s.sec with stage := 1 } ∧
        t.clock = { s.clock with refclkOk := true } ∧ t.ledger.answers = true ∧
        (s.deadR = [] → r.deadRouters = [] → ∀ p, 25 ≤ p → p ≤ 30 → p ∉ r.offParishes → (s.parish p).st = .off → (s.parish p).dead = false →
          p % 8 ∉ s.power.groupsOff → (t.parish p).st = .netOn ∧ (t.parish p).nclkLock = true ∧ (t.parish p).pclkLock = true))) ∧
    (s.sec.stage = 1 → s.toIsolate = [] → r.steward0Ok = false → r.steward1Ok = false → ∃ t, exec (.stageComplete r) s = .next t ∧
      t.sec.fail = 4 ∧ t.faults.bootBell = true ∧ t.sec.stage = 1 ∧
      (r.ledgerOk = true → s.sec.cycled = false → t.ledger.cycle = s.ledger.cycle + 1)) ∧
    (s.sec.stage = 1 → r.steward0Ok = true → r.steward1Ok = true → r.ledgerOk = true → s.ledger.answers = true → NoPermanents s →
      s.power.tripRecord = none →
      let choice := fun (i : Nat) => s.chooseCopy (s.dieFuses i)
      let blown := fun (i : Nat) => match choice i with
        | some b => { s.dieFuses i with revoked := (s.dieFuses i).revoked ||| BitVec.ofNat 4 (s.headerNum b 12 1) }
        | none => s.dieFuses i
      (∀ b, choice 0 = some b → s.sectionMismatch b = false → ∃ t, exec (.stageComplete r) s = .next t ∧ t.sec.stage = 2 ∧ t.sec.copyB = b ∧
        t.sec.svn = s.imageSvn b ∧ t.sec.udsLocked = true ∧ t.sec.fuses0 = blown 0 ∧ t.sec.fuses1 = blown 1 ∧
        t.sec.debug = (s.sec.debug || s.debugToken b s.sec.fuses0.serial) ∧ (∀ i < 2, (t.steward i).coreDebug = t.sec.debug) ∧
        t.ledger.cycle = s.ledger.cycle + (if s.sec.cycled = true then 0 else 1) ∧ (t.steward 0).role = .active ∧
        (choice 1 = some b → (t.steward 1).role = .standby ∧ t.reports = s.reports) ∧
        (choice 1 ≠ some b → (t.steward 1).role = .lost ∧ (t.steward 1).heldReset = true ∧ Raised s t 74 (State.locSteward 1))) ∧
      (∀ b, choice 0 = some b → s.sectionMismatch b = true → ∃ t, exec (.stageComplete r) s = .next t ∧
        t = { s with sec := t.sec, ledger := t.ledger, stewards := t.stewards } ∧ t.sec = { s.sec with
          fuses0 := blown 0, fuses1 := blown 1, badA := s.sec.badA || !b, badB := s.sec.badB || b, stage := 1, cycled := true, copyB := b
          svn := s.imageSvn b, keySlot := t.sec.keySlot, udsLocked := true, debug := s.sec.debug || s.debugToken b s.sec.fuses0.serial } ∧
        t.ledger.cycle = s.ledger.cycle + (if s.sec.cycled = true then 0 else 1) ∧
        ∀ i < 2, t.steward i = { s.steward i with coreDebug := t.sec.debug }) ∧
      (choice 0 = none → choice 1 = none → s.toIsolate = [] → ∃ t, exec (.stageComplete r) s = .next t ∧ t.sec = { s.sec with fail := 1, cycled := true } ∧
        t.faults.bootBell = true ∧ t.ledger.cycle = s.ledger.cycle + (if s.sec.cycled = true then 0 else 1))) ∧
    (s.sec.stage = 2 ∨ s.sec.stage = 3 ∨ s.sec.stage = 6 → ∃ t, exec (.stageComplete r) s = .next t ∧
      t.sec = { s.sec with stage := s.sec.stage + 1 }) ∧
    (s.sec.stage = 5 → ∃ t, exec (.stageComplete r) s = .next t ∧ t.sec = { s.sec with stage := 6, sowOpen := false, sowBusy := false }) ∧
    (s.sec.stage = 4 → ∃ t, exec (.stageComplete r) s = .next t ∧ t = { s with sec := { s.sec with stage := 5 }, stewards := t.stewards } ∧
      ∀ i < 2, t.steward i = { s.steward i with mgmtUp := (s.steward i).mgmtCable && (s.steward i).role != .lost }) ∧
    (s.sec.stage = 7 → exec (.stageComplete r) s = .next { s with sec := { s.sec with stage := 8 } }) ∧
    (∀ b, 1 ≤ s.sec.stage → s.sec.stage ≤ 7 → (s.sec.stage = 1 ∨ s.sec.copyB = b) →
      (s.sectionMismatch b = true → exec (.sectionDigest b) s =
        .next { s with sec := { s.sec with badA := s.sec.badA || !b, badB := s.sec.badB || b, stage := 1 } }) ∧
      (s.sectionMismatch b = false → exec (.sectionDigest b) s = .next s))

/-- R362, R363, R368, R369. That a pass lifts the croft's fence is the model's reading, log 109, and that the fuses change at FUSE_BLOW_DONE log 111. -/
def Obligations.CroftsAreTestedAndFusesBlown : Prop :=
  (∀ (s : State), s.bringingUp = true → s.sec.stage = 4 →
     (∀ k : Fin 8, ∃ t, exec (.computeWave k) s = .next t ∧ t = { s with parishes := t.parishes } ∧
       (∀ p < 56, p % 8 = k → (s.parish p).st = .netOn → (t.parish p).st = .computeUp ∧ (t.parish p).field Reg.parCtrl 0 0 = 1) ∧
       (∀ p, (p % 8 ≠ k ∨ (s.parish p).st ≠ .netOn) → t.parish p = s.parish p)) ∧
     (∀ q : Phys, (s.parish (State.parOf q)).st = .on → (s.logicalOf q).isSome = true → s.repairsOf q = [] →
       let c := s.croft q
       (∃ t, exec (.croftSelftest q .pass) s = .next t ∧ (∀ j, j ≠ q.val → t.croft j = s.croft j) ∧
         t = { s with crofts := t.crofts, ledger := t.ledger, outq := t.outq, reports := t.reports, freeCtr := t.freeCtr } ∧
         let d := t.croft q
         d.resetting = false ∧ d.mem = [] ∧ d.seq = {} ∧ d.repairs = c.repairs ∧ (∀ w < 16, winState d w = 0) ∧
           (s.deadPos q = false → c.faultFence = false → bit (regOf d Reg.crfCtrl) 0 = false)) ∧
       (∀ bank row, (RowTaken c (bank % 8) (row % 4096) ∨ ∃ e < 32, repairAt c (bank % 8) e = none) →
         ∃ t, exec (.croftSelftest q (.badRow bank row)) s = .next t ∧ (∀ j, j ≠ q.val → t.croft j = s.croft j) ∧
           RowTaken (t.croft q) (bank % 8) (row % 4096) ∧ t.ledger.repairs = s.ledger.repairs ++ [(q.val, bank % 8, row % 4096)] ∧
           t.parishes = s.parishes) ∧
       (16 ≤ s.owner (State.parOf q) → ∃ t, exec (.croftSelftest q .broken) s = .next t ∧ t.logicalOf q = none ∧ bit (regOf (t.croft q) Reg.crfCtrl) 0 = true))) ∧
  (∀ (s : State),
     (s.up = false → exec .commit s = .next s) ∧
     (s.up = true → s.sec.stage ≠ 8 → exec .commit s = .next { s with sec := { s.sec with fuseErr := true } }) ∧
     (s.up = true → s.sec.stage = 8 → exec .commit s = .next { s with sec := { s.sec with
       fuseErr := false, fuseBusy := s.sec.fuseBusy || s.behind 0 || s.behind 1 } }) ∧
     (s.sec.fuseBusy = true → ∃ t, exec .fuseBlowDone s = .next t ∧ t = { s with sec := { s.sec with
         fuseBusy := false, fuses0 := t.sec.fuses0, fuses1 := t.sec.fuses1 } } ∧
       (∀ i < 2, t.dieFuses i = { s.dieFuses i with svn := (t.dieFuses i).svn } ∧
         ((s.steward i).role ≠ .lost → (t.dieFuses i).svn = max (s.dieFuses i).svn (min 64 s.sec.svn)) ∧
         ((s.steward i).role = .lost → (t.dieFuses i).svn = (s.dieFuses i).svn))) ∧
     (s.sec.fuseBusy = false → exec .fuseBlowDone s = .next s))

/-- R371 to R374, R379. That SEND goes by the DEST register as it stands, and CHECK by the destination that OPEN announced, is the model's reading, log 112. -/
def Obligations.SowingRunsInRounds : Prop :=
  ∀ (s : State),
    let c := s.sec
    let c0 := s.field Reg.secSowRange 8 0
    let c1 := s.field Reg.secSowRange 24 16
    let refused := { s with sec := { s.sec with sowErr := true } }
    (s.up = false → ∀ i ∈ [Instr.sowOpen, .sowSend, .sowCheck, .sowEnd], exec i s = .next s) ∧
    (s.up = true →
    (c.sowBusy = false → c.sowOpen = false → c0 ≤ c1 → ∃ t, exec .sowOpen s = .next t ∧ t.sec = { c with
        sowErr := false, sowBusy := true, sowOpen := true, sowRound := s.field Reg.secSowRound 15 0, sowC0 := c0, sowC1 := c1,
        sowDest := (s.reg Reg.secSowDest).setWidth 32 } ∧ t = { s with sec := t.sec, crofts := t.crofts } ∧
      ∀ q, t.croft q = { s.croft q with sowMask := (t.croft q).sowMask, sowMark := (t.croft q).sowMark } ∧
        ∀ i, (c0 ≤ i ∧ i ≤ c1 → sowMarkAt (t.croft q) i = .none ∧ sowMaskAt (t.croft q) i = 0) ∧
          (¬ (c0 ≤ i ∧ i ≤ c1) → sowMarkAt (t.croft q) i = sowMarkAt (s.croft q) i ∧ sowMaskAt (t.croft q) i = sowMaskAt (s.croft q) i)) ∧
    ((c.sowBusy = true ∨ c.sowOpen = true ∨ c1 < c0) → exec .sowOpen s = .next refused) ∧
    (c.sowBusy = false → c.sowOpen = true → s.field Reg.secSowSrc 11 0 = 0 → ∃ ks, exec .sowSend s =
        .next { s with sec := { c with sowErr := false, sowBusy := true }, outq := s.outq ++ ks } ∧ ks.length = 8 * (c.sowC1 + 1 - c.sowC0) ∧
      ∀ (i : Nat) (k : Packet), ks[i]? = some k → k.op = 0x01 ∧ k.window = 15 ∧ k.holding = 15 ∧ k.tclass = true ∧ k.length = 512 ∧
        k.offset.toNat = (4096 * (c.sowC0 + i / 8) + 512 * (i % 8)) % 2 ^ 32 ∧
        k.payload = slice (s.ledger.block (s.num Reg.secSowSrc / 4096 + i / 8)) (512 * (i % 8)) 512 ∧
        ((s.num Reg.secSowDest).testBit 31 = true → k.dest = 0xFFFF ∧ k.plane = .b ∧ k.mgroup.toNat = bitsOf (s.num Reg.secSowDest) 15 8) ∧
        ((s.num Reg.secSowDest).testBit 31 = false → k.plane = .a ∧ k.dest.toNat = bitsOf (s.num Reg.secSowDest) 30 16)) ∧
    (c.sowBusy = false → c.sowOpen = true → ∃ t, exec .sowCheck s = .next t ∧
      t = { s with sec := { c with sowErr := false, sowBusy := true, sowMap := t.sec.sowMap } } ∧
      ∀ p < 56, ∀ i < 480, (Tab.get (fun _ => 0) t.sec.sowMap p).testBit i = true ↔
        (s.sowDestination (State.sowCroft p i) = true → ∀ q, s.physOf (State.sowCroft p i) = some q →
          ∀ j, c.sowC0 ≤ j → j ≤ c.sowC1 → sowMarkAt (s.croft q) j = .ok)) ∧
    (c.sowBusy = false → c.sowOpen = true → exec .sowEnd s = .next { s with sec := { c with sowErr := false, sowBusy := true, sowOpen := false } }) ∧
    ((c.sowBusy = true ∨ c.sowOpen = false) → ∀ i ∈ [Instr.sowSend, .sowCheck, .sowEnd], exec i s = .next refused)) ∧
    (exec .sowOpDone s = .next { s with sec := { c with sowBusy := false } }) ∧
    (∀ (q : Phys) (i : Fin 512), c.sowOpen = true → c.sowC0 ≤ i → i ≤ c.sowC1 → sowMaskAt (s.croft q) i = 255 → (∀ cw, eccAt (s.croft q) cw = .clean) →
      32 * winBase (s.croft q) 15 + 4096 * i + 4096 ≤ 0x200000 →
      let b := Memory.read (s.croft q).mem (32 * winBase (s.croft q) 15 + 4096 * i) 4096
      ∀ ok, ok = (crc32 (b.take 4092) == BitVec.ofNat 32 (ofLe (b.drop 4092)) && ofLe ((b.drop 4088).take 4) == c.sowRound * 2 ^ 16 + i) →
        ∃ t, exec (.chunkCheck q i) s = .next t ∧ (∀ j, j ≠ q.val → t.croft j = s.croft j) ∧
          sowMarkAt (t.croft q) i = (if ok = true then .ok else .bad) ∧ sowMaskAt (t.croft q) i = 0 ∧
          t.num Reg.secSowBad = (if ok = true then s.num Reg.secSowBad else satAdd (s.num Reg.secSowBad) 1) ∧ (t.croft q).mem = (s.croft q).mem)

/-- R366, R367. The chain's byte format is PRESUMED, log 27; a signature is free in its randomness (log 3). -/
def Obligations.SpdmRequestsAreAnswered : Prop :=
  ∀ (st : Stw) (s : State), s.mgmtPin st = true → (s.steward st).role ≠ .lost →
    let d := s.dieIdentity st
    let certs := State.certChain d
    let n := d.blocks.length
    exec (.getVersion st) s = .next (spdmSent s st (.version [(1, 3)])) ∧ exec (.getCapabilities st) s = .next (spdmSent s st (.capabilities true true true)) ∧
    exec (.negotiateAlgorithms st) s = .next (spdmSent s st (.algorithms .ecdsaP384 .sha384)) ∧
    exec (.getDigests st) s = .next (spdmSent s st (.digests (sha384 certs))) ∧
    (∀ off len, exec (.getCertificate st 0 off len) s = .next (spdmSent s st (.certificate ((certs.drop off).take len)))) ∧
    (∀ nonce, ∃ sig, exec (.challenge st 0 nonce) s = .next { spdmSent s st (.challenge (sha384 certs) sig) with freeCtr := s.freeCtr + 1 }) ∧
    exec (.getMeasurements st 0) s = .next (spdmSent s st (.blockCount n)) ∧
    (∀ i, 1 ≤ i → i ≤ n → i ≠ 0xFF → ∃ sig, exec (.getMeasurements st i) s =
      .next { spdmSent s st (.measurements [(i, d.blocks.getD (i - 1) [])] sig) with freeCtr := s.freeCtr + 1 }) ∧
    (0 < n → ∃ sig bs, exec (.getMeasurements st 0xFF) s = .next { spdmSent s st (.measurements bs sig) with freeCtr := s.freeCtr + 1 } ∧
      bs.length = n ∧ ∀ i < n, bs[i]? = some (i + 1, d.blocks.getD i [])) ∧
    (∀ slot, slot ≠ 0 → (∀ off len, exec (.getCertificate st slot off len) s = .next (spdmSent s st .invalid)) ∧
      ∀ nonce, exec (.challenge st slot nonce) s = .next (spdmSent s st .invalid)) ∧
    (∀ code, exec (.unsupportedRequest st code) s = .next (spdmSent s st .unsupported))

/-- R335, R382 to R389, R391. -/
def Obligations.EventsAreClassified : Prop :=
  ∀ (s : State) (r : Report),
    ((s.active = none ∨ sourceNamed r.source = false ∨ (∃ e ∈ s.shadows, SenderHeld.report r ∈ e.acks)) →
      exec (.faultReport r) s = .next s) ∧
    (s.active.isSome = true → sourceNamed r.source = true → (∀ e ∈ s.shadows, SenderHeld.report r ∉ e.acks) →
    let d := s.domainOf r
    let k := s.classOf r.source
    let sev := fld k 25 24
    let cls := s.eventClass d r
    let u := eventTaken s r
    let early := (s.stc d).st = .opening ∨ (s.stc d).st = .work ∨ (s.stc d).st = .restoring ∨ (s.stc d).st = .combine ∧ (s.stc d).handed = false
    let told := fun (w : State) => exec (.faultReport r) s = .next (s.asOne fun _ => heard w r)
    (bit k 31 = false → bit k 30 = false → bit k 29 = false →
      (s.openRecord d = none →
        (sev = 0 ∨ sev = 1 ∧ (16 ≤ d ∨ (s.stc d).stepOpen = false) → told (recordOpened u d sev cls false r)) ∧
        (∀ h : Hold, d = h.val → sev = 1 → cls = false → early → told ((recordOpened u d 1 cls false r).replay h .faults)) ∧
        (∀ h : Hold, d = h.val → (sev = 2 ∨ sev = 1 ∧ (s.stc h).stepOpen = true ∧ (cls = true ∨ ¬early)) →
          told ((rung (recordOpened u d 2 cls false r)).abandon h))) ∧
      (∀ o, s.openRecord d = some o → (sev = 0 ∨ sev = 1 ∧ (16 ≤ d ∨ (s.stc d).stepOpen = false)) →
        let m := merged o sev false r
        told (if o.severity < m.severity then logged (withRecord u d m) m else withDirty (withRecord u d m) d))) ∧
    (bit k 31 = true →
      let n := max 1 (fld k 23 16)
      let counted := fun (l : List TallySlot) => told (u.setFaults { u.faults with slots := l })
      ((∀ x ∈ s.faults.slots, ¬ (x.source = r.source ∧ x.loc = r.loc)) → 1 < n → s.faults.slots.length < 4096 →
        counted (s.faults.slots ++ [{ source := r.source, loc := r.loc, count := 1 }])) ∧
      (∀ a x b, s.faults.slots = a ++ x :: b → x.source = r.source → x.loc = r.loc → (∀ y ∈ a ++ b, ¬ (y.source = r.source ∧ y.loc = r.loc)) →
        x.count + 1 < n → counted (a ++ { x with count := x.count + 1 } :: b))) ∧
    (∀ q, r.loc.toNat = q → q < 28000 → bit k 31 = false → bit k 30 = true → bit k 29 = false → sev = 1 → s.toIsolate = [] →
      (16 ≤ d ∨ (s.stc d).stepOpen = false) → s.openRecord d = none → (s.parish (State.parOf q)).net = true →
      (s.standby = none → ∃ t, exec (.faultReport r) s = .next t ∧
        t.faults = (recordOpened u d sev cls false r).faults ∧ t.ledger = (recordOpened u d sev cls false r).ledger ∧
        bit (regOf (t.croft q) Reg.crfCtrl) 0 = true ∧ (t.croft q).faultFence = true ∧ UnitsIdle (t.croft q) ∧
        (16 ≤ s.owner (State.parOf q) → t.logicalOf q = none) ∧
        (s.owner (State.parOf q) < 16 → (t.parish (State.parOf q)).mapouts = (s.parish (State.parOf q)).mapouts ++ [(q % 500 / 25, q % 25)])) ∧
      (s.standby.isSome = true → ∃ t e, exec (.faultReport r) s = .next t ∧ t.crofts = s.crofts ∧ t.parishes = s.parishes ∧
        t.reports = s.reports ∧ t.shadows = s.shadows ++ [e] ∧ e.isolate = [r.loc] ∧ e.acks = [.report r] ∧ e.num = s.shadowNum)))

/-- R384, R386, R391, R393 to R395, R401. -/
def Obligations.RecordsEndAndAreRung : Prop :=
  ∀ (s : State),
    (∀ (d : Fin 17) c loc, s.causeHolds c loc = false → exec (.causeEnd d c loc) s =
      .next (s.setFaults { s.faults with causes := s.faults.causes.erase (d.val, c, loc) })) ∧
    (∀ (d : Fin 17) c loc, s.causeHolds c loc = true → exec (.causeEnd d c loc) s = .next s) ∧
    (∀ c loc, ∃ l, exec (.tallySlotClose c loc) s = .next (s.setFaults { s.faults with slots := l }) ∧
      ∀ x, x ∈ l ↔ x ∈ s.faults.slots ∧ ¬ (x.source = c ∧ x.loc = loc)) ∧
    (∀ (d : Fin 17) r, s.openRecord d = some r → d.val ∈ s.faults.dirty → exec (.recordAppend d) s =
      .next ((logged s r).setFaults { s.faults with dirty := s.faults.dirty.erase d })) ∧
    (∀ (d : Fin 17), (s.openRecord d = none ∨ d.val ∉ s.faults.dirty) → exec (.recordAppend d) s = .next s) ∧
    (s.up = false → exec .levelClear s = .next s ∧ ∀ v, exec (.fltClearWrite v) s = .next s ∧ exec (.fltInjectWrite v) s = .next s) ∧
    (s.up = true → ∀ v : W32, let d := bitsOf v.toNat 4 0
      d ≤ 16 →
      let named := s.setFlt Reg.fltClear (setFld (s.reg Reg.fltClear) 4 0 d)
      let shown := fun n => named.setFlt Reg.fltClear (setFld (named.reg Reg.fltClear) 31 31 n)
      (s.causeCount d ≠ 0 → exec (.fltClearWrite v) s = .next (s.asOne fun _ => shown 1)) ∧
      (s.causeCount d = 0 → s.openRecord d = none → exec (.fltClearWrite v) s = .next (s.asOne fun _ => shown 0)) ∧
      (∀ r, s.causeCount d = 0 → s.openRecord d = some r → exec (.fltClearWrite v) s =
        .next (s.asOne fun _ =>
          let cleared := { r with flags := (r.flags &&& 0xFE) ||| 2 }
          let t := logged (withRecord (shown 0) d cleared) cleared
          t.setFaults { t.faults with dirty := s.faults.dirty.erase d }))) ∧
    (∀ v : W32, 16 < bitsOf v.toNat 4 0 → exec (.fltClearWrite v) s = .next s) ∧
    (s.up = true → s.haltOpen = false → exec .levelClear s = .next (s.asOne fun s =>
      (s.setFlt Reg.fltBell (setFld (s.reg Reg.fltBell) 0 0 0)).setFaults { s.faults with bellLow := s.faults.pulse || s.faults.bootBell })) ∧
    (s.haltOpen = true → exec .levelClear s = .next s) ∧
    (exec .bellPulseEnd s = .next (s.setFaults { s.faults with
      pulse := false, bellLow := bit (s.reg Reg.fltBell) 0 || s.faults.bootBell })) ∧
    (∀ v : W32, let c := bitsOf v.toNat 6 0
      let r : Report := { source := c, loc := (s.reg Reg.fltInjectUnit).setWidth 32, time := s.clock.now, tclass := some false }
      (sourceNamed c = false → exec (.fltInjectWrite v) s = .next s) ∧
      (s.up = true → sourceNamed c = true → bit (s.classOf c) 31 = false → fld (s.classOf c) 25 24 = 0 →
        bit (s.classOf c) 29 = false → s.openRecord (s.domainOf r) = none → exec (.fltInjectWrite v) s =
          .next (s.asOne fun s => recordOpened (s.setFlt Reg.fltEvents (BitVec.ofNat 64 (satAdd (s.num Reg.fltEvents) 1)))
            (s.domainOf r) 0 false false r)))

/-- R389, R397, R402 to R404. An operation is done at its row, or as the one before it ends, and BUSY until LDG_OP_DONE: the model's, log 115. How software removes an entry is log 116, and the header's layout log 150. -/
def Obligations.LedgerBlocksAreReadAndWritten : Prop :=
  ∀ (s : State) (b : BitVec 20),
    let l := s.ledger
    let busy := { l with busy := true }
    let failed := Host.Outcome.next { s.setNum Reg.ldgCmd (2 ^ 29 + b.toNat) with ledger := busy }
    (s.up = false → (∀ found, exec (.ldgRead b found) s = .next s) ∧ ∀ bad, exec (.ldgWrite b bad) s = .next s) ∧
    (s.up = true → l.busy = true →
      let later := fun o => Host.Outcome.next { s.setField Reg.ldgCmd 19 0 b.toNat with ledger := { l with waiting := l.waiting ++ [o] } }
      (∀ found, exec (.ldgRead b found) s = later (.read b.toNat found)) ∧ ∀ bad, exec (.ldgWrite b bad) s = later (.write b.toNat bad)) ∧
    (s.up = true → l.busy = false →
      (l.answers = true → ∀ found, found ≠ .uncorrectable → ∃ t, exec (.ldgRead b found) s = .next t ∧
        t = { s with regs := t.regs, ledger := busy } ∧ t.num Reg.ldgCmd = b.toNat ∧
        (∀ w < 1024, t.num (Reg.ldgBuf w) = ofLe (slice (l.block b.toNat) (4 * w) 4)) ∧
        (∀ n, found = .corrected n → t.num Reg.ldgCorr = satAdd (s.num Reg.ldgCorr) n) ∧
        (found = .clean → t.num Reg.ldgCorr = s.num Reg.ldgCorr)) ∧
      (l.answers = true → ∃ t e, exec (.ldgRead b .uncorrectable) s = .next t ∧ e.source = 78 ∧ e.loc = State.locLedger b.toNat ∧
        e.time = s.clock.now ∧ t = { s with regs := t.regs, ledger := busy, reports := s.reports ++ [e] } ∧
        t.num Reg.ldgCmd = 2 ^ 29 + b.toNat ∧ t.num Reg.ldgUncorr = satAdd (s.num Reg.ldgUncorr) 1 ∧ ∀ w < 1024, t.num (Reg.ldgBuf w) = 0) ∧
      (∀ bad, l.answers = true → s.ldgProtected b.toNat = false → (bad = true → l.spare ≠ 0) → ∃ t, exec (.ldgWrite b bad) s = .next t ∧
        t = { s with regs := t.regs, ledger := { busy with bytes := t.ledger.bytes, spare := t.ledger.spare, retired := t.ledger.retired } } ∧
        t.num Reg.ldgCmd = b.toNat ∧
        (∀ w < 1024, ∀ j < 4, (Memory.byte t.ledger.bytes (4096 * b.toNat + 4 * w + j)).toNat = s.num (Reg.ldgBuf w) / 256 ^ j % 256) ∧
        (∀ a, (a < 4096 * b.toNat ∨ 4096 * b.toNat + 4096 ≤ a) → Memory.byte t.ledger.bytes a = Memory.byte l.bytes a) ∧
        (bad = true → b.toNat ∉ l.retired → t.ledger.spare = l.spare - 1 ∧ t.ledger.retired = l.retired ++ [b.toNat]) ∧
        (bad = false → t.ledger.spare = l.spare ∧ t.ledger.retired = l.retired)) ∧
      (l.answers = true → l.removals b.toNat s.bufBytes ≠ [] → ∃ t, exec (.ldgWrite b false) s = .next t ∧
        t = { s with regs := t.regs, ledger := { busy with history := t.ledger.history } } ∧ t.num Reg.ldgCmd = b.toNat ∧
        ∀ i, t.ledger.entry i = if i ∈ l.removals b.toNat s.bufBytes then none else l.entry i) ∧
      (∀ bad, (l.answers = false ∨ s.ldgProtected b.toNat = true ∧ l.removals b.toNat s.bufBytes = [] ∨ bad = true ∧ l.spare = 0) →
        exec (.ldgWrite b bad) s = failed) ∧
      (∀ found, l.answers = false → exec (.ldgRead b found) s = failed)) ∧
    (Ledger.inHistory b.toNat = false → Ledger.inLog b.toNat = false → (Ledger.inFields b.toNat = true → l.hasFields = false) →
      l.block b.toNat = Memory.read l.bytes (4096 * b.toNat) 4096) ∧
    (∀ i, i ∈ l.removals b.toNat s.bufBytes → Ledger.inHistory b.toNat = true ∧ ∃ e, l.entry i = some e ∧ e.permanent = true) ∧
    (l.waiting = [] → exec .ldgOpDone s = .next { s with ledger := { l with busy := false } }) ∧
    (s.up = true → ∀ os, let idle := { s with ledger := { l with busy := false, waiting := os } }
      (∀ found, l.waiting = .read b.toNat found :: os → exec .ldgOpDone s = exec (.ldgRead b found) idle) ∧
      ∀ bad, l.waiting = .write b.toNat bad :: os → exec .ldgOpDone s = exec (.ldgWrite b bad) idle)
end

