-- ==== Sys2Proof/Laws/Bits.lean ====
section
/-! SUPPORT. Bit fields: what a field reads after a write of it, and after a write of another. -/

namespace Sys2Proof.Machine

theorem bitsOf_testBit (v hi lo i : Nat) : (bitsOf v hi lo).testBit i = (decide (i < hi + 1 - lo) && v.testBit (lo + i)) := by
  simp [bitsOf, Nat.testBit_mod_two_pow, Nat.testBit_div_two_pow, Nat.add_comm]

theorem maskOf_getLsbD (hi lo i : Nat) (h : hi < 64) : (maskOf hi lo).getLsbD i = (decide (lo ≤ i) && decide (i ≤ hi)) := by
  unfold maskOf
  rw [BitVec.getLsbD_ofNat, Nat.testBit_mul_two_pow, Nat.testBit_two_pow_sub_one]
  by_cases h1 : lo ≤ i <;> by_cases h2 : i ≤ hi <;> simp [h1, h2] <;> omega

theorem setFld_getLsbD (v : W64) (hi lo n i : Nat) (h : hi < 64) :
    (setFld v hi lo n).getLsbD i = if lo ≤ i ∧ i ≤ hi then n.testBit (i - lo) else v.getLsbD i := by
  have hv : 64 ≤ i → v.getLsbD i = false := fun hi => BitVec.getLsbD_of_ge v i hi
  unfold setFld
  rw [BitVec.getLsbD_or, BitVec.getLsbD_and, BitVec.getLsbD_not, maskOf_getLsbD hi lo i h, BitVec.getLsbD_ofNat,
    Nat.testBit_mul_two_pow, Nat.testBit_mod_two_pow]
  by_cases h1 : lo ≤ i <;> by_cases h2 : i ≤ hi <;> by_cases h3 : i < 64 <;> simp [h1, h2, h3] <;>
    first | omega | exact hv (by omega)

/-- A field reads what was written to it, cut to the field. -/
theorem fld_setFld (v : W64) (hi lo n : Nat) (h : hi < 64) : fld (setFld v hi lo n) hi lo = n % 2 ^ (hi + 1 - lo) := by
  apply Nat.eq_of_testBit_eq
  intro i
  rw [fld, bitsOf_testBit, Nat.testBit_mod_two_pow, BitVec.testBit_toNat, setFld_getLsbD v hi lo n _ h]
  by_cases h1 : i < hi + 1 - lo
  · rw [if_pos (by omega)]; simp [h1]
  · simp [h1]

/-- A field apart from the one written reads as before. -/
theorem fld_setFld_ne (v : W64) (hi lo n hi' lo' : Nat) (h : hi < 64) (hd : hi' < lo ∨ hi < lo') :
    fld (setFld v hi lo n) hi' lo' = fld v hi' lo' := by
  apply Nat.eq_of_testBit_eq
  intro i
  rw [fld, fld, bitsOf_testBit, bitsOf_testBit, BitVec.testBit_toNat, BitVec.testBit_toNat, setFld_getLsbD v hi lo n _ h]
  by_cases h1 : i < hi' + 1 - lo'
  · rw [if_neg (by omega)]
  · simp [h1]

end Sys2Proof.Machine
end

