-- ==== Sys2Proof/Laws/Tab.lean ====
section
/-! SUPPORT. Sparse tables and memories: a read after a write, and the canonical form that every operation keeps. -/

namespace Sys2Proof.Machine

variable {α : Type}

theorem Tab.get_erase (d : Nat → α) (t : List (Nat × α)) (k j : Nat) :
    Tab.get d (Tab.erase t k) j = if j = k then d k else Tab.get d t j := by
  induction t with
  | nil => by_cases h : j = k <;> simp [Tab.erase, Tab.get, h]
  | cons e t ih =>
    obtain ⟨i, v⟩ := e
    by_cases hk : k = i <;> by_cases hj : j = k <;> simp_all [Tab.erase, Tab.get]

theorem Tab.get_insert (d : Nat → α) (t : List (Nat × α)) (k j : Nat) (v : α) :
    Tab.get d (Tab.insert t k v) j = if j = k then v else Tab.get d t j := by
  induction t with
  | nil => simp [Tab.insert, Tab.get]
  | cons e t ih =>
    obtain ⟨i, w⟩ := e
    unfold Tab.insert
    split
    · simp [Tab.get]
    · split
      · subst i; by_cases hj : j = k <;> simp [Tab.get, hj]
      · by_cases hj : j = k
        · simp_all [Tab.get]
        · by_cases hi : j = i <;> simp_all [Tab.get]

/-- A read after a write: the value written at its key, what stood before at every other. -/
theorem Tab.get_set [DecidableEq α] (d : Nat → α) (t : List (Nat × α)) (k j : Nat) (v : α) :
    Tab.get d (Tab.set d t k v) j = if j = k then v else Tab.get d t j := by
  unfold Tab.set
  split
  · subst v; exact Tab.get_erase d t k j
  · rw [Tab.get_insert]
    split
    · rfl
    · rename_i h; rw [Tab.get_erase, if_neg h]

theorem Tab.erase_erase (t : List (Nat × α)) (k : Nat) : Tab.erase (Tab.erase t k) k = Tab.erase t k := by
  induction t with
  | nil => rfl
  | cons e t ih =>
    obtain ⟨i, v⟩ := e
    by_cases hk : k = i <;> simp [Tab.erase, hk]
    · subst hk; exact ih
    · exact ih

theorem Tab.erase_insert (t : List (Nat × α)) (k : Nat) (v : α) : Tab.erase (Tab.insert t k v) k = Tab.erase t k := by
  induction t with
  | nil => simp [Tab.insert, Tab.erase]
  | cons e t ih =>
    obtain ⟨i, w⟩ := e
    unfold Tab.insert
    split
    · simp [Tab.erase]
    · split
      · rename_i h; subst h; simp [Tab.erase]
      · rename_i h; simp [Tab.erase, h, ih]

/-- The last of two writes of a key counts. -/
@[simp] theorem Tab.set_set [DecidableEq α] (d : Nat → α) (t : List (Nat × α)) (k : Nat) (v w : α) :
    Tab.set d (Tab.set d t k v) k w = Tab.set d t k w := by
  have h : Tab.erase (Tab.set d t k v) k = Tab.erase t k := by
    unfold Tab.set
    split
    · exact Tab.erase_erase t k
    · rw [Tab.erase_insert, Tab.erase_erase]
  unfold Tab.set at h ⊢
  split
  · exact h
  · rw [h]

@[simp] theorem Tab.get_set_same [DecidableEq α] (d : Nat → α) (t : List (Nat × α)) (k : Nat) (v : α) :
    Tab.get d (Tab.set d t k v) k = v := by simp [Tab.get_set]

theorem Tab.get_set_ne [DecidableEq α] (d : Nat → α) (t : List (Nat × α)) {k j : Nat} (v : α) (h : j ≠ k) :
    Tab.get d (Tab.set d t k v) j = Tab.get d t j := by simp [Tab.get_set, h]

theorem Tab.mem_erase {t : List (Nat × α)} {k : Nat} {e : Nat × α} (h : e ∈ Tab.erase t k) : e ∈ t := by
  induction t with
  | nil => simp [Tab.erase] at h
  | cons f t ih =>
    obtain ⟨i, v⟩ := f
    by_cases hk : k = i
    · simp only [Tab.erase, hk, if_true] at h; subst hk; exact List.mem_cons_of_mem _ (ih h)
    · simp only [Tab.erase, hk, if_false, List.mem_cons] at h
      rcases h with h | h
      · simp [h]
      · exact List.mem_cons_of_mem _ (ih h)

theorem Tab.mem_insert {t : List (Nat × α)} {k : Nat} {v : α} {e : Nat × α} (h : e ∈ Tab.insert t k v) :
    e = (k, v) ∨ e ∈ t := by
  induction t with
  | nil => simpa [Tab.insert] using h
  | cons f t ih =>
    obtain ⟨i, w⟩ := f
    unfold Tab.insert at h
    split at h
    · simpa using h
    · split at h
      · rcases List.mem_cons.1 h with h | h
        · exact .inl h
        · exact .inr (List.mem_cons_of_mem _ h)
      · rcases List.mem_cons.1 h with h | h
        · exact .inr (by simp [h])
        · exact (ih h).imp id (List.mem_cons_of_mem _)

theorem Tab.wf_iff [DecidableEq α] {d : Nat → α} {t : List (Nat × α)} :
    Tab.wf d t = true ↔ (t.Pairwise fun a b => a.1 < b.1) ∧ ∀ e ∈ t, e.2 ≠ d e.1 := by
  simp [Tab.wf]

theorem Tab.wf_nil [DecidableEq α] (d : Nat → α) : Tab.wf d [] = true := by simp [Tab.wf]

theorem Tab.sorted_erase {t : List (Nat × α)} (k : Nat) (h : t.Pairwise fun a b => a.1 < b.1) :
    (Tab.erase t k).Pairwise fun a b => a.1 < b.1 := by
  induction t with
  | nil => simp [Tab.erase]
  | cons e t ih =>
    obtain ⟨i, v⟩ := e
    have ⟨h1, h2⟩ := List.pairwise_cons.1 h
    by_cases hk : k = i
    · simpa [Tab.erase, hk] using hk ▸ ih h2
    · simp only [Tab.erase, hk, if_false]
      exact List.pairwise_cons.2 ⟨fun e he => h1 e (Tab.mem_erase he), ih h2⟩

theorem Tab.sorted_insert {t : List (Nat × α)} (k : Nat) (v : α) (h : t.Pairwise fun a b => a.1 < b.1) :
    (Tab.insert t k v).Pairwise fun a b => a.1 < b.1 := by
  induction t with
  | nil => simp [Tab.insert]
  | cons e t ih =>
    obtain ⟨i, w⟩ := e
    have ⟨h1, h2⟩ := List.pairwise_cons.1 h
    unfold Tab.insert
    split
    · refine List.pairwise_cons.2 ⟨fun e he => ?_, h⟩
      rcases List.mem_cons.1 he with he | he
      · subst he; assumption
      · have := h1 e he; simp only at *; omega
    · split
      · subst i; exact List.pairwise_cons.2 ⟨h1, h2⟩
      · refine List.pairwise_cons.2 ⟨fun e he => ?_, ih h2⟩
        rcases Tab.mem_insert he with he | he
        · subst he; simp only; omega
        · exact h1 e he

/-- A write keeps the canonical form. -/
theorem Tab.wf_set [DecidableEq α] {d : Nat → α} {t : List (Nat × α)} (k : Nat) (v : α) (h : Tab.wf d t = true) :
    Tab.wf d (Tab.set d t k v) = true := by
  rw [Tab.wf_iff] at h ⊢
  unfold Tab.set
  split
  · exact ⟨Tab.sorted_erase k h.1, fun e he => h.2 e (Tab.mem_erase he)⟩
  · refine ⟨Tab.sorted_insert k v (Tab.sorted_erase k h.1), fun e he => ?_⟩
    rcases Tab.mem_insert he with he | he
    · subst he; assumption
    · exact h.2 e (Tab.mem_erase he)

/-- Clearing a range keeps the canonical form. -/
theorem Tab.wf_clear [DecidableEq α] {d : Nat → α} {t : List (Nat × α)} (lo hi : Nat) (h : Tab.wf d t = true) :
    Tab.wf d (Tab.clear t lo hi) = true := by
  rw [Tab.wf_iff] at h ⊢
  exact ⟨h.1.filter _, fun e he => h.2 e (List.mem_of_mem_filter he)⟩

/-! ### Memories -/

theorem Memory.byte_put (m : List (Nat × Byte)) (a j : Nat) (b : Byte) :
    Memory.byte (Memory.put m a b) j = if j = a then b else Memory.byte m j := Tab.get_set _ _ _ _ _

theorem Memory.wf_put {m : List (Nat × Byte)} (a : Nat) (b : Byte) (h : Memory.wf m = true) :
    Memory.wf (Memory.put m a b) = true := Tab.wf_set a b h

theorem Memory.wf_write {m : List (Nat × Byte)} (a : Nat) (bs : List Byte) (h : Memory.wf m = true) :
    Memory.wf (Memory.write m a bs) = true := by
  induction bs generalizing m a with
  | nil => exact h
  | cons b bs ih => exact ih (a + 1) (Memory.wf_put a b h)

/-- What a memory reads after a write: the written bytes in their range, what stood before outside it. -/
theorem Memory.byte_write (m : List (Nat × Byte)) (a j : Nat) (bs : List Byte) :
    Memory.byte (Memory.write m a bs) j = if a ≤ j ∧ j < a + bs.length then bs.getD (j - a) 0 else Memory.byte m j := by
  induction bs generalizing m a with
  | nil => simp only [Memory.write, List.length_nil]; split <;> first | omega | rfl
  | cons b bs ih =>
    rw [Memory.write, ih (Memory.put m a b) (a + 1), Memory.byte_put, List.length_cons]
    by_cases h : j = a
    · subst h; simp
    · by_cases h2 : a + 1 ≤ j ∧ j < a + 1 + bs.length
      · have h3 : a ≤ j ∧ j < a + (bs.length + 1) := by omega
        rw [if_pos h2, if_pos h3, show j - a = (j - (a + 1)) + 1 by omega]; simp
      · have h3 : ¬ (a ≤ j ∧ j < a + (bs.length + 1)) := by omega
        rw [if_neg h2, if_neg h3, if_neg h]

theorem Memory.length_read (m : List (Nat × Byte)) (a n : Nat) : (Memory.read m a n).length = n := by
  induction n generalizing a with
  | zero => rfl
  | succ n ih => simp [Memory.read, ih]

theorem Memory.getD_read (m : List (Nat × Byte)) (a n i : Nat) (h : i < n) :
    (Memory.read m a n).getD i 0 = Memory.byte m (a + i) := by
  induction n generalizing a i with
  | zero => omega
  | succ n ih =>
    cases i with
    | zero => simp [Memory.read]
    | succ i => simpa [Memory.read, Nat.add_assoc, Nat.add_comm 1 i] using ih (a + 1) i (by omega)

/-- A range reads back as the bytes last written to it. -/
theorem Memory.read_write (m : List (Nat × Byte)) (a : Nat) (bs : List Byte) :
    Memory.read (Memory.write m a bs) a bs.length = bs := by
  apply List.ext_getElem (Memory.length_read _ _ _)
  intro i h1 h2
  have := Memory.getD_read (Memory.write m a bs) a bs.length i h2
  rw [Memory.byte_write, if_pos (by omega)] at this
  rw [Nat.add_sub_cancel_left, List.getD_eq_getElem _ _ h1, List.getD_eq_getElem _ _ h2] at this
  exact this

/-- A part of a range reads back as that part of the bytes. -/
theorem Memory.read_write_part (m : List (Nat × Byte)) (a i n : Nat) (bs : List Byte) (h : i + n ≤ bs.length) :
    Memory.read (Memory.write m a bs) (a + i) n = (bs.drop i).take n := by
  have hl : ((bs.drop i).take n).length = n := by simp; omega
  apply List.ext_getElem ((Memory.length_read _ _ _).trans hl.symm)
  intro j h1 h2
  have hj : j < n := hl ▸ h2
  have := Memory.getD_read (Memory.write m a bs) (a + i) n j hj
  rw [Memory.byte_write, if_pos (by omega), show a + i + j - a = i + j by omega, List.getD_eq_getElem _ _ h1,
    List.getD_eq_getElem _ _ (by omega)] at this
  rw [this, List.getElem_take, List.getElem_drop]

end Sys2Proof.Machine
end

