-- ==== Sys2Proof/Laws/State.lean ====
section
/-! SUPPORT. What each update of a part of the state leaves as it was, field by field, and what a unit reads after it:
all true by rfl or by Tab.get_set. -/

namespace Sys2Proof.Machine
namespace State

/-! ### The module's fields under each update -/

@[simp] theorem setCroft_regs (s : State) (q : Nat) (c : Croft) : (s.setCroft q c).regs = s.regs := rfl
@[simp] theorem setCroft_power (s : State) (q : Nat) (c : Croft) : (s.setCroft q c).power = s.power := rfl
@[simp] theorem setCroft_clock (s : State) (q : Nat) (c : Croft) : (s.setCroft q c).clock = s.clock := rfl
@[simp] theorem setCroft_parishes (s : State) (q : Nat) (c : Croft) : (s.setCroft q c).parishes = s.parishes := rfl
@[simp] theorem setCroft_deadR (s : State) (q : Nat) (c : Croft) : (s.setCroft q c).deadR = s.deadR := rfl
@[simp] theorem setCroft_linksDown (s : State) (q : Nat) (c : Croft) : (s.setCroft q c).linksDown = s.linksDown := rfl
@[simp] theorem setCroft_steered (s : State) (q : Nat) (c : Croft) : (s.setCroft q c).steered = s.steered := rfl
@[simp] theorem setCroft_linkCorr (s : State) (q : Nat) (c : Croft) : (s.setCroft q c).linkCorr = s.linkCorr := rfl
@[simp] theorem setCroft_linkUnc (s : State) (q : Nat) (c : Croft) : (s.setCroft q c).linkUnc = s.linkUnc := rfl
@[simp] theorem setCroft_pulses (s : State) (q : Nat) (c : Croft) : (s.setCroft q c).pulses = s.pulses := rfl
@[simp] theorem setCroft_stcs (s : State) (q : Nat) (c : Croft) : (s.setCroft q c).stcs = s.stcs := rfl
@[simp] theorem setCroft_gates (s : State) (q : Nat) (c : Croft) : (s.setCroft q c).gates = s.gates := rfl
@[simp] theorem setCroft_stewards (s : State) (q : Nat) (c : Croft) : (s.setCroft q c).stewards = s.stewards := rfl
@[simp] theorem setCroft_shadows (s : State) (q : Nat) (c : Croft) : (s.setCroft q c).shadows = s.shadows := rfl
@[simp] theorem setCroft_shadowNum (s : State) (q : Nat) (c : Croft) : (s.setCroft q c).shadowNum = s.shadowNum := rfl
@[simp] theorem setCroft_shadowStcs (s : State) (q : Nat) (c : Croft) : (s.setCroft q c).shadowStcs = s.shadowStcs := rfl
@[simp] theorem setCroft_toIsolate (s : State) (q : Nat) (c : Croft) : (s.setCroft q c).toIsolate = s.toIsolate := rfl
@[simp] theorem setCroft_shadowFaults (s : State) (q : Nat) (c : Croft) : (s.setCroft q c).shadowFaults = s.shadowFaults := rfl
@[simp] theorem setCroft_shadowFlt (s : State) (q : Nat) (c : Croft) : (s.setCroft q c).shadowFlt = s.shadowFlt := rfl
@[simp] theorem setCroft_holdings (s : State) (q : Nat) (c : Croft) : (s.setCroft q c).holdings = s.holdings := rfl
@[simp] theorem setCroft_faults (s : State) (q : Nat) (c : Croft) : (s.setCroft q c).faults = s.faults := rfl
@[simp] theorem setCroft_ledger (s : State) (q : Nat) (c : Croft) : (s.setCroft q c).ledger = s.ledger := rfl
@[simp] theorem setCroft_sec (s : State) (q : Nat) (c : Croft) : (s.setCroft q c).sec = s.sec := rfl
@[simp] theorem setCroft_cables (s : State) (q : Nat) (c : Croft) : (s.setCroft q c).cables = s.cables := rfl
@[simp] theorem setCroft_twb (s : State) (q : Nat) (c : Croft) : (s.setCroft q c).twb = s.twb := rfl
@[simp] theorem setCroft_tap (s : State) (q : Nat) (c : Croft) : (s.setCroft q c).tap = s.tap := rfl
@[simp] theorem setCroft_bscan (s : State) (q : Nat) (c : Croft) : (s.setCroft q c).bscan = s.bscan := rfl
@[simp] theorem setCroft_slotId (s : State) (q : Nat) (c : Croft) : (s.setCroft q c).slotId = s.slotId := rfl
@[simp] theorem setCroft_outq (s : State) (q : Nat) (c : Croft) : (s.setCroft q c).outq = s.outq := rfl
@[simp] theorem setCroft_flights (s : State) (q : Nat) (c : Croft) : (s.setCroft q c).flights = s.flights := rfl
@[simp] theorem setCroft_inbox (s : State) (q : Nat) (c : Croft) : (s.setCroft q c).inbox = s.inbox := rfl
@[simp] theorem setCroft_reports (s : State) (q : Nat) (c : Croft) : (s.setCroft q c).reports = s.reports := rfl
@[simp] theorem setCroft_summaries (s : State) (q : Nat) (c : Croft) : (s.setCroft q c).summaries = s.summaries := rfl
@[simp] theorem setCroft_calls (s : State) (q : Nat) (c : Croft) : (s.setCroft q c).calls = s.calls := rfl
@[simp] theorem setCroft_freeCtr (s : State) (q : Nat) (c : Croft) : (s.setCroft q c).freeCtr = s.freeCtr := rfl
@[simp] theorem setCroft_pending (s : State) (q : Nat) (c : Croft) : (s.setCroft q c).pending = s.pending := rfl

@[simp] theorem setParish_regs (s : State) (q : Nat) (c : Parish) : (s.setParish q c).regs = s.regs := rfl
@[simp] theorem setParish_power (s : State) (q : Nat) (c : Parish) : (s.setParish q c).power = s.power := rfl
@[simp] theorem setParish_clock (s : State) (q : Nat) (c : Parish) : (s.setParish q c).clock = s.clock := rfl
@[simp] theorem setParish_deadR (s : State) (q : Nat) (c : Parish) : (s.setParish q c).deadR = s.deadR := rfl
@[simp] theorem setParish_linksDown (s : State) (q : Nat) (c : Parish) : (s.setParish q c).linksDown = s.linksDown := rfl
@[simp] theorem setParish_steered (s : State) (q : Nat) (c : Parish) : (s.setParish q c).steered = s.steered := rfl
@[simp] theorem setParish_linkCorr (s : State) (q : Nat) (c : Parish) : (s.setParish q c).linkCorr = s.linkCorr := rfl
@[simp] theorem setParish_linkUnc (s : State) (q : Nat) (c : Parish) : (s.setParish q c).linkUnc = s.linkUnc := rfl
@[simp] theorem setParish_pulses (s : State) (q : Nat) (c : Parish) : (s.setParish q c).pulses = s.pulses := rfl
@[simp] theorem setParish_crofts (s : State) (q : Nat) (c : Parish) : (s.setParish q c).crofts = s.crofts := rfl
@[simp] theorem setParish_stcs (s : State) (q : Nat) (c : Parish) : (s.setParish q c).stcs = s.stcs := rfl
@[simp] theorem setParish_gates (s : State) (q : Nat) (c : Parish) : (s.setParish q c).gates = s.gates := rfl
@[simp] theorem setParish_stewards (s : State) (q : Nat) (c : Parish) : (s.setParish q c).stewards = s.stewards := rfl
@[simp] theorem setParish_shadows (s : State) (q : Nat) (c : Parish) : (s.setParish q c).shadows = s.shadows := rfl
@[simp] theorem setParish_shadowNum (s : State) (q : Nat) (c : Parish) : (s.setParish q c).shadowNum = s.shadowNum := rfl
@[simp] theorem setParish_shadowStcs (s : State) (q : Nat) (c : Parish) : (s.setParish q c).shadowStcs = s.shadowStcs := rfl
@[simp] theorem setParish_toIsolate (s : State) (q : Nat) (c : Parish) : (s.setParish q c).toIsolate = s.toIsolate := rfl
@[simp] theorem setParish_shadowFaults (s : State) (q : Nat) (c : Parish) : (s.setParish q c).shadowFaults = s.shadowFaults := rfl
@[simp] theorem setParish_shadowFlt (s : State) (q : Nat) (c : Parish) : (s.setParish q c).shadowFlt = s.shadowFlt := rfl
@[simp] theorem setParish_holdings (s : State) (q : Nat) (c : Parish) : (s.setParish q c).holdings = s.holdings := rfl
@[simp] theorem setParish_faults (s : State) (q : Nat) (c : Parish) : (s.setParish q c).faults = s.faults := rfl
@[simp] theorem setParish_ledger (s : State) (q : Nat) (c : Parish) : (s.setParish q c).ledger = s.ledger := rfl
@[simp] theorem setParish_sec (s : State) (q : Nat) (c : Parish) : (s.setParish q c).sec = s.sec := rfl
@[simp] theorem setParish_cables (s : State) (q : Nat) (c : Parish) : (s.setParish q c).cables = s.cables := rfl
@[simp] theorem setParish_twb (s : State) (q : Nat) (c : Parish) : (s.setParish q c).twb = s.twb := rfl
@[simp] theorem setParish_tap (s : State) (q : Nat) (c : Parish) : (s.setParish q c).tap = s.tap := rfl
@[simp] theorem setParish_bscan (s : State) (q : Nat) (c : Parish) : (s.setParish q c).bscan = s.bscan := rfl
@[simp] theorem setParish_slotId (s : State) (q : Nat) (c : Parish) : (s.setParish q c).slotId = s.slotId := rfl
@[simp] theorem setParish_outq (s : State) (q : Nat) (c : Parish) : (s.setParish q c).outq = s.outq := rfl
@[simp] theorem setParish_flights (s : State) (q : Nat) (c : Parish) : (s.setParish q c).flights = s.flights := rfl
@[simp] theorem setParish_inbox (s : State) (q : Nat) (c : Parish) : (s.setParish q c).inbox = s.inbox := rfl
@[simp] theorem setParish_reports (s : State) (q : Nat) (c : Parish) : (s.setParish q c).reports = s.reports := rfl
@[simp] theorem setParish_summaries (s : State) (q : Nat) (c : Parish) : (s.setParish q c).summaries = s.summaries := rfl
@[simp] theorem setParish_calls (s : State) (q : Nat) (c : Parish) : (s.setParish q c).calls = s.calls := rfl
@[simp] theorem setParish_freeCtr (s : State) (q : Nat) (c : Parish) : (s.setParish q c).freeCtr = s.freeCtr := rfl
@[simp] theorem setParish_pending (s : State) (q : Nat) (c : Parish) : (s.setParish q c).pending = s.pending := rfl

@[simp] theorem setGate_regs (s : State) (q : Nat) (c : Gate) : (s.setGate q c).regs = s.regs := rfl
@[simp] theorem setGate_power (s : State) (q : Nat) (c : Gate) : (s.setGate q c).power = s.power := rfl
@[simp] theorem setGate_clock (s : State) (q : Nat) (c : Gate) : (s.setGate q c).clock = s.clock := rfl
@[simp] theorem setGate_parishes (s : State) (q : Nat) (c : Gate) : (s.setGate q c).parishes = s.parishes := rfl
@[simp] theorem setGate_deadR (s : State) (q : Nat) (c : Gate) : (s.setGate q c).deadR = s.deadR := rfl
@[simp] theorem setGate_linksDown (s : State) (q : Nat) (c : Gate) : (s.setGate q c).linksDown = s.linksDown := rfl
@[simp] theorem setGate_steered (s : State) (q : Nat) (c : Gate) : (s.setGate q c).steered = s.steered := rfl
@[simp] theorem setGate_linkCorr (s : State) (q : Nat) (c : Gate) : (s.setGate q c).linkCorr = s.linkCorr := rfl
@[simp] theorem setGate_linkUnc (s : State) (q : Nat) (c : Gate) : (s.setGate q c).linkUnc = s.linkUnc := rfl
@[simp] theorem setGate_pulses (s : State) (q : Nat) (c : Gate) : (s.setGate q c).pulses = s.pulses := rfl
@[simp] theorem setGate_crofts (s : State) (q : Nat) (c : Gate) : (s.setGate q c).crofts = s.crofts := rfl
@[simp] theorem setGate_stcs (s : State) (q : Nat) (c : Gate) : (s.setGate q c).stcs = s.stcs := rfl
@[simp] theorem setGate_stewards (s : State) (q : Nat) (c : Gate) : (s.setGate q c).stewards = s.stewards := rfl
@[simp] theorem setGate_shadows (s : State) (q : Nat) (c : Gate) : (s.setGate q c).shadows = s.shadows := rfl
@[simp] theorem setGate_shadowNum (s : State) (q : Nat) (c : Gate) : (s.setGate q c).shadowNum = s.shadowNum := rfl
@[simp] theorem setGate_shadowStcs (s : State) (q : Nat) (c : Gate) : (s.setGate q c).shadowStcs = s.shadowStcs := rfl
@[simp] theorem setGate_toIsolate (s : State) (q : Nat) (c : Gate) : (s.setGate q c).toIsolate = s.toIsolate := rfl
@[simp] theorem setGate_shadowFaults (s : State) (q : Nat) (c : Gate) : (s.setGate q c).shadowFaults = s.shadowFaults := rfl
@[simp] theorem setGate_shadowFlt (s : State) (q : Nat) (c : Gate) : (s.setGate q c).shadowFlt = s.shadowFlt := rfl
@[simp] theorem setGate_holdings (s : State) (q : Nat) (c : Gate) : (s.setGate q c).holdings = s.holdings := rfl
@[simp] theorem setGate_faults (s : State) (q : Nat) (c : Gate) : (s.setGate q c).faults = s.faults := rfl
@[simp] theorem setGate_ledger (s : State) (q : Nat) (c : Gate) : (s.setGate q c).ledger = s.ledger := rfl
@[simp] theorem setGate_sec (s : State) (q : Nat) (c : Gate) : (s.setGate q c).sec = s.sec := rfl
@[simp] theorem setGate_cables (s : State) (q : Nat) (c : Gate) : (s.setGate q c).cables = s.cables := rfl
@[simp] theorem setGate_twb (s : State) (q : Nat) (c : Gate) : (s.setGate q c).twb = s.twb := rfl
@[simp] theorem setGate_tap (s : State) (q : Nat) (c : Gate) : (s.setGate q c).tap = s.tap := rfl
@[simp] theorem setGate_bscan (s : State) (q : Nat) (c : Gate) : (s.setGate q c).bscan = s.bscan := rfl
@[simp] theorem setGate_slotId (s : State) (q : Nat) (c : Gate) : (s.setGate q c).slotId = s.slotId := rfl
@[simp] theorem setGate_outq (s : State) (q : Nat) (c : Gate) : (s.setGate q c).outq = s.outq := rfl
@[simp] theorem setGate_flights (s : State) (q : Nat) (c : Gate) : (s.setGate q c).flights = s.flights := rfl
@[simp] theorem setGate_inbox (s : State) (q : Nat) (c : Gate) : (s.setGate q c).inbox = s.inbox := rfl
@[simp] theorem setGate_reports (s : State) (q : Nat) (c : Gate) : (s.setGate q c).reports = s.reports := rfl
@[simp] theorem setGate_summaries (s : State) (q : Nat) (c : Gate) : (s.setGate q c).summaries = s.summaries := rfl
@[simp] theorem setGate_calls (s : State) (q : Nat) (c : Gate) : (s.setGate q c).calls = s.calls := rfl
@[simp] theorem setGate_freeCtr (s : State) (q : Nat) (c : Gate) : (s.setGate q c).freeCtr = s.freeCtr := rfl
@[simp] theorem setGate_pending (s : State) (q : Nat) (c : Gate) : (s.setGate q c).pending = s.pending := rfl

@[simp] theorem setSteward_regs (s : State) (q : Nat) (c : Steward) : (s.setSteward q c).regs = s.regs := rfl
@[simp] theorem setSteward_power (s : State) (q : Nat) (c : Steward) : (s.setSteward q c).power = s.power := rfl
@[simp] theorem setSteward_clock (s : State) (q : Nat) (c : Steward) : (s.setSteward q c).clock = s.clock := rfl
@[simp] theorem setSteward_parishes (s : State) (q : Nat) (c : Steward) : (s.setSteward q c).parishes = s.parishes := rfl
@[simp] theorem setSteward_deadR (s : State) (q : Nat) (c : Steward) : (s.setSteward q c).deadR = s.deadR := rfl
@[simp] theorem setSteward_linksDown (s : State) (q : Nat) (c : Steward) : (s.setSteward q c).linksDown = s.linksDown := rfl
@[simp] theorem setSteward_steered (s : State) (q : Nat) (c : Steward) : (s.setSteward q c).steered = s.steered := rfl
@[simp] theorem setSteward_linkCorr (s : State) (q : Nat) (c : Steward) : (s.setSteward q c).linkCorr = s.linkCorr := rfl
@[simp] theorem setSteward_linkUnc (s : State) (q : Nat) (c : Steward) : (s.setSteward q c).linkUnc = s.linkUnc := rfl
@[simp] theorem setSteward_pulses (s : State) (q : Nat) (c : Steward) : (s.setSteward q c).pulses = s.pulses := rfl
@[simp] theorem setSteward_crofts (s : State) (q : Nat) (c : Steward) : (s.setSteward q c).crofts = s.crofts := rfl
@[simp] theorem setSteward_stcs (s : State) (q : Nat) (c : Steward) : (s.setSteward q c).stcs = s.stcs := rfl
@[simp] theorem setSteward_gates (s : State) (q : Nat) (c : Steward) : (s.setSteward q c).gates = s.gates := rfl
@[simp] theorem setSteward_shadows (s : State) (q : Nat) (c : Steward) : (s.setSteward q c).shadows = s.shadows := rfl
@[simp] theorem setSteward_shadowNum (s : State) (q : Nat) (c : Steward) : (s.setSteward q c).shadowNum = s.shadowNum := rfl
@[simp] theorem setSteward_shadowStcs (s : State) (q : Nat) (c : Steward) : (s.setSteward q c).shadowStcs = s.shadowStcs := rfl
@[simp] theorem setSteward_toIsolate (s : State) (q : Nat) (c : Steward) : (s.setSteward q c).toIsolate = s.toIsolate := rfl
@[simp] theorem setSteward_shadowFaults (s : State) (q : Nat) (c : Steward) : (s.setSteward q c).shadowFaults = s.shadowFaults := rfl
@[simp] theorem setSteward_shadowFlt (s : State) (q : Nat) (c : Steward) : (s.setSteward q c).shadowFlt = s.shadowFlt := rfl
@[simp] theorem setSteward_holdings (s : State) (q : Nat) (c : Steward) : (s.setSteward q c).holdings = s.holdings := rfl
@[simp] theorem setSteward_faults (s : State) (q : Nat) (c : Steward) : (s.setSteward q c).faults = s.faults := rfl
@[simp] theorem setSteward_ledger (s : State) (q : Nat) (c : Steward) : (s.setSteward q c).ledger = s.ledger := rfl
@[simp] theorem setSteward_sec (s : State) (q : Nat) (c : Steward) : (s.setSteward q c).sec = s.sec := rfl
@[simp] theorem setSteward_cables (s : State) (q : Nat) (c : Steward) : (s.setSteward q c).cables = s.cables := rfl
@[simp] theorem setSteward_twb (s : State) (q : Nat) (c : Steward) : (s.setSteward q c).twb = s.twb := rfl
@[simp] theorem setSteward_tap (s : State) (q : Nat) (c : Steward) : (s.setSteward q c).tap = s.tap := rfl
@[simp] theorem setSteward_bscan (s : State) (q : Nat) (c : Steward) : (s.setSteward q c).bscan = s.bscan := rfl
@[simp] theorem setSteward_slotId (s : State) (q : Nat) (c : Steward) : (s.setSteward q c).slotId = s.slotId := rfl
@[simp] theorem setSteward_outq (s : State) (q : Nat) (c : Steward) : (s.setSteward q c).outq = s.outq := rfl
@[simp] theorem setSteward_flights (s : State) (q : Nat) (c : Steward) : (s.setSteward q c).flights = s.flights := rfl
@[simp] theorem setSteward_inbox (s : State) (q : Nat) (c : Steward) : (s.setSteward q c).inbox = s.inbox := rfl
@[simp] theorem setSteward_reports (s : State) (q : Nat) (c : Steward) : (s.setSteward q c).reports = s.reports := rfl
@[simp] theorem setSteward_summaries (s : State) (q : Nat) (c : Steward) : (s.setSteward q c).summaries = s.summaries := rfl
@[simp] theorem setSteward_calls (s : State) (q : Nat) (c : Steward) : (s.setSteward q c).calls = s.calls := rfl
@[simp] theorem setSteward_freeCtr (s : State) (q : Nat) (c : Steward) : (s.setSteward q c).freeCtr = s.freeCtr := rfl
@[simp] theorem setSteward_pending (s : State) (q : Nat) (c : Steward) : (s.setSteward q c).pending = s.pending := rfl

@[simp] theorem setHolding_regs (s : State) (q : Nat) (c : Holding) : (s.setHolding q c).regs = s.regs := rfl
@[simp] theorem setHolding_power (s : State) (q : Nat) (c : Holding) : (s.setHolding q c).power = s.power := rfl
@[simp] theorem setHolding_clock (s : State) (q : Nat) (c : Holding) : (s.setHolding q c).clock = s.clock := rfl
@[simp] theorem setHolding_parishes (s : State) (q : Nat) (c : Holding) : (s.setHolding q c).parishes = s.parishes := rfl
@[simp] theorem setHolding_deadR (s : State) (q : Nat) (c : Holding) : (s.setHolding q c).deadR = s.deadR := rfl
@[simp] theorem setHolding_linksDown (s : State) (q : Nat) (c : Holding) : (s.setHolding q c).linksDown = s.linksDown := rfl
@[simp] theorem setHolding_steered (s : State) (q : Nat) (c : Holding) : (s.setHolding q c).steered = s.steered := rfl
@[simp] theorem setHolding_linkCorr (s : State) (q : Nat) (c : Holding) : (s.setHolding q c).linkCorr = s.linkCorr := rfl
@[simp] theorem setHolding_linkUnc (s : State) (q : Nat) (c : Holding) : (s.setHolding q c).linkUnc = s.linkUnc := rfl
@[simp] theorem setHolding_pulses (s : State) (q : Nat) (c : Holding) : (s.setHolding q c).pulses = s.pulses := rfl
@[simp] theorem setHolding_crofts (s : State) (q : Nat) (c : Holding) : (s.setHolding q c).crofts = s.crofts := rfl
@[simp] theorem setHolding_stcs (s : State) (q : Nat) (c : Holding) : (s.setHolding q c).stcs = s.stcs := rfl
@[simp] theorem setHolding_gates (s : State) (q : Nat) (c : Holding) : (s.setHolding q c).gates = s.gates := rfl
@[simp] theorem setHolding_stewards (s : State) (q : Nat) (c : Holding) : (s.setHolding q c).stewards = s.stewards := rfl
@[simp] theorem setHolding_shadows (s : State) (q : Nat) (c : Holding) : (s.setHolding q c).shadows = s.shadows := rfl
@[simp] theorem setHolding_shadowNum (s : State) (q : Nat) (c : Holding) : (s.setHolding q c).shadowNum = s.shadowNum := rfl
@[simp] theorem setHolding_shadowStcs (s : State) (q : Nat) (c : Holding) : (s.setHolding q c).shadowStcs = s.shadowStcs := rfl
@[simp] theorem setHolding_toIsolate (s : State) (q : Nat) (c : Holding) : (s.setHolding q c).toIsolate = s.toIsolate := rfl
@[simp] theorem setHolding_shadowFaults (s : State) (q : Nat) (c : Holding) : (s.setHolding q c).shadowFaults = s.shadowFaults := rfl
@[simp] theorem setHolding_shadowFlt (s : State) (q : Nat) (c : Holding) : (s.setHolding q c).shadowFlt = s.shadowFlt := rfl
@[simp] theorem setHolding_faults (s : State) (q : Nat) (c : Holding) : (s.setHolding q c).faults = s.faults := rfl
@[simp] theorem setHolding_ledger (s : State) (q : Nat) (c : Holding) : (s.setHolding q c).ledger = s.ledger := rfl
@[simp] theorem setHolding_sec (s : State) (q : Nat) (c : Holding) : (s.setHolding q c).sec = s.sec := rfl
@[simp] theorem setHolding_cables (s : State) (q : Nat) (c : Holding) : (s.setHolding q c).cables = s.cables := rfl
@[simp] theorem setHolding_twb (s : State) (q : Nat) (c : Holding) : (s.setHolding q c).twb = s.twb := rfl
@[simp] theorem setHolding_tap (s : State) (q : Nat) (c : Holding) : (s.setHolding q c).tap = s.tap := rfl
@[simp] theorem setHolding_bscan (s : State) (q : Nat) (c : Holding) : (s.setHolding q c).bscan = s.bscan := rfl
@[simp] theorem setHolding_slotId (s : State) (q : Nat) (c : Holding) : (s.setHolding q c).slotId = s.slotId := rfl
@[simp] theorem setHolding_outq (s : State) (q : Nat) (c : Holding) : (s.setHolding q c).outq = s.outq := rfl
@[simp] theorem setHolding_flights (s : State) (q : Nat) (c : Holding) : (s.setHolding q c).flights = s.flights := rfl
@[simp] theorem setHolding_inbox (s : State) (q : Nat) (c : Holding) : (s.setHolding q c).inbox = s.inbox := rfl
@[simp] theorem setHolding_reports (s : State) (q : Nat) (c : Holding) : (s.setHolding q c).reports = s.reports := rfl
@[simp] theorem setHolding_summaries (s : State) (q : Nat) (c : Holding) : (s.setHolding q c).summaries = s.summaries := rfl
@[simp] theorem setHolding_calls (s : State) (q : Nat) (c : Holding) : (s.setHolding q c).calls = s.calls := rfl
@[simp] theorem setHolding_freeCtr (s : State) (q : Nat) (c : Holding) : (s.setHolding q c).freeCtr = s.freeCtr := rfl
@[simp] theorem setHolding_pending (s : State) (q : Nat) (c : Holding) : (s.setHolding q c).pending = s.pending := rfl

@[simp] theorem setReg_power (s : State) (o : Nat) (v : W64) : (s.setReg o v).power = s.power := rfl
@[simp] theorem setReg_clock (s : State) (o : Nat) (v : W64) : (s.setReg o v).clock = s.clock := rfl
@[simp] theorem setReg_parishes (s : State) (o : Nat) (v : W64) : (s.setReg o v).parishes = s.parishes := rfl
@[simp] theorem setReg_deadR (s : State) (o : Nat) (v : W64) : (s.setReg o v).deadR = s.deadR := rfl
@[simp] theorem setReg_linksDown (s : State) (o : Nat) (v : W64) : (s.setReg o v).linksDown = s.linksDown := rfl
@[simp] theorem setReg_steered (s : State) (o : Nat) (v : W64) : (s.setReg o v).steered = s.steered := rfl
@[simp] theorem setReg_linkCorr (s : State) (o : Nat) (v : W64) : (s.setReg o v).linkCorr = s.linkCorr := rfl
@[simp] theorem setReg_linkUnc (s : State) (o : Nat) (v : W64) : (s.setReg o v).linkUnc = s.linkUnc := rfl
@[simp] theorem setReg_pulses (s : State) (o : Nat) (v : W64) : (s.setReg o v).pulses = s.pulses := rfl
@[simp] theorem setReg_crofts (s : State) (o : Nat) (v : W64) : (s.setReg o v).crofts = s.crofts := rfl
@[simp] theorem setReg_stcs (s : State) (o : Nat) (v : W64) : (s.setReg o v).stcs = s.stcs := rfl
@[simp] theorem setReg_gates (s : State) (o : Nat) (v : W64) : (s.setReg o v).gates = s.gates := rfl
@[simp] theorem setReg_stewards (s : State) (o : Nat) (v : W64) : (s.setReg o v).stewards = s.stewards := rfl
@[simp] theorem setReg_shadows (s : State) (o : Nat) (v : W64) : (s.setReg o v).shadows = s.shadows := rfl
@[simp] theorem setReg_shadowNum (s : State) (o : Nat) (v : W64) : (s.setReg o v).shadowNum = s.shadowNum := rfl
@[simp] theorem setReg_shadowStcs (s : State) (o : Nat) (v : W64) : (s.setReg o v).shadowStcs = s.shadowStcs := rfl
@[simp] theorem setReg_toIsolate (s : State) (o : Nat) (v : W64) : (s.setReg o v).toIsolate = s.toIsolate := rfl
@[simp] theorem setReg_shadowFaults (s : State) (o : Nat) (v : W64) : (s.setReg o v).shadowFaults = s.shadowFaults := rfl
@[simp] theorem setReg_shadowFlt (s : State) (o : Nat) (v : W64) : (s.setReg o v).shadowFlt = s.shadowFlt := rfl
@[simp] theorem setReg_holdings (s : State) (o : Nat) (v : W64) : (s.setReg o v).holdings = s.holdings := rfl
@[simp] theorem setReg_faults (s : State) (o : Nat) (v : W64) : (s.setReg o v).faults = s.faults := rfl
@[simp] theorem setReg_ledger (s : State) (o : Nat) (v : W64) : (s.setReg o v).ledger = s.ledger := rfl
@[simp] theorem setReg_sec (s : State) (o : Nat) (v : W64) : (s.setReg o v).sec = s.sec := rfl
@[simp] theorem setReg_cables (s : State) (o : Nat) (v : W64) : (s.setReg o v).cables = s.cables := rfl
@[simp] theorem setReg_twb (s : State) (o : Nat) (v : W64) : (s.setReg o v).twb = s.twb := rfl
@[simp] theorem setReg_tap (s : State) (o : Nat) (v : W64) : (s.setReg o v).tap = s.tap := rfl
@[simp] theorem setReg_bscan (s : State) (o : Nat) (v : W64) : (s.setReg o v).bscan = s.bscan := rfl
@[simp] theorem setReg_slotId (s : State) (o : Nat) (v : W64) : (s.setReg o v).slotId = s.slotId := rfl
@[simp] theorem setReg_outq (s : State) (o : Nat) (v : W64) : (s.setReg o v).outq = s.outq := rfl
@[simp] theorem setReg_flights (s : State) (o : Nat) (v : W64) : (s.setReg o v).flights = s.flights := rfl
@[simp] theorem setReg_inbox (s : State) (o : Nat) (v : W64) : (s.setReg o v).inbox = s.inbox := rfl
@[simp] theorem setReg_reports (s : State) (o : Nat) (v : W64) : (s.setReg o v).reports = s.reports := rfl
@[simp] theorem setReg_summaries (s : State) (o : Nat) (v : W64) : (s.setReg o v).summaries = s.summaries := rfl
@[simp] theorem setReg_calls (s : State) (o : Nat) (v : W64) : (s.setReg o v).calls = s.calls := rfl
@[simp] theorem setReg_freeCtr (s : State) (o : Nat) (v : W64) : (s.setReg o v).freeCtr = s.freeCtr := rfl
@[simp] theorem setReg_pending (s : State) (o : Nat) (v : W64) : (s.setReg o v).pending = s.pending := rfl

@[simp] theorem setNum_power (s : State) (o n : Nat) : (s.setNum o n).power = s.power := rfl
@[simp] theorem setNum_clock (s : State) (o n : Nat) : (s.setNum o n).clock = s.clock := rfl
@[simp] theorem setNum_parishes (s : State) (o n : Nat) : (s.setNum o n).parishes = s.parishes := rfl
@[simp] theorem setNum_deadR (s : State) (o n : Nat) : (s.setNum o n).deadR = s.deadR := rfl
@[simp] theorem setNum_linksDown (s : State) (o n : Nat) : (s.setNum o n).linksDown = s.linksDown := rfl
@[simp] theorem setNum_steered (s : State) (o n : Nat) : (s.setNum o n).steered = s.steered := rfl
@[simp] theorem setNum_linkCorr (s : State) (o n : Nat) : (s.setNum o n).linkCorr = s.linkCorr := rfl
@[simp] theorem setNum_linkUnc (s : State) (o n : Nat) : (s.setNum o n).linkUnc = s.linkUnc := rfl
@[simp] theorem setNum_pulses (s : State) (o n : Nat) : (s.setNum o n).pulses = s.pulses := rfl
@[simp] theorem setNum_crofts (s : State) (o n : Nat) : (s.setNum o n).crofts = s.crofts := rfl
@[simp] theorem setNum_stcs (s : State) (o n : Nat) : (s.setNum o n).stcs = s.stcs := rfl
@[simp] theorem setNum_gates (s : State) (o n : Nat) : (s.setNum o n).gates = s.gates := rfl
@[simp] theorem setNum_stewards (s : State) (o n : Nat) : (s.setNum o n).stewards = s.stewards := rfl
@[simp] theorem setNum_shadows (s : State) (o n : Nat) : (s.setNum o n).shadows = s.shadows := rfl
@[simp] theorem setNum_shadowNum (s : State) (o n : Nat) : (s.setNum o n).shadowNum = s.shadowNum := rfl
@[simp] theorem setNum_shadowStcs (s : State) (o n : Nat) : (s.setNum o n).shadowStcs = s.shadowStcs := rfl
@[simp] theorem setNum_toIsolate (s : State) (o n : Nat) : (s.setNum o n).toIsolate = s.toIsolate := rfl
@[simp] theorem setNum_shadowFaults (s : State) (o n : Nat) : (s.setNum o n).shadowFaults = s.shadowFaults := rfl
@[simp] theorem setNum_shadowFlt (s : State) (o n : Nat) : (s.setNum o n).shadowFlt = s.shadowFlt := rfl
@[simp] theorem setNum_holdings (s : State) (o n : Nat) : (s.setNum o n).holdings = s.holdings := rfl
@[simp] theorem setNum_faults (s : State) (o n : Nat) : (s.setNum o n).faults = s.faults := rfl
@[simp] theorem setNum_ledger (s : State) (o n : Nat) : (s.setNum o n).ledger = s.ledger := rfl
@[simp] theorem setNum_sec (s : State) (o n : Nat) : (s.setNum o n).sec = s.sec := rfl
@[simp] theorem setNum_cables (s : State) (o n : Nat) : (s.setNum o n).cables = s.cables := rfl
@[simp] theorem setNum_twb (s : State) (o n : Nat) : (s.setNum o n).twb = s.twb := rfl
@[simp] theorem setNum_tap (s : State) (o n : Nat) : (s.setNum o n).tap = s.tap := rfl
@[simp] theorem setNum_bscan (s : State) (o n : Nat) : (s.setNum o n).bscan = s.bscan := rfl
@[simp] theorem setNum_slotId (s : State) (o n : Nat) : (s.setNum o n).slotId = s.slotId := rfl
@[simp] theorem setNum_outq (s : State) (o n : Nat) : (s.setNum o n).outq = s.outq := rfl
@[simp] theorem setNum_flights (s : State) (o n : Nat) : (s.setNum o n).flights = s.flights := rfl
@[simp] theorem setNum_inbox (s : State) (o n : Nat) : (s.setNum o n).inbox = s.inbox := rfl
@[simp] theorem setNum_reports (s : State) (o n : Nat) : (s.setNum o n).reports = s.reports := rfl
@[simp] theorem setNum_summaries (s : State) (o n : Nat) : (s.setNum o n).summaries = s.summaries := rfl
@[simp] theorem setNum_calls (s : State) (o n : Nat) : (s.setNum o n).calls = s.calls := rfl
@[simp] theorem setNum_freeCtr (s : State) (o n : Nat) : (s.setNum o n).freeCtr = s.freeCtr := rfl
@[simp] theorem setNum_pending (s : State) (o n : Nat) : (s.setNum o n).pending = s.pending := rfl

@[simp] theorem setField_power (s : State) (o hi lo n : Nat) : (s.setField o hi lo n).power = s.power := rfl
@[simp] theorem setField_clock (s : State) (o hi lo n : Nat) : (s.setField o hi lo n).clock = s.clock := rfl
@[simp] theorem setField_parishes (s : State) (o hi lo n : Nat) : (s.setField o hi lo n).parishes = s.parishes := rfl
@[simp] theorem setField_deadR (s : State) (o hi lo n : Nat) : (s.setField o hi lo n).deadR = s.deadR := rfl
@[simp] theorem setField_linksDown (s : State) (o hi lo n : Nat) : (s.setField o hi lo n).linksDown = s.linksDown := rfl
@[simp] theorem setField_steered (s : State) (o hi lo n : Nat) : (s.setField o hi lo n).steered = s.steered := rfl
@[simp] theorem setField_linkCorr (s : State) (o hi lo n : Nat) : (s.setField o hi lo n).linkCorr = s.linkCorr := rfl
@[simp] theorem setField_linkUnc (s : State) (o hi lo n : Nat) : (s.setField o hi lo n).linkUnc = s.linkUnc := rfl
@[simp] theorem setField_pulses (s : State) (o hi lo n : Nat) : (s.setField o hi lo n).pulses = s.pulses := rfl
@[simp] theorem setField_crofts (s : State) (o hi lo n : Nat) : (s.setField o hi lo n).crofts = s.crofts := rfl
@[simp] theorem setField_stcs (s : State) (o hi lo n : Nat) : (s.setField o hi lo n).stcs = s.stcs := rfl
@[simp] theorem setField_gates (s : State) (o hi lo n : Nat) : (s.setField o hi lo n).gates = s.gates := rfl
@[simp] theorem setField_stewards (s : State) (o hi lo n : Nat) : (s.setField o hi lo n).stewards = s.stewards := rfl
@[simp] theorem setField_shadows (s : State) (o hi lo n : Nat) : (s.setField o hi lo n).shadows = s.shadows := rfl
@[simp] theorem setField_shadowNum (s : State) (o hi lo n : Nat) : (s.setField o hi lo n).shadowNum = s.shadowNum := rfl
@[simp] theorem setField_shadowStcs (s : State) (o hi lo n : Nat) : (s.setField o hi lo n).shadowStcs = s.shadowStcs := rfl
@[simp] theorem setField_toIsolate (s : State) (o hi lo n : Nat) : (s.setField o hi lo n).toIsolate = s.toIsolate := rfl
@[simp] theorem setField_shadowFaults (s : State) (o hi lo n : Nat) : (s.setField o hi lo n).shadowFaults = s.shadowFaults := rfl
@[simp] theorem setField_shadowFlt (s : State) (o hi lo n : Nat) : (s.setField o hi lo n).shadowFlt = s.shadowFlt := rfl
@[simp] theorem setField_holdings (s : State) (o hi lo n : Nat) : (s.setField o hi lo n).holdings = s.holdings := rfl
@[simp] theorem setField_faults (s : State) (o hi lo n : Nat) : (s.setField o hi lo n).faults = s.faults := rfl
@[simp] theorem setField_ledger (s : State) (o hi lo n : Nat) : (s.setField o hi lo n).ledger = s.ledger := rfl
@[simp] theorem setField_sec (s : State) (o hi lo n : Nat) : (s.setField o hi lo n).sec = s.sec := rfl
@[simp] theorem setField_cables (s : State) (o hi lo n : Nat) : (s.setField o hi lo n).cables = s.cables := rfl
@[simp] theorem setField_twb (s : State) (o hi lo n : Nat) : (s.setField o hi lo n).twb = s.twb := rfl
@[simp] theorem setField_tap (s : State) (o hi lo n : Nat) : (s.setField o hi lo n).tap = s.tap := rfl
@[simp] theorem setField_bscan (s : State) (o hi lo n : Nat) : (s.setField o hi lo n).bscan = s.bscan := rfl
@[simp] theorem setField_slotId (s : State) (o hi lo n : Nat) : (s.setField o hi lo n).slotId = s.slotId := rfl
@[simp] theorem setField_outq (s : State) (o hi lo n : Nat) : (s.setField o hi lo n).outq = s.outq := rfl
@[simp] theorem setField_flights (s : State) (o hi lo n : Nat) : (s.setField o hi lo n).flights = s.flights := rfl
@[simp] theorem setField_inbox (s : State) (o hi lo n : Nat) : (s.setField o hi lo n).inbox = s.inbox := rfl
@[simp] theorem setField_reports (s : State) (o hi lo n : Nat) : (s.setField o hi lo n).reports = s.reports := rfl
@[simp] theorem setField_summaries (s : State) (o hi lo n : Nat) : (s.setField o hi lo n).summaries = s.summaries := rfl
@[simp] theorem setField_calls (s : State) (o hi lo n : Nat) : (s.setField o hi lo n).calls = s.calls := rfl
@[simp] theorem setField_freeCtr (s : State) (o hi lo n : Nat) : (s.setField o hi lo n).freeCtr = s.freeCtr := rfl
@[simp] theorem setField_pending (s : State) (o hi lo n : Nat) : (s.setField o hi lo n).pending = s.pending := rfl

@[simp] theorem count_power (s : State) (o n : Nat) : (s.count o n).power = s.power := rfl
@[simp] theorem count_clock (s : State) (o n : Nat) : (s.count o n).clock = s.clock := rfl
@[simp] theorem count_parishes (s : State) (o n : Nat) : (s.count o n).parishes = s.parishes := rfl
@[simp] theorem count_deadR (s : State) (o n : Nat) : (s.count o n).deadR = s.deadR := rfl
@[simp] theorem count_linksDown (s : State) (o n : Nat) : (s.count o n).linksDown = s.linksDown := rfl
@[simp] theorem count_steered (s : State) (o n : Nat) : (s.count o n).steered = s.steered := rfl
@[simp] theorem count_linkCorr (s : State) (o n : Nat) : (s.count o n).linkCorr = s.linkCorr := rfl
@[simp] theorem count_linkUnc (s : State) (o n : Nat) : (s.count o n).linkUnc = s.linkUnc := rfl
@[simp] theorem count_pulses (s : State) (o n : Nat) : (s.count o n).pulses = s.pulses := rfl
@[simp] theorem count_crofts (s : State) (o n : Nat) : (s.count o n).crofts = s.crofts := rfl
@[simp] theorem count_stcs (s : State) (o n : Nat) : (s.count o n).stcs = s.stcs := rfl
@[simp] theorem count_gates (s : State) (o n : Nat) : (s.count o n).gates = s.gates := rfl
@[simp] theorem count_stewards (s : State) (o n : Nat) : (s.count o n).stewards = s.stewards := rfl
@[simp] theorem count_shadows (s : State) (o n : Nat) : (s.count o n).shadows = s.shadows := rfl
@[simp] theorem count_shadowNum (s : State) (o n : Nat) : (s.count o n).shadowNum = s.shadowNum := rfl
@[simp] theorem count_shadowStcs (s : State) (o n : Nat) : (s.count o n).shadowStcs = s.shadowStcs := rfl
@[simp] theorem count_toIsolate (s : State) (o n : Nat) : (s.count o n).toIsolate = s.toIsolate := rfl
@[simp] theorem count_shadowFaults (s : State) (o n : Nat) : (s.count o n).shadowFaults = s.shadowFaults := rfl
@[simp] theorem count_shadowFlt (s : State) (o n : Nat) : (s.count o n).shadowFlt = s.shadowFlt := rfl
@[simp] theorem count_holdings (s : State) (o n : Nat) : (s.count o n).holdings = s.holdings := rfl
@[simp] theorem count_faults (s : State) (o n : Nat) : (s.count o n).faults = s.faults := rfl
@[simp] theorem count_ledger (s : State) (o n : Nat) : (s.count o n).ledger = s.ledger := rfl
@[simp] theorem count_sec (s : State) (o n : Nat) : (s.count o n).sec = s.sec := rfl
@[simp] theorem count_cables (s : State) (o n : Nat) : (s.count o n).cables = s.cables := rfl
@[simp] theorem count_twb (s : State) (o n : Nat) : (s.count o n).twb = s.twb := rfl
@[simp] theorem count_tap (s : State) (o n : Nat) : (s.count o n).tap = s.tap := rfl
@[simp] theorem count_bscan (s : State) (o n : Nat) : (s.count o n).bscan = s.bscan := rfl
@[simp] theorem count_slotId (s : State) (o n : Nat) : (s.count o n).slotId = s.slotId := rfl
@[simp] theorem count_outq (s : State) (o n : Nat) : (s.count o n).outq = s.outq := rfl
@[simp] theorem count_flights (s : State) (o n : Nat) : (s.count o n).flights = s.flights := rfl
@[simp] theorem count_inbox (s : State) (o n : Nat) : (s.count o n).inbox = s.inbox := rfl
@[simp] theorem count_reports (s : State) (o n : Nat) : (s.count o n).reports = s.reports := rfl
@[simp] theorem count_summaries (s : State) (o n : Nat) : (s.count o n).summaries = s.summaries := rfl
@[simp] theorem count_calls (s : State) (o n : Nat) : (s.count o n).calls = s.calls := rfl
@[simp] theorem count_freeCtr (s : State) (o n : Nat) : (s.count o n).freeCtr = s.freeCtr := rfl
@[simp] theorem count_pending (s : State) (o n : Nat) : (s.count o n).pending = s.pending := rfl

@[simp] theorem sendShadow_regs (s : State) (d : Shadow) : (s.sendShadow d).regs = s.regs := rfl
@[simp] theorem sendShadow_power (s : State) (d : Shadow) : (s.sendShadow d).power = s.power := rfl
@[simp] theorem sendShadow_clock (s : State) (d : Shadow) : (s.sendShadow d).clock = s.clock := rfl
@[simp] theorem sendShadow_parishes (s : State) (d : Shadow) : (s.sendShadow d).parishes = s.parishes := rfl
@[simp] theorem sendShadow_deadR (s : State) (d : Shadow) : (s.sendShadow d).deadR = s.deadR := rfl
@[simp] theorem sendShadow_linksDown (s : State) (d : Shadow) : (s.sendShadow d).linksDown = s.linksDown := rfl
@[simp] theorem sendShadow_steered (s : State) (d : Shadow) : (s.sendShadow d).steered = s.steered := rfl
@[simp] theorem sendShadow_linkCorr (s : State) (d : Shadow) : (s.sendShadow d).linkCorr = s.linkCorr := rfl
@[simp] theorem sendShadow_linkUnc (s : State) (d : Shadow) : (s.sendShadow d).linkUnc = s.linkUnc := rfl
@[simp] theorem sendShadow_pulses (s : State) (d : Shadow) : (s.sendShadow d).pulses = s.pulses := rfl
@[simp] theorem sendShadow_crofts (s : State) (d : Shadow) : (s.sendShadow d).crofts = s.crofts := rfl
@[simp] theorem sendShadow_stcs (s : State) (d : Shadow) : (s.sendShadow d).stcs = s.stcs := rfl
@[simp] theorem sendShadow_gates (s : State) (d : Shadow) : (s.sendShadow d).gates = s.gates := rfl
@[simp] theorem sendShadow_stewards (s : State) (d : Shadow) : (s.sendShadow d).stewards = s.stewards := rfl
@[simp] theorem sendShadow_shadowStcs (s : State) (d : Shadow) : (s.sendShadow d).shadowStcs = s.shadowStcs := rfl
@[simp] theorem sendShadow_toIsolate (s : State) (d : Shadow) : (s.sendShadow d).toIsolate = s.toIsolate := rfl
@[simp] theorem sendShadow_shadowFaults (s : State) (d : Shadow) : (s.sendShadow d).shadowFaults = s.shadowFaults := rfl
@[simp] theorem sendShadow_shadowFlt (s : State) (d : Shadow) : (s.sendShadow d).shadowFlt = s.shadowFlt := rfl
@[simp] theorem sendShadow_holdings (s : State) (d : Shadow) : (s.sendShadow d).holdings = s.holdings := rfl
@[simp] theorem sendShadow_faults (s : State) (d : Shadow) : (s.sendShadow d).faults = s.faults := rfl
@[simp] theorem sendShadow_ledger (s : State) (d : Shadow) : (s.sendShadow d).ledger = s.ledger := rfl
@[simp] theorem sendShadow_sec (s : State) (d : Shadow) : (s.sendShadow d).sec = s.sec := rfl
@[simp] theorem sendShadow_cables (s : State) (d : Shadow) : (s.sendShadow d).cables = s.cables := rfl
@[simp] theorem sendShadow_twb (s : State) (d : Shadow) : (s.sendShadow d).twb = s.twb := rfl
@[simp] theorem sendShadow_tap (s : State) (d : Shadow) : (s.sendShadow d).tap = s.tap := rfl
@[simp] theorem sendShadow_bscan (s : State) (d : Shadow) : (s.sendShadow d).bscan = s.bscan := rfl
@[simp] theorem sendShadow_slotId (s : State) (d : Shadow) : (s.sendShadow d).slotId = s.slotId := rfl
@[simp] theorem sendShadow_flights (s : State) (d : Shadow) : (s.sendShadow d).flights = s.flights := rfl
@[simp] theorem sendShadow_inbox (s : State) (d : Shadow) : (s.sendShadow d).inbox = s.inbox := rfl
@[simp] theorem sendShadow_reports (s : State) (d : Shadow) : (s.sendShadow d).reports = s.reports := rfl
@[simp] theorem sendShadow_summaries (s : State) (d : Shadow) : (s.sendShadow d).summaries = s.summaries := rfl
@[simp] theorem sendShadow_calls (s : State) (d : Shadow) : (s.sendShadow d).calls = s.calls := rfl
@[simp] theorem sendShadow_freeCtr (s : State) (d : Shadow) : (s.sendShadow d).freeCtr = s.freeCtr := rfl
@[simp] theorem sendShadow_pending (s : State) (d : Shadow) : (s.sendShadow d).pending = s.pending := rfl

@[simp] theorem shadow_regs (s : State) (d : Change) : (s.shadow d).regs = s.regs := by unfold shadow; split <;> rfl
@[simp] theorem shadow_power (s : State) (d : Change) : (s.shadow d).power = s.power := by unfold shadow; split <;> rfl
@[simp] theorem shadow_clock (s : State) (d : Change) : (s.shadow d).clock = s.clock := by unfold shadow; split <;> rfl
@[simp] theorem shadow_parishes (s : State) (d : Change) : (s.shadow d).parishes = s.parishes := by unfold shadow; split <;> rfl
@[simp] theorem shadow_deadR (s : State) (d : Change) : (s.shadow d).deadR = s.deadR := by unfold shadow; split <;> rfl
@[simp] theorem shadow_linksDown (s : State) (d : Change) : (s.shadow d).linksDown = s.linksDown := by unfold shadow; split <;> rfl
@[simp] theorem shadow_steered (s : State) (d : Change) : (s.shadow d).steered = s.steered := by unfold shadow; split <;> rfl
@[simp] theorem shadow_linkCorr (s : State) (d : Change) : (s.shadow d).linkCorr = s.linkCorr := by unfold shadow; split <;> rfl
@[simp] theorem shadow_linkUnc (s : State) (d : Change) : (s.shadow d).linkUnc = s.linkUnc := by unfold shadow; split <;> rfl
@[simp] theorem shadow_pulses (s : State) (d : Change) : (s.shadow d).pulses = s.pulses := by unfold shadow; split <;> rfl
@[simp] theorem shadow_crofts (s : State) (d : Change) : (s.shadow d).crofts = s.crofts := by unfold shadow; split <;> rfl
@[simp] theorem shadow_stcs (s : State) (d : Change) : (s.shadow d).stcs = s.stcs := by unfold shadow; split <;> rfl
@[simp] theorem shadow_gates (s : State) (d : Change) : (s.shadow d).gates = s.gates := by unfold shadow; split <;> rfl
@[simp] theorem shadow_stewards (s : State) (d : Change) : (s.shadow d).stewards = s.stewards := by unfold shadow; split <;> rfl
@[simp] theorem shadow_shadowStcs (s : State) (d : Change) : (s.shadow d).shadowStcs = s.shadowStcs := by unfold shadow; split <;> rfl
@[simp] theorem shadow_toIsolate (s : State) (d : Change) : (s.shadow d).toIsolate = s.toIsolate := by unfold shadow; split <;> rfl
@[simp] theorem shadow_shadowFaults (s : State) (d : Change) : (s.shadow d).shadowFaults = s.shadowFaults := by unfold shadow; split <;> rfl
@[simp] theorem shadow_shadowFlt (s : State) (d : Change) : (s.shadow d).shadowFlt = s.shadowFlt := by unfold shadow; split <;> rfl
@[simp] theorem shadow_holdings (s : State) (d : Change) : (s.shadow d).holdings = s.holdings := by unfold shadow; split <;> rfl
@[simp] theorem shadow_faults (s : State) (d : Change) : (s.shadow d).faults = s.faults := by unfold shadow; split <;> rfl
@[simp] theorem shadow_ledger (s : State) (d : Change) : (s.shadow d).ledger = s.ledger := by unfold shadow; split <;> rfl
@[simp] theorem shadow_sec (s : State) (d : Change) : (s.shadow d).sec = s.sec := by unfold shadow; split <;> rfl
@[simp] theorem shadow_cables (s : State) (d : Change) : (s.shadow d).cables = s.cables := by unfold shadow; split <;> rfl
@[simp] theorem shadow_twb (s : State) (d : Change) : (s.shadow d).twb = s.twb := by unfold shadow; split <;> rfl
@[simp] theorem shadow_tap (s : State) (d : Change) : (s.shadow d).tap = s.tap := by unfold shadow; split <;> rfl
@[simp] theorem shadow_bscan (s : State) (d : Change) : (s.shadow d).bscan = s.bscan := by unfold shadow; split <;> rfl
@[simp] theorem shadow_slotId (s : State) (d : Change) : (s.shadow d).slotId = s.slotId := by unfold shadow; split <;> rfl
@[simp] theorem shadow_flights (s : State) (d : Change) : (s.shadow d).flights = s.flights := by unfold shadow; split <;> rfl
@[simp] theorem shadow_inbox (s : State) (d : Change) : (s.shadow d).inbox = s.inbox := by unfold shadow; split <;> rfl
@[simp] theorem shadow_reports (s : State) (d : Change) : (s.shadow d).reports = s.reports := by unfold shadow; split <;> rfl
@[simp] theorem shadow_summaries (s : State) (d : Change) : (s.shadow d).summaries = s.summaries := by unfold shadow; split <;> rfl
@[simp] theorem shadow_calls (s : State) (d : Change) : (s.shadow d).calls = s.calls := by unfold shadow; split <;> rfl
@[simp] theorem shadow_freeCtr (s : State) (d : Change) : (s.shadow d).freeCtr = s.freeCtr := by unfold shadow; split <;> rfl
@[simp] theorem shadow_pending (s : State) (d : Change) : (s.shadow d).pending = s.pending := by unfold shadow; split <;> rfl

@[simp] theorem setStc_regs (s : State) (q : Nat) (c : Stc) : (s.setStc q c).regs = s.regs := shadow_regs _ _
@[simp] theorem setStc_power (s : State) (q : Nat) (c : Stc) : (s.setStc q c).power = s.power := shadow_power _ _
@[simp] theorem setStc_clock (s : State) (q : Nat) (c : Stc) : (s.setStc q c).clock = s.clock := shadow_clock _ _
@[simp] theorem setStc_parishes (s : State) (q : Nat) (c : Stc) : (s.setStc q c).parishes = s.parishes := shadow_parishes _ _
@[simp] theorem setStc_deadR (s : State) (q : Nat) (c : Stc) : (s.setStc q c).deadR = s.deadR := shadow_deadR _ _
@[simp] theorem setStc_linksDown (s : State) (q : Nat) (c : Stc) : (s.setStc q c).linksDown = s.linksDown := shadow_linksDown _ _
@[simp] theorem setStc_steered (s : State) (q : Nat) (c : Stc) : (s.setStc q c).steered = s.steered := shadow_steered _ _
@[simp] theorem setStc_linkCorr (s : State) (q : Nat) (c : Stc) : (s.setStc q c).linkCorr = s.linkCorr := shadow_linkCorr _ _
@[simp] theorem setStc_linkUnc (s : State) (q : Nat) (c : Stc) : (s.setStc q c).linkUnc = s.linkUnc := shadow_linkUnc _ _
@[simp] theorem setStc_pulses (s : State) (q : Nat) (c : Stc) : (s.setStc q c).pulses = s.pulses := shadow_pulses _ _
@[simp] theorem setStc_crofts (s : State) (q : Nat) (c : Stc) : (s.setStc q c).crofts = s.crofts := shadow_crofts _ _
@[simp] theorem setStc_gates (s : State) (q : Nat) (c : Stc) : (s.setStc q c).gates = s.gates := shadow_gates _ _
@[simp] theorem setStc_stewards (s : State) (q : Nat) (c : Stc) : (s.setStc q c).stewards = s.stewards := shadow_stewards _ _
@[simp] theorem setStc_shadowStcs (s : State) (q : Nat) (c : Stc) : (s.setStc q c).shadowStcs = s.shadowStcs := shadow_shadowStcs _ _
@[simp] theorem setStc_toIsolate (s : State) (q : Nat) (c : Stc) : (s.setStc q c).toIsolate = s.toIsolate := shadow_toIsolate _ _
@[simp] theorem setStc_shadowFaults (s : State) (q : Nat) (c : Stc) : (s.setStc q c).shadowFaults = s.shadowFaults := shadow_shadowFaults _ _
@[simp] theorem setStc_shadowFlt (s : State) (q : Nat) (c : Stc) : (s.setStc q c).shadowFlt = s.shadowFlt := shadow_shadowFlt _ _
@[simp] theorem setStc_holdings (s : State) (q : Nat) (c : Stc) : (s.setStc q c).holdings = s.holdings := shadow_holdings _ _
@[simp] theorem setStc_faults (s : State) (q : Nat) (c : Stc) : (s.setStc q c).faults = s.faults := shadow_faults _ _
@[simp] theorem setStc_ledger (s : State) (q : Nat) (c : Stc) : (s.setStc q c).ledger = s.ledger := shadow_ledger _ _
@[simp] theorem setStc_sec (s : State) (q : Nat) (c : Stc) : (s.setStc q c).sec = s.sec := shadow_sec _ _
@[simp] theorem setStc_cables (s : State) (q : Nat) (c : Stc) : (s.setStc q c).cables = s.cables := shadow_cables _ _
@[simp] theorem setStc_twb (s : State) (q : Nat) (c : Stc) : (s.setStc q c).twb = s.twb := shadow_twb _ _
@[simp] theorem setStc_tap (s : State) (q : Nat) (c : Stc) : (s.setStc q c).tap = s.tap := shadow_tap _ _
@[simp] theorem setStc_bscan (s : State) (q : Nat) (c : Stc) : (s.setStc q c).bscan = s.bscan := shadow_bscan _ _
@[simp] theorem setStc_slotId (s : State) (q : Nat) (c : Stc) : (s.setStc q c).slotId = s.slotId := shadow_slotId _ _
@[simp] theorem setStc_flights (s : State) (q : Nat) (c : Stc) : (s.setStc q c).flights = s.flights := shadow_flights _ _
@[simp] theorem setStc_inbox (s : State) (q : Nat) (c : Stc) : (s.setStc q c).inbox = s.inbox := shadow_inbox _ _
@[simp] theorem setStc_reports (s : State) (q : Nat) (c : Stc) : (s.setStc q c).reports = s.reports := shadow_reports _ _
@[simp] theorem setStc_summaries (s : State) (q : Nat) (c : Stc) : (s.setStc q c).summaries = s.summaries := shadow_summaries _ _
@[simp] theorem setStc_calls (s : State) (q : Nat) (c : Stc) : (s.setStc q c).calls = s.calls := shadow_calls _ _
@[simp] theorem setStc_freeCtr (s : State) (q : Nat) (c : Stc) : (s.setStc q c).freeCtr = s.freeCtr := shadow_freeCtr _ _
@[simp] theorem setStc_pending (s : State) (q : Nat) (c : Stc) : (s.setStc q c).pending = s.pending := shadow_pending _ _
@[simp] theorem setStc_stcs (s : State) (q : Nat) (c : Stc) :
    (s.setStc q c).stcs = Tab.set (fun _ => ({} : Stc)) s.stcs q c := shadow_stcs _ _

@[simp] theorem setFaults_regs (s : State) (f : FaultCtl) : (s.setFaults f).regs = s.regs := shadow_regs _ _
@[simp] theorem setFaults_power (s : State) (f : FaultCtl) : (s.setFaults f).power = s.power := shadow_power _ _
@[simp] theorem setFaults_clock (s : State) (f : FaultCtl) : (s.setFaults f).clock = s.clock := shadow_clock _ _
@[simp] theorem setFaults_parishes (s : State) (f : FaultCtl) : (s.setFaults f).parishes = s.parishes := shadow_parishes _ _
@[simp] theorem setFaults_deadR (s : State) (f : FaultCtl) : (s.setFaults f).deadR = s.deadR := shadow_deadR _ _
@[simp] theorem setFaults_linksDown (s : State) (f : FaultCtl) : (s.setFaults f).linksDown = s.linksDown := shadow_linksDown _ _
@[simp] theorem setFaults_steered (s : State) (f : FaultCtl) : (s.setFaults f).steered = s.steered := shadow_steered _ _
@[simp] theorem setFaults_linkCorr (s : State) (f : FaultCtl) : (s.setFaults f).linkCorr = s.linkCorr := shadow_linkCorr _ _
@[simp] theorem setFaults_linkUnc (s : State) (f : FaultCtl) : (s.setFaults f).linkUnc = s.linkUnc := shadow_linkUnc _ _
@[simp] theorem setFaults_pulses (s : State) (f : FaultCtl) : (s.setFaults f).pulses = s.pulses := shadow_pulses _ _
@[simp] theorem setFaults_crofts (s : State) (f : FaultCtl) : (s.setFaults f).crofts = s.crofts := shadow_crofts _ _
@[simp] theorem setFaults_stcs (s : State) (f : FaultCtl) : (s.setFaults f).stcs = s.stcs := shadow_stcs _ _
@[simp] theorem setFaults_gates (s : State) (f : FaultCtl) : (s.setFaults f).gates = s.gates := shadow_gates _ _
@[simp] theorem setFaults_stewards (s : State) (f : FaultCtl) : (s.setFaults f).stewards = s.stewards := shadow_stewards _ _
@[simp] theorem setFaults_shadowStcs (s : State) (f : FaultCtl) : (s.setFaults f).shadowStcs = s.shadowStcs := shadow_shadowStcs _ _
@[simp] theorem setFaults_toIsolate (s : State) (f : FaultCtl) : (s.setFaults f).toIsolate = s.toIsolate := shadow_toIsolate _ _
@[simp] theorem setFaults_shadowFaults (s : State) (f : FaultCtl) : (s.setFaults f).shadowFaults = s.shadowFaults := shadow_shadowFaults _ _
@[simp] theorem setFaults_shadowFlt (s : State) (f : FaultCtl) : (s.setFaults f).shadowFlt = s.shadowFlt := shadow_shadowFlt _ _
@[simp] theorem setFaults_holdings (s : State) (f : FaultCtl) : (s.setFaults f).holdings = s.holdings := shadow_holdings _ _
@[simp] theorem setFaults_ledger (s : State) (f : FaultCtl) : (s.setFaults f).ledger = s.ledger := shadow_ledger _ _
@[simp] theorem setFaults_sec (s : State) (f : FaultCtl) : (s.setFaults f).sec = s.sec := shadow_sec _ _
@[simp] theorem setFaults_cables (s : State) (f : FaultCtl) : (s.setFaults f).cables = s.cables := shadow_cables _ _
@[simp] theorem setFaults_twb (s : State) (f : FaultCtl) : (s.setFaults f).twb = s.twb := shadow_twb _ _
@[simp] theorem setFaults_tap (s : State) (f : FaultCtl) : (s.setFaults f).tap = s.tap := shadow_tap _ _
@[simp] theorem setFaults_bscan (s : State) (f : FaultCtl) : (s.setFaults f).bscan = s.bscan := shadow_bscan _ _
@[simp] theorem setFaults_slotId (s : State) (f : FaultCtl) : (s.setFaults f).slotId = s.slotId := shadow_slotId _ _
@[simp] theorem setFaults_flights (s : State) (f : FaultCtl) : (s.setFaults f).flights = s.flights := shadow_flights _ _
@[simp] theorem setFaults_inbox (s : State) (f : FaultCtl) : (s.setFaults f).inbox = s.inbox := shadow_inbox _ _
@[simp] theorem setFaults_reports (s : State) (f : FaultCtl) : (s.setFaults f).reports = s.reports := shadow_reports _ _
@[simp] theorem setFaults_summaries (s : State) (f : FaultCtl) : (s.setFaults f).summaries = s.summaries := shadow_summaries _ _
@[simp] theorem setFaults_calls (s : State) (f : FaultCtl) : (s.setFaults f).calls = s.calls := shadow_calls _ _
@[simp] theorem setFaults_freeCtr (s : State) (f : FaultCtl) : (s.setFaults f).freeCtr = s.freeCtr := shadow_freeCtr _ _
@[simp] theorem setFaults_pending (s : State) (f : FaultCtl) : (s.setFaults f).pending = s.pending := shadow_pending _ _
@[simp] theorem setFaults_faults (s : State) (f : FaultCtl) : (s.setFaults f).faults = f := shadow_faults _ _

@[simp] theorem setFlt_power (s : State) (o : Nat) (v : W64) : (s.setFlt o v).power = s.power := shadow_power _ _
@[simp] theorem setFlt_clock (s : State) (o : Nat) (v : W64) : (s.setFlt o v).clock = s.clock := shadow_clock _ _
@[simp] theorem setFlt_parishes (s : State) (o : Nat) (v : W64) : (s.setFlt o v).parishes = s.parishes := shadow_parishes _ _
@[simp] theorem setFlt_deadR (s : State) (o : Nat) (v : W64) : (s.setFlt o v).deadR = s.deadR := shadow_deadR _ _
@[simp] theorem setFlt_linksDown (s : State) (o : Nat) (v : W64) : (s.setFlt o v).linksDown = s.linksDown := shadow_linksDown _ _
@[simp] theorem setFlt_steered (s : State) (o : Nat) (v : W64) : (s.setFlt o v).steered = s.steered := shadow_steered _ _
@[simp] theorem setFlt_linkCorr (s : State) (o : Nat) (v : W64) : (s.setFlt o v).linkCorr = s.linkCorr := shadow_linkCorr _ _
@[simp] theorem setFlt_linkUnc (s : State) (o : Nat) (v : W64) : (s.setFlt o v).linkUnc = s.linkUnc := shadow_linkUnc _ _
@[simp] theorem setFlt_pulses (s : State) (o : Nat) (v : W64) : (s.setFlt o v).pulses = s.pulses := shadow_pulses _ _
@[simp] theorem setFlt_crofts (s : State) (o : Nat) (v : W64) : (s.setFlt o v).crofts = s.crofts := shadow_crofts _ _
@[simp] theorem setFlt_stcs (s : State) (o : Nat) (v : W64) : (s.setFlt o v).stcs = s.stcs := shadow_stcs _ _
@[simp] theorem setFlt_gates (s : State) (o : Nat) (v : W64) : (s.setFlt o v).gates = s.gates := shadow_gates _ _
@[simp] theorem setFlt_stewards (s : State) (o : Nat) (v : W64) : (s.setFlt o v).stewards = s.stewards := shadow_stewards _ _
@[simp] theorem setFlt_shadowStcs (s : State) (o : Nat) (v : W64) : (s.setFlt o v).shadowStcs = s.shadowStcs := shadow_shadowStcs _ _
@[simp] theorem setFlt_toIsolate (s : State) (o : Nat) (v : W64) : (s.setFlt o v).toIsolate = s.toIsolate := shadow_toIsolate _ _
@[simp] theorem setFlt_shadowFaults (s : State) (o : Nat) (v : W64) : (s.setFlt o v).shadowFaults = s.shadowFaults := shadow_shadowFaults _ _
@[simp] theorem setFlt_shadowFlt (s : State) (o : Nat) (v : W64) : (s.setFlt o v).shadowFlt = s.shadowFlt := shadow_shadowFlt _ _
@[simp] theorem setFlt_holdings (s : State) (o : Nat) (v : W64) : (s.setFlt o v).holdings = s.holdings := shadow_holdings _ _
@[simp] theorem setFlt_faults (s : State) (o : Nat) (v : W64) : (s.setFlt o v).faults = s.faults := shadow_faults _ _
@[simp] theorem setFlt_ledger (s : State) (o : Nat) (v : W64) : (s.setFlt o v).ledger = s.ledger := shadow_ledger _ _
@[simp] theorem setFlt_sec (s : State) (o : Nat) (v : W64) : (s.setFlt o v).sec = s.sec := shadow_sec _ _
@[simp] theorem setFlt_cables (s : State) (o : Nat) (v : W64) : (s.setFlt o v).cables = s.cables := shadow_cables _ _
@[simp] theorem setFlt_twb (s : State) (o : Nat) (v : W64) : (s.setFlt o v).twb = s.twb := shadow_twb _ _
@[simp] theorem setFlt_tap (s : State) (o : Nat) (v : W64) : (s.setFlt o v).tap = s.tap := shadow_tap _ _
@[simp] theorem setFlt_bscan (s : State) (o : Nat) (v : W64) : (s.setFlt o v).bscan = s.bscan := shadow_bscan _ _
@[simp] theorem setFlt_slotId (s : State) (o : Nat) (v : W64) : (s.setFlt o v).slotId = s.slotId := shadow_slotId _ _
@[simp] theorem setFlt_flights (s : State) (o : Nat) (v : W64) : (s.setFlt o v).flights = s.flights := shadow_flights _ _
@[simp] theorem setFlt_inbox (s : State) (o : Nat) (v : W64) : (s.setFlt o v).inbox = s.inbox := shadow_inbox _ _
@[simp] theorem setFlt_reports (s : State) (o : Nat) (v : W64) : (s.setFlt o v).reports = s.reports := shadow_reports _ _
@[simp] theorem setFlt_summaries (s : State) (o : Nat) (v : W64) : (s.setFlt o v).summaries = s.summaries := shadow_summaries _ _
@[simp] theorem setFlt_calls (s : State) (o : Nat) (v : W64) : (s.setFlt o v).calls = s.calls := shadow_calls _ _
@[simp] theorem setFlt_freeCtr (s : State) (o : Nat) (v : W64) : (s.setFlt o v).freeCtr = s.freeCtr := shadow_freeCtr _ _
@[simp] theorem setFlt_pending (s : State) (o : Nat) (v : W64) : (s.setFlt o v).pending = s.pending := shadow_pending _ _
@[simp] theorem setFlt_regs (s : State) (o : Nat) (v : W64) : (s.setFlt o v).regs = (s.setReg o v).regs := shadow_regs _ _

@[simp] theorem reportAll_regs (s : State) (rs : List Report) : (s.reportAll rs).regs = s.regs := rfl
@[simp] theorem reportAll_power (s : State) (rs : List Report) : (s.reportAll rs).power = s.power := rfl
@[simp] theorem reportAll_clock (s : State) (rs : List Report) : (s.reportAll rs).clock = s.clock := rfl
@[simp] theorem reportAll_parishes (s : State) (rs : List Report) : (s.reportAll rs).parishes = s.parishes := rfl
@[simp] theorem reportAll_deadR (s : State) (rs : List Report) : (s.reportAll rs).deadR = s.deadR := rfl
@[simp] theorem reportAll_linksDown (s : State) (rs : List Report) : (s.reportAll rs).linksDown = s.linksDown := rfl
@[simp] theorem reportAll_steered (s : State) (rs : List Report) : (s.reportAll rs).steered = s.steered := rfl
@[simp] theorem reportAll_linkCorr (s : State) (rs : List Report) : (s.reportAll rs).linkCorr = s.linkCorr := rfl
@[simp] theorem reportAll_linkUnc (s : State) (rs : List Report) : (s.reportAll rs).linkUnc = s.linkUnc := rfl
@[simp] theorem reportAll_pulses (s : State) (rs : List Report) : (s.reportAll rs).pulses = s.pulses := rfl
@[simp] theorem reportAll_crofts (s : State) (rs : List Report) : (s.reportAll rs).crofts = s.crofts := rfl
@[simp] theorem reportAll_stcs (s : State) (rs : List Report) : (s.reportAll rs).stcs = s.stcs := rfl
@[simp] theorem reportAll_gates (s : State) (rs : List Report) : (s.reportAll rs).gates = s.gates := rfl
@[simp] theorem reportAll_stewards (s : State) (rs : List Report) : (s.reportAll rs).stewards = s.stewards := rfl
@[simp] theorem reportAll_shadows (s : State) (rs : List Report) : (s.reportAll rs).shadows = s.shadows := rfl
@[simp] theorem reportAll_shadowNum (s : State) (rs : List Report) : (s.reportAll rs).shadowNum = s.shadowNum := rfl
@[simp] theorem reportAll_shadowStcs (s : State) (rs : List Report) : (s.reportAll rs).shadowStcs = s.shadowStcs := rfl
@[simp] theorem reportAll_toIsolate (s : State) (rs : List Report) : (s.reportAll rs).toIsolate = s.toIsolate := rfl
@[simp] theorem reportAll_shadowFaults (s : State) (rs : List Report) : (s.reportAll rs).shadowFaults = s.shadowFaults := rfl
@[simp] theorem reportAll_shadowFlt (s : State) (rs : List Report) : (s.reportAll rs).shadowFlt = s.shadowFlt := rfl
@[simp] theorem reportAll_holdings (s : State) (rs : List Report) : (s.reportAll rs).holdings = s.holdings := rfl
@[simp] theorem reportAll_faults (s : State) (rs : List Report) : (s.reportAll rs).faults = s.faults := rfl
@[simp] theorem reportAll_ledger (s : State) (rs : List Report) : (s.reportAll rs).ledger = s.ledger := rfl
@[simp] theorem reportAll_sec (s : State) (rs : List Report) : (s.reportAll rs).sec = s.sec := rfl
@[simp] theorem reportAll_cables (s : State) (rs : List Report) : (s.reportAll rs).cables = s.cables := rfl
@[simp] theorem reportAll_twb (s : State) (rs : List Report) : (s.reportAll rs).twb = s.twb := rfl
@[simp] theorem reportAll_tap (s : State) (rs : List Report) : (s.reportAll rs).tap = s.tap := rfl
@[simp] theorem reportAll_bscan (s : State) (rs : List Report) : (s.reportAll rs).bscan = s.bscan := rfl
@[simp] theorem reportAll_slotId (s : State) (rs : List Report) : (s.reportAll rs).slotId = s.slotId := rfl
@[simp] theorem reportAll_flights (s : State) (rs : List Report) : (s.reportAll rs).flights = s.flights := rfl
@[simp] theorem reportAll_inbox (s : State) (rs : List Report) : (s.reportAll rs).inbox = s.inbox := rfl
@[simp] theorem reportAll_summaries (s : State) (rs : List Report) : (s.reportAll rs).summaries = s.summaries := rfl
@[simp] theorem reportAll_calls (s : State) (rs : List Report) : (s.reportAll rs).calls = s.calls := rfl
@[simp] theorem reportAll_freeCtr (s : State) (rs : List Report) : (s.reportAll rs).freeCtr = s.freeCtr := rfl
@[simp] theorem reportAll_pending (s : State) (rs : List Report) : (s.reportAll rs).pending = s.pending := rfl

@[simp] theorem raise_regs (s : State) (code : Nat) (loc : W32) (syn : W64) (opc : W16) (cls : Option Bool)
    (hold : Option Nat) : (s.raise code loc syn opc cls hold).regs = s.regs := rfl
@[simp] theorem raise_power (s : State) (code : Nat) (loc : W32) (syn : W64) (opc : W16) (cls : Option Bool)
    (hold : Option Nat) : (s.raise code loc syn opc cls hold).power = s.power := rfl
@[simp] theorem raise_clock (s : State) (code : Nat) (loc : W32) (syn : W64) (opc : W16) (cls : Option Bool)
    (hold : Option Nat) : (s.raise code loc syn opc cls hold).clock = s.clock := rfl
@[simp] theorem raise_parishes (s : State) (code : Nat) (loc : W32) (syn : W64) (opc : W16) (cls : Option Bool)
    (hold : Option Nat) : (s.raise code loc syn opc cls hold).parishes = s.parishes := rfl
@[simp] theorem raise_deadR (s : State) (code : Nat) (loc : W32) (syn : W64) (opc : W16) (cls : Option Bool)
    (hold : Option Nat) : (s.raise code loc syn opc cls hold).deadR = s.deadR := rfl
@[simp] theorem raise_linksDown (s : State) (code : Nat) (loc : W32) (syn : W64) (opc : W16) (cls : Option Bool)
    (hold : Option Nat) : (s.raise code loc syn opc cls hold).linksDown = s.linksDown := rfl
@[simp] theorem raise_steered (s : State) (code : Nat) (loc : W32) (syn : W64) (opc : W16) (cls : Option Bool)
    (hold : Option Nat) : (s.raise code loc syn opc cls hold).steered = s.steered := rfl
@[simp] theorem raise_linkCorr (s : State) (code : Nat) (loc : W32) (syn : W64) (opc : W16) (cls : Option Bool)
    (hold : Option Nat) : (s.raise code loc syn opc cls hold).linkCorr = s.linkCorr := rfl
@[simp] theorem raise_linkUnc (s : State) (code : Nat) (loc : W32) (syn : W64) (opc : W16) (cls : Option Bool)
    (hold : Option Nat) : (s.raise code loc syn opc cls hold).linkUnc = s.linkUnc := rfl
@[simp] theorem raise_pulses (s : State) (code : Nat) (loc : W32) (syn : W64) (opc : W16) (cls : Option Bool)
    (hold : Option Nat) : (s.raise code loc syn opc cls hold).pulses = s.pulses := rfl
@[simp] theorem raise_crofts (s : State) (code : Nat) (loc : W32) (syn : W64) (opc : W16) (cls : Option Bool)
    (hold : Option Nat) : (s.raise code loc syn opc cls hold).crofts = s.crofts := rfl
@[simp] theorem raise_stcs (s : State) (code : Nat) (loc : W32) (syn : W64) (opc : W16) (cls : Option Bool)
    (hold : Option Nat) : (s.raise code loc syn opc cls hold).stcs = s.stcs := rfl
@[simp] theorem raise_gates (s : State) (code : Nat) (loc : W32) (syn : W64) (opc : W16) (cls : Option Bool)
    (hold : Option Nat) : (s.raise code loc syn opc cls hold).gates = s.gates := rfl
@[simp] theorem raise_stewards (s : State) (code : Nat) (loc : W32) (syn : W64) (opc : W16) (cls : Option Bool)
    (hold : Option Nat) : (s.raise code loc syn opc cls hold).stewards = s.stewards := rfl
@[simp] theorem raise_shadows (s : State) (code : Nat) (loc : W32) (syn : W64) (opc : W16) (cls : Option Bool)
    (hold : Option Nat) : (s.raise code loc syn opc cls hold).shadows = s.shadows := rfl
@[simp] theorem raise_shadowNum (s : State) (code : Nat) (loc : W32) (syn : W64) (opc : W16) (cls : Option Bool)
    (hold : Option Nat) : (s.raise code loc syn opc cls hold).shadowNum = s.shadowNum := rfl
@[simp] theorem raise_shadowStcs (s : State) (code : Nat) (loc : W32) (syn : W64) (opc : W16) (cls : Option Bool)
    (hold : Option Nat) : (s.raise code loc syn opc cls hold).shadowStcs = s.shadowStcs := rfl
@[simp] theorem raise_toIsolate (s : State) (code : Nat) (loc : W32) (syn : W64) (opc : W16) (cls : Option Bool)
    (hold : Option Nat) : (s.raise code loc syn opc cls hold).toIsolate = s.toIsolate := rfl
@[simp] theorem raise_shadowFaults (s : State) (code : Nat) (loc : W32) (syn : W64) (opc : W16) (cls : Option Bool)
    (hold : Option Nat) : (s.raise code loc syn opc cls hold).shadowFaults = s.shadowFaults := rfl
@[simp] theorem raise_shadowFlt (s : State) (code : Nat) (loc : W32) (syn : W64) (opc : W16) (cls : Option Bool)
    (hold : Option Nat) : (s.raise code loc syn opc cls hold).shadowFlt = s.shadowFlt := rfl
@[simp] theorem raise_holdings (s : State) (code : Nat) (loc : W32) (syn : W64) (opc : W16) (cls : Option Bool)
    (hold : Option Nat) : (s.raise code loc syn opc cls hold).holdings = s.holdings := rfl
@[simp] theorem raise_faults (s : State) (code : Nat) (loc : W32) (syn : W64) (opc : W16) (cls : Option Bool)
    (hold : Option Nat) : (s.raise code loc syn opc cls hold).faults = s.faults := rfl
@[simp] theorem raise_ledger (s : State) (code : Nat) (loc : W32) (syn : W64) (opc : W16) (cls : Option Bool)
    (hold : Option Nat) : (s.raise code loc syn opc cls hold).ledger = s.ledger := rfl
@[simp] theorem raise_sec (s : State) (code : Nat) (loc : W32) (syn : W64) (opc : W16) (cls : Option Bool)
    (hold : Option Nat) : (s.raise code loc syn opc cls hold).sec = s.sec := rfl
@[simp] theorem raise_cables (s : State) (code : Nat) (loc : W32) (syn : W64) (opc : W16) (cls : Option Bool)
    (hold : Option Nat) : (s.raise code loc syn opc cls hold).cables = s.cables := rfl
@[simp] theorem raise_twb (s : State) (code : Nat) (loc : W32) (syn : W64) (opc : W16) (cls : Option Bool)
    (hold : Option Nat) : (s.raise code loc syn opc cls hold).twb = s.twb := rfl
@[simp] theorem raise_tap (s : State) (code : Nat) (loc : W32) (syn : W64) (opc : W16) (cls : Option Bool)
    (hold : Option Nat) : (s.raise code loc syn opc cls hold).tap = s.tap := rfl
@[simp] theorem raise_bscan (s : State) (code : Nat) (loc : W32) (syn : W64) (opc : W16) (cls : Option Bool)
    (hold : Option Nat) : (s.raise code loc syn opc cls hold).bscan = s.bscan := rfl
@[simp] theorem raise_slotId (s : State) (code : Nat) (loc : W32) (syn : W64) (opc : W16) (cls : Option Bool)
    (hold : Option Nat) : (s.raise code loc syn opc cls hold).slotId = s.slotId := rfl
@[simp] theorem raise_flights (s : State) (code : Nat) (loc : W32) (syn : W64) (opc : W16) (cls : Option Bool)
    (hold : Option Nat) : (s.raise code loc syn opc cls hold).flights = s.flights := rfl
@[simp] theorem raise_inbox (s : State) (code : Nat) (loc : W32) (syn : W64) (opc : W16) (cls : Option Bool)
    (hold : Option Nat) : (s.raise code loc syn opc cls hold).inbox = s.inbox := rfl
@[simp] theorem raise_summaries (s : State) (code : Nat) (loc : W32) (syn : W64) (opc : W16) (cls : Option Bool)
    (hold : Option Nat) : (s.raise code loc syn opc cls hold).summaries = s.summaries := rfl
@[simp] theorem raise_calls (s : State) (code : Nat) (loc : W32) (syn : W64) (opc : W16) (cls : Option Bool)
    (hold : Option Nat) : (s.raise code loc syn opc cls hold).calls = s.calls := rfl
@[simp] theorem raise_freeCtr (s : State) (code : Nat) (loc : W32) (syn : W64) (opc : W16) (cls : Option Bool)
    (hold : Option Nat) : (s.raise code loc syn opc cls hold).freeCtr = s.freeCtr := rfl
@[simp] theorem raise_pending (s : State) (code : Nat) (loc : W32) (syn : W64) (opc : W16) (cls : Option Bool)
    (hold : Option Nat) : (s.raise code loc syn opc cls hold).pending = s.pending := rfl

@[simp] theorem emit_regs (s : State) (ks : List Packet) : (s.emit ks).regs = s.regs := rfl
@[simp] theorem emit_power (s : State) (ks : List Packet) : (s.emit ks).power = s.power := rfl
@[simp] theorem emit_clock (s : State) (ks : List Packet) : (s.emit ks).clock = s.clock := rfl
@[simp] theorem emit_parishes (s : State) (ks : List Packet) : (s.emit ks).parishes = s.parishes := rfl
@[simp] theorem emit_deadR (s : State) (ks : List Packet) : (s.emit ks).deadR = s.deadR := rfl
@[simp] theorem emit_linksDown (s : State) (ks : List Packet) : (s.emit ks).linksDown = s.linksDown := rfl
@[simp] theorem emit_steered (s : State) (ks : List Packet) : (s.emit ks).steered = s.steered := rfl
@[simp] theorem emit_linkCorr (s : State) (ks : List Packet) : (s.emit ks).linkCorr = s.linkCorr := rfl
@[simp] theorem emit_linkUnc (s : State) (ks : List Packet) : (s.emit ks).linkUnc = s.linkUnc := rfl
@[simp] theorem emit_pulses (s : State) (ks : List Packet) : (s.emit ks).pulses = s.pulses := rfl
@[simp] theorem emit_crofts (s : State) (ks : List Packet) : (s.emit ks).crofts = s.crofts := rfl
@[simp] theorem emit_stcs (s : State) (ks : List Packet) : (s.emit ks).stcs = s.stcs := rfl
@[simp] theorem emit_gates (s : State) (ks : List Packet) : (s.emit ks).gates = s.gates := rfl
@[simp] theorem emit_stewards (s : State) (ks : List Packet) : (s.emit ks).stewards = s.stewards := rfl
@[simp] theorem emit_shadows (s : State) (ks : List Packet) : (s.emit ks).shadows = s.shadows := rfl
@[simp] theorem emit_shadowNum (s : State) (ks : List Packet) : (s.emit ks).shadowNum = s.shadowNum := rfl
@[simp] theorem emit_shadowStcs (s : State) (ks : List Packet) : (s.emit ks).shadowStcs = s.shadowStcs := rfl
@[simp] theorem emit_toIsolate (s : State) (ks : List Packet) : (s.emit ks).toIsolate = s.toIsolate := rfl
@[simp] theorem emit_shadowFaults (s : State) (ks : List Packet) : (s.emit ks).shadowFaults = s.shadowFaults := rfl
@[simp] theorem emit_shadowFlt (s : State) (ks : List Packet) : (s.emit ks).shadowFlt = s.shadowFlt := rfl
@[simp] theorem emit_holdings (s : State) (ks : List Packet) : (s.emit ks).holdings = s.holdings := rfl
@[simp] theorem emit_faults (s : State) (ks : List Packet) : (s.emit ks).faults = s.faults := rfl
@[simp] theorem emit_ledger (s : State) (ks : List Packet) : (s.emit ks).ledger = s.ledger := rfl
@[simp] theorem emit_sec (s : State) (ks : List Packet) : (s.emit ks).sec = s.sec := rfl
@[simp] theorem emit_cables (s : State) (ks : List Packet) : (s.emit ks).cables = s.cables := rfl
@[simp] theorem emit_twb (s : State) (ks : List Packet) : (s.emit ks).twb = s.twb := rfl
@[simp] theorem emit_tap (s : State) (ks : List Packet) : (s.emit ks).tap = s.tap := rfl
@[simp] theorem emit_bscan (s : State) (ks : List Packet) : (s.emit ks).bscan = s.bscan := rfl
@[simp] theorem emit_slotId (s : State) (ks : List Packet) : (s.emit ks).slotId = s.slotId := rfl
@[simp] theorem emit_flights (s : State) (ks : List Packet) : (s.emit ks).flights = s.flights := rfl
@[simp] theorem emit_inbox (s : State) (ks : List Packet) : (s.emit ks).inbox = s.inbox := rfl
@[simp] theorem emit_reports (s : State) (ks : List Packet) : (s.emit ks).reports = s.reports := rfl
@[simp] theorem emit_summaries (s : State) (ks : List Packet) : (s.emit ks).summaries = s.summaries := rfl
@[simp] theorem emit_calls (s : State) (ks : List Packet) : (s.emit ks).calls = s.calls := rfl
@[simp] theorem emit_freeCtr (s : State) (ks : List Packet) : (s.emit ks).freeCtr = s.freeCtr := rfl
@[simp] theorem emit_pending (s : State) (ks : List Packet) : (s.emit ks).pending = s.pending := rfl

@[simp] theorem take_regs (s : State) (k : Packet) : (s.take k).regs = s.regs := rfl
@[simp] theorem take_power (s : State) (k : Packet) : (s.take k).power = s.power := rfl
@[simp] theorem take_clock (s : State) (k : Packet) : (s.take k).clock = s.clock := rfl
@[simp] theorem take_parishes (s : State) (k : Packet) : (s.take k).parishes = s.parishes := rfl
@[simp] theorem take_deadR (s : State) (k : Packet) : (s.take k).deadR = s.deadR := rfl
@[simp] theorem take_linksDown (s : State) (k : Packet) : (s.take k).linksDown = s.linksDown := rfl
@[simp] theorem take_steered (s : State) (k : Packet) : (s.take k).steered = s.steered := rfl
@[simp] theorem take_linkCorr (s : State) (k : Packet) : (s.take k).linkCorr = s.linkCorr := rfl
@[simp] theorem take_linkUnc (s : State) (k : Packet) : (s.take k).linkUnc = s.linkUnc := rfl
@[simp] theorem take_pulses (s : State) (k : Packet) : (s.take k).pulses = s.pulses := rfl
@[simp] theorem take_crofts (s : State) (k : Packet) : (s.take k).crofts = s.crofts := rfl
@[simp] theorem take_stcs (s : State) (k : Packet) : (s.take k).stcs = s.stcs := rfl
@[simp] theorem take_gates (s : State) (k : Packet) : (s.take k).gates = s.gates := rfl
@[simp] theorem take_stewards (s : State) (k : Packet) : (s.take k).stewards = s.stewards := rfl
@[simp] theorem take_shadows (s : State) (k : Packet) : (s.take k).shadows = s.shadows := rfl
@[simp] theorem take_shadowNum (s : State) (k : Packet) : (s.take k).shadowNum = s.shadowNum := rfl
@[simp] theorem take_shadowStcs (s : State) (k : Packet) : (s.take k).shadowStcs = s.shadowStcs := rfl
@[simp] theorem take_toIsolate (s : State) (k : Packet) : (s.take k).toIsolate = s.toIsolate := rfl
@[simp] theorem take_shadowFaults (s : State) (k : Packet) : (s.take k).shadowFaults = s.shadowFaults := rfl
@[simp] theorem take_shadowFlt (s : State) (k : Packet) : (s.take k).shadowFlt = s.shadowFlt := rfl
@[simp] theorem take_holdings (s : State) (k : Packet) : (s.take k).holdings = s.holdings := rfl
@[simp] theorem take_faults (s : State) (k : Packet) : (s.take k).faults = s.faults := rfl
@[simp] theorem take_ledger (s : State) (k : Packet) : (s.take k).ledger = s.ledger := rfl
@[simp] theorem take_sec (s : State) (k : Packet) : (s.take k).sec = s.sec := rfl
@[simp] theorem take_cables (s : State) (k : Packet) : (s.take k).cables = s.cables := rfl
@[simp] theorem take_twb (s : State) (k : Packet) : (s.take k).twb = s.twb := rfl
@[simp] theorem take_tap (s : State) (k : Packet) : (s.take k).tap = s.tap := rfl
@[simp] theorem take_bscan (s : State) (k : Packet) : (s.take k).bscan = s.bscan := rfl
@[simp] theorem take_slotId (s : State) (k : Packet) : (s.take k).slotId = s.slotId := rfl
@[simp] theorem take_outq (s : State) (k : Packet) : (s.take k).outq = s.outq := rfl
@[simp] theorem take_flights (s : State) (k : Packet) : (s.take k).flights = s.flights := rfl
@[simp] theorem take_reports (s : State) (k : Packet) : (s.take k).reports = s.reports := rfl
@[simp] theorem take_summaries (s : State) (k : Packet) : (s.take k).summaries = s.summaries := rfl
@[simp] theorem take_calls (s : State) (k : Packet) : (s.take k).calls = s.calls := rfl
@[simp] theorem take_freeCtr (s : State) (k : Packet) : (s.take k).freeCtr = s.freeCtr := rfl
@[simp] theorem take_pending (s : State) (k : Packet) : (s.take k).pending = s.pending := rfl

@[simp] theorem putSite_regs (s : State) (x : Site) : (s.putSite x).regs = s.regs := rfl
@[simp] theorem putSite_power (s : State) (x : Site) : (s.putSite x).power = s.power := rfl
@[simp] theorem putSite_clock (s : State) (x : Site) : (s.putSite x).clock = s.clock := rfl
@[simp] theorem putSite_parishes (s : State) (x : Site) : (s.putSite x).parishes = s.parishes := rfl
@[simp] theorem putSite_deadR (s : State) (x : Site) : (s.putSite x).deadR = s.deadR := rfl
@[simp] theorem putSite_linksDown (s : State) (x : Site) : (s.putSite x).linksDown = s.linksDown := rfl
@[simp] theorem putSite_steered (s : State) (x : Site) : (s.putSite x).steered = s.steered := rfl
@[simp] theorem putSite_linkCorr (s : State) (x : Site) : (s.putSite x).linkCorr = s.linkCorr := rfl
@[simp] theorem putSite_linkUnc (s : State) (x : Site) : (s.putSite x).linkUnc = s.linkUnc := rfl
@[simp] theorem putSite_pulses (s : State) (x : Site) : (s.putSite x).pulses = s.pulses := rfl
@[simp] theorem putSite_stcs (s : State) (x : Site) : (s.putSite x).stcs = s.stcs := rfl
@[simp] theorem putSite_gates (s : State) (x : Site) : (s.putSite x).gates = s.gates := rfl
@[simp] theorem putSite_stewards (s : State) (x : Site) : (s.putSite x).stewards = s.stewards := rfl
@[simp] theorem putSite_shadows (s : State) (x : Site) : (s.putSite x).shadows = s.shadows := rfl
@[simp] theorem putSite_shadowNum (s : State) (x : Site) : (s.putSite x).shadowNum = s.shadowNum := rfl
@[simp] theorem putSite_shadowStcs (s : State) (x : Site) : (s.putSite x).shadowStcs = s.shadowStcs := rfl
@[simp] theorem putSite_toIsolate (s : State) (x : Site) : (s.putSite x).toIsolate = s.toIsolate := rfl
@[simp] theorem putSite_shadowFaults (s : State) (x : Site) : (s.putSite x).shadowFaults = s.shadowFaults := rfl
@[simp] theorem putSite_shadowFlt (s : State) (x : Site) : (s.putSite x).shadowFlt = s.shadowFlt := rfl
@[simp] theorem putSite_holdings (s : State) (x : Site) : (s.putSite x).holdings = s.holdings := rfl
@[simp] theorem putSite_faults (s : State) (x : Site) : (s.putSite x).faults = s.faults := rfl
@[simp] theorem putSite_ledger (s : State) (x : Site) : (s.putSite x).ledger = s.ledger := rfl
@[simp] theorem putSite_sec (s : State) (x : Site) : (s.putSite x).sec = s.sec := rfl
@[simp] theorem putSite_cables (s : State) (x : Site) : (s.putSite x).cables = s.cables := rfl
@[simp] theorem putSite_twb (s : State) (x : Site) : (s.putSite x).twb = s.twb := rfl
@[simp] theorem putSite_tap (s : State) (x : Site) : (s.putSite x).tap = s.tap := rfl
@[simp] theorem putSite_bscan (s : State) (x : Site) : (s.putSite x).bscan = s.bscan := rfl
@[simp] theorem putSite_slotId (s : State) (x : Site) : (s.putSite x).slotId = s.slotId := rfl
@[simp] theorem putSite_flights (s : State) (x : Site) : (s.putSite x).flights = s.flights := rfl
@[simp] theorem putSite_inbox (s : State) (x : Site) : (s.putSite x).inbox = s.inbox := rfl
@[simp] theorem putSite_summaries (s : State) (x : Site) : (s.putSite x).summaries = s.summaries := rfl
@[simp] theorem putSite_calls (s : State) (x : Site) : (s.putSite x).calls = s.calls := rfl
@[simp] theorem putSite_pending (s : State) (x : Site) : (s.putSite x).pending = s.pending := rfl

@[simp] theorem onCroft_regs (s : State) (q : Nat) (f : Site → Site) : (s.onCroft q f).regs = s.regs := rfl
@[simp] theorem onCroft_power (s : State) (q : Nat) (f : Site → Site) : (s.onCroft q f).power = s.power := rfl
@[simp] theorem onCroft_clock (s : State) (q : Nat) (f : Site → Site) : (s.onCroft q f).clock = s.clock := rfl
@[simp] theorem onCroft_parishes (s : State) (q : Nat) (f : Site → Site) : (s.onCroft q f).parishes = s.parishes := rfl
@[simp] theorem onCroft_deadR (s : State) (q : Nat) (f : Site → Site) : (s.onCroft q f).deadR = s.deadR := rfl
@[simp] theorem onCroft_linksDown (s : State) (q : Nat) (f : Site → Site) : (s.onCroft q f).linksDown = s.linksDown := rfl
@[simp] theorem onCroft_steered (s : State) (q : Nat) (f : Site → Site) : (s.onCroft q f).steered = s.steered := rfl
@[simp] theorem onCroft_linkCorr (s : State) (q : Nat) (f : Site → Site) : (s.onCroft q f).linkCorr = s.linkCorr := rfl
@[simp] theorem onCroft_linkUnc (s : State) (q : Nat) (f : Site → Site) : (s.onCroft q f).linkUnc = s.linkUnc := rfl
@[simp] theorem onCroft_pulses (s : State) (q : Nat) (f : Site → Site) : (s.onCroft q f).pulses = s.pulses := rfl
@[simp] theorem onCroft_stcs (s : State) (q : Nat) (f : Site → Site) : (s.onCroft q f).stcs = s.stcs := rfl
@[simp] theorem onCroft_gates (s : State) (q : Nat) (f : Site → Site) : (s.onCroft q f).gates = s.gates := rfl
@[simp] theorem onCroft_stewards (s : State) (q : Nat) (f : Site → Site) : (s.onCroft q f).stewards = s.stewards := rfl
@[simp] theorem onCroft_shadows (s : State) (q : Nat) (f : Site → Site) : (s.onCroft q f).shadows = s.shadows := rfl
@[simp] theorem onCroft_shadowNum (s : State) (q : Nat) (f : Site → Site) : (s.onCroft q f).shadowNum = s.shadowNum := rfl
@[simp] theorem onCroft_shadowStcs (s : State) (q : Nat) (f : Site → Site) : (s.onCroft q f).shadowStcs = s.shadowStcs := rfl
@[simp] theorem onCroft_toIsolate (s : State) (q : Nat) (f : Site → Site) : (s.onCroft q f).toIsolate = s.toIsolate := rfl
@[simp] theorem onCroft_shadowFaults (s : State) (q : Nat) (f : Site → Site) : (s.onCroft q f).shadowFaults = s.shadowFaults := rfl
@[simp] theorem onCroft_shadowFlt (s : State) (q : Nat) (f : Site → Site) : (s.onCroft q f).shadowFlt = s.shadowFlt := rfl
@[simp] theorem onCroft_holdings (s : State) (q : Nat) (f : Site → Site) : (s.onCroft q f).holdings = s.holdings := rfl
@[simp] theorem onCroft_faults (s : State) (q : Nat) (f : Site → Site) : (s.onCroft q f).faults = s.faults := rfl
@[simp] theorem onCroft_ledger (s : State) (q : Nat) (f : Site → Site) : (s.onCroft q f).ledger = s.ledger := rfl
@[simp] theorem onCroft_sec (s : State) (q : Nat) (f : Site → Site) : (s.onCroft q f).sec = s.sec := rfl
@[simp] theorem onCroft_cables (s : State) (q : Nat) (f : Site → Site) : (s.onCroft q f).cables = s.cables := rfl
@[simp] theorem onCroft_twb (s : State) (q : Nat) (f : Site → Site) : (s.onCroft q f).twb = s.twb := rfl
@[simp] theorem onCroft_tap (s : State) (q : Nat) (f : Site → Site) : (s.onCroft q f).tap = s.tap := rfl
@[simp] theorem onCroft_bscan (s : State) (q : Nat) (f : Site → Site) : (s.onCroft q f).bscan = s.bscan := rfl
@[simp] theorem onCroft_slotId (s : State) (q : Nat) (f : Site → Site) : (s.onCroft q f).slotId = s.slotId := rfl
@[simp] theorem onCroft_flights (s : State) (q : Nat) (f : Site → Site) : (s.onCroft q f).flights = s.flights := rfl
@[simp] theorem onCroft_inbox (s : State) (q : Nat) (f : Site → Site) : (s.onCroft q f).inbox = s.inbox := rfl
@[simp] theorem onCroft_summaries (s : State) (q : Nat) (f : Site → Site) : (s.onCroft q f).summaries = s.summaries := rfl
@[simp] theorem onCroft_calls (s : State) (q : Nat) (f : Site → Site) : (s.onCroft q f).calls = s.calls := rfl
@[simp] theorem onCroft_pending (s : State) (q : Nat) (f : Site → Site) : (s.onCroft q f).pending = s.pending := rfl

/-! ### Units after an update -/

theorem croft_setCroft (s : State) (q j : Nat) (c : Croft) :
    (s.setCroft q c).croft j = if j = q then c else s.croft j := Tab.get_set _ _ _ _ _
@[simp] theorem croft_setCroft_same (s : State) (q : Nat) (c : Croft) : (s.setCroft q c).croft q = c := Tab.get_set_same _ _ _ _
theorem croft_setCroft_ne (s : State) {q j : Nat} (c : Croft) (h : j ≠ q) : (s.setCroft q c).croft j = s.croft j :=
  Tab.get_set_ne _ _ _ h
@[simp] theorem parish_setCroft (s : State) (q j : Nat) (c : Croft) : (s.setCroft q c).parish j = s.parish j := rfl
@[simp] theorem stc_setCroft (s : State) (q j : Nat) (c : Croft) : (s.setCroft q c).stc j = s.stc j := rfl
@[simp] theorem gate_setCroft (s : State) (q j : Nat) (c : Croft) : (s.setCroft q c).gate j = s.gate j := rfl
@[simp] theorem steward_setCroft (s : State) (q j : Nat) (c : Croft) : (s.setCroft q c).steward j = s.steward j := rfl
@[simp] theorem holding_setCroft (s : State) (q j : Nat) (c : Croft) : (s.setCroft q c).holding j = s.holding j := rfl
@[simp] theorem reg_setCroft (s : State) (q o : Nat) (c : Croft) : (s.setCroft q c).reg o = s.reg o := rfl

theorem parish_setParish (s : State) (q j : Nat) (c : Parish) :
    (s.setParish q c).parish j = if j = q then c else s.parish j := Tab.get_set _ _ _ _ _
@[simp] theorem parish_setParish_same (s : State) (q : Nat) (c : Parish) : (s.setParish q c).parish q = c := Tab.get_set_same _ _ _ _
theorem parish_setParish_ne (s : State) {q j : Nat} (c : Parish) (h : j ≠ q) : (s.setParish q c).parish j = s.parish j :=
  Tab.get_set_ne _ _ _ h
@[simp] theorem croft_setParish (s : State) (q j : Nat) (c : Parish) : (s.setParish q c).croft j = s.croft j := rfl
@[simp] theorem stc_setParish (s : State) (q j : Nat) (c : Parish) : (s.setParish q c).stc j = s.stc j := rfl
@[simp] theorem gate_setParish (s : State) (q j : Nat) (c : Parish) : (s.setParish q c).gate j = s.gate j := rfl
@[simp] theorem steward_setParish (s : State) (q j : Nat) (c : Parish) : (s.setParish q c).steward j = s.steward j := rfl
@[simp] theorem holding_setParish (s : State) (q j : Nat) (c : Parish) : (s.setParish q c).holding j = s.holding j := rfl
@[simp] theorem reg_setParish (s : State) (q o : Nat) (c : Parish) : (s.setParish q c).reg o = s.reg o := rfl

theorem stc_setStc (s : State) (q j : Nat) (c : Stc) :
    (s.setStc q c).stc j = if j = q then c else s.stc j := by
  simp only [stc, setStc_stcs]; exact Tab.get_set _ _ _ _ _
@[simp] theorem stc_setStc_same (s : State) (q : Nat) (c : Stc) : (s.setStc q c).stc q = c := by simp [stc_setStc]
theorem stc_setStc_ne (s : State) {q j : Nat} (c : Stc) (h : j ≠ q) : (s.setStc q c).stc j = s.stc j := by
  simp [stc_setStc, h]
@[simp] theorem croft_setStc (s : State) (q j : Nat) (c : Stc) : (s.setStc q c).croft j = s.croft j := by simp only [croft, setStc_crofts]
@[simp] theorem parish_setStc (s : State) (q j : Nat) (c : Stc) : (s.setStc q c).parish j = s.parish j := by simp only [parish, setStc_parishes]
@[simp] theorem gate_setStc (s : State) (q j : Nat) (c : Stc) : (s.setStc q c).gate j = s.gate j := by simp only [gate, setStc_gates]
@[simp] theorem steward_setStc (s : State) (q j : Nat) (c : Stc) : (s.setStc q c).steward j = s.steward j := by simp only [steward, setStc_stewards]
@[simp] theorem holding_setStc (s : State) (q j : Nat) (c : Stc) : (s.setStc q c).holding j = s.holding j := by simp only [holding, setStc_holdings]
@[simp] theorem reg_setStc (s : State) (q o : Nat) (c : Stc) : (s.setStc q c).reg o = s.reg o := by simp only [reg, setStc_regs]

theorem gate_setGate (s : State) (q j : Nat) (c : Gate) :
    (s.setGate q c).gate j = if j = q then c else s.gate j := Tab.get_set _ _ _ _ _
@[simp] theorem gate_setGate_same (s : State) (q : Nat) (c : Gate) : (s.setGate q c).gate q = c := Tab.get_set_same _ _ _ _
theorem gate_setGate_ne (s : State) {q j : Nat} (c : Gate) (h : j ≠ q) : (s.setGate q c).gate j = s.gate j :=
  Tab.get_set_ne _ _ _ h
@[simp] theorem croft_setGate (s : State) (q j : Nat) (c : Gate) : (s.setGate q c).croft j = s.croft j := rfl
@[simp] theorem parish_setGate (s : State) (q j : Nat) (c : Gate) : (s.setGate q c).parish j = s.parish j := rfl
@[simp] theorem stc_setGate (s : State) (q j : Nat) (c : Gate) : (s.setGate q c).stc j = s.stc j := rfl
@[simp] theorem steward_setGate (s : State) (q j : Nat) (c : Gate) : (s.setGate q c).steward j = s.steward j := rfl
@[simp] theorem holding_setGate (s : State) (q j : Nat) (c : Gate) : (s.setGate q c).holding j = s.holding j := rfl
@[simp] theorem reg_setGate (s : State) (q o : Nat) (c : Gate) : (s.setGate q c).reg o = s.reg o := rfl

theorem steward_setSteward (s : State) (q j : Nat) (c : Steward) :
    (s.setSteward q c).steward j = if j = q then c else s.steward j := Tab.get_set _ _ _ _ _
@[simp] theorem steward_setSteward_same (s : State) (q : Nat) (c : Steward) : (s.setSteward q c).steward q = c := Tab.get_set_same _ _ _ _
theorem steward_setSteward_ne (s : State) {q j : Nat} (c : Steward) (h : j ≠ q) : (s.setSteward q c).steward j = s.steward j :=
  Tab.get_set_ne _ _ _ h
@[simp] theorem croft_setSteward (s : State) (q j : Nat) (c : Steward) : (s.setSteward q c).croft j = s.croft j := rfl
@[simp] theorem parish_setSteward (s : State) (q j : Nat) (c : Steward) : (s.setSteward q c).parish j = s.parish j := rfl
@[simp] theorem stc_setSteward (s : State) (q j : Nat) (c : Steward) : (s.setSteward q c).stc j = s.stc j := rfl
@[simp] theorem gate_setSteward (s : State) (q j : Nat) (c : Steward) : (s.setSteward q c).gate j = s.gate j := rfl
@[simp] theorem holding_setSteward (s : State) (q j : Nat) (c : Steward) : (s.setSteward q c).holding j = s.holding j := rfl
@[simp] theorem reg_setSteward (s : State) (q o : Nat) (c : Steward) : (s.setSteward q c).reg o = s.reg o := rfl

theorem holding_setHolding (s : State) (q j : Nat) (c : Holding) :
    (s.setHolding q c).holding j = if j = q then c else s.holding j := Tab.get_set _ _ _ _ _
@[simp] theorem holding_setHolding_same (s : State) (q : Nat) (c : Holding) : (s.setHolding q c).holding q = c := Tab.get_set_same _ _ _ _
theorem holding_setHolding_ne (s : State) {q j : Nat} (c : Holding) (h : j ≠ q) : (s.setHolding q c).holding j = s.holding j :=
  Tab.get_set_ne _ _ _ h
@[simp] theorem croft_setHolding (s : State) (q j : Nat) (c : Holding) : (s.setHolding q c).croft j = s.croft j := rfl
@[simp] theorem parish_setHolding (s : State) (q j : Nat) (c : Holding) : (s.setHolding q c).parish j = s.parish j := rfl
@[simp] theorem stc_setHolding (s : State) (q j : Nat) (c : Holding) : (s.setHolding q c).stc j = s.stc j := rfl
@[simp] theorem gate_setHolding (s : State) (q j : Nat) (c : Holding) : (s.setHolding q c).gate j = s.gate j := rfl
@[simp] theorem steward_setHolding (s : State) (q j : Nat) (c : Holding) : (s.setHolding q c).steward j = s.steward j := rfl
@[simp] theorem reg_setHolding (s : State) (q o : Nat) (c : Holding) : (s.setHolding q c).reg o = s.reg o := rfl

theorem reg_setReg (s : State) (q o : Nat) (v : W64) : (s.setReg q v).reg o = if o = q then v else s.reg o :=
  Tab.get_set _ _ _ _ _
@[simp] theorem reg_setReg_same (s : State) (q : Nat) (v : W64) : (s.setReg q v).reg q = v := Tab.get_set_same _ _ _ _
theorem reg_setReg_ne (s : State) {q o : Nat} (v : W64) (h : o ≠ q) : (s.setReg q v).reg o = s.reg o :=
  Tab.get_set_ne _ _ _ h

@[simp] theorem croft_setReg (s : State) (q j : Nat) (v : W64) : (s.setReg q v).croft j = s.croft j := rfl
@[simp] theorem croft_raise (s : State) (code : Nat) (loc : W32) (syn : W64) (opc : W16) (cls : Option Bool)
    (hold : Option Nat) (j : Nat) : (s.raise code loc syn opc cls hold).croft j = s.croft j := rfl
@[simp] theorem croft_emit (s : State) (ks : List Packet) (j : Nat) : (s.emit ks).croft j = s.croft j := rfl
@[simp] theorem croft_take (s : State) (k : Packet) (j : Nat) : (s.take k).croft j = s.croft j := rfl
@[simp] theorem parish_setReg (s : State) (q j : Nat) (v : W64) : (s.setReg q v).parish j = s.parish j := rfl
@[simp] theorem parish_raise (s : State) (code : Nat) (loc : W32) (syn : W64) (opc : W16) (cls : Option Bool)
    (hold : Option Nat) (j : Nat) : (s.raise code loc syn opc cls hold).parish j = s.parish j := rfl
@[simp] theorem parish_emit (s : State) (ks : List Packet) (j : Nat) : (s.emit ks).parish j = s.parish j := rfl
@[simp] theorem parish_take (s : State) (k : Packet) (j : Nat) : (s.take k).parish j = s.parish j := rfl
@[simp] theorem stc_setReg (s : State) (q j : Nat) (v : W64) : (s.setReg q v).stc j = s.stc j := rfl
@[simp] theorem stc_raise (s : State) (code : Nat) (loc : W32) (syn : W64) (opc : W16) (cls : Option Bool)
    (hold : Option Nat) (j : Nat) : (s.raise code loc syn opc cls hold).stc j = s.stc j := rfl
@[simp] theorem stc_emit (s : State) (ks : List Packet) (j : Nat) : (s.emit ks).stc j = s.stc j := rfl
@[simp] theorem stc_take (s : State) (k : Packet) (j : Nat) : (s.take k).stc j = s.stc j := rfl
@[simp] theorem gate_setReg (s : State) (q j : Nat) (v : W64) : (s.setReg q v).gate j = s.gate j := rfl
@[simp] theorem gate_raise (s : State) (code : Nat) (loc : W32) (syn : W64) (opc : W16) (cls : Option Bool)
    (hold : Option Nat) (j : Nat) : (s.raise code loc syn opc cls hold).gate j = s.gate j := rfl
@[simp] theorem gate_emit (s : State) (ks : List Packet) (j : Nat) : (s.emit ks).gate j = s.gate j := rfl
@[simp] theorem gate_take (s : State) (k : Packet) (j : Nat) : (s.take k).gate j = s.gate j := rfl
@[simp] theorem steward_setReg (s : State) (q j : Nat) (v : W64) : (s.setReg q v).steward j = s.steward j := rfl
@[simp] theorem steward_raise (s : State) (code : Nat) (loc : W32) (syn : W64) (opc : W16) (cls : Option Bool)
    (hold : Option Nat) (j : Nat) : (s.raise code loc syn opc cls hold).steward j = s.steward j := rfl
@[simp] theorem steward_emit (s : State) (ks : List Packet) (j : Nat) : (s.emit ks).steward j = s.steward j := rfl
@[simp] theorem steward_take (s : State) (k : Packet) (j : Nat) : (s.take k).steward j = s.steward j := rfl
@[simp] theorem holding_setReg (s : State) (q j : Nat) (v : W64) : (s.setReg q v).holding j = s.holding j := rfl
@[simp] theorem holding_raise (s : State) (code : Nat) (loc : W32) (syn : W64) (opc : W16) (cls : Option Bool)
    (hold : Option Nat) (j : Nat) : (s.raise code loc syn opc cls hold).holding j = s.holding j := rfl
@[simp] theorem holding_emit (s : State) (ks : List Packet) (j : Nat) : (s.emit ks).holding j = s.holding j := rfl
@[simp] theorem holding_take (s : State) (k : Packet) (j : Nat) : (s.take k).holding j = s.holding j := rfl

@[simp] theorem croft_shadow (s : State) (d : Change) (j : Nat) : (s.shadow d).croft j = s.croft j := by simp only [croft, shadow_crofts]
@[simp] theorem parish_shadow (s : State) (d : Change) (j : Nat) : (s.shadow d).parish j = s.parish j := by simp only [parish, shadow_parishes]
@[simp] theorem gate_shadow (s : State) (d : Change) (j : Nat) : (s.shadow d).gate j = s.gate j := by simp only [gate, shadow_gates]
@[simp] theorem steward_shadow (s : State) (d : Change) (j : Nat) : (s.shadow d).steward j = s.steward j := by simp only [steward, shadow_stewards]
@[simp] theorem holding_shadow (s : State) (d : Change) (j : Nat) : (s.shadow d).holding j = s.holding j := by simp only [holding, shadow_holdings]
@[simp] theorem reg_shadow (s : State) (d : Change) (j : Nat) : (s.shadow d).reg j = s.reg j := by simp only [reg, shadow_regs]
@[simp] theorem stc_shadow (s : State) (d : Change) (j : Nat) : (s.shadow d).stc j = s.stc j := by simp only [stc, shadow_stcs]

@[simp] theorem croft_setFaults (s : State) (f : FaultCtl) (j : Nat) : (s.setFaults f).croft j = s.croft j := by simp only [croft, setFaults_crofts]
@[simp] theorem parish_setFaults (s : State) (f : FaultCtl) (j : Nat) : (s.setFaults f).parish j = s.parish j := by simp only [parish, setFaults_parishes]
@[simp] theorem gate_setFaults (s : State) (f : FaultCtl) (j : Nat) : (s.setFaults f).gate j = s.gate j := by simp only [gate, setFaults_gates]
@[simp] theorem steward_setFaults (s : State) (f : FaultCtl) (j : Nat) : (s.setFaults f).steward j = s.steward j := by simp only [steward, setFaults_stewards]
@[simp] theorem holding_setFaults (s : State) (f : FaultCtl) (j : Nat) : (s.setFaults f).holding j = s.holding j := by simp only [holding, setFaults_holdings]
@[simp] theorem reg_setFaults (s : State) (f : FaultCtl) (j : Nat) : (s.setFaults f).reg j = s.reg j := by simp only [reg, setFaults_regs]
@[simp] theorem stc_setFaults (s : State) (f : FaultCtl) (j : Nat) : (s.setFaults f).stc j = s.stc j := by simp only [stc, setFaults_stcs]

@[simp] theorem croft_setFlt (s : State) (o : Nat) (v : W64) (j : Nat) : (s.setFlt o v).croft j = s.croft j := by simp only [croft, setFlt_crofts]
@[simp] theorem parish_setFlt (s : State) (o : Nat) (v : W64) (j : Nat) : (s.setFlt o v).parish j = s.parish j := by simp only [parish, setFlt_parishes]
@[simp] theorem gate_setFlt (s : State) (o : Nat) (v : W64) (j : Nat) : (s.setFlt o v).gate j = s.gate j := by simp only [gate, setFlt_gates]
@[simp] theorem steward_setFlt (s : State) (o : Nat) (v : W64) (j : Nat) : (s.setFlt o v).steward j = s.steward j := by simp only [steward, setFlt_stewards]
@[simp] theorem holding_setFlt (s : State) (o : Nat) (v : W64) (j : Nat) : (s.setFlt o v).holding j = s.holding j := by simp only [holding, setFlt_holdings]
@[simp] theorem stc_setFlt (s : State) (o : Nat) (v : W64) (j : Nat) : (s.setFlt o v).stc j = s.stc j := by simp only [stc, setFlt_stcs]
theorem reg_setFlt (s : State) (o j : Nat) (v : W64) : (s.setFlt o v).reg j = if j = o then v else s.reg j := by
  simp only [reg, setFlt_regs]; exact reg_setReg s o j v
@[simp] theorem reg_setFlt_same (s : State) (o : Nat) (v : W64) : (s.setFlt o v).reg o = v := by simp [reg_setFlt]
theorem reg_setFlt_ne (s : State) {o j : Nat} (v : W64) (h : j ≠ o) : (s.setFlt o v).reg j = s.reg j := by simp [reg_setFlt, h]

/-! ### A command of one croft -/

/-- The croft of a command is as its function leaves it; every other croft stands. -/
theorem croft_onCroft (s : State) (q j : Nat) (f : Site → Site) :
    (s.onCroft q f).croft j = if j = q then (f (s.site q)).c else s.croft j := Tab.get_set _ _ _ _ _
@[simp] theorem croft_onCroft_same (s : State) (q : Nat) (f : Site → Site) :
    (s.onCroft q f).croft q = (f (s.site q)).c := Tab.get_set_same _ _ _ _
theorem croft_onCroft_ne (s : State) {q j : Nat} (f : Site → Site) (h : j ≠ q) : (s.onCroft q f).croft j = s.croft j :=
  Tab.get_set_ne _ _ _ h
@[simp] theorem onCroft_outq (s : State) (q : Nat) (f : Site → Site) :
    (s.onCroft q f).outq = s.outq ++ (f (s.site q)).out ++
      ((f (s.site q)).raised.filter s.mayRaise).flatMap s.reportPackets := rfl
@[simp] theorem onCroft_reports (s : State) (q : Nat) (f : Site → Site) :
    (s.onCroft q f).reports = s.reports ++ (f (s.site q)).raised.filter s.mayRaise := rfl
@[simp] theorem onCroft_freeCtr (s : State) (q : Nat) (f : Site → Site) :
    (s.onCroft q f).freeCtr = (f (s.site q)).free := rfl

@[simp] theorem parish_onCroft (s : State) (q j : Nat) (f : Site → Site) : (s.onCroft q f).parish j = s.parish j := rfl
@[simp] theorem stc_onCroft (s : State) (q j : Nat) (f : Site → Site) : (s.onCroft q f).stc j = s.stc j := rfl
@[simp] theorem gate_onCroft (s : State) (q j : Nat) (f : Site → Site) : (s.onCroft q f).gate j = s.gate j := rfl
@[simp] theorem steward_onCroft (s : State) (q j : Nat) (f : Site → Site) : (s.onCroft q f).steward j = s.steward j := rfl
@[simp] theorem holding_onCroft (s : State) (q j : Nat) (f : Site → Site) : (s.onCroft q f).holding j = s.holding j := rfl
@[simp] theorem reg_onCroft (s : State) (q o : Nat) (f : Site → Site) : (s.onCroft q f).reg o = s.reg o := rfl
@[simp] theorem owner_onCroft (s : State) (q p : Nat) (f : Site → Site) : (s.onCroft q f).owner p = s.owner p := rfl
@[simp] theorem site_c (s : State) (q : Nat) : (s.site q).c = s.croft q := rfl
@[simp] theorem site_out (s : State) (q : Nat) : (s.site q).out = [] := rfl
@[simp] theorem site_raised (s : State) (q : Nat) : (s.site q).raised = [] := rfl
@[simp] theorem site_free (s : State) (q : Nat) : (s.site q).free = s.freeCtr := rfl
@[simp] theorem site_q (s : State) (q : Nat) : (s.site q).q = q := rfl

end State

namespace Site

/-! ### A croft's fields under each update of it -/

@[simp] theorem setReg_mem (x : Site) (o : Nat) (v : W64) : (x.setReg o v).c.mem = x.c.mem := rfl
@[simp] theorem setReg_ecc (x : Site) (o : Nat) (v : W64) : (x.setReg o v).c.ecc = x.c.ecc := rfl
@[simp] theorem setReg_repairs (x : Site) (o : Nat) (v : W64) : (x.setReg o v).c.repairs = x.c.repairs := rfl
@[simp] theorem setReg_repairing (x : Site) (o : Nat) (v : W64) : (x.setReg o v).c.repairing = x.c.repairing := rfl
@[simp] theorem setReg_seq (x : Site) (o : Nat) (v : W64) : (x.setReg o v).c.seq = x.c.seq := rfl
@[simp] theorem setReg_tokq (x : Site) (o : Nat) (v : W64) : (x.setReg o v).c.tokq = x.c.tokq := rfl
@[simp] theorem setReg_hreg (x : Site) (o : Nat) (v : W64) : (x.setReg o v).c.hreg = x.c.hreg := rfl
@[simp] theorem setReg_arrayQ (x : Site) (o : Nat) (v : W64) : (x.setReg o v).c.arrayQ = x.c.arrayQ := rfl
@[simp] theorem setReg_drainQ (x : Site) (o : Nat) (v : W64) : (x.setReg o v).c.drainQ = x.c.drainQ := rfl
@[simp] theorem setReg_vecQ (x : Site) (o : Nat) (v : W64) : (x.setReg o v).c.vecQ = x.c.vecQ := rfl
@[simp] theorem setReg_gathQ (x : Site) (o : Nat) (v : W64) : (x.setReg o v).c.gathQ = x.c.gathQ := rfl
@[simp] theorem setReg_sbuf0 (x : Site) (o : Nat) (v : W64) : (x.setReg o v).c.sbuf0 = x.c.sbuf0 := rfl
@[simp] theorem setReg_sbuf1 (x : Site) (o : Nat) (v : W64) : (x.setReg o v).c.sbuf1 = x.c.sbuf1 := rfl
@[simp] theorem setReg_loading (x : Site) (o : Nat) (v : W64) : (x.setReg o v).c.loading = x.c.loading := rfl
@[simp] theorem setReg_streaming (x : Site) (o : Nat) (v : W64) : (x.setReg o v).c.streaming = x.c.streaming := rfl
@[simp] theorem setReg_draining (x : Site) (o : Nat) (v : W64) : (x.setReg o v).c.draining = x.c.draining := rfl
@[simp] theorem setReg_vector (x : Site) (o : Nat) (v : W64) : (x.setReg o v).c.vector = x.c.vector := rfl
@[simp] theorem setReg_feeds (x : Site) (o : Nat) (v : W64) : (x.setReg o v).c.feeds = x.c.feeds := rfl
@[simp] theorem setReg_gathDone (x : Site) (o : Nat) (v : W64) : (x.setReg o v).c.gathDone = x.c.gathDone := rfl
@[simp] theorem setReg_counts (x : Site) (o : Nat) (v : W64) : (x.setReg o v).c.counts = x.c.counts := rfl
@[simp] theorem setReg_captured (x : Site) (o : Nat) (v : W64) : (x.setReg o v).c.captured = x.c.captured := rfl
@[simp] theorem setReg_pred (x : Site) (o : Nat) (v : W64) : (x.setReg o v).c.pred = x.c.pred := rfl
@[simp] theorem setReg_predNext (x : Site) (o : Nat) (v : W64) : (x.setReg o v).c.predNext = x.c.predNext := rfl
@[simp] theorem setReg_chans (x : Site) (o : Nat) (v : W64) : (x.setReg o v).c.chans = x.c.chans := rfl
@[simp] theorem setReg_accepted (x : Site) (o : Nat) (v : W64) : (x.setReg o v).c.accepted = x.c.accepted := rfl
@[simp] theorem setReg_stalled (x : Site) (o : Nat) (v : W64) : (x.setReg o v).c.stalled = x.c.stalled := rfl
@[simp] theorem setReg_corrLog (x : Site) (o : Nat) (v : W64) : (x.setReg o v).c.corrLog = x.c.corrLog := rfl
@[simp] theorem setReg_faultFence (x : Site) (o : Nat) (v : W64) : (x.setReg o v).c.faultFence = x.c.faultFence := rfl
@[simp] theorem setReg_resetting (x : Site) (o : Nat) (v : W64) : (x.setReg o v).c.resetting = x.c.resetting := rfl
@[simp] theorem setReg_resetSince (x : Site) (o : Nat) (v : W64) : (x.setReg o v).c.resetSince = x.c.resetSince := rfl
@[simp] theorem setReg_stepWritten (x : Site) (o : Nat) (v : W64) : (x.setReg o v).c.stepWritten = x.c.stepWritten := rfl
@[simp] theorem setReg_injectChk (x : Site) (o : Nat) (v : W64) : (x.setReg o v).c.injectChk = x.c.injectChk := rfl
@[simp] theorem setReg_injectRes (x : Site) (o : Nat) (v : W64) : (x.setReg o v).c.injectRes = x.c.injectRes := rfl
@[simp] theorem setReg_posts (x : Site) (o : Nat) (v : W64) : (x.setReg o v).c.posts = x.c.posts := rfl
@[simp] theorem setReg_vecProg (x : Site) (o : Nat) (v : W64) : (x.setReg o v).c.vecProg = x.c.vecProg := rfl
@[simp] theorem setReg_lastId (x : Site) (o : Nat) (v : W64) : (x.setReg o v).c.lastId = x.c.lastId := rfl
@[simp] theorem setReg_sowMask (x : Site) (o : Nat) (v : W64) : (x.setReg o v).c.sowMask = x.c.sowMask := rfl
@[simp] theorem setReg_sowMark (x : Site) (o : Nat) (v : W64) : (x.setReg o v).c.sowMark = x.c.sowMark := rfl
@[simp] theorem setReg_q_ (x : Site) (o : Nat) (v : W64) : (x.setReg o v).q = x.q := rfl
@[simp] theorem setReg_n_ (x : Site) (o : Nat) (v : W64) : (x.setReg o v).n = x.n := rfl
@[simp] theorem setReg_hold_ (x : Site) (o : Nat) (v : W64) : (x.setReg o v).hold = x.hold := rfl
@[simp] theorem setReg_cut_ (x : Site) (o : Nat) (v : W64) : (x.setReg o v).cut = x.cut := rfl
@[simp] theorem setReg_now_ (x : Site) (o : Nat) (v : W64) : (x.setReg o v).now = x.now := rfl
@[simp] theorem setReg_seed_ (x : Site) (o : Nat) (v : W64) : (x.setReg o v).seed = x.seed := rfl
@[simp] theorem setReg_free_ (x : Site) (o : Nat) (v : W64) : (x.setReg o v).free = x.free := rfl
@[simp] theorem setReg_out_ (x : Site) (o : Nat) (v : W64) : (x.setReg o v).out = x.out := rfl
@[simp] theorem setReg_raised_ (x : Site) (o : Nat) (v : W64) : (x.setReg o v).raised = x.raised := rfl

@[simp] theorem setField_mem (x : Site) (o hi lo v : Nat) : (x.setField o hi lo v).c.mem = x.c.mem := rfl
@[simp] theorem setField_ecc (x : Site) (o hi lo v : Nat) : (x.setField o hi lo v).c.ecc = x.c.ecc := rfl
@[simp] theorem setField_repairs (x : Site) (o hi lo v : Nat) : (x.setField o hi lo v).c.repairs = x.c.repairs := rfl
@[simp] theorem setField_repairing (x : Site) (o hi lo v : Nat) : (x.setField o hi lo v).c.repairing = x.c.repairing := rfl
@[simp] theorem setField_seq (x : Site) (o hi lo v : Nat) : (x.setField o hi lo v).c.seq = x.c.seq := rfl
@[simp] theorem setField_tokq (x : Site) (o hi lo v : Nat) : (x.setField o hi lo v).c.tokq = x.c.tokq := rfl
@[simp] theorem setField_hreg (x : Site) (o hi lo v : Nat) : (x.setField o hi lo v).c.hreg = x.c.hreg := rfl
@[simp] theorem setField_arrayQ (x : Site) (o hi lo v : Nat) : (x.setField o hi lo v).c.arrayQ = x.c.arrayQ := rfl
@[simp] theorem setField_drainQ (x : Site) (o hi lo v : Nat) : (x.setField o hi lo v).c.drainQ = x.c.drainQ := rfl
@[simp] theorem setField_vecQ (x : Site) (o hi lo v : Nat) : (x.setField o hi lo v).c.vecQ = x.c.vecQ := rfl
@[simp] theorem setField_gathQ (x : Site) (o hi lo v : Nat) : (x.setField o hi lo v).c.gathQ = x.c.gathQ := rfl
@[simp] theorem setField_sbuf0 (x : Site) (o hi lo v : Nat) : (x.setField o hi lo v).c.sbuf0 = x.c.sbuf0 := rfl
@[simp] theorem setField_sbuf1 (x : Site) (o hi lo v : Nat) : (x.setField o hi lo v).c.sbuf1 = x.c.sbuf1 := rfl
@[simp] theorem setField_loading (x : Site) (o hi lo v : Nat) : (x.setField o hi lo v).c.loading = x.c.loading := rfl
@[simp] theorem setField_streaming (x : Site) (o hi lo v : Nat) : (x.setField o hi lo v).c.streaming = x.c.streaming := rfl
@[simp] theorem setField_draining (x : Site) (o hi lo v : Nat) : (x.setField o hi lo v).c.draining = x.c.draining := rfl
@[simp] theorem setField_vector (x : Site) (o hi lo v : Nat) : (x.setField o hi lo v).c.vector = x.c.vector := rfl
@[simp] theorem setField_feeds (x : Site) (o hi lo v : Nat) : (x.setField o hi lo v).c.feeds = x.c.feeds := rfl
@[simp] theorem setField_gathDone (x : Site) (o hi lo v : Nat) : (x.setField o hi lo v).c.gathDone = x.c.gathDone := rfl
@[simp] theorem setField_counts (x : Site) (o hi lo v : Nat) : (x.setField o hi lo v).c.counts = x.c.counts := rfl
@[simp] theorem setField_captured (x : Site) (o hi lo v : Nat) : (x.setField o hi lo v).c.captured = x.c.captured := rfl
@[simp] theorem setField_pred (x : Site) (o hi lo v : Nat) : (x.setField o hi lo v).c.pred = x.c.pred := rfl
@[simp] theorem setField_predNext (x : Site) (o hi lo v : Nat) : (x.setField o hi lo v).c.predNext = x.c.predNext := rfl
@[simp] theorem setField_chans (x : Site) (o hi lo v : Nat) : (x.setField o hi lo v).c.chans = x.c.chans := rfl
@[simp] theorem setField_accepted (x : Site) (o hi lo v : Nat) : (x.setField o hi lo v).c.accepted = x.c.accepted := rfl
@[simp] theorem setField_stalled (x : Site) (o hi lo v : Nat) : (x.setField o hi lo v).c.stalled = x.c.stalled := rfl
@[simp] theorem setField_corrLog (x : Site) (o hi lo v : Nat) : (x.setField o hi lo v).c.corrLog = x.c.corrLog := rfl
@[simp] theorem setField_faultFence (x : Site) (o hi lo v : Nat) : (x.setField o hi lo v).c.faultFence = x.c.faultFence := rfl
@[simp] theorem setField_resetting (x : Site) (o hi lo v : Nat) : (x.setField o hi lo v).c.resetting = x.c.resetting := rfl
@[simp] theorem setField_resetSince (x : Site) (o hi lo v : Nat) : (x.setField o hi lo v).c.resetSince = x.c.resetSince := rfl
@[simp] theorem setField_stepWritten (x : Site) (o hi lo v : Nat) : (x.setField o hi lo v).c.stepWritten = x.c.stepWritten := rfl
@[simp] theorem setField_injectChk (x : Site) (o hi lo v : Nat) : (x.setField o hi lo v).c.injectChk = x.c.injectChk := rfl
@[simp] theorem setField_injectRes (x : Site) (o hi lo v : Nat) : (x.setField o hi lo v).c.injectRes = x.c.injectRes := rfl
@[simp] theorem setField_posts (x : Site) (o hi lo v : Nat) : (x.setField o hi lo v).c.posts = x.c.posts := rfl
@[simp] theorem setField_vecProg (x : Site) (o hi lo v : Nat) : (x.setField o hi lo v).c.vecProg = x.c.vecProg := rfl
@[simp] theorem setField_lastId (x : Site) (o hi lo v : Nat) : (x.setField o hi lo v).c.lastId = x.c.lastId := rfl
@[simp] theorem setField_sowMask (x : Site) (o hi lo v : Nat) : (x.setField o hi lo v).c.sowMask = x.c.sowMask := rfl
@[simp] theorem setField_sowMark (x : Site) (o hi lo v : Nat) : (x.setField o hi lo v).c.sowMark = x.c.sowMark := rfl
@[simp] theorem setField_q_ (x : Site) (o hi lo v : Nat) : (x.setField o hi lo v).q = x.q := rfl
@[simp] theorem setField_n_ (x : Site) (o hi lo v : Nat) : (x.setField o hi lo v).n = x.n := rfl
@[simp] theorem setField_hold_ (x : Site) (o hi lo v : Nat) : (x.setField o hi lo v).hold = x.hold := rfl
@[simp] theorem setField_cut_ (x : Site) (o hi lo v : Nat) : (x.setField o hi lo v).cut = x.cut := rfl
@[simp] theorem setField_now_ (x : Site) (o hi lo v : Nat) : (x.setField o hi lo v).now = x.now := rfl
@[simp] theorem setField_seed_ (x : Site) (o hi lo v : Nat) : (x.setField o hi lo v).seed = x.seed := rfl
@[simp] theorem setField_free_ (x : Site) (o hi lo v : Nat) : (x.setField o hi lo v).free = x.free := rfl
@[simp] theorem setField_out_ (x : Site) (o hi lo v : Nat) : (x.setField o hi lo v).out = x.out := rfl
@[simp] theorem setField_raised_ (x : Site) (o hi lo v : Nat) : (x.setField o hi lo v).raised = x.raised := rfl

@[simp] theorem count_mem (x : Site) (o v : Nat) : (x.count o v).c.mem = x.c.mem := rfl
@[simp] theorem count_ecc (x : Site) (o v : Nat) : (x.count o v).c.ecc = x.c.ecc := rfl
@[simp] theorem count_repairs (x : Site) (o v : Nat) : (x.count o v).c.repairs = x.c.repairs := rfl
@[simp] theorem count_repairing (x : Site) (o v : Nat) : (x.count o v).c.repairing = x.c.repairing := rfl
@[simp] theorem count_seq (x : Site) (o v : Nat) : (x.count o v).c.seq = x.c.seq := rfl
@[simp] theorem count_tokq (x : Site) (o v : Nat) : (x.count o v).c.tokq = x.c.tokq := rfl
@[simp] theorem count_hreg (x : Site) (o v : Nat) : (x.count o v).c.hreg = x.c.hreg := rfl
@[simp] theorem count_arrayQ (x : Site) (o v : Nat) : (x.count o v).c.arrayQ = x.c.arrayQ := rfl
@[simp] theorem count_drainQ (x : Site) (o v : Nat) : (x.count o v).c.drainQ = x.c.drainQ := rfl
@[simp] theorem count_vecQ (x : Site) (o v : Nat) : (x.count o v).c.vecQ = x.c.vecQ := rfl
@[simp] theorem count_gathQ (x : Site) (o v : Nat) : (x.count o v).c.gathQ = x.c.gathQ := rfl
@[simp] theorem count_sbuf0 (x : Site) (o v : Nat) : (x.count o v).c.sbuf0 = x.c.sbuf0 := rfl
@[simp] theorem count_sbuf1 (x : Site) (o v : Nat) : (x.count o v).c.sbuf1 = x.c.sbuf1 := rfl
@[simp] theorem count_loading (x : Site) (o v : Nat) : (x.count o v).c.loading = x.c.loading := rfl
@[simp] theorem count_streaming (x : Site) (o v : Nat) : (x.count o v).c.streaming = x.c.streaming := rfl
@[simp] theorem count_draining (x : Site) (o v : Nat) : (x.count o v).c.draining = x.c.draining := rfl
@[simp] theorem count_vector (x : Site) (o v : Nat) : (x.count o v).c.vector = x.c.vector := rfl
@[simp] theorem count_feeds (x : Site) (o v : Nat) : (x.count o v).c.feeds = x.c.feeds := rfl
@[simp] theorem count_gathDone (x : Site) (o v : Nat) : (x.count o v).c.gathDone = x.c.gathDone := rfl
@[simp] theorem count_counts (x : Site) (o v : Nat) : (x.count o v).c.counts = x.c.counts := rfl
@[simp] theorem count_captured (x : Site) (o v : Nat) : (x.count o v).c.captured = x.c.captured := rfl
@[simp] theorem count_pred (x : Site) (o v : Nat) : (x.count o v).c.pred = x.c.pred := rfl
@[simp] theorem count_predNext (x : Site) (o v : Nat) : (x.count o v).c.predNext = x.c.predNext := rfl
@[simp] theorem count_chans (x : Site) (o v : Nat) : (x.count o v).c.chans = x.c.chans := rfl
@[simp] theorem count_accepted (x : Site) (o v : Nat) : (x.count o v).c.accepted = x.c.accepted := rfl
@[simp] theorem count_stalled (x : Site) (o v : Nat) : (x.count o v).c.stalled = x.c.stalled := rfl
@[simp] theorem count_corrLog (x : Site) (o v : Nat) : (x.count o v).c.corrLog = x.c.corrLog := rfl
@[simp] theorem count_faultFence (x : Site) (o v : Nat) : (x.count o v).c.faultFence = x.c.faultFence := rfl
@[simp] theorem count_resetting (x : Site) (o v : Nat) : (x.count o v).c.resetting = x.c.resetting := rfl
@[simp] theorem count_resetSince (x : Site) (o v : Nat) : (x.count o v).c.resetSince = x.c.resetSince := rfl
@[simp] theorem count_stepWritten (x : Site) (o v : Nat) : (x.count o v).c.stepWritten = x.c.stepWritten := rfl
@[simp] theorem count_injectChk (x : Site) (o v : Nat) : (x.count o v).c.injectChk = x.c.injectChk := rfl
@[simp] theorem count_injectRes (x : Site) (o v : Nat) : (x.count o v).c.injectRes = x.c.injectRes := rfl
@[simp] theorem count_posts (x : Site) (o v : Nat) : (x.count o v).c.posts = x.c.posts := rfl
@[simp] theorem count_vecProg (x : Site) (o v : Nat) : (x.count o v).c.vecProg = x.c.vecProg := rfl
@[simp] theorem count_lastId (x : Site) (o v : Nat) : (x.count o v).c.lastId = x.c.lastId := rfl
@[simp] theorem count_sowMask (x : Site) (o v : Nat) : (x.count o v).c.sowMask = x.c.sowMask := rfl
@[simp] theorem count_sowMark (x : Site) (o v : Nat) : (x.count o v).c.sowMark = x.c.sowMark := rfl
@[simp] theorem count_q_ (x : Site) (o v : Nat) : (x.count o v).q = x.q := rfl
@[simp] theorem count_n_ (x : Site) (o v : Nat) : (x.count o v).n = x.n := rfl
@[simp] theorem count_hold_ (x : Site) (o v : Nat) : (x.count o v).hold = x.hold := rfl
@[simp] theorem count_cut_ (x : Site) (o v : Nat) : (x.count o v).cut = x.cut := rfl
@[simp] theorem count_now_ (x : Site) (o v : Nat) : (x.count o v).now = x.now := rfl
@[simp] theorem count_seed_ (x : Site) (o v : Nat) : (x.count o v).seed = x.seed := rfl
@[simp] theorem count_free_ (x : Site) (o v : Nat) : (x.count o v).free = x.free := rfl
@[simp] theorem count_out_ (x : Site) (o v : Nat) : (x.count o v).out = x.out := rfl
@[simp] theorem count_raised_ (x : Site) (o v : Nat) : (x.count o v).raised = x.raised := rfl

@[simp] theorem setSeq_regs (x : Site) (v : Seq) : (x.setSeq v).c.regs = x.c.regs := rfl
@[simp] theorem setSeq_mem (x : Site) (v : Seq) : (x.setSeq v).c.mem = x.c.mem := rfl
@[simp] theorem setSeq_ecc (x : Site) (v : Seq) : (x.setSeq v).c.ecc = x.c.ecc := rfl
@[simp] theorem setSeq_repairs (x : Site) (v : Seq) : (x.setSeq v).c.repairs = x.c.repairs := rfl
@[simp] theorem setSeq_repairing (x : Site) (v : Seq) : (x.setSeq v).c.repairing = x.c.repairing := rfl
@[simp] theorem setSeq_tokq (x : Site) (v : Seq) : (x.setSeq v).c.tokq = x.c.tokq := rfl
@[simp] theorem setSeq_hreg (x : Site) (v : Seq) : (x.setSeq v).c.hreg = x.c.hreg := rfl
@[simp] theorem setSeq_arrayQ (x : Site) (v : Seq) : (x.setSeq v).c.arrayQ = x.c.arrayQ := rfl
@[simp] theorem setSeq_drainQ (x : Site) (v : Seq) : (x.setSeq v).c.drainQ = x.c.drainQ := rfl
@[simp] theorem setSeq_vecQ (x : Site) (v : Seq) : (x.setSeq v).c.vecQ = x.c.vecQ := rfl
@[simp] theorem setSeq_gathQ (x : Site) (v : Seq) : (x.setSeq v).c.gathQ = x.c.gathQ := rfl
@[simp] theorem setSeq_sbuf0 (x : Site) (v : Seq) : (x.setSeq v).c.sbuf0 = x.c.sbuf0 := rfl
@[simp] theorem setSeq_sbuf1 (x : Site) (v : Seq) : (x.setSeq v).c.sbuf1 = x.c.sbuf1 := rfl
@[simp] theorem setSeq_loading (x : Site) (v : Seq) : (x.setSeq v).c.loading = x.c.loading := rfl
@[simp] theorem setSeq_streaming (x : Site) (v : Seq) : (x.setSeq v).c.streaming = x.c.streaming := rfl
@[simp] theorem setSeq_draining (x : Site) (v : Seq) : (x.setSeq v).c.draining = x.c.draining := rfl
@[simp] theorem setSeq_vector (x : Site) (v : Seq) : (x.setSeq v).c.vector = x.c.vector := rfl
@[simp] theorem setSeq_feeds (x : Site) (v : Seq) : (x.setSeq v).c.feeds = x.c.feeds := rfl
@[simp] theorem setSeq_gathDone (x : Site) (v : Seq) : (x.setSeq v).c.gathDone = x.c.gathDone := rfl
@[simp] theorem setSeq_counts (x : Site) (v : Seq) : (x.setSeq v).c.counts = x.c.counts := rfl
@[simp] theorem setSeq_captured (x : Site) (v : Seq) : (x.setSeq v).c.captured = x.c.captured := rfl
@[simp] theorem setSeq_pred (x : Site) (v : Seq) : (x.setSeq v).c.pred = x.c.pred := rfl
@[simp] theorem setSeq_predNext (x : Site) (v : Seq) : (x.setSeq v).c.predNext = x.c.predNext := rfl
@[simp] theorem setSeq_chans (x : Site) (v : Seq) : (x.setSeq v).c.chans = x.c.chans := rfl
@[simp] theorem setSeq_accepted (x : Site) (v : Seq) : (x.setSeq v).c.accepted = x.c.accepted := rfl
@[simp] theorem setSeq_stalled (x : Site) (v : Seq) : (x.setSeq v).c.stalled = x.c.stalled := rfl
@[simp] theorem setSeq_corrLog (x : Site) (v : Seq) : (x.setSeq v).c.corrLog = x.c.corrLog := rfl
@[simp] theorem setSeq_faultFence (x : Site) (v : Seq) : (x.setSeq v).c.faultFence = x.c.faultFence := rfl
@[simp] theorem setSeq_resetting (x : Site) (v : Seq) : (x.setSeq v).c.resetting = x.c.resetting := rfl
@[simp] theorem setSeq_resetSince (x : Site) (v : Seq) : (x.setSeq v).c.resetSince = x.c.resetSince := rfl
@[simp] theorem setSeq_stepWritten (x : Site) (v : Seq) : (x.setSeq v).c.stepWritten = x.c.stepWritten := rfl
@[simp] theorem setSeq_injectChk (x : Site) (v : Seq) : (x.setSeq v).c.injectChk = x.c.injectChk := rfl
@[simp] theorem setSeq_injectRes (x : Site) (v : Seq) : (x.setSeq v).c.injectRes = x.c.injectRes := rfl
@[simp] theorem setSeq_posts (x : Site) (v : Seq) : (x.setSeq v).c.posts = x.c.posts := rfl
@[simp] theorem setSeq_vecProg (x : Site) (v : Seq) : (x.setSeq v).c.vecProg = x.c.vecProg := rfl
@[simp] theorem setSeq_lastId (x : Site) (v : Seq) : (x.setSeq v).c.lastId = x.c.lastId := rfl
@[simp] theorem setSeq_sowMask (x : Site) (v : Seq) : (x.setSeq v).c.sowMask = x.c.sowMask := rfl
@[simp] theorem setSeq_sowMark (x : Site) (v : Seq) : (x.setSeq v).c.sowMark = x.c.sowMark := rfl
@[simp] theorem setSeq_q_ (x : Site) (v : Seq) : (x.setSeq v).q = x.q := rfl
@[simp] theorem setSeq_n_ (x : Site) (v : Seq) : (x.setSeq v).n = x.n := rfl
@[simp] theorem setSeq_hold_ (x : Site) (v : Seq) : (x.setSeq v).hold = x.hold := rfl
@[simp] theorem setSeq_cut_ (x : Site) (v : Seq) : (x.setSeq v).cut = x.cut := rfl
@[simp] theorem setSeq_now_ (x : Site) (v : Seq) : (x.setSeq v).now = x.now := rfl
@[simp] theorem setSeq_seed_ (x : Site) (v : Seq) : (x.setSeq v).seed = x.seed := rfl
@[simp] theorem setSeq_free_ (x : Site) (v : Seq) : (x.setSeq v).free = x.free := rfl
@[simp] theorem setSeq_out_ (x : Site) (v : Seq) : (x.setSeq v).out = x.out := rfl
@[simp] theorem setSeq_raised_ (x : Site) (v : Seq) : (x.setSeq v).raised = x.raised := rfl

@[simp] theorem stalls_regs (x : Site) : x.stalls.c.regs = x.c.regs := rfl
@[simp] theorem stalls_mem (x : Site) : x.stalls.c.mem = x.c.mem := rfl
@[simp] theorem stalls_ecc (x : Site) : x.stalls.c.ecc = x.c.ecc := rfl
@[simp] theorem stalls_repairs (x : Site) : x.stalls.c.repairs = x.c.repairs := rfl
@[simp] theorem stalls_repairing (x : Site) : x.stalls.c.repairing = x.c.repairing := rfl
@[simp] theorem stalls_tokq (x : Site) : x.stalls.c.tokq = x.c.tokq := rfl
@[simp] theorem stalls_hreg (x : Site) : x.stalls.c.hreg = x.c.hreg := rfl
@[simp] theorem stalls_arrayQ (x : Site) : x.stalls.c.arrayQ = x.c.arrayQ := rfl
@[simp] theorem stalls_drainQ (x : Site) : x.stalls.c.drainQ = x.c.drainQ := rfl
@[simp] theorem stalls_vecQ (x : Site) : x.stalls.c.vecQ = x.c.vecQ := rfl
@[simp] theorem stalls_gathQ (x : Site) : x.stalls.c.gathQ = x.c.gathQ := rfl
@[simp] theorem stalls_sbuf0 (x : Site) : x.stalls.c.sbuf0 = x.c.sbuf0 := rfl
@[simp] theorem stalls_sbuf1 (x : Site) : x.stalls.c.sbuf1 = x.c.sbuf1 := rfl
@[simp] theorem stalls_loading (x : Site) : x.stalls.c.loading = x.c.loading := rfl
@[simp] theorem stalls_streaming (x : Site) : x.stalls.c.streaming = x.c.streaming := rfl
@[simp] theorem stalls_draining (x : Site) : x.stalls.c.draining = x.c.draining := rfl
@[simp] theorem stalls_vector (x : Site) : x.stalls.c.vector = x.c.vector := rfl
@[simp] theorem stalls_feeds (x : Site) : x.stalls.c.feeds = x.c.feeds := rfl
@[simp] theorem stalls_gathDone (x : Site) : x.stalls.c.gathDone = x.c.gathDone := rfl
@[simp] theorem stalls_counts (x : Site) : x.stalls.c.counts = x.c.counts := rfl
@[simp] theorem stalls_captured (x : Site) : x.stalls.c.captured = x.c.captured := rfl
@[simp] theorem stalls_pred (x : Site) : x.stalls.c.pred = x.c.pred := rfl
@[simp] theorem stalls_predNext (x : Site) : x.stalls.c.predNext = x.c.predNext := rfl
@[simp] theorem stalls_chans (x : Site) : x.stalls.c.chans = x.c.chans := rfl
@[simp] theorem stalls_accepted (x : Site) : x.stalls.c.accepted = x.c.accepted := rfl
@[simp] theorem stalls_corrLog (x : Site) : x.stalls.c.corrLog = x.c.corrLog := rfl
@[simp] theorem stalls_faultFence (x : Site) : x.stalls.c.faultFence = x.c.faultFence := rfl
@[simp] theorem stalls_resetting (x : Site) : x.stalls.c.resetting = x.c.resetting := rfl
@[simp] theorem stalls_resetSince (x : Site) : x.stalls.c.resetSince = x.c.resetSince := rfl
@[simp] theorem stalls_stepWritten (x : Site) : x.stalls.c.stepWritten = x.c.stepWritten := rfl
@[simp] theorem stalls_injectChk (x : Site) : x.stalls.c.injectChk = x.c.injectChk := rfl
@[simp] theorem stalls_injectRes (x : Site) : x.stalls.c.injectRes = x.c.injectRes := rfl
@[simp] theorem stalls_posts (x : Site) : x.stalls.c.posts = x.c.posts := rfl
@[simp] theorem stalls_vecProg (x : Site) : x.stalls.c.vecProg = x.c.vecProg := rfl
@[simp] theorem stalls_lastId (x : Site) : x.stalls.c.lastId = x.c.lastId := rfl
@[simp] theorem stalls_sowMask (x : Site) : x.stalls.c.sowMask = x.c.sowMask := rfl
@[simp] theorem stalls_sowMark (x : Site) : x.stalls.c.sowMark = x.c.sowMark := rfl
@[simp] theorem stalls_q_ (x : Site) : x.stalls.q = x.q := rfl
@[simp] theorem stalls_n_ (x : Site) : x.stalls.n = x.n := rfl
@[simp] theorem stalls_hold_ (x : Site) : x.stalls.hold = x.hold := rfl
@[simp] theorem stalls_cut_ (x : Site) : x.stalls.cut = x.cut := rfl
@[simp] theorem stalls_now_ (x : Site) : x.stalls.now = x.now := rfl
@[simp] theorem stalls_seed_ (x : Site) : x.stalls.seed = x.seed := rfl
@[simp] theorem stalls_free_ (x : Site) : x.stalls.free = x.free := rfl
@[simp] theorem stalls_out_ (x : Site) : x.stalls.out = x.out := rfl
@[simp] theorem stalls_raised_ (x : Site) : x.stalls.raised = x.raised := rfl
@[simp] theorem stalls_seq (x : Site) : x.stalls.c.seq = x.c.seq := rfl

@[simp] theorem setEcc_regs (x : Site) (o : Nat) (v : Ecc) : (x.setEcc o v).c.regs = x.c.regs := rfl
@[simp] theorem setEcc_mem (x : Site) (o : Nat) (v : Ecc) : (x.setEcc o v).c.mem = x.c.mem := rfl
@[simp] theorem setEcc_repairs (x : Site) (o : Nat) (v : Ecc) : (x.setEcc o v).c.repairs = x.c.repairs := rfl
@[simp] theorem setEcc_repairing (x : Site) (o : Nat) (v : Ecc) : (x.setEcc o v).c.repairing = x.c.repairing := rfl
@[simp] theorem setEcc_seq (x : Site) (o : Nat) (v : Ecc) : (x.setEcc o v).c.seq = x.c.seq := rfl
@[simp] theorem setEcc_tokq (x : Site) (o : Nat) (v : Ecc) : (x.setEcc o v).c.tokq = x.c.tokq := rfl
@[simp] theorem setEcc_hreg (x : Site) (o : Nat) (v : Ecc) : (x.setEcc o v).c.hreg = x.c.hreg := rfl
@[simp] theorem setEcc_arrayQ (x : Site) (o : Nat) (v : Ecc) : (x.setEcc o v).c.arrayQ = x.c.arrayQ := rfl
@[simp] theorem setEcc_drainQ (x : Site) (o : Nat) (v : Ecc) : (x.setEcc o v).c.drainQ = x.c.drainQ := rfl
@[simp] theorem setEcc_vecQ (x : Site) (o : Nat) (v : Ecc) : (x.setEcc o v).c.vecQ = x.c.vecQ := rfl
@[simp] theorem setEcc_gathQ (x : Site) (o : Nat) (v : Ecc) : (x.setEcc o v).c.gathQ = x.c.gathQ := rfl
@[simp] theorem setEcc_sbuf0 (x : Site) (o : Nat) (v : Ecc) : (x.setEcc o v).c.sbuf0 = x.c.sbuf0 := rfl
@[simp] theorem setEcc_sbuf1 (x : Site) (o : Nat) (v : Ecc) : (x.setEcc o v).c.sbuf1 = x.c.sbuf1 := rfl
@[simp] theorem setEcc_loading (x : Site) (o : Nat) (v : Ecc) : (x.setEcc o v).c.loading = x.c.loading := rfl
@[simp] theorem setEcc_streaming (x : Site) (o : Nat) (v : Ecc) : (x.setEcc o v).c.streaming = x.c.streaming := rfl
@[simp] theorem setEcc_draining (x : Site) (o : Nat) (v : Ecc) : (x.setEcc o v).c.draining = x.c.draining := rfl
@[simp] theorem setEcc_vector (x : Site) (o : Nat) (v : Ecc) : (x.setEcc o v).c.vector = x.c.vector := rfl
@[simp] theorem setEcc_feeds (x : Site) (o : Nat) (v : Ecc) : (x.setEcc o v).c.feeds = x.c.feeds := rfl
@[simp] theorem setEcc_gathDone (x : Site) (o : Nat) (v : Ecc) : (x.setEcc o v).c.gathDone = x.c.gathDone := rfl
@[simp] theorem setEcc_counts (x : Site) (o : Nat) (v : Ecc) : (x.setEcc o v).c.counts = x.c.counts := rfl
@[simp] theorem setEcc_captured (x : Site) (o : Nat) (v : Ecc) : (x.setEcc o v).c.captured = x.c.captured := rfl
@[simp] theorem setEcc_pred (x : Site) (o : Nat) (v : Ecc) : (x.setEcc o v).c.pred = x.c.pred := rfl
@[simp] theorem setEcc_predNext (x : Site) (o : Nat) (v : Ecc) : (x.setEcc o v).c.predNext = x.c.predNext := rfl
@[simp] theorem setEcc_chans (x : Site) (o : Nat) (v : Ecc) : (x.setEcc o v).c.chans = x.c.chans := rfl
@[simp] theorem setEcc_accepted (x : Site) (o : Nat) (v : Ecc) : (x.setEcc o v).c.accepted = x.c.accepted := rfl
@[simp] theorem setEcc_stalled (x : Site) (o : Nat) (v : Ecc) : (x.setEcc o v).c.stalled = x.c.stalled := rfl
@[simp] theorem setEcc_corrLog (x : Site) (o : Nat) (v : Ecc) : (x.setEcc o v).c.corrLog = x.c.corrLog := rfl
@[simp] theorem setEcc_faultFence (x : Site) (o : Nat) (v : Ecc) : (x.setEcc o v).c.faultFence = x.c.faultFence := rfl
@[simp] theorem setEcc_resetting (x : Site) (o : Nat) (v : Ecc) : (x.setEcc o v).c.resetting = x.c.resetting := rfl
@[simp] theorem setEcc_resetSince (x : Site) (o : Nat) (v : Ecc) : (x.setEcc o v).c.resetSince = x.c.resetSince := rfl
@[simp] theorem setEcc_stepWritten (x : Site) (o : Nat) (v : Ecc) : (x.setEcc o v).c.stepWritten = x.c.stepWritten := rfl
@[simp] theorem setEcc_injectChk (x : Site) (o : Nat) (v : Ecc) : (x.setEcc o v).c.injectChk = x.c.injectChk := rfl
@[simp] theorem setEcc_injectRes (x : Site) (o : Nat) (v : Ecc) : (x.setEcc o v).c.injectRes = x.c.injectRes := rfl
@[simp] theorem setEcc_posts (x : Site) (o : Nat) (v : Ecc) : (x.setEcc o v).c.posts = x.c.posts := rfl
@[simp] theorem setEcc_vecProg (x : Site) (o : Nat) (v : Ecc) : (x.setEcc o v).c.vecProg = x.c.vecProg := rfl
@[simp] theorem setEcc_lastId (x : Site) (o : Nat) (v : Ecc) : (x.setEcc o v).c.lastId = x.c.lastId := rfl
@[simp] theorem setEcc_sowMask (x : Site) (o : Nat) (v : Ecc) : (x.setEcc o v).c.sowMask = x.c.sowMask := rfl
@[simp] theorem setEcc_sowMark (x : Site) (o : Nat) (v : Ecc) : (x.setEcc o v).c.sowMark = x.c.sowMark := rfl
@[simp] theorem setEcc_q_ (x : Site) (o : Nat) (v : Ecc) : (x.setEcc o v).q = x.q := rfl
@[simp] theorem setEcc_n_ (x : Site) (o : Nat) (v : Ecc) : (x.setEcc o v).n = x.n := rfl
@[simp] theorem setEcc_hold_ (x : Site) (o : Nat) (v : Ecc) : (x.setEcc o v).hold = x.hold := rfl
@[simp] theorem setEcc_cut_ (x : Site) (o : Nat) (v : Ecc) : (x.setEcc o v).cut = x.cut := rfl
@[simp] theorem setEcc_now_ (x : Site) (o : Nat) (v : Ecc) : (x.setEcc o v).now = x.now := rfl
@[simp] theorem setEcc_seed_ (x : Site) (o : Nat) (v : Ecc) : (x.setEcc o v).seed = x.seed := rfl
@[simp] theorem setEcc_free_ (x : Site) (o : Nat) (v : Ecc) : (x.setEcc o v).free = x.free := rfl
@[simp] theorem setEcc_out_ (x : Site) (o : Nat) (v : Ecc) : (x.setEcc o v).out = x.out := rfl
@[simp] theorem setEcc_raised_ (x : Site) (o : Nat) (v : Ecc) : (x.setEcc o v).raised = x.raised := rfl

@[simp] theorem store_regs (x : Site) (a : Nat) (bs : List Byte) : (x.store a bs).c.regs = x.c.regs := rfl
@[simp] theorem store_repairs (x : Site) (a : Nat) (bs : List Byte) : (x.store a bs).c.repairs = x.c.repairs := rfl
@[simp] theorem store_repairing (x : Site) (a : Nat) (bs : List Byte) : (x.store a bs).c.repairing = x.c.repairing := rfl
@[simp] theorem store_seq (x : Site) (a : Nat) (bs : List Byte) : (x.store a bs).c.seq = x.c.seq := rfl
@[simp] theorem store_tokq (x : Site) (a : Nat) (bs : List Byte) : (x.store a bs).c.tokq = x.c.tokq := rfl
@[simp] theorem store_hreg (x : Site) (a : Nat) (bs : List Byte) : (x.store a bs).c.hreg = x.c.hreg := rfl
@[simp] theorem store_arrayQ (x : Site) (a : Nat) (bs : List Byte) : (x.store a bs).c.arrayQ = x.c.arrayQ := rfl
@[simp] theorem store_drainQ (x : Site) (a : Nat) (bs : List Byte) : (x.store a bs).c.drainQ = x.c.drainQ := rfl
@[simp] theorem store_vecQ (x : Site) (a : Nat) (bs : List Byte) : (x.store a bs).c.vecQ = x.c.vecQ := rfl
@[simp] theorem store_gathQ (x : Site) (a : Nat) (bs : List Byte) : (x.store a bs).c.gathQ = x.c.gathQ := rfl
@[simp] theorem store_sbuf0 (x : Site) (a : Nat) (bs : List Byte) : (x.store a bs).c.sbuf0 = x.c.sbuf0 := rfl
@[simp] theorem store_sbuf1 (x : Site) (a : Nat) (bs : List Byte) : (x.store a bs).c.sbuf1 = x.c.sbuf1 := rfl
@[simp] theorem store_loading (x : Site) (a : Nat) (bs : List Byte) : (x.store a bs).c.loading = x.c.loading := rfl
@[simp] theorem store_streaming (x : Site) (a : Nat) (bs : List Byte) : (x.store a bs).c.streaming = x.c.streaming := rfl
@[simp] theorem store_draining (x : Site) (a : Nat) (bs : List Byte) : (x.store a bs).c.draining = x.c.draining := rfl
@[simp] theorem store_vector (x : Site) (a : Nat) (bs : List Byte) : (x.store a bs).c.vector = x.c.vector := rfl
@[simp] theorem store_feeds (x : Site) (a : Nat) (bs : List Byte) : (x.store a bs).c.feeds = x.c.feeds := rfl
@[simp] theorem store_gathDone (x : Site) (a : Nat) (bs : List Byte) : (x.store a bs).c.gathDone = x.c.gathDone := rfl
@[simp] theorem store_counts (x : Site) (a : Nat) (bs : List Byte) : (x.store a bs).c.counts = x.c.counts := rfl
@[simp] theorem store_captured (x : Site) (a : Nat) (bs : List Byte) : (x.store a bs).c.captured = x.c.captured := rfl
@[simp] theorem store_pred (x : Site) (a : Nat) (bs : List Byte) : (x.store a bs).c.pred = x.c.pred := rfl
@[simp] theorem store_predNext (x : Site) (a : Nat) (bs : List Byte) : (x.store a bs).c.predNext = x.c.predNext := rfl
@[simp] theorem store_chans (x : Site) (a : Nat) (bs : List Byte) : (x.store a bs).c.chans = x.c.chans := rfl
@[simp] theorem store_accepted (x : Site) (a : Nat) (bs : List Byte) : (x.store a bs).c.accepted = x.c.accepted := rfl
@[simp] theorem store_stalled (x : Site) (a : Nat) (bs : List Byte) : (x.store a bs).c.stalled = x.c.stalled := rfl
@[simp] theorem store_corrLog (x : Site) (a : Nat) (bs : List Byte) : (x.store a bs).c.corrLog = x.c.corrLog := rfl
@[simp] theorem store_faultFence (x : Site) (a : Nat) (bs : List Byte) : (x.store a bs).c.faultFence = x.c.faultFence := rfl
@[simp] theorem store_resetting (x : Site) (a : Nat) (bs : List Byte) : (x.store a bs).c.resetting = x.c.resetting := rfl
@[simp] theorem store_resetSince (x : Site) (a : Nat) (bs : List Byte) : (x.store a bs).c.resetSince = x.c.resetSince := rfl
@[simp] theorem store_stepWritten (x : Site) (a : Nat) (bs : List Byte) : (x.store a bs).c.stepWritten = x.c.stepWritten := rfl
@[simp] theorem store_injectChk (x : Site) (a : Nat) (bs : List Byte) : (x.store a bs).c.injectChk = x.c.injectChk := rfl
@[simp] theorem store_injectRes (x : Site) (a : Nat) (bs : List Byte) : (x.store a bs).c.injectRes = x.c.injectRes := rfl
@[simp] theorem store_posts (x : Site) (a : Nat) (bs : List Byte) : (x.store a bs).c.posts = x.c.posts := rfl
@[simp] theorem store_vecProg (x : Site) (a : Nat) (bs : List Byte) : (x.store a bs).c.vecProg = x.c.vecProg := rfl
@[simp] theorem store_lastId (x : Site) (a : Nat) (bs : List Byte) : (x.store a bs).c.lastId = x.c.lastId := rfl
@[simp] theorem store_sowMask (x : Site) (a : Nat) (bs : List Byte) : (x.store a bs).c.sowMask = x.c.sowMask := rfl
@[simp] theorem store_sowMark (x : Site) (a : Nat) (bs : List Byte) : (x.store a bs).c.sowMark = x.c.sowMark := rfl
@[simp] theorem store_q_ (x : Site) (a : Nat) (bs : List Byte) : (x.store a bs).q = x.q := rfl
@[simp] theorem store_n_ (x : Site) (a : Nat) (bs : List Byte) : (x.store a bs).n = x.n := rfl
@[simp] theorem store_hold_ (x : Site) (a : Nat) (bs : List Byte) : (x.store a bs).hold = x.hold := rfl
@[simp] theorem store_cut_ (x : Site) (a : Nat) (bs : List Byte) : (x.store a bs).cut = x.cut := rfl
@[simp] theorem store_now_ (x : Site) (a : Nat) (bs : List Byte) : (x.store a bs).now = x.now := rfl
@[simp] theorem store_seed_ (x : Site) (a : Nat) (bs : List Byte) : (x.store a bs).seed = x.seed := rfl
@[simp] theorem store_free_ (x : Site) (a : Nat) (bs : List Byte) : (x.store a bs).free = x.free := rfl
@[simp] theorem store_out_ (x : Site) (a : Nat) (bs : List Byte) : (x.store a bs).out = x.out := rfl
@[simp] theorem store_raised_ (x : Site) (a : Nat) (bs : List Byte) : (x.store a bs).raised = x.raised := rfl

@[simp] theorem setQueue_regs (x : Site) (o : Nat) (v : List W32) : (x.setQueue o v).c.regs = x.c.regs := rfl
@[simp] theorem setQueue_mem (x : Site) (o : Nat) (v : List W32) : (x.setQueue o v).c.mem = x.c.mem := rfl
@[simp] theorem setQueue_ecc (x : Site) (o : Nat) (v : List W32) : (x.setQueue o v).c.ecc = x.c.ecc := rfl
@[simp] theorem setQueue_repairs (x : Site) (o : Nat) (v : List W32) : (x.setQueue o v).c.repairs = x.c.repairs := rfl
@[simp] theorem setQueue_repairing (x : Site) (o : Nat) (v : List W32) : (x.setQueue o v).c.repairing = x.c.repairing := rfl
@[simp] theorem setQueue_seq (x : Site) (o : Nat) (v : List W32) : (x.setQueue o v).c.seq = x.c.seq := rfl
@[simp] theorem setQueue_hreg (x : Site) (o : Nat) (v : List W32) : (x.setQueue o v).c.hreg = x.c.hreg := rfl
@[simp] theorem setQueue_arrayQ (x : Site) (o : Nat) (v : List W32) : (x.setQueue o v).c.arrayQ = x.c.arrayQ := rfl
@[simp] theorem setQueue_drainQ (x : Site) (o : Nat) (v : List W32) : (x.setQueue o v).c.drainQ = x.c.drainQ := rfl
@[simp] theorem setQueue_vecQ (x : Site) (o : Nat) (v : List W32) : (x.setQueue o v).c.vecQ = x.c.vecQ := rfl
@[simp] theorem setQueue_gathQ (x : Site) (o : Nat) (v : List W32) : (x.setQueue o v).c.gathQ = x.c.gathQ := rfl
@[simp] theorem setQueue_sbuf0 (x : Site) (o : Nat) (v : List W32) : (x.setQueue o v).c.sbuf0 = x.c.sbuf0 := rfl
@[simp] theorem setQueue_sbuf1 (x : Site) (o : Nat) (v : List W32) : (x.setQueue o v).c.sbuf1 = x.c.sbuf1 := rfl
@[simp] theorem setQueue_loading (x : Site) (o : Nat) (v : List W32) : (x.setQueue o v).c.loading = x.c.loading := rfl
@[simp] theorem setQueue_streaming (x : Site) (o : Nat) (v : List W32) : (x.setQueue o v).c.streaming = x.c.streaming := rfl
@[simp] theorem setQueue_draining (x : Site) (o : Nat) (v : List W32) : (x.setQueue o v).c.draining = x.c.draining := rfl
@[simp] theorem setQueue_vector (x : Site) (o : Nat) (v : List W32) : (x.setQueue o v).c.vector = x.c.vector := rfl
@[simp] theorem setQueue_feeds (x : Site) (o : Nat) (v : List W32) : (x.setQueue o v).c.feeds = x.c.feeds := rfl
@[simp] theorem setQueue_gathDone (x : Site) (o : Nat) (v : List W32) : (x.setQueue o v).c.gathDone = x.c.gathDone := rfl
@[simp] theorem setQueue_counts (x : Site) (o : Nat) (v : List W32) : (x.setQueue o v).c.counts = x.c.counts := rfl
@[simp] theorem setQueue_captured (x : Site) (o : Nat) (v : List W32) : (x.setQueue o v).c.captured = x.c.captured := rfl
@[simp] theorem setQueue_pred (x : Site) (o : Nat) (v : List W32) : (x.setQueue o v).c.pred = x.c.pred := rfl
@[simp] theorem setQueue_predNext (x : Site) (o : Nat) (v : List W32) : (x.setQueue o v).c.predNext = x.c.predNext := rfl
@[simp] theorem setQueue_chans (x : Site) (o : Nat) (v : List W32) : (x.setQueue o v).c.chans = x.c.chans := rfl
@[simp] theorem setQueue_accepted (x : Site) (o : Nat) (v : List W32) : (x.setQueue o v).c.accepted = x.c.accepted := rfl
@[simp] theorem setQueue_stalled (x : Site) (o : Nat) (v : List W32) : (x.setQueue o v).c.stalled = x.c.stalled := rfl
@[simp] theorem setQueue_corrLog (x : Site) (o : Nat) (v : List W32) : (x.setQueue o v).c.corrLog = x.c.corrLog := rfl
@[simp] theorem setQueue_faultFence (x : Site) (o : Nat) (v : List W32) : (x.setQueue o v).c.faultFence = x.c.faultFence := rfl
@[simp] theorem setQueue_resetting (x : Site) (o : Nat) (v : List W32) : (x.setQueue o v).c.resetting = x.c.resetting := rfl
@[simp] theorem setQueue_resetSince (x : Site) (o : Nat) (v : List W32) : (x.setQueue o v).c.resetSince = x.c.resetSince := rfl
@[simp] theorem setQueue_stepWritten (x : Site) (o : Nat) (v : List W32) : (x.setQueue o v).c.stepWritten = x.c.stepWritten := rfl
@[simp] theorem setQueue_injectChk (x : Site) (o : Nat) (v : List W32) : (x.setQueue o v).c.injectChk = x.c.injectChk := rfl
@[simp] theorem setQueue_injectRes (x : Site) (o : Nat) (v : List W32) : (x.setQueue o v).c.injectRes = x.c.injectRes := rfl
@[simp] theorem setQueue_posts (x : Site) (o : Nat) (v : List W32) : (x.setQueue o v).c.posts = x.c.posts := rfl
@[simp] theorem setQueue_vecProg (x : Site) (o : Nat) (v : List W32) : (x.setQueue o v).c.vecProg = x.c.vecProg := rfl
@[simp] theorem setQueue_lastId (x : Site) (o : Nat) (v : List W32) : (x.setQueue o v).c.lastId = x.c.lastId := rfl
@[simp] theorem setQueue_sowMask (x : Site) (o : Nat) (v : List W32) : (x.setQueue o v).c.sowMask = x.c.sowMask := rfl
@[simp] theorem setQueue_sowMark (x : Site) (o : Nat) (v : List W32) : (x.setQueue o v).c.sowMark = x.c.sowMark := rfl
@[simp] theorem setQueue_q_ (x : Site) (o : Nat) (v : List W32) : (x.setQueue o v).q = x.q := rfl
@[simp] theorem setQueue_n_ (x : Site) (o : Nat) (v : List W32) : (x.setQueue o v).n = x.n := rfl
@[simp] theorem setQueue_hold_ (x : Site) (o : Nat) (v : List W32) : (x.setQueue o v).hold = x.hold := rfl
@[simp] theorem setQueue_cut_ (x : Site) (o : Nat) (v : List W32) : (x.setQueue o v).cut = x.cut := rfl
@[simp] theorem setQueue_now_ (x : Site) (o : Nat) (v : List W32) : (x.setQueue o v).now = x.now := rfl
@[simp] theorem setQueue_seed_ (x : Site) (o : Nat) (v : List W32) : (x.setQueue o v).seed = x.seed := rfl
@[simp] theorem setQueue_free_ (x : Site) (o : Nat) (v : List W32) : (x.setQueue o v).free = x.free := rfl
@[simp] theorem setQueue_out_ (x : Site) (o : Nat) (v : List W32) : (x.setQueue o v).out = x.out := rfl
@[simp] theorem setQueue_raised_ (x : Site) (o : Nat) (v : List W32) : (x.setQueue o v).raised = x.raised := rfl

@[simp] theorem push_regs (x : Site) (o : Nat) (v : W32) : (x.push o v).c.regs = x.c.regs := rfl
@[simp] theorem push_mem (x : Site) (o : Nat) (v : W32) : (x.push o v).c.mem = x.c.mem := rfl
@[simp] theorem push_ecc (x : Site) (o : Nat) (v : W32) : (x.push o v).c.ecc = x.c.ecc := rfl
@[simp] theorem push_repairs (x : Site) (o : Nat) (v : W32) : (x.push o v).c.repairs = x.c.repairs := rfl
@[simp] theorem push_repairing (x : Site) (o : Nat) (v : W32) : (x.push o v).c.repairing = x.c.repairing := rfl
@[simp] theorem push_seq (x : Site) (o : Nat) (v : W32) : (x.push o v).c.seq = x.c.seq := rfl
@[simp] theorem push_hreg (x : Site) (o : Nat) (v : W32) : (x.push o v).c.hreg = x.c.hreg := rfl
@[simp] theorem push_arrayQ (x : Site) (o : Nat) (v : W32) : (x.push o v).c.arrayQ = x.c.arrayQ := rfl
@[simp] theorem push_drainQ (x : Site) (o : Nat) (v : W32) : (x.push o v).c.drainQ = x.c.drainQ := rfl
@[simp] theorem push_vecQ (x : Site) (o : Nat) (v : W32) : (x.push o v).c.vecQ = x.c.vecQ := rfl
@[simp] theorem push_gathQ (x : Site) (o : Nat) (v : W32) : (x.push o v).c.gathQ = x.c.gathQ := rfl
@[simp] theorem push_sbuf0 (x : Site) (o : Nat) (v : W32) : (x.push o v).c.sbuf0 = x.c.sbuf0 := rfl
@[simp] theorem push_sbuf1 (x : Site) (o : Nat) (v : W32) : (x.push o v).c.sbuf1 = x.c.sbuf1 := rfl
@[simp] theorem push_loading (x : Site) (o : Nat) (v : W32) : (x.push o v).c.loading = x.c.loading := rfl
@[simp] theorem push_streaming (x : Site) (o : Nat) (v : W32) : (x.push o v).c.streaming = x.c.streaming := rfl
@[simp] theorem push_draining (x : Site) (o : Nat) (v : W32) : (x.push o v).c.draining = x.c.draining := rfl
@[simp] theorem push_vector (x : Site) (o : Nat) (v : W32) : (x.push o v).c.vector = x.c.vector := rfl
@[simp] theorem push_feeds (x : Site) (o : Nat) (v : W32) : (x.push o v).c.feeds = x.c.feeds := rfl
@[simp] theorem push_gathDone (x : Site) (o : Nat) (v : W32) : (x.push o v).c.gathDone = x.c.gathDone := rfl
@[simp] theorem push_counts (x : Site) (o : Nat) (v : W32) : (x.push o v).c.counts = x.c.counts := rfl
@[simp] theorem push_captured (x : Site) (o : Nat) (v : W32) : (x.push o v).c.captured = x.c.captured := rfl
@[simp] theorem push_pred (x : Site) (o : Nat) (v : W32) : (x.push o v).c.pred = x.c.pred := rfl
@[simp] theorem push_predNext (x : Site) (o : Nat) (v : W32) : (x.push o v).c.predNext = x.c.predNext := rfl
@[simp] theorem push_chans (x : Site) (o : Nat) (v : W32) : (x.push o v).c.chans = x.c.chans := rfl
@[simp] theorem push_accepted (x : Site) (o : Nat) (v : W32) : (x.push o v).c.accepted = x.c.accepted := rfl
@[simp] theorem push_stalled (x : Site) (o : Nat) (v : W32) : (x.push o v).c.stalled = x.c.stalled := rfl
@[simp] theorem push_corrLog (x : Site) (o : Nat) (v : W32) : (x.push o v).c.corrLog = x.c.corrLog := rfl
@[simp] theorem push_faultFence (x : Site) (o : Nat) (v : W32) : (x.push o v).c.faultFence = x.c.faultFence := rfl
@[simp] theorem push_resetting (x : Site) (o : Nat) (v : W32) : (x.push o v).c.resetting = x.c.resetting := rfl
@[simp] theorem push_resetSince (x : Site) (o : Nat) (v : W32) : (x.push o v).c.resetSince = x.c.resetSince := rfl
@[simp] theorem push_stepWritten (x : Site) (o : Nat) (v : W32) : (x.push o v).c.stepWritten = x.c.stepWritten := rfl
@[simp] theorem push_injectChk (x : Site) (o : Nat) (v : W32) : (x.push o v).c.injectChk = x.c.injectChk := rfl
@[simp] theorem push_injectRes (x : Site) (o : Nat) (v : W32) : (x.push o v).c.injectRes = x.c.injectRes := rfl
@[simp] theorem push_posts (x : Site) (o : Nat) (v : W32) : (x.push o v).c.posts = x.c.posts := rfl
@[simp] theorem push_vecProg (x : Site) (o : Nat) (v : W32) : (x.push o v).c.vecProg = x.c.vecProg := rfl
@[simp] theorem push_lastId (x : Site) (o : Nat) (v : W32) : (x.push o v).c.lastId = x.c.lastId := rfl
@[simp] theorem push_sowMask (x : Site) (o : Nat) (v : W32) : (x.push o v).c.sowMask = x.c.sowMask := rfl
@[simp] theorem push_sowMark (x : Site) (o : Nat) (v : W32) : (x.push o v).c.sowMark = x.c.sowMark := rfl
@[simp] theorem push_q_ (x : Site) (o : Nat) (v : W32) : (x.push o v).q = x.q := rfl
@[simp] theorem push_n_ (x : Site) (o : Nat) (v : W32) : (x.push o v).n = x.n := rfl
@[simp] theorem push_hold_ (x : Site) (o : Nat) (v : W32) : (x.push o v).hold = x.hold := rfl
@[simp] theorem push_cut_ (x : Site) (o : Nat) (v : W32) : (x.push o v).cut = x.cut := rfl
@[simp] theorem push_now_ (x : Site) (o : Nat) (v : W32) : (x.push o v).now = x.now := rfl
@[simp] theorem push_seed_ (x : Site) (o : Nat) (v : W32) : (x.push o v).seed = x.seed := rfl
@[simp] theorem push_free_ (x : Site) (o : Nat) (v : W32) : (x.push o v).free = x.free := rfl
@[simp] theorem push_out_ (x : Site) (o : Nat) (v : W32) : (x.push o v).out = x.out := rfl
@[simp] theorem push_raised_ (x : Site) (o : Nat) (v : W32) : (x.push o v).raised = x.raised := rfl

@[simp] theorem setHreg_regs (x : Site) (o : Nat) (v : W32) : (x.setHreg o v).c.regs = x.c.regs := rfl
@[simp] theorem setHreg_mem (x : Site) (o : Nat) (v : W32) : (x.setHreg o v).c.mem = x.c.mem := rfl
@[simp] theorem setHreg_ecc (x : Site) (o : Nat) (v : W32) : (x.setHreg o v).c.ecc = x.c.ecc := rfl
@[simp] theorem setHreg_repairs (x : Site) (o : Nat) (v : W32) : (x.setHreg o v).c.repairs = x.c.repairs := rfl
@[simp] theorem setHreg_repairing (x : Site) (o : Nat) (v : W32) : (x.setHreg o v).c.repairing = x.c.repairing := rfl
@[simp] theorem setHreg_seq (x : Site) (o : Nat) (v : W32) : (x.setHreg o v).c.seq = x.c.seq := rfl
@[simp] theorem setHreg_tokq (x : Site) (o : Nat) (v : W32) : (x.setHreg o v).c.tokq = x.c.tokq := rfl
@[simp] theorem setHreg_arrayQ (x : Site) (o : Nat) (v : W32) : (x.setHreg o v).c.arrayQ = x.c.arrayQ := rfl
@[simp] theorem setHreg_drainQ (x : Site) (o : Nat) (v : W32) : (x.setHreg o v).c.drainQ = x.c.drainQ := rfl
@[simp] theorem setHreg_vecQ (x : Site) (o : Nat) (v : W32) : (x.setHreg o v).c.vecQ = x.c.vecQ := rfl
@[simp] theorem setHreg_gathQ (x : Site) (o : Nat) (v : W32) : (x.setHreg o v).c.gathQ = x.c.gathQ := rfl
@[simp] theorem setHreg_sbuf0 (x : Site) (o : Nat) (v : W32) : (x.setHreg o v).c.sbuf0 = x.c.sbuf0 := rfl
@[simp] theorem setHreg_sbuf1 (x : Site) (o : Nat) (v : W32) : (x.setHreg o v).c.sbuf1 = x.c.sbuf1 := rfl
@[simp] theorem setHreg_loading (x : Site) (o : Nat) (v : W32) : (x.setHreg o v).c.loading = x.c.loading := rfl
@[simp] theorem setHreg_streaming (x : Site) (o : Nat) (v : W32) : (x.setHreg o v).c.streaming = x.c.streaming := rfl
@[simp] theorem setHreg_draining (x : Site) (o : Nat) (v : W32) : (x.setHreg o v).c.draining = x.c.draining := rfl
@[simp] theorem setHreg_vector (x : Site) (o : Nat) (v : W32) : (x.setHreg o v).c.vector = x.c.vector := rfl
@[simp] theorem setHreg_feeds (x : Site) (o : Nat) (v : W32) : (x.setHreg o v).c.feeds = x.c.feeds := rfl
@[simp] theorem setHreg_gathDone (x : Site) (o : Nat) (v : W32) : (x.setHreg o v).c.gathDone = x.c.gathDone := rfl
@[simp] theorem setHreg_counts (x : Site) (o : Nat) (v : W32) : (x.setHreg o v).c.counts = x.c.counts := rfl
@[simp] theorem setHreg_captured (x : Site) (o : Nat) (v : W32) : (x.setHreg o v).c.captured = x.c.captured := rfl
@[simp] theorem setHreg_pred (x : Site) (o : Nat) (v : W32) : (x.setHreg o v).c.pred = x.c.pred := rfl
@[simp] theorem setHreg_predNext (x : Site) (o : Nat) (v : W32) : (x.setHreg o v).c.predNext = x.c.predNext := rfl
@[simp] theorem setHreg_chans (x : Site) (o : Nat) (v : W32) : (x.setHreg o v).c.chans = x.c.chans := rfl
@[simp] theorem setHreg_accepted (x : Site) (o : Nat) (v : W32) : (x.setHreg o v).c.accepted = x.c.accepted := rfl
@[simp] theorem setHreg_stalled (x : Site) (o : Nat) (v : W32) : (x.setHreg o v).c.stalled = x.c.stalled := rfl
@[simp] theorem setHreg_corrLog (x : Site) (o : Nat) (v : W32) : (x.setHreg o v).c.corrLog = x.c.corrLog := rfl
@[simp] theorem setHreg_faultFence (x : Site) (o : Nat) (v : W32) : (x.setHreg o v).c.faultFence = x.c.faultFence := rfl
@[simp] theorem setHreg_resetting (x : Site) (o : Nat) (v : W32) : (x.setHreg o v).c.resetting = x.c.resetting := rfl
@[simp] theorem setHreg_resetSince (x : Site) (o : Nat) (v : W32) : (x.setHreg o v).c.resetSince = x.c.resetSince := rfl
@[simp] theorem setHreg_stepWritten (x : Site) (o : Nat) (v : W32) : (x.setHreg o v).c.stepWritten = x.c.stepWritten := rfl
@[simp] theorem setHreg_injectChk (x : Site) (o : Nat) (v : W32) : (x.setHreg o v).c.injectChk = x.c.injectChk := rfl
@[simp] theorem setHreg_injectRes (x : Site) (o : Nat) (v : W32) : (x.setHreg o v).c.injectRes = x.c.injectRes := rfl
@[simp] theorem setHreg_posts (x : Site) (o : Nat) (v : W32) : (x.setHreg o v).c.posts = x.c.posts := rfl
@[simp] theorem setHreg_vecProg (x : Site) (o : Nat) (v : W32) : (x.setHreg o v).c.vecProg = x.c.vecProg := rfl
@[simp] theorem setHreg_lastId (x : Site) (o : Nat) (v : W32) : (x.setHreg o v).c.lastId = x.c.lastId := rfl
@[simp] theorem setHreg_sowMask (x : Site) (o : Nat) (v : W32) : (x.setHreg o v).c.sowMask = x.c.sowMask := rfl
@[simp] theorem setHreg_sowMark (x : Site) (o : Nat) (v : W32) : (x.setHreg o v).c.sowMark = x.c.sowMark := rfl
@[simp] theorem setHreg_q_ (x : Site) (o : Nat) (v : W32) : (x.setHreg o v).q = x.q := rfl
@[simp] theorem setHreg_n_ (x : Site) (o : Nat) (v : W32) : (x.setHreg o v).n = x.n := rfl
@[simp] theorem setHreg_hold_ (x : Site) (o : Nat) (v : W32) : (x.setHreg o v).hold = x.hold := rfl
@[simp] theorem setHreg_cut_ (x : Site) (o : Nat) (v : W32) : (x.setHreg o v).cut = x.cut := rfl
@[simp] theorem setHreg_now_ (x : Site) (o : Nat) (v : W32) : (x.setHreg o v).now = x.now := rfl
@[simp] theorem setHreg_seed_ (x : Site) (o : Nat) (v : W32) : (x.setHreg o v).seed = x.seed := rfl
@[simp] theorem setHreg_free_ (x : Site) (o : Nat) (v : W32) : (x.setHreg o v).free = x.free := rfl
@[simp] theorem setHreg_out_ (x : Site) (o : Nat) (v : W32) : (x.setHreg o v).out = x.out := rfl
@[simp] theorem setHreg_raised_ (x : Site) (o : Nat) (v : W32) : (x.setHreg o v).raised = x.raised := rfl

@[simp] theorem setChan_regs (x : Site) (o : Nat) (v : Chan) : (x.setChan o v).c.regs = x.c.regs := rfl
@[simp] theorem setChan_mem (x : Site) (o : Nat) (v : Chan) : (x.setChan o v).c.mem = x.c.mem := rfl
@[simp] theorem setChan_ecc (x : Site) (o : Nat) (v : Chan) : (x.setChan o v).c.ecc = x.c.ecc := rfl
@[simp] theorem setChan_repairs (x : Site) (o : Nat) (v : Chan) : (x.setChan o v).c.repairs = x.c.repairs := rfl
@[simp] theorem setChan_repairing (x : Site) (o : Nat) (v : Chan) : (x.setChan o v).c.repairing = x.c.repairing := rfl
@[simp] theorem setChan_seq (x : Site) (o : Nat) (v : Chan) : (x.setChan o v).c.seq = x.c.seq := rfl
@[simp] theorem setChan_tokq (x : Site) (o : Nat) (v : Chan) : (x.setChan o v).c.tokq = x.c.tokq := rfl
@[simp] theorem setChan_hreg (x : Site) (o : Nat) (v : Chan) : (x.setChan o v).c.hreg = x.c.hreg := rfl
@[simp] theorem setChan_arrayQ (x : Site) (o : Nat) (v : Chan) : (x.setChan o v).c.arrayQ = x.c.arrayQ := rfl
@[simp] theorem setChan_drainQ (x : Site) (o : Nat) (v : Chan) : (x.setChan o v).c.drainQ = x.c.drainQ := rfl
@[simp] theorem setChan_vecQ (x : Site) (o : Nat) (v : Chan) : (x.setChan o v).c.vecQ = x.c.vecQ := rfl
@[simp] theorem setChan_gathQ (x : Site) (o : Nat) (v : Chan) : (x.setChan o v).c.gathQ = x.c.gathQ := rfl
@[simp] theorem setChan_sbuf0 (x : Site) (o : Nat) (v : Chan) : (x.setChan o v).c.sbuf0 = x.c.sbuf0 := rfl
@[simp] theorem setChan_sbuf1 (x : Site) (o : Nat) (v : Chan) : (x.setChan o v).c.sbuf1 = x.c.sbuf1 := rfl
@[simp] theorem setChan_loading (x : Site) (o : Nat) (v : Chan) : (x.setChan o v).c.loading = x.c.loading := rfl
@[simp] theorem setChan_streaming (x : Site) (o : Nat) (v : Chan) : (x.setChan o v).c.streaming = x.c.streaming := rfl
@[simp] theorem setChan_draining (x : Site) (o : Nat) (v : Chan) : (x.setChan o v).c.draining = x.c.draining := rfl
@[simp] theorem setChan_vector (x : Site) (o : Nat) (v : Chan) : (x.setChan o v).c.vector = x.c.vector := rfl
@[simp] theorem setChan_feeds (x : Site) (o : Nat) (v : Chan) : (x.setChan o v).c.feeds = x.c.feeds := rfl
@[simp] theorem setChan_gathDone (x : Site) (o : Nat) (v : Chan) : (x.setChan o v).c.gathDone = x.c.gathDone := rfl
@[simp] theorem setChan_counts (x : Site) (o : Nat) (v : Chan) : (x.setChan o v).c.counts = x.c.counts := rfl
@[simp] theorem setChan_captured (x : Site) (o : Nat) (v : Chan) : (x.setChan o v).c.captured = x.c.captured := rfl
@[simp] theorem setChan_pred (x : Site) (o : Nat) (v : Chan) : (x.setChan o v).c.pred = x.c.pred := rfl
@[simp] theorem setChan_predNext (x : Site) (o : Nat) (v : Chan) : (x.setChan o v).c.predNext = x.c.predNext := rfl
@[simp] theorem setChan_accepted (x : Site) (o : Nat) (v : Chan) : (x.setChan o v).c.accepted = x.c.accepted := rfl
@[simp] theorem setChan_stalled (x : Site) (o : Nat) (v : Chan) : (x.setChan o v).c.stalled = x.c.stalled := rfl
@[simp] theorem setChan_corrLog (x : Site) (o : Nat) (v : Chan) : (x.setChan o v).c.corrLog = x.c.corrLog := rfl
@[simp] theorem setChan_faultFence (x : Site) (o : Nat) (v : Chan) : (x.setChan o v).c.faultFence = x.c.faultFence := rfl
@[simp] theorem setChan_resetting (x : Site) (o : Nat) (v : Chan) : (x.setChan o v).c.resetting = x.c.resetting := rfl
@[simp] theorem setChan_resetSince (x : Site) (o : Nat) (v : Chan) : (x.setChan o v).c.resetSince = x.c.resetSince := rfl
@[simp] theorem setChan_stepWritten (x : Site) (o : Nat) (v : Chan) : (x.setChan o v).c.stepWritten = x.c.stepWritten := rfl
@[simp] theorem setChan_injectChk (x : Site) (o : Nat) (v : Chan) : (x.setChan o v).c.injectChk = x.c.injectChk := rfl
@[simp] theorem setChan_injectRes (x : Site) (o : Nat) (v : Chan) : (x.setChan o v).c.injectRes = x.c.injectRes := rfl
@[simp] theorem setChan_posts (x : Site) (o : Nat) (v : Chan) : (x.setChan o v).c.posts = x.c.posts := rfl
@[simp] theorem setChan_vecProg (x : Site) (o : Nat) (v : Chan) : (x.setChan o v).c.vecProg = x.c.vecProg := rfl
@[simp] theorem setChan_lastId (x : Site) (o : Nat) (v : Chan) : (x.setChan o v).c.lastId = x.c.lastId := rfl
@[simp] theorem setChan_sowMask (x : Site) (o : Nat) (v : Chan) : (x.setChan o v).c.sowMask = x.c.sowMask := rfl
@[simp] theorem setChan_sowMark (x : Site) (o : Nat) (v : Chan) : (x.setChan o v).c.sowMark = x.c.sowMark := rfl
@[simp] theorem setChan_q_ (x : Site) (o : Nat) (v : Chan) : (x.setChan o v).q = x.q := rfl
@[simp] theorem setChan_n_ (x : Site) (o : Nat) (v : Chan) : (x.setChan o v).n = x.n := rfl
@[simp] theorem setChan_hold_ (x : Site) (o : Nat) (v : Chan) : (x.setChan o v).hold = x.hold := rfl
@[simp] theorem setChan_cut_ (x : Site) (o : Nat) (v : Chan) : (x.setChan o v).cut = x.cut := rfl
@[simp] theorem setChan_now_ (x : Site) (o : Nat) (v : Chan) : (x.setChan o v).now = x.now := rfl
@[simp] theorem setChan_seed_ (x : Site) (o : Nat) (v : Chan) : (x.setChan o v).seed = x.seed := rfl
@[simp] theorem setChan_free_ (x : Site) (o : Nat) (v : Chan) : (x.setChan o v).free = x.free := rfl
@[simp] theorem setChan_out_ (x : Site) (o : Nat) (v : Chan) : (x.setChan o v).out = x.out := rfl
@[simp] theorem setChan_raised_ (x : Site) (o : Nat) (v : Chan) : (x.setChan o v).raised = x.raised := rfl

@[simp] theorem send_regs (x : Site) (k : Packet) : (x.send k).c.regs = x.c.regs := rfl
@[simp] theorem send_mem (x : Site) (k : Packet) : (x.send k).c.mem = x.c.mem := rfl
@[simp] theorem send_ecc (x : Site) (k : Packet) : (x.send k).c.ecc = x.c.ecc := rfl
@[simp] theorem send_repairs (x : Site) (k : Packet) : (x.send k).c.repairs = x.c.repairs := rfl
@[simp] theorem send_repairing (x : Site) (k : Packet) : (x.send k).c.repairing = x.c.repairing := rfl
@[simp] theorem send_seq (x : Site) (k : Packet) : (x.send k).c.seq = x.c.seq := rfl
@[simp] theorem send_tokq (x : Site) (k : Packet) : (x.send k).c.tokq = x.c.tokq := rfl
@[simp] theorem send_hreg (x : Site) (k : Packet) : (x.send k).c.hreg = x.c.hreg := rfl
@[simp] theorem send_arrayQ (x : Site) (k : Packet) : (x.send k).c.arrayQ = x.c.arrayQ := rfl
@[simp] theorem send_drainQ (x : Site) (k : Packet) : (x.send k).c.drainQ = x.c.drainQ := rfl
@[simp] theorem send_vecQ (x : Site) (k : Packet) : (x.send k).c.vecQ = x.c.vecQ := rfl
@[simp] theorem send_gathQ (x : Site) (k : Packet) : (x.send k).c.gathQ = x.c.gathQ := rfl
@[simp] theorem send_sbuf0 (x : Site) (k : Packet) : (x.send k).c.sbuf0 = x.c.sbuf0 := rfl
@[simp] theorem send_sbuf1 (x : Site) (k : Packet) : (x.send k).c.sbuf1 = x.c.sbuf1 := rfl
@[simp] theorem send_loading (x : Site) (k : Packet) : (x.send k).c.loading = x.c.loading := rfl
@[simp] theorem send_streaming (x : Site) (k : Packet) : (x.send k).c.streaming = x.c.streaming := rfl
@[simp] theorem send_draining (x : Site) (k : Packet) : (x.send k).c.draining = x.c.draining := rfl
@[simp] theorem send_vector (x : Site) (k : Packet) : (x.send k).c.vector = x.c.vector := rfl
@[simp] theorem send_feeds (x : Site) (k : Packet) : (x.send k).c.feeds = x.c.feeds := rfl
@[simp] theorem send_gathDone (x : Site) (k : Packet) : (x.send k).c.gathDone = x.c.gathDone := rfl
@[simp] theorem send_counts (x : Site) (k : Packet) : (x.send k).c.counts = x.c.counts := rfl
@[simp] theorem send_captured (x : Site) (k : Packet) : (x.send k).c.captured = x.c.captured := rfl
@[simp] theorem send_pred (x : Site) (k : Packet) : (x.send k).c.pred = x.c.pred := rfl
@[simp] theorem send_predNext (x : Site) (k : Packet) : (x.send k).c.predNext = x.c.predNext := rfl
@[simp] theorem send_chans (x : Site) (k : Packet) : (x.send k).c.chans = x.c.chans := rfl
@[simp] theorem send_accepted (x : Site) (k : Packet) : (x.send k).c.accepted = x.c.accepted := rfl
@[simp] theorem send_stalled (x : Site) (k : Packet) : (x.send k).c.stalled = x.c.stalled := rfl
@[simp] theorem send_corrLog (x : Site) (k : Packet) : (x.send k).c.corrLog = x.c.corrLog := rfl
@[simp] theorem send_faultFence (x : Site) (k : Packet) : (x.send k).c.faultFence = x.c.faultFence := rfl
@[simp] theorem send_resetting (x : Site) (k : Packet) : (x.send k).c.resetting = x.c.resetting := rfl
@[simp] theorem send_resetSince (x : Site) (k : Packet) : (x.send k).c.resetSince = x.c.resetSince := rfl
@[simp] theorem send_stepWritten (x : Site) (k : Packet) : (x.send k).c.stepWritten = x.c.stepWritten := rfl
@[simp] theorem send_injectChk (x : Site) (k : Packet) : (x.send k).c.injectChk = x.c.injectChk := rfl
@[simp] theorem send_injectRes (x : Site) (k : Packet) : (x.send k).c.injectRes = x.c.injectRes := rfl
@[simp] theorem send_posts (x : Site) (k : Packet) : (x.send k).c.posts = x.c.posts := rfl
@[simp] theorem send_vecProg (x : Site) (k : Packet) : (x.send k).c.vecProg = x.c.vecProg := rfl
@[simp] theorem send_lastId (x : Site) (k : Packet) : (x.send k).c.lastId = x.c.lastId := rfl
@[simp] theorem send_sowMask (x : Site) (k : Packet) : (x.send k).c.sowMask = x.c.sowMask := rfl
@[simp] theorem send_sowMark (x : Site) (k : Packet) : (x.send k).c.sowMark = x.c.sowMark := rfl
@[simp] theorem send_q_ (x : Site) (k : Packet) : (x.send k).q = x.q := rfl
@[simp] theorem send_n_ (x : Site) (k : Packet) : (x.send k).n = x.n := rfl
@[simp] theorem send_hold_ (x : Site) (k : Packet) : (x.send k).hold = x.hold := rfl
@[simp] theorem send_cut_ (x : Site) (k : Packet) : (x.send k).cut = x.cut := rfl
@[simp] theorem send_now_ (x : Site) (k : Packet) : (x.send k).now = x.now := rfl
@[simp] theorem send_seed_ (x : Site) (k : Packet) : (x.send k).seed = x.seed := rfl
@[simp] theorem send_free_ (x : Site) (k : Packet) : (x.send k).free = x.free := rfl
@[simp] theorem send_raised_ (x : Site) (k : Packet) : (x.send k).raised = x.raised := rfl

@[simp] theorem raise_mem (x : Site) (code : Nat) (opc : W16) (syn : W64) (cls : Option Bool)
    (refused : Option (Fin 2)) : (x.raise code opc syn cls refused).c.mem = x.c.mem := rfl
@[simp] theorem raise_ecc (x : Site) (code : Nat) (opc : W16) (syn : W64) (cls : Option Bool)
    (refused : Option (Fin 2)) : (x.raise code opc syn cls refused).c.ecc = x.c.ecc := rfl
@[simp] theorem raise_repairs (x : Site) (code : Nat) (opc : W16) (syn : W64) (cls : Option Bool)
    (refused : Option (Fin 2)) : (x.raise code opc syn cls refused).c.repairs = x.c.repairs := rfl
@[simp] theorem raise_repairing (x : Site) (code : Nat) (opc : W16) (syn : W64) (cls : Option Bool)
    (refused : Option (Fin 2)) : (x.raise code opc syn cls refused).c.repairing = x.c.repairing := rfl
@[simp] theorem raise_seq (x : Site) (code : Nat) (opc : W16) (syn : W64) (cls : Option Bool)
    (refused : Option (Fin 2)) : (x.raise code opc syn cls refused).c.seq = x.c.seq := rfl
@[simp] theorem raise_tokq (x : Site) (code : Nat) (opc : W16) (syn : W64) (cls : Option Bool)
    (refused : Option (Fin 2)) : (x.raise code opc syn cls refused).c.tokq = x.c.tokq := rfl
@[simp] theorem raise_hreg (x : Site) (code : Nat) (opc : W16) (syn : W64) (cls : Option Bool)
    (refused : Option (Fin 2)) : (x.raise code opc syn cls refused).c.hreg = x.c.hreg := rfl
@[simp] theorem raise_arrayQ (x : Site) (code : Nat) (opc : W16) (syn : W64) (cls : Option Bool)
    (refused : Option (Fin 2)) : (x.raise code opc syn cls refused).c.arrayQ = x.c.arrayQ := rfl
@[simp] theorem raise_drainQ (x : Site) (code : Nat) (opc : W16) (syn : W64) (cls : Option Bool)
    (refused : Option (Fin 2)) : (x.raise code opc syn cls refused).c.drainQ = x.c.drainQ := rfl
@[simp] theorem raise_vecQ (x : Site) (code : Nat) (opc : W16) (syn : W64) (cls : Option Bool)
    (refused : Option (Fin 2)) : (x.raise code opc syn cls refused).c.vecQ = x.c.vecQ := rfl
@[simp] theorem raise_gathQ (x : Site) (code : Nat) (opc : W16) (syn : W64) (cls : Option Bool)
    (refused : Option (Fin 2)) : (x.raise code opc syn cls refused).c.gathQ = x.c.gathQ := rfl
@[simp] theorem raise_sbuf0 (x : Site) (code : Nat) (opc : W16) (syn : W64) (cls : Option Bool)
    (refused : Option (Fin 2)) : (x.raise code opc syn cls refused).c.sbuf0 = x.c.sbuf0 := rfl
@[simp] theorem raise_sbuf1 (x : Site) (code : Nat) (opc : W16) (syn : W64) (cls : Option Bool)
    (refused : Option (Fin 2)) : (x.raise code opc syn cls refused).c.sbuf1 = x.c.sbuf1 := rfl
@[simp] theorem raise_loading (x : Site) (code : Nat) (opc : W16) (syn : W64) (cls : Option Bool)
    (refused : Option (Fin 2)) : (x.raise code opc syn cls refused).c.loading = x.c.loading := rfl
@[simp] theorem raise_streaming (x : Site) (code : Nat) (opc : W16) (syn : W64) (cls : Option Bool)
    (refused : Option (Fin 2)) : (x.raise code opc syn cls refused).c.streaming = x.c.streaming := rfl
@[simp] theorem raise_draining (x : Site) (code : Nat) (opc : W16) (syn : W64) (cls : Option Bool)
    (refused : Option (Fin 2)) : (x.raise code opc syn cls refused).c.draining = x.c.draining := rfl
@[simp] theorem raise_vector (x : Site) (code : Nat) (opc : W16) (syn : W64) (cls : Option Bool)
    (refused : Option (Fin 2)) : (x.raise code opc syn cls refused).c.vector = x.c.vector := rfl
@[simp] theorem raise_feeds (x : Site) (code : Nat) (opc : W16) (syn : W64) (cls : Option Bool)
    (refused : Option (Fin 2)) : (x.raise code opc syn cls refused).c.feeds = x.c.feeds := rfl
@[simp] theorem raise_gathDone (x : Site) (code : Nat) (opc : W16) (syn : W64) (cls : Option Bool)
    (refused : Option (Fin 2)) : (x.raise code opc syn cls refused).c.gathDone = x.c.gathDone := rfl
@[simp] theorem raise_counts (x : Site) (code : Nat) (opc : W16) (syn : W64) (cls : Option Bool)
    (refused : Option (Fin 2)) : (x.raise code opc syn cls refused).c.counts = x.c.counts := rfl
@[simp] theorem raise_captured (x : Site) (code : Nat) (opc : W16) (syn : W64) (cls : Option Bool)
    (refused : Option (Fin 2)) : (x.raise code opc syn cls refused).c.captured = x.c.captured := rfl
@[simp] theorem raise_pred (x : Site) (code : Nat) (opc : W16) (syn : W64) (cls : Option Bool)
    (refused : Option (Fin 2)) : (x.raise code opc syn cls refused).c.pred = x.c.pred := rfl
@[simp] theorem raise_predNext (x : Site) (code : Nat) (opc : W16) (syn : W64) (cls : Option Bool)
    (refused : Option (Fin 2)) : (x.raise code opc syn cls refused).c.predNext = x.c.predNext := rfl
@[simp] theorem raise_chans (x : Site) (code : Nat) (opc : W16) (syn : W64) (cls : Option Bool)
    (refused : Option (Fin 2)) : (x.raise code opc syn cls refused).c.chans = x.c.chans := rfl
@[simp] theorem raise_accepted (x : Site) (code : Nat) (opc : W16) (syn : W64) (cls : Option Bool)
    (refused : Option (Fin 2)) : (x.raise code opc syn cls refused).c.accepted = x.c.accepted := rfl
@[simp] theorem raise_stalled (x : Site) (code : Nat) (opc : W16) (syn : W64) (cls : Option Bool)
    (refused : Option (Fin 2)) : (x.raise code opc syn cls refused).c.stalled = x.c.stalled := rfl
@[simp] theorem raise_corrLog (x : Site) (code : Nat) (opc : W16) (syn : W64) (cls : Option Bool)
    (refused : Option (Fin 2)) : (x.raise code opc syn cls refused).c.corrLog = x.c.corrLog := rfl
@[simp] theorem raise_faultFence (x : Site) (code : Nat) (opc : W16) (syn : W64) (cls : Option Bool)
    (refused : Option (Fin 2)) : (x.raise code opc syn cls refused).c.faultFence = x.c.faultFence := rfl
@[simp] theorem raise_resetting (x : Site) (code : Nat) (opc : W16) (syn : W64) (cls : Option Bool)
    (refused : Option (Fin 2)) : (x.raise code opc syn cls refused).c.resetting = x.c.resetting := rfl
@[simp] theorem raise_resetSince (x : Site) (code : Nat) (opc : W16) (syn : W64) (cls : Option Bool)
    (refused : Option (Fin 2)) : (x.raise code opc syn cls refused).c.resetSince = x.c.resetSince := rfl
@[simp] theorem raise_stepWritten (x : Site) (code : Nat) (opc : W16) (syn : W64) (cls : Option Bool)
    (refused : Option (Fin 2)) : (x.raise code opc syn cls refused).c.stepWritten = x.c.stepWritten := rfl
@[simp] theorem raise_injectChk (x : Site) (code : Nat) (opc : W16) (syn : W64) (cls : Option Bool)
    (refused : Option (Fin 2)) : (x.raise code opc syn cls refused).c.injectChk = x.c.injectChk := rfl
@[simp] theorem raise_injectRes (x : Site) (code : Nat) (opc : W16) (syn : W64) (cls : Option Bool)
    (refused : Option (Fin 2)) : (x.raise code opc syn cls refused).c.injectRes = x.c.injectRes := rfl
@[simp] theorem raise_posts (x : Site) (code : Nat) (opc : W16) (syn : W64) (cls : Option Bool)
    (refused : Option (Fin 2)) : (x.raise code opc syn cls refused).c.posts = x.c.posts := rfl
@[simp] theorem raise_vecProg (x : Site) (code : Nat) (opc : W16) (syn : W64) (cls : Option Bool)
    (refused : Option (Fin 2)) : (x.raise code opc syn cls refused).c.vecProg = x.c.vecProg := rfl
@[simp] theorem raise_lastId (x : Site) (code : Nat) (opc : W16) (syn : W64) (cls : Option Bool)
    (refused : Option (Fin 2)) : (x.raise code opc syn cls refused).c.lastId = x.c.lastId := rfl
@[simp] theorem raise_sowMask (x : Site) (code : Nat) (opc : W16) (syn : W64) (cls : Option Bool)
    (refused : Option (Fin 2)) : (x.raise code opc syn cls refused).c.sowMask = x.c.sowMask := rfl
@[simp] theorem raise_sowMark (x : Site) (code : Nat) (opc : W16) (syn : W64) (cls : Option Bool)
    (refused : Option (Fin 2)) : (x.raise code opc syn cls refused).c.sowMark = x.c.sowMark := rfl
@[simp] theorem raise_q_ (x : Site) (code : Nat) (opc : W16) (syn : W64) (cls : Option Bool)
    (refused : Option (Fin 2)) : (x.raise code opc syn cls refused).q = x.q := rfl
@[simp] theorem raise_n_ (x : Site) (code : Nat) (opc : W16) (syn : W64) (cls : Option Bool)
    (refused : Option (Fin 2)) : (x.raise code opc syn cls refused).n = x.n := rfl
@[simp] theorem raise_hold_ (x : Site) (code : Nat) (opc : W16) (syn : W64) (cls : Option Bool)
    (refused : Option (Fin 2)) : (x.raise code opc syn cls refused).hold = x.hold := rfl
@[simp] theorem raise_cut_ (x : Site) (code : Nat) (opc : W16) (syn : W64) (cls : Option Bool)
    (refused : Option (Fin 2)) : (x.raise code opc syn cls refused).cut = x.cut := rfl
@[simp] theorem raise_now_ (x : Site) (code : Nat) (opc : W16) (syn : W64) (cls : Option Bool)
    (refused : Option (Fin 2)) : (x.raise code opc syn cls refused).now = x.now := rfl
@[simp] theorem raise_seed_ (x : Site) (code : Nat) (opc : W16) (syn : W64) (cls : Option Bool)
    (refused : Option (Fin 2)) : (x.raise code opc syn cls refused).seed = x.seed := rfl
@[simp] theorem raise_free_ (x : Site) (code : Nat) (opc : W16) (syn : W64) (cls : Option Bool)
    (refused : Option (Fin 2)) : (x.raise code opc syn cls refused).free = x.free := rfl
@[simp] theorem raise_out_ (x : Site) (code : Nat) (opc : W16) (syn : W64) (cls : Option Bool)
    (refused : Option (Fin 2)) : (x.raise code opc syn cls refused).out = x.out := rfl

@[simp] theorem setSeq_seq (x : Site) (v : Seq) : (x.setSeq v).c.seq = v := rfl
@[simp] theorem store_mem (x : Site) (a : Nat) (bs : List Byte) : (x.store a bs).c.mem = Memory.write x.c.mem a bs := rfl

@[simp] theorem leaveOpen_regs (x : Site) (a : Nat) (n : Nat) : (x.leaveOpen a n).c.regs = x.c.regs := rfl
@[simp] theorem leaveOpen_repairs (x : Site) (a : Nat) (n : Nat) : (x.leaveOpen a n).c.repairs = x.c.repairs := rfl
@[simp] theorem leaveOpen_repairing (x : Site) (a : Nat) (n : Nat) : (x.leaveOpen a n).c.repairing = x.c.repairing := rfl
@[simp] theorem leaveOpen_seq (x : Site) (a : Nat) (n : Nat) : (x.leaveOpen a n).c.seq = x.c.seq := rfl
@[simp] theorem leaveOpen_tokq (x : Site) (a : Nat) (n : Nat) : (x.leaveOpen a n).c.tokq = x.c.tokq := rfl
@[simp] theorem leaveOpen_hreg (x : Site) (a : Nat) (n : Nat) : (x.leaveOpen a n).c.hreg = x.c.hreg := rfl
@[simp] theorem leaveOpen_arrayQ (x : Site) (a : Nat) (n : Nat) : (x.leaveOpen a n).c.arrayQ = x.c.arrayQ := rfl
@[simp] theorem leaveOpen_drainQ (x : Site) (a : Nat) (n : Nat) : (x.leaveOpen a n).c.drainQ = x.c.drainQ := rfl
@[simp] theorem leaveOpen_vecQ (x : Site) (a : Nat) (n : Nat) : (x.leaveOpen a n).c.vecQ = x.c.vecQ := rfl
@[simp] theorem leaveOpen_gathQ (x : Site) (a : Nat) (n : Nat) : (x.leaveOpen a n).c.gathQ = x.c.gathQ := rfl
@[simp] theorem leaveOpen_sbuf0 (x : Site) (a : Nat) (n : Nat) : (x.leaveOpen a n).c.sbuf0 = x.c.sbuf0 := rfl
@[simp] theorem leaveOpen_sbuf1 (x : Site) (a : Nat) (n : Nat) : (x.leaveOpen a n).c.sbuf1 = x.c.sbuf1 := rfl
@[simp] theorem leaveOpen_loading (x : Site) (a : Nat) (n : Nat) : (x.leaveOpen a n).c.loading = x.c.loading := rfl
@[simp] theorem leaveOpen_streaming (x : Site) (a : Nat) (n : Nat) : (x.leaveOpen a n).c.streaming = x.c.streaming := rfl
@[simp] theorem leaveOpen_draining (x : Site) (a : Nat) (n : Nat) : (x.leaveOpen a n).c.draining = x.c.draining := rfl
@[simp] theorem leaveOpen_vector (x : Site) (a : Nat) (n : Nat) : (x.leaveOpen a n).c.vector = x.c.vector := rfl
@[simp] theorem leaveOpen_feeds (x : Site) (a : Nat) (n : Nat) : (x.leaveOpen a n).c.feeds = x.c.feeds := rfl
@[simp] theorem leaveOpen_gathDone (x : Site) (a : Nat) (n : Nat) : (x.leaveOpen a n).c.gathDone = x.c.gathDone := rfl
@[simp] theorem leaveOpen_counts (x : Site) (a : Nat) (n : Nat) : (x.leaveOpen a n).c.counts = x.c.counts := rfl
@[simp] theorem leaveOpen_captured (x : Site) (a : Nat) (n : Nat) : (x.leaveOpen a n).c.captured = x.c.captured := rfl
@[simp] theorem leaveOpen_pred (x : Site) (a : Nat) (n : Nat) : (x.leaveOpen a n).c.pred = x.c.pred := rfl
@[simp] theorem leaveOpen_predNext (x : Site) (a : Nat) (n : Nat) : (x.leaveOpen a n).c.predNext = x.c.predNext := rfl
@[simp] theorem leaveOpen_chans (x : Site) (a : Nat) (n : Nat) : (x.leaveOpen a n).c.chans = x.c.chans := rfl
@[simp] theorem leaveOpen_accepted (x : Site) (a : Nat) (n : Nat) : (x.leaveOpen a n).c.accepted = x.c.accepted := rfl
@[simp] theorem leaveOpen_stalled (x : Site) (a : Nat) (n : Nat) : (x.leaveOpen a n).c.stalled = x.c.stalled := rfl
@[simp] theorem leaveOpen_corrLog (x : Site) (a : Nat) (n : Nat) : (x.leaveOpen a n).c.corrLog = x.c.corrLog := rfl
@[simp] theorem leaveOpen_faultFence (x : Site) (a : Nat) (n : Nat) : (x.leaveOpen a n).c.faultFence = x.c.faultFence := rfl
@[simp] theorem leaveOpen_resetting (x : Site) (a : Nat) (n : Nat) : (x.leaveOpen a n).c.resetting = x.c.resetting := rfl
@[simp] theorem leaveOpen_resetSince (x : Site) (a : Nat) (n : Nat) : (x.leaveOpen a n).c.resetSince = x.c.resetSince := rfl
@[simp] theorem leaveOpen_stepWritten (x : Site) (a : Nat) (n : Nat) : (x.leaveOpen a n).c.stepWritten = x.c.stepWritten := rfl
@[simp] theorem leaveOpen_injectChk (x : Site) (a : Nat) (n : Nat) : (x.leaveOpen a n).c.injectChk = x.c.injectChk := rfl
@[simp] theorem leaveOpen_injectRes (x : Site) (a : Nat) (n : Nat) : (x.leaveOpen a n).c.injectRes = x.c.injectRes := rfl
@[simp] theorem leaveOpen_posts (x : Site) (a : Nat) (n : Nat) : (x.leaveOpen a n).c.posts = x.c.posts := rfl
@[simp] theorem leaveOpen_vecProg (x : Site) (a : Nat) (n : Nat) : (x.leaveOpen a n).c.vecProg = x.c.vecProg := rfl
@[simp] theorem leaveOpen_lastId (x : Site) (a : Nat) (n : Nat) : (x.leaveOpen a n).c.lastId = x.c.lastId := rfl
@[simp] theorem leaveOpen_sowMask (x : Site) (a : Nat) (n : Nat) : (x.leaveOpen a n).c.sowMask = x.c.sowMask := rfl
@[simp] theorem leaveOpen_sowMark (x : Site) (a : Nat) (n : Nat) : (x.leaveOpen a n).c.sowMark = x.c.sowMark := rfl
@[simp] theorem leaveOpen_q_ (x : Site) (a : Nat) (n : Nat) : (x.leaveOpen a n).q = x.q := rfl
@[simp] theorem leaveOpen_n_ (x : Site) (a : Nat) (n : Nat) : (x.leaveOpen a n).n = x.n := rfl
@[simp] theorem leaveOpen_hold_ (x : Site) (a : Nat) (n : Nat) : (x.leaveOpen a n).hold = x.hold := rfl
@[simp] theorem leaveOpen_cut_ (x : Site) (a : Nat) (n : Nat) : (x.leaveOpen a n).cut = x.cut := rfl
@[simp] theorem leaveOpen_now_ (x : Site) (a : Nat) (n : Nat) : (x.leaveOpen a n).now = x.now := rfl
@[simp] theorem leaveOpen_seed_ (x : Site) (a : Nat) (n : Nat) : (x.leaveOpen a n).seed = x.seed := rfl
@[simp] theorem leaveOpen_out_ (x : Site) (a : Nat) (n : Nat) : (x.leaveOpen a n).out = x.out := rfl
@[simp] theorem leaveOpen_raised_ (x : Site) (a : Nat) (n : Nat) : (x.leaveOpen a n).raised = x.raised := rfl
@[simp] theorem leaveOpen_ecc (x : Site) (a : Nat) (n : Nat) : (x.leaveOpen a n).c.ecc = x.c.ecc := rfl
@[simp] theorem send_out (x : Site) (k : Packet) : (x.send k).out = x.out ++ [k] := rfl

/-! ### Registers, queues, channels and handles after an update -/

theorem reg_setReg (x : Site) (o j : Nat) (v : W64) : (x.setReg o v).reg j = if j = o then v else x.reg j :=
  Tab.get_set _ _ _ _ _
@[simp] theorem reg_setReg_same (x : Site) (o : Nat) (v : W64) : (x.setReg o v).reg o = v := Tab.get_set_same _ _ _ _
theorem reg_setReg_ne (x : Site) {o j : Nat} (v : W64) (h : j ≠ o) : (x.setReg o v).reg j = x.reg j :=
  Tab.get_set_ne _ _ _ h
theorem queue_setQueue (x : Site) (k j : Nat) (l : List W32) :
    (x.setQueue k l).queue j = if j = k then l else x.queue j := Tab.get_set _ _ _ _ _
theorem queue_push (x : Site) (k j : Nat) (h : W32) :
    (x.push k h).queue j = if j = k then x.queue k ++ [h] else x.queue j := Tab.get_set _ _ _ _ _
theorem hreg_setHreg (x : Site) (k j : Nat) (h : W32) : (x.setHreg k h).hreg j = if j = k then h else x.hreg j :=
  Tab.get_set _ _ _ _ _
theorem chan_setChan (x : Site) (i j : Nat) (c : Chan) : (x.setChan i c).chan j = if j = i then c else x.chan j :=
  Tab.get_set _ _ _ _ _
theorem eccOf_setEcc (x : Site) (i j : Nat) (e : Ecc) : (x.setEcc i e).eccOf j = if j = i then e else x.eccOf j :=
  Tab.get_set _ _ _ _ _

@[simp] theorem reg_setSeq (x : Site) (v : Seq) (j : Nat) : (x.setSeq v).reg j = x.reg j := rfl
@[simp] theorem queue_setSeq (x : Site) (v : Seq) (j : Nat) : (x.setSeq v).queue j = x.queue j := rfl
@[simp] theorem hreg_setSeq (x : Site) (v : Seq) (j : Nat) : (x.setSeq v).hreg j = x.hreg j := rfl
@[simp] theorem chan_setSeq (x : Site) (v : Seq) (j : Nat) : (x.setSeq v).chan j = x.chan j := rfl
@[simp] theorem reg_setEcc (x : Site) (o : Nat) (v : Ecc) (j : Nat) : (x.setEcc o v).reg j = x.reg j := rfl
@[simp] theorem queue_setEcc (x : Site) (o : Nat) (v : Ecc) (j : Nat) : (x.setEcc o v).queue j = x.queue j := rfl
@[simp] theorem hreg_setEcc (x : Site) (o : Nat) (v : Ecc) (j : Nat) : (x.setEcc o v).hreg j = x.hreg j := rfl
@[simp] theorem chan_setEcc (x : Site) (o : Nat) (v : Ecc) (j : Nat) : (x.setEcc o v).chan j = x.chan j := rfl
@[simp] theorem reg_store (x : Site) (a : Nat) (bs : List Byte) (j : Nat) : (x.store a bs).reg j = x.reg j := rfl
@[simp] theorem queue_store (x : Site) (a : Nat) (bs : List Byte) (j : Nat) : (x.store a bs).queue j = x.queue j := rfl
@[simp] theorem hreg_store (x : Site) (a : Nat) (bs : List Byte) (j : Nat) : (x.store a bs).hreg j = x.hreg j := rfl
@[simp] theorem chan_store (x : Site) (a : Nat) (bs : List Byte) (j : Nat) : (x.store a bs).chan j = x.chan j := rfl
@[simp] theorem reg_setQueue (x : Site) (o : Nat) (v : List W32) (j : Nat) : (x.setQueue o v).reg j = x.reg j := rfl
@[simp] theorem hreg_setQueue (x : Site) (o : Nat) (v : List W32) (j : Nat) : (x.setQueue o v).hreg j = x.hreg j := rfl
@[simp] theorem chan_setQueue (x : Site) (o : Nat) (v : List W32) (j : Nat) : (x.setQueue o v).chan j = x.chan j := rfl
@[simp] theorem reg_push (x : Site) (o : Nat) (v : W32) (j : Nat) : (x.push o v).reg j = x.reg j := rfl
@[simp] theorem hreg_push (x : Site) (o : Nat) (v : W32) (j : Nat) : (x.push o v).hreg j = x.hreg j := rfl
@[simp] theorem chan_push (x : Site) (o : Nat) (v : W32) (j : Nat) : (x.push o v).chan j = x.chan j := rfl
@[simp] theorem reg_setHreg (x : Site) (o : Nat) (v : W32) (j : Nat) : (x.setHreg o v).reg j = x.reg j := rfl
@[simp] theorem queue_setHreg (x : Site) (o : Nat) (v : W32) (j : Nat) : (x.setHreg o v).queue j = x.queue j := rfl
@[simp] theorem chan_setHreg (x : Site) (o : Nat) (v : W32) (j : Nat) : (x.setHreg o v).chan j = x.chan j := rfl
@[simp] theorem reg_setChan (x : Site) (o : Nat) (v : Chan) (j : Nat) : (x.setChan o v).reg j = x.reg j := rfl
@[simp] theorem queue_setChan (x : Site) (o : Nat) (v : Chan) (j : Nat) : (x.setChan o v).queue j = x.queue j := rfl
@[simp] theorem hreg_setChan (x : Site) (o : Nat) (v : Chan) (j : Nat) : (x.setChan o v).hreg j = x.hreg j := rfl
@[simp] theorem reg_send (x : Site) (k : Packet) (j : Nat) : (x.send k).reg j = x.reg j := rfl
@[simp] theorem queue_send (x : Site) (k : Packet) (j : Nat) : (x.send k).queue j = x.queue j := rfl
@[simp] theorem hreg_send (x : Site) (k : Packet) (j : Nat) : (x.send k).hreg j = x.hreg j := rfl
@[simp] theorem chan_send (x : Site) (k : Packet) (j : Nat) : (x.send k).chan j = x.chan j := rfl
@[simp] theorem queue_setReg (x : Site) (o : Nat) (v : W64) (j : Nat) : (x.setReg o v).queue j = x.queue j := rfl
@[simp] theorem hreg_setReg (x : Site) (o : Nat) (v : W64) (j : Nat) : (x.setReg o v).hreg j = x.hreg j := rfl
@[simp] theorem chan_setReg (x : Site) (o : Nat) (v : W64) (j : Nat) : (x.setReg o v).chan j = x.chan j := rfl
@[simp] theorem eccOf_setReg (x : Site) (o : Nat) (v : W64) (j : Nat) : (x.setReg o v).eccOf j = x.eccOf j := rfl

/-- What a byte of a croft reads after a store. -/
theorem byte_store (x : Site) (a j : Nat) (bs : List Byte) :
    Memory.byte (x.store a bs).c.mem j = if a ≤ j ∧ j < a + bs.length then bs.getD (j - a) 0 else Memory.byte x.c.mem j :=
  Memory.byte_write _ _ _ _

end Site
end Sys2Proof.Machine
end

