-- ==== Sys2Proof/Laws/Croft.lean ====
section
/-! SUPPORT. What a command of one croft comes to, and the shared operations of its sequencer. -/

namespace Sys2Proof.Machine
open Sys2Proof.Safety

/-- A command whose croft hands out no packet and no event, and takes no free value, sets the croft alone. -/
theorem State.onCroft_eq (s : State) (q : Nat) (f : Site → Site) (ho : (f (s.site q)).out = [])
    (hr : (f (s.site q)).raised = []) (hf : (f (s.site q)).free = s.freeCtr) :
    s.onCroft q f = s.setCroft q (f (s.site q)).c := by
  simp [State.onCroft, State.putSite, State.reportAll, State.setCroft, ho, hr, hf]

/-- What any command of one croft comes to. -/
theorem State.onCroft_eq' (s : State) (q : Nat) (f : Site → Site) :
    s.onCroft q f = { s.setCroft q (f (s.site q)).c with
      freeCtr := (f (s.site q)).free
      outq := s.outq ++ (f (s.site q)).out ++ ((f (s.site q)).raised.filter s.mayRaise).flatMap s.reportPackets
      reports := s.reports ++ (f (s.site q)).raised.filter s.mayRaise } := rfl

theorem State.onlyCroft_onCroft (s : State) (q : Nat) (f : Site → Site) : OnlyCroft q s (s.onCroft q f) :=
  ⟨fun _ h => State.croft_onCroft_ne s f h, rfl⟩

@[simp] theorem State.site_queue (s : State) (q k : Nat) : (s.site q).queue k = queueOf (s.croft q) k := rfl
@[simp] theorem State.site_reg (s : State) (q o : Nat) : (s.site q).reg o = regOf (s.croft q) o := rfl
@[simp] theorem State.site_hreg (s : State) (q k : Nat) : (s.site q).hreg k = hregOf (s.croft q) k := rfl
@[simp] theorem State.site_chan (s : State) (q i : Nat) : (s.site q).chan i = chanOf (s.croft q) i := rfl

/-- A command that only changes its croft's own state. -/
theorem State.onCroft_next {s : State} {q : Nat} {f : Site → Site} {c : Croft} (h : f (s.site q) = { s.site q with c := c }) :
    (Host.Outcome.next (s.onCroft q f) : Host.Outcome State Fault Refusal) = .next (s.setCroft q c) := by
  rw [State.onCroft_eq] <;> simp [h]

/-- A command that changes its croft's own state, and hands out packets and events. -/
theorem State.onCroft_next' {s : State} {q : Nat} {f : Site → Site} {c : Croft} {n : Nat} {o : List Packet} {r : List Report}
    (h : f (s.site q) = { s.site q with c := c, free := n, out := o, raised := r }) :
    (Host.Outcome.next (s.onCroft q f) : Host.Outcome State Fault Refusal) =
      .next { s.setCroft q c with
        freeCtr := n, outq := s.outq ++ o ++ (r.filter s.mayRaise).flatMap s.reportPackets
        reports := s.reports ++ r.filter s.mayRaise } := by
  rw [State.onCroft_eq', h]

/-- An event of a croft goes to its reeve where the parish's network domain is on, and is none where it is off. -/
theorem State.reportAll_croft (s : State) (q : Phys) (r : Report) (h : r.loc = BitVec.ofNat 32 q) :
    s.reportAll [r] = if (s.parish (q / 500)).net = true then raisedAt s (some (0x7200 + q / 500)) r else s := by
  have hq := q.isLt
  have hl : r.loc.toNat = q.val := by rw [h, BitVec.toNat_ofNat]; omega
  have hm : s.mayRaise r = (s.parish (q / 500)).net := by
    unfold State.mayRaise
    rw [hl, show q.val / 2 ^ 28 = 0 by omega, show q.val % 2 ^ 15 = q.val by omega]; rfl
  have hp : s.reportPackets r = [reportPacket s (0x7200 + q / 500) r] := by
    unfold State.reportPackets State.reporter
    rw [hl, show q.val / 2 ^ 28 = 0 by omega]
    simp only [show q.val % 2 ^ 28 % 2 ^ 15 = q.val by omega]
    rfl
  by_cases hn : (s.parish (q / 500)).net = true
  · simp [State.reportAll, hm, hn, hp, raisedAt]
  · simp [State.reportAll, hm, hn]

/-- A command that changes its croft's own state and raises one event. -/
theorem State.onCroft_reported {s : State} {q : Phys} {f : Site → Site} {c : Croft} {source : Nat} {opcode : W16} {syn : W64}
    {cls : Option Bool}
    (h : f (s.site q) = { s.site q with
      c := c, raised := [{ source, loc := BitVec.ofNat 32 q, time := s.clock.now, syndrome := syn, opcode, tclass := cls }] }) :
    (Host.Outcome.next (s.onCroft q f) : Host.Outcome State Fault Refusal) =
      .next (reported (s.setCroft q c) q source opcode syn cls) := by
  have : s.onCroft q f = (s.setCroft q c).reportAll
      [{ source, loc := BitVec.ofNat 32 q, time := s.clock.now, syndrome := syn, opcode, tclass := cls }] := by
    unfold State.onCroft State.putSite; rw [h]; simp [State.setCroft]
  rw [this, State.reportAll_croft _ _ _ rfl]
  rfl

/-- A register write at a croft that packets reach and that is in no croft reset, at one in a reset, which refuses it (R100),
and at one that no packet reaches (R66). -/
theorem State.onRegs_eq {s : State} {q : Nat} (f : Site → Site) (ha : s.atCroft q = true) (h : (s.croft q).resetting = false) :
    s.onRegs q f = s.onCroft q f := by
  unfold State.onRegs State.onCroft
  simp [ha, h]

theorem State.onRegs_cut {s : State} {q : Nat} (f : Site → Site) (ha : s.atCroft q = false) : s.onRegs q f = s := by
  unfold State.onRegs
  simp [ha]

theorem State.onRegs_reset {s : State} {q : Nat} (f : Site → Site) (ha : s.atCroft q = true) (h : (s.croft q).resetting = true) :
    s.onRegs q f = s.setCroft q (s.croft q) := by
  unfold State.onRegs
  rw [if_pos ha, State.onCroft_eq] <;> simp [h]

namespace Site

/-- A word of a sequencer issues: its pc moves past it and nothing else changes. -/
theorem issued_eq (x : Site) : x.issued = x.setSeq (past x.c.seq) := rfl

theorem issuing_eq {s : State} {q : Nat} {w : W128} (h : Issues s q w) (cls : Nat) (hc : wordClass w = cls) :
    (s.site q).issuing cls = some w := by
  obtain ⟨h1, h2, h3, h4, h5, h6⟩ := h
  simp [issuing, canIssue, h1, h2, h3, h4, h5, h6, hc]

/-- A word of a running sequencer and a unit's queue: it is queued and issued, or the sequencer is held. -/
theorem enqueue_eq (x : Site) (w : W128) (l : List QWord) (put : List QWord → Croft → Croft)
    (hp : (put (l ++ [x.qword w]) x.c).seq = x.c.seq) :
    x.enqueue w l put = if 4 ≤ l.length then (x.stay .unitFull).stalls
      else { x with c := { put (l ++ [x.qword w]) x.c with seq := past x.c.seq } }.stalls := by
  unfold enqueue
  split
  · rfl
  · simp [issued_eq, setSeq, hp]

end Site

/-! ### Registers of a croft after updates of its site -/

theorem regOf_setReg (x : Site) (o j : Nat) (v : W64) :
    regOf (x.setReg o v).c j = if j = o then v else regOf x.c j := Tab.get_set _ _ _ _ _
@[simp] theorem regOf_setSeq (x : Site) (v : Seq) (j : Nat) : regOf (x.setSeq v).c j = regOf x.c j := rfl
@[simp] theorem regOf_push (x : Site) (k : Nat) (h : W32) (j : Nat) : regOf (x.push k h).c j = regOf x.c j := rfl
@[simp] theorem queueOf_push (x : Site) (k j : Nat) (h : W32) :
    queueOf (x.push k h).c j = if j = k then queueOf x.c k ++ [h] else queueOf x.c j := Tab.get_set _ _ _ _ _
@[simp] theorem queueOf_setReg (x : Site) (o j : Nat) (v : W64) : queueOf (x.setReg o v).c j = queueOf x.c j := rfl
@[simp] theorem queueOf_setSeq (x : Site) (v : Seq) (j : Nat) : queueOf (x.setSeq v).c j = queueOf x.c j := rfl
theorem reg_eq (x : Site) (o : Nat) : x.reg o = regOf x.c o := rfl

theorem fld_setWidth (v : W32) (hi lo : Nat) : fld (v.setWidth 64) hi lo = bitsOf v.toNat hi lo := by
  unfold fld; congr 1
theorem bit_setWidth (v : W32) (i : Nat) (h : i < 64) : bit (v.setWidth 64) i = v.getLsbD i := by
  simp [bit, h]

theorem live_setReg (x : Site) (o : Nat) (v : W64) (h : o ≠ Reg.crfCtrl) : (x.setReg o v).live = x.live := by
  unfold Site.live Site.fenced; rw [Site.reg_setReg_ne _ _ h.symm]; rfl

theorem unitsIdle_iff (s : State) (q : Nat) : (s.site q).unitsIdle = true ↔ UnitsIdle (s.croft q) := by
  simp [Site.unitsIdle, UnitsIdle]
  tauto

/-- The registers of windows lie apart. -/
theorem winRange_ne_state (i j : Nat) : Reg.crfWinRange i ≠ Reg.crfWinState j := by unfold Reg.crfWinRange Reg.crfWinState; omega
theorem winState_inj {i j : Nat} : Reg.crfWinState i = Reg.crfWinState j ↔ i = j := by unfold Reg.crfWinState; omega
theorem winRange_inj {i j : Nat} : Reg.crfWinRange i = Reg.crfWinRange j ↔ i = j := by unfold Reg.crfWinRange; omega
theorem carArrive_ne_state (i : Nat) {j : Nat} (h : j < 16) : Reg.carArrive i ≠ Reg.crfWinState j := by
  unfold Reg.carArrive Reg.crfWinState; omega
theorem carArrive_ne_range (i : Nat) {j : Nat} (h : j < 16) : Reg.carArrive i ≠ Reg.crfWinRange j := by
  unfold Reg.carArrive Reg.crfWinRange; omega

namespace Site

/-- A window open at its index. -/
theorem openWin_opened (x : Site) {w base len perm : Nat} (hw : w < 16) (hb : base < 65536) (hl : len < 65536) (hp : perm < 8) :
    OpenedTo x.c (x.openWin w base len perm).c w base len perm := by
  have h1 := carArrive_ne_state w hw
  have h2 := carArrive_ne_range w hw
  have h3 := winRange_ne_state w w
  have hg : x.winGen w < 256 := by unfold winGen field fld bitsOf; omega
  have hr : regOf (x.openWin w base len perm).c (Reg.crfWinRange w) = BitVec.ofNat 64 (len % 65536 * 65536 + base % 65536) := by
    simp [openWin, regOf_setReg, h2.symm, h3]
  have hs : regOf (x.openWin w base len perm).c (Reg.crfWinState w) = BitVec.ofNat 64 (perm % 8 * 2 ^ 12 + 2 ^ 8 + x.winGen w) := by
    have hk : (x.setReg (Reg.crfWinRange w) (BitVec.ofNat 64 (len % 65536 * 65536 + base % 65536))).winGen w = x.winGen w := by
      unfold winGen field; rw [reg_setReg_ne _ _ h3.symm]
    unfold openWin
    dsimp only
    rw [regOf_setReg, if_neg h1.symm, regOf_setReg, if_pos rfl, hk]
  have e : Safety.winGen x.c w = x.winGen w := rfl
  refine ⟨?_, ?_, ?_, ?_, ?_, ?_⟩
  · unfold Safety.winState; rw [hs]; simp only [fld, bitsOf, BitVec.toNat_ofNat]; omega
  · rw [e]; unfold Safety.winGen; rw [hs]; simp only [fld, bitsOf, BitVec.toNat_ofNat]; omega
  · unfold Safety.winPerm; rw [hs]; simp only [fld, bitsOf, BitVec.toNat_ofNat]; omega
  · unfold Safety.winBase; rw [hr]; simp only [fld, bitsOf, BitVec.toNat_ofNat]; omega
  · unfold Safety.winLen; rw [hr]; simp only [fld, bitsOf, BitVec.toNat_ofNat]; omega
  · simp [openWin, regOf_setReg]

/-- A window open changes three registers and nothing else. -/
theorem openWin_frame (x : Site) (w base len perm : Nat) :
    x.openWin w base len perm = { x with c := { x.c with regs := (x.openWin w base len perm).c.regs } } ∧
    RegsKept x.c (x.openWin w base len perm).c [Reg.crfWinRange w, Reg.crfWinState w, Reg.carArrive w] := by
  refine ⟨rfl, fun o ho => ?_⟩
  simp only [List.mem_cons, List.not_mem_nil, or_false, not_or] at ho
  simp [openWin, regOf_setReg, ho]

/-- What a window's close releases is the sequencer's hold alone. -/
theorem closeReleases_eq (x : Site) (w : Nat) : x.closeReleases w = x.setSeq (x.closeReleases w).c.seq := by
  unfold closeReleases; split <;> rfl
@[simp] theorem regOf_closeReleases (x : Site) (w o : Nat) : regOf (x.closeReleases w).c o = regOf x.c o := by
  rw [closeReleases_eq]; rfl

/-- An open window's close: its generation a step on, and CLOSED or CLOSING (R95). -/
theorem closeWin_closed (x : Site) {w : Nat} (h : x.winState w = 1) :
    Safety.winGen ((x.closeWin w).closeDone w).c w = (Safety.winGen x.c w + 1) % 256 ∧
    Safety.winState ((x.closeWin w).closeDone w).c w = (if x.winDrained w then 0 else 2) ∧
    Safety.winPerm ((x.closeWin w).closeDone w).c w = Safety.winPerm x.c w := by
  have hc : x.closeWin w = ((x.setField (Reg.crfWinState w) 7 0 (x.winGen w + 1)).setField (Reg.crfWinState w) 9 8 2) := by
    unfold closeWin; rw [if_pos h]
  have h2 : (x.closeWin w).winState w = 2 := by
    rw [hc]; unfold winState field setField
    rw [reg_setReg_same, fld_setFld _ _ _ _ (by omega)]; rfl
  have hd : (x.closeWin w).winDrained w = x.winDrained w := by rw [hc]; rfl
  have hg : regOf (x.closeWin w).c (Reg.crfWinState w) =
      setFld (setFld (regOf x.c (Reg.crfWinState w)) 7 0 (x.winGen w + 1)) 9 8 2 := by
    rw [hc]; unfold setField; rw [regOf_setReg, if_pos rfl, reg_setReg_same]; rfl
  unfold closeDone
  rw [h2, hd]
  have e : x.winGen w = Safety.winGen x.c w := rfl
  by_cases hw : x.winDrained w = true
  · simp only [hw, and_self, if_true]
    have : regOf (((x.closeWin w).setField (Reg.crfWinState w) 9 8 0).closeReleases w).c (Reg.crfWinState w) =
        setFld (regOf (x.closeWin w).c (Reg.crfWinState w)) 9 8 0 := by
      rw [regOf_closeReleases]; unfold setField; rw [regOf_setReg, if_pos rfl]; rfl
    unfold Safety.winGen Safety.winState Safety.winPerm
    rw [this, hg, fld_setFld_ne _ _ _ _ _ _ (by omega) (by omega), fld_setFld_ne _ _ _ _ _ _ (by omega) (by omega),
      fld_setFld _ _ _ _ (by omega), fld_setFld _ _ _ _ (by omega), fld_setFld_ne _ _ _ _ _ _ (by omega) (by omega),
      fld_setFld_ne _ _ _ _ _ _ (by omega) (by omega), fld_setFld_ne _ _ _ _ _ _ (by omega) (by omega), e]
    exact ⟨rfl, rfl, rfl⟩
  · have hw' : x.winDrained w = false := by simpa using hw
    simp only [hw', Bool.false_eq_true, and_false, if_false]
    unfold Safety.winGen Safety.winState Safety.winPerm
    rw [hg, fld_setFld_ne _ _ _ _ _ _ (by omega) (by omega), fld_setFld _ _ _ _ (by omega), fld_setFld _ _ _ _ (by omega),
      fld_setFld_ne _ _ _ _ _ _ (by omega) (by omega), fld_setFld_ne _ _ _ _ _ _ (by omega) (by omega), e]
    exact ⟨rfl, rfl, rfl⟩

/-- What a window that becomes CLOSED does to the sequencer. -/
theorem closeDone_seq (x : Site) (w : Nat) (h : w < 16) :
    (x.closeDone w).c.seq =
      if (x.winState w = 2 ∧ x.winDrained w) ∧ (x.c.seq.held = .closing w ∨ x.c.seq.held = .opening w) ∧ x.live then
        { x.c.seq with st := .run, held := .nothing }
      else x.c.seq := by
  have hl : (x.setField (Reg.crfWinState w) 9 8 0).live = x.live :=
    live_setReg _ _ _ (by unfold Reg.crfWinState Reg.crfCtrl; omega)
  unfold closeDone
  by_cases h1 : x.winState w = 2 ∧ x.winDrained w
  · simp only [h1, and_self, if_true, true_and]
    unfold closeReleases
    rw [hl]
    rw [show (x.setField (Reg.crfWinState w) 9 8 0).c.seq = x.c.seq from rfl]
    split
    · rfl
    · rfl
  · rw [if_neg h1, if_neg fun h => h1 h.1]

/-- What an open window's close does to the sequencer. -/
theorem closeWin_seq (x : Site) {w : Nat} (h : w < 16) (hw : x.winState w = 1) :
    ((x.closeWin w).closeDone w).c.seq =
      if x.winDrained w ∧ (x.c.seq.held = .closing w ∨ x.c.seq.held = .opening w) ∧ x.live then
        { x.c.seq with st := .run, held := .nothing }
      else x.c.seq := by
  have hc : x.closeWin w = ((x.setField (Reg.crfWinState w) 7 0 (x.winGen w + 1)).setField (Reg.crfWinState w) 9 8 2) := by
    unfold closeWin; rw [if_pos hw]
  have hne : Reg.crfWinState w ≠ Reg.crfCtrl := by unfold Reg.crfWinState Reg.crfCtrl; omega
  have h2 : (x.closeWin w).winState w = 2 := by
    rw [hc]; unfold winState field setField
    rw [reg_setReg_same, fld_setFld _ _ _ _ (by omega)]; rfl
  have hl : (x.closeWin w).live = x.live := by
    rw [hc]; exact (live_setReg _ _ _ hne).trans (live_setReg _ _ _ hne)
  have hs : (x.closeWin w).c.seq = x.c.seq := by rw [hc]; rfl
  have hd : (x.closeWin w).winDrained w = x.winDrained w := by rw [hc]; rfl
  rw [closeDone_seq _ _ h, h2, hl, hs, hd]
  simp

/-- An incomplete output tile's bytes are free values, and every byte outside them stays. -/
theorem leaveOpen_byte (x : Site) (a n j : Nat) :
    Memory.byte (x.leaveOpen a n).c.mem j =
      if a ≤ j ∧ j < a + within a n then Config.freeByte (x.free + (j - a)) else Memory.byte x.c.mem j := by
  simp only [leaveOpen, Memory.byte_write, List.length_map, List.length_range]
  split
  · next h => simp [List.getD, show j - a < within a n by omega]
  · rfl

/-- A close changes the window's STATE register and, as WAIT_CLOSED ends, the sequencer, and nothing else. -/
theorem closeWin_frame (x : Site) (w : Nat) :
    (x.closeWin w).closeDone w = { x with c := { x.c with
      regs := ((x.closeWin w).closeDone w).c.regs, seq := ((x.closeWin w).closeDone w).c.seq } } ∧
    RegsKept x.c ((x.closeWin w).closeDone w).c [Reg.crfWinState w] := by
  constructor
  · unfold closeDone closeWin
    split
    · split
      · rw [closeReleases_eq]; rfl
      · rfl
    · split
      · rw [closeReleases_eq]; rfl
      · rfl
  · intro o ho
    simp only [List.mem_singleton] at ho
    unfold closeDone closeWin
    split <;> split <;> simp [setField, regOf_setReg, ho]

end Site
end Sys2Proof.Machine
end

