-- ==== Sys2Proof/Laws/Carter.lean ====
section
/-! SUPPORT. What a command of one carter channel comes to. -/

namespace Sys2Proof.Machine
open Sys2Proof.Safety

theorem chanOf_setChan (x : Site) (i j : Nat) (v : Chan) : chanOf (x.setChan i v).c j = if j = i then v else chanOf x.c j :=
  Tab.get_set _ _ _ _ _

/-- A command of a croft that changes one channel, and what makes its croft c. -/
theorem chanTo_onCroft {s : State} {q i : Nat} {f : Site → Site} {v : Chan} {c : Croft} (hr : (f (s.site q)).raised = [])
    (hi : chanOf (f (s.site q)).c i = v) (hj : ∀ j, j ≠ i → chanOf (f (s.site q)).c j = chanOf (s.croft q) j)
    (hc : (f (s.site q)).c = { c with chans := (f (s.site q)).c.chans }) : ChanTo q i s (s.onCroft q f) v c := by
  refine ⟨State.onlyCroft_onCroft _ _ _, ?_, ?_, ?_, ?_⟩
  · rw [State.onCroft_reports, hr]; simp
  · rw [State.croft_onCroft_same]; exact hi
  · intro j h; rw [State.croft_onCroft_same]; exact hj j h
  · rw [State.croft_onCroft_same]; exact hc

namespace Site

/-- A fetch that meets no error reads the codeword and leaves the channel with its instruction. -/
theorem carFetch_clean (x : Site) (i : Nat) (he : eccAt x.c (x.chan i).pc = .clean)
    (ht : (x.chan i).fetchTries = 0) : x.carFetch i = (x.setChan i (fetchedTo (x.chan i) (x.carPeek i)), true) := by
  have hck : x.check (x.chan i).pc (carOpcode 0) (some (x.chan i).tclass) = (x, false) := by
    unfold check
    have : x.eccOf (x.chan i).pc = .clean := he
    rw [this]
  have hv : { x.chan i with fetchTries := 0, instr := x.carPeek i, fetched := true } =
      fetchedTo (x.chan i) (x.carPeek i) := by unfold fetchedTo; rw [← ht]
  unfold carFetch
  simp only [ht, if_true, hck, Bool.not_false, modChan]
  rw [hv]

/-- A channel that holds an instruction executes it. -/
theorem carInstr_held {s : State} {q i : Nat} (hl : Live s q) (h1 : (chanOf (s.croft q) i).st = .run)
    (h2 : (chanOf (s.croft q) i).moving = none) (h3 : (chanOf (s.croft q) i).fetched = true) (p : W256 → Bool)
    (hp : p (chanOf (s.croft q) i).instr = true) (f : Site → W256 → Site) :
    (s.site q).carInstr i p f = f (s.site q) (chanOf (s.croft q) i).instr := by
  unfold carInstr
  simp [show (s.site q).live = true from hl, h1, h2, h3, hp]

/-- A channel that holds none fetches the legal instruction at its pc and executes it. -/
theorem carInstr_fetch {s : State} {q i : Nat} {w : W256} (h : CarterAt s q i w)
    (hf : (chanOf (s.croft q) i).fetched = false) (p : W256 → Bool) (hp : p w = true) (f : Site → W256 → Site) :
    (s.site q).carInstr i p f = f ((s.site q).setChan i (fetchedTo (chanOf (s.croft q) i) w)) w := by
  obtain ⟨hl, h1, h2, h5, h8, ⟨hn, -⟩ | ⟨-, h3, h4, h6, h7⟩⟩ := h
  · rw [hf] at hn; cases hn
  have hill : (s.site q).instrIllegal i = false := by
    have : ¬ 65536 ≤ ((s.site q).chan i).pc := Nat.not_le.2 h3
    unfold instrIllegal
    rw [h4]
    simp only [this, decide_false, h5, Bool.not_true, Bool.false_or, Bool.and_eq_false_iff]
    by_cases ho : carOpc w = 3
    · exact .inr (h6 ho)
    · left; simpa using ho
  have e1 : ((s.site q).chan i).st = .run := h1
  have e2 : ((s.site q).chan i).moving = none := h2
  have e3 : ((s.site q).chan i).fetched = false := hf
  have hc := carFetch_clean (s.site q) i h7 h8
  rw [h4] at hc
  unfold carInstr
  simp only [show (s.site q).live = true from hl, e1, e2, e3, hill, h4, hc]
  simp [hp, show ((s.site q).chan i) = chanOf (s.croft q) i from rfl]

end Site
end Sys2Proof.Machine
end

