-- ==== Sys2Proof/Laws/Events.lean ====
section
/-! SUPPORT. What raising an event does, by the kind of its location (R380 to R382): it is kept, and its report leaves where
a reporter of the mesh sends one. -/

namespace Sys2Proof.Machine.State

open Sys2Proof.Safety

/-- The event that `raise` makes of its arguments. -/
def eventOf (s : State) (code : Nat) (loc : W32) (syn : W64) (opc : W16) (cls : Option Bool) (hold : Option Nat) : Report :=
  { source := code, loc, time := s.clock.now, syndrome := syn, opcode := opc, tclass := cls, chanHold := hold }

theorem reportAll_nil (s : State) : s.reportAll [] = s := by simp [reportAll]

/-- One event: it is raised with its report, or not at all. -/
theorem raise_eq (s : State) (code : Nat) (loc : W32) (syn : W64) (opc : W16) (cls : Option Bool) (hold : Option Nat) :
    s.raise code loc syn opc cls hold =
      let r := s.eventOf code loc syn opc cls hold
      if s.mayRaise r then raisedAt s (reporter r) r else s := by
  simp only [raise, reportAll]
  by_cases h : s.mayRaise (s.eventOf code loc syn opc cls hold)
  · have h' := h
    simp only [eventOf] at h'
    simp only [List.filter, h', h, if_true, raisedAt, List.flatMap_cons, List.flatMap_nil, List.append_nil, reportPackets]
    cases hr : reporter (s.eventOf code loc syn opc cls hold) with
    | none => simp only [eventOf] at hr; simp [hr, eventOf]
    | some e =>
      simp only [eventOf] at hr
      simp [hr, eventOf, reportPacket, control, activeEndpoint]
  · have h' : s.mayRaise (s.eventOf code loc syn opc cls hold) = false := by simpa using h
    have h'' := h'
    simp only [eventOf] at h''
    simp [List.filter, h'', h']

/-- The converter controller, the stewards, the ledger and the holdings need no packet. -/
theorem raise_direct (s : State) (code : Nat) (loc : W32) (syn : W64) (opc : W16) (cls : Option Bool) (hold : Option Nat)
    (h : 7 ≤ loc.toNat / 2 ^ 28) :
    s.raise code loc syn opc cls hold = { s with reports := s.reports ++ [s.eventOf code loc syn opc cls hold] } := by
  obtain ⟨k, hk⟩ : ∃ k, loc.toNat / 268435456 = k + 7 := ⟨loc.toNat / 268435456 - 7, by omega⟩
  rw [raise_eq]
  have h1 : s.mayRaise (s.eventOf code loc syn opc cls hold) = true := by simp [mayRaise, eventOf, hk]
  have h2 : reporter (s.eventOf code loc syn opc cls hold) = none := by simp [reporter, eventOf, hk]
  simp [h1, h2, raisedAt]

theorem raise_module (s : State) (code : Nat) (syn : W64) (opc : W16) (cls : Option Bool) (hold : Option Nat) :
    s.raise code locModule syn opc cls hold = { s with reports := s.reports ++ [s.eventOf code locModule syn opc cls hold] } :=
  raise_direct s code locModule syn opc cls hold (by decide)

theorem raise_steward (s : State) (i code : Nat) (hi : i < 2) (syn : W64) (opc : W16) (cls : Option Bool) (hold : Option Nat) :
    s.raise code (locSteward i) syn opc cls hold =
      { s with reports := s.reports ++ [s.eventOf code (locSteward i) syn opc cls hold] } := by
  refine raise_direct s code (locSteward i) syn opc cls hold ?_
  simp [locSteward, unitCode]
  omega

theorem raise_holding (s : State) (h code : Nat) (hh : h < 16) (syn : W64) (opc : W16) (cls : Option Bool) (hold : Option Nat) :
    s.raise code (locHolding h) syn opc cls hold =
      { s with reports := s.reports ++ [s.eventOf code (locHolding h) syn opc cls hold] } := by
  refine raise_direct s code (locHolding h) syn opc cls hold ?_
  simp [locHolding, unitCode]
  omega

/-- A gate sends the report of its own event. -/
theorem raise_gate (s : State) (g code : Nat) (hg : g < 28) (hc : code ≠ 80) (syn : W64) (opc : W16) (cls : Option Bool)
    (hold : Option Nat) :
    s.raise code (locGate g) syn opc cls hold =
      raisedAt s (some (0x7000 + g)) (s.eventOf code (locGate g) syn opc cls hold) := by
  rw [raise_eq]
  have hl : (locGate g).toNat = 4 * 268435456 + g := by simp [locGate, unitCode]; omega
  have h1 : s.mayRaise (s.eventOf code (locGate g) syn opc cls hold) = true := by
    simp [mayRaise, eventOf, hl, show (1073741824 + g) / 268435456 = 4 by omega, hc]
  have h2 : reporter (s.eventOf code (locGate g) syn opc cls hold) = some (0x7000 + g) := by
    simp [reporter, eventOf, hl, show (1073741824 + g) / 268435456 = 4 by omega, hc, show (1073741824 + g) % 268435456 % 32 = g by omega]
  simp [h1, h2]

/-- A lane's event is its gate's. -/
theorem raise_lane (s : State) (g l code : Nat) (hg : g < 28) (hl : l < 24) (syn : W64) (opc : W16) (cls : Option Bool)
    (hold : Option Nat) :
    s.raise code (locLane g l) syn opc cls hold =
      raisedAt s (some (0x7000 + g)) (s.eventOf code (locLane g l) syn opc cls hold) := by
  rw [raise_eq]
  have hn : (locLane g l).toNat = 5 * 268435456 + (l * 32 + g) := by simp [locLane, unitCode]; omega
  have hk : (1342177280 + (l * 32 + g)) / 268435456 = 5 := by omega
  have h1 : s.mayRaise (s.eventOf code (locLane g l) syn opc cls hold) = true := by simp [mayRaise, eventOf, hn, hk]
  have h2 : reporter (s.eventOf code (locLane g l) syn opc cls hold) = some (0x7000 + g) := by
    simp [reporter, eventOf, hn, hk]; omega
  simp [h1, h2]

/-- A port's event is its gate's. -/
theorem raise_port (s : State) (g k code : Nat) (hg : g < 28) (hk : k < 3) (syn : W64) (opc : W16) (cls : Option Bool)
    (hold : Option Nat) :
    s.raise code (locPort g k) syn opc cls hold =
      raisedAt s (some (0x7000 + g)) (s.eventOf code (locPort g k) syn opc cls hold) := by
  rw [raise_eq]
  have hn : (locPort g k).toNat = 6 * 268435456 + (3 * g + k) := by simp [locPort, unitCode]; omega
  have hd : (1610612736 + (3 * g + k)) / 268435456 = 6 := by omega
  have h1 : s.mayRaise (s.eventOf code (locPort g k) syn opc cls hold) = true := by simp [mayRaise, eventOf, hn, hd]
  have h2 : reporter (s.eventOf code (locPort g k) syn opc cls hold) = some (0x7000 + g) := by
    simp [reporter, eventOf, hn, hd]; omega
  simp [h1, h2]

/-- A parish's event, but for a trip, is reported by its reeve. -/
theorem raise_parish (s : State) (p code : Nat) (hp : p < 56) (hc : code ≠ 70) (syn : W64) (opc : W16) (cls : Option Bool)
    (hold : Option Nat) :
    s.raise code (locParish p) syn opc cls hold =
      raisedAt s (some (0x7200 + p)) (s.eventOf code (locParish p) syn opc cls hold) := by
  rw [raise_eq]
  have hn : (locParish p).toNat = 3 * 268435456 + p := by simp [locParish, unitCode]; omega
  have hd : (805306368 + p) / 268435456 = 3 := by omega
  have h1 : s.mayRaise (s.eventOf code (locParish p) syn opc cls hold) = true := by simp [mayRaise, eventOf, hn, hd]
  have h2 : reporter (s.eventOf code (locParish p) syn opc cls hold) = some (0x7200 + p) := by
    simp [reporter, eventOf, hn, hd, hc]; omega
  simp [h1, h2]

/-- A trip of a parish is reported by the converter controller. -/
theorem raise_trip (s : State) (p : Nat) (hp : p < 56) (syn : W64) (opc : W16) (cls : Option Bool) (hold : Option Nat) :
    s.raise 70 (locParish p) syn opc cls hold =
      { s with reports := s.reports ++ [s.eventOf 70 (locParish p) syn opc cls hold] } := by
  rw [raise_eq]
  have hn : (locParish p).toNat = 3 * 268435456 + p := by simp [locParish, unitCode]; omega
  have hd : (805306368 + p) / 268435456 = 3 := by omega
  have h1 : s.mayRaise (s.eventOf 70 (locParish p) syn opc cls hold) = true := by simp [mayRaise, eventOf, hn, hd]
  have h2 : reporter (s.eventOf 70 (locParish p) syn opc cls hold) = none := by simp [reporter, eventOf, hn, hd]
  simp [h1, h2, raisedAt]

end Sys2Proof.Machine.State
end

