-- ==== Sys2Proof/Laws/Frames.lean ====
section
/-! SUPPORT. Bytes and frames: lengths, a number read back from its bytes, and that what a lane sends is a good frame. -/

namespace Sys2Proof.Machine

@[simp] theorem leBytes_length (k n : Nat) : (leBytes k n).length = k := by
  induction k generalizing n with
  | zero => rfl
  | succ k ih => simp [leBytes, ih]

/-- Bytes of a number read back as the number, cut to their count. -/
theorem ofLe_leBytes (k n : Nat) : ofLe (leBytes k n) = n % 256 ^ k := by
  induction k generalizing n with
  | zero => simp [leBytes, ofLe, Nat.mod_one]
  | succ k ih => rw [leBytes, ofLe, ih, BitVec.toNat_ofNat, show (2 : Nat) ^ 8 = 256 from rfl, Nat.pow_succ', Nat.mod_mul]

@[simp] theorem slice_length (bs : List Byte) (lo len : Nat) : (slice bs lo len).length = len := by
  simp only [slice, List.length_append, List.length_replicate, List.length_take]
  omega

@[simp] theorem frameOf_length (h : FrameHdr) (b : List Byte) : (frameOf h b).length = 640 := by simp [frameOf]

/-- The bytes of a frame before its CRC, and its CRC (R305). -/
theorem frameOf_take (h : FrameHdr) (b : List Byte) : (frameOf h b).take 636 = leBytes 12 h.bits ++ slice b 0 624 := by
  rw [frameOf, List.take_append_of_le_length (by simp), List.take_of_length_le (by simp)]

theorem frameOf_drop (h : FrameHdr) (b : List Byte) :
    (frameOf h b).drop 636 = leBytes 4 (crc32 (leBytes 12 h.bits ++ slice b 0 624)).toNat := by
  rw [frameOf, List.drop_append_of_le_length (by simp), List.drop_of_length_le (by simp), List.nil_append]

theorem frameOf_header (h : FrameHdr) (b : List Byte) : ofLe ((frameOf h b).take 12) = h.bits % 256 ^ 12 := by
  rw [frameOf, List.append_assoc, List.take_append_of_le_length (by simp), List.take_of_length_le (by simp), ofLe_leBytes]

/-- What a lane sends, received whole, is a good frame (R303 to R305). -/
theorem goodFrame_frameOf (f : Frame) (h : FrameHdr) (b : List Byte) (hd : f.decodes = true) (hb : f.bytes = frameOf h b)
    (h1 : bitsOf (h.bits % 256 ^ 12) 3 0 ≤ 3) (h2 : bitsOf (h.bits % 256 ^ 12) 79 75 = 0) (h3 : bitsOf (h.bits % 256 ^ 12) 31 30 = 0) :
    goodFrame f = true := by
  have hc : ∀ c : W32, c = BitVec.ofNat 32 (ofLe (leBytes 4 c.toNat)) := fun c => by
    rw [ofLe_leBytes, Nat.mod_eq_of_lt (by have := c.isLt; norm_num at *; omega), BitVec.ofNat_toNat, BitVec.setWidth_eq]
  have hg : (crc32 ((frameOf h b).take 636) == BitVec.ofNat 32 (ofLe ((frameOf h b).drop 636))) = true := by
    rw [frameOf_take, frameOf_drop, ← hc]; simp
  simp only [goodFrame, hd, hb, hg, frameOf_header, Bool.true_and, Bool.and_eq_true, decide_eq_true_eq, beq_iff_eq]
  exact ⟨⟨h1, h2⟩, h3⟩

end Sys2Proof.Machine
end

