-- ==== Sys2Proof/Laws/Kept.lean ====
section
/-! SUPPORT. What every operation over the module keeps: the queue of waiting commands, SLOT_ID, and the two dies'
fuses, but for a boot and a blow of fuses. -/

namespace Sys2Proof.Machine
namespace State

/-- The queue, SLOT_ID and the fuses. -/
def keep (s : State) : List Instr × BitVec 3 × Fuses × Fuses := (s.pending, s.slotId, s.sec.fuses0, s.sec.fuses1)

@[simp ↓] theorem keep_mk (regs power clock parishes deadR linksDown steered linkCorr linkUnc pulses crofts stcs gates stewards shadows shadowNum toIsolate shadowStcs shadowFaults shadowFlt holdings faults ledger sec cables twb tap bscan slotId outq flights inbox reports summaries calls freeCtr pending) :
    keep (State.mk regs power clock parishes deadR linksDown steered linkCorr linkUnc pulses crofts stcs gates stewards shadows shadowNum toIsolate shadowStcs shadowFaults shadowFlt holdings faults ledger sec cables twb tap bscan slotId outq flights inbox reports summaries calls freeCtr pending) = (pending, slotId, sec.fuses0, sec.fuses1) := (rfl)

@[simp] theorem keep_fold (s : State) : (s.pending, s.slotId, s.sec.fuses0, s.sec.fuses1) = s.keep := (rfl)

@[simp ↓] theorem keep_ite (c : Prop) [Decidable c] (a b : State) :
    (if c then a else b).keep = if c then a.keep else b.keep := apply_ite _ _ _ _

@[simp] theorem keep_foldl {α : Type} (f : State → α → State) (hf : ∀ s a, (f s a).keep = s.keep) (l : List α) (s : State) :
    (l.foldl f s).keep = s.keep := by
  induction l generalizing s with
  | nil => rfl
  | cons a l ih => exact (ih (f s a)).trans (hf s a)

@[simp ↓] theorem keep_setCroft (s : State) (q : Nat) (c : Croft) : (setCroft s q c).keep = s.keep := (rfl)

@[simp ↓] theorem keep_reportAll (s : State) (rs : List Report) : (reportAll s rs).keep = s.keep := by
  unfold reportAll; simp

@[simp ↓] theorem keep_putSite (s : State) (x : Site) : (s.putSite x).keep = s.keep := (rfl)

@[simp ↓] theorem keep_onCroft (s : State) (q : Nat) (f : Site → Site) : (s.onCroft q f).keep = s.keep := (rfl)

@[simp ↓] theorem keep_raise (s : State) (code : Nat) (loc : W32) (syn : W64) (opc : W16) (cls : Option Bool)
    (hold : Option Nat) : (s.raise code loc syn opc cls hold).keep = s.keep := (rfl)

@[simp ↓] theorem keep_cold (s : State) : s.cold.keep = s.keep := (rfl)

@[simp ↓] theorem keep_setParish (s : State) (p : Nat) (v : Parish) : (setParish s p v).keep = s.keep := (rfl)

@[simp ↓] theorem keep_setGate (s : State) (g : Nat) (v : Gate) : (setGate s g v).keep = s.keep := (rfl)

@[simp ↓] theorem keep_setSteward (s : State) (i : Nat) (v : Steward) : (setSteward s i v).keep = s.keep := (rfl)

@[simp ↓] theorem keep_setHolding (s : State) (h : Nat) (v : Holding) : (setHolding s h v).keep = s.keep := (rfl)

@[simp ↓] theorem keep_moduleReset (s : State) : (moduleReset s).keep = s.keep := by
  unfold moduleReset; simp

@[simp ↓] theorem keep_setReg (s : State) (o : Nat) (v : W64) : (setReg s o v).keep = s.keep := (rfl)

@[simp ↓] theorem keep_setNum (s : State) (o n : Nat) : (setNum s o n).keep = s.keep := (rfl)

@[simp ↓] theorem keep_setField (s : State) (o hi lo n : Nat) : (setField s o hi lo n).keep = s.keep := (rfl)

@[simp ↓] theorem keep_count (s : State) (o n : Nat) : (count s o n).keep = s.keep := (rfl)

@[simp ↓] theorem keep_fresh (s : State) : (fresh s).2.keep = s.keep := (rfl)

@[simp ↓] theorem keep_tick (s : State) : (tick s).keep = s.keep := by
  unfold tick; simp

@[simp ↓] theorem keep_sendShadow (s : State) (d : Shadow) : (sendShadow s d).keep = s.keep := by
  unfold sendShadow; simp

@[simp ↓] theorem keep_shadow (s : State) (c : Change) : (shadow s c).keep = s.keep := by
  unfold shadow; simp

@[simp ↓] theorem keep_setStc (s : State) (h : Nat) (v : Stc) : (setStc s h v).keep = s.keep := by
  unfold setStc; simp

@[simp ↓] theorem keep_setFaults (s : State) (f : FaultCtl) : (setFaults s f).keep = s.keep := by
  unfold setFaults; simp

@[simp ↓] theorem keep_setFlt (s : State) (o : Nat) (v : W64) : (setFlt s o v).keep = s.keep := by
  unfold setFlt; simp

@[simp ↓] theorem keep_fenceAll (s : State) (qs : List Nat) : (fenceAll s qs).keep = s.keep := by
  unfold fenceAll; simp

@[simp ↓] theorem keep_raiseStc (s : State) (h r bitPos code : Nat) (opc : W16) : (raiseStc s h r bitPos code opc).keep = s.keep := by
  unfold raiseStc; simp

@[simp ↓] theorem keep_emit (s : State) (ks : List Packet) : (emit s ks).keep = s.keep := (rfl)

@[simp ↓] theorem keep_take (s : State) (k : Packet) : (take s k).keep = s.keep := (rfl)

@[simp ↓] theorem keep_serve (s : State) (k : Packet) (f : Site → Site) : (serve s k f).keep = s.keep := by
  unfold serve; repeat' (first | simp | split)

@[simp ↓] theorem keep_onRegs (s : State) (q : Nat) (f : Site → Site) : (onRegs s q f).keep = s.keep := by
  unfold onRegs; simp

@[simp ↓] theorem keep_loseParish (s : State) (p : Nat) : (loseParish s p).keep = s.keep := (rfl)

@[simp ↓] theorem keep_isolate (s : State) (p : Nat) : (isolate s p).keep = s.keep := by
  show ((s.fenceAll (croftsOf p)).loseParish p).keep = s.keep
  rw [keep_loseParish, keep_fenceAll]

@[simp ↓] theorem keep_switchRows (s : State) (p : Nat) (ms : List (Nat × Nat)) (running : Bool) : (switchRows s p ms running).keep = s.keep := by
  unfold switchRows; simp

@[simp ↓] theorem keep_writeMapout (s : State) (p : Nat) (v : W32) : (writeMapout s p v).keep = s.keep := by
  unfold writeMapout; simp

@[simp ↓] theorem keep_writeComputeEn (s : State) (p : Nat) (on : Bool) : (writeComputeEn s p on).keep = s.keep := by
  unfold writeComputeEn; simp

@[simp ↓] theorem keep_writePclkTarget (s : State) (p : Nat) (w : W32) : (writePclkTarget s p w).keep = s.keep := by
  unfold writePclkTarget; simp

@[simp ↓] theorem keep_writePclkCap (s : State) (p code : Nat) : (writePclkCap s p code).keep = s.keep := by
  unfold writePclkCap; simp

@[simp ↓] theorem keep_writeTblData (s : State) (p : Nat) (w : W32) : (writeTblData s p w).keep = s.keep := by
  unfold writeTblData; simp

@[simp ↓] theorem keep_writeMcastHi (s : State) (p : Nat) (w : W32) : (writeMcastHi s p w).keep = s.keep := by
  unfold writeMcastHi; simp

@[simp ↓] theorem keep_refuseAt (s : State) (k : Packet) (code pos : Nat) : (refuseAt s k code pos).keep = s.keep := by
  unfold refuseAt; simp

@[simp ↓] theorem keep_refuseHome (s : State) (k : Packet) (code : Nat) : (refuseHome s k code).keep = s.keep := by
  unfold refuseHome; simp

@[simp ↓] theorem keep_castLeft (s : State) (k : Packet) : (castLeft s k).keep = s.keep := by
  unfold castLeft; repeat' (first | simp | split)

@[simp ↓] theorem keep_inject (s : State) (k : Packet) : (inject s k).keep = s.keep := by
  unfold inject; repeat' (first | simp | split)

@[simp ↓] theorem keep_checkFlits (s : State) (p : Nat) (via : Option Link) (k : Packet) (e : FlitErr) : (checkFlits s p via k e).1.keep = s.keep := by
  unfold checkFlits; repeat' (first | simp | split)

@[simp ↓] theorem keep_moveFlight (s : State) (i : Nat) (f : Flight) (k : Packet) (dst : Nat) (via : Option Link) : (moveFlight s i f k dst via).keep = s.keep := by
  unfold moveFlight; simp

@[simp ↓] theorem keep_hopUnicast (s : State) (i : Nat) (f : Flight) (k : Packet) : (hopUnicast s i f k).keep = s.keep := by
  unfold hopUnicast; repeat' (first | simp | split)

@[simp ↓] theorem keep_hopMulticast (s : State) (i : Nat) (f : Flight) (k : Packet) : (hopMulticast s i f k).keep = s.keep := by
  unfold hopMulticast; simp

@[simp ↓] theorem keep_checkParish (s : State) (p : Nat) : (checkParish s p).keep = s.keep := by
  unfold checkParish; simp

@[simp ↓] theorem keep_markRouter (s : State) (q : Nat) (pl : Plane) : (markRouter s q pl).keep = s.keep := by
  unfold markRouter; simp

@[simp ↓] theorem keep_markDead (s : State) (q : Nat) (pl : Plane) : (markDead s q pl).keep = s.keep := by
  unfold markDead; simp

@[simp ↓] theorem keep_downLink (s : State) (l : Link) : (downLink s l).keep = s.keep := by
  unfold downLink; simp

@[simp ↓] theorem keep_tallyCall (s : State) (p : Nat) (step : W32) : (tallyCall s p step).keep = s.keep := by
  unfold tallyCall; repeat' (first | simp | split)

@[simp ↓] theorem keep_handIn (s : State) (k : Packet) : (handIn s k).keep = s.keep := by
  unfold handIn; repeat' (first | simp | split)

@[simp ↓] theorem keep_deliver (s : State) (i : Nat) (f : Flight) (k : Packet) : (deliver s i f k).keep = s.keep := by
  unfold deliver; repeat' (first | simp | split)

@[simp ↓] theorem keep_modGate (s : State) (gi : Nat) (f : Gate → Gate) : (modGate s gi f).keep = s.keep := by
  unfold modGate; simp

@[simp ↓] theorem keep_releaseStores (s : State) : (releaseStores s).keep = s.keep := by
  unfold releaseStores; simp

@[simp ↓] theorem keep_raiseGate (s : State) (gi b code : Nat) (opc : W16) (syn : W64) (cls : Bool) (hold : Option Nat) : (raiseGate s gi b code opc syn cls hold).keep = s.keep := by
  unfold raiseGate; simp

@[simp ↓] theorem keep_haltGate (s : State) (gi c cause : Nat) (code : Byte) (used : Nat) (opc : W16) : (haltGate s gi c cause code used opc).keep = s.keep := by
  unfold haltGate; simp

@[simp ↓] theorem keep_takeMsg (s : State) (gi k : Nat) (m : Msg) : (takeMsg s gi k m).keep = s.keep := by
  unfold takeMsg; simp

@[simp ↓] theorem keep_takeAnyMsg (s : State) (m : Msg) : (takeAnyMsg s m).keep = s.keep := by
  unfold takeAnyMsg; repeat' (first | simp | split)

@[simp ↓] theorem keep_acknowledge (s : State) (a : SenderHeld) : (acknowledge s a).keep = s.keep := by
  unfold acknowledge; repeat' (first | simp | split)

@[simp ↓] theorem keep_retireStore (s : State) (c : Nat × Nat) : (retireStore s c).keep = s.keep := by
  unfold retireStore; simp

@[simp ↓] theorem keep_abortHolding (s : State) (h : Nat) (cause : Nat) : (abortHolding s h cause).keep = s.keep := by
  unfold abortHolding; simp

@[simp ↓] theorem keep_dropSummaries (s : State) (h step : Nat) : (dropSummaries s h step).keep = s.keep := (rfl)

@[simp ↓] theorem keep_discardStep (s : State) (e : Nat × W32) : (discardStep s e).keep = s.keep := by
  unfold discardStep; simp

@[simp ↓] theorem keep_perform (s : State) (d : Shadow) : (perform s d).keep = s.keep := by
  unfold perform; simp

@[simp ↓] theorem keep_waitFor (s : State) (d : Shadow) : (waitFor s d).keep = s.keep := by
  unfold waitFor; simp

@[simp ↓] theorem keep_publish (s : State) (ks : List Packet) (ms : List (Nat × Nat × Nat × Msg)) : (publish s ks ms).keep = s.keep := by
  unfold publish; simp

@[simp ↓] theorem keep_accept (s : State) (a : SenderHeld) : (accept s a).keep = s.keep := by
  unfold accept; simp

@[simp ↓] theorem keep_gateTagged (s : State) (gi c : Nat) (k : Packet) : (gateTagged s gi c k).1.keep = s.keep := by
  unfold gateTagged; simp

@[simp ↓] theorem keep_gateRequest (s : State) (gi c : Nat) (k : Packet) (len : Nat) : (gateRequest s gi c k len).keep = s.keep := by
  unfold gateRequest; simp

@[simp ↓] theorem keep_gateBytes (s : State) (gi c n : Nat) : (gateBytes s gi c n).keep = s.keep := by
  unfold gateBytes; simp

@[simp ↓] theorem keep_gateWrite (gi c off : Nat) (bs : List Byte) (n : Nat) (s : State) :
    (gateWrite gi c off bs n s).keep = s.keep := by
  induction n generalizing off bs s with
  | zero => rfl
  | succ n ih => unfold gateWrite; simp [ih]

theorem keep_readStep {s t : State} {gi c : Nat} {m : Moving} (h : s.readStep gi c m = some t) : t.keep = s.keep := by
  unfold readStep at h
  dsimp only at h
  repeat' split at h
  all_goals first | simp only [reduceCtorEq] at h | (obtain rfl := Option.some.inj h; simp)

theorem keep_writeStep' {s t : State} {gi c : Nat} {m : Moving} (h : s.writeStep' gi c m = some t) : t.keep = s.keep := by
  unfold writeStep' at h
  dsimp only at h
  repeat' split at h
  all_goals first | simp only [reduceCtorEq] at h | (obtain rfl := Option.some.inj h; simp)

@[simp ↓] theorem keep_writeStep (s : State) (h : Nat) (v : W32) : (writeStep s h v).keep = s.keep := by
  unfold writeStep; simp

@[simp ↓] theorem keep_gatePump (gi c n : Nat) (s : State) : (gatePump gi c n s).keep = s.keep := by
  induction n generalizing s with
  | zero => rfl
  | succ n ih =>
    unfold gatePump
    dsimp only
    split
    · split
      · rfl
      · split
        · rename_i t ht
          rw [ih]
          split at ht
          · exact keep_writeStep' ht
          · exact keep_readStep ht
        · rfl
    · rfl

@[simp ↓] theorem keep_gateFinish (s : State) (gi c : Nat) : (gateFinish s gi c).keep = s.keep := by
  unfold gateFinish; simp

@[simp ↓] theorem keep_gateGo (s : State) (gi c : Nat) : (gateGo s gi c).keep = s.keep := by
  unfold gateGo; simp

@[simp ↓] theorem keep_takes (s : State) (r : Report) : (takes s r).1.keep = s.keep := by
  unfold takes; repeat' (first | simp | split)

@[simp ↓] theorem keep_failPart (s : State) (gi : Nat) (r : StoreReq) (p : Nat × Nat × Nat) (cause code : Nat) (permits later : Bool) : (failPart s gi r p cause code permits later).keep = s.keep := by
  unfold failPart; simp

@[simp ↓] theorem keep_failStore (s : State) (gi : Nat) (r : StoreReq) (cause code : Nat) (permits later : Bool) : (failStore s gi r cause code permits later).keep = s.keep := by
  unfold failStore; simp

@[simp ↓] theorem keep_failMesh (s : State) (gi c : Nat) (r : Req) (cause code : Nat) (permits : Bool) : (failMesh s gi c r cause code permits).keep = s.keep := by
  unfold failMesh; simp

@[simp ↓] theorem keep_setGateErr (s : State) (gi c : Nat) (on : Bool) : (setGateErr s gi c on).keep = s.keep := by
  unfold setGateErr; simp

@[simp ↓] theorem keep_gateStart (s : State) (gi c h : Nat) : (gateStart s gi c h).keep = s.keep := by
  unfold gateStart; simp

@[simp ↓] theorem keep_gateAbort (s : State) (gi c gen h : Nat) : (gateAbort s gi c gen h).keep = s.keep := by
  unfold gateAbort; simp

@[simp ↓] theorem keep_gateDestroy (s : State) (gi c gen h : Nat) : (gateDestroy s gi c gen h).keep = s.keep := by
  unfold gateDestroy; simp

@[simp ↓] theorem keep_raiseLink (s : State) (gi b : Nat) (loc : W32) (syn : W64) (opc : W16) : (raiseLink s gi b loc syn opc).keep = s.keep := by
  unfold raiseLink; simp

@[simp ↓] theorem keep_failPort (s : State) (gi k : Nat) : (failPort s gi k).keep = s.keep := by
  unfold failPort; simp

@[simp ↓] theorem keep_checkSlew (s : State) : (checkSlew s).keep = s.keep := by
  unfold checkSlew; simp

@[simp ↓] theorem keep_portMismatch (s : State) (gi k : Nat) (opc : W16) : (portMismatch s gi k opc).keep = s.keep := by
  unfold portMismatch; simp

@[simp ↓] theorem keep_lanesOff (s : State) (gi k : Nat) : (lanesOff s gi k).keep = s.keep := by
  unfold lanesOff; simp

@[simp ↓] theorem keep_passHorizon (s : State) (h : Nat) (m : Msg) : (passHorizon s h m).keep = s.keep := by
  unfold passHorizon; simp

@[simp ↓] theorem keep_chunksLeave (s : State) (was : List (Nat × Msg)) (gi k : Nat) : (chunksLeave s was gi k).keep = s.keep := by
  unfold chunksLeave; simp

@[simp ↓] theorem keep_flushPort (s : State) (gi k : Nat) : (flushPort s gi k).keep = s.keep := by
  unfold flushPort; simp

@[simp ↓] theorem keep_countChunk (s : State) (h i : Nat) (payload : List Byte) : (countChunk s h i payload).keep = s.keep := by
  unfold countChunk; simp

@[simp ↓] theorem keep_launch (s : State) (h i : Nat) (m : Msg) (ps : List (Nat × Nat)) : (launch s h i m ps).keep = s.keep := by
  unfold launch; simp

@[simp ↓] theorem keep_sendUnsent (s : State) (h : Nat) : (sendUnsent s h).keep = s.keep := by
  unfold sendUnsent; simp

@[simp ↓] theorem keep_sendWaiting (s : State) : (sendWaiting s).keep = s.keep := by
  unfold sendWaiting; simp

@[simp ↓] theorem keep_unpower (s : State) (gi k : Nat) (st : PortState) : (unpower s gi k st).keep = s.keep := by
  unfold unpower; simp

@[simp ↓] theorem keep_portUp (s : State) (gi k : Nat) (opc : W16) : (portUp s gi k opc).keep = s.keep := by
  unfold portUp; simp

@[simp ↓] theorem keep_portUpdate (s : State) (gi k : Nat) (opc : W16) : (portUpdate s gi k opc).keep = s.keep := by
  unfold portUpdate; simp

@[simp ↓] theorem keep_laneTo (s : State) (gi l : Nat) (st : LaneState) : (laneTo s gi l st).keep = s.keep := by
  unfold laneTo; simp

@[simp ↓] theorem keep_laneFail (s : State) (gi l : Nat) : (laneFail s gi l).keep = s.keep := by
  unfold laneFail; simp

@[simp ↓] theorem keep_laneTrain (s : State) (gi l : Nat) : (laneTrain s gi l).keep = s.keep := by
  unfold laneTrain; simp

@[simp ↓] theorem keep_laneRetrain (s : State) (gi l : Nat) : (laneRetrain s gi l).keep = s.keep := by
  unfold laneRetrain; simp

@[simp ↓] theorem keep_sendCaps (s : State) (gi l : Nat) : (sendCaps s gi l).keep = s.keep := by
  unfold sendCaps; simp

@[simp ↓] theorem keep_enterUp (s : State) (gi l : Nat) : (enterUp s gi l).keep = s.keep := by
  unfold enterUp; simp

@[simp ↓] theorem keep_takeCaps (s : State) (gi l : Nat) (b : List Byte) : (takeCaps s gi l b).keep = s.keep := by
  unfold takeCaps; repeat' (first | simp | split)

@[simp ↓] theorem keep_sendTime (s : State) (gi k : Nat) : (sendTime s gi k).keep = s.keep := by
  unfold sendTime; repeat' (first | simp | split)

@[simp ↓] theorem keep_takeTime (s : State) (gi l : Nat) (b : List Byte) : (takeTime s gi l b).keep = s.keep := by
  unfold takeTime; simp

@[simp ↓] theorem keep_replayLane (s : State) (gi l : Nat) : (replayLane s gi l).keep = s.keep := by
  unfold replayLane; simp

@[simp ↓] theorem keep_sendNext (s : State) (m : NormMsg) : (sendNext s m).keep = s.keep := by
  unfold sendNext; simp

@[simp ↓] theorem keep_sendNorm (s : State) (h : Nat) (replay : Bool) (v : W64) : (sendNorm s h replay v).keep = s.keep := by
  unfold sendNorm; simp

@[simp ↓] theorem keep_stopCrofts (s : State) (h : Nat) : (stopCrofts s h).keep = s.keep := by
  unfold stopCrofts; simp

@[simp ↓] theorem keep_startRestore (s : State) (h : Nat) : (startRestore s h).keep = s.keep := by
  unfold startRestore; simp

@[simp ↓] theorem keep_replayNow (s : State) (h : Nat) (wide notice counted : Bool) : (replayNow s h wide notice counted).keep = s.keep := by
  unfold replayNow; simp

@[simp ↓] theorem keep_replay (s : State) (h : Nat) (ask : ReplayAsk) : (replay s h ask).keep = s.keep := by
  unfold replay; simp

@[simp ↓] theorem keep_takeAck (s : State) (gi l : Nat) (h : FrameHdr) : (takeAck s gi l h).keep = s.keep := by
  unfold takeAck; simp

@[simp ↓] theorem keep_chunkAcked (s : State) (m : Msg) : (chunkAcked s m).keep = s.keep := by
  unfold chunkAcked; repeat' (first | (simp; done) | split)

@[simp ↓] theorem keep_msgArrives (gi k vc : Nat) (m : Msg) (s : State) : (msgArrives gi k vc m s).keep = s.keep := by
  unfold msgArrives; simp

@[simp ↓] theorem keep_parseStream (gi k vc n : Nat) (s : State) : (parseStream gi k vc n s).keep = s.keep := by
  induction n generalizing s with
  | zero => rfl
  | succ n ih => unfold parseStream; simp [ih]

@[simp ↓] theorem keep_held (s : State) (h : Nat) (refused : Bool) : (held s h refused).keep = s.keep := by
  unfold held; simp

@[simp ↓] theorem keep_releaseFrames (gi k n : Nat) (s : State) : (releaseFrames gi k n s).keep = s.keep := by
  induction n generalizing s with
  | zero => rfl
  | succ n ih => unfold releaseFrames; repeat' (first | simp [ih] | split)

@[simp ↓] theorem keep_discardFrame (s : State) (gi l : Nat) : (discardFrame s gi l).keep = s.keep := by
  unfold discardFrame; simp

@[simp ↓] theorem keep_takeData (s : State) (gi l : Nat) (h : FrameHdr) (b : List Byte) : (takeData s gi l h b).keep = s.keep := by
  unfold takeData; simp

@[simp ↓] theorem keep_laneLock (s : State) (gi l : Nat) : (laneLock s gi l).keep = s.keep := by
  unfold laneLock; simp

@[simp ↓] theorem keep_lockUpdate (s : State) (gi l : Nat) : (lockUpdate s gi l).keep = s.keep := by
  unfold lockUpdate; simp

@[simp ↓] theorem keep_modFaults (s : State) (f : FaultCtl → FaultCtl) : (modFaults s f).keep = s.keep := by
  unfold modFaults; simp

@[simp ↓] theorem keep_putRecord (s : State) (d : Nat) (r : Record) : (putRecord s d r).keep = s.keep := by
  unfold putRecord; simp

@[simp ↓] theorem keep_appendRecord (s : State) (r : Record) : (appendRecord s r).keep = s.keep := by
  unfold appendRecord; simp

@[simp ↓] theorem keep_record (s : State) (d sev : Nat) (cls perm : Bool) (r : Report) : (record s d sev cls perm r).keep = s.keep := by
  unfold record; repeat' (first | (simp; done) | split)

@[simp ↓] theorem keep_setFltField (s : State) (o hi lo n : Nat) : (setFltField s o hi lo n).keep = s.keep := by
  unfold setFltField; simp

@[simp ↓] theorem keep_ring (s : State) : (ring s).keep = s.keep := by
  unfold ring; simp

@[simp ↓] theorem keep_abandon (s : State) (h : Nat) : (abandon s h).keep = s.keep := by
  unfold abandon; simp

@[simp ↓] theorem keep_haltDomain (s : State) (d : Nat) : (haltDomain s d).keep = s.keep := by
  unfold haltDomain; simp

@[simp ↓] theorem keep_modSteward (s : State) (i : Nat) (f : Steward → Steward) : (modSteward s i f).keep = s.keep := by
  unfold modSteward; simp

@[simp ↓] theorem keep_releaseShadows (s : State) : (releaseShadows s).keep = s.keep := by
  unfold releaseShadows; simp

@[simp ↓] theorem keep_adoptShadow (s : State) : (adoptShadow s).keep = s.keep := by
  unfold adoptShadow; simp

@[simp ↓] theorem keep_publishTotals (s : State) (h : Nat) : (publishTotals s h).keep = s.keep := by
  unfold publishTotals; simp

@[simp ↓] theorem keep_beginOpening (s : State) (h : Nat) : (beginOpening s h).keep = s.keep := by
  unfold beginOpening; simp

@[simp ↓] theorem keep_tryOpen (s : State) (h : Nat) : (tryOpen s h).keep = s.keep := by
  unfold tryOpen; simp

@[simp ↓] theorem keep_endStep (s : State) (h : Nat) : (endStep s h).keep = s.keep := by
  unfold endStep; simp

@[simp ↓] theorem keep_checkDone (s : State) (h : Nat) : (checkDone s h).keep = s.keep := by
  unfold checkDone; simp

@[simp ↓] theorem keep_verdictOverflow (s : State) (h : Nat) : (verdictOverflow s h).keep = s.keep := by
  unfold verdictOverflow; simp

@[simp ↓] theorem keep_verdictClean (s : State) (h : Nat) (g : W64) : (verdictClean s h g).keep = s.keep := by
  unfold verdictClean; simp

@[simp ↓] theorem keep_combine (s : State) (h : Nat) : (combine s h).keep = s.keep := by
  unfold combine; simp

@[simp ↓] theorem keep_resolve (s : State) (h : Nat) : (resolve s h).keep = s.keep := by
  unfold resolve; repeat' (first | simp | split)

@[simp ↓] theorem keep_startReset (s : State) (h : Nat) (st : HldState) (creating : Bool) : (startReset s h st creating).keep = s.keep := by
  unfold startReset; simp

@[simp ↓] theorem keep_syncShadow (s : State) : (syncShadow s).keep = s.keep := by
  unfold syncShadow; simp

@[simp ↓] theorem keep_redeliver (s : State) : (redeliver s).keep = s.keep := by
  unfold redeliver; simp

@[simp ↓] theorem keep_becomeActive (s : State) (i : Nat) : (becomeActive s i).keep = s.keep := by
  unfold becomeActive
  dsimp only
  rw [keep_foldl _ fun s h => by split <;> simp]
  simp

@[simp ↓] theorem keep_takeover (s : State) (i : Nat) : (takeover s i).keep = s.keep := by
  unfold takeover; simp

@[simp ↓] theorem keep_loseSteward (s : State) (i : Nat) : (loseSteward s i).keep = s.keep := by
  unfold loseSteward; simp

@[simp ↓] theorem keep_isolateSteward (s : State) (i : Nat) : (isolateSteward s i).keep = s.keep := by
  unfold isolateSteward; simp

@[simp ↓] theorem keep_downBoth (s : State) (l : Link) : (downBoth s l).keep = s.keep := by
  unfold downBoth; repeat' (first | simp | split)

@[simp ↓] theorem keep_deadIfAlone (s : State) (q : Nat) (pl : Plane) : (deadIfAlone s q pl).keep = s.keep := by
  unfold deadIfAlone; simp

@[simp ↓] theorem keep_isolateCroft (s : State) (q : Nat) : (isolateCroft s q).keep = s.keep := by
  unfold isolateCroft; simp

@[simp ↓] theorem keep_cageOff (s : State) (gi k : Nat) (st : PortState) (opc : W16) : (cageOff s gi k st opc).keep = s.keep := by
  unfold cageOff; simp

@[simp ↓] theorem keep_disablePort (s : State) (gi k : Nat) (opc : W16) : (disablePort s gi k opc).keep = s.keep := by
  unfold disablePort; simp

@[simp ↓] theorem keep_isolateGate (s : State) (gi : Nat) : (isolateGate s gi).keep = s.keep := by
  unfold isolateGate; simp

@[simp ↓] theorem keep_isolateRouter (s : State) (q : Nat) (pl : Plane) : (isolateRouter s q pl).keep = s.keep := by
  unfold isolateRouter; simp

@[simp ↓] theorem keep_isolateLane (s : State) (gi l : Nat) : (isolateLane s gi l).keep = s.keep := by
  unfold isolateLane; simp

@[simp ↓] theorem keep_isolatePort (s : State) (gi k : Nat) : (isolatePort s gi k).keep = s.keep := by
  unfold isolatePort; simp

@[simp ↓] theorem keep_isolateLoc (s : State) (loc : W32) : (isolateLoc s loc).keep = s.keep := by
  unfold isolateLoc; repeat' (first | simp | split)

@[simp ↓] theorem keep_isolateDue (n : Nat) (s : State) : (isolateDue n s).keep = s.keep := by
  induction n generalizing s with
  | zero => rfl
  | succ n ih => unfold isolateDue; split <;> simp [ih]

@[simp ↓] theorem keep_settle (s : State) : (settle s).keep = s.keep := by
  unfold settle; simp

@[simp ↓] theorem keep_act (s : State) (d sev0 : Nat) (r : Report) : (act s d sev0 r).keep = s.keep := by
  unfold act; simp

theorem keep_receiveFrame (s : State) (gi l : Nat) (f : Frame) (ftype : Nat) (act : State → FrameHdr → List Byte → State)
    (ha : ∀ s h b, (act s h b).keep = s.keep) : (receiveFrame s gi l f ftype act).keep = s.keep := by
  unfold receiveFrame; simp [ha]

theorem keep_receive (s : State) (gi l : Nat) (f : Frame) (ftype : Nat) (act : State → FrameHdr → List Byte → State)
    (ha : ∀ s h b, (act s h b).keep = s.keep) : (receive s gi l f ftype act).keep = s.keep := by
  unfold receive; simp [keep_receiveFrame _ _ _ _ _ _ ha]

@[simp ↓] theorem keep_enablePort (s : State) (gi k : Nat) : (enablePort s gi k).keep = s.keep := by
  unfold enablePort; simp

@[simp ↓] theorem keep_checkCable (s : State) (gi k : Nat) : (checkCable s gi k).keep = s.keep := by
  unfold checkCable; repeat' (first | simp | split)

@[simp ↓] theorem keep_writeRole (s : State) (gi k : Nat) (v : W32) : (writeRole s gi k v).keep = s.keep := by
  unfold writeRole; simp

@[simp ↓] theorem keep_sendChunk (s : State) (h i half : Nat) (vs : List W32) : (sendChunk s h i half vs).keep = s.keep := by
  unfold sendChunk; repeat' (first | (simp; done) | split)

@[simp ↓] theorem keep_keepChunk (s : State) (h i half : Nat) (vs : List W32) : (keepChunk s h i half vs).keep = s.keep := by
  unfold keepChunk; simp

@[simp ↓] theorem keep_passChunk (s : State) (h i half : Nat) (vs : List W32) : (passChunk s h i half vs).keep = s.keep := by
  unfold passChunk; simp

@[simp ↓] theorem keep_startChunks (s : State) (h : Nat) : (startChunks s h).keep = s.keep := by
  unfold startChunks; simp

@[simp ↓] theorem keep_holdSum (s : State) (h i half : Nat) (vs : List W32) : (holdSum s h i half vs).keep = s.keep := by
  unfold holdSum; repeat' (first | (simp; done) | split)

@[simp ↓] theorem keep_addChunk (s : State) (h i half : Nat) (bf : Bool) (payload : List Byte) : (addChunk s h i half bf payload).keep = s.keep := by
  unfold addChunk; simp

@[simp ↓] theorem keep_forwardSummary (s : State) (p : Nat) : (forwardSummary s p).keep = s.keep := by
  unfold forwardSummary; simp

@[simp ↓] theorem keep_forwardDue (s : State) (p : Nat) : (forwardDue s p).keep = s.keep := by
  unfold forwardDue; simp

@[simp ↓] theorem keep_strayRecord (s : State) (p : Nat) : (strayRecord s p).keep = s.keep := by
  unfold strayRecord; simp

@[simp ↓] theorem keep_tallyRecord (s : State) (p : Nat) (k : Packet) : (tallyRecord s p k).keep = s.keep := by
  unfold tallyRecord; repeat' (first | simp | split)

@[simp ↓] theorem keep_tallyTimeout (s : State) (p : Nat) (step : W32) : (tallyTimeout s p step).keep = s.keep := by
  unfold tallyTimeout; repeat' (first | simp | split)

@[simp ↓] theorem keep_startCrofts (s : State) (h : Nat) : (startCrofts s h).keep = s.keep := by
  unfold startCrofts; simp

@[simp ↓] theorem keep_destroyContexts (s : State) (h : Nat) : (destroyContexts s h).keep = s.keep := by
  unfold destroyContexts; simp

@[simp ↓] theorem keep_sendPrint (s : State) (h : Nat) : (sendPrint s h).keep = s.keep := by
  unfold sendPrint; repeat' (first | simp | split)

@[simp ↓] theorem keep_tryHandover (s : State) (h : Nat) : (tryHandover s h).keep = s.keep := by
  unfold tryHandover; simp

@[simp ↓] theorem keep_restoreNext (s : State) (h : Nat) : (restoreNext s h).keep = s.keep := by
  unfold restoreNext; simp

@[simp ↓] theorem keep_openingDone (s : State) (h : Nat) : (openingDone s h).keep = s.keep := by
  unfold openingDone; simp

@[simp ↓] theorem keep_scaleAnswer (s : State) (h n : Nat) (ok : Bool) : (scaleAnswer s h n ok).keep = s.keep := by
  unfold scaleAnswer; simp

@[simp ↓] theorem keep_stcAnswer (s : State) (h n o : Nat) (ok : Bool) (v : Nat) : (stcAnswer s h n o ok v).keep = s.keep := by
  unfold stcAnswer; simp

@[simp ↓] theorem keep_recordAnswer (s : State) (h n : Nat) : (recordAnswer s h n).keep = s.keep := by
  unfold recordAnswer; simp

@[simp ↓] theorem keep_refusedAnswer (s : State) (h n i code : Nat) : (refusedAnswer s h n i code).keep = s.keep := by
  unfold refusedAnswer; simp

@[simp ↓] theorem keep_comparePrints (s : State) (h : Nat) (opc : W16) : (comparePrints s h opc).keep = s.keep := by
  unfold comparePrints; repeat' (first | simp | split)

@[simp ↓] theorem keep_commitPartial (s : State) (h : Nat) (v : W32) : (commitPartial s h v).keep = s.keep := by
  unfold commitPartial; simp

@[simp ↓] theorem keep_writeRun (s : State) (h : Nat) (on halted : Bool) : (writeRun s h on halted).keep = s.keep := by
  unfold writeRun; simp

@[simp ↓] theorem keep_writeFill (s : State) (h : Nat) (v : W32) : (writeFill s h v).keep = s.keep := by
  unfold writeFill; simp

@[simp ↓] theorem keep_writeGo (s : State) (h : Nat) : (writeGo s h).keep = s.keep := by
  unfold writeGo; simp

@[simp ↓] theorem keep_doneReport (s : State) (h : Nat) (n : Option Nat) (v : W32) : (doneReport s h n v).keep = s.keep := by
  unfold doneReport; simp

@[simp ↓] theorem keep_sendCalls (s : State) (h : Nat) : (sendCalls s h).keep = s.keep := by
  unfold sendCalls; simp

@[simp ↓] theorem keep_tallySummary (s : State) (h : Nat) (m : Summary) : (tallySummary s h m).keep = s.keep := by
  unfold tallySummary; simp

@[simp ↓] theorem keep_takeNorm (s : State) (h : Nat) (m : NormMsg) : (takeNorm s h m).keep = s.keep := by
  unfold takeNorm; simp

@[simp ↓] theorem keep_normArrives (s : State) (h : Nat) (m : NormMsg) : (normArrives s h m).keep = s.keep := by
  unfold normArrives; simp

@[simp ↓] theorem keep_fingerprint (s : State) (h : Nat) (m : Msg) : (fingerprint s h m).keep = s.keep := by
  unfold fingerprint; simp

@[simp ↓] theorem keep_asOne (s : State) (f : State → State) : (asOne s f).keep = (f s).keep := by
  unfold asOne; dsimp only; split
  · rfl
  · split
    · split <;> rfl
    · rfl

@[simp ↓] theorem keep_onSet (s : State) (f : State → State) (hf : ∀ s, (f s).keep = s.keep) : (onSet s f).keep = s.keep := by
  unfold onSet; split <;> simp [hf]

@[simp ↓] theorem keep_countDiscard (s : State) (gi : Nat) : (countDiscard s gi).keep = s.keep := by
  unfold countDiscard; simp

@[simp ↓] theorem keep_partData (s : State) (gi : Nat) (p : Nat × Nat × Nat) (lo : Nat) (bs : List Byte) : (partData s gi p lo bs).keep = s.keep := by
  unfold partData; simp

@[simp ↓] theorem keep_storeData (s : State) (gi k : Nat) (m : Msg) (op : Nat) : (storeData s gi k m op).keep = s.keep := by
  unfold storeData; repeat' (first | simp | split)

@[simp ↓] theorem keep_storeDone (s : State) (gi k : Nat) (m : Msg) (op : Nat) : (storeDone s gi k m op).keep = s.keep := by
  unfold storeDone; repeat' (first | simp | split)

@[simp ↓] theorem keep_storeError (s : State) (gi k : Nat) (m : Msg) : (storeError s gi k m).keep = s.keep := by
  unfold storeError; repeat' (first | simp | split)

@[simp ↓] theorem keep_takeChunk (s : State) (m : Msg) : (takeChunk s m).keep = s.keep := by
  unfold takeChunk; repeat' (first | (simp; done) | split)

@[simp ↓] theorem keep_gateReadArrives (s : State) (gi c : Nat) (r : Req) (k : Packet) : (gateReadArrives s gi c r k).keep = s.keep := by
  unfold gateReadArrives; repeat' (first | simp | split)

@[simp ↓] theorem keep_gateAnswer (s : State) (gi c : Nat) (k : Packet) : (gateAnswer s gi c k).keep = s.keep := by
  unfold gateAnswer; repeat' (first | simp | split)

@[simp ↓] theorem keep_gateRetry (s : State) (gi c : Nat) (tag : W16) : (gateRetry s gi c tag).keep = s.keep := by
  unfold gateRetry; repeat' (first | simp | split)

@[simp ↓] theorem keep_gateTimeout (s : State) (gi c : Nat) (tag : W16) : (gateTimeout s gi c tag).keep = s.keep := by
  unfold gateTimeout; repeat' (first | simp | split)

@[simp ↓] theorem keep_coreFail (s : State) (st n code : Nat) (a : CoreAccess) : (coreFail s st n code a).keep = s.keep := by
  unfold coreFail; simp

@[simp ↓] theorem keep_coreDone (s : State) (st n : Nat) (v : W64) : (coreDone s st n v).keep = s.keep := by
  unfold coreDone; simp

@[simp ↓] theorem keep_coreAnswer (s : State) (st n : Nat) (k : Packet) : (coreAnswer s st n k).keep = s.keep := by
  unfold coreAnswer; repeat' (first | simp | split)

@[simp ↓] theorem keep_answer (s : State) (k : Packet) : (answer s k).keep = s.keep := by
  unfold answer; repeat' (first | simp | split)

@[simp ↓] theorem keep_ldgCmd (s : State) (b : Nat) (err : Bool) : (ldgCmd s b err).keep = s.keep := by
  unfold ldgCmd; simp

@[simp ↓] theorem keep_fillBuf (s : State) (bs : List Byte) : (fillBuf s bs).keep = s.keep := by
  unfold fillBuf; simp

@[simp ↓] theorem keep_ldgRead (s : State) (b : Nat) (found : BlockEcc) : (ldgRead s b found).keep = s.keep := by
  unfold ldgRead; repeat' (first | (simp; done) | split)

@[simp ↓] theorem keep_ldgWrite (s : State) (b : Nat) (bad : Bool) : (ldgWrite s b bad).keep = s.keep := by
  unfold ldgWrite; simp

@[simp ↓] theorem keep_supplyAux (s : State) : (supplyAux s).keep = s.keep := by
  unfold supplyAux; simp

@[simp ↓] theorem keep_tryBringUp (s : State) : (tryBringUp s).keep = s.keep := by
  unfold tryBringUp; simp

@[simp ↓] theorem keep_alert (s : State) (i : Nat) (t threshold : Int) : (alert s i t threshold).keep = s.keep := by
  unfold alert; simp

@[simp ↓] theorem keep_thermalTrip (s : State) (reading : W16) (p : Nat) : (thermalTrip s reading p).keep = s.keep := by
  unfold thermalTrip; simp

@[simp ↓] theorem keep_applyAllotment (s : State) (h : Nat) : (applyAllotment s h).keep = s.keep := by
  unfold applyAllotment; simp

@[simp ↓] theorem keep_writeCaps (s : State) : (writeCaps s).keep = s.keep := by
  unfold writeCaps; simp

@[simp ↓] theorem keep_formCode (s : State) (h : Nat) : (formCode s h).keep = s.keep := by
  unfold formCode; simp

@[simp ↓] theorem keep_writeAltRes (s : State) (h : Nat) (v : W32) : (writeAltRes s h v).keep = s.keep := by
  unfold writeAltRes; repeat' (first | simp | split)

@[simp ↓] theorem keep_writeAltPower (s : State) (h : Nat) (v : W32) : (writeAltPower s h v).keep = s.keep := by
  unfold writeAltPower; repeat' (first | simp | split)

@[simp ↓] theorem keep_holdingReading (s : State) (h watts : Nat) : (holdingReading s h watts).keep = s.keep := by
  unfold holdingReading; simp

@[simp ↓] theorem keep_moduleReading (s : State) : (moduleReading s).keep = s.keep := by
  unfold moduleReading; simp

@[simp ↓] theorem keep_setHldErr (s : State) (h : Nat) (on : Bool) : (setHldErr s h on).keep = s.keep := by
  unfold setHldErr; simp

@[simp ↓] theorem keep_createHolding (s : State) (h : Nat) : (createHolding s h).keep = s.keep := by
  unfold createHolding; simp

@[simp ↓] theorem keep_resetHolding (s : State) (h : Nat) : (resetHolding s h).keep = s.keep := by
  unfold resetHolding; repeat' (first | simp | split)

@[simp ↓] theorem keep_destroyHolding (s : State) (h : Nat) : (destroyHolding s h).keep = s.keep := by
  unfold destroyHolding; repeat' (first | simp | split)

@[simp ↓] theorem keep_finishReset (s : State) (h : Nat) : (finishReset s h).keep = s.keep := by
  unfold finishReset; simp

@[simp ↓] theorem keep_applyChange (s : State) (c : Change) : (applyChange s c).keep = s.keep := by
  unfold applyChange; repeat' (first | simp | split)

@[simp ↓] theorem keep_declareLost (s : State) (i : Nat) : (declareLost s i).keep = s.keep := by
  unfold declareLost; simp

@[simp ↓] theorem keep_release (s : State) (i : Nat) : (release s i).keep = s.keep := by
  unfold release; simp

@[simp ↓] theorem keep_aloneRouter (s : State) (q : Nat) (pl : Plane) : (aloneRouter s q pl).keep = s.keep := by
  unfold aloneRouter; simp

@[simp ↓] theorem keep_event (s : State) (r : Report) (injected : Bool) : (event s r injected).keep = s.keep := by
  unfold event
  dsimp only
  split
  · rename_i h
    have := congrArg (fun x => x.1.keep) h
    simp only [keep_takes] at this
    rw [← this]; simp
  · rename_i h
    have := congrArg (fun x => x.1.keep) h
    simp only [keep_takes] at this
    rw [keep_act, ← this]; simp

@[simp ↓] theorem keep_fltClear (s : State) (v : W32) : (fltClear s v).keep = s.keep := by
  unfold fltClear; repeat' (first | simp | split)

@[simp ↓] theorem keep_levelClear (s : State) : (levelClear s).keep = s.keep := by
  unfold levelClear; simp

@[simp ↓] theorem keep_faultReport (s : State) (r : Report) : (faultReport s r).keep = s.keep := by
  unfold faultReport; simp

@[simp ↓] theorem keep_fltInject (s : State) (v : W32) : (fltInject s v).keep = s.keep := by
  unfold fltInject; simp

@[simp ↓] theorem keep_modSec (s : State) (f : Sec → Sec) :
    (modSec s f).keep = (s.pending, s.slotId, (f s.sec).fuses0, (f s.sec).fuses1) := (rfl)

@[simp ↓] theorem keep_sowRefuse (s : State) : (sowRefuse s).keep = s.keep := by
  unfold sowRefuse; simp

@[simp ↓] theorem keep_sowOpen (s : State) : (sowOpen s).keep = s.keep := by
  unfold sowOpen; simp

@[simp ↓] theorem keep_sowSend (s : State) : (sowSend s).keep = s.keep := by
  unfold sowSend; simp

@[simp ↓] theorem keep_sowCheck (s : State) : (sowCheck s).keep = s.keep := by
  unfold sowCheck; simp

@[simp ↓] theorem keep_sowEnd (s : State) : (sowEnd s).keep = s.keep := by
  unfold sowEnd; simp

@[simp ↓] theorem keep_chunkCheck (s : State) (q c : Nat) : (chunkCheck s q c).keep = s.keep := by
  unfold chunkCheck; simp

@[simp ↓] theorem keep_bootFail (s : State) (code : Nat) : (bootFail s code).keep = s.keep := by
  unfold bootFail; simp

@[simp ↓] theorem keep_markApplied (s : State) (p : Hist → Bool) : (markApplied s p).keep = s.keep := by
  unfold markApplied; simp

@[simp ↓] theorem keep_markApplied' (s : State) (p : Hist → Bool) : (markApplied s p).keep = s.keep := (rfl)

@[simp] theorem keep_retireKind (s : State) (kind : Nat) (p : Hist → Bool) (f : State → W32 → State)
    (hf : ∀ s l, (f s l).keep = s.keep) : (retireKind s kind p f).keep = s.keep := by
  unfold retireKind
  dsimp only
  rw [keep_markApplied', keep_foldl f hf]

@[simp ↓] theorem keep_recordUnits (s : State) (locs : List W32) : (recordUnits s locs).keep = s.keep := by
  unfold recordUnits; simp

@[simp ↓] theorem keep_recordFound (s : State) : (recordFound s).keep = s.keep := by
  unfold recordFound; simp

@[simp ↓] theorem keep_leaveOff (s : State) (p : Nat) : (leaveOff s p).keep = s.keep := by
  have h := keep_isolate s p
  unfold leaveOff
  generalize isolate s p = t at h
  simp [h]

@[simp ↓] theorem keep_netUp (s : State) (p : Nat) : (netUp s p).keep = s.keep := by
  unfold netUp; simp

@[simp ↓] theorem keep_netStage (s : State) (r : StageResult) (ps : List Nat) : (netStage s r ps).keep = s.keep := by
  unfold netStage; simp

@[simp ↓] theorem keep_retireRouter (s : State) (loc : W32) : (retireRouter s loc).keep = s.keep := by
  unfold retireRouter; simp

@[simp ↓] theorem keep_retireLink (s : State) (loc : W32) : (retireLink s loc).keep = s.keep := by
  unfold retireLink; repeat' (first | simp | split)

@[simp ↓] theorem keep_testGroup (s : State) (r : StageResult) (g : Link × Nat) : (testGroup s r g).keep = s.keep := by
  unfold testGroup; repeat' (first | simp | split)

@[simp ↓] theorem keep_wireTest (s : State) (r : StageResult) (ps : List Nat) : (wireTest s r ps).keep = s.keep := by
  unfold wireTest; simp

@[simp ↓] theorem keep_selfTest (s : State) (r : StageResult) (ps : List Nat) : (selfTest s r ps).keep = s.keep := by
  unfold selfTest; simp

@[simp ↓] theorem keep_stageRom (s : State) (r : StageResult) : (stageRom s r).keep = s.keep := by
  unfold stageRom; simp

@[simp ↓] theorem keep_chooseRoles (s : State) (i : Nat) (both : Bool) : (chooseRoles s i both).keep = s.keep := by
  unfold chooseRoles; simp

@[simp ↓] theorem keep_recordTrip (s : State) : (recordTrip s).keep = s.keep := by
  unfold recordTrip; repeat' (first | simp | split)

@[simp ↓] theorem keep_markBad (s : State) (b : Bool) : (markBad s b).keep = s.keep := by
  unfold markBad; simp

@[simp ↓] theorem keep_stageNet (s : State) (r : StageResult) : (stageNet s r).keep = s.keep := by
  unfold stageNet; simp

@[simp ↓] theorem keep_rewriteHops (s : State) (d : Nat) (far : List Nat) (p : Nat) : (rewriteHops s d far p).keep = s.keep := by
  unfold rewriteHops; simp

@[simp ↓] theorem keep_rewriteTables (s : State) : (rewriteTables s).keep = s.keep := by
  unfold rewriteTables; simp

@[simp ↓] theorem keep_mapRow (s : State) (e : Nat × Nat × Nat) : (mapRow s e).keep = s.keep := by
  unfold mapRow; simp

@[simp ↓] theorem keep_mapsLoaded (s : State) : (mapsLoaded s).keep = s.keep := by
  unfold mapsLoaded; simp

@[simp ↓] theorem keep_stageSelfTest (s : State) (r : StageResult) : (stageSelfTest s r).keep = s.keep := by
  unfold stageSelfTest; simp

@[simp ↓] theorem keep_enterPapione (s : State) : (enterPapione s).keep = s.keep := by
  unfold enterPapione; simp

@[simp ↓] theorem keep_createEntry (s : State) (e : HoldingEntry) : (createEntry s e).keep = s.keep := by
  unfold createEntry; simp

@[simp ↓] theorem keep_enterSowing (s : State) : (enterSowing s).keep = s.keep := by
  unfold enterSowing; simp

@[simp ↓] theorem keep_loadPort (s : State) (e : PortEntry) : (loadPort s e).keep = s.keep := by
  unfold loadPort; simp

@[simp ↓] theorem keep_enterLanes (s : State) : (enterLanes s).keep = s.keep := by
  unfold enterLanes; simp

@[simp ↓] theorem keep_enterStage (s : State) (n : Nat) : (enterStage s n).keep = s.keep := by
  unfold enterStage; repeat' (first | simp | split)

@[simp ↓] theorem keep_restartStage (s : State) : (restartStage s).keep = s.keep := by
  unfold restartStage; simp

@[simp ↓] theorem keep_resume (before s : State) : (resume before s).keep = s.keep := by
  unfold resume; simp

@[simp ↓] theorem keep_refclkBack (s : State) : (refclkBack s).keep = s.keep := by
  unfold refclkBack; simp

@[simp ↓] theorem keep_sectionBad (s : State) (b : Bool) : (sectionBad s b).keep = s.keep := by
  unfold sectionBad; simp

@[simp ↓] theorem keep_computeWave (s : State) (k : Nat) : (computeWave s k).keep = s.keep := by
  unfold computeWave; simp

@[simp ↓] theorem keep_mapOut (s : State) (q : Nat) : (mapOut s q).keep = s.keep := by
  unfold mapOut; simp

@[simp ↓] theorem keep_croftSelfTest (s : State) (q : Nat) (r : SelfTest) : (croftSelfTest s q r).keep = s.keep := by
  unfold croftSelfTest; repeat' (first | simp | split)

@[simp ↓] theorem keep_commit (s : State) : (commit s).keep = s.keep := by
  unfold commit; simp

@[simp ↓] theorem keep_readParish (s : State) (p o n : Nat) : (readParish s p o n).1.keep = s.keep := by
  unfold readParish; repeat' (first | simp | split)

@[simp ↓] theorem keep_readStc (s : State) (h o n : Nat) : (readStc s h o n).1.keep = s.keep := by
  unfold readStc; repeat' (first | simp | split)

@[simp ↓] theorem keep_readGate (s : State) (gi o n : Nat) : (readGate s gi o n).1.keep = s.keep := by
  unfold readGate; repeat' (first | simp | split)

@[simp ↓] theorem keep_readModule (s : State) (o n : Nat) : (readModule s o n).1.keep = s.keep := by
  unfold readModule; repeat' (first | simp | split)

@[simp ↓] theorem keep_writeParish (s : State) (p o n : Nat) (v : W64) : (writeParish s p o n v).keep = s.keep := by
  unfold writeParish; repeat' (first | simp | split)

@[simp ↓] theorem keep_writeBroadcast (s : State) (o n : Nat) (v : W64) : (writeBroadcast s o n v).keep = s.keep := by
  unfold writeBroadcast; simp

@[simp ↓] theorem keep_writeSeqCtrl (s : State) (h : Nat) (v : W64) : (writeSeqCtrl s h v).keep = s.keep := by
  unfold writeSeqCtrl; simp

@[simp ↓] theorem keep_writeStc (s : State) (h o n : Nat) (v : W64) (src : Option Nat) : (writeStc s h o n v src).keep = s.keep := by
  unfold writeStc; repeat' (first | (simp; done) | split)

@[simp ↓] theorem keep_writeGatCmd (s : State) (gi c h : Nat) (v : W64) : (writeGatCmd s gi c h v).keep = s.keep := by
  unfold writeGatCmd; simp

@[simp ↓] theorem keep_writePortCtrl (s : State) (gi k : Nat) (v : W64) : (writePortCtrl s gi k v).keep = s.keep := by
  unfold writePortCtrl; simp

@[simp ↓] theorem keep_writeGate (s : State) (gi o n h : Nat) (v : W64) : (writeGate s gi o n h v).keep = s.keep := by
  unfold writeGate; repeat' (first | simp | split)

@[simp ↓] theorem keep_writeStw (s : State) (i o : Nat) (d : RegDef) (v : W64) : (writeStw s i o d v).keep = s.keep := by
  unfold writeStw; simp

@[simp ↓] theorem keep_writeHldCtrl (s : State) (h : Nat) (v : W64) : (writeHldCtrl s h v).keep = s.keep := by
  unfold writeHldCtrl; simp

@[simp ↓] theorem keep_writeSowCmd (s : State) (v : W64) : (writeSowCmd s v).keep = s.keep := by
  unfold writeSowCmd; simp

@[simp ↓] theorem keep_runLdg (s : State) (o : LdgOp) : (runLdg s o).keep = s.keep := by
  unfold runLdg; repeat' (first | (simp; done) | split)

@[simp ↓] theorem keep_ldgOp (s : State) (o : LdgOp) : (ldgOp s o).keep = s.keep := by
  unfold ldgOp; simp

@[simp ↓] theorem keep_writeLdgCmd (s : State) (v : W64) : (writeLdgCmd s v).keep = s.keep := by
  unfold writeLdgCmd; simp

theorem keep_writeHld {s t : State} {o : Nat} {d : RegDef} {v : W64} (h : s.writeHld o d v = some t) : t.keep = s.keep := by
  unfold writeHld at h
  dsimp only at h
  split at h
  all_goals first | simp only [reduceCtorEq] at h | (obtain rfl := Option.some.inj h; simp)

@[simp ↓] theorem keep_writeModule (s : State) (o n : Nat) (v : W64) : (writeModule s o n v).keep = s.keep := by
  unfold writeModule
  repeat' (first | (simp; done) | split | intro _)
  all_goals exact keep_writeHld ‹_›

@[simp ↓] theorem keep_readPlace (s : State) (x : Place) (n : Nat) : (readPlace s x n).1.keep = s.keep := by
  unfold readPlace; repeat' (first | simp | split)

@[simp ↓] theorem keep_writePlace (s : State) (x : Place) (n h : Nat) (v : W64) (src : Option Nat) : (writePlace s x n h v src).keep = s.keep := by
  unfold writePlace; repeat' (first | (simp; done) | split)

@[simp ↓] theorem keep_writeCroft (s : State) (n o bytes : Nat) (v : W64) : (writeCroft s n o bytes v).keep = s.keep := by
  unfold writeCroft; repeat' (first | simp | split)

@[simp ↓] theorem keep_regAnswer (s : State) (k : Packet) (v : W64) : (regAnswer s k v).keep = s.keep := by
  unfold regAnswer; simp

@[simp ↓] theorem keep_regWriteAt (s : State) (k : Packet) : (regWriteAt s k).keep = s.keep := by
  unfold regWriteAt; repeat' (first | simp | split)

@[simp ↓] theorem keep_regReadAt (s : State) (k : Packet) : (regReadAt s k).keep = s.keep := by
  unfold regReadAt; repeat' (first | simp | split)

@[simp ↓] theorem keep_coreException (s : State) (st n : Nat) : (coreException s st n).keep = s.keep := by
  unfold coreException; simp

@[simp ↓] theorem keep_coreSend (s : State) (st n : Nat) (addr : BitVec 48) (store : Bool) (dest off : Nat) (v : W64) : (coreSend s st n addr store dest off v).keep = s.keep := by
  unfold coreSend; simp

@[simp ↓] theorem keep_storeToSet (s : State) (st n : Nat) (addr : BitVec 48) : (storeToSet s st n addr).keep = s.keep := by
  unfold storeToSet; simp

@[simp ↓] theorem keep_coreLoad (s : State) (st n : Nat) (addr : BitVec 48) (bytes : Nat) : (coreLoad s st n addr bytes).keep = s.keep := by
  unfold coreLoad; repeat' (first | simp | split)

@[simp ↓] theorem keep_coreStore (s : State) (st n : Nat) (addr : BitVec 48) (bytes : Nat) (v : W64) : (coreStore s st n addr bytes v).keep = s.keep := by
  unfold coreStore; repeat' (first | simp | split)

@[simp ↓] theorem keep_takeCheckpoint (s : State) (h : Nat) : (takeCheckpoint s h).keep = s.keep := by
  unfold takeCheckpoint; simp

@[simp ↓] theorem keep_restoreCheckpoint (s : State) (h : Nat) : (restoreCheckpoint s h).keep = s.keep := by
  unfold restoreCheckpoint; repeat' (first | simp | split)

@[simp ↓] theorem keep_answerControl (s : State) (a : ControlAnswer) : (answerControl s a).keep = s.keep := by
  unfold answerControl; simp

@[simp ↓] theorem keep_registerWrite (s : State) (addr bytes : Nat) (v : W64) : (registerWrite s addr bytes v).keep = s.keep := by
  unfold registerWrite; dsimp only; repeat' (first | (simp; done) | split)

@[simp ↓] theorem keep_loadMap (s : State) (h : Nat) (writes : List (BitVec 48 × W64)) : (loadMap s h writes).keep = s.keep := by
  unfold loadMap; refine keep_foldl _ (fun s w => ?_) _ _; dsimp only; split <;> split <;> simp

@[simp ↓] theorem keep_serveControl (s : State) (r : ControlRequest) : (serveControl s r).keep = s.keep := by
  unfold serveControl; repeat' (first | simp | split)

@[simp ↓] theorem keep_spdm (s : State) (i : Nat) (a : SpdmAnswer) : (spdm s i a).keep = s.keep := by
  unfold spdm; simp

@[simp ↓] theorem keep_signed (s : State) (i : Nat) (transcript : List Byte) : (signed s i transcript).2.keep = s.keep := by
  unfold signed; simp

@[simp ↓] theorem keep_whenUp (s : State) (f : State → State) (hf : ∀ s, (f s).keep = s.keep) : (whenUp s f).keep = s.keep := by
  unfold whenUp; split <;> simp [hf]

@[simp ↓] theorem keep_atPort (s : State) (gi k vc : Nat) (m : Msg) (f : State → State) (hf : ∀ s, (f s).keep = s.keep) : (atPort s gi k vc m f).keep = s.keep := by
  unfold atPort; dsimp only; repeat' (first | (simp [hf]; done) | split)

@[simp ↓] theorem keep_capture (s : State) : (capture s).keep = s.keep := (rfl)

@[simp ↓] theorem keep_ldgDone (s : State) : (ldgDone s).keep = s.keep := by
  unfold ldgDone; repeat' (first | (simp; done) | split)

@[simp ↓] theorem keep_raiseCycle (s : State) : (raiseCycle s).keep = s.keep := by
  unfold raiseCycle; simp

@[simp ↓] theorem keep_romSets (s : State) (i : Nat) (b : Bool) : (romSets s i b).keep = s.keep := by
  unfold romSets; simp

end State
end Sys2Proof.Machine
end

