-- ==== Sys2Proof/Laws/Supply.lean ====
section
/-! SUPPORT. What power-off and module reset leave, and what the auxiliary converter's supply does (R21, R22, R402, R407). -/

namespace Sys2Proof.Machine.State

open Sys2Proof.Safety

/-- A steward after power-off: nothing but its management cable. -/
theorem steward_cold (s : State) (i : Nat) (hi : i < 2) : s.cold.steward i = { mgmtCable := (s.steward i).mgmtCable } := by
  have : i = 0 ∨ i = 1 := by omega
  rcases this with rfl | rfl <;> simp [steward, cold, mgmtCables, Tab.get_set]

/-- Power-off and module reset restart the module. -/
theorem cold_restarted (s : State) : Restarted s s.cold :=
  ⟨rfl, rfl, rfl, rfl, rfl, rfl, rfl, fun i hi => steward_cold s i hi, rfl, rfl, rfl, rfl, rfl, rfl, rfl, rfl, rfl, rfl, rfl, rfl, rfl,
    rfl, rfl, rfl, rfl, rfl⟩

/-- The same after a change of nothing but the supply. -/
theorem cold_restarted_power (s : State) (p : Power) : Restarted s { s with power := p }.cold :=
  ⟨rfl, rfl, rfl, rfl, rfl, rfl, rfl, fun i hi => steward_cold s i hi, rfl, rfl, rfl, rfl, rfl, rfl, rfl, rfl, rfl, rfl, rfl, rfl, rfl,
    rfl, rfl, rfl, rfl, rfl⟩

/-- A second power-off finds the module as the first left it. -/
theorem cold_cold_restarted (s : State) (p q : Power) : Restarted s { { s with power := p }.cold with power := q }.cold :=
  ⟨rfl, rfl, rfl, rfl, rfl, rfl, rfl, fun i hi => by
      have h : ({ { s with power := p }.cold with power := q } : State).steward i = ({ s with power := p } : State).cold.steward i := rfl
      rw [steward_cold _ i hi, h, steward_cold _ i hi]; rfl,
    rfl, rfl, rfl, rfl, rfl, rfl, rfl, rfl, rfl, rfl, rfl, rfl, rfl, rfl, rfl, rfl, rfl, rfl⟩

/-- The supply either stays as it was or starts the module again. -/
theorem supplyAux_cases (s : State) (p : Power) :
    let on : Bool := feeds p.busbar && !p.tripLatch
    { s with power := p }.supplyAux =
      if on = p.auxOn then { s with power := p } else { s with power := { p with auxOn := on } }.cold := by
  intro on
  simp only [supplyAux]
  by_cases h : on = p.auxOn
  · rw [if_pos h, if_pos h, show (feeds p.busbar && !p.tripLatch) = on from rfl, h]
  · rw [if_neg h, if_neg h]

end Sys2Proof.Machine.State
end

