-- ==== Sys2Proof/Laws/Twice.lean ====
section
/-! SUPPORT. Two writes of one thing come to the later one. -/

namespace Sys2Proof.Machine

@[simp] theorem State.setCroft_setCroft (s : State) (i : Nat) (v w : Croft) : (s.setCroft i v).setCroft i w = s.setCroft i w := by
  simp [State.setCroft]
@[simp] theorem State.setParish_setParish (s : State) (i : Nat) (v w : Parish) : (s.setParish i v).setParish i w = s.setParish i w := by
  simp [State.setParish]
theorem State.setStc_setStc_stcs (s : State) (i : Nat) (v w : Stc) :
    ((s.setStc i v).setStc i w).stcs = (s.setStc i w).stcs := by simp
@[simp] theorem State.setGate_setGate (s : State) (i : Nat) (v w : Gate) : (s.setGate i v).setGate i w = s.setGate i w := by
  simp [State.setGate]
@[simp] theorem State.setSteward_setSteward (s : State) (i : Nat) (v w : Steward) : (s.setSteward i v).setSteward i w = s.setSteward i w := by
  simp [State.setSteward]
@[simp] theorem State.setHolding_setHolding (s : State) (i : Nat) (v w : Holding) : (s.setHolding i v).setHolding i w = s.setHolding i w := by
  simp [State.setHolding]
@[simp] theorem State.setReg_setReg (s : State) (o : Nat) (a b : W64) : (s.setReg o a).setReg o b = s.setReg o b := by
  simp [State.setReg]
@[simp] theorem Stc.setReg_setReg (c : Stc) (o : Nat) (a b : W64) : (c.setReg o a).setReg o b = c.setReg o b := by
  simp [Stc.setReg]
@[simp] theorem Gate.setReg_setReg (g : Gate) (o : Nat) (a b : W64) : (g.setReg o a).setReg o b = g.setReg o b := by
  simp [Gate.setReg]
@[simp] theorem Parish.setReg_setReg (p : Parish) (o : Nat) (a b : W64) : (p.setReg o a).setReg o b = p.setReg o b := by
  simp [Parish.setReg]
@[simp] theorem Site.setReg_setReg (x : Site) (o : Nat) (a b : W64) : (x.setReg o a).setReg o b = x.setReg o b := by
  simp [Site.setReg]
@[simp] theorem Site.setChan_setChan (x : Site) (i : Nat) (a b : Chan) : (x.setChan i a).setChan i b = x.setChan i b := by
  simp [Site.setChan]
@[simp] theorem Gate.setPort_setPort (g : Gate) (i : Nat) (a b : Port) : (g.setPort i a).setPort i b = g.setPort i b := by
  simp [Gate.setPort]
@[simp] theorem Gate.setLane_setLane (g : Gate) (i : Nat) (a b : Lane) : (g.setLane i a).setLane i b = g.setLane i b := by
  simp [Gate.setLane]
@[simp] theorem Gate.setChan_setChan (g : Gate) (i : Nat) (a b : Chan) : (g.setChan i a).setChan i b = g.setChan i b := by
  simp [Gate.setChan]

end Sys2Proof.Machine
end

