-- ==== Sys2Proof/Tests/Slice0.lean ====
section
/-! SUPPORT. Tests: ill-formed commands, worked examples of the spec, and for each statement a state and operands that meet
its hypotheses together. -/

namespace Sys2Proof.Tests
open Sys2Proof.Machine Sys2Proof.Safety
set_option Elab.async false

/-! ### Small states -/

/-- The state after a command; the state before where it stops. -/
def after (i : Instr) (s : State) : State :=
  match exec i s with
  | .next t => t
  | _ => s

/-- The command completes. -/
def runs (i : Instr) (s : State) : Bool :=
  match exec i s with
  | .next _ => true
  | _ => false

/-- Bring-up is over: parish P00 is ON and belongs to the ACTIVE holding 0; steward 0 is ACTIVE and has no partner. -/
def on0 : State :=
  let s : State := { State.reset with power := { busbar := .within, auxOn := true }, sec := { running := true, stage := 8 }
                                      ledger := { answers := true } }
  (((s.setParish 0 { st := .on, nclkLock := true, pclkLock := true }).setReg (Reg.hldOwner 0) 0).setHolding 0
    { st := .active }).setSteward 0 { role := .active }

/-- Croft 0 of P00 in that state. -/
def at0 (c : Croft) : State := on0.setCroft 0 c

/-- Croft 0 runs slot 0, with a word at its pc. -/
def atWord (w : Nat) (c : Croft := {}) : State :=
  at0 { c with mem := Memory.write c.mem 0x03000000 (leBytes 16 w), seq := { c.seq with st := .run } }

def c0 : Phys := ⟨0, by decide⟩

/-! ### The sequencer -/

/-- A word of class cls, with more of its bits. -/
def wd (cls more : Nat) : Nat := cls * 2 ^ 124 + more
def w128 (n : Nat) : W128 := BitVec.ofNat 128 n

def full4 : List QWord := List.replicate 4 {}

theorem test_unit_words_queue :
    (Issues (atWord (wd 0 0)) 0 (w128 (wd 0 0)) ∧ wordClass (w128 (wd 0 0)) = 0) ∧
    (Issues (atWord (wd 1 (2 * 2 ^ 108))) 0 (w128 (wd 1 (2 * 2 ^ 108))) ∧ wordClass (w128 (wd 1 (2 * 2 ^ 108))) = 1 ∧
      wordOp (w128 (wd 1 (2 * 2 ^ 108))) = 2) ∧
    (Issues (atWord (wd 3 (2 ^ 108))) 0 (w128 (wd 3 (2 ^ 108))) ∧ wordClass (w128 (wd 3 (2 ^ 108))) = 3) := by
  unfold Issues; decide +kernel

theorem test_unit_words_full :
    (Issues (atWord (wd 2 0) { drainQ := full4 }) 0 (w128 (wd 2 0)) ∧ wordClass (w128 (wd 2 0)) = 2 ∧ full4.length = 4) ∧
    (Issues (atWord (wd 3 (2 ^ 108)) { vecQ := full4 }) 0 (w128 (wd 3 (2 ^ 108)))) ∧
    (Issues (atWord (wd 1 (3 * 2 ^ 108)) { arrayQ := full4 }) 0 (w128 (wd 1 (3 * 2 ^ 108)))) := by
  unfold Issues; decide +kernel

/-- A first LOOP of three turns; an ENDLOOP with turns left, and one with none. -/
theorem test_loop_words :
    (Issues (atWord (wd 6 2)) 0 (w128 (wd 6 2)) ∧ wordClass (w128 (wd 6 2)) = 6 ∧ wfield (w128 (wd 6 2)) 17 16 = 0) ∧
    (Issues (atWord (wd 7 0) { seq := { loops := [{ body := 1, left := 2 }] } }) 0 (w128 (wd 7 0)) ∧ wordClass (w128 (wd 7 0)) = 7 ∧
      wfield (w128 (wd 7 0)) 17 16 = 0) ∧
    Issues (atWord (wd 7 0) { seq := { loops := [{ body := 1, left := 1 }] } }) 0 (w128 (wd 7 0)) := by
  unfold Issues; decide +kernel

def waiting (h : Held) (c : Croft := {}) : Croft := { c with seq := { c.seq with st := .wait, held := h } }

theorem test_wait_words :
    (Issues (atWord (wd 8 3) (withQueue {} 3 [7])) 0 (w128 (wd 8 3)) ∧ wordClass (w128 (wd 8 3)) = 8 ∧ wfield (w128 (wd 8 3)) 2 0 = 3 ∧
      queueOf ((atWord (wd 8 3) (withQueue {} 3 [7])).croft 0) 3 = [7]) ∧
    (Issues (atWord (wd 8 0)) 0 (w128 (wd 8 0)) ∧ queueOf ((atWord (wd 8 0)).croft 0) 0 = []) ∧
    (Issues (atWord (wd 8 4) { seq := { stepNew := true } }) 0 (w128 (wd 8 4)) ∧ wfield (w128 (wd 8 4)) 2 0 = 4) ∧
    Issues (atWord (wd 8 4)) 0 (w128 (wd 8 4)) := by
  unfold Issues; decide +kernel

theorem test_wait_ends :
    (((at0 (waiting (.queue 1) (withQueue {} 1 [5]))).site 0).live = true ∧
      queueOf ((at0 (waiting (.queue 1) (withQueue {} 1 [5]))).croft 0) 1 = [5]) ∧
    ((at0 (waiting .stepEvent { seq := { armed := true } })).site 0).live = true ∧
    (let s := at0 (waiting (.queue 1) { mem := Memory.write [] 0x03000000 (leBytes 16 (wd 8 (2 ^ 16 + 1))) });
      (s.site 0).live = true ∧ wfield (s.site 0).nextWord 31 16 ≠ 0 ∧ queueOf (s.croft 0) 1 = []) := by decide +kernel

theorem test_post_words :
    (Issues (atWord (wd 9 (2 ^ 32 + 5))) 0 (w128 (wd 9 (2 ^ 32 + 5))) ∧ wordClass (w128 (wd 9 (2 ^ 32 + 5))) = 9 ∧
      wfield (w128 (wd 9 (2 ^ 32 + 5))) 37 37 = 0 ∧ (queueOf ((atWord (wd 9 (2 ^ 32 + 5))).croft 0) 1).length < 16) ∧
    (Issues (atWord (wd 9 5) (withQueue {} 0 (List.replicate 16 1))) 0 (w128 (wd 9 5)) ∧
      16 ≤ (queueOf ((atWord (wd 9 5) (withQueue {} 0 (List.replicate 16 1))).croft 0) 0).length) ∧
    (Issues (atWord (wd 9 (2 ^ 37))) 0 (w128 (wd 9 (2 ^ 37))) ∧ wfield (w128 (wd 9 (2 ^ 37))) 37 37 = 1) := by
  unfold Issues; decide +kernel

/-- A window at the last lines of the scratchpad, with its grant; and one whose closing has writes to wait for. -/
theorem test_window_opens :
    (let w := wd 0xA (0 * 2 ^ 48 + 65535 * 2 ^ 32 + 2 ^ 10 + 15 * 4 + 1);
      Issues (atWord w) 0 (w128 w) ∧ wordClass (w128 w) = 0xA ∧ wfield (w128 w) 1 0 = 1 ∧
        CanOpen (atWord w) 0 (wfield (w128 w) 5 2) (wfield (w128 w) 47 32) (wfield (w128 w) 63 48) ∧
        (queueOf ((atWord w).croft 0) (wfield (w128 w) 12 11)).length < 16) ∧
    (bitsOf (0x40000000 : W32).toNat 31 30 = 1 ∧ CanOpen on0 0 0 (winBase (on0.croft 0) 0) (winLen (on0.croft 0) 0)) ∧
    (let c := withReg {} (Reg.crfWinState 3) 0x100;
      bitsOf (0x40000003 : W32).toNat 3 0 = 3 ∧ winState ((at0 c).croft 0) 3 = 1) := by
  unfold Issues CanOpen; decide +kernel

theorem test_window_closes :
    (let c := withReg {} (Reg.crfWinState 3) 0x1FF;
      let w := wd 0xA (3 * 4 + 2);
      Issues (atWord w c) 0 (w128 w) ∧ wordClass (w128 w) = 0xA ∧ wfield (w128 w) 1 0 = 2 ∧ winState ((atWord w c).croft 0) 3 = 1 ∧
        WinDrained ((atWord w c).croft 0) 3) ∧
    (let c : Croft := { withReg {} (Reg.crfWinState 3) 0x100 with accepted := [{ pkt := { window := 3 }, addr := 0 }] };
      winState ((at0 c).croft 0) 3 = 1 ∧ bitsOf (0x80000003 : W32).toNat 31 30 = 2 ∧ ¬ WinDrained ((at0 c).croft 0) 3) ∧
    (let c := withReg (waiting (.closing 3)) (Reg.crfWinState 3) 0x200;
      winState ((at0 c).croft 0) 3 = 2 ∧ WinDrained ((at0 c).croft 0) 3 ∧ Live (at0 c) 0) ∧
    (let c := withReg (waiting (.opening 3)) (Reg.crfWinState 3) 0x100;
      winState ((at0 c).croft 0) 3 = 1 ∧ WinDrained ((at0 c).croft 0) 3 ∧ Live (at0 c) 0 ∧ c.seq.held = .opening 3) := by
  unfold Issues WinDrained Live; decide +kernel

theorem test_sequencer_starts :
    (((4 : W32).getLsbD 2 = true) ∧ (4 : W32).getLsbD 3 = false ∧ Live (at0 (withReg {} Reg.crfSeqSlots 1)) 0 ∧
      bit (regOf ((at0 (withReg {} Reg.crfSeqSlots 1)).croft 0) Reg.crfSeqSlots) (bitsOf (4 : W32).toNat 1 0) = true) ∧
    (Live (atWord (wd 0 0)) 0 ∧ ((atWord (wd 0 0)).croft 0).seq.st ≠ .idle) ∧
    UnitsIdle ((at0 { seq := { stopping := true } }).croft 0) := by
  unfold Live UnitsIdle; decide +kernel

theorem test_sequencer_ends :
    (Issues (atWord (wd 0xB 1)) 0 (w128 (wd 0xB 1)) ∧ wordClass (w128 (wd 0xB 1)) = 0xB) ∧
    (let s := at0 (withReg (waiting (.phase 1)) Reg.crfSeqSlots 2);
      Live s 0 ∧ UnitsIdle (s.croft 0) ∧ SlotChansEnded (s.croft 0) ∧ bit (regOf (s.croft 0) Reg.crfSeqSlots) 1 = true) ∧
    (Issues (atWord (wd 0xD 0)) 0 (w128 (wd 0xD 0)) ∧ wordClass (w128 (wd 0xD 0)) = 0xD) ∧
    (Live (atWord (wd 0xE 0)) 0 ∧ wordLegal ((atWord (wd 0xE 0)).site 0).nextWord = false) ∧
    Live (at0 { seq := { st := .run, pc := 512 } }) 0 := by
  unfold Issues Live UnitsIdle SlotChansEnded; decide +kernel

/-! ### Crofts: remote access, resets and steps -/

/-- Croft 0 with window 1 OPEN for everything over its last 64 bytes. -/
def winCroft : Croft :=
  let c := withReg {} (Reg.crfWinRange 1) (BitVec.ofNat 64 (1 * 65536 + 65534));
  { withReg c (Reg.crfWinState 1) 0x7105 with mem := Memory.write [] 0x1FFFC0 [1, 2, 3] }

/-- A packet to croft 0 that ends with its window. -/
def toWin (op : Nat) (bs : List Byte) : Packet :=
  { op := BitVec.ofNat 8 op, src := 0x7100, holding := 15, tag := 9, window := 1, gen := 5, offset := 61, length := 3, payload := bs }

theorem test_remote_access :
    (at0 winCroft).reached (toWin 1 [7, 8, 9]) = some 0 ∧ (toWin 1 [7, 8, 9]).wellFormed = true ∧ Passes (at0 winCroft) 0 (toWin 1 [7, 8, 9]) ∧
    InWindow winCroft (toWin 1 [7, 8, 9]) 1 ∧ InWindow winCroft (toWin 2 []) 0 ∧ (toWin 2 []).wellFormed = true ∧
    (toWin 2 []).length.toNat ≤ 4096 ∧ (∀ cw, eccAt ((at0 winCroft).croft 0) cw = .clean) ∧
    32 * winBase winCroft 1 + 61 + 3 ≤ 0x200000 := by
  refine ⟨?_, ?_, ?_, ?_, ?_, ?_, ?_, fun _ => rfl, ?_⟩
  all_goals first | decide +kernel | (unfold Passes; decide +kernel) | (unfold InWindow; decide +kernel)

theorem test_remote_token :
    (at0 {}).reached { toWin 6 [] with opdata := 0x100000005 } = some 0 ∧ Passes (at0 {}) 0 { toWin 6 [] with opdata := 0x100000005 } ∧
    (queueOf ((at0 {}).croft 0) 1).length < 16 ∧ 16 ≤ (queueOf (withQueue {} 1 (List.replicate 16 0)) 1).length ∧
    Passes (at0 (withQueue {} 1 (List.replicate 16 0))) 0 (toWin 6 []) := by
  refine ⟨?_, ?_, ?_, ?_, ?_⟩
  all_goals first | decide +kernel | (unfold Passes; decide +kernel)

theorem test_writes_commit :
    ((at0 { winCroft with accepted := [⟨toWin 1 [7], 64⟩] }).croft 0).accepted = [⟨toWin 1 [7], 64⟩] ∧
    runs (.writeCommit c0) (at0 { winCroft with accepted := [⟨{ toWin 1 [7] with origVc := 2 }, 64⟩] }) = true ∧
    (let c : Croft := { withReg (waiting (.closing 1)) (Reg.crfWinState 1) 0x200 with accepted := [⟨toWin 1 [7], 64⟩] };
      winState c 1 = 2 ∧ WinDrained { c with accepted := [] } 1 ∧ Live (at0 c) 0 ∧ c.seq.held = .closing (toWin 1 [7]).window.toNat) := by
  unfold WinDrained Live; decide +kernel

theorem test_croft_resets :
    ((at0 { resetting := true }).croft 0).resetting = true ∧ runs (.croftReset c0) (at0 winCroft) = true := by decide +kernel

theorem test_fences :
    bit (regOf ((at0 winCroft).croft 0) Reg.crfCtrl) 0 = false ∧
    (let c : Croft := { withReg {} Reg.crfCtrl 1 with resetSince := true };
      bit (regOf c Reg.crfCtrl) 0 = true ∧ (at0 c).cut 0 = false ∧ c.faultFence = false) ∧ State.reset.cut 0 = true ∧
    ((at0 { resetting := true }).croft 0).resetting = true := by decide +kernel

theorem test_step_numbers :
    (regOf (withReg {} Reg.crfStep 4) Reg.crfStep).toNat ≠ (5 : W32).toNat ∧
    (let c : Croft := { withReg {} Reg.crfStep 5 with stepWritten := true };
      (regOf c Reg.crfStep).toNat = (5 : W32).toNat ∧ Live (at0 c) 0) := by unfold Live; decide +kernel

theorem test_row_repairs :
    (0x80000FFF : W32).getLsbD 31 = true ∧ repairAt {} 0 0 = none ∧ ¬ RowTaken {} 0 4095 ∧
    RowTaken { repairs := [(3, some 4095)] } 0 4095 ∧
    ((at0 { repairing := some (7, 31, 4095) }).croft 0).repairing = some (7, 31, 4095) := by
  unfold RowTaken; decide +kernel

/-! ### Carters -/

/-- Croft 0 with channel 0 of state v running, and a carter instruction at its pc. -/
def atCar (w : Nat) (v : Chan := {}) (c : Croft := {}) : State :=
  at0 { c with mem := Memory.write c.mem (32 * v.pc) (leBytes 32 w), chans := [(0, { v with st := .run })] }

/-- An instruction of OPC opc, with more of its bits. -/
def ci (opc more : Nat) : Nat := opc * 2 ^ 252 + more
def w256 (n : Nat) : W256 := BitVec.ofNat 256 n

theorem test_carter_words :
    (let w := wd 5 (2 ^ 108 + 2 ^ 84 + 3 * 2 ^ 82 + 7 * 2 ^ 105);
      Issues (atWord w) 0 (w128 w) ∧ wordClass (w128 w) = 5 ∧ wordOp (w128 w) = 1 ∧ wfield (w128 w) 107 105 = 7 ∧
        (chanOf ((atWord w).croft 0) 7).active = false ∧ (queueOf ((atWord w).croft 0) 3).length < 16) ∧
    (let w := wd 5 (2 ^ 108);
      Issues (atWord w { chans := [(0, { st := .draining })] }) 0 (w128 w) ∧
        (chanOf ((atWord w { chans := [(0, { st := .draining })] }).croft 0) 0).active = true) ∧
    Issues (atWord (wd 5 (2 * 2 ^ 108))) 0 (w128 (wd 5 (2 * 2 ^ 108))) ∧ Issues (atWord (wd 5 (3 * 2 ^ 108))) 0 (w128 (wd 5 (3 * 2 ^ 108))) := by
  unfold Issues; decide +kernel

theorem test_carter_commands :
    (Live (at0 {}) 0 ∧ bitsOf (0x40000000 : W32).toNat 31 30 = 1 ∧ (chanOf ((at0 {}).croft 0) 0).active = false) ∧
    (chanOf ((at0 { chans := [(0, { st := .run })] }).croft 0) 0).active = true ∧
    (bitsOf (0x80000000 : W32).toNat 31 30 = 2 ∧ bitsOf (0xC0000000 : W32).toNat 31 30 = 3 ∧
      (regOf ((at0 {}).croft 0) Reg.carCmdHandle).toNat = (chanHandle (at0 {}) 0 0 (chanOf ((at0 {}).croft 0) 0).gen).toNat) ∧
    (regOf ((at0 {}).croft 0) Reg.carCmdHandle).toNat ≠ (chanHandle (at0 {}) 0 1 (chanOf ((at0 {}).croft 0) 1).gen).toNat := by
  unfold Live; decide +kernel

def loop0 : Nat := ci 3 (2 * 2 ^ 234 + 2 ^ 226)

/-- Read at the pc, and held from an earlier try. -/
theorem test_carter_loops :
    CarterAt (atCar loop0) 0 0 (w256 loop0) ∧ carOpc (w256 loop0) = 3 ∧
    CarterAt (atCar 0 { fetched := true, instr := w256 loop0 }) 0 0 (w256 loop0) := by unfold CarterAt Live; decide +kernel

/-- A WAIT on source k with id j. -/
def cwait (k j more : Nat) : Nat := ci 4 (k * 2 ^ 249 + j * 2 ^ 245 + more)

theorem test_carter_waits :
    (CarterAt (atCar (cwait 0 1 0) {} (withQueue {} 1 [6])) 0 0 (w256 (cwait 0 1 0)) ∧ carOpc (w256 (cwait 0 1 0)) = 4 ∧
      queueOf ((atCar (cwait 0 1 0) {} (withQueue {} 1 [6])).croft 0) 1 = [6] ∧
      ((atCar (cwait 0 1 0) {} (withQueue {} 1 [6])).site 0).served 0 0 1 = false) ∧
    (CarterAt (atCar (cwait 1 15 0) {} (withReg {} Reg.carEvent 0x8000)) 0 0 (w256 (cwait 1 15 0)) ∧
      bit (regOf ((atCar (cwait 1 15 0) {} (withReg {} Reg.carEvent 0x8000)).croft 0) Reg.carEvent) 15 = true ∧
      ((atCar (cwait 1 15 0) {} (withReg {} Reg.carEvent 0x8000)).site 0).served 0 1 15 = false) ∧
    (CarterAt (atCar (cwait 2 3 0) {} (withReg {} (Reg.carArrive 3) 1)) 0 0 (w256 (cwait 2 3 0)) ∧
      max 1 (cfield (w256 (cwait 2 3 0)) 227 196) ≤ (regOf ((atCar (cwait 2 3 0) {} (withReg {} (Reg.carArrive 3) 1)).croft 0) (Reg.carArrive 3)).toNat) ∧
    CarterAt (atCar (cwait 3 0 0) { stepNew := true }) 0 0 (w256 (cwait 3 0 0)) ∧
    (CarterAt (atCar (cwait 4 7 0)) 0 0 (w256 (cwait 4 7 0)) ∧ (chanOf ((atCar (cwait 4 7 0)).croft 0) 7).active = false) ∧
    (CarterAt (atCar (cwait 0 1 0)) 0 0 (w256 (cwait 0 1 0)) ∧ ((atCar (cwait 0 1 0)).site 0).carWaitMet 0 (w256 (cwait 0 1 0)) = false) := by
  unfold CarterAt Live; and_intros <;> decide +kernel

/-- Channel 0 waits at a WAIT with a timeout. -/
def carWaits (w : Nat) (v : Chan := {}) (c : Croft := {}) : State :=
  at0 { c with chans := [(0, { v with st := .wait, instr := w256 w, fetched := true })] }

theorem test_carter_waits_end :
    (let s := carWaits (cwait 0 1 (2 ^ 228)) {} (withQueue {} 1 [6]);
      Live s 0 ∧ (chanOf (s.croft 0) 0).st = .wait ∧ cfield (chanOf (s.croft 0) 0).instr 243 228 ≠ 0 ∧ queueOf (s.croft 0) 1 = [6] ∧
        (s.site 0).served 0 0 1 = false) ∧
    (let s := carWaits (cwait 0 1 (2 ^ 228));
      Live s 0 ∧ cfield (chanOf (s.croft 0) 0).instr 243 228 ≠ 0 ∧ (s.site 0).carWaitMet 0 (chanOf (s.croft 0) 0).instr = false) := by
  unfold Live; decide +kernel

def sig (k more : Nat) : Nat := ci 5 (k * 2 ^ 250 + more)

theorem test_carter_signals :
    (CarterAt (atCar (sig 0 (3 * 2 ^ 248))) 0 0 (w256 (sig 0 (3 * 2 ^ 248))) ∧ (queueOf ((atCar (sig 0 (3 * 2 ^ 248))).croft 0) 3).length < 16) ∧
    (CarterAt (atCar (sig 1 (26879 * 2 ^ 194))) 0 0 (w256 (sig 1 (26879 * 2 ^ 194))) ∧ ((atCar (sig 1 (26879 * 2 ^ 194))).site 0).outstanding < 64) ∧
    CarterAt (atCar (sig 2 (15 * 2 ^ 244))) 0 0 (w256 (sig 2 (15 * 2 ^ 244))) ∧
    (CarterAt (atCar (ci 0 0)) 0 0 (w256 (ci 0 0)) ∧ (chanOf ((atCar (ci 0 0)).croft 0) 0).outst = []) := by
  unfold CarterAt Live; decide +kernel

theorem test_carter_illegal :
    (Live (atCar (ci 6 0)) 0 ∧ carLegal (((atCar (ci 6 0)).site 0).carPeek 0) = false ∧ (chanOf ((atCar (ci 6 0)).croft 0) 0).pc < 65536) ∧
    Live (at0 { chans := [(0, { st := .run, pc := 65536 })] }) 0 ∧
    (let v : Chan := { loops := [{ len := 1 }, { len := 1 }, { len := 1 }, { len := 1 }], st := .run };
      Site.loopIllegal v (w256 loop0) = true ∧ (((atCar loop0 v).site 0).carPeek 0) = w256 loop0) ∧
    (chanOf ((atCar (ci 6 0) { slot := some 0 }).croft 0) 0).slot.isSome = true := by
  unfold Live; decide +kernel

/-- A MOVE or RESHUFFLE of len bytes from offset a to offset b. -/
def cmove (opc len a b more : Nat) : Nat := ci opc ((len - 1) * 2 ^ 221 + a * 2 ^ 189 + b * 2 ^ 157 + more)

theorem clean_movable {s : State} (m : Moving) (b : Nat) (ho : (chanOf (s.croft 0) 0).outst = []) (he : (s.croft 0).ecc = [])
    (hr : Site.moveRefused m = 0) (h1 : m.srcWin = false → ∀ p < m.len, ∀ a ∈ m.sources p, a < 0x2000)
    (h2 : m.dst = 0 → ∀ p < m.len, m.dstAt p = b + p) (h3 : 0x2000 ≤ b) (h4 : b + m.len ≤ 0x200000) : Movable s 0 0 m := by
  refine ⟨ho, fun cw => ?_, hr, fun h p hp a ha => ?_, fun h => ⟨fun p hp => ?_, fun p hp r hr e => ?_, fun hw p hp r hr hm => ?_⟩⟩
  · simp [eccAt, he, Machine.Tab.get]
  · have := h1 h p hp a ha; omega
  · rw [h2 h p hp]; omega
  · rw [h2 h p hp, h2 h r hr] at e; omega
  · have := h1 hw r hr _ hm
    rw [h2 h p hp] at this; omega

def mv0 : Nat := cmove 1 3 0x1000 0x1FFFFD 0

/-- Three bytes to the end of the scratchpad. -/
theorem test_carter_move_local :
    CarterAt (atCar mv0) 0 0 (w256 mv0) ∧ carOpc (w256 mv0) = 1 ∧ cfield (w256 mv0) 251 250 = 0 ∧ cfield (w256 mv0) 249 248 = 0 ∧
    Movable (atCar mv0) 0 0 (Site.moveOf (chanOf ((atCar mv0).croft 0) 0) (w256 mv0)) := by
  refine ⟨by unfold CarterAt Live; decide +kernel, by decide +kernel, by decide +kernel, by decide +kernel, clean_movable _ 0x1FFFFD rfl rfl ?_ ?_ ?_ ?_ ?_⟩ <;>
    decide +kernel

/-- 64 bytes by two byte streams. -/
def il0 (op : Nat) : Nat := cmove 2 64 0x1000 0x2000 (op * 2 ^ 117 + 2 ^ 108 + 32 * 2 ^ 73)

theorem test_carter_interleave :
    (CarterAt (atCar (il0 3)) 0 0 (w256 (il0 3)) ∧ Movable (atCar (il0 3)) 0 0 (Site.moveOf (chanOf ((atCar (il0 3)).croft 0) 0) (w256 (il0 3)))) ∧
    (CarterAt (atCar (il0 4)) 0 0 (w256 (il0 4)) ∧ Movable (atCar (il0 4)) 0 0 (Site.moveOf (chanOf ((atCar (il0 4)).croft 0) 0) (w256 (il0 4)))) := by
  refine ⟨⟨by unfold CarterAt Live; decide +kernel, clean_movable _ 0x2000 rfl rfl ?_ ?_ ?_ ?_ ?_⟩,
    ⟨by unfold CarterAt Live; decide +kernel, clean_movable _ 0x2000 rfl rfl ?_ ?_ ?_ ?_ ?_⟩⟩ <;> decide +kernel

/-- 64 bytes as two bit planes of 32. -/
def pl0 (op : Nat) : Nat := cmove 2 64 0x1000 0x2000 (op * 2 ^ 117 + 2 * 2 ^ 112 + 32 * 2 ^ 73)

theorem test_carter_planes :
    (CarterAt (atCar (pl0 1)) 0 0 (w256 (pl0 1)) ∧ Movable (atCar (pl0 1)) 0 0 (Site.moveOf (chanOf ((atCar (pl0 1)).croft 0) 0) (w256 (pl0 1)))) ∧
    (CarterAt (atCar (pl0 2)) 0 0 (w256 (pl0 2)) ∧ Movable (atCar (pl0 2)) 0 0 (Site.moveOf (chanOf ((atCar (pl0 2)).croft 0) 0) (w256 (pl0 2)))) := by
  refine ⟨⟨by unfold CarterAt Live; decide +kernel, clean_movable _ 0x2000 rfl rfl ?_ ?_ ?_ ?_ ?_⟩,
    ⟨by unfold CarterAt Live; decide +kernel, clean_movable _ 0x2000 rfl rfl ?_ ?_ ?_ ?_ ?_⟩⟩ <;> decide +kernel

/-- A read from a window, a write to one, a multicast and a register write, each of one packet. -/
def rd0 : Nat := cmove 1 32 4064 0x2000 (2 ^ 250 + 2 ^ 243)
def wr0 : Nat := cmove 1 512 0x1000 0 (2 ^ 248 + 2 ^ 241)
def mc0 : Nat := cmove 1 512 0x1000 0 (2 * 2 ^ 248)
def rg0 : Nat := cmove 1 4 0x1000 4 (3 * 2 ^ 248)

theorem test_carter_move_sends :
    (CarterAt (atCar rd0) 0 0 (w256 rd0) ∧ Movable (atCar rd0) 0 0 (Site.moveOf (chanOf ((atCar rd0).croft 0) 0) (w256 rd0)) ∧
      (Site.moveOf (chanOf ((atCar rd0).croft 0) 0) (w256 rd0)).srcWin = true) ∧
    (CarterAt (atCar wr0) 0 0 (w256 wr0) ∧ Movable (atCar wr0) 0 0 (Site.moveOf (chanOf ((atCar wr0).croft 0) 0) (w256 wr0)) ∧
      (Site.moveOf (chanOf ((atCar wr0).croft 0) 0) (w256 wr0)).dst = 1) ∧
    (CarterAt (atCar mc0) 0 0 (w256 mc0) ∧ Movable (atCar mc0) 0 0 (Site.moveOf (chanOf ((atCar mc0).croft 0) 0) (w256 mc0)) ∧
      (Site.moveOf (chanOf ((atCar mc0).croft 0) 0) (w256 mc0)).dst = 2) ∧
    (CarterAt (atCar rg0) 0 0 (w256 rg0) ∧ Movable (atCar rg0) 0 0 (Site.moveOf (chanOf ((atCar rg0).croft 0) 0) (w256 rg0)) ∧
      (Site.moveOf (chanOf ((atCar rg0).croft 0) 0) (w256 rg0)).dst = 3) := by
  refine ⟨⟨by unfold CarterAt Live; decide +kernel, clean_movable _ 0x2000 rfl rfl ?_ ?_ ?_ ?_ ?_, ?_⟩,
    ⟨by unfold CarterAt Live; decide +kernel, clean_movable _ 0x2000 rfl rfl ?_ ?_ ?_ ?_ ?_, ?_⟩,
    ⟨by unfold CarterAt Live; decide +kernel, clean_movable _ 0x2000 rfl rfl ?_ ?_ ?_ ?_ ?_, ?_⟩,
    ⟨by unfold CarterAt Live; decide +kernel, clean_movable _ 0x2000 rfl rfl ?_ ?_ ?_ ?_ ?_, ?_⟩⟩
  all_goals decide +kernel

/-! ### Tallies, gate contexts and store requests -/

theorem test_tally_word : Issues (atWord (wd 0xC 0)) 0 (w128 (wd 0xC 0)) ∧ wordClass (w128 (wd 0xC 0)) = 0xC := by
  unfold Issues; decide +kernel

/-- A tally record of a step with one acknowledgement. -/
def tallyPkt (step : Nat) : Packet := { op := 0x10, dest := 0x7200, holding := 15, opdata := BitVec.ofNat 96 (step * 2 ^ 64 + 1) }

/-- Reeve P00 sums step 5 and expects n acknowledgements. -/
def tallied (n : Nat) (f : Parish → Parish := id) : State :=
  on0.setParish 0 (f { (on0.parish 0).setReg Reg.parTallyCfg (BitVec.ofNat 64 n) with tallyStep := 5 })

theorem test_tally_records :
    (tallyPkt 5).wellFormed = true ∧ ((tallied 2).parish 0).expect = 2 ∧ ((tallied 2).parish 0).st ≠ .off ∧ ((tallied 2).parish 0).st ≠ .tripped ∧
    (BitVec.ofNat 32 (bitsOf (tallyPkt 5).opdata.toNat 95 64) : W32) = ((tallied 2).parish 0).tallyStep ∧
    ((tallied 2).parish 0).tally0.acks + bitsOf (tallyPkt 5).opdata.toNat 0 0 < 2 ∧
    (BitVec.ofNat 32 (bitsOf (tallyPkt 6).opdata.toNat 95 64) : W32) = ((tallied 1).parish 0).tallyStep + 1 ∧
    ((tallied 1).parish 0).tally0.acks < ((tallied 1).parish 0).expect ∧
    ((tallied 1).parish 0).expect ≤ ((tallied 1).parish 0).tally0.acks + bitsOf (tallyPkt 5).opdata.toNat 0 0 ∧
    (BitVec.ofNat 32 (bitsOf (tallyPkt 7).opdata.toNat 95 64) : W32) ≠ ((tallied 1).parish 0).tallyStep + 1 ∧
    ((tallied 1).parish 0).tally0.elapsed = false := by and_intros <;> decide +kernel

theorem test_tally_timeouts :
    (let v := (tallied 1 fun v => { v with tally0 := { timing := true } }).parish 0;
      (5 : W32) = v.tallyStep ∧ (6 : W32) = v.tallyStep + 1 ∧ v.tally0.timing = true ∧ v.tally0.acks < v.expect ∧ v.tally1.acks < v.expect ∧
        v.tally1.elapsed = false ∧ v.st ≠ .off) ∧
    ((0, 5) ∈ ({ tallied 1 with calls := [(0, 5)] } : State).calls ∧ ((0 : Nat), (5 : W32)) ∉ (tallied 1).calls) := by decide +kernel

/-- Gate G00 may hold contexts of holding 0; its context 3 has a state. -/
def gate0 (c : Chan := {}) : Gate :=
  let g : Gate := {};
  (g.setReg (Reg.gatAllot 0) 0xFFFFFFFF).setChan 3 c

def withGate (g : Gate) : State := on0.setGate 0 g

theorem test_gate_contexts :
    (withGate gate0).gate 0 = gate0 ∧ gate0.lost = false ∧ (gate0.chan 3).active = false ∧
    State.overLimit gate0 3 0 = false ∧ gate0.ctxIllegal 3 = false ∧ ((gate0 { st := .run }).chan 3).active = true ∧
    ((gate0 { st := .done }).chan 3).st = .done ∧ ((gate0 { gen := 15 }).chan 3).gen ≠ 0 := by and_intros <;> decide +kernel

def storeReq (op : Nat) (parts : List (Nat × Nat × Nat)) : StoreReq :=
  { tag := 8191, port := 0, msg := { op := BitVec.ofNat 8 op, tag := 8191 }, parts }

theorem test_store_requests :
    (let g := { gate0 { st := .run } with store := [storeReq 1 [(3, 0, 64)]] };
      g.store.find? (fun r => r.tag = (8191 : BitVec 13).toNat && !r.backoff) = some (storeReq 1 [(3, 0, 64)]) ∧ (g.chan 3).st = .run ∧
        (storeReq 1 [(3, 0, 64)]).retries < g.retryLimit ∧ g.retryLimit ≤ { storeReq 1 [(3, 0, 64)] with retries := 3 }.retries) ∧
    (let g := { gate0 with merger := [{ port := 0, lo := 0, hi := 64, parts := [(3, 0, 64)] }] };
      g.freeTag = some 0 ∧ g.waiting = []) := by decide +kernel

/-! ### The array, the drain, the vector engine and the gather engine -/

def qw (w : Nat) (num : Nat := 0) : QWord := { word := w128 w, num }

/-- A BF16 tile of one line at offset a: ones in every place. -/
def oneTile (a : Nat) (m : Memory := []) : Memory := Memory.write m a (leBytes 8 8 ++ (List.replicate 64 [0x80, 0x3F]).flatten)

def loadW : Nat := wd 1 (2 ^ 108)
def streamW : Nat := wd 1 (2 * 2 ^ 108 + 511 * 2 ^ 71)
def addinW : Nat := wd 1 (3 * 2 ^ 108)

theorem test_array_load :
    (let s := at0 { arrayQ := [qw loadW], mem := oneTile 0 };
      let y := Site.setSbuf { s.site 0 with c := { s.croft 0 with arrayQ := [] } } (Site.arrSbuf (qw loadW)) {};
      let t := y.openTile (Site.arrAddr (qw loadW)) (wordOpcode (w128 loadW));
      let l := t.x.tileLines t.val (wordOpcode (w128 loadW)) t.val.lines;
      wordOp (w128 loadW) = 1 ∧ (s.site 0).held 0 [(s.site 0).tileSpan (Site.arrAddr (qw loadW))] = false ∧ t.err = none ∧ l.err = none ∧
        t.val.fmt = 8 ∧ t.val.layout = 0) ∧
    ((at0 { loading := some (qw loadW) }).croft 0).loading = some (qw loadW) := by decide +kernel

/-- A buffer that has loaded one BF16 line of ones. -/
def ones : SBuf := { loaded := true, fmt := 8, lines := [List.replicate 64 FV.one] }

theorem test_array_starts :
    (wordOp (w128 addinW) = 3 ∧ Site.arrRow (qw addinW) + Site.arrLines (qw addinW) ≤ 512) ∧
    (wordOp (w128 streamW) = 2 ∧ Site.arrRow (qw streamW) + Site.arrLines (qw streamW) ≤ 512 ∧ wfield (w128 streamW) 69 69 = 0 ∧
      ones.sparse = false ∧ ones.fmt ∉ [10, 11, 12]) ∧
    512 < Site.arrRow (qw (streamW + 2 ^ 80)) + Site.arrLines (qw (streamW + 2 ^ 80)) ∧
    ((at0 { arrayQ := [qw streamW], sbuf0 := ones }).croft 0).streaming = none := by decide +kernel

def streaming0 (w : Nat) (acc : Memory := []) : Croft :=
  { mem := oneTile 0 acc, streaming := some { q := qw w, cur := {} }, sbuf0 := ones }

theorem test_array_lines :
    (let s := at0 (streaming0 streamW);
      (s.croft 0).streaming = some { q := qw streamW } ∧ (s.site 0).held 0 ((s.site 0).lineSpans { q := qw streamW }) = false ∧
        (s.croft 0).ecc = [] ∧ (s.croft 0).feeds = [] ∧
        ((s.site 0).nextLine {} (wordOpcode (w128 streamW)) fun t => t.layout != 2 && Site.pairOk ones t.fmt && (t.fmt == t.fmt)).err = none) ∧
    (let s := at0 (streaming0 addinW);
      ((s.site 0).nextLine {} (wordOpcode (w128 addinW)) fun t => t.layout == 0 && (t.fmt == 8 || t.fmt == 9)).err = none) := by decide +kernel

/-- A DRAIN of one row, the last, to FP32 at offset 0. -/
def drainW (fmt : Nat) : Nat := wd 2 (fmt * 2 ^ 105 + 511 * 2 ^ 88)

theorem test_drain_starts :
    (let w := qw (drainW 9); Site.drainAcc w + Site.drainRows w ≤ 512 ∧ ((at0 {}).site 0).drainIllegal w = false) ∧
    (let w := qw (drainW 9 + 2 ^ 80); 512 < Site.drainAcc w + Site.drainRows w) ∧
    (let w := qw (drainW 13); ((at0 {}).site 0).drainIllegal w = true ∧ Site.drainAcc w + Site.drainRows w ≤ 512) := by decide +kernel

theorem test_drain_rows :
    (let r : DrainRun := { q := qw (drainW 9) };
      let s := at0 { draining := some r };
      r.row < Site.drainRows r.q ∧ wfield r.q.word 102 101 ≠ 2 ∧ wfield r.q.word 100 100 = 0 ∧ Site.twoPass r.q = false ∧
      (s.site 0).held r.q.num ([⟨Site.accRow (Site.drainAcc r.q + r.row), Site.accRow (Site.drainAcc r.q + Site.drainRows r.q), wfield r.q.word 98 98 = 1⟩] ++
        (if r.row = 0 then [⟨Site.drainParam r.q, Site.drainParam r.q, false⟩] else []) ++
        [⟨r.dest, r.dest + 2 * fullTile (Site.drainFmt r.q), true⟩]) = false ∧ r.row + 1 = Site.drainRows r.q ∧ Site.drainFmt r.q ≠ 1 ∧
      Site.drainRows r.q ≤ { r with row := 1 }.row) := by decide +kernel

/-- A VECTOR word of 130 elements whose program writes constant 1.0 to the FP32 stream 0 at offset 0. -/
def vecW : Nat := wd 3 (2 ^ 108 + 129 * 2 ^ 80)
def vecDesc0 : W64 := BitVec.ofNat 64 (2 ^ 63 + 2 ^ 62 + 2 ^ 15 + 255)
def vecProg : List W32 := [BitVec.ofNat 32 (0x15 * 2 ^ 26 + 16 * 2 ^ 17), 0]
def vecCroft : Croft := withReg (withReg (withReg { vecQ := [qw vecW] } (Reg.vecDesc 0) vecDesc0) (Reg.vecProg 0) (vecProg.headD 0).toNat) (Reg.vecConst 0) 0x3F800000

theorem test_vector_starts :
    (let s := at0 vecCroft;
      let ds := (s.site 0).descSet (qw vecW);
      let words := (List.range 32).map fun i => ((regOf (s.croft 0) (Reg.vecProg (32 * wfield (w128 vecW) 107 104 + i))).setWidth 32 : W32);
      (s.site 0).held 0 (Site.vecReach (qw vecW) ds 0) = false ∧ (checkProgram ds words 0 [] 0 []) = .inr [Ins.decode (vecProg.headD 0)] ∧
        Site.streamsBad (qw vecW) ds [Ins.decode (vecProg.headD 0)] = none ∧
        Site.tileOutBad (qw vecW) ds ((regOf (s.croft 0) Reg.vecTscale).setWidth 32) [Ins.decode (vecProg.headD 0)] = none ∧
        Site.streamsRead [Ins.decode (vecProg.headD 0)] = []) := by decide +kernel

def vecRun0 (beat : Nat) : VecRun :=
  { q := qw vecW, prog := vecProg, descs := [vecDesc0], consts := [0x3F800000], beat }

theorem test_vector_beats :
    (let prog := [Ins.decode (vecProg.headD 0)];
      128 * (vecRun0 1).beat < Site.vecCount (qw vecW) ∧ (checkProgram [vecDesc0] vecProg 0 [] 0 []) = .inr prog ∧ Site.streamsWritten prog = [0] ∧
        Site.descFmt vecDesc0 < 5 ∧ Site.descUnit vecDesc0 = true ∧ Site.outLeaves (vecRun0 1) [0] 128 2 = none ∧
        Site.vecCount (qw vecW) ≤ Site.descInner vecDesc0) ∧
    Site.vecCount (qw vecW) ≤ 128 * (vecRun0 2).beat := by decide +kernel

theorem test_vector_beat_inputs (x : Site) :
    x.readInputs (vecRun0 1) (Site.streamsRead [Ins.decode (vecProg.headD 0)]).eraseDups 128 2 = (x, false, [], []) := rfl

theorem test_gather_queue :
    (Issues (atWord (wd 4 (2 ^ 108))) 0 (w128 (wd 4 (2 ^ 108))) ∧ wordClass (w128 (wd 4 (2 ^ 108))) = 4 ∧ wordOp (w128 (wd 4 (2 ^ 108))) = 1) ∧
    (Issues (atWord (wd 4 (2 * 2 ^ 108)) { gathDone := [({}, 0)] }) 0 (w128 (wd 4 (2 * 2 ^ 108))) ∧ wordOp (w128 (wd 4 (2 * 2 ^ 108))) = 2) ∧
    (wfield (w128 (wd 4 (2 ^ 39 + 3 * 2 ^ 37))) 39 39 = 1 ∧ (queueOf ((at0 { gathDone := [(qw (wd 4 (2 ^ 39 + 3 * 2 ^ 37)), 5)] }).croft 0) 3).length < 16) := by
  unfold Issues; decide +kernel

/-- A BLOCK_SPARSE BF16 tile with no block at offset 0, a BF16 sketch tile, and a block list of one entry at 0x1000. -/
def mergeMem : Memory := Memory.write [] 0 (leBytes 8 (31 * 2 ^ 24 + 2 ^ 4 + 8))
def gleanMem : Memory := Memory.write [] 0x1000 (leBytes 8 (1 + 2 ^ 16))
def mergeW : Nat := wd 4 (2 * 2 ^ 108 + 32768 * 2 ^ 60 + 2 ^ 48 + 49152 * 2 ^ 76)
def selectW : Nat := wd 4 (4 * 2 ^ 108 + 32768 * 2 ^ 60 + 2 ^ 48)
def gleanW : Nat := wd 4 (6 * 2 ^ 108 + 128 * 2 ^ 76 + 32768 * 2 ^ 60)

/-- An idle engine as it takes a word: the word in its queue, and taken. -/
def taking (w : Nat) (m : Memory) : Site :=
  let s := atWord w { mem := m };
  { s.site 0 with c := { s.croft 0 with gathQ := [queued s 0 (w128 w)], seq := past (s.croft 0).seq, stalled := true } }
def taken (w : Nat) (m : Memory) : Site :=
  let x := taking w m;
  { x with c := { x.c with gathQ := [] } }

theorem test_gather_merge :
    Issues (atWord mergeW { mem := mergeMem }) 0 (w128 mergeW) ∧ (taking mergeW mergeMem).held 0 (Site.gathReach (qw mergeW)) = false ∧
    (let y := taken mergeW mergeMem;
      let r := y.rowTiles (Site.gathA (qw mergeW)) (wordOpcode (w128 mergeW)) (Site.gathCount (qw mergeW));
      r.x.c = y.c ∧ r.err = none ∧ r.val.1.map (fun t => (t.fmt, t.layout, t.resid)) = [(8, 1, false)] ∧
        (y.compactAll (qw mergeW) r.val.1 8 0 (Site.rowBlocks r.val.1 0) (Site.rowBlocks r.val.1 1) 0).err = none) := by
  unfold Issues; decide +kernel

theorem test_gather_select :
    Issues (atWord selectW { mem := oneTile 0 }) 0 (w128 selectW) ∧ (taking selectW (oneTile 0)).held 0 (Site.gathReach (qw selectW)) = false ∧
    (let r := (taken selectW (oneTile 0)).sketch (Site.gathA (qw selectW)) .zero .zero (wordOpcode (w128 selectW)) (Site.gathCount (qw selectW));
      r.x.c = (taken selectW (oneTile 0)).c ∧ r.err = none ∧ r.val.1 = [0, 0]) := by
  unfold Issues; decide +kernel

theorem test_gather_glean :
    Issues (atWord gleanW { mem := gleanMem }) 0 (w128 gleanW) ∧ (taking gleanW gleanMem).held 0 (Site.gathReach (qw gleanW)) = false ∧
    (let y := taken gleanW gleanMem;
      let l := y.readList (Site.gathB (qw gleanW)) (wordOpcode (w128 gleanW));
      let r := y.gleaned (qw gleanW) l.val.1 .zero l.val.1.length;
      l.x.c = y.c ∧ l.err = none ∧ l.val.2.2 = none ∧ l.val.1 = [0] ∧ r.x.c = y.c ∧ r.err = none) := by
  unfold Issues; decide +kernel

/-! ### Answers, supply, parishes and the mesh -/

/-- Channel 0 of croft 0 with one outstanding request. -/
def asking (st : ChState) (r : Req) : State := at0 { chans := [(0, { st, outst := [r] })] }
def answerPkt (op nack : Nat) : Packet :=
  { op := BitVec.ofNat 8 op, tag := 5, nack := BitVec.ofNat 8 nack, who := .carter 0 0, length := 2, offset := 64,
    payload := if op = 3 then [1, 2] else [] }
def req0 (retries : Nat := 0) (backoff : Bool := false) : Req := { pkt := { op := 2, tag := 5, offset := 64 }, dst := 0x1FFFFE, len := 2, retries, backoff }

theorem test_carter_answers :
    Live (asking .run req0) 0 ∧ (∀ k ∈ [(4, 0), (0x14, 0), (3, 0), (5, 9), (5, 1)], (answerPkt k.1 k.2).wellFormed = true) ∧
    (chanOf ((asking .run req0).croft 0) 0).outst.find? (fun r => r.pkt.tag == (answerPkt 3 0).tag && !r.backoff) = some req0 ∧
    req0.dst + (64 - 64) + 2 ≤ 0x200000 ∧ req0.retries < fld (regOf ((asking .run req0).croft 0) Reg.carCfg) 2 0 ∧
    fld (regOf ((asking .run req0).croft 0) Reg.carCfg) 2 0 ≤ (req0 7).retries := by
  refine ⟨by unfold Live; decide +kernel, ?_, ?_, ?_, ?_, ?_⟩ <;> decide +kernel

theorem test_carter_retries :
    (chanOf ((asking .draining req0).croft 0) 0).outst.find? (fun r => r.pkt.tag == 5 && !r.backoff) = some req0 ∧
    (chanOf ((asking .run (req0 0 true)).croft 0) 0).outst.find? (fun r => r.backoff && r.pkt.tag == 5) = some (req0 0 true) ∧
    (chanOf ((at0 { chans := [(0, { st := .draining })] }).croft 0) 0).outst = [] ∧ Live (asking .draining req0) 0 := by
  refine ⟨?_, ?_, ?_, by unfold Live; decide +kernel⟩ <;> decide +kernel

theorem test_gate_retries :
    (let g := gate0 { st := .run, outst := [req0] };
      (g.chan 3).outst.find? (fun r => r.pkt.tag == 5 && !r.backoff) = some req0 ∧ req0.retries < g.retryLimit) ∧
    ({ answerPkt 4 0 with who := .gate 0 3 } : Packet).wellFormed = true ∧
    (let r : Req := { req0 0 true with pkt := { op := 1, tag := 5 } };
      ((gate0 { st := .run, outst := [r] }).chan 3).outst.find? (fun r => r.backoff && r.pkt.tag == 5) = some r ∧ r.pkt.op ≠ 2) ∧
    (gate0 { st := .draining }).storeParts 3 = 0 := by decide +kernel

theorem test_supply :
    (State.reset.power.tripLatch = false ∧ State.reset.power.resetN = true ∧ State.reset.sec.running = false ∧ State.reset.power.busbar = .absent) ∧
    ({ State.reset with power := { auxOn := true } }).up = true ∧ (7 : Fin 8).val ∉ State.reset.power.groupsOff ∧ State.reset.power.auxOn = false ∧
    ({ auxOn := true } : Power).auxOn = !({ auxOn := true } : Power).tripLatch ∧
    ({ tripLatch := true } : Power).auxOn = !({ tripLatch := true } : Power).tripLatch ∧ ({ busbar := .low, resetN := false } : Power).auxOn = false ∧
    ({ State.reset with power := { resetN := false, resetDone := true, busbar := .within, auxOn := true } } : State).sec.running = false := by decide +kernel

theorem test_parish_rails :
    (on0.parish 0).st ≠ .off ∧ (on0.parish 0).st ≠ .tripped ∧ (on0.parish 0).st = .on ∧ bitsOf (25 : W32).toNat 4 0 ≤ 25 ∧ 25 < bitsOf (26 : W32).toNat 4 0 ∧
    (let v := (on0.parish 0).setReg Reg.parPclk 0x00001919; v.field Reg.parPclk 20 16 ≠ State.pclkTarget v) ∧
    ({ st := .tripped, trip := some (true, 9) } : Parish).trip = some (true, 9) ∧ (State.reset.setParish 0 { st := .computeUp }).parish 0 = { st := .computeUp } := by
  and_intros <;> decide +kernel

/-- The boundary and the quiet that a map switch waits for. -/
theorem test_row_maps :
    (bitsOf (0x313 : W32).toNat 4 0 ≤ 19 ∧ bitsOf (0x313 : W32).toNat 9 5 ≤ 24 ∧ on0.owner 0 < 16) ∧ 19 < bitsOf (20 : W32).toNat 4 0 ∧
    24 < bitsOf (25 * 32 : W32).toNat 9 5 ∧ on0.atBoundary 0 = true ∧ on0.quiet 0 = true ∧ 16 ≤ on0.owner 1 ∧
    (let s := (on0.setParish 0 { on0.parish 0 with mapouts := [(19, 24)] }); (s.parish 0).mapouts = [(19, 24)] ∧ bit (s.rowMap 0 19) 30 = false) ∧
    (let s := on0.setParish 0 ((on0.parish 0).setReg (Reg.parRowmap 0) 0x40000003); bit (s.rowMap 0 0) 30 = true ∧ fld (s.rowMap 0 0) 4 0 = 3) := by
  and_intros <;> decide +kernel

theorem test_timing_inputs :
    on0.up = true ∧ on0.alive = true ∧ on0.clock.epochSeen = false ∧ on0.clock.refclk = true ∧ State.reset.alive = false ∧ State.reset.up = false ∧
    ({ on0 with clock := { refclk := false } } : State).clock.refclk = false ∧
    (let c : Clock := { now := 1000400, epochSeen := true, epochLock := true };
      ((((c.now + 500000) / 1000000 * 1000000 : Nat) : Int) - (c.now : Int)).natAbs ≤ 2000) ∧
    (let c : Clock := { now := 1400000, epochSeen := true }; 2000 < ((((c.now + 500000) / 1000000 * 1000000 : Nat) : Int) - (c.now : Int)).natAbs) := by
  and_intros <;> decide +kernel

theorem test_readings :
    (480 : Int) ≤ (480 : W16).toInt ∧ (479 : W16).toInt < 480 ∧ [(879 : W16), 760, 0, 0xFFFF].all (fun x => x.toInt < 880) = true ∧ (760 : Int) ≤ (760 : W16).toInt ∧
    (880 : Int) ≤ (880 : W16).toInt ∧ (456 : W16).toInt ≤ 456 ∧ (on0.parish 0).net = true ∧ (on0.parish 1).net = false ∧
    5 ≤ on0.sec.stage ∧ (0x50 : BitVec 7).toNat = 0x50 + on0.slotId.toNat ∧ (0x57 : BitVec 7).toNat ≠ 0x50 + on0.slotId.toNat ∧
    on0.power.auxOn = true ∧ State.reset.power.auxOn = false ∧ on0.power.busbar ≠ .absent ∧ State.reset.power.busbar = .absent := by
  and_intros <;> decide +kernel

/-- A token from croft 0 to a croft of the next parish, and to its own croft. -/
def tok (dest : Nat) : Packet := { op := 6, dest := BitVec.ofNat 16 dest, src := 0 }
def flying (k : Packet) (here : Bool := false) : State := { on0 with flights := [{ pkt := k, pos := 0, here, via := some ⟨1, .a, .w, false⟩ }] }

theorem test_mesh_injects :
    (tok 24).wellFormed = true ∧ on0.sourceOf (tok 24) = some 0 ∧ (on0.parish (State.parOf 0)).net = true ∧ on0.routerDead 0 (tok 24).plane = false ∧
    on0.waitsBehind (tok 24) = false ∧ State.destOk (tok 24) = true ∧ State.channelOk (tok 24) = true ∧ State.destOk (tok 0x6900) = false ∧
    State.channelOk { tok 24 with op := 0x10 } = false := by and_intros <;> decide +kernel

/-- A multicast WRITE of channel 2 of croft 0's carter to group 9, and a parish that holds that group. -/
def cast9 : Packet :=
  { op := 1, dest := 0xFFFF, src := 0, vc := 2, plane := .b, mgroup := 9, length := 1, payload := [7], who := .castCarter 0 2 4 }
def grouped : State := on0.setParish 0 { on0.parish 0 with groups := [(9, { lo := 0x05040302, hi := 0x80000000 })] }
theorem test_mesh_casts :
    cast9.wellFormed = true ∧ grouped.sourceOf cast9 = some 0 ∧ State.destOk cast9 = true ∧ State.channelOk cast9 = true ∧
    (grouped.group (State.parOf 0) cast9.mgroup.toNat).valid = true ∧ (on0.group (State.parOf 0) cast9.mgroup.toNat).valid = false ∧
    (let c : Croft := { chans := [(2, { st := .run, gen := 4 })] }; (chanOf c 2).gen = 4 ∧ (chanOf c 2).st ≠ .free) ∧
    (∀ q c n, (tok 24).who ≠ .castCarter q c n) ∧ ∀ g c n, (tok 24).who ≠ .castGate g c n := by
  and_intros <;> first | decide +kernel | (intro _ _ _ h; cases h)

theorem test_mesh_hops :
    (flying (tok 24)).flights[0]? = some { pkt := tok 24, pos := 0, here := false, via := some ⟨1, .a, .w, false⟩ } ∧
    (∀ f, (flying (tok 24)).wouldPass 0 f = false) ∧ State.endpointPar (tok 24).dest.toNat = some 1 ∧
    State.dirOf (on0.hop 0 (State.hopIndex 0 0 0 1)) = some .e ∧ State.stepTo 0 .e 1 = some 1 ∧ on0.routerDead 1 .a = false ∧
    (⟨0, .a, .e, false⟩ : Link) ∉ on0.linksDown ∧
    State.endpointPar (tok 0).dest.toNat = some 0 ∧ on0.attachOf 0 0 .a = some 0 ∧ on0.deadPos 0 = false ∧ (tok 0).vc ≠ 3 ∧
    (flying (tok 1) true).logicalOf 0 ≠ some (tok 1).dest.toNat ∧ State.requestOp (tok 1) = true ∧
    on0.stitched ⟨500, .a, .w, false⟩ = true := by
  and_intros <;> first | decide +kernel | (intro f; rfl)

/-- A packet at the edge of parish P00, whose own outputs stand once its clock is lost. -/
theorem test_mesh_edges :
    State.dirOf (on0.hop 0 (State.hopIndex 24 0 0 1)) = some .e ∧ State.stepTo 24 .e 1 = some 500 ∧ State.parOf 500 ≠ State.parOf 24 ∧
    on0.parDown 1 = true ∧ (on0.setParish 1 { st := .netOn, nclkLock := true, pclkLock := true }).parDown 1 = false ∧
    ((on0.setParish 0 { on0.parish 0 with dead := true }).parish 0).dead = true := by and_intros <;> decide +kernel

/-- A token, a summary and a tally call that their units can take. -/
theorem test_mesh_arrivals :
    UnitThere on0 0 (tok 0) ∧ (tok 0).poison = false ∧ State.opKnown (tok 0) = true ∧ State.lengthOk (tok 0) = true ∧ ForInbox (tok 0).who ∧
    (let k : Packet := { op := 0x10, dest := 0x7100, vc := 3, who := .summary 0 { parish := 0, step := 5, sat := 0, inf := 0, nan := 0, resid := 0, acks := 3, incomplete := false } };
      UnitThere on0 0 k ∧ State.opKnown k = true ∧ State.lengthOk k = true) ∧
    (let k : Packet := { op := 0x10, dest := 0x7200, vc := 3, who := .tallyCall 0 5 }; UnitThere on0 0 k ∧ State.opKnown k = true ∧ State.lengthOk k = true) := by
  unfold UnitThere ForInbox; and_intros <;> trivial

theorem test_network_faults :
    on0.routerDead 3 .b = false ∧ (on0.parish 0).net = true ∧ (⟨1, .a, .w, false⟩ : Link) ∉ on0.linksDown ∧
    ({ st := .on, dying := true } : Parish).dying = true ∧ (on0.parish 0).tblWrite = none ∧
    fld ((on0.parish 0).reg Reg.netTblSel) 21 17 ≤ 19 ∧ bitsOf (4 : W32).toNat 2 0 ≤ 4 ∧
    (on0.setParish 0 { on0.parish 0 with tblWrite := some (.hop 0x80000000 4) }).parish 0 = { on0.parish 0 with tblWrite := some (.hop 0x80000000 4) } := by
  and_intros <;> decide +kernel

/-! ### Step control -/

/-- Holding 0, its step controller in this state. -/
def ctl (c : Stc) (s : State := on0) : State := s.setStc 0 c

theorem test_steps_open :
    Acts on0 0 ∧ State.reset.active = none ∧ ¬ Acts on0 1 ∧ on0.moduleHalted = false ∧ on0.switchPending 0 = false ∧
    (on0.setParish 0 { on0.parish 0 with mapouts := [(3, 4)] }).switchPending 0 = true ∧ (on0.stc 0).st = .idle ∧ (on0.stc 0).openPending = false ∧
    ((ctl { st := .opening }).stc 0).stepped = [] ∧ (tok 0).wellFormed = true ∧
    (let k : Packet := { op := 4, who := .scaleToken 0 7 }; k.wellFormed = true ∧ k.who = .scaleToken 0 7 ∧ k.poison = false ∧ 7 ∉ (on0.stc 0).ackToken) ∧
    (let c : Stc := { st := .warmHold }; (c.setField Reg.stcHist 31 31 1).field Reg.stcHist 31 31 = 1 ∧ c.run = false ∧ (c.setRun true).run = true) ∧
    ({ openPending := true } : Stc).st = .idle ∧ (({} : Stc).setField Reg.stcCfg 7 7 1).field Reg.stcCfg 7 7 = 1 ∧ bitsOf (16 : W32).toNat 4 0 ≤ 16 ∧ 16 < bitsOf (17 : W32).toNat 4 0 ∧ ({ on0 with faults := { records := [(9, some { severity := 3, flags := 1 })] } } : State).moduleHalted = true := by
  unfold Acts; and_intros <;> decide +kernel

theorem test_crofts_enrolled : (on0.enrolled 0).length = 480 ∧ on0.allIdle 0 = true ∧ on0.allFree 0 = true ∧ on0.standby = none ∧
    (at0 { seq := { st := .run } }).allIdle 0 = false := by
  and_intros <;> decide +kernel

/-- Holding 0 in WORK at step 5, its partial committed. -/
def working (f : Stc → Stc := id) : Stc := f { (({} : Stc).setNum Reg.stcStep 5) with st := .work }
def sum5 (bad : Bool := false) : Summary := { parish := 0, step := 5, sat := 0xFFFFFFFF, inf := 1, nan := 0, resid := 2, acks := 3, incomplete := bad }

theorem test_sums_arrive :
    (let s := (ctl working); let c := s.stc 0; (sum5.step.toNat = c.step ∧ sum5.parish ∉ c.parishes ∧ s.owner sum5.parish = 0 ∧ c.published = false ∧
      sum5.incomplete = false ∧ (sum5 true).incomplete = true) ∧ c.num Reg.stcTallyLimit ≠ 0 ∧ c.callsSent = false ∧
      c.committed = false ∧ c.mirror = false ∧ c.started = false) ∧ Acts (ctl working) 0 ∧ ¬ Acts (on0.setHolding 0 { st := .resetting }) 0 ∧
    ({ callsSent := true, started := true } : Stc).callsSent = true ∧
    (let s := (((on0.setReg (Reg.hldOwner 1) 0).setParish 1 ((on0.parish 0).setReg Reg.parTallyCfg 1)).setStc 0 working);
      (1 : Nat) ∈ s.parishesOf 0 ∧ (s.parish 1).expect ≠ 0) ∧
    (f64 0x3FF0000000000000).isFinite = true ∧
    (let c : Stc := working fun c => { c with published := true }; c.ringN = 1 ∧ c.ringPos = 0 ∧ c.incomplete = false ∧ c.parts = [] ∧ c.field Reg.stcDoneCount 14 0 < 480) := by
  unfold Acts; and_intros <;> decide +kernel

/-- The ring of four modules of which this is the second, and the answers of its partners. -/
def ring4 (c : Stc) : Stc := (c.setField Reg.stcNormCfg 15 8 4).setField Reg.stcNormCfg 7 0 1
def norm3 : NormMsg := { step := 5, count := 0, origin := 3, replay := false, hops := 3, partialSum := 0x3FF0000000000000 }
def print5 : Msg := { op := 7, arg0 := 5, arg2 := 0x1122334455667788, payload := leBytes 8 9 }

theorem test_partials_arrive :
    (let c := ring4 working; norm3.step.toNat = c.step ∧ norm3.count.toNat = c.ireplays % 8 ∧ norm3.origin.toNat < c.ringN ∧ norm3.origin.toNat ≠ c.ringPos ∧
      c.part norm3.origin.toNat = none ∧ c.ringN ≤ norm3.hops.toNat + 1) ∧
    (let c := working fun c => c.setReg Reg.stcMirror 1; print5.wellFormed = true ∧ print5.arg0.toNat = c.step ∧ bitsOf print5.arg1.toNat 2 0 = c.ireplays % 8 ∧
      c.mirror = true ∧ c.st = .work) ∧
    ({ st := .combine, handed := true } : Stc).combined = false := by and_intros <;> decide +kernel

theorem test_steps_end :
    ((ctl { st := .update, refused := [8 * 7 + 5] }).stc 0).refused.find? (fun key => key / 8 = (7 : Fin 26880).val) = some 61 ∧
    (let s := ctl { st := .combine, restarting := true }; (s.stc 0).abandoning = false ∧ s.allIdle 0 = true ∧ (s.stc 0).run = false) ∧
    Acts (ctl { st := .update }) 0 ∧ ({ st := .update } : Stc).openPending = false ∧ ({ st := .update, openPending := true } : Stc).openPending = true ∧
    (let s := ctl { working with st := .update }; (5 : W32).toNat = (s.stc 0).step ∧ (s.stc 0).field Reg.stcDoneCount 14 0 + 1 < (s.enrolled 0).length ∧
      (s.enrolled 0).length < 2 ^ 15) ∧
    (let s := ctl ({ working with st := .update }.setField Reg.stcDoneCount 14 0 479); (s.stc 0).field Reg.stcDoneCount 14 0 + 1 = (s.enrolled 0).length) := by
  unfold Acts; and_intros <;> decide +kernel

theorem test_steps_replay :
    (let c : Stc := working; c.horizon = false ∧ c.replays - c.uncounted < c.field Reg.stcReplayCfg 2 0) ∧
    (let c : Stc := working fun c => { c with replays := 7 }; c.field Reg.stcReplayCfg 2 0 ≤ c.replays - c.uncounted) ∧
    (let s := ctl { working with st := .restoring, order := 1 }; s.allRead 0 [0, 3] = true) ∧
    (let s := ctl { working with st := .restoring, order := 2 }; s.allFree 0 = true ∧ (s.stc 0).restoreHold = false) ∧
    (let s := ctl { st := .opening, abandoning := true }; (s.stc 0).abandoning = true) ∧
    (on0.setSteward 1 { role := .standby }).standby = some 1 ∧ (ctl {}).standby = none ∧ (ctl {}).enrolled 0 ≠ [] := by
  and_intros <;> decide +kernel

theorem test_keeper :
    ({} : Stc).field Reg.stcCfg 7 7 = 0 ∧ ({} : Stc).field Reg.stcLsState 31 16 + 1 < ({} : Stc).field Reg.stcLsGrowth 15 0 ∧
    (let c := ({} : Stc).setField Reg.stcLsGrowth 15 0 1; c.field Reg.stcLsGrowth 15 0 ≠ 0 ∧ c.field Reg.stcLsGrowth 15 0 ≤ c.field Reg.stcLsState 31 16 + 1) := by
  and_intros <;> decide +kernel

/-! ### Register packets, the registers themselves, stewards and holdings -/

/-- A register packet to the croft numbered 0, at a local offset. -/
def regPkt (op off holding : Nat) : Packet :=
  { op := BitVec.ofNat 8 op, offset := BitVec.ofNat 32 (0x0F000000 + off), holding := BitVec.ofNat 4 holding, opdata := 0x1234, tag := 9, src := 0x7100, vc := 3 }

/-- A croft register whose write does no more than store, by what the tests say of it. -/
def plainB (c : Croft) (o : Nat) : Bool :=
  o ∉ [Reg.crfCtrl, Reg.crfStep, Reg.crfSeqCtrl, Reg.crfSeqSlots, Reg.crfWinCmd, Reg.crfRepairData, Reg.carCmd, Reg.arrCtrl, Reg.vecCtrl, Reg.arrFault] &&
    Site.predReg o == none && (!(0x40 ≤ o && o < 0xC0) || winState c ((o - 0x40) / 8) == 0)

theorem test_register_packets :
    (regPkt 0x12 Reg.crfRepairSel 15).wellFormed = true ∧ on0.reached (regPkt 0x12 Reg.crfRepairSel 15) = some 0 ∧ (on0.croft 0).resetting = false ∧
    (findReg croftMap Reg.crfRepairSel).isSome = true ∧ Site.packetWidth (regPkt 0x12 Reg.crfRepairSel 15) Reg.crfRepairSel = 4 ∧
    plainB (on0.croft 0) Reg.crfRepairSel = true ∧ (on0.site 0).shownReg Reg.crfRepairSel = none ∧ Reg.crfRepairSel ≠ Reg.crfSeqStall ∧
    (findReg croftMap Reg.crfSeqStall).isSome = true ∧ ((at0 { stalled := true }).croft 0).stalled = true ∧ (on0.croft 0).stalled = false ∧ (findReg croftMap Reg.crfRepairSel).map (·.wide) = some false := by
  and_intros <;> decide +kernel

theorem test_register_packets_refused :
    ((at0 { resetting := true }).croft 0).resetting = true ∧ (regPkt 0x12 0 3).holding ≠ 15 ∧ 0x0F005000 ≤ (regPkt 0x12 0x5000 15).offset.toNat ∧
    (let s := at0 { regs := [(Reg.crfCtrl, 1)] }; (s.site 0).fenced = true ∧ s.reached (regPkt 0x12 0x1000 15) = some 0) ∧
    (regPkt 0x12 0x1000 15).offset.toNat % 4 = 0 := by and_intros <;> decide +kernel

theorem test_registers_written :
    on0.physOf 0 = some 0 ∧ (findReg croftMap Reg.crfRepairSel).isSome = true ∧ (0x400000000 + Reg.crfRepairSel : Nat) < 2 ^ 48 ∧ sourceNamed 44 = true ∧ sourceNamed 127 = false ∧
    (BitVec.ofNat 48 (0x19000100 + 4 * 127)).toNat = 0x19000100 + 4 * 127 ∧ (BitVec.ofNat 48 (0x13000000 + Reg.stcResidLimit)).toNat = 0x13000000 + Reg.stcResidLimit ∧
    Place.ofAddr (on0.active.getD 0) 0x10F00000 = .nowhere ∧ on0.up = true ∧ State.reset.up = false ∧ on0.active.isSome = true ∧ (on0.croft 0).resetting = false ∧
    (BitVec.ofNat 48 (0x400000000 + Reg.crfRepairSel)).toNat = 0x400000000 + 0x10000 * 0 + Reg.crfRepairSel := by and_intros <;> decide +kernel

/-- The stewards act after bring-up; steward 0 is ACTIVE, steward 1 its STANDBY partner. -/
def duty : State := (on0.setSteward 0 { role := .active, mgmtCable := true, mgmtUp := true }).setSteward 1 { role := .standby }

/-- Core 3 of steward 0 has an access outstanding. -/
def coreWaits (store : Bool) : State := duty.setSteward 0 { duty.steward 0 with access := [(3, some { addr := 0x400000000, store, tag := 6 })] }
theorem test_steward_cores :
    duty.coreReady 0 3 = true ∧ on0.coreReady 0 3 = true ∧ on0.standby = none ∧ duty.standby = some 1 ∧ duty.active.isSome = true ∧ accessWidth 8 = true ∧ (0x0FFFFFFF : BitVec 48).toNat < 0x10000000 ∧ Place.ofAddr 0 (0x10F00000 : BitVec 48).toNat = .nowhere ∧
    (0x400000000 : BitVec 48).toNat = 0x400000000 + 0x10000 * 0 + 0 ∧ (4 : Nat) = State.placeWidth (.croft 0 0) ∧
    (∃ a, (coreWaits true).coreAccess 0 3 = some a ∧ a.store = true) ∧ bit ((coreWaits true).reg (Reg.stwBuserrInfo 0)) 31 = false ∧
    (let s := coreWaits true; bit ((s.setReg (Reg.stwBuserrInfo 0) 0x80000000).reg (Reg.stwBuserrInfo 0)) 31 = true) ∧
    (let k : Packet := { op := 0x14, tag := 6, who := .core 0 3, opdata := 77 };
      k.wellFormed = true ∧ ∃ a, (coreWaits false).coreAccess 0 3 = some a ∧ k.tag = a.tag ∧ a.store = false) := by
  refine ⟨?_, ?_, ?_, ?_, ?_, ?_, ?_, ?_, ?_, ?_, ⟨_, rfl, rfl⟩, ?_, ?_, ?_, ⟨_, rfl, ?_, ?_⟩⟩ <;> decide +kernel

theorem test_stewards_watch :
    (duty.steward 0).role = .active ∧ (duty.steward 0).expired = false ∧ (duty.steward 0).heldReset = false ∧ (duty.steward 1).role = .standby ∧
    bit (duty.reg (Reg.stwCtrl 1)) 0 = true ∧ bit ((duty.setReg (Reg.stwCtrl 1) 0).reg (Reg.stwCtrl 1)) 0 = false ∧
    (let s := { duty with shadows := [{ num := 7 }] }.setSteward 0 { role := .lost }; (∀ d ∈ s.shadows, d.applied = false) ∧ (s.steward 1).role = .standby) ∧
    NothingToResolve (duty.setSteward 0 { role := .lost, heldReset := true }).adoptShadow ∧ NothingToResolve duty ∧ duty.shadows = [] ∧ duty.up = true := by
  unfold NothingToResolve; and_intros <;> decide +kernel

/-- Two records wait for their acknowledgement, the first applied; the record of the second and that acknowledgement have
arrived. -/
def recording : State :=
  { duty with shadows := [{ num := 8, applied := true, release := [tok 0] }, { num := 9, changes := [.flt Reg.fltEvents 1] }]
              inbox := [{ op := 0x12, who := .shadow 9 }, { op := 0x14, who := .shadow 8 }] }

theorem test_shadows :
    (let find := fun (n : Nat) (op : BitVec 8) => recording.inbox.find? fun k => k.who = .shadow n && k.op = op;
      find 9 0x12 = some { op := 0x12, who := .shadow 9 } ∧ find 8 0x14 = some { op := 0x14, who := .shadow 8 } ∧ find 7 0x12 = none) ∧
    recording.shadows.find? (fun d => !d.applied) = some { num := 9, changes := [.flt Reg.fltEvents 1] } ∧
    recording.shadows = { num := 8, applied := true, release := [tok 0] } :: [{ num := 9, changes := [.flt Reg.fltEvents 1] }] ∧
    Tab.get (fun _ => none) duty.sec.saved 0 = none ∧ (duty.steward 0).mgmtUp = true ∧ 5 ≤ duty.sec.stage ∧ duty.sec.stage = 8 ∧
    (duty.setSteward 1 { role := .standby, mgmtCable := true, mgmtUp := true } |>.steward 1).role = .standby := by and_intros <;> decide +kernel

/-- Nothing is held: the rectangle of HLD_RECT 2 is parish P00 alone, which is ON. -/
def bare : State := (on0.setReg (Reg.hldOwner 0) 0x1F).setHolding 0 {}
theorem test_holdings_come :
    (bare.holding 2).st = .free ∧ bare.rectOk 2 = true ∧ (∀ p ∈ bare.rectOf 2, 16 ≤ bare.owner p ∧ (bare.parish p).st = .on) ∧ bare.rectOf 2 = [0] ∧
    ((on0.holding 2).st = .free ∧ ∃ p ∈ on0.rectOf 2, on0.owner p < 16) := by
  refine ⟨?_, ?_, ?_, ?_, ?_, 0, ?_, ?_⟩ <;> decide +kernel

theorem test_holdings_go :
    (on0.holding 0).st = .active ∧ (on0.holding 1).st = .free ∧
    (let s := on0.setHolding 0 { st := .resetting, altRes := some 0x12345678, altPower := some 9 }; s.gatesDrained 0 = true ∧ (s.holding 0).st = .resetting) ∧
    (let s := on0.setHolding 0 { st := .destroying }; s.gatesDrained 0 = true ∧ (s.holding 0).st = .destroying) := by and_intros <;> decide +kernel

theorem test_allotments :
    (on0.setHolding 0 { st := .active, busy := true } |>.holding 0).busy = true ∧ on0.field (Reg.altPower 0) 15 0 = 0x6978 ∧
    0x6978 < (27001 : Nat) ∧ 95 * 0x6978 ≤ 100 * (27000 : Nat) ∧ 100 * (25000 : Nat) < 95 * 0x6978 ∧
    on0.up = true ∧ ¬ (10000 * on0.field Reg.altModuleCap 15 0 < on0.inputPower) ∧ 100 * on0.inputPower < 95 * (10000 * on0.field Reg.altModuleCap 15 0) := by
  and_intros <;> decide +kernel

/-! ### Links and their lanes -/

/-- Port 0 of gate G00, and its lane 0, in these states; the link to a module's NEXT partner. -/
def linked (p : Port) (v : Lane) (s : State := on0) : State :=
  let g : Gate := {};
  s.setGate 0 (((g.setField (Reg.lnkPortCtrl 0) 6 4 2).setPort 0 p).setLane 0 v)

/-- An optical cable that R300 accepts, and two that it refuses. -/
def cable : CableMemory := { lanes := 8, watts := 25, copper := false, lengthCm := 3000, host200 := true, lossPerM := 0 }
def caged (c : CableMemory) (p : Port := { powered := true, st := .training }) : State := { linked p {} with cables := [(0, some c)] }

theorem test_ports :
    ((linked {} {}).gate 0).lost = false ∧ bit (((linked {} {}).gate 0).reg (Reg.lnkPortCtrl 0)) 0 = false ∧ ((linked {} {}).gate 0).role 0 = 2 ∧
    (∀ i < 8, ((linked {} {}).gate 0 |>.lane i).barred = false) ∧ bitsOf (0x40 : W32).toNat 6 4 = 4 ∧ 5 ≤ bitsOf (0x50 : W32).toNat 6 4 ∧
    (linked {} {}).alive = true ∧ (linked {} {} State.reset).alive = false ∧ ((linked { st := .up } {}).gate 0 |>.port 0).st = .up ∧ (3 * 0 + 0 : Nat) = 0 := by
  and_intros <;> decide +kernel

theorem test_cables :
    (caged cable).cableOf 0 0 = some cable ∧ (((caged cable).gate 0).port 0).powered = true ∧ (((caged cable).gate 0).port 0).cable = none ∧
    (∀ i < 8, ((caged cable).gate 0 |>.lane i).barred = false) ∧ cable.lanes = 8 ∧ cable.watts ≤ 25 ∧
    (caged { cable with watts := 26 }).cableOf 0 0 = some { cable with watts := 26 } ∧ ¬ ((151 : Nat) ≤ 150) ∧ (5 : Byte).getLsbD 0 = true ∧
    (5 : Byte).getLsbD 1 = false ∧ laneSt (linked { st := .up } { st := .up }) 0 0 = .up := by and_intros <;> decide +kernel

theorem test_lanes :
    Usable (linked {} { st := .train, attempts := 3 }) 0 0 ∧ laneSt (linked {} { st := .train, attempts := 3 }) 0 0 = .train ∧ ((40 : Nat) - 30) * 20 / 5 < 2 ^ 16 ∧
    laneSt (linked {} { st := .lock }) 0 0 = .lock ∧ laneSt (linked {} { st := .caps }) 0 0 = .caps ∧
    (([5, 15000000000] : List Nat).filter fun t => 20000000000 < t + 10000000000) = [15000000000] ∧ cable.lengthCm / 5 < 2 ^ 16 := by
  and_intros <;> first | exact rfl | decide +kernel

/-- A good frame of this header and payload, as a lane receives it. -/
def frame (h : FrameHdr) (b : List Byte) (counter : Nat := 0) : Frame :=
  { decodes := true, corr := 0, marker := BitVec.ofNat 20 (0xA5C00 + counter), bytes := frameOf h (slice b 0 624) }
def capsBytes (ack : Bool) : List Byte := [0, 1, 0, if ack then 3 else 2] ++ leBytes 29 0x1122334455
def timeBytes : List Byte := 1 :: leBytes 27 (1000 * 2 ^ 24 + 400 * 2 ^ 88 + 500 * 2 ^ 152)
def chunkMsg : Msg := { op := 0x43, arg0 := 5 }

/-- What R304 and R305 ask of a frame's header. -/
def headerOk (h : FrameHdr) : Bool :=
  bitsOf (h.bits % 256 ^ 12) 3 0 ≤ 3 && bitsOf (h.bits % 256 ^ 12) 79 75 == 0 && bitsOf (h.bits % 256 ^ 12) 31 30 == 0

theorem frame_good (h : FrameHdr) (b : List Byte) (ok : headerOk h = true) : (frame h b).wellFormed = true ∧ goodFrame (frame h b) = true := by
  simp only [headerOk, Bool.and_eq_true, decide_eq_true_eq, beq_iff_eq] at ok
  exact ⟨by simp [frame, Frame.wellFormed], goodFrame_frameOf _ h _ rfl rfl ok.1.1 ok.1.2 ok.2⟩

theorem test_frames_good :
    (headerOk { ftype := 3 } = true ∧ headerOk { ftype := 2 } = true ∧ headerOk { ftype := 1, vc := 3 } = true ∧
      headerOk { ackv := true, ackseq := 4, credv := true, cvc := 2, credits := 70 } = true) ∧
    goodFrame { frame {} [] with decodes := false } = false ∧ ({ frame {} [] with decodes := false } : Frame).wellFormed = true := by
  refine ⟨?_, rfl, rfl⟩; and_intros <;> decide +kernel

/-- The eighth good codeword in LOCK, whose counter rises past 255, one that does not rise, and the fourth bad one in UP. -/
theorem test_codewords :
    codewordGood (frame {} []) = true ∧ codewordGood { frame {} [] with decodes := false } = false ∧
    (let v : Lane := { st := .lock, rxCount := some 255, goodRun := 7 };
      8 ≤ (State.countCodeword v (frame {} [])).goodRun ∧ (State.countCodeword v (frame {} [] 9)).goodRun < 8 ∧ v.barred = false) ∧
    3 ≤ ({ st := .up, badRun := 3 } : Lane).badRun ∧ ({ st := .up } : Lane).badRun < 3 := by and_intros <;> decide +kernel

theorem test_frames_data :
    chunkMsg.bytes.length ≤ 624 ∧ opPlace chunkMsg.op.toNat = some (3, [2]) ∧
    ((linked { st := .up } { st := .up }).gate 0).role 0 ∈ [2] ∧ (State.capsOf (slice (capsBytes false) 0 624)).flags.getLsbD 0 = false ∧
    (State.capsOf (slice (capsBytes true) 0 624)).flags.getLsbD 0 = true ∧ (State.capsOf (slice (capsBytes true) 0 624)).raw ≠ [] := by
  and_intros <;> decide +kernel

theorem test_frames_idle :
    (let f : TxFrame := { lseq := 4, pseq := 9, vc := 1, first := 0, bytes := [1] };
      ((linked { st := .up } { st := .up, replayBuf := [f] }).gate 0 |>.lane 0).replayBuf = [] ++ f :: [] ∧ f.lseq = ({ ackv := true, ackseq := 4 } : FrameHdr).ackseq) ∧
    ((linked { st := .up } { st := .up }).gate 0).lanesUp 0 = 0 :: [] ∧ (((linked { st := .up } {}).gate 0).port 0).txMsgs = [] := by and_intros <;> decide +kernel

/-! ### Parameter stores and peers -/

/-- Gate G00 with request r outstanding for its context 3, which runs. -/
def storing (r : StoreReq) (c : Chan := { st := .run }) : State := withGate { gate0 c with store := [r] }

/-- The answer of a store to the request of tag 8191. -/
def storeMsg (op status : Nat) (payload : List Byte := []) : Msg :=
  { op := BitVec.ofNat 8 op, status := BitVec.ofNat 8 status, tag := 8191, arg1 := 1, payload }

theorem test_store_answers :
    (let s := storing (storeReq 1 [(3, 0, 2)]); let m := storeMsg 0x81 0 [7, 8]; (s.gate 0).store = [] ++ storeReq 1 [(3, 0, 2)] :: [] ∧
      (storeReq 1 [(3, 0, 2)]).tag = m.tag.toNat ∧ (storeReq 1 [(3, 0, 2)]).msg.op.toNat ∈ [0x01] ∧ m.wellFormed = true ∧ m.arg1.getLsbD 0 = true ∧
      m.addr = (storeReq 1 []).msg.addr ∧ (s.gate 0).ctxAddr 3 ≤ 0 ∧ ((s.gate 0).chan 3).st = .run ∧ (s.gate 0).ctxWrite 3 = false ∧
      (s.gate 0).ctxMulti 3 = false ∧ (s.gate 0).ctxDest 3 < 2 ^ 32) ∧
    (let mv : Moving := { (default : Moving) with len := 0, next := 0 };
      let s := storing (storeReq 2 [(3, 0, 2)]) { st := .run, moving := some mv };
      mv.len ≤ mv.next ∧ (s.gate 0).ctxNotify 3 = false ∧ (s.gate 0).storeParts 3 = 1) ∧
    (storeReq 1 []).retries < (gate0).retryLimit ∧ (gate0).retryLimit ≤ ({ storeReq 1 [] with retries := 3 } : StoreReq).retries ∧
    (∀ r ∈ (withGate gate0 |>.gate 0).store, r.port ≠ 0) := by and_intros <;> decide +kernel

/-- A message of PERMUTE_DATA, a chunk of step 5, and holding 0 of a ring of four modules at that step. -/
def permute : Msg := { op := 0x41, tag := 3, addr := 8, payload := [9] }
def chunk5 : Msg := { op := 0x40, arg0 := 5, addr := 2, payload := [1, 2] }
def ringed : State := (linked { st := .up, credit := [(1, 4)] } { st := .up }).setStc 0 { ring4 working with started := true }

theorem test_peer_data :
    (permute.wellFormed = true ∧ ((linked { st := .up } {}).gate 0 |>.port 0).credits 1 = 0 ∧ 0 < ((ringed.gate 0).port 0).credits 1 ∧
      (ringed.gate 0).openLane 0 = some 0 ∧ (ringed.gate 0).pseqSpan 0 < 256 ∧ ((linked { st := .up } {}).gate 0 |>.port 0).txMsgs = []) ∧
    (let p : Port := { permOut := [3] }; (3 : BitVec 13).toNat ∈ p.permOut ∧ (4 : BitVec 13).toNat ∉ p.permOut) ∧
    chunk5.wellFormed = true ∧ ringed.chunkHolding chunk5 = some 0 ∧ (ringed.stc 0).chunks = [] ∧ (ringed.stc 0).started = true ∧
    2 * chunk5.addr.toNat + bitsOf chunk5.arg1.toNat 8 8 ∉ (ringed.stc 0).chunks ∧ ({ working with chunks := [4] } : Stc).chunks = [4] ∧
    (ringed.gate 0).lost = false := by
  and_intros <;> decide +kernel

/-! ### Bring-up and trust -/

/-- An image copy as R357 lays it out, signed by a key made for this test: build 7 of security version 3, for any unit,
in key slot 1, revoking slot 0; its sections are empty but type 2, eight zero bytes at offset 0x1000. -/
def imageKey : List Byte :=
  leBytes 48 0x78e9b89e17c5b8222e921272bd283c18b80510b8f88c74f6f964db81eb2e08a764fbefec3022b77d91ac3c53767efde ++
  leBytes 48 0x96e11dc8bdad852dae36a035cf79e0bd7baaa1dd98e97c4b27b551e681d0f590740efadd56f6a4a9bacbf433ca2a70b9
def imageSignature : List Byte :=
  leBytes 48 0xf9c706d9670ca1693ee705037556351fc17940be258e68f9fec0287033fffc003cac9b64756ae1b748d8475c3158c375 ++
  leBytes 48 0x255eb073538a1159629015e41183ebee6b30e220c244e63d99b38d01cb524688009e3fd3f6e1e8644dd8da76c69f218f
def imageHeader : List Byte :=
  ascii [0x54, 0x4F, 0x4C, 0x49, 0x46, 0x49, 0x4D, 0x47] ++ leBytes 2 0x0100 ++ [1, 3, 1, 0] ++ leBytes 2 8 ++ leBytes 8 7 ++ leBytes 8 0 ++ imageKey
def noBytes : List Byte := beBytes 48 0x38b060a751ac96384cd9327eb1b1e36a21fdb71114be07434c0cc7bf63f6e1da274edebfe76f65fbd51ad2f14898b95b
def eightZeros : List Byte := beBytes 48 0x7c2db09d310ece0b36d50c86e4c3e6641684948cd6fc03262b0d0ed91a6cfbc3cd5affd396c1f85fd0a109b103364b19
def imageEntry (t : Nat) : List Byte :=
  if t = 2 then leBytes 8 2 ++ leBytes 8 0x1000 ++ leBytes 8 8 ++ eightZeros ++ leBytes 8 0 else leBytes 24 t ++ noBytes ++ leBytes 8 0
def imageTable : List Byte := (List.range 8).flatMap fun i => imageEntry (i + 1)
def imageBytes : List Byte := imageHeader ++ imageSignature ++ leBytes 32 0 ++ imageTable

/-- The image in a ledger whose copy A goes on with b at offset 0x1000. -/
def vault (b : Byte) : Memory := Memory.write (Memory.write [] 0x1000 [b]) 0 imageBytes

/-- A die's fuses hold the hash of that key in slot 1 and of another in slot 2. -/
def burnt : Fuses :=
  { slots := [[], beBytes 48 0xd27cda47acf3650dd59a1c1cc605a8717d353245e5b0d4243e0a645930a378679133b1b9cacd4a93fbe98fdd18ec6a77, [7]] }
def staged (n : Nat) (b : Byte := 0) (f1 : Fuses := burnt) : State :=
  { State.reset with power := { busbar := .within, auxOn := true }, ledger := { bytes := vault b, answers := true }
                     sec := { running := true, stage := n, fuses0 := burnt, fuses1 := f1 } }

section
variable (b : Byte) (f1 : Fuses)

theorem image_length : imageBytes.length = 896 := by decide +kernel
theorem image_read (off len : Nat) (h : off + len ≤ 896) : (staged 1 b f1).copyBytes false off len = (imageBytes.drop off).take len := by
  have := Memory.read_write_part (Memory.write [] 0x1000 [b]) 0 off len imageBytes (by rw [image_length]; exact h)
  simpa [State.copyBytes, State.copyBase, staged, vault] using this
theorem image_num (lo len : Nat) (h : lo + len ≤ 896) : (staged 1 b f1).headerNum false lo len = ofLe ((imageBytes.drop lo).take len) := by
  rw [State.headerNum, image_read b f1 _ _ h]
theorem image_sections : (staged 1 b f1).headerNum false 14 2 = 8 := by rw [image_num b f1 _ _ (by decide)]; decide +kernel
theorem image_table : (staged 1 b f1).sectionTable false = imageTable := by
  rw [State.sectionTable, image_sections, image_read b f1 _ _ (by decide)]; decide +kernel
theorem image_entries : (staged 1 b f1).sectionEntries false = (List.range 8).map fun i => imageEntry (i + 1) := by
  rw [State.sectionEntries, image_sections]
  have : ∀ i ∈ List.range 8, (staged 1 b f1).copyBytes false (256 + 80 * i) 80 = (imageBytes.drop (256 + 80 * i)).take 80 := fun i hi =>
    image_read b f1 _ _ (by have := List.mem_range.mp hi; omega)
  rw [List.map_congr_left this]; decide +kernel
theorem image_header : (staged 1 b f1).headerOk false = true := by
  rw [State.headerOk, image_sections, image_entries, image_read b f1 _ _ (by decide), image_num b f1 _ _ (by decide), image_num b f1 _ _ (by decide),
    image_read b f1 _ _ (by decide)]
  decide +kernel
theorem image_tables : (staged 1 b f1).tableOk false = true := by rw [State.tableOk, image_entries]; decide +kernel
theorem image_key : (imageBytes.drop 32).take 96 = imageKey := by decide +kernel
theorem image_keys : (staged 1 b f1).keysOk false burnt = true := by
  simp only [State.keysOk, State.imageSvn, image_num b f1 10 1 (by decide), image_num b f1 12 1 (by decide), image_num b f1 24 8 (by decide),
    image_num b f1 11 1 (by decide), image_read b f1 32 96 (by decide), image_key]
  decide +kernel
theorem image_keys_missing : (staged 1 b f1).keysOk false {} = false := by
  have : ({} : Fuses).programmed (ofLe ((imageBytes.drop 10).take 1)) = false := by decide +kernel
  simp only [State.keysOk, image_num b f1 10 1 (by decide), this, Bool.and_false, Bool.false_and]
theorem image_signature : ecdsaValid imageKey (imageHeader ++ imageTable) imageSignature = true := by decide +kernel

/-- The digests of the empty section and of the eight bytes. -/
theorem image_digests : sha384 [] = noBytes ∧ sha384 (List.replicate 8 0) = eightZeros ∧ sha384 (1 :: List.replicate 7 0) ≠ eightZeros := by
  and_intros <;> decide +kernel
theorem image_signed : (staged 1 b f1).signedOk false = true := by
  have hs : (imageBytes.drop 128).take 96 = imageSignature := by decide +kernel
  have hh : (imageBytes.drop 0).take 128 = imageHeader := by decide +kernel
  have hf : (staged 1 b f1).sectionOf false 1 = some (imageEntry 1) := by rw [State.sectionOf, image_entries]; decide +kernel
  have hb : (staged 1 b f1).sectionBytes false (imageEntry 1) = some [] := by
    have h : State.sectionOff (imageEntry 1) = 0 ∧ State.sectionLen (imageEntry 1) = 0 := by decide +kernel
    simp [State.sectionBytes, h, State.copyBytes, Memory.read]
  have hd : (noBytes == slice (imageEntry 1) 24 48) = true := by decide +kernel
  simp only [State.signedOk, image_table, image_read b f1 32 96 (by decide), image_read b f1 128 96 (by decide), image_read b f1 0 128 (by decide),
    image_key, hs, hh, hf, hb, image_digests.1, hd, image_signature, Bool.and_true]
theorem vault_rest (j : Nat) (h : 0x1001 ≤ j) : Memory.byte (vault b) j = 0 := by
  rw [vault, Memory.byte_write, image_length, if_neg (by omega), Memory.byte_write, if_neg (by simp; omega)]; rfl
theorem copyB_empty : (staged 1 b f1).headerOk true = false := by
  have h : (staged 1 b f1).copyBytes true 0 8 = List.replicate 8 0 := by
    simp only [State.copyBytes, State.copyBase, staged, if_true, Memory.read]
    rw [vault_rest b _ (by norm_num), vault_rest b _ (by norm_num), vault_rest b _ (by norm_num), vault_rest b _ (by norm_num),
      vault_rest b _ (by norm_num), vault_rest b _ (by norm_num), vault_rest b _ (by norm_num), vault_rest b _ (by norm_num)]
    rfl
  rw [State.headerOk, h]; rfl

/-- The image passes every check of R359, and the empty copy B does not: a ROM with these fuses boots copy A, and one with
none boots neither (R360). -/
theorem test_image_accepted : (staged 1 b f1).chooseCopy burnt = some false ∧ (staged 1 b f1).chooseCopy {} = none := by
  have hb : ∀ f, (staged 1 b f1).accepted f true = false := fun f => by simp [State.accepted, copyB_empty]
  constructor
  · have ha : (staged 1 b f1).accepted burnt false = true := by
      simp only [State.accepted, image_header, image_tables, image_keys, image_signed]; rfl
    rw [State.chooseCopy, ha, hb]
  · have ha : (staged 1 b f1).accepted {} false = false := by
      simp only [State.accepted, image_keys_missing, Bool.and_false, Bool.false_and]
    rw [State.chooseCopy, ha, hb]
end

/-- Where the eight bytes are zero every digest matches, and where the first is one, that of section 2 does not (R360). -/
theorem section2_read (b : Byte) : (staged 1 b).copyBytes false 0x1000 8 = b :: List.replicate 7 0 := by
  have h0 : Memory.byte (vault b) 0x1000 = b := by
    rw [vault, Memory.byte_write, image_length, if_neg (by omega), Memory.byte_write, if_pos (by simp)]; rfl
  simp only [State.copyBytes, State.copyBase, staged, Memory.read]
  rw [show (if false = true then 0x60000000 else 0) + 0x1000 = 0x1000 from rfl, h0, vault_rest b _ (by norm_num), vault_rest b _ (by norm_num), vault_rest b _ (by norm_num),
    vault_rest b _ (by norm_num), vault_rest b _ (by norm_num), vault_rest b _ (by norm_num), vault_rest b _ (by norm_num)]
  rfl
theorem test_section_digests : (staged 1 0).sectionMismatch false = false ∧ (staged 1 1).sectionMismatch false = true := by
  have spans : ∀ i ∈ List.range 8, State.sectionOff (imageEntry (i + 1)) = (if i = 1 then 0x1000 else 0) ∧
      State.sectionLen (imageEntry (i + 1)) = (if i = 1 then 8 else 0) ∧ slice (imageEntry (i + 1)) 24 48 = (if i = 1 then eightZeros else noBytes) ∧
      ofLe ((imageEntry (i + 1)).take 2) = i + 1 := by decide +kernel
  have bytes : ∀ (b : Byte), ∀ i ∈ List.range 8, (staged 1 b).sectionBytes false (imageEntry (i + 1)) = some (if i = 1 then b :: List.replicate 7 0 else []) := fun b i hi => by
    obtain ⟨h1, h2, -, -⟩ := spans i hi
    rw [State.sectionBytes, h1, h2]
    by_cases h : i = 1
    · simp [h, section2_read]
    · simp [h, State.copyBytes, Memory.read]
  constructor
  · rw [State.sectionMismatch, image_entries, List.any_eq_false]
    intro e he
    obtain ⟨i, hi, rfl⟩ := List.mem_map.mp he
    obtain ⟨-, -, h3, -⟩ := spans i hi
    rw [bytes 0 i hi, h3]
    by_cases h : i = 1
    · subst h; simp only [if_true, Option.all_some]; rw [show (0 : Byte) :: List.replicate 7 0 = List.replicate 8 0 from rfl, image_digests.2.1]; simp
    · simp [h, image_digests.1]
  · rw [State.sectionMismatch, image_entries, List.any_eq_true]
    refine ⟨imageEntry 2, List.mem_map.mpr ⟨1, by decide, rfl⟩, ?_⟩
    obtain ⟨-, -, h3, h4⟩ := spans 1 (by decide)
    rw [bytes 1 1 (by decide)]
    simpa [h3, h4] using image_digests.2.2

theorem test_bring_up :
    (staged 0).bringingUp = true ∧ (staged 1).ledger.answers = true ∧ (staged 1).power.tripRecord = none ∧ (staged 0).permanents = [] ∧
    (staged 0).deadR = [] ∧ ((staged 0).parish 27).st = .off ∧ ((staged 0).parish 27).dead = false ∧ 27 % 8 ∉ (staged 0).power.groupsOff ∧
    (1 : Nat) ≤ (staged 3).sec.stage ∧ (staged 3).sec.copyB = false := by
  and_intros <;> first | exact rfl | decide +kernel

/-- The boot row reaches the ledger where it all comes up, and does not where none of it does (R353). -/
theorem test_boot_path :
    (((staged 0).netStage {} State.bootRow).selfTest {} State.bootRow).bootPath = true ∧
    (((staged 0).netStage { offParishes := State.bootRow } State.bootRow).selfTest { offParishes := State.bootRow } State.bootRow).bootPath = false := by
  and_intros <;> decide +kernel

/-- Stage 4, parish P00 NET_ON or ON. -/
def waves : State := { staged 4 with parishes := [(0, { st := .netOn }), (1, { st := .on })], ledger := {} }
theorem test_compute_waves :
    waves.bringingUp = true ∧ waves.sec.stage = 4 ∧ (waves.parish 0).st = .netOn ∧ (waves.parish 1).st = .on ∧ (waves.logicalOf 500).isSome = true ∧
    16 ≤ waves.owner (State.parOf 500) ∧ waves.deadPos 500 = false ∧ (waves.croft 500).faultFence = false ∧ repairAt (waves.croft 500) 0 0 = none := by
  and_intros <;> decide +kernel
theorem test_compute_repairs : waves.repairsOf 500 = [] := by decide +kernel

theorem test_commits :
    (staged 3).sec.stage ≠ 8 ∧ (staged 8).sec.stage = 8 ∧ ({ fuseBusy := true } : Sec).fuseBusy = true ∧ ((duty.setSteward 1 { role := .lost }).steward 1).role = .lost ∧
    (duty.steward 0).role ≠ .lost := by and_intros <;> decide +kernel

/-! ### Sowing and attestation -/

/-- A round over chunks 2 and 3, to croft 0 by DEST. -/
def sowing (open_ busy : Bool) : State :=
  { on0 with regs := Tab.set moduleReset on0.regs Reg.secSowRange (2 + 3 * 2 ^ 16)
             sec := { on0.sec with sowOpen := open_, sowBusy := busy, sowRound := 5, sowC0 := 2, sowC1 := 3 } }

theorem test_sowing :
    (sowing false false).field Reg.secSowRange 8 0 = 2 ∧ (sowing false false).field Reg.secSowRange 24 16 = 3 ∧
    (sowing true false).field Reg.secSowSrc 11 0 = 0 ∧ (sowing true true).sec.sowBusy = true ∧ ((sowing false false).sec.sowOpen = false) ∧
    ((sowing false false).setReg Reg.secSowRange 5).field Reg.secSowRange 24 16 < ((sowing false false).setReg Reg.secSowRange 5).field Reg.secSowRange 8 0 := by
  and_intros <;> decide +kernel

/-- Every packet of chunk 2 has committed at croft 0, whose window 15 begins at line 0. -/
theorem test_chunk_check :
    (let s := (sowing true false).setCroft 0 { sowMask := [(2, 255)] }; s.sec.sowOpen = true ∧ s.sec.sowC0 ≤ 2 ∧ 2 ≤ s.sec.sowC1 ∧ sowMaskAt (s.croft 0) 2 = 255 ∧
      32 * winBase (s.croft 0) 15 + 4096 * 2 + 4096 ≤ 0x200000) ∧ ∀ cw, eccAt {} cw = .clean := by
  refine ⟨?_, fun _ => rfl⟩
  and_intros <;> decide +kernel

/-- A booted steward die with twelve measurements. -/
def attested : State :=
  { duty with sec := { duty.sec with identity0 := { chain := [[1], [2], [3], [4]], blocks := (List.range 12).map fun i => [BitVec.ofNat 8 i] } } }
theorem test_attestation :
    (attested.steward 0).mgmtUp = true ∧ (attested.steward 0).role ≠ .lost ∧ 0 < (attested.dieIdentity 0).blocks.length ∧ (1 : Nat) ≤ 12 ∧
    12 ≤ (attested.dieIdentity 0).blocks.length ∧ (12 : Nat) ≠ 0xFF := by and_intros <;> decide +kernel

/-! ### Faults and the ledger -/

/-- The class word of source 36 set, with an event of it at croft 0 of an unowned parish, or at croft 0 of holding 0. -/
def faulty (k : W64) (st : StcState := .idle) (s : State := duty) : State := (s.setReg (Reg.fltClass 36) k).setStc 0 { working with st }
def event (q : Nat) : Report := { source := 36, loc := BitVec.ofNat 32 q, time := 9, tclass := some false }

theorem test_events :
    (faulty 0).active.isSome = true ∧ sourceNamed (event 0).source = true ∧ (faulty 0).domainOf (event 0) = 0 ∧ (faulty 0).domainOf (event 500) = 16 ∧
    (let k := (faulty 0x01000000).classOf 36; bit k 31 = false ∧ bit k 30 = false ∧ bit k 29 = false ∧ fld k 25 24 = 1) ∧
    (faulty 0x01000000 .work).openRecord 0 = none ∧ (faulty 0x01000000 .work).eventClass 0 (event 0) = false ∧
    (faulty 0x01000000 .work).eventClass 0 { event 0 with tclass := some true } = true ∧
    (let k := (faulty 0x80030000).classOf 36; bit k 31 = true ∧ 1 < max 1 (fld k 23 16) ∧ (faulty 0x80030000).faults.slots.length < 4096) ∧
    (let k := (faulty 0x41000000).classOf 36; bit k 31 = false ∧ bit k 30 = true ∧ fld k 25 24 = 1) ∧ (duty.parish (State.parOf 0)).net = true ∧
    (let s := { faulty 0 with faults := { records := [(0, some { severity := 0, flags := 1 })] } }; (s.openRecord 0).isSome = true) ∧
    (faulty 0).shadows.all (fun e => decide (SenderHeld.report (event 0) ∉ e.acks)) = true ∧ sourceNamed 127 = false ∧
    (let e : Shadow := { num := 0, acks := [.report (event 0)] }; SenderHeld.report (event 0) ∈ e.acks) := by
  and_intros <;> decide +kernel

/-- A state with an open record of domain 3 to be appended, causes and tally slots. -/
def recorded (sev : Nat) : State :=
  { duty with faults := { records := [(3, some { severity := sev, flags := 1, domain := 3 })], dirty := [3], causes := [(4, 36, 0)]
                          slots := [{ source := 36, loc := 0, count := 1 }, { source := 36, loc := 1, count := 2 }], pulse := true } }

theorem test_records :
    duty.causeHolds 36 0 = false ∧ (duty.setCroft 0 { regs := [((Site.faultBit 36).1, BitVec.ofNat 64 (2 ^ (Site.faultBit 36).2))] }).causeHolds 36 0 = true ∧
    ((recorded 0).openRecord 3).isSome = true ∧ 3 ∈ (recorded 0).faults.dirty ∧ bitsOf (16 : W32).toNat 4 0 ≤ 16 ∧ 16 < bitsOf (17 : W32).toNat 4 0 ∧
    (recorded 0).causeCount 3 = 0 ∧ (recorded 0).causeCount 4 ≠ 0 ∧ (recorded 1).haltOpen = false ∧ (recorded 2).haltOpen = true ∧
    sourceNamed (bitsOf (0x7F : W32).toNat 6 0) = false ∧ sourceNamed (bitsOf (0x24 : W32).toNat 6 0) = true ∧
    (faulty 0).openRecord ((faulty 0).domainOf { source := 36, loc := 0 }) = none := by and_intros <;> decide +kernel

theorem test_ledger :
    duty.ledger.answers = true ∧ Ledger.inHistory 0xC4A00 = false ∧ Ledger.inLog 0xC4A00 = false ∧ duty.ldgProtected 0xC4A00 = false ∧
    duty.ledger.spare ≠ 0 ∧ duty.ldgProtected 0xC0200 = true ∧ ({ answers := false } : Ledger).answers = false ∧ ({ spare := 0 } : Ledger).spare = 0 := by
  and_intros <;> decide +kernel

/-! ### Whole rules, and the block as a whole -/

theorem test_vacant :
    Vacant (.croft 0 0x0F0) ∧ (on0.site 0).regRefused (regPkt 0x12 0x0F0 15) = none ∧ on0.reached (regPkt 0x12 0x0F0 15) = some 0 ∧
    (regPkt 0x12 0x0F0 15).dest.toNat < 26880 ∧
    (let k : Packet := { regPkt 0x12 0 15 with dest := 0x7000, offset := 0x3FFFC }; on0.packetRefused k = none ∧ 26880 ≤ k.dest.toNat ∧
      State.packetPlace k = .gate 0 0x3FFFC) ∧ findReg gateMap 0x3FFFC = none := by
  refine ⟨⟨?_, ?_⟩, ?_, ?_, ?_, ⟨?_, ?_, ?_⟩, ?_⟩ <;> decide +kernel

theorem test_vacant_cores :
    duty.coreReady 0 3 = true ∧ duty.coreRoute 0 0x18000FFC (Place.ofAddr 0 0x18000FFC) = none ∧ Place.ofAddr 0 0x18000FFC = .module 0x400FFC ∧
    findReg moduleMap 0x400FFC = none ∧ State.ofSet (Place.ofAddr 0 0x18000FFC) = false ∧
    (Place.ofAddr 0 0x13000FFC = .stc 0 0xFFC ∧ findReg stcMap 0xFFC = none ∧ State.ofSet (.stc 0 0xFFC) = true) ∧ on0.coreReady 0 3 = true ∧
    on0.coreRoute 0 0x13000FFC (Place.ofAddr 0 0x13000FFC) = none ∧ on0.standby = none := by and_intros <;> decide +kernel

theorem test_would_replay :
    WouldReplay (ctl working) 0 .software ∧ ¬ WouldReplay (ctl { working with st := .restoring }) 0 .software ∧
    ¬ WouldReplay (ctl working (on0.setSteward 0 {})) 0 .software := by
  unfold WouldReplay Acts; and_intros <;> decide +kernel

theorem test_errors :
    Outstanding (storing (storeReq 1 [(3, 0, 2), (4, 2, 2)])) 0 0 (storeMsg 0x8F 1) (storeReq 1 [(3, 0, 2), (4, 2, 2)]) [0x01, 0x02, 0x03, 0x04] ∧
    (storeMsg 0x8F 1).wellFormed = true := by
  refine ⟨⟨[], [], rfl, rfl, rfl, rfl, rfl, ?_, ?_⟩, rfl⟩ <;> decide +kernel

theorem test_handles :
    on0.logicalOf 0 = some 0 ∧ (regPkt 0x13 0x1100 15).offset.toNat = 0x0F001100 + 32 * 0 ∧ (on0.site 0).regRefused (regPkt 0x13 0x1100 15) = none ∧
    (let k : Packet := { regPkt 0x13 0 15 with dest := 0x7000, offset := BitVec.ofNat 32 (Reg.gatChHandle 0) };
      k.offset.toNat = Reg.gatChHandle 0 ∧ on0.packetRefused k = none) := by and_intros <;> decide +kernel

theorem test_holding_registers :
    ({ State.reset with power := { resetN := false } } : State).power.resetN = false ∧ (on0.holding 0).st ≠ .free ∧ (on0.holding 1).st = .free ∧ on0.up = true ∧
    (BitVec.ofNat 48 (0x17000004 + 0x10)).toNat = 0x17000004 + 0x10 * 1 := by and_intros <;> decide +kernel

theorem test_idle_steps :
    (duty.pending = [] ∧ duty.up = true ∧ duty.sec.running = true ∧ duty.clock.slew = 0) ∧ State.reset.pending = [] ∧ State.reset.up = false := by
  and_intros <;> decide +kernel

theorem test_invariants :
    FusesFrom burnt { burnt with revoked := 1, svn := 3 } ∧ unitOf (.nop c0) = some c0 ∧ QueueFormed { on0 with pending := [.nop c0, .packetInject (tok 0)] } := by
  refine ⟨⟨rfl, rfl, rfl, by decide, by decide⟩, rfl, ?_⟩
  intro c hc; rcases List.mem_cons.mp hc with rfl | hc
  · rfl
  · rcases List.mem_cons.mp hc with rfl | hc
    · decide +kernel
    · cases hc

/-! ### Packets in turn, and registers within reach (R21, R60, R66) -/

/-- A state whose inbox holds two packets of one flow. -/
def crowd : State := { at0 winCroft with inbox := [toWin 1 [7, 8, 9], { toWin 1 [1, 2, 3] with tag := 10 }] }

theorem test_packets_in_turn :
    (∀ k ∈ [toWin 1 [7, 8, 9], toWin 2 [], toWin 6 []], InTurn (at0 winCroft) k) ∧
    (∀ k ∈ [regPkt 0x12 Reg.crfRepairSel 15, regPkt 0x13 0x1100 15, regPkt 0x12 0x0F0 15], InTurn on0 k) ∧
    InTurn crowd (toWin 1 [7, 8, 9]) ∧ crowd.waitsTurn { toWin 1 [1, 2, 3] with tag := 10 } = true ∧
    ({ toWin 1 [1, 2, 3] with tag := 10 } : Packet).wellFormed = true ∧
    (∀ k ∈ [(4, 0), (0x14, 0), (3, 0), (5, 9), (5, 1)], InTurn (asking .run req0) (answerPkt k.1 k.2)) ∧ (∀ n ∈ [5, 6, 7], InTurn (tallied 1) (tallyPkt n)) ∧
    InTurn (withGate gate0) { answerPkt 4 0 with who := .gate 0 3 } ∧ InTurn (coreWaits false) { op := 0x14, tag := 6, who := .core 0 3, opdata := 77 } ∧
    InTurn (ctl { st := .opening, order := 1 }) { op := 4, who := .scaleToken 0 7 } := by
  unfold InTurn; and_intros <;> decide +kernel

theorem test_crofts_within_reach :
    (at0 {}).atCroft 0 = true ∧ (at0 { resetting := true }).atCroft 0 = true ∧ (at0 (withReg {} Reg.crfSeqSlots 1)).atCroft 0 = true ∧ State.reset.atCroft 0 = false ∧
    on0.deadPos 0 = false ∧ ({ on0 with deadR := [0] } : State).deadPos 0 = true ∧ ({ on0 with deadR := [0] } : State).atCroft 0 = false := by
  and_intros <;> decide +kernel

/-! ### Words that an earlier one holds (R143) -/

/-- A drain of an earlier word that zeroes accumulator row 0, and a stream of one that writes it. -/
def draining0 : Croft := { draining := some { q := qw (drainW 9 + 2 ^ 98) } }
theorem test_held_words :
    (let s := at0 { draining0 with arrayQ := [qw streamW 1] };
      (s.croft 0).arrayQ = qw streamW 1 :: [] ∧ (s.croft 0).loading = none ∧ (s.croft 0).streaming = none ∧
        (s.site 0).held 1 [Site.arrRows (qw streamW 1)] = true) ∧
    (let s := at0 { arrayQ := [qw streamW], sbuf0 := ones }; (s.site 0).held 0 [Site.arrRows (qw streamW)] = false) ∧
    (let s := at0 { arrayQ := [qw addinW] }; (s.site 0).held 0 [Site.arrRows (qw addinW)] = false) ∧
    (let s := at0 { drainQ := [qw (drainW 9) 1], streaming := some { q := qw streamW } };
      (s.croft 0).draining = none ∧ (s.site 0).held 1 [Site.drainSpan (qw (drainW 9) 1)] = true) ∧
    (let s := at0 { drainQ := [qw (drainW 9)] }; (s.site 0).held 0 [Site.drainSpan (qw (drainW 9))] = false) := by decide +kernel

/-! ### Messages at ports (R313) -/

/-- The message m waits at port 0 of gate G00; and the port's ROLE is r. -/
def rxAt (s : State) (m : Msg) : State :=
  let g := s.gate 0
  s.setGate 0 (g.setPort 0 { g.port 0 with rx := (g.port 0).rx ++ [m] })
def roleAt (s : State) (r : Nat) : State := s.setGate 0 ((s.gate 0).setField (Reg.lnkPortCtrl 0) 6 4 r)

theorem test_messages_at_ports :
    AtPort (rxAt (storing (storeReq 1 [(3, 0, 2)])) (storeMsg 0x81 0 [7, 8])) 0 0 1 (storeMsg 0x81 0 [7, 8]) ∧
    AtPort (roleAt (linked { st := .up } {} (storing (storeReq 1 [(3, 0, 2)]))) 1) 0 0 1 (storeMsg 0x81 0 [7, 8]) ∧
    AtPort (rxAt (storing (storeReq 1 [(3, 0, 2), (4, 2, 2)])) (storeMsg 0x8F 1)) 0 0 1 (storeMsg 0x8F 1) ∧
    (∀ r ∈ (withGate gate0 |>.gate 0).store, r.port ≠ 0 ∨ r.backoff = true ∨ r.heldBack = true ∨ r.msg.op.toNat ∉ [0x01]) ∧
    AtPort (rxAt (withGate gate0) (storeMsg 0x81 0 [7, 8])) 0 0 1 (storeMsg 0x81 0 [7, 8]) ∧
    AtPort (rxAt ringed permute) 0 0 2 permute ∧ AtPort ringed 0 0 2 permute ∧ AtPort ringed 0 0 2 chunk5 ∧
    AtPort (rxAt ringed { op := 0xC1, tag := 3 }) 0 0 1 { op := 0xC1, tag := 3 } ∧
    (permute ∉ ((linked {} {}).gate 0 |>.port 0).rx ∧ ((linked {} {}).gate 0 |>.port 0).st ≠ .up) ∧
    (let s := roleAt ringed 4; permute ∉ ((s.gate 0).port 0).rx ∧ ((s.gate 0).port 0).st = .up ∧ (s.gate 0).carries 0 2 permute.op.toNat = false ∧
      (s.gate 0).carries 0 1 0xC1 = false ∧ (s.gate 0).carries 0 2 chunk5.op.toNat = false ∧ ((s.gate 0).port 0).txMsgs = []) ∧
    (let s := linked { st := .up } {}; ((s.gate 0).port 0).credits 1 = 0 ∧ ((s.gate 0).port 0).txMsgs = []) ∧
    (ringed.gate 0).quiet = false := by
  unfold AtPort; and_intros <;> decide +kernel

theorem test_ports_in_use :
    InUse (linked { st := .up } { st := .up }) 0 0 ∧ InUse (caged cable) 0 0 ∧ ((linked {} {}).gate 0).quiet = false ∧ ((roleAt (linked {} {}) 0).gate 0).role 0 = 0 ∧
    (((linked { barred := true } {}).gate 0).port 0).barred = true ∧ (((linked {} {}).gate 0).port 0).barred = false ∧
    (∀ i < 8, Usable (linked { st := .up } { st := .up }) 0 (8 * 0 + i)) ∧ ((caged cable).gate 0).lanesUp 0 = [] ∧
    (∀ i < 8, Usable (caged cable) 0 (8 * 0 + i)) ∧ laneSt (caged cable) 0 0 = .off ∧
    (laneSt (linked {} { st := .retrain, attempts := 2 }) 0 0 = .retrain ∧ ((linked {} { st := .train, attempts := 2 }).gate 0 |>.lane 0).attempts < 3) ∧
    (linked {} {} State.reset).alive = false := by
  unfold InUse Usable; and_intros <;> decide +kernel

theorem test_ports_that_end_unused :
    (let s := linked { st := .training, nextRole := some 0 } { st := .caps };
      (∀ i < 8, Usable s 0 (8 * 0 + i)) ∧ ((s.gate 0).port 0).caps = none ∧ ((s.gate 0).port 0).nextRole = some 0 ∧
        (s.gate 0).minLanes 0 ≤ ((s.gate 0).lanesUp 0).length + 1 ∧ (s.gate 0).lost = false ∧
        [0, 1].any (fun v => let b := slice ([0, BitVec.ofNat 8 v, 0, 3] ++ leBytes 29 0x1122334455) 0 624;
          (State.capsOf b).flags.getLsbD 0 && ((s.gate 0).setPort 0 { (s.gate 0).port 0 with caps := some (State.capsOf b) }).partnerOk 0)) ∧
    (let s := linked { st := .training } { st := .lock, rxCount := some 255, goodRun := 7 }; InUse s 0 0 ∧ (s.gate 0 |>.lane 0).st = .lock) ∧
    (let v : Lane := { st := .up, replayBuf := [{ lseq := 4, pseq := 9, vc := 1, first := 0, bytes := [1] }], replays := 6 };
      v.replayBuf ≠ [] ∧ v.replays < 7 ∧ 7 ≤ { v with replays := 7 }.replays ∧ (((linked { st := .up } v).gate 0).port 0).st ≠ .mismatch) := by
  unfold InUse Usable; and_intros <;> decide +kernel

/-! ### Reads, supply and maps -/

/-- A read of 1024 bytes of which the first packet has come, and its second. -/
def half1024 : Req :=
  { pkt := { op := 2, tag := 5, offset := 64 }, dst := 0x1000, len := 1024, came := List.range 512, got := List.range 512 }
def second512 : Packet := { answerPkt 3 0 with length := 512, offset := 576, payload := List.replicate 512 7 }

theorem test_reads_come_in_parts :
    (let v : Chan := { st := .run, outst := [half1024] };
      v.st ≠ .free ∧ v.aborting = false ∧ (∀ a ∈ v.outst, a ≠ half1024 → a.pkt.tag ≠ half1024.pkt.tag) ∧
        v.outst.find? (fun r => r.pkt.tag == second512.tag && !r.backoff) = some half1024 ∧ half1024.pkt.offset.toNat ≤ second512.offset.toNat ∧
        half1024.dst + (576 - 64) + second512.payload.length ≤ 0x200000) ∧ second512.wellFormed = true ∧ InTurn (asking .run half1024) second512 ∧
    Live (asking .run half1024) 0 ∧ (∀ a ∈ [req0], a ≠ req0 → a.pkt.tag ≠ req0.pkt.tag) := by
  unfold InTurn Live; and_intros <;> decide +kernel

/-- The busbar feeds the converter. -/
def feedsIt (p : Power) : Bool := p.busbar = .low ∨ p.busbar = .within ∨ p.busbar = .above

theorem test_supply_returns :
    (let p : Power := { busbar := .high }; p.tripLatch = false ∧ p.auxOn = false) ∧
    (let p : Power := { busbar := .high, tripLatch := true }; p.auxOn = !p.tripLatch) ∧
    (let p : Power := { busbar := .above, auxOn := true }; feedsIt p = true ∧ p.auxOn = feedsIt p) ∧
    (let p : Power := { busbar := .within, tripLatch := true, resetN := false }; p.auxOn ≠ feedsIt p) ∧
    (let p : Power := { busbar := .low, auxOn := true, resetN := false, resetDone := true }; p.busbar ≠ .within) ∧
    (let p : Power := { busbar := .within, auxOn := true, resetN := false }; p.resetDone = false) ∧
    ((5 : Fin 8).val ∈ ({ groupsOff := [5] } : Power).groupsOff) ∧
    trippedAt .within false = .low ∧ trippedAt .within true = .above := by and_intros <;> decide +kernel

theorem test_map_outs_wait :
    (let s := on0.setParish 0 { on0.parish 0 with mapouts := [(3, 4), (3, 9), (7, 1)] };
      (s.parish 0).mapouts ≠ [] ∧ s.atBoundary (s.owner 0) = true ∧ s.quiet (s.owner 0) = true ∧ (s.parish 0).st ≠ .off) ∧
    (let s := State.reset.setParish 0 { st := .on, mapouts := [(3, 4)] };
      16 ≤ s.owner 0 ∧ (s.parish 0).mapouts ++ [(bitsOf (0x313 : W32).toNat 4 0, bitsOf (0x313 : W32).toNat 9 5)] ≠ [] ∧ (s.parish 0).st ≠ .tripped) := by
  and_intros <;> decide +kernel

/-! ### The shadow, faults and trust -/

/-- The record of a croft's isolation, acknowledged by the partner. -/
def isolating : State :=
  { duty with shadows := [{ num := 8, applied := true, isolate := [500] }], inbox := [{ op := 0x14, who := .shadow 8 }] }

theorem test_isolations_wait :
    isolating.shadows = { num := 8, applied := true, isolate := [500] } :: [] ∧ isolating.toIsolate = [] ∧
    ((({ isolating with inbox := [], shadows := [] } : State).isolateLoc 500).toIsolate = []) ∧ recording.toIsolate = [] ∧
    (let d : Shadow := { num := 8, applied := true, release := [tok 0] };
      d.msgs = [] ∧ d.acks = [] ∧ d.cores = [] ∧ d.aborts = [] ∧ d.discards = [] ∧ d.isolate = []) ∧ duty.toIsolate = [] ∧
    (let s := faulty 0x41000000 .idle on0; s.standby = none ∧ s.toIsolate = [] ∧ s.active.isSome = true ∧ sourceNamed (event 0).source = true ∧
      (event 0).loc.toNat = 0 ∧ (s.parish (State.parOf 0)).net = true ∧ s.openRecord (s.domainOf (event 0)) = none ∧
      (s.stc (s.domainOf (event 0))).stepOpen = false ∧ s.owner (State.parOf 0) < 16 ∧ (∀ e ∈ s.shadows, SenderHeld.report (event 0) ∉ e.acks)) ∧
    (faulty 0x41000000).standby.isSome = true ∧ (faulty 0x41000000).toIsolate = [] ∧
    (let s := faulty 0x41000000 .idle (on0.setReg (Reg.hldOwner 0) 0x1F); 16 ≤ s.owner (State.parOf 0) ∧ 16 ≤ s.domainOf (event 0)) := by
  and_intros <;> decide +kernel

theorem test_services_answer :
    duty.mgmtPin 0 = true ∧ attested.mgmtPin 0 = true ∧ (attested.steward 0).role ≠ .lost ∧ on0.mgmtPin 0 = false ∧
    (let s := duty.setSteward 1 { role := .standby, mgmtCable := true, mgmtUp := true }; s.mgmtPin 1 = true ∧ (s.steward 1).role = .standby) ∧
    (Place.ofAddr 0 (0x400000000 : BitVec 48).toNat = .croft 0 0 ∧ duty.owner (State.parOfLogical 0) = (0 : Fin 16).val) ∧
    (Place.ofAddr 0 (0x400000000 + 0x10000 * 480 : BitVec 48).toNat = .croft 480 0 ∧ duty.owner (State.parOfLogical 480) ≠ (0 : Fin 16).val) ∧
    (∀ k ∈ duty.outq, ∀ n, k.who = .shadow n → n < duty.shadowNum) := by
  and_intros
  all_goals first | decide +kernel | (intro k hk; exact absurd hk List.not_mem_nil)

theorem test_fault_clears :
    (faulty 0).causeCount 16 = 0 ∧ (faulty 0).openRecord 16 = none ∧ (faulty 0).up = true ∧ on0.haltOpen = false ∧ (recorded 0).up = true := by
  and_intros <;> decide +kernel

theorem test_stage_one :
    (staged 1).toIsolate = [] ∧ (staged 1).sec.cycled = false ∧ ({ staged 1 with sec := { (staged 1).sec with cycled := true } } : State).sec.cycled = true ∧
    (staged 1).bringingUp = true ∧ (staged 3).up = true ∧ State.reset.up = false := by and_intros <;> decide +kernel

/-- A ledger whose history holds one permanent entry, number 0; and one that is busy while another operation waits. -/
def kept0 : Ledger := { answers := true, history := [(0, some { unit := 5, permanent := true })] }
def busy0 (o : LdgOp) : Ledger := { answers := true, busy := true, waiting := [o] }

theorem test_ledger_waits :
    (kept0.entry 0).map (·.permanent) = some true ∧ (busy0 (.read 5 .clean)).busy = true ∧
    (busy0 (.read 5 .clean)).waiting = .read (5 : BitVec 20).toNat .clean :: [] ∧ (busy0 (.write 5 false)).waiting = .write (5 : BitVec 20).toNat false :: [] ∧
    duty.ledger.waiting = [] ∧ Ledger.inFields 0xC0001 = false ∧ Ledger.inFields 0xC0100 = true ∧ duty.ledger.hasFields = false ∧
    duty.ledger.removals 0xC4A00 duty.bufBytes = [] := by and_intros <;> decide +kernel

theorem resets_below_buffer : ∀ d ∈ moduleMap, d.rst ≠ 0 → d.off < 0x701000 ∧ d.off + d.stride * d.count ≤ 0x701000 := by decide +kernel

/-- The words of the ledger's buffer read 0 until they are written. -/
theorem buffer_resets (w : Nat) : moduleReset (Reg.ldgBuf w) = 0 := by
  have h0 : ¬ (Reg.ldgBuf w < Reg.fltClass 128) := by simp [Reg.ldgBuf, Reg.fltClass]; omega
  rw [moduleReset]; simp only [h0, decide_false, Bool.and_false, Bool.false_and, Bool.false_eq_true, if_false]
  unfold resetOf
  cases h : findReg moduleMap (Reg.ldgBuf w) with
  | none => rfl
  | some d =>
    by_contra hne
    have hp := List.find?_some h
    obtain ⟨h1, h2⟩ := resets_below_buffer d (List.mem_of_find?_eq_some h) hne
    by_cases hc : d.count = 1
    · rw [if_pos hc, beq_iff_eq] at hp; simp only [Reg.ldgBuf] at hp; omega
    · simp only [if_neg hc, Bool.and_eq_true, decide_eq_true_eq] at hp; simp only [Reg.ldgBuf] at hp; omega

/-- A module whose ledger is kept0, its buffer zero. -/
def keeping : State := { State.reset with power := { busbar := .within, auxOn := true }, ledger := kept0 }
theorem keeping_buffer : keeping.bufBytes = (List.replicate 1024 (List.replicate 4 0)).flatten := by
  have h : ∀ w ∈ List.range 1024, leBytes 4 (keeping.num (Reg.ldgBuf w)) = List.replicate 4 0 := fun w _ => by
    have : keeping.num (Reg.ldgBuf w) = 0 := congrArg BitVec.toNat (buffer_resets w)
    rw [this]; rfl
  rw [State.bufBytes, List.flatMap_def, List.map_congr_left h, List.map_const', List.length_range]

theorem test_ledger_removes : keeping.up = true ∧ keeping.ledger.busy = false ∧ keeping.ledger.answers = true ∧
    keeping.ledger.removals (0xC0200 : BitVec 20).toNat keeping.bufBytes ≠ [] := by
  refine ⟨rfl, rfl, rfl, ?_⟩
  have hs : ∀ i, i < 128 → slice keeping.bufBytes (32 * i) 32 = List.replicate 32 0 := fun i hi => by
    simp only [keeping_buffer, List.flatten_replicate_replicate, slice, List.drop_replicate, List.take_replicate, List.length_replicate,
      List.replicate_append_replicate]
    congr 1; omega
  dsimp only [Ledger.removals]
  rw [List.filter_congr fun i hi => by rw [hs i (List.mem_range.mp hi)]]
  generalize hf : List.filter _ (List.range 128) = f
  obtain rfl : f = [0] := by rw [← hf]; decide +kernel
  simp only [List.all_cons, List.all_nil, hs 0 (by decide)]
  decide +kernel

/-! ### The harvest croft of a chunk (R262) -/

/-- Where the free choice of the harvest croft names logical croft 0, it is there; and with no parish ON there is none. -/
theorem test_harvest_croft (h : (Config.harvestHome 0 2 0).1 = 0) : ringed.harvestSite 0 2 0 = some (ringed.site 0) := by
  rw [State.harvestSite, h]; decide +kernel

/-- The ring with its parishes off. -/
def dark : State := { ringed with parishes := [] }
theorem test_no_harvest_croft (h i half : Nat) : dark.harvestSite h i half = none := by
  have hp : ∀ p, dark.parish p = {} := fun _ => rfl
  have : ∀ q, (dark.site q).live = false := fun q => by
    have : (dark.site q).cut = true := by simp [State.site, State.cut, hp]
    simp [Site.live, Site.fenced, this]
  rw [State.harvestSite, Option.filter_eq_none_iff]
  intro x hx
  obtain ⟨q, -, rfl⟩ := Option.map_eq_some_iff.mp hx
  simp [this q]

theorem test_chunks_find_no_port :
    dark.chunkHolding chunk5 = some 0 ∧ (dark.stc 0).started = true ∧ 2 * chunk5.addr.toNat ∉ (dark.stc 0).chunks ∧
    ringed.chunkPorts 2 2 = [] ∧ ((ringed.gate 0).setField (Reg.lnkPortCtrl 0) 9 8 2 |> fun g => (ringed.setGate 0 g).chunkPorts 2 2) ≠ [] := by
  and_intros <;> decide +kernel

/-! ### Commands that no sender can form (WellFormed), refused by name -/

theorem test_ill_formed :
    (∀ i ∈ [Instr.write { op := 1, length := 2 }, .token { op := 6, payload := [0] }, .data 0 0 { decodes := true, corr := 0, marker := 0xA5C00, bytes := [] },
      .registerWrite 0 3 0, .stewardLoad 0 0 0 16], i.wellFormed = false ∧ exec i on0 = .fault .illFormed) ∧
    ({ payload := List.replicate 4097 0 } : Msg).wellFormed = false := by
  refine ⟨?_, by decide +kernel⟩
  intro i hi; fin_cases hi <;> exact ⟨rfl, rfl⟩

theorem test_ill_formed_message (m : Msg) (h : m.wellFormed = false) (s : State) :
    exec (.error 0 0 m) s = .fault .illFormed := by simp [exec, execError, checked, h]

/-! ### The spec's worked examples -/

/-- R225's example: channel 2 of logical croft 12,345 in generation 5. -/
theorem test_handle_example : BitVec.ofNat 32 (12345 * 2 ^ 15 + 2 * 16 + 5) = (0x181C8025 : W32) := by decide

/-- The example of chapter 2: physical croft 13,105 of parish P26 fails, and croft 12,345 sits on column 10; then a
map-out of column 17 loses the row, crofts 12,336 to 12,359. -/
def failed : State := on0.setParish 26 ((on0.parish 0).setReg (Reg.parRowmap 4) 0x40000005)
theorem test_row_map_example :
    State.parOf 13105 = 26 ∧ failed.logicalOf (13000 + 110) = some 12345 ∧ failed.logicalOf (13000 + 104) = some (12336 + 4) ∧ failed.logicalOf 13105 = none ∧
    (let t := after (.parMapoutWrite 26 0x224) failed; t.rowMap 26 4 = 0xC0000005 ∧ t.logicalOf 13110 = none ∧ t.logicalOf 13123 = none ∧
      t.logicalOf 13099 = failed.logicalOf 13099) := by and_intros <;> decide +kernel

/-- A number of hundredths of tenths. -/
def dec (neg : Bool) (n d : Nat) : FV := f32 (BitVec.ofNat 32 (fp32.encodeFrac neg n d .rne).1)
/-- The conversion worked in chapter 5: 11.2, −36.8, 81.6, 4.0 and 20.0 in F4, and 7.0 under CEIL and under FLOOR. -/
theorem test_f4_example :
    (let o := convertLine 0 false FV.one none ([dec false 112 10, dec true 368 10, dec false 816 10, dec false 4 1, dec false 20 1] ++ List.replicate 27 FV.zero) fun _ => .rne;
      o.codes.take 5 = [1, 0xC, 7, 0, 2] ∧ o.scales.take 1 = [0x83]) ∧
    (let o := convertLine 0 true FV.one none (dec false 7 1 :: List.replicate 31 FV.zero) fun _ => .rne; o.codes.take 1 = [7] ∧ o.scales.take 1 = [127] ∧ o.ev.sat = 1) ∧
    (let o := convertLine 0 false FV.one none (dec false 7 1 :: List.replicate 31 FV.zero) fun _ => .rne; o.codes.take 1 = [6] ∧ o.scales.take 1 = [128] ∧ o.ev.sat = 0) := by
  and_intros <;> decide +kernel

/-- The stochastic rounding of 1.2 in F4, and the roundings of FP32 to BF16. -/
theorem test_rounding_examples :
    (eltCode 0 false (12, 10) (.sr 20000)).1 = 3 ∧ (eltCode 0 false (12, 10) (.sr 28672)).1 = 2 ∧
    ([0x3F808000, 0x3F818000, 0x3F808001].map fun w => (bf16.encode (f32 w)).1) = [0x3F80, 0x3F82, 0x3F81] := by and_intros <;> decide +kernel

/-- The update worked in chapter 12: the record of its step. -/
def scheduled : Stc :=
  ((((((({} : Stc).setReg Reg.stcSchedCfg 0x6000).setReg Reg.stcSchedWarm 128).setReg Reg.stcSchedDecay 1024).setReg Reg.stcSchedFPeak 0x3F800000).setReg
    Reg.stcSchedFEnd 0x3F000000).setReg Reg.stcSchedPos 200).setReg Reg.stcNormClip 0x3F800000
theorem test_record_example :
    (scheduled.setReg Reg.stcNormKappa ((scheduled.kappa 0x4010000000000000).setWidth 64)).recordOf = [0x60, 0x3E000000, 0x3F770000, 0x43490000, 0x3F000000] := by
  decide +kernel

end Sys2Proof.Tests
end

/-! What an access to an empty offset of a register block comes to (R10), and what register packets and steward cores'
accesses come to at any register. -/

namespace Sys2Proof.Machine
open Sys2Proof.Safety

/-! ### Rows of a register map -/

/-- Where no register of a map lies, none of an array of its registers lies. -/
theorem rowOf_eq_none_of_findReg {m : List RegDef} {d : RegDef} {o : Nat} (hd : d ∈ m) (hc : d.count ≠ 1)
    (h : findReg m o = none) : rowOf o d.off d.stride d.count = none := by
  have hn := List.find?_eq_none.1 h d hd
  simp only [if_neg hc, Bool.and_eq_true, decide_eq_true_eq, beq_iff_eq, and_assoc] at hn
  exact if_neg hn

/-- GAT_CH_CMD lies at no empty offset of a gate. -/
theorem rowOf_gatChCmd_eq_none {o : Nat} (h : findReg gateMap o = none) : rowOf o (Reg.gatChCmd 0) 0x40 2048 = none :=
  rowOf_eq_none_of_findReg (d := { off := 0x10000, stride := 0x40, count := 2048 }) (by simp [gateMap, gatRegs]) (by decide) h

/-! ### Empty offsets of a croft's blocks -/

namespace Site

theorem readReg_vacant (x : Site) {o : Nat} (n : Nat) (h : findReg croftMap o = none) : x.readReg o n = (x, 0) := by
  unfold readReg; rw [h]

theorem writeReg_vacant (x : Site) {o : Nat} (n : Nat) (v : W64) (h : findReg croftMap o = none) : x.writeReg o n v = x := by
  unfold writeReg; rw [h]

variable {x : Site} {k : Packet} {o : Nat}

theorem regWritePacket_vacant (hr : x.regRefused k = none) (ho : k.offset.toNat = 0x0F000000 + o)
    (h : findReg croftMap o = none) : x.regWritePacket k = x.regReply k (k.opdata.setWidth 64) := by
  unfold regWritePacket
  simp only [hr, ho, Nat.add_sub_cancel_left, writeReg_vacant x _ _ h]

theorem regReadPacket_vacant (hr : x.regRefused k = none) (ho : k.offset.toNat = 0x0F000000 + o)
    (h : findReg croftMap o = none) : x.regReadPacket k = x.regReply k 0 := by
  unfold regReadPacket
  simp only [hr, ho, Nat.add_sub_cancel_left, readReg_vacant x _ h]

end Site

namespace State

/-! ### Empty offsets outside the crofts -/

section
variable (s : State) {o : Nat} (n : Nat) (v : W64)

theorem readModule_vacant (h : findReg moduleMap o = none) : s.readModule o n = (s, 0) := by
  unfold readModule; rw [h]

theorem writeModule_vacant (h : findReg moduleMap o = none) : s.writeModule o n v = s := by
  unfold writeModule; rw [h]

theorem readParish_vacant (p : Nat) (h : findReg parishMap o = none) : s.readParish p o n = (s, 0) := by
  unfold readParish; rw [h]

theorem writeParish_vacant (p : Nat) (h : findReg parishMap o = none) : s.writeParish p o n v = s := by
  unfold writeParish; rw [h]

theorem writeBroadcast_vacant (h : findReg parishMap o = none) : s.writeBroadcast o n v = s :=
  List.foldlRecOn (motive := fun t => t = s) (List.range 56) _ rfl fun t ht p _ => ht ▸ writeParish_vacant t n v p h

theorem readStc_vacant (i : Nat) (h : findReg stcMap o = none) : s.readStc i o n = (s, 0) := by
  unfold readStc; rw [h]

theorem writeStc_vacant (i : Nat) (src : Option Nat) (h : findReg stcMap o = none) : s.writeStc i o n v src = s := by
  unfold writeStc; rw [h]

theorem readGate_vacant (g : Nat) (h : findReg gateMap o = none) : s.readGate g o n = (s, 0) := by
  unfold readGate; rw [h]

theorem writeGate_vacant (g i : Nat) (h : findReg gateMap o = none) : s.writeGate g o n i v = s := by
  unfold writeGate; rw [h]

end

/-- A read at an empty offset gives zero and changes nothing. -/
theorem readPlace_vacant (s : State) {x : Place} (n : Nat) (h : Vacant x) : s.readPlace x n = (s, 0) := by
  cases x with
  | module o => exact readModule_vacant s n h
  | parish p o => exact readParish_vacant s n p h
  | stc i o => exact readStc_vacant s n i h
  | gate g o => exact readGate_vacant s n g h
  | broadcast _ | croft _ _ | sram _ | nowhere => rfl

/-- A write to an empty offset changes nothing. -/
theorem writePlace_vacant (s : State) {x : Place} (n i : Nat) (v : W64) (src : Option Nat) (h : Vacant x) :
    s.writePlace x n i v src = s := by
  cases x with
  | module o => exact writeModule_vacant s n v h
  | parish p o => exact writeParish_vacant s n v p h
  | broadcast o => exact writeBroadcast_vacant s n v h
  | stc j o => exact writeStc_vacant s n v j src h
  | gate g o => exact writeGate_vacant s n v g i h
  | croft _ _ | sram _ | nowhere => rfl

/-- A write to an empty offset of a gate starts no context. -/
theorem startOver_vacant (s : State) (k : Packet) (v : W64) (h : Vacant (packetPlace k)) : s.startOver k v = false := by
  unfold startOver
  cases hp : packetPlace k with
  | gate g o => rw [hp] at h; simp only [rowOf_gatChCmd_eq_none h]
  | module _ | parish _ _ | broadcast _ | stc _ _ | croft _ _ | sram _ | nowhere => rfl

/-- A write of a register by its address, not a croft's, at an empty offset. -/
theorem registerWrite_vacant (s : State) {a : Nat} (bytes : Nat) (v : W64) (h : Vacant (Place.ofAddr (s.active.getD 0) a))
    (hc : ∀ n o, Place.ofAddr (s.active.getD 0) a ≠ .croft n o) : s.registerWrite a bytes v = s := by
  have hw := writePlace_vacant s bytes 15 v none h
  unfold registerWrite
  cases hx : Place.ofAddr (s.active.getD 0) a with
  | croft n o => exact absurd hx (hc n o)
  | module _ | parish _ _ | broadcast _ | stc _ _ | gate _ _ | sram _ | nowhere => rw [hx] at hw; simp only [hw, ite_self]

/-! ### One record, and none without a partner -/

/-- What sends no shadow record is the same in one record. -/
theorem asOne_of_shadows {s : State} {f : State → State} (h : (f s).shadows = s.shadows) : s.asOne f = f s := by
  unfold asOne
  simp only [h, List.drop_length, ite_self]

/-- Without a STANDBY partner there are no records. -/
theorem asOne_of_alone {s : State} (f : State → State) (h : s.standby = none) : s.asOne f = f s := by
  simp [asOne, h]

/-- Without a STANDBY partner packets of the set go out at once. -/
theorem publish_of_alone {s : State} (ks : List Packet) (h : s.standby = none) : s.publish ks = s.emit ks := by
  simp [publish, waitFor, perform, h, emit]

theorem emit_nil (s : State) : s.emit [] = s := by simp [emit]

/-- A record of one store retires it. -/
theorem perform_cores (s : State) (c : Nat × Nat) : s.perform { num := 0, cores := [c] } = s.retireStore c := by
  simp [perform, emit_nil]

/-- The accesses of its cores do not tell whether a steward is STANDBY. -/
theorem standby_setSteward_access (s : State) (i : Nat) (l : List (Nat × Option CoreAccess)) :
    (s.setSteward i { s.steward i with access := l }).standby = s.standby := by
  have hrole (j : Nat) : ((s.setSteward i { s.steward i with access := l }).steward j).role = (s.steward j).role := by
    rw [steward_setSteward]
    split
    · next hj => rw [hj]
    · rfl
  simp only [standby, hrole]

/-! ### Register packets -/

theorem exec_regWrite (k : Packet) (s : State) : exec (.regWrite k) s = execRegWrite k s := rfl
theorem exec_regRead (k : Packet) (s : State) : exec (.regRead k) s = execRegRead k s := rfl

/-- A packet that can be acted on is acted on, as one record. -/
theorem inTurn_eq {s : State} {k : Packet} (f : State → State) (hk : k.wellFormed = true) (ht : InTurn s k) :
    s.inTurn k f = .next (s.asOne f) := by
  obtain ⟨hup, hturn⟩ := ht
  simp [inTurn, checked, hk, hup, hturn]

/-- A croft that only replies to a register packet stays as it was. -/
theorem serve_regReply {s : State} {k : Packet} {q : Nat} {v : W64} {f : Site → Site} (hr : s.reached k = some q)
    (hf : f (s.site q) = (s.site q).regReply k v) :
    ∃ a, RegAnswers k a v ∧ s.serve k f = { (s.take k).setCroft q (s.croft q) with outq := s.outq ++ [a] } := by
  have hf' : f ((s.take k).site q) = ((s.take k).site q).regReply k v := hf
  refine ⟨{ (s.site q).answer k 0x14 3 with opdata := v.setWidth 96 }, ⟨rfl, by simp [Site.answer, Site.packet], rfl, rfl, rfl, rfl⟩, ?_⟩
  simp only [serve, hr, onCroft_eq', hf']
  simp only [Site.regReply, Site.send, site_out, site_raised, List.filter_nil, List.flatMap_nil, List.append_nil, List.nil_append]
  rfl

section
variable {s : State} {k : Packet} {q : Nat} {v : W64}

theorem exec_regWrite_replied (hk : k.wellFormed = true) (ht : InTurn s k) (hd : k.dest.toNat < 26880) (hr : s.reached k = some q)
    (hf : (s.site q).regWritePacket k = (s.site q).regReply k v) :
    ∃ a, RegAnswers k a v ∧
      exec (.regWrite k) s = .next { (s.take k).setCroft q (s.croft q) with outq := s.outq ++ [a] } := by
  obtain ⟨a, ha, hs⟩ := serve_regReply (f := fun x => x.regWritePacket k) hr hf
  refine ⟨a, ha, ?_⟩
  rw [exec_regWrite, execRegWrite, inTurn_eq _ hk ht, asOne_of_shadows] <;> simp [hd, hs, take]

theorem exec_regRead_replied (hk : k.wellFormed = true) (ht : InTurn s k) (hd : k.dest.toNat < 26880) (hr : s.reached k = some q)
    (hf : (s.site q).regReadPacket k = (s.site q).regReply k v) :
    ∃ a, RegAnswers k a v ∧
      exec (.regRead k) s = .next { (s.take k).setCroft q (s.croft q) with outq := s.outq ++ [a] } := by
  obtain ⟨a, ha, hs⟩ := serve_regReply (f := fun x => x.regReadPacket k) hr hf
  refine ⟨a, ha, ?_⟩
  rw [exec_regRead, execRegRead, inTurn_eq _ hk ht, asOne_of_shadows] <;> simp [hd, hs, take]

/-- Without a STANDBY partner REG_DATA goes out at once, of the ACTIVE steward's set too. -/
theorem regAnswer_of_alone (k : Packet) (v : W64) (h : s.standby = none) :
    ∃ a, RegAnswers k a v ∧ s.regAnswer k v = { s with outq := s.outq ++ [a] } := by
  refine ⟨{ answerTo k 0x14 3 with opdata := v.setWidth 96 }, ⟨rfl, rfl, rfl, rfl, rfl, rfl⟩, ?_⟩
  simp only [regAnswer, publish_of_alone _ h, ite_self, emit]

theorem regWriteAt_vacant (hn : s.packetRefused k = none) (hv : Vacant (packetPlace k)) :
    s.regWriteAt k = s.regAnswer k (k.opdata.setWidth 64) := by
  simp [regWriteAt, hn, startOver_vacant s k _ hv, writePlace_vacant s _ _ _ _ hv]

theorem regReadAt_vacant (hn : s.packetRefused k = none) (hv : Vacant (packetPlace k)) : s.regReadAt k = s.regAnswer k 0 := by
  simp [regReadAt, hn, readPlace_vacant s _ hv]

theorem exec_regWrite_elsewhere (hk : k.wellFormed = true) (ht : InTurn s k) (hd : 26880 ≤ k.dest.toNat)
    (hs : s.standby = none) : exec (.regWrite k) s = .next ((s.take k).regWriteAt k) := by
  rw [exec_regWrite, execRegWrite, inTurn_eq _ hk ht, asOne_of_alone _ hs, if_neg (by omega)]

theorem exec_regRead_elsewhere (hk : k.wellFormed = true) (ht : InTurn s k) (hd : 26880 ≤ k.dest.toNat)
    (hs : s.standby = none) : exec (.regRead k) s = .next ((s.take k).regReadAt k) := by
  rw [exec_regRead, execRegRead, inTurn_eq _ hk ht, asOne_of_alone _ hs, if_neg (by omega)]

end

/-! ### Steward cores -/

theorem exec_stewardLoad {s : State} (st : Stw) (n : Fin 16) (a : BitVec 48) {bytes : Nat} (hw : Sys2Proof.accessWidth bytes = true) :
    exec (.stewardLoad st n a bytes) s = .next (s.coreLoad st n a bytes) := by
  change checked (Sys2Proof.accessWidth bytes) _ = _
  rw [hw]; rfl

theorem exec_stewardStore {s : State} (st : Stw) (n : Fin 16) (a : BitVec 48) {bytes : Nat} (v : W64)
    (hw : Sys2Proof.accessWidth bytes = true) : exec (.stewardStore st n a bytes v) s = .next (s.coreStore st n a bytes v) := by
  change checked (Sys2Proof.accessWidth bytes) _ = _
  rw [hw]; rfl

theorem exec_registerWrite {s : State} (a : BitVec 48) {bytes : Nat} (v : W64) (hw : Sys2Proof.accessWidth bytes = true) :
    exec (.registerWrite a bytes v) s = .next (s.asOne fun s => s.registerWrite a.toNat bytes v) := by
  change checked (Sys2Proof.accessWidth bytes) _ = _
  rw [hw]; rfl

/-- An access that is over leaves the core with its value. -/
theorem coreDone_eq (s : State) (st n : Nat) (v : W64) :
    s.coreDone st n v = s.setSteward st (loadedBy (s.steward st) n v) := rfl

section
variable {s : State} {st n : Nat} {a : BitVec 48}

/-- A core's load from an empty offset that it reaches without a packet completes at once with zero. -/
theorem coreLoad_vacant (bytes : Nat) (hr : s.coreReady st n = true) (hv : Vacant (Place.ofAddr st a.toNat))
    (hn : s.coreRoute st a.toNat (Place.ofAddr st a.toNat) = none) : s.coreLoad st n a bytes = s.coreDone st n 0 := by
  have hp := readPlace_vacant s bytes hv
  unfold coreLoad
  cases hx : Place.ofAddr st a.toNat with
  | sram _ | nowhere => rw [hx] at hv; exact hv.elim
  | module _ | parish _ _ | broadcast _ | stc _ _ | gate _ _ | croft _ _ =>
    rw [hx] at hp hn
    simp [hr, hn, hp]

/-- Without a STANDBY partner a core's store to the set retires at once. -/
theorem storeToSet_of_alone (st n : Nat) (a : BitVec 48) (hs : s.standby = none) :
    s.storeToSet st n a =
      s.setSteward st { s.steward st with access := Tab.set (fun _ => none) (s.steward st).access n none } := by
  have hs' (l : List (Nat × Option CoreAccess)) : (s.setSteward st { s.steward st with access := l }).standby = none :=
    (standby_setSteward_access s st l).trans hs
  simp [storeToSet, modSteward, waitFor, hs', perform_cores, retireStore]

/-- A core's store to an empty offset that it reaches without a packet only retires. -/
theorem coreStore_vacant (bytes : Nat) (v : W64) (hr : s.coreReady st n = true) (hv : Vacant (Place.ofAddr st a.toNat))
    (hn : s.coreRoute st a.toNat (Place.ofAddr st a.toNat) = none) :
    s.coreStore st n a bytes v =
      if coreVoid (Place.ofAddr st a.toNat) a.toNat bytes = true then s
      else s.asOne fun s => if ofSet (Place.ofAddr st a.toNat) = true then s.storeToSet st n a else s := by
  have hp (t : State) := writePlace_vacant t bytes 15 v none hv
  unfold coreStore
  cases hx : Place.ofAddr st a.toNat with
  | sram _ | nowhere => rw [hx] at hv; exact hv.elim
  | module _ | parish _ _ | broadcast _ | stc _ _ | gate _ _ | croft _ _ =>
    simp only [hx] at hp hn
    simp [hr, hn, hp]

/-- Outside the set such a store changes nothing. -/
theorem coreStore_vacant_elsewhere (bytes : Nat) (v : W64) (hr : s.coreReady st n = true)
    (hv : Vacant (Place.ofAddr st a.toNat)) (hn : s.coreRoute st a.toNat (Place.ofAddr st a.toNat) = none)
    (ho : ofSet (Place.ofAddr st a.toNat) = false) : s.coreStore st n a bytes v = s := by
  rw [coreStore_vacant bytes v hr hv hn]
  simp [ho, asOne_of_shadows]

/-- A core that is ready has no access under way, and clearing its access changes none. -/
theorem coreAccess_cleared (hr : s.coreReady st n = true) (j m : Nat) :
    (s.setSteward st { s.steward st with
      access := Tab.set (fun _ => none) (s.steward st).access n none }).coreAccess j m = s.coreAccess j m := by
  have hfree : s.coreAccess st n = none := by
    simp only [coreReady, Bool.and_eq_true, Option.isNone_iff_eq_none] at hr
    exact hr.2
  unfold coreAccess at hfree ⊢
  rw [steward_setSteward]
  by_cases hj : j = st
  · subst hj
    rw [if_pos rfl, Tab.get_set]
    split
    · next hm => rw [hm, hfree]
    · rfl
  · rw [if_neg hj]

end

/-- A core's store to an empty offset of the set, without a STANDBY partner: its access ends, and nothing else changes. -/
theorem coreStore_vacant_ofSet {s : State} {st n : Nat} {a : BitVec 48} (bytes : Nat) (v : W64) (hr : s.coreReady st n = true)
    (hv : Vacant (Place.ofAddr st a.toNat)) (hn : s.coreRoute st a.toNat (Place.ofAddr st a.toNat) = none)
    (ho : ofSet (Place.ofAddr st a.toNat) = true) (hs : s.standby = none) {t : State} (ht : s.coreStore st n a bytes v = t) :
    t = { s with stewards := t.stewards } ∧ (∀ j, t.steward j = { s.steward j with access := (t.steward j).access }) ∧
      ∀ j m, t.coreAccess j m = s.coreAccess j m := by
  simp only [coreStore_vacant bytes v hr hv hn, asOne_of_alone _ hs, ho, if_true, storeToSet_of_alone st n a hs] at ht
  split at ht
  · subst ht; exact ⟨rfl, fun _ => rfl, fun _ _ => rfl⟩
  · subst ht
    refine ⟨rfl, fun j => ?_, coreAccess_cleared hr⟩
    rw [steward_setSteward]
    split
    · next hj => rw [hj]
    · rfl

end State

/-! ### The rule -/

/-- Settles O8: at every block an empty offset reads zero and keeps what is written to it from every register, and each way of
access comes to that block's read or write. -/
theorem emptyOffsetsReadZero : Obligations.EmptyOffsetsReadZero := by
  unfold Obligations.EmptyOffsetsReadZero
  intro s v
  refine ⟨?croft, ?elsewhere, ?core, ?direct⟩
  case croft =>
    intro q k o hk ht hr hn hd ho hv
    obtain ⟨hfind, -⟩ := hv
    exact ⟨State.exec_regWrite_replied hk ht hd hr (Site.regWritePacket_vacant hn ho hfind),
      State.exec_regRead_replied hk ht hd hr (Site.regReadPacket_vacant hn ho hfind)⟩
  case elsewhere =>
    intro k hk ht hd hn hv hs
    have hn' : (s.take k).packetRefused k = none := hn
    have hs' : (s.take k).standby = none := hs
    rw [State.exec_regWrite_elsewhere hk ht hd hs, State.exec_regRead_elsewhere hk ht hd hs,
      State.regWriteAt_vacant hn' hv, State.regReadAt_vacant hn' hv]
    obtain ⟨a, ha, hwrite⟩ := State.regAnswer_of_alone k (k.opdata.setWidth 64) hs'
    obtain ⟨b, hb, hread⟩ := State.regAnswer_of_alone k 0 hs'
    exact ⟨⟨a, ha, congrArg _ hwrite⟩, b, hb, congrArg _ hread⟩
  case core =>
    intro st n a bytes hw hr hv hn
    rw [State.exec_stewardLoad st n a hw, State.exec_stewardStore st n a v hw, State.coreLoad_vacant bytes hr hv hn,
      State.coreDone_eq]
    exact ⟨rfl, fun ho => congrArg _ (State.coreStore_vacant_elsewhere bytes v hr hv hn ho),
      fun ho hs => ⟨_, rfl, State.coreStore_vacant_ofSet bytes v hr hv hn ho hs rfl⟩⟩
  case direct =>
    intro a bytes hw hv hc
    have hsame := State.registerWrite_vacant s bytes v hv hc
    rw [State.exec_registerWrite a v hw, State.asOne_of_shadows (by rw [hsame]), hsame]

end Sys2Proof.Machine

/-! The sign of zero in the number formats (R106): rounding to a grid of codes, the element codes of converted lines, and
zeros in the IEEE formats. -/

namespace Sys2Proof.Machine
open Sys2Proof.Safety

/-! ### The grid of magnitude codes -/

/-- A code below the first full binade is the integer itself. -/
theorem codeInt_of_lt {m c : Nat} (h : c < 2 ^ m) : codeInt m c = c := if_pos (Nat.div_eq_of_lt h)

@[simp] theorem codeInt_zero (m : Nat) : codeInt m 0 = 0 := codeInt_of_lt (Nat.two_pow_pos m)

/-- The code of significand p in binade k denotes p · 2^k. -/
theorem codeInt_significand {m p : Nat} (k : Nat) (hlo : 2 ^ m ≤ p) (hhi : p < 2 ^ (m + 1)) :
    codeInt m (k * 2 ^ m + p) = p * 2 ^ k := by
  obtain ⟨r, rfl⟩ := Nat.exists_eq_add_of_le hlo
  have hr : r < 2 ^ m := by omega
  have hc : k * 2 ^ m + (2 ^ m + r) = r + 2 ^ m * (k + 1) := by ring
  rw [hc, codeInt, Nat.add_mul_div_left _ _ (Nat.two_pow_pos m), Nat.add_mul_mod_self_left, Nat.div_eq_of_lt hr,
    Nat.mod_eq_of_lt hr]
  simp

/-- Every code is an integer below the first full binade, or a significand of m + 1 bits in a binade. -/
theorem code_cases (m c : Nat) :
    c < 2 ^ m ∨ ∃ k p, c = k * 2 ^ m + p ∧ 2 ^ m ≤ p ∧ p < 2 ^ (m + 1) := by
  refine (Nat.lt_or_ge c (2 ^ m)).imp_right fun h => ?_
  have hpos := Nat.two_pow_pos m
  obtain ⟨d, rfl⟩ := Nat.exists_eq_add_of_le h
  have hd := Nat.div_add_mod d (2 ^ m)
  have hmod := Nat.mod_lt d hpos
  rw [Nat.mul_comm] at hd
  exact ⟨d / 2 ^ m, 2 ^ m + d % 2 ^ m, by omega, by omega, by omega⟩

theorem codeInt_lt_succ (m c : Nat) : codeInt m c < codeInt m (c + 1) := by
  rcases code_cases m c with h | ⟨k, p, rfl, hlo, hhi⟩
  · rw [codeInt_of_lt h]
    rcases Nat.lt_or_ge (c + 1) (2 ^ m) with h' | h'
    · rw [codeInt_of_lt h']; omega
    · have := codeInt_significand 0 h' (by omega)
      simp only [Nat.zero_mul, Nat.zero_add, Nat.pow_zero, Nat.mul_one] at this
      omega
  · have hpos := Nat.two_pow_pos k
    rcases Nat.lt_or_ge (p + 1) (2 ^ (m + 1)) with h' | h'
    · rw [Nat.add_assoc, codeInt_significand k hlo hhi, codeInt_significand k (by omega) h']
      exact Nat.mul_lt_mul_of_pos_right (Nat.lt_succ_self p) hpos
    · have hnext : k * 2 ^ m + p + 1 = (k + 1) * 2 ^ m + 2 ^ m := by
        have : p + 1 = 2 ^ m + 2 ^ m := by omega
        rw [Nat.add_assoc, this]; ring
      calc codeInt m (k * 2 ^ m + p) = p * 2 ^ k := codeInt_significand k hlo hhi
        _ < (2 ^ m * 2) * 2 ^ k := Nat.mul_lt_mul_of_pos_right hhi hpos
        _ = 2 ^ m * 2 ^ (k + 1) := by ring
        _ = codeInt m (k * 2 ^ m + p + 1) := by rw [hnext, codeInt_significand (k + 1) le_rfl (by omega)]

theorem codeInt_strictMono (m : Nat) : StrictMono (codeInt m) := strictMono_nat_of_lt_succ (codeInt_lt_succ m)

/-- The code below q steps is q itself, or q's leading m + 1 bits in q's binade. -/
theorem floorCode_cases (m q : Nat) :
    (q < 2 ^ (m + 1) ∧ floorCode m q = q) ∨
      ∃ k, floorCode m q = k * 2 ^ m + q / 2 ^ k ∧ 2 ^ m ≤ q / 2 ^ k ∧ q / 2 ^ k < 2 ^ (m + 1) := by
  rcases Nat.lt_or_ge q (2 ^ (m + 1)) with h | h
  · exact .inl ⟨h, if_pos h⟩
  · have hq : q ≠ 0 := by have := Nat.two_pow_pos (m + 1); omega
    have hl : m + 1 ≤ Nat.log2 q := (Nat.le_log2 hq).2 h
    refine .inr ⟨Nat.log2 q - m, if_neg (by omega), ?_, ?_⟩
    · rw [Nat.le_div_iff_mul_le (Nat.two_pow_pos _), ← Nat.pow_add, Nat.add_sub_cancel' (by omega)]
      exact Nat.log2_self_le hq
    · rw [Nat.div_lt_iff_lt_mul (Nat.two_pow_pos _), ← Nat.pow_add, show m + 1 + (Nat.log2 q - m) = Nat.log2 q + 1 by omega]
      exact Nat.lt_log2_self

theorem codeInt_floorCode_le (m q : Nat) : codeInt m (floorCode m q) ≤ q := by
  rcases floorCode_cases m q with ⟨h, hc⟩ | ⟨k, hc, hlo, hhi⟩
  · rw [hc]
    rcases Nat.lt_or_ge q (2 ^ m) with h' | h'
    · exact (codeInt_of_lt h').le
    · simpa using (codeInt_significand 0 h' h).le
  · rw [hc, codeInt_significand k hlo hhi]
    exact Nat.div_mul_le_self q (2 ^ k)

theorem floorCode_eq_zero {m q : Nat} (h : floorCode m q = 0) : q = 0 := by
  rcases floorCode_cases m q with ⟨-, hc⟩ | ⟨k, hc, hlo, -⟩
  · exact hc ▸ h
  · have := Nat.two_pow_pos m
    omega

@[simp] theorem floorCode_zero (m : Nat) : floorCode m 0 = 0 := if_pos (Nat.two_pow_pos _)

/-! ### Rounding to the grid -/

/-- A rounding takes the code below, or the next where the code below is not exact. -/
theorem roundCode_cases (m f n d : Nat) (r : Rnd) :
    roundCode m f n d r = floorCode m (n * 2 ^ f / d) ∨
      roundCode m f n d r = floorCode m (n * 2 ^ f / d) + 1 ∧ codeInt m (floorCode m (n * 2 ^ f / d)) * d < n * 2 ^ f := by
  rcases Nat.lt_or_ge (codeInt m (floorCode m (n * 2 ^ f / d)) * d) (n * 2 ^ f) with h | h
  case inl =>
    -- whatever the mode, its test chooses between the two codes
    refine (?_ : _ ∨ _).imp_right fun hc => ⟨hc, h⟩
    cases r with
    | rne => exact (ite_eq_or_eq _ _ _).symm
    | sr u => exact (ite_eq_or_eq _ _ _).symm
    | up => exact ite_eq_or_eq _ _ _
  case inr =>
    have hgap := codeInt_lt_succ m (floorCode m (n * 2 ^ f / d))
    have hrest := Nat.sub_eq_zero_of_le h
    left
    cases r with
    | rne =>
      rcases Nat.eq_zero_or_pos d with rfl | hd
      · have hn : n * 2 ^ f = 0 := Nat.le_zero.1 h
        simp [roundCode, hn]
      · have := Nat.mul_pos (Nat.sub_pos_of_lt hgap) hd
        simp only [roundCode, hrest]
        exact if_neg (by omega)
    | sr u => simp [roundCode, hrest]
    | up => simp [roundCode, hrest]

/-- A magnitude not above a code's value is not rounded past that code. -/
theorem roundCode_le {m f n d c : Nat} (r : Rnd) (h : n * 2 ^ f ≤ codeInt m c * d) : roundCode m f n d r ≤ c := by
  have hq : n * 2 ^ f / d ≤ codeInt m c := Nat.div_le_of_le_mul (by rwa [Nat.mul_comm d])
  have hfloor : floorCode m (n * 2 ^ f / d) ≤ c := (codeInt_strictMono m).le_iff_le.1 ((codeInt_floorCode_le m _).trans hq)
  rcases roundCode_cases m f n d r with hc | ⟨hc, hrest⟩
  · exact hc ▸ hfloor
  · have hlt := (codeInt_strictMono m).lt_iff_lt.1 (Nat.lt_of_mul_lt_mul_right (hrest.trans_le h))
    omega

@[simp] theorem roundCode_zero (m f d : Nat) (r : Rnd) : roundCode m f 0 d r = 0 := by
  have h := roundCode_le (m := m) (f := f) (n := 0) (d := d) (c := 0) r (by simp)
  omega

/-- What rounds to zero is below the least step. -/
theorem lt_of_roundCode_eq_zero {m f n d : Nat} {r : Rnd} (hd : 0 < d) (h : roundCode m f n d r = 0) : n * 2 ^ f < d := by
  have hfloor : floorCode m (n * 2 ^ f / d) = 0 := by
    rcases roundCode_cases m f n d r with hc | ⟨hc, -⟩ <;> omega
  exact (Nat.div_eq_zero_iff_lt hd).1 (floorCode_eq_zero hfloor)

/-! ### Element codes -/

/-- The magnitude code that an element takes: rounded to its grid, at most the largest (R119, R124). -/
def eltMag (f : Nat) (v : Nat × Nat) (r : Rnd) : Nat :=
  if codeInt (eltGrid f).1 (eltMaxCode f) * v.2 < v.1 * 2 ^ (eltGrid f).2 then eltMaxCode f
  else roundCode (eltGrid f).1 (eltGrid f).2 v.1 v.2 r

/-- An element's code is zero, or its sign with its magnitude, INT8's being two's complement. -/
theorem eltCode_fst {f : Nat} (hf : f ≠ 2) (neg : Bool) (v : Nat × Nat) (r : Rnd) :
    (eltCode f neg v r).1 =
      if eltMag f v r = 0 then 0
      else if neg then (if f = 7 then 2 ^ fmtWidth f - eltMag f v r else 2 ^ (fmtWidth f - 1) + eltMag f v r)
      else eltMag f v r :=
  congrArg Prod.fst (if_neg hf)

theorem eltMag_le (f : Nat) (v : Nat × Nat) (r : Rnd) : eltMag f v r ≤ eltMaxCode f := by
  unfold eltMag
  split
  · exact le_rfl
  · next h => exact roundCode_le r (Nat.le_of_not_lt h)

/-- What rounds to zero is not clipped. -/
theorem eltMag_eq_zero {f n d : Nat} {r : Rnd} (htop : 0 < eltMaxCode f) (hd : 0 < d)
    (h : roundCode (eltGrid f).1 (eltGrid f).2 n d r = 0) : eltMag f (n, d) r = 0 := by
  have hlt : n * 2 ^ (eltGrid f).2 < d := lt_of_roundCode_eq_zero hd h
  have hpos : 1 ≤ codeInt (eltGrid f).1 (eltMaxCode f) := htop.trans_le (codeInt_strictMono _).le_apply
  have hle : d ≤ codeInt (eltGrid f).1 (eltMaxCode f) * d := Nat.le_mul_of_pos_left d hpos
  rw [eltMag, if_neg (by dsimp only; omega), h]

/-! ### The narrow block formats -/

/-- The format codes of R106's formats without a negative zero: E2M1, E2M3, E3M2, E4M3, E5M2 and INT8. -/
def narrowFormats : List Nat := [0, 1, 3, 4, 5, 6, 7, 10, 11]

/-- What the formats' tables say of each of them. -/
theorem narrowFormats_tables : ∀ f ∈ narrowFormats, f ≠ 2 ∧ lineBlocks f ≠ 0 ∧ 0 < eltMaxCode f ∧
    eltMaxCode f < 2 ^ (fmtWidth f - 1) ∧ 2 ^ fmtWidth f = 2 * 2 ^ (fmtWidth f - 1) := by decide

/-- A negative code's magnitude is not zero, and no magnitude reaches the sign bit. -/
theorem eltCode_ne_negativeZero {f : Nat} (hf : f ∈ narrowFormats) (neg : Bool) (v : Nat × Nat) (r : Rnd) :
    (eltCode f neg v r).1 ≠ 2 ^ (fmtWidth f - 1) := by
  obtain ⟨h2, -, -, htop, hw⟩ := narrowFormats_tables f hf
  have hmag := eltMag_le f v r
  rw [eltCode_fst h2]
  -- zero; INT8: 2^w − c with c below 2^(w − 1); sign and magnitude: c ≠ 0; a magnitude alone
  split_ifs <;> omega

/-- The value, if it is a zero, is +0. -/
def ZeroIsPositive (x : FV) : Prop := x.isZero = true → x.sign = false

theorem zeroIsPositive_nan : ZeroIsPositive .nan := fun _ => rfl

theorem zeroIsPositive_inf (s : Bool) : ZeroIsPositive (.inf s) := nofun

/-- A sign bit that is dropped where the magnitude is zero. -/
theorem zeroIsPositive_signMagnitude (s : Bool) (m : Nat) (e : Int) : ZeroIsPositive (.num (s && m != 0) m e) := by
  cases m with
  | zero => exact fun _ => Bool.and_false s
  | succ m => exact nofun

theorem zeroIsPositive_ofInt (n e : Int) : ZeroIsPositive (.ofInt n e) := by
  cases n with
  | ofNat n => exact fun _ => rfl
  | negSucc n => exact nofun

theorem eltValue_zeroIsPositive {f : Nat} (hf : f ∈ narrowFormats) (c : Nat) : ZeroIsPositive (eltValue f c) := by
  have e4m3 : ZeroIsPositive (eltValue 5 c) :=
    iteInduction (fun _ => zeroIsPositive_nan) fun _ => zeroIsPositive_signMagnitude _ _ _
  have e5m2 : ZeroIsPositive (eltValue 6 c) :=
    iteInduction (fun _ => zeroIsPositive_nan) fun _ =>
      iteInduction (fun _ => zeroIsPositive_inf _) fun _ => zeroIsPositive_signMagnitude _ _ _
  simp only [narrowFormats, List.mem_cons, List.not_mem_nil, or_false] at hf
  rcases hf with rfl | rfl | rfl | rfl | rfl | rfl | rfl | rfl | rfl
  exacts [zeroIsPositive_signMagnitude _ _ _, zeroIsPositive_signMagnitude _ _ _, zeroIsPositive_signMagnitude _ _ _,
    zeroIsPositive_signMagnitude _ _ _, e4m3, e5m2, zeroIsPositive_ofInt _ _, e4m3, e5m2]

/-! ### Converted lines -/

/-- What a block with an input that is not finite holds (R120). -/
theorem noNegativeZero_zeros {α : Type} (f : Nat) (xs : List α) : NoNegativeZero f (xs.map fun _ => 0) := by
  simp [NoNegativeZero]

/-- A quantised block holds zeros where its scale is zero, and otherwise the codes of its elements over its scale. -/
theorem quantise_codes (f : Nat) (isFloor : Bool) (T : FV) (xs : List FV) (r : Nat → Rnd) :
    ∃ s : FV, (quantise f isFloor T xs r).codes =
      (xs.mapIdx fun k x => if s.isZero then (0, false) else eltCode f x.sign (ratio x s) (r k)).map (·.1) := ⟨_, rfl⟩

theorem quantise_noNegativeZero {f : Nat} (hf : f ∈ narrowFormats) (isFloor : Bool) (T : FV) (xs : List FV) (r : Nat → Rnd) :
    NoNegativeZero f (quantise f isFloor T xs r).codes := by
  obtain ⟨s, hs⟩ := quantise_codes f isFloor T xs r
  rw [hs]
  intro hmem
  obtain ⟨e, he, hc⟩ := List.mem_map.1 hmem
  obtain ⟨k, hk, rfl⟩ := List.mem_mapIdx.1 he
  split at hc
  · exact absurd hc.symm (Nat.two_pow_pos _).ne'
  · exact eltCode_ne_negativeZero hf _ _ _ hc

/-- Neither the primary block nor a residual block holds a negative zero. -/
theorem convertBlock_noNegativeZero {f : Nat} (hf : f ∈ narrowFormats) (isFloor : Bool) (T : FV) (th : Option Nat)
    (xs : List FV) (r : Nat → Rnd) :
    NoNegativeZero f (convertBlock f isFloor T th xs r).1.codes ∧
      ∀ b, (convertBlock f isFloor T th xs r).2.1 = some b → NoNegativeZero f b.codes := by
  have hq := quantise_noNegativeZero hf
  unfold convertBlock
  split
  · cases th with
    | none => exact ⟨hq _ _ _ _, nofun⟩
    | some th =>
      dsimp only
      split
      · exact ⟨hq _ _ _ _, fun b hb => Option.some.inj hb ▸ hq _ _ _ _⟩
      · exact ⟨hq _ _ _ _, nofun⟩
  · exact ⟨noNegativeZero_zeros f xs, nofun⟩

/-- No code of the line so far, nor of its residual blocks, is a negative zero. -/
def LineKeepsZeroPositive (f : Nat) (o : OutLine) : Prop :=
  NoNegativeZero f o.codes ∧ ∀ b, some b ∈ o.resids → NoNegativeZero f b.codes

theorem convertLine_keepsZeroPositive {f : Nat} (hf : f ∈ narrowFormats) (isFloor : Bool) (T : FV) (th : Option Nat)
    (xs : List FV) (r : Nat → Rnd) : LineKeepsZeroPositive f (convertLine f isFloor T th xs r) := by
  obtain ⟨-, hblocks, -⟩ := narrowFormats_tables f hf
  rw [convertLine, if_neg hblocks]
  refine List.foldlRecOn _ _ ⟨by simp [NoNegativeZero], nofun⟩ fun o ⟨hcodes, hresids⟩ b _ => ?_
  obtain ⟨hc, hres⟩ := convertBlock_noNegativeZero hf isFloor T th ((xs.drop (blockLen f * b)).take (blockLen f))
    fun k => r (blockLen f * b + k)
  refine ⟨fun h => (List.mem_append.1 h).elim hcodes hc, fun x hx => (List.mem_append.1 hx).elim (hresids x) fun h => ?_⟩
  exact hres x (List.mem_singleton.1 h).symm

/-! ### Zeros in the IEEE formats -/

namespace Fl

theorem encode_zero {F : Fl} (hF : 0 < F.infCode) (s : Bool) (e : Int) (r : Rnd) :
    F.encode (.num s 0 e) r = (F.signCode s, false) := by
  simp [encode, encodeFrac, hF.ne']

theorem decode_signCode {F : Fl} (hF : 0 < F.infCode) (s : Bool) : F.decode (F.signCode s) = .num s 0 (-(F.f : Int)) := by
  cases s <;> simp [decode, signCode, hF.ne]

end Fl

/-! ### The rule -/

/-- Settles O9: a rounding to zero is never clipped, a magnitude never reaches the sign bit, and the sign alone is a zero of
that sign in the IEEE formats. -/
theorem zeroKeepsItsSignOnlyInWideFormats : Obligations.ZeroKeepsItsSignOnlyInWideFormats := by
  unfold Obligations.ZeroKeepsItsSignOnlyInWideFormats
  refine ⟨?narrow, ?wide⟩
  case narrow =>
    intro f hf
    obtain ⟨h2, -, htop, -⟩ := narrowFormats_tables f hf
    refine ⟨eltValue_zeroIsPositive hf, ?decoded, ?rounded, fun isFloor T th xs r =>
      convertLine_keepsZeroPositive hf isFloor T th xs r⟩
    case decoded => revert f; decide
    case rounded =>
      intro neg n d r hd h
      rw [eltCode_fst h2, if_pos (eltMag_eq_zero htop hd h)]
  case wide =>
    intro F hF sg r e
    have hinf : 0 < F.infCode := by revert F; decide
    rw [Fl.encode_zero hinf, Fl.decode_signCode hinf]
    exact ⟨rfl, rfl⟩

end Sys2Proof.Machine

/-! Handles of channels (R225): the word that a handle's fields make up, and what register packets read of the registers that
show other state, CAR_CH_HANDLE and GAT_CH_HANDLE among them. -/

namespace Sys2Proof.Machine
open Sys2Proof.Safety

/-! ### The layout of a handle -/

/-- The 32-bit word w has these fields of R225's table. -/
def HandleFields (w kind owner index gen : Nat) : Prop :=
  let v : W64 := BitVec.ofNat 64 w
  fld v 31 30 = kind ∧ fld v 29 15 = owner ∧ fld v 14 4 = index ∧ fld v 3 0 = gen ∧ w < 2 ^ 32

/-- A handle's fields fill its word. -/
theorem eq_of_handleFields {w kind owner index gen : Nat} (h : HandleFields w kind owner index gen) :
    w = kind * 2 ^ 30 + owner * 2 ^ 15 + index * 2 ^ 4 + gen := by
  obtain ⟨hkind, howner, hindex, hgen, hw⟩ := h
  simp only [fld, bitsOf, BitVec.toNat_ofNat] at hkind howner hindex hgen
  omega

/-- The handle of channel i of logical croft n is the word of its fields. -/
theorem Site.handle_toNat {x : Site} {n i w : Nat} (hn : x.n = some n) (hlt : n < 2 ^ 15)
    (h : HandleFields w 0 n i (x.chan i).gen.toNat) : (x.handle i).toNat = w := by
  have heq := eq_of_handleFields h
  obtain ⟨-, -, -, -, hw⟩ := h
  simp only [Site.handle, hn, Option.getD_some, Nat.mod_eq_of_lt hlt, BitVec.toNat_ofNat]
  omega

/-- The handle of context c of gate gi is the word of its fields. -/
theorem Gate.handle_toNat {g : Gate} {gi c w : Nat} (h : HandleFields w 1 (0x7000 + gi) c (g.chan c).gen.toNat) :
    (g.handle gi c).toNat = w := by
  have heq := eq_of_handleFields h
  obtain ⟨-, -, -, -, hw⟩ := h
  simp only [Gate.handle, BitVec.toNat_ofNat]
  omega

/-! ### The registers of handles in their maps -/

/-- The offset is that of the row's register, or of one of its array. -/
def Covers (d : RegDef) (o : Nat) : Prop :=
  if d.count = 1 then o = d.off else d.off ≤ o ∧ o < d.off + d.stride * d.count ∧ (o - d.off) % d.stride = 0

/-- The row of a register is the first that covers its offset. -/
theorem findReg_of_first {before after : List RegDef} {d : RegDef} {o : Nat} (hd : Covers d o)
    (hb : ∀ e ∈ before, ¬ Covers e o) : findReg (before ++ d :: after) o = some d := by
  have hcovers (e : RegDef) : (if e.count = 1 then o == e.off
      else e.off ≤ o && o < e.off + e.stride * e.count && (o - e.off) % e.stride == 0) = true ↔ Covers e o := by
    unfold Covers
    split <;> simp [and_assoc]
  refine List.find?_eq_some_iff_append.2 ⟨(hcovers d).2 hd, before, after, rfl, fun e he => ?_⟩
  simpa only [Bool.not_eq_true', Bool.not_eq_true] using mt (hcovers e).1 (hb e he)

theorem findReg_carChHandle {i : Nat} (hi : i < 8) :
    findReg croftMap (Reg.carChHandle i) = some { off := 0x1100, stride := 0x20, count := 8 } := by
  interval_cases i <;> rfl

/-- The rows before GAT_CH_HANDLE's lie below the contexts' registers, or elsewhere in a context's 0x40 bytes. -/
theorem findReg_gatChHandle {c : Nat} (hc : c < 2048) :
    findReg gateMap (Reg.gatChHandle c) = some { off := 0x1001c, stride := 0x40, count := 2048 } := by
  refine findReg_of_first (before := gatRegs.take 13) (after := gatRegs.drop 14 ++ lnkRegs) ?covers ?before
  case covers => simp [Covers, Reg.gatChHandle]; omega
  case before => simp [Covers, gatRegs, Reg.gatChHandle]; omega

/-- Register i of an array has index i. -/
theorem rowOf_nth (base : Nat) {stride count i : Nat} (hs : 0 < stride) (hi : i < count) :
    rowOf (base + stride * i) base stride count = some i := by
  have hlt : stride * i < stride * count := Nat.mul_lt_mul_of_pos_left hi hs
  simp [rowOf, hlt, hs]

theorem Site.shownReg_carChHandle (x : Site) {i : Nat} (hi : i < 8) :
    x.shownReg (Reg.carChHandle i) = some (x.handle i).toNat := by
  interval_cases i <;> rfl

theorem State.shownGate_gatChHandle (g : Gate) (gi : Nat) {c : Nat} (hc : c < 2048) :
    State.shownGate g gi (Reg.gatChHandle c) = some (g.handle gi c).toNat := by
  have hrow : rowOf (Reg.gatChHandle c) (Reg.gatChHandle 0) 0x40 2048 = some c := rowOf_nth _ (by decide) hc
  have hne : Reg.gatChHandle c ≠ Reg.gatStatus := by simp [Reg.gatChHandle, Reg.gatStatus]
  unfold State.shownGate
  simp only [if_neg hne, hrow]

/-! ### Reads of 32-bit registers that show other state -/

namespace Site
variable {x : Site} {k : Packet} {o v : Nat} {d : RegDef}

/-- A packet's access to a 32-bit register is of 4 bytes, a carter's or not. -/
theorem packetWidth_narrow (k : Packet) (hd : findReg croftMap o = some d) (hw : d.wide = false) : packetWidth k o = 4 := by
  unfold packetWidth
  rw [hd]
  split
  · rfl
  · next heq _ => cases heq; rw [hw]; rfl
  · rfl

theorem readReg_shown (hd : findReg croftMap o = some d) (hw : d.wide = false) (ho : o ≠ Reg.crfSeqStall)
    (hv : x.shownReg o = some v) : x.readReg o 4 = (x, BitVec.ofNat 64 v) := by
  unfold readReg
  simp [hd, hw, ho, hv]

theorem regReadPacket_shown (hr : x.regRefused k = none) (ho : k.offset.toNat = 0x0F000000 + o)
    (hd : findReg croftMap o = some d) (hw : d.wide = false) (hs : o ≠ Reg.crfSeqStall) (hv : x.shownReg o = some v) :
    x.regReadPacket k = x.regReply k (BitVec.ofNat 64 v) := by
  unfold regReadPacket
  simp only [hr, ho, Nat.add_sub_cancel_left, packetWidth_narrow k hd hw, readReg_shown hd hw hs hv]

end Site

namespace State
variable {s : State} {k : Packet} {o v : Nat} {d : RegDef}

/-- A gate's GAT_ block is reached by the offset in the block. -/
theorem packetPlace_gat {g : Nat} (hg : g < 28) (hdest : k.dest.toNat = 0x7000 + g) (ho : k.offset.toNat = o)
    (hlt : o < 0x40000) : packetPlace k = .gate g o := by
  have hgate : 0x7000 ≤ 0x7000 + g ∧ 0x7000 + g < 0x701C := by omega
  simp only [packetPlace, hdest, ho, if_pos hgate, if_pos hlt, Nat.add_sub_cancel_left]

/-- A packet's access to a gate's 32-bit register is of 4 bytes, a carter's or not. -/
theorem accessWidth_narrow {g : Nat} (hp : packetPlace k = .gate g o) (hd : findReg gateMap o = some d)
    (hw : d.wide = false) : accessWidth k = 4 := by
  unfold accessWidth
  split
  · rfl
  · simp [hp, placeWidth, hd, hw]

theorem readGate_shown {g : Nat} (hd : findReg gateMap o = some d) (hw : d.wide = false) (hl : (s.gate g).lost = false)
    (hv : shownGate (s.gate g) g o = some v) : s.readGate g o 4 = (s, BitVec.ofNat 64 v) := by
  unfold readGate
  simp [hd, hw, hl, hv]

/-- REG_DATA that is not of the ACTIVE steward's set goes out at once. -/
theorem regAnswer_elsewhere (s : State) (v : W64) (h : ofSet (packetPlace k) = false) :
    ∃ a, RegAnswers k a v ∧ s.regAnswer k v = { s with outq := s.outq ++ [a] } := by
  refine ⟨{ answerTo k 0x14 3 with opdata := v.setWidth 96 }, ⟨rfl, rfl, rfl, rfl, rfl, rfl⟩, ?_⟩
  simp only [regAnswer, h, Bool.false_eq_true, if_false, emit]

/-- A read of a gate's 32-bit register that shows other state answers it and changes nothing. -/
theorem regReadAt_gate_shown {g : Nat} (hn : s.packetRefused k = none) (hp : packetPlace k = .gate g o)
    (hd : findReg gateMap o = some d) (hw : d.wide = false) (hl : (s.gate g).lost = false)
    (hv : shownGate (s.gate g) g o = some v) :
    ∃ a, RegAnswers k a (BitVec.ofNat 64 v) ∧ s.regReadAt k = { s with outq := s.outq ++ [a] } := by
  obtain ⟨a, ha, hanswer⟩ := regAnswer_elsewhere (k := k) s (BitVec.ofNat 64 v) (by rw [hp]; rfl)
  refine ⟨a, ha, ?_⟩
  simp only [regReadAt, hn, hp, accessWidth_narrow hp hd hw, readPlace, readGate_shown hd hw hl hv, hanswer]

/-- A register read outside the crofts that sends no shadow record is acted on as it is, with a STANDBY partner too. -/
theorem exec_regRead_of_shadows (hk : k.wellFormed = true) (ht : InTurn s k) (hd : 26880 ≤ k.dest.toNat)
    (hs : ((s.take k).regReadAt k).shadows = s.shadows) : exec (.regRead k) s = .next ((s.take k).regReadAt k) := by
  have hnot : ¬ k.dest.toNat < 26880 := by omega
  rw [exec_regRead, execRegRead, inTurn_eq _ hk ht, asOne_of_shadows] <;> simp only [if_neg hnot, hs]

end State

/-! ### The rule -/

/-- Settles O10: each of the two registers shows the handle of its channel, and a handle is the word of its fields. -/
theorem handlesHaveTheirLayout : Obligations.HandlesHaveTheirLayout := by
  unfold Obligations.HandlesHaveTheirLayout
  intro s k w hk ht
  refine ⟨?carter, ?gate⟩
  case carter =>
    intro q n i hi hreached hlogical hn hdest hrefused ho hfields
    have hhandle : ((s.site q).handle i).toNat = w := Site.handle_toNat hlogical (by omega) hfields
    have hshown := Site.shownReg_carChHandle (s.site q) hi
    rw [hhandle] at hshown
    have hstall : Reg.carChHandle i ≠ Reg.crfSeqStall := by simp only [Reg.carChHandle, Reg.crfSeqStall]; omega
    have hoffset : k.offset.toNat = 0x0F000000 + Reg.carChHandle i := by rw [ho, Reg.carChHandle]; omega
    exact State.exec_regRead_replied hk ht hdest hreached
      (Site.regReadPacket_shown hrefused hoffset (findReg_carChHandle hi) rfl hstall hshown)
  case gate =>
    intro g c hc hdest ho hrefused hlost hfields
    have hplace : State.packetPlace k = .gate g (Reg.gatChHandle c) :=
      State.packetPlace_gat g.isLt hdest ho (by rw [Reg.gatChHandle]; omega)
    have hshown := State.shownGate_gatChHandle (s.gate g) g hc
    rw [Gate.handle_toNat hfields] at hshown
    obtain ⟨a, ha, hread⟩ :=
      State.regReadAt_gate_shown (s := s.take k) hrefused hplace (findReg_gatChHandle hc) rfl hlost hshown
    refine ⟨a, ha, ?_⟩
    rw [State.exec_regRead_of_shadows hk ht (by omega) (by rw [hread]; rfl), hread]
    rfl

end Sys2Proof.Machine

/-! Replays of a step (R267 to R269): the registers of a step controller under its updates, what shadow records and visible
actions leave of the controllers and the reports, and both outcomes of a request that would be a replay. -/

namespace Sys2Proof.Machine
open Sys2Proof.Safety

/-! ### Registers of a step controller -/

namespace Stc

theorem reg_setReg (c : Stc) (o j : Nat) (v : W64) : (c.setReg o v).reg j = if j = o then v else c.reg j :=
  Tab.get_set _ _ _ _ _
@[simp] theorem reg_setReg_same (c : Stc) (o : Nat) (v : W64) : (c.setReg o v).reg o = v := Tab.get_set_same _ _ _ _
theorem reg_setReg_ne (c : Stc) {o j : Nat} (v : W64) (h : j ≠ o) : (c.setReg o v).reg j = c.reg j := Tab.get_set_ne _ _ _ h

theorem run_toStopped (c : Stc) (held : Bool) : (c.toStopped held).run = false := by
  have hreg : (c.toStopped held).reg Reg.stcSeqCtrl = setFld (c.reg Reg.stcSeqCtrl) 0 0 0 := reg_setReg_same _ _ _
  rw [run, hreg, bit, setFld_getLsbD _ _ _ _ _ (by decide), if_pos ⟨le_rfl, le_rfl⟩, Nat.zero_testBit]

/-- STOPPED changes no register but STC_SEQ_CTRL, for RUN. -/
theorem reg_toStopped_ne (c : Stc) (held : Bool) {o : Nat} (h : o ≠ Reg.stcSeqCtrl) : (c.toStopped held).reg o = c.reg o :=
  reg_setReg_ne _ _ h

theorem run_setReg_ne (c : Stc) {o : Nat} (v : W64) (h : Reg.stcSeqCtrl ≠ o) : (c.setReg o v).run = c.run := by
  rw [run, run, reg_setReg_ne _ _ h]

/-- The registers that a new attempt of the step clears, whole or in part (R275, R295). -/
def attemptRegs : List Nat :=
  [Reg.stcNormPartLo, Reg.stcNormPartHi, Reg.stcFprintLo, Reg.stcFprintHi, Reg.stcFprintPeerLo, Reg.stcFprintPeerHi, Reg.stcMirror]

theorem reg_clearAttempt_ne (c : Stc) {o : Nat} (h : o ∉ attemptRegs) : c.clearAttempt.reg o = c.reg o := by
  simp only [attemptRegs, List.mem_cons, List.not_mem_nil, or_false, not_or] at h
  obtain ⟨hpartLo, hpartHi, hprintLo, hprintHi, hpeerLo, hpeerHi, hmirror⟩ := h
  simp only [clearAttempt, setPrint, setNum, setField, reg_setReg, if_neg hpartLo, if_neg hpartHi, if_neg hprintLo,
    if_neg hprintHi, if_neg hpeerLo, if_neg hpeerHi, if_neg hmirror]
  rfl

/-- The controller as a counted replay leaves it: a restore begins, and the attempt's sums are cleared. -/
def replaying (c : Stc) (wide : Bool) : Stc :=
  { ({ c with replays := c.replays + 1, ireplays := if wide then c.ireplays + 1 else c.ireplays } : Stc).clearAttempt with
    st := .restoring, order := 1 }

theorem run_replaying (c : Stc) (wide : Bool) : (c.replaying wide).run = c.run := by
  have hreg : (c.replaying wide).reg Reg.stcSeqCtrl = c.reg Reg.stcSeqCtrl := reg_clearAttempt_ne _ (by decide)
  rw [run, run, hreg]

end Stc

namespace State

/-! ### Changes that are shadowed -/

/-- Nothing but the step controllers and the shadow records of their changes, with their packets, differs. -/
def OnlyStcs (s t : State) : Prop :=
  t = { s with stcs := t.stcs, shadows := t.shadows, shadowNum := t.shadowNum, outq := t.outq }

theorem OnlyStcs.trans {s t u : State} (hst : OnlyStcs s t) (htu : OnlyStcs t u) : OnlyStcs s u := by
  unfold OnlyStcs at *
  rw [htu, hst]

theorem onlyStcs_setStc (s : State) (h : Nat) (c : Stc) : OnlyStcs s (s.setStc h c) := by
  unfold OnlyStcs setStc shadow
  split <;> rfl

/-- Joining the records of one input changes them, their numbers and their packets alone. -/
theorem asOne_eq (s : State) (f : State → State) :
    s.asOne f = { f s with
      shadows := (s.asOne f).shadows, shadowNum := (s.asOne f).shadowNum, outq := (s.asOne f).outq } := by
  unfold asOne
  dsimp only
  split
  · rfl
  · split
    · split <;> rfl
    · rfl

@[simp] theorem asOne_stcs (s : State) (f : State → State) : (s.asOne f).stcs = (f s).stcs := by rw [asOne_eq]
@[simp] theorem asOne_reports (s : State) (f : State → State) : (s.asOne f).reports = (f s).reports := by rw [asOne_eq]
@[simp] theorem stc_asOne (s : State) (f : State → State) (j : Nat) : (s.asOne f).stc j = (f s).stc j := by
  simp only [stc, asOne_stcs]

/-! ### Events of a step controller -/

/-- The event of a source of a holding's step controller (R380). -/
def holdingEvent (s : State) (h code : Nat) (opc : W16) : Report :=
  { source := code, loc := locHolding h, time := s.clock.now, syndrome := 0, opcode := opc, tclass := some false, chanHold := none }

/-- The kind of a holding's location. -/
theorem locHolding_kind (h : Hold) : (locHolding h).toNat / 2 ^ 28 = 9 := by
  have hlt := h.isLt
  rw [locHolding, unitCode, BitVec.toNat_ofNat, Nat.mod_eq_of_lt (by omega)]
  omega

/-- An event at a holding is the steward's own: it is kept until it is acknowledged, and no packet carries it (R382). -/
theorem raise_locHolding (s : State) (h : Hold) (code : Nat) (opc : W16) :
    s.raise code (locHolding h) 0 opc = { s with reports := s.reports ++ [s.holdingEvent h code opc] } := by
  have hmay : s.mayRaise (s.holdingEvent h code opc) = true := by
    simp only [mayRaise, holdingEvent, locHolding_kind]
  have hpackets : s.reportPackets (s.holdingEvent h code opc) = [] := by
    simp only [reportPackets, reporter, holdingEvent, locHolding_kind]
  change s.reportAll [s.holdingEvent h code opc] = _
  simp only [reportAll, List.filter_singleton, hmay, cond_true, List.flatMap_singleton, hpackets, List.append_nil]

/-- A controller that changes and raises a source: its bit and its event, and nothing else but the shadow records. -/
theorem raiseStc_setStc (s : State) (h : Hold) (c : Stc) (r bitPos code : Nat) (opc : W16) :
    ∃ u, OnlyStcs s u ∧ u.stcs = Tab.set (fun _ => ({} : Stc)) s.stcs h (c.setReg r (c.reg r ||| BitVec.ofNat 64 (2 ^ bitPos))) ∧
      (s.setStc h c).raiseStc h r bitPos code opc = { u with reports := s.reports ++ [u.holdingEvent h code opc] } := by
  refine ⟨(s.setStc h c).setStc h (c.setReg r (c.reg r ||| BitVec.ofNat 64 (2 ^ bitPos))),
    (onlyStcs_setStc s h c).trans (onlyStcs_setStc _ h _), ?_, ?_⟩
  · rw [setStc_stcs, setStc_stcs, Tab.set_set]
  · simp only [raiseStc, stc_setStc_same, raise_locHolding, setStc_reports]

/-! ### Visible actions -/

/-- The step controllers and the reports that are held. -/
def stcsReports (s : State) : List (Nat × Stc) × List Report := (s.stcs, s.reports)

theorem stcsReports_foldl {α : Type} {f : State → α → State} (hf : ∀ s a, (f s a).stcsReports = s.stcsReports) (l : List α)
    (s : State) : (l.foldl f s).stcsReports = s.stcsReports :=
  List.foldlRecOn (motive := fun t => t.stcsReports = s.stcsReports) l f rfl fun t ht a _ => (hf t a).trans ht

theorem stcsReports_abortHolding (s : State) (h cause : Nat) : (s.abortHolding h cause).stcsReports = s.stcsReports := by
  unfold abortHolding releaseStores
  refine (stcsReports_foldl ?_ _ _).trans (stcsReports_foldl ?_ _ _) <;> exact fun _ _ => rfl

theorem stcsReports_discardStep (s : State) (e : Nat × W32) : (s.discardStep e).stcsReports = s.stcsReports :=
  stcsReports_foldl (f := fun s p => s.setParish p ((s.parish p).tallyDiscard e.2)) (fun _ _ => rfl) _ s

/-- Actions that acknowledge no input change no controller and no report. -/
theorem stcsReports_perform (s : State) {d : Shadow} (h : d.acks = []) : (s.perform d).stcsReports = s.stcsReports := by
  simp only [perform, h, List.foldl_nil]
  -- the locations to isolate are in neither
  change State.stcsReports (d.discards.foldl discardStep _) = _
  rw [stcsReports_foldl stcsReports_discardStep, stcsReports_foldl fun s h => stcsReports_abortHolding s h 6]
  refine (stcsReports_foldl ?_ d.cores _).trans (stcsReports_foldl ?_ d.msgs (s.emit d.release)) <;> exact fun _ _ => rfl

theorem stcsReports_waitFor (s : State) {d : Shadow} (h : d.acks = []) : (s.waitFor d).stcsReports = s.stcsReports := by
  unfold waitFor
  split
  · rfl
  · exact stcsReports_perform s h

theorem stcsReports_publish (s : State) (ks : List Packet) (ms : List (Nat × Nat × Nat × Msg)) :
    (s.publish ks ms).stcsReports = s.stcsReports := stcsReports_waitFor s rfl

theorem stcsReports_sendNorm (s : State) (h : Nat) (replay : Bool) (v : W64) :
    (s.sendNorm h replay v).stcsReports = s.stcsReports := by
  unfold sendNorm
  dsimp only
  split
  · rfl
  · exact stcsReports_publish s _ _

/-- t0 of a restore changes the holding's own controller, and no report. -/
theorem stcsReports_startRestore (s : State) (h : Nat) :
    (s.startRestore h).stcsReports =
      (s.setStc h { (s.stc h).clearAttempt with st := .restoring, order := 1 }).stcsReports := by
  unfold startRestore stopCrofts
  rw [stcsReports_waitFor _ rfl, stcsReports_publish]

/-! ### A request that would be a replay -/

section
variable {s : State} {h : Nat} {wide notice : Bool}

/-- At LIMIT a counted replay is not made. -/
theorem replayNow_at_limit (hnew : (s.stc h).st = .restoring → notice = true)
    (hlimit : (s.stc h).field Reg.stcReplayCfg 2 0 ≤ (s.stc h).replays - (s.stc h).uncounted) :
    s.replayNow h wide notice true = (s.setStc h ((s.stc h).toStopped false)).raiseStc h Reg.stcSeqFault 1 49 := by
  have hagain : (decide ((s.stc h).st = .restoring) && !notice) = false := by simpa using hnew
  simp [replayNow, hagain, hlimit]

/-- Below LIMIT a counted replay is made: its restore begins, and no report is held or let go. -/
theorem stcsReports_replayNow (hnew : (s.stc h).st = .restoring → notice = true)
    (hlimit : (s.stc h).replays - (s.stc h).uncounted < (s.stc h).field Reg.stcReplayCfg 2 0) :
    (s.replayNow h wide notice true).stcsReports = (s.setStc h ((s.stc h).replaying wide)).stcsReports := by
  have hagain : (decide ((s.stc h).st = .restoring) && !notice) = false := by simpa using hnew
  -- the notice to the ring, where one goes out, changes no controller
  have hnotice : (if (wide && !notice) = true then s.sendNorm h true 0x7FF8000000000000 else s).stcsReports = s.stcsReports := by
    split
    · exact stcsReports_sendNorm s h true _
    · rfl
  unfold replayNow
  simp only [hagain, Nat.not_le.2 hlimit, and_false, if_false, Bool.true_or, if_true, Bool.false_eq_true]
  generalize (if (wide && !notice) = true then s.sendNorm h true 0x7FF8000000000000 else s) = u at hnotice ⊢
  obtain ⟨hstcs, hreports⟩ := Prod.mk.inj hnotice
  have hstc : u.stc h = s.stc h := by rw [stc, stc, hstcs]
  rw [stcsReports_startRestore, stc_setStc_same, hstc]
  simp only [stcsReports, setStc_stcs, setStc_reports, Tab.set_set, hstcs, hreports]
  rfl

end

/-- A request that would be a replay asks for one, and no restore starts again. -/
theorem replay_of_wouldReplay {s : State} {h : Nat} {ask : ReplayAsk} (hask : WouldReplay s h ask) :
    s.replay h ask = s.replayNow h (ask = .notice || (s.stc h).horizon) (ask = .notice) true := by
  obtain ⟨⟨hactive, hholding⟩, hstays, hacts, -⟩ := hask
  simp [replay, acts, hactive, hholding, hstays, hacts]

end State

/-! ### The rule -/

/-- Settles O11: a counted replay at LIMIT only stops the controller and raises its source, and below LIMIT it only begins a
restore; the actions of the restore touch no controller and no report. -/
theorem replaysStopAtTheirLimit : Obligations.ReplaysStopAtTheirLimit := by
  unfold Obligations.ReplaysStopAtTheirLimit
  intro h s ask hask c
  have hreplay := State.replay_of_wouldReplay hask
  obtain ⟨-, -, -, hnotice⟩ := hask
  have hnew : (s.stc h).st = .restoring → decide (ask = .notice) = true := fun hst => decide_eq_true (hnotice hst)
  refine ⟨fun hlimit => ?stopped, fun hlimit => ?restoring⟩
  case stopped =>
    obtain ⟨u, honly, hstcs, hraise⟩ := State.raiseStc_setStc s h (c.toStopped false) Reg.stcSeqFault 1 49 0
    rw [State.replayNow_at_limit hnew hlimit, hraise] at hreplay
    have hstc (j : Nat) : (s.asOne fun s => s.replay h ask).stc j = u.stc j := by rw [State.stc_asOne, hreplay]; rfl
    have hown : u.stc h = (c.toStopped false).setReg Reg.stcSeqFault ((c.toStopped false).reg Reg.stcSeqFault ||| 2) := by
      rw [State.stc, hstcs]; exact Tab.get_set_same _ _ _ _
    refine ⟨_, u.holdingEvent h 49 0, rfl, ?_, ?_, ?_, ?_, fun j hj => ?_, ?_, rfl, rfl⟩
    · rw [hstc, hown]; rfl
    · rw [hstc, hown, Stc.run_setReg_ne _ _ (by decide), Stc.run_toStopped]
    · rw [hstc, hown, Stc.reg_setReg_same, Stc.reg_toStopped_ne _ _ (by decide)]
    · rw [hstc, hown]; rfl
    · rw [hstc, State.stc, hstcs]; exact Tab.get_set_ne _ _ _ hj
    · unfold State.OnlyStcs at honly
      rw [State.asOne_eq, hreplay, honly]
  case restoring =>
    have hafter := State.stcsReports_replayNow (wide := ask = .notice || c.horizon) hnew hlimit
    rw [← hreplay] at hafter
    obtain ⟨hstcs, hreports⟩ := Prod.mk.inj hafter
    have hown : (s.asOne fun s => s.replay h ask).stc h = c.replaying (ask = .notice || c.horizon) := by
      rw [State.stc_asOne, State.stc, hstcs]; exact State.stc_setStc_same _ _ _
    refine ⟨_, rfl, ?_, ?_, ?_, ?_, ?_⟩
    · rw [hown]; rfl
    · rw [hown]; rfl
    · rw [hown]; rfl
    · rw [hown, Stc.run_replaying]
    · rw [State.asOne_reports, hreports, State.setStc_reports]

end Sys2Proof.Machine

/-! Messages that ports serve, and answers of the stores (R313 to R315, R324): what a gate's ports send leaves of the gate,
requests that go out and those that wait, and a failed request's channels, which try again or drain. -/

namespace Sys2Proof.Machine
open Sys2Proof.Safety

/-! ### A gate's units under their updates -/

namespace Gate

theorem port_setPort (g : Gate) (i j : Nat) (p : Port) : (g.setPort i p).port j = if j = i then p else g.port j :=
  Tab.get_set _ _ _ _ _
theorem lane_setLane (g : Gate) (i j : Nat) (v : Lane) : (g.setLane i v).lane j = if j = i then v else g.lane j :=
  Tab.get_set _ _ _ _ _
theorem chan_setChan (g : Gate) (i j : Nat) (v : Chan) : (g.setChan i v).chan j = if j = i then v else g.chan j :=
  Tab.get_set _ _ _ _ _
theorem reg_setReg_ne (g : Gate) {o j : Nat} (v : W64) (h : j ≠ o) : (g.setReg o v).reg j = g.reg j := Tab.get_set_ne _ _ _ h

@[simp] theorem chan_dropUnsent (g : Gate) (c j : Nat) : (g.dropUnsent c).chan j = g.chan j := rfl

/-! ### What ports send (R303, R306, R308, R326) -/

/-- What a port is apart from its traffic: its state, the messages that wait at it, its partner and its cable. -/
def SamePort (p q : Port) : Prop :=
  q.st = p.st ∧ q.rx = p.rx ∧ q.caps = p.caps ∧ q.powered = p.powered ∧ q.cable = p.cable

theorem SamePort.refl (p : Port) : SamePort p p := ⟨rfl, rfl, rfl, rfl, rfl⟩

theorem SamePort.trans {p q r : Port} (hpq : SamePort p q) (hqr : SamePort q r) : SamePort p r := by
  obtain ⟨hst, hrx, hcaps, hpowered, hcable⟩ := hpq
  obtain ⟨kst, krx, kcaps, kpowered, kcable⟩ := hqr
  exact ⟨kst.trans hst, krx.trans hrx, kcaps.trans hcaps, kpowered.trans hpowered, kcable.trans hcable⟩

/-- Gate b is gate a after traffic of its ports and lanes, none of which has changed its state. -/
structure Transmits (a b : Gate) : Prop where
  only : b = { a with ports := b.ports, lanes := b.lanes }
  port (k : Nat) : SamePort (a.port k) (b.port k)
  lane (l : Nat) : (b.lane l).st = (a.lane l).st

theorem Transmits.refl (a : Gate) : Transmits a a := ⟨rfl, fun _ => .refl _, fun _ => rfl⟩

theorem Transmits.trans {a b c : Gate} (hab : Transmits a b) (hbc : Transmits b c) : Transmits a c :=
  ⟨by rw [hbc.only, hab.only], fun k => (hab.port k).trans (hbc.port k), fun l => (hbc.lane l).trans (hab.lane l)⟩

theorem transmits_setPort {g : Gate} {k : Nat} {p : Port} (hp : SamePort (g.port k) p) : Transmits g (g.setPort k p) := by
  refine ⟨rfl, fun j => ?_, fun _ => rfl⟩
  rw [port_setPort]
  split
  · next h => rw [h]; exact hp
  · exact .refl _

theorem transmits_setLane {g : Gate} {l : Nat} {v : Lane} (hv : v.st = (g.lane l).st) : Transmits g (g.setLane l v) := by
  refine ⟨rfl, fun _ => .refl _, fun j => ?_⟩
  rw [lane_setLane]
  split
  · next h => rw [h]; exact hv
  · rfl

theorem transmits_transmit (g : Gate) (l : Nat) (h : FrameHdr) (cvc : Nat) (b : List Byte) :
    Transmits g (g.transmit l h cvc b) := transmits_setLane rfl

theorem transmits_sendOn (g : Gate) (l : Nat) (t : TxFrame) : Transmits g (g.sendOn l t) := by
  unfold sendOn
  dsimp only
  split
  · exact transmits_setLane rfl
  · exact .trans (transmits_setLane (by rfl)) (transmits_transmit _ _ _ _ _)

theorem transmits_sendData (g : Gate) (k vc : Nat) (f : Nat × List Byte) : Transmits g (g.sendData k vc f) := by
  unfold sendData
  split
  · exact .refl _
  · refine .trans ?_ (transmits_sendOn _ _ _)
    exact transmits_setPort ⟨rfl, rfl, rfl, rfl, rfl⟩

theorem transmits_sendAll (g : Gate) (k vc : Nat) (fs : List (Nat × List Byte)) :
    Transmits g (fs.foldl (fun g f => g.sendData k vc f) g) :=
  List.foldlRecOn (motive := Transmits g) fs _ (.refl g) fun _ hb f _ => hb.trans (transmits_sendData _ _ _ f)

/-- The arbiter changes its deficits and its turn alone. -/
theorem samePort_of_pick {g : Gate} {k : Nat} {p : Port} {e : Nat × Nat × Msg} (h : g.pick k = some (p, e)) :
    SamePort (g.port k) p := by
  unfold pick at h
  dsimp only at h
  split at h
  · cases h; exact .refl _
  · cases h; exact .refl _
  · split at h
    · obtain ⟨_, -, he⟩ := Option.map_eq_some_iff.1 h
      cases he; exact .refl _
    · split at h
      · cases h
      · cases h; exact ⟨rfl, rfl, rfl, rfl, rfl⟩

theorem transmits_pump (k fuel : Nat) (g : Gate) : Transmits g (pump k fuel g) := by
  induction fuel generalizing g with
  | zero => exact .refl _
  | succ fuel ih =>
    unfold pump
    split
    · exact .refl _
    · split
      · exact .refl _
      · next p e hpick =>
        dsimp only
        split
        · exact .refl _
        · have hport := samePort_of_pick hpick
          refine .trans (.trans ?_ (transmits_sendAll _ _ _ _)) (ih _)
          exact transmits_setPort hport

theorem transmits_post (g : Gate) (k vc hold : Nat) (m : Msg) : Transmits g (g.post k vc hold m) := by
  refine .trans ?_ (transmits_pump _ _ _)
  exact transmits_setPort ⟨rfl, rfl, rfl, rfl, rfl⟩

/-! ### Requests that go out (R314, R325) -/

/-- Gate b is gate a with held requests of its own gone out; what its other requests are, they stay. -/
structure Releases (a b : Gate) : Prop where
  sendsOn : SendsOn a b
  store (x : StoreReq) : x ∈ a.store → x.heldBack = false → x ∈ b.store

theorem sendsOn_refl (a : Gate) : SendsOn a a :=
  ⟨rfl, rfl, rfl, rfl, fun _ _ => rfl, fun _ => SamePort.refl _, fun _ => rfl⟩

theorem sendsOn_trans {a b c : Gate} (hab : SendsOn a b) (hbc : SendsOn b c) : SendsOn a c := by
  obtain ⟨hlost, hchans, hbuffered, hdiscarded, hreg, hport, hlane⟩ := hab
  obtain ⟨klost, kchans, kbuffered, kdiscarded, kreg, kport, klane⟩ := hbc
  exact ⟨klost.trans hlost, kchans.trans hchans, kbuffered.trans hbuffered, kdiscarded.trans hdiscarded,
    fun o ho => (kreg o ho).trans (hreg o ho), fun k => SamePort.trans (hport k) (kport k),
    fun l => (klane l).trans (hlane l)⟩

theorem Releases.refl (a : Gate) : Releases a a := ⟨sendsOn_refl a, fun _ hx _ => hx⟩

theorem Releases.trans {a b c : Gate} (hab : Releases a b) (hbc : Releases b c) : Releases a c :=
  ⟨sendsOn_trans hab.sendsOn hbc.sendsOn, fun x hx hsent => hbc.store x (hab.store x hx hsent) hsent⟩

theorem Releases.chan {a b : Gate} (h : Releases a b) (c : Nat) : b.chan c = a.chan c := by
  obtain ⟨-, hchans, -⟩ := h.sendsOn
  rw [Gate.chan, Gate.chan, hchans]

theorem releases_of_transmits {a b : Gate} (h : Transmits a b) : Releases a b := by
  obtain ⟨heq, hport, hlane⟩ := h
  have hstore : b.store = a.store := by rw [heq]
  exact ⟨⟨by rw [heq], by rw [heq], by rw [heq], by rw [heq], fun _ _ => by rw [heq]; rfl, hport, hlane⟩,
    fun x hx _ => hstore ▸ hx⟩

/-- A change of nothing but the requests, which keeps those that are not held back. -/
theorem releases_of_requests {a b : Gate}
    (heq : b = { a with nextTag := b.nextTag, store := b.store, merger := b.merger, waiting := b.waiting })
    (hstore : ∀ x ∈ a.store, x.heldBack = false → x ∈ b.store) : Releases a b := by
  have hsame : SendsOn a { a with nextTag := b.nextTag, store := b.store, merger := b.merger, waiting := b.waiting } :=
    sendsOn_refl a
  exact ⟨heq ▸ hsame, hstore⟩

theorem tagged_fst (g : Gate) (r : StoreReq) : (g.tagged r).1 = { g with nextTag := (g.tagged r).1.nextTag } := by
  unfold tagged
  split <;> rfl

/-- A new tag changes nothing else of a request. -/
theorem tagged_snd (g : Gate) (r : StoreReq) :
    (g.tagged r).2 = { r with tag := (g.tagged r).2.tag, msg := (g.tagged r).2.msg } := by
  unfold tagged
  split <;> rfl

theorem releases_hold (g : Gate) (port : Nat) (m : Msg) (parts : List (Nat × Nat × Nat)) (first : Bool) :
    Releases g (g.hold port m parts first) := by
  unfold hold
  dsimp only
  rw [tagged_fst]
  refine releases_of_requests rfl fun x hx _ => ?_
  dsimp only
  split
  · exact List.mem_cons_of_mem _ hx
  · exact List.mem_append_left _ hx

theorem releases_sendGroup (g : Gate) (i : Nat) : Releases g (g.sendGroup i) := by
  unfold sendGroup
  split
  · exact .refl g
  · refine .trans ?_ (releases_hold _ _ _ _ _)
    exact releases_of_requests rfl fun _ hx _ => hx

/-- A join is counted, in a register that SendsOn leaves free. -/
theorem releases_countMerged (g : Gate) (n : Nat) : Releases g (g.count Reg.gatMerged n) :=
  ⟨⟨rfl, rfl, rfl, rfl, fun _ ho => reg_setReg_ne _ _ ho, fun _ => SamePort.refl _, fun _ => rfl⟩, fun _ hx _ => hx⟩

theorem releases_join (g : Gate) (r : MergeGroup) : Releases g (g.join r) := by
  unfold join
  split
  · split
    · exact .refl g
    · next m _ =>
      have hjoined (ms : List MergeGroup) : Releases g ({ g with merger := ms }.count Reg.gatMerged 1) := by
        refine .trans ?_ (releases_countMerged _ _)
        exact releases_of_requests rfl fun _ hx _ => hx
      dsimp only
      split
      · exact (hjoined _).trans (releases_sendGroup _ _)
      · exact hjoined _
  · exact releases_of_requests rfl fun _ hx _ => hx

theorem releases_rangeRead (g : Gate) (far : List (W64 × StoreReq)) (r : MergeGroup) : Releases g (g.rangeRead far r) := by
  unfold rangeRead
  split
  · exact releases_hold _ _ _ _ _
  · split
    · exact releases_of_requests rfl fun _ hx _ => hx
    · exact releases_join g r

/-- A request of the list other than the one at a place stays when that one is replaced. -/
theorem mem_set_of_getElem? {l : List StoreReq} {i : Nat} {r x : StoreReq} (hr : l[i]? = some r) (hx : x ∈ l) (hne : x ≠ r)
    (y : StoreReq) : x ∈ l.set i y := by
  obtain ⟨j, hj⟩ := List.mem_iff_getElem?.1 hx
  have hij : i ≠ j := fun h => hne (by rw [h, hj] at hr; exact Option.some.inj hr)
  exact List.mem_iff_getElem?.2 ⟨j, by rw [List.getElem?_set_ne hij, hj]⟩

/-- The held request at a place goes out, under a tag that it has or takes. -/
theorem releases_sent {g : Gate} {i : Nat} {r : StoreReq} (hr : g.store[i]? = some r) (hheld : r.heldBack = true)
    (n : Nat) (y : StoreReq) : Releases g { g with nextTag := n, store := g.store.set i y } := by
  refine releases_of_requests rfl fun x hx hsent => mem_set_of_getElem? hr hx ?_ y
  rintro rfl
  exact Bool.false_ne_true (hsent.symm.trans hheld)

theorem heldBack_of_sendable {g : Gate} {far : List (W64 × StoreReq)} {i : Nat} {r : StoreReq}
    (h : g.sendable far i r = true) : r.heldBack = true := by
  by_contra hsent
  simp [sendable, hsent] at h

theorem releases_releaseFrom (far : List (W64 × StoreReq)) (i fuel : Nat) (g : Gate) :
    Releases g (releaseFrom far i fuel g) := by
  induction fuel generalizing i g with
  | zero => exact .refl g
  | succ fuel ih =>
    unfold releaseFrom
    split
    · exact .refl g
    · next r hr =>
      split
      · next hsend =>
        refine .trans (.trans ?_ (releases_of_transmits (transmits_post _ _ _ _ _))) (ih _ _)
        have hheld := heldBack_of_sendable hsend
        split
        · exact releases_sent hr hheld g.nextTag _
        · rw [tagged_fst]
          exact releases_sent hr hheld _ _
      · exact ih _ _

theorem releases_release (g : Gate) (far : List (W64 × StoreReq)) : Releases g (g.release far) := by
  refine .trans ?_ (releases_releaseFrom _ _ _ _)
  refine List.foldlRecOn (motive := Releases g) _ _ ?_ fun _ hb r _ => hb.trans (releases_rangeRead _ far r)
  exact releases_of_requests rfl fun _ hx _ => hx

end Gate

namespace State

/-- Nothing but the gates differs, and every gate but g at most sends on what it held. -/
structure GatesGoOn (g : Nat) (s t : State) : Prop where
  only : t = { s with gates := t.gates }
  sendsOn (j : Nat) : j ≠ g → SendsOn (s.gate j) (t.gate j)

section
variable {g : Nat} {s t u : State}

theorem GatesGoOn.trans (hst : GatesGoOn g s t) (htu : GatesGoOn g t u) : GatesGoOn g s u :=
  ⟨by rw [htu.only, hst.only], fun j hj => Gate.sendsOn_trans (hst.sendsOn j hj) (htu.sendsOn j hj)⟩

theorem gatesGoOn_refl (g : Nat) (s : State) : GatesGoOn g s s := ⟨rfl, fun _ _ => Gate.sendsOn_refl _⟩

theorem gatesGoOn_setGate (s : State) (g : Nat) (v : Gate) : GatesGoOn g s (s.setGate g v) :=
  ⟨rfl, fun j hj => by rw [gate_setGate_ne _ _ hj]; exact Gate.sendsOn_refl _⟩

theorem GatesGoOn.onlyGate (h : GatesGoOn g s t) : OnlyGate g s t := by
  obtain ⟨heq, hsends⟩ := h
  have hclock : t.clock = s.clock := by rw [heq]
  have hstcs (j : Nat) : t.stc j = s.stc j := by rw [heq]; rfl
  refine ⟨hsends, .inl hclock, fun j => ?_, by rw [heq]⟩
  rw [hstcs j]
  exact ⟨rfl, id, fun _ _ _ => rfl⟩

theorem GatesGoOn.reports (h : GatesGoOn g s t) : t.reports = s.reports := by rw [h.only]

end

theorem releases_gate_modGate {f : Gate → Gate} (s : State) (i j : Nat) (hf : Gate.Releases (s.gate i) (f (s.gate i))) :
    Gate.Releases (s.gate j) ((s.modGate i f).gate j) := by
  unfold modGate
  rw [gate_setGate]
  split
  · next h => rw [h]; exact hf
  · exact .refl _

/-- Held requests that go out change the gates alone, and each gate by what it sends on. -/
theorem releaseStores_spec (s : State) :
    s.releaseStores = { s with gates := s.releaseStores.gates } ∧
      ∀ j, Gate.Releases (s.gate j) (s.releaseStores.gate j) := by
  unfold releaseStores
  refine List.foldlRecOn (motive := fun t : State => t = { s with gates := t.gates } ∧ ∀ j, Gate.Releases (s.gate j) (t.gate j)) _ _
    ⟨rfl, fun _ => .refl _⟩ fun t ht i _ => ?_
  obtain ⟨heq, hgates⟩ := ht
  refine ⟨?_, fun j => (hgates j).trans (releases_gate_modGate t i j (Gate.releases_release _ _))⟩
  rw [heq]
  rfl

theorem gatesGoOn_releaseStores (g : Nat) (s : State) : GatesGoOn g s s.releaseStores :=
  ⟨(releaseStores_spec s).1, fun j _ => ((releaseStores_spec s).2 j).sendsOn⟩

/-! ### Messages that a port serves (R313) -/

section
variable {s : State} {g k vc : Nat} {m : Msg}

theorem atPort_serves (h : AtPort s g k vc m) (act : State → State) : s.atPort g k vc m act = act (msgTaken s g k m) := by
  unfold atPort msgTaken
  by_cases hwaits : m ∈ ((s.gate g).port k).rx
  · simp only [List.contains_eq_mem, hwaits, decide_true, if_true]
    rfl
  · obtain ⟨hup, hcarries⟩ := h.resolve_left hwaits
    simp [hwaits, hup, hcarries]

/-- A message taken from a port is gone from those that wait there, and nothing else of the gate changes. -/
theorem gate_msgTaken (s : State) (g k : Nat) (m : Msg) :
    (msgTaken s g k m).gate g = { s.gate g with ports := ((msgTaken s g k m).gate g).ports } := by
  unfold msgTaken
  split
  · rw [gate_setGate_same]
    rfl
  · rfl

theorem gatesGoOn_msgTaken (s : State) (g k : Nat) (m : Msg) : GatesGoOn g s (msgTaken s g k m) := by
  unfold msgTaken
  split
  · exact gatesGoOn_setGate s g _
  · exact gatesGoOn_refl g s

theorem permOut_msgTaken (s : State) (g k : Nat) (m : Msg) :
    (((msgTaken s g k m).gate g).port k).permOut = ((s.gate g).port k).permOut := by
  unfold msgTaken
  split
  · rw [gate_setGate_same, Gate.port_setPort, if_pos rfl]
  · rfl

@[simp] theorem store_msgTaken (s : State) (g k : Nat) (m : Msg) : ((msgTaken s g k m).gate g).store = (s.gate g).store := by
  rw [gate_msgTaken]

theorem setGate_msgTaken (s : State) (g k : Nat) (m : Msg) (v : Gate) : (msgTaken s g k m).setGate g v = s.setGate g v := by
  unfold msgTaken
  split
  · exact setGate_setGate _ _ _ _
  · rfl

theorem countDiscard_msgTaken (s : State) (g k : Nat) (m : Msg) :
    (msgTaken s g k m).countDiscard g =
      s.setGate g { (msgTaken s g k m).gate g with discarded := (s.gate g).discarded + 1 } := by
  have hcount : ((msgTaken s g k m).gate g).discarded = (s.gate g).discarded := by rw [gate_msgTaken]
  rw [← hcount]
  exact setGate_msgTaken s g k m _

/-! ### The request that a response answers (R315) -/

theorem answered_msgTaken (s : State) (g k : Nat) (m : Msg) (ops : List Nat) :
    (msgTaken s g k m).answered g k m ops = s.answered g k m ops := by
  unfold answered
  rw [store_msgTaken]

/-- A request is found under its tag, its port and the operations that the response answers, where it has been sent. -/
theorem answered_of_outstanding {r : StoreReq} {ops : List Nat} (h : Outstanding s g k m r ops) :
    s.answered g k m ops = some r := by
  obtain ⟨l, e, hstore, htag, hport, hbackoff, hheld, hop, hbefore⟩ := h
  refine List.find?_eq_some_iff_append.2 ⟨?_, l, e, hstore, fun q hq => ?_⟩
  · simp [htag, hport, Gate.sentReq, hbackoff, hheld, hop]
  · have htag' : q.tag ≠ m.tag.toNat := htag ▸ hbefore q hq
    simp [htag']

theorem answered_eq_none {ops : List Nat} (h : ∀ r ∈ (s.gate g).store, r.tag = m.tag.toNat →
    r.port ≠ k ∨ r.backoff = true ∨ r.heldBack = true ∨ r.msg.op.toNat ∉ ops) : s.answered g k m ops = none := by
  refine List.find?_eq_none.2 fun r hr hmatch => ?_
  simp only [Gate.sentReq, Bool.and_eq_true, beq_iff_eq, Bool.not_eq_true', List.contains_eq_mem, decide_eq_true_eq] at hmatch
  obtain ⟨⟨⟨htag, hport⟩, hheld, hbackoff⟩, hop⟩ := hmatch
  rcases h r hr htag with h | h | h | h
  · exact h hport
  · exact Bool.false_ne_true (hbackoff.symm.trans h)
  · exact Bool.false_ne_true (hheld.symm.trans h)
  · exact h hop

end

/-! ### Tries that wait (R315, R324, R325) -/

/-- Gate b is gate a with further requests of running channels waiting: registers and the channels' states are as before. -/
structure QueuesTries (a b : Gate) : Prop where
  regs : b.regs = a.regs
  st (c : Nat) : (b.chan c).st = (a.chan c).st
  store (x : StoreReq) : x ∈ a.store → x ∈ b.store

theorem QueuesTries.refl (a : Gate) : QueuesTries a a := ⟨rfl, fun _ => rfl, fun _ hx => hx⟩

theorem QueuesTries.trans {a b c : Gate} (hab : QueuesTries a b) (hbc : QueuesTries b c) : QueuesTries a c :=
  ⟨hbc.regs.trans hab.regs, fun c => (hbc.st c).trans (hab.st c), fun x hx => hbc.store x (hab.store x hx)⟩

theorem QueuesTries.retryLimit {a b : Gate} (h : QueuesTries a b) : b.retryLimit = a.retryLimit := by
  simp only [Gate.retryLimit, Gate.field, Gate.reg, h.regs]

theorem queuesTries_append (a : Gate) (n : Nat) (x : StoreReq) :
    QueuesTries a { a with nextTag := n, store := a.store ++ [x] } :=
  ⟨rfl, fun _ => rfl, fun _ hx => List.mem_append_left _ hx⟩

theorem queuesTries_setChan (a : Gate) (c : Nat) (v : Chan) (h : v.st = (a.chan c).st) : QueuesTries a (a.setChan c v) := by
  refine ⟨rfl, fun j => ?_, fun _ hx => hx⟩
  rw [Gate.chan_setChan]
  split
  · next hj => rw [hj]; exact h
  · rfl

/-- A try under the tag that it has, or the next free one. -/
theorem retryOf_tagged (a : Gate) {r x : StoreReq} {p : Nat × Nat × Nat} (hx : RetryOf r x p) (again : Bool) :
    ∃ n y, (if again then a.tagged x else (a, x)) = ({ a with nextTag := n }, y) ∧ RetryOf r y p := by
  cases again with
  | false => exact ⟨a.nextTag, x, rfl, hx⟩
  | true =>
    refine ⟨_, (a.tagged x).2, Prod.ext (Gate.tagged_fst a x) rfl, ?_⟩
    rw [Gate.tagged_snd]
    exact hx

section
variable {g : Nat} {r : StoreReq} {cause code : Nat}

/-- A part of a running channel, with retries left, waits for its backoff. -/
theorem failPart_retry (s : State) {p : Nat × Nat × Nat} (hrun : ((s.gate g).chan p.1).st = .run)
    (hleft : r.retries < (s.gate g).retryLimit) :
    ∃ v, s.failPart g r p cause code true false = s.setGate g v ∧ QueuesTries (s.gate g) v ∧ ∃ x ∈ v.store, RetryOf r x p := by
  unfold failPart
  dsimp only
  rw [if_neg (by simp [hrun]), if_neg (by simp [hrun]), if_neg (by simp [hleft])]
  obtain ⟨n, x, htry, hx⟩ := retryOf_tagged (s.gate g) (r := r) (p := p)
    (x := { r with
      msg := if r.parts.length ≤ 1 then r.msg else { r.msg with addr := BitVec.ofNat 48 p.2.1, arg0 := BitVec.ofNat 32 p.2.2 }
      parts := [p], retries := r.retries + 1, backoff := !false, heldBack := false
      got := if r.parts.length ≤ 1 then r.got else 0 })
    ⟨rfl, rfl, rfl, rfl, rfl⟩ ((s.gate g).store.any fun o => o.tag == r.tag)
  rw [htry]
  refine ⟨_, rfl, ?_⟩
  have hqueued := queuesTries_append (s.gate g) n x
  have hmem : x ∈ (s.gate g).store ++ [x] := List.mem_append_right _ (List.mem_singleton_self x)
  split
  · exact ⟨hqueued.trans (queuesTries_setChan _ _ _ rfl), x, hmem, hx⟩
  · exact ⟨hqueued, x, hmem, hx⟩

/-- Every part of a request of running channels waits for another try of its own. -/
theorem failParts_retry (s : State) (ps : List (Nat × Nat × Nat)) (a : Gate) (hrun : ∀ p ∈ ps, (a.chan p.1).st = .run)
    (hleft : r.retries < a.retryLimit) :
    ∃ v, ps.foldl (fun s p => s.failPart g r p cause code true false) (s.setGate g a) = s.setGate g v ∧
      QueuesTries a v ∧ ∀ p ∈ ps, ∃ x ∈ v.store, RetryOf r x p := by
  induction ps generalizing a with
  | nil => exact ⟨a, rfl, .refl a, fun _ hp => absurd hp List.not_mem_nil⟩
  | cons p ps ih =>
    have hgate := gate_setGate_same s g a
    obtain ⟨b, hfirst, hqueued, x, hx, htry⟩ := failPart_retry (g := g) (r := r) (cause := cause) (code := code) (s.setGate g a)
      (p := p) (by rw [hgate]; exact hrun p List.mem_cons_self) (by rw [hgate]; exact hleft)
    rw [hgate] at hqueued
    obtain ⟨v, hrest, kqueued, htries⟩ := ih b
      (fun q hq => (hqueued.st q.1).trans (hrun q (List.mem_cons_of_mem p hq))) (by rw [hqueued.retryLimit]; exact hleft)
    refine ⟨v, by rw [List.foldl_cons, hfirst, setGate_setGate, hrest], hqueued.trans kqueued, fun q hq => ?_⟩
    rcases List.mem_cons.1 hq with rfl | hq
    · exact ⟨x, kqueued.store x hx, htry⟩
    · exact htries q hq

/-- A store request that may be tried again: each part waits for its own try, and its channels run on. -/
theorem failStore_retry (s : State) (hrun : ∀ p ∈ r.parts, ((s.gate g).chan p.1).st = .run)
    (hleft : r.retries < (s.gate g).retryLimit) :
    let t := s.failStore g r cause code true false
    GatesGoOn g s t ∧ ∀ p ∈ r.parts, ((t.gate g).chan p.1).st = .run ∧ ∃ x ∈ (t.gate g).store, RetryOf r x p := by
  obtain ⟨v, hparts, hqueued, htries⟩ := failParts_retry (g := g) (r := r) (cause := cause) (code := code) s r.parts
    { s.gate g with store := (s.gate g).store.erase r } hrun hleft
  have ht : s.failStore g r cause code true false = (s.setGate g v).releaseStores := by
    rw [← hparts]
    rfl
  have hgate := (releaseStores_spec (s.setGate g v)).2 g
  rw [gate_setGate_same] at hgate
  intro t
  rw [show t = _ from ht]
  refine ⟨(gatesGoOn_setGate s g v).trans (gatesGoOn_releaseStores g _), fun p hp => ?_⟩
  obtain ⟨x, hx, htry⟩ := htries p hp
  have ⟨_, _, _, hsent, _⟩ := htry
  exact ⟨by rw [hgate.chan, hqueued.st]; exact hrun p hp, x, hgate.store x hx hsent, htry⟩

/-! ### Channels that drain (R315, R324) -/

@[simp] theorem chan_raiseGate (s : State) (gi b code : Nat) (opc : W16) (syn : W64) (cls : Bool) (hold : Option Nat)
    (c : Nat) : ((s.raiseGate gi b code opc syn cls hold).gate gi).chan c = (s.gate gi).chan c := by
  change ((s.setGate gi _).gate gi).chan c = _
  rw [gate_setGate_same]
  rfl

/-- A running channel that is halted drains, and no other channel changes. -/
theorem chan_haltGate {s : State} {gi i : Nat} (hrun : ((s.gate gi).chan i).st = .run) (cause : Nat) (code : Byte) (used : Nat)
    (opc : W16) (c : Nat) : ((s.haltGate gi i cause code used opc).gate gi).chan c =
      if c = i then ((s.gate gi).chan i).stop cause code used false else (s.gate gi).chan c := by
  unfold haltGate
  dsimp only
  rw [if_pos hrun, chan_raiseGate, gate_setGate_same, Gate.chan_dropUnsent, Gate.chan_setChan]

/-- A part that may not be tried again halts its channel, where that runs; every other channel is left as it is. -/
theorem chan_failPart_refused (s : State) (p : Nat × Nat × Nat) (hcause : cause ≠ 4) (c : Nat) :
    ((s.failPart g r p cause code false false).gate g).chan c =
      if c = p.1 ∧ ((s.gate g).chan c).st = .run then
        ((s.gate g).chan c).stop cause (BitVec.ofNat 8 code) r.retries false
      else (s.gate g).chan c := by
  by_cases hrun : ((s.gate g).chan p.1).st = .run
  · have hhalts : s.failPart g r p cause code false false =
        s.haltGate g p.1 cause (BitVec.ofNat 8 code) r.retries (msgOpcode r.msg) := by
      simp [failPart, hrun]
    rw [hhalts, chan_haltGate hrun]
    by_cases hc : c = p.1
    · subst hc
      simp [hrun]
    · simp [hc]
  · have hstays : s.failPart g r p cause code false false = s := by
      simp [failPart, hrun, hcause]
    rw [hstays, if_neg]
    rintro ⟨rfl, h⟩
    exact hrun h

/-- The channels of a request's parts that ran are halted, and every other channel is left as it is. -/
theorem chan_failParts_refused (s : State) (ps : List (Nat × Nat × Nat)) (hcause : cause ≠ 4) (c : Nat) :
    ((ps.foldl (fun s p => s.failPart g r p cause code false false) s).gate g).chan c =
      if (∃ p ∈ ps, c = p.1) ∧ ((s.gate g).chan c).st = .run then
        ((s.gate g).chan c).stop cause (BitVec.ofNat 8 code) r.retries false
      else (s.gate g).chan c := by
  induction ps generalizing s with
  | nil => simp
  | cons p ps ih =>
    rw [List.foldl_cons, ih, chan_failPart_refused s p hcause]
    by_cases hfirst : c = p.1 ∧ ((s.gate g).chan c).st = .run
    · -- the part has halted the channel, so that no later one does
      obtain ⟨rfl, hrun⟩ := hfirst
      simp [hrun, Chan.stop]
    · rw [if_neg hfirst]
      have hsame : ((∃ q ∈ p :: ps, c = q.1) ∧ ((s.gate g).chan c).st = .run) ↔
          (∃ q ∈ ps, c = q.1) ∧ ((s.gate g).chan c).st = .run := by
        rw [List.exists_mem_cons_iff]
        tauto
      rw [if_congr hsame rfl rfl]

/-- A store request that may not be tried again: every running channel of it drains, with the cause and the code. -/
theorem chan_failStore_refused (s : State) (hcause : cause ≠ 4) {p : Nat × Nat × Nat} (hp : p ∈ r.parts)
    (hrun : ((s.gate g).chan p.1).st = .run) :
    ((s.failStore g r cause code false false).gate g).chan p.1 =
      ((s.gate g).chan p.1).stop cause (BitVec.ofNat 8 code) r.retries false := by
  unfold failStore modGate
  dsimp only
  rw [((releaseStores_spec _).2 g).chan, chan_failParts_refused _ _ hcause, gate_setGate_same]
  exact if_pos ⟨⟨p, hp, rfl⟩, hrun⟩

end

/-! ### The commands -/

section
variable {s : State} {g : GateId} {k : PortId} {m : Msg}

/-- A well-formed message of the operation that a command serves is taken from its port and acted on. -/
theorem serve_eq {op : Byte} {vc : Nat} (hm : m.wellFormed = true) (hop : m.op = op) (h : AtPort s g k vc m)
    (act : State → State) :
    checked m.wellFormed (if m.op = op then s.atPort g k vc m act else s) = .next (act (msgTaken s g k m)) := by
  rw [checked, if_pos hm, if_pos hop, atPort_serves h]

theorem exec_ebsoberReadData (hm : m.wellFormed = true) (hop : m.op = 0x81) (h : AtPort s g k 1 m) :
    exec (.ebsoberReadData g k m) s = .next ((msgTaken s g k m).storeData g k m 0x01) := serve_eq hm hop h _

theorem exec_writeDone (hm : m.wellFormed = true) (hop : m.op = 0x82) (h : AtPort s g k 1 m) :
    exec (.writeDone g k m) s = .next ((msgTaken s g k m).storeDone g k m 0x02) := serve_eq hm hop h _

theorem exec_shardData (hm : m.wellFormed = true) (hop : m.op = 0x83) (h : AtPort s g k 1 m) :
    exec (.shardData g k m) s = .next ((msgTaken s g k m).storeData g k m 0x03) := serve_eq hm hop h _

theorem exec_shardDone (hm : m.wellFormed = true) (hop : m.op = 0x84) (h : AtPort s g k 1 m) :
    exec (.shardDone g k m) s = .next ((msgTaken s g k m).storeDone g k m 0x04) := serve_eq hm hop h _

theorem exec_error (hm : m.wellFormed = true) (hop : m.op = 0x8F) (h : AtPort s g k 1 m) :
    exec (.error g k m) s = .next ((msgTaken s g k m).storeError g k m) := serve_eq hm hop h _

theorem exec_permuteAck_unmatched (hm : m.wellFormed = true) (hop : m.op = 0xC1) (h : AtPort s g k 1 m)
    (hnone : m.tag.toNat ∉ ((s.gate g).port k).permOut) :
    exec (.permuteAck g k m) s = .next ((msgTaken s g k m).countDiscard g) := by
  refine (serve_eq hm hop h _).trans ?_
  simp only [permOut_msgTaken, List.contains_eq_mem, hnone, decide_false, Bool.false_eq_true, if_false]

theorem storeData_unmatched {op : Nat} (h : s.answered g k m [op] = none) :
    (msgTaken s g k m).storeData g k m op = (msgTaken s g k m).countDiscard g := by
  rw [storeData, answered_msgTaken, h]

theorem storeDone_unmatched {op : Nat} (h : s.answered g k m [op] = none) :
    (msgTaken s g k m).storeDone g k m op = (msgTaken s g k m).countDiscard g := by
  rw [storeDone, answered_msgTaken, h]

theorem storeError_unmatched (h : s.answered g k m [1, 2, 3, 4] = none) :
    (msgTaken s g k m).storeError g k m = (msgTaken s g k m).countDiscard g := by
  rw [storeError, answered_msgTaken, h]

/-- An ERROR of an outstanding request fails it; BUSY and MEDIA permit a retry. -/
theorem storeError_of_outstanding {r : StoreReq} (h : Outstanding s g k m r [0x01, 0x02, 0x03, 0x04]) :
    (msgTaken s g k m).storeError g k m =
      (msgTaken s g k m).failStore g r 3 m.status.toNat (m.status = 1 || m.status = 3) false := by
  rw [storeError, answered_msgTaken, answered_of_outstanding h]

end

end State

/-! ### The rule -/

/-- Settles O12: a request is found by its tag, its port and its operation. A failed one's parts, taken in turn, each put a try
of their own among the requests, or each halt their channel; that held requests then go out changes neither. -/
theorem errorsPermitRetries : Obligations.ErrorsPermitRetries := by
  unfold Obligations.ErrorsPermitRetries
  intro g k m s hm d taken
  have hdiscard : taken.countDiscard g = s.setGate g { taken.gate g with discarded := d.discarded + 1 } :=
    State.countDiscard_msgTaken s g k m
  refine ⟨fun r hport hout hop hleft hrun => ⟨fun hstatus => ?retried, fun hstatus => ?drained⟩, ?unmatched, ?unacked⟩
  case retried =>
    have hpermits : (decide (m.status = 1) || decide (m.status = 3)) = true := by simpa using hstatus
    have hgate := State.gate_msgTaken s g k m
    obtain ⟨hgoes, hparts⟩ := State.failStore_retry (g := g) (r := r) (cause := 3) (code := m.status.toNat) taken
      (by rw [hgate]; exact hrun) (by rw [hgate]; exact hleft)
    have hall := (State.gatesGoOn_msgTaken s g k m).trans hgoes
    refine ⟨_, State.exec_error hm hop hport, ?_⟩
    rw [State.storeError_of_outstanding hout, hpermits]
    exact ⟨hall.reports, hall.onlyGate, hparts⟩
  case drained =>
    have hrefuses : (decide (m.status = 1) || decide (m.status = 3)) = false := by simpa using hstatus
    refine ⟨_, State.exec_error hm hop hport, fun p hp => ?_⟩
    have hcode : BitVec.ofNat 8 m.status.toNat = m.status := by simp
    have hruns : ((taken.gate g).chan p.1).st = .run := by rw [State.gate_msgTaken]; exact hrun p hp
    rw [State.storeError_of_outstanding hout, hrefuses, State.chan_failStore_refused _ (by decide) hp hruns, hcode]
    exact ⟨rfl, rfl, rfl⟩
  case unmatched =>
    intro i ops hi hport hnone
    have hanswered : s.answered g k m ops = none := State.answered_eq_none hnone
    rcases hi with ⟨rfl, hop, rfl⟩ | ⟨rfl, hop, rfl⟩ | ⟨rfl, hop, rfl⟩ | ⟨rfl, hop, rfl⟩ | ⟨rfl, hop, rfl⟩
    · rw [State.exec_ebsoberReadData hm hop hport, State.storeData_unmatched hanswered, ← hdiscard]
    · rw [State.exec_shardData hm hop hport, State.storeData_unmatched hanswered, ← hdiscard]
    · rw [State.exec_writeDone hm hop hport, State.storeDone_unmatched hanswered, ← hdiscard]
    · rw [State.exec_shardDone hm hop hport, State.storeDone_unmatched hanswered, ← hdiscard]
    · rw [State.exec_error hm hop hport, State.storeError_unmatched hanswered, ← hdiscard]
  case unacked =>
    intro hop hport hnone
    rw [State.exec_permuteAck_unmatched hm hop hport hnone, ← hdiscard]

end Sys2Proof.Machine

/-! The registers of the HLD_ block (R350): their rows in the module's map, what they read, what module reset leaves in them,
and the guarded write of HLD_RECT. -/

namespace Sys2Proof.Machine

/-! ### The rows of the block -/

/-- The rows of the module's map before the HLD_ block end below it. -/
theorem rows_end_below_hld : ∀ d ∈ modRegs ++ stwRegs ++ stw1Regs, d.off < 0x300000 ∧ d.off + d.stride * d.count ≤ 0x300000 := by
  decide

/-- In the HLD_ block the row of a register is the block's own first row that covers its offset. -/
theorem findReg_of_hldRegs {before after : List RegDef} {d : RegDef} {o : Nat} (hrows : hldRegs = before ++ d :: after)
    (ho : 0x300000 ≤ o) (hd : Covers d o) (hb : ∀ e ∈ before, ¬ Covers e o) : findReg moduleMap o = some d := by
  have hmap : moduleMap = (modRegs ++ stwRegs ++ stw1Regs ++ before) ++ d :: (after ++ altRegs ++ secRegs ++ fltRegs ++ ldgRegs) := by
    simp only [moduleMap, hrows, List.append_assoc, List.cons_append]
  rw [hmap]
  refine findReg_of_first hd fun e he hcovers => ?_
  rcases List.mem_append.1 he with he | he
  · obtain ⟨hoff, hend⟩ := rows_end_below_hld e he
    unfold Covers at hcovers
    split at hcovers <;> omega
  · exact hb e he hcovers

/-- The row of HLD_CTRL. -/
def hldCtrlRow : RegDef := { off := 0x300000, stride := 0x10, count := 16 }
/-- The row of HLD_RECT. -/
def hldRectRow : RegDef := { off := 0x300004, stride := 0x10, count := 16, rw := 0x7777 }
/-- The row of HLD_STATUS. -/
def hldStatusRow : RegDef := { off := 0x300008, stride := 0x10, count := 16 }
/-- The row of HLD_OWNER. -/
def hldOwnerRow : RegDef := { off := 0x300800, stride := 0x4, count := 56, rst := 0x1F }

section
variable {h p : Nat}

theorem findReg_hldCtrl (hh : h < 16) : findReg moduleMap (Reg.hldCtrl h) = some hldCtrlRow :=
  findReg_of_hldRegs (before := []) rfl (by simp [Reg.hldCtrl]) (by simp [Covers, hldCtrlRow, Reg.hldCtrl]; omega) (by simp)

theorem findReg_hldRect (hh : h < 16) : findReg moduleMap (Reg.hldRect h) = some hldRectRow :=
  findReg_of_hldRegs (before := [hldCtrlRow]) rfl (by simp [Reg.hldRect]; omega)
    (by simp [Covers, hldRectRow, Reg.hldRect]; omega) (by simp [Covers, hldCtrlRow, Reg.hldRect]; omega)

theorem findReg_hldStatus (hh : h < 16) : findReg moduleMap (Reg.hldStatus h) = some hldStatusRow :=
  findReg_of_hldRegs (before := [hldCtrlRow, hldRectRow]) rfl (by simp [Reg.hldStatus]; omega)
    (by simp [Covers, hldStatusRow, Reg.hldStatus]; omega)
    (by simp [Covers, hldCtrlRow, hldRectRow, Reg.hldStatus]; omega)

theorem findReg_hldOwner (hp : p < 56) : findReg moduleMap (Reg.hldOwner p) = some hldOwnerRow :=
  findReg_of_hldRegs (before := [hldCtrlRow, hldRectRow, hldStatusRow]) rfl (by simp [Reg.hldOwner]; omega)
    (by simp [Covers, hldOwnerRow, Reg.hldOwner]; omega)
    (by simp [Covers, hldCtrlRow, hldRectRow, hldStatusRow, Reg.hldOwner]; omega)

end

/-- Below the FLT_ block a register resets to the value of its row. -/
theorem moduleReset_eq_rst {o : Nat} {d : RegDef} (hd : findReg moduleMap o = some d) (ho : o < Reg.fltClass 0) :
    moduleReset o = d.rst := by
  have hbelow : ¬ Reg.fltClass 0 ≤ o := Nat.not_le.2 ho
  simp only [moduleReset, hbelow, decide_false, Bool.false_and, Bool.false_eq_true, if_false, resetOf, hd]

namespace State

/-! ### Reads in the block -/

section
variable {s : State} {o v : Nat} {d : RegDef}

theorem readModule_shown (hd : findReg moduleMap o = some d) (hv : s.shown o = some v) :
    s.readModule o 4 = (s, BitVec.ofNat 64 v) := by
  simp [readModule, hd, hv]

theorem readModule_stored (hd : findReg moduleMap o = some d) (hv : s.shown o = none) : (s.readModule o 4).2 = s.reg o := by
  simp [readModule, hd, hv]

end

/-- An offset of the HLD_ block lies in no steward's block. -/
theorem no_stw_at_hld {o : Nat} (hlo : 0x300000 ≤ o) :
    ((List.range 2).find? fun i => Reg.stwId i ≤ o && o < Reg.stwId i + 0x100000) = none := by
  refine List.find?_eq_none.2 fun i hi => ?_
  have hlt := List.mem_range.1 hi
  have hpast : ¬ o < Reg.stwId i + 0x100000 := by simp only [Reg.stwId]; omega
  simp [hpast]

/-- No register of an array lies below its first. -/
theorem rowOf_below {o base : Nat} (stride count : Nat) (h : o < base) : rowOf o base stride count = none :=
  if_neg fun hrow => Nat.not_le.2 h hrow.1

section
variable (s : State) {o : Nat}

theorem shownSec_below (h : o < Reg.secBootStatus) : s.shownSec o = none := by
  have hne {r : Nat} (hr : Reg.secBootStatus ≤ r) : o ≠ r := (h.trans_le hr).ne
  have hrow : rowOf o (Reg.secSowMap 0) 4 15 = none := rowOf_below _ _ (h.trans_le (by decide))
  unfold shownSec
  simp only [if_neg (hne (r := Reg.secBootStatus) (by decide)), if_neg (hne (r := Reg.secSecurity) (by decide)),
    if_neg (hne (r := Reg.secSvn) (by decide)), if_neg (hne (r := Reg.secFuseCmd) (by decide)),
    if_neg (hne (r := Reg.secSerialLo) (by decide)), if_neg (hne (r := Reg.secSerialHi) (by decide)),
    if_neg (hne (r := Reg.secSowCmd) (by decide)), hrow]

theorem shownFlt_below (h : o < Reg.fltStatus) : s.shownFlt o = none := by
  have hne {r : Nat} (hr : Reg.fltStatus ≤ r) : o ≠ r := (h.trans_le hr).ne
  have hcauses : rowOf o (Reg.fltCauses 0) 4 17 = none := rowOf_below _ _ (h.trans_le (by decide))
  have hrecs : rowOf o (Reg.fltRec 0) 4 272 = none := rowOf_below _ _ (h.trans_le (by decide))
  unfold shownFlt
  simp only [if_neg (hne (r := Reg.fltStatus) (by decide)), if_neg (hne (r := Reg.fltBell) (by decide)),
    if_neg (hne (r := Reg.fltInject) (by decide)), if_neg (hne (r := Reg.ldgStatus) (by decide)),
    if_neg (hne (r := Reg.ldgCmd) (by decide)), if_neg (hne (r := Reg.ldgCycle) (by decide)),
    if_neg (hne (r := Reg.ldgLogNext) (by decide)), hcauses, hrecs]

/-- HLD_STATUS of a holding: its parishes and its state. -/
def hldStatusValue (h : Nat) : Nat := (s.parishesOf h).length * 2 ^ 16 + stateCode (s.holding h).st

/-- Of the HLD_ block, HLD_STATUS alone shows other state. -/
theorem shown_hld (hlo : 0x300000 ≤ o) (hhi : o < 0x400000) :
    s.shown o = (rowOf o (Reg.hldStatus 0) 0x10 16).map s.hldStatusValue := by
  have hservice : o ≠ Reg.modService := by simp only [Reg.modService]; omega
  have hcap : o ≠ Reg.altModuleStatus := by simp only [Reg.altModuleStatus]; omega
  have halt : rowOf o (Reg.altStatus 0) 0x20 16 = none := rowOf_below _ _ (by simp only [Reg.altStatus]; omega)
  have hsec : s.shownSec o = none := shownSec_below s (by simp only [Reg.secBootStatus]; omega)
  have hflt : s.shownFlt o = none := shownFlt_below s (by simp only [Reg.fltStatus]; omega)
  unfold shown shownMod
  simp only [if_neg hservice, no_stw_at_hld hlo, halt, if_neg hcap, hsec, hflt]
  cases rowOf o (Reg.hldStatus 0) 0x10 16 <;> rfl

section
variable {h p : Nat}

theorem shown_hldStatus (hh : h < 16) : s.shown (Reg.hldStatus h) = some (s.hldStatusValue h) := by
  have hrow : rowOf (Reg.hldStatus h) (Reg.hldStatus 0) 0x10 16 = some h := rowOf_nth _ (by decide) hh
  rw [shown_hld s (by simp [Reg.hldStatus]; omega) (by simp only [Reg.hldStatus]; omega), hrow, Option.map_some]

theorem shown_hldCtrl (hh : h < 16) : s.shown (Reg.hldCtrl h) = none := by
  have hrow : rowOf (Reg.hldCtrl h) (Reg.hldStatus 0) 0x10 16 = none :=
    if_neg (by simp only [Reg.hldCtrl, Reg.hldStatus]; omega)
  rw [shown_hld s (by simp [Reg.hldCtrl]) (by simp only [Reg.hldCtrl]; omega), hrow, Option.map_none]

theorem shown_hldRect (hh : h < 16) : s.shown (Reg.hldRect h) = none := by
  have hrow : rowOf (Reg.hldRect h) (Reg.hldStatus 0) 0x10 16 = none :=
    if_neg (by simp only [Reg.hldRect, Reg.hldStatus]; omega)
  rw [shown_hld s (by simp [Reg.hldRect]; omega) (by simp only [Reg.hldRect]; omega), hrow, Option.map_none]

theorem shown_hldOwner (hp : p < 56) : s.shown (Reg.hldOwner p) = none := by
  have hrow : rowOf (Reg.hldOwner p) (Reg.hldStatus 0) 0x10 16 = none :=
    if_neg (by simp only [Reg.hldOwner, Reg.hldStatus]; omega)
  rw [shown_hld s (by simp [Reg.hldOwner]; omega) (by simp only [Reg.hldOwner]; omega), hrow, Option.map_none]

end

end

/-! ### Module reset -/

/-- Module reset leaves no register and no holding changed from its reset value. -/
theorem moduleReset_clears (s : State) : s.moduleReset.regs = [] ∧ s.moduleReset.holdings = [] := by
  obtain ⟨hregs, -, -, -, -, hholdings, -⟩ := cold_restarted_power s { s.power with groupsOff := [] }
  exact ⟨hregs, hholdings⟩

theorem exec_moduleReset {s : State} (h : s.power.resetN = false) :
    exec .moduleReset s = .next { s.moduleReset with power := { s.moduleReset.power with resetDone := true } } := by
  change execModuleReset s = _
  rw [execModuleReset, h]; rfl

section
variable {t : State} (hregs : t.regs = []) {o h p : Nat} {d : RegDef}
include hregs

/-- A register that nothing has written holds its row's reset value. -/
theorem reg_of_reset (hd : findReg moduleMap o = some d) (ho : o < Reg.fltClass 0) : t.reg o = d.rst := by
  rw [reg, hregs]
  exact moduleReset_eq_rst hd ho

/-- No parish has an owner. -/
theorem parishesOf_of_reset (hh : h < 16) : t.parishesOf h = [] := by
  refine List.filter_eq_nil_iff.2 fun p hmem => ?_
  have hp : p < 56 := List.mem_range.1 hmem
  have hreg : t.reg (Reg.hldOwner p) = hldOwnerRow.rst :=
    reg_of_reset hregs (findReg_hldOwner hp) (by simp only [Reg.hldOwner, Reg.fltClass]; omega)
  have howner : t.owner p = 31 := by rw [owner, field, hreg]; rfl
  rw [howner, decide_eq_true_eq]
  omega

/-- It reads so where it shows no other state. -/
theorem readModule_of_reset (hd : findReg moduleMap o = some d) (hs : t.shown o = none) (ho : o < Reg.fltClass 0) :
    (t.readModule o 4).2 = d.rst := by
  rw [readModule_stored hd hs, reg_of_reset hregs hd ho]

theorem readModule_hldCtrl_of_reset (hh : h < 16) : (t.readModule (Reg.hldCtrl h) 4).2 = 0 :=
  readModule_of_reset hregs (findReg_hldCtrl hh) (shown_hldCtrl t hh) (by simp only [Reg.hldCtrl, Reg.fltClass]; omega)

theorem readModule_hldRect_of_reset (hh : h < 16) : (t.readModule (Reg.hldRect h) 4).2 = 0 :=
  readModule_of_reset hregs (findReg_hldRect hh) (shown_hldRect t hh) (by simp only [Reg.hldRect, Reg.fltClass]; omega)

theorem readModule_hldOwner_of_reset (hp : p < 56) : (t.readModule (Reg.hldOwner p) 4).2 = 0x1F :=
  readModule_of_reset hregs (findReg_hldOwner hp) (shown_hldOwner t hp) (by simp only [Reg.hldOwner, Reg.fltClass]; omega)

/-- A FREE holding without parishes reads 0 in HLD_STATUS. -/
theorem readModule_hldStatus_of_reset (hh : h < 16) (hfree : (t.holding h).st = .free) :
    (t.readModule (Reg.hldStatus h) 4).2 = 0 := by
  have hvalue : t.hldStatusValue h = 0 := by rw [hldStatusValue, parishesOf_of_reset hregs hh, hfree]; rfl
  rw [readModule_shown (findReg_hldStatus hh) (shown_hldStatus t hh), hvalue]
  rfl

end

/-! ### Writes of HLD_RECT -/

section
variable (s : State) {h : Nat} (v : W64)

/-- The bits of HLD_RECT that a write stores. -/
theorem hldRectRow_write (old v : W64) : hldRectRow.write old v = (old &&& ~~~ 0x7777) ||| (v &&& 0x7777) := by
  simp [RegDef.write, hldRectRow]

theorem writeHld_hldRect (hh : h < 16) :
    s.writeHld (Reg.hldRect h) hldRectRow v =
      some (if (s.holding h).st = .free then
        s.setReg (Reg.hldRect h) ((s.reg (Reg.hldRect h) &&& ~~~ 0x7777) ||| (v &&& 0x7777)) else s) := by
  have hctrl : rowOf (Reg.hldRect h) (Reg.hldCtrl 0) 0x10 16 = none :=
    if_neg (by simp only [Reg.hldRect, Reg.hldCtrl]; omega)
  have hrect : rowOf (Reg.hldRect h) (Reg.hldRect 0) 0x10 16 = some h := rowOf_nth _ (by decide) hh
  unfold writeHld
  simp only [hctrl, hrect, hldRectRow_write]

/-- Writes of HLD_RECT take effect for a FREE holding, and for the register's own width. -/
theorem writeModule_hldRect (hh : h < 16) (n : Nat) :
    s.writeModule (Reg.hldRect h) n v =
      if n = 4 ∧ (s.holding h).st = .free then
        s.setReg (Reg.hldRect h) ((s.reg (Reg.hldRect h) &&& ~~~ 0x7777) ||| (v &&& 0x7777)) else s := by
  have hstw := no_stw_at_hld (o := Reg.hldRect h) (by simp [Reg.hldRect]; omega)
  unfold writeModule
  simp only [findReg_hldRect hh, hstw, writeHld_hldRect s v hh]
  by_cases hn : n = 4 <;> simp [hn]

/-- HLD_RECT by its steward physical address, as either steward sees it: the blocks of the map before the HLD_ block end below
it, and the crofts lie above. -/
theorem ofAddr_hldRect (st : Nat) (hh : h < 16) : Place.ofAddr st (0x17000004 + 0x10 * h) = .module (Reg.hldRect h) := by
  have hpast {lo hi : Nat} (hhi : hi ≤ 0x17000000) : ¬ (lo ≤ 0x17000004 + 0x10 * h ∧ 0x17000004 + 0x10 * h < hi) := by omega
  have hsram : ¬ 0x17000004 + 0x10 * h < 0x10000000 := by omega
  have hcroft : ¬ 0x400000000 ≤ 0x17000004 + 0x10 * h := by omega
  have hblock : 0x17000000 ≤ 0x17000004 + 0x10 * h ∧ 0x17000004 + 0x10 * h < 0x17001000 := by omega
  have hoffset : 0x300000 + (0x17000004 + 0x10 * h - 0x17000000) = Reg.hldRect h := by simp only [Reg.hldRect]; omega
  simp only [Place.ofAddr, Place.single, if_neg hsram, hpast, Nat.reduceLeDiff, hcroft, false_and, if_false, if_pos hblock, hoffset]

/-- By its address HLD_RECT is written while the module is up. -/
theorem registerWrite_hldRect (hh : h < 16) :
    s.registerWrite (0x17000004 + 0x10 * h) 4 v = if s.up = true then s.writeModule (Reg.hldRect h) 4 v else s := by
  have hvoid : coreVoid (.module (Reg.hldRect h)) (0x17000004 + 0x10 * h) 4 = false := by
    simp [coreVoid, placeWidth]; omega
  unfold registerWrite
  simp only [ofAddr_hldRect _ hh, hvoid, writePlace]
  cases s.up <;> simp

/-- The write is one that no partner's record shadows. -/
theorem exec_registerWrite_hldRect {a : BitVec 48} (hh : h < 16) (ha : a.toNat = 0x17000004 + 0x10 * h) :
    exec (.registerWrite a 4 v) s = .next (if s.up = true then s.writeModule (Reg.hldRect h) 4 v else s) := by
  have hwrite := registerWrite_hldRect s v hh
  have hshadows : (s.registerWrite (0x17000004 + 0x10 * h) 4 v).shadows = s.shadows := by
    rw [hwrite, writeModule_hldRect s v hh]
    split_ifs <;> rfl
  rw [exec_registerWrite a v rfl, ha, asOne_of_shadows hshadows, hwrite]

end

end State

/-! ### The rule -/

/-- Settles O13: module reset leaves no register written and no holding begun, so each read shows its row's reset value and
HLD_STATUS a FREE holding without parishes; a write of HLD_RECT passes the guard on its holding's state alone. -/
theorem holdingRegistersResetAndKeep : Obligations.HoldingRegistersResetAndKeep := by
  unfold Obligations.HoldingRegistersResetAndKeep
  intro s
  refine ⟨fun hreset => ?reset, fun h v => ⟨fun hheld => ?ignored, fun hup hfree a ha => ?stored⟩⟩
  case reset =>
    obtain ⟨hregs, hholdings⟩ := State.moduleReset_clears s
    refine ⟨_, State.exec_moduleReset hreset, ?_⟩
    generalize ht : ({ s.moduleReset with power := { s.moduleReset.power with resetDone := true } } : State) = t
    have hregs' : t.regs = [] := by rw [← ht]; exact hregs
    have hholding (h : Nat) : t.holding h = {} := by rw [← ht, State.holding]; simp only [hholdings]; rfl
    exact ⟨hholding, fun h hh => ⟨State.readModule_hldCtrl_of_reset hregs' hh, State.readModule_hldRect_of_reset hregs' hh,
      State.readModule_hldStatus_of_reset hregs' hh (by rw [hholding])⟩, fun p hp => State.readModule_hldOwner_of_reset hregs' hp⟩
  case ignored =>
    have hkeeps (n : Nat) : s.writeModule (Reg.hldRect h) n v = s := by
      rw [State.writeModule_hldRect s v h.isLt, if_neg fun hguard => hheld hguard.2]
    exact ⟨fun a ha => by rw [State.exec_registerWrite_hldRect s v h.isLt ha, hkeeps, ite_self], fun n j => hkeeps n⟩
  case stored =>
    rw [State.exec_registerWrite_hldRect s v h.isLt ha, if_pos hup, State.writeModule_hldRect s v h.isLt, if_pos ⟨rfl, hfree⟩]

end Sys2Proof.Machine

/-! What any command comes to: the croft that a command of its units acts on, the outcome that its well-formedness gives, and
what the queue, SLOT_ID and the fuses keep (R361 to R365). -/

namespace Sys2Proof.Machine
open Sys2Proof.Safety

/-- An outcome that a command of croft q's units has: nothing has changed, or the croft has been acted on. -/
def ActsOn (q : Nat) (s : State) (o : Host.Outcome State Fault Refusal) : Prop :=
  o = .next s ∨ ∃ f, o = .next (s.onCroft q f)

theorem actsOn_onCroft (q : Nat) (s : State) (f : Site → Site) : ActsOn q s (.next (s.onCroft q f)) := .inr ⟨f, rfl⟩

theorem actsOn_onRegs (q : Nat) (s : State) (f : Site → Site) : ActsOn q s (.next (s.onRegs q f)) := by
  unfold State.onRegs
  split
  · exact actsOn_onCroft q s _
  · exact .inl rfl

theorem actsOn_ite {q : Nat} {s : State} (p : Prop) [Decidable p] {o : Host.Outcome State Fault Refusal} (h : ActsOn q s o) :
    ActsOn q s (if p then o else .next s) := by
  split
  · exact h
  · exact .inl rfl

/-- A command of one croft's units changes nothing, or acts on its croft as commands or as register writes do. -/
theorem exec_unit {c : Instr} {q : Phys} (s : State) (h : unitOf c = some q) : ActsOn q s (exec c s) := by
  cases c
  case winCmdOpen | winCmdClose | seqStart => cases h; exact actsOn_ite _ (actsOn_onRegs _ _ _)
  case carCmdStart | carCmdAbort | carCmdDestroy => cases h; exact actsOn_ite _ (actsOn_onCroft _ _ _)
  case croftReset | fenceWrite | crfSeqSlotsWrite | crfStepWrite | crfRepairDataWrite => cases h; exact actsOn_onRegs _ _ _
  all_goals cases h
  all_goals exact actsOn_onCroft _ _ _

theorem ActsOn.next {q : Nat} {s : State} {o : Host.Outcome State Fault Refusal} (h : ActsOn q s o) :
    ∃ t, o = .next t ∧ OnlyCroft q s t ∧ t.keep = s.keep := by
  obtain rfl | ⟨f, rfl⟩ := h
  · exact ⟨s, rfl, ⟨fun _ _ => rfl, rfl⟩, rfl⟩
  · exact ⟨_, rfl, State.onlyCroft_onCroft s q f, State.keep_onCroft s q f⟩

/-- Any sender can form a command of a croft's units. -/
theorem wellFormed_of_unit {c : Instr} {q : Phys} (h : unitOf c = some q) : c.wellFormed = true := by
  cases c
  all_goals cases h
  all_goals rfl

/-- Settles O7: a command of one croft's units acts on that croft. -/
theorem unitsTouchTheirCroftAlone : Obligations.UnitsTouchTheirCroftAlone := by
  unfold Obligations.UnitsTouchTheirCroftAlone
  intro c q s h
  obtain ⟨t, ht, hq, -⟩ := (exec_unit s h).next
  exact ⟨t, ht, hq⟩

@[simp] theorem State.keep_serveWrite (s : State) (k : Packet) : (s.serveWrite k).keep = s.keep := by
  unfold State.serveWrite; repeat' (first | simp | split)

/-- Every command but those that end stage 1 and the blowing of fuses keeps the queue, SLOT_ID and the fuses. -/
theorem exec_keep (c : Instr) (s : State) (h1 : ∀ r, c ≠ .stageComplete r) (h2 : c ≠ .fuseBlowDone) :
    ∃ t, exec c s = checked c.wellFormed t ∧ t.keep = s.keep := by
  cases hu : unitOf c with
  | some q =>
    obtain ⟨t, ht, -, hk⟩ := (exec_unit s hu).next
    exact ⟨t, by rw [ht, wellFormed_of_unit hu]; rfl, hk⟩
  | none =>
  cases c
  case supplyTrip | moduleReset | modResetNRise | tripLatchClear | parishTrip | tripReport | refclkLoss | epochEdge | epochLoss |
    supplyReading | coolantReading | sensorReading | tapInstruction | cableInsertRemove | rowMapSwitch | computeRailUp | pclkStep |
    nclkLockLoss | tallyCall | escape | livenessPulse | parishDeadIsolate | tblApplied | stewardAccessTimeout | requestTimeout |
    retry | channelDrainEnd | tallyCallTimer | verdictTokenRetry | overflowRestart | normTimeout | restoreCroftsStopped |
    portDisable | trainSuccess | trainTimeout | lock | lockTimeout | lossOfLock | ackTimeout | storeTimeout | gateLost | heartbeat |
    shadowRecord | holdingResetDone | allotmentApplied | modulePowerReading | getCertificate | challenge | getMeasurements |
    causeEnd | recordAppend | auxConverterStart | shadowAck | controlServiceRequest | cageSupplyShort | stewardUe | abandonComplete =>
    dsimp only [exec, execSupplyTrip, execModuleReset, execModResetNRise, execTripLatchClear, execParishTrip, execTripReport, execRefclkLoss, execEpochEdge, execEpochLoss, execSupplyReading, execCoolantReading, execSensorReading, execTapInstruction, execCableInsertRemove, execRowMapSwitch, execComputeRailUp, execPclkStep, execNclkLockLoss, execTallyCall, execEscape, execLivenessPulse, execParishDeadIsolate, execTblApplied, execStewardAccessTimeout, execRequestTimeout, execRetry, execChannelDrainEnd, execTallyCallTimer, execVerdictTokenRetry, execOverflowRestart, execNormTimeout, execRestoreCroftsStopped, execPortDisable, execTrainSuccess, execTrainTimeout, execLock, execLockTimeout, execLossOfLock, execAckTimeout, execStoreTimeout, execGateLost, execHeartbeat, execShadowRecord, execHoldingResetDone, execAllotmentApplied, execModulePowerReading, execGetCertificate, execChallenge, execGetMeasurements, execCauseEnd, execRecordAppend, execAuxConverterStart, execShadowAck, execControlServiceRequest, execCageSupplyShort, execStewardUe, execAbandonComplete]
    repeat' split
    all_goals exact ⟨_, rfl, by simp⟩
  case packetHop i err =>
    dsimp only [exec, execPacketHop]
    split
    · exact ⟨_, rfl, rfl⟩
    · next f _ =>
      have hk := State.keep_checkFlits s (State.parOf f.pos) f.via f.pkt err
      split
      · exact ⟨_, rfl, rfl⟩
      · split
        · next h => exact ⟨_, rfl, by rw [h] at hk; exact hk⟩
        · next h =>
          rw [h] at hk
          split
          · exact ⟨_, rfl, by simpa using hk⟩
          · exact ⟨_, rfl, by simpa using hk⟩
  case packetDeliver i err =>
    dsimp only [exec, execPacketDeliver]
    split
    · exact ⟨_, rfl, rfl⟩
    · next f _ =>
      have hk := State.keep_checkFlits s (State.parOf f.pos) f.via f.pkt err
      split
      · exact ⟨_, rfl, rfl⟩
      · split
        · next h => exact ⟨_, rfl, by rw [h] at hk; exact hk⟩
        · next h => exact ⟨_, rfl, by rw [h] at hk; simpa using hk⟩
  case caps g l f => exact ⟨_, rfl, State.keep_receive _ _ _ _ _ _ fun s h b => by simp⟩
  case data g l f => exact ⟨_, rfl, State.keep_receive _ _ _ _ _ _ fun s h b => by simp⟩
  case idle g l f => exact ⟨_, rfl, State.keep_receive _ _ _ _ _ _ fun s h b => rfl⟩
  case time g l f => exact ⟨_, rfl, State.keep_receive _ _ _ _ _ _ fun s h b => by simp⟩
  case scaleTokenAck hld k =>
    refine ⟨_, rfl, ?_⟩
    split
    · rfl
    · rw [State.keep_asOne]
      split
      · split <;> simp
      · simp
  case stageComplete r => exact absurd rfl (h1 r)
  case fuseBlowDone => exact absurd rfl h2
  all_goals cases hu
  all_goals exact ⟨_, rfl, by simp⟩

/-- One die's fuses as a bring-up leaves them: as they were, or with the revocations of a copy (R362). -/
def Revokes (f g : Fuses) : Prop := g = f ∨ ∃ n, g = State.revoke f n

theorem fusesFrom_refl (f : Fuses) : FusesFrom f f := ⟨rfl, rfl, rfl, by simp, le_refl _⟩

theorem fusesFrom_trans {f g h : Fuses} (a : FusesFrom f g) (b : FusesFrom g h) : FusesFrom f h := by
  obtain ⟨a1, a2, a3, a4, a5⟩ := a
  obtain ⟨b1, b2, b3, b4, b5⟩ := b
  refine ⟨b1.trans a1, b2.trans a2, b3.trans a3, ?_, a5.trans b5⟩
  rw [← a4, ← BitVec.and_assoc, b4, a4]

theorem Revokes.fusesFrom {f g : Fuses} (h : Revokes f g) : FusesFrom f g ∧ g.svn = f.svn := by
  obtain rfl | ⟨n, rfl⟩ := h
  · exact ⟨fusesFrom_refl g, rfl⟩
  · refine ⟨⟨rfl, rfl, rfl, ?_, le_refl _⟩, rfl⟩
    ext i hi
    simp only [State.revoke, BitVec.getElem_and, BitVec.getElem_or]
    cases f.revoked[i] <;> simp

namespace State

theorem keep_eq_iff {t : State} {p : List Instr} {i : BitVec 3} {f0 f1 : Fuses} : t.keep = (p, i, f0, f1) ↔
    t.pending = p ∧ t.slotId = i ∧ t.sec.fuses0 = f0 ∧ t.sec.fuses1 = f1 := by
  simp only [keep, Prod.mk.injEq]

theorem revokes_revoked (s : State) (r : StageResult) (i : Nat) : Revokes (s.dieFuses i) (s.revoked r i) := by
  unfold revoked
  split
  · exact .inr ⟨_, rfl⟩
  · exact .inl rfl

@[simp] theorem keep_bootCopy (s : State) (b : Bool) : (s.bootCopy b).keep = s.keep := by
  unfold bootCopy; simp

/-- The end of stage 1 keeps the queue and SLOT_ID, and only revokes. -/
theorem keep_stageBl1 (s : State) (r : StageResult) :
    ∃ f0 f1, (s.stageBl1 r).keep = (s.pending, s.slotId, f0, f1) ∧ Revokes s.sec.fuses0 f0 ∧ Revokes s.sec.fuses1 f1 := by
  unfold stageBl1
  extract_lets _ s1 _
  have h1 : s1.keep = s.keep := by simp [s1]
  generalize s1 = t at h1
  obtain ⟨hp, hs, hf0, hf1⟩ := keep_eq_iff.1 h1
  have same : ∃ f0 f1, t.keep = (s.pending, s.slotId, f0, f1) ∧ Revokes s.sec.fuses0 f0 ∧ Revokes s.sec.fuses1 f1 :=
    ⟨_, _, h1, .inl rfl, .inl rfl⟩
  have blown : ∀ u : State, u.keep = (t.pending, t.slotId, t.revoked r 0, t.revoked r 1) →
      ∃ f0 f1, u.keep = (s.pending, s.slotId, f0, f1) ∧ Revokes s.sec.fuses0 f0 ∧ Revokes s.sec.fuses1 f1 := by
    intro u hu
    refine ⟨_, _, hp ▸ hs ▸ hu, ?_, ?_⟩
    · have := t.revokes_revoked r 0; rwa [show t.dieFuses 0 = s.sec.fuses0 from hf0] at this
    · have := t.revokes_revoked r 1; rwa [show t.dieFuses 1 = s.sec.fuses1 from hf1] at this
  split
  · simpa using same
  · split
    · simpa using same
    · dsimp only
      split
      · exact blown _ (by simp)
      · exact blown _ (by simp)

theorem keep_stageComplete (s : State) (r : StageResult) :
    ∃ f0 f1, (s.stageComplete r).keep = (s.pending, s.slotId, f0, f1) ∧ Revokes s.sec.fuses0 f0 ∧ Revokes s.sec.fuses1 f1 := by
  have same : ∀ u : State, u.keep = s.keep →
      ∃ f0 f1, u.keep = (s.pending, s.slotId, f0, f1) ∧ Revokes s.sec.fuses0 f0 ∧ Revokes s.sec.fuses1 f1 :=
    fun u hu => ⟨_, _, hu, .inl rfl, .inl rfl⟩
  unfold stageComplete
  split
  · exact same s rfl
  · split
    case h_2 => exact keep_stageBl1 s r
    all_goals exact same _ (by simp)

end State

/-- What every command but FUSE_BLOW_DONE keeps: the queue, SLOT_ID, and each die's fuses but for revocations. -/
theorem exec_revokes (c : Instr) (s : State) (h : c ≠ .fuseBlowDone) : ∃ t, exec c s = checked c.wellFormed t ∧
    t.pending = s.pending ∧ t.slotId = s.slotId ∧ Revokes s.sec.fuses0 t.sec.fuses0 ∧ Revokes s.sec.fuses1 t.sec.fuses1 := by
  have of_keep {t : State} {f0 f1 : Fuses} (hk : t.keep = (s.pending, s.slotId, f0, f1)) (h0 : Revokes s.sec.fuses0 f0)
      (h1 : Revokes s.sec.fuses1 f1) : t.pending = s.pending ∧ t.slotId = s.slotId ∧
      Revokes s.sec.fuses0 t.sec.fuses0 ∧ Revokes s.sec.fuses1 t.sec.fuses1 := by
    obtain ⟨hp, hs, rfl, rfl⟩ := State.keep_eq_iff.1 hk
    exact ⟨hp, hs, h0, h1⟩
  by_cases hs : ∃ r, c = .stageComplete r
  · obtain ⟨r, rfl⟩ := hs
    obtain ⟨f0, f1, hk, h0, h1⟩ := s.keep_stageComplete r
    exact ⟨_, rfl, of_keep hk h0 h1⟩
  · obtain ⟨t, ht, hk⟩ := exec_keep c s (fun r hr => hs ⟨r, hr⟩) h
    exact ⟨t, ht, of_keep hk (.inl rfl) (.inl rfl)⟩

/-- FUSE_BLOW_DONE keeps the queue and SLOT_ID, and of the fuses raises the counters alone (R363). -/
theorem fusesBlown_keeps (s : State) : s.fusesBlown.pending = s.pending ∧ s.fusesBlown.slotId = s.slotId ∧
    FusesFrom s.sec.fuses0 s.fusesBlown.sec.fuses0 ∧ FusesFrom s.sec.fuses1 s.fusesBlown.sec.fuses1 := by
  have raised (f : Fuses) (n : Nat) (h : f.svn < n) : FusesFrom f { f with svn := n } := ⟨rfl, rfl, rfl, by simp, h.le⟩
  have behind_lt (i : Nat) (h : s.behind i = true) : (s.dieFuses i).svn < min 64 s.sec.svn := by
    simp only [State.behind, Bool.and_eq_true, decide_eq_true_eq] at h
    exact h.2
  unfold State.fusesBlown
  split
  · exact ⟨rfl, rfl, fusesFrom_refl _, fusesFrom_refl _⟩
  · refine ⟨rfl, rfl, ?_, ?_⟩
    · show FusesFrom _ (if s.behind 0 then { s.sec.fuses0 with svn := min 64 s.sec.svn } else s.sec.fuses0)
      split
      · next h => exact raised _ _ (behind_lt 0 h)
      · exact fusesFrom_refl _
    · show FusesFrom _ (if s.behind 1 then { s.sec.fuses1 with svn := min 64 s.sec.svn } else s.sec.fuses1)
      split
      · next h => exact raised _ _ (behind_lt 1 h)
      · exact fusesFrom_refl _

/-- Every command ends as its well-formedness says, and keeps the queue, SLOT_ID and what the fuses hold. -/
theorem exec_trust (c : Instr) (s : State) : ∃ t, exec c s = checked c.wellFormed t ∧ t.pending = s.pending ∧ t.slotId = s.slotId ∧
    FusesFrom s.sec.fuses0 t.sec.fuses0 ∧ FusesFrom s.sec.fuses1 t.sec.fuses1 ∧
    (c ≠ .fuseBlowDone → t.sec.fuses0.svn = s.sec.fuses0.svn ∧ t.sec.fuses1.svn = s.sec.fuses1.svn) := by
  by_cases hc : c = .fuseBlowDone
  · subst hc
    obtain ⟨hp, hs, h0, h1⟩ := fusesBlown_keeps s
    exact ⟨s.fusesBlown, rfl, hp, hs, h0, h1, fun h => absurd rfl h⟩
  · obtain ⟨t, ht, hp, hs, h0, h1⟩ := exec_revokes c s hc
    exact ⟨t, ht, hp, hs, h0.fusesFrom.1, h1.fusesFrom.1, fun _ => ⟨h0.fusesFrom.2, h1.fusesFrom.2⟩⟩

theorem checked_eq_next {wf : Bool} {t u : State} (h : checked wf t = .next u) : wf = true ∧ t = u := by
  cases wf
  · cases h
  · exact ⟨rfl, Host.Outcome.next.inj h⟩

theorem idleStep_kept (s : State) : (idleStep s).pending = s.pending ∧ (idleStep s).sec = s.sec := by
  unfold idleStep State.tick
  split <;> exact ⟨rfl, rfl⟩

/-- Settles O4: a command keeps what the fuses hold, and a tick leaves the security block as it was. -/
theorem stepsKeepTrust : Obligations.StepsKeepTrust := by
  unfold Obligations.StepsKeepTrust
  intro f0 f1 s t ⟨hf0, hf1⟩ hstep
  unfold step at hstep
  split at hstep
  · obtain rfl := Host.Outcome.next.inj hstep
    obtain ⟨-, hsec⟩ := idleStep_kept s
    unfold TrustFrom
    rw [hsec]
    exact ⟨⟨hf0, hf1⟩, fun h => by simp at h⟩
  · next c rest hq =>
    obtain ⟨u, hu, -, -, h0, h1, hsvn⟩ := exec_trust c { s with pending := rest }
    obtain ⟨-, rfl⟩ := checked_eq_next (hu ▸ hstep)
    refine ⟨⟨fusesFrom_trans hf0 h0, fusesFrom_trans hf1 h1⟩, fun hne => ?_⟩
    by_contra hc
    obtain ⟨e0, e1⟩ := hsvn fun h => hc (by simp [hq, h])
    exact hne.elim (fun h => h e0) fun h => h e1

/-- Settles O6: each command ends as its well-formedness says, so a step over a formed queue runs its head and leaves its tail. -/
theorem formedQueuesNeverStop : Obligations.FormedQueuesNeverStop := by
  unfold Obligations.FormedQueuesNeverStop
  refine ⟨fun c s => ?_, fun s hs => ?_⟩
  · obtain ⟨t, ht, hp, hid, -⟩ := exec_trust c s
    exact ⟨fun h => ⟨t, by rw [ht, h]; rfl, hp, hid⟩, fun h => by rw [ht, h]; rfl⟩
  · unfold step
    split
    · next hq =>
      obtain ⟨hp, -⟩ := idleStep_kept s
      exact ⟨_, rfl, fun c hc => hs c (hp ▸ hc), by rw [hp, hq]; rfl⟩
    · next c rest hq =>
      obtain ⟨t, ht, hp, -⟩ := exec_trust c { s with pending := rest }
      have hc : c.wellFormed = true := hs c (by simp [hq])
      refine ⟨t, by rw [ht, hc]; rfl, fun d hd => hs d ?_, by rw [hp, hq]; rfl⟩
      rw [hp] at hd
      simp [hq, hd]

end Sys2Proof.Machine

/-! The memory of a croft under the operations of its units. -/
namespace Sys2Proof.Machine
open Sys2Proof.Safety
namespace Site

@[simp] theorem mem_ite (p : Prop) [Decidable p] (x y : Site) : (if p then x else y).c.mem = if p then x.c.mem else y.c.mem :=
  apply_ite (fun z : Site => z.c.mem) p x y

/-- A fold whose steps leave the memory leaves it. -/
theorem mem_foldl {α : Type} {f : Site → α → Site} (hf : ∀ x a, (f x a).c.mem = x.c.mem) (l : List α) (x : Site) :
    (l.foldl f x).c.mem = x.c.mem :=
  List.foldlRecOn (motive := fun y : Site => y.c.mem = x.c.mem) l f rfl fun y hy a _ => (hf y a).trans hy

/-- A fold over what carries a site leaves the memory where its steps do. -/
theorem mem_foldl_of {α β : Type} {g : β → Site} {f : β → α → β} (hf : ∀ b a, (g (f b a)).c.mem = (g b).c.mem) (l : List α)
    (b : β) :
    (g (l.foldl f b)).c.mem = (g b).c.mem :=
  List.foldlRecOn (motive := fun c => (g c).c.mem = (g b).c.mem) l f rfl fun c hc a _ => (hf c a).trans hc

/-- A fold whose steps keep the canonical form keeps it. -/
theorem wf_foldl {α : Type} {f : Site → α → Site} (hf : ∀ x a, Memory.wf x.c.mem = true → Memory.wf (f x a).c.mem = true)
    (l : List α) (x : Site) (h : Memory.wf x.c.mem = true) : Memory.wf (l.foldl f x).c.mem = true :=
  List.foldlRecOn (motive := fun y : Site => Memory.wf y.c.mem = true) l f h fun y hy a _ => hf y a hy
@[simp] theorem mem_seqHalt (x : Site) (fault : Bool) : (seqHalt x fault).c.mem = x.c.mem := by
  grind [seqHalt, setSeq_mem]

@[simp] theorem mem_raiseHalt (x : Site) (code : Nat) (opc : W16) (syn : W64) : (raiseHalt x code opc syn).c.mem = x.c.mem := by
  grind [raiseHalt, raise_mem, mem_seqHalt]

@[simp] theorem mem_vecLog (x : Site) (src stream instr beat : Nat) : (vecLog x src stream instr beat).c.mem = x.c.mem := by
  grind [vecLog, setReg_mem]

@[simp] theorem mem_check (x : Site) (cw : Nat) (opc : W16) (cls : Option Bool) : (check x cw opc cls).1.c.mem = x.c.mem := by
  grind [check, setReg_mem, count_mem, raise_mem, mem_vecLog]

@[simp] theorem mem_checks (x : Site) (cw : Nat) (opc : W16) (cls : Option Bool) (n : Nat) : (checks x cw opc cls n).1.c.mem =
    x.c.mem := by
  induction n generalizing x cw with
  | zero => rfl
  | succ n ih => simp [checks, ih]

@[simp] theorem mem_readBytes (x : Site) (a n : Nat) (opc : W16) (cls : Option Bool) : (readBytes x a n opc cls).1.c.mem =
    x.c.mem := by
  grind [readBytes, raise_mem, mem_checks]

theorem wf_store (x : Site) (a : Nat) (bs : List Byte) (h : Memory.wf x.c.mem = true) : Memory.wf (store x a bs).c.mem = true :=
  Memory.wf_write a bs h

@[simp] theorem mem_merge (x : Site) (cw : Nat) (opc : W16) (cls : Option Bool) : (merge x cw opc cls).c.mem = x.c.mem := by
  grind [merge, setEcc_mem, mem_check]

theorem wf_storeBytes (x : Site) (a : Nat) (bs : List Byte) (opc : W16) (cls : Option Bool) (h : Memory.wf x.c.mem = true) :
    Memory.wf (storeBytes x a bs opc cls).c.mem = true := by
  grind [storeBytes, wf_store, mem_merge]

theorem wf_putSlot (x : Site) (a : Nat) (bs : List Byte) (opc : W16) (cls : Option Bool) (k : Nat)
    (h : Memory.wf x.c.mem = true) : Memory.wf (putSlot x a bs opc cls k).c.mem = true := by
  grind [putSlot, setReg_mem, raise_mem, wf_store]

theorem wf_putBytes (x : Site) (a : Nat) (bs : List Byte) (opc : W16) (cls : Option Bool) (h : Memory.wf x.c.mem = true) :
    Memory.wf (putBytes x a bs opc cls).c.mem = true := by
  unfold putBytes
  repeat' split
  · exact h
  · exact wf_foldl (fun y k hy => wf_putSlot y a bs opc cls k hy) _ _ h
  · exact wf_storeBytes x a bs opc cls h

theorem wf_writeBytes (x : Site) (a : Nat) (bs : List Byte) (opc : W16) (cls : Option Bool) (h : Memory.wf x.c.mem = true) :
    Memory.wf (writeBytes x a bs opc cls).c.mem = true := by
  grind [writeBytes, raise_mem, wf_putBytes]

theorem wf_leaveOpen (x : Site) (a n : Nat) (h : Memory.wf x.c.mem = true) : Memory.wf (leaveOpen x a n).c.mem = true :=
  Memory.wf_write a _ h

@[simp] theorem mem_openWin (x : Site) (w base lenM1 perm : Nat) : (openWin x w base lenM1 perm).c.mem = x.c.mem := by
  grind [openWin, setReg_mem]

@[simp] theorem mem_closeWin (x : Site) (w : Nat) : (closeWin x w).c.mem = x.c.mem := by
  grind [closeWin, setField_mem]

@[simp] theorem mem_closeReleases (x : Site) (w : Nat) : (closeReleases x w).c.mem = x.c.mem := by
  grind [closeReleases, setSeq_mem]

@[simp] theorem mem_closeDone (x : Site) (w : Nat) : (closeDone x w).c.mem = x.c.mem := by
  grind [closeDone, setField_mem, mem_closeReleases]

@[simp] theorem mem_refuse (x : Site) (k : Packet) (code : Nat) : (refuse x k code).c.mem = x.c.mem := by
  grind [refuse, send_mem]

@[simp] theorem mem_haltChan (x : Site) (i cause opc : Nat) (code : Byte) (used : Nat) (refused : Option (Fin 2)) :
    (haltChan x i cause opc code used refused).c.mem = x.c.mem := by
  unfold haltChan
  dsimp only
  split
  · split
    · split <;> simp
    · simp
  · rfl

@[simp] theorem mem_fence (x : Site) : (fence x).c.mem = x.c.mem := by
  grind [fence, setReg_mem]

@[simp] theorem mem_winCmd (x : Site) (v : W64) : (winCmd x v).c.mem = x.c.mem := by
  grind [winCmd, setField_mem, mem_openWin, mem_closeWin, mem_closeDone]

@[simp] theorem mem_beginReset (x : Site) : (beginReset x).c.mem = x.c.mem := by
  grind [beginReset]

theorem wf_commitWrite (x : Site) (h : Memory.wf x.c.mem = true) : Memory.wf (commitWrite x).c.mem = true := by
  grind [commitWrite, count_mem, send_mem, wf_storeBytes, mem_closeDone]

@[simp] theorem mem_sowNote (x : Site) (a : Accepted) : (sowNote x a).c.mem = x.c.mem := by
  grind [sowNote]

theorem wf_resetDone (x : Site) : Memory.wf (resetDone x).c.mem = true := Tab.wf_nil _

@[simp] theorem mem_writeFence (x : Site) (on : Bool) : (writeFence x on).c.mem = x.c.mem := by
  grind [writeFence, setReg_mem, mem_fence]

@[simp] theorem mem_start (x : Site) (slot : Nat) : (start x slot).c.mem = x.c.mem := by
  grind [start, setSeq_mem]

@[simp] theorem mem_stop (x : Site) : (stop x).c.mem = x.c.mem := by
  grind [stop, setSeq_mem]

@[simp] theorem mem_stopIdle (x : Site) : (stopIdle x).c.mem = x.c.mem := by
  grind [stopIdle, setSeq_mem]

@[simp] theorem mem_seqCtrl (x : Site) (v : W64) : (seqCtrl x v).c.mem = x.c.mem := by
  grind [seqCtrl, setField_mem, mem_start, mem_stop]

@[simp] theorem mem_seqSlots (x : Site) (v : W64) : (seqSlots x v).c.mem = x.c.mem := by
  grind [seqSlots, setReg_mem]

@[simp] theorem mem_zeroAmax (x : Site) : (zeroAmax x).c.mem = x.c.mem := by
  unfold zeroAmax
  exact mem_foldl (fun _ _ => by simp) _ _

theorem mem_stepWrite (x : Site) (v : W64) (roll : Site → Site) (hr : ∀ y, (roll y).c.mem = y.c.mem) :
    (stepWrite x v roll).c.mem = x.c.mem := by
  unfold stepWrite
  dsimp only
  split
  · simp [hr]
  · split <;> simp

@[simp] theorem mem_setRepair (x : Site) (bank entry : Nat) (row : Option Nat) : (setRepair x bank entry row).c.mem = x.c.mem :=
    by
  grind [setRepair]

@[simp] theorem mem_repairData (x : Site) (v : W64) : (repairData x v).c.mem = x.c.mem := by
  grind [repairData, setField_mem]

@[simp] theorem mem_copyCodeword (x : Site) (cw : Nat) : (copyCodeword x cw).c.mem = x.c.mem := by
  grind [copyCodeword, setEcc_mem, mem_check]

@[simp] theorem mem_repairDone (x : Site) : (repairDone x).c.mem = x.c.mem := by
  grind [repairDone, mem_setRepair, mem_copyCodeword]

@[simp] theorem mem_scrubCodeword (x : Site) (cw : Nat) : (scrubCodeword x cw).c.mem = x.c.mem := by
  grind [scrubCodeword, setEcc_mem, mem_check]

@[simp] theorem mem_remoteWrite (x : Site) (k : Packet) : (remoteWrite x k).1.c.mem = x.c.mem := by
  grind [remoteWrite, mem_refuse]

@[simp] theorem mem_readChunks (x : Site) (k : Packet) (a off left n : Nat) : (readChunks x k a off left n).c.mem = x.c.mem :=
    by
  induction n generalizing x a off left with
  | zero => rfl
  | succ n ih =>
    unfold readChunks
    dsimp only
    repeat' split
    · rfl
    · simp
    · simp [ih]

@[simp] theorem mem_remoteRead (x : Site) (k : Packet) : (remoteRead x k).c.mem = x.c.mem := by
  grind [remoteRead, mem_refuse, mem_readChunks]

@[simp] theorem mem_remoteToken (x : Site) (k : Packet) : (remoteToken x k).c.mem = x.c.mem := by
  grind [remoteToken, send_mem, raise_mem, push_mem, mem_refuse]

@[simp] theorem mem_issued (x : Site) : (issued x).c.mem = x.c.mem := by
  grind [issued, setSeq_mem]

@[simp] theorem mem_stay (x : Site) (h : Held) : (stay x h).c.mem = x.c.mem := by
  grind [stay, setSeq_mem]

@[simp] theorem mem_schedIllegal (x : Site) : (schedIllegal x).c.mem = x.c.mem := by
  grind [schedIllegal, mem_raiseHalt]

theorem mem_enqueue (x : Site) (w : W128) (q : List QWord) (put : List QWord → Croft → Croft)
    (hp : ∀ l c, (put l c).mem = c.mem) :
    (enqueue x w q put).c.mem = x.c.mem := by
  unfold enqueue
  split
  · simp
  · simp [hp]

@[simp] theorem mem_enqueueArray (x : Site) (op : Nat) : (enqueueArray x op).c.mem = x.c.mem := by
  grind [enqueueArray, mem_enqueue]

@[simp] theorem mem_enqueueGather (x : Site) (op : Nat) : (enqueueGather x op).c.mem = x.c.mem := by
  grind [enqueueGather, mem_enqueue]

@[simp] theorem mem_loopWord (x : Site) : (loopWord x).c.mem = x.c.mem := by
  grind [loopWord, setSeq_mem, mem_issued, mem_schedIllegal]

@[simp] theorem mem_endloopWord (x : Site) : (endloopWord x).c.mem = x.c.mem := by
  grind [endloopWord, setSeq_mem, mem_issued, mem_schedIllegal]

@[simp] theorem mem_takeStep (x : Site) : (takeStep x).c.mem = x.c.mem := by
  grind [takeStep, setSeq_mem]

@[simp] theorem mem_waitTake (x : Site) (h : Held) : (waitTake x h).c.mem = x.c.mem := by
  unfold waitTake
  repeat' split
  all_goals simp

@[simp] theorem mem_waitWord (x : Site) (step : Bool) : (waitWord x step).c.mem = x.c.mem := by
  grind [waitWord, mem_issued, mem_stay, mem_waitTake]

@[simp] theorem mem_waitEnd (x : Site) : (waitEnd x).c.mem = x.c.mem := by
  grind [waitEnd, mem_issued, mem_waitTake]

@[simp] theorem mem_waitTimeout (x : Site) : (waitTimeout x).c.mem = x.c.mem := by
  grind [waitTimeout, mem_raiseHalt, mem_waitEnd]

@[simp] theorem mem_postWord (x : Site) : (postWord x).c.mem = x.c.mem := by
  grind [postWord, push_mem, mem_issued, mem_stay]

@[simp] theorem mem_remotePost (x : Site) : (remotePost x).c.mem = x.c.mem := by
  grind [remotePost, send_mem, mem_issued]

@[simp] theorem mem_windowOpen (x : Site) : (windowOpen x).c.mem = x.c.mem := by
  grind [windowOpen, mem_raiseHalt, push_mem, mem_openWin, mem_issued, mem_stay, mem_schedIllegal]

@[simp] theorem mem_windowClose (x : Site) : (windowClose x).c.mem = x.c.mem := by
  grind [windowClose, mem_closeWin, mem_closeDone, mem_issued, mem_stay]

@[simp] theorem mem_phaseWord (x : Site) : (phaseWord x).c.mem = x.c.mem := by
  grind [phaseWord, mem_stay]

@[simp] theorem mem_phaseEnd (x : Site) : (phaseEnd x).c.mem = x.c.mem := by
  grind [phaseEnd, setSeq_mem, mem_issued, mem_schedIllegal]

@[simp] theorem mem_haltWord (x : Site) : (haltWord x).c.mem = x.c.mem := by
  grind [haltWord, mem_seqHalt, mem_issued]

@[simp] theorem mem_reachIllegal (x : Site) : (reachIllegal x).c.mem = x.c.mem := by
  grind [reachIllegal, mem_schedIllegal]

@[simp] theorem mem_startChan (x : Site) (i pc : Nat) (c0 : W32) (slot : Option Nat) : (startChan x i pc c0 slot).c.mem =
    x.c.mem := by
  grind [startChan, setChan_mem]

@[simp] theorem mem_carterStart (x : Site) : (carterStart x).c.mem = x.c.mem := by
  grind [carterStart, mem_raiseHalt, push_mem, mem_issued, mem_stay, mem_startChan]

@[simp] theorem mem_carterAbort (x : Site) : (carterAbort x).c.mem = x.c.mem := by
  grind [carterAbort, setChan_mem, mem_issued]

@[simp] theorem mem_carterDestroy (x : Site) : (carterDestroy x).c.mem = x.c.mem := by
  grind [carterDestroy, setChan_mem, mem_issued]

@[simp] theorem mem_carErr (x : Site) (on : Bool) : (carErr x on).c.mem = x.c.mem := rfl

@[simp] theorem mem_carCmd (x : Site) (v : W64) : (carCmd x v).c.mem = x.c.mem := by
  grind [carCmd, setField_mem, setChan_mem, mem_startChan, mem_carErr]

@[simp] theorem mem_openTile (x : Site) (a : Nat) (opc : W16) (takes : Tile → Bool) : (openTile x a opc takes).x.c.mem = x.c.mem
    := by
  grind [openTile, count_mem, mem_readBytes]

@[simp] theorem mem_readResid (x : Site) (t : Tile) (l b : Nat) (opc : W16) : (readResid x t l b opc).x.c.mem = x.c.mem := by
  grind [readResid, count_mem, mem_readBytes]

@[simp] theorem mem_addResids (x : Site) (t : Tile) (l : Nat) (vs : List FV) (opc : W16) : (addResids x t l vs opc).x.c.mem =
    x.c.mem :=
  mem_foldl_of (g := TileRead.x) (fun _ _ => by simp) _ _

@[simp] theorem mem_denseLine (x : Site) (t : Tile) (l : Nat) (opc : W16) : (denseLine x t l opc).x.c.mem = x.c.mem := by
  grind [denseLine, mem_readBytes, mem_addResids]

@[simp] theorem mem_sparseHalf (x : Site) (t : Tile) (l bk : Nat) (opc : W16) : (sparseHalf x t l bk opc).x.c.mem = x.c.mem :=
    by
  grind [sparseHalf, mem_readBytes]

@[simp] theorem mem_metaLine (x : Site) (t : Tile) (l : Nat) (opc : W16) : (metaLine x t l opc).x.c.mem = x.c.mem := by
  grind [metaLine, mem_readBytes]

@[simp] theorem mem_tileLine (x : Site) (t : Tile) (l : Nat) (opc : W16) : (tileLine x t l opc).x.c.mem = x.c.mem := by
  grind [tileLine, mem_denseLine, mem_sparseHalf, mem_metaLine]

@[simp] theorem mem_tileLines (x : Site) (t : Tile) (opc : W16) (n : Nat) : (tileLines x t opc n).x.c.mem = x.c.mem := by
  induction n with
  | zero => rfl
  | succ n ih =>
    unfold tileLines
    dsimp only
    repeat' split
    all_goals simp [ih]

@[simp] theorem mem_stepEvents (x : Site) (e : Events) : (stepEvents x e).c.mem = x.c.mem := by
  grind [stepEvents]

@[simp] theorem mem_arrEvents (x : Site) (e : Events) : (arrEvents x e).c.mem = x.c.mem := by
  grind [arrEvents, count_mem, mem_stepEvents]

@[simp] theorem mem_vecEvents (x : Site) (e : Events) : (vecEvents x e).c.mem = x.c.mem := by
  grind [vecEvents, count_mem, mem_stepEvents]

@[simp] theorem mem_foldAmax (x : Site) (o : Nat) (v : W32) : (foldAmax x o v).c.mem = x.c.mem := by
  grind [foldAmax, setReg_mem]

@[simp] theorem mem_arrFaulted (x : Site) (code : Nat) (q : QWord) : (arrFaulted x code q).c.mem = x.c.mem := by
  grind [arrFaulted, mem_raiseHalt]

@[simp] theorem mem_gthLog (x : Site) (op line addr : Nat) : (gthLog x op line addr).c.mem = x.c.mem := by
  grind [gthLog, setReg_mem]

@[simp] theorem mem_gthFaulted (x : Site) (code : Nat) (q : QWord) (op line addr : Nat) :
    (gthFaulted x code q op line addr).c.mem = x.c.mem := by
  grind [gthFaulted, mem_raiseHalt, mem_gthLog]

@[simp] theorem mem_vecFaulted (x : Site) (code : Nat) (q : QWord) (stream instr beat : Nat) :
    (vecFaulted x code q stream instr beat).c.mem = x.c.mem := by
  grind [vecFaulted, mem_raiseHalt, mem_vecLog]

theorem mem_tileFault (x : Site) (e : TileErr) (q : QWord) (own : Site → Site) (op line addr : Nat)
    (ho : (own x).c.mem = x.c.mem) : (tileFault x e q own op line addr).c.mem = x.c.mem := by
  cases e
  case header | foreign => exact ho
  all_goals simp [tileFault]

@[simp] theorem mem_mismatch (x : Site) (q : QWord) (sbuf part row : Nat) : (mismatch x q sbuf part row).c.mem = x.c.mem := by
  grind [mismatch, setReg_mem, raise_mem]

@[simp] theorem mem_nextLine (x : Site) (c : Cursor) (opc : W16) (takes : Tile → Bool) : (nextLine x c opc takes).x.c.mem =
    x.c.mem := by
  grind [nextLine, mem_openTile, mem_tileLine]

@[simp] theorem mem_seekLine (x : Site) (a l : Nat) (opc : W16) (n : Nat) : (seekLine x a l opc n).x.c.mem = x.c.mem := by
  induction n generalizing x a l with
  | zero => rfl
  | succ n ih =>
    unfold seekLine
    dsimp only
    repeat' split
    all_goals simp [ih]

@[simp] theorem mem_nextLines (x : Site) (c : Cursor) (opc : W16) (n : Nat) : (nextLines x c opc n).x.c.mem = x.c.mem := by
  induction n with
  | zero => rfl
  | succ n ih =>
    unfold nextLines
    dsimp only
    repeat' split
    all_goals simp [ih]

@[simp] theorem mem_readList (x : Site) (a : Nat) (opc : W16) : (readList x a opc).x.c.mem = x.c.mem := by
  grind [readList, mem_readBytes]

@[simp] theorem mem_kBlock (x : Site) (f : Feed) (fmt kb i : Nat) (opc : W16) : (kBlock x f fmt kb i opc).x.c.mem = x.c.mem :=
    by
  grind [kBlock, mem_openTile, mem_tileLine]

@[simp] theorem mem_kLine (x : Site) (f : Feed) (fmt i : Nat) (kbs : List Nat) (opc : W16) : (kLine x f fmt i kbs opc).x.c.mem =
    x.c.mem := by
  unfold kLine
  refine mem_foldl_of (g := TileRead.x) (fun _ _ => ?_) _ _
  dsimp only
  repeat' split
  all_goals simp

@[simp] theorem mem_feedFails (x : Site) (f : Feed) (e : TileErr) (p : Spot) : (feedFails x f e p).1.c.mem = x.c.mem := by
  grind [feedFails, mem_arrFaulted, mem_gthFaulted, mem_tileFault]

@[simp] theorem mem_feedMissing (x : Site) (f : Feed) (p : Spot) : (feedMissing x f p).1.c.mem = x.c.mem := by
  grind [feedMissing, mem_gthFaulted]

@[simp] theorem mem_feed24 (x : Site) (f : Feed) (i : Nat) : (feed24 x f i).1.c.mem = x.c.mem := by
  grind [feed24, mem_nextLine, mem_feedFails]

@[simp] theorem mem_feedSource (x : Site) (f : Feed) (i : Nat) (takes : Tile → Bool) : (feedSource x f i takes).x.c.mem =
    x.c.mem := by
  grind [feedSource, mem_openTile]

@[simp] theorem mem_feedMerge (x : Site) (f : Feed) (i total : Nat) (pairs : Nat → Bool) : (feedMerge x f i total pairs).1.c.mem
    = x.c.mem := by
  grind [feedMerge, mem_readBytes, mem_arrFaulted, mem_kLine, mem_feedFails, mem_feedMissing, mem_feedSource]

@[simp] theorem mem_feedK (x : Site) (f : Feed) (fmt i : Nat) : (feedK x f fmt i).1.c.mem = x.c.mem := by
  grind [feedK, mem_kLine, mem_feedFails, mem_feedMissing]

@[simp] theorem mem_feedLines (x : Site) (f : Feed) (src : Tile) (i : Nat) : (feedLines x f src i).1.c.mem = x.c.mem := by
  grind [feedLines, mem_openTile, mem_tileLine, mem_feedFails, mem_feedMissing]

@[simp] theorem mem_feedList (x : Site) (f : Feed) (i total : Nat) (pairs : Nat → Bool) : (feedList x f i total pairs).1.c.mem =
    x.c.mem := by
  grind [feedList, mem_arrFaulted, mem_gthFaulted, mem_readList, mem_feedFails, mem_feedMissing, mem_feedSource, mem_feedK, mem_feedLines]

@[simp] theorem mem_feedLine (x : Site) (f : Feed) (i total : Nat) (pairs : Nat → Bool) : (feedLine x f i total pairs).1.c.mem =
    x.c.mem := by
  grind [feedLine, mem_feed24, mem_feedMerge, mem_feedList]

@[simp] theorem mem_rawBlock (x : Site) (t : Tile) (h bk : Nat) (opc : W16) : (rawBlock x t h bk opc).x.c.mem = x.c.mem := by
  unfold rawBlock
  refine mem_foldl_of (g := TileRead.x) (fun _ _ => ?_) _ _
  dsimp only
  repeat' split
  all_goals simp

@[simp] theorem mem_rowTiles (x : Site) (a : Nat) (opc : W16) (n : Nat) : (rowTiles x a opc n).x.c.mem = x.c.mem := by
  induction n with
  | zero => rfl
  | succ n ih =>
    unfold rowTiles
    dsimp only
    repeat' split
    all_goals simp [ih]

@[simp] theorem mem_entryBlock (x : Site) (ts : List Tile) (f : Nat) (ls : List (Nat × Nat)) (h k : Nat) (opc : W16) :
    (entryBlock x ts f ls h k opc).x.c.mem = x.c.mem := by
  grind [entryBlock, mem_rawBlock]

@[simp] theorem mem_entryBlocks (x : Site) (ts : List Tile) (f : Nat) (opc : W16) (es : List (List (Nat × Nat) × Nat × Nat)) :
    (entryBlocks x ts f opc es).x.c.mem = x.c.mem := by
  unfold entryBlocks
  refine mem_foldl_of (g := TileRead.x) (fun _ _ => ?_) _ _
  dsimp only
  repeat' split
  all_goals simp

@[simp] theorem mem_compact (x : Site) (ts : List Tile) (f p : Nat) (T : W32) (l0 l1 : List (Nat × Nat)) (opc : W16) :
    (compact x ts f p T l0 l1 opc).x.c.mem = x.c.mem := by
  grind [compact, mem_entryBlocks]

@[simp] theorem mem_gathDone (x : Site) (q : QWord) (n : Nat) : (gathDone x q n).c.mem = x.c.mem := by
  grind [gathDone]

theorem wf_compactAll (x : Site) (q : QWord) (ts : List Tile) (f : Nat) (T : W32) (l0 l1 : List (Nat × Nat)) (n : Nat)
    (h : Memory.wf x.c.mem = true) : Memory.wf (compactAll x q ts f T l0 l1 n).x.c.mem = true := by
  induction n with
  | zero => exact h
  | succ n ih =>
    unfold compactAll
    dsimp only
    repeat' split
    · exact ih
    · exact wf_leaveOpen _ _ _ (by simpa using ih)
    · exact wf_writeBytes _ _ _ _ _ (by simpa using ih)

theorem wf_runMerge (x : Site) (q : QWord) (h : Memory.wf x.c.mem = true) : Memory.wf (runMerge x q).c.mem = true := by
  grind [runMerge, wf_writeBytes, mem_gthFaulted, mem_tileFault, mem_rowTiles, mem_gathDone, wf_compactAll]

@[simp] theorem mem_setPredCounts (x : Site) (k : Nat) (v : PredCounts) : (setPredCounts x k v).c.mem = x.c.mem := by
  grind [setPredCounts]

@[simp] theorem mem_sketch (x : Site) (a : Nat) (th g : FV) (opc : W16) (n : Nat) : (sketch x a th g opc n).x.c.mem = x.c.mem :=
    by
  induction n with
  | zero => rfl
  | succ n ih =>
    unfold sketch
    dsimp only
    repeat' split
    all_goals simp [ih]

theorem wf_runSelect (x : Site) (q : QWord) (h : Memory.wf x.c.mem = true) : Memory.wf (runSelect x q).c.mem = true := by
  grind [runSelect, wf_writeBytes, mem_gthFaulted, mem_tileFault, mem_gathDone, mem_setPredCounts, mem_sketch]

@[simp] theorem mem_activation (x : Site) (a e : Nat) (opc : W16) : (activation x a e opc).x.c.mem = x.c.mem := by
  grind [activation, mem_seekLine, mem_nextLines]

@[simp] theorem mem_gleaned (x : Site) (q : QWord) (es : List Nat) (eps : FV) (n : Nat) : (gleaned x q es eps n).x.c.mem =
    x.c.mem := by
  induction n with
  | zero => rfl
  | succ n ih =>
    unfold gleaned
    dsimp only
    repeat' split
    all_goals simp [ih]

theorem wf_runGlean (x : Site) (q : QWord) (h : Memory.wf x.c.mem = true) : Memory.wf (runGlean x q).c.mem = true := by
  grind [runGlean, mem_seqHalt, wf_writeBytes, mem_gthFaulted, mem_tileFault, mem_readList, mem_gathDone, mem_setPredCounts, mem_gleaned]

theorem wf_advance (x : Site) (n : Nat) (h : Memory.wf x.c.mem = true) : Memory.wf (advance x n).c.mem = true := by
  induction n generalizing x with
  | zero => exact h
  | succ n ih =>
    unfold advance
    dsimp only
    repeat' split
    · exact h
    · exact ih _ h
    · exact h
    · exact h
    · exact wf_runMerge _ _ h
    · exact wf_runSelect _ _ h
    · exact wf_runGlean _ _ h

@[simp] theorem mem_complete (x : Site) : (complete x).c.mem = x.c.mem := by
  grind [complete, push_mem, mem_gathDone]

theorem wf_gatherComplete (x : Site) (h : Memory.wf x.c.mem = true) : Memory.wf (gatherComplete x).c.mem = true := by
  grind [gatherComplete, mem_gathDone, wf_advance, mem_complete]

theorem wf_gatherWord (x : Site) (op : Nat) (h : Memory.wf x.c.mem = true) : Memory.wf (gatherWord x op).c.mem = true := by
  grind [gatherWord, mem_enqueueGather, wf_advance]

@[simp] theorem mem_rollSlot (x : Site) (k : Nat) : (rollSlot x k).c.mem = x.c.mem := by
  grind [rollSlot, setReg_mem, setField_mem, raise_mem, mem_gthLog, mem_setPredCounts, mem_gleaned]

/-- The site with its predictors' waiting writes dropped. A step change is told apart from its slots' fold by this name, so that
no check has to evaluate the fold. -/
def noPredNext (x : Site) : Site := { x with c := { x.c with predNext := [] } }

theorem roll_eq (x : Site) : x.roll = ((List.range 16).foldl rollSlot x).noPredNext := rfl

theorem mem_noPredNext (x : Site) : x.noPredNext.c.mem = x.c.mem := rfl

@[simp] theorem mem_roll (x : Site) : (roll x).c.mem = x.c.mem := by
  rw [roll_eq, mem_noPredNext]
  exact mem_foldl mem_rollSlot _ _

@[simp] theorem mem_predWrite (x : Site) (k : Nat) (win : Bool) (v : W32) : (predWrite x k win v).c.mem = x.c.mem := by
  grind [predWrite]

@[simp] theorem mem_readStall (x : Site) : (readStall x).1.c.mem = x.c.mem := by
  unfold readStall
  split <;> rfl

@[simp] theorem mem_readReg (x : Site) (o n : Nat) : (readReg x o n).1.c.mem = x.c.mem := by
  grind [readReg, setReg_mem, mem_readStall]

@[simp] theorem mem_writeCtrl (x : Site) (v : W64) : (writeCtrl x v).c.mem = x.c.mem := by
  grind [writeCtrl, mem_beginReset, mem_writeFence]

@[simp] theorem mem_writeReg (x : Site) (o n : Nat) (v : W64) : (writeReg x o n v).c.mem = x.c.mem := by
  have hs := mem_stepWrite x v roll mem_roll
  unfold writeReg
  cases findReg croftMap o with
  | none => rfl
  | some d =>
    cases predReg o with
    | none => simp [hs]
    | some e => simp [hs]

@[simp] theorem mem_regReply (x : Site) (k : Packet) (v : W64) : (regReply x k v).c.mem = x.c.mem := by
  grind [regReply, send_mem]

@[simp] theorem mem_regWritePacket (x : Site) (k : Packet) : (regWritePacket x k).c.mem = x.c.mem := by
  grind [regWritePacket, mem_refuse, mem_writeReg, mem_regReply]

@[simp] theorem mem_regReadPacket (x : Site) (k : Packet) : (regReadPacket x k).c.mem = x.c.mem := by
  grind [regReadPacket, mem_refuse, mem_readReg, mem_regReply]

@[simp] theorem mem_modChan (x : Site) (i : Nat) (f : Chan → Chan) : (modChan x i f).c.mem = x.c.mem := by
  grind [modChan, setChan_mem]

@[simp] theorem mem_useTag (x : Site) (i : Nat) : (useTag x i).c.mem = x.c.mem := by
  grind [useTag, mem_modChan]

@[simp] theorem mem_request (x : Site) (i : Nat) (k : Packet) (dst len : Nat) : (request x i k dst len).c.mem = x.c.mem := by
  grind [request, send_mem, mem_modChan, mem_useTag]

@[simp] theorem mem_carFetch (x : Site) (i : Nat) : (carFetch x i).1.c.mem = x.c.mem := by
  grind [carFetch, count_mem, mem_check, mem_haltChan, mem_modChan]

theorem mem_carInstr (x : Site) (i : Nat) (p : W256 → Bool) (f : Site → W256 → Site) (hf : ∀ y w, (f y w).c.mem = y.c.mem) :
    (carInstr x i p f).c.mem = x.c.mem := by
  unfold carInstr
  dsimp only
  repeat' split
  all_goals simp [hf]

theorem wf_carInstr (x : Site) (i : Nat) (p : W256 → Bool) (f : Site → W256 → Site)
    (hf : ∀ y w, Memory.wf y.c.mem = true → Memory.wf (f y w).c.mem = true) (h : Memory.wf x.c.mem = true) :
    Memory.wf (carInstr x i p f).c.mem = true := by
  unfold carInstr
  dsimp only
  repeat' split
  all_goals simp [hf, h]

@[simp] theorem mem_takeRegBytes (x : Site) (i a : Nat) (bs : List Byte) : (takeRegBytes x i a bs).1.c.mem = x.c.mem := by
  induction bs generalizing x a with
  | nil => rfl
  | cons b bs ih =>
    unfold takeRegBytes
    dsimp only
    repeat' split
    all_goals simp [ih]

theorem wf_localStore (x : Site) (i a : Nat) (bs : List Byte) (opc : Nat) (cls : Bool) (h : Memory.wf x.c.mem = true) :
    Memory.wf (localStore x i a bs opc cls).1.c.mem = true := by
  grind [localStore, wf_writeBytes, mem_takeRegBytes]

@[simp] theorem mem_readUnits (x : Site) (opc : Nat) (cls : Bool) (known : List (Nat × List Byte)) (us : List Nat) :
    (readUnits x opc cls known us).1.c.mem = x.c.mem := by
  induction us generalizing x with
  | nil => rfl
  | cons u us ih =>
    unfold readUnits
    dsimp only
    repeat' split
    all_goals simp [ih]

@[simp] theorem mem_gatherOut (x : Site) (m : Moving) (p n : Nat) (opc : Nat) : (gatherOut x m p n opc).1.c.mem = x.c.mem := by
  grind [gatherOut, mem_readUnits]

@[simp] theorem mem_localError (x : Site) (i : Nat) (m : Moving) (opc : Nat) : (localError x i m opc).c.mem = x.c.mem := by
  grind [localError, mem_haltChan, mem_modChan, mem_useTag]

@[simp] theorem mem_moved (x : Site) (i : Nat) (m : Moving) (n done : Nat) : (moved x i m n done).c.mem = x.c.mem := by
  grind [moved, mem_modChan]

theorem wf_movePiece {x y : Site} {far : Far} {i : Nat} {m : Moving} {opc : Nat} (hy : movePiece x far i m opc = some y)
    (h : Memory.wf x.c.mem = true) : Memory.wf y.c.mem = true := by
  unfold movePiece at hy
  dsimp only at hy
  generalize (if m.dst = 0 then if region (m.dstAt m.next) = .block then 4 else 32
    else if m.dst = 3 then 4 else 512) = most at hy
  repeat' split at hy
  all_goals simp only [reduceCtorEq, Option.some.injEq] at hy
  all_goals subst hy
  all_goals simp only [mem_moved, mem_request, mem_localError, mem_gatherOut, send_mem, mem_useTag]
  · exact h
  · exact h
  · exact wf_localStore _ _ _ _ _ _ (by simpa using h)
  · exact h
  · exact h

theorem wf_pump (x : Site) (far : Far) (i opc n : Nat) (h : Memory.wf x.c.mem = true) : Memory.wf (pump x far i opc n).c.mem =
    true := by
  induction n generalizing x with
  | zero => exact h
  | succ n ih =>
    unfold pump
    repeat' split
    · exact h
    · exact h
    · simpa using h
    · exact h
    · next hy => exact ih _ (wf_movePiece hy h)

theorem wf_beginMove (x : Site) (far : Far) (i : Nat) (w : W256) (h : Memory.wf x.c.mem = true) : Memory.wf
    (beginMove x far i w).c.mem = true := by
  grind [beginMove, raise_mem, mem_haltChan, mem_modChan, wf_pump]

theorem wf_moveCmd (x : Site) (far : Far) (i rs : Nat) (h : Memory.wf x.c.mem = true) :
    Memory.wf (moveCmd x far i rs).c.mem = true := by
  unfold moveCmd
  extract_lets opc
  split
  · split
    · exact wf_pump _ _ _ _ _ h
    · exact h
  · exact wf_carInstr _ _ _ _ (fun y w hy => wf_beginMove y far i w hy) h

@[simp] theorem mem_loopInstr (x : Site) (i : Nat) : (loopInstr x i).c.mem = x.c.mem := by
  grind [loopInstr, mem_modChan, mem_carInstr]

@[simp] theorem mem_carWaitTake (x : Site) (i : Nat) (w : W256) : (carWaitTake x i w).c.mem = x.c.mem := by
  grind [carWaitTake, setReg_mem, setQueue_mem, mem_modChan]

@[simp] theorem mem_waitInstr (x : Site) (i on : Nat) : (waitInstr x i on).c.mem = x.c.mem := by
  grind [waitInstr, mem_modChan, mem_carInstr, mem_carWaitTake]

@[simp] theorem mem_carWaitEnd (x : Site) (i : Nat) : (carWaitEnd x i).c.mem = x.c.mem := by
  grind [carWaitEnd, mem_carWaitTake]

@[simp] theorem mem_carWaitTimeout (x : Site) (i : Nat) : (carWaitTimeout x i).c.mem = x.c.mem := by
  grind [carWaitTimeout, mem_haltChan, mem_carWaitTake]

@[simp] theorem mem_signalInstr (x : Site) (i to_ : Nat) : (signalInstr x i to_).c.mem = x.c.mem := by
  grind [signalInstr, setReg_mem, push_mem, mem_modChan, mem_request, mem_carInstr]

@[simp] theorem mem_endWait (x : Site) (i : Nat) : (endWait x i).c.mem = x.c.mem := by
  grind [endWait, mem_modChan]

@[simp] theorem mem_endInstr (x : Site) (i : Nat) : (endInstr x i).c.mem = x.c.mem := by
  grind [endInstr, mem_carInstr, mem_endWait]

@[simp] theorem mem_carIllegal (x : Site) (i : Nat) : (carIllegal x i).c.mem = x.c.mem := by
  grind [carIllegal, mem_haltChan, mem_carFetch]

@[simp] theorem mem_setSbuf (x : Site) (b : Nat) (v : SBuf) : (setSbuf x b v).c.mem = x.c.mem := by
  grind [setSbuf]

@[simp] theorem mem_loadRun (x : Site) (q : QWord) : (loadRun x q).c.mem = x.c.mem := by
  grind [loadRun, count_mem, mem_openTile, mem_tileLines, mem_arrFaulted, mem_tileFault, mem_setSbuf]

@[simp] theorem mem_loadStart (x : Site) : (loadStart x).c.mem = x.c.mem := by
  grind [loadStart, stalls_mem, mem_loadRun]

@[simp] theorem mem_loadReady (x : Site) : (loadReady x).c.mem = x.c.mem := by
  grind [loadReady, mem_setSbuf]

@[simp] theorem mem_checksum (x : Site) (q : QWord) (v : SBuf) (a : List FV) (b : Option (List FV)) (ps : List FV)
    (row part : Nat) :
    (checksum x q v a b ps row part).c.mem = x.c.mem := by
  unfold checksum
  dsimp only
  split
  · rw [mem_foldl fun y i => mem_mismatch _ _ _ _ _]
    simp
  · simp

@[simp] theorem mem_checkAcc (x : Site) (r : Nat) (opc : W16) (poison : Bool) : (checkAcc x r opc poison).1.c.mem = x.c.mem :=
    by
  unfold checkAcc
  exact mem_foldl_of (g := Prod.fst) (fun _ _ => by dsimp only; split <;> simp) _ _

theorem wf_storeRow (x : Site) (r : Nat) (ws : List W32) (h : Memory.wf x.c.mem = true) : Memory.wf (storeRow x r ws).c.mem =
    true := by
  grind [storeRow, wf_store]

theorem wf_writeRow (x : Site) (r : Nat) (vs : List FV) (h : Memory.wf x.c.mem = true) : Memory.wf (writeRow x r vs).c.mem =
    true := by
  grind [writeRow, mem_arrEvents, wf_storeRow]

@[simp] theorem mem_setTaken (x : Site) (f : Feed) : (setTaken x f).c.mem = x.c.mem := by
  grind [setTaken]

@[simp] theorem mem_endStream (x : Site) (complete : Bool) : (endStream x complete).c.mem = x.c.mem := by
  grind [endStream, mem_gathDone]

@[simp] theorem mem_streamStart (x : Site) : (streamStart x).c.mem = x.c.mem := by
  unfold streamStart
  cases x.c.arrayQ with
  | nil => rfl
  | cons q rest =>
    dsimp only
    cases x.c.feeds.find? fun f => !f.taken with
    | none => simp
    | some f => simp

@[simp] theorem mem_streamInput (x : Site) (r : StreamRun) (v : SBuf) : (streamInput x r v).1.c.mem = x.c.mem := by
  grind [streamInput, mem_arrFaulted, mem_tileFault, mem_nextLine, mem_feedLine, mem_setTaken]

theorem wf_streamLine (x : Site) (h : Memory.wf x.c.mem = true) : Memory.wf (streamLine x).c.mem = true := by
  grind [streamLine, stalls_mem, mem_seqHalt, mem_checksum, mem_checkAcc, wf_writeRow, mem_endStream, mem_streamInput]

theorem wf_addinLine (x : Site) (h : Memory.wf x.c.mem = true) : Memory.wf (addinLine x).c.mem = true := by
  grind [addinLine, stalls_mem, mem_seqHalt, mem_arrFaulted, mem_tileFault, mem_nextLine, mem_checkAcc, wf_writeRow, mem_endStream]

@[simp] theorem mem_tallyWord (x : Site) : (tallyWord x).c.mem = x.c.mem := by
  grind [tallyWord, send_mem, mem_issued]

@[simp] theorem mem_failReq (x : Site) (i : Nat) (r : Req) (cause code : Nat) (permits : Bool) :
    (failReq x i r cause code permits).c.mem = x.c.mem := by
  grind [failReq, setChan_mem, mem_haltChan]

theorem wf_readArrives (x : Site) (i : Nat) (r : Req) (k : Packet) (h : Memory.wf x.c.mem = true) : Memory.wf
    (readArrives x i r k).c.mem = true := by
  grind [readArrives, setChan_mem, mem_modChan, wf_localStore]

theorem wf_carAnswer (x : Site) (i : Nat) (k : Packet) (h : Memory.wf x.c.mem = true) : Memory.wf (carAnswer x i k).c.mem = true
    := by
  grind [carAnswer, count_mem, mem_modChan, mem_endWait, mem_failReq, wf_readArrives]

@[simp] theorem mem_postAnswer (x : Site) (k : Packet) : (postAnswer x k).c.mem = x.c.mem := by
  grind [postAnswer, raise_mem]

@[simp] theorem mem_retry (x : Site) (i : Nat) (tag : W16) : (retry x i tag).c.mem = x.c.mem := by
  grind [retry, count_mem, send_mem, mem_modChan, mem_useTag]

@[simp] theorem mem_requestTimeout (x : Site) (i : Nat) (tag : W16) : (requestTimeout x i tag).c.mem = x.c.mem := by
  grind [requestTimeout, mem_failReq]

@[simp] theorem mem_sowClear (x : Site) (c0 c1 : Nat) : (sowClear x c0 c1).c.mem = x.c.mem := by
  grind [sowClear]

@[simp] theorem mem_chunkCheck (x : Site) (c round : Nat) : (chunkCheck x c round).1.c.mem = x.c.mem := by
  grind [chunkCheck, mem_readBytes]

@[simp] theorem mem_addRepair (x : Site) (bank row : Nat) : (addRepair x bank row).1.c.mem = x.c.mem := by
  grind [addRepair, mem_setRepair]

@[simp] theorem mem_loadRepairs (x : Site) (l : List (Nat × Nat)) : (loadRepairs x l).1.c.mem = x.c.mem := by
  induction l generalizing x with
  | nil => rfl
  | cons e l ih => simp [loadRepairs, ih]

@[simp] theorem mem_lift (x : Site) : (lift x).c.mem = x.c.mem := by
  grind [lift, mem_writeFence]

@[simp] theorem mem_drainFinish (x : Site) : (drainFinish x).c.mem = x.c.mem := by
  grind [drainFinish, mem_foldAmax]

@[simp] theorem mem_drainStart (x : Site) : (drainStart x).c.mem = x.c.mem := by
  grind [drainStart, stalls_mem, mem_arrFaulted, mem_drainFinish]

@[simp] theorem mem_paramColumns (x : Site) (q : QWord) : (paramColumns x q).1.c.mem = x.c.mem := by
  grind [paramColumns, mem_readBytes]

theorem wf_readAgain (x : Site) (r : DrainRun) (h : Memory.wf x.c.mem = true) : Memory.wf (readAgain x r).1.c.mem = true := by
  unfold readAgain
  refine List.foldlRecOn (motive := fun s : Site × Bool => Memory.wf s.1.c.mem = true) _ _ h fun s hs i _ => ?_
  dsimp only
  repeat' split
  · exact hs
  · simpa using hs
  · exact wf_storeRow _ _ _ (by simpa using hs)
  · simpa using hs

theorem wf_drainStop (x : Site) (h : Memory.wf x.c.mem = true) : Memory.wf (drainStop x).c.mem = true := by
  grind [drainStop, mem_seqHalt, wf_leaveOpen]

@[simp] theorem mem_drainEvents (x : Site) (r : DrainRun) (ev : Events) : (drainEvents x r ev).1.c.mem = x.c.mem := by
  grind [drainEvents, mem_arrEvents]

theorem wf_drainTile (x : Site) (r : DrainRun) (h : Memory.wf x.c.mem = true) : Memory.wf (drainTile x r).c.mem = true := by
  grind [drainTile, wf_writeBytes, wf_readAgain, wf_drainStop, mem_drainEvents]

theorem wf_drainRow (x : Site) (h : Memory.wf x.c.mem = true) : Memory.wf (drainRow x).c.mem = true := by
  grind [drainRow, stalls_mem, mem_checkAcc, wf_storeRow, mem_paramColumns, wf_drainStop, mem_drainEvents, wf_drainTile]

@[simp] theorem mem_checkList (x : Site) (cws : List Nat) (opc : W16) : (checkList x cws opc).1.c.mem = x.c.mem :=
  mem_foldl_of (g := Prod.fst) (fun _ _ => by simp) _ _

@[simp] theorem mem_readFlat (x : Site) (q : QWord) (s : Nat) (d : W64) (e n beat : Nat) : (readFlat x q s d e n beat).x.c.mem =
    x.c.mem := by
  grind [readFlat, mem_seqHalt, mem_vecFaulted, mem_checkList]

@[simp] theorem mem_readTileLine (x : Site) (q : QWord) (s : Nat) (d : W64) (c : Cursor) (beat : Nat) :
    (readTileLine x q s d c beat).1.x.c.mem = x.c.mem := by
  grind [readTileLine, mem_vecEvents, mem_vecFaulted, mem_tileFault, mem_nextLine]

@[simp] theorem mem_readTileLines (x : Site) (q : QWord) (s : Nat) (d : W64) (c : Cursor) (beat n : Nat) :
    (readTileLines x q s d c beat n).1.x.c.mem = x.c.mem := by
  induction n with
  | zero => rfl
  | succ n ih =>
    unfold readTileLines
    dsimp only
    repeat' split
    all_goals simp [ih]

@[simp] theorem mem_readInputs (x : Site) (v : VecRun) (ss : List Nat) (e n : Nat) : (readInputs x v ss e n).1.c.mem = x.c.mem
    := by
  unfold readInputs
  refine mem_foldl_of (g := Prod.fst) (fun _ _ => ?_) _ _
  dsimp only
  repeat' split
  all_goals simp

theorem wf_commitOut (x : Site) (w : VecWrite) (h : Memory.wf x.c.mem = true) : Memory.wf (commitOut x w).c.mem = true := by
  grind [commitOut, wf_store]

theorem wf_vectorFinish (x : Site) (h : Memory.wf x.c.mem = true) : Memory.wf (vectorFinish x).c.mem = true := by
  unfold vectorFinish
  split
  · exact h
  · next v _ =>
    have hw := wf_foldl (fun y w hy => wf_commitOut y w hy) v.pending x h
    dsimp only
    split
    · exact h
    · split <;> simpa using hw

@[simp] theorem mem_readScalars (x : Site) (q : QWord) (ds : List W64) (ss : List Nat) : (readScalars x q ds ss).1.c.mem =
    x.c.mem := by
  unfold readScalars
  refine mem_foldl_of (g := Prod.fst) (fun _ _ => ?_) _ _
  dsimp only
  repeat' split
  all_goals simp

@[simp] theorem mem_vectorRun (x : Site) (q : QWord) : (vectorRun x q).c.mem = x.c.mem := by
  grind [vectorRun, mem_vecFaulted, mem_readScalars]

theorem wf_vectorStart (x : Site) (h : Memory.wf x.c.mem = true) : Memory.wf (vectorStart x).c.mem = true := by
  grind [vectorStart, stalls_mem, wf_vectorFinish, mem_vectorRun]

theorem wf_commits (x : Site) (ws : List VecWrite) (h : Memory.wf x.c.mem = true) : Memory.wf (ws.foldl commitOut x).c.mem =
    true :=
  wf_foldl (fun y w hy => wf_commitOut y w hy) ws x h

theorem wf_commitDue (x : Site) (v : VecRun) (h : Memory.wf x.c.mem = true) : Memory.wf (commitDue x v).1.c.mem = true :=
  wf_foldl (fun y w hy => wf_commitOut y w hy) _ x h

@[simp] theorem mem_residue (x : Site) (v : VecRun) (prog : List Ins) : (residue x v prog).c.mem = x.c.mem := by
  grind [residue, raise_mem, mem_vecLog]

theorem wf_vectorStop (x : Site) (h : Memory.wf x.c.mem = true) : Memory.wf (vectorStop x).c.mem = true := by
  unfold vectorStop
  dsimp only
  split
  · split
    · exact wf_commits _ _ h
    · exact wf_leaveOpen _ _ _ (wf_commits _ _ h)
  · exact h

@[simp] theorem mem_beatDone (x : Site) (v : VecRun) (prog : List Ins) (els : List Elem) (cursors : List (Nat × Cursor))
    (t : Option TileStep) : (beatDone x v prog els cursors t).c.mem = x.c.mem := by
  have hf (y : Site) (l : List (List VecWrite × Events)) : (l.foldl (fun x w => x.vecEvents w.2) y).c.mem = y.c.mem :=
    mem_foldl (fun _ _ => by simp) l y
  unfold beatDone
  dsimp only
  cases t <;> simp [hf]

theorem wf_beat (x : Site) (h : Memory.wf x.c.mem = true) : Memory.wf (beat x).c.mem = true := by
  unfold beat
  split
  · exact h
  · next v0 _ =>
    dsimp only
    have hc := wf_commitDue x v0 h
    repeat' split
    · exact h
    · exact wf_vectorStop _ h
    · exact wf_vectorStop _ (by simpa using hc)
    · exact wf_vectorStop _ (by simpa using hc)
    · exact wf_vectorStop _ (by simpa using hc)
    · simpa using hc

end Site
end Sys2Proof.Machine

/-! The memories of the module, croft by croft, steward by steward, the ledger's and the ports', and what every operation over
the module does to them. -/

namespace Sys2Proof.Machine
open Sys2Proof.Safety

namespace Gate

/-- The permuted buffers of a gate's ports. -/
def perms (g : Gate) : Nat → Memory := fun k => (g.port k).permuted

@[simp] theorem perms_setPort (g : Gate) (k : Nat) (p : Port) (h : p.permuted = (g.port k).permuted) : (g.setPort k p).perms =
    g.perms := by
  funext j
  unfold perms port setPort
  rw [Tab.get_set]
  split
  · next hj => subst hj; exact h
  · rfl

@[simp] theorem perms_setReg (g : Gate) (o : Nat) (v : W64) : (g.setReg o v).perms = g.perms := rfl
@[simp] theorem perms_setLane (g : Gate) (l : Nat) (v : Lane) : (g.setLane l v).perms = g.perms := rfl
@[simp] theorem perms_setChan (g : Gate) (c : Nat) (v : Chan) : (g.setChan c v).perms = g.perms := rfl
@[simp] theorem perms_setNum (g : Gate) (o n : Nat) : (g.setNum o n).perms = g.perms := rfl
@[simp] theorem perms_setField (g : Gate) (o hi lo n : Nat) : (g.setField o hi lo n).perms = g.perms := rfl
@[simp] theorem perms_count (g : Gate) (o n : Nat) : (g.count o n).perms = g.perms := rfl
/-- The buffers lie in the ports alone. -/
theorem perms_of_ports {g d : Gate} (h : d.ports = g.ports) : d.perms = g.perms := by
  unfold perms port; rw [h]

theorem perms_foldl {α : Type} {f : Gate → α → Gate} (hf : ∀ g a, (f g a).perms = g.perms) (l : List α) (g : Gate) :
    (l.foldl f g).perms = g.perms :=
  List.foldlRecOn (motive := fun d : Gate => d.perms = g.perms) l f rfl fun d hd a _ => (hf d a).trans hd

@[simp] theorem perms_transmit (g : Gate) (l : Nat) (h : FrameHdr) (cvc : Nat) (payload : List Byte) :
    (g.transmit l h cvc payload).perms = g.perms := rfl

@[simp] theorem perms_sendIdle (g : Gate) (l cvc : Nat) : (g.sendIdle l cvc).perms = g.perms := rfl

@[simp] theorem perms_sendOn (g : Gate) (l : Nat) (t : TxFrame) : (g.sendOn l t).perms = g.perms := by
  unfold sendOn
  dsimp only
  split <;> rfl

@[simp] theorem perms_sendData (g : Gate) (k vc : Nat) (f : Nat × List Byte) : (g.sendData k vc f).perms = g.perms := by
  unfold sendData
  split
  · rfl
  · exact (perms_sendOn _ _ _).trans (perms_setPort g k _ rfl)

theorem permuted_pick {g : Gate} {k : Nat} {p : Port} {e : Nat × Nat × Msg} (h : g.pick k = some (p, e)) :
    p.permuted = (g.port k).permuted := by
  unfold pick at h
  dsimp only at h
  repeat' split at h
  · cases h; rfl
  · cases h; rfl
  · obtain ⟨w, -, he⟩ := Option.map_eq_some_iff.1 h
    cases he; rfl
  · cases h
  · cases h; rfl

@[simp] theorem perms_pump (k n : Nat) (g : Gate) : (pump k n g).perms = g.perms := by
  induction n generalizing g with
  | zero => rfl
  | succ n ih =>
    unfold pump
    split
    · rfl
    · split
      · rfl
      · next p e hp =>
        dsimp only
        split
        · rfl
        · rw [ih, perms_foldl fun g f => perms_sendData g k _ f]
          have hb := permuted_pick hp
          exact perms_setPort g k _ hb

@[simp] theorem perms_flush (g : Gate) (k : Nat) : (g.flush k).perms = g.perms := perms_pump _ _ _

@[simp] theorem perms_post (g : Gate) (k vc hold : Nat) (m : Msg) : (g.post k vc hold m).perms = g.perms :=
  (perms_flush _ _).trans (perms_setPort g k _ rfl)

@[simp] theorem perms_discardMsg (g : Gate) (k : Nat) (m : Msg) : (g.discardMsg k m).perms = g.perms := by
  unfold discardMsg
  dsimp only
  split
  · exact (perms_post _ _ _ _ _).trans (perms_setPort g k _ rfl)
  · exact perms_setPort g k _ rfl

@[simp] theorem perms_modChan (g : Gate) (c : Nat) (f : Chan → Chan) : (g.modChan c f).perms = g.perms := rfl

@[simp] theorem perms_tagged (g : Gate) (r : StoreReq) : (g.tagged r).1.perms = g.perms := by
  unfold tagged
  split <;> rfl

@[simp] theorem perms_hold (g : Gate) (port : Nat) (m : Msg) (parts : List (Nat × Nat × Nat)) (first : Bool) :
    (g.hold port m parts first).perms = g.perms := perms_tagged g _

@[simp] theorem perms_releaseFrom (far : List (W64 × StoreReq)) (i n : Nat) (g : Gate) : (releaseFrom far i n g).perms = g.perms
    := by
  induction n generalizing i g with
  | zero => rfl
  | succ n ih =>
    unfold releaseFrom
    split
    · rfl
    · next r _ =>
      split
      · have ht : (if r.tag < 8192 then (g, r) else g.tagged r).1.perms = g.perms := by
          split
          · rfl
          · exact perms_tagged g r
        rw [ih, perms_post]
        exact ht
      · exact ih _ _

@[simp] theorem perms_sendGroup (g : Gate) (i : Nat) : (g.sendGroup i).perms = g.perms := by
  unfold sendGroup
  split
  · rfl
  · exact perms_hold _ _ _ _ _

@[simp] theorem perms_join (g : Gate) (r : MergeGroup) : (g.join r).perms = g.perms := by
  unfold join
  split
  · split
    · rfl
    · dsimp only
      split
      · exact perms_sendGroup _ _
      · rfl
  · rfl

@[simp] theorem perms_rangeRead (g : Gate) (far : List (W64 × StoreReq)) (r : MergeGroup) : (g.rangeRead far r).perms = g.perms
    := by
  unfold rangeRead
  repeat' split
  · exact perms_hold _ _ _ _ _
  · rfl
  · exact perms_join _ _

@[simp] theorem perms_release (g : Gate) (far : List (W64 × StoreReq)) : (g.release far).perms = g.perms := by
  unfold release
  rw [perms_releaseFrom, perms_foldl fun g r => perms_rangeRead g far r]
  rfl

@[simp] theorem perms_dropUnsent (g : Gate) (c : Nat) : (g.dropUnsent c).perms = g.perms := rfl

@[simp] theorem perms_abortChan (g : Gate) (c cause : Nat) : (g.abortChan c cause).perms = g.perms := by
  unfold abortChan
  dsimp only
  split <;> rfl

@[simp] theorem perms_destroyChan (g : Gate) (c cause : Nat) : (g.destroyChan c cause).perms = g.perms := by
  unfold destroyChan
  rw [perms_modChan]
  split
  · exact perms_abortChan _ _ _
  · rfl

@[simp] theorem perms_rehome (g : Gate) (l : Nat) : (g.rehome l).perms = g.perms := by
  unfold rehome
  dsimp only
  rw [perms_foldl]
  · rfl
  · intro d t
    split
    · exact perms_sendOn _ _ _
    · rfl

@[simp] theorem perms_moveLane (g : Gate) (l : Nat) (st : LaneState) : (g.moveLane l st).perms = g.perms := by
  unfold moveLane
  dsimp only
  repeat' split
  · rfl
  · exact perms_rehome _ _
  · rfl

@[simp] theorem perms_takeRole (g : Gate) (k : Nat) : (g.takeRole k).perms = g.perms := by
  unfold takeRole
  split
  · exact perms_setPort g k _ rfl
  · rfl

end Gate

namespace State

/-- The memories that tables of crofts and stewards, the ledger's bytes and a table of gates hold. -/
def memsOf (cs : Tab Croft) (ws : Tab Steward) (l : Memory) (gs : Tab Gate) :
    (Nat → Memory) × (Nat → Memory) × Memory × (Nat → Nat → Memory) :=
  (fun q => (Tab.get (fun _ => ({} : Croft)) cs q).mem, fun i => (Tab.get (fun _ => ({} : Steward)) ws i).sram, l,
    fun g => (Tab.get (fun _ => ({} : Gate)) gs g).perms)

/-- The memories of the module. -/
def mems (s : State) : (Nat → Memory) × (Nat → Memory) × Memory × (Nat → Nat → Memory) :=
  memsOf s.crofts s.stewards s.ledger.bytes s.gates

@[simp] theorem mems_fold (s : State) : memsOf s.crofts s.stewards s.ledger.bytes s.gates = s.mems := rfl

@[simp] theorem mems_mk (regs power clock parishes deadR linksDown steered linkCorr linkUnc pulses crofts stcs gates stewards
    shadows shadowNum toIsolate shadowStcs shadowFaults shadowFlt holdings faults ledger sec cables twb tap bscan slotId outq
        flights inbox reports summaries calls freeCtr pending) :
    mems (State.mk regs power clock parishes deadR linksDown steered linkCorr linkUnc pulses crofts stcs gates stewards shadows
        shadowNum toIsolate shadowStcs shadowFaults shadowFlt holdings faults ledger sec cables twb tap bscan slotId outq
            flights inbox reports summaries calls freeCtr pending) = memsOf crofts stewards ledger.bytes gates := rfl

@[simp] theorem mems_ite (p : Prop) [Decidable p] (a b : State) : (if p then a else b).mems = if p then a.mems else b.mems :=
  apply_ite _ _ _ _

theorem mems_foldl {α : Type} {f : State → α → State} (hf : ∀ s a, (f s a).mems = s.mems) (l : List α) (s : State) :
    (l.foldl f s).mems = s.mems :=
  List.foldlRecOn (motive := fun t : State => t.mems = s.mems) l f rfl fun t ht a _ => (hf t a).trans ht

@[simp] theorem mems_setCroft (s : State) (q : Nat) (c : Croft) (h : c.mem = (s.croft q).mem) : (s.setCroft q c).mems = s.mems
    := by
  have : (fun j => ((s.setCroft q c).croft j).mem) = fun j => (s.croft j).mem := by
    funext j
    rw [croft_setCroft]
    split
    · next hj => subst hj; exact h
    · rfl
  exact Prod.ext this rfl

@[simp] theorem mems_setSteward (s : State) (i : Nat) (v : Steward) (h : v.sram = (s.steward i).sram) : (s.setSteward i v).mems
    = s.mems := by
  have : (fun j => ((s.setSteward i v).steward j).sram) = fun j => (s.steward j).sram := by
    funext j
    rw [steward_setSteward]
    split
    · next hj => subst hj; exact h
    · rfl
  exact Prod.ext rfl (Prod.ext this rfl)

@[simp] theorem mems_setGate (s : State) (g : Nat) (v : Gate) (h : v.perms = (s.gate g).perms) : (s.setGate g v).mems = s.mems
    := by
  have : (fun j => ((s.setGate g v).gate j).perms) = fun j => (s.gate j).perms := by
    funext j
    rw [gate_setGate]
    split
    · next hj => subst hj; exact h
    · rfl
  exact Prod.ext rfl (Prod.ext rfl (Prod.ext rfl this))

@[simp] theorem memsOf_setCroft (s : State) (q : Nat) (c : Croft) (ws : Tab Steward) (l : Memory) (gs : Tab Gate)
    (h : c.mem = (s.croft q).mem) : memsOf (s.setCroft q c).crofts ws l gs = memsOf s.crofts ws l gs :=
  Prod.ext (Prod.ext_iff.1 (mems_setCroft s q c h)).1 rfl

@[simp] theorem memsOf_setSteward (s : State) (i : Nat) (v : Steward) (cs : Tab Croft) (l : Memory) (gs : Tab Gate)
    (h : v.sram = (s.steward i).sram) : memsOf cs (s.setSteward i v).stewards l gs = memsOf cs s.stewards l gs :=
  Prod.ext rfl (Prod.ext (Prod.ext_iff.1 (Prod.ext_iff.1 (mems_setSteward s i v h)).2).1 rfl)

@[simp] theorem memsOf_setGate (s : State) (g : Nat) (v : Gate) (cs : Tab Croft) (ws : Tab Steward) (l : Memory)
    (h : v.perms = (s.gate g).perms) : memsOf cs ws l (s.setGate g v).gates = memsOf cs ws l s.gates :=
  Prod.ext rfl (Prod.ext rfl (Prod.ext rfl
    (Prod.ext_iff.1 (Prod.ext_iff.1 (Prod.ext_iff.1 (mems_setGate s g v h)).2).2).2))

/-- The memories are in canonical form: a form of the invariant over the memories alone. -/
def MemsFormed (m : (Nat → Memory) × (Nat → Memory) × Memory × (Nat → Nat → Memory)) : Prop :=
  (∀ q, Memory.wf (m.1 q) = true) ∧ (∀ i, Memory.wf (m.2.1 i) = true) ∧ Memory.wf m.2.2.1 = true ∧ ∀ g k, Memory.wf (m.2.2.2 g k) = true

theorem memoriesFormed_iff (s : State) : MemoriesFormed s ↔ MemsFormed s.mems := Iff.rfl

@[simp] theorem mems_onCroft (s : State) (q : Nat) (f : Site → Site) (h : (f (s.site q)).c.mem = (s.site q).c.mem) :
    (s.onCroft q f).mems = s.mems := mems_setCroft s q _ h



@[simp] theorem mems_reportAll (s : State) (rs : List Report) : (reportAll s rs).mems = s.mems := by
  grind [reportAll, mems]

@[simp] theorem mems_raise (s : State) (code : Nat) (loc : W32) (syn : W64) (opc : W16) (cls : Option Bool)
    (hold : Option Nat) : (s.raise code loc syn opc cls hold).mems = s.mems := by
  grind [raise, mems_reportAll, Gate.perms_hold, mems]

@[simp] theorem mems_setParish (s : State) (p : Nat) (v : Parish) : (setParish s p v).mems = s.mems := by
  grind [setParish, mems]

@[simp] theorem mems_setHolding (s : State) (h : Nat) (v : Holding) : (setHolding s h v).mems = s.mems := by
  grind [setHolding, mems]

@[simp] theorem mems_setReg (s : State) (o : Nat) (v : W64) : (setReg s o v).mems = s.mems := by
  grind [setReg, Gate.perms_setReg, mems]

@[simp] theorem mems_setNum (s : State) (o n : Nat) : (setNum s o n).mems = s.mems := by
  grind [setNum, mems_setReg, Gate.perms_setNum, Gate.perms_setReg, mems]

@[simp] theorem mems_setField (s : State) (o hi lo n : Nat) : (setField s o hi lo n).mems = s.mems := by
  grind [setField, mems_setReg, Gate.perms_setField, Gate.perms_setReg, mems]

@[simp] theorem mems_count (s : State) (o n : Nat) : (count s o n).mems = s.mems := by
  grind [count, mems_setNum, Gate.perms_count, Gate.perms_setNum, mems]

@[simp] theorem mems_fresh (s : State) : (fresh s).2.mems = s.mems := by
  grind [fresh, mems]

@[simp] theorem mems_tick (s : State) : (tick s).mems = s.mems := by
  grind [tick, mems]

@[simp] theorem mems_sendShadow (s : State) (d : Shadow) : (sendShadow s d).mems = s.mems := by
  grind [sendShadow, mems]

@[simp] theorem mems_shadow (s : State) (c : Change) : (shadow s c).mems = s.mems := by
  grind [shadow, mems_sendShadow, mems]

@[simp] theorem mems_setStc (s : State) (h : Nat) (v : Stc) : (setStc s h v).mems = s.mems := by
  grind [setStc, mems_shadow, mems]

@[simp] theorem mems_setFaults (s : State) (f : FaultCtl) : (setFaults s f).mems = s.mems := by
  grind [setFaults, mems_shadow, mems]

@[simp] theorem mems_setFlt (s : State) (o : Nat) (v : W64) : (setFlt s o v).mems = s.mems := by
  grind [setFlt, mems_setReg, mems_shadow, Gate.perms_setReg, mems]

@[simp] theorem mems_fenceAll (s : State) (qs : List Nat) : (s.fenceAll qs).mems = s.mems := by
  unfold fenceAll
  exact mems_foldl (fun s q => mems_onCroft s q _ (Site.mem_fence _)) qs s

@[simp] theorem mems_raiseStc (s : State) (h r bitPos code : Nat) (opc : W16) : (raiseStc s h r bitPos code opc).mems = s.mems
    := by
  grind [raiseStc, mems_raise, mems_setReg, mems_setStc, Gate.perms_setReg, mems]

@[simp] theorem mems_emit (s : State) (ks : List Packet) : (emit s ks).mems = s.mems := by
  grind [emit, mems]

@[simp] theorem mems_take (s : State) (k : Packet) : (take s k).mems = s.mems := by
  grind [take, mems]

@[simp] theorem mems_onRegs (s : State) (q : Nat) (f : Site → Site) (h : ∀ x, (f x).c.mem = x.c.mem) :
    (s.onRegs q f).mems = s.mems := by
  unfold onRegs
  split
  · refine mems_onCroft s q _ ?_
    split
    · rfl
    · exact h _
  · rfl

@[simp] theorem mems_loseParish (s : State) (p : Nat) : (loseParish s p).mems = s.mems := by
  grind [loseParish, mems_setParish, mems]

@[simp] theorem mems_isolate (s : State) (p : Nat) : (isolate s p).mems = s.mems := by
  grind [isolate, mems_fenceAll, mems_loseParish, Site.mem_fence, mems]

@[simp] theorem mems_switchRows (s : State) (p : Nat) (ms : List (Nat × Nat)) (running : Bool) :
    (switchRows s p ms running).mems = s.mems := by
  have hf (n : Nat → Nat) (s : State) (q : Nat) : (s.onCroft q fun x => { x with c := { x.fence.c with lastId := n q } }).mems = s.mems :=
    mems_onCroft s q _ (Site.mem_fence _)
  unfold switchRows
  dsimp only
  rw [mems_foldl (hf _), mems_setParish]

@[simp] theorem mems_writeMapout (s : State) (p : Nat) (v : W32) : (writeMapout s p v).mems = s.mems := by
  grind [writeMapout, mems_setParish, mems_switchRows, mems]

@[simp] theorem mems_writeComputeEn (s : State) (p : Nat) (on : Bool) : (writeComputeEn s p on).mems = s.mems := by
  grind [writeComputeEn, mems_setParish, mems_setField, mems_fenceAll, Site.mem_fence, Gate.perms_setField, mems]

@[simp] theorem mems_writePclkTarget (s : State) (p : Nat) (w : W32) : (writePclkTarget s p w).mems = s.mems := by
  grind [writePclkTarget, mems_setParish, mems_setField, Gate.perms_setField, mems]

@[simp] theorem mems_writePclkCap (s : State) (p code : Nat) : (writePclkCap s p code).mems = s.mems := by
  grind [writePclkCap, mems_setParish, mems_setField, Gate.perms_setField, mems]

@[simp] theorem mems_writeTblData (s : State) (p : Nat) (w : W32) : (writeTblData s p w).mems = s.mems := by
  grind [writeTblData, mems_setParish, mems]

@[simp] theorem mems_writeMcastHi (s : State) (p : Nat) (w : W32) : (writeMcastHi s p w).mems = s.mems := by
  grind [writeMcastHi, mems_setParish, mems]

@[simp] theorem mems_refuseAt (s : State) (k : Packet) (code pos : Nat) : (refuseAt s k code pos).mems = s.mems := by
  grind [refuseAt, mems]

@[simp] theorem mems_refuseHome (s : State) (k : Packet) (code : Nat) : (refuseHome s k code).mems = s.mems := by
  grind [refuseHome, mems]

@[simp] theorem mems_castLeft (s : State) (k : Packet) : (castLeft s k).mems = s.mems := by
  unfold castLeft
  dsimp only
  split
  · exact mems_onCroft s _ _ rfl
  · exact mems_setGate s _ _ rfl
  · rfl

@[simp] theorem mems_inject (s : State) (k : Packet) : (inject s k).mems = s.mems := by
  grind [inject, mems_setParish, mems_count, mems_refuseHome, mems_castLeft, Site.mem_refuse, Gate.perms_count, mems]

@[simp] theorem mems_checkFlits (s : State) (p : Nat) (via : Option Link) (k : Packet) (e : FlitErr) :
    (checkFlits s p via k e).1.mems = s.mems := by
  unfold checkFlits
  dsimp only
  repeat' split
  all_goals simp

@[simp] theorem mems_moveFlight (s : State) (i : Nat) (f : Flight) (k : Packet) (dst : Nat) (via : Option Link) :
    (moveFlight s i f k dst via).mems = s.mems := by
  unfold moveFlight; simp

@[simp] theorem mems_hopUnicast (s : State) (i : Nat) (f : Flight) (k : Packet) : (hopUnicast s i f k).mems = s.mems := by
  grind [hopUnicast, mems_refuseAt, mems_moveFlight, Site.mem_refuse, mems]

@[simp] theorem mems_hopMulticast (s : State) (i : Nat) (f : Flight) (k : Packet) : (hopMulticast s i f k).mems = s.mems := by
  grind [hopMulticast, mems_setParish, mems_count, Gate.perms_count, mems]

@[simp] theorem mems_checkParish (s : State) (p : Nat) : (checkParish s p).mems = s.mems := by
  grind [checkParish, mems_raise, mems_setParish, mems]

@[simp] theorem mems_markRouter (s : State) (q : Nat) (pl : Plane) : (markRouter s q pl).mems = s.mems := by
  grind [markRouter, mems_onCroft, mems_raise, Site.mem_fence, mems]

@[simp] theorem mems_markDead (s : State) (q : Nat) (pl : Plane) : (markDead s q pl).mems = s.mems := by
  grind [markDead, mems_checkParish, mems_markRouter, Site.mem_check, mems]

@[simp] theorem mems_downLink (s : State) (l : Link) : (downLink s l).mems = s.mems := by
  grind [downLink, mems]

@[simp] theorem mems_tallyCall (s : State) (p : Nat) (step : W32) : (tallyCall s p step).mems = s.mems := by
  grind [tallyCall, mems_setParish, mems]

@[simp] theorem mems_handIn (s : State) (k : Packet) : (handIn s k).mems = s.mems := by
  grind [handIn, mems_shadow, mems_emit, mems_tallyCall, mems]

@[simp] theorem mems_deliver (s : State) (i : Nat) (f : Flight) (k : Packet) : (deliver s i f k).mems = s.mems := by
  grind [deliver, mems_raise, mems_refuseAt, mems_handIn, Site.mem_refuse, mems]

@[simp] theorem mems_modGate (s : State) (g : Nat) (f : Gate → Gate) (h : (f (s.gate g)).perms = (s.gate g).perms) :
    (s.modGate g f).mems = s.mems := mems_setGate s g _ h

@[simp] theorem mems_releaseStores (s : State) : (releaseStores s).mems = s.mems :=
  mems_foldl (fun s gi => mems_modGate s gi _ (Gate.perms_release _ _)) _ _

@[simp] theorem mems_raiseGate (s : State) (gi b code : Nat) (opc : W16) (syn : W64) (cls : Bool) (hold : Option Nat) :
    (raiseGate s gi b code opc syn cls hold).mems = s.mems := by
  grind [raiseGate, mems_raise, mems_setGate, mems_setReg, Gate.perms_hold, Gate.perms_setReg, Gate.perms_setPort, mems]

@[simp] theorem mems_haltGate (s : State) (gi c cause : Nat) (code : Byte) (used : Nat) (opc : W16) :
    (haltGate s gi c cause code used opc).mems = s.mems := by
  grind [haltGate, mems_setGate, mems_raiseGate, Site.mem_stop, Gate.perms_dropUnsent, Gate.perms_setChan, Gate.perms_setPort, mems]

@[simp] theorem mems_takeMsg (s : State) (gi k : Nat) (m : Msg) : (takeMsg s gi k m).mems = s.mems := by
  grind [takeMsg, mems_modGate, Gate.perms_setPort, mems]

@[simp] theorem mems_takeAnyMsg (s : State) (m : Msg) : (takeAnyMsg s m).mems = s.mems := by
  grind [takeAnyMsg, mems_takeMsg, mems]

@[simp] theorem mems_acknowledge (s : State) (a : SenderHeld) : (acknowledge s a).mems = s.mems := by
  unfold acknowledge
  dsimp only
  repeat' split
  all_goals simp

@[simp] theorem mems_retireStore (s : State) (c : Nat × Nat) : (retireStore s c).mems = s.mems := by
  grind [retireStore, mems_setSteward, mems]

@[simp] theorem mems_abortHolding (s : State) (h : Nat) (cause : Nat) : (abortHolding s h cause).mems = s.mems := by
  unfold abortHolding
  rw [mems_releaseStores]
  exact mems_foldl (fun s i => mems_modGate s i _ (Gate.perms_foldl (fun g c => Gate.perms_abortChan g c cause) _ _)) _ _

@[simp] theorem mems_dropSummaries (s : State) (h step : Nat) : (dropSummaries s h step).mems = s.mems := by
  grind [dropSummaries, mems]

@[simp] theorem mems_discardStep (s : State) (e : Nat × W32) : (discardStep s e).mems = s.mems := by
  unfold discardStep
  rw [mems_dropSummaries]
  exact mems_foldl (f := fun s p => s.setParish p ((s.parish p).tallyDiscard e.2)) (fun _ _ => rfl) _ _

@[simp] theorem mems_perform (s : State) (d : Shadow) : (perform s d).mems = s.mems := by
  have hm (s : State) : (d.msgs.foldl (fun s m => s.modGate m.1 fun g => g.post m.2.1 m.2.2.1 16 m.2.2.2) s).mems = s.mems :=
    mems_foldl (fun s m => by rw [mems_modGate]; exact Gate.perms_post _ _ _ _ _) _ _
  have ha (s : State) : (d.aborts.foldl (fun s h => s.abortHolding h) s).mems = s.mems := mems_foldl (fun s h => mems_abortHolding s h 6) _ _
  have hd (s : State) : (d.discards.foldl discardStep s).mems = s.mems := mems_foldl mems_discardStep _ _
  have hr (s : State) : (d.cores.foldl retireStore s).mems = s.mems := mems_foldl mems_retireStore _ _
  have hk (s : State) : (d.acks.foldl acknowledge s).mems = s.mems := mems_foldl mems_acknowledge _ _
  unfold perform
  dsimp only
  rw [mems_mk, mems_fold]
  rw [hd, ha, hr, hk, hm, mems_emit]

@[simp] theorem mems_waitFor (s : State) (d : Shadow) : (waitFor s d).mems = s.mems := by
  grind [waitFor, mems_sendShadow, mems_perform, mems]

@[simp] theorem mems_publish (s : State) (ks : List Packet) (ms : List (Nat × Nat × Nat × Msg)) : (publish s ks ms).mems =
    s.mems := by
  unfold publish; simp

@[simp] theorem mems_accept (s : State) (a : SenderHeld) : (accept s a).mems = s.mems := by
  grind [accept, mems_waitFor, mems]

@[simp] theorem mems_gateTagged (s : State) (gi c : Nat) (k : Packet) : (gateTagged s gi c k).1.mems = s.mems := by
  grind [gateTagged, mems_emit, mems_modGate, Site.mem_modChan, Gate.perms_modChan, Gate.perms_setPort, mems]

@[simp] theorem mems_gateRequest (s : State) (gi c : Nat) (k : Packet) (len : Nat) : (gateRequest s gi c k len).mems = s.mems :=
    by
  grind [gateRequest, mems_modGate, mems_gateTagged, Site.mem_modChan, Gate.perms_modChan, Gate.perms_setPort, mems]

@[simp] theorem mems_gateBytes (s : State) (gi c n : Nat) : (gateBytes s gi c n).mems = s.mems := by
  grind [gateBytes, mems_modGate, Site.mem_modChan, Gate.perms_modChan, Gate.perms_setPort, mems]

@[simp] theorem mems_gateWrite (gi c off : Nat) (bs : List Byte) (n : Nat) (s : State) : (gateWrite gi c off bs n s).mems =
    s.mems := by
  induction n generalizing off bs s with
  | zero => rfl
  | succ n ih =>
    unfold gateWrite
    split
    · rfl
    · dsimp only
      rw [ih]
      split
      · exact mems_gateTagged _ _ _ _
      · exact mems_gateRequest _ _ _ _ _

@[simp] theorem mems_readStep {s t : State} {gi c : Nat} {m : Moving} (h : s.readStep gi c m = some t) : t.mems = s.mems := by
  grind [readStep, mems_setGate, mems_releaseStores, Site.mem_modChan, Site.wf_store, Gate.perms_hold, Gate.perms_modChan, Gate.perms_rangeRead, Gate.perms_setPort, mems]

theorem mems_writeStep' {s t : State} {gi c : Nat} {m : Moving} (h : s.writeStep' gi c m = some t) : t.mems = s.mems := by
  unfold writeStep' at h
  dsimp only at h
  split at h
  · cases h
    rw [mems_releaseStores]
    exact mems_setGate _ _ _ (Gate.perms_hold _ _ _ _ _)
  · split at h
    · cases h
    · cases h
      rw [mems_gateRequest]
      exact mems_modGate _ _ _ rfl

@[simp] theorem mems_writeStep (s : State) (h : Nat) (v : W32) : (writeStep s h v).mems = s.mems := by
  grind [writeStep, mems_setReg, mems_setStc, Gate.perms_setReg, mems]

@[simp] theorem mems_gatePump (gi c n : Nat) (s : State) : (gatePump gi c n s).mems = s.mems := by
  induction n generalizing s with
  | zero => rfl
  | succ n ih =>
    unfold gatePump
    dsimp only
    split
    · next m _ _ =>
      split
      · rfl
      · split
        · next t ht =>
          rw [ih]
          split at ht
          · exact mems_writeStep' ht
          · exact mems_readStep ht
        · rfl
    · rfl

@[simp] theorem mems_gateFinish (s : State) (gi c : Nat) : (gateFinish s gi c).mems = s.mems := by
  grind [gateFinish, mems_modGate, mems_gateRequest, Site.mem_modChan, Site.wf_store, Gate.perms_modChan, Gate.perms_setPort, mems]

@[simp] theorem mems_gateGo (s : State) (gi c : Nat) : (gateGo s gi c).mems = s.mems := by
  grind [gateGo, mems_releaseStores, mems_gatePump, mems_gateFinish, mems]

@[simp] theorem mems_takes (s : State) (r : Report) : (takes s r).1.mems = s.mems := by
  grind [takes, mems_count, mems_setFaults, Gate.perms_count, mems]

@[simp] theorem mems_failPart (s : State) (gi : Nat) (r : StoreReq) (p : Nat × Nat × Nat) (cause code : Nat)
    (permits later : Bool) :
    (failPart s gi r p cause code permits later).mems = s.mems := by
  unfold failPart
  dsimp only
  split
  · split
    · exact mems_modGate _ _ _ rfl
    · rfl
  · split
    · rfl
    · split
      · exact mems_haltGate _ _ _ _ _ _ _
      · refine mems_setGate _ _ _ ?_
        have ht (b : Bool) (again : StoreReq) : ((if b then (s.gate gi).tagged again else (s.gate gi, again)).1).perms =
            (s.gate gi).perms := by
          cases b
          · rfl
          · exact Gate.perms_tagged _ _
        split <;> exact ht _ _

@[simp] theorem mems_failStore (s : State) (gi : Nat) (r : StoreReq) (cause code : Nat) (permits later : Bool) :
    (failStore s gi r cause code permits later).mems = s.mems := by
  unfold failStore
  rw [mems_releaseStores, mems_foldl fun s p => mems_failPart s gi r p cause code permits later]
  exact mems_modGate _ _ _ rfl

@[simp] theorem mems_failMesh (s : State) (gi c : Nat) (r : Req) (cause code : Nat) (permits : Bool) :
    (failMesh s gi c r cause code permits).mems = s.mems := by
  grind [failMesh, mems_modGate, mems_haltGate, Site.mem_retry, Gate.perms_setChan, Gate.perms_setPort, mems]

@[simp] theorem mems_setGateErr (s : State) (gi c : Nat) (on : Bool) : (setGateErr s gi c on).mems = s.mems := by
  grind [setGateErr, mems_setField, mems_modGate, Gate.perms_setField, Gate.perms_setPort, mems]

@[simp] theorem mems_gateStart (s : State) (gi c h : Nat) : (gateStart s gi c h).mems = s.mems := by
  grind [gateStart, mems_setGate, mems_setField, mems_modGate, mems_raiseGate, mems_gateGo, mems_setGateErr, Site.mem_modChan, Site.mem_start, Gate.perms_modChan, Gate.perms_setChan, Gate.perms_setField, Gate.perms_setPort, mems]

@[simp] theorem mems_gateAbort (s : State) (gi c gen h : Nat) : (gateAbort s gi c gen h).mems = s.mems := by
  grind [gateAbort, mems_modGate, mems_releaseStores, mems_setGateErr, Gate.perms_abortChan, Gate.perms_setPort, mems]

@[simp] theorem mems_gateDestroy (s : State) (gi c gen h : Nat) : (gateDestroy s gi c gen h).mems = s.mems := by
  grind [gateDestroy, mems_modGate, mems_releaseStores, mems_setGateErr, Gate.perms_destroyChan, Gate.perms_setPort, mems]

@[simp] theorem mems_raiseLink (s : State) (gi b : Nat) (loc : W32) (syn : W64) (opc : W16) :
    (raiseLink s gi b loc syn opc).mems = s.mems := by
  grind [raiseLink, mems_raise, mems_setGate, mems_setReg, Gate.perms_setReg, Gate.perms_setPort, mems]

@[simp] theorem mems_failPort (s : State) (gi k : Nat) : (failPort s gi k).mems = s.mems :=
  mems_foldl (fun s r => mems_failStore s gi r 7 0 true true) _ _

@[simp] theorem mems_checkSlew (s : State) : (checkSlew s).mems = s.mems := by
  grind [checkSlew, mems]

@[simp] theorem mems_portMismatch (s : State) (gi k : Nat) (opc : W16) : (portMismatch s gi k opc).mems = s.mems := by
  grind [portMismatch, mems_modGate, mems_raiseLink, mems_failPort, Site.mem_mismatch, Gate.perms_setPort, mems]

@[simp] theorem mems_lanesOff (s : State) (gi k : Nat) : (lanesOff s gi k).mems = s.mems := by
  unfold lanesOff
  exact mems_foldl (fun s i => mems_modGate s gi _ (Gate.perms_moveLane _ _ _)) _ _

@[simp] theorem mems_passHorizon (s : State) (h : Nat) (m : Msg) : (passHorizon s h m).mems = s.mems := by
  grind [passHorizon, mems_setStc, mems]

@[simp] theorem mems_chunksLeave (s : State) (was : List (Nat × Msg)) (gi k : Nat) : (chunksLeave s was gi k).mems = s.mems :=
    by
  unfold chunksLeave
  exact mems_foldl (fun s (e : Nat × Msg) => mems_passHorizon s e.1 e.2) _ _

@[simp] theorem mems_flushPort (s : State) (gi k : Nat) : (flushPort s gi k).mems = s.mems := by
  grind [flushPort, mems_modGate, mems_chunksLeave, Gate.perms_flush, Gate.perms_setPort, mems]

@[simp] theorem mems_countChunk (s : State) (h i : Nat) (payload : List Byte) : (countChunk s h i payload).mems = s.mems := by
  grind [countChunk, mems_setStc, mems]

@[simp] theorem mems_launch (s : State) (h i : Nat) (m : Msg) (ps : List (Nat × Nat)) : (launch s h i m ps).mems = s.mems := by
  unfold launch
  rw [mems_foldl, mems_countChunk]
  intro s gk
  rw [mems_chunksLeave]
  exact mems_modGate _ _ _ (Gate.perms_post _ _ _ _ _)

@[simp] theorem mems_sendUnsent (s : State) (h : Nat) : (sendUnsent s h).mems = s.mems := by
  unfold sendUnsent
  dsimp only
  split
  · rw [mems_foldl fun s e => mems_launch s h _ _ _, mems_setStc]
  · rfl

@[simp] theorem mems_sendWaiting (s : State) : (sendWaiting s).mems = s.mems := by
  unfold sendWaiting
  exact mems_foldl mems_sendUnsent _ _

@[simp] theorem mems_unpower (s : State) (gi k : Nat) (st : PortState) : (unpower s gi k st).mems = s.mems :=
  mems_modGate s gi _ (Gate.perms_setPort _ k _ rfl)

@[simp] theorem mems_portUp (s : State) (gi k : Nat) (opc : W16) : (portUp s gi k opc).mems = s.mems := by
  grind [portUp, mems_modGate, mems_releaseStores, mems_portMismatch, mems_lanesOff, mems_flushPort, mems_sendWaiting, mems_unpower, Gate.perms_setPort, Gate.perms_takeRole, mems]

@[simp] theorem mems_portUpdate (s : State) (gi k : Nat) (opc : W16) : (portUpdate s gi k opc).mems = s.mems := by
  unfold portUpdate
  dsimp only
  rw [mems_checkSlew]
  repeat' split
  · exact mems_flushPort _ _ _
  · exact mems_portUp _ _ _ _
  · rfl
  · exact mems_portMismatch _ _ _ _
  · rw [mems_failPort, mems_raiseLink]
    exact mems_setGate _ _ _ (Gate.perms_setPort _ _ _ rfl)
  · rfl

@[simp] theorem mems_laneTo (s : State) (gi l : Nat) (st : LaneState) : (laneTo s gi l st).mems = s.mems := by
  grind [laneTo, mems_modGate, mems_portUpdate, Gate.perms_moveLane, Gate.perms_setPort, mems]

@[simp] theorem mems_laneFail (s : State) (gi l : Nat) : (laneFail s gi l).mems = s.mems := by
  grind [laneFail, mems_modGate, mems_raiseLink, mems_portUpdate, Gate.perms_moveLane, Gate.perms_setPort, mems]

@[simp] theorem mems_laneTrain (s : State) (gi l : Nat) : (laneTrain s gi l).mems = s.mems := by
  grind [laneTrain, mems_modGate, mems_laneTo, Gate.perms_setLane, Gate.perms_setPort, mems]

@[simp] theorem mems_laneRetrain (s : State) (gi l : Nat) : (laneRetrain s gi l).mems = s.mems := by
  grind [laneRetrain, mems_modGate, mems_laneTo, mems_laneFail, Gate.perms_setLane, Gate.perms_setPort, mems]

@[simp] theorem mems_sendCaps (s : State) (gi l : Nat) : (sendCaps s gi l).mems = s.mems := by
  grind [sendCaps, mems_modGate, Gate.perms_transmit, Gate.perms_setPort, mems]

@[simp] theorem mems_enterUp (s : State) (gi l : Nat) : (enterUp s gi l).mems = s.mems := by
  grind [enterUp, mems_modGate, mems_laneTo, Gate.perms_setLane, Gate.perms_setPort, mems]

@[simp] theorem mems_takeCaps (s : State) (gi l : Nat) (b : List Byte) : (takeCaps s gi l b).mems = s.mems := by
  grind [takeCaps, mems_modGate, mems_raiseLink, mems_laneFail, mems_sendCaps, mems_enterUp, Site.mem_foldl, Site.wf_foldl, Gate.perms_foldl, Gate.perms_setLane, Gate.perms_setPort, mems]

@[simp] theorem mems_sendTime (s : State) (gi k : Nat) : (sendTime s gi k).mems = s.mems := by
  grind [sendTime, mems_modGate, Site.mem_mismatch, Gate.perms_transmit, Gate.perms_setPort, mems]

@[simp] theorem mems_takeTime (s : State) (gi l : Nat) (b : List Byte) : (takeTime s gi l b).mems = s.mems := by
  grind [takeTime, mems_setNum, mems_modGate, mems_checkSlew, Site.mem_check, Gate.perms_setNum, Gate.perms_setPort, mems]

@[simp] theorem mems_replayLane (s : State) (gi l : Nat) : (replayLane s gi l).mems = s.mems := by
  grind [replayLane, mems_count, mems_modGate, mems_laneRetrain, Site.mem_foldl, Site.mem_mismatch, Site.wf_foldl, Gate.perms_count, Gate.perms_foldl, Gate.perms_setLane, Gate.perms_transmit, Gate.perms_setPort, mems]

@[simp] theorem mems_sendNext (s : State) (m : NormMsg) : (sendNext s m).mems = s.mems := by
  grind [sendNext, mems_publish, mems]

@[simp] theorem mems_sendNorm (s : State) (h : Nat) (replay : Bool) (v : W64) : (sendNorm s h replay v).mems = s.mems := by
  unfold sendNorm; simp

@[simp] theorem mems_stopCrofts (s : State) (h : Nat) : (stopCrofts s h).mems = s.mems := by
  grind [stopCrofts, mems_publish, mems]

@[simp] theorem mems_startRestore (s : State) (h : Nat) : (startRestore s h).mems = s.mems := by
  grind [startRestore, mems_setStc, mems_waitFor, mems_stopCrofts, Site.mem_stop, mems]

@[simp] theorem mems_replayNow (s : State) (h : Nat) (wide notice counted : Bool) : (replayNow s h wide notice counted).mems =
    s.mems := by
  grind [replayNow, mems_setStc, mems_raiseStc, mems_sendNorm, mems_startRestore, Site.mem_start, mems]

@[simp] theorem mems_replay (s : State) (h : Nat) (ask : ReplayAsk) : (replay s h ask).mems = s.mems := by
  grind [replay, mems_replayNow, mems]

@[simp] theorem mems_takeAck (s : State) (gi l : Nat) (h : FrameHdr) : (takeAck s gi l h).mems = s.mems := by
  have hc : (if h.credv then s.modGate gi fun g =>
      let p := g.port (l / 8)
      let d := (h.credits + 2 ^ 16 - Tab.get (fun _ => 0) p.seen h.cvc) % 2 ^ 16
      g.setPort (l / 8) { p.setCredits h.cvc (p.credits h.cvc + d) with seen := Tab.set (fun _ => 0) p.seen h.cvc h.credits }
    else s).mems = s.mems := by
    split
    · exact mems_modGate _ _ _ (Gate.perms_setPort _ _ _ rfl)
    · rfl
  unfold takeAck
  dsimp only at hc ⊢
  split
  · rw [mems_flushPort, hc]
  · have hl (t : State) (v : Lane) : (t.modGate gi fun g => g.setLane l v).mems = t.mems := mems_modGate _ _ _ rfl
    rw [mems_flushPort, mems_ite, mems_replayLane, ite_self, hl, hc]

@[simp] theorem mems_chunkAcked (s : State) (m : Msg) : (chunkAcked s m).mems = s.mems := by
  grind [chunkAcked, mems_passHorizon, mems]

@[simp] theorem mems_msgArrives (gi k vc : Nat) (m : Msg) (s : State) : (msgArrives gi k vc m s).mems = s.mems := by
  grind [msgArrives, mems_modGate, mems_takes, mems_chunkAcked, Gate.perms_discardMsg, Gate.perms_setPort, mems]

@[simp] theorem mems_parseStream (gi k vc n : Nat) (s : State) : (parseStream gi k vc n s).mems = s.mems := by
  have hput (b : List Byte) (s : State) : (s.modGate gi fun g =>
      let p := g.port k
      g.setPort k { p with streams := Tab.set (fun _ => []) p.streams vc b }).mems = s.mems :=
    mems_modGate _ _ _ (Gate.perms_setPort _ _ _ rfl)
  induction n generalizing s with
  | zero => rfl
  | succ n ih =>
    unfold parseStream
    dsimp only at hput ⊢
    repeat' split
    · rfl
    · rw [ih, hput]
    · rfl
    · rw [ih, mems_msgArrives, hput]

@[simp] theorem mems_held (s : State) (h : Nat) (refused : Bool) : (held s h refused).mems = s.mems := by
  grind [held, mems_setStc, mems_raiseStc, mems]

@[simp] theorem mems_releaseFrames (gi k n : Nat) (s : State) : (releaseFrames gi k n s).mems = s.mems := by
  induction n generalizing s with
  | zero => rfl
  | succ n ih =>
    unfold releaseFrames
    dsimp only
    split
    · rfl
    · rw [ih, mems_parseStream]
      exact mems_modGate _ _ _ (Gate.perms_setPort _ _ _ rfl)

@[simp] theorem mems_discardFrame (s : State) (gi l : Nat) : (discardFrame s gi l).mems = s.mems := by
  grind [discardFrame, mems_modGate, Gate.perms_sendIdle, Gate.perms_setLane, Gate.perms_setPort, mems]

@[simp] theorem mems_takeData (s : State) (gi l : Nat) (h : FrameHdr) (b : List Byte) : (takeData s gi l h b).mems = s.mems :=
    by
  have hl (t : State) (v : Lane) : (t.modGate gi fun g => g.setLane l v).mems = t.mems := mems_modGate _ _ _ rfl
  have hp (t : State) (p : Port) (hp : p.permuted = ((t.gate gi).port (l / 8)).permuted) :
      (t.modGate gi fun g => g.setPort (l / 8) p).mems = t.mems := mems_modGate _ _ _ (Gate.perms_setPort _ _ _ hp)
  have hi (t : State) (vc : Nat) : (t.modGate gi fun g => g.sendIdle l vc).mems = t.mems := mems_modGate _ _ _ rfl
  unfold takeData
  dsimp only
  split
  · exact mems_discardFrame _ _ _
  · rw [hi]
    split
    · rw [mems_releaseFrames, hp, hl]
      show ((s.gate gi).port (l / 8)).permuted = ((State.gate _ gi).port (l / 8)).permuted
      rw [modGate, gate_setGate, if_pos rfl]
      rfl
    · exact hl _ _

@[simp] theorem mems_laneLock (s : State) (gi l : Nat) : (laneLock s gi l).mems = s.mems := by
  grind [laneLock, mems_modGate, mems_laneTo, mems_sendCaps, Gate.perms_setLane, Gate.perms_setPort, mems]

@[simp] theorem mems_lockUpdate (s : State) (gi l : Nat) : (lockUpdate s gi l).mems = s.mems := by
  grind [lockUpdate, mems_laneRetrain, mems_laneLock, mems]

@[simp] theorem mems_modFaults (s : State) (f : FaultCtl → FaultCtl) : (modFaults s f).mems = s.mems := by
  grind [modFaults, mems_setFaults, mems]

@[simp] theorem mems_putRecord (s : State) (d : Nat) (r : Record) : (putRecord s d r).mems = s.mems := by
  grind [putRecord, mems_modFaults, mems]

@[simp] theorem mems_appendRecord (s : State) (r : Record) : (appendRecord s r).mems = s.mems := by
  have : (s.ledger.append r).bytes = s.ledger.bytes := by
    unfold Ledger.append
    split <;> rfl
  unfold appendRecord
  rw [mems_mk, this, mems_fold]

@[simp] theorem mems_record (s : State) (d sev : Nat) (cls perm : Bool) (r : Report) : (record s d sev cls perm r).mems = s.mems
    := by
  grind [record, mems_modFaults, mems_putRecord, mems_appendRecord, Site.mem_merge, mems]

@[simp] theorem mems_setFltField (s : State) (o hi lo n : Nat) : (setFltField s o hi lo n).mems = s.mems := by
  grind [setFltField, mems_setFlt, mems]

@[simp] theorem mems_ring (s : State) : (ring s).mems = s.mems := by
  grind [ring, mems_modFaults, mems_setFltField, mems]

@[simp] theorem mems_abandon (s : State) (h : Nat) : (abandon s h).mems = s.mems := by
  grind [abandon, mems_setStc, mems_stopCrofts, Site.mem_stop, mems]

@[simp] theorem mems_haltDomain (s : State) (d : Nat) : (haltDomain s d).mems = s.mems := by
  unfold haltDomain
  split
  · exact mems_abandon _ _
  · exact mems_foldl mems_abandon _ _

@[simp] theorem mems_modSteward (s : State) (i : Nat) (f : Steward → Steward) (h : (f (s.steward i)).sram = (s.steward i).sram)
    :
    (s.modSteward i f).mems = s.mems := mems_setSteward s i _ h

@[simp] theorem mems_releaseShadows (s : State) : (releaseShadows s).mems = s.mems := by
  unfold releaseShadows
  rw [mems_foldl mems_perform]
  rfl

@[simp] theorem mems_adoptShadow (s : State) : (adoptShadow s).mems = s.mems := by
  grind [adoptShadow, Site.mem_foldl, Site.wf_foldl, Gate.perms_foldl, mems]

@[simp] theorem mems_publishTotals (s : State) (h : Nat) : (publishTotals s h).mems = s.mems := by
  grind [publishTotals, mems_setNum, mems_setStc, mems_raiseStc, Gate.perms_setNum, mems]

@[simp] theorem mems_beginOpening (s : State) (h : Nat) : (beginOpening s h).mems = s.mems := by
  unfold beginOpening
  dsimp only
  rw [mems_publishTotals, mems_foldl fun s p => mems_setParish s p _, mems_setStc]

@[simp] theorem mems_tryOpen (s : State) (h : Nat) : (tryOpen s h).mems = s.mems := by
  grind [tryOpen, mems_setStc, mems_beginOpening, mems]

@[simp] theorem mems_endStep (s : State) (h : Nat) : (endStep s h).mems = s.mems := by
  grind [endStep, mems_setNum, mems_setStc, mems_tryOpen, Gate.perms_setNum, mems]

@[simp] theorem mems_checkDone (s : State) (h : Nat) : (checkDone s h).mems = s.mems := by
  grind [checkDone, mems_endStep, mems]

@[simp] theorem mems_verdictOverflow (s : State) (h : Nat) : (verdictOverflow s h).mems = s.mems := by
  grind [verdictOverflow, mems_setStc, mems_raiseStc, mems_stopCrofts, Site.mem_stop, mems]

@[simp] theorem mems_verdictClean (s : State) (h : Nat) (g : W64) : (verdictClean s h g).mems = s.mems := by
  grind [verdictClean, mems_setReg, mems_setStc, mems_publish, mems_checkDone, Site.mem_check, Site.wf_advance, Gate.perms_setReg, mems]

@[simp] theorem mems_combine (s : State) (h : Nat) : (combine s h).mems = s.mems := by
  grind [combine, mems_setNum, mems_setStc, mems_verdictOverflow, mems_verdictClean, Gate.perms_setNum, mems]

@[simp] theorem mems_resolve (s : State) (h : Nat) : (resolve s h).mems = s.mems := by
  grind [resolve, mems_setField, mems_setStc, mems_replayNow, mems_checkDone, mems_combine, Site.mem_check, Site.mem_stop, Gate.perms_setField, mems]

@[simp] theorem mems_startReset (s : State) (h : Nat) (st : HldState) (creating : Bool) : (startReset s h st creating).mems =
    s.mems := by
  have hc (t : State) (qs : List Nat) : (qs.foldl (fun s q => s.onCroft q Site.beginReset) t).mems = t.mems :=
    mems_foldl (fun s q => mems_onCroft s q _ (Site.mem_beginReset _)) _ _
  unfold startReset
  dsimp only
  rw [mems_foldl fun s p => mems_setParish s p _, mems_abortHolding, hc, mems_setStc, mems_setHolding]

@[simp] theorem mems_syncShadow (s : State) : (syncShadow s).mems = s.mems := by
  grind [syncShadow, mems]

@[simp] theorem mems_redeliver (s : State) : (redeliver s).mems = s.mems := by
  grind [redeliver, mems_emit, mems]

@[simp] theorem mems_becomeActive (s : State) (i : Nat) : (becomeActive s i).mems = s.mems := by
  have hr (s : State) (h : Nat) : (match (s.holding h).st with
      | .free => s
      | .active => s.resolve h
      | st => s.startReset h st (s.holding h).creating).mems = s.mems := by
    split
    · rfl
    · exact mems_resolve _ _
    · exact mems_startReset _ _ _ _
  unfold becomeActive
  dsimp only
  refine (mems_foldl hr _ _).trans ?_
  rw [mems_redeliver, mems_ite, mems_syncShadow, ite_self, mems_foldl mems_perform, mems_mk, mems_fold, mems_count]
  exact mems_modSteward _ _ _ rfl

@[simp] theorem mems_takeover (s : State) (i : Nat) : (takeover s i).mems = s.mems := by
  grind [takeover, mems_modSteward, mems_adoptShadow, mems_becomeActive, mems]

@[simp] theorem mems_loseSteward (s : State) (i : Nat) : (loseSteward s i).mems = s.mems := by
  grind [loseSteward, mems_raise, mems_modSteward, mems_releaseShadows, mems_takeover, mems]

@[simp] theorem mems_isolateSteward (s : State) (i : Nat) : (isolateSteward s i).mems = s.mems := by
  grind [isolateSteward, mems_modSteward, mems_loseSteward, mems]

@[simp] theorem mems_downBoth (s : State) (l : Link) : (downBoth s l).mems = s.mems := by
  grind [downBoth, mems_downLink, mems]

@[simp] theorem mems_deadIfAlone (s : State) (q : Nat) (pl : Plane) : (deadIfAlone s q pl).mems = s.mems := by
  grind [deadIfAlone, mems_markDead, mems]

@[simp] theorem mems_isolateCroft (s : State) (q : Nat) : (isolateCroft s q).mems = s.mems := by
  grind [isolateCroft, mems_onCroft, mems_writeMapout, Site.mem_fence, mems]

@[simp] theorem mems_cageOff (s : State) (gi k : Nat) (st : PortState) (opc : W16) : (cageOff s gi k st opc).mems = s.mems := by
  grind [cageOff, mems_lanesOff, mems_unpower, mems_portUpdate, mems]

@[simp] theorem mems_disablePort (s : State) (gi k : Nat) (opc : W16) : (disablePort s gi k opc).mems = s.mems := by
  grind [disablePort, mems_setField, mems_modGate, mems_cageOff, Gate.perms_setField, Gate.perms_setPort, mems]

@[simp] theorem mems_isolateGate (s : State) (gi : Nat) : (isolateGate s gi).mems = s.mems := by
  unfold isolateGate
  dsimp only
  rw [mems_modGate, mems_foldl fun s k => mems_disablePort s gi k 0]
  exact Gate.perms_foldl (fun g c => Gate.perms_abortChan g c _) _ _

@[simp] theorem mems_isolateRouter (s : State) (q : Nat) (pl : Plane) : (isolateRouter s q pl).mems = s.mems := by
  unfold isolateRouter
  dsimp only
  rw [mems_foldl fun s t => mems_deadIfAlone s t pl, mems_markDead, mems_foldl mems_downBoth]

@[simp] theorem mems_isolateLane (s : State) (gi l : Nat) : (isolateLane s gi l).mems = s.mems := by
  grind [isolateLane, mems_modGate, mems_laneFail, Gate.perms_setLane, Gate.perms_setPort, mems]

@[simp] theorem mems_isolatePort (s : State) (gi k : Nat) : (isolatePort s gi k).mems = s.mems := by
  grind [isolatePort, mems_modGate, mems_disablePort, Gate.perms_setPort, mems]

@[simp] theorem mems_isolateLoc (s : State) (loc : W32) : (isolateLoc s loc).mems = s.mems := by
  unfold isolateLoc
  dsimp only
  repeat' split
  all_goals simp [apply_ite Ledger.bytes, Ledger.retire]

@[simp] theorem mems_isolateDue (n : Nat) (s : State) : (isolateDue n s).mems = s.mems := by
  induction n generalizing s with
  | zero => rfl
  | succ n ih =>
    unfold isolateDue
    split
    · rfl
    · rw [ih, mems_foldl mems_isolateLoc]
      rfl

@[simp] theorem mems_settle (s : State) : (settle s).mems = s.mems := by
  grind [settle, mems_isolateDue, mems]

@[simp] theorem mems_act (s : State) (d sev0 : Nat) (r : Report) : (act s d sev0 r).mems = s.mems := by
  have hc (sub src num : Nat) : (s.ledger.countEvent r.loc sub src num).1.bytes = s.ledger.bytes := by
    unfold Ledger.countEvent
    dsimp only
    repeat' split
    all_goals rfl
  have hl : (if bit (s.classOf r.source) 29 then s.ledger.countEvent r.loc (Ledger.subOf r.source r.syndrome) r.source (s.recordNum d)
    else (s.ledger, false)).1.bytes = s.ledger.bytes := by
    split
    · exact hc _ _ _
    · rfl
  unfold act
  simp only [mems_ite, mems_haltDomain, mems_replay, mems_settle, mems_waitFor, mems_setStc, mems_ring, mems_record, mems_mk, hl, mems_fold, ite_self]

@[simp] theorem mems_receiveFrame (s : State) (gi l : Nat) (f : Frame) (ftype : Nat)
    (act : State → FrameHdr → List Byte → State)
    (ha : ∀ s h b, (act s h b).mems = s.mems) : (receiveFrame s gi l f ftype act).mems = s.mems := by
  grind [receiveFrame, mems_count, mems_take, mems_modGate, mems_takeAck, mems_discardFrame, Gate.perms_count, Gate.perms_setPort, mems]

@[simp] theorem mems_receive (s : State) (gi l : Nat) (f : Frame) (ftype : Nat) (act : State → FrameHdr → List Byte → State)
    (ha : ∀ s h b, (act s h b).mems = s.mems) : (receive s gi l f ftype act).mems = s.mems := by
  grind [receive, mems_modGate, mems_lockUpdate, mems_receiveFrame, Gate.perms_setLane, Gate.perms_setPort, mems]

@[simp] theorem mems_enablePort (s : State) (gi k : Nat) : (enablePort s gi k).mems = s.mems := by
  unfold enablePort
  dsimp only
  repeat' split
  · rfl
  · exact mems_setGate _ _ _ rfl
  · exact mems_setGate _ _ _ (Gate.perms_setPort _ _ _ rfl)

@[simp] theorem mems_checkCable (s : State) (gi k : Nat) : (checkCable s gi k).mems = s.mems := by
  unfold checkCable
  dsimp only
  repeat' split
  · rfl
  · rfl
  · rw [mems_foldl fun s l => mems_laneTrain s gi l]
    exact mems_modGate _ _ _ (Gate.perms_setPort _ _ _ rfl)
  · rw [mems_raiseLink, mems_cageOff]

@[simp] theorem mems_writeRole (s : State) (gi k : Nat) (v : W32) : (writeRole s gi k v).mems = s.mems := by
  grind [writeRole, mems_setGate, mems_setField, mems_sendWaiting, mems_portUpdate, mems_cageOff, Gate.perms_setField, Gate.perms_setPort, mems]

@[simp] theorem mems_sendChunk (s : State) (h i half : Nat) (vs : List W32) : (sendChunk s h i half vs).mems = s.mems := by
  grind [sendChunk, mems_setStc, mems_launch, mems]

@[simp] theorem mems_keepChunk (s : State) (h i half : Nat) (vs : List W32) : (keepChunk s h i half vs).mems = s.mems := by
  grind [keepChunk, mems_setStc, mems_countChunk, mems]

@[simp] theorem mems_passChunk (s : State) (h i half : Nat) (vs : List W32) : (passChunk s h i half vs).mems = s.mems := by
  grind [passChunk, mems_sendChunk, mems_keepChunk, mems]

@[simp] theorem mems_startChunks (s : State) (h : Nat) : (startChunks s h).mems = s.mems := by
  unfold startChunks
  dsimp only
  split
  · rfl
  · rw [mems_foldl fun s e => mems_passChunk s h _ _ _, mems_setStc]

@[simp] theorem mems_forwardSummary (s : State) (p : Nat) : (forwardSummary s p).mems = s.mems := by
  grind [forwardSummary, mems_raise, mems_setParish, mems_setReg, mems_emit, Gate.perms_setReg, mems]

@[simp] theorem mems_forwardDue (s : State) (p : Nat) : (forwardDue s p).mems = s.mems := by
  grind [forwardDue, mems_forwardSummary, mems]

@[simp] theorem mems_strayRecord (s : State) (p : Nat) : (strayRecord s p).mems = s.mems := by
  grind [strayRecord, mems_setParish, mems_count, Gate.perms_count, mems]

@[simp] theorem mems_tallyRecord (s : State) (p : Nat) (k : Packet) : (tallyRecord s p k).mems = s.mems := by
  grind [tallyRecord, mems_setParish, mems_forwardDue, mems_strayRecord, mems]

@[simp] theorem mems_tallyTimeout (s : State) (p : Nat) (step : W32) : (tallyTimeout s p step).mems = s.mems := by
  grind [tallyTimeout, mems_setParish, mems_forwardDue, mems]

@[simp] theorem mems_startCrofts (s : State) (h : Nat) : (startCrofts s h).mems = s.mems := by
  grind [startCrofts, mems_publish, mems]

@[simp] theorem mems_destroyContexts (s : State) (h : Nat) : (destroyContexts s h).mems = s.mems := by
  grind [destroyContexts, mems_publish, Site.mem_carCmd, Site.mem_fence, mems]

@[simp] theorem mems_sendPrint (s : State) (h : Nat) : (sendPrint s h).mems = s.mems := by
  grind [sendPrint, mems_publish, mems]

@[simp] theorem mems_tryHandover (s : State) (h : Nat) : (tryHandover s h).mems = s.mems := by
  grind [tryHandover, mems_setStc, mems_sendNorm, mems_combine, mems]

@[simp] theorem mems_restoreNext (s : State) (h : Nat) : (restoreNext s h).mems = s.mems := by
  grind [restoreNext, mems_count, mems_setStc, mems_raiseStc, mems_publish, mems_publishTotals, mems_startCrofts, Site.mem_start, Gate.perms_count, mems]

@[simp] theorem mems_openingDone (s : State) (h : Nat) : (openingDone s h).mems = s.mems := by
  grind [openingDone, mems_setStc, mems]

@[simp] theorem mems_scaleAnswer (s : State) (h n : Nat) (ok : Bool) : (scaleAnswer s h n ok).mems = s.mems := by
  grind [scaleAnswer, mems_setStc, mems_publish, mems_held, mems_restoreNext, mems]

@[simp] theorem mems_stcAnswer (s : State) (h n o : Nat) (ok : Bool) (v : Nat) : (stcAnswer s h n o ok v).mems = s.mems := by
  grind [stcAnswer, mems_setStc, mems_publish, mems_restoreNext, mems_openingDone, mems]

@[simp] theorem mems_recordAnswer (s : State) (h n : Nat) : (recordAnswer s h n).mems = s.mems := by
  grind [recordAnswer, mems_setStc, mems_publish, Site.wf_advance, mems]

@[simp] theorem mems_refusedAnswer (s : State) (h n i code : Nat) : (refusedAnswer s h n i code).mems = s.mems := by
  grind [refusedAnswer, mems_setField, mems_setStc, Site.mem_refuse, Gate.perms_setField, mems]

@[simp] theorem mems_comparePrints (s : State) (h : Nat) (opc : W16) : (comparePrints s h opc).mems = s.mems := by
  grind [comparePrints, mems_setField, mems_setStc, mems_raiseStc, mems_replayNow, mems_tryHandover, Site.mem_mismatch, Gate.perms_setField, mems]

@[simp] theorem mems_commitPartial (s : State) (h : Nat) (v : W32) : (commitPartial s h v).mems = s.mems := by
  grind [commitPartial, mems_setReg, mems_setStc, mems_raiseStc, mems_startChunks, mems_sendPrint, mems_tryHandover, mems_comparePrints, Site.mem_start, Gate.perms_setReg, mems]

@[simp] theorem mems_writeRun (s : State) (h : Nat) (on halted : Bool) : (writeRun s h on halted).mems = s.mems := by
  grind [writeRun, mems_setStc, mems_tryOpen, mems]

@[simp] theorem mems_writeFill (s : State) (h : Nat) (v : W32) : (writeFill s h v).mems = s.mems := by
  grind [writeFill, mems_setField, mems_setStc, Gate.perms_setField, mems]

@[simp] theorem mems_writeGo (s : State) (h : Nat) : (writeGo s h).mems = s.mems := by
  grind [writeGo, mems_setField, mems_setStc, mems_tryOpen, Gate.perms_setField, mems]

@[simp] theorem mems_doneReport (s : State) (h : Nat) (n : Option Nat) (v : W32) : (doneReport s h n v).mems = s.mems := by
  grind [doneReport, mems_setField, mems_setStc, mems_raiseStc, mems_checkDone, Site.mem_check, Gate.perms_setField, mems]

@[simp] theorem mems_sendCalls (s : State) (h : Nat) : (sendCalls s h).mems = s.mems := by
  grind [sendCalls, mems_setStc, mems_tallyCall, mems_publish, mems]

@[simp] theorem mems_tallySummary (s : State) (h : Nat) (m : Summary) : (tallySummary s h m).mems = s.mems := by
  grind [tallySummary, mems_setStc, mems_takes, mems_held, mems_publishTotals, mems_tryHandover, mems_sendCalls, Site.mem_stop, mems]

@[simp] theorem mems_takeNorm (s : State) (h : Nat) (m : NormMsg) : (takeNorm s h m).mems = s.mems := by
  grind [takeNorm, mems_count, mems_setStc, mems_replay, mems_combine, mems]

@[simp] theorem mems_normArrives (s : State) (h : Nat) (m : NormMsg) : (normArrives s h m).mems = s.mems := by
  grind [normArrives, mems_accept, mems_sendNext, mems_takeNorm, mems]

@[simp] theorem mems_fingerprint (s : State) (h : Nat) (m : Msg) : (fingerprint s h m).mems = s.mems := by
  grind [fingerprint, mems_setNum, mems_setStc, mems_comparePrints, Gate.perms_setNum, mems]

@[simp] theorem mems_asOne (s : State) (f : State → State) : (asOne s f).mems = (f s).mems := by
  grind [asOne, mems_shadow, mems_take, Site.mem_foldl, Site.wf_foldl, Gate.perms_foldl, Gate.perms_join, mems]

@[simp] theorem mems_onSet (s : State) (f : State → State) (hf : ∀ s, (f s).mems = s.mems) : (onSet s f).mems = s.mems := by
  grind [onSet, mems_asOne, mems]

@[simp] theorem mems_countDiscard (s : State) (gi : Nat) : (countDiscard s gi).mems = s.mems := mems_modGate s gi _ rfl

@[simp] theorem mems_partData (s : State) (gi : Nat) (p : Nat × Nat × Nat) (lo : Nat) (bs : List Byte) :
    (partData s gi p lo bs).mems = s.mems := by
  grind [partData, mems_take, mems_gateWrite, mems]

@[simp] theorem mems_storeData (s : State) (gi k : Nat) (m : Msg) (op : Nat) : (storeData s gi k m op).mems = s.mems := by
  have hp (r : StoreReq) (a : Nat) (bs : List Byte) (t : State) : (r.parts.foldl (fun s p => s.partData gi p a bs) t).mems = t.mems :=
    mems_foldl (fun s p => mems_partData s gi p a bs) _ _
  have hm (f : Gate → List StoreReq) (t : State) : (t.modGate gi fun g => { g with store := f g }).mems = t.mems := mems_modGate _ _ _ rfl
  unfold storeData
  split
  · exact mems_countDiscard _ _
  · dsimp only
    split
    · rw [mems_foldl fun s p => mems_gateGo s gi _, hp, hm]
    · rw [hp, hm]

@[simp] theorem mems_storeDone (s : State) (gi k : Nat) (m : Msg) (op : Nat) : (storeDone s gi k m op).mems = s.mems := by
  unfold storeDone
  split
  · exact mems_countDiscard _ _
  · dsimp only
    rw [mems_foldl fun s p => (mems_gateGo _ gi _).trans (mems_gateBytes s gi _ _)]
    exact mems_modGate _ _ _ rfl

@[simp] theorem mems_storeError (s : State) (gi k : Nat) (m : Msg) : (storeError s gi k m).mems = s.mems := by
  grind [storeError, mems_failStore, mems_countDiscard, mems]

@[simp] theorem mems_gateReadArrives (s : State) (gi c : Nat) (r : Req) (k : Packet) : (gateReadArrives s gi c r k).mems =
    s.mems := by
  have hg (v : Chan) (b : Tab (List Byte)) : (s.setGate gi { (s.gate gi).setChan c v with buffered := b }).mems = s.mems :=
    mems_setGate s gi _ rfl
  unfold gateReadArrives
  dsimp only
  generalize (if k.offset.toNat - r.pkt.offset.toNat = (Tab.get (fun _ => []) (s.gate gi).buffered c).length then
    Tab.get (fun _ => []) (s.gate gi).buffered c ++ k.payload else Tab.get (fun _ => []) (s.gate gi).buffered c) = data
  repeat' split
  · exact mems_modGate _ _ _ rfl
  · exact hg _ _
  · rw [mems_gateGo, mems_modGate _ _ _ (Gate.perms_post _ _ _ _ _), hg]
  · rw [mems_gateGo, hg]
  · rw [mems_gateGo, mems_releaseStores, mems_modGate _ _ _ (Gate.perms_hold _ _ _ _ _), hg]

@[simp] theorem mems_gateAnswer (s : State) (gi c : Nat) (k : Packet) : (gateAnswer s gi c k).mems = s.mems := by
  grind [gateAnswer, mems_modGate, mems_gateGo, mems_failMesh, mems_gateReadArrives, Gate.perms_setChan, Gate.perms_setPort, mems]

@[simp] theorem mems_gateRetry (s : State) (gi c : Nat) (tag : W16) : (gateRetry s gi c tag).mems = s.mems := by
  have hm (v : Chan) (t : State) : (t.modGate gi fun g => g.setChan c v).mems = t.mems := mems_modGate _ _ _ rfl
  have hb (b : Gate → Tab (List Byte)) (t : State) : (t.modGate gi fun g => { g with buffered := b g }).mems = t.mems := mems_modGate _ _ _ rfl
  unfold gateRetry
  dsimp only
  split
  · rfl
  · split
    · rw [mems_modGate, mems_gateTagged, mems_ite, hb, ite_self, hm]
      rfl
    · split
      · rw [mems_gateGo]
        exact mems_setGate _ _ _ (Gate.perms_tagged _ _)
      · rfl

@[simp] theorem mems_gateTimeout (s : State) (gi c : Nat) (tag : W16) : (gateTimeout s gi c tag).mems = s.mems := by
  grind [gateTimeout, mems_failMesh, mems]

@[simp] theorem mems_coreFail (s : State) (st n code : Nat) (a : CoreAccess) : (coreFail s st n code a).mems = s.mems := by
  grind [coreFail, mems_setSteward, mems_setNum, Site.wf_store, Gate.perms_setNum, mems]

@[simp] theorem mems_coreDone (s : State) (st n : Nat) (v : W64) : (coreDone s st n v).mems = s.mems := by
  grind [coreDone, mems_setSteward, mems]

@[simp] theorem mems_coreAnswer (s : State) (st n : Nat) (k : Packet) : (coreAnswer s st n k).mems = s.mems := by
  grind [coreAnswer, mems_coreFail, mems_coreDone, Site.wf_store, mems]

@[simp] theorem mems_ldgCmd (s : State) (b : Nat) (err : Bool) : (ldgCmd s b err).mems = s.mems := by
  grind [ldgCmd, mems_setNum, Gate.perms_setNum, mems]

@[simp] theorem mems_fillBuf (s : State) (bs : List Byte) : (fillBuf s bs).mems = s.mems := by
  unfold fillBuf
  exact mems_foldl (fun s w => mems_setNum s _ _) _ _

@[simp] theorem mems_ldgRead (s : State) (b : Nat) (found : BlockEcc) : (ldgRead s b found).mems = s.mems := by
  unfold ldgRead
  repeat' split
  all_goals simp

@[simp] theorem mems_tryBringUp (s : State) : (tryBringUp s).mems = s.mems := by
  grind [tryBringUp, mems]

@[simp] theorem mems_alert (s : State) (i : Nat) (t threshold : Int) : (alert s i t threshold).mems = s.mems := by
  grind [alert, mems_raise, mems]

@[simp] theorem mems_applyAllotment (s : State) (h : Nat) : (applyAllotment s h).mems = s.mems := by
  unfold applyAllotment
  dsimp only
  rw [mems_foldl fun s i => mems_modGate s i _ rfl, mems_foldl]
  exact fun s q => mems_onCroft s q _ rfl

@[simp] theorem mems_writeCaps (s : State) : (writeCaps s).mems = s.mems := by
  unfold writeCaps
  exact mems_foldl (fun s p => mems_writePclkCap s p _) _ _

@[simp] theorem mems_formCode (s : State) (h : Nat) : (formCode s h).mems = s.mems := by
  grind [formCode, mems_setHolding, mems_writeCaps, mems]

@[simp] theorem mems_writeAltRes (s : State) (h : Nat) (v : W32) : (writeAltRes s h v).mems = s.mems := by
  grind [writeAltRes, mems_setHolding, mems_setReg, Gate.perms_setReg, mems]

@[simp] theorem mems_writeAltPower (s : State) (h : Nat) (v : W32) : (writeAltPower s h v).mems = s.mems := by
  grind [writeAltPower, mems_setHolding, mems_setReg, mems_formCode, Gate.perms_setReg, mems]

@[simp] theorem mems_holdingReading (s : State) (h watts : Nat) : (holdingReading s h watts).mems = s.mems := by
  grind [holdingReading, mems_setHolding, mems_writeCaps, mems]

@[simp] theorem mems_moduleReading (s : State) : (moduleReading s).mems = s.mems := by
  grind [moduleReading, mems_writeCaps, mems]

@[simp] theorem mems_setHldErr (s : State) (h : Nat) (on : Bool) : (setHldErr s h on).mems = s.mems := by
  grind [setHldErr, mems_setField, Gate.perms_setField, mems]

@[simp] theorem mems_createHolding (s : State) (h : Nat) : (createHolding s h).mems = s.mems := by
  unfold createHolding
  dsimp only
  split
  · exact mems_setHldErr _ _ _
  · rw [mems_startReset, mems_foldl fun s p => mems_setNum s _ _, mems_setHldErr]

@[simp] theorem mems_resetHolding (s : State) (h : Nat) : (resetHolding s h).mems = s.mems := by
  grind [resetHolding, mems_startReset, mems_setHldErr, Site.mem_start, mems]

@[simp] theorem mems_destroyHolding (s : State) (h : Nat) : (destroyHolding s h).mems = s.mems := by
  grind [destroyHolding, mems_setHolding, mems_startReset, mems_setHldErr, Site.mem_start, mems]

@[simp] theorem mems_applyChange (s : State) (c : Change) : (applyChange s c).mems = s.mems := by
  unfold applyChange
  repeat' split
  all_goals simp

@[simp] theorem mems_declareLost (s : State) (i : Nat) : (declareLost s i).mems = s.mems := by
  grind [declareLost, mems_loseSteward, mems]

@[simp] theorem mems_release (s : State) (i : Nat) : (release s i).mems = s.mems := by
  grind [release, mems_modSteward, mems_becomeActive, Gate.perms_release, mems]

@[simp] theorem mems_aloneRouter (s : State) (q : Nat) (pl : Plane) : (aloneRouter s q pl).mems = s.mems := by
  grind [aloneRouter, mems_markRouter, mems]

@[simp] theorem mems_event (s : State) (r : Report) (injected : Bool) : (event s r injected).mems = s.mems := by
  grind [event, mems_setFlt, mems_takes, mems_modFaults, mems_act, mems]

@[simp] theorem mems_fltClear (s : State) (v : W32) : (fltClear s v).mems = s.mems := by
  grind [fltClear, mems_modFaults, mems_putRecord, mems_appendRecord, mems_setFltField, mems_asOne, mems]

@[simp] theorem mems_levelClear (s : State) : (levelClear s).mems = s.mems := by
  grind [levelClear, mems_modFaults, mems_setFltField, mems_asOne, mems]

@[simp] theorem mems_faultReport (s : State) (r : Report) : (faultReport s r).mems = s.mems := by
  grind [faultReport, mems_accept, mems_asOne, mems_event, mems]

@[simp] theorem mems_fltInject (s : State) (v : W32) : (fltInject s v).mems = s.mems := by
  grind [fltInject, mems_asOne, mems_event, mems]

theorem mems_modSec (s : State) (f : Sec → Sec) : (modSec s f).mems = s.mems := rfl

@[simp] theorem mems_sowRefuse (s : State) : (sowRefuse s).mems = s.mems := by
  rfl

@[simp] theorem mems_sowOpen (s : State) : (sowOpen s).mems = s.mems := by
  unfold sowOpen
  dsimp only
  split
  · exact mems_sowRefuse _
  · rw [mems_foldl fun s q => mems_onCroft s q _ (Site.mem_sowClear _ _ _), mems_modSec]

@[simp] theorem mems_sowSend (s : State) : (sowSend s).mems = s.mems := by
  grind [sowSend, mems_emit, mems_modSec, mems_sowRefuse, mems_sowOpen, mems]

@[simp] theorem mems_sowCheck (s : State) : (sowCheck s).mems = s.mems := by
  grind [sowCheck, mems_modSec, mems_sowRefuse, mems_sowOpen, Site.mem_foldl, Site.wf_foldl, Gate.perms_foldl, mems]

@[simp] theorem mems_sowEnd (s : State) : (sowEnd s).mems = s.mems := by
  grind [sowEnd, mems_modSec, mems_sowRefuse, mems_sowOpen, mems]

@[simp] theorem mems_chunkCheck (s : State) (q c : Nat) : (chunkCheck s q c).mems = s.mems := by
  grind [chunkCheck, mems_onCroft, mems_count, mems_sowOpen, Site.mem_chunkCheck, Gate.perms_count, mems]

@[simp] theorem mems_bootFail (s : State) (code : Nat) : (bootFail s code).mems = s.mems := by
  grind [bootFail, mems_modFaults, mems_event, mems_modSec, mems]

@[simp] theorem mems_markApplied (s : State) (p : Hist → Bool) : (markApplied s p).mems = s.mems := by
  have hl (es : List (Nat × Option Hist)) (l : Ledger) : (es.foldl (fun l e => match e.2 with
      | some h => if h.permanent && p h then l.setEntry e.1 { h with applied := true } else l
      | none => l) l).bytes = l.bytes :=
    List.foldlRecOn (motive := fun d : Ledger => d.bytes = l.bytes) es _ rfl fun d hd e _ => by
      split
      · split
        · exact hd
        · exact hd
      · exact hd
  unfold markApplied
  rw [mems_mk]
  exact congrArg (memsOf s.crofts s.stewards · s.gates) (hl _ _)

theorem mems_retireKind (s : State) (kind : Nat) (p : Hist → Bool) (f : State → W32 → State)
    (hf : ∀ s l, (f s l).mems = s.mems) : (retireKind s kind p f).mems = s.mems := by
  unfold retireKind
  rw [mems_markApplied, mems_foldl hf]

@[simp] theorem mems_recordUnits (s : State) (locs : List W32) : (recordUnits s locs).mems = s.mems := by
  grind [recordUnits, mems]

@[simp] theorem mems_recordFound (s : State) : (recordFound s).mems = s.mems := by
  grind [recordFound, mems_recordUnits, mems]

@[simp] theorem mems_leaveOff (s : State) (p : Nat) : (leaveOff s p).mems = s.mems := by
  grind [leaveOff, mems_setParish, mems_isolate, mems]

@[simp] theorem mems_netUp (s : State) (p : Nat) : (netUp s p).mems = s.mems := by
  grind [netUp, mems_setParish, mems]

@[simp] theorem mems_netStage (s : State) (r : StageResult) (ps : List Nat) : (netStage s r ps).mems = s.mems := by
  unfold netStage
  dsimp only
  rw [mems_foldl mems_netUp, mems_retireKind _ _ _ _ fun s l => mems_leaveOff s _, mems_foldl mems_leaveOff]

@[simp] theorem mems_retireRouter (s : State) (loc : W32) : (retireRouter s loc).mems = s.mems := by
  unfold retireRouter
  dsimp only
  split
  · rw [mems_markRouter, mems_foldl mems_downBoth]
  · rfl

@[simp] theorem mems_retireLink (s : State) (loc : W32) : (retireLink s loc).mems = s.mems := by
  grind [retireLink, mems_downBoth, mems_aloneRouter, mems]

@[simp] theorem mems_testGroup (s : State) (r : StageResult) (g : Link × Nat) : (testGroup s r g).mems = s.mems := by
  grind [testGroup, mems_downLink, mems]

@[simp] theorem mems_wireTest (s : State) (r : StageResult) (ps : List Nat) : (wireTest s r ps).mems = s.mems := by
  unfold wireTest
  dsimp only
  rw [mems_foldl fun s g => mems_testGroup s r g]
  rfl

@[simp] theorem mems_selfTest (s : State) (r : StageResult) (ps : List Nat) : (selfTest s r ps).mems = s.mems := by
  unfold selfTest
  dsimp only
  rw [mems_foldl mems_leaveOff, mems_retireKind _ _ _ _ mems_retireRouter, mems_foldl fun s d => mems_markRouter s _ _,
    mems_retireKind _ _ _ _ mems_retireLink, mems_foldl mems_downLink, mems_wireTest]

@[simp] theorem mems_stageRom (s : State) (r : StageResult) : (stageRom s r).mems = s.mems := by
  grind [stageRom, mems_modSec, mems_bootFail, mems_recordFound, mems_netStage, mems_selfTest, mems]

@[simp] theorem mems_chooseRoles (s : State) (i : Nat) (both : Bool) : (chooseRoles s i both).mems = s.mems := by
  grind [chooseRoles, mems_raise, mems_modSteward, mems_syncShadow, mems]

@[simp] theorem mems_recordTrip (s : State) : (recordTrip s).mems = s.mems := by
  grind [recordTrip, mems_asOne, mems_event, mems]

@[simp] theorem mems_markBad (s : State) (b : Bool) : (markBad s b).mems = s.mems := by
  rfl

@[simp] theorem mems_stageNet (s : State) (r : StageResult) : (stageNet s r).mems = s.mems := by
  grind [stageNet, mems_modSec, mems_recordFound, mems_netStage, mems]

@[simp] theorem mems_rewriteHops (s : State) (d : Nat) (far : List Nat) (p : Nat) : (rewriteHops s d far p).mems = s.mems := by
  grind [rewriteHops, mems_setParish, Site.mem_foldl, Site.wf_foldl, Gate.perms_foldl, mems]

@[simp] theorem mems_rewriteTables (s : State) : (rewriteTables s).mems = s.mems := by
  unfold rewriteTables
  split
  · rfl
  · exact mems_foldl (fun s d => mems_foldl (fun s p => mems_rewriteHops s d _ p) _ _) _ _

@[simp] theorem mems_mapRow (s : State) (e : Nat × Nat × Nat) : (mapRow s e).mems = s.mems := by
  grind [mapRow, mems_switchRows, mems]

@[simp] theorem mems_mapsLoaded (s : State) : (mapsLoaded s).mems = s.mems := by
  unfold mapsLoaded
  exact mems_foldl (fun s p => mems_setParish s p _) _ _

@[simp] theorem mems_stageSelfTest (s : State) (r : StageResult) : (stageSelfTest s r).mems = s.mems := by
  unfold stageSelfTest
  dsimp only
  rw [mems_modSec, mems_mapsLoaded, mems_retireKind _ _ _ _ fun s l => mems_mapRow s _, mems_foldl mems_mapRow,
    mems_rewriteTables, mems_recordFound, mems_selfTest]

@[simp] theorem mems_enterPapione (s : State) : (enterPapione s).mems = s.mems := by
  grind [enterPapione, mems_modSteward, Site.mem_foldl, Site.wf_foldl, Gate.perms_foldl, mems]

@[simp] theorem mems_createEntry (s : State) (e : HoldingEntry) : (createEntry s e).mems = s.mems := by
  grind [createEntry, mems_setReg, mems_createHolding, Gate.perms_setReg, mems]

@[simp] theorem mems_enterSowing (s : State) : (enterSowing s).mems = s.mems := by
  unfold enterSowing
  rw [mems_foldl mems_createEntry, mems_modSec]

@[simp] theorem mems_loadPort (s : State) (e : PortEntry) : (loadPort s e).mems = s.mems := by
  grind [loadPort, mems_setNum, mems_setField, mems_modGate, mems_enablePort, Gate.perms_setField, Gate.perms_setNum, Gate.perms_setPort, mems]

@[simp] theorem mems_enterLanes (s : State) : (enterLanes s).mems = s.mems := by
  unfold enterLanes
  dsimp only
  rw [mems_foldl mems_loadPort, mems_retireKind _ _ _ _ fun s l => mems_modGate s _ _ rfl,
    mems_retireKind _ _ _ _ fun s l => mems_modGate s _ _ rfl]

@[simp] theorem mems_enterStage (s : State) (n : Nat) : (enterStage s n).mems = s.mems := by
  unfold enterStage
  dsimp only
  split
  · rw [mems_enterPapione, mems_modSec]
  · rw [mems_enterSowing, mems_modSec]
  · rw [mems_enterLanes, mems_modSec]
  · exact mems_modSec _ _

@[simp] theorem mems_restartStage (s : State) : (restartStage s).mems = s.mems := by
  grind [restartStage, mems_enterStage, mems]

@[simp] theorem mems_resume (before s : State) : (resume before s).mems = s.mems := by
  grind [resume, mems_restartStage, mems]

@[simp] theorem mems_refclkBack (s : State) : (refclkBack s).mems = s.mems := by
  grind [refclkBack, mems_restartStage, mems]

@[simp] theorem mems_sectionBad (s : State) (b : Bool) : (sectionBad s b).mems = s.mems := by
  grind [sectionBad, mems_markBad, mems]

@[simp] theorem mems_computeWave (s : State) (k : Nat) : (computeWave s k).mems = s.mems := by
  unfold computeWave
  split
  · exact mems_foldl (fun s p => mems_writeComputeEn s p true) _ _
  · rfl

@[simp] theorem mems_mapOut (s : State) (q : Nat) : (mapOut s q).mems = s.mems := by
  grind [mapOut, mems_writeMapout, mems_recordUnits, mems]

@[simp] theorem mems_commit (s : State) : (commit s).mems = s.mems := by
  grind [commit, mems_modSec, mems]

@[simp] theorem mems_readParish (s : State) (p o n : Nat) : (readParish s p o n).1.mems = s.mems := by
  grind [readParish, mems_setParish, mems_setReg, Gate.perms_setReg, mems]

@[simp] theorem mems_readStc (s : State) (h o n : Nat) : (readStc s h o n).1.mems = s.mems := by
  grind [readStc, mems_setReg, mems_setStc, Gate.perms_setReg, mems]

@[simp] theorem mems_readGate (s : State) (gi o n : Nat) : (readGate s gi o n).1.mems = s.mems := by
  grind [readGate, mems_setGate, mems_setReg, Gate.perms_setReg, Gate.perms_setPort, mems]

@[simp] theorem mems_readModule (s : State) (o n : Nat) : (readModule s o n).1.mems = s.mems := by
  grind [readModule, mems_setReg, mems_setFlt, Gate.perms_setReg, mems]

@[simp] theorem mems_writeParish (s : State) (p o n : Nat) (v : W64) : (writeParish s p o n v).mems = s.mems := by
  grind [writeParish, mems_setParish, mems_setReg, mems_writeMapout, mems_writeComputeEn, mems_writePclkTarget, mems_writeTblData, mems_writeMcastHi, Gate.perms_setReg, mems]

@[simp] theorem mems_writeBroadcast (s : State) (o n : Nat) (v : W64) : (writeBroadcast s o n v).mems = s.mems := by
  unfold writeBroadcast
  exact mems_foldl (fun s p => mems_writeParish s p o n v) _ _

@[simp] theorem mems_writeSeqCtrl (s : State) (h : Nat) (v : W64) : (writeSeqCtrl s h v).mems = s.mems := by
  grind [writeSeqCtrl, mems_setField, mems_setStc, mems_replay, mems_abandon, mems_writeRun, Gate.perms_setField, mems]

@[simp] theorem mems_writeStc (s : State) (h o n : Nat) (v : W64) (src : Option Nat) : (writeStc s h o n v src).mems = s.mems :=
    by
  grind [writeStc, mems_setReg, mems_setField, mems_setStc, mems_writeStep, mems_commitPartial, mems_writeFill, mems_writeGo, mems_doneReport, mems_writeSeqCtrl, Gate.perms_setField, Gate.perms_setReg, mems]

@[simp] theorem mems_writeGatCmd (s : State) (gi c h : Nat) (v : W64) : (writeGatCmd s gi c h v).mems = s.mems := by
  grind [writeGatCmd, mems_gateStart, mems_gateAbort, mems_gateDestroy, mems]

@[simp] theorem mems_writePortCtrl (s : State) (gi k : Nat) (v : W64) : (writePortCtrl s gi k v).mems = s.mems := by
  grind [writePortCtrl, mems_setField, mems_modGate, mems_portUpdate, mems_disablePort, mems_enablePort, mems_writeRole, Gate.perms_setField, Gate.perms_setPort, mems]

@[simp] theorem mems_writeGate (s : State) (gi o n h : Nat) (v : W64) : (writeGate s gi o n h v).mems = s.mems := by
  grind [writeGate, mems_setGate, mems_setReg, mems_portUpdate, mems_writeGatCmd, mems_writePortCtrl, Gate.perms_setReg, Gate.perms_setPort, mems]

@[simp] theorem mems_writeStw (s : State) (i o : Nat) (d : RegDef) (v : W64) : (writeStw s i o d v).mems = s.mems := by
  grind [writeStw, mems_setReg, mems_setNum, mems_modSteward, mems_takeover, mems_settle, mems_release, mems_resume, Gate.perms_release, Gate.perms_setNum, Gate.perms_setReg, mems]

@[simp] theorem mems_writeHldCtrl (s : State) (h : Nat) (v : W64) : (writeHldCtrl s h v).mems = s.mems := by
  grind [writeHldCtrl, mems_createHolding, mems_resetHolding, mems_destroyHolding, mems]

@[simp] theorem mems_writeSowCmd (s : State) (v : W64) : (writeSowCmd s v).mems = s.mems := by
  grind [writeSowCmd, mems_sowOpen, mems_sowSend, mems_sowCheck, mems_sowEnd, mems]

@[simp] theorem mems_writeHld {s t : State} {o : Nat} {d : RegDef} {v : W64} (h : s.writeHld o d v = some t) : t.mems = s.mems
    := by
  grind [writeHld, mems_setReg, mems_writeAltRes, mems_writeAltPower, mems_writeHldCtrl, Gate.perms_setReg, mems]

@[simp] theorem mems_readPlace (s : State) (x : Place) (n : Nat) : (readPlace s x n).1.mems = s.mems := by
  unfold readPlace
  repeat' split
  all_goals simp

@[simp] theorem mems_writeCroft (s : State) (n o bytes : Nat) (v : W64) : (writeCroft s n o bytes v).mems = s.mems := by
  grind [writeCroft, mems_onCroft, Site.mem_fence, Site.mem_writeReg, mems]

@[simp] theorem mems_regAnswer (s : State) (k : Packet) (v : W64) : (regAnswer s k v).mems = s.mems := by
  grind [regAnswer, mems_emit, mems_publish, mems]

@[simp] theorem mems_regReadAt (s : State) (k : Packet) : (regReadAt s k).mems = s.mems := by
  grind [regReadAt, mems_emit, mems_readPlace, mems_regAnswer, mems]

@[simp] theorem mems_coreException (s : State) (st n : Nat) : (coreException s st n).mems = s.mems := by
  grind [coreException, mems_modSteward, mems]

@[simp] theorem mems_coreSend (s : State) (st n : Nat) (addr : BitVec 48) (store : Bool) (dest off : Nat) (v : W64) :
    (coreSend s st n addr store dest off v).mems = s.mems := by
  grind [coreSend, mems_emit, mems_modSteward, mems]

@[simp] theorem mems_storeToSet (s : State) (st n : Nat) (addr : BitVec 48) : (storeToSet s st n addr).mems = s.mems := by
  grind [storeToSet, mems_waitFor, mems_modSteward, mems]

@[simp] theorem mems_coreLoad (s : State) (st n : Nat) (addr : BitVec 48) (bytes : Nat) : (coreLoad s st n addr bytes).mems =
    s.mems := by
  grind [coreLoad, mems_coreDone, mems_readPlace, mems_coreException, mems_coreSend, mems]

@[simp] theorem mems_takeCheckpoint (s : State) (h : Nat) : (takeCheckpoint s h).mems = s.mems := by
  grind [takeCheckpoint, mems]

@[simp] theorem mems_restoreCheckpoint (s : State) (h : Nat) : (restoreCheckpoint s h).mems = s.mems := by
  unfold restoreCheckpoint
  split
  · rfl
  · dsimp only
    rw [mems_foldl fun s e => mems_writeCroft s _ _ _ _, mems_foldl fun s e => mems_writeStc s h _ _ _ _]

@[simp] theorem mems_answerControl (s : State) (a : ControlAnswer) : (answerControl s a).mems = s.mems := by
  grind [answerControl, mems]

@[simp] theorem mems_spdm (s : State) (i : Nat) (a : SpdmAnswer) : (spdm s i a).mems = s.mems := by
  grind [spdm, mems_modSec, mems]

@[simp] theorem mems_signed (s : State) (i : Nat) (transcript : List Byte) : (signed s i transcript).2.mems = s.mems := by
  grind [signed, mems]

@[simp] theorem mems_whenUp (s : State) (f : State → State) (hf : ∀ s, (f s).mems = s.mems) : (whenUp s f).mems = s.mems := by
  grind [whenUp, mems]

@[simp] theorem mems_atPort (s : State) (gi k vc : Nat) (m : Msg) (f : State → State) (hf : ∀ s, (f s).mems = s.mems) :
    (atPort s gi k vc m f).mems = s.mems := by
  grind [atPort, mems_modGate, mems_takeMsg, Gate.perms_discardMsg, Gate.perms_setPort, mems]

@[simp] theorem mems_capture (s : State) : (capture s).mems = s.mems := by
  grind [capture, mems]

@[simp] theorem mems_romSets (s : State) (i : Nat) (b : Bool) : (romSets s i b).mems = s.mems := by
  grind [romSets, mems_modSteward, mems_modSec, Site.mem_foldl, Site.wf_foldl, Gate.perms_foldl, mems]

end State
end Sys2Proof.Machine

/-! The operations that write a memory, reset one or start the module again, and the canonical form through them. -/

namespace Sys2Proof.Machine
open Sys2Proof.Safety

namespace State

section Formed

variable {s : State}

theorem formed_setCroft (h : MemsFormed s.mems) (q : Nat) {c : Croft} (hc : Memory.wf c.mem = true) :
    MemsFormed (s.setCroft q c).mems := by
  obtain ⟨hm, hrest⟩ := h
  refine ⟨fun j => ?_, hrest⟩
  show Memory.wf ((s.setCroft q c).croft j).mem = true
  rw [croft_setCroft]
  split
  · exact hc
  · exact hm j

theorem formed_onCroft (h : MemsFormed s.mems) (q : Nat) {f : Site → Site}
    (hf : Memory.wf (s.site q).c.mem = true → Memory.wf (f (s.site q)).c.mem = true) : MemsFormed (s.onCroft q f).mems :=
  formed_setCroft h q (hf (h.1 q))

theorem formed_onRegs (h : MemsFormed s.mems) (q : Nat) {f : Site → Site}
    (hf : ∀ x, Memory.wf x.c.mem = true → Memory.wf (f x).c.mem = true) : MemsFormed (s.onRegs q f).mems := by
  unfold onRegs
  split
  · refine formed_onCroft h q fun hx => ?_
    split
    · exact hx
    · exact hf _ hx
  · exact h

theorem formed_modSteward (h : MemsFormed s.mems) (i : Nat) {f : Steward → Steward}
    (hf : Memory.wf (s.steward i).sram = true → Memory.wf (f (s.steward i)).sram = true) : MemsFormed (s.modSteward i f).mems :=
        by
  obtain ⟨hm, hw, hrest⟩ := h
  refine ⟨hm, fun j => ?_, hrest⟩
  show Memory.wf ((s.setSteward i (f (s.steward i))).steward j).sram = true
  rw [steward_setSteward]
  split
  · exact hf (hw i)
  · exact hw j

theorem formed_foldl {α : Type} {f : State → α → State} (hf : ∀ s a, MemsFormed s.mems → MemsFormed (f s a).mems) (l : List α)
    (h : MemsFormed s.mems) : MemsFormed (l.foldl f s).mems :=
  List.foldlRecOn (motive := fun t : State => MemsFormed t.mems) l f h fun t ht a _ => hf t a ht

theorem formed_ledger (h : MemsFormed s.mems) {l : Ledger} (hl : Memory.wf s.ledger.bytes = true → Memory.wf l.bytes = true) :
    MemsFormed { s with ledger := l }.mems := by
  obtain ⟨hm, hw, hb, hg⟩ := h
  exact ⟨hm, hw, hl hb, hg⟩

/-! ### What starts again -/

/-- The stewards of a cold start hold no byte. -/
theorem sram_mgmtCables (s : State) (i : Nat) : (Tab.get (fun _ => ({} : Steward)) s.mgmtCables i).sram = [] := by
  unfold mgmtCables
  simp only [List.foldl_cons, List.foldl_nil, Tab.get_set]
  split
  · rfl
  · split <;> rfl

theorem formed_cold (h : MemsFormed s.mems) : MemsFormed s.cold.mems := by
  obtain ⟨-, -, hb, -⟩ := h
  refine ⟨fun _ => rfl, fun i => ?_, hb, fun _ _ => rfl⟩
  show Memory.wf (Tab.get (fun _ => ({} : Steward)) s.mgmtCables i).sram = true
  rw [sram_mgmtCables]
  rfl

theorem formed_moduleReset (h : MemsFormed s.mems) : MemsFormed s.moduleReset.mems := formed_cold h

theorem formed_supplyAux (h : MemsFormed s.mems) : MemsFormed s.supplyAux.mems := by
  unfold supplyAux
  dsimp only
  split
  · exact h
  · exact formed_cold h

theorem formed_thermalTrip (h : MemsFormed s.mems) (reading : W16) (p : Nat) : MemsFormed (s.thermalTrip reading p).mems :=
  formed_cold (formed_supplyAux h)

/-! ### Crofts and answers -/

theorem formed_serve (h : MemsFormed s.mems) (k : Packet) {f : Site → Site}
    (hf : ∀ x, Memory.wf x.c.mem = true → Memory.wf (f x).c.mem = true) : MemsFormed (s.serve k f).mems := by
  unfold serve
  split
  · rw [mems_take]; exact h
  · exact formed_onCroft (by rw [mems_take]; exact h) _ fun hx => hf _ hx

theorem formed_serveWrite (h : MemsFormed s.mems) (k : Packet) : MemsFormed (s.serveWrite k).mems := by
  rw [← mems_take s k] at h
  unfold serveWrite
  split
  · exact h
  · next q _ =>
    have ht : MemsFormed ((s.take k).onCroft q fun x => (x.remoteWrite k).1).mems := formed_onCroft h q fun hx => by simpa using
        hx
    dsimp only
    split
    · rw [mems_setParish]; exact ht
    · exact ht

theorem formed_answer (h : MemsFormed s.mems) (k : Packet) : MemsFormed (s.answer k).mems := by
  rw [← mems_take s k] at h
  unfold answer
  generalize s.take k = t at h
  dsimp only
  generalize k.who = w
  cases w with
  | carter q c => exact formed_onCroft h q (Site.wf_carAnswer _ _ _)
  | post q =>
    dsimp only
    rw [mems_onCroft t q _ (Site.mem_postAnswer _ _)]; exact h
  | gate g c =>
    dsimp only
    rw [mems_gateAnswer]; exact h
  | core st n =>
    dsimp only
    rw [mems_coreAnswer]; exact h
  | scaleToken n q =>
    dsimp only
    rw [mems_scaleAnswer]; exact h
  | record n q i =>
    dsimp only
    rw [mems_ite, mems_recordAnswer, mems_refusedAnswer, ite_self]; exact h
  | verdict n q =>
    dsimp only
    rw [mems_ite, mems_refusedAnswer, ite_self]; exact h
  | stcReg n q o =>
    dsimp only
    rw [mems_stcAnswer]; exact h
  | nobody | castCarter | castGate | summary | tallyCall | report | shadow | heartbeat => exact h

theorem formed_holdSum (h : MemsFormed s.mems) (n i half : Nat) (vs : List W32) : MemsFormed (s.holdSum n i half vs).mems := by
  unfold holdSum
  split
  · exact h
  · exact formed_onCroft h _ (Site.wf_store _ _ _)

theorem formed_addChunk (h : MemsFormed s.mems) (n i half : Nat) (bf : Bool) (payload : List Byte) :
    MemsFormed (s.addChunk n i half bf payload).mems := by
  unfold addChunk
  dsimp only
  rw [mems_passChunk]
  refine formed_holdSum ?_ _ _ _ _
  rw [mems_setStc, mems_startChunks]
  exact h

theorem formed_takeChunk (h : MemsFormed s.mems) (m : Msg) : MemsFormed (s.takeChunk m).mems := by
  unfold takeChunk
  split
  · exact h
  · dsimp only
    split
    · exact h
    · exact formed_addChunk h _ _ _ _ _

theorem formed_croftSelfTest (h : MemsFormed s.mems) (q : Nat) (r : SelfTest) : MemsFormed (s.croftSelfTest q r).mems := by
  have ht (rows : List (Nat × Nat)) : MemsFormed (s.onCroft q fun x => (x.loadRepairs rows).1.beginReset.resetDone).mems :=
    formed_onCroft h q fun _ => Site.wf_resetDone _
  unfold croftSelfTest
  dsimp only
  split
  · exact h
  · have hm (p : Hist → Bool) :
        MemsFormed ((s.onCroft q fun x => (x.loadRepairs (s.repairsOf q)).1.beginReset.resetDone).markApplied p).mems := by
      rw [mems_markApplied]; exact ht _
    obtain ⟨t, h', htt⟩ : ∃ t, MemsFormed (State.mems t) ∧ _ = t :=
        ⟨_, hm fun h => locKind h.unit == 0 && rowSub h && locIndex h.unit == q, rfl⟩
    rw [htt]
    have hq : MemsFormed (t.mapOut q).mems := by rw [mems_mapOut]; exact h'
    split
    · exact hq
    · split
      · rw [mems_onCroft t q _ (Site.mem_lift _)]; exact h'
      · split
        · refine formed_ledger (s := t.onCroft q _) ?_ fun hb => hb
          exact formed_onCroft h' q fun hx => by rw [Site.mem_lift, Site.mem_addRepair]; exact hx
        · exact hq
      · exact hq

theorem formed_finishReset (h : MemsFormed s.mems) (n : Nat) : MemsFormed (s.finishReset n).mems := by
  have hc (qs : List Nat) : MemsFormed (qs.foldl (fun s q => s.onCroft q fun x => if x.c.resetting then x.resetDone else x) s).mems :=
    formed_foldl (fun s q hs => formed_onCroft hs q fun hx => by
      split
      · exact Site.wf_resetDone _
      · exact hx) _ h
  have hg (s : State) : ((List.range 28).foldl (fun s i => s.modGate i fun g =>
    (g.contextsOf n).foldl (fun g c => (g.modChan c Chan.settle).destroyChan c 8) g) s).mems = s.mems :=
    mems_foldl (fun s i => mems_modGate s i _ (Gate.perms_foldl (fun g c => by rw [Gate.perms_destroyChan, Gate.perms_modChan])
        _ _)) _ _
  have hp (s : State) (ps : List Nat) : (ps.foldl (fun s p => s.setNum (Reg.hldOwner p) 0x1F) s).mems = s.mems :=
    mems_foldl (fun s p => mems_setNum s _ _) _ _
  unfold finishReset
  dsimp only
  split
  · rw [mems_writeCaps, mems_setHolding, mems_setReg, mems_setReg, hp, mems_applyAllotment, mems_setReg, mems_setReg, mems_setStc, hg]
    exact hc _
  · rw [mems_formCode, mems_setHolding, mems_applyAllotment, mems_setReg, mems_setReg, mems_setStc, hg]
    exact hc _

/-! ### The ledger -/

theorem formed_raiseCycle (h : MemsFormed s.mems) : MemsFormed s.raiseCycle.mems := by
  unfold raiseCycle
  split
  · exact h
  · rw [mems_modSec]
    exact formed_ledger h fun hb => Memory.wf_write _ _ hb

theorem formed_ldgWrite (h : MemsFormed s.mems) (b : Nat) (bad : Bool) : MemsFormed (s.ldgWrite b bad).mems := by
  have hr (l : Ledger) (b : Nat) : (l.retire b).bytes = l.bytes := by
    unfold Ledger.retire
    split <;> rfl
  unfold ldgWrite
  dsimp only
  split
  · rw [mems_ldgCmd]; exact h
  · have h' : MemsFormed (s.ldgCmd b false).mems := by rw [mems_ldgCmd]; exact h
    refine formed_ledger h' fun hb => ?_
    have hl : Memory.wf (if bad then (s.ldgCmd b false).ledger.retire b else (s.ldgCmd b false).ledger).bytes = true := by
      split
      · rw [hr]; exact hb
      · exact hb
    split
    · exact hl
    · dsimp only
      exact Memory.wf_write _ _ hl

theorem formed_runLdg (h : MemsFormed s.mems) (o : LdgOp) : MemsFormed (s.runLdg o).mems := by
  unfold runLdg
  split
  · rw [mems_ldgRead]; exact h
  · exact formed_ldgWrite h _ _

theorem formed_ldgOp (h : MemsFormed s.mems) (o : LdgOp) : MemsFormed (s.ldgOp o).mems := by
  unfold ldgOp
  split
  · exact h
  · split
    · dsimp only
      rw [mems_setField]
      exact formed_ledger h fun hb => hb
    · exact formed_runLdg h _

theorem formed_ldgDone (h : MemsFormed s.mems) : MemsFormed s.ldgDone.mems := by
  unfold ldgDone
  dsimp only
  split
  · exact formed_ledger h fun hb => hb
  · exact formed_runLdg (formed_ledger (l := { s.ledger with busy := false, waiting := s.ledger.waiting.drop 1 }) h fun hb => hb) _

theorem formed_writeLdgCmd (h : MemsFormed s.mems) (v : W64) : MemsFormed (s.writeLdgCmd v).mems := by
  unfold writeLdgCmd
  dsimp only
  repeat' split
  · exact formed_ldgOp h _
  · exact formed_ldgOp h _
  · rw [mems_setField]; exact h

/-! ### Registers by place -/

theorem formed_writeModule (h : MemsFormed s.mems) (o n : Nat) (v : W64) : MemsFormed (s.writeModule o n v).mems := by
  have hl := formed_writeLdgCmd h v
  unfold writeModule
  dsimp only
  split
  · exact h
  · split
    · exact h
    · split
      · rw [mems_writeStw]; exact h
      · next ht => rw [mems_writeHld ht]; exact h
      · repeat' split
        · rw [mems_commit]; exact h
        · exact h
        · rw [mems_writeSowCmd]; exact h
        · exact h
        · rw [mems_levelClear]; exact h
        · exact h
        · rw [mems_fltClear]; exact h
        · rw [mems_resume, mems_fltInject]; exact h
        · exact hl
        · rw [mems_setFlt]; exact h
        · exact h
        · rw [mems_setFlt]; exact h
        · rw [mems_setReg]; exact h

theorem formed_writePlace (h : MemsFormed s.mems) (x : Place) (n hl : Nat) (v : W64) (src : Option Nat) :
    MemsFormed (s.writePlace x n hl v src).mems := by
  unfold writePlace
  split
  · exact formed_writeModule h _ _ _
  · rw [mems_writeParish]; exact h
  · rw [mems_writeBroadcast]; exact h
  · rw [mems_writeStc]; exact h
  · rw [mems_writeGate]; exact h
  all_goals exact h

theorem formed_regWriteAt (h : MemsFormed s.mems) (k : Packet) : MemsFormed (s.regWriteAt k).mems := by
  unfold regWriteAt
  split
  · rw [mems_emit]; exact h
  · dsimp only
    split
    · rw [mems_emit]; exact formed_writePlace h _ _ _ _ _
    · rw [mems_regAnswer]; exact formed_writePlace h _ _ _ _ _

theorem formed_registerWrite (h : MemsFormed s.mems) (addr bytes : Nat) (v : W64) : MemsFormed
    (s.registerWrite addr bytes v).mems := by
  unfold registerWrite
  dsimp only
  split
  · exact h
  · split
    · rw [mems_writeCroft]; exact h
    · exact formed_writePlace h _ _ _ _ _

theorem formed_loadMap (h : MemsFormed s.mems) (n : Nat) (ws : List (BitVec 48 × W64)) : MemsFormed (s.loadMap n ws).mems := by
  refine formed_foldl (fun s w hs => ?_) _ h
  dsimp only
  split
  all_goals split
  all_goals first | exact formed_registerWrite hs _ _ _ | exact hs

theorem formed_serveControl (h : MemsFormed s.mems) (r : ControlRequest) : MemsFormed (s.serveControl r).mems := by
  cases r with
  | loadMap n ws =>
    show MemsFormed ((s.loadMap n ws).answerControl .done).mems
    rw [mems_answerControl]
    exact formed_loadMap h n ws
  | startRun n =>
    show MemsFormed (if s.sec.stage = 8 then (s.writeRun n true s.moduleHalted).answerControl .done else s.answerControl
        .notReady).mems
    split
    · rw [mems_answerControl, mems_writeRun]; exact h
    · rw [mems_answerControl]; exact h
  | _ => simp [serveControl]; exact h

theorem mems_asOne' (s : State) (f : State → State) : (s.asOne f).mems = (f s).mems := by
  unfold asOne
  dsimp only
  repeat' split
  all_goals rfl

theorem formed_coreStore (h : MemsFormed s.mems) (st n : Nat) (addr : BitVec 48) (bytes : Nat) (v : W64) :
    MemsFormed (s.coreStore st n addr bytes v).mems := by
  unfold coreStore
  dsimp only
  split
  · exact h
  · split
    · rw [mems_coreException]; exact h
    · exact formed_modSteward h st fun hw => Memory.wf_write _ _ hw
    · split
      · exact h
      · split
        · rw [mems_coreSend]; exact h
        · rw [mems_asOne', mems_ite, mems_storeToSet, ite_self]
          exact formed_writePlace h _ _ _ _ _

end Formed

end State


theorem Gate.perms_setPort_apply (g : Gate) (k : Nat) (p : Port) (j : Nat) :
    (g.setPort k p).perms j = if j = k then p.permuted else g.perms j := by
  unfold perms port setPort
  rw [Tab.get_set]
  split <;> rfl


namespace State

section Formed

variable {s : State}

theorem formed_setGate (h : MemsFormed s.mems) (g : Nat) {v : Gate} (hv : ∀ i, Memory.wf (v.perms i) = true) :
    MemsFormed (s.setGate g v).mems := by
  obtain ⟨hm, hw, hl, hg⟩ := h
  refine ⟨hm, hw, hl, fun j i => ?_⟩
  show Memory.wf (((s.setGate g v).gate j).perms i) = true
  rw [gate_setGate]
  split
  · exact hv i
  · exact hg j i

theorem formed_atPort (h : MemsFormed s.mems) (g k role : Nat) (m : Msg) {f : State → State}
    (hf : ∀ t, MemsFormed t.mems → MemsFormed (f t).mems) : MemsFormed (s.atPort g k role m f).mems := by
  unfold atPort
  dsimp only
  repeat' split
  · exact hf _ (by rw [mems_takeMsg]; exact h)
  · exact h
  · exact hf _ h
  · rw [mems_modGate s g _ (Gate.perms_discardMsg _ _ _)]; exact h

/-- Permute data is written to the buffer of its port. -/
theorem formed_permuted (h : MemsFormed s.mems) (g k : Nat) (m : Msg) : MemsFormed (s.modGate g fun d =>
    let p := d.port k
    (d.setPort k { p with permuted := Memory.write p.permuted m.addr.toNat m.payload }).post k 1 16
        { op := 0xC1, tag := m.tag }).mems := by
  obtain ⟨-, -, -, hg⟩ := id h
  refine formed_setGate h g fun i => ?_
  dsimp only
  rw [Gate.perms_post, Gate.perms_setPort_apply]
  split
  · exact Memory.wf_write _ _ (hg g k)
  · exact hg g i

/-- Transmitters in electrical idle hold the buffers that they held. -/
theorem formed_idleGates (h : MemsFormed s.mems) (on : Bool) : MemsFormed { s with gates := s.idleGates on }.mems := by
  obtain ⟨hm, hw, hl, hg⟩ := h
  have hi (t : Tab Gate) (g : Nat) : (Tab.get (fun _ => ({} : Gate)) (t.map fun e => (e.1, { e.2 with quiet := on })) g).perms =
      (Tab.get (fun _ => ({} : Gate)) t g).perms := by
    induction t with
    | nil => rfl
    | cons e t ih =>
      rw [List.map_cons, Tab.get, Tab.get]
      split
      · rfl
      · exact ih
  exact ⟨hm, hw, hl, fun g i => by
    show Memory.wf ((Tab.get (fun _ => ({} : Gate)) (s.idleGates on) g).perms i) = true
    unfold idleGates
    rw [hi]
    exact hg g i⟩

end Formed

end State

/-- An outcome that keeps every memory in canonical form. -/
def FormedNext (s : State) (o : Host.Outcome State Fault Refusal) : Prop :=
  ∀ t, o = .next t → State.MemsFormed s.mems → State.MemsFormed t.mems

theorem FormedNext.next {s u : State} (h : State.MemsFormed s.mems → State.MemsFormed u.mems) : FormedNext s (.next u) := by
  intro t ht hs
  cases ht
  exact h hs

theorem FormedNext.kept {s u : State} (h : u.mems = s.mems) : FormedNext s (.next u) := .next fun hs => h ▸ hs

theorem FormedNext.ite {s : State} {p : Prop} [Decidable p] {o : Host.Outcome State Fault Refusal} (h : FormedNext s o) :
    FormedNext s (if p then o else .next s) := by
  split
  · exact h
  · exact .kept rfl

theorem FormedNext.checked {s u : State} (b : Bool) (h : State.MemsFormed s.mems → State.MemsFormed u.mems) :
    FormedNext s (checked b u) := by
  cases b
  · exact fun t ht => absurd ht (by simp [Machine.checked])
  · exact .next h

theorem FormedNext.onCroft {s : State} {q : Nat} {f : Site → Site}
    (hf : ∀ x, Memory.wf x.c.mem = true → Memory.wf (f x).c.mem = true) :
    FormedNext s (.next (s.onCroft q f)) := .next fun hs => State.formed_onCroft hs q (hf _)

theorem FormedNext.onRegs {s : State} {q : Nat} {f : Site → Site} (hf : ∀ x, (f x).c.mem = x.c.mem) :
    FormedNext s (.next (s.onRegs q f)) := .kept (State.mems_onRegs s q f hf)

theorem FormedNext.inTurn {s : State} {k : Packet} {f : State → State}
    (h : State.MemsFormed s.mems → State.MemsFormed (f s).mems) :
    FormedNext s (s.inTurn k f) := by
  refine .checked _ fun hs => ?_
  split
  · exact hs
  · rw [State.mems_asOne']; exact h hs

theorem exec_unit_formed {c : Instr} {q : Phys} (s : State) (h : unitOf c = some q) : FormedNext s (exec c s) := by
  cases c
  case winCmdOpen | winCmdClose | seqStart => cases h; exact .ite (.onRegs fun x => by simp)
  case carCmdStart | carCmdAbort | carCmdDestroy => cases h; exact .ite (.onCroft fun x hx => by simpa using hx)
  case croftReset | fenceWrite | crfSeqSlotsWrite | crfRepairDataWrite => cases h; exact .onRegs fun x => by simp
  case crfStepWrite => cases h; exact .onRegs fun x => Site.mem_stepWrite _ _ _ Site.mem_roll
  case writeCommit =>
    cases h
    refine .onCroft fun x hx => ?_
    split
    · exact hx
    · exact Site.wf_commitWrite _ (by simpa using hx)
  case croftResetDone =>
    cases h
    refine .onCroft fun x hx => ?_
    split
    · exact Site.wf_resetDone x
    · exact hx
  case closeComplete =>
    cases h
    refine .onCroft fun x hx => ?_
    dsimp only
    split <;> simpa using hx
  all_goals cases h
  all_goals refine FormedNext.onCroft fun x hx => ?_
  case drain | run =>
    split
    · rw [Site.mem_enqueue _ _ _ _ (by simp)]; exact hx
    · exact hx
  all_goals simp [Site.wf_moveCmd, Site.wf_gatherWord, Site.wf_gatherComplete, Site.wf_streamLine, Site.wf_addinLine, Site.wf_drainRow, Site.wf_vectorFinish, Site.wf_vectorStart, Site.wf_beat, hx]


namespace State

theorem formed_stageBl1 {s : State} (h : MemsFormed s.mems) (r : StageResult) : MemsFormed (s.stageBl1 r).mems := by
  have hr (l : Ledger) (b : Nat) : (l.retire b).bytes = l.bytes := by
    unfold Ledger.retire
    split <;> rfl
  have hb (s : State) (b : Bool) : (s.bootCopy b).mems = s.mems := by
    have hf (s : State) (es : List (W32 × Nat)) : (es.foldl (fun s e =>
        if e.2 < 128 then s.setReg (Reg.fltClass e.2) ((e.1 &&& 0xE3FFFFFF).setWidth 64) else s) s).mems = s.mems :=
      mems_foldl (fun s e => by rw [mems_ite, mems_setReg, ite_self]) _ _
    unfold bootCopy
    dsimp only
    rw [mems_modSec, hf, mems_modSec, mems_modSec]
  have h1 : MemsFormed (raiseCycle { s with ledger := { s.ledger with answers := r.ledgerOk } }).mems :=
    formed_raiseCycle (formed_ledger h fun hl => hl)
  unfold stageBl1
  extract_lets _ s1 _
  change MemsFormed s1.mems at h1
  generalize s1 = t at h1
  split
  · rw [mems_bootFail]; exact h1
  · split
    · rw [mems_bootFail]; exact h1
    · dsimp only
      split
      · rw [mems_markBad, mems_romSets, mems_modSec]; exact h1
      · rw [mems_recordTrip, mems_markApplied, mems_retireKind _ _ _ _ fun s l => by rw [mems_mk, hr, mems_fold],
          mems_chooseRoles, hb,
          mems_romSets, mems_modSec]
        exact h1

theorem formed_stageComplete {s : State} (h : MemsFormed s.mems) (r : StageResult) : MemsFormed (s.stageComplete r).mems := by
  unfold stageComplete
  split
  · exact h
  · split
    · rw [mems_stageRom]; exact h
    · exact formed_stageBl1 h r
    · rw [mems_stageNet]; exact h
    · rw [mems_stageSelfTest]; exact h
    · rw [mems_enterStage]; exact h
    · rw [mems_enterStage]; exact h
    · rw [mems_enterStage]; exact h
    · rw [mems_enterStage]; exact h
    · exact h

theorem mems_fusesBlown (s : State) : s.fusesBlown.mems = s.mems := by
  unfold fusesBlown
  split <;> rfl

end State

theorem formedNext_auxConverterStart (s : State) : FormedNext s (exec (Instr.auxConverterStart) s) := by
  dsimp only [exec, execAuxConverterStart]
  split
  · exact .next fun h => State.formed_supplyAux h
  · exact .next fun h => State.formed_supplyAux h
  · exact .kept rfl

theorem formedNext_supplyTrip (k : Fin 8) (high : Bool) (s : State) : FormedNext s (exec (Instr.supplyTrip k high) s) := by
  show FormedNext s (execSupplyTrip k high s)
  unfold execSupplyTrip
  extract_lets _ u ps w _ v
  have hu : u.mems = s.mems := rfl
  have hw : w.mems = s.mems := by
    rw [← hu]
    unfold w
    split
    · exact State.mems_foldl State.mems_isolate _ _
    · rfl
  have hv : v.mems = s.mems := hw
  split
  · exact .kept hu
  · split
    · exact .kept ((State.mems_raise _ _ _ _ _ _ _).trans hv)
    · exact .kept hv

theorem formedNext_moduleReset (s : State) : FormedNext s (exec (Instr.moduleReset) s) := by
  dsimp only [exec, execModuleReset]
  split
  · exact .kept rfl
  · exact .next fun h => State.formed_moduleReset h

theorem formedNext_modResetNRise (s : State) : FormedNext s (exec (Instr.modResetNRise) s) := by
  dsimp only [exec, execModResetNRise]
  split
  · exact .kept rfl
  · have ht (h : State.MemsFormed s.mems) := State.formed_idleGates h false
    repeat' split
    · exact .next fun h => by rw [State.mems_tryBringUp]; exact State.formed_moduleReset (ht h)
    · exact .next fun h => by rw [State.mems_tryBringUp]; exact State.formed_moduleReset (ht h)
    · exact .next fun h => by rw [State.mems_tryBringUp]; exact ht h

theorem formedNext_sensorReading (p : Par) (s0 : W16) (s1 : W16) (s2 : W16) (s3 : W16) (_computeMv : W16) (_networkMv : W16)
    (_computeCur : W16) (_networkCur : W16) (s : State) : FormedNext s
        (exec (Instr.sensorReading p s0 s1 s2 s3 _computeMv _networkMv _computeCur _networkCur) s) := by
  dsimp only [exec, execSensorReading]
  split
  · split
    · split
      · exact .kept rfl
      · exact .next fun h => State.formed_thermalTrip h _ _
    · exact .kept rfl
  · split
    · exact .next fun h => State.formed_thermalTrip (by simpa using h) _ _
    · exact .kept (by simp)

theorem formedNext_cableInsertRemove (c : Cage) (cable : Option CableMemory) (s : State) : FormedNext s
    (exec (Instr.cableInsertRemove c cable) s) := by
  have hl (s : State) (g k : Nat) (ls : List Nat) : (ls.foldl (fun s i => s.laneFail g (8 * k + i)) s).mems = s.mems :=
    State.mems_foldl (fun s i => State.mems_laneFail s g _) _ _
  dsimp only [exec, execCableInsertRemove]
  split
  · exact .kept (State.mems_setSteward _ _ _ rfl)
  · split
    · exact .kept rfl
    · refine .kept ?_
      rw [State.mems_modGate, hl, State.mems_mk, State.mems_fold]
      exact Gate.perms_setPort _ _ _ rfl

theorem formedNext_packetHop (i : Nat) (err : FlitErr) (s : State) : FormedNext s (exec (Instr.packetHop i err) s) := by
  dsimp only [exec, execPacketHop]
  split
  · exact .kept rfl
  · next f _ =>
    have hk := State.mems_checkFlits s (State.parOf f.pos) f.via f.pkt err
    split
    · exact .kept rfl
    · split
      · next h => exact .kept (by rw [h] at hk; exact hk)
      · next h =>
        rw [h] at hk
        split
        · exact .kept (by rw [State.mems_hopMulticast]; exact hk)
        · exact .kept (by rw [State.mems_hopUnicast]; exact hk)

theorem formedNext_packetDeliver (i : Nat) (err : FlitErr) (s : State) : FormedNext s (exec (Instr.packetDeliver i err) s) := by
  dsimp only [exec, execPacketDeliver]
  split
  · exact .kept rfl
  · next f _ =>
    have hk := State.mems_checkFlits s (State.parOf f.pos) f.via f.pkt err
    split
    · exact .kept rfl
    · split
      · next h => exact .kept (by rw [h] at hk; exact hk)
      · next h => exact .kept (by rw [h] at hk; rw [State.mems_deliver]; exact hk)

theorem formedNext_regWrite (k : Packet) (s : State) : FormedNext s (exec (Instr.regWrite k) s) := by
  refine .inTurn fun h => ?_
  split
  · exact State.formed_serve h k fun x hx => by simpa using hx
  · exact State.formed_regWriteAt (by rw [State.mems_take]; exact h) k

theorem formedNext_regRead (k : Packet) (s : State) : FormedNext s (exec (Instr.regRead k) s) := by
  refine .inTurn fun h => ?_
  split
  · exact State.formed_serve h k fun x hx => by simpa using hx
  · rw [State.mems_regReadAt, State.mems_take]; exact h

theorem formedNext_requestTimeout (ch : ChanId) (tag : W16) (s : State) : FormedNext s (exec (Instr.requestTimeout ch tag) s) :=
    by
  cases ch with
  | croft q c => exact .onCroft fun x hx => by simpa using hx
  | gate g c => exact .kept (by simp)

theorem formedNext_retry (ch : ChanId) (tag : W16) (s : State) : FormedNext s (exec (Instr.retry ch tag) s) := by
  cases ch with
  | croft q c => exact .onCroft fun x hx => by simpa using hx
  | gate g c => exact .kept (by simp)

theorem formedNext_channelDrainEnd (ch : ChanId) (s : State) : FormedNext s (exec (Instr.channelDrainEnd ch) s) := by
  cases ch with
  | croft q c => exact .onCroft fun x hx => by simpa using hx
  | gate g c => exact .ite (.kept (State.mems_modGate _ _ _ rfl))

theorem formedNext_scaleTokenAck (hld : Hold) (k : Packet) (s : State) : FormedNext s (exec (Instr.scaleTokenAck hld k) s) := by
  refine .inTurn fun h => ?_
  split
  · split
    · rw [State.mems_scaleAnswer, State.mems_take]; exact h
    · rw [State.mems_take]; exact h
  · rw [State.mems_take]; exact h

theorem formedNext_harvestChunk (g : GateId) (port : PortId) (m : Msg) (s : State) : FormedNext s
    (exec (Instr.harvestChunk g port m) s) := by
  refine .checked _ fun h => ?_
  split
  · rw [State.mems_asOne']
    exact State.formed_atPort h _ _ _ _ fun t ht => State.formed_takeChunk ht m
  · exact h

theorem Gate.perms_noteLoss (d : Gate) (l n : Nat) (v : Lane) :
    ((d.setLane l v).setNum (Reg.lnkLaneMeas l) n).perms = d.perms := rfl

theorem formedNext_trainSuccess (g : GateId) (l : LaneId) (loss : W16) (s : State) : FormedNext s
    (exec (Instr.trainSuccess g l loss) s) :=
  FormedNext.ite (FormedNext.kept ((State.mems_laneTo _ g l .lock).trans
    (State.mems_modGate s g _ (Gate.perms_noteLoss _ _ _ _))))

/-- A clock that changes alone touches no memory. -/
theorem formedNext_clock (s : State) (c : Clock) : FormedNext s (.next { s with clock := c }) := .kept rfl

theorem formedNext_epochEdge (s : State) : FormedNext s (exec .epochEdge s) := by
  change FormedNext s (execEpochEdge s)
  unfold execEpochEdge
  extract_lets c near d good
  split
  · exact formedNext_clock s s.clock
  · split
    · exact formedNext_clock s _
    · split
      · split
        · exact formedNext_clock s _
        · exact formedNext_clock s _
      · exact formedNext_clock s _

theorem formedNext_trainTimeout (g : GateId) (l : LaneId) (s : State) : FormedNext s (exec (Instr.trainTimeout g l) s) := by
  refine .ite ?_
  split
  · exact .kept (State.mems_laneFail _ _ _)
  · exact .kept (State.mems_modGate _ _ _ rfl)

theorem formedNext_permuteData (g : GateId) (port : PortId) (m : Msg) (s : State) : FormedNext s
    (exec (Instr.permuteData g port m) s) := by
  refine .checked _ fun h => ?_
  split
  · exact State.formed_atPort h _ _ _ _ fun t ht => State.formed_permuted ht g port m
  · exact h

theorem formedNext_permuteAck (g : GateId) (port : PortId) (m : Msg) (s : State) : FormedNext s
    (exec (Instr.permuteAck g port m) s) := by
  refine .checked _ fun h => ?_
  split
  · refine State.formed_atPort h _ _ _ _ fun t ht => ?_
    dsimp only
    split
    · rw [State.mems_modGate]
      · exact ht
      · exact Gate.perms_setPort _ _ _ rfl
    · rw [State.mems_countDiscard]; exact ht
  · exact h

theorem formedNext_gateLost (g : GateId) (s : State) : FormedNext s (exec (Instr.gateLost g) s) := by
  dsimp only [exec, execGateLost]
  split
  · exact .kept rfl
  · refine .kept ?_
    rw [State.mems_raise]
    exact State.mems_modGate _ _ _ rfl

theorem formedNext_kick (st : Stw) (s : State) : FormedNext s (exec (Instr.kick st) s) := by
  refine .kept (State.mems_modSteward _ _ _ ?_)
  split <;> rfl

theorem formedNext_watchdogExpiry (st : Stw) (s : State) : FormedNext s (exec (Instr.watchdogExpiry st) s) := by
  refine .kept (State.mems_whenUp _ _ fun s => State.mems_modSteward _ _ _ ?_)
  split <;> rfl

theorem formedNext_shadowRecord (n : Nat) (s : State) : FormedNext s (exec (Instr.shadowRecord n) s) := by
  have hc (s : State) (d : Shadow) : (d.changes.foldl State.applyChange s).mems = s.mems := State.mems_foldl State.mems_applyChange _ _
  dsimp only [exec, execShadowRecord]
  split
  · split
    · refine .kept ?_
      rw [State.mems_emit, State.mems_mk, State.mems_fold, hc, State.mems_take]
    · exact .kept rfl
  · exact .kept rfl

theorem formedNext_registerWrite (addr : BitVec 48) (bytes : Nat) (v : W64) (s : State) : FormedNext s
    (exec (Instr.registerWrite addr bytes v) s) := by
  refine .checked _ fun h => ?_
  rw [State.mems_asOne']
  exact State.formed_registerWrite h _ _ _

theorem formedNext_controlServiceRequest (st : Stw) (r : ControlRequest) (s : State) : FormedNext s
    (exec (Instr.controlServiceRequest st r) s) := by
  dsimp only [exec, execControlServiceRequest]
  split
  · exact .kept rfl
  · split
    · exact .next fun h => by rw [State.mems_asOne']; exact State.formed_serveControl h r
    · split
      · exact .kept (State.mems_answerControl _ _)
      · exact .kept (State.mems_answerControl _ _)
    · exact .kept rfl

/-- Every command keeps the memories in canonical form: most write none, and the others write them byte by byte or start them
again. -/
theorem exec_formed (c : Instr) (s : State) : FormedNext s (exec c s) := by
  cases hu : unitOf c with
  | some q => exact exec_unit_formed s hu
  | none =>
  cases c
  case parishTrip | tripReport | refclkLoss | epochLoss | supplyReading | coolantReading | tapInstruction |
     rowMapSwitch | computeRailUp | pclkStep | nclkLockLoss | tallyCall | escape | livenessPulse | parishDeadIsolate |
     tblApplied | stewardAccessTimeout | tallyCallTimer | verdictTokenRetry | overflowRestart | normTimeout |
     restoreCroftsStopped | portDisable | lock | lockTimeout | lossOfLock | ackTimeout | storeTimeout | heartbeat |
     allotmentApplied | modulePowerReading | getCertificate | challenge | getMeasurements | causeEnd | recordAppend |
     shadowAck | cageSupplyShort | stewardUe | abandonComplete =>
    dsimp only [exec, execParishTrip, execTripReport, execRefclkLoss, execEpochLoss, execSupplyReading,
      execCoolantReading, execTapInstruction, execRowMapSwitch, execComputeRailUp, execPclkStep, execNclkLockLoss,
      execTallyCall, execEscape, execLivenessPulse, execParishDeadIsolate, execTblApplied, execStewardAccessTimeout,
      execTallyCallTimer, execVerdictTokenRetry, execOverflowRestart, execNormTimeout, execRestoreCroftsStopped,
      execPortDisable, execLock, execLockTimeout, execLossOfLock, execAckTimeout, execStoreTimeout, execHeartbeat,
      execAllotmentApplied, execModulePowerReading, execGetCertificate, execChallenge, execGetMeasurements,
      execCauseEnd, execRecordAppend, execShadowAck, execCageSupplyShort, execStewardUe, execAbandonComplete]
    repeat' split
    all_goals exact .kept (by simp)
  case tallyRecord | packetInject | stewardLoad | fingerprint | caps | data | idle | time | ebsoberReadData |
     writeDone | shardData | shardDone | error => exact .checked _ fun h => by simpa using h
  case busbarWithinLimits => exact .next fun h => by rw [State.mems_tryBringUp]; exact State.formed_supplyAux h
  case busbarRemoval => exact .next fun h => State.formed_cold (State.formed_supplyAux h)
  case busbarOvervoltage => exact .next fun h => State.formed_cold (State.formed_supplyAux h)
  case auxConverterStart => exact formedNext_auxConverterStart s
  case supplyTrip => exact formedNext_supplyTrip _ _ s
  case modResetNFall => exact .next fun h => State.formed_idleGates h _
  case moduleReset => exact formedNext_moduleReset s
  case modResetNRise => exact formedNext_modResetNRise s
  case tripLatchClear => exact .ite (.next fun h => State.formed_supplyAux h)
  case sensorReading => exact formedNext_sensorReading _ _ _ _ _ _ _ _ _ s
  case cableInsertRemove => exact formedNext_cableInsertRemove _ _ s
  case packetHop => exact formedNext_packetHop _ _ s
  case packetDeliver => exact formedNext_packetDeliver _ _ s
  case regWrite => exact formedNext_regWrite _ s
  case regRead => exact formedNext_regRead _ s
  case stewardStore => exact .checked _ fun h => State.formed_coreStore h _ _ _ _ _
  case write k => exact .inTurn fun h => State.formed_serveWrite h k
  case readReq k => exact .inTurn fun h => State.formed_serve h k fun x hx => by simpa using hx
  case token k => exact .inTurn fun h => State.formed_serve h k fun x hx => by simpa using hx
  case writeAck | readData | nack | regData =>
    refine .inTurn fun h => ?_
    split
    · exact State.formed_answer h _
    · exact h
  case requestTimeout => exact formedNext_requestTimeout _ _ s
  case retry => exact formedNext_retry _ _ s
  case channelDrainEnd => exact formedNext_channelDrainEnd _ s
  case scaleTokenAck => exact formedNext_scaleTokenAck _ _ s
  case harvestChunk => exact formedNext_harvestChunk _ _ _ s
  case cableAlarmPoll g port fatal => exact .kept (State.mems_foldl (fun s i => State.mems_laneFail s g _) _ _)
  case epochEdge => exact formedNext_epochEdge s
  case trainSuccess => exact formedNext_trainSuccess _ _ _ s
  case trainTimeout => exact formedNext_trainTimeout _ _ s
  case permuteData => exact formedNext_permuteData _ _ _ s
  case permuteAck => exact formedNext_permuteAck _ _ _ s
  case gateLost => exact formedNext_gateLost _ s
  case kick => exact formedNext_kick _ s
  case watchdogExpiry => exact formedNext_watchdogExpiry _ s
  case shadowRecord => exact formedNext_shadowRecord _ s
  case holdingResetDone hld => exact .ite (.next fun h => State.formed_finishReset h hld)
  case stageComplete r => exact .next fun h => State.formed_stageComplete h r
  case croftSelftest q r => exact .next fun h => State.formed_croftSelfTest h q r
  case sowOpDone => exact .kept rfl
  case fuseBlowDone => exact .kept (State.mems_fusesBlown s)
  case ldgRead | ldgWrite => exact .next fun h => State.formed_ldgOp h _
  case ldgOpDone => exact .next State.formed_ldgDone
  case registerWrite => exact formedNext_registerWrite _ _ _ s
  case controlServiceRequest => exact formedNext_controlServiceRequest _ _ s
  all_goals cases hu
  all_goals exact .kept (by simp)

/-- A tick leaves every memory as it was. -/
theorem mems_idleStep (s : State) : (idleStep s).mems = s.mems := by
  unfold idleStep State.tick
  split <;> rfl

/-- Settles O5: a command keeps every memory in canonical form, and a tick changes none. -/
theorem stepsKeepMemoriesFormed : Obligations.StepsKeepMemoriesFormed := by
  unfold Obligations.StepsKeepMemoriesFormed
  intro s t hs hstep
  rw [State.memoriesFormed_iff] at hs ⊢
  unfold step at hstep
  split at hstep
  · obtain rfl := Host.Outcome.next.inj hstep
    rw [mems_idleStep]
    exact hs
  · next c rest _ => exact exec_formed c { s with pending := rest } t hstep hs

end Sys2Proof.Machine

/-! The sequencer's words, waits and windows: what each command of a running sequencer comes to. -/

namespace Sys2Proof.Machine
open Sys2Proof.Safety

/-- Settles O1: a step is exec on the queue's rest. -/
theorem stepRunsFront : Obligations.StepRunsFront := by
  unfold Obligations.StepRunsFront
  intro c s rest h
  unfold step
  rw [h]

/-- Settles O2: a tick moves module time on while the stewards run, and with no slew it moves by one. -/
theorem idleStepsTick : Obligations.IdleStepsTick := by
  unfold Obligations.IdleStepsTick
  intro s h
  have hs : step s = .next s.tick := by unfold step; rw [h]; rfl
  rw [hs]
  refine ⟨fun hu hr hz => ?_, fun hd => ?_, s.tick, rfl, ?_⟩
  · have ha : s.alive = true := by simp [State.alive, hu, hr]
    unfold State.tick
    rw [if_pos ha]
    simp [hz]
  · have ha : ¬ s.alive = true := by rcases hd with h | h <;> simp [State.alive, h]
    unfold State.tick
    rw [if_neg ha]
  · unfold State.tick
    split <;> rfl

/-- Settles O3: the reset state holds its own fuses, no byte and no command. -/
theorem resetMeetsTheInvariants : Obligations.ResetMeetsTheInvariants := by
  unfold Obligations.ResetMeetsTheInvariants
  refine ⟨⟨fusesFrom_refl _, fusesFrom_refl _⟩, ⟨fun _ => rfl, fun _ => rfl, rfl, fun _ _ => rfl⟩, fun c hc => ?_, rfl⟩
  simp [State.reset] at hc

/-- An SPDM answer leaves a steward whose port is up and that is not LOST. -/
theorem spdm_sent {s : State} {st : Nat} (h : s.mgmtPin st = true) (hr : (s.steward st).role ≠ .lost) (a : SpdmAnswer) :
    s.spdm st a = spdmSent s st a := by
  have hu : s.spdmUp st = true := by simp [State.spdmUp, h, hr]
  unfold State.spdm
  rw [if_pos hu]
  rfl

/-- A signed answer takes a free value besides. -/
theorem spdm_signed_sent {s : State} {st : Nat} (h : s.mgmtPin st = true) (hr : (s.steward st).role ≠ .lost) (m : List Byte)
    (a : SpdmAnswer) :
    (s.signed st m).2.spdm st a = { spdmSent s st a with freeCtr := s.freeCtr + 1 } := by
  have hu : s.spdmUp st = true := by simp [State.spdmUp, h, hr]
  have hc : (s.signed st m).2 = { s with freeCtr := s.freeCtr + 1 } := by unfold State.signed; rw [if_pos hu]
  rw [hc, spdm_sent (s := { s with freeCtr := s.freeCtr + 1 }) h hr]
  rfl

/-- Blocks with their indices, from k on. -/
def numberedFrom (k : Nat) (bs : List (List Byte)) : List (Nat × List Byte) := (bs.zipIdx k).map fun e => (e.2, e.1)

@[simp] theorem length_numberedFrom (k : Nat) (bs : List (List Byte)) : (numberedFrom k bs).length = bs.length := by simp
    [numberedFrom]

theorem numberedFrom_cons (k : Nat) (b : List Byte) (bs : List (List Byte)) :
    numberedFrom k (b :: bs) = (k, b) :: numberedFrom (k + 1) bs := by simp [numberedFrom]

theorem getElem?_numberedFrom (k : Nat) (bs : List (List Byte)) {i : Nat} (h : i < bs.length) :
    (numberedFrom k bs)[i]? = some (i + k, bs.getD i []) := by
  simp [numberedFrom, h, Nat.add_comm]

/-- No block below the first index. -/
theorem filter_numberedFrom_lt (bs : List (List Byte)) {k i : Nat} (h : i < k) : ((numberedFrom k bs).filter fun e => e.1 = i) =
    [] := by
  induction bs generalizing k with
  | nil => rfl
  | cons b bs ih =>
    rw [numberedFrom_cons, List.filter_cons_of_neg (by simp; omega)]
    exact ih (by omega)

theorem filter_numberedFrom (bs : List (List Byte)) {k i : Nat} (h1 : k ≤ i) (hn : i < k + bs.length) :
    ((numberedFrom k bs).filter fun e => e.1 = i) = [(i, bs.getD (i - k) [])] := by
  induction bs generalizing k with
  | nil => simp at hn; omega
  | cons b bs ih =>
    rw [numberedFrom_cons]
    by_cases hk : k = i
    · subst hk
      rw [List.filter_cons_of_pos (by simp), filter_numberedFrom_lt bs (by omega)]
      simp
    · rw [List.filter_cons_of_neg (by simpa using hk), ih (by omega) (by simp at hn; omega)]
      rw [show i - k = (i - (k + 1)) + 1 by omega, List.getD_cons_succ]

/-- Settles O57: each request's answer, by the command that brings it. -/
theorem spdmRequestsAreAnswered : Obligations.SpdmRequestsAreAnswered := by
  unfold Obligations.SpdmRequestsAreAnswered
  intro st s h hr
  have hs := spdm_sent h hr
  have hg := spdm_signed_sent h hr
  have hm (i : Nat) (h0 : i ≠ 0) (bs : List (Nat × List Byte)) (hb : (if i = 0xFF then numberedFrom 1 (s.dieIdentity st).blocks else
      (numberedFrom 1 (s.dieIdentity st).blocks).filter fun e => e.1 = i) = bs) (hne : bs ≠ []) :
      ∃ sig, exec (.getMeasurements st i) s = .next { spdmSent s st (.measurements bs sig) with freeCtr := s.freeCtr + 1 } := by
    refine ⟨(s.signed st (bs.flatMap fun e => e.2)).1, ?_⟩
    show execGetMeasurements st i s = _
    unfold execGetMeasurements
    dsimp only
    rw [if_neg h0]
    have he : ((s.dieIdentity st).blocks.zipIdx 1).map (fun e => (e.2, e.1)) = numberedFrom 1 (s.dieIdentity st).blocks := rfl
    rw [he, hb, if_neg (by simpa using hne), hg]
  refine ⟨congrArg _ (hs _), congrArg _ (hs _), congrArg _ (hs _), congrArg _ (hs _), fun off len => congrArg _ (hs _),
    fun nonce => ⟨_, congrArg _ (hg _ _)⟩, ?_, fun i h1 hn hf => ?_, fun h0 => ?_, fun slot hz =>
        ⟨fun off len => ?_, fun nonce => ?_⟩,
    fun code => congrArg _ (hs _)⟩
  · show execGetMeasurements st 0 s = _
    unfold execGetMeasurements
    dsimp only
    rw [if_pos rfl, hs]
    simp
  · exact hm i (by omega) _ (by rw [if_neg hf, filter_numberedFrom _ h1 (by omega)]) (by simp)
  · obtain ⟨sig, hsig⟩ := hm 0xFF (by omega) _ (if_pos rfl) (by
      intro he
      have := congrArg List.length he
      simp at this
      simp [this] at h0)
    exact ⟨sig, _, hsig, by simp, fun i hi => getElem?_numberedFrom 1 _ hi⟩
  · exact (if_neg hz).trans (congrArg _ (hs _))
  · exact (if_neg hz).trans (congrArg _ (hs _))

end Sys2Proof.Machine

namespace Sys2Proof.Machine
open Sys2Proof.Safety

/-! ### Words that issue into a unit's queue -/

/-- A word for a unit whose queue has room enters it as it issues (R86). -/
theorem enqueue_room {s : State} {q : Nat} {w : W128} {l : List QWord} {put : List QWord → Croft → Croft}
    (hp : (put (l ++ [queued s q w]) (s.croft q)).seq = (s.croft q).seq) (h : l.length < 4) :
    (s.site q).enqueue w l put =
      { s.site q with c := { put (l ++ [queued s q w]) (s.croft q) with seq := past (s.croft q).seq, stalled := true } } := by
  rw [Site.enqueue_eq _ _ _ _ hp, if_neg (by omega)]
  rfl

/-- A word for a unit whose queue is full holds the sequencer (R86). -/
theorem enqueue_full {s : State} {q : Nat} {w : W128} {l : List QWord} {put : List QWord → Croft → Croft}
    (hp : (put (l ++ [queued s q w]) (s.croft q)).seq = (s.croft q).seq) (h : 4 ≤ l.length) :
    (s.site q).enqueue w l put =
      { s.site q with c := { s.croft q with seq := heldAt (s.croft q).seq .unitFull, stalled := true } } := by
  rw [Site.enqueue_eq _ _ _ _ hp, if_pos h]
  rfl

/-- The command of an array word that stands at the pc does what the queue of array words does with it. -/
theorem exec_arrayWord {s : State} {q : Phys} {w : W128} (h : Issues s q w) (hc : wordClass w = 1) {i : Instr}
    (hi : wordOp w = 1 ∧ i = .load q ∨ wordOp w = 2 ∧ i = .stream q ∨ wordOp w = 3 ∧ i = .addin q) {c : Croft}
    (he : ((s.site q).enqueue w (s.croft q).arrayQ fun l c => { c with arrayQ := l }) = { s.site q with c := c }) :
    exec i s = .next (s.setCroft q c) := by
  have hop : ∀ op, wordOp w = op → (s.site q).enqueueArray op = { s.site q with c := c } := by
    intro op ho
    unfold Site.enqueueArray
    rw [Site.issuing_eq h 1 hc]
    exact (if_pos ho).trans he
  obtain ⟨ho, rfl⟩ | ⟨ho, rfl⟩ | ⟨ho, rfl⟩ := hi
  · exact State.onCroft_next (hop 1 ho)
  · exact State.onCroft_next (hop 2 ho)
  · exact State.onCroft_next (hop 3 ho)

/-- Settles O14: a word issues into its unit's queue where that has room, and holds the sequencer where it has none. -/
theorem unitWordsEnterTheirQueues : Obligations.UnitWordsEnterTheirQueues := by
  unfold Obligations.UnitWordsEnterTheirQueues
  intro q s w h
  refine ⟨fun hc => ?_, fun hc hl i hi => exec_arrayWord h hc hi (enqueue_room rfl hl), fun hc hl => ?_, fun hc hl => ?_,
    fun hc hl i hi => exec_arrayWord h hc hi (enqueue_full rfl hl), fun hc hl => ?_, fun hc hl => ?_⟩
  · exact State.onCroft_next (by dsimp only; rw [Site.issuing_eq h 0 hc]; rfl)
  · exact State.onCroft_next (by dsimp only; rw [Site.issuing_eq h 2 hc]; exact enqueue_room rfl hl)
  · exact State.onCroft_next (by dsimp only; rw [Site.issuing_eq h 3 hc]; exact enqueue_room rfl hl)
  · exact State.onCroft_next (by dsimp only; rw [Site.issuing_eq h 2 hc]; exact enqueue_full rfl hl)
  · exact State.onCroft_next (by dsimp only; rw [Site.issuing_eq h 3 hc]; exact enqueue_full rfl hl)

/-! ### Loops and waits -/

/-- Settles O15: each loop word, and each end of a wait by its source. -/
theorem loopsNestAndWaitsTakeTheirSource : Obligations.LoopsNestAndWaitsTakeTheirSource := by
  unfold Obligations.LoopsNestAndWaitsTakeTheirSource
  refine ⟨fun q s w h => ⟨fun hc hl hd => ?_, fun l t hc hl hd ht => ?_, fun l t hc hl hd ht => ?_⟩, fun q s w => ⟨fun h hc => ⟨fun x t hs hq => ?_, fun hs hq => ?_, fun hs hn => ?_, fun hs hn => ?_⟩,
    fun hl hw => ⟨fun k x t hk hq => ?_, fun hk hn => ?_, fun k hk hq ht => ?_⟩⟩⟩
  · refine State.onCroft_next ?_
    unfold Site.loopWord
    rw [Site.issuing_eq h 6 hc]
    exact if_neg (by simp only [State.site_c]; omega)
  · refine State.onCroft_next ?_
    unfold Site.endloopWord
    rw [Site.issuing_eq h 7 hc]
    simp [hl, hd, ht]
    rfl
  · refine State.onCroft_next ?_
    unfold Site.endloopWord
    rw [Site.issuing_eq h 7 hc]
    simp [hl, hd, Nat.not_lt.2 ht]
    rfl
  · refine State.onCroft_next ?_
    unfold Site.waitWord
    rw [Site.issuing_eq h 8 hc]
    simp [hs, Site.waitMet, hq, Site.waitTake]
    rfl
  · refine State.onCroft_next ?_
    unfold Site.waitWord
    rw [Site.issuing_eq h 8 hc]
    simp [hs, Site.waitMet, hq]
    rfl
  · refine State.onCroft_next ?_
    unfold Site.waitWord
    rw [Site.issuing_eq h 8 hc]
    simp [hs, Site.waitMet, Bool.or_eq_true .. ▸ hn]
    rfl
  · refine State.onCroft_next ?_
    unfold Site.waitWord
    rw [Site.issuing_eq h 8 hc]
    simp [hs, Site.waitMet, hn]
    rfl
  · refine State.onCroft_next ?_
    unfold Site.waitEnd
    simp [hl, hw, hk, Site.waitMet, hq, Site.waitTake]
    rfl
  · refine State.onCroft_next ?_
    unfold Site.waitEnd
    simp [hl, hw, hk, Site.waitMet, hn, Site.waitTake]
    rfl
  · refine State.onCroft_reported ?_
    unfold Site.waitTimeout
    simp [hl, hw, hk, Site.waitMet, hq, ht]
    rfl

end Sys2Proof.Machine

namespace Sys2Proof.Machine
open Sys2Proof.Safety

/-! ### Posts -/

/-- A command that changes its croft's own state and hands out packets. -/
theorem onCroft_sends {s : State} {q : Nat} {f : Site → Site} {c : Croft} {o : List Packet}
    (h : f (s.site q) = { s.site q with c := c, out := o }) :
    (Host.Outcome.next (s.onCroft q f) : Host.Outcome State Fault Refusal) = .next { s.setCroft q c with outq := s.outq ++ o }
        := by
  rw [State.onCroft_eq', h]
  simp [State.setCroft]

/-- Settles O16: a POST's handle goes to a local queue that has room, or out as a TOKEN. -/
theorem postsPushHandles : Obligations.PostsPushHandles := by
  unfold Obligations.PostsPushHandles
  intro q s w h hc
  refine ⟨fun hl hq => ?_, fun hl hq => ?_, fun hr => ?_⟩
  · refine State.onCroft_next ?_
    unfold Site.postWord
    rw [Site.issuing_eq h 9 hc]
    simp [hl, Site.queueFull, Nat.not_le.2 hq]
    rfl
  · refine State.onCroft_next ?_
    unfold Site.postWord
    rw [Site.issuing_eq h 9 hc]
    simp [hl, Site.queueFull, hq]
    rfl
  · have hs : (s.site q).remotePost = { s.site q with
        c := { s.croft q with seq := past (s.croft q).seq }
        out := [{ (s.site q).packet 0x06 (wfield w 62 48) 0 with
          opdata := BitVec.ofNat 96 (((s.site q).postHandle w).toNat + wfield w 33 32 * 2 ^ 32)
          plane := if wfield w 38 38 = 1 then .b else .a
          who := .post q }] } := by
      unfold Site.remotePost
      rw [Site.issuing_eq h 9 hc]
      simp [hr]
      rfl
    exact ⟨_, onCroft_sends hs, rfl, rfl, rfl, rfl⟩

/-! ### Starts, stops and phases -/

theorem slotChansEnded_iff (s : State) (q : Nat) : (s.site q).slotChansEnded = true ↔ SlotChansEnded (s.croft q) := by
  unfold Site.slotChansEnded SlotChansEnded
  simp only [List.all_eq_true, List.mem_range, State.site_chan, State.site_c]
  refine forall₂_congr fun i _ => ?_
  cases hs : (chanOf (s.croft q) i).st <;> simp [Chan.active, hs]

/-- Settles O18: the sequencer's starts, stops and ends, each by its command. -/
theorem sequencerStartsAndStops : Obligations.SequencerStartsAndStops := by
  unfold Obligations.SequencerStartsAndStops
  intro q s
  refine ⟨fun v h2 h3 ha hl hst hv => ?_, fun hl hst => ?_, fun hs hu => ?_, fun v ha hr => ?_, fun v ha hr => ?_, fun v ha => ⟨?_, fun h2 h3 => ?_⟩,
    fun w h hc => ?_, fun slot hl hst hh hu hc hv => ?_, fun w h hc => ?_, fun hl hst hs hi => ?_⟩
  · have hc : (v.getLsbD 2 && !v.getLsbD 3) = true := by rw [h2, h3]; rfl
    have hr : (s.croft q).resetting = false := by
      have : (s.site q).live = true := hl
      simp [Site.live] at this
      exact this.2
    show (if _ then Host.Outcome.next (s.onRegs q _) else _) = _
    rw [if_pos hc, State.onRegs_eq _ ha hr]
    refine State.onCroft_next ?_
    unfold Site.seqCtrl
    have hst' : ((s.site q).setField Reg.crfSeqCtrl 1 0 (bitsOf v.toNat 1 0)).start (bitsOf v.toNat 1 0) =
        ((s.site q).setField Reg.crfSeqCtrl 1 0 (bitsOf v.toNat 1 0)).setSeq { (s.croft q).seq with
          st := .run, slot := bitsOf v.toNat 1 0, pc := 0, loops := [], held := .nothing, stopping := false } := by
      unfold Site.start Site.setField
      rw [if_pos]
      · rfl
      · refine ⟨?_, hst, ?_⟩
        · rw [live_setReg _ _ _ (by decide)]; exact hl
        · rw [Site.reg_setReg_ne _ _ (by decide)]; exact hv
    simp only [bit_setWidth _ _ (show 3 < 64 by omega), bit_setWidth _ _ (show 2 < 64 by omega), h2, h3, fld_setWidth, hst']
    rfl
  · refine State.onCroft_next ?_
    unfold Site.stop
    simp [show (s.site q).live = true from hl, hst]
    rfl
  · refine State.onCroft_next ?_
    unfold Site.stopIdle
    simp [(unitsIdle_iff s q).2 hu, hs]
    rfl
  · show Host.Outcome.next (s.onRegs q _) = _
    rw [State.onRegs_eq _ ha hr]
    refine State.onCroft_next ?_
    unfold Site.seqSlots
    rw [fld_setWidth]
    rfl
  · exact congrArg _ (State.onRegs_reset _ ha hr)
  · exact congrArg _ (State.onRegs_cut _ ha)
  · show execSeqStart q v s = _
    unfold execSeqStart
    rw [State.onRegs_cut _ ha, ite_self]
  · refine State.onCroft_next ?_
    unfold Site.phaseWord
    rw [Site.issuing_eq h 0xB hc]
    rfl
  · refine State.onCroft_next ?_
    unfold Site.phaseEnd
    simp [show (s.site q).live = true from hl, hst, hh, (unitsIdle_iff s q).2 hu, (slotChansEnded_iff s q).2 hc, hv]
    rfl
  · refine State.onCroft_next ?_
    unfold Site.haltWord
    rw [Site.issuing_eq h 0xD hc]
    rfl
  · refine State.onCroft_reported ?_
    unfold Site.reachIllegal
    rw [if_pos]
    · rfl
    · have hl' : (s.site q).live = true := hl
      rcases hi with hi | hi <;> simp [Site.canIssue, hl', hst, hs, hi]

end Sys2Proof.Machine

namespace Sys2Proof.Machine
open Sys2Proof.Safety

/-! ### Windows -/

theorem bitsOf_lt (n hi lo : Nat) : bitsOf n hi lo < 2 ^ (hi + 1 - lo) := Nat.mod_lt _ (Nat.two_pow_pos _)

theorem wfield_lt (w : W128) (hi lo : Nat) : wfield w hi lo < 2 ^ (hi + 1 - lo) := bitsOf_lt _ _ _

/-- A command that only changes its croft's own state, by what it leaves of the module. -/
theorem onCroft_only {s : State} {q : Nat} {f : Site → Site} {d : Croft} (h : f (s.site q) = { s.site q with c := d }) :
    ∃ t, (Host.Outcome.next (s.onCroft q f) : Host.Outcome State Fault Refusal) = .next t ∧ OnlyCroft q s t ∧ t.outq = s.outq ∧
      t.reports = s.reports ∧ t.croft q = d :=
  ⟨_, rfl, State.onlyCroft_onCroft s q f, by rw [State.onCroft_eq', h]; simp, by rw [State.onCroft_eq', h]; simp,
    by rw [State.croft_onCroft_same, h]⟩

theorem winState_site (s : State) (q w : Nat) : (s.site q).winState w = winState (s.croft q) w := rfl

theorem winDrained_iff (x : Site) (w : Nat) : x.winDrained w = true ↔ WinDrained x.c w := by
  simp [Site.winDrained, WinDrained]

/-- A window that can open is not refused (R92). -/
theorem openRefused_none {s : State} {q w base len : Nat} (h : CanOpen s q w base len) : (s.site q).openRefused w base len =
    none := by
  obtain ⟨h0, hr, hn⟩ := h
  have h1 : ¬ ((s.site q).winState w = 1 ∨ 65536 < base + len + 1) := by rw [winState_site, h0]; omega
  have h2 : ¬ (s.site q).winLimit ≤ (s.site q).winsInUse := Nat.not_le.2 hn
  unfold Site.openRefused
  rw [if_neg h1, if_neg h2]

/-- The grant of a window that has just been opened is that of its generation (R93). -/
theorem grant_openWin (s : State) (q w base len perm : Nat) (hw : w < 16) (hb : base < 65536) (hl : len < 65536) (hp : perm < 8)
    :
    ((s.site q).openWin w base len perm).grant w = grantOf s q w := by
  obtain ⟨-, hg, -⟩ := Site.openWin_opened (s.site q) hw hb hl hp
  unfold Site.grant grantOf
  rw [show ((s.site q).openWin w base len perm).winGen w = winGen (s.croft q) w from hg]
  rfl

/-- A word that opens a window it can open (R92, R93). -/
theorem windowOpen_opened {s : State} {q : Nat} {w : W128} (h : Issues s q w) (hc : wordClass w = 0xA) (ho : wfield w 1 0 = 1)
    (hopen : CanOpen s q (wfield w 5 2) (wfield w 47 32) (wfield w 63 48))
    (hq : wfield w 10 10 = 1 → (queueOf (s.croft q) (wfield w 12 11)).length < 16) :
    (s.site q).windowOpen =
      let y := (s.site q).openWin (wfield w 5 2) (wfield w 47 32) (wfield w 63 48) (wfield w 8 6)
      (if wfield w 10 10 = 1 then y.push (wfield w 12 11) (y.grant (wfield w 5 2)) else y).issued := by
  have h2 : ¬ (s.site q).winState (wfield w 5 2) = 2 := by
    obtain ⟨h0, -⟩ := hopen
    rw [winState_site, h0]; omega
  have hf : ¬ (wfield w 10 10 = 1 ∧ (s.site q).queueFull (wfield w 12 11) = true) := fun ⟨hp, hf⟩ => by
    have hle : 16 ≤ (queueOf (s.croft q) (wfield w 12 11)).length := of_decide_eq_true hf
    have hlt := hq hp
    omega
  unfold Site.windowOpen
  rw [Site.issuing_eq h 0xA hc]
  dsimp only
  rw [if_neg (by omega), if_neg h2, openRefused_none hopen]
  dsimp only
  rw [if_neg hf]

theorem exec_windowOpen_opens {s : State} {q : Phys} {w : W128} (h : Issues s q w) (hc : wordClass w = 0xA)
    (ho : wfield w 1 0 = 1)
    (hopen : CanOpen s q (wfield w 5 2) (wfield w 47 32) (wfield w 63 48))
    (hq : wfield w 10 10 = 1 → (queueOf (s.croft q) (wfield w 12 11)).length < 16) :
    ∃ t, exec (.windowOpen q) s = .next t ∧ OnlyCroft q s t ∧ t.outq = s.outq ∧ t.reports = s.reports ∧
      OpenedTo (s.croft q) (t.croft q) (wfield w 5 2) (wfield w 47 32) (wfield w 63 48) (wfield w 8 6) ∧
      (t.croft q).seq = past (s.croft q).seq ∧ (t.croft q).mem = (s.croft q).mem ∧
      RegsKept (s.croft q) (t.croft q) [Reg.crfWinRange (wfield w 5 2), Reg.crfWinState (wfield w 5 2), Reg.carArrive
          (wfield w 5 2)] ∧
      ∀ k, queueOf (t.croft q) k = if wfield w 10 10 = 1 ∧ k = wfield w 12 11 then
        queueOf (s.croft q) k ++ [grantOf s q (wfield w 5 2)] else queueOf (s.croft q) k := by
  have hw := wfield_lt w 5 2
  have hb := wfield_lt w 47 32
  have hl := wfield_lt w 63 48
  have hp := wfield_lt w 8 6
  have he := windowOpen_opened h hc ho hopen hq
  dsimp only at he
  have hop := Site.openWin_opened (s.site q) hw hb hl hp
  obtain ⟨hf, hk⟩ := Site.openWin_frame (s.site q) (wfield w 5 2) (wfield w 47 32) (wfield w 63 48) (wfield w 8 6)
  have hg := grant_openWin s q (wfield w 5 2) (wfield w 47 32) (wfield w 63 48) (wfield w 8 6) hw hb hl hp
  by_cases hpost : wfield w 10 10 = 1
  · rw [if_pos hpost, hg] at he
    obtain ⟨t, ht, hon, hout, hrep, hcr⟩ := onCroft_only (f := Site.windowOpen) (by rw [he]; rfl)
    refine ⟨t, ht, hon, hout, hrep, ?_⟩
    rw [hcr]
    refine ⟨hop, rfl, rfl, hk, fun k => ?_⟩
    simp only [hpost, true_and]
    refine (queueOf_push _ _ _ _).trans ?_
    split
    · next hk => rw [hk]; rfl
    · rfl
  · rw [if_neg hpost] at he
    obtain ⟨t, ht, hon, hout, hrep, hcr⟩ := onCroft_only (f := Site.windowOpen) (by rw [he]; rfl)
    refine ⟨t, ht, hon, hout, hrep, ?_⟩
    rw [hcr]
    refine ⟨hop, rfl, rfl, hk, fun k => ?_⟩
    rw [if_neg fun hh => hpost hh.1]
    rfl

/-- The word that closes an open window (R95). -/
theorem windowClose_closed {s : State} {q : Nat} {w : W128} (h : Issues s q w) (hc : wordClass w = 0xA) (ho : wfield w 1 0 = 2)
    :
    (s.site q).windowClose =
      let y := (((s.site q).closeWin (wfield w 5 2)).closeDone (wfield w 5 2)).issued
      if wfield w 9 9 = 1 ∧ y.winState (wfield w 5 2) = 2 then y.stay (.closing (wfield w 5 2)) else y := by
  unfold Site.windowClose
  rw [Site.issuing_eq h 0xA hc]
  dsimp only
  rw [if_neg (by omega)]

/-- The sequencer issues past a close as it stood: it has not waited, or goes on. -/
theorem past_closeDone_seq (x : Site) {i : Nat} (hi : i < 16) (hw : x.winState i = 1) :
    past ((x.closeWin i).closeDone i).c.seq = past x.c.seq := by
  rw [Site.closeWin_seq x hi hw]
  split <;> rfl

theorem exec_windowClose_closes {s : State} {q : Phys} {w : W128} (h : Issues s q w) (hc : wordClass w = 0xA)
    (ho : wfield w 1 0 = 2)
    (hw : winState (s.croft q) (wfield w 5 2) = 1) :
    ∃ t, exec (.windowClose q) s = .next t ∧ OnlyCroft q s t ∧ t.outq = s.outq ∧ t.reports = s.reports ∧
      winGen (t.croft q) (wfield w 5 2) = (winGen (s.croft q) (wfield w 5 2) + 1) % 256 ∧
      (WinDrained (s.croft q) (wfield w 5 2) → winState (t.croft q) (wfield w 5 2) = 0 ∧ (t.croft q).seq = past (s.croft q).seq)
          ∧
      (¬ WinDrained (s.croft q) (wfield w 5 2) → winState (t.croft q) (wfield w 5 2) = 2 ∧
        (t.croft q).seq = if wfield w 9 9 = 1 then heldAt (past (s.croft q).seq) (.closing (wfield w 5 2)) else past
            (s.croft q).seq) ∧
      (t.croft q).mem = (s.croft q).mem ∧ (t.croft q).tokq = (s.croft q).tokq ∧
      RegsKept (s.croft q) (t.croft q) [Reg.crfWinState (wfield w 5 2)] := by
  have hi : wfield w 5 2 < 16 := wfield_lt w 5 2
  have he := windowClose_closed h hc ho
  dsimp only at he
  obtain ⟨hg, hst, -⟩ := Site.closeWin_closed (s.site q) hw
  obtain ⟨hf, hk⟩ := Site.closeWin_frame (s.site q) (wfield w 5 2)
  have hp := past_closeDone_seq (s.site q) hi hw
  have hd := winDrained_iff (s.site q) (wfield w 5 2)
  generalize ((s.site q).closeWin (wfield w 5 2)).closeDone (wfield w 5 2) = y at *
  have hy : y.issued.winState (wfield w 5 2) = winState y.c (wfield w 5 2) := rfl
  rw [hy, hst] at he
  by_cases hw' : WinDrained (s.croft q) (wfield w 5 2)
  · rw [if_pos (hd.2 hw')] at he hst
    rw [if_neg (by omega)] at he
    obtain ⟨t, ht, hon, hout, hrep, hcr⟩ := onCroft_only (f := Site.windowClose) (d := y.issued.c) (by rw [he, hf]; rfl)
    refine ⟨t, ht, hon, hout, hrep, ?_⟩
    rw [hcr]
    refine ⟨hg, fun _ => ⟨hst, hp⟩, fun hn => absurd hw' hn, ?_, ?_, hk⟩
    · rw [hf]; rfl
    · rw [hf]; rfl
  · have hn : ¬ (s.site q).winDrained (wfield w 5 2) = true := fun h => hw' (hd.1 h)
    rw [if_neg hn] at he hst
    simp only [and_true] at he
    obtain ⟨t, ht, hon, hout, hrep, hcr⟩ := onCroft_only (f := Site.windowClose)
      (d := if wfield w 9 9 = 1 then (y.issued.stay (.closing (wfield w 5 2))).c else y.issued.c) (by
        rw [he, hf]
        split <;> rfl)
    refine ⟨t, ht, hon, hout, hrep, ?_⟩
    rw [hcr]
    have hseq : y.issued.c.seq = past (s.croft q).seq := hp
    split
    · refine ⟨hg, fun hd => absurd hd hw', fun _ => ⟨hst, ?_⟩, ?_, ?_, hk⟩
      · show heldAt y.issued.c.seq _ = _
        rw [hseq]
      · rw [hf]; rfl
      · rw [hf]; rfl
    · refine ⟨hg, fun hd => absurd hd hw', fun _ => ⟨hst, hseq⟩, ?_, ?_, hk⟩
      · rw [hf]; rfl
      · rw [hf]; rfl

/-- The command that a CRF_WIN_CMD write holds. -/
theorem winCmd_op (v : W32) : v.toNat / 2 ^ 30 = bitsOf v.toNat 31 30 := by
  have := v.isLt
  unfold bitsOf
  omega

theorem exec_winCmdOpen_eq {s : State} {q : Phys} {v : W32} (hv : bitsOf v.toNat 31 30 = 1) :
    exec (.winCmdOpen q v) s = .next (s.onRegs q fun x => x.winCmd (v.setWidth 64)) :=
  if_pos ((winCmd_op v).trans hv)

theorem exec_winCmdClose_eq {s : State} {q : Phys} {v : W32} (hv : bitsOf v.toNat 31 30 = 2) :
    exec (.winCmdClose q v) s = .next (s.onRegs q fun x => x.winCmd (v.setWidth 64)) :=
  if_pos ((winCmd_op v).trans hv)

/-- An OPEN by register of a window that can open (R92). -/
theorem winCmd_opens {s : State} {q : Nat} {v : W32} (hv : bitsOf v.toNat 31 30 = 1)
    (h : CanOpen s q (bitsOf v.toNat 3 0) (winBase (s.croft q) (bitsOf v.toNat 3 0)) (winLen (s.croft q) (bitsOf v.toNat 3 0)))
        :
    (s.site q).winCmd (v.setWidth 64) = ((s.site q).openWin (bitsOf v.toNat 3 0) (winBase (s.croft q) (bitsOf v.toNat 3 0))
      (winLen (s.croft q) (bitsOf v.toNat 3 0)) (bitsOf v.toNat 6 4)).setField Reg.crfWinCmd 11 11 0 := by
  obtain ⟨h0, -⟩ := id h
  have hn : ¬ ((s.site q).winState (bitsOf v.toNat 3 0) = 2 ∨ ((s.site q).openRefused (bitsOf v.toNat 3 0)
      (winBase (s.croft q) (bitsOf v.toNat 3 0)) (winLen (s.croft q) (bitsOf v.toNat 3 0))).isSome = true) := by
    rw [openRefused_none h, winState_site, h0]
    simp
  unfold Site.winCmd
  simp only [fld_setWidth, hv, if_true]
  exact if_neg hn

/-- An OPEN by register that R92 refuses. -/
theorem winCmd_refused {s : State} {q : Nat} {v : W32} (hv : bitsOf v.toNat 31 30 = 1)
    (h : winState (s.croft q) (bitsOf v.toNat 3 0) = 1 ∨ winState (s.croft q) (bitsOf v.toNat 3 0) = 2 ∨
      65536 < winBase (s.croft q) (bitsOf v.toNat 3 0) + winLen (s.croft q) (bitsOf v.toNat 3 0) + 1 ∨
      min 16 (fld (regOf (s.croft q) Reg.crfWinLimit) 4 0) ≤ ((List.range 16).filter fun i => winState (s.croft q) i !=
          0).length) :
    (s.site q).winCmd (v.setWidth 64) = (s.site q).setField Reg.crfWinCmd 11 11 1 := by
  have hn : (s.site q).winState (bitsOf v.toNat 3 0) = 2 ∨ ((s.site q).openRefused (bitsOf v.toNat 3 0)
      (winBase (s.croft q) (bitsOf v.toNat 3 0)) (winLen (s.croft q) (bitsOf v.toNat 3 0))).isSome = true := by
    by_cases h2 : winState (s.croft q) (bitsOf v.toNat 3 0) = 2
    · exact .inl h2
    · refine .inr ?_
      unfold Site.openRefused
      split
      · rfl
      · next h1 =>
        rw [if_pos]
        · rfl
        · rcases h with h | h | h | h
          · exact absurd (.inl h) h1
          · exact absurd h h2
          · exact absurd (.inr h) h1
          · exact h
  unfold Site.winCmd
  simp only [fld_setWidth, hv, if_true]
  exact if_pos hn

theorem winCmd_closes (x : Site) {v : W32} (hv : bitsOf v.toNat 31 30 = 2) :
    x.winCmd (v.setWidth 64) = (x.closeWin (bitsOf v.toNat 3 0)).closeDone (bitsOf v.toNat 3 0) := by
  unfold Site.winCmd
  simp only [fld_setWidth, hv]
  rfl

/-- The command register lies apart from the windows' registers. -/
theorem winCmd_ne_window {w o : Nat} (hw : w < 16) (h : o ∈ [Reg.crfWinRange w, Reg.crfWinState w, Reg.carArrive w]) :
    o ≠ Reg.crfWinCmd := by
  simp only [List.mem_cons, List.not_mem_nil, or_false] at h
  rcases h with rfl | rfl | rfl <;> simp only [Reg.crfWinRange, Reg.crfWinState, Reg.carArrive, Reg.crfWinCmd] <;> omega

/-- Opened stays opened where only another register is written. -/
theorem openedTo_congr {c d e : Croft} {w base len perm : Nat} (h : OpenedTo c d w base len perm)
    (hk : ∀ o ∈ [Reg.crfWinRange w, Reg.crfWinState w, Reg.carArrive w], regOf e o = regOf d o) : OpenedTo c e w base len perm
        := by
  unfold OpenedTo winState winGen winPerm winBase winLen at *
  rw [hk _ (by simp), hk _ (by simp), hk _ (by simp)]
  exact h

theorem exec_winCmdOpen_opens {s : State} {q : Phys} {v : W32} (ha : s.atCroft q = true) (hr : (s.croft q).resetting = false)
    (hv : bitsOf v.toNat 31 30 = 1)
    (h : CanOpen s q (bitsOf v.toNat 3 0) (winBase (s.croft q) (bitsOf v.toNat 3 0)) (winLen (s.croft q) (bitsOf v.toNat 3 0)))
        :
    ∃ t, exec (.winCmdOpen q v) s = .next t ∧ OnlyCroft q s t ∧ t.outq = s.outq ∧ t.reports = s.reports ∧
      OpenedTo (s.croft q) (t.croft q) (bitsOf v.toNat 3 0) (winBase (s.croft q) (bitsOf v.toNat 3 0))
        (winLen (s.croft q) (bitsOf v.toNat 3 0)) (bitsOf v.toNat 6 4) ∧
      fld (regOf (t.croft q) Reg.crfWinCmd) 11 11 = 0 ∧ (t.croft q).mem = (s.croft q).mem ∧ (t.croft q).tokq = (s.croft q).tokq
          ∧
      (t.croft q).seq = (s.croft q).seq ∧ RegsKept (s.croft q) (t.croft q) [Reg.crfWinRange (bitsOf v.toNat 3 0),
        Reg.crfWinState (bitsOf v.toNat 3 0), Reg.carArrive (bitsOf v.toNat 3 0), Reg.crfWinCmd] := by
  have hw : bitsOf v.toNat 3 0 < 16 := bitsOf_lt _ _ _
  have hb : winBase (s.croft q) (bitsOf v.toNat 3 0) < 65536 := bitsOf_lt _ _ _
  have hl : winLen (s.croft q) (bitsOf v.toNat 3 0) < 65536 := bitsOf_lt _ _ _
  have he := winCmd_opens hv h
  have hop := Site.openWin_opened (s.site q) hw hb hl (bitsOf_lt v.toNat 6 4)
  obtain ⟨hf, hk⟩ := Site.openWin_frame (s.site q) (bitsOf v.toNat 3 0) (winBase (s.croft q) (bitsOf v.toNat 3 0))
    (winLen (s.croft q) (bitsOf v.toNat 3 0)) (bitsOf v.toNat 6 4)
  generalize (s.site q).openWin _ _ _ _ = y at *
  have hy (o : Nat) : regOf (y.setField Reg.crfWinCmd 11 11 0).c o =
      if o = Reg.crfWinCmd then setFld (regOf y.c Reg.crfWinCmd) 11 11 0 else regOf y.c o := regOf_setReg _ _ _ _
  rw [exec_winCmdOpen_eq hv, State.onRegs_eq _ ha hr]
  obtain ⟨t, ht, hon, hout, hrep, hcr⟩ := onCroft_only (s := s) (q := q) (f := fun x => x.winCmd (v.setWidth 64))
    (d := (y.setField Reg.crfWinCmd 11 11 0).c) (by dsimp only; rw [he]; unfold Site.setField Site.setReg; rw [hf])
  refine ⟨t, ht, hon, hout, hrep, ?_⟩
  rw [hcr]
  refine ⟨openedTo_congr hop fun o ho => ?_, ?_, ?_, ?_, ?_, fun o ho => ?_⟩
  · rw [hy, if_neg (winCmd_ne_window hw ho)]
  · rw [hy, if_pos rfl, fld_setFld _ _ _ _ (by omega)]
    exact Nat.zero_mod _
  · show y.c.mem = _
    rw [hf]; rfl
  · show y.c.tokq = _
    rw [hf]; rfl
  · show y.c.seq = _
    rw [hf]; rfl
  · rw [hy]
    rw [if_neg (fun h => ho (by simp [h]))]
    exact hk o fun h => ho (by simp at h ⊢; tauto)

theorem exec_winCmdClose_closes {s : State} {q : Phys} {v : W32} (ha : s.atCroft q = true) (hr : (s.croft q).resetting = false)
    (hv : bitsOf v.toNat 31 30 = 2) (hw : winState (s.croft q) (bitsOf v.toNat 3 0) = 1) :
    ∃ t, exec (.winCmdClose q v) s = .next t ∧ OnlyCroft q s t ∧ t.outq = s.outq ∧ t.reports = s.reports ∧
      winGen (t.croft q) (bitsOf v.toNat 3 0) = (winGen (s.croft q) (bitsOf v.toNat 3 0) + 1) % 256 ∧
      (WinDrained (s.croft q) (bitsOf v.toNat 3 0) → winState (t.croft q) (bitsOf v.toNat 3 0) = 0) ∧
      (¬ WinDrained (s.croft q) (bitsOf v.toNat 3 0) → winState (t.croft q) (bitsOf v.toNat 3 0) = 2) ∧
      (t.croft q).mem = (s.croft q).mem ∧ (t.croft q).tokq = (s.croft q).tokq ∧
      (¬ (WinDrained (s.croft q) (bitsOf v.toNat 3 0) ∧ Live s q ∧
          ((s.croft q).seq.held = .closing (bitsOf v.toNat 3 0) ∨ (s.croft q).seq.held = .opening (bitsOf v.toNat 3 0))) →
        (t.croft q).seq = (s.croft q).seq) ∧
      (WinDrained (s.croft q) (bitsOf v.toNat 3 0) → Live s q →
        ((s.croft q).seq.held = .closing (bitsOf v.toNat 3 0) ∨ (s.croft q).seq.held = .opening (bitsOf v.toNat 3 0)) →
        (t.croft q).seq = { (s.croft q).seq with st := .run, held := .nothing }) ∧
      RegsKept (s.croft q) (t.croft q) [Reg.crfWinState (bitsOf v.toNat 3 0)] := by
  have hi : bitsOf v.toNat 3 0 < 16 := bitsOf_lt _ _ _
  have he := winCmd_closes (s.site q) hv
  obtain ⟨hg, hst, -⟩ := Site.closeWin_closed (s.site q) hw
  obtain ⟨hf, hk⟩ := Site.closeWin_frame (s.site q) (bitsOf v.toNat 3 0)
  have hs := Site.closeWin_seq (s.site q) hi hw
  have hd := winDrained_iff (s.site q) (bitsOf v.toNat 3 0)
  generalize ((s.site q).closeWin (bitsOf v.toNat 3 0)).closeDone (bitsOf v.toNat 3 0) = y at *
  rw [exec_winCmdClose_eq hv, State.onRegs_eq _ ha hr]
  obtain ⟨t, ht, hon, hout, hrep, hcr⟩ := onCroft_only (s := s) (q := q) (f := fun x => x.winCmd (v.setWidth 64)) (d := y.c)
    (by dsimp only; rw [he, hf])
  refine ⟨t, ht, hon, hout, hrep, ?_⟩
  rw [hcr]
  refine ⟨hg, fun h => ?_, fun h => ?_, ?_, ?_, fun h => ?_, fun h1 h2 h3 => ?_, hk⟩
  · rw [hst, if_pos (hd.2 h)]
  · rw [hst, if_neg fun h' => h (hd.1 h')]
  · rw [hf]; rfl
  · rw [hf]; rfl
  · rw [hs]
    exact if_neg fun ⟨h1, h3, h2⟩ => h ⟨hd.1 h1, h2, h3⟩
  · rw [hs]
    exact if_pos ⟨hd.2 h1, h3, h2⟩

/-- A drained CLOSING window becomes CLOSED (R95). -/
theorem closeDone_closed (x : Site) {w : Nat} (h : x.winState w = 2) (hd : x.winDrained w = true) :
    x.closeDone w = (x.setField (Reg.crfWinState w) 9 8 0).closeReleases w := by
  unfold Site.closeDone
  rw [if_pos ⟨h, hd⟩]

theorem closeReleases_seq (x : Site) (w : Nat) (hl : x.live = true) : (x.closeReleases w).c.seq =
    if x.c.seq.held = .closing w ∨ x.c.seq.held = .opening w then { x.c.seq with st := .run, held := .nothing } else x.c.seq :=
        by
  unfold Site.closeReleases
  simp only [hl, and_true]
  split <;> rfl

/-- A sequencer that a close has released waits for it no more. -/
theorem closeReleases_twice (x : Site) (w : Nat) : (x.closeReleases w).closeReleases w = x.closeReleases w := by
  by_cases h : (x.c.seq.held = .closing w ∨ x.c.seq.held = .opening w) ∧ x.live
  · have he : x.closeReleases w = x.setSeq { x.c.seq with st := .run, held := .nothing } := if_pos h
    rw [he]
    exact if_neg fun hh => by simp [Site.setSeq] at hh
  · have he : x.closeReleases w = x := if_neg h
    rw [he, he]

theorem exec_closeComplete_closes {s : State} {q : Phys} {w : Fin 16} (h2 : winState (s.croft q) w = 2)
    (hd : WinDrained (s.croft q) w) (hl : (s.site q).live = true) :
    ∃ t, exec (.closeComplete q w) s = .next t ∧ OnlyCroft q s t ∧ t.outq = s.outq ∧ t.reports = s.reports ∧
      winState (t.croft q) w = 0 ∧ winGen (t.croft q) w = winGen (s.croft q) w ∧
      (t.croft q).seq = (if (s.croft q).seq.held = .closing w ∨ (s.croft q).seq.held = .opening w then
        { (s.croft q).seq with st := .run, held := .nothing } else (s.croft q).seq) ∧
      (t.croft q).mem = (s.croft q).mem ∧ (t.croft q).tokq = (s.croft q).tokq ∧ RegsKept (s.croft q) (t.croft q)
          [Reg.crfWinState w] := by
  have he := closeDone_closed (s.site q) h2 ((winDrained_iff _ _).2 hd)
  have hr := closeReleases_seq ((s.site q).setField (Reg.crfWinState w) 9 8 0) w
    ((live_setReg (s.site q) (Reg.crfWinState w) (setFld ((s.site q).reg (Reg.crfWinState w)) 9 8 0)
      (by unfold Reg.crfWinState Reg.crfCtrl; omega)).trans hl)
  have hreg : regOf ((s.site q).closeDone w).c (Reg.crfWinState w) = setFld (regOf (s.croft q) (Reg.crfWinState w)) 9 8 0 := by
    rw [he, Site.regOf_closeReleases]
    exact (regOf_setReg _ _ _ _).trans (if_pos rfl)
  have hst : winState ((s.site q).closeDone w).c w = 0 := by
    unfold winState
    rw [hreg, fld_setFld _ _ _ _ (by omega)]
    exact Nat.zero_mod _
  have hd : (let x := (s.site q).closeDone w; if x.winState w = 0 then x.closeReleases w else x) =
      ((s.site q).setField (Reg.crfWinState w) 9 8 0).closeReleases w := by
    dsimp only
    rw [if_pos (show ((s.site q).closeDone w).winState w = 0 from hst), he, closeReleases_twice]
  obtain ⟨t, ht, hon, hout, hrep, hcr⟩ := onCroft_only (s := s) (q := q)
    (f := fun x => let x := x.closeDone w; if x.winState w = 0 then x.closeReleases w else x)
    (d := ((s.site q).closeDone w).c) (by dsimp only at hd ⊢; rw [hd, he, Site.closeReleases_eq]; rfl)
  refine ⟨t, ht, hon, hout, hrep, ?_⟩
  rw [hcr]
  refine ⟨hst, ?_, ?_, ?_, ?_, fun o ho => ?_⟩
  · unfold winGen
    rw [hreg, fld_setFld_ne _ _ _ _ _ _ (by omega) (by omega)]
  · rw [he, hr]; rfl
  · rw [he, Site.closeReleases_eq]; rfl
  · rw [he, Site.closeReleases_eq]; rfl
  · rw [he, Site.regOf_closeReleases]
    exact (regOf_setReg _ _ _ _).trans (if_neg (by simpa using ho))

/-- Settles O17: windows open and close by word and by register, each as its lemma says. -/
theorem windowsOpenAndClose : Obligations.WindowsOpenAndClose := by
  unfold Obligations.WindowsOpenAndClose
  intro q s
  refine ⟨fun w h hc ho hopen hq => exec_windowOpen_opens h hc ho hopen hq, fun w h hc ho hw => exec_windowClose_closes h hc ho hw,
    fun v ha hr hv h => exec_winCmdOpen_opens ha hr hv h, fun v ha hr hv h => ?_,
    fun v ha hr hv hw => exec_winCmdClose_closes ha hr hv hw, fun v ha hr => ⟨fun hv => ?_, fun hv => ?_⟩,
    fun v ha => ⟨fun hv => ?_, fun hv => ?_⟩, fun w h2 hd hl => exec_closeComplete_closes h2 hd hl⟩
  · rw [exec_winCmdOpen_eq hv, State.onRegs_eq _ ha hr]
    exact State.onCroft_next (winCmd_refused hv h)
  · rw [exec_winCmdOpen_eq hv, State.onRegs_reset _ ha hr]
  · rw [exec_winCmdClose_eq hv, State.onRegs_reset _ ha hr]
  · rw [exec_winCmdOpen_eq hv, State.onRegs_cut _ ha]
  · rw [exec_winCmdClose_eq hv, State.onRegs_cut _ ha]

end Sys2Proof.Machine

namespace Sys2Proof.Machine
open Sys2Proof.Safety

/-! ### Croft resets and fences -/

/-- A register write whose croft packets reach and that is in no reset, where it changes the croft's own state alone. -/
theorem exec_onRegs_next {s : State} {q : Phys} {f : Site → Site} {c : Croft} (ha : s.atCroft q = true)
    (hr : (s.croft q).resetting = false)
    (h : f (s.site q) = { s.site q with c := c }) :
    (Host.Outcome.next (s.onRegs q f) : Host.Outcome State Fault Refusal) = .next (s.setCroft q c) := by
  rw [State.onRegs_eq _ ha hr]
  exact State.onCroft_next h

/-- An unchanged croft. -/
theorem site_with_croft (s : State) (q : Nat) : s.site q = { s.site q with c := s.croft q } := rfl

theorem site_resetting (s : State) (q : Nat) : (s.site q).c.resetting = (s.croft q).resetting := rfl

theorem get_map_chans (f : Chan → Chan) (hf : f {} = {}) (t : Tab Chan) (i : Nat) :
    Tab.get (fun _ => ({} : Chan)) (t.map fun e => (e.1, f e.2)) i = f (Tab.get (fun _ => ({} : Chan)) t i) := by
  induction t with
  | nil => exact hf.symm
  | cons e t ih =>
    rw [List.map_cons, Tab.get, Tab.get]
    split
    · rfl
    · exact ih

theorem chanFence_default : Chan.fence {} = {} := rfl

/-- What a fence that begins makes of its croft (R98, R99). -/
def fencedTo (c : Croft) : Croft :=
  { withReg c Reg.crfCtrl (regOf c Reg.crfCtrl ||| 1) with
    seq := { c.seq with st := .idle, held := .nothing, stopping := false }
    arrayQ := [], drainQ := [], vecQ := [], gathQ := [], feeds := [], gathDone := []
    loading := none, streaming := none, draining := none, vector := none
    chans := c.chans.map fun e => (e.1, e.2.fence) }

theorem fence_eq (s : State) (q : Nat) : (s.site q).fence = { s.site q with c := fencedTo (s.croft q) } := rfl

theorem regOf_withReg (c : Croft) (o j : Nat) (v : W64) : regOf (withReg c o v) j = if j = o then v else regOf c j :=
    Tab.get_set _ _ _ _ _

theorem exec_fenceWrite_on {s : State} {q : Phys} (ha : s.atCroft q = true) (hr : (s.croft q).resetting = false)
    (hb : bit (regOf (s.croft q) Reg.crfCtrl) 0 = false) :
    exec (.fenceWrite q true) s = .next (s.setCroft q (fencedTo (s.croft q))) := by
  refine exec_onRegs_next ha hr ?_
  unfold Site.writeFence
  rw [if_pos rfl, State.site_reg, hb]
  exact fence_eq s q

/-- A fence that begins, field by field. -/
theorem fencedTo_spec (c : Croft) : bit (regOf (fencedTo c) Reg.crfCtrl) 0 = true ∧ RegsKept c (fencedTo c) [Reg.crfCtrl] ∧
    (fencedTo c).seq.st = .idle ∧ (fencedTo c).seq.stopping = false ∧ UnitsIdle (fencedTo c) ∧
    (∀ i < 8, chanOf (fencedTo c) i = (chanOf c i).fence) ∧ (fencedTo c).mem = c.mem ∧ (fencedTo c).tokq = c.tokq ∧
    (fencedTo c).accepted = c.accepted ∧ (fencedTo c).resetSince = c.resetSince := by
  have hreg (o : Nat) : regOf (fencedTo c) o = if o = Reg.crfCtrl then regOf c Reg.crfCtrl ||| 1 else regOf c o := regOf_withReg c _ _ _
  refine ⟨?_, fun o ho => ?_, rfl, rfl, ⟨rfl, rfl, rfl, rfl, rfl, rfl, rfl, rfl, rfl, rfl⟩, fun i _ => ?_, rfl, rfl, rfl, rfl⟩
  · rw [hreg, if_pos rfl]
    simp [bit]
  · rw [hreg, if_neg (by simpa using ho)]
  · exact get_map_chans Chan.fence chanFence_default _ _

theorem exec_fenceWrite_lift {s : State} {q : Phys} (ha : s.atCroft q = true) (hr : (s.croft q).resetting = false)
    (hs : (s.croft q).resetSince = true) (hc : s.cut q = false) (hf : (s.croft q).faultFence = false) :
    exec (.fenceWrite q false) s = .next (s.setCroft q
      { withReg (s.croft q) Reg.crfCtrl (regOf (s.croft q) Reg.crfCtrl &&& ~~~ 1) with resetSince := false }) := by
  refine exec_onRegs_next ha hr ?_
  have h : ((s.site q).c.resetSince && !(s.site q).cut && !(s.site q).c.faultFence) = true := by
    rw [State.site_c, hs, hf, show (s.site q).cut = s.cut q from rfl, hc]
    rfl
  unfold Site.writeFence
  rw [if_neg (by simp), if_pos h]
  rfl

theorem exec_fenceWrite_kept {s : State} {q : Phys} (ha : s.atCroft q = true)
    (h : (s.croft q).resetSince = false ∨ s.cut q = true ∨ (s.croft q).faultFence = true) :
    exec (.fenceWrite q false) s = .next (s.setCroft q (s.croft q)) := by
  cases hr : (s.croft q).resetting with
  | true => exact congrArg _ (State.onRegs_reset _ ha hr)
  | false =>
    refine exec_onRegs_next ha hr ?_
    have hn : ¬ ((s.site q).c.resetSince && !(s.site q).cut && !(s.site q).c.faultFence) = true := by
      rw [State.site_c, show (s.site q).cut = s.cut q from rfl]
      rcases h with h | h | h <;> simp [h]
    unfold Site.writeFence
    rw [if_neg (by simp), if_neg hn]
    rfl

end Sys2Proof.Machine

namespace Sys2Proof.Machine
open Sys2Proof.Safety

/-! ### What reads and writes of a croft's memories change (R79, R80) -/

/-- The registers that a read's correction and a write's checks may change. -/
def checkRegs : List Nat :=
  [Reg.crfEccCorr, Reg.crfEccUncorr, Reg.crfEccLog, Reg.crfFault, Reg.arrAccCorr, Reg.arrAccUncorr, Reg.arrFault, Reg.vecTbCorr,
    Reg.vecTbUncorr, Reg.vecFaultLog, Reg.vecFault, Reg.crfSeqSlots]

/-- Only memory, check bits, the registers of corrections and the events of the croft have changed. -/
def Worked (x y : Site) : Prop :=
  RegsKept x.c y.c checkRegs ∧ (∃ rs, y.raised = x.raised ++ rs) ∧
    y = { x with c := { x.c with regs := y.c.regs, mem := y.c.mem, ecc := y.c.ecc, corrLog := y.c.corrLog }, raised := y.raised
        }

namespace Worked

theorem refl (x : Site) : Worked x x := ⟨fun _ _ => rfl, ⟨[], by simp⟩, rfl⟩

theorem trans {x y z : Site} (h : Worked x y) (h' : Worked y z) : Worked x z := by
  obtain ⟨hk, ⟨r, hr⟩, he⟩ := h
  obtain ⟨hk', ⟨r', hr'⟩, he'⟩ := h'
  refine ⟨fun o ho => (hk' o ho).trans (hk o ho), ⟨r ++ r', by rw [hr', hr, List.append_assoc]⟩, ?_⟩
  rw [he] at he'
  exact he'

theorem setReg (x : Site) {o : Nat} (v : W64) (ho : o ∈ checkRegs) : Worked x (x.setReg o v) :=
  ⟨fun j hj => (regOf_setReg x o j v).trans (if_neg fun h : j = o => hj (h ▸ ho)), ⟨[], by simp⟩, rfl⟩

theorem count (x : Site) {o : Nat} (n : Nat) (ho : o ∈ checkRegs) : Worked x (x.count o n) := setReg x _ ho

theorem raise (x : Site) (code : Nat) (opc : W16) (syn : W64) (cls : Option Bool) (h : (Site.faultBit code).1 ∈ checkRegs) :
    Worked x (x.raise code opc syn cls) :=
  ⟨fun j hj => (regOf_setReg x _ j _).trans (if_neg fun hh : j = _ => hj (hh ▸ h)), ⟨_, rfl⟩, rfl⟩

theorem setEcc (x : Site) (cw : Nat) (e : Ecc) : Worked x (x.setEcc cw e) := ⟨fun _ _ => rfl, ⟨[], by simp⟩, rfl⟩

theorem store (x : Site) (a : Nat) (bs : List Byte) : Worked x (x.store a bs) := ⟨fun _ _ => rfl, ⟨[], by simp⟩, rfl⟩

theorem corrLog (x : Site) (v : W64) : Worked x { x with c := { x.c with corrLog := v } } :=
    ⟨fun _ _ => rfl, ⟨[], by simp⟩, rfl⟩

theorem vecLog (x : Site) (a b c d : Nat) : Worked x (x.vecLog a b c d) := by
  unfold Site.vecLog
  split
  · exact setReg x _ (by decide)
  · exact refl x

theorem check (x : Site) (cw : Nat) (opc : W16) (cls : Option Bool) : Worked x (x.check cw opc cls).1 := by
  unfold Site.check
  dsimp only
  split
  · exact refl x
  · exact (count x 1 (by decide)).trans (corrLog _ _)
  · refine ((count x 1 (by decide)).trans (setReg _ _ (by decide))).trans (raise _ _ _ _ _ ?_)
    split <;> decide
  · exact count x 1 (by decide)
  · refine (count x 1 (by decide)).trans (raise _ _ _ _ _ ?_)
    split <;> decide
  · exact count x 1 (by decide)
  · refine ((count x 1 (by decide)).trans (vecLog _ _ _ _ _)).trans (raise _ _ _ _ _ ?_)
    split <;> decide
  · exact refl x

theorem checks (n : Nat) (x : Site) (cw : Nat) (opc : W16) (cls : Option Bool) : Worked x (x.checks cw opc cls n).1 := by
  induction n generalizing x cw with
  | zero => exact refl x
  | succ n ih => exact (check x cw opc cls).trans (ih _ _)

theorem readBytes (x : Site) (a n : Nat) (opc : W16) (cls : Option Bool) : Worked x (x.readBytes a n opc cls).1 := by
  unfold Site.readBytes
  dsimp only
  split
  · exact (checks _ _ _ _ _).trans (raise _ _ _ _ _ (by decide))
  · exact checks _ _ _ _ _

theorem merge (x : Site) (cw : Nat) (opc : W16) (cls : Option Bool) : Worked x (x.merge cw opc cls) := by
  unfold Site.merge
  dsimp only
  split
  · exact (check _ _ _ _).trans (setEcc _ _ _)
  · exact (check _ _ _ _).trans (setEcc _ _ _)

theorem ite {x y z : Site} {p : Prop} [Decidable p] (hy : Worked x y) (hz : Worked x z) : Worked x (if p then y else z) := by
  split
  · exact hy
  · exact hz

theorem storeBytes (x : Site) (a : Nat) (bs : List Byte) (opc : W16) (cls : Option Bool) : Worked x (x.storeBytes a bs opc cls)
    := by
  unfold Site.storeBytes
  dsimp only
  exact ((ite (merge _ _ _ _) (refl _)).trans (ite (merge _ _ _ _) (refl _))).trans (store _ _ _)

theorem putSlot (x : Site) (a : Nat) (bs : List Byte) (opc : W16) (cls : Option Bool) (k : Nat) :
    Worked x (x.putSlot a bs opc cls k) := by
  unfold Site.putSlot
  dsimp only
  exact ite (refl _) (ite (raise _ _ _ _ _ (by decide)) ((setReg _ _ (by decide)).trans (store _ _ _)))

theorem foldl {α : Type} {f : Site → α → Site} (hf : ∀ x a, Worked x (f x a)) (l : List α) (x : Site) : Worked x (l.foldl f x)
    :=
  List.foldlRecOn (motive := fun y : Site => Worked x y) l f (refl x) fun _ hy a _ => hy.trans (hf _ a)

theorem putBytes (x : Site) (a : Nat) (bs : List Byte) (opc : W16) (cls : Option Bool) : Worked x (x.putBytes a bs opc cls) :=
    by
  unfold Site.putBytes
  exact ite (refl _) (ite (foldl (fun x k => putSlot x a bs opc cls k) _ _) (storeBytes _ _ _ _ _))

theorem writeBytes (x : Site) (a : Nat) (bs : List Byte) (opc : W16) (cls : Option Bool) : Worked x (x.writeBytes a bs opc cls)
    := by
  unfold Site.writeBytes
  dsimp only
  exact (ite (raise _ _ _ _ _ (by decide)) (refl _)).trans (putBytes _ _ _ _ _)

end Worked

theorem mem_storeBytes (x : Site) (a : Nat) (bs : List Byte) (opc : W16) (cls : Option Bool) :
    (x.storeBytes a bs opc cls).c.mem = Memory.write x.c.mem a bs := by
  unfold Site.storeBytes
  dsimp only
  show Memory.write _ a bs = _
  congr 1
  split <;> split <;> simp

/-! ### Events of a croft on their way -/

theorem reports_reportPackets (s : State) (rs : List Report) : Reports (rs.flatMap s.reportPackets) := by
  intro k hk
  obtain ⟨r, -, hk⟩ := List.mem_flatMap.1 hk
  unfold State.reportPackets at hk
  split at hk
  · obtain rfl := List.mem_singleton.1 hk
    exact ⟨rfl, r, rfl⟩
  · cases hk

/-! ### A write commits (R94, R245) -/

/-- The site once an accepted write's bytes are stored, its arrivals counted and its acknowledgement sent. -/
def committed (x : Site) (a : Accepted) (rest : List Accepted) : Site :=
  let x := { x with c := { x.c with accepted := rest } }
  let x := if a.pkt.payload.isEmpty then x else x.storeBytes a.addr a.pkt.payload (packetOpcode a.pkt) (some a.pkt.tclass)
  let x := x.count (Reg.carArrive a.pkt.window.toNat) a.pkt.payload.length
  if a.pkt.origVc = 2 then x else x.send (x.answer a.pkt 0x04 1)

theorem commitWrite_eq (x : Site) (a : Accepted) (rest : List Accepted) (h : x.c.accepted = a :: rest) :
    x.commitWrite = (committed x a rest).closeDone a.pkt.window.toNat := by
  unfold Site.commitWrite
  rw [h]
  rfl

/-- The site with the bytes of a committed write stored. -/
def stored (x : Site) (a : Accepted) (rest : List Accepted) : Site :=
  if a.pkt.payload.isEmpty then { x with c := { x.c with accepted := rest } }
  else { x with c := { x.c with accepted := rest } }.storeBytes a.addr a.pkt.payload (packetOpcode a.pkt) (some a.pkt.tclass)

theorem stored_worked (x : Site) (a : Accepted) (rest : List Accepted) :
    Worked { x with c := { x.c with accepted := rest } } (stored x a rest) := by
  unfold stored
  exact .ite (.refl _) (.storeBytes _ _ _ _ _)

theorem mem_stored (x : Site) (a : Accepted) (rest : List Accepted) :
    (stored x a rest).c.mem = if a.pkt.payload = [] then x.c.mem else Memory.write x.c.mem a.addr a.pkt.payload := by
  unfold stored
  by_cases h : a.pkt.payload = []
  · rw [if_pos h, if_pos (by simp [h])]
  · rw [if_neg h, if_neg (by simpa using h), mem_storeBytes]

/-- What a committed write makes of the croft's registers. -/
theorem regOf_committed (x : Site) (a : Accepted) (rest : List Accepted) (o : Nat) :
    regOf (committed x a rest).c o = if o = Reg.carArrive a.pkt.window.toNat then
      BitVec.ofNat 64 (satAdd (regOf (stored x a rest).c (Reg.carArrive a.pkt.window.toNat)).toNat a.pkt.payload.length)
    else regOf (stored x a rest).c o := by
  unfold committed
  dsimp only
  split
  · exact regOf_setReg _ _ _ _
  · exact regOf_setReg _ _ _ _

/-- The croft that a committed write leaves, but for its registers as the stores leave it. -/
theorem committed_eq (x : Site) (a : Accepted) (rest : List Accepted) :
    committed x a rest = { x with
      c := { x.c with
        regs := (committed x a rest).c.regs, mem := (stored x a rest).c.mem, ecc := (stored x a rest).c.ecc
        corrLog := (stored x a rest).c.corrLog, accepted := rest }
      raised := (stored x a rest).raised
      out := if a.pkt.origVc = 2 then x.out else x.out ++ [x.answer a.pkt 0x04 1] } := by
  obtain ⟨-, -, he⟩ := stored_worked x a rest
  have hc : committed x a rest = (if a.pkt.origVc = 2 then (stored x a rest).count (Reg.carArrive a.pkt.window.toNat) a.pkt.payload.length
      else ((stored x a rest).count (Reg.carArrive a.pkt.window.toNat) a.pkt.payload.length).send
        (((stored x a rest).count (Reg.carArrive a.pkt.window.toNat) a.pkt.payload.length).answer a.pkt 0x04 1)) := rfl
  obtain ⟨r, m, e, g, rs, hy⟩ : ∃ r m e g rs, stored x a rest =
      { x with c := { x.c with accepted := rest, regs := r, mem := m, ecc := e, corrLog := g }, raised := rs } :=
          ⟨_, _, _, _, _, he⟩
  rw [hc, hy]
  split <;> rfl

end Sys2Proof.Machine

namespace Sys2Proof.Machine
open Sys2Proof.Safety

/-! ### A croft reset -/

/-- What the commit of accepted writes leaves of the croft: generations and permissions of its windows, channels, repairs
and the fence (R94). -/
def CommitKept (x y : Site) : Prop :=
  (∀ w < 16, winGen y.c w = winGen x.c w ∧ winPerm y.c w = winPerm x.c w) ∧ y.c.chans = x.c.chans ∧ y.c.repairs = x.c.repairs ∧
    y.fenced = x.fenced

theorem CommitKept.refl (x : Site) : CommitKept x x := ⟨fun _ _ => ⟨rfl, rfl⟩, rfl, rfl, rfl⟩

theorem CommitKept.trans {x y z : Site} (h : CommitKept x y) (h' : CommitKept y z) : CommitKept x z := by
  obtain ⟨hw, hc, hr, hf⟩ := h
  obtain ⟨hw', hc', hr', hf'⟩ := h'
  exact ⟨fun w h => ⟨(hw' w h).1.trans (hw w h).1, (hw' w h).2.trans (hw w h).2⟩, hc'.trans hc, hr'.trans hr, hf'.trans hf⟩

/-- The registers of a window's state and of the fence are none that a committed write touches. -/
theorem regOf_committed_kept (x : Site) (a : Accepted) (rest : List Accepted) {o : Nat} (hc : o ∉ checkRegs) (ho : o < 0x1000) :
    regOf (committed x a rest).c o = regOf x.c o := by
  rw [regOf_committed, if_neg (by unfold Reg.carArrive; omega)]
  exact (stored_worked x a rest).1 o hc

theorem crfWinState_notCheck {w : Nat} (hw : w < 16) : Reg.crfWinState w ∉ checkRegs := by
  revert w
  decide

theorem regOf_committed_winState (x : Site) (a : Accepted) (rest : List Accepted) {w : Nat} (hw : w < 16) :
    regOf (committed x a rest).c (Reg.crfWinState w) = regOf x.c (Reg.crfWinState w) :=
  regOf_committed_kept _ _ _ (crfWinState_notCheck hw) (by unfold Reg.crfWinState; omega)

theorem committed_kept (x : Site) (a : Accepted) (rest : List Accepted) : CommitKept x (committed x a rest) := by
  refine ⟨fun w hw => ?_, ?_, ?_, ?_⟩
  · unfold winGen winPerm
    rw [regOf_committed_winState _ _ _ hw]
    exact ⟨rfl, rfl⟩
  · rw [committed_eq]
  · rw [committed_eq]
  · have hr := regOf_committed_kept x a rest (o := Reg.crfCtrl) (by decide) (by decide)
    have hk : (committed x a rest).cut = x.cut ∧ (committed x a rest).c.faultFence = x.c.faultFence := by
      rw [committed_eq]; exact ⟨rfl, rfl⟩
    unfold Site.fenced
    rw [show (committed x a rest).reg Reg.crfCtrl = x.reg Reg.crfCtrl from hr, hk.1, hk.2]

/-- A window's state set to CLOSED leaves its generation and its permissions, and the other windows. -/
theorem regOf_closedState (x : Site) (v o : Nat) : regOf (x.setField (Reg.crfWinState v) 9 8 0).c o =
    if o = Reg.crfWinState v then setFld (regOf x.c o) 9 8 0 else regOf x.c o := by
  refine (regOf_setReg _ _ _ _).trans ?_
  split
  · next h => rw [h]; rfl
  · rfl

theorem closeDone_kept (x : Site) (v : Nat) : CommitKept x (x.closeDone v) := by
  have hs : CommitKept x (x.setField (Reg.crfWinState v) 9 8 0) := by
    refine ⟨fun w _ => ?_, rfl, rfl, ?_⟩
    · unfold winGen winPerm
      rw [regOf_closedState]
      split
      · exact ⟨fld_setFld_ne _ _ _ _ _ _ (by decide) (by decide), fld_setFld_ne _ _ _ _ _ _ (by decide) (by decide)⟩
      · exact ⟨rfl, rfl⟩
    · unfold Site.fenced
      have hr := (regOf_closedState x v Reg.crfCtrl).trans (if_neg (by unfold Reg.crfWinState Reg.crfCtrl; omega))
      rw [show (x.setField (Reg.crfWinState v) 9 8 0).reg Reg.crfCtrl = x.reg Reg.crfCtrl from hr]
      rfl
  unfold Site.closeDone
  split
  · rw [Site.closeReleases_eq]
    exact hs
  · exact .refl x

theorem commitWrite_kept (x : Site) : CommitKept x x.commitWrite := by
  cases h : x.c.accepted with
  | nil => unfold Site.commitWrite; rw [h]; exact .refl x
  | cons a rest => rw [commitWrite_eq x a rest h]; exact (committed_kept x a rest).trans (closeDone_kept _ _)

theorem commits_kept (n : Nat) (x : Site) : CommitKept x (iter n Site.commitWrite x) := by
  induction n generalizing x with
  | zero => exact .refl x
  | succ n ih => exact (commitWrite_kept x).trans (ih _)

/-- A window's state word as a croft reset leaves it: a generation on, CLOSED. -/
def winReset (v : W64) : W64 := setFld (setFld v 7 0 (fld v 7 0 + 1)) 9 8 0

theorem winReset_fields (v : W64) : fld (winReset v) 9 8 = 0 ∧ fld (winReset v) 7 0 = (fld v 7 0 + 1) % 256 ∧
    fld (winReset v) 14 12 = fld v 14 12 := by
  unfold winReset
  refine ⟨fld_setFld _ _ _ _ (by decide), ?_, ?_⟩
  · rw [fld_setFld_ne _ _ _ _ _ _ (by decide) (by decide), fld_setFld _ _ _ _ (by decide)]
    rfl
  · rw [fld_setFld_ne _ _ _ _ _ _ (by decide) (by decide), fld_setFld_ne _ _ _ _ _ _ (by decide) (by decide)]

/-- One window closed by a croft reset. -/
def resetWin (x : Site) (w : Nat) : Site :=
  (x.setField (Reg.crfWinState w) 7 0 (x.winGen w + 1)).setField (Reg.crfWinState w) 9 8 0

theorem regOf_resetWin (x : Site) (w o : Nat) :
    regOf (resetWin x w).c o = if o = Reg.crfWinState w then winReset (regOf x.c o) else regOf x.c o := by
  unfold resetWin
  rw [regOf_closedState]
  by_cases h : o = Reg.crfWinState w
  · rw [if_pos h, if_pos h, h]
    exact congrArg (fun v => setFld v 9 8 0) (Tab.get_set_same _ _ _ _)
  · rw [if_neg h, if_neg h]
    exact (regOf_setReg _ _ _ _).trans (if_neg h)

theorem resetWin_eq (x : Site) (w : Nat) : resetWin x w = { x with c := { x.c with regs := (resetWin x w).c.regs } } := rfl

theorem resetWins_eq (n : Nat) (x : Site) : (List.range n).foldl resetWin x =
    { x with c := { x.c with regs := ((List.range n).foldl resetWin x).c.regs } } := by
  induction n with
  | zero => rfl
  | succ n ih =>
    rw [List.range_succ, List.foldl_append, List.foldl_cons, List.foldl_nil, ih]
    rfl

theorem regOf_resetWins (n : Nat) (x : Site) (o : Nat) : regOf ((List.range n).foldl resetWin x).c o =
    if ∃ w < n, o = Reg.crfWinState w then winReset (regOf x.c o) else regOf x.c o := by
  induction n with
  | zero => rw [if_neg (by simp)]; rfl
  | succ n ih =>
    rw [List.range_succ, List.foldl_append, List.foldl_cons, List.foldl_nil, regOf_resetWin, ih]
    by_cases h : o = Reg.crfWinState n
    · have hlt : ¬ ∃ w < n, o = Reg.crfWinState w := by
        rintro ⟨w, hw, he⟩
        have := h.symm.trans he
        unfold Reg.crfWinState at this
        omega
      rw [if_pos h, if_neg hlt, if_pos ⟨n, Nat.lt_succ_self n, h⟩]
    · rw [if_neg h]
      refine if_congr ⟨fun ⟨w, hw, he⟩ => ⟨w, Nat.lt_succ_of_lt hw, he⟩, fun ⟨w, hw, he⟩ => ⟨w, ?_, he⟩⟩ rfl rfl
      rcases Nat.lt_succ_iff_lt_or_eq.1 hw with hw | hw
      · exact hw
      · exact absurd (hw ▸ he) h

/-- The channels of a croft after a reset. -/
theorem get_range_set {α : Type} [DecidableEq α] (d : Nat → α) (g : Nat → α) (n : Nat) (t : Tab α) (i : Nat) :
    Tab.get d ((List.range n).foldl (fun t i => Tab.set d t i (g i)) t) i = if i < n then g i else Tab.get d t i := by
  induction n with
  | zero => rfl
  | succ n ih =>
    rw [List.range_succ, List.foldl_append, List.foldl_cons, List.foldl_nil, Tab.get_set, ih]
    by_cases h : i = n
    · rw [if_pos h, if_pos (by omega), h]
    · rw [if_neg h]
      exact if_congr (by omega) rfl rfl

theorem get_filter {α : Type} (d : Nat → α) (p : Nat → Bool) (t : Tab α) (o : Nat) :
    Tab.get d (t.filter fun e => p e.1) o = if p o = true then Tab.get d t o else d o := by
  induction t with
  | nil => exact (ite_self _).symm
  | cons e t ih =>
    rw [List.filter_cons, Tab.get]
    by_cases hp : p e.1 = true
    · rw [if_pos hp, Tab.get, ih]
      by_cases he : o = e.1
      · rw [if_pos he, if_pos he, if_pos (he ▸ hp)]
      · rw [if_neg he, if_neg he]
    · rw [if_neg hp, ih]
      by_cases he : o = e.1
      · rw [if_neg (he ▸ hp), if_neg (he ▸ hp)]
      · rw [if_neg he]

/-- The site with its accepted writes committed and its windows closed, as a croft reset ends. -/
def closedAll (x : Site) : Site := (List.range 16).foldl resetWin (iter x.c.accepted.length Site.commitWrite x)

theorem keptByReset_winState {w : Nat} (h : w < 16) : Site.keptByReset (Reg.crfWinState w) = true := by
  revert w
  decide

/-- The croft that a reset leaves (R100, R244). -/
theorem resetDone_eq (x : Site) : x.resetDone.c =
    { regs := (closedAll x).c.regs.filter fun e => Site.keptByReset e.1
      repairs := (closedAll x).c.repairs
      corrLog := (closedAll x).c.corrLog
      chans := (List.range 8).foldl (fun t i =>
        Tab.set (fun _ => ({} : Chan)) t i { gen := ((closedAll x).chan i).gen + 1, seq := ((closedAll x).chan i).seq }) []
      faultFence := (closedAll x).c.faultFence
      lastId := (closedAll x).c.lastId
      sowMask := (closedAll x).c.sowMask, sowMark := (closedAll x).c.sowMark
      stalled := (closedAll x).c.stalled
      resetSince := (closedAll x).fenced } := rfl

theorem closedAll_kept (x : Site) : (closedAll x).c.chans = x.c.chans ∧ (closedAll x).c.repairs = x.c.repairs ∧
    (closedAll x).fenced = x.fenced := by
  obtain ⟨-, hc, hr, hf⟩ := commits_kept x.c.accepted.length x
  unfold closedAll
  have hreg := (regOf_resetWins 16 (iter x.c.accepted.length Site.commitWrite x) Reg.crfCtrl).trans (if_neg (by decide))
  rw [← hc, ← hr, ← hf]
  have he := resetWins_eq 16 (iter x.c.accepted.length Site.commitWrite x)
  refine ⟨by rw [he], by rw [he], ?_⟩
  unfold Site.fenced
  rw [show Site.reg _ Reg.crfCtrl = _ from hreg, he]
  rfl

theorem regOf_resetDone (x : Site) (o : Nat) :
    regOf x.resetDone.c o = if Site.keptByReset o = true then regOf (closedAll x).c o else croftReset o := by
  rw [resetDone_eq]
  exact get_filter _ _ _ _

/-- What a croft reset that ends makes of its croft. -/
theorem resetDone_spec (x : Site) : x.resetDone.c.resetSince = x.fenced ∧ x.resetDone.c.repairs = x.c.repairs ∧
    (∀ w < 16, winState x.resetDone.c w = 0 ∧ winGen x.resetDone.c w = (winGen x.c w + 1) % 256 ∧
      winPerm x.resetDone.c w = winPerm x.c w) ∧
    (∀ i < 8, (chanOf x.resetDone.c i).st = .free ∧ (chanOf x.resetDone.c i).gen = (chanOf x.c i).gen + 1) ∧
    (∀ o, Site.keptByReset o = false → regOf x.resetDone.c o = croftReset o) ∧
    (x.c.accepted = [] → ∀ o, Site.keptByReset o = true → (∀ w < 16, o ≠ Reg.crfWinState w) →
      regOf x.resetDone.c o = regOf x.c o) := by
  obtain ⟨hc, hr, hf⟩ := closedAll_kept x
  refine ⟨hf, hr, fun w hw => ?_, fun i hi => ?_, fun o ho => ?_, fun ha o ho hn => ?_⟩
  · obtain ⟨hk, -⟩ := commits_kept x.c.accepted.length x
    obtain ⟨hs, hg, hp⟩ := winReset_fields (regOf (iter x.c.accepted.length Site.commitWrite x).c (Reg.crfWinState w))
    have hreg : regOf x.resetDone.c (Reg.crfWinState w) = winReset
        (regOf (iter x.c.accepted.length Site.commitWrite x).c (Reg.crfWinState w)) := by
      rw [regOf_resetDone, if_pos (keptByReset_winState hw)]
      exact (regOf_resetWins _ _ _).trans (if_pos ⟨w, hw, rfl⟩)
    rw [← (hk w hw).1, ← (hk w hw).2]
    unfold winState winGen winPerm
    rw [hreg]
    exact ⟨hs, hg, hp⟩
  · have hch : chanOf x.resetDone.c i = { gen := ((closedAll x).chan i).gen + 1, seq := ((closedAll x).chan i).seq } := by
      unfold chanOf
      rw [resetDone_eq]
      exact (get_range_set (fun _ => ({} : Chan))
        (fun i => { gen := ((closedAll x).chan i).gen + 1, seq := ((closedAll x).chan i).seq }) 8 [] i).trans (if_pos hi)
    rw [hch]
    refine ⟨rfl, ?_⟩
    show (Tab.get _ (closedAll x).c.chans i).gen + 1 = _
    rw [hc]
    rfl
  · rw [regOf_resetDone, if_neg (by simp [ho])]
  · rw [regOf_resetDone, if_pos ho]
    unfold closedAll
    rw [regOf_resetWins, if_neg (fun ⟨w, hw, he⟩ => hn w hw he), ha]
    rfl

theorem beginReset_cut (s : State) (q : Phys) (ha : s.atCroft q = true) :
    s.onRegs q Site.beginReset = s.setCroft q { s.croft q with resetting := true } := by
  cases hr : (s.croft q).resetting with
  | true =>
    rw [State.onRegs_reset _ ha hr, ← hr]
  | false => exact Host.Outcome.next.inj (exec_onRegs_next ha hr rfl)

theorem onlyCroft_setCroft (s : State) (q : Nat) (c : Croft) : OnlyCroft q s (s.setCroft q c) := by
  have h := State.onlyCroft_onCroft s q fun x => { x with c := c }
  rwa [show (s.onCroft q fun x => { x with c := c }) = s.setCroft q c from Host.Outcome.next.inj (State.onCroft_next rfl)] at h

/-- Settles O20: a reset commits what was accepted, closes the windows and keeps what `keptByReset` names; a fence stops the
units, and lifts only after a reset. -/
theorem croftResetsAndFences : Obligations.CroftResetsAndFences := by
  unfold Obligations.CroftResetsAndFences
  refine ⟨fun q s => ⟨fun ha => congrArg _ (beginReset_cut s q ha), fun ha => congrArg _ (State.onRegs_cut _ ha), fun hr => ?_⟩,
    fun q s => ⟨fun ha hr hb => ?_, exec_fenceWrite_lift, exec_fenceWrite_kept, fun ha hr on => congrArg _
        (State.onRegs_reset _ ha hr),
      fun ha on => congrArg _ (State.onRegs_cut _ ha)⟩⟩
  · obtain ⟨hs, hre, hw, hch, ho, hk⟩ := resetDone_spec (s.site q)
    refine ⟨_, rfl, State.onlyCroft_onCroft s q _, ?_⟩
    have hd : ((s.onCroft q fun x => if x.c.resetting then x.resetDone else x).croft q) = (s.site q).resetDone.c := by
      rw [State.croft_onCroft_same]
      exact congrArg Site.c (if_pos hr)
    rw [hd]
    exact ⟨rfl, hs, rfl, rfl, rfl, rfl, rfl, ⟨rfl, rfl, rfl, rfl, rfl, rfl, rfl, rfl, rfl, rfl⟩, rfl, hre, hw, hch, ho, hk⟩
  · refine ⟨_, exec_fenceWrite_on ha hr hb, onlyCroft_setCroft _ _ _, rfl, rfl, ?_⟩
    rw [State.croft_setCroft_same]
    exact fencedTo_spec (s.croft q)

end Sys2Proof.Machine

namespace Sys2Proof.Machine
open Sys2Proof.Safety

/-! ### Remote access -/

theorem physOf_lt {s : State} {n q : Nat} (hn : n < 26880) (h : s.physOf n = some q) : q < 28000 := by
  unfold State.physOf at h
  dsimp only at h
  split at h
  · cases h
  · obtain rfl := Option.some.inj h
    have hp : State.parOfLogical n < 56 := by unfold State.parOfLogical; omega
    have hm (m : W64) : State.mapColumn m (n % 192 % 24) ≤ 24 := by unfold State.mapColumn; split <;> omega
    have := hm (s.rowMap (State.parOfLogical n) (n / 192 % 20))
    omega

/-- The croft that a packet reaches is one of the module's. -/
theorem reached_lt {s : State} {k : Packet} {q : Nat} (h : s.reached k = some q) : q < 28000 := by
  unfold State.reached at h
  split at h
  · next hn => exact physOf_lt hn h
  · cases h

/-- A packet that waits behind an earlier one of its flow changes nothing (R60 of the mesh; log 72). -/
theorem inTurn_waits {s : State} {k : Packet} (f : State → State) (hk : k.wellFormed = true) (hw : s.waitsTurn k = true) :
    s.inTurn k f = .next s := by
  unfold State.inTurn checked
  rw [hw, Bool.or_true, if_pos rfl, if_pos hk]

/-- A packet in its turn at its croft is taken, and the croft acts. -/
theorem serve_inTurn {s : State} {k : Packet} {q : Nat} {f : Site → Site} (hr : s.reached k = some q) (hk : k.wellFormed = true)
    (ht : InTurn s k) : s.inTurn k (fun s => s.serve k f) = .next ((s.take k).onCroft q f) := by
  have hs : s.serve k f = (s.take k).onCroft q f := by unfold State.serve; rw [hr]
  rw [State.inTurn_eq _ hk ht, State.asOne_of_shadows, hs]
  rw [hs]
  rfl

theorem site_take (s : State) (k : Packet) (q : Nat) : (s.take k).site q = s.site q := rfl

/-- The entry checks of R94 that every packet passes at a croft that it passes. -/
theorem entryCheck_passes {s : State} {q : Nat} {k : Packet} (hp : Passes s q k) : (s.site q).entryCheck k =
    if ¬ k.op = 0x06 ∧ ((s.site q).winState k.window.toNat ≠ 1 ∨ (k.op = 0x01 ∧ k.gen.toNat ≠ (s.site q).winGen k.window.toNat))
      then some 0x03
    else if ¬ k.op = 0x06 ∧ (s.site q).winPerm k.window.toNat / 2 ^ (if k.op = 0x02 then 0 else if k.origVc = 2 then 2 else 1) %
        2 = 0
      then some 0x05
    else if ¬ k.op = 0x06 ∧ (s.site q).winLen k.window.toNat < k.offset.toNat + k.length.toNat then some 0x04
    else if k.op = 0x06 ∧ (s.site q).queueFull (bitsOf k.opdata.toNat 33 32) then some 0x0C
    else none := by
  obtain ⟨hr, hf, hh⟩ := hp
  have h1 : ¬ (s.site q).c.resetting = true := by rw [State.site_c, hr]; decide
  have h2 : ¬ (s.site q).fenced = true := by rw [hf]; decide
  have h3 : ¬ (k.holding ≠ 0xF ∧ k.holding.toNat ≠ (s.site q).hold) := fun h => hh.elim h.1 h.2
  unfold Site.entryCheck
  dsimp only
  rw [if_neg h1, if_neg h2, if_neg h3]

/-- A packet that its window admits passes every check. -/
theorem entryCheck_window {s : State} {q : Nat} {k : Packet} (hp : Passes s q k) (ho : ¬ k.op = 0x06)
    (hw : InWindow (s.croft q) k (if k.op = 0x02 then 0 else if k.origVc = 2 then 2 else 1)) : (s.site q).entryCheck k = none :=
        by
  obtain ⟨hs, hg, hm, hl⟩ := hw
  have h1 : ¬ (¬ k.op = 0x06 ∧ ((s.site q).winState k.window.toNat ≠ 1 ∨
      (k.op = 0x01 ∧ k.gen.toNat ≠ (s.site q).winGen k.window.toNat))) :=
    fun h => h.2.elim (fun h => h hs) fun h => h.2 (hg h.1)
  have h2 : ¬ (¬ k.op = 0x06 ∧ (s.site q).winPerm k.window.toNat / 2 ^ (if k.op = 0x02 then 0 else if k.origVc = 2 then 2 else 1) % 2 = 0) :=
    fun h => absurd (hm.symm.trans h.2) (by decide)
  have h3 : ¬ (¬ k.op = 0x06 ∧ (s.site q).winLen k.window.toNat < k.offset.toNat + k.length.toNat) :=
    fun h => Nat.not_lt.2 hl h.2
  rw [entryCheck_passes hp, if_neg h1, if_neg h2, if_neg h3, if_neg fun h => ho h.1]

theorem entryCheck_token {s : State} {q : Nat} {k : Packet} (hp : Passes s q k) (ho : k.op = 0x06) : (s.site q).entryCheck k =
    if 16 ≤ (queueOf (s.croft q) (bitsOf k.opdata.toNat 33 32)).length then some 0x0C else none := by
  rw [entryCheck_passes hp, if_neg fun h => h.1 ho, if_neg fun h => h.1 ho, if_neg fun h => h.1 ho]
  refine if_congr ?_ rfl rfl
  simp only [ho, true_and]
  exact decide_eq_true_iff

/-- A WRITE that its window admits is accepted (R94). -/
theorem exec_write_accepted {s : State} {q : Nat} {k : Packet} (hr : s.reached k = some q) (hk : k.wellFormed = true)
    (ht : InTurn s k)
    (he : (s.site q).entryCheck k = none) : exec (.write k) s = .next ((s.take k).setCroft q
      { s.croft q with accepted := (s.croft q).accepted ++ [⟨k, 32 * winBase (s.croft q) k.window.toNat + k.offset.toNat⟩] }) :=
          by
  have hw : (s.site q).remoteWrite k = ({ s.site q with
      c := { s.croft q with accepted := (s.croft q).accepted ++ [⟨k, 32 * winBase (s.croft q) k.window.toNat + k.offset.toNat⟩]
          } },
      false) := by
    unfold Site.remoteWrite
    rw [he]
    rfl
  have hd : ((s.site q).remoteWrite k).2 = false := by rw [hw]
  have hf : ((s.site q).remoteWrite k).1 = { s.site q with
      c := { s.croft q with accepted := (s.croft q).accepted ++ [⟨k, 32 * winBase (s.croft q) k.window.toNat + k.offset.toNat⟩]
          } } := by
    rw [hw]
  have hs : s.serveWrite k = (s.take k).onCroft q fun x => (x.remoteWrite k).1 := by
    unfold State.serveWrite
    rw [hr]
    dsimp only
    rw [site_take, hd, if_neg Bool.false_ne_true]
  show s.inTurn k (fun s => s.serveWrite k) = _
  rw [State.inTurn_eq _ hk ht, State.asOne_of_shadows, hs]
  · exact State.onCroft_next (s := s.take k) hf
  · rw [hs]
    rfl

/-- A site that hands out packets and changes its croft. -/
theorem onCroft_sent {s : State} {q : Nat} {f : Site → Site} {c : Croft} {o : List Packet}
    (h : f (s.site q) = { s.site q with c := c, out := o }) :
    s.onCroft q f = { s.setCroft q c with outq := s.outq ++ o } := by
  rw [State.onCroft_eq', h]
  simp [State.setCroft]

/-- A TOKEN whose queue has room is queued and acknowledged (R91). -/
theorem exec_token_queued {s : State} {q : Nat} {k : Packet} (hr : s.reached k = some q) (hk : k.wellFormed = true)
    (ht : InTurn s k)
    (he : (s.site q).entryCheck k = none) : ∃ a, Answers k a 0x04 ∧ exec (.token k) s = .next { (s.take k).setCroft q
      (withQueue (s.croft q) (bitsOf k.opdata.toNat 33 32)
        (queueOf (s.croft q) (bitsOf k.opdata.toNat 33 32) ++ [k.opdata.setWidth 32])) with outq := s.outq ++ [a] } := by
  refine ⟨(s.site q).answer k 0x04 1, ⟨rfl, by simp [Site.answer, Site.packet], rfl, rfl, rfl⟩, ?_⟩
  refine (serve_inTurn hr hk ht).trans (congrArg _ (onCroft_sent ?_))
  unfold Site.remoteToken
  rw [site_take]
  dsimp only
  rw [he]
  rfl

/-- A TOKEN at a full queue is refused and TOKEN_OVERFLOW raised (R91). -/
theorem exec_token_refused {s : State} {q : Nat} {k : Packet} (hr : s.reached k = some q) (hk : k.wellFormed = true)
    (ht : InTurn s k)
    (ho : k.op = 0x06) (he : (s.site q).entryCheck k = some 0x0C) : ∃ a, Answers k a 0x05 ∧ a.nack = 0x0C ∧
      exec (.token k) s = .next (reported
        { (s.take k).setCroft q (withBit (s.croft q) Reg.crfFault 5) with outq := s.outq ++ [a] } q 5 0x3006 0 (some k.tclass))
            := by
  refine ⟨{ (s.site q).answer k 0x05 1 with nack := 0x0C }, ⟨rfl, by simp [Site.answer, Site.packet], rfl, rfl, rfl⟩, rfl, ?_⟩
  refine (serve_inTurn hr hk ht).trans (congrArg _ ?_)
  have hf : ((s.take k).site q).remoteToken k = { (s.take k).site q with
      c := withBit (s.croft q) Reg.crfFault 5
      out := [{ (s.site q).answer k 0x05 1 with nack := 0x0C }]
      raised := [{ source := 5, loc := BitVec.ofNat 32 q, time := s.clock.now, syndrome := 0, opcode := 0x3006
                   tclass := some k.tclass }] } := by
    unfold Site.remoteToken packetOpcode
    rw [site_take]
    dsimp only
    rw [he, ho]
    rfl
  rw [State.onCroft_eq', hf]
  have hrep := State.reportAll_croft ({ (s.take k).setCroft q (withBit (s.croft q) Reg.crfFault 5) with
      outq := s.outq ++ [{ (s.site q).answer k 0x05 1 with nack := 0x0C }] } : State) ⟨q, reached_lt hr⟩
    { source := 5, loc := BitVec.ofNat 32 q, time := s.clock.now, syndrome := 0, opcode := 0x3006, tclass := some k.tclass } rfl
  exact hrep

/-- One READ_DATA packet of an answer (R51). -/
def readChunk (x : Site) (k : Packet) (a off n : Nat) : Packet :=
  { x.answer k 0x03 1 with payload := Memory.read x.c.mem a n, length := BitVec.ofNat 13 n, offset := BitVec.ofNat 32 off }

/-- The READ_DATA packets of a read of `left` bytes at `a`, in order. -/
def readData (x : Site) (k : Packet) (a off left : Nat) : Nat → List Packet
  | 0 => []
  | fuel + 1 =>
    if left = 0 then []
    else readChunk x k a off (min 512 left) :: readData x k (a + min 512 left) (off + min 512 left) (left - min 512 left) fuel

theorem check_clean (x : Site) {cw : Nat} (h : eccAt x.c cw = .clean) (opc : W16) (cls : Option Bool) :
    x.check cw opc cls = (x, false) := by
  unfold Site.check
  rw [show x.eccOf cw = .clean from h]

theorem checks_clean (x : Site) (h : ∀ cw, eccAt x.c cw = .clean) (opc : W16) (cls : Option Bool) (n cw : Nat) :
    x.checks cw opc cls n = (x, false) := by
  induction n generalizing cw with
  | zero => rfl
  | succ n ih =>
    unfold Site.checks
    rw [check_clean x (h cw)]
    dsimp only
    rw [ih]
    rfl

/-- A read of the scratchpad where every codeword is clean. -/
theorem readBytes_clean (x : Site) (h : ∀ cw, eccAt x.c cw = .clean) {a n : Nat} (hn : a + n ≤ 0x200000) (opc : W16)
    (cls : Option Bool) : x.readBytes a n opc cls = (x, Memory.read x.c.mem a n, false) := by
  have hw : Site.within a n = n := by
    unfold Site.within Site.regionEnd Site.region
    by_cases ha : a < 0x200000
    · rw [if_pos ha]
      dsimp only
      omega
    · have : n = 0 := by omega
      subst this
      exact Nat.zero_min _
  unfold Site.readBytes
  dsimp only
  rw [hw, checks_clean x h, if_neg (Nat.lt_irrefl n), Nat.sub_self]
  simp

theorem readData_send (x : Site) (k d : Packet) (a off left fuel : Nat) :
    readData (x.send d) k a off left fuel = readData x k a off left fuel := by
  induction fuel generalizing a off left with
  | zero => rfl
  | succ fuel ih =>
    rw [readData, readData, ih]
    rfl

/-- A read of clean codewords in the scratchpad hands out its packets and changes nothing else (R94). -/
theorem readChunks_clean (fuel : Nat) (x : Site) (k : Packet) (a off left : Nat) (h : ∀ cw, eccAt x.c cw = .clean)
    (hn : a + left ≤ 0x200000) : x.readChunks k a off left fuel = { x with out := x.out ++ readData x k a off left fuel } := by
  induction fuel generalizing x a off left with
  | zero => rw [readData, List.append_nil]; rfl
  | succ fuel ih =>
    unfold Site.readChunks
    rw [readData]
    by_cases hl : left = 0
    · rw [if_pos hl, if_pos hl, List.append_nil]
    · rw [if_neg hl, if_neg hl]
      dsimp only
      rw [readBytes_clean x h (by omega)]
      dsimp only
      rw [if_neg (by decide), ih (x.send _) _ _ _ h (by omega), readData_send]
      show ({ x with out := x.out ++ [_] ++ _ } : Site) = _
      rw [List.append_assoc]
      rfl

theorem length_readData (fuel : Nat) (x : Site) (k : Packet) (a off left : Nat) (h : left ≤ 512 * fuel) :
    (readData x k a off left fuel).length = (left + 511) / 512 := by
  induction fuel generalizing a off left with
  | zero => rw [readData, List.length_nil]; omega
  | succ fuel ih =>
    rw [readData]
    split
    · rw [List.length_nil]; omega
    · rw [List.length_cons, ih _ _ _ (by omega)]
      omega

/-- The packet of a read at index i. -/
theorem getElem_readData (fuel : Nat) (x : Site) (k : Packet) (a off left i : Nat)
    (h : i < (readData x k a off left fuel).length) :
    (readData x k a off left fuel)[i] = readChunk x k (a + 512 * i) (off + 512 * i) (min 512 (left - 512 * i)) := by
  induction fuel generalizing a off left i with
  | zero => exact absurd h (by rw [readData]; exact Nat.not_lt_zero i)
  | succ fuel ih =>
    by_cases hl : left = 0
    · exact absurd h (by rw [readData, if_pos hl]; exact Nat.not_lt_zero i)
    · have he : readData x k a off left (fuel + 1) = readChunk x k a off (min 512 left) ::
          readData x k (a + min 512 left) (off + min 512 left) (left - min 512 left) fuel := by rw [readData, if_neg hl]
      cases i with
      | zero => simp [he]
      | succ i =>
        have hi : i < (readData x k (a + min 512 left) (off + min 512 left) (left - min 512 left) fuel).length := by
          rw [he, List.length_cons] at h
          omega
        have hlt : 512 < left := by
          by_contra hc
          cases fuel with
          | zero => exact Nat.not_lt_zero i hi
          | succ fuel =>
            rw [readData, if_pos (by omega)] at hi
            exact Nat.not_lt_zero i hi
        simp only [he, List.getElem_cons_succ]
        rw [ih _ _ _ _ hi]
        rw [show a + min 512 left + 512 * i = a + 512 * (i + 1) by omega,
          show off + min 512 left + 512 * i = off + 512 * (i + 1) by omega,
          show left - min 512 left - 512 * i = left - 512 * (i + 1) by omega]

/-- A READ_REQ that its window admits is answered by its packets (R94, R51). -/
theorem exec_readReq_answered {s : State} {q : Nat} {k : Packet} (hr : s.reached k = some q) (hk : k.wellFormed = true)
    (ht : InTurn s k) (he : (s.site q).entryCheck k = none) (hl : k.length.toNat ≤ 4096)
    (hc : ∀ cw, eccAt (s.croft q) cw = .clean)
    (hn : 32 * winBase (s.croft q) k.window.toNat + k.offset.toNat + k.length.toNat ≤ 0x200000) :
    ∃ ps, exec (.readReq k) s = .next { (s.take k).setCroft q (s.croft q) with outq := s.outq ++ ps } ∧
      ps.length = (k.length.toNat + 511) / 512 ∧ ∀ i (h : i < ps.length), Answers k ps[i] 0x03 ∧
        ps[i].offset.toNat = k.offset.toNat + 512 * i ∧ ps[i].length.toNat = min 512 (k.length.toNat - 512 * i) ∧
        ps[i].payload = Memory.read (s.croft q).mem (32 * winBase (s.croft q) k.window.toNat + k.offset.toNat + 512 * i)
          (min 512 (k.length.toNat - 512 * i)) := by
  refine ⟨readData (s.site q) k (32 * winBase (s.croft q) k.window.toNat + k.offset.toNat) k.offset.toNat k.length.toNat 9,
    (serve_inTurn hr hk ht).trans (congrArg _ (onCroft_sent ?_)), length_readData _ _ _ _ _ _ (by omega), fun i h => ?_⟩
  · unfold Site.remoteRead
    rw [site_take, he]
    exact readChunks_clean 9 (s.site q) k _ _ _ hc hn
  · have hi := h
    rw [length_readData _ _ _ _ _ _ (by omega)] at hi
    rw [getElem_readData]
    refine ⟨⟨rfl, by simp [readChunk, Site.answer, Site.packet], rfl, rfl, rfl⟩, ?_, ?_, rfl⟩
    · show (BitVec.ofNat 32 _).toNat = _
      rw [BitVec.toNat_ofNat]
      omega
    · show (BitVec.ofNat 13 _).toNat = _
      rw [BitVec.toNat_ofNat]
      omega

/-- The note of a chunk changes the sow masks alone (R372). -/
theorem sowNote_eq (x : Site) (a : Accepted) : ∃ m, x.sowNote a = { x with c := { x.c with sowMask := m } } := by
  unfold Site.sowNote
  split
  · exact ⟨_, rfl⟩
  · exact ⟨x.c.sowMask, rfl⟩

theorem live_committed (x : Site) (a : Accepted) (rest : List Accepted) : (committed x a rest).live = x.live := by
  unfold Site.live
  obtain ⟨-, -, -, hf⟩ := committed_kept x a rest
  rw [hf]
  rw [committed_eq]

/-- What the end of a committed write leaves, but for its window and the sequencer that waited for it. -/
theorem closeDone_eq (x : Site) (w : Nat) :
    x.closeDone w = { x with c := { x.c with regs := (x.closeDone w).c.regs, seq := (x.closeDone w).c.seq } } := by
  unfold Site.closeDone
  split
  · rw [Site.closeReleases_eq]
    rfl
  · rfl

theorem regOf_closeDone_arrive (x : Site) {w : Nat} (hw : w < 16) (v : Nat) :
    regOf (x.closeDone w).c (Reg.carArrive v) = regOf x.c (Reg.carArrive v) := by
  unfold Site.closeDone
  split
  · rw [Site.regOf_closeReleases, regOf_closedState, if_neg (by unfold Reg.carArrive Reg.crfWinState; omega)]
  · rfl

theorem carArrive_notCheck {w : Nat} (hw : w < 16) : Reg.carArrive w ∉ checkRegs := by
  revert w
  decide

/-- The site once its oldest accepted write has committed and the sow checker has noted it. -/
def afterCommit (x : Site) (a : Accepted) (rest : List Accepted) : Site :=
  (committed (x.sowNote a) a rest).closeDone a.pkt.window.toNat

theorem exec_writeCommit_eq {s : State} {q : Phys} {a : Accepted} {rest : List Accepted} (h : (s.croft q).accepted = a :: rest)
    :
    ∃ f, exec (.writeCommit q) s = .next (s.onCroft q f) ∧ f (s.site q) = afterCommit (s.site q) a rest := by
  refine ⟨_, rfl, ?_⟩
  obtain ⟨m, hm⟩ := sowNote_eq (s.site q) a
  split
  · next hn => exact absurd (hn.symm.trans h) (by simp)
  · next b r hb =>
    obtain ⟨rfl, rfl⟩ := List.cons.inj (hb.symm.trans h)
    exact commitWrite_eq _ _ _ (by rw [hm]; exact h)

theorem arrive_afterCommit (x : Site) (a : Accepted) (rest : List Accepted) :
    regOf (afterCommit x a rest).c (Reg.carArrive a.pkt.window.toNat) =
      BitVec.ofNat 64 (satAdd (regOf x.c (Reg.carArrive a.pkt.window.toNat)).toNat a.pkt.payload.length) := by
  have hw : a.pkt.window.toNat < 16 := a.pkt.window.isLt
  obtain ⟨m, hm⟩ := sowNote_eq x a
  unfold afterCommit
  rw [regOf_closeDone_arrive _ hw, regOf_committed, if_pos rfl, (stored_worked _ _ _).1 _ (carArrive_notCheck hw), hm]
  rfl

theorem seq_afterCommit (x : Site) (a : Accepted) (rest : List Accepted) : (afterCommit x a rest).c.seq =
    if (x.winState a.pkt.window.toNat = 2 ∧ ({ x with c := { x.c with accepted := rest } } : Site).winDrained
        a.pkt.window.toNat) ∧
        (x.c.seq.held = .closing a.pkt.window.toNat ∨ x.c.seq.held = .opening a.pkt.window.toNat) ∧ x.live then
      { x.c.seq with st := .run, held := .nothing }
    else x.c.seq := by
  obtain ⟨m, hm⟩ := sowNote_eq x a
  unfold afterCommit
  rw [Site.closeDone_seq _ _ a.pkt.window.isLt, live_committed]
  have hs : (committed (x.sowNote a) a rest).winState a.pkt.window.toNat = x.winState a.pkt.window.toNat := by
    unfold Site.winState Site.field
    rw [show (committed (x.sowNote a) a rest).reg (Reg.crfWinState a.pkt.window.toNat) = _ from
      regOf_committed_winState (x.sowNote a) a rest a.pkt.window.isLt, hm]
    rfl
  have hq : (committed (x.sowNote a) a rest).c.seq = x.c.seq := by rw [committed_eq, hm]
  have hd : (committed (x.sowNote a) a rest).winDrained a.pkt.window.toNat =
      ({ x with c := { x.c with accepted := rest } } : Site).winDrained a.pkt.window.toNat := by
    unfold Site.winDrained
    rw [committed_eq]
  have hl : (x.sowNote a).live = x.live := by rw [hm]; rfl
  rw [hs, hq, hd, hl]

/-- What else a committed write makes of its croft (R94). -/
theorem afterCommit_spec (x : Site) (a : Accepted) (rest : List Accepted) :
    (afterCommit x a rest).c.accepted = rest ∧
    (afterCommit x a rest).c.mem = (if a.pkt.payload = [] then x.c.mem else Memory.write x.c.mem a.addr a.pkt.payload) ∧
    (afterCommit x a rest).c.tokq = x.c.tokq ∧ (afterCommit x a rest).c.chans = x.c.chans ∧
    (afterCommit x a rest).out = if a.pkt.origVc = 2 then x.out else x.out ++ [x.answer a.pkt 0x04 1] := by
  obtain ⟨m, hm⟩ := sowNote_eq x a
  have hmem := mem_stored (x.sowNote a) a rest
  unfold afterCommit
  rw [closeDone_eq, committed_eq]
  refine ⟨rfl, ?_, ?_, ?_, ?_⟩
  · show (stored (x.sowNote a) a rest).c.mem = _
    rw [hmem, hm]
  · show (x.sowNote a).c.tokq = _
    rw [hm]
  · show (x.sowNote a).c.chans = _
    rw [hm]
  · show (if a.pkt.origVc = 2 then (x.sowNote a).out else _) = _
    rw [hm]
    rfl

/-- Settles O19: by the entry checks of R94 for what arrives, and by `afterCommit` for the commit of what was accepted. -/
theorem remoteAccessIsServed : Obligations.RemoteAccessIsServed := by
  unfold Obligations.RemoteAccessIsServed
  refine ⟨⟨fun s k hk hw => ⟨inTurn_waits _ hk hw, inTurn_waits _ hk hw, inTurn_waits _ hk hw⟩, fun q s k hr hk ht hp => ⟨fun ho hw => ?_,
    fun ho hw hl hc hn => ?_, fun ho hl => ?_, fun ho hl => ?_⟩⟩, fun q s a rest ha => ?_⟩
  · refine exec_write_accepted hr hk ht (entryCheck_window hp (by rw [ho]; decide) ?_)
    rw [if_neg (by rw [ho]; decide)]
    exact hw
  · refine exec_readReq_answered hr hk ht (entryCheck_window hp (by rw [ho]; decide) ?_) hl hc hn
    rw [if_pos ho]
    exact hw
  · exact exec_token_queued hr hk ht ((entryCheck_token hp ho).trans (if_neg (by omega)))
  · exact exec_token_refused hr hk ht ho ((entryCheck_token hp ho).trans (if_pos hl))
  · obtain ⟨f, hx, he⟩ := exec_writeCommit_eq ha
    obtain ⟨hacc, hmem, htok, hch, hout⟩ := afterCommit_spec (s.site q) a rest
    refine ⟨_, hx, State.onlyCroft_onCroft s q _, ?_⟩
    rw [State.croft_onCroft_same, State.onCroft_outq, he, seq_afterCommit]
    refine ⟨hacc, hmem, fun _ => arrive_afterCommit _ _ _, fun h2 hd hl hh => if_pos ⟨⟨h2, (winDrained_iff _ _).2 hd⟩, hh, hl⟩,
      fun hn => if_neg fun h => hn ⟨h.1.1, (winDrained_iff _ _).1 h.1.2, h.2.2, h.2.1⟩, htok, hch,
      ((afterCommit (s.site q) a rest).raised.filter s.mayRaise).flatMap s.reportPackets, reports_reportPackets s _, fun hv =>
          ?_,
      fun hv => ⟨(s.site q).answer a.pkt 0x04 1, ⟨rfl, by simp [Site.answer, Site.packet], rfl, rfl, rfl⟩, ?_⟩⟩
    · rw [hout, if_pos hv, show (s.site q).out = [] from rfl, List.append_nil]
    · rw [hout, if_neg hv, show (s.site q).out = [] from rfl, List.nil_append, List.append_assoc]
      rfl

end Sys2Proof.Machine

namespace Sys2Proof.Machine
open Sys2Proof.Safety

/-! ### A step change -/

/-- Only registers, predictors and events of the croft have changed, as the gather engine's work at a step change does. -/
def Rolled (x y : Site) : Prop :=
  y = { x with c := { x.c with regs := y.c.regs, pred := y.c.pred, predNext := y.c.predNext }, raised := y.raised }

namespace Rolled

theorem refl (x : Site) : Rolled x x := rfl

theorem trans {x y z : Site} (h : Rolled x y) (h' : Rolled y z) : Rolled x z := by
  unfold Rolled at h h' ⊢
  rw [h] at h'
  exact h'

theorem setReg (x : Site) (o : Nat) (v : W64) : Rolled x (x.setReg o v) := rfl

theorem setField (x : Site) (o hi lo n : Nat) : Rolled x (x.setField o hi lo n) := rfl

theorem setPredCounts (x : Site) (k : Nat) (v : PredCounts) : Rolled x (x.setPredCounts k v) := rfl

theorem raise (x : Site) (code : Nat) (opc : W16) (syn : W64) (cls : Option Bool) : Rolled x (x.raise code opc syn cls) := rfl

theorem ite {x y z : Site} {p : Prop} [Decidable p] (hy : Rolled x y) (hz : Rolled x z) : Rolled x (if p then y else z) := by
  split
  · exact hy
  · exact hz

theorem gthLog (x : Site) (op line addr : Nat) : Rolled x (x.gthLog op line addr) := by
  unfold Site.gthLog
  exact ite (setReg _ _ _) (refl x)

theorem rollSlot (x : Site) (k : Nat) : Rolled x (x.rollSlot k) := by
  unfold Site.rollSlot
  extract_lets c cap two x1 x2 mode left left' x3 a m need off y z u x4 next x5
  have h3 : Rolled x x3 := (((setReg _ _ _).trans (setReg _ _ _)).trans (setPredCounts _ _ _)).trans (setField _ _ _ _ _)
  have hy : Rolled x3 y := ite (setField _ _ _ _ _) (refl x3)
  have hz : Rolled x3 z := hy.trans (setReg _ _ _)
  have hu : Rolled x3 u := hz.trans ((setField _ _ _ _ _).trans (gthLog _ _ _ _))
  have h4 : Rolled x3 x4 := ite (refl x3) (ite (ite (hu.trans (raise _ _ _ _ _)) hz) (hy.trans (setReg _ _ _)))
  have h5 : Rolled x4 x5 := by
    cases h : next (2 * k) with
    | none => simp only [x5, h]; exact refl x4
    | some v => simp only [x5, h]; exact setReg _ _ _
  refine ((h3.trans h4).trans h5).trans ?_
  split
  · exact setReg _ _ _
  · exact refl x5

theorem foldl {α : Type} {f : Site → α → Site} (hf : ∀ x a, Rolled x (f x a)) (l : List α) (x : Site) : Rolled x (l.foldl f x)
    :=
  List.foldlRecOn (motive := fun y : Site => Rolled x y) l f (refl x) fun _ hy a _ => hy.trans (hf _ a)

theorem noPredNext (x : Site) : Rolled x x.noPredNext := rfl

theorem roll (x : Site) : Rolled x x.roll := by
  rw [Site.roll_eq]
  exact (foldl rollSlot _ _).trans (noPredNext _)

end Rolled

/-- The AMAX registers zeroed, and no other. -/
theorem zeroAmax_eq (x : Site) : x.zeroAmax = { x with c := { x.c with regs := x.zeroAmax.c.regs } } := by
  unfold Site.zeroAmax
  exact List.foldlRecOn (motive := fun y : Site => y = { x with c := { x.c with regs := y.c.regs } }) _ _ rfl
    fun y hy k _ => by rw [hy]; rfl

theorem regOf_zeroTwo (x : Site) (k o : Nat) : regOf ((x.setReg (Reg.arrAmax k) 0).setReg (Reg.vecAmax k) 0).c o =
    if o = Reg.arrAmax k ∨ o = Reg.vecAmax k then 0 else regOf x.c o := by
  rw [regOf_setReg, regOf_setReg]
  by_cases h : o = Reg.vecAmax k
  · rw [if_pos h, if_pos (.inr h)]
  · rw [if_neg h]
    exact if_congr ⟨.inl, fun hh => hh.resolve_right h⟩ rfl rfl

/-- The AMAX registers below n zeroed, from the last down. -/
theorem regOf_zeroes (n : Nat) (x : Site) (o : Nat) :
    ((∃ k < n, o = Reg.arrAmax k ∨ o = Reg.vecAmax k) →
      regOf ((List.range n).foldl (fun x k => (x.setReg (Reg.arrAmax k) 0).setReg (Reg.vecAmax k) 0) x).c o = 0) ∧
    ((∀ k < n, o ≠ Reg.arrAmax k ∧ o ≠ Reg.vecAmax k) →
      regOf ((List.range n).foldl (fun x k => (x.setReg (Reg.arrAmax k) 0).setReg (Reg.vecAmax k) 0) x).c o = regOf x.c o) := by
  induction n with
  | zero => exact ⟨fun ⟨k, hk, _⟩ => absurd hk (Nat.not_lt_zero k), fun _ => rfl⟩
  | succ n ih =>
    rw [List.range_succ, List.foldl_append, List.foldl_cons, List.foldl_nil, regOf_zeroTwo]
    refine ⟨fun ⟨k, hk, he⟩ => ?_, fun hn => ?_⟩
    · by_cases h : o = Reg.arrAmax n ∨ o = Reg.vecAmax n
      · exact if_pos h
      · rw [if_neg h]
        refine ih.1 ⟨k, ?_, he⟩
        rcases Nat.lt_succ_iff_lt_or_eq.1 hk with hk | hk
        · exact hk
        · exact absurd (hk ▸ he) h
    · obtain ⟨ha, hv⟩ := hn n (Nat.lt_succ_self n)
      rw [if_neg fun h => h.elim ha hv]
      exact ih.2 fun k hk => hn k (Nat.lt_succ_of_lt hk)

theorem zeroAmax_zero (x : Site) {k : Nat} (hk : k < 16) :
    regOf x.zeroAmax.c (Reg.arrAmax k) = 0 ∧ regOf x.zeroAmax.c (Reg.vecAmax k) = 0 :=
  ⟨(regOf_zeroes 16 x _).1 ⟨k, hk, .inl rfl⟩, (regOf_zeroes 16 x _).1 ⟨k, hk, .inr rfl⟩⟩

theorem zeroAmax_step (x : Site) : regOf x.zeroAmax.c Reg.crfStep = regOf x.c Reg.crfStep := by
  refine (regOf_zeroes 16 x _).2 fun k _ => ⟨?_, ?_⟩
  · unfold Reg.crfStep Reg.arrAmax; omega
  · unfold Reg.crfStep Reg.vecAmax; omega

/-- A table's entry that is listed, once every entry has been mapped. -/
theorem get_map_listed {α : Type} (d : Nat → α) (f : α → α) (t : Tab α) (i : Nat) (h : Tab.get d t i ≠ d i) :
    Tab.get d (t.map fun e => (e.1, f e.2)) i = f (Tab.get d t i) := by
  induction t with
  | nil => exact absurd rfl h
  | cons e t ih =>
    rw [List.map_cons, Tab.get, Tab.get]
    rw [Tab.get] at h
    by_cases he : i = e.1
    · rw [if_pos he, if_pos he]
    · rw [if_neg he] at h
      rw [if_neg he, if_neg he, ih h]

/-- A step change of the croft's own, once the number is written and AMAX zeroed. -/
def stepTo (y : Site) : Site :=
  { y with c := { y.c with
      stepWritten := true
      captured := y.c.counts
      seq := { y.c.seq with stepNew := true }
      chans := y.c.chans.map fun e => (e.1, { e.2 with stepNew := true }) } }

/-- The croft after a step change, from what the gather engine leaves of it. -/
def stepped (x : Site) (v : W64) : Site := stepTo (x.setReg Reg.crfStep v).zeroAmax

theorem stepWrite_new (x : Site) (v : W32) (h : x.num Reg.crfStep ≠ v.toNat ∨ x.c.stepWritten = false) :
    x.stepWrite (v.setWidth 64) Site.roll = stepped x.roll (v.setWidth 64) := by
  have hn : fld (v.setWidth 64) 31 0 = v.toNat := by
    rw [fld_setWidth]
    have := v.isLt
    unfold bitsOf
    omega
  unfold Site.stepWrite
  dsimp only
  rw [hn, if_pos (h.imp (fun h => h.symm) fun h => by rw [h]; rfl)]
  rw [show (BitVec.ofNat 64 v.toNat : W64) = v.setWidth 64 by simp]
  rfl

/-- A replay mark of the croft's own, once AMAX is zeroed. -/
def rearmTo (y : Site) : Site :=
  { y with c := { y.c with
      tokq := [], hreg := []
      counts := y.c.captured
      pred := y.c.pred.map fun e => (e.1, ({} : PredCounts))
      seq := { y.c.seq with armed := true } } }

/-- The same number again, in an idle or halted croft. -/
def rearmed (x : Site) : Site := rearmTo x.zeroAmax

theorem stepWrite_same (x : Site) (v : W32) (h : x.num Reg.crfStep = v.toNat) (hs : x.c.stepWritten = true)
    (ht : x.status = 0 ∨ x.status = 3) : x.stepWrite (v.setWidth 64) Site.roll = rearmed x := by
  have hn : fld (v.setWidth 64) 31 0 = v.toNat := by
    rw [fld_setWidth]
    have := v.isLt
    unfold bitsOf
    omega
  unfold Site.stepWrite
  dsimp only
  rw [hn, if_neg (by simp [h, hs]), if_pos ht]
  rfl

theorem regOf_of_regs {c d : Croft} (h : c.regs = d.regs) (o : Nat) : regOf c o = regOf d o := by
  unfold regOf
  rw [h]

theorem regs_stepTo (y : Site) : (stepTo y).c.regs = y.c.regs := rfl

theorem regs_rearmTo (y : Site) : (rearmTo y).c.regs = y.c.regs := rfl

theorem regOf_stepped (x : Site) (v : W64) (o : Nat) : regOf (stepped x v).c o = regOf (x.setReg Reg.crfStep v).zeroAmax.c o :=
  regOf_of_regs (regs_stepTo _) o

theorem regOf_rearmed (x : Site) (o : Nat) : regOf (rearmed x).c o = regOf x.zeroAmax.c o := regOf_of_regs (regs_rearmTo _) o

/-- What a step change makes of its croft (R250). -/
theorem stepped_spec (x : Site) (v : W64) : regOf (stepped x.roll v).c Reg.crfStep = v ∧
    (∀ k < 16, regOf (stepped x.roll v).c (Reg.arrAmax k) = 0 ∧ regOf (stepped x.roll v).c (Reg.vecAmax k) = 0) ∧
    (stepped x.roll v).c.captured = x.c.counts ∧ (stepped x.roll v).c.seq = { x.c.seq with stepNew := true } ∧
    (∀ i < 8, (chanOf x.c i).st ≠ .free → chanOf (stepped x.roll v).c i = { chanOf x.c i with stepNew := true }) ∧
    (stepped x.roll v).c.stepWritten = true ∧ (stepped x.roll v).c.mem = x.c.mem ∧ (stepped x.roll v).c.tokq = x.c.tokq := by
  obtain ⟨r, p, n, e, hr⟩ : ∃ r p n e, x.roll = { x with c := { x.c with regs := r, pred := p, predNext := n }, raised := e } :=
    ⟨_, _, _, _, Rolled.roll x⟩
  have hz := zeroAmax_eq (x.roll.setReg Reg.crfStep v)
  have hc : (stepped x.roll v).c = { (x.roll.setReg Reg.crfStep v).c with
      regs := (x.roll.setReg Reg.crfStep v).zeroAmax.c.regs
      stepWritten := true
      captured := x.c.counts
      seq := { x.c.seq with stepNew := true }
      chans := x.c.chans.map fun e => (e.1, { e.2 with stepNew := true }) } := by
    unfold stepped
    rw [hz, hr]
    rfl
  refine ⟨?_, fun k hk => ?_, ?_, ?_, fun i _ hi => ?_, ?_, ?_, ?_⟩
  · rw [regOf_stepped, zeroAmax_step, regOf_setReg, if_pos rfl]
  · rw [regOf_stepped, regOf_stepped]
    exact zeroAmax_zero (x.roll.setReg Reg.crfStep v) hk
  · rw [hc]
  · rw [hc]
  · unfold chanOf
    rw [hc]
    exact get_map_listed (fun _ => ({} : Chan)) (fun c => { c with stepNew := true }) x.c.chans i fun h => hi
        (congrArg Chan.st h)
  · rw [hc]
  · rw [hc, hr]
    rfl
  · rw [hc, hr]
    rfl

/-- What a replay mark makes of its croft (R250). -/
theorem rearmed_spec (x : Site) : ∃ r, rearmed x = { x with c := { x.c with
      regs := r, tokq := [], hreg := [], counts := x.c.captured, pred := x.c.pred.map fun e => (e.1, ({} : PredCounts))
      seq := { x.c.seq with armed := true } } } ∧
    ∀ k < 16, regOf (rearmed x).c (Reg.arrAmax k) = 0 ∧ regOf (rearmed x).c (Reg.vecAmax k) = 0 := by
  obtain ⟨r, hr⟩ : ∃ r, x.zeroAmax = { x with c := { x.c with regs := r } } := ⟨_, zeroAmax_eq x⟩
  refine ⟨r, ?_, fun k hk => ?_⟩
  · unfold rearmed
    rw [hr]
    rfl
  · rw [regOf_rearmed, regOf_rearmed]
    exact zeroAmax_zero x hk

/-! ### Row repair -/

theorem repairs_any (c : Croft) (b r : Nat) (x : Site) (hx : x.c = c) : x.rowRepaired b r = true ↔ RowTaken c b r := by
  subst hx
  unfold Site.rowRepaired RowTaken
  rw [List.any_eq_true]
  refine ⟨fun ⟨e, he, h⟩ => ⟨e, List.mem_range.1 he, beq_iff_eq.1 h⟩, fun ⟨e, he, h⟩ => ⟨e, List.mem_range.2 he, beq_iff_eq.2 h⟩⟩

/-- A row of a free entry, which no other entry has taken, is copied (R83). -/
theorem repairData_taken {s : State} {q : Nat} {v : W32} (hv : v.getLsbD 31 = true) (hr : (s.croft q).repairing = none)
    (he : repairAt (s.croft q) (fld (regOf (s.croft q) Reg.crfRepairSel) 10 8) (fld (regOf (s.croft q) Reg.crfRepairSel) 4 0) =
        none)
    (ht : ¬ RowTaken (s.croft q) (fld (regOf (s.croft q) Reg.crfRepairSel) 10 8) (bitsOf v.toNat 11 0)) :
    (s.site q).repairData (v.setWidth 64) = { s.site q with
      c := { withReg (s.croft q) Reg.crfRepairStatus (setFld (regOf (s.croft q) Reg.crfRepairStatus) 9 9 0) with
        repairing := some (fld (regOf (s.croft q) Reg.crfRepairSel) 10 8, fld (regOf (s.croft q) Reg.crfRepairSel) 4 0,
          bitsOf v.toNat 11 0) } } := by
  have hb : ¬ ((s.site q).c.repairing.isSome || !bit (v.setWidth 64) 31) = true := by
    rw [State.site_c, hr, bit_setWidth _ _ (by decide), hv]
    decide
  have hn : ¬ (((s.site q).repair ((s.site q).field Reg.crfRepairSel 10 8) ((s.site q).field Reg.crfRepairSel 4 0)).isSome ||
      (s.site q).rowRepaired ((s.site q).field Reg.crfRepairSel 10 8) (bitsOf v.toNat 11 0)) = true := by
    rw [Bool.or_eq_true, repairs_any _ _ _ _ rfl]
    rintro (h | h)
    · exact absurd (Option.isSome_iff_ne_none.1 h) (not_not.2 he)
    · exact ht h
  unfold Site.repairData
  dsimp only
  rw [fld_setWidth, if_neg hb, if_neg hn]
  rfl

/-- An entry in use, or a row that an entry has taken, is refused (R83). -/
theorem repairData_refused {s : State} {q : Nat} {v : W32} (hv : v.getLsbD 31 = true) (hr : (s.croft q).repairing = none)
    (h : repairAt (s.croft q) (fld (regOf (s.croft q) Reg.crfRepairSel) 10 8) (fld (regOf (s.croft q) Reg.crfRepairSel) 4 0) ≠
        none ∨
      RowTaken (s.croft q) (fld (regOf (s.croft q) Reg.crfRepairSel) 10 8) (bitsOf v.toNat 11 0)) :
    (s.site q).repairData (v.setWidth 64) = { s.site q with
      c := withReg (s.croft q) Reg.crfRepairStatus (setFld (regOf (s.croft q) Reg.crfRepairStatus) 9 9 1) } := by
  have hb : ¬ ((s.site q).c.repairing.isSome || !bit (v.setWidth 64) 31) = true := by
    rw [State.site_c, hr, bit_setWidth _ _ (by decide), hv]
    decide
  have hn : (((s.site q).repair ((s.site q).field Reg.crfRepairSel 10 8) ((s.site q).field Reg.crfRepairSel 4 0)).isSome ||
      (s.site q).rowRepaired ((s.site q).field Reg.crfRepairSel 10 8) (bitsOf v.toNat 11 0)) = true := by
    rw [Bool.or_eq_true, repairs_any _ _ _ _ rfl]
    exact h.imp Option.isSome_iff_ne_none.2 id
  unfold Site.repairData
  dsimp only
  rw [fld_setWidth, if_neg hb, if_pos hn]
  rfl

theorem ecc_raise (x : Site) (code : Nat) (opc : W16) (syn : W64) (cls : Option Bool) : (x.raise code opc syn cls).c.ecc =
    x.c.ecc := rfl

theorem ecc_count (x : Site) (o n : Nat) : (x.count o n).c.ecc = x.c.ecc := rfl

theorem ecc_setReg (x : Site) (o : Nat) (v : W64) : (x.setReg o v).c.ecc = x.c.ecc := rfl

theorem ecc_vecLog (x : Site) (a b c d : Nat) : (x.vecLog a b c d).c.ecc = x.c.ecc := by
  unfold Site.vecLog
  split
  · exact ecc_setReg _ _ _
  · rfl

theorem ecc_check (x : Site) (cw : Nat) (opc : W16) (cls : Option Bool) : (x.check cw opc cls).1.c.ecc = x.c.ecc := by
  unfold Site.check
  dsimp only
  split
  · rfl
  · exact ecc_count x Reg.crfEccCorr 1
  · exact (ecc_raise _ _ _ _ _).trans ((ecc_setReg _ _ _).trans (ecc_count x _ 1))
  · exact ecc_count x _ 1
  · exact (ecc_raise _ _ _ _ _).trans (ecc_count x _ 1)
  · exact ecc_count x _ 1
  · exact (ecc_raise _ _ _ _ _).trans ((ecc_vecLog _ _ _ _ _).trans (ecc_count x _ 1))
  · rfl

/-- A read of a scratchpad codeword meets an error that it cannot correct, or none (R80). -/
theorem check_bad (x : Site) {cw : Nat} (h : 32 * cw < 0x200000) (opc : W16) (cls : Option Bool) :
    (x.check cw opc cls).2 = !(eccAt x.c cw == .clean || eccAt x.c cw == .corr) := by
  have hr : Site.region (32 * cw) = .scratch := if_pos h
  unfold Site.check
  rw [hr, show x.eccOf cw = eccAt x.c cw from rfl]
  cases eccAt x.c cw <;> rfl

theorem eccAt_setEcc (x : Site) (cw j : Nat) (e : Ecc) : eccAt (x.setEcc cw e).c j = if j = cw then e else eccAt x.c j :=
  Tab.get_set _ _ _ _ _

theorem eccAt_check (x : Site) (cw j : Nat) (opc : W16) (cls : Option Bool) : eccAt (x.check cw opc cls).1.c j = eccAt x.c j :=
    by
  unfold eccAt
  rw [ecc_check]

/-- The spare's copy of a codeword is clean, or poisoned where it cannot be corrected (R83). -/
theorem eccAt_copyCodeword (x : Site) {cw : Nat} (h : 32 * cw < 0x200000) (j : Nat) : eccAt (x.copyCodeword cw).c j =
    if j = cw then (if eccAt x.c cw = .clean ∨ eccAt x.c cw = .corr then .clean else .uncorr) else eccAt x.c j := by
  unfold Site.copyCodeword
  dsimp only
  rw [check_bad x h]
  cases he : eccAt x.c cw <;> simp [eccAt_setEcc, eccAt_check]

/-- A scrub makes a corrected codeword clean and leaves any other (R81). -/
theorem eccAt_scrubCodeword (x : Site) {cw : Nat} (h : 32 * cw < 0x200000) (j : Nat) : eccAt (x.scrubCodeword cw).c j =
    if j = cw then (if eccAt x.c cw = .corr then .clean else eccAt x.c cw) else eccAt x.c j := by
  unfold Site.scrubCodeword
  dsimp only
  rw [check_bad x h]
  by_cases hj : j = cw
  · subst hj
    cases he : eccAt x.c j <;> simp [eccAt_setEcc, eccAt_check, he]
  · cases he : eccAt x.c cw <;> simp [eccAt_setEcc, eccAt_check, hj]

theorem copyCodeword_worked (x : Site) (cw : Nat) : Worked x (x.copyCodeword cw) := by
  unfold Site.copyCodeword
  exact .ite ((Worked.check _ _ _ _).trans (Worked.setEcc _ _ _)) ((Worked.check _ _ _ _).trans (Worked.setEcc _ _ _))

theorem scrubCodeword_worked (x : Site) (cw : Nat) : Worked x (x.scrubCodeword cw) := by
  unfold Site.scrubCodeword
  exact .ite (Worked.check _ _ _ _) ((Worked.check _ _ _ _).trans (Worked.setEcc _ _ _))

/-- A repair that ends: its row's codewords copied, its entry taken (R83). -/
theorem repairDone_spec (x : Site) {b e r : Nat} (h : x.c.repairing = some (b, e, r)) (hb : b < 8) (hr : r < 4096) :
    x.repairDone.c.repairing = none ∧ x.repairDone.c.repairs = Tab.set (fun _ => none) x.c.repairs (32 * b + e) (some r) ∧
    x.repairDone.c.mem = x.c.mem ∧
    (∀ j < 2, eccAt x.repairDone.c (16 * r + 2 * b + j) =
      if eccAt x.c (16 * r + 2 * b + j) = .clean ∨ eccAt x.c (16 * r + 2 * b + j) = .corr then .clean else .uncorr) ∧
    x.repairDone.c.seq = x.c.seq ∧ x.repairDone.c.tokq = x.c.tokq ∧ x.repairDone.c.chans = x.c.chans := by
  have hc : x.repairDone.c = { ((x.copyCodeword (16 * r + 2 * b)).copyCodeword (16 * r + 2 * b + 1)).c with
      repairs := Tab.set (fun _ => none) ((x.copyCodeword (16 * r + 2 * b)).copyCodeword (16 * r + 2 * b + 1)).c.repairs
          (32 * b + e)
        (some r)
      repairing := none } := by
    unfold Site.repairDone Site.rowCodewords
    rw [h]
    dsimp only
    rw [Nat.mul_comm r 16, Nat.mul_comm b 2]
    rfl
  obtain ⟨-, -, hw⟩ := (copyCodeword_worked x (16 * r + 2 * b)).trans (copyCodeword_worked _ (16 * r + 2 * b + 1))
  have hm : ((x.copyCodeword (16 * r + 2 * b)).copyCodeword (16 * r + 2 * b + 1)).c.mem = x.c.mem := by
    rw [Site.mem_copyCodeword, Site.mem_copyCodeword]
  rw [hc]
  refine ⟨rfl, ?_, hm, fun j hj => ?_, ?_, ?_, ?_⟩
  · rw [hw]
  · show eccAt ((x.copyCodeword (16 * r + 2 * b)).copyCodeword (16 * r + 2 * b + 1)).c _ = _
    rw [eccAt_copyCodeword _ (by omega)]
    obtain rfl | rfl : j = 0 ∨ j = 1 := by omega
    · rw [if_neg (by omega), eccAt_copyCodeword _ (by omega)]
      exact if_pos rfl
    · rw [if_pos rfl, eccAt_copyCodeword _ (by omega), if_neg (Nat.succ_ne_self _)]
  · rw [hw]
  · rw [hw]
  · rw [hw]

/-- A scrub of a row (R81). -/
theorem scrub_spec (x : Site) {b r : Nat} (hb : b < 8) (hr : r < 4096) :
    let y := (x.scrubCodeword (16 * r + 2 * b)).scrubCodeword (16 * r + 2 * b + 1)
    (∀ j < 2, eccAt y.c (16 * r + 2 * b + j) =
      if eccAt x.c (16 * r + 2 * b + j) = .corr then .clean else eccAt x.c (16 * r + 2 * b + j)) ∧
    y.c.mem = x.c.mem ∧ y.c.repairs = x.c.repairs ∧ y.c.seq = x.c.seq ∧ y.c.tokq = x.c.tokq ∧ y.c.chans = x.c.chans := by
  intro y
  obtain ⟨-, -, hw⟩ := (scrubCodeword_worked x (16 * r + 2 * b)).trans (scrubCodeword_worked _ (16 * r + 2 * b + 1))
  have hw : y = _ := hw
  refine ⟨fun j hj => ?_, ?_, ?_, ?_, ?_, ?_⟩
  · show eccAt ((x.scrubCodeword (16 * r + 2 * b)).scrubCodeword (16 * r + 2 * b + 1)).c _ = _
    rw [eccAt_scrubCodeword _ (by omega)]
    obtain rfl | rfl : j = 0 ∨ j = 1 := by omega
    · rw [if_neg (by omega), eccAt_scrubCodeword _ (by omega)]
      exact if_pos rfl
    · rw [if_pos rfl, eccAt_scrubCodeword _ (by omega), if_neg (Nat.succ_ne_self _)]
  · exact (Site.mem_scrubCodeword _ _).trans (Site.mem_scrubCodeword _ _)
  · rw [hw]
  · rw [hw]
  · rw [hw]
  · rw [hw]

/-- Settles O21: by what a step change, a replay mark, a repair and a scrub make of the croft. -/
theorem stepNumbersAndRepairs : Obligations.StepNumbersAndRepairs := by
  unfold Obligations.StepNumbersAndRepairs
  refine ⟨fun q s v => ⟨fun ha hr hn => ?_, fun ha hr => congrArg _ (State.onRegs_reset _ ha hr),
    fun ha => congrArg _ (State.onRegs_cut _ ha), fun ha hn hs hl hst => ?_⟩,
    fun q s => ⟨fun v ha hr hv hn he ht => exec_onRegs_next ha hr (repairData_taken hv hn he ht),
      fun v ha hr hv hn h => exec_onRegs_next ha hr (repairData_refused hv hn h),
      fun v ha hr => congrArg _ (State.onRegs_reset _ ha hr), fun v ha => congrArg _ (State.onRegs_cut _ ha),
      fun b e r h hb hr => ⟨_, rfl, State.onlyCroft_onCroft s q _, ?_⟩,
      fun b r => ⟨_, rfl, State.onlyCroft_onCroft s q _, ?_⟩⟩⟩
  · refine ⟨_, congrArg Host.Outcome.next (State.onRegs_eq (fun x => x.stepWrite (v.setWidth 64) Site.roll) ha hr),
      State.onlyCroft_onCroft s q _, ?_⟩
    rw [State.croft_onCroft_same, stepWrite_new (s.site q) v hn]
    exact stepped_spec _ _
  · have hlive : (s.site q).live = true := hl
    have hres : (s.croft q).resetting = false := by
      cases h : (s.croft q).resetting with
      | false => rfl
      | true => simp [Site.live, State.site_c, h] at hlive
    have hst : (s.site q).status = 0 ∨ (s.site q).status = 3 := by
      have hf : (s.site q).fenced = false := by
        cases h : (s.site q).fenced with
        | false => rfl
        | true => simp [Site.live, h] at hlive
      unfold Site.status
      rw [State.site_c, hres, hf]
      exact hst.imp (fun h => by rw [h]; rfl) fun h => by rw [h]; rfl
    obtain ⟨r, hc, hz⟩ := rearmed_spec (s.site q)
    have hf := (stepWrite_same (s.site q) v hn hs hst).trans hc
    obtain ⟨t, ht, hon, hout, hrep, hcr⟩ := onCroft_only (f := fun x => x.stepWrite (v.setWidth 64) Site.roll) hf
    refine ⟨t, (congrArg Host.Outcome.next (State.onRegs_eq (fun x => x.stepWrite (v.setWidth 64) Site.roll) ha hres)).trans ht,
      hon, hout, hrep, ?_⟩
    rw [hc] at hz
    rw [hcr]
    exact ⟨fun _ => rfl, fun _ => rfl, rfl, rfl, hz, rfl, rfl⟩
  · rw [State.croft_onCroft_same]
    exact repairDone_spec _ h hb hr
  · rw [State.croft_onCroft_same]
    have := scrub_spec (s.site q) b.isLt r.isLt
    unfold Site.rowCodewords
    dsimp only at this ⊢
    rw [Nat.mul_comm r.val 16, Nat.mul_comm b.val 2]
    exact this

end Sys2Proof.Machine

namespace Sys2Proof.Machine
open Sys2Proof.Safety

/-! ### Channels of a carter -/

/-- A croft with a channel at v. -/
def withChan (c : Croft) (i : Nat) (v : Chan) : Croft := { c with chans := Tab.set (fun _ => ({} : Chan)) c.chans i v }

theorem chanOf_withChan (c : Croft) (i j : Nat) (v : Chan) : chanOf (withChan c i v) j = if j = i then v else chanOf c j :=
  Tab.get_set _ _ _ _ _

/-- The site of a croft whose own state has become c. -/
def siteAs (s : State) (q : Nat) (c : Croft) : Site := { s.site q with c := c }

/-- A command that sets one channel of its croft beside what makes its croft d. -/
theorem chanTo_set {s : State} {q i : Nat} {f : Site → Site} {v : Chan} {d : Croft} (hd : d.chans = (s.croft q).chans)
    (h : f (s.site q) = siteAs s q (withChan d i v)) :
    ∃ t, (Host.Outcome.next (s.onCroft q f) : Host.Outcome State Fault Refusal) = .next t ∧ t.outq = s.outq ∧ ChanTo q i s t v d
        := by
  refine ⟨_, rfl, by rw [State.onCroft_eq', h]; simp [siteAs], chanTo_onCroft (by rw [h]; rfl) ?_ (fun j hj => ?_) (by rw [h]; rfl)⟩
  · rw [h]
    exact (chanOf_withChan _ _ _ _).trans (if_pos rfl)
  · rw [h]
    refine (chanOf_withChan _ _ _ _).trans ((if_neg hj).trans ?_)
    unfold chanOf
    rw [hd]

theorem abort_eq (v : Chan) : v.abort = aborted v := by
  unfold Chan.abort aborted
  cases h : v.st <;> rfl

theorem destroy_eq (v : Chan) : v.destroy = destroyed v := by
  unfold Chan.destroy destroyed
  dsimp only
  rw [abort_eq]
  unfold aborted
  cases h : v.st <;> simp [h, draining]

theorem carterWord_eq {s : State} {q : Nat} {w : W128} (h : Issues s q w) (hc : wordClass w = 5) (op : Nat) :
    (s.site q).carterWord op = if wordOp w = op then some w else none := by
  unfold Site.carterWord
  rw [Site.issuing_eq h 5 hc]

/-- The word of a START of an inactive channel (R229). -/
theorem carterStart_runs {s : State} {q : Nat} {w : W128} (h : Issues s q w) (hc : wordClass w = 5) (ho : wordOp w = 1)
    (ha : (chanOf (s.croft q) (wfield w 107 105)).active = false)
    (hq : wfield w 84 84 = 1 → (queueOf (s.croft q) (wfield w 83 82)).length < 16) :
    (s.site q).carterStart = siteAs s q (withChan
      { (if wfield w 84 84 = 1 then withQueue (s.croft q) (wfield w 83 82) (queueOf (s.croft q) (wfield w 83 82) ++
          [chanHandle s q (wfield w 107 105) ((chanOf (s.croft q) (wfield w 107 105)).gen + 1)]) else s.croft q) with
        seq := past (s.croft q).seq } (wfield w 107 105)
      ((chanOf (s.croft q) (wfield w 107 105)).started
        (if wfield w 88 88 = 1 then (wfield w 104 89 + (hregOf (s.croft q) (wfield w 87 86)).toNat) % 65536 else wfield w 104
            89)
        (if wfield w 85 85 = 1 then hregOf (s.croft q) (wfield w 87 86) else 0) (some (s.croft q).seq.slot))) := by
  have hb : ¬ (s.site q).chanBusy (wfield w 107 105) = true := by
    show ¬ (chanOf (s.croft q) (wfield w 107 105)).active = true
    rw [ha]
    decide
  have hf : ¬ (wfield w 84 84 = 1 ∧ (s.site q).queueFull (wfield w 83 82) = true) := by
    rintro ⟨h1, h2⟩
    exact absurd (of_decide_eq_true h2) (Nat.not_le.2 (hq h1))
  unfold Site.carterStart
  rw [carterWord_eq h hc, if_pos ho]
  dsimp only [Site.wordChan]
  rw [if_neg hb, if_neg hf]
  split
  · have hh : (((s.site q).startChan (wfield w 107 105) ((s.site q).wordProg w)
        (if wfield w 85 85 = 1 then (s.site q).hreg (wfield w 87 86) else 0) (some (s.site q).c.seq.slot)).handle
            (wfield w 107 105)) =
        chanHandle s q (wfield w 107 105) ((chanOf (s.croft q) (wfield w 107 105)).gen + 1) := by
      unfold Site.handle
      have hc (x : Site) (i pc : Nat) (c0 : W32) (o : Option Nat) : (x.startChan i pc c0 o).chan i = (x.chan i).started pc c0 o
          :=
        (chanOf_withChan x.c i i _).trans (if_pos rfl)
      rw [hc]
      rfl
    rw [hh]
    rfl
  · rfl

/-- CAR_CMD with its channel, its program and its ERR. -/
def withCarCmd (c : Croft) (v : W32) (err : Nat) : Croft :=
  withReg c Reg.carCmd (setFld (setFld (regOf c Reg.carCmd) 18 0 (bitsOf v.toNat 18 0)) 29 29 err)

theorem withReg_twice (c : Croft) (o : Nat) (v w : W64) : withReg (withReg c o v) o w = withReg c o w := by
  unfold withReg
  rw [Tab.set_set]

/-- CAR_CMD's ERR, on what its write has stored. -/
theorem carErr_eq (s : State) (q : Nat) (v : W32) (on : Bool) :
    ((s.site q).setField Reg.carCmd 18 0 (bitsOf v.toNat 18 0)).carErr on = siteAs s q (withCarCmd (s.croft q) v (b2n on)) := by
  have hr : ((s.site q).setField Reg.carCmd 18 0 (bitsOf v.toNat 18 0)).reg Reg.carCmd =
      setFld (regOf (s.croft q) Reg.carCmd) 18 0 (bitsOf v.toNat 18 0) := Tab.get_set_same _ _ _ _
  have he (x : Site) (n : Nat) : x.setField Reg.carCmd 29 29 n = x.setReg Reg.carCmd (setFld (x.reg Reg.carCmd) 29 29 n) := rfl
  unfold Site.carErr
  rw [he, hr]
  exact congrArg (siteAs s q) (withReg_twice _ _ _ _)

/-- A channel set before ERR is cleared. -/
theorem carErr_setChan (x : Site) (i : Nat) (d : Chan) (on : Bool) :
    (x.setChan i d).carErr on = { x.carErr on with c := withChan (x.carErr on).c i d } := rfl

/-- The channel that a write of CAR_CMD puts in place, ERR cleared. -/
theorem carCmd_put (s : State) (q : Nat) (v : W32) (d : Chan) :
    (((s.site q).setField Reg.carCmd 18 0 (bitsOf v.toNat 18 0)).setChan (bitsOf v.toNat 18 16) d).carErr false =
      siteAs s q (withChan (withCarCmd (s.croft q) v 0) (bitsOf v.toNat 18 16) d) := by
  rw [carErr_setChan, carErr_eq]
  rfl

section
variable {s : State} {q : Nat} {v : W32} (hl : Live s q)
include hl

/-- A START by register (R227). -/
theorem carCmd_start (h : bitsOf v.toNat 31 30 = 1) : (s.site q).carCmd (v.setWidth 64) =
    if (chanOf (s.croft q) (bitsOf v.toNat 18 16)).active then siteAs s q (withCarCmd (s.croft q) v 1)
    else siteAs s q (withChan (withCarCmd (s.croft q) v 0) (bitsOf v.toNat 18 16)
      ((chanOf (s.croft q) (bitsOf v.toNat 18 16)).started (bitsOf v.toNat 15 0) 0 none)) := by
  have hlive : (s.site q).live = true := hl
  have hch (i : Nat) : ((s.site q).setField Reg.carCmd 18 0 (bitsOf v.toNat 18 0)).chan i = chanOf (s.croft q) i := rfl
  unfold Site.carCmd
  dsimp only
  rw [hlive, fld_setWidth, fld_setWidth, fld_setWidth, fld_setWidth, if_neg (by decide), h]
  unfold Site.chanBusy Site.startChan
  rw [hch, carErr_eq, carCmd_put]
  rfl

/-- An ABORT by register (R227). -/
theorem carCmd_abort (h : bitsOf v.toNat 31 30 = 2) : (s.site q).carCmd (v.setWidth 64) =
    if (s.site q).num Reg.carCmdHandle != ((s.site q).handle (bitsOf v.toNat 18 16)).toNat then
      siteAs s q (withCarCmd (s.croft q) v 1)
    else siteAs s q (withChan (withCarCmd (s.croft q) v 0) (bitsOf v.toNat 18 16)
        (aborted (chanOf (s.croft q) (bitsOf v.toNat 18 16)))) := by
  have hlive : (s.site q).live = true := hl
  have hch (i : Nat) : ((s.site q).setField Reg.carCmd 18 0 (bitsOf v.toNat 18 0)).chan i = chanOf (s.croft q) i := rfl
  unfold Site.carCmd
  dsimp only
  rw [hlive, fld_setWidth, fld_setWidth, fld_setWidth, fld_setWidth, if_neg (by decide), h]
  rw [hch, carErr_eq, abort_eq, carCmd_put s q v (aborted _)]
  rfl

/-- A DESTROY by register (R227). -/
theorem carCmd_destroy (h : bitsOf v.toNat 31 30 = 3) : (s.site q).carCmd (v.setWidth 64) =
    if (s.site q).num Reg.carCmdHandle != ((s.site q).handle (bitsOf v.toNat 18 16)).toNat then
      siteAs s q (withCarCmd (s.croft q) v 1)
    else siteAs s q (withChan (withCarCmd (s.croft q) v 0) (bitsOf v.toNat 18 16)
        (destroyed (chanOf (s.croft q) (bitsOf v.toNat 18 16)))) := by
  have hlive : (s.site q).live = true := hl
  have hch (i : Nat) : ((s.site q).setField Reg.carCmd 18 0 (bitsOf v.toNat 18 0)).chan i = chanOf (s.croft q) i := rfl
  unfold Site.carCmd
  dsimp only
  rw [hlive, fld_setWidth, fld_setWidth, fld_setWidth, fld_setWidth, if_neg (by decide), h]
  rw [hch, carErr_eq, destroy_eq, carCmd_put s q v (destroyed _)]
  rfl

end

/-- The commands of CAR_CMD act by the OP that the write carries. -/
theorem exec_carCmd (q : Phys) (s : State) (v : W32) :
    (bitsOf v.toNat 31 30 = 1 → exec (.carCmdStart q v) s = .next (s.onCroft q fun x => x.carCmd (v.setWidth 64))) ∧
    (bitsOf v.toNat 31 30 = 2 → exec (.carCmdAbort q v) s = .next (s.onCroft q fun x => x.carCmd (v.setWidth 64))) ∧
    (bitsOf v.toNat 31 30 = 3 → exec (.carCmdDestroy q v) s = .next (s.onCroft q fun x => x.carCmd (v.setWidth 64))) := by
  have hb : bitsOf v.toNat 31 30 = v.toNat / 2 ^ 30 := by
    have := v.isLt
    unfold bitsOf
    omega
  rw [hb]
  exact ⟨fun h => if_pos h, fun h => if_pos h, fun h => if_pos h⟩

/-- A write of CAR_CMD in a fenced croft, or in one in reset, does nothing. -/
theorem carCmd_dead {s : State} {q : Nat} {v : W64} (h : ¬ Live s q) : (s.site q).carCmd v = { s.site q with c := s.croft q } :=
    by
  have hd : ¬ (s.site q).live = true := h
  unfold Site.carCmd
  dsimp only
  rw [if_pos (by simp [hd])]
  rfl

/-- Settles O22: a word and a register write start, abort and destroy a channel, each by its own lemma. -/
theorem carterChannelsAreRuled : Obligations.CarterChannelsAreRuled := by
  unfold Obligations.CarterChannelsAreRuled
  refine ⟨fun q s w h hc => ⟨fun ho ha hq => ?_, fun ho ha => ?_, fun ho => ?_, fun ho => ?_⟩, fun q s v hd e he => ?_, fun q s v hl => ?_⟩
  · refine chanTo_set ?_ (carterStart_runs h hc ho ha hq)
    dsimp only
    split <;> rfl
  · refine State.onCroft_reported ?_
    have hb : (s.site q).chanBusy (wfield w 107 105) = true := ha
    unfold Site.carterStart
    rw [carterWord_eq h hc, if_pos ho]
    dsimp only [Site.wordChan]
    rw [if_pos hb]
    rfl
  · refine chanTo_set (d := { s.croft q with seq := past (s.croft q).seq }) rfl ?_
    unfold Site.carterAbort
    rw [carterWord_eq h hc, if_pos ho]
    dsimp only [Site.wordChan]
    rw [abort_eq]
    rfl
  · refine chanTo_set (d := { s.croft q with seq := past (s.croft q).seq }) rfl ?_
    unfold Site.carterDestroy
    rw [carterWord_eq h hc, if_pos ho]
    dsimp only [Site.wordChan]
    rw [destroy_eq]
    rfl
  · obtain ⟨h1, h2, h3⟩ := exec_carCmd q s v
    rcases he with ⟨hb, rfl⟩ | ⟨hb, rfl⟩ | ⟨hb, rfl⟩
    · exact (h1 hb).trans (State.onCroft_next (carCmd_dead hd))
    · exact (h2 hb).trans (State.onCroft_next (carCmd_dead hd))
    · exact (h3 hb).trans (State.onCroft_next (carCmd_dead hd))
  · obtain ⟨h1, h2, h3⟩ := exec_carCmd q s v
    have hcur : ∀ {p : Prop}, ((regOf (s.croft q) Reg.carCmdHandle).toNat =
        (chanHandle s q (bitsOf v.toNat 18 16) (chanOf (s.croft q) (bitsOf v.toNat 18 16)).gen).toNat ↔ p) →
        (((s.site q).num Reg.carCmdHandle != ((s.site q).handle (bitsOf v.toNat 18 16)).toNat) = true ↔ ¬ p) :=
      fun hp => bne_iff_ne.trans (not_congr hp)
    refine ⟨fun hb ha => ?_, fun hb ha => ?_, fun hb hc => ?_, fun hb hc => ?_, fun hc => ⟨fun hb => ?_, fun hb => ?_⟩⟩
    · rw [h1 hb]
      exact chanTo_set rfl ((carCmd_start hl hb).trans (if_neg (by rw [ha]; decide)))
    · exact (h1 hb).trans (State.onCroft_next ((carCmd_start hl hb).trans (if_pos ha)))
    · rw [h2 hb]
      exact chanTo_set rfl ((carCmd_abort hl hb).trans (if_neg fun hn => (hcur Iff.rfl).1 hn hc))
    · rw [h3 hb]
      exact chanTo_set rfl ((carCmd_destroy hl hb).trans (if_neg fun hn => (hcur Iff.rfl).1 hn hc))
    · exact (h2 hb).trans (State.onCroft_next ((carCmd_abort hl hb).trans (if_pos ((hcur Iff.rfl).2 hc))))
    · exact (h3 hb).trans (State.onCroft_next ((carCmd_destroy hl hb).trans (if_pos ((hcur Iff.rfl).2 hc))))

end Sys2Proof.Machine

namespace Sys2Proof.Machine
open Sys2Proof.Safety

/-! ### A channel's instruction -/

/-- x is croft q's site with channel i at v, as the fetch of an instruction leaves it: every other channel, and the rest of the
croft, as they were. -/
def ChanAt (s : State) (q i : Nat) (v : Chan) (x : Site) : Prop :=
  ∃ t : Tab Chan, x = siteAs s q { s.croft q with chans := t } ∧ Tab.get (fun _ => ({} : Chan)) t i = v ∧
    ∀ j, j ≠ i → Tab.get (fun _ => ({} : Chan)) t j = chanOf (s.croft q) j

theorem ChanAt.here (s : State) (q i : Nat) : ChanAt s q i (chanOf (s.croft q) i) (s.site q) :=
  ⟨(s.croft q).chans, rfl, rfl, fun _ _ => rfl⟩

theorem fetchedTo_self {v : Chan} {w : W256} (hf : v.fetched = true) (hi : v.instr = w) : fetchedTo v w = v := by
  unfold fetchedTo
  rw [← hf, ← hi]

/-- A channel that stands before an instruction executes it with the instruction fetched (R230). -/
theorem carInstr_at {s : State} {q i : Nat} {w : W256} (h : CarterAt s q i w) {p : W256 → Bool} (hp : p w = true)
    (f : Site → W256 → Site) :
    ∃ x, ChanAt s q i (fetchedTo (chanOf (s.croft q) i) w) x ∧ (s.site q).carInstr i p f = f x w := by
  have h' := h
  obtain ⟨hl, h1, h2, -, -, ⟨hf, hw⟩ | ⟨hf, -⟩⟩ := h'
  · refine ⟨s.site q, ?_, ?_⟩
    · rw [fetchedTo_self hf hw]
      exact ChanAt.here s q i
    · rw [Site.carInstr_held hl h1 h2 hf p (by rw [hw]; exact hp), hw]
  · refine ⟨_, ⟨Tab.set (fun _ => ({} : Chan)) (s.croft q).chans i (fetchedTo (chanOf (s.croft q) i) w), rfl,
      Tab.get_set_same _ _ _ _, fun j hj => Tab.get_set_ne _ _ _ hj⟩, Site.carInstr_fetch h hf p hp f⟩

/-- A command that leaves channel i at v, beside what makes its croft d. -/
theorem chanTo_left {s : State} {q i : Nat} {f : Site → Site} {v : Chan} {d : Croft} {t : Tab Chan}
    (ht : ∀ j, j ≠ i → Tab.get (fun _ => ({} : Chan)) t j = chanOf (s.croft q) j)
    (h : f (s.site q) = siteAs s q { d with chans := Tab.set (fun _ => ({} : Chan)) t i v }) :
    ∃ t, (Host.Outcome.next (s.onCroft q f) : Host.Outcome State Fault Refusal) = .next t ∧ t.outq = s.outq ∧ ChanTo q i s t v d
        := by
  refine ⟨_, rfl, by rw [State.onCroft_eq', h]; simp [siteAs], chanTo_onCroft (by rw [h]; rfl) ?_ (fun j hj => ?_) (by rw [h]; rfl)⟩
  · rw [h]
    exact Tab.get_set_same (fun _ => ({} : Chan)) _ _ _
  · rw [h]
    exact (Tab.get_set_ne (fun _ => ({} : Chan)) _ _ hj).trans (ht j hj)

theorem modChan_modChan (x : Site) (i : Nat) (f g : Chan → Chan) : (x.modChan i f).modChan i g = x.modChan i fun c => g (f c) :=
    by
  unfold Site.modChan
  rw [show (x.setChan i (f (x.chan i))).chan i = f (x.chan i) from Tab.get_set_same (fun _ => ({} : Chan)) _ _ _]
  unfold Site.setChan
  dsimp only
  rw [Tab.set_set]

section
variable {s : State} {q i : Nat} {v : Chan} {x : Site} {w : W256} (hx : ChanAt s q i v x)
include hx

theorem ChanAt.chan : x.chan i = v := by
  obtain ⟨t, rfl, hv, -⟩ := hx
  exact hv

theorem ChanAt.chan_ne {j : Nat} (hj : j ≠ i) : x.chan j = chanOf (s.croft q) j := by
  obtain ⟨t, rfl, -, ht⟩ := hx
  exact ht j hj

/-- Channel i modified, in a croft that has otherwise become d. -/
theorem ChanAt.left {f : Site → Site} {d : Croft} {g : Chan → Chan}
    (h : f (s.site q) = (siteAs s q { d with chans := x.c.chans }).modChan i g) :
    ∃ t, (Host.Outcome.next (s.onCroft q f) : Host.Outcome State Fault Refusal) = .next t ∧ t.outq = s.outq ∧ ChanTo q i s t
        (g v) d := by
  obtain ⟨t, rfl, hv, ht⟩ := hx
  refine chanTo_left ht (h.trans ?_)
  rw [← hv]
  rfl

theorem ChanAt.served (on id : Nat) : x.served i on id = (s.site q).served i on id := by
  have hj (j : Nat) (hj : j ∈ List.range i) : x.waitsFor j on id = (s.site q).waitsFor j on id := by
    unfold Site.waitsFor
    rw [hx.chan_ne (Nat.ne_of_lt (List.mem_range.1 hj))]
    rfl
  have ha : ((List.range i).any fun j => x.waitsFor j on id) = (List.range i).any fun j => (s.site q).waitsFor j on id := by
    rw [Bool.eq_iff_iff, List.any_eq_true, List.any_eq_true]
    exact ⟨fun ⟨j, hm, h⟩ => ⟨j, hm, hj j hm ▸ h⟩, fun ⟨j, hm, h⟩ => ⟨j, hm, (hj j hm).symm ▸ h⟩⟩
  unfold Site.served
  rw [ha]
  obtain ⟨t, rfl, -, -⟩ := hx
  rfl

/-- The fetch of an instruction does not change whether a WAIT is met. -/
theorem ChanAt.met (hs : v.st = (chanOf (s.croft q) i).st) (hn : v.stepNew = (chanOf (s.croft q) i).stepNew) :
    x.carWaitMet i w = (s.site q).carWaitMet i w := by
  have hact (j : Nat) : (x.chan j).active = ((s.site q).chan j).active := by
    by_cases hj : j = i
    · rw [hj, hx.chan]
      unfold Chan.active
      rw [hs]
      rfl
    · rw [hx.chan_ne hj]
      rfl
  have hstep : (x.chan i).stepNew = ((s.site q).chan i).stepNew := by rw [hx.chan]; exact hn
  unfold Site.carWaitMet
  dsimp only
  rw [hx.served, hx.served, hact, hstep]
  obtain ⟨t, rfl, -, -⟩ := hx
  rfl

/-- A WAIT on a queue that holds a handle takes its oldest (R236). -/
theorem ChanAt.takesQueue (h0 : cfield w 251 249 = 0) {h : W32} {l : List W32}
    (hq : queueOf (s.croft q) (cfield w 248 245) = h :: l)
    (hs : (s.site q).served i 0 (cfield w 248 245) = false) : x.carWaitMet i w = true ∧ ∀ f, f (s.site q) = x.carWaitTake i w →
      ∃ t, (Host.Outcome.next (s.onCroft q f) : Host.Outcome State Fault Refusal) = .next t ∧ t.outq = s.outq ∧
        ChanTo q i s t (if cfield w 244 244 = 1 then { v with c1 := h } else { v with c0 := h }).advance
          (withQueue (s.croft q) (cfield w 248 245) l) := by
  have hqx : x.queue (cfield w 248 245) = h :: l := by
    obtain ⟨t, rfl, -, -⟩ := hx
    exact hq
  refine ⟨?_, fun f hf => hx.left (g := fun c => (if cfield w 244 244 = 1 then { c with c1 := h } else { c with c0 := h }).advance)
    (hf.trans ?_)⟩
  · unfold Site.carWaitMet
    dsimp only
    rw [h0, hx.served 0, hs, hqx]
    rfl
  · unfold Site.carWaitTake
    dsimp only
    rw [h0, hqx]
    refine (modChan_modChan _ _ _ _).trans ?_
    obtain ⟨t, rfl, -, -⟩ := hx
    rfl

/-- A WAIT on an event bit takes it (R236). -/
theorem ChanAt.takesEvent (h0 : cfield w 251 249 = 1) (hb : bit (regOf (s.croft q) Reg.carEvent) (cfield w 248 245) = true)
    (hs : (s.site q).served i 1 (cfield w 248 245) = false) : x.carWaitMet i w = true ∧ ∀ f, f (s.site q) = x.carWaitTake i w →
      ∃ t, (Host.Outcome.next (s.onCroft q f) : Host.Outcome State Fault Refusal) = .next t ∧ t.outq = s.outq ∧
        ChanTo q i s t v.advance (withReg (s.croft q) Reg.carEvent
          (regOf (s.croft q) Reg.carEvent &&& ~~~ BitVec.ofNat 64 (2 ^ cfield w 248 245))) := by
  refine ⟨?_, fun f hf => hx.left (g := Chan.advance) (hf.trans ?_)⟩
  · unfold Site.carWaitMet
    dsimp only
    rw [h0, hx.served 1, hs, Bool.not_false, Bool.and_true]
    obtain ⟨t, rfl, -, -⟩ := hx
    exact hb
  · unfold Site.carWaitTake
    dsimp only
    rw [h0]
    obtain ⟨t, rfl, -, -⟩ := hx
    rfl

/-- A WAIT on arrivals takes its count of bytes (R236). -/
theorem ChanAt.takesArrival (h0 : cfield w 251 249 = 2)
    (hb : max 1 (cfield w 227 196) ≤ (regOf (s.croft q) (Reg.carArrive (cfield w 248 245))).toNat) :
    x.carWaitMet i w = true ∧ ∀ f, f (s.site q) = x.carWaitTake i w →
      ∃ t, (Host.Outcome.next (s.onCroft q f) : Host.Outcome State Fault Refusal) = .next t ∧ t.outq = s.outq ∧
        ChanTo q i s t v.advance (withReg (s.croft q) (Reg.carArrive (cfield w 248 245))
          (BitVec.ofNat 64 ((regOf (s.croft q) (Reg.carArrive (cfield w 248 245))).toNat - max 1 (cfield w 227 196)))) := by
  refine ⟨?_, fun f hf => hx.left (g := Chan.advance) (hf.trans ?_)⟩
  · unfold Site.carWaitMet
    dsimp only
    rw [h0]
    obtain ⟨t, rfl, -, -⟩ := hx
    exact decide_eq_true hb
  · unfold Site.carWaitTake
    dsimp only
    rw [h0]
    obtain ⟨t, rfl, -, -⟩ := hx
    rfl

/-- A WAIT on the step event takes it (R236). -/
theorem ChanAt.takesStep (h0 : cfield w 251 249 = 3) (hb : v.stepNew = true) :
    x.carWaitMet i w = true ∧ ∀ f, f (s.site q) = x.carWaitTake i w →
      ∃ t, (Host.Outcome.next (s.onCroft q f) : Host.Outcome State Fault Refusal) = .next t ∧ t.outq = s.outq ∧
        ChanTo q i s t { v with stepNew := false }.advance (s.croft q) := by
  refine ⟨?_, fun f hf => hx.left (g := fun c => { c with stepNew := false }.advance) (hf.trans ?_)⟩
  · unfold Site.carWaitMet
    dsimp only
    rw [h0, hx.chan]
    exact hb
  · unfold Site.carWaitTake
    dsimp only
    rw [h0]
    refine (modChan_modChan _ _ _ _).trans ?_
    obtain ⟨t, rfl, -, -⟩ := hx
    rfl

/-- A WAIT on a channel that is not active is met (R236). -/
theorem ChanAt.takesChannel (hv : v.st = (chanOf (s.croft q) i).st) (h0 : cfield w 251 249 = 4)
    (hb : (chanOf (s.croft q) (cfield w 248 245)).active = false) :
    x.carWaitMet i w = true ∧ ∀ f, f (s.site q) = x.carWaitTake i w →
      ∃ t, (Host.Outcome.next (s.onCroft q f) : Host.Outcome State Fault Refusal) = .next t ∧ t.outq = s.outq ∧
        ChanTo q i s t v.advance (s.croft q) := by
  have hact : (x.chan (cfield w 248 245)).active = false := by
    by_cases hj : cfield w 248 245 = i
    · rw [hj] at hb ⊢
      rw [hx.chan]
      unfold Chan.active at hb ⊢
      rw [hv]
      exact hb
    · rw [hx.chan_ne hj]
      exact hb
  refine ⟨?_, fun f hf => hx.left (g := Chan.advance) (hf.trans ?_)⟩
  · unfold Site.carWaitMet
    dsimp only
    rw [h0, hact]
    rfl
  · unfold Site.carWaitTake
    dsimp only
    rw [h0]
    obtain ⟨t, rfl, -, -⟩ := hx
    rfl

/-- A WAIT that is not met holds its channel (R236). -/
theorem ChanAt.waits {f : Site → Site} (hf : f (s.site q) = x.modChan i fun c => { c with st := .wait }) :
    ∃ t, (Host.Outcome.next (s.onCroft q f) : Host.Outcome State Fault Refusal) = .next t ∧ t.outq = s.outq ∧
      ChanTo q i s t { v with st := .wait } (s.croft q) := by
  refine hx.left (g := fun c => { c with st := .wait }) (hf.trans ?_)
  obtain ⟨t, rfl, -, -⟩ := hx
  rfl

end

/-- A WAIT that has been fetched, or is now, by its source (R236). -/
theorem waitInstr_at {s : State} {q i : Nat} {w : W256} (h : CarterAt s q i w) {on : Nat} (ho : carOpc w = 4)
    (hon : cfield w 251 249 = on) : ∃ x, ChanAt s q i (fetchedTo (chanOf (s.croft q) i) w) x ∧
      (s.site q).waitInstr i on =
        if x.carWaitMet i w then x.carWaitTake i w else x.modChan i fun c => { c with st := .wait } := by
  unfold Site.waitInstr
  exact carInstr_at h (p := fun w => carOpc w == 4 && cfield w 251 249 == on) (by simp [ho, hon]) _

/-- A waiting channel's WAIT that is met takes its source, at its end and at its timeout (R236). -/
theorem carWaitEnd_met {s : State} {q i : Nat} (hl : Live s q) (hs : (chanOf (s.croft q) i).st = .wait)
    (hm : (s.site q).carWaitMet i (chanOf (s.croft q) i).instr = true) :
    (s.site q).carWaitEnd i = (s.site q).carWaitTake i (chanOf (s.croft q) i).instr := by
  have hlive : (s.site q).live = true := hl
  have hst : ((s.site q).chan i).st = .wait := hs
  unfold Site.carWaitEnd
  dsimp only
  rw [hlive, hst]
  exact if_pos (by simpa using hm)

theorem carWaitTimeout_eq {s : State} {q i : Nat} (hl : Live s q) (hs : (chanOf (s.croft q) i).st = .wait)
    (ht : cfield (chanOf (s.croft q) i).instr 243 228 ≠ 0) :
    (s.site q).carWaitTimeout i = if (s.site q).carWaitMet i (chanOf (s.croft q) i).instr then
      (s.site q).carWaitTake i (chanOf (s.croft q) i).instr else (s.site q).haltChan i 7 4 := by
  have hlive : (s.site q).live = true := hl
  have hst : ((s.site q).chan i).st = .wait := hs
  unfold Site.carWaitTimeout
  dsimp only
  rw [hlive, hst]
  exact if_pos (by simpa using ht)

/-- The events that a croft's command raises are those of `reported`, whatever the command makes of its croft. -/
theorem reported_setCroft (s : State) (q : Nat) (c : Croft) (source : Nat) (opcode : W16) (syn : W64) (cls : Option Bool) :
    (reported (s.setCroft q c) q source opcode syn cls).outq = (reported s q source opcode syn cls).outq ∧
    (reported (s.setCroft q c) q source opcode syn cls).reports = (reported s q source opcode syn cls).reports ∧
    reported (s.setCroft q c) q source opcode syn cls = { s.setCroft q c with
      outq := (reported s q source opcode syn cls).outq, reports := (reported s q source opcode syn cls).reports } := by
  unfold reported
  rw [State.parish_setCroft]
  split <;> exact ⟨rfl, rfl, rfl⟩

/-- A command of a croft that changes one channel, and what makes its croft d, and raises one event. -/
theorem chanTo_raised {s : State} {q : Phys} {i : Nat} {f : Site → Site} {v : Chan} {d : Croft} {t : Tab Chan} {source : Nat}
    {opcode : W16} {syn : W64} {cls : Option Bool} (ht : ∀ j, j ≠ i → Tab.get (fun _ => ({} : Chan)) t j = chanOf (s.croft q) j)
    (h : f (s.site q) = { s.site q with
      c := { d with chans := Tab.set (fun _ => ({} : Chan)) t i v }
      raised := [{ source, loc := BitVec.ofNat 32 q, time := s.clock.now, syndrome := syn, opcode, tclass := cls }] }) :
    ∃ t, (Host.Outcome.next (s.onCroft q f) : Host.Outcome State Fault Refusal) = .next t ∧
      t.outq = (reported s q source opcode syn cls).outq ∧ t.reports = (reported s q source opcode syn cls).reports ∧
      ChanTo q i s { t with reports := s.reports } v d := by
  obtain ⟨ho, hr, he⟩ := reported_setCroft s q { d with chans := Tab.set (fun _ => ({} : Chan)) t i v } source opcode syn cls
  refine ⟨_, State.onCroft_reported h, ho, hr, ?_⟩
  have hu : ({ reported (s.setCroft q { d with chans := Tab.set (fun _ => ({} : Chan)) t i v }) q source opcode syn cls with
      reports := s.reports } : State) = { s.setCroft q { d with chans := Tab.set (fun _ => ({} : Chan)) t i v } with
      outq := (reported s q source opcode syn cls).outq } := by rw [he]; rfl
  have hc : ({ s.setCroft q { d with chans := Tab.set (fun _ => ({} : Chan)) t i v } with
      outq := (reported s q source opcode syn cls).outq } : State).croft q =
          { d with chans := Tab.set (fun _ => ({} : Chan)) t i v } :=
    State.croft_setCroft_same _ _ _
  rw [hu]
  refine ⟨⟨fun j hj => State.croft_setCroft_ne _ _ hj, rfl⟩, rfl, ?_, fun j hj => ?_, ?_⟩
  · rw [hc]
    exact Tab.get_set_same (fun _ => ({} : Chan)) _ _ _
  · rw [hc]
    exact (Tab.get_set_ne (fun _ => ({} : Chan)) _ _ hj).trans (ht j hj)
  · rw [hc]

/-- Settles O23: by the source of the WAIT, for an instruction that is fetched (`ChanAt`) or held already (`ChanAt.here`). -/
theorem carterLoopsAndWaits : Obligations.CarterLoopsAndWaits := by
  unfold Obligations.CarterLoopsAndWaits
  refine ⟨fun q i s w h => ?_, fun q i s hl hst => ?_⟩
  · have hst : (fetchedTo (chanOf (s.croft q) i) w).st = (chanOf (s.croft q) i).st := rfl
    have hfetch {on : Nat} (ho : carOpc w = 4) (hon : cfield w 251 249 = on) := waitInstr_at h ho hon
    refine ⟨fun ho => ?_, fun ho hon h' l hq hs => ?_, fun ho hon hb hs => ?_, fun ho hon hb => ?_, fun ho hon hb => ?_,
      fun ho hon hb => ?_, fun ho hm e he => ?_⟩
    · obtain ⟨x, hx, he⟩ := carInstr_at h (p := fun w => carOpc w == 3) (by simp [ho]) fun x w => x.modChan i fun c =>
        { c with
          pc := c.pc + 1
          loops := c.loops ++ [{ body := c.pc + 1, len := cfield w 233 226, iter := 0, count := cfield w 249 234 + 1
                                 src := BitVec.ofNat 32 (cfield w 225 194), dst := BitVec.ofNat 32 (cfield w 193 162) }]
          fetched := false }
      refine hx.left (f := fun x => x.loopInstr i) (g := fun c => { c with
          pc := c.pc + 1
          loops := c.loops ++ [{ body := c.pc + 1, len := cfield w 233 226, iter := 0, count := cfield w 249 234 + 1
                                 src := BitVec.ofNat 32 (cfield w 225 194), dst := BitVec.ofNat 32 (cfield w 193 162) }]
          fetched := false }) (he.trans ?_)
      obtain ⟨t, rfl, -, -⟩ := hx
      rfl
    · obtain ⟨x, hx, he⟩ := hfetch ho hon
      obtain ⟨hm, ht⟩ := hx.takesQueue hon hq hs
      exact ht (fun x => x.waitInstr i 0) (he.trans (if_pos hm))
    · obtain ⟨x, hx, he⟩ := hfetch ho hon
      obtain ⟨hm, ht⟩ := hx.takesEvent hon hb hs
      exact ht (fun x => x.waitInstr i 1) (he.trans (if_pos hm))
    · obtain ⟨x, hx, he⟩ := hfetch ho hon
      obtain ⟨hm, ht⟩ := hx.takesArrival hon hb
      exact ht (fun x => x.waitInstr i 2) (he.trans (if_pos hm))
    · obtain ⟨x, hx, he⟩ := hfetch ho hon
      obtain ⟨hm, ht⟩ := hx.takesStep hon hb
      exact ht (fun x => x.waitInstr i 3) (he.trans (if_pos hm))
    · obtain ⟨x, hx, he⟩ := hfetch ho hon
      obtain ⟨hm, ht⟩ := hx.takesChannel hst hon hb
      exact ht (fun x => x.waitInstr i 4) (he.trans (if_pos hm))
    · have hw (on : Nat) (hon : cfield w 251 249 = on) : ∃ t,
          (Host.Outcome.next (s.onCroft q fun x => x.waitInstr i on) : Host.Outcome State Fault Refusal) = .next t ∧ t.outq =
              s.outq ∧
          ChanTo q i s t { fetchedTo (chanOf (s.croft q) i) w with st := .wait } (s.croft q) := by
        obtain ⟨x, hx, he⟩ := hfetch ho hon
        exact hx.waits (f := fun x => x.waitInstr i on) (he.trans (if_neg (by rw [hx.met hst rfl, hm]; decide)))
      rcases he with ⟨hon, rfl⟩ | ⟨hon, rfl⟩ | ⟨hon, rfl⟩ | ⟨hon, rfl⟩ | ⟨hon, rfl⟩
      · exact hw 0 hon
      · exact hw 1 hon
      · exact hw 2 hon
      · exact hw 3 hon
      · exact hw 4 hon
  · have hx := ChanAt.here s q i
    refine ⟨fun e he => ?_, fun ht hm => ?_⟩
    · have hex (hm : (s.site q).carWaitMet i (chanOf (s.croft q) i).instr = true) : ∃ f, exec e s = .next (s.onCroft q f) ∧
          f (s.site q) = (s.site q).carWaitTake i (chanOf (s.croft q) i).instr := by
        rcases he with rfl | ⟨ht, rfl⟩
        · exact ⟨_, rfl, carWaitEnd_met hl hst hm⟩
        · exact ⟨_, rfl, (carWaitTimeout_eq hl hst ht).trans (if_pos hm)⟩
      refine ⟨fun hon h' l hq hs => ?_, fun hon hb hs => ?_, fun hon hb => ?_, fun hon hb => ?_, fun hon hb => ?_⟩
      · obtain ⟨hm, ht⟩ := hx.takesQueue hon hq hs
        obtain ⟨f, hf, he⟩ := hex hm
        rw [hf]
        exact ht f he
      · obtain ⟨hm, ht⟩ := hx.takesEvent hon hb hs
        obtain ⟨f, hf, he⟩ := hex hm
        rw [hf]
        exact ht f he
      · obtain ⟨hm, ht⟩ := hx.takesArrival hon hb
        obtain ⟨f, hf, he⟩ := hex hm
        rw [hf]
        exact ht f he
      · obtain ⟨hm, ht⟩ := hx.takesStep hon hb
        obtain ⟨f, hf, he⟩ := hex hm
        rw [hf]
        exact ht f he
      · obtain ⟨hm, ht⟩ := hx.takesChannel rfl hon hb
        obtain ⟨f, hf, he⟩ := hex hm
        rw [hf]
        exact ht f he
    · have hh : ∃ syn, (s.site q).haltChan i 7 4 = { s.site q with
          c := { withBit (s.croft q) Reg.carFault 0 with
            chans := Tab.set (fun _ => ({} : Chan)) (s.croft q).chans i (draining (chanOf (s.croft q) i) 7 false) }
          raised := [{ source := 40, loc := BitVec.ofNat 32 q, time := s.clock.now, syndrome := syn, opcode := 0x2004
                       tclass := some (chanOf (s.croft q) i).tclass }] } := by
        unfold Site.haltChan
        dsimp only
        rw [if_pos (.inr hst), if_neg (by decide)]
        exact ⟨_, rfl⟩
      obtain ⟨syn, hh⟩ := hh
      obtain ⟨t, hn, ho, hr, hc⟩ := chanTo_raised (f := fun x => x.carWaitTimeout i) (d := withBit (s.croft q) Reg.carFault 0)
        (fun _ _ => rfl) ((carWaitTimeout_eq hl hst ht).trans ((if_neg (by rw [hm]; decide)).trans hh))
      exact ⟨t, syn, hn, ho, hc, hr⟩

end Sys2Proof.Machine

namespace Sys2Proof.Machine
open Sys2Proof.Safety

/-! ### SIGNAL, END and illegal instructions -/

theorem fetchedTo_st (v : Chan) (w : W256) : (fetchedTo v w).st = v.st := rfl

theorem cfield_lt (w : W256) (hi lo : Nat) : cfield w hi lo < 2 ^ (hi + 1 - lo) := bitsOf_lt _ _ _

/-- A command that leaves channel i at v, beside what makes its croft d, and hands out a packet. -/
theorem chanTo_sent {s : State} {q i : Nat} {f : Site → Site} {v : Chan} {d : Croft} {t : Tab Chan} {p : Packet}
    (ht : ∀ j, j ≠ i → Tab.get (fun _ => ({} : Chan)) t j = chanOf (s.croft q) j)
    (h : f (s.site q) = { siteAs s q { d with chans := Tab.set (fun _ => ({} : Chan)) t i v } with out := [p] }) :
    ∃ t, (Host.Outcome.next (s.onCroft q f) : Host.Outcome State Fault Refusal) = .next t ∧ t.outq = s.outq ++ [p] ∧
      ChanTo q i s t v d := by
  refine ⟨_, rfl, by rw [State.onCroft_eq', h]; simp [siteAs], chanTo_onCroft (by rw [h]; rfl) ?_ (fun j hj => ?_) (by rw [h]; rfl)⟩
  · rw [h]
    exact Tab.get_set_same (fun _ => ({} : Chan)) _ _ _
  · rw [h]
    exact (Tab.get_set_ne (fun _ => ({} : Chan)) _ _ hj).trans (ht j hj)

/-- The handle that a SIGNAL sends, from a channel at v (R237). -/
def signalOf (s : State) (q i : Nat) (v : Chan) (w : W256) : W32 :=
  if cfield w 242 241 = 0 then BitVec.ofNat 32 (cfield w 240 209)
  else if cfield w 242 241 = 1 then v.c0 + BitVec.ofNat 32 (cfield w 240 209)
  else if cfield w 242 241 = 2 then v.c1 + BitVec.ofNat 32 (cfield w 240 209) else chanHandle s q i v.gen

section
variable {s : State} {q i : Nat} {v : Chan} {x : Site} {w : W256} (hx : ChanAt s q i v x)
include hx

theorem ChanAt.signalHandle : x.signalHandle i w = signalOf s q i v w := by
  have hh : x.handle i = chanHandle s q i v.gen := by
    unfold Site.handle
    rw [hx.chan]
    obtain ⟨t, rfl, -, -⟩ := hx
    rfl
  unfold Site.signalHandle signalOf
  dsimp only
  rw [hx.chan, hh]
  split
  · next h => rw [if_pos h]
  · next h => rw [if_neg (by omega), if_pos h]
  · next h => rw [if_neg (by omega), if_neg (by omega), if_pos h]
  · next h0 h1 h2 => rw [if_neg h0, if_neg h1, if_neg h2]

theorem ChanAt.writesDone (hq : ∀ r ∈ v.outst, r.pkt.op = 0x06) : Site.writesDone (x.chan i) = true := by
  unfold Site.writesDone
  rw [hx.chan, List.all_eq_true]
  exact fun r hr => beq_iff_eq.2 (hq r hr)

/-- The fetch of an instruction leaves the carter's count of requests. -/
theorem ChanAt.outstanding (ho : v.outst = (chanOf (s.croft q) i).outst) : x.outstanding = (s.site q).outstanding := by
  unfold Site.outstanding
  congr 1
  refine List.map_congr_left fun j _ => ?_
  by_cases hj : j = i
  · rw [hj, hx.chan, ho]
    rfl
  · rw [hx.chan_ne hj]
    rfl

end

section
variable {s : State} {q i : Nat} {w : W256} (h : CarterAt s q i w) (ho : carOpc w = 5)
  (hq : ∀ r ∈ (chanOf (s.croft q) i).outst, r.pkt.op = 0x06)
include h ho hq

/-- A SIGNAL to a queue that has room (R237). -/
theorem signalQueue_at (hto : cfield w 251 250 = 0) (hf : (queueOf (s.croft q) (cfield w 249 248)).length < 16) :
    ∃ x, ChanAt s q i (fetchedTo (chanOf (s.croft q) i) w) x ∧
      (s.site q).signalInstr i 0 = (x.push (cfield w 249 248) (signalOf s q i (fetchedTo (chanOf (s.croft q) i) w) w)).modChan i
        Chan.advance := by
  unfold Site.signalInstr
  obtain ⟨x, hx, he⟩ := carInstr_at h (p := fun w => carOpc w == 5 && cfield w 251 250 == 0) (by simp [ho, hto]) _
  refine ⟨x, hx, he.trans ?_⟩
  have hfull : x.queueFull (cfield w 249 248) = false := by
    obtain ⟨t, rfl, -, -⟩ := hx
    exact decide_eq_false (Nat.not_le.2 hf)
  dsimp only
  rw [hx.writesDone hq, hfull, hx.signalHandle, if_neg (by simp)]
  rfl

/-- A SIGNAL to a croft's queue whose TOKEN has a place (R237). -/
theorem signalToken_at (hto : cfield w 251 250 = 1) (hn : (chanOf (s.croft q) i).outst.length < 16)
    (hp : (s.site q).outstanding < 64) :
    ∃ x, ChanAt s q i (fetchedTo (chanOf (s.croft q) i) w) x ∧
      (s.site q).signalInstr i 1 = (x.request i { x.packet 0x06 (cfield w 208 194) 0 with
        plane := if cfield w 243 243 = 1 then .b else .a
        tclass := (chanOf (s.croft q) i).tclass
        opdata := BitVec.ofNat 96 ((signalOf s q i (fetchedTo (chanOf (s.croft q) i) w) w).toNat + cfield w 249 248 * 2 ^ 32) }
        0 0).modChan i Chan.advance := by
  unfold Site.signalInstr
  obtain ⟨x, hx, he⟩ := carInstr_at h (p := fun w => carOpc w == 5 && cfield w 251 250 == 1) (by simp [ho, hto]) _
  refine ⟨x, hx, he.trans ?_⟩
  have hplace : x.place i = true := by
    unfold Site.place
    rw [hx.outstanding rfl, hx.chan]
    exact Bool.and_eq_true_iff.2 ⟨decide_eq_true hn, decide_eq_true hp⟩
  dsimp only
  rw [hx.writesDone hq, hplace, hx.signalHandle, hx.chan, if_neg (by simp)]
  rfl

/-- A SIGNAL of an event bit (R237). -/
theorem signalFlag_at (hto : cfield w 251 250 = 2) : ∃ x, ChanAt s q i (fetchedTo (chanOf (s.croft q) i) w) x ∧
    (s.site q).signalInstr i 2 =
      (x.setReg Reg.carEvent (x.reg Reg.carEvent ||| BitVec.ofNat 64 (2 ^ cfield w 247 244))).modChan i Chan.advance := by
  unfold Site.signalInstr
  obtain ⟨x, hx, he⟩ := carInstr_at h (p := fun w => carOpc w == 5 && cfield w 251 250 == 2) (by simp [ho, hto]) _
  refine ⟨x, hx, he.trans ?_⟩
  dsimp only
  rw [hx.writesDone hq, if_neg (by simp)]
  rfl

end

theorem send_modChan (x : Site) (k : Packet) (i : Nat) (f : Chan → Chan) : (x.send k).modChan i f = (x.modChan i f).send k :=
    rfl

/-- A request of a channel goes out under its next TAG and is outstanding (R233). -/
theorem request_eq (x : Site) (i : Nat) (k : Packet) (dst len : Nat) : x.request i k dst len =
    (x.modChan i fun c => { c with
      seq := (c.seq + 1) % 8192
      outst := c.outst ++ [{ pkt := { k with tag := x.nextTag i, who := .carter x.q i }, dst, len }] }).send
      { k with tag := x.nextTag i, who := .carter x.q i } := by
  unfold Site.request Site.useTag
  dsimp only
  rw [send_modChan, modChan_modChan]

/-- A packet of channel i of croft q at v, under the channel's next TAG. -/
def taggedAs (q i : Nat) (v : Chan) (k : Packet) : Packet :=
  { k with tag := BitVec.ofNat 16 (i * 2 ^ 13 + v.seq % 8192), who := .carter q i }

/-- A channel with one more request outstanding. -/
def requesting (v : Chan) (p : Packet) : Chan :=
  { v with seq := (v.seq + 1) % 8192, outst := v.outst ++ [({ pkt := p } : Req)] }

/-- The TOKEN of a SIGNAL, and the channel past it (R237). -/
theorem request_advance {s : State} {q i : Nat} {v : Chan} {x : Site} (hx : ChanAt s q i v x) (k : Packet) :
    ∃ t, (∀ j, j ≠ i → Tab.get (fun _ => ({} : Chan)) t j = chanOf (s.croft q) j) ∧
      (x.request i k 0 0).modChan i Chan.advance =
        { siteAs s q { s.croft q with chans := Tab.set (fun _ => ({} : Chan)) t i (requesting v (taggedAs q i v k)).advance }
            with
          out := [taggedAs q i v k] } := by
  have hn : x.nextTag i = BitVec.ofNat 16 (i * 2 ^ 13 + v.seq % 8192) := by
    unfold Site.nextTag
    rw [hx.chan]
  rw [request_eq, send_modChan, modChan_modChan, hn]
  obtain ⟨t, rfl, hv, ht⟩ := hx
  refine ⟨t, ht, ?_⟩
  rw [← hv]
  rfl

/-- An END whose channel has no request outstanding (R237). -/
theorem endInstr_at {s : State} {q i : Nat} {w : W256} (h : CarterAt s q i w) (ho : carOpc w = 0)
    (hn : (chanOf (s.croft q) i).outst = []) : ∃ x, ChanAt s q i (fetchedTo (chanOf (s.croft q) i) w) x ∧
      (s.site q).endInstr i = x.modChan i fun c => { c with st := .done } := by
  unfold Site.endInstr
  obtain ⟨x, hx, he⟩ := carInstr_at h (p := fun w => carOpc w == 0) (by simp [ho]) fun x _ => x.endWait i
  refine ⟨x, hx, he.trans ?_⟩
  have hc : (x.chan i).st = .run ∧ (x.chan i).fetched ∧ carOpc (x.chan i).instr = 0 ∧ (x.chan i).outst.isEmpty := by
    rw [hx.chan]
    refine ⟨h.2.1, rfl, ho, ?_⟩
    show (chanOf (s.croft q) i).outst.isEmpty = true
    rw [hn]
    rfl
  exact congrArg (x.setChan i) (if_pos hc)

/-- A channel that halts with cause 4 (R230, R241, R247). -/
theorem haltChan_illegal {s : State} {q i : Nat} {v : Chan} {x : Site} (hx : ChanAt s q i v x) (hv : v.st = .run) (opc : Nat) :
    ∃ t, (∀ j, j ≠ i → Tab.get (fun _ => ({} : Chan)) t j = chanOf (s.croft q) j) ∧
      x.haltChan i 4 opc = { s.site q with
        c := { (if v.slot.isSome = true then
            { withBit (s.croft q) Reg.carFault 1 with seq := { (s.croft q).seq with st := .halted, held := .nothing, fault :=
                true } }
            else withBit (s.croft q) Reg.carFault 1) with
          chans := Tab.set (fun _ => ({} : Chan)) t i (draining v 4 false) }
        raised := [{ source := 41, loc := BitVec.ofNat 32 q, time := s.clock.now, syndrome := 0, opcode := carOpcode opc
                     tclass := some v.tclass }] } := by
  unfold Site.haltChan
  dsimp only
  rw [hx.chan, if_pos (.inl hv), if_pos rfl]
  obtain ⟨t, rfl, -, ht⟩ := hx
  refine ⟨t, ht, ?_⟩
  split <;> rfl

/-- Settles O24: each SIGNAL and END by its own lemma, and an illegal instruction by `haltChan_illegal`. -/
theorem carterSignalsEndsAndIllegals : Obligations.CarterSignalsEndsAndIllegals := by
  unfold Obligations.CarterSignalsEndsAndIllegals
  refine ⟨fun q i s w h => ⟨fun ho hto hq hf => ?_, fun ho hto hq hn hp => ?_, fun ho hto hq => ?_, fun ho hn => ?_⟩,
    fun q i s hl hst hm hf ht hc hill => ?_⟩
  · obtain ⟨x, hx, he⟩ := signalQueue_at h ho hq hto hf
    refine hx.left (f := fun x => x.signalInstr i 0) (he.trans ?_)
    obtain ⟨t, rfl, -, -⟩ := hx
    rfl
  · obtain ⟨x, hx, he⟩ := signalToken_at h ho hq hto hn hp
    obtain ⟨t, hte, he'⟩ := request_advance hx _
    obtain ⟨u, hu, hout, hch⟩ := chanTo_sent (f := fun x => x.signalInstr i 1) hte (he.trans he')
    refine ⟨u, _, hu, hout, rfl, ?_, ?_, rfl, rfl, ?_, rfl, hch⟩
    · show (BitVec.ofNat 16 (cfield w 208 194)).toNat = _
      rw [BitVec.toNat_ofNat]
      exact Nat.mod_eq_of_lt ((cfield_lt w 208 194).trans (by decide))
    · show (BitVec.ofNat 16 (i.val * 2 ^ 13 + (chanOf (s.croft q) i).seq % 8192)).toNat = _
      rw [BitVec.toNat_ofNat]
      have := i.isLt
      exact Nat.mod_eq_of_lt (by omega)
    · show (BitVec.ofNat 96 ((signalOf s q i (fetchedTo (chanOf (s.croft q) i) w) w).toNat + cfield w 249 248 * 2 ^ 32)).toNat =
        _
      rw [BitVec.toNat_ofNat]
      have h1 := (signalOf s q i (fetchedTo (chanOf (s.croft q) i) w) w).isLt
      have h2 := cfield_lt w 249 248
      exact Nat.mod_eq_of_lt (by omega)
  · obtain ⟨x, hx, he⟩ := signalFlag_at h ho hq hto
    refine hx.left (f := fun x => x.signalInstr i 2) (he.trans ?_)
    obtain ⟨t, rfl, -, -⟩ := hx
    rfl
  · obtain ⟨x, hx, he⟩ := endInstr_at h ho hn
    refine hx.left (f := fun x => x.endInstr i) (g := fun c => { c with st := .done }) (he.trans ?_)
    obtain ⟨t, rfl, -, -⟩ := hx
    rfl
  · have hlive : (s.site q).live = true := hl
    have hi : (s.site q).instrIllegal i = true := by
      unfold Site.instrIllegal
      dsimp only
      rw [Bool.or_eq_true, Bool.or_eq_true]
      rcases hill with h | h | ⟨h, h'⟩
      · exact .inl (.inl (decide_eq_true h))
      · exact .inl (.inr (by rw [h]; rfl))
      · exact .inr (by rw [h]; exact h')
    have hg : ¬ (!(s.site q).live || ((s.site q).chan i).st != .run || ((s.site q).chan i).moving.isSome ||
        ((s.site q).chan i).fetched ||
        !(s.site q).instrIllegal i) = true := by
      rw [hlive, hi, State.site_chan, hst, hm, hf]
      decide
    by_cases hp : 65536 ≤ (chanOf (s.croft q) i).pc
    · simp only [if_pos hp]
      obtain ⟨t, hte, he⟩ := haltChan_illegal (ChanAt.here s q i) hst 0
      refine chanTo_raised (f := fun x => x.carIllegal i) hte (Eq.trans ?_ he)
      unfold Site.carIllegal
      dsimp only
      rw [if_neg hg, State.site_chan, if_pos hp]
    · simp only [if_neg hp]
      have he : (s.site q).carIllegal i = ((s.site q).setChan i
          (fetchedTo (chanOf (s.croft q) i) ((s.site q).carPeek i))).haltChan i 4
          (carOpc ((s.site q).carPeek i)) := by
        unfold Site.carIllegal
        dsimp only
        rw [if_neg hg, if_neg (by rw [State.site_chan]; exact hp), Site.carFetch_clean (s.site q) i hc ht]
        rfl
      generalize (s.site q).carPeek i = w at he ⊢
      have hx : ChanAt s q i (fetchedTo (chanOf (s.croft q) i) w) ((s.site q).setChan i (fetchedTo (chanOf (s.croft q) i) w)) :=
        ⟨_, rfl, Tab.get_set_same (fun _ => ({} : Chan)) _ _ _, fun j hj => Tab.get_set_ne (fun _ => ({} : Chan)) _ _ hj⟩
      obtain ⟨t, hte, he'⟩ := haltChan_illegal hx hst (carOpc w)
      exact chanTo_raised (f := fun x => x.carIllegal i) hte (he.trans he')

end Sys2Proof.Machine

namespace Sys2Proof.Machine
open Sys2Proof.Safety

/-! ### What a transfer reads -/

/-- Output byte p of a transfer, from the bytes of a memory (R238, R239). -/
def outOf (m : Moving) (M : Memory) (p : Nat) : Byte := m.outByte p ((m.sources p).map (Memory.byte M))

theorem region_scratch {a : Nat} (h : a < 0x200000) : Site.region a = .scratch := if_pos h

theorem unitOf_scratch {a : Nat} (h : a < 0x200000) : Site.unitOf a = a / 32 * 32 := by
  unfold Site.unitOf
  rw [region_scratch h]
  rfl

/-- Reads of clean codewords of the scratchpad give their bytes and change nothing. -/
theorem readUnits_clean (x : Site) (hc : ∀ cw, eccAt x.c cw = .clean) (opc : Nat) (cls : Bool) (known : List (Nat × List Byte))
    (us : List Nat) (hu : ∀ u ∈ us, u + 32 ≤ 0x200000) :
    x.readUnits opc cls known us = (x, us.map fun u => (u, Memory.read x.c.mem u 32), false) := by
  induction us with
  | nil => rfl
  | cons u us ih =>
    have h := hu u List.mem_cons_self
    rw [Site.readUnits, region_scratch (by omega), if_neg (by decide), readBytes_clean x hc h]
    dsimp only
    rw [ih fun v hv => hu v (List.mem_cons_of_mem _ hv)]
    rfl

theorem find_unit (f : Nat → List Byte) (us : List Nat) {u : Nat} (h : u ∈ us) :
    (us.map fun u => (u, f u)).find? (fun e => e.1 = u) = some (u, f u) := by
  induction us with
  | nil => cases h
  | cons v us ih =>
    rw [List.map_cons, List.find?_cons]
    by_cases hv : v = u
    · subst hv
      simp
    · rw [show decide ((v, f v).1 = u) = false from decide_eq_false hv]
      exact ih ((List.mem_cons.1 h).resolve_left (Ne.symm hv))

/-- A piece's bytes, read from clean codewords of the scratchpad. -/
theorem gatherOut_clean (x : Site) (hc : ∀ cw, eccAt x.c cw = .clean) (m : Moving) (p n opc : Nat)
    (hs : ∀ k < n, ∀ a ∈ m.sources (p + k), a < 0x200000) :
    x.gatherOut m p n opc = (x, (List.range n).map fun k => outOf m x.c.mem (p + k), false, m.readRegs) := by
  have hmem (u : Nat) : u ∈ ((((List.range n).map fun k => m.sources (p + k)).flatten.map Site.unitOf).dedup) ↔
      ∃ k < n, ∃ a ∈ m.sources (p + k), Site.unitOf a = u := by
    simp only [List.mem_dedup, List.mem_map, List.mem_flatten, List.mem_range]
    constructor
    · rintro ⟨a, ⟨l, ⟨k, hk, rfl⟩, ha⟩, rfl⟩
      exact ⟨k, hk, a, ha, rfl⟩
    · rintro ⟨k, hk, a, ha, rfl⟩
      exact ⟨a, ⟨_, ⟨k, hk, rfl⟩, ha⟩, rfl⟩
  have hu : ∀ u ∈ ((((List.range n).map fun k => m.sources (p + k)).flatten.map Site.unitOf).dedup), u + 32 ≤ 0x200000 := by
    intro u h
    obtain ⟨k, hk, a, ha, rfl⟩ := (hmem u).1 h
    have := hs k hk a ha
    rw [unitOf_scratch this]
    omega
  unfold Site.gatherOut
  dsimp only
  rw [readUnits_clean x hc opc m.tclass m.readRegs _ hu]
  dsimp only
  refine Prod.ext rfl (Prod.ext ?_ (Prod.ext rfl ?_))
  · refine List.map_congr_left fun k hk => ?_
    have hk := List.mem_range.1 hk
    have hget : ((List.range n).map fun k => m.sources (p + k)).getD k [] = m.sources (p + k) := by
      rw [List.getD_eq_getElem _ _ (by simpa using hk), List.getElem_map, List.getElem_range]
    rw [hget]
    unfold outOf
    congr 1
    refine List.map_congr_left fun a ha => ?_
    have hlt := hs k hk a ha
    rw [find_unit (fun u => Memory.read x.c.mem u 32) _ ((hmem _).2 ⟨k, hk, a, ha, rfl⟩)]
    dsimp only
    rw [unitOf_scratch hlt, Memory.getD_read _ _ _ _ (by omega)]
    congr 1
    omega
  · rw [List.filter_eq_nil_iff.2, List.append_nil]
    intro e he
    obtain ⟨u, hum, rfl⟩ := List.mem_map.1 he
    have := hu u hum
    simp [region_scratch (show u < 0x200000 by omega)]

/-! ### The start of a transfer and the end of its pieces -/

theorem ChanAt.mod {s : State} {q i : Nat} {v : Chan} {x : Site} (hx : ChanAt s q i v x) (g : Chan → Chan) :
    ChanAt s q i (g v) (x.modChan i g) := by
  obtain ⟨t, rfl, hv, ht⟩ := hx
  refine ⟨Tab.set (fun _ => ({} : Chan)) t i (g v), ?_, Tab.get_set_same _ _ _ _, fun j hj => (Tab.get_set_ne _ _ _ hj).trans (ht j hj)⟩
  rw [← hv]
  rfl

/-- A channel as its transfer m begins. -/
def carrying (v : Chan) (m : Moving) : Chan := { v with tclass := m.tclass, moving := some m }

/-- A transfer that its targets allow begins (R230 to R239). -/
theorem moveCmd_at {s : State} {q i : Nat} {w : W256} (h : CarterAt s q i w) (far : Far) (rs : Nat)
    (ho : carOpc w = if rs = 0 then 1 else 2) (hrs : rs = 0 ∨ cfield w 120 117 = rs)
    (hm : Site.moveRefused (Site.moveOf (fetchedTo (chanOf (s.croft q) i) w) w) = 0) :
    ∃ x, ChanAt s q i (carrying (fetchedTo (chanOf (s.croft q) i) w) (Site.moveOf (fetchedTo (chanOf (s.croft q) i) w) w)) x ∧
      (s.site q).moveCmd far i rs = x.pump far i (carOpc w) ((Site.moveOf (fetchedTo (chanOf (s.croft q) i) w) w).len + 2) := by
  have hn : ((s.site q).chan i).moving = none := h.2.2.1
  have hp : ((carOpc w == if rs = 0 then 1 else 2) && (rs == 0 || cfield w 120 117 == rs)) = true := by
    rw [ho]
    rcases hrs with rfl | hr
    · rfl
    · simp [hr]
  obtain ⟨x, hx, he⟩ := carInstr_at h (p := fun w => (carOpc w == if rs = 0 then 1 else 2) && (rs == 0 || cfield w 120 117 == rs)) hp
    fun x w => x.beginMove far i w
  generalize hmo : Site.moveOf (fetchedTo (chanOf (s.croft q) i) w) w = m at hm ⊢
  refine ⟨_, hx.mod fun c => carrying c m, ?_⟩
  unfold Site.moveCmd
  dsimp only
  rw [hn]
  refine he.trans ?_
  unfold Site.beginMove
  dsimp only
  rw [hx.chan, hmo, hm, modChan_modChan]
  rfl

/-- A transfer of one piece ends with it. -/
theorem pump_one {x y : Site} {far : Far} {i opc fuel : Nat} {m m' : Moving} (hm : (x.chan i).moving = some m)
    (hf : m.failed = none)
    (hn : m.next < m.len) (hp : x.movePiece far i m opc = some y) (hm' : (y.chan i).moving = some m') (hf' : m'.failed = none)
    (hn' : m'.len ≤ m'.next) : x.pump far i opc (fuel + 2) = y.modChan i Chan.advance := by
  rw [Site.pump, hm]
  dsimp only
  rw [hf, if_neg (by decide), if_neg (Nat.not_le.2 hn), hp]
  dsimp only
  rw [Site.pump, hm']
  dsimp only
  rw [hf', if_neg (by decide), if_pos hn']

/-- A transfer that goes on past a piece (R234). -/
def pieceDone (m : Moving) (n : Nat) : Moving := { m with next := m.next + n, packets := m.packets + 1, tries := 0, failed := none }

theorem moved_running (x : Site) (i : Nat) (m : Moving) (n done : Nat) (hs : (x.chan i).st = .run)
    (hm : (x.chan i).moving.isSome) :
    x.moved i m n done = x.modChan i fun c => { c with bytes := c.bytes + done, moving := some (pieceDone m n) } := by
  have hs' : ((x.chan i).st != .free) = true := by rw [hs]; rfl
  unfold Site.moved Site.modChan
  dsimp only
  rw [hs', if_pos rfl, if_pos ⟨hs, hm⟩]
  rfl

theorem clashes_quiet (x : Site) (far : Far) (i : Nat) (m : Moving) (off n : Nat) (h : (x.chan i).outst = []) :
    x.clashes far i m off n = false := by
  unfold Site.clashes
  rw [h]
  rfl

/-! ### The fields of a transfer -/

theorem foldl_max_zero {l : List Nat} (h : l.foldl max 0 = 0) : ∀ n ∈ l, n = 0 := by
  have key (l : List Nat) (a : Nat) (h : l.foldl max a = 0) : a = 0 ∧ ∀ n ∈ l, n = 0 := by
    induction l generalizing a with
    | nil => exact ⟨h, fun n hn => by cases hn⟩
    | cons b l ih =>
      obtain ⟨h1, h2⟩ := ih (max a b) h
      exact ⟨by omega, fun n hn => (List.mem_cons.1 hn).elim (fun e => by omega) (h2 n)⟩
  exact (key l 0 h).2

theorem regionEnd_le (a : Nat) : Site.regionEnd a ≤ 0x0F005000 ∨ Site.region a = .none := by
  unfold Site.regionEnd
  cases Site.region a <;> simp

/-- A local range that may be moved ends below 2 ^ 32. -/
theorem localRange_end {a n : Nat} (h : Site.localRange a n = 0) : a + n ≤ 0x0F005000 := by
  unfold Site.localRange at h
  by_cases hi : Site.inRegion a n = true
  · unfold Site.inRegion at hi
    rw [Bool.and_eq_true] at hi
    have h2 := of_decide_eq_true hi.2
    rcases regionEnd_le a with hr | hr
    · omega
    · rw [hr] at hi
      exact absurd hi.1 (by decide)
  · rw [if_pos (by simpa using hi)] at h
    cases h

/-- The contiguous ranges of a transfer that is not refused end below 2 ^ 32. -/
theorem ranges_end {m : Moving} (h : Site.moveRefused m = 0) :
    (m.srcWin = false → ∀ r ∈ m.ranges false, r.1 + r.2 ≤ 0x0F005000) ∧
        (m.dst = 0 → ∀ r ∈ m.ranges true, r.1 + r.2 ≤ 0x0F005000) := by
  have hz := foldl_max_zero h
  refine ⟨fun hs r hr => localRange_end (hz _ (List.mem_append_left _ ?_)), fun hd r hr => localRange_end (hz _ (List.mem_append_right _ ?_))⟩
  · rw [hs]
    exact List.mem_map_of_mem hr
  · rw [if_pos hd]
    exact List.mem_map_of_mem hr

theorem read_eq_map (M : Memory) (a n : Nat) : (List.range n).map (fun k => Memory.byte M (a + k)) = Memory.read M a n := by
  induction n generalizing a with
  | zero => rfl
  | succ n ih =>
    rw [List.range_succ_eq_map, List.map_cons, List.map_map, Memory.read, ← ih (a + 1), Nat.add_zero]
    congr 1
    refine List.map_congr_left fun k _ => ?_
    show Memory.byte M (a + (k + 1)) = _
    congr 1
    omega

/-- The instruction is a MOVE. -/
theorem moveOf_move {v : Chan} {w : W256} (ho : carOpc w = 1) : (Site.moveOf v w).rsOp = 0 := by
  unfold Site.moveOf
  dsimp only
  rw [ho]
  rfl

theorem moveOf_next (v : Chan) (w : W256) : (Site.moveOf v w).next = 0 ∧ (Site.moveOf v w).failed = none ∧
    (Site.moveOf v w).readRegs = [] ∧ 0 < (Site.moveOf v w).len := ⟨rfl, rfl, rfl, Nat.succ_pos _⟩

theorem moveOf_offsets (v : Chan) (w : W256) : (Site.moveOf v w).srcOff < 2 ^ 32 ∧ (Site.moveOf v w).dstOff < 2 ^ 32 := by
  have hl (off : Nat) (d : Bool) : v.loopOffset off d < 2 ^ 32 := Nat.mod_lt _ (by decide)
  unfold Site.moveOf
  dsimp only
  constructor
  · split
    · exact hl _ _
    · exact Nat.mod_lt _ (by decide)
  · split
    · exact Nat.mod_lt _ (by decide)
    · exact hl _ _

theorem sources_move {m : Moving} (h : m.rsOp = 0) (p : Nat) : m.sources p = [(m.srcOff + p) % 2 ^ 32] := by
  unfold Moving.sources
  rw [h]
  rfl

theorem outOf_move {m : Moving} (h : m.rsOp = 0) (M : Memory) (p : Nat) : outOf m M p = Memory.byte M ((m.srcOff + p) % 2 ^ 32)
    := by
  unfold outOf Moving.outByte
  rw [sources_move h, h]
  rfl

theorem dstAt_move {m : Moving} (h : m.rsOp = 0) (p : Nat) : m.dstAt p = (m.dstOff + p) % 2 ^ 32 := by
  unfold Moving.dstAt
  rw [h]
  rfl

/-- The bytes of a MOVE that a range holds. -/
theorem read_move {m : Moving} (h : m.rsOp = 0) (ho : m.srcOff < 2 ^ 32) (hs : m.srcWin = false) (hm : Site.moveRefused m = 0)
    (M : Memory) : ((List.range m.len).map fun k => outOf m M (0 + k)) = Memory.read M m.srcOff m.len := by
  have hr : (m.srcOff % 2 ^ 32, m.len) ∈ m.ranges false := by
    unfold Moving.ranges
    dsimp only
    rw [h]
    exact List.mem_singleton.2 rfl
  have he := (ranges_end hm).1 hs _ hr
  dsimp only at he
  rw [← read_eq_map]
  refine List.map_congr_left fun k hk => ?_
  have hk := List.mem_range.1 hk
  rw [outOf_move h]
  congr 1
  omega

/-- A piece that leaves as a packet, the channel at F beside its transfer. -/
theorem sent_piece {s : State} {q i : Nat} {v : Chan} {x : Site} {m : Moving} (hx : ChanAt s q i (carrying v m) x)
    (F : Chan → Chan)
    (hs : (F (carrying v m)).st = .run) (hm : (F (carrying v m)).moving = some m) (p : Packet) (n : Nat) :
    ((((x.modChan i F).send p).moved i m n 0).chan i).moving = some (pieceDone m n) ∧
    ∃ t, (∀ j, j ≠ i → Tab.get (fun _ => ({} : Chan)) t j = chanOf (s.croft q) j) ∧
      (((x.modChan i F).send p).moved i m n 0).modChan i Chan.advance =
        { siteAs s q { s.croft q with chans := Tab.set (fun _ => ({} : Chan)) t i (F (carrying v m)).advance } with out := [p] }
            := by
  have hc : ((x.modChan i F).send p).chan i = F (carrying v m) := (hx.mod F).chan
  rw [moved_running _ _ _ _ _ (by rw [hc]; exact hs) (by rw [hc, hm]; rfl)]
  rw [send_modChan, modChan_modChan, send_modChan, modChan_modChan]
  refine ⟨?_, ?_⟩
  · rw [Site.chan_send, (hx.mod _).chan]
  obtain ⟨t, rfl, hv, ht⟩ := hx
  refine ⟨t, ht, ?_⟩
  rw [← hv]
  rfl

/-- A channel with its only request outstanding. -/
def asking (v : Chan) (m : Moving) (p : Packet) (dst n : Nat) : Chan :=
  { v with tclass := m.tclass, seq := (v.seq + 1) % 8192, outst := [{ pkt := p, dst, len := n }] }

section
variable {s : State} {q i : Nat} {v : Chan} {x : Site} {m : Moving}
  (hx : ChanAt s q i (carrying v m) x) (hv : v.st = .run) (ho : v.outst = []) (hp : (s.site q).outstanding < 64)
  (hq : (chanOf (s.croft q) i).outst = [])
include hx ho

section
include hv

/-- The request of a transfer's only piece goes out and the channel goes on (R233, R234). -/
theorem request_piece (k : Packet) (dst n : Nat) :
    (((x.request i k dst n).moved i m n 0).chan i).moving = some (pieceDone m n) ∧
    ∃ t, (∀ j, j ≠ i → Tab.get (fun _ => ({} : Chan)) t j = chanOf (s.croft q) j) ∧
      ((x.request i k dst n).moved i m n 0).modChan i Chan.advance =
        { siteAs s q { s.croft q with chans := Tab.set (fun _ => ({} : Chan)) t i (asking v m (taggedAs q i v k) dst n).advance
            } with
          out := [taggedAs q i v k] } := by
  have hnt : x.nextTag i = BitVec.ofNat 16 (i * 2 ^ 13 + v.seq % 8192) := by
    unfold Site.nextTag
    rw [hx.chan]
    rfl
  have hxq : x.q = q := by
    obtain ⟨t, rfl, -, -⟩ := hx
    rfl
  rw [request_eq, hnt, hxq]
  obtain ⟨h1, t, ht, he⟩ := sent_piece hx (fun c => { c with
      seq := (c.seq + 1) % 8192
      outst := c.outst ++ [{ pkt := taggedAs q i v k, dst, len := n }] }) hv rfl (taggedAs q i v k) n
  refine ⟨h1, t, ht, he.trans ?_⟩
  have hl : (carrying v m).outst = [] := ho
  dsimp only
  rw [hl]
  rfl

end

include hp hq

/-- A carter with a channel that has nothing outstanding has a place for its request (R233). -/
theorem place_quiet : x.place i = true := by
  unfold Site.place
  rw [hx.outstanding (ho.trans hq.symm), hx.chan]
  exact Bool.and_eq_true_iff.2 ⟨decide_eq_true (by rw [show (carrying v m).outst = [] from ho]; decide), decide_eq_true hp⟩

end

/-- The packet of a MOVE from a window (R232). -/
def readPacket (x : Site) (m : Moving) : Packet :=
  { x.packet 0x02 (bitsOf m.grant.toNat 26 12) 0 with
    plane := m.planeOf, tclass := m.tclass, window := BitVec.ofNat 4 (bitsOf m.grant.toNat 11 8)
    gen := BitVec.ofNat 8 (bitsOf m.grant.toNat 7 0), offset := BitVec.ofNat 32 m.srcOff, length := BitVec.ofNat 13 m.len }

/-- The only piece of a MOVE from a window (R232, R234). -/
theorem movePiece_read {x : Site} {far : Far} {i opc : Nat} {m : Moving} (hq : (x.chan i).outst = []) (hp : x.place i = true)
    (hr : m.rsOp = 0) (hn : m.next = 0) (hw : m.srcWin = true) (hs : m.srcOff < 2 ^ 32) (hd : m.dstOff < 2 ^ 32)
    (hl : m.srcOff % 4096 + m.len ≤ 4096) :
    x.movePiece far i m opc = some ((x.request i (readPacket x m) m.dstOff m.len).moved i m m.len 0) := by
  have h1 : (m.srcOff + 0) % 2 ^ 32 = m.srcOff := Nat.mod_eq_of_lt hs
  have h2 : m.dstAt 0 = m.dstOff := (dstAt_move hr 0).trans (Nat.mod_eq_of_lt hd)
  have h3 : min (m.len - 0) (4096 - m.srcOff % 4096) = m.len := by omega
  unfold Site.movePiece
  dsimp only
  rw [if_pos hw, hn, h1, h2, h3, clashes_quiet _ _ _ _ _ _ hq, hp, if_neg (by decide)]
  rfl

/-- The only piece of a MOVE of bytes of the scratchpad to a window or a register (R232, R234). -/
theorem movePiece_write {x : Site} {far : Far} {i opc : Nat} {m : Moving} (hq : (x.chan i).outst = []) (hp : x.place i = true)
    (hr : m.rsOp = 0) (hn : m.next = 0) (hw : m.srcWin = false) (hd : m.dstOff < 2 ^ 32) (hk : m.dst = 1 ∨ m.dst = 3)
    (hl : m.dst = 1 → m.dstOff % 512 + m.len ≤ 512) (hl' : m.dst = 3 → m.dstOff % 4 = 0 ∧ m.len = 4)
    (hc : ∀ cw, eccAt x.c cw = .clean) (hs : ∀ p < m.len, ∀ a ∈ m.sources p, a < 0x200000) :
    x.movePiece far i m opc = some ((x.request i
      (x.piecePacket m m.dstOff m.len ((List.range m.len).map fun k => outOf m x.c.mem (m.next + k))) 0 m.len).moved i m m.len
          0) := by
  have h2 : m.dstAt m.next = m.dstOff := by rw [hn]; exact (dstAt_move hr 0).trans (Nat.mod_eq_of_lt hd)
  have h3 : m.pieceLen (if m.dst = 3 then 4 else 512) = m.len := by
    unfold Moving.pieceLen
    dsimp only
    rw [h2, hr, hn, if_neg (by decide)]
    rcases hk with h | h
    · have := hl h
      rw [h, if_neg (by decide)]
      omega
    · have := hl' h
      rw [h, if_pos rfl]
      omega
  have h0 : ¬ m.dst = 0 := by omega
  have h2' : ¬ m.dst = 2 := by omega
  unfold Site.movePiece
  dsimp only
  rw [if_neg (by rw [hw]; decide), if_neg h0, h2, h3, clashes_quiet _ _ _ _ _ _ hq, hp, if_neg (by simp),
    gatherOut_clean x hc m m.next m.len opc fun k hk a ha => hs k hk a (by rwa [hn, Nat.zero_add] at ha)]
  dsimp only
  rw [if_neg (by decide), if_neg h0, if_neg h2']

theorem piecePacket_cast (x : Site) {m : Moving} (h : m.dst = 2) (off n : Nat) (bs : List Byte) : x.piecePacket m off n bs =
    { x.packet 0x01 0xFFFF 2 with
      plane := .b, tclass := m.tclass, mgroup := BitVec.ofNat 8 m.mgroup, window := BitVec.ofNat 4 m.mwin
      gen := BitVec.ofNat 8 m.mgen, offset := BitVec.ofNat 32 off, length := BitVec.ofNat 13 n, payload := bs } := by
  unfold Site.piecePacket
  rw [h]
  rfl

/-- The packet of a multicast MOVE (R233). -/
def castPacket (x : Site) (m : Moving) (i : Nat) (bs : List Byte) : Packet :=
  { x.packet 0x01 0xFFFF 2 with
    plane := .b, tclass := m.tclass, mgroup := BitVec.ofNat 8 m.mgroup, window := BitVec.ofNat 4 m.mwin
    gen := BitVec.ofNat 8 m.mgen, offset := BitVec.ofNat 32 m.dstOff, length := BitVec.ofNat 13 m.len, payload := bs
    tag := x.nextTag i, who := .castCarter x.q i (x.chan i).gen }

/-- The only piece of a multicast MOVE (R233). -/
theorem movePiece_cast {x : Site} {far : Far} {i opc : Nat} {m : Moving} (hq : (x.chan i).outst = [])
    (hr : m.rsOp = 0) (hn : m.next = 0) (hw : m.srcWin = false) (hd : m.dstOff < 2 ^ 32) (hk : m.dst = 2)
    (hl : m.dstOff % 512 + m.len ≤ 512)
    (hc : ∀ cw, eccAt x.c cw = .clean) (hs : ∀ p < m.len, ∀ a ∈ m.sources p, a < 0x200000) :
    x.movePiece far i m opc = some (((x.modChan i fun c => { c with seq := (c.seq + 1) % 8192 }).send
      (castPacket x m i ((List.range m.len).map fun k => outOf m x.c.mem (m.next + k)))).moved i m m.len 0) := by
  have h2 : m.dstAt m.next = m.dstOff := by rw [hn]; exact (dstAt_move hr 0).trans (Nat.mod_eq_of_lt hd)
  have h3 : m.pieceLen 512 = m.len := by
    unfold Moving.pieceLen
    dsimp only
    rw [h2, hr, hn, if_neg (by decide)]
    omega
  have h0 : ¬ m.dst = 0 := by omega
  have h3' : ¬ m.dst = 3 := by omega
  have hf : ¬ ((decide (m.dst = 1 ∨ m.dst = 3) && !x.place i) || x.clashes far i m m.dstOff m.len) = true := by
    rw [clashes_quiet _ _ _ _ _ _ hq, hk]
    simp
  unfold Site.movePiece
  dsimp only
  rw [if_neg (by rw [hw]; decide), if_neg h0, if_neg h3', h2, h3, if_neg hf,
    gatherOut_clean x hc m m.next m.len opc fun k hk a ha => hs k hk a (by rwa [hn, Nat.zero_add] at ha)]
  dsimp only
  rw [if_neg (by decide), if_neg h0, if_pos hk]
  exact congrArg (fun p : Packet => some (((x.modChan i fun c => { c with seq := (c.seq + 1) % 8192 }).send
    { p with tag := x.nextTag i, who := .castCarter x.q i (x.chan i).gen }).moved i m m.len 0)) (piecePacket_cast x hk _ _ _)

theorem piecePacket_window (x : Site) {m : Moving} (h : m.dst = 1) (off n : Nat) (bs : List Byte) : x.piecePacket m off n bs =
    { x.packet 0x01 (bitsOf m.grant.toNat 26 12) 0 with
      plane := m.planeOf, tclass := m.tclass, window := BitVec.ofNat 4 (bitsOf m.grant.toNat 11 8)
      gen := BitVec.ofNat 8 (bitsOf m.grant.toNat 7 0), offset := BitVec.ofNat 32 off, length := BitVec.ofNat 13 n, payload :=
          bs } := by
  unfold Site.piecePacket
  rw [h]
  rfl

theorem piecePacket_register (x : Site) {m : Moving} (h : m.dst = 3) (off n : Nat) (bs : List Byte) : x.piecePacket m off n bs =
    { x.packet 0x12 m.ep 3 with
      plane := m.planeOf, tclass := m.tclass, offset := BitVec.ofNat 32 off, opdata := BitVec.ofNat 96 (ofLe bs) } := by
  unfold Site.piecePacket
  rw [h]
  rfl

theorem toNat_ofNat_of_lt {n k : Nat} (h : n < 2 ^ k) : (BitVec.ofNat k n).toNat = n := by
  rw [BitVec.toNat_ofNat]
  exact Nat.mod_eq_of_lt h

theorem ofLe_lt (bs : List Byte) : ofLe bs < 256 ^ bs.length := by
  induction bs with
  | nil => decide
  | cons b bs ih =>
    have := b.isLt
    rw [ofLe, List.length_cons, pow_succ]
    omega

theorem tag_lt (i : Chn) (n : Nat) : i.val * 2 ^ 13 + n % 8192 < 2 ^ 16 := by
  have := i.isLt
  omega

/-- Settles O26: the only piece of a transfer that fits one request leaves as its packet, and the channel goes on. -/
theorem carterMovesSendPackets : Obligations.CarterMovesSendPackets := by
  unfold Obligations.CarterMovesSendPackets
  intro q i s w h ho
  obtain ⟨hsrc, hdst⟩ := moveOf_offsets (fetchedTo (chanOf (s.croft q) i) w) w
  have hr := moveOf_move (v := fetchedTo (chanOf (s.croft q) i) w) ho
  have hnext : (Site.moveOf (fetchedTo (chanOf (s.croft q) i) w) w).next = 0 := rfl
  have hfail : (Site.moveOf (fetchedTo (chanOf (s.croft q) i) w) w).failed = none := rfl
  have hlen : 0 < (Site.moveOf (fetchedTo (chanOf (s.croft q) i) w) w).len := Nat.succ_pos _
  have hep : (Site.moveOf (fetchedTo (chanOf (s.croft q) i) w) w).ep < 2 ^ 16 := cfield_lt w 156 141
  have hmg : (Site.moveOf (fetchedTo (chanOf (s.croft q) i) w) w).mgroup < 2 ^ 8 := cfield_lt w 140 133
  have hmw : (Site.moveOf (fetchedTo (chanOf (s.croft q) i) w) w).mwin < 2 ^ 4 := cfield_lt w 132 129
  have hme : (Site.moveOf (fetchedTo (chanOf (s.croft q) i) w) w).mgen < 2 ^ 8 := cfield_lt w 128 121
  have hb := moveCmd_at h (s.far q) 0 ho (.inl rfl)
  intro c v m hmov hout
  obtain ⟨hq, hclean, href, hscr, -⟩ := hmov
  obtain ⟨x, hx, hmove⟩ := hb href
  have hvst : v.st = .run := h.2.1
  have hm : Site.moveOf (fetchedTo (chanOf (s.croft q) i) w) w = m := rfl
  have hv : fetchedTo (chanOf (s.croft q) i) w = v := rfl
  rw [hm] at hsrc hdst hr hnext hfail hlen hep hmg hmw hme hx hmove
  rw [hv] at hx
  have hvo : v.outst = [] := hq
  clear hm hv
  clear_value m v
  have hg1 := bitsOf_lt m.grant.toNat 26 12
  have hg2 := bitsOf_lt m.grant.toNat 11 8
  have hg3 := bitsOf_lt m.grant.toNat 7 0
  have hxo : (x.chan i).outst = [] := by rw [hx.chan]; exact hvo
  have hxm : (x.chan i).moving = some m := by rw [hx.chan]; rfl
  have hpl := place_quiet hx hvo hout hq
  have hxc : ∀ cw, eccAt x.c cw = .clean := by
    obtain ⟨t, rfl, -, -⟩ := hx
    exact hclean
  have hmem : x.c.mem = c.mem := by
    obtain ⟨t, rfl, -, -⟩ := hx
    rfl
  have hone {y : Site} (hp : x.movePiece (s.far q) i m (carOpc w) = some y) (hy : (y.chan i).moving = some (pieceDone m m.len)) :
      (s.site q).moveCmd (s.far q) i 0 = y.modChan i Chan.advance :=
    hmove.trans (pump_one hxm hfail (by rw [hnext]; exact hlen) hp hy rfl (Nat.le_add_left _ _))
  have hread (hw : m.srcWin = false) : ((List.range m.len).map fun k => outOf m x.c.mem (m.next + k)) = Memory.read c.mem m.srcOff m.len := by
    rw [hnext, hmem]
    exact read_move hr hsrc hw href c.mem
  refine ⟨fun hw hl => ?_, fun hw hd hl => ?_, fun hw hd hl => ?_, fun hw hd hl hl4 => ?_⟩
  · obtain ⟨hy, t, ht, he⟩ := request_piece hx hvst hvo (readPacket x m) m.dstOff m.len
    obtain ⟨u, hu, hou, hch⟩ := chanTo_sent (f := fun x => x.moveCmd (s.far q) i 0) ht
      ((hone (movePiece_read hxo hpl hr hnext hw hsrc hdst hl) hy).trans he)
    exact ⟨u, taggedAs q i v (readPacket x m), hu, hou, rfl, toNat_ofNat_of_lt (by omega), toNat_ofNat_of_lt hg2,
        toNat_ofNat_of_lt hg3,
      toNat_ofNat_of_lt hsrc, toNat_ofNat_of_lt (by omega), toNat_ofNat_of_lt (tag_lt i _), rfl, hch⟩
  · obtain ⟨hy, t, ht, he⟩ := request_piece hx hvst hvo
      (x.piecePacket m m.dstOff m.len ((List.range m.len).map fun k => outOf m x.c.mem (m.next + k))) 0 m.len
    obtain ⟨u, hu, hou, hch⟩ := chanTo_sent (f := fun x => x.moveCmd (s.far q) i 0) ht
      ((hone (movePiece_write hxo hpl hr hnext hw hdst (.inl hd) (fun _ => hl) (fun h => absurd (hd.symm.trans h) (by decide))
          hxc
        (hscr hw)) hy).trans he)
    refine ⟨u, _, hu, hou, ?_⟩
    rw [hread hw, piecePacket_window x hd] at hch ⊢
    exact ⟨rfl, rfl, toNat_ofNat_of_lt (by omega), toNat_ofNat_of_lt hg2, toNat_ofNat_of_lt hg3,
      toNat_ofNat_of_lt hdst, toNat_ofNat_of_lt (by omega), rfl, toNat_ofNat_of_lt (tag_lt i _), rfl, hch⟩
  · obtain ⟨hy, t, ht, he⟩ := sent_piece hx (fun c => { c with seq := (c.seq + 1) % 8192 }) hvst rfl
      (castPacket x m i ((List.range m.len).map fun k => outOf m x.c.mem (m.next + k))) m.len
    obtain ⟨u, hu, hou, hch⟩ := chanTo_sent (f := fun x => x.moveCmd (s.far q) i 0) ht
      ((hone (movePiece_cast hxo hr hnext hw hdst hd hl hxc (hscr hw)) hy).trans he)
    refine ⟨u, _, hu, hou, ?_⟩
    rw [hread hw]
    refine ⟨rfl, rfl, toNat_ofNat_of_lt hmg, toNat_ofNat_of_lt hmw, toNat_ofNat_of_lt hme, toNat_ofNat_of_lt hdst,
      toNat_ofNat_of_lt (by omega), rfl, rfl, ?_, ?_, hch⟩
    · show Requester.castCarter x.q i (x.chan i).gen = _
      rw [hx.chan]
      obtain ⟨t, rfl, -, -⟩ := hx
      rfl
    · show (x.nextTag i).toNat = _
      unfold Site.nextTag
      rw [hx.chan]
      exact toNat_ofNat_of_lt (tag_lt i _)
  · obtain ⟨hy, t, ht, he⟩ := request_piece hx hvst hvo
      (x.piecePacket m m.dstOff m.len ((List.range m.len).map fun k => outOf m x.c.mem (m.next + k))) 0 m.len
    obtain ⟨u, hu, hou, hch⟩ := chanTo_sent (f := fun x => x.moveCmd (s.far q) i 0) ht
      ((hone (movePiece_write hxo hpl hr hnext hw hdst (.inr hd) (fun h => absurd (hd.symm.trans h) (by decide))
          (fun _ => ⟨hl, hl4⟩) hxc
        (hscr hw)) hy).trans he)
    refine ⟨u, _, hu, hou, ?_⟩
    have hlt := ofLe_lt (Memory.read c.mem m.srcOff 4)
    rw [Memory.length_read] at hlt
    rw [hread hw, piecePacket_register x hd, hl4] at hch ⊢
    exact ⟨rfl, toNat_ofNat_of_lt hep, toNat_ofNat_of_lt hdst, toNat_ofNat_of_lt (by omega), toNat_ofNat_of_lt (tag_lt i _),
        hch⟩

end Sys2Proof.Machine

namespace Sys2Proof.Machine
open Sys2Proof.Safety

/-! ### Many crofts at once -/

/-- The state with each croft of a list as g makes it. -/
def State.eachCroft (s : State) (qs : List Nat) (g : Nat → Croft → Croft) : State :=
  qs.foldl (fun s q => s.setCroft q (g q (s.croft q))) s

theorem State.eachCroft_frame (g : Nat → Croft → Croft) (qs : List Nat) :
    ∀ s : State, s.eachCroft qs g = { s with crofts := (s.eachCroft qs g).crofts } := by
  induction qs with
  | nil => exact fun s => rfl
  | cons q qs ih => exact fun s => ih (s.setCroft q (g q (s.croft q)))

theorem State.croft_eachCroft_not_mem (g : Nat → Croft → Croft) {j : Nat} (qs : List Nat) (h : j ∉ qs) :
    ∀ s : State, (s.eachCroft qs g).croft j = s.croft j := by
  induction qs with
  | nil => exact fun s => rfl
  | cons q qs ih =>
    intro s
    rw [List.mem_cons, not_or] at h
    exact (ih h.2 (s.setCroft q (g q (s.croft q)))).trans (State.croft_setCroft_ne s _ h.1)

theorem State.croft_eachCroft_mem (g : Nat → Croft → Croft) {j : Nat} (qs : List Nat) (hd : qs.Nodup) (h : j ∈ qs) :
    ∀ s : State, (s.eachCroft qs g).croft j = g j (s.croft j) := by
  induction qs with
  | nil => exact absurd h List.not_mem_nil
  | cons q qs ih =>
    intro s
    obtain ⟨hq, hd⟩ := List.nodup_cons.mp hd
    change ((s.setCroft q (g q (s.croft q))).eachCroft qs g).croft j = _
    rcases List.mem_cons.mp h with rfl | hm
    · rw [State.croft_eachCroft_not_mem g qs hq, State.croft_setCroft_same]
    · rw [ih hd hm, State.croft_setCroft_ne s _ (by rintro rfl; exact hq hm)]

theorem State.mem_croftsOf (p q : Nat) : q ∈ State.croftsOf p ↔ State.parOf q = p := by
  simp only [State.croftsOf, State.parOf, List.mem_map, List.mem_range]
  constructor
  · rintro ⟨i, hi, rfl⟩
    omega
  · intro h
    exact ⟨q % 500, by omega, by omega⟩

theorem State.croftsOf_nodup (p : Nat) : (State.croftsOf p).Nodup :=
  List.Nodup.map (fun a b h => by simpa using h) List.nodup_range

theorem State.onCroft_fence (s : State) (q : Nat) : s.onCroft q Site.fence = s.setCroft q (fencedTo (s.croft q)) :=
  State.onCroft_eq s q Site.fence rfl rfl rfl

theorem State.fenceAll_eq (s : State) (qs : List Nat) : s.fenceAll qs = s.eachCroft qs fun _ => fencedTo := by
  unfold State.fenceAll State.eachCroft
  simp only [State.onCroft_fence]

/-- State t is s with every croft of parish p fenced, and nothing else changed (R98). -/
def ParishFenced (p : Nat) (s t : State) : Prop :=
  t = { s with crofts := t.crofts } ∧ (∀ q, State.parOf q = p → t.croft q = fencedTo (s.croft q)) ∧
    ∀ q, State.parOf q ≠ p → t.croft q = s.croft q

theorem State.fenceAll_parish (s : State) (p : Nat) : ParishFenced p s (s.fenceAll (State.croftsOf p)) := by
  rw [State.fenceAll_eq]
  exact ⟨State.eachCroft_frame _ _ s,
    fun q hq => State.croft_eachCroft_mem _ _ (State.croftsOf_nodup p) ((State.mem_croftsOf p q).mpr hq) s,
    fun q hq => State.croft_eachCroft_not_mem _ _ (fun h => hq ((State.mem_croftsOf p q).mp h)) s⟩

/-! ### Parishes -/

theorem Parish.net_iff (v : Parish) : v.net = true ↔ v.st ≠ .off ∧ v.st ≠ .tripped := by
  simp [Parish.net]

theorem Parish.reg_setReg (v : Parish) (o j : Nat) (w : W64) : (v.setReg o w).reg j = if j = o then w else v.reg j :=
  Tab.get_set _ _ _ _ _

@[simp] theorem Parish.reg_setReg_same (v : Parish) (o : Nat) (w : W64) : (v.setReg o w).reg o = w := Tab.get_set_same _ _ _ _

theorem Parish.field_setField (v : Parish) (o hi lo n : Nat) (h : hi < 64) (hn : n < 2 ^ (hi + 1 - lo)) :
    (v.setField o hi lo n).field o hi lo = n := by
  unfold Parish.field Parish.setField
  rw [Parish.reg_setReg_same, fld_setFld _ _ _ _ h, Nat.mod_eq_of_lt hn]

theorem Parish.field_setField_ne (v : Parish) (o hi lo n hi' lo' : Nat) (h : hi < 64) (hd : hi' < lo ∨ hi < lo') :
    (v.setField o hi lo n).field o hi' lo' = v.field o hi' lo' := by
  unfold Parish.field Parish.setField
  rw [Parish.reg_setReg_same, fld_setFld_ne _ _ _ _ _ _ h hd]

theorem Parish.field_lt (v : Parish) (o hi lo : Nat) : v.field o hi lo < 2 ^ (hi + 1 - lo) :=
  Nat.mod_lt _ (Nat.two_pow_pos _)

theorem State.parish_crofts (s : State) (t : Tab Croft) (p : Nat) : ({ s with crofts := t } : State).parish p = s.parish p :=
    rfl

/-- A parish that has lost its rails (R45, R46). -/
def Parish.lost (v : Parish) : Parish :=
  { v with st := .tripped, nclkLock := false, pclkLock := false, pclkMoving := false, dying := false, mapouts := []
           tblWrite := none, sentSums := [] }

theorem State.parish_loseParish (s : State) (p j : Nat) :
    (s.loseParish p).parish j = if j = p then (s.parish p).lost else s.parish j :=
  State.parish_setParish s p j _

theorem State.flights_loseParish (s : State) (p : Nat) :
    (s.loseParish p).flights = (s.flights.filter fun f => State.parOf f.pos != p).map (fun f =>
      if f.here = false ∧ (f.via.any fun l => State.parOf l.q == p) = true then { f with pkt := { f.pkt with poison := true } }
      else f) := by
  unfold State.loseParish
  simp [beq_eq_decide]

/-- The sensors that pull the thermal alert once a parish has lost its own. -/
def State.hotWithout (s : State) (p : Nat) : List Nat := s.power.hot.filter fun i => !decide (i / 4 = p ∧ i < 224)

theorem State.power_loseParish (s : State) (p : Nat) : (s.loseParish p).power =
    { s.power with hot := s.hotWithout p, thermLow := s.power.thermLow && !(s.hotWithout p).isEmpty } := rfl

theorem State.croft_loseParish (s : State) (p q : Nat) : (s.loseParish p).croft q = s.croft q := rfl

/-- What a parish loses beside its crofts does not hang on them. -/
theorem State.loseParish_crofts {s u : State} (p : Nat) (h : u = { s with crofts := u.crofts }) :
    u.loseParish p = { s.loseParish p with crofts := (u.loseParish p).crofts } ∧
      ∀ j, (u.loseParish p).parish j = if j = p then (s.parish p).lost else s.parish j := by
  rw [h]
  exact ⟨rfl, fun j => State.parish_loseParish s p j⟩

/-- State t is s with parish p isolated: its rails gone, its crofts fenced (R45, R46). -/
def ParishIsolated (p : Nat) (s t : State) : Prop :=
  (∀ j, t.parish j = if j = p then (s.parish p).lost else s.parish j) ∧
    (∀ q, State.parOf q = p → t.croft q = fencedTo (s.croft q)) ∧ (∀ q, State.parOf q ≠ p → t.croft q = s.croft q) ∧
    t = { s.loseParish p with crofts := t.crofts }

theorem State.isolate_spec (s : State) (p : Nat) : ParishIsolated p s (s.isolate p) := by
  obtain ⟨hf, hin, hout⟩ := State.fenceAll_parish s p
  unfold State.isolate
  generalize s.fenceAll (State.croftsOf p) = u at hf hin hout ⊢
  obtain ⟨he, hp⟩ := State.loseParish_crofts p hf
  exact ⟨hp, fun q hq => (State.croft_loseParish u p q).trans (hin q hq),
    fun q hq => (State.croft_loseParish u p q).trans (hout q hq), he⟩

/-! ### Row maps -/

theorem Parish.rowMap_fold (l : List (Nat × Nat)) (j : Nat) : ∀ v : Parish,
    (l.foldl (fun v m => v.setReg (Reg.parRowmap m.1) (State.mapOutRow (v.reg (Reg.parRowmap m.1)) m.2)) v).reg
        (Reg.parRowmap j) =
      (l.filter fun m => m.1 == j).foldl (fun m e => State.mapOutRow m e.2) (v.reg (Reg.parRowmap j)) := by
  induction l with
  | nil => exact fun v => rfl
  | cons m l ih =>
    intro v
    rw [List.foldl_cons, ih, Parish.reg_setReg]
    by_cases h : m.1 = j
    · rw [if_pos (by rw [h]), List.filter_cons_of_pos (by simpa using h), List.foldl_cons, h]
    · rw [if_neg (by unfold Reg.parRowmap; omega), List.filter_cons_of_neg (by simpa using h)]

/-- A parish with map-outs applied, field by field but for its registers. -/
theorem Parish.mapFold_st (l : List (Nat × Nat)) : ∀ v : Parish,
    (l.foldl (fun v m => v.setReg (Reg.parRowmap m.1) (State.mapOutRow (v.reg (Reg.parRowmap m.1)) m.2)) v).st = v.st := by
  induction l with
  | nil => exact fun v => rfl
  | cons m l ih => exact fun v => ih _

/-- A croft that backs no logical croft any more: fenced, its last number kept (R33, R34). -/
def unbacked (n : Option Nat) (running : Bool) (c : Croft) : Croft :=
  { fencedTo c with lastId := if running then n.getD 0 else 0 }

theorem State.onCroft_unbacked (s : State) (q : Nat) (n : Option Nat) (running : Bool) :
    (s.onCroft q fun x => { x with c := { x.fence.c with lastId := if running then n.getD 0 else 0 } }) =
      s.setCroft q (unbacked n running (s.croft q)) :=
  State.onCroft_eq s q _ rfl rfl rfl

theorem State.foldl_unbacked (before : Nat → Option Nat) (running : Bool) (qs : List Nat) (s : State) :
    qs.foldl (fun s q => s.onCroft q fun x =>
      { x with c := { x.fence.c with lastId := if running then (before q).getD 0 else 0 } }) s =
      s.eachCroft qs fun q => unbacked (before q) running :=
  congrArg (fun f => qs.foldl f s) (funext fun s => funext fun q => State.onCroft_unbacked s q (before q) running)

theorem State.logicalOf_crofts {s u : State} (h : u = { s with crofts := u.crofts }) (q : Nat) : u.logicalOf q = s.logicalOf q
    := by
  rw [h]
  rfl

/-- Map-outs of a parish applied: its maps, and the crofts that no longer back a logical one (R36). -/
theorem State.switchRows_spec (s : State) (p : Nat) (l : List (Nat × Nat)) (running : Bool) :
    let t := s.switchRows p l running
    (t.parish p).mapouts = [] ∧ (t.parish p).mapped = true ∧ (t.parish p).st = (s.parish p).st ∧
      (∀ j, j ≠ p → t.parish j = s.parish j) ∧
      (∀ j, t.rowMap p j = (l.filter fun m => m.1 == j).foldl (fun m e => State.mapOutRow m e.2) (s.rowMap p j)) ∧
      (∀ q, State.parOf q = p → s.logicalOf q ≠ none → t.logicalOf q = none →
        t.croft q = unbacked (s.logicalOf q) running (s.croft q)) ∧
      (∀ q, (State.parOf q ≠ p ∨ t.logicalOf q ≠ none) → t.croft q = s.croft q) := by
  unfold State.switchRows
  extract_lets before v u t
  have ht : t = _ := State.foldl_unbacked before running _ u
  clear_value t
  generalize hqs : ((State.croftsOf p).filter fun q => (before q).isSome && (u.logicalOf q).isNone) = qs at ht
  have hmem (q : Nat) : q ∈ qs ↔ State.parOf q = p ∧ s.logicalOf q ≠ none ∧ u.logicalOf q = none := by
    rw [← hqs, List.mem_filter, State.mem_croftsOf, Bool.and_eq_true, Option.isSome_iff_ne_none, Option.isNone_iff_eq_none]
  have hdup : qs.Nodup := hqs ▸ (State.croftsOf_nodup p).filter _
  have he := ht ▸ State.eachCroft_frame (fun q => unbacked (before q) running) qs u
  have hin (q : Nat) (h : q ∈ qs) := ht ▸ State.croft_eachCroft_mem (fun q => unbacked (before q) running) qs hdup h u
  have hout (q : Nat) (h : q ∉ qs) := ht ▸ State.croft_eachCroft_not_mem (fun q => unbacked (before q) running) qs h u
  have hl (q : Nat) : t.logicalOf q = u.logicalOf q := State.logicalOf_crofts he q
  have hp (j : Nat) : t.parish j = if j = p then { v with mapouts := [], mapped := true } else s.parish j := by
    rw [he]
    exact State.parish_setParish s p j _
  have hpp := (hp p).trans (if_pos rfl)
  refine ⟨by rw [hpp], by rw [hpp], by rw [hpp]; exact Parish.mapFold_st l _, fun j hj => by rw [hp, if_neg hj], fun j => ?_,
    fun q hq hs ht => ?_, fun q hq => ?_⟩
  · unfold State.rowMap
    rw [hpp]
    exact Parish.rowMap_fold l j _
  · exact hin q ((hmem q).mpr ⟨hq, hs, hl q ▸ ht⟩)
  · exact hout q fun h => by
      obtain ⟨h1, -, h3⟩ := (hmem q).mp h
      rcases hq with hq | hq
      · exact hq h1
      · exact hq (hl q ▸ h3)

/-- The three rules of R36. -/
theorem State.mapOutRow_spec (m : W64) (c : Nat) (hc : c < 32) :
    (bit m 30 = false → bit (State.mapOutRow m c) 30 = true ∧ fld (State.mapOutRow m c) 4 0 = c ∧
        bit (State.mapOutRow m c) 31 = bit m 31) ∧
      (bit m 30 = true → fld m 4 0 = c → State.mapOutRow m c = m) ∧
      (bit m 30 = true → fld m 4 0 ≠ c → bit (State.mapOutRow m c) 31 = true) := by
  unfold State.mapOutRow bit
  refine ⟨fun h => ?_, fun h hf => ?_, fun h hf => ?_⟩
  · rw [if_pos (by rw [h]; rfl)]
    refine ⟨?_, ?_, ?_⟩
    · rw [setFld_getLsbD _ _ _ _ _ (by decide), if_neg (by decide), setFld_getLsbD _ _ _ _ _ (by decide), if_pos (by decide)]
      rfl
    · rw [fld_setFld _ _ _ _ (by decide)]
      omega
    · rw [setFld_getLsbD _ _ _ _ _ (by decide), if_neg (by decide), setFld_getLsbD _ _ _ _ _ (by decide), if_neg (by decide)]
  · rw [if_neg (by simp [h]), if_pos hf]
  · rw [if_neg (by simp [h]), if_neg hf, setFld_getLsbD _ _ _ _ _ (by decide), if_pos (by decide)]
    rfl

/-! ### The commands of a parish -/

section Commands
variable {s : State} {p : Par} (hn : (s.parish p).net = true)
include hn

theorem exec_parishTrip (net : Bool) (peak : W16) : exec (.parishTrip p net peak) s =
    .next ((s.isolate p).setParish p { (s.isolate p).parish p with trip := some (net, peak) }) := by
  change (if (s.parish p).net = true then _ else _) = _
  rw [if_pos hn]

theorem exec_computeEnSet : exec (.computeEnSet p) s = .next (s.setParish p
    { (s.parish p).setField Reg.parCtrl 0 0 1 with
      st := if (s.parish p).st = .netOn then .computeUp else (s.parish p).st }) := by
  change Host.Outcome.next (s.writeComputeEn p true) = _
  unfold State.writeComputeEn
  simp [hn]
  rfl

theorem exec_computeEnClear (h : (s.parish p).st = .computeUp ∨ (s.parish p).st = .on) : exec (.computeEnClear p) s =
    .next ((s.setParish p { (s.parish p).setField Reg.parCtrl 0 0 0 with st := .netOn }).fenceAll (State.croftsOf p)) := by
  change Host.Outcome.next (s.writeComputeEn p false) = _
  unfold State.writeComputeEn
  rw [if_neg (by simp [hn]), if_neg (by decide)]
  exact congrArg Host.Outcome.next (if_pos h)

theorem exec_pclkTargetWrite (w : W32) (h : bitsOf w.toNat 4 0 ≤ 25) : ∃ m, exec (.pclkTargetWrite p w) s =
    .next (s.setParish p { (s.parish p).setField Reg.parPclk 4 0 (bitsOf w.toNat 4 0) with pclkMoving := m }) := by
  rw [← fld_setWidth] at h ⊢
  exact ⟨_, congrArg Host.Outcome.next (if_neg (by simp [hn]; omega))⟩

theorem exec_pclkStep (h : (s.parish p).field Reg.parPclk 20 16 ≠ State.pclkTarget (s.parish p)) : ∃ m, exec (.pclkStep p) s =
    .next (s.setParish p { (s.parish p).setField Reg.parPclk 20 16
      (if (s.parish p).field Reg.parPclk 20 16 < State.pclkTarget (s.parish p) then (s.parish p).field Reg.parPclk 20 16 + 1
        else (s.parish p).field Reg.parPclk 20 16 - 1) with pclkMoving := m }) := by
  exact ⟨_, if_neg (by simp [hn, h])⟩

theorem exec_nclkLockLoss : exec (.nclkLockLoss p) s = .next (s.setParish p { s.parish p with nclkLock := false, dead := true })
    :=
  if_pos hn

theorem exec_parMapoutWrite (w : W32) (hr : bitsOf w.toNat 4 0 ≤ 19) (hc : bitsOf w.toNat 9 5 ≤ 24) :
    exec (.parMapoutWrite p w) s = .next (if 16 ≤ s.owner p then
        s.switchRows p ((s.parish p).mapouts ++ [(bitsOf w.toNat 4 0, bitsOf w.toNat 9 5)])
      else s.setParish p { s.parish p with mapouts := (s.parish p).mapouts ++ [(bitsOf w.toNat 4 0, bitsOf w.toNat 9 5)] }) :=
          by
  change Host.Outcome.next (s.writeMapout p w) = _
  unfold State.writeMapout
  rw [fld_setWidth, fld_setWidth, if_neg (by simp [hn]; omega)]

theorem exec_rowMapSwitch (hm : (s.parish p).mapouts ≠ [])
    (hb : 16 ≤ s.owner p ∨ s.atBoundary (s.owner p) = true ∧ s.quiet (s.owner p) = true) :
    exec (.rowMapSwitch p) s = .next (s.switchRows p (s.parish p).mapouts) :=
  if_pos ⟨hn, hm, hb⟩

end Commands

theorem exec_parMapoutWrite_range (p : Par) (s : State) (w : W32) (h : 19 < bitsOf w.toNat 4 0 ∨ 24 < bitsOf w.toNat 9 5) :
    exec (.parMapoutWrite p w) s = .next s := by
  change Host.Outcome.next (s.writeMapout p w) = _
  unfold State.writeMapout
  rw [fld_setWidth, fld_setWidth, if_pos (by rcases h with h | h <;> simp [h])]

theorem exec_pclkTargetWrite_range (p : Par) (s : State) (w : W32) (h : 25 < bitsOf w.toNat 4 0) :
    exec (.pclkTargetWrite p w) s = .next s := by
  change Host.Outcome.next (s.writePclkTarget p w) = _
  unfold State.writePclkTarget
  rw [fld_setWidth, if_pos (by simp [h])]

theorem exec_computeRailUp {s : State} {p : Par} (h : (s.parish p).st = .computeUp) : exec (.computeRailUp p) s =
    .next ((s.setParish p { s.parish p with st := .on }).fenceAll (State.croftsOf p)) :=
  if_pos h

theorem exec_tripReport {s : State} {p : Par} {net : Bool} {peak : W16} (h : (s.parish p).trip = some (net, peak)) :
    exec (.tripReport p) s = .next { s.setParish p { s.parish p with trip := none } with
       reports := s.reports ++ [{ source := 70, loc := State.locParish p, time := s.clock.now
                                  syndrome := BitVec.ofNat 64 ((if net then 1 else 0) + peak.toNat * 2 ^ 16), opcode := 0,
                                      tclass := some false }] } := by
  change (match (s.parish p).trip with | none => _ | some (net, peak) => _) = _
  rw [h]
  dsimp only
  rw [State.raise_trip _ _ p.isLt]
  rfl

/-- A parish that changes with its crofts fenced. -/
theorem ParishFenced.changed {s t : State} {p : Nat} {v : Parish} (h : ParishFenced p (s.setParish p v) t) :
    t.parish p = v ∧ (∀ j, j ≠ p → t.parish j = s.parish j) ∧ (∀ q, State.parOf q = p → t.croft q = fencedTo (s.croft q)) ∧
      ∀ q, State.parOf q ≠ p → t.croft q = s.croft q := by
  obtain ⟨hf, hin, hout⟩ := h
  refine ⟨?_, fun j hj => ?_, hin, hout⟩
  · rw [hf]
    exact State.parish_setParish_same s p v
  · rw [hf]
    exact State.parish_setParish_ne s v hj

theorem fencedTo_fenced (c : Croft) : bit (regOf (fencedTo c) Reg.crfCtrl) 0 = true ∧ UnitsIdle (fencedTo c) ∧ (fencedTo c).mem
    = c.mem := by
  obtain ⟨hb, -, -, -, hu, -, hm, -⟩ := fencedTo_spec c
  exact ⟨hb, hu, hm⟩

theorem parishTrip_spec {s : State} {p : Par} (hn : (s.parish p).net = true) (net : Bool) (peak : W16) :
    ∃ t, exec (.parishTrip p net peak) s = .next t ∧ (t.parish p).st = .tripped ∧
       (t.parish p).trip = some (net, peak) ∧ (t.parish p).nclkLock = false ∧ (t.parish p).regs = (s.parish p).regs ∧
       (∀ j, j ≠ p.val → t.parish j = s.parish j) ∧ (∀ q, State.parOf q = p → bit (regOf (t.croft q) Reg.crfCtrl) 0 = true ∧
         UnitsIdle (t.croft q) ∧ (t.croft q).mem = (s.croft q).mem) ∧ (∀ q, State.parOf q ≠ p → t.croft q = s.croft q) ∧
       (t.parish p).sentSums = [] ∧ (∀ r ∈ t.reports, r ∈ s.reports ∧ State.heldByReeve p r = false) ∧
       t.flights = (s.flights.filter fun f => State.parOf f.pos != p).map fun f =>
         if f.here = false ∧ (f.via.any fun l => State.parOf l.q == p.val) = true then
             { f with pkt := { f.pkt with poison := true } } else f := by
  refine ⟨_, exec_parishTrip hn net peak, ?_⟩
  obtain ⟨hp, hin, hout, he⟩ := State.isolate_spec s p
  generalize s.isolate p = u at hp hin hout he ⊢
  have hu := (hp p).trans (if_pos rfl)
  rw [State.parish_setParish_same, hu]
  refine ⟨rfl, rfl, rfl, rfl, fun j hj => ?_, fun q hq => ?_, fun q hq => (State.croft_setParish u p q _).trans (hout q hq), rfl,
    fun r hr => ?_, ?_⟩
  · rw [State.parish_setParish_ne u _ hj, hp, if_neg hj]
  · rw [State.croft_setParish, hin q hq]
    exact fencedTo_fenced _
  · have hr : r ∈ u.reports := hr
    rw [he] at hr
    have hr : r ∈ s.reports.filter fun r => !State.heldByReeve p r := hr
    rw [List.mem_filter] at hr
    exact ⟨hr.1, by simpa using hr.2⟩
  · change u.flights = _
    rw [he]
    exact State.flights_loseParish s p

theorem pclkTargetWrite_spec {s : State} {p : Par} (hn : (s.parish p).net = true) (w : W32) (h : bitsOf w.toNat 4 0 ≤ 25) :
    let v := s.parish p
    ∃ t, exec (.pclkTargetWrite p w) s = .next t ∧
       t = s.setParish p (t.parish p) ∧ (t.parish p).field Reg.parPclk 4 0 = bitsOf w.toNat 4 0 ∧
       (t.parish p).field Reg.parPclk 12 8 = v.field Reg.parPclk 12 8 ∧ (t.parish p).field Reg.parPclk 20 16 = v.field
           Reg.parPclk 20 16 := by
  obtain ⟨m, hx⟩ := exec_pclkTargetWrite hn w h
  refine ⟨_, hx, ?_⟩
  rw [State.parish_setParish_same]
  exact ⟨rfl, Parish.field_setField _ _ _ _ _ (by decide) (by omega), Parish.field_setField_ne _ _ _ _ _ _ _ (by decide) (by decide),
    Parish.field_setField_ne _ _ _ _ _ _ _ (by decide) (by decide)⟩

theorem Parish.pclkTarget_lt (v : Parish) : State.pclkTarget v < 32 :=
  Nat.lt_of_le_of_lt (Nat.min_le_left _ _) (Parish.field_lt _ _ _ _)

theorem pclkStep_spec {s : State} {p : Par} (hn : (s.parish p).net = true)
    (h : (s.parish p).field Reg.parPclk 20 16 ≠ State.pclkTarget (s.parish p)) :
    let v := s.parish p
    ∃ t, exec (.pclkStep p) s = .next t ∧
       t = s.setParish p (t.parish p) ∧ (t.parish p).field Reg.parPclk 20 16 =
         (if v.field Reg.parPclk 20 16 < State.pclkTarget v then v.field Reg.parPclk 20 16 + 1 else v.field Reg.parPclk 20 16 -
             1) ∧
       State.pclkTarget (t.parish p) = State.pclkTarget v := by
  obtain ⟨m, hx⟩ := exec_pclkStep hn h
  refine ⟨_, hx, ?_⟩
  rw [State.parish_setParish_same]
  have hlt := Parish.pclkTarget_lt (s.parish p)
  have hcur := Parish.field_lt (s.parish p) Reg.parPclk 20 16
  refine ⟨rfl, Parish.field_setField _ _ _ _ _ (by decide) (by split <;> omega), ?_⟩
  exact congrArg₂ min (Parish.field_setField_ne _ _ _ _ _ _ _ (by decide) (by decide))
    (Parish.field_setField_ne _ _ _ _ _ _ _ (by decide) (by decide))

/-- Settles O36. -/
theorem parishRailsClocksAndRowMaps : Obligations.ParishRailsClocksAndRowMaps := by
  unfold Obligations.ParishRailsClocksAndRowMaps
  refine ⟨fun p s => ?_, fun p s => ?_⟩
  · intro v
    have hnet (h1 : v.st ≠ .off) (h2 : v.st ≠ .tripped) : v.net = true := v.net_iff.mpr ⟨h1, h2⟩
    refine ⟨fun net peak h1 h2 => parishTrip_spec (hnet h1 h2) net peak, fun net peak h => exec_tripReport h,
      fun h1 h2 => exec_computeEnSet (hnet h1 h2), fun h => ?_, fun h => ?_,
      fun w h1 h2 => pclkTargetWrite_spec (hnet h1 h2) w, fun w => exec_pclkTargetWrite_range p s w,
      fun h1 h2 => pclkStep_spec (hnet h1 h2), fun h1 h2 => exec_nclkLockLoss (hnet h1 h2)⟩
    · have hn : v.net = true := by rcases h with h | h <;> simp [Parish.net, h]
      obtain ⟨hp, hj, hin, hout⟩ := (State.fenceAll_parish (s.setParish p { v.setField Reg.parCtrl 0 0 0 with st := .netOn })
          p).changed
      refine ⟨_, exec_computeEnClear hn h, hp, hj, fun q hq => ?_, hout⟩
      rw [hin q hq]
      obtain ⟨hb, hu, -⟩ := fencedTo_fenced (s.croft q)
      exact ⟨hb, hu⟩
    · obtain ⟨hp, hj, hin, hout⟩ := (State.fenceAll_parish (s.setParish p { v with st := .on }) p).changed
      refine ⟨_, exec_computeRailUp h, hp, hj, fun q hq => ?_, hout⟩
      rw [hin q hq]
      exact (fencedTo_fenced _).1
  · intro v h1 h2
    have hn : v.net = true := v.net_iff.mpr ⟨h1, h2⟩
    refine ⟨fun w hr hc ho => ?_, fun w => exec_parMapoutWrite_range p s w, ?_, ?_⟩
    · rw [exec_parMapoutWrite hn w hr hc, if_neg (by omega)]
    · intro l e hl he
      obtain ⟨hm, -, -, -, hrows, -⟩ := State.switchRows_spec s p l true
      refine ⟨s.switchRows p l, ?_, hm, fun j _ => hrows j⟩
      rcases he with ⟨rfl, rfl, hb⟩ | ⟨w, rfl, hr, hc, ho, rfl⟩
      · exact exec_rowMapSwitch hn hl hb
      · rw [exec_parMapoutWrite hn w hr hc, if_pos ho]
    · intro r c e he hr hc
      obtain ⟨hm, hmp, hst, hj, hrows, hin, hout⟩ := State.switchRows_spec s p [(r, c)] true
      obtain ⟨h30, h31, h32⟩ := State.mapOutRow_spec (s.rowMap p r) c (by omega)
      have hrow : (s.switchRows p [(r, c)]).rowMap p r = State.mapOutRow (s.rowMap p r) c := by
        rw [hrows r]
        simp
      have hrest (j : Nat) (h : j ≠ r) : s.rowMap p j = (s.switchRows p [(r, c)]).rowMap p j := by
        rw [hrows j]
        simp [Ne.symm h]
      rw [← hrow] at h30 h31 h32
      refine ⟨s.switchRows p [(r, c)], ?_, hm, hmp, hst, hj, fun j _ h => hrest j h, h30, h31, h32, fun q hq hs ht => ?_, hout⟩
      · rcases he with ⟨rfl, hl, hb⟩ | ⟨⟨w, rfl, rfl, rfl⟩, hl, ho⟩
        · rw [exec_rowMapSwitch hn (by rw [hl]; exact List.cons_ne_nil _ _) hb, hl]
        · rw [exec_parMapoutWrite hn w (by omega) (by omega), if_pos ho, hl]
          rfl
      · rw [hin q hq hs ht]
        exact (fencedTo_fenced _).1

end Sys2Proof.Machine

namespace Sys2Proof.Machine
open Sys2Proof.Safety

/-! ### Supply and resets of the module -/

/-- The parishes of a converter group isolated one after the other (R408). -/
def State.isolateEach (s : State) (ps : List Nat) : State := ps.foldl (fun s p => s.isolate p) s

theorem State.isolateEach_cons (s : State) (p : Nat) (ps : List Nat) : s.isolateEach (p :: ps) = (s.isolate p).isolateEach ps :=
  List.foldl_cons

theorem State.mem_hotWithout (s : State) (p i : Nat) : i ∈ s.hotWithout p ↔ i ∈ s.power.hot ∧ ¬ (i / 4 = p ∧ i < 224) := by
  simp only [State.hotWithout, List.mem_filter, Bool.not_eq_true', decide_eq_false_iff_not]

theorem ParishIsolated.power {p : Nat} {s t : State} (h : ParishIsolated p s t) : t.power =
    { s.power with hot := s.hotWithout p, thermLow := s.power.thermLow && !(s.hotWithout p).isEmpty } := by
  obtain ⟨-, -, -, he⟩ := h
  rw [he]
  rfl

theorem ParishIsolated.regs {p : Nat} {s t : State} (h : ParishIsolated p s t) : t.regs = s.regs := by
  obtain ⟨-, -, -, he⟩ := h
  rw [he]
  rfl

theorem and_isEmpty_of_subset {a b : List Nat} (t : Bool) (h : ∀ i ∈ b, i ∈ a) :
    (t && !a.isEmpty && !b.isEmpty) = (t && !b.isEmpty) := by
  cases a with
  | nil =>
    have hb : b = [] := List.eq_nil_iff_forall_not_mem.mpr fun i hi => List.not_mem_nil (h i hi)
    rw [hb]
    simp
  | cons x a => simp

/-- State t is s with the parishes of a list isolated: what its supply shows and which parishes are tripped (R23, R408). -/
def ParishesIsolated (ps : List Nat) (s t : State) : Prop :=
  t.regs = s.regs ∧ (∀ i, i ∈ t.power.hot ↔ i ∈ s.power.hot ∧ ¬ (i < 224 ∧ i / 4 ∈ ps)) ∧
    (ps = [] → t.power = s.power) ∧
    (ps ≠ [] → t.power = { s.power with hot := t.power.hot, thermLow := s.power.thermLow && !t.power.hot.isEmpty }) ∧
    ∀ j, (j ∉ ps → t.parish j = s.parish j) ∧ (j ∈ ps → (t.parish j).st = .tripped)

theorem ParishesIsolated.cons {p : Nat} {ps : List Nat} {s u t : State} (h1 : ParishIsolated p s u)
    (h2 : ParishesIsolated ps u t) :
    ParishesIsolated (p :: ps) s t := by
  obtain ⟨hr, hh, h0, hp, hj⟩ := h2
  have hpow := h1.power
  refine ⟨hr.trans h1.regs, fun i => ?_, fun h => absurd h (List.cons_ne_nil _ _), fun _ => ?_, fun j => ⟨fun h => ?_, fun h => ?_⟩⟩
  · rw [hh, hpow, State.mem_hotWithout, List.mem_cons]
    tauto
  · cases ps with
    | nil => rw [h0 rfl, hpow]
    | cons p' ps =>
      rw [hp (List.cons_ne_nil _ _), hpow]
      dsimp only
      rw [and_isEmpty_of_subset]
      intro i hi
      have := ((hh i).mp hi).1
      rwa [hpow] at this
  · rw [List.mem_cons, not_or] at h
    rw [(hj j).1 h.2, h1.1, if_neg h.1]
  · by_cases hm : j ∈ ps
    · exact (hj j).2 hm
    · obtain rfl : j = p := (List.mem_cons.mp h).resolve_right hm
      rw [(hj j).1 hm, h1.1, if_pos rfl]
      rfl

theorem State.isolateEach_spec (ps : List Nat) : ∀ s : State, ParishesIsolated ps s (s.isolateEach ps) := by
  induction ps with
  | nil =>
    exact fun s => ⟨rfl, fun i => by simp [State.isolateEach], fun _ => rfl, fun h => absurd rfl h,
      fun _ => ⟨fun _ => rfl, fun h => absurd h List.not_mem_nil⟩⟩
  | cons p ps ih =>
    intro s
    rw [State.isolateEach_cons]
    exact ParishesIsolated.cons (State.isolate_spec s p) (ih (s.isolate p))

/-- The parishes of converter group k. -/
def groupParishes (k : Nat) : List Nat := (List.range 7).map fun r => 8 * r + k

theorem mem_groupParishes (k p : Nat) (hk : k < 8) : p ∈ groupParishes k ↔ p < 56 ∧ p % 8 = k := by
  simp only [groupParishes, List.mem_map, List.mem_range]
  constructor
  · rintro ⟨r, hr, rfl⟩
    omega
  · rintro ⟨h1, h2⟩
    exact ⟨p / 8, by omega, by omega⟩

/-! ### What restarts -/

theorem restarted_of_supplyAux (s : State) (p : Power) (h : p.auxOn ≠ (State.feeds p.busbar && !p.tripLatch)) :
    ({ s with power := p } : State).supplyAux =
      ({ s with power := { p with auxOn := State.feeds p.busbar && !p.tripLatch } } : State).cold := by
  rw [State.supplyAux_cases, if_neg (Ne.symm h)]

theorem supplyAux_kept (s : State) (p : Power) (h : p.auxOn = (State.feeds p.busbar && !p.tripLatch)) :
    ({ s with power := p } : State).supplyAux = { s with power := p } := by
  rw [State.supplyAux_cases, if_pos h.symm]

theorem State.cold_power (s : State) : s.cold.power =
    { busbar := s.power.busbar, auxOn := s.power.auxOn, inrush := s.power.inrush, groupsOff := s.power.groupsOff,
      resetN := s.power.resetN, resetDone := s.power.resetDone, tripLatch := s.power.tripLatch, tripRecord := s.power.tripRecord
          } := rfl

/-- A power-off after the auxiliary converter stopped, whether or not it ran. -/
theorem supplyAux_cold (s : State) (p : Power) :
    let t := ({ s with power := p } : State).supplyAux.cold
    Restarted s t ∧ t.power.busbar = p.busbar ∧ t.power.auxOn = (State.feeds p.busbar && !p.tripLatch) ∧ t.power.tripLatch =
        p.tripLatch ∧
      t.power.tripRecord = p.tripRecord := by
  by_cases h : p.auxOn = (State.feeds p.busbar && !p.tripLatch)
  · rw [supplyAux_kept s p h]
    exact ⟨State.cold_restarted_power s p, rfl, h, rfl, rfl⟩
  · rw [restarted_of_supplyAux s p h]
    refine ⟨State.cold_cold_restarted s _ _, rfl, rfl, rfl, rfl⟩

/-- Bring-up begun (R352, R378). -/
def State.begun (u : State) : State :=
  { u with sec := { u.sec with running := true, stage := 0 }, clock := { u.clock with now := 0, ticks := 0 } }

theorem State.tryBringUp_begins {s : State} (hb : s.power.busbar = .within) (ha : s.power.auxOn = true)
    (hr : s.power.resetN = true)
    (hs : s.sec.running = false) : s.tryBringUp = s.begun :=
  if_pos ⟨hb, by simp [State.up, ha, hr], by simp [hs]⟩

theorem State.tryBringUp_waits {s : State} (h : s.power.busbar ≠ .within ∨ s.power.auxOn = false ∨ s.sec.running = true) :
    s.tryBringUp = s :=
  if_neg fun hc => by
    obtain ⟨hb, hu, hs⟩ := hc
    rcases h with h | h | h
    · exact h hb
    · simp [State.up, h] at hu
    · simp [h] at hs

theorem busbarWithinLimits_spec {s : State} (hl : s.power.tripLatch = false) (hr : s.power.resetN = true) :
    let p := s.power
    (s.sec.running = false → p.auxOn = true → exec .busbarWithinLimits s =
      .next (State.begun { s with power := { p with busbar := .within, auxOn := true } })) ∧
    (p.auxOn = false → ∃ u, exec .busbarWithinLimits s = .next (State.begun u) ∧ Restarted s u ∧
      u.power.busbar = .within ∧ u.power.auxOn = true ∧ u.power.groupsOff = p.groupsOff) := by
  have hx : exec .busbarWithinLimits s = .next ({ s with power := { s.power with busbar := .within } } : State).supplyAux.tryBringUp := rfl
  have hon : (State.feeds .within && !s.power.tripLatch) = true := by rw [hl]; rfl
  refine ⟨fun hs ha => ?_, fun ha => ?_⟩
  · have hk : ({ s with power := { s.power with busbar := .within } } : State).supplyAux =
        { s with power := { s.power with busbar := .within, auxOn := true } } := by
      rw [supplyAux_kept _ _ (by rw [hon]; exact ha), ← ha]
    rw [hx, hk]
    exact congrArg Host.Outcome.next (State.tryBringUp_begins rfl rfl hr hs)
  · have hk : ({ s with power := { s.power with busbar := .within } } : State).supplyAux =
        ({ s with power := { s.power with busbar := .within, auxOn := true } } : State).cold := by
      rw [restarted_of_supplyAux _ _ (by rw [hon]; simp [ha]), hon]
    refine ⟨_, ?_, State.cold_restarted_power s { s.power with busbar := .within, auxOn := true }, rfl, rfl, rfl⟩
    rw [hx, hk]
    exact congrArg Host.Outcome.next (State.tryBringUp_begins rfl rfl hr rfl)

theorem auxConverterStart_within {s : State} {c : Busbar} {i : Bool}
    (hx : exec .auxConverterStart s = .next ({ s with power := { s.power with busbar := c, inrush := i } } : State).supplyAux)
    (hc : State.feeds c = true) :
    (s.power.tripLatch = false → s.power.auxOn = false → ∃ t, exec .auxConverterStart s = .next t ∧ Restarted s t ∧
      t.power.busbar = c ∧ t.power.inrush = i ∧ t.power.auxOn = true) ∧
    (s.power.auxOn = !s.power.tripLatch → exec .auxConverterStart s = .next
        { s with power := { s.power with busbar := c, inrush := i } }) := by
  refine ⟨fun hl ha => ?_, fun ha => ?_⟩
  · have hon : (State.feeds c && !s.power.tripLatch) = true := by rw [hl, hc]; rfl
    rw [hx, restarted_of_supplyAux _ _ (by simp [ha, hon]), hon]
    exact ⟨_, rfl, State.cold_restarted_power s _, rfl, rfl, rfl⟩
  · rw [hx, supplyAux_kept _ _ (by simp [ha, hc])]

theorem exec_auxConverterStart_low {s : State} (h : s.power.busbar = .absent) : exec .auxConverterStart s =
    .next ({ s with power := { s.power with busbar := .low, inrush := true } } : State).supplyAux := by
  change execAuxConverterStart s = _
  unfold execAuxConverterStart
  rw [h]

theorem exec_auxConverterStart_above {s : State} (h : s.power.busbar = .high) : exec .auxConverterStart s =
    .next ({ s with power := { s.power with busbar := .above, inrush := s.power.inrush } } : State).supplyAux := by
  change execAuxConverterStart s = _
  unfold execAuxConverterStart
  rw [h]

theorem exec_auxConverterStart_fed {s : State} (h : State.feeds s.power.busbar = true) : exec .auxConverterStart s = .next s :=
    by
  change execAuxConverterStart s = _
  unfold execAuxConverterStart
  cases hb : s.power.busbar <;> simp [State.feeds, hb] at h ⊢

theorem exec_supplyTrip_off {s : State} {k : Fin 8} (h : k.val ∉ s.power.groupsOff) (high : Bool) (ha : s.power.auxOn = false) :
    exec (.supplyTrip k high) s = .next { s with
      power := { s.power with busbar := trippedAt s.power.busbar high, groupsOff := s.power.groupsOff ++ [k.val] } } := by
  change (if _ then _ else _) = _
  rw [if_neg (by simpa using h)]
  dsimp only
  rw [if_neg (by simp [ha]), if_neg (by simp [ha])]

theorem exec_supplyTrip_again {s : State} {k : Fin 8} (h : k.val ∈ s.power.groupsOff) (high : Bool) :
    exec (.supplyTrip k high) s = .next { s with power := { s.power with busbar := trippedAt s.power.busbar high } } := by
  change (if _ then _ else _) = _
  rw [if_pos (by simpa using h)]

/-- The state in which a group's trip isolates its parishes. -/
def State.sagged (s : State) (high : Bool) : State := { s with power := { s.power with busbar := trippedAt s.power.busbar high } }

theorem exec_supplyTrip_on {s : State} {k : Fin 8} (h : k.val ∉ s.power.groupsOff) (high : Bool) (ha : s.power.auxOn = true)
    (hu : ((s.sagged high).isolateEach (groupParishes k)).power.auxOn = true) :
    exec (.supplyTrip k high) s =
      let u := (s.sagged high).isolateEach (groupParishes k)
      .next (State.raise { u with power := { u.power with groupsOff := u.power.groupsOff ++ [k.val] } } 81 State.locModule) :=
          by
  rw [show exec (.supplyTrip k high) s = execSupplyTrip k high s from rfl]
  unfold execSupplyTrip
  rw [if_neg (by simpa using h)]
  unfold State.isolateEach groupParishes State.sagged at hu ⊢
  dsimp only
  rw [if_pos ha, if_pos hu]

theorem supplyTrip_spec {s : State} {k : Fin 8} (h : k.val ∉ s.power.groupsOff) (v : Bool) (ha : s.power.auxOn = true) :
    let p := s.power
    ∃ t, exec (.supplyTrip k v) s = .next t ∧
      t.power = { p with busbar := trippedAt p.busbar v, groupsOff := p.groupsOff ++ [k.val], hot := t.power.hot, thermLow :=
          p.thermLow && !t.power.hot.isEmpty } ∧
      (∀ i, i ∈ t.power.hot ↔ i ∈ p.hot ∧ ¬ (i < 224 ∧ i / 4 % 8 = k.val)) ∧ (∀ r < 7, (t.parish (8 * r + k)).st = .tripped) ∧
      (∀ p, p % 8 ≠ k.val → t.parish p = s.parish p) ∧ (∀ p, 56 ≤ p → t.parish p = s.parish p) ∧ t.regs = s.regs ∧
      ∃ l e, t.reports = l ++ [e] ∧ e.source = 81 ∧ e.loc = State.locModule := by
  intro p
  obtain ⟨hregs, hhot, -, hpow, hpar⟩ := State.isolateEach_spec (groupParishes k) (s.sagged v)
  have hpow := hpow (by simp [groupParishes])
  have hx := exec_supplyTrip_on h v ha (by rw [hpow]; exact ha)
  generalize (s.sagged v).isolateEach (groupParishes k) = u at hregs hhot hpow hpar hx
  refine ⟨_, hx, ?_, fun i => ?_, fun r hr => ?_, fun j hj => ?_, fun j hj => ?_, hregs, ?_⟩
  · change { u.power with groupsOff := u.power.groupsOff ++ [k.val] } = _
    rw [hpow]
    rfl
  · refine (hhot i).trans ?_
    rw [mem_groupParishes _ _ k.isLt]
    exact and_congr_right fun _ => by omega
  · exact (hpar _).2 ((mem_groupParishes _ _ k.isLt).mpr (by omega))
  · exact (hpar j).1 fun hm => hj ((mem_groupParishes _ _ k.isLt).mp hm).2
  · exact (hpar j).1 fun hm => by
      have := ((mem_groupParishes _ _ k.isLt).mp hm).1
      omega
  · rw [State.raise_module]
    exact ⟨_, _, rfl, rfl, rfl⟩

theorem tripLatchClear_spec {s : State} (h : s.power.resetN = false ∨ s.power.busbar = .absent) :
    let p := s.power
    let off := if p.busbar = .absent then [] else p.groupsOff
    (p.auxOn = State.feeds p.busbar → exec .tripLatchClear s = .next
        { s with power := { p with tripLatch := false, groupsOff := off } }) ∧
      (p.auxOn ≠ State.feeds p.busbar → ∃ t, exec .tripLatchClear s = .next t ∧ Restarted s t ∧ t.power.tripLatch = false ∧
          t.power.groupsOff = off ∧
        t.power.auxOn = State.feeds p.busbar ∧ t.power.busbar = p.busbar ∧ t.power.resetN = p.resetN) := by
  intro p off
  have hx : exec .tripLatchClear s = .next ({ s with power := { p with tripLatch := false, groupsOff := off } } : State).supplyAux :=
    if_pos (by rcases h with h | h <;> simp [h])
  rw [hx]
  refine ⟨fun ha => ?_, fun ha => ?_⟩
  · rw [supplyAux_kept _ _ (by simp [ha])]
  · rw [restarted_of_supplyAux _ _ (by simpa using ha)]
    exact ⟨_, rfl, State.cold_restarted_power s _, rfl, rfl, by simp [State.cold_power], rfl, rfl⟩

theorem feeds_iff (b : Busbar) : State.feeds b = decide (b = .low ∨ b = .within ∨ b = .above) := by
  cases b <;> rfl

/-- A module reset that ends with its pulse (R22, R408). -/
theorem State.moduleReset_restarted (s : State) (p : Power) (g : Tab Gate) (n : Nat) :
    let t := ({ s with power := p, gates := g, freeCtr := n } : State).moduleReset
    Restarted s t ∧ t.power.groupsOff = [] ∧ t.power.busbar = p.busbar ∧ t.power.auxOn = p.auxOn ∧ t.power.resetN = p.resetN ∧
      t.power.tripLatch = p.tripLatch ∧ t.freeCtr = n :=
  ⟨State.cold_restarted_power s { p with groupsOff := [] }, rfl, rfl, rfl, rfl, rfl, rfl⟩

theorem modResetNRise_done {s : State} (hn : s.power.resetN = false) (hd : s.power.resetDone = true) :
    let p := s.power
    ∃ u, Restarted s u ∧ u.power.resetN = true ∧ u.power.busbar = p.busbar ∧ u.power.groupsOff = [] ∧
      (p.busbar = .within → p.auxOn = true → exec .modResetNRise s = .next u.begun) ∧
      ((p.busbar ≠ .within ∨ p.auxOn = false) → exec .modResetNRise s = .next u) := by
  intro p
  obtain ⟨hu, hg, hb, ha, hr, -, -⟩ :=
    State.moduleReset_restarted s { p with resetN := true, resetDone := false } (s.idleGates false) s.freeCtr
  refine ⟨_, hu, hr, hb, hg, fun hw hon => ?_, fun h => ?_⟩
  · have hx : exec .modResetNRise s = .next (State.tryBringUp _) := (if_neg (by simp [hn])).trans (if_pos hd)
    rw [hx]
    exact congrArg Host.Outcome.next (State.tryBringUp_begins (hb.trans hw) (ha.trans hon) hr rfl)
  · have hx : exec .modResetNRise s = .next (State.tryBringUp _) := (if_neg (by simp [hn])).trans (if_pos hd)
    rw [hx]
    refine congrArg Host.Outcome.next (State.tryBringUp_waits ?_)
    rcases h with h | h
    · exact .inl fun e => h (hb.symm.trans e)
    · exact .inr (.inl (ha.trans h))

theorem modResetNRise_short {s : State} (hn : s.power.resetN = false) (hd : s.power.resetDone = false) :
    let p := s.power
    ∃ t, exec .modResetNRise s = .next t ∧
      t.power.resetN = true ∧ t.freeCtr = s.freeCtr + 1 ∧ ((Config.freeWord s.freeCtr).getLsbD 0 = true ∧ t.parishes = [] ∧
          t.crofts = [] ∨
        (Config.freeWord s.freeCtr).getLsbD 0 = false ∧
          let u := { s with power := { p with resetN := true }, gates := s.idleGates false, freeCtr := s.freeCtr + 1 }
          (p.busbar = .within ∧ p.auxOn = true ∧ s.sec.running = false → t = u.begun) ∧
          (¬ (p.busbar = .within ∧ p.auxOn = true ∧ s.sec.running = false) → t = u)) := by
  intro p
  have hp : { p with resetN := true, resetDone := false } = { p with resetN := true } := by rw [← hd]
  have hx : exec .modResetNRise s = if (Config.freeWord s.freeCtr).getLsbD 0 = true then
        .next ({ s with power := { p with resetN := true }, gates := s.idleGates false, freeCtr := s.freeCtr + 1 } :
            State).moduleReset.tryBringUp
      else .next ({ s with power := { p with resetN := true }, gates := s.idleGates false, freeCtr := s.freeCtr + 1 } :
          State).tryBringUp := by
    rw [← hp]
    exact (if_neg (by simp [hn])).trans (if_neg (by simp [hd]))
  cases hf : (Config.freeWord s.freeCtr).getLsbD 0 with
  | true =>
    obtain ⟨⟨-, hpar, hcr, -⟩, -, -, -, hr, -, hc⟩ :=
      State.moduleReset_restarted s { p with resetN := true } (s.idleGates false) (s.freeCtr + 1)
    rw [hx, if_pos hf]
    refine ⟨_, rfl, ?_⟩
    unfold State.tryBringUp
    split
    · exact ⟨hr, hc, .inl ⟨rfl, hpar, hcr⟩⟩
    · exact ⟨hr, hc, .inl ⟨rfl, hpar, hcr⟩⟩
  | false =>
    rw [hx, if_neg (by rw [hf]; decide)]
    by_cases h : p.busbar = .within ∧ p.auxOn = true ∧ s.sec.running = false
    · obtain ⟨hb, ha, hs⟩ := h
      exact ⟨_, congrArg Host.Outcome.next (State.tryBringUp_begins hb ha rfl hs), rfl, rfl, .inr
          ⟨rfl, fun _ => rfl, fun hc => absurd ⟨hb, ha, hs⟩ hc⟩⟩
    · have h' : p.busbar ≠ .within ∨ p.auxOn = false ∨ s.sec.running = true := by simpa [imp_iff_not_or] using h
      exact ⟨_, congrArg Host.Outcome.next (State.tryBringUp_waits h'), rfl, rfl, .inr
          ⟨rfl, fun hc => absurd hc h, fun _ => rfl⟩⟩

/-- Settles O35. -/
theorem supplyAndResetAct : Obligations.SupplyAndResetAct := by
  unfold Obligations.SupplyAndResetAct
  intro s p fed begun
  have hfed : fed = State.feeds p.busbar := (feeds_iff p.busbar).symm
  refine ⟨fun hl hr => (busbarWithinLimits_spec hl hr).1, fun hl hr => (busbarWithinLimits_spec hl hr).2, fun hb hl ha => ?_,
    fun hb ha => ?_, fun hb hl ha => ?_, fun hb ha => ?_, fun hf => ?_, fun e b he => ?_,
    fun k v h ha => supplyTrip_spec h v ha, fun k v h ha => exec_supplyTrip_off h v ha, fun k v h => exec_supplyTrip_again h v,
    fun h => ?_, rfl, fun hn => ?_, modResetNRise_done, modResetNRise_short⟩
  · exact (auxConverterStart_within (c := .low) (i := true) (exec_auxConverterStart_low hb) rfl).1 hl ha
  · exact (auxConverterStart_within (c := .low) (i := true) (exec_auxConverterStart_low hb) rfl).2 ha
  · obtain ⟨t, hx, ht, hbus, -, hon⟩ := (auxConverterStart_within (exec_auxConverterStart_above hb) rfl).1 hl ha
    exact ⟨t, hx, ht, hbus, hon⟩
  · exact (auxConverterStart_within (exec_auxConverterStart_above hb) rfl).2 ha
  · exact exec_auxConverterStart_fed (hfed ▸ hf)
  · rcases he with ⟨rfl, rfl⟩ | ⟨rfl, rfl⟩
    · obtain ⟨ht, hb, ha, hl, -⟩ := supplyAux_cold s { p with busbar := .absent, inrush := false }
      exact ⟨_, rfl, ht, hb, ha, hl⟩
    · obtain ⟨ht, hb, ha, hl, -⟩ := supplyAux_cold s { p with busbar := .high }
      exact ⟨_, rfl, ht, hb, ha, hl⟩
  · rw [hfed]
    exact tripLatchClear_spec h
  · obtain ⟨ht, hg, hb, ha, hr, hl, -⟩ := State.moduleReset_restarted s p s.gates s.freeCtr
    exact ⟨_, if_neg (by simp [show s.power.resetN = false from hn]), ht, rfl, hg, hb, ha, hr.trans hn, hl⟩

end Sys2Proof.Machine

namespace Sys2Proof.Machine
open Sys2Proof.Safety

/-! ### Timing inputs -/

theorem exec_refclkLoss_ready {s : State} (hr : s.clock.refclk = true) (hu : s.up = true) (hs : s.sec.stage = 8) :
    exec .refclkLoss s = .next { s with
      clock := { s.clock with refclk := false, refclkOk := false }
      reports := s.reports ++ [s.eventOf 72 State.locModule 0 0 (some false) none] } := by
  refine (if_pos (by simp [hr, hu, hs])).trans ?_
  rw [State.raise_module]
  rfl

theorem exec_refclkLoss_quiet {s : State} (h : s.clock.refclk = false ∨ s.up = false ∨ s.sec.stage ≠ 8) :
    exec .refclkLoss s = .next { s with clock := { s.clock with refclk := false, refclkOk := false } } :=
  if_neg (by rcases h with h | h | h <;> simp [h])

/-- The module with REFCLK back. -/
def State.clocked (s : State) : State := { s with clock := { s.clock with refclk := true, refclkOk := s.alive } }

theorem State.restartStage_kept {s : State} (h : s.alive = false ∨ s.sec.fail ≠ 0 ∨ s.sec.stage = 0 ∨ 8 ≤ s.sec.stage) :
    s.restartStage = s :=
  if_neg (by
    rcases h with h | h | h | h
    · rw [show s.bringingUp = (s.alive && s.sec.fail == 0 && s.clock.refclk) from rfl, h]
      simp
    · simp [State.bringingUp, h]
    · simp [h]
    · simp only [Bool.and_eq_true, decide_eq_true_eq, not_and]
      omega)

theorem exec_refclkReturn_kept {s : State}
    (h : s.clock.refclk = true ∨ s.alive = false ∨ s.sec.fail ≠ 0 ∨ s.sec.stage = 0 ∨ 8 ≤ s.sec.stage) :
    exec .refclkReturn s = .next s.clocked := by
  change Host.Outcome.next (if s.clock.refclk = true then s.clocked else s.clocked.restartStage) = _
  rcases h with h | h
  · rw [if_pos h]
  · rw [State.restartStage_kept (s := s.clocked) h, ite_self]

theorem exec_refclkReturn_restarts {s : State} (h : s.clock.refclk = false) :
    exec .refclkReturn s = .next s.clocked.restartStage :=
  congrArg Host.Outcome.next (if_neg (by simp [h]))

section Epoch
variable {s : State} (ha : s.alive = true)
include ha

theorem exec_epochEdge_first (h : s.clock.epochSeen = false) : exec .epochEdge s = .next { s with clock := { s.clock with
    now := State.nearestMs s.clock.now, epochSeen := true, epochLock := true, missing := 0, slew := 0, slewPort := none } } :=
  (if_neg (by simp [ha])).trans (if_pos (by simp [h]))

theorem exec_epochEdge_locked (h : s.clock.epochSeen = true) (hl : s.clock.epochLock = true) : exec .epochEdge s =
    if ((State.nearestMs s.clock.now : Int) - s.clock.now).natAbs ≤ 2000 then .next { s with clock := { s.clock with
      slew := (State.nearestMs s.clock.now : Int) - s.clock.now, slewPort := none, missing := 0 } }
    else .next { s with clock := { s.clock with missing := s.clock.missing + 1 } } :=
  (if_neg (by simp [ha])).trans ((if_neg (by simp [h])).trans (if_pos hl))

theorem exec_epochEdge_lost (h : s.clock.epochSeen = true) (hl : s.clock.epochLock = false) :
    let d : Int := (State.nearestMs s.clock.now : Int) - s.clock.now
    let good := if d.natAbs ≤ 2000 then s.clock.goodEdges + 1 else 0
    exec .epochEdge s = .next { s with clock := { s.clock with
      slew := d, slewPort := none, goodEdges := good, epochLock := decide (3 ≤ good), missing := 0 } } :=
  (if_neg (by simp [ha])).trans ((if_neg (by simp [h])).trans (if_neg (by simp [hl])))

end Epoch

theorem exec_epochLoss {s : State} (h : s.clock.epochLock = true) : exec .epochLoss s = .next { s with
    clock := { s.clock with epochLock := false, goodEdges := 0, missing := 0 }
    reports := s.reports ++ [s.eventOf 73 State.locModule 0 0 (some false) none] } := by
  refine (if_pos h).trans ?_
  rw [State.raise_module]
  rfl

/-! ### Thermal alerts (R23) -/

/-- The sensors that stay above their release after a reading of sensor i. -/
def State.warmAfter (s : State) (i : Nat) (t threshold : Int) : List Nat :=
  if threshold - 24 < t then s.power.hot.filter (· ≠ i) ++ [i] else s.power.hot.filter (· ≠ i)

/-- The alert's level after the reading. -/
def State.lowAfter (s : State) (i : Nat) (t threshold : Int) : Bool :=
  if threshold ≤ t then true else s.power.thermLow && !(s.warmAfter i t threshold).isEmpty

theorem State.alert_eq (s : State) (i : Nat) (t threshold : Int) : s.alert i t threshold = { s with
    power := { s.power with hot := s.warmAfter i t threshold, thermLow := s.lowAfter i t threshold }
    reports := s.reports ++ if s.lowAfter i t threshold && !s.power.thermLow then
      [s.eventOf 75 State.locModule 0 0 (some false) none] else [] } := by
  unfold State.alert
  extract_lets warm low was u
  have hl : low = s.lowAfter i t threshold := rfl
  split
  · next h =>
    rw [State.raise_module, if_pos (hl ▸ h)]
    rfl
  · next h =>
    rw [if_neg (hl ▸ h), List.append_nil]
    rfl

theorem State.lowAfter_of_hot (s : State) (i : Nat) {t threshold : Int} (h : threshold ≤ t) : s.lowAfter i t threshold = true :=
  if_pos h

theorem State.lowAfter_of_cool (s : State) (i : Nat) {t threshold : Int} (h : t < threshold) (hl : s.power.thermLow = false) :
    s.lowAfter i t threshold = false := by
  unfold State.lowAfter
  rw [if_neg (by omega), hl, Bool.false_and]

/-- A reading adds to the events at most, and raises the alert where it stands at the threshold. -/
theorem State.alert_reports (s : State) (i : Nat) (t threshold : Int) :
    (∃ l, (s.alert i t threshold).reports = s.reports ++ l) ∧
      (s.power.thermLow = false → threshold ≤ t → ∃ e, (s.alert i t threshold).reports = s.reports ++ [e] ∧ e.source = 75) ∧
      (s.power.thermLow = false → t < threshold → (s.alert i t threshold).reports = s.reports ∧
        (s.alert i t threshold).power.thermLow = false) := by
  rw [State.alert_eq]
  refine ⟨⟨_, rfl⟩, fun hl ht => ⟨s.eventOf 75 State.locModule 0 0 (some false) none, ?_, rfl⟩,
    fun hl ht => ⟨?_, State.lowAfter_of_cool s i ht hl⟩⟩
  · dsimp only
    rw [State.lowAfter_of_hot s i ht, hl]
    rfl
  · dsimp only
    rw [State.lowAfter_of_cool s i ht hl]
    exact List.append_nil _

theorem coolantReading_spec {s : State} (inlet outlet : W16) (ha : s.alive = true) : ∃ t, exec (.coolantReading inlet outlet) s
    = .next t ∧
    t.reg Reg.modCoolant = BitVec.ofNat 64 (outlet.toNat * 2 ^ 16 + inlet.toNat) ∧
    t = { s with regs := t.regs, power := t.power, reports := t.reports } ∧
    (480 ≤ outlet.toInt → t.power.thermLow = true ∧ (s.power.thermLow = false → ∃ e, t.reports = s.reports ++ [e] ∧ e.source =
        75)) ∧
    (outlet.toInt < 480 → s.power.thermLow = false → t.power.thermLow = false ∧ t.reports = s.reports) ∧
    (outlet.toInt ≤ 456 → (∀ i ∈ s.power.hot, i = 224) → t.power.thermLow = false) := by
  have hx : exec (.coolantReading inlet outlet) s = .next
      ((s.setReg Reg.modCoolant (BitVec.ofNat 64 (outlet.toNat * 2 ^ 16 + inlet.toNat))).alert 224 outlet.toInt 480) := if_pos
          ha
  generalize hu : s.setReg Reg.modCoolant (BitVec.ofNat 64 (outlet.toNat * 2 ^ 16 + inlet.toNat)) = u at hx
  have hreg : u.reg Reg.modCoolant = BitVec.ofNat 64 (outlet.toNat * 2 ^ 16 + inlet.toNat) := hu ▸ State.reg_setReg_same _ _ _
  have hs : u = { s with regs := u.regs } := hu ▸ rfl
  have hp : u.power = s.power := hu ▸ rfl
  have hr : u.reports = s.reports := hu ▸ rfl
  obtain ⟨-, hhot, hcool⟩ := State.alert_reports u 224 outlet.toInt 480
  rw [hp, hr] at hhot hcool
  refine ⟨_, hx, ?_, ?_, fun h => ⟨?_, fun hl => hhot hl h⟩, fun h hl => (hcool hl h).symm, fun h hall => ?_⟩
  · rw [State.alert_eq]
    exact hreg
  · rw [State.alert_eq, hs]
  · rw [State.alert_eq]
    exact State.lowAfter_of_hot u 224 h
  · have hw : u.warmAfter 224 outlet.toInt 480 = [] := by
      unfold State.warmAfter
      rw [if_neg (by omega), hp, List.filter_eq_nil_iff]
      exact fun i hi => by simp [hall i hi]
    rw [State.alert_eq]
    change u.lowAfter 224 outlet.toInt 480 = false
    unfold State.lowAfter
    rw [if_neg (by omega), hw]
    exact Bool.and_false _

/-! ### Sensors -/

/-- The readings that the reeve of a parish publishes (R48). -/
def Parish.published (v : Parish) (s0 s1 s2 s3 cv nv ci ni : W16) : Parish :=
  let two (hi lo : W16) : W64 := BitVec.ofNat 64 (hi.toNat * 2 ^ 16 + lo.toNat)
  (((v.setReg Reg.parTempA (two s1 s0)).setReg Reg.parTempB (two s3 s2)).setReg Reg.parRail (two cv nv)).setReg Reg.parCurrent (two ci ni)

/-- The module with a parish's readings published. -/
def State.published (s : State) (p : Nat) (s0 s1 s2 s3 cv nv ci ni : W16) : State :=
  let t := s.setParish p ((s.parish p).published s0 s1 s2 s3 cv nv ci ni)
  t.setReg Reg.modWaferTemp t.waferTemp

/-- The first of four readings at the trip threshold. -/
def tripReading (s0 s1 s2 s3 : W16) : Option W16 := [s0, s1, s2, s3].find? fun t => State.waferTrip ≤ t.toInt

theorem exec_sensorReading_live {s : State} {p : Par} (hn : (s.parish p).net = true) (ha : s.alive = true)
    (s0 s1 s2 s3 cv nv ci ni : W16) : exec (.sensorReading p s0 s1 s2 s3 cv nv ci ni) s =
      let u := s.published p s0 s1 s2 s3 cv nv ci ni
      match tripReading s0 s1 s2 s3 with
      | some t => .next (u.thermalTrip t p)
      | none => .next ((((u.alert (4 * p) s0.toInt 760).alert (4 * p + 1) s1.toInt 760).alert (4 * p + 2) s2.toInt 760).alert
          (4 * p + 3) s3.toInt 760) := by
  refine (if_neg (by simp [hn, ha])).trans ?_
  rfl

theorem exec_sensorReading_dead {s : State} {p : Par} (h : (s.parish p).net = false ∨ s.alive = false)
    (s0 s1 s2 s3 cv nv ci ni : W16) : exec (.sensorReading p s0 s1 s2 s3 cv nv ci ni) s =
      match tripReading s0 s1 s2 s3 with
      | some t => if s.power.busbar = .absent then .next s else .next (s.thermalTrip t p)
      | none => .next s := by
  refine (if_pos (by rcases h with h | h <;> simp [h])).trans ?_
  rfl

theorem tripReading_none {s0 s1 s2 s3 : W16} (h : ∀ x ∈ [s0, s1, s2, s3], x.toInt < 880) : tripReading s0 s1 s2 s3 = none := by
  refine List.find?_eq_none.mpr fun x hx hd => ?_
  have hd : (880 : Int) ≤ x.toInt := of_decide_eq_true hd
  have := h x hx
  omega

theorem tripReading_some {s0 s1 s2 s3 : W16} (h : ∃ x ∈ [s0, s1, s2, s3], 880 ≤ x.toInt) :
    ∃ x, tripReading s0 s1 s2 s3 = some x ∧ x ∈ [s0, s1, s2, s3] ∧ 880 ≤ x.toInt := by
  obtain ⟨x, hx, ht⟩ := h
  have : (tripReading s0 s1 s2 s3).isSome = true := by
    rw [tripReading, List.find?_isSome]
    exact ⟨x, hx, decide_eq_true ht⟩
  obtain ⟨y, hy⟩ := Option.isSome_iff_exists.mp this
  have hd := List.find?_some hy
  exact ⟨y, hy, List.mem_of_find?_eq_some hy, of_decide_eq_true hd⟩

theorem thermalTrip_spec (s : State) (x : W16) (p : Nat) :
    let t := s.thermalTrip x p
    Restarted s t ∧ t.power.tripLatch = true ∧ t.power.auxOn = false ∧
      t.power.tripRecord = some (BitVec.ofNat 64 (x.toNat + p * 2 ^ 16)) := by
  obtain ⟨ht, -, ha, hl, hr⟩ := supplyAux_cold s { s.power with tripLatch := true, tripRecord := some (BitVec.ofNat 64 (x.toNat + p * 2 ^ 16)) }
  exact ⟨ht, hl, ha.trans (by simp), hr⟩

/-- An alert changes nothing but the alert and the events. -/
theorem State.alert_keeps (s : State) (i : Nat) (t threshold : Int) (p : Nat) :
    (s.alert i t threshold).parish p = s.parish p ∧ (s.alert i t threshold).crofts = s.crofts ∧
      (s.alert i t threshold).regs = s.regs ∧ (s.alert i t threshold).waferTemp = s.waferTemp := by
  rw [State.alert_eq]
  exact ⟨rfl, rfl, rfl, rfl⟩

/-- A chain of readings of sensors, each with its threshold at the wafer's alert. -/
def State.alertAll (s : State) (l : List (Nat × Int)) : State := l.foldl (fun s e => s.alert e.1 e.2 760) s

theorem State.alertAll_keeps (l : List (Nat × Int)) : ∀ (s : State) (p : Nat),
    (s.alertAll l).parish p = s.parish p ∧ (s.alertAll l).crofts = s.crofts ∧ (s.alertAll l).regs = s.regs ∧
      (s.alertAll l).waferTemp = s.waferTemp := by
  induction l with
  | nil => exact fun s p => ⟨rfl, rfl, rfl, rfl⟩
  | cons e l ih =>
    intro s p
    obtain ⟨h1, h2, h3, h4⟩ := State.alert_keeps s e.1 e.2 760 p
    obtain ⟨g1, g2, g3, g4⟩ := ih (s.alert e.1 e.2 760) p
    exact ⟨g1.trans h1, g2.trans h2, g3.trans h3, g4.trans h4⟩

theorem State.alertAll_reports (l : List (Nat × Int)) : ∀ s : State, ∃ r, (s.alertAll l).reports = s.reports ++ r := by
  induction l with
  | nil => exact fun s => ⟨[], (List.append_nil _).symm⟩
  | cons e l ih =>
    intro s
    obtain ⟨⟨r, hr⟩, -⟩ := State.alert_reports s e.1 e.2 760
    obtain ⟨r', hr'⟩ := ih (s.alert e.1 e.2 760)
    refine ⟨r ++ r', hr'.trans ?_⟩
    rw [hr, List.append_assoc]

/-- A hot reading among several raises the alert's event first. -/
theorem State.alertAll_hot (l : List (Nat × Int)) (h : ∃ e ∈ l, 760 ≤ e.2) : ∀ s : State, s.power.thermLow = false →
    ∃ a r, (s.alertAll l).reports = s.reports ++ a :: r ∧ a.source = 75 := by
  induction l with
  | nil => simp at h
  | cons e l ih =>
    intro s hl
    obtain ⟨-, hhot, hcool⟩ := State.alert_reports s e.1 e.2 760
    by_cases he : 760 ≤ e.2
    · obtain ⟨a, ha, hs⟩ := hhot hl he
      obtain ⟨r, hr⟩ := State.alertAll_reports l (s.alert e.1 e.2 760)
      refine ⟨a, r, hr.trans ?_, hs⟩
      rw [ha, List.append_assoc]
      rfl
    · obtain ⟨hr, hl'⟩ := hcool hl (by omega)
      obtain ⟨a, r, hx, hs⟩ := ih (by simpa [he] using h) (s.alert e.1 e.2 760) hl'
      exact ⟨a, r, hr ▸ hx, hs⟩

theorem Parish.published_spec (v : Parish) (s0 s1 s2 s3 cv nv ci ni : W16) :
    let w := v.published s0 s1 s2 s3 cv nv ci ni
    w.reg Reg.parTempA = BitVec.ofNat 64 (s1.toNat * 2 ^ 16 + s0.toNat) ∧
      w.reg Reg.parTempB = BitVec.ofNat 64 (s3.toNat * 2 ^ 16 + s2.toNat) ∧
      w.reg Reg.parRail = BitVec.ofNat 64 (cv.toNat * 2 ^ 16 + nv.toNat) ∧
      w.reg Reg.parCurrent = BitVec.ofNat 64 (ci.toNat * 2 ^ 16 + ni.toNat) := by
  unfold Parish.published
  simp [Parish.reg_setReg, Reg.parTempA, Reg.parTempB, Reg.parRail, Reg.parCurrent]

theorem State.published_spec (s : State) (p : Nat) (s0 s1 s2 s3 cv nv ci ni : W16) :
    let u := s.published p s0 s1 s2 s3 cv nv ci ni
    u.parish p = (s.parish p).published s0 s1 s2 s3 cv nv ci ni ∧ u.reg Reg.modWaferTemp = u.waferTemp ∧
      (∀ j, j ≠ p → u.parish j = s.parish j) ∧ u.crofts = s.crofts ∧ u.reports = s.reports ∧ u.power = s.power :=
  ⟨State.parish_setParish_same _ _ _, State.reg_setReg_same _ _ _, fun _ hj => State.parish_setParish_ne s _ hj, rfl, rfl, rfl⟩

theorem sensorReading_spec {s : State} {p : Par} (hn : (s.parish p).net = true) (ha : s.alive = true)
    (s0 s1 s2 s3 cv nv ci ni : W16) (hx : ∀ x ∈ [s0, s1, s2, s3], x.toInt < 880) :
    ∃ t, exec (.sensorReading p s0 s1 s2 s3 cv nv ci ni) s = .next t ∧
      (t.parish p).reg Reg.parTempA = BitVec.ofNat 64 (s1.toNat * 2 ^ 16 + s0.toNat) ∧
      (t.parish p).reg Reg.parTempB = BitVec.ofNat 64 (s3.toNat * 2 ^ 16 + s2.toNat) ∧
      (t.parish p).reg Reg.parRail = BitVec.ofNat 64 (cv.toNat * 2 ^ 16 + nv.toNat) ∧
      (t.parish p).reg Reg.parCurrent = BitVec.ofNat 64 (ci.toNat * 2 ^ 16 + ni.toNat) ∧
      t.reg Reg.modWaferTemp = t.waferTemp ∧
      (∀ j, j ≠ p.val → t.parish j = s.parish j) ∧ t.crofts = s.crofts ∧
      ((∃ x ∈ [s0, s1, s2, s3], 760 ≤ x.toInt) → s.power.thermLow = false →
        (∃ a l, t.reports = s.reports ++ a :: l ∧ a.source = 75)) := by
  have he := exec_sensorReading_live hn ha s0 s1 s2 s3 cv nv ci ni
  rw [tripReading_none hx] at he
  obtain ⟨hp, hw, hj, hc, hr, hpow⟩ := State.published_spec s p s0 s1 s2 s3 cv nv ci ni
  obtain ⟨hA, hB, hR, hC⟩ := Parish.published_spec (s.parish p) s0 s1 s2 s3 cv nv ci ni
  generalize s.published p s0 s1 s2 s3 cv nv ci ni = u at he hp hw hj hc hr hpow
  obtain ⟨l, hl, he⟩ : ∃ l : List (Nat × Int), l.map Prod.snd = [s0.toInt, s1.toInt, s2.toInt, s3.toInt] ∧
      exec (.sensorReading p s0 s1 s2 s3 cv nv ci ni) s = .next (u.alertAll l) :=
    ⟨[(4 * p.val, s0.toInt), (4 * p.val + 1, s1.toInt), (4 * p.val + 2, s2.toInt), (4 * p.val + 3, s3.toInt)], rfl, he⟩
  have hk := State.alertAll_keeps l u
  have hhot := fun h => State.alertAll_hot l h u
  refine ⟨_, he, ?_⟩
  obtain ⟨hpt, hct, hrt, hwt⟩ := hk p
  generalize u.alertAll l = t at hk hpt hct hrt hwt hhot ⊢
  rw [hpt, hp]
  refine ⟨hA, hB, hR, hC, ?_, fun j h => (hk j).1.trans (hj j h), hct.trans hc, fun hex hlow => ?_⟩
  · have : t.reg Reg.modWaferTemp = u.reg Reg.modWaferTemp := congrArg (fun r => Tab.get moduleReset r Reg.modWaferTemp) hrt
    rw [this, hw]
    exact hwt.symm
  · rw [← hr]
    obtain ⟨x, hx, h760⟩ := hex
    have hm : x.toInt ∈ l.map Prod.snd := by
      rw [hl]
      exact List.mem_map_of_mem (f := BitVec.toInt) hx
    obtain ⟨e, he, hex⟩ := List.mem_map.mp hm
    exact hhot ⟨e, he, hex ▸ h760⟩ (hpow ▸ hlow)

theorem sensorReading_trips {s : State} {p : Par} (s0 s1 s2 s3 cv nv ci ni : W16)
    (h : (s.parish p).net = true ∧ s.alive = true ∨ s.power.busbar ≠ .absent) (hx : ∃ x ∈ [s0, s1, s2, s3], 880 ≤ x.toInt) :
    ∃ t x, exec (.sensorReading p s0 s1 s2 s3 cv nv ci ni) s = .next t ∧ Restarted s t ∧
      x ∈ [s0, s1, s2, s3] ∧ 880 ≤ x.toInt ∧ t.power.tripLatch = true ∧ t.power.auxOn = false ∧
      t.power.tripRecord = some (BitVec.ofNat 64 (x.toNat + p * 2 ^ 16)) := by
  obtain ⟨x, hf, hm, hge⟩ := tripReading_some hx
  by_cases hlive : (s.parish p).net = true ∧ s.alive = true
  · have he := exec_sensorReading_live hlive.1 hlive.2 s0 s1 s2 s3 cv nv ci ni
    rw [hf] at he
    obtain ⟨ht, hl, ha, hr⟩ := thermalTrip_spec (s.published p s0 s1 s2 s3 cv nv ci ni) x p
    exact ⟨_, x, he, ht, hm, hge, hl, ha, hr⟩
  · have he := exec_sensorReading_dead (by simpa [imp_iff_not_or] using hlive) s0 s1 s2 s3 cv nv ci ni
    rw [hf] at he
    obtain ⟨ht, hl, ha, hr⟩ := thermalTrip_spec s x p
    exact ⟨_, x, he.trans (if_neg (h.resolve_left hlive)), ht, hm, hge, hl, ha, hr⟩

/-! ### The service connector -/

theorem twb_mine (addr : BitVec 7) (n : BitVec 3) : addr = 0x50 + n.setWidth 7 ↔ addr.toNat = 0x50 + n.toNat := by
  bv_omega

theorem State.pins_live {s : State} : s.pins = .live ↔ s.alive = true := by
  unfold State.pins State.alive State.up
  cases s.power.auxOn <;> cases s.power.resetN <;> cases s.sec.running <;> simp

theorem State.pins_off {s : State} : s.pins = .off ↔ s.power.auxOn = false := by
  unfold State.pins
  cases s.power.auxOn <;> cases s.alive <;> simp

theorem exec_twbRead_mine {s : State} {addr : BitVec 7} (off : W16) (ha : s.alive = true) (hs : 5 ≤ s.sec.stage)
    (hm : addr.toNat = 0x50 + s.slotId.toNat) :
    exec (.twbRead { addr, off }) s = .next { s with twb := some ((s.modRead off.toNat).setWidth 32) } := by
  have h : s.twbAnswers = true ∧ addr = 0x50 + s.slotId.setWidth 7 :=
    ⟨by simp [State.twbAnswers, State.pins_live, ha, hs], (twb_mine addr s.slotId).mpr hm⟩
  change Host.Outcome.next { s with twb := if s.twbAnswers = true ∧ addr = 0x50 + s.slotId.setWidth 7 then _ else none } = _
  rw [if_pos h]

theorem exec_twbRead_none {s : State} {addr : BitVec 7} (off : W16)
    (h : s.alive = false ∨ s.sec.stage < 5 ∨ addr.toNat ≠ 0x50 + s.slotId.toNat) :
    exec (.twbRead { addr, off }) s = .next { s with twb := none } := by
  have hn : ¬ (s.twbAnswers = true ∧ addr = 0x50 + s.slotId.setWidth 7) := by
    rw [twb_mine]
    rintro ⟨h1, h2⟩
    have h1 : s.alive = true ∧ 5 ≤ s.sec.stage := by simpa [State.twbAnswers, State.pins_live] using h1
    rcases h with h | h | h
    · simp [h] at h1
    · omega
    · exact h h2
  change Host.Outcome.next { s with twb := if s.twbAnswers = true ∧ addr = 0x50 + s.slotId.setWidth 7 then _ else none } = _
  rw [if_neg hn]

/-- What the boundary-scan register takes with SAMPLE and EXTEST. -/
theorem State.capture_eq {s : State} (ha : s.power.auxOn = true) (i : TapInstr) : ({ s with tap := i } : State).capture =
    { s with
    tap := i, freeCtr := s.freeCtr + 1
    bscan := { s.bscan with taken :=
      [if i = .extest then s.bscan.latch.getD 0 true else !(s.alive && s.faults.bellLow),
       if i = .extest then s.bscan.latch.getD 1 true else !(s.alive && s.power.thermLow), s.power.resetN,
       s.slotId.getLsbD 0, s.slotId.getLsbD 1, s.slotId.getLsbD 2, false] ++ Config.netLevels s.freeCtr } } := by
  have hpins : ({ s with tap := i } : State).pins = s.pins := rfl
  have hoff : s.pins ≠ .off := by
    rw [ne_eq, State.pins_off, ha]
    decide
  have hlive : (decide (s.pins = .live)) = s.alive := by
    rw [Bool.eq_iff_iff, decide_eq_true_eq]
    exact State.pins_live
  unfold State.capture State.bellPin State.alertPin State.scanned
  by_cases hi : i = .extest
  · subst hi
    simp [hpins, hoff]
  · simp [hi, hpins, hlive]

/-- Settles O37. -/
theorem timingInputsAndReadings : Obligations.TimingInputsAndReadings := by
  unfold Obligations.TimingInputsAndReadings
  refine ⟨fun s => ?_, fun s => ?_⟩
  · refine ⟨exec_refclkLoss_ready, exec_refclkLoss_quiet, exec_refclkReturn_kept, exec_refclkReturn_restarts, fun h => if_pos (by simp [h]),
      fun ha => exec_epochEdge_first ha, fun ha h hl hd => (exec_epochEdge_locked ha h hl).trans (if_pos hd),
      fun ha h hl hd => (exec_epochEdge_locked ha h hl).trans (if_neg (Nat.not_le.mpr hd)),
      fun ha h hl => exec_epochEdge_lost ha h hl, exec_epochLoss, fun h => if_neg (by simp [h])⟩
  · refine ⟨fun k i v ha => if_pos ha, fun k i v ha => if_neg (by simp [ha]), fun i o ha => coolantReading_spec i o ha,
      fun i o ha => if_neg (by simp [ha]), fun p s0 s1 s2 s3 cv nv ci ni hn ha hx => sensorReading_spec hn ha s0 s1 s2 s3 cv nv
          ci ni hx,
      fun p s0 s1 s2 s3 cv nv ci ni hd hx => ?_, fun p s0 s1 s2 s3 cv nv ci ni h hx => sensorReading_trips s0 s1 s2 s3 cv nv ci
          ni h hx,
      fun addr off => exec_twbRead_mine off, fun addr off => exec_twbRead_none off, fun i ha => if_pos (State.pins_off.mpr ha),
          fun ha => ?_⟩
    · rw [exec_sensorReading_dead hd]
      rcases hx with hx | hx
      · rw [tripReading_none hx]
      · cases tripReading s0 s1 s2 s3 with
        | none => rfl
        | some t => exact if_pos hx
    · have hoff : ¬ s.pins = .off := by
        rw [State.pins_off, ha]
        decide
      refine ⟨if_neg hoff, fun i hi => ?_, fun cells => if_neg hoff, fun n => if_neg hoff⟩
      rcases hi with rfl | rfl
      · exact (if_neg hoff).trans (congrArg Host.Outcome.next (State.capture_eq ha _))
      · exact (if_neg hoff).trans (congrArg Host.Outcome.next (State.capture_eq ha _))

end Sys2Proof.Machine

namespace Sys2Proof.Machine
open Sys2Proof.Safety

/-! ### Routers, links and parishes that die -/

/-- A router's event is reported by the reeve of its parish, where its network domain is on. -/
theorem State.raise_router (s : State) (q code : Nat) (pl : Plane) (hq : q < 28000) (hn : (s.parish (State.parOf q)).net = true)
    :
    s.raise code (State.locRouter q (State.planeCode pl)) =
      raisedAt s (some (0x7200 + State.parOf q)) (s.eventOf code (State.locRouter q (State.planeCode pl)) 0 0 (some false) none)
          := by
  rw [State.raise_eq]
  have hl : (State.locRouter q (State.planeCode pl)).toNat = 268435456 + (State.planeCode pl * 65536 + q) := by
    cases pl <;> simp [State.locRouter, unitCode, State.planeCode] <;> omega
  have hk : (268435456 + (State.planeCode pl * 65536 + q)) / 268435456 = 1 := by
    cases pl <;> simp only [State.planeCode] <;> omega
  have hi : (268435456 + (State.planeCode pl * 65536 + q)) % 2 ^ 28 % 2 ^ 15 = q := by
    cases pl <;> simp only [State.planeCode] <;> omega
  have hi' : (268435456 + (State.planeCode pl * 65536 + q)) % 2 ^ 15 = q := by
    cases pl <;> simp only [State.planeCode] <;> omega
  have h1 : s.mayRaise (s.eventOf code (State.locRouter q (State.planeCode pl)) 0 0 (some false) none) = true := by
    simp only [State.mayRaise, State.eventOf, hl]
    rw [show (2 : Nat) ^ 28 = 268435456 from rfl, hk, hi']
    exact hn
  have h2 : State.reporter (s.eventOf code (State.locRouter q (State.planeCode pl)) 0 0 (some false) none) =
      some (0x7200 + State.parOf q) := by
    simp only [State.reporter, State.eventOf, hl]
    rw [hi, show (2 : Nat) ^ 28 = 268435456 from rfl, hk]
    rfl
  exact (if_pos h1).trans (by rw [h2])

/-- What a check of R69 leaves of the module: events and packets are added, and a parish may begin to die. -/
theorem State.checkParish_spec (s : State) (p : Nat) (hp : p < 56) :
    let t := s.checkParish p
    t.deadR = s.deadR ∧ t.crofts = s.crofts ∧ (∃ l, t.reports = s.reports ++ l) ∧ ∃ l, t.outq = s.outq ++ l := by
  unfold State.checkParish
  extract_lets v t
  subst t
  split
  · rw [State.raise_parish _ p 71 hp (by decide)]
    exact ⟨rfl, rfl, ⟨_, rfl⟩, ⟨_, rfl⟩⟩
  · exact ⟨rfl, rfl, ⟨[], (List.append_nil _).symm⟩, ⟨[], (List.append_nil _).symm⟩⟩

/-- A router marked dead: its croft fenced (R66). -/
def State.routerLost (s : State) (q : Nat) (pl : Plane) : State :=
  ({ s with deadR := s.deadR ++ [2 * q + State.planeCode pl] } : State).setCroft q (fencedTo (s.croft q))

theorem exec_routerDead {s : State} {q : Phys} {pl : Plane} (hd : s.routerDead q pl = false)
    (hn : (s.parish (State.parOf q)).net = true) : exec (.routerDead q pl) s =
      .next ((raisedAt (s.routerLost q pl) (some (0x7200 + State.parOf q))
        ((s.routerLost q pl).eventOf 67 (State.locRouter q (State.planeCode pl)) 0 0 (some false) none)).checkParish
            (State.parOf q)) := by
  have hnot : ¬ (s.routerDead q pl || !(s.parish (State.parOf q)).net) = true := by simp [hd, hn]
  have hm : s.markRouter q pl = raisedAt (s.routerLost q pl) (some (0x7200 + State.parOf q))
      ((s.routerLost q pl).eventOf 67 (State.locRouter q (State.planeCode pl)) 0 0 (some false) none) := by
    unfold State.markRouter
    rw [if_neg hnot]
    dsimp only
    rw [State.onCroft_fence]
    exact State.raise_router (s.routerLost q pl) q 67 pl q.isLt hn
  change Host.Outcome.next (s.markDead q pl) = _
  unfold State.markDead
  rw [if_neg hnot, hm]

theorem routerDead_spec {s : State} {q : Phys} {pl : Plane} (hd : s.routerDead q pl = false)
    (hn : (s.parish (State.parOf q)).net = true) :
    ∃ t e l, exec (.routerDead q pl) s = .next t ∧ t.deadR = s.deadR ++ [2 * q + State.planeCode pl] ∧
        bit (regOf (t.croft q) Reg.crfCtrl) 0 = true ∧ UnitsIdle (t.croft q) ∧ (∀ j, j ≠ q.val → t.croft j = s.croft j) ∧
        t.reports = s.reports ++ e :: l ∧ e.source = 67 ∧ e.loc = State.locRouter q (State.planeCode pl) ∧
        reportPacket s (0x7200 + State.parOf q) e ∈ t.outq := by
  have hq : State.parOf q < 56 := by
    have := q.isLt
    unfold State.parOf
    omega
  obtain ⟨e, u, hu, hx, hsrc, hloc⟩ : ∃ e u, u = raisedAt (s.routerLost q pl) (some (0x7200 + State.parOf q)) e ∧
      exec (.routerDead q pl) s = .next (u.checkParish (State.parOf q)) ∧ e.source = 67 ∧ e.loc = State.locRouter q
          (State.planeCode pl) :=
    ⟨_, _, rfl, exec_routerDead hd hn, rfl, rfl⟩
  obtain ⟨hdead, hcr, ⟨l, hl⟩, ⟨m, hm⟩⟩ := State.checkParish_spec u (State.parOf q) hq
  have hc (j : Nat) : u.croft j = (s.setCroft q (fencedTo (s.croft q))).croft j := by
    rw [hu]
    rfl
  have hr : u.reports = s.reports ++ [e] := by
    rw [hu]
    rfl
  have ho : reportPacket s (0x7200 + State.parOf q) e ∈ u.outq := by
    rw [hu]
    exact List.mem_append_right _ (List.mem_singleton.mpr rfl)
  have hdr : u.deadR = s.deadR ++ [2 * q + State.planeCode pl] := by
    rw [hu]
    rfl
  generalize u.checkParish (State.parOf q) = t at hx hdead hcr hl hm
  have htc (j : Nat) : t.croft j = (s.setCroft q (fencedTo (s.croft q))).croft j :=
    (congrArg (fun c => Tab.get (fun _ => ({} : Croft)) c j) hcr).trans (hc j)
  obtain ⟨hb, hi, -⟩ := fencedTo_fenced (s.croft q)
  refine ⟨t, e, l, hx, hdead.trans hdr, ?_, ?_, fun j hj => ?_, ?_, hsrc, hloc, ?_⟩
  · rw [htc, State.croft_setCroft_same]
    exact hb
  · rw [htc, State.croft_setCroft_same]
    exact hi
  · rw [htc, State.croft_setCroft_ne s _ hj]
  · rw [hl, hr, List.append_assoc]
    rfl
  · rw [hm]
    exact List.mem_append_left _ ho

/-- A link marked down while the module is up (R65). -/
theorem linkDown_spec {s : State} {l : Link} (hu : s.up = true) (hl : l ∉ s.linksDown) : ∃ t, exec (.linkDown l) s = .next t ∧
    t.linksDown = s.linksDown ++ [l] ∧
    t = { s with linksDown := t.linksDown, flights := t.flights } ∧ t.flights.length = s.flights.length ∧
    ∀ (i : Nat) (f : Flight), s.flights[i]? = some f →
      (f.via = some l ∧ f.here = false → t.flights[i]? = some { f with pkt := { f.pkt with poison := true } }) ∧
      (f.via ≠ some l ∨ f.here = true → t.flights[i]? = some f) := by
  have hx : exec (.linkDown l) s = .next (s.downLink l) := congrArg Host.Outcome.next (if_pos hu)
  refine ⟨_, hx, ?_⟩
  unfold State.downLink
  rw [if_neg (by simpa using hl)]
  refine ⟨rfl, rfl, List.length_map _, fun i f hi => ⟨fun hc => ?_, fun hc => ?_⟩⟩
  · rw [List.getElem?_map, hi]
    exact congrArg some (if_pos ⟨hc.1, by simp [hc.2]⟩)
  · rw [List.getElem?_map, hi]
    refine congrArg some (if_neg fun h => ?_)
    rcases hc with hc | hc
    · exact hc h.1
    · simp [hc] at h

theorem parishDeadIsolate_spec {s : State} {p : Par} (h : (s.parish p).dying = true) : ∃ t, exec (.parishDeadIsolate p) s =
    .next t ∧
    (t.parish p).st = .tripped ∧ (t.parish p).dying = false ∧ (∀ j, j ≠ p.val → t.parish j = s.parish j) ∧
    (∀ q, State.parOf q = p → bit (regOf (t.croft q) Reg.crfCtrl) 0 = true ∧ UnitsIdle (t.croft q)) ∧
    (∀ q, State.parOf q ≠ p → t.croft q = s.croft q) := by
  have hx : exec (.parishDeadIsolate p) s = .next (s.isolate p) := if_pos h
  obtain ⟨hp, hin, hout, -⟩ := State.isolate_spec s p
  generalize s.isolate p = t at hx hp hin hout
  have hpp := (hp p).trans (if_pos rfl)
  refine ⟨t, hx, by rw [hpp]; rfl, by rw [hpp]; rfl, fun j hj => by rw [hp, if_neg hj], fun q hq => ?_, hout⟩
  obtain ⟨hb, hi, -⟩ := fencedTo_fenced (s.croft q)
  rw [hin q hq]
  exact ⟨hb, hi⟩

/-! ### Tables -/

theorem get_foldl_set {α : Type} [DecidableEq α] (d : Nat → α) (v : α) (l : List Nat) (x : Nat) : ∀ t : Tab α,
    Tab.get d (l.foldl (fun t i => Tab.set d t i v) t) x = if x ∈ l then v else Tab.get d t x := by
  induction l with
  | nil => exact fun t => by simp
  | cons i l ih =>
    intro t
    rw [List.foldl_cons, ih, Tab.get_set]
    by_cases hx : x = i
    · simp [hx]
    · simp [hx]

theorem Group.commit_spec (lo hi : W32) : (Group.commit lo hi).lo = lo ∧
    ((Group.commit lo hi).valid = true ↔ hi.getLsbD 31 = true ∧ bitsOf lo.toNat 7 0 ≤ bitsOf lo.toNat 15 8 ∧ bitsOf lo.toNat 15
        8 ≤ 191 ∧
      bitsOf lo.toNat 23 16 ≤ bitsOf lo.toNat 31 24 ∧ bitsOf lo.toNat 31 24 ≤ 139) := by
  have hv (w : W32) : Group.valid { lo, hi := w } = w.getLsbD 31 := by
    rw [Bool.eq_iff_iff]
    unfold Group.valid bitsOf
    rw [decide_eq_true_eq, ← BitVec.testBit_toNat, Nat.testBit_eq_decide_div_mod_eq, decide_eq_true_eq]
    exact Iff.rfl
  unfold Group.commit
  extract_lets g
  split
  · next h =>
    refine ⟨rfl, ?_⟩
    rw [hv]
    have h0 : (hi &&& 0x80000FFF &&& 0x00000FFF : W32).getLsbD 31 = false := by simp
    have h : bitsOf lo.toNat 15 8 < bitsOf lo.toNat 7 0 ∨ bitsOf lo.toNat 31 24 < bitsOf lo.toNat 23 16 ∨
      191 < bitsOf lo.toNat 15 8 ∨ 139 < bitsOf lo.toNat 31 24 := h
    constructor
    · exact fun hc => absurd (h0.symm.trans hc) (by decide)
    · rintro ⟨-, h1, h2, h3, h4⟩
      omega
  · next h =>
    refine ⟨rfl, ?_⟩
    rw [hv]
    have h0 : (hi &&& 0x80000FFF : W32).getLsbD 31 = hi.getLsbD 31 := by simp
    have h : ¬ (bitsOf lo.toNat 15 8 < bitsOf lo.toNat 7 0 ∨ bitsOf lo.toNat 31 24 < bitsOf lo.toNat 23 16 ∨
      191 < bitsOf lo.toNat 15 8 ∨ 139 < bitsOf lo.toNat 31 24) := h
    rw [h0]
    exact ⟨fun hb => ⟨hb, by omega⟩, fun hc => hc.1⟩

theorem exec_netTblDataWrite {s : State} {p : Par} (hn : (s.parish p).net = true) (ht : (s.parish p).tblWrite = none) {w : W32}
    (hw : bitsOf w.toNat 2 0 ≤ 4) (h1 : fld ((s.parish p).reg Reg.netTblSel) 21 17 ≤ 19)
    (h2 : fld ((s.parish p).reg Reg.netTblSel) 16 12 ≤ 24) (h3 : fld ((s.parish p).reg Reg.netTblSel) 5 0 ≤ 55) :
    exec (.netTblDataWrite p w) s = .next (s.setParish p { s.parish p with
      tblWrite := some (.hop (((s.parish p).reg Reg.netTblSel).setWidth 32) (BitVec.ofNat 3 (bitsOf w.toNat 2 0))) }) :=
  congrArg Host.Outcome.next (if_neg (by simp [hn, State.tblBusy, ht]; omega))

theorem exec_netMcastHiWrite {s : State} {p : Par} (hn : (s.parish p).net = true) (ht : (s.parish p).tblWrite = none) (w : W32)
    :
    exec (.netMcastHiWrite p w) s = .next (s.setParish p { s.parish p with
      tblWrite := some (.group ((s.parish p).field Reg.netMcastSel 7 0) (((s.parish p).reg Reg.netMcastLo).setWidth 32)
          (w &&& 0x80000FFF)) }) :=
  congrArg Host.Outcome.next (if_neg (by simp [hn, State.tblBusy, ht]))

theorem exec_tblApplied_hop {s : State} {p : Par} {sel : W32} {dir : BitVec 3} (h : (s.parish p).tblWrite = some (.hop sel dir))
    :
    exec (.tblApplied p) s =
      .next (s.setParish p { State.setHops p (s.parish p) dir.toNat (State.selected sel) with tblWrite := none }) := by
  change execTblApplied p s = _
  unfold execTblApplied
  dsimp only
  rw [h]

theorem exec_tblApplied_group {s : State} {p : Par} {g : Nat} {lo hi : W32} (h : (s.parish p).tblWrite = some (.group g lo hi))
    :
    exec (.tblApplied p) s = .next (s.setParish p { s.parish p with
      tblWrite := none, groups := Tab.set (fun _ => ({} : Group)) (s.parish p).groups g (Group.commit lo hi) }) := by
  change execTblApplied p s = _
  unfold execTblApplied
  dsimp only
  rw [h]

/-- Settles O39. -/
theorem networkFollowsItsFaults : Obligations.NetworkFollowsItsFaults := by
  unfold Obligations.NetworkFollowsItsFaults
  intro s
  refine ⟨fun q pl hd hn => ⟨if_neg (by simp [hd, hn]), routerDead_spec hd hn⟩, fun l hu => congrArg Host.Outcome.next (if_neg (by simp [hu])),
    fun l hu hl => linkDown_spec hu hl, fun p h => parishDeadIsolate_spec h, fun p => ?_, fun p sel dir h hd => ?_,
    fun p g lo hi h => ?_⟩
  · intro v h1 h2 ht
    have hn : v.net = true := v.net_iff.mpr ⟨h1, h2⟩
    exact ⟨fun w hw hr hc he => exec_netTblDataWrite hn ht hw hr hc he, fun w => exec_netMcastHiWrite hn ht w⟩
  · refine ⟨_, exec_tblApplied_hop h, ?_⟩
    unfold State.hop
    rw [State.parish_setParish_same]
    refine ⟨rfl, rfl, rfl, fun x hx => ?_, fun x hx => ?_⟩
    · exact (get_foldl_set _ _ _ x _).trans (if_pos hx)
    · exact (get_foldl_set _ _ _ x _).trans (if_neg hx)
  · refine ⟨_, exec_tblApplied_group h, ?_⟩
    obtain ⟨hlo, hvalid⟩ := Group.commit_spec lo hi
    unfold State.group
    rw [State.parish_setParish_same]
    refine ⟨rfl, rfl, fun j hj => Tab.get_set_ne _ _ _ hj, ?_, ?_⟩
    · exact (congrArg Group.lo (Tab.get_set_same _ _ _ _)).trans hlo
    · rw [show Tab.get _ _ g = Group.commit lo hi from Tab.get_set_same _ _ _ _]
      exact hvalid

end Sys2Proof.Machine

namespace Sys2Proof.Machine
open Sys2Proof.Safety

/-! ### Packets that enter the mesh -/

theorem State.sign_answers (s : State) (k : Packet) (code : Nat) :
    Answers k (s.sign (State.nackTo k code)) 0x05 ∧ (s.sign (State.nackTo k code)).nack = BitVec.ofNat 8 code :=
  ⟨⟨rfl, rfl, rfl, rfl, rfl⟩, rfl⟩

section Inject
variable {s : State} {k : Packet} {pos : Nat} (hw : k.wellFormed = true) (hb : s.waitsBehind k = false)
  (hp : s.sourceOf k = some pos) (hn : (s.parish (State.parOf pos)).net = true) (hr : s.routerDead pos k.plane = false)
include hw hb hp hn hr

/-- A packet that its source's network interface takes now: what the interface finds of it decides. -/
theorem exec_packetInject :
    let gone : State := { s with outq := s.outq.erase k }
    exec (.packetInject k) s = .next (
      if !State.destOk k || !State.channelOk k then gone.refuseHome k 0x0C
      else if k.dest = 0xFFFF ∧ !(s.group (State.parOf pos) k.mgroup.toNat).valid then
        gone.setParish (State.parOf pos) ((s.parish (State.parOf pos)).count Reg.netMcastDrop 1)
      else { gone.castLeft k with flights := s.flights ++ [{ pkt := { k with origVc := k.vc, escaped := false }, pos }] }) := by
  intro gone
  have hx : exec (.packetInject k) s = .next (s.inject k) := (if_pos hw).trans (congrArg Host.Outcome.next (if_neg (by simp [hb])))
  have hs : gone.sourceOf k = some pos := hp
  rw [hx]
  unfold State.inject
  dsimp only
  rw [hs]
  dsimp only
  rw [if_neg (by
    change ¬ (!(s.parish (State.parOf pos)).net || s.routerDead pos k.plane) = true
    simp [hn, hr])]
  rfl

end Inject

theorem State.castLeft_other {s : State} {k : Packet} (h1 : ∀ q c n, k.who ≠ .castCarter q c n)
    (h2 : ∀ g c n, k.who ≠ .castGate g c n) :
    s.castLeft k = s := by
  unfold State.castLeft
  cases hk : k.who <;> first | rfl | exact absurd hk (h1 _ _ _) | exact absurd hk (h2 _ _ _)

theorem State.castLeft_carter {s : State} {k : Packet} {q c : Nat} (hk : k.who = .castCarter q c (chanOf (s.croft q) c).gen)
    (hf : (chanOf (s.croft q) c).st ≠ .free) :
    chanOf ((s.castLeft k).croft q) c = { chanOf (s.croft q) c with bytes := (chanOf (s.croft q) c).bytes + k.length.toNat } :=
        by
  unfold State.castLeft
  rw [hk]
  dsimp only
  rw [State.onCroft_eq _ _ _ rfl rfl rfl, State.croft_setCroft_same, State.site_chan, if_pos ⟨rfl, hf⟩]
  exact Tab.get_set_same (fun _ => ({} : Chan)) _ _ _

/-! ### Hops -/

section Hop
variable {s : State} {i : Nat} {f : Flight} (hi : s.flights[i]? = some f) (hh : f.here = false)
  (hn : (s.parish (State.parOf f.pos)).net = true) (hw : s.wouldPass i f = false)
include hi hh hn hw

/-- A router that takes a packet checks its flits and sends it on. -/
theorem exec_packetHop (err : FlitErr) : exec (.packetHop i err) s =
    match s.checkFlits (State.parOf f.pos) f.via f.pkt err with
    | (s, none) => .next { s with flights := s.flights.eraseIdx i }
    | (s, some k) => if k.dest = 0xFFFF then .next (s.hopMulticast i f k) else .next (s.hopUnicast i f k) := by
  change execPacketHop i err s = _
  unfold execPacketHop
  rw [hi]
  exact if_neg (by simp [hh, hn, hw])

/-- A packet whose flits are whole. -/
theorem exec_packetHop_whole : exec (.packetHop i .none) s =
    if f.pkt.dest = 0xFFFF then .next (s.hopMulticast i f f.pkt) else .next (s.hopUnicast i f f.pkt) :=
  exec_packetHop hi hh hn hw .none

end Hop

theorem State.hopUnicast_stand {s : State} {i : Nat} {f : Flight} {k : Packet} (h : s.route f.pos k (s.aimed f k).aim = .stand)
    (hp : (s.aimed f k).pos = f.pos) : s.hopUnicast i f k = s := by
  unfold State.hopUnicast
  dsimp only
  rw [hp, h]

theorem State.hopUnicast_go {s : State} {i : Nat} {f : Flight} {k : Packet} {t : Nat} {via : Option Link}
    (h : s.route f.pos k (s.aimed f k).aim = .go t via) (hp : (s.aimed f k).pos = f.pos) :
    s.hopUnicast i f k = s.moveFlight i (s.aimed f k) k t via := by
  unfold State.hopUnicast
  dsimp only
  rw [hp, h]

theorem State.hopUnicast_here {s : State} {i : Nat} {f : Flight} {k : Packet}
    (h : s.route f.pos k (s.aimed f k).aim = .here) (hp : (s.aimed f k).pos = f.pos) :
    s.hopUnicast i f k = { s with flights := s.flights.set i { s.aimed f k with pkt := k, here := true } } := by
  unfold State.hopUnicast
  dsimp only
  rw [hp, h]

theorem State.aimed_pos (s : State) (f : Flight) (k : Packet) : (s.aimed f k).pos = f.pos := by
  unfold State.aimed
  split <;> rfl

/-- Outside its destination parish a packet keeps its aim. -/
theorem State.aimed_away {s : State} {f : Flight} {k : Packet} {pd : Nat} (he : State.endpointPar k.dest.toNat = some pd)
    (hd : pd ≠ State.parOf f.pos) : s.aimed f k = f :=
  if_neg fun h => hd (by simpa [he] using h.2)

section Away
variable {s : State} {f : Flight} {pd t : Nat} {d : Dir}
  (he : State.endpointPar f.pkt.dest.toNat = some pd) (hpd : pd ≠ State.parOf f.pos)
  (hd : State.dirOf (s.hop (State.parOf f.pos) (State.hopIndex (f.pos % 500) (State.planeCode f.pkt.plane) (if f.pkt.vc = 3 then 1 else 0) pd)) = some d)
  (ht : State.stepTo f.pos d 1 = some t) (hr : s.routerDead t f.pkt.plane = false)
  (hdown : State.parOf t ≠ State.parOf f.pos → s.parDown (State.parOf t) = false)
include he hpd hd ht hr hdown

/-- A packet for another parish follows the table of its own over a live neighbour. -/
theorem State.route_away (aim : Option Nat) : s.route f.pos f.pkt aim =
    if State.parOf t ≠ State.parOf f.pos ∧ (s.parish (State.parOf f.pos)).dead = true then .stand
    else .go t (some { q := f.pos, plane := f.pkt.plane, dir := d, skip := false }) := by
  have hm : s.meetsDown f.pos d f.pkt = false := by
    unfold State.meetsDown
    rw [ht]
    by_cases h : State.parOf t = State.parOf f.pos
    · simp [h]
    · simp [hdown h]
  have hs : s.straight f.pos f.pkt.plane d = some (t, some { q := f.pos, plane := f.pkt.plane, dir := d, skip := false }) := by
    unfold State.straight
    rw [ht]
    dsimp only
    rw [if_neg fun h => by simp [hdown h.1] at h, if_neg (by simp [hr])]
    rfl
  unfold State.route
  rw [he]
  dsimp only
  rw [if_pos hpd, show State.tableOf f.pkt = if f.pkt.vc = 3 then 1 else 0 from rfl, hd]
  dsimp only
  unfold State.routeTowards
  rw [if_neg (by simp [hm]), hs]
  rfl

omit he hpd hd hr in
/-- A link to a live neighbour that is not marked down carries flits. -/
theorem State.linkUp_of (hn : (s.parish (State.parOf f.pos)).net = true)
    (hl : ({ q := f.pos, plane := f.pkt.plane, dir := d, skip := false } : Link) ∉ s.linksDown) :
    s.linkUp { q := f.pos, plane := f.pkt.plane, dir := d, skip := false } = true := by
  have hnet : (s.parish (State.parOf t)).net = true := by
    by_cases h : State.parOf t = State.parOf f.pos
    · rw [h]
      exact hn
    · have := hdown h
      unfold State.parDown at this
      simp only [Bool.or_eq_false_iff, Bool.not_eq_false'] at this
      exact this.1.1
  unfold State.linkUp State.linkEnd
  simp only [Bool.false_eq_true, if_false]
  rw [ht]
  simp [hl, hn, hnet]

end Away

/-- A packet that its endpoint's router holds. -/
theorem State.route_home {s : State} {f : Flight} (he : State.endpointPar f.pkt.dest.toNat = some (State.parOf f.pos))
    (hd : f.pkt.dest.toNat < 26880 → s.deadPos f.pos = false) {aim : Option Nat}
    (haim : s.aimOf f.pkt aim = some f.pos) : s.route f.pos f.pkt aim = .here := by
  unfold State.route
  rw [he]
  dsimp only
  rw [if_neg (by simp), haim]
  dsimp only
  unfold State.routeInside
  dsimp only
  rw [if_pos rfl, if_neg (by
    intro h
    simp only [Bool.and_eq_true, decide_eq_true_eq] at h
    simp [hd h.1] at h)]

/-! ### Slips and ruined heads -/

/-- A link's event is reported by the reeve of its sending router's parish, where its network domain is on. -/
theorem State.raise_link (s : State) (l : Link) (code : Nat) (syn : W64) (opc : W16) (cls : Option Bool) (hq : l.q < 28000) :
    s.raise code (State.locLink l) syn opc cls = if (s.parish (State.parOf l.q)).net = true then
      raisedAt s (some (0x7200 + State.parOf l.q)) (s.eventOf code (State.locLink l) syn opc cls none) else s := by
  have hc : State.linkCode l % 32768 = l.q ∧ State.linkCode l < 268435456 := by
    unfold State.linkCode State.dirCode State.planeCode b2n
    cases l.dir <;> cases l.plane <;> cases l.skip <;> simp <;> omega
  obtain ⟨hc1, hc2⟩ := hc
  have hl : (State.locLink l).toNat = 536870912 + State.linkCode l := by
    simp [State.locLink, unitCode]
    omega
  have hk : (536870912 + State.linkCode l) / 268435456 = 2 := by omega
  have hm : (536870912 + State.linkCode l) % 268435456 % 32768 = l.q := by omega
  have hm' : (536870912 + State.linkCode l) % 32768 = l.q := by omega
  have h1 : s.mayRaise (s.eventOf code (State.locLink l) syn opc cls none) = (s.parish (State.parOf l.q)).net := by
    simp [State.mayRaise, State.eventOf, hl, hk, hm', State.parOf]
  have h2 : State.reporter (s.eventOf code (State.locLink l) syn opc cls none) = some (0x7200 + State.parOf l.q) := by
    simp [State.reporter, State.eventOf, hl, hk, hm, State.parOf]
  rw [State.raise_eq]
  dsimp only
  rw [h1, h2]

/-- An event leaves a unicast hop as it is. -/
theorem State.hopUnicast_raisedAt (s : State) (e : Option Nat) (r : Report) (i : Nat) (f : Flight) (k : Packet) :
    (raisedAt s e r).hopUnicast i f k = raisedAt (s.hopUnicast i f k) e r := by
  have hroute : (raisedAt s e r).route = s.route := rfl
  have haimed : (raisedAt s e r).aimed = s.aimed := rfl
  unfold State.hopUnicast
  rw [hroute, haimed]
  dsimp only
  cases s.route (s.aimed f k).pos k (s.aimed f k).aim with
  | here => rfl
  | refuse code =>
    dsimp only
    unfold State.refuseAt
    split <;> rfl
  | stand => rfl
  | go t via =>
    dsimp only
    unfold State.moveFlight
    rw [show (raisedAt s e r).linkUp = s.linkUp from rfl]
    dsimp only
    split <;> split <;> rfl
  | beyond t via =>
    dsimp only
    unfold State.moveFlight
    rw [show (raisedAt s e r).linkUp = s.linkUp from rfl]
    dsimp only
    split <;> split <;> rfl

theorem State.hopMulticast_raisedAt (s : State) (e : Option Nat) (r : Report) (i : Nat) (f : Flight) (k : Packet) :
    (raisedAt s e r).hopMulticast i f k = raisedAt (s.hopMulticast i f k) e r := by
  unfold State.hopMulticast
  rw [show (raisedAt s e r).deadMember = s.deadMember from rfl, show (raisedAt s e r).branches = s.branches from rfl]
  dsimp only
  split <;> rfl

/-- A slip over a stitched boundary is an event, and the packet hops as it would without. -/
theorem packetHop_slip {s : State} {i : Nat} {f : Flight} {l : Link} (hi : s.flights[i]? = some f) (hh : f.here = false)
    (hn : (s.parish (State.parOf f.pos)).net = true) (hw : s.wouldPass i f = false) (hv : f.via = some l) (hq : l.q < 28000)
    (hs : s.stitched l = true) : ∃ u r, exec (.packetHop i .none) s = .next u ∧
      exec (.packetHop i .slip) s = .next (if (s.parish (State.parOf l.q)).net = true then raisedAt u
          (some (0x7200 + State.parOf l.q)) r else u) ∧
      r.source = 66 ∧ r.loc = State.locLink l := by
  have hslip := exec_packetHop hi hh hn hw .slip
  unfold State.checkFlits at hslip
  rw [hv] at hslip
  dsimp only at hslip
  rw [if_pos hs, State.raise_link _ _ _ _ _ _ hq] at hslip
  have hwhole := exec_packetHop_whole hi hh hn hw
  obtain ⟨r, hr, hsrc, hloc⟩ : ∃ r, r = s.eventOf 66 (State.locLink l) 0 (packetOpcode f.pkt) (some f.pkt.tclass) none ∧
      r.source = 66 ∧ r.loc = State.locLink l := ⟨_, rfl, rfl, rfl⟩
  rw [← hr] at hslip
  by_cases hm : f.pkt.dest = 0xFFFF
  · rw [if_pos hm] at hslip hwhole
    refine ⟨_, r, hwhole, hslip.trans ?_, hsrc, hloc⟩
    split
    · rw [State.hopMulticast_raisedAt]
    · rfl
  · rw [if_neg hm] at hslip hwhole
    refine ⟨_, r, hwhole, hslip.trans ?_, hsrc, hloc⟩
    split
    · rw [State.hopUnicast_raisedAt]
    · rfl

/-- Flight i is gone. -/
def State.dropFlight (i : Nat) (s : State) : State := { s with flights := s.flights.eraseIdx i }

theorem State.checkFlits_ruined (s : State) (p : Nat) (l : Link) (k : Packet) : ∃ t n, s.checkFlits p (some l) k .uncorrHead =
    (({ s with linkUnc := t } : State).raise 65 (State.locLink l) n (packetOpcode k), none) :=
  let ts := State.recent s.clock.now (Tab.get (fun _ => []) s.linkUnc (State.linkCode l)) ++ [s.clock.now]
  ⟨Tab.set (fun _ => []) s.linkUnc (State.linkCode l) ts, BitVec.ofNat 64 ts.length, rfl⟩

/-- A head that cannot be corrected is discarded with its event (R64). -/
theorem packetHop_ruined {s : State} {i : Nat} {f : Flight} {l : Link} (hi : s.flights[i]? = some f) (hh : f.here = false)
    (hn : (s.parish (State.parOf f.pos)).net = true) (hw : s.wouldPass i f = false) (hv : f.via = some l) (hq : l.q < 28000) :
    ∃ u r, exec (.packetHop i .uncorrHead) s =
        .next (if (s.parish (State.parOf l.q)).net = true then raisedAt u (some (0x7200 + State.parOf l.q)) r else u) ∧
      r.source = 65 ∧ r.loc = State.locLink l ∧ u = { s with flights := s.flights.eraseIdx i, linkUnc := u.linkUnc } := by
  obtain ⟨t, n, hc⟩ := State.checkFlits_ruined s (State.parOf f.pos) l f.pkt
  have hx := exec_packetHop hi hh hn hw .uncorrHead
  rw [hv, hc, State.raise_link _ _ _ _ _ _ hq] at hx
  exact ⟨State.dropFlight i { s with linkUnc := t },
    ({ s with linkUnc := t } : State).eventOf 65 (State.locLink l) n (packetOpcode f.pkt) (some false) none,
    hx.trans (congrArg Host.Outcome.next (apply_ite (State.dropFlight i) _ _ _)), rfl, rfl, rfl⟩

theorem exec_escape {s : State} {i : Nat} {f : Flight} (hi : s.flights[i]? = some f) (hh : f.here = false) (hv : f.pkt.vc ≠ 3) :
    exec (.escape i) s = .next
      { s.setParish (State.parOf f.pos) ((s.parish (State.parOf f.pos)).count Reg.netEscapes 1) with
        flights := s.flights.set i { f with pkt := { f.pkt with vc := 3, escaped := true } } } := by
  change execEscape i s = _
  unfold execEscape
  rw [hi]
  exact if_neg (by
    rw [hh, Bool.false_or, beq_iff_eq]
    exact hv)

/-! ### Deliveries -/

theorem exec_packetDeliver {s : State} {i : Nat} {f : Flight} (hi : s.flights[i]? = some f) (hh : f.here = true)
    (hw : s.wouldPass i f = false) : exec (.packetDeliver i .none) s = .next (s.deliver i f f.pkt) := by
  change execPacketDeliver i .none s = _
  unfold execPacketDeliver
  rw [hi]
  exact if_neg (by simp [hh, hw])

/-- A whole packet comes into the hands of a unit that can take it. -/
theorem State.deliver_unit {s : State} {i : Nat} {f : Flight} (hd : f.pkt.dest ≠ 0xFFFF) (hu : UnitThere s f.pos f.pkt)
    (hp : f.pkt.poison = false) (ho : State.opKnown f.pkt = true) (hl : State.lengthOk f.pkt = true) :
    s.deliver i f f.pkt = ({ s with flights := s.flights.eraseIdx i } : State).handIn f.pkt := by
  obtain ⟨hc, h0, h1, hg⟩ := hu
  have e0 : f.pkt.dest.toNat = 0x7100 → f.pkt.dest = 0x7100 := fun h => BitVec.eq_of_toNat_eq h
  have e1 : f.pkt.dest.toNat = 0x7101 → f.pkt.dest = 0x7101 := fun h => BitVec.eq_of_toNat_eq h
  unfold State.deliver
  extract_lets u q e stewardLost gateLost
  have hst : stewardLost = false := by
    change (f.pkt.dest.toNat == 0x7100 && (s.steward 0).heldReset || f.pkt.dest.toNat == 0x7101 && (s.steward 1).heldReset) =
        false
    rw [Bool.or_eq_false_iff, Bool.and_eq_false_imp, Bool.and_eq_false_imp, beq_iff_eq, beq_iff_eq]
    exact ⟨fun h => h0 (e0 h), fun h => h1 (e1 h)⟩
  have hgt : gateLost = false := by
    change (decide (0x7000 ≤ f.pkt.dest.toNat) && decide (f.pkt.dest.toNat < 0x701C) &&
        (s.gate (f.pkt.dest.toNat - 0x7000)).lost) = false
    rw [Bool.and_eq_false_imp, Bool.and_eq_true, decide_eq_true_eq, decide_eq_true_eq]
    exact fun h => hg h.1 h.2
  rw [if_neg hd, if_neg fun h => h.2 (hc h.1), if_neg (by simp [hp]), if_neg (by simp [ho]), if_neg (by simp [hl]),
    if_neg (by simp [hst, hgt])]

theorem State.handIn_inbox {s : State} {k : Packet} (h : ForInbox k.who) : s.handIn k = { s with inbox := s.inbox ++ [k] } := by
  unfold State.handIn
  unfold ForInbox at h
  cases hk : k.who <;> simp [hk] at h ⊢

/-- A croft's event in flight: it is reported by its reeve, where the parish's network domain is on. -/
theorem State.raise_at (s : State) (q code : Nat) (syn : W64) (opc : W16) (cls : Option Bool) (hq : q < 28000) :
    s.raise code (BitVec.ofNat 32 q) syn opc cls = if (s.parish (State.parOf q)).net = true then
      raisedAt s (some (0x7200 + State.parOf q)) (s.eventOf code (BitVec.ofNat 32 q) syn opc cls none) else s :=
  State.reportAll_croft s ⟨q, hq⟩ _ rfl

/-- A request at the wrong croft is refused with its event (R71). -/
theorem packetDeliver_misrouted {s : State} {i : Nat} {f : Flight} (hi : s.flights[i]? = some f) (hh : f.here = true)
    (hw : s.wouldPass i f = false) (hd : f.pkt.dest ≠ 0xFFFF) (hc : f.pkt.dest.toNat < 26880)
    (hl : s.logicalOf f.pos ≠ some f.pkt.dest.toNat) (hq : f.pos < 28000) (hr : State.requestOp f.pkt = true) :
    let gone := { s with flights := s.flights.eraseIdx i }
    ∃ a e, Answers f.pkt a 0x05 ∧ a.nack = 0x02 ∧ e.source = 68 ∧ e.loc.toNat = f.pos ∧
      let t := { gone with flights := gone.flights ++ [{ pkt := a, pos := f.pos }] }
      exec (.packetDeliver i .none) s = .next
        (if (s.parish (State.parOf f.pos)).net = true then raisedAt t (some (0x7200 + State.parOf f.pos)) e else t) := by
  intro gone
  have hreq : State.isRequest f.pkt = true := by
    unfold State.isRequest
    rw [hr, Bool.and_true, bne_iff_ne]
    exact hd
  have hx : s.deliver i f f.pkt = ({ gone with flights := gone.flights ++ [{ pkt := gone.sign (State.nackTo f.pkt 2), pos := f.pos }] } : State).raise
      68 (BitVec.ofNat 32 f.pos) 0 (packetOpcode f.pkt) (some f.pkt.tclass) := by
    unfold State.deliver
    dsimp only
    rw [if_neg hd, if_pos ⟨hc, hl⟩]
    unfold State.refuseAt
    rw [if_pos hreq]
  obtain ⟨ha, hn⟩ := State.sign_answers gone f.pkt 2
  refine ⟨_, _, ha, hn, ?_, ?_, (exec_packetDeliver hi hh hw).trans (congrArg Host.Outcome.next (hx.trans (State.raise_at _ _ _ _ _ _ hq)))⟩
  · rfl
  · change (BitVec.ofNat 32 f.pos).toNat = f.pos
    rw [BitVec.toNat_ofNat]
    omega

/-- Settles O38. -/
theorem packetsCrossTheMesh : Obligations.PacketsCrossTheMesh := by
  unfold Obligations.PacketsCrossTheMesh
  intro s
  refine ⟨fun k pos hw hb hp hn hr => ?_, fun k => State.castLeft_other, fun k q c => State.castLeft_carter, fun i f hi hh hn hw => ?_,
    fun i f => exec_escape, fun i f hi hh hw hd => ?_⟩
  · intro gone
    have hx := exec_packetInject hw hb hp hn hr
    refine ⟨fun hd hc hv => ?_, fun hd hc hm hv => ?_, fun h => ?_⟩
    · rw [hx, if_neg (by simp [hd, hc]), if_neg fun h => by simp [hv h.1] at h]
    · rw [hx, if_neg (by simp [hd, hc]), if_pos ⟨hm, by simp [hv]⟩]
    · obtain ⟨ha, hn⟩ := State.sign_answers gone k 0x0C
      refine ⟨_, ha, hn, ?_⟩
      rw [hx, if_pos (by rcases h with h | h <;> simp [h])]
      rfl
  · have hx := exec_packetHop_whole hi hh hn hw
    refine ⟨fun pd d t hm he hpd hd ht hr hdown => ?_, fun hm he ha hdead => ?_, fun hm => ?_, fun l hv hq =>
      ⟨packetHop_ruined hi hh hn hw hv hq, packetHop_slip hi hh hn hw hv hq⟩⟩
    · have haim : s.aimed f f.pkt = f := State.aimed_away he hpd
      have hroute := State.route_away he hpd hd ht hr hdown (s.aimed f f.pkt).aim
      rw [hx, if_neg hm]
      refine ⟨fun hne hstop => ?_, fun hgo hl => ?_⟩
      · rw [State.hopUnicast_stand (hroute.trans (if_pos ⟨hne, hstop⟩)) (State.aimed_pos s f f.pkt)]
      · rw [State.hopUnicast_go (hroute.trans (if_neg fun h => by simp [hgo h.1] at h)) (State.aimed_pos s f f.pkt), haim]
        unfold State.moveFlight
        dsimp only
        rw [if_neg (by simp [State.linkUp_of ht hdown hn hl])]
        simp
    · have haim : s.aimOf f.pkt f.aim = some f.pos := by
        unfold State.aimOf
        rcases ha with h | ⟨h, h'⟩
        · rw [h]
        · rw [h]
          exact h'
      have hf : s.aimed f f.pkt = { f with aim := if f.pkt.dest.toNat < 26880 then some f.pos else f.aim } := by
        unfold State.aimed
        by_cases hc : f.pkt.dest.toNat < 26880
        · rw [if_pos ⟨hc, he⟩, if_pos hc, haim]
        · rw [if_neg fun h => hc h.1, if_neg hc]
      have haim' : s.aimOf f.pkt (s.aimed f f.pkt).aim = some f.pos := by
        rw [hf]
        dsimp only
        split
        · rfl
        · exact haim
      rw [hx, if_neg hm, State.hopUnicast_here (State.route_home he hdead haim') (State.aimed_pos s f f.pkt), hf]
    · rw [hx, if_pos hm]
      rfl
  · intro gone
    refine ⟨fun hu hp ho hl => ?_, fun hc hl hq hr => packetDeliver_misrouted hi hh hw hd hc hl hq hr⟩
    have hx := (exec_packetDeliver hi hh hw).trans (congrArg Host.Outcome.next (State.deliver_unit hd hu hp ho hl))
    refine ⟨fun hk => hx.trans (congrArg Host.Outcome.next (State.handIn_inbox hk)), fun h m hk => hx.trans ?_, fun p n hk =>
        hx.trans ?_⟩
    · unfold State.handIn
      rw [hk]
    · unfold State.handIn
      rw [hk]

end Sys2Proof.Machine

namespace Sys2Proof.Machine
open Sys2Proof.Safety

/-! ### Holdings -/

/-- A module in reset but for holding 0, which a reset is giving an allotment of one window. -/
def allottedInReset : State := { State.reset with holdings := [(0, { st := .resetting, altRes := some 1 })] }

/-- Refutes O47: the owners of *all* numbers p are said to stand, but the register that shows "the owner" of p = 261632, which is
no parish, is ALT_RES of holding 0, and the end of the reset loads it. -/
theorem not_holdingsComeAndGo : ¬ Obligations.HoldingsComeAndGo := by
  unfold Obligations.HoldingsComeAndGo
  intro h
  obtain ⟨-, -, hdone⟩ := h 0 allottedInReset
  obtain ⟨hreset, -⟩ := hdone (by decide)
  obtain ⟨t, -, -, -, -, -, -, -, howner, hres, -⟩ := hreset (by decide)
  have hone : t.owner 261632 = 1 := by
    change fld (t.reg (Reg.altRes 0)) 4 0 = 1
    rw [show (t.reg (Reg.altRes 0)) = _ from hres]
    decide
  have hold : allottedInReset.owner 261632 = 16 := by decide
  have := howner 261632
  rw [hone, hold] at this
  exact absurd this (by decide)

/-! ### Allotments -/

theorem Gate.field_setField_same (g : Gate) (o hi lo n : Nat) (h : hi < 64) (hn : n < 2 ^ (hi + 1 - lo)) :
    (g.setField o hi lo n).field o hi lo = n := by
  unfold Gate.field Gate.setField
  rw [show ∀ v, (g.setReg o v).reg o = v from fun v => Tab.get_set_same _ _ _ _, fld_setFld _ _ _ _ h, Nat.mod_eq_of_lt hn]

theorem Gate.field_setField_apart (g : Gate) (o hi lo n hi' lo' : Nat) (h : hi < 64) (hd : hi' < lo ∨ hi < lo') :
    (g.setField o hi lo n).field o hi' lo' = g.field o hi' lo' := by
  unfold Gate.field Gate.setField
  rw [show ∀ v, (g.setReg o v).reg o = v from fun v => Tab.get_set_same _ _ _ _, fld_setFld_ne _ _ _ _ _ _ h hd]

/-- A croft with a new limit of its windows. -/
def limited (win : Nat) (c : Croft) : Croft := withReg c Reg.crfWinLimit (setFld (regOf c Reg.crfWinLimit) 4 0 win)

theorem State.onCroft_limited (s : State) (q win : Nat) :
    (s.onCroft q fun x => x.setField Reg.crfWinLimit 4 0 win) = s.setCroft q (limited win (s.croft q)) :=
  State.onCroft_eq s q _ rfl rfl rfl

/-- A gate with a holding's allotment. -/
def Gate.allotted (h channels share : Nat) (g : Gate) : Gate :=
  (g.setField (Reg.gatAllot h) 27 16 channels).setField (Reg.gatAllot h) 8 0 share

theorem Gate.allotted_spec (g : Gate) (h : Nat) {channels share : Nat} (hc : channels ≤ 2048) (hs : share ≤ 256) :
    (g.allotted h channels share).field (Reg.gatAllot h) 27 16 = channels ∧
      (g.allotted h channels share).field (Reg.gatAllot h) 8 0 = share ∧
      g.allotted h channels share = { g with regs := (g.allotted h channels share).regs } := by
  refine ⟨?_, Gate.field_setField_same _ _ _ _ _ (by decide) (by omega), rfl⟩
  exact (Gate.field_setField_apart _ _ _ _ _ _ _ (by decide) (by decide)).trans (Gate.field_setField_same _ _ _ _ _ (by decide) (by omega))

/-- The state with each gate of a list as g makes it. -/
def State.eachGate (s : State) (is : List Nat) (g : Gate → Gate) : State := is.foldl (fun s i => s.setGate i (g (s.gate i))) s

theorem State.eachGate_frame (g : Gate → Gate) (is : List Nat) :
    ∀ s : State, s.eachGate is g = { s with gates := (s.eachGate is g).gates } := by
  induction is with
  | nil => exact fun s => rfl
  | cons i is ih => exact fun s => ih (s.setGate i (g (s.gate i)))

theorem State.gate_eachGate (g : Gate → Gate) {j : Nat} (is : List Nat) (hd : is.Nodup) :
    ∀ s : State, (s.eachGate is g).gate j = if j ∈ is then g (s.gate j) else s.gate j := by
  induction is with
  | nil => exact fun s => rfl
  | cons i is ih =>
    intro s
    obtain ⟨hi, hd⟩ := List.nodup_cons.mp hd
    change ((s.setGate i (g (s.gate i))).eachGate is g).gate j = _
    rw [ih hd, State.gate_setGate]
    by_cases h : j = i
    · subst h
      simp [hi]
    · simp [h]

theorem State.mem_parishesOf (s : State) (h p : Nat) : p ∈ s.parishesOf h ↔ p < 56 ∧ s.owner p = h := by
  simp [State.parishesOf]

/-- The crofts of a holding's parishes. -/
theorem State.mem_allCrofts (s : State) (h q : Nat) :
    q ∈ (s.parishesOf h).flatMap State.croftsOf ↔ q < 28000 ∧ s.owner (State.parOf q) = h := by
  simp only [List.mem_flatMap, State.mem_croftsOf, State.mem_parishesOf]
  constructor
  · rintro ⟨p, ⟨hp, ho⟩, rfl⟩
    refine ⟨?_, ho⟩
    unfold State.parOf at hp
    omega
  · rintro ⟨hq, ho⟩
    exact ⟨_, ⟨by unfold State.parOf; omega, ho⟩, rfl⟩

theorem State.allCrofts_nodup (s : State) (h : Nat) : ((s.parishesOf h).flatMap State.croftsOf).Nodup := by
  rw [List.nodup_flatMap]
  refine ⟨fun p _ => State.croftsOf_nodup p, ?_⟩
  refine List.Nodup.pairwise_of_forall_ne (List.nodup_range.filter _) fun a _ b _ hne => ?_
  intro q ha hb
  rw [State.mem_croftsOf] at ha hb
  exact hne (ha.symm.trans hb)

theorem State.foldl_limited (win : Nat) (qs : List Nat) (s : State) :
    qs.foldl (fun s q => s.onCroft q fun x => x.setField Reg.crfWinLimit 4 0 win) s = s.eachCroft qs fun _ => limited win :=
  congrArg (fun f => qs.foldl f s) (funext fun s => funext fun q => State.onCroft_limited s q win)

theorem State.foldl_allotted (h : Nat) (is : List Nat) : ∀ s : State,
    is.foldl (fun s i => s.modGate i fun g =>
      (g.setField (Reg.gatAllot h) 27 16 (s.altChannels h)).setField (Reg.gatAllot h) 8 0 (s.altShare h)) s =
      s.eachGate is (Gate.allotted h (s.altChannels h) (s.altShare h)) := by
  induction is with
  | nil =>
    intro s
    rw [List.foldl_nil]
    unfold State.eachGate
    rw [List.foldl_nil]
  | cons i is ih =>
    intro s
    rw [List.foldl_cons, ih]
    rfl

/-- The allotments of a holding at its crofts and at every gate (R345). -/
theorem State.applyAllotment_eq (s : State) (h : Nat) : s.applyAllotment h =
    (s.eachCroft ((s.parishesOf h).flatMap State.croftsOf) fun _ => limited (s.altWindows h)).eachGate (List.range 28)
      (Gate.allotted h (s.altChannels h) (s.altShare h)) := by
  unfold State.applyAllotment
  dsimp only
  rw [State.foldl_limited]
  refine (State.foldl_allotted h (List.range 28) _).trans ?_
  have he := State.eachCroft_frame (fun _ => limited (s.altWindows h)) ((s.parishesOf h).flatMap State.croftsOf) s
  generalize s.eachCroft ((s.parishesOf h).flatMap State.croftsOf) (fun _ => limited (s.altWindows h)) = u at he ⊢
  rw [show u.altChannels h = s.altChannels h by rw [he]; rfl, show u.altShare h = s.altShare h by rw [he]; rfl]

theorem limited_spec (win : Nat) (hw : win ≤ 16) (c : Croft) : fld (regOf (limited win c) Reg.crfWinLimit) 4 0 = win ∧
    RegsKept c (limited win c) [Reg.crfWinLimit] ∧ (limited win c).mem = c.mem := by
  refine ⟨?_, fun o ho => ?_, rfl⟩
  · rw [limited, regOf_withReg, if_pos rfl, fld_setFld _ _ _ _ (by decide)]
    omega
  · rw [limited, regOf_withReg, if_neg (by simpa using ho)]

theorem State.applyAllotment_spec (s : State) (h : Nat) : ∃ t, s.applyAllotment h = t ∧
    (∀ q, q < 28000 → s.owner (State.parOf q) = h → fld (regOf (t.croft q) Reg.crfWinLimit) 4 0 = min 16
        (s.field (Reg.altRes h) 4 0) ∧
      RegsKept (s.croft q) (t.croft q) [Reg.crfWinLimit] ∧ (t.croft q).mem = (s.croft q).mem) ∧
    (∀ q, s.owner (State.parOf q) ≠ h → t.croft q = s.croft q) ∧
    (∀ i < 28, (t.gate i).field (Reg.gatAllot h) 27 16 = min 2048 (s.field (Reg.altRes h) 27 16) ∧
      (t.gate i).field (Reg.gatAllot h) 8 0 = min 256 (s.field (Reg.altRes h) 13 5) ∧
      t.gate i = { s.gate i with regs := (t.gate i).regs }) ∧
    t = { s with crofts := t.crofts, gates := t.gates } := by
  rw [State.applyAllotment_eq]
  have hin (q : Nat) (hq : q ∈ _) := State.croft_eachCroft_mem (fun _ => limited (s.altWindows h)) ((s.parishesOf h).flatMap State.croftsOf)
    (State.allCrofts_nodup s h) hq s
  have hout (q : Nat) (hq : q ∉ _) := State.croft_eachCroft_not_mem (fun _ => limited (s.altWindows h))
    ((s.parishesOf h).flatMap State.croftsOf) hq s
  have he := State.eachCroft_frame (fun _ => limited (s.altWindows h)) ((s.parishesOf h).flatMap State.croftsOf) s
  generalize s.eachCroft ((s.parishesOf h).flatMap State.croftsOf) (fun _ => limited (s.altWindows h)) = u at hin hout he ⊢
  have hg := fun j => State.gate_eachGate (Gate.allotted h (s.altChannels h) (s.altShare h)) (j := j) (List.range 28) List.nodup_range u
  have hf := State.eachGate_frame (Gate.allotted h (s.altChannels h) (s.altShare h)) (List.range 28) u
  generalize u.eachGate (List.range 28) (Gate.allotted h (s.altChannels h) (s.altShare h)) = t at hg hf ⊢
  have hc (q : Nat) : t.croft q = u.croft q := by
    rw [hf]
    rfl
  have hug (i : Nat) : u.gate i = s.gate i := by
    rw [he]
    rfl
  refine ⟨t, rfl, fun q hq ho => ?_, fun q ho => ?_, fun i hi => ?_, ?_⟩
  · rw [hc, hin q ((State.mem_allCrofts s h q).mpr ⟨hq, ho⟩)]
    exact limited_spec _ (Nat.min_le_left _ _) _
  · rw [hc, hout q fun hm => ho ((State.mem_allCrofts s h q).mp hm).2]
  · rw [hg, if_pos (List.mem_range.mpr hi), hug]
    exact Gate.allotted_spec _ h (Nat.min_le_left _ _) (Nat.min_le_left _ _)
  · rw [hf, he]

/-! ### Power -/

theorem State.parish_writePclkCap (s : State) (p code j : Nat) : (s.writePclkCap p code).parish j =
    if j = p then (s.writePclkCap p code).parish p else s.parish j := by
  unfold State.writePclkCap
  rw [State.parish_setParish, State.parish_setParish_same]

/-- Caps written to some parishes: theirs follow, the others stand (R348). -/
def CapsOf (ps : List Nat) (s t : State) : Prop :=
  t = { s with parishes := t.parishes } ∧ (∀ j, j ∉ ps → t.parish j = s.parish j) ∧
    ∀ p ∈ ps, (t.parish p).field Reg.parPclk 12 8 =
      (if s.owner p < 16 then min s.power.modCode (s.holding (s.owner p)).code else s.power.modCode) % 32

/-- The code that a parish is capped at. -/
def State.capOf (s : State) (p : Nat) : Nat :=
  if s.owner p < 16 then min s.power.modCode (s.holding (s.owner p)).code else s.power.modCode

theorem State.foldl_caps (ps : List Nat) : ps.Nodup → ∀ s : State, CapsOf ps s
    (ps.foldl (fun s p => s.writePclkCap p (s.capOf p)) s) := by
  induction ps with
  | nil => exact fun _ s => ⟨rfl, fun _ _ => rfl, fun p hp => absurd hp List.not_mem_nil⟩
  | cons p ps ih =>
    intro hd s
    obtain ⟨hp, hd⟩ := List.nodup_cons.mp hd
    obtain ⟨he, hout, hin⟩ := ih hd (s.writePclkCap p (s.capOf p))
    rw [List.foldl_cons]
    generalize ps.foldl (fun s p => s.writePclkCap p (s.capOf p)) (s.writePclkCap p (s.capOf p)) = t at he hout hin ⊢
    refine ⟨by rw [he]; rfl, fun j hj => ?_, fun j hj => ?_⟩
    · rw [List.mem_cons, not_or] at hj
      rw [hout j hj.2, State.parish_writePclkCap, if_neg hj.1]
    · rcases List.mem_cons.mp hj with rfl | hm
      · rw [hout j hp]
        unfold State.writePclkCap
        rw [State.parish_setParish_same]
        refine Eq.trans (b := ((s.parish j).setField Reg.parPclk 12 8 (s.capOf j)).field Reg.parPclk 12 8) rfl ?_
        unfold Parish.field Parish.setField
        rw [Parish.reg_setReg_same, fld_setFld _ _ _ _ (by decide)]
        rfl
      · exact hin j hm

theorem State.writeCaps_spec (s : State) : ∃ t, s.writeCaps = t ∧ CapsWritten t ∧ t = { s with parishes := t.parishes } := by
  have h := State.foldl_caps (List.range 56) List.nodup_range s
  have hx : s.writeCaps = (List.range 56).foldl (fun s p => s.writePclkCap p (s.capOf p)) s := rfl
  rw [hx]
  generalize (List.range 56).foldl (fun s p => s.writePclkCap p (s.capOf p)) s = t at h ⊢
  obtain ⟨he, -, hin⟩ := h
  refine ⟨t, rfl, fun p hp => ?_, he⟩
  rw [hin p (List.mem_range.mpr hp), he]
  rfl

/-- The power code that is found is the highest that fits. -/
theorem State.powerCode_spec (s : State) (h : Nat) :
    IsPowerCode s h (s.field (Reg.altPower h) 15 0) ((s.powerCode h).getD 0) (s.powerCode h).isNone := by
  unfold IsPowerCode
  cases hc : s.powerCode h with
  | none =>
    refine (if_pos rfl).mpr ⟨rfl, fun d hd hf => ?_⟩
    have := List.find?_eq_none.mp hc d (by simp; omega)
    exact this (decide_eq_true hf)
  | some c =>
    refine (if_neg (by simp)).mpr ?_
    change c ≤ 25 ∧ ((s.parishesOf h).map fun p => s.ceiling p c).sum ≤ s.field (Reg.altPower h) 15 0 ∧ ∀ d ≤ 25, c < d → _
    obtain ⟨hf, as, bs, hl, hn⟩ := List.find?_eq_some_iff_append.mp hc
    have hmem (d : Nat) : d ∈ (List.range 26).reverse ↔ d ≤ 25 := by simp; omega
    refine ⟨(hmem c).mp (hl ▸ by simp), of_decide_eq_true hf, fun d hd hlt hfit => ?_⟩
    have hdm : d ∈ as ++ c :: bs := hl ▸ (hmem d).mpr hd
    have hsorted : (as ++ c :: bs).Pairwise (· > ·) := by
      rw [← hl]
      decide
    rcases List.mem_append.mp hdm with hm | hm
    · have := hn d hm
      simp only [Bool.not_eq_true', decide_eq_false_iff_not] at this
      exact this hfit
    · rcases List.mem_cons.mp hm with rfl | hm
      · omega
      · have := (List.pairwise_cons.mp (List.pairwise_append.mp hsorted).2.1).1 d hm
        omega

/-- A code that is the highest that fits is the one found. -/
theorem State.powerCode_of {s : State} {h c : Nat} (hc : IsPowerCode s h (s.field (Reg.altPower h) 15 0) c false) :
    s.powerCode h = some c := by
  have hs := State.powerCode_spec s h
  obtain ⟨hle, hfit, hmax⟩ := (if_neg (by simp)).mp hc
  unfold IsPowerCode at hs
  cases hp : s.powerCode h with
  | none =>
    rw [hp] at hs
    exact absurd hfit (((if_pos rfl).mp hs).2 c hle)
  | some d =>
    rw [hp] at hs
    obtain ⟨hle', hfit', hmax'⟩ := (if_neg (by simp)).mp hs
    congr 1
    by_contra hne
    rcases Nat.lt_or_gt_of_ne hne with hlt | hgt
    · exact hmax' c hle hlt hfit
    · exact hmax d hle' hgt hfit'

/-! ### The allotment commands -/

theorem allotmentApplied_spec {s : State} {h : Hold} (hb : (s.holding h).busy = true) :
    let d := s.holding h
    ∃ t, exec (.allotmentApplied h) s = .next t ∧ t.holding h = { d with busy := false } ∧
       (∀ q, q < 28000 → s.owner (State.parOf q) = h → fld (regOf (t.croft q) Reg.crfWinLimit) 4 0 = min 16
           (s.field (Reg.altRes h) 4 0) ∧
         RegsKept (s.croft q) (t.croft q) [Reg.crfWinLimit] ∧ (t.croft q).mem = (s.croft q).mem) ∧
       (∀ q, s.owner (State.parOf q) ≠ h → t.croft q = s.croft q) ∧
       (∀ i < 28, (t.gate i).field (Reg.gatAllot h) 27 16 = min 2048 (s.field (Reg.altRes h) 27 16) ∧
         (t.gate i).field (Reg.gatAllot h) 8 0 = min 256 (s.field (Reg.altRes h) 13 5) ∧
         t.gate i = { s.gate i with regs := (t.gate i).regs }) ∧
       t = { s with holdings := t.holdings, crofts := t.crofts, gates := t.gates } := by
  intro d
  have hx : exec (.allotmentApplied h) s = .next ((s.setHolding h { d with busy := false }).applyAllotment h) := if_pos hb
  obtain ⟨t, ht, hin, hout, hg, he⟩ := State.applyAllotment_spec (s.setHolding h { d with busy := false }) h
  rw [ht] at hx
  refine ⟨t, hx, ?_, hin, hout, hg, ?_⟩
  · rw [he]
    exact State.holding_setHolding_same s h _
  · rw [he]
    rfl

theorem State.formCode_spec (s : State) (h : Hold) : ∃ t, s.formCode h = t ∧ CapsWritten t ∧
    t = { s with holdings := t.holdings, parishes := t.parishes } ∧
    t.holding h = { s.holding h with code := (s.powerCode h).getD 0, noCode := (s.powerCode h).isNone, below := 0 } := by
  obtain ⟨t, ht, hc, he⟩ := State.writeCaps_spec (s.setHolding h
    { s.holding h with code := (s.powerCode h).getD 0, noCode := (s.powerCode h).isNone, below := 0 })
  refine ⟨t, ht, hc, ?_, ?_⟩
  · rw [he]
    rfl
  · rw [he]
    exact State.holding_setHolding_same s h _

/-- The parishes of a holding do not hang on its allotment. -/
theorem State.parishesOf_altPower (s : State) (h g : Nat) (hg : g < 16) (v : W64) :
    (s.setReg (Reg.altPower g) v).parishesOf h = s.parishesOf h := by
  unfold State.parishesOf
  refine List.filter_congr fun p hp => ?_
  have hne : Reg.hldOwner p ≠ Reg.altPower g := by
    have := List.mem_range.mp hp
    unfold Reg.hldOwner Reg.altPower
    omega
  unfold State.owner State.field
  rw [State.reg_setReg_ne s v hne]

theorem altPowerWrite_spec {s : State} {h : Hold} (hd : (s.holding h).st = .active) (v : W32) :
    ∃ t, exec (.altPowerWrite h v) s = .next t ∧ t.reg (Reg.altPower h) = (v &&& 0xFFFF).setWidth 64 ∧
      (t.holding h).busy = true ∧ (t.holding h).st = .active ∧
      IsPowerCode s h (v.toNat % 2 ^ 16) (t.holding h).code (t.holding h).noCode ∧ CapsWritten t ∧
      t = { s with regs := t.regs, holdings := t.holdings, parishes := t.parishes } := by
  generalize hu : ((s.setReg (Reg.altPower h) ((v &&& 0xFFFF).setWidth 64)).setHolding h { s.holding h with busy := true }) = u
  have hx : exec (.altPowerWrite h v) s = .next (u.formCode h) := by
    change Host.Outcome.next (s.writeAltPower h v) = _
    unfold State.writeAltPower
    dsimp only
    split
    · next hf => exact absurd (hf.symm.trans hd) (by decide)
    · rw [← hu]
    · next _ hn => exact absurd hd hn
  obtain ⟨t, ht, hc, he, hh⟩ := State.formCode_spec u h
  have hreg : u.reg (Reg.altPower h) = (v &&& 0xFFFF).setWidth 64 := hu ▸ State.reg_setReg_same s _ _
  have hhold : u.holding h = { s.holding h with busy := true } := hu ▸ State.holding_setHolding_same _ _ _
  have hfield : u.field (Reg.altPower h) 15 0 = v.toNat % 2 ^ 16 := by
    unfold State.field
    rw [hreg, fld_setWidth]
    unfold bitsOf
    rw [BitVec.toNat_and]
    change (v.toNat &&& (2 ^ 16 - 1)) / 1 % 2 ^ 16 = _
    rw [Nat.and_two_pow_sub_one_eq_mod, Nat.div_one, Nat.mod_mod]
  have hcode := State.powerCode_spec u h
  have hps : u.parishesOf h = s.parishesOf h := hu ▸ State.parishesOf_altPower s h h h.isLt _
  have hceil : u.ceiling = s.ceiling := hu ▸ rfl
  rw [ht] at hx
  refine ⟨t, hx, ?_, ?_, ?_, ?_, hc, ?_⟩
  · rw [he]
    exact hreg
  · rw [hh, hhold]
  · rw [hh, hhold]
    exact hd
  · rw [hh]
    rw [hfield] at hcode
    unfold IsPowerCode CodeFits at hcode ⊢
    rwa [hps, hceil] at hcode
  · rw [he, ← hu]
    rfl

theorem exec_altResWrite {s : State} {h : Hold} (v : W32) :
    ((s.holding h).st = .active → exec (.altResWrite h v) s =
      .next ((s.setReg (Reg.altRes h) ((v &&& 0x0FFF3FFF).setWidth 64)).setHolding h { s.holding h with busy := true })) ∧
    ((s.holding h).st = .resetting ∨ (s.holding h).st = .destroying →
      exec (.altResWrite h v) s = .next (s.setHolding h { s.holding h with altRes := some v })) ∧
    ((s.holding h).st = .free → exec (.altResWrite h v) s = .next s) := by
  change _ ∧ (_ → Host.Outcome.next (s.writeAltRes h v) = _) ∧ _
  have hx : exec (.altResWrite h v) s = .next (s.writeAltRes h v) := rfl
  rw [hx]
  unfold State.writeAltRes
  dsimp only
  refine ⟨fun hd => ?_, fun hd => ?_, fun hd => ?_⟩
  · rw [hd]
  · rcases hd with hd | hd <;> rw [hd]
  · rw [hd]

theorem exec_altPowerWrite_held {s : State} {h : Hold} (v : W32) :
    ((s.holding h).st = .resetting ∨ (s.holding h).st = .destroying →
      exec (.altPowerWrite h v) s = .next (s.setHolding h { s.holding h with altPower := some v })) ∧
    ((s.holding h).st = .free → exec (.altPowerWrite h v) s = .next s) := by
  have hx : exec (.altPowerWrite h v) s = .next (s.writeAltPower h v) := rfl
  rw [hx]
  unfold State.writeAltPower
  dsimp only
  refine ⟨fun hd => ?_, fun hd => ?_⟩
  · rcases hd with hd | hd <;> rw [hd]
  · rw [hd]

/-- A holding changes and the caps follow. -/
theorem State.setHolding_caps (s : State) (h : Hold) (d : Holding) : ∃ t, (s.setHolding h d).writeCaps = t ∧ t.holding h = d ∧
    CapsWritten t ∧ t = { s with holdings := t.holdings, parishes := t.parishes } := by
  obtain ⟨t, ht, hc, he⟩ := State.writeCaps_spec (s.setHolding h d)
  refine ⟨t, ht, ?_, hc, ?_⟩
  · rw [he]
    exact State.holding_setHolding_same s h _
  · rw [he]
    rfl

theorem holdingPowerReading_spec {s : State} {h : Hold} (watts : Nat) (hf : (s.holding h).st ≠ .free) :
    let d := s.holding h
    let cap := s.field (Reg.altPower h) 15 0
    (cap < watts → ∃ t, exec (.holdingPowerReading h watts) s = .next t ∧ t.holding h =
        { d with watts, below := 0, code := d.code - 1 } ∧
      CapsWritten t ∧ t = { s with holdings := t.holdings, parishes := t.parishes }) ∧
    (watts ≤ cap → 95 * cap ≤ 100 * watts → exec (.holdingPowerReading h watts) s = .next
        (s.setHolding h { d with watts, below := 0 })) ∧
    (watts ≤ cap → 100 * watts < 95 * cap → d.below ≠ 9 →
      exec (.holdingPowerReading h watts) s = .next (s.setHolding h { d with watts, below := d.below + 1 })) ∧
    (watts ≤ cap → 100 * watts < 95 * cap → d.below = 9 → ∀ c, IsPowerCode s h cap c false → d.code < c →
      ∃ t, exec (.holdingPowerReading h watts) s = .next t ∧ t.holding h = { d with watts, below := 0, code := d.code + 1 } ∧
          CapsWritten t) := by
  intro d cap
  have hx : exec (.holdingPowerReading h watts) s = .next (s.holdingReading h watts) := rfl
  unfold State.holdingReading at hx
  extract_lets at hx
  rw [if_neg hf] at hx
  refine ⟨fun hlt => ?_, fun hle h95 => ?_, fun hle h95 hb => ?_, fun hle h95 hb c hc hlt => ?_⟩
  · rw [if_pos hlt] at hx
    obtain ⟨t, ht, hh, hc, he⟩ := State.setHolding_caps s h { d with watts, below := 0, code := d.code - 1 }
    exact ⟨t, hx.trans (congrArg _ ht), hh, hc, he⟩
  · rw [if_neg (Nat.not_lt.mpr hle), if_neg (Nat.not_lt.mpr h95)] at hx
    exact hx
  · rw [if_neg (Nat.not_lt.mpr hle), if_pos h95, if_neg hb] at hx
    exact hx
  · rw [if_neg (Nat.not_lt.mpr hle), if_pos h95, if_pos hb, State.powerCode_of hc] at hx
    obtain ⟨t, ht, hh, hc, -⟩ := State.setHolding_caps s h
      { d with watts, below := 0, code := max d.code (min (d.code + 1) ((some c).getD 0)) }
    refine ⟨t, hx.trans (congrArg _ ht), hh.trans ?_, hc⟩
    have : max d.code (min (d.code + 1) ((some c).getD 0)) = d.code + 1 := by
      simp only [Option.getD_some]
      omega
    rw [this]

theorem modulePowerReading_spec {s : State} (hu : s.up = true) :
    let pw := s.inputPower
    let lim := 10000 * s.field Reg.altModuleCap 15 0
    (lim < pw → ∃ t, exec .modulePowerReading s = .next t ∧ t.power =
      { s.power with modWatts := pw / 10000, capBelow := 0, modCode := s.power.modCode - 1 } ∧ CapsWritten t ∧
      t = { s with power := t.power, parishes := t.parishes }) ∧
    (pw ≤ lim → 100 * pw < 95 * lim → s.power.capBelow = 99 → ∃ t, exec .modulePowerReading s = .next t ∧ t.power =
      { s.power with modWatts := pw / 10000, capBelow := 0, modCode := min 25 (s.power.modCode + 1) } ∧ CapsWritten t) ∧
    (pw ≤ lim → 100 * pw < 95 * lim → s.power.capBelow ≠ 99 → exec .modulePowerReading s = .next { s with power :=
      { s.power with modWatts := pw / 10000, capBelow := s.power.capBelow + 1 } }) := by
  intro pw lim
  have hl : s.field Reg.altModuleCap 15 0 * 10000 = lim := Nat.mul_comm _ _
  have hx : exec .modulePowerReading s = .next s.moduleReading := if_pos hu
  unfold State.moduleReading at hx
  dsimp only at hx
  rw [hl] at hx
  refine ⟨fun hlt => ?_, fun hle h95 hb => ?_, fun hle h95 hb => ?_⟩
  · rw [if_pos hlt] at hx
    obtain ⟨t, ht, hc, he⟩ := State.writeCaps_spec { s with power :=
        { s.power with modWatts := pw / 10000, capBelow := 0, modCode := s.power.modCode - 1 } }
    refine ⟨t, hx.trans (congrArg _ ht), ?_, hc, ?_⟩
    · rw [he]
    · rw [he]
  · rw [if_neg (Nat.not_lt.mpr hle), if_pos h95, if_pos hb] at hx
    obtain ⟨t, ht, hc, he⟩ := State.writeCaps_spec
      { s with power := { s.power with modWatts := pw / 10000, capBelow := 0, modCode := min 25 (s.power.modCode + 1) } }
    refine ⟨t, hx.trans (congrArg _ ht), ?_, hc⟩
    rw [he]
  · rw [if_neg (Nat.not_lt.mpr hle), if_pos h95, if_neg hb] at hx
    exact hx

/-- Settles O48. -/
theorem allotmentsAndPower : Obligations.AllotmentsAndPower := by
  unfold Obligations.AllotmentsAndPower
  refine ⟨fun h s => ⟨exec_altResWrite, allotmentApplied_spec⟩, fun h s => ⟨fun v => ⟨fun hd => altPowerWrite_spec hd v, exec_altPowerWrite_held v⟩,
    fun hu v => congrArg Host.Outcome.next (if_neg (by simp [hu])), fun hu v => congrArg Host.Outcome.next (if_pos hu),
    fun watts hf => holdingPowerReading_spec watts hf, modulePowerReading_spec⟩⟩

end Sys2Proof.Machine

namespace Sys2Proof.Machine
open Sys2Proof.Safety

/-! ### The ledger's buffer -/

theorem State.num_setNum (s : State) (o n j : Nat) (hn : n < 2 ^ 64) : (s.setNum o n).num j = if j = o then n else s.num j := by
  unfold State.num State.setNum
  rw [State.reg_setReg]
  split
  · rw [BitVec.toNat_ofNat, Nat.mod_eq_of_lt hn]
  · rfl

theorem satAdd_lt (a b : Nat) : satAdd a b < 2 ^ 64 := by
  unfold satAdd
  omega

theorem State.num_count (s : State) (o n j : Nat) : (s.count o n).num j = if j = o then satAdd (s.num o) n else s.num j :=
  State.num_setNum s o _ j (satAdd_lt _ _)

theorem ldgBuf_ne (w : Nat) : Reg.ldgBuf w ≠ Reg.ldgCmd ∧ Reg.ldgBuf w ≠ Reg.ldgCorr ∧ Reg.ldgBuf w ≠ Reg.ldgUncorr := by
  unfold Reg.ldgBuf Reg.ldgCmd Reg.ldgCorr Reg.ldgUncorr
  omega

/-- A word of a slice fits its register. -/
theorem ofLe_slice_lt (bs : List Byte) (a : Nat) : ofLe (slice bs a 4) < 2 ^ 64 := by
  have := ofLe_lt (slice bs a 4)
  rw [slice_length] at this
  omega

theorem State.foldl_fill (bs : List Byte) (ws : List Nat) : ∀ s : State,
    let t := ws.foldl (fun s w => s.setNum (Reg.ldgBuf w) (ofLe (slice bs (4 * w) 4))) s
    t = { s with regs := t.regs } ∧ (∀ o, (∀ w, o ≠ Reg.ldgBuf w) → t.num o = s.num o) ∧
      ∀ w, t.num (Reg.ldgBuf w) = if w ∈ ws then ofLe (slice bs (4 * w) 4) else s.num (Reg.ldgBuf w) := by
  induction ws with
  | nil => exact fun s => ⟨rfl, fun _ _ => rfl, fun w => by simp⟩
  | cons v ws ih =>
    intro s t
    obtain ⟨he, ho, hw⟩ := ih (s.setNum (Reg.ldgBuf v) (ofLe (slice bs (4 * v) 4)))
    refine ⟨he, fun o h => (ho o h).trans ?_, fun w => (hw w).trans ?_⟩
    · rw [State.num_setNum _ _ _ _ (ofLe_slice_lt _ _), if_neg (h v)]
    · rw [State.num_setNum _ _ _ _ (ofLe_slice_lt _ _)]
      have hinj : Reg.ldgBuf w = Reg.ldgBuf v ↔ w = v := by
        unfold Reg.ldgBuf
        omega
      simp only [hinj, List.mem_cons]
      by_cases hv : w = v
      · simp [hv]
      · simp [hv]

/-- The buffer filled with a block's bytes. -/
theorem State.fillBuf_spec (s : State) (bs : List Byte) : s.fillBuf bs = { s with regs := (s.fillBuf bs).regs } ∧
    (∀ o, (∀ w, o ≠ Reg.ldgBuf w) → (s.fillBuf bs).num o = s.num o) ∧
    ∀ w < 1024, (s.fillBuf bs).num (Reg.ldgBuf w) = ofLe (slice bs (4 * w) 4) := by
  obtain ⟨he, ho, hw⟩ := State.foldl_fill bs (List.range 1024) s
  exact ⟨he, ho, fun w h => (hw w).trans (if_pos (List.mem_range.mpr h))⟩

theorem ofLe_replicate_zero (n : Nat) : ofLe (List.replicate n (0 : Byte)) = 0 := by
  induction n with
  | zero => rfl
  | succ n ih =>
    rw [List.replicate_succ, ofLe, ih]
    rfl

theorem slice_nil (a n : Nat) : slice [] a n = List.replicate n 0 := by
  simp [slice]

/-! ### Reads -/

/-- The ledger with a command under way, and LDG_CMD as it shows. -/
theorem State.ldgCmd_spec (s : State) (b : BitVec 20) (err : Bool) : s.ldgCmd b.toNat err =
    { s.setNum Reg.ldgCmd ((if err = true then 2 ^ 29 else 0) + b.toNat) with ledger := { s.ledger with busy := true } } := by
  unfold State.ldgCmd
  rw [Nat.mod_eq_of_lt b.isLt]
  cases err
  · rfl
  · rfl

theorem State.num_ldgCmd (s : State) (b : BitVec 20) (err : Bool) (o : Nat) : (s.ldgCmd b.toNat err).num o =
    if o = Reg.ldgCmd then (if err = true then 2 ^ 29 else 0) + b.toNat else s.num o := by
  have := b.isLt
  rw [State.ldgCmd_spec]
  exact State.num_setNum s _ _ o (by split <;> omega)

/-- What an uncorrectable block leaves, once the buffer is filled with zeros. -/
theorem State.uncorrectable_of {s u : State} {b : BitVec 20} (he : u = { s.ldgCmd b.toNat true with regs := u.regs })
    (hcmd : u.num Reg.ldgCmd = 2 ^ 29 + b.toNat) (hunc : u.num Reg.ldgUncorr = s.num Reg.ldgUncorr)
    (hw : ∀ w < 1024, u.num (Reg.ldgBuf w) = ofLe (slice [] (4 * w) 4)) :
    let t := (u.count Reg.ldgUncorr 1).raise 78 (State.locLedger b.toNat) 0 (State.accessOpcode Reg.ldgCmd)
    ∃ e, e.source = 78 ∧ e.loc = State.locLedger b.toNat ∧
      e.time = s.clock.now ∧ t = { s with regs := t.regs, ledger := { s.ledger with busy := true }, reports := s.reports ++ [e]
          } ∧
      t.num Reg.ldgCmd = 2 ^ 29 + b.toNat ∧ t.num Reg.ldgUncorr = satAdd (s.num Reg.ldgUncorr) 1 ∧ ∀ w < 1024, t.num
          (Reg.ldgBuf w) = 0 := by
  have hkind : 7 ≤ (State.locLedger b.toNat).toNat / 2 ^ 28 := by
    have := b.isLt
    simp [State.locLedger, unitCode]
    omega
  rw [State.ldgCmd_spec] at he
  have hnum (o : Nat) : (u.count Reg.ldgUncorr 1).num o = if o = Reg.ldgUncorr then satAdd (s.num Reg.ldgUncorr) 1 else u.num o := by
    rw [State.num_count, hunc]
  have hv : u.count Reg.ldgUncorr 1 = { u with regs := (u.count Reg.ldgUncorr 1).regs } := rfl
  rw [State.raise_direct _ _ _ _ _ _ _ hkind]
  generalize u.count Reg.ldgUncorr 1 = v at hnum hv
  have hs : v = { s with regs := v.regs, ledger := { s.ledger with busy := true } } := by
    rw [hv, he]
    rfl
  have hrep : v.reports = s.reports := by rw [hs]
  have hclock : v.clock = s.clock := by rw [hs]
  refine ⟨v.eventOf 78 (State.locLedger b.toNat) 0 (State.accessOpcode Reg.ldgCmd) (some false) none, rfl, rfl,
    congrArg Clock.now hclock, ?_, (hnum _).trans ((if_neg (by decide)).trans hcmd), (hnum _).trans (if_pos rfl),
    fun w h => (hnum _).trans ((if_neg (ldgBuf_ne w).2.2).trans ?_)⟩
  · rw [hrep]
    generalize v.eventOf 78 (State.locLedger b.toNat) 0 (State.accessOpcode Reg.ldgCmd) (some false) none = e
    exact congrArg (fun x : State => { x with reports := s.reports ++ [e] }) hs
  · rw [hw w h, slice_nil, ofLe_replicate_zero]

section Read
variable {s : State} {b : BitVec 20} (ha : s.ledger.answers = true)
include ha

theorem State.ldgRead_clean : s.ldgRead b.toNat .clean = (s.ldgCmd b.toNat false).fillBuf (s.ledger.block b.toNat) :=
  if_neg (by simp [ha])

theorem State.ldgRead_corrected (n : Nat) :
    s.ldgRead b.toNat (.corrected n) = ((s.ldgCmd b.toNat false).fillBuf (s.ledger.block b.toNat)).count Reg.ldgCorr n :=
  if_neg (by simp [ha])

theorem State.ldgRead_uncorrectable : s.ldgRead b.toNat .uncorrectable =
    (((s.ldgCmd b.toNat true).fillBuf []).count Reg.ldgUncorr 1).raise 78 (State.locLedger b.toNat) 0
        (State.accessOpcode Reg.ldgCmd) :=
  if_neg (by simp [ha])

/-- A block that reads fills the buffer, and corrected codewords are counted (R404). -/
theorem State.ldgRead_spec {found : BlockEcc} (hf : found ≠ .uncorrectable) :
    let t := s.ldgRead b.toNat found
    t = { s with regs := t.regs, ledger := { s.ledger with busy := true } } ∧ t.num Reg.ldgCmd = b.toNat ∧
      (∀ w < 1024, t.num (Reg.ldgBuf w) = ofLe (slice (s.ledger.block b.toNat) (4 * w) 4)) ∧
      (∀ n, found = .corrected n → t.num Reg.ldgCorr = satAdd (s.num Reg.ldgCorr) n) ∧
      (found = .clean → t.num Reg.ldgCorr = s.num Reg.ldgCorr) := by
  obtain ⟨he, ho, hw⟩ := State.fillBuf_spec (s.ldgCmd b.toNat false) (s.ledger.block b.toNat)
  have hcmd := (ho Reg.ldgCmd fun w => (ldgBuf_ne w).1.symm).trans (State.num_ldgCmd s b false Reg.ldgCmd)
  have hcorr := (ho Reg.ldgCorr fun w => (ldgBuf_ne w).2.1.symm).trans (State.num_ldgCmd s b false Reg.ldgCorr)
  rw [if_pos rfl, if_neg (by decide), Nat.zero_add] at hcmd
  rw [if_neg (by decide)] at hcorr
  cases found with
  | uncorrectable => exact absurd rfl hf
  | clean =>
    rw [State.ldgRead_clean ha]
    generalize (s.ldgCmd b.toNat false).fillBuf (s.ledger.block b.toNat) = u at he hw hcmd hcorr ⊢
    rw [State.ldgCmd_spec] at he
    exact ⟨he, hcmd, hw, fun n h => BlockEcc.noConfusion h, fun _ => hcorr⟩
  | corrected n =>
    rw [State.ldgRead_corrected ha]
    generalize (s.ldgCmd b.toNat false).fillBuf (s.ledger.block b.toNat) = u at he hw hcmd hcorr ⊢
    rw [State.ldgCmd_spec] at he
    refine ⟨?_, ?_, fun w h => ?_, fun m h => ?_, fun h => BlockEcc.noConfusion h⟩
    · exact congrArg (fun v : State => { v with regs := (u.count Reg.ldgCorr n).regs }) he
    · rw [State.num_count, if_neg (by decide)]
      exact hcmd
    · rw [State.num_count, if_neg (ldgBuf_ne w).2.1]
      exact hw w h
    · obtain rfl : n = m := by injection h
      rw [State.num_count, if_pos rfl, hcorr]

theorem State.ldgRead_fails :
    let t := s.ldgRead b.toNat .uncorrectable
    ∃ e, e.source = 78 ∧ e.loc = State.locLedger b.toNat ∧
      e.time = s.clock.now ∧ t = { s with regs := t.regs, ledger := { s.ledger with busy := true }, reports := s.reports ++ [e]
          } ∧
      t.num Reg.ldgCmd = 2 ^ 29 + b.toNat ∧ t.num Reg.ldgUncorr = satAdd (s.num Reg.ldgUncorr) 1 ∧ ∀ w < 1024, t.num
          (Reg.ldgBuf w) = 0 := by
  obtain ⟨he, ho, hw⟩ := State.fillBuf_spec (s.ldgCmd b.toNat true) []
  have hcmd := (ho Reg.ldgCmd fun w => (ldgBuf_ne w).1.symm).trans (State.num_ldgCmd s b true Reg.ldgCmd)
  have hunc := (ho Reg.ldgUncorr fun w => (ldgBuf_ne w).2.2.symm).trans (State.num_ldgCmd s b true Reg.ldgUncorr)
  rw [if_pos rfl, if_pos rfl] at hcmd
  rw [if_neg (by decide)] at hunc
  rw [State.ldgRead_uncorrectable ha]
  exact State.uncorrectable_of he hcmd hunc hw

end Read

/-! ### Writes -/

theorem length_flatMap_const {f : Nat → List Byte} {k : Nat} (hf : ∀ i, (f i).length = k) (n : Nat) :
    ((List.range n).flatMap f).length = k * n := by
  simp [List.length_flatMap, hf, Nat.mul_comm]

/-- Byte j of part w of parts of one length. -/
theorem getD_flatMap_const {f : Nat → List Byte} {k : Nat} (hf : ∀ i, (f i).length = k) {n w j : Nat} (hw : w < n) (hj : j < k)
    :
    ((List.range n).flatMap f).getD (k * w + j) 0 = (f w).getD j 0 := by
  induction n with
  | zero => exact absurd hw (Nat.not_lt_zero w)
  | succ n ih =>
    have hlen := length_flatMap_const hf n
    rw [List.range_succ, List.flatMap_append, List.flatMap_singleton]
    rcases Nat.lt_succ_iff_lt_or_eq.mp hw with hlt | rfl
    · have : k * w + j < k * n := by
        have := Nat.mul_le_mul_left k (show w + 1 ≤ n from hlt)
        rw [Nat.mul_add, Nat.mul_one] at this
        omega
      rw [List.getD_append _ _ _ _ (hlen ▸ this), ih hlt]
    · rw [List.getD_append_right _ _ _ _ (by omega), hlen, Nat.add_sub_cancel_left]

theorem getD_leBytes (k n : Nat) : ∀ {j : Nat}, j < k → ((leBytes k n).getD j 0).toNat = n / 256 ^ j % 256 := by
  induction k generalizing n with
  | zero => exact fun h => absurd h (Nat.not_lt_zero _)
  | succ k ih =>
    intro j hj
    cases j with
    | zero =>
      rw [leBytes, List.getD_cons_zero, BitVec.toNat_ofNat, Nat.pow_zero, Nat.div_one]
    | succ j =>
      rw [leBytes, List.getD_cons_succ, ih (n / 256) (by omega), Nat.div_div_eq_div_mul, Nat.pow_succ']

theorem State.bufBytes_length (s : State) : s.bufBytes.length = 4096 :=
  length_flatMap_const (fun _ => leBytes_length 4 _) 1024

theorem State.getD_bufBytes (s : State) {w j : Nat} (hw : w < 1024) (hj : j < 4) :
    (s.bufBytes.getD (4 * w + j) 0).toNat = s.num (Reg.ldgBuf w) / 256 ^ j % 256 := by
  have h := getD_flatMap_const (f := fun w => leBytes 4 (s.num (Reg.ldgBuf w))) (fun _ => leBytes_length 4 _) hw hj
  rw [State.bufBytes, h]
  exact getD_leBytes 4 _ hj

/-- A block of the history table whose permanent entries software may blank. -/
theorem Ledger.mem_removals (l : Ledger) (b : Nat) (bs : List Byte) {i : Nat} (h : i ∈ l.removals b bs) :
    Ledger.inHistory b = true ∧ ∃ e, l.entry i = some e ∧ e.permanent = true := by
  unfold Ledger.removals at h
  dsimp only at h
  split at h
  · next hc =>
    rw [Bool.and_eq_true, List.all_eq_true] at hc
    obtain ⟨j, hj, rfl⟩ := List.mem_map.mp h
    have hr := hc.2 j hj
    rw [Bool.and_eq_true, beq_iff_eq, beq_iff_eq, Option.map_eq_some_iff] at hr
    exact ⟨hc.1, hr.2⟩
  · exact absurd h List.not_mem_nil

/-- The ledger as an allowed write of bytes bs to block b leaves it, the permanent entries in gone blanked. -/
def Ledger.written (l : Ledger) (b : Nat) (bad : Bool) (bs : List Byte) (gone : List Nat) : Ledger :=
  let l := if bad then l.retire b else l
  if Ledger.inHistory b then { l with history := gone.foldl (fun t i => Tab.set Ledger.histDefault t i none) l.history }
  else { l with bytes := Memory.write l.bytes (4096 * b) bs }

/-- The block under a write that is allowed. -/
theorem State.ldgWrite_allowed {s : State} {b : BitVec 20} {bad : Bool} (ha : s.ledger.answers = true)
    (hp : s.ldgProtected b.toNat = false ∨ s.ledger.removals b.toNat s.bufBytes ≠ []) (hs : bad = true → s.ledger.spare ≠ 0) :
    s.ldgWrite b.toNat bad = { s.ldgCmd b.toNat false with
      ledger := (s.ldgCmd b.toNat false).ledger.written b.toNat bad s.bufBytes (s.ledger.removals b.toNat s.bufBytes) } := by
  refine if_neg ?_
  have h1 : (s.ldgProtected b.toNat && (s.ledger.removals b.toNat s.bufBytes).isEmpty) = false := by
    rcases hp with hp | hp
    · rw [hp]
      rfl
    · rw [List.isEmpty_eq_false_iff.mpr hp, Bool.and_false]
  have h2 : (bad && s.ledger.spare == 0) = false := by
    cases hb : bad
    · rfl
    · simpa using hs hb
  simp [ha, h1, h2]

theorem State.ldgWrite_failed {s : State} {b : BitVec 20} {bad : Bool} (h : s.ledger.answers = false ∨
      s.ldgProtected b.toNat = true ∧ s.ledger.removals b.toNat s.bufBytes = [] ∨ bad = true ∧ s.ledger.spare = 0) :
    s.ldgWrite b.toNat bad = s.ldgCmd b.toNat true :=
  if_pos (by
    rcases h with h | ⟨h, h'⟩ | ⟨h, h'⟩
    · simp [h]
    · simp [h, h']
    · simp [h, h'])

/-- Retiring a block changes the spares and the list alone. -/
theorem Ledger.retire_spec (l : Ledger) (b : Nat) : l.retire b =
    { l with spare := (l.retire b).spare, retired := (l.retire b).retired } ∧
    (l.spare ≠ 0 → b ∉ l.retired → (l.retire b).spare = l.spare - 1 ∧ (l.retire b).retired = l.retired ++ [b]) := by
  unfold Ledger.retire
  refine ⟨by split <;> rfl, fun hs hb => ?_⟩
  rw [if_neg (by simp [hs, hb])]
  exact ⟨rfl, rfl⟩

/-- A block of bytes written, with a spare for a bad block. -/
theorem Ledger.written_block (l : Ledger) {b : Nat} (hh : Ledger.inHistory b = false) (bad : Bool) {bs : List Byte}
    (gone : List Nat)
    (hlen : bs.length = 4096) (hs : bad = true → l.spare ≠ 0) :
    let m := l.written b bad bs gone
    m = { l with bytes := m.bytes, spare := m.spare, retired := m.retired } ∧
      (∀ i < 4096, Memory.byte m.bytes (4096 * b + i) = bs.getD i 0) ∧
      (∀ a, (a < 4096 * b ∨ 4096 * b + 4096 ≤ a) → Memory.byte m.bytes a = Memory.byte l.bytes a) ∧
      (bad = true → b ∉ l.retired → m.spare = l.spare - 1 ∧ m.retired = l.retired ++ [b]) ∧
      (bad = false → m.spare = l.spare ∧ m.retired = l.retired) := by
  have hin (m : Memory) (i : Nat) (hi : i < 4096) : Memory.byte (Memory.write m (4096 * b) bs) (4096 * b + i) = bs.getD i 0 := by
    rw [Memory.byte_write, if_pos (by omega), Nat.add_sub_cancel_left]
  have hout (m : Memory) (a : Nat) (h : a < 4096 * b ∨ 4096 * b + 4096 ≤ a) :
      Memory.byte (Memory.write m (4096 * b) bs) a = Memory.byte m a := by
    rw [Memory.byte_write, if_neg (by omega)]
  obtain ⟨hr, hr'⟩ := Ledger.retire_spec l b
  unfold Ledger.written
  dsimp only
  rw [if_neg (by simp [hh])]
  cases bad with
  | false => exact ⟨rfl, hin _, hout _, fun h => Bool.noConfusion h, fun _ => ⟨rfl, rfl⟩⟩
  | true =>
    rw [if_pos rfl]
    generalize l.retire b = k at hr hr' ⊢
    have hb : k.bytes = l.bytes := by rw [hr]
    refine ⟨?_, hin _, fun a h => (hout _ a h).trans (by rw [hb]), fun _ => hr' (hs rfl), fun h => Bool.noConfusion h⟩
    exact congrArg (fun x : Ledger => { x with bytes := Memory.write k.bytes (4096 * b) bs }) hr

theorem Ledger.written_history (l : Ledger) {b : Nat} (hh : Ledger.inHistory b = true) (bs : List Byte) (gone : List Nat) :
    let m := l.written b false bs gone
    m = { l with history := m.history } ∧ ∀ i, m.entry i = if i ∈ gone then none else l.entry i := by
  unfold Ledger.written
  dsimp only
  rw [if_pos hh]
  exact ⟨rfl, fun i => get_foldl_set _ _ _ i _⟩

/-- A command of the ledger with its effect on it: the registers show the block, and the ledger is as it is left. -/
theorem State.ldgCmd_ledger (s : State) (b : BitVec 20) (l : Ledger) :
    let t : State := { s.ldgCmd b.toNat false with ledger := l }
    t = { s with regs := t.regs, ledger := l } ∧ t.num Reg.ldgCmd = b.toNat := by
  intro t
  have hcmd := State.num_ldgCmd s b false Reg.ldgCmd
  rw [if_pos rfl, if_neg (by decide), Nat.zero_add] at hcmd
  exact ⟨rfl, hcmd⟩

theorem State.ldgCmd_ledger_busy (s : State) (b : BitVec 20) : (s.ldgCmd b.toNat false).ledger = { s.ledger with busy := true }
    := rfl

theorem ldgWrite_block {s : State} {b : BitVec 20} {bad : Bool} (ha : s.ledger.answers = true)
    (hp : s.ldgProtected b.toNat = false)
    (hs : bad = true → s.ledger.spare ≠ 0) :
    let l := s.ledger
    ∃ t, s.ldgWrite b.toNat bad = t ∧
    t = { s with
      regs := t.regs
      ledger := { { l with busy := true } with bytes := t.ledger.bytes, spare := t.ledger.spare, retired := t.ledger.retired } }
          ∧
      t.num Reg.ldgCmd = b.toNat ∧
      (∀ w < 1024, ∀ j < 4, (Memory.byte t.ledger.bytes (4096 * b.toNat + 4 * w + j)).toNat = s.num (Reg.ldgBuf w) / 256 ^ j %
          256) ∧
      (∀ a, (a < 4096 * b.toNat ∨ 4096 * b.toNat + 4096 ≤ a) → Memory.byte t.ledger.bytes a = Memory.byte l.bytes a) ∧
      (bad = true → b.toNat ∉ l.retired → t.ledger.spare = l.spare - 1 ∧ t.ledger.retired = l.retired ++ [b.toNat]) ∧
      (bad = false → t.ledger.spare = l.spare ∧ t.ledger.retired = l.retired) := by
  intro l
  have hh : Ledger.inHistory b.toNat = false := by
    unfold State.ldgProtected at hp
    simp only [Bool.or_eq_false_iff] at hp
    exact hp.1.1.2
  rw [State.ldgWrite_allowed ha (.inl hp) hs, State.ldgCmd_ledger_busy]
  obtain ⟨hm, hin, hout, hbad, hgood⟩ := Ledger.written_block { s.ledger with busy := true } hh bad
    (s.ledger.removals b.toNat s.bufBytes) s.bufBytes_length hs
  generalize Ledger.written _ b.toNat bad s.bufBytes _ = m at hm hin hout hbad hgood ⊢
  obtain ⟨he, hcmd⟩ := State.ldgCmd_ledger s b m
  generalize ht : ({ s.ldgCmd b.toNat false with ledger := m } : State) = t at he hcmd ⊢
  have hl : t.ledger = m := by rw [he]
  refine ⟨t, rfl, ?_, hcmd, fun w hw j hj => ?_, fun a h => ?_, ?_, ?_⟩
  · rw [hl]
    exact he.trans (congrArg (fun x => { s with regs := t.regs, ledger := x }) hm)
  · rw [hl, show 4096 * b.toNat + 4 * w + j = 4096 * b.toNat + (4 * w + j) by omega, hin _ (by omega)]
    exact s.getD_bufBytes hw hj
  · rw [hl]
    exact hout a h
  · rw [hl]
    exact hbad
  · rw [hl]
    exact hgood

theorem ldgWrite_removes {s : State} {b : BitVec 20} (ha : s.ledger.answers = true)
    (hr : s.ledger.removals b.toNat s.bufBytes ≠ []) :
    let l := s.ledger
    ∃ t, s.ldgWrite b.toNat false = t ∧
    t = { s with regs := t.regs, ledger := { { l with busy := true } with history := t.ledger.history } } ∧ t.num Reg.ldgCmd =
        b.toNat ∧
      ∀ i, t.ledger.entry i = if i ∈ l.removals b.toNat s.bufBytes then none else l.entry i := by
  intro l
  obtain ⟨i, hi⟩ := List.exists_mem_of_ne_nil _ hr
  obtain ⟨hm, hent⟩ := Ledger.written_history { s.ledger with busy := true } (Ledger.mem_removals _ _ _ hi).1 s.bufBytes
    (s.ledger.removals b.toNat s.bufBytes)
  rw [State.ldgWrite_allowed ha (.inr hr) (fun h => Bool.noConfusion h), State.ldgCmd_ledger_busy]
  generalize Ledger.written _ b.toNat false s.bufBytes _ = m at hm hent ⊢
  obtain ⟨he, hcmd⟩ := State.ldgCmd_ledger s b m
  generalize ht : ({ s.ldgCmd b.toNat false with ledger := m } : State) = t at he hcmd ⊢
  have hl : t.ledger = m := by rw [he]
  refine ⟨t, rfl, ?_, hcmd, fun i => ?_⟩
  · rw [hl]
    exact he.trans (congrArg (fun x => { s with regs := t.regs, ledger := x }) hm)
  · rw [hl]
    exact hent i

/-! ### The commands -/

theorem exec_ldgRead_idle {s : State} (hu : s.up = true) (hb : s.ledger.busy = false) (b : BitVec 20) (found : BlockEcc) :
    exec (.ldgRead b found) s = .next (s.ldgRead b.toNat found) :=
  congrArg Host.Outcome.next ((if_neg (by simp [hu])).trans (if_neg (by simp [hb])))

theorem exec_ldgWrite_idle {s : State} (hu : s.up = true) (hb : s.ledger.busy = false) (b : BitVec 20) (bad : Bool) :
    exec (.ldgWrite b bad) s = .next (s.ldgWrite b.toNat bad) :=
  congrArg Host.Outcome.next ((if_neg (by simp [hu])).trans (if_neg (by simp [hb])))

theorem exec_ldgRead_later {s : State} (hu : s.up = true) (hb : s.ledger.busy = true) (b : BitVec 20) (found : BlockEcc) :
    exec (.ldgRead b found) s = .next { s.setField Reg.ldgCmd 19 0 b.toNat with
      ledger := { s.ledger with waiting := s.ledger.waiting ++ [.read b.toNat found] } } :=
  congrArg Host.Outcome.next ((if_neg (by simp [hu])).trans (if_pos hb))

theorem exec_ldgWrite_later {s : State} (hu : s.up = true) (hb : s.ledger.busy = true) (b : BitVec 20) (bad : Bool) :
    exec (.ldgWrite b bad) s = .next { s.setField Reg.ldgCmd 19 0 b.toNat with
      ledger := { s.ledger with waiting := s.ledger.waiting ++ [.write b.toNat bad] } } :=
  congrArg Host.Outcome.next ((if_neg (by simp [hu])).trans (if_pos hb))

theorem Ledger.block_plain {l : Ledger} {b : Nat} (hh : Ledger.inHistory b = false) (hl : Ledger.inLog b = false)
    (hf : Ledger.inFields b = true → l.hasFields = false) : l.block b = Memory.read l.bytes (4096 * b) 4096 := by
  unfold Ledger.block
  rw [if_neg (by simp [hh]), if_neg (by simp [hl])]
  refine if_neg fun h => ?_
  rw [Bool.and_eq_true] at h
  exact absurd (h.2.symm.trans (hf h.1)) (by decide)

theorem State.ldgDone_empty {s : State} (h : s.ledger.waiting = []) : s.ldgDone =
    { s with ledger := { s.ledger with busy := false } } := by
  unfold State.ldgDone
  dsimp only
  rw [h]
  dsimp only
  rw [List.drop_nil, ← h]

theorem State.ldgDone_next {s : State} {o : LdgOp} {os : List LdgOp} (h : s.ledger.waiting = o :: os) :
    s.ldgDone = ({ s with ledger := { s.ledger with busy := false, waiting := os } } : State).runLdg o := by
  unfold State.ldgDone
  dsimp only
  rw [h]
  rfl

/-- Settles O60. -/
theorem ledgerBlocksAreReadAndWritten : Obligations.LedgerBlocksAreReadAndWritten := by
  unfold Obligations.LedgerBlocksAreReadAndWritten
  intro s b l busy failed
  have hfailed : failed = .next (s.ldgCmd b.toNat true) := congrArg Host.Outcome.next (State.ldgCmd_spec s b true).symm
  refine ⟨fun hu => ⟨fun _ => congrArg Host.Outcome.next (if_pos (by simp [hu])), fun _ => congrArg Host.Outcome.next (if_pos (by simp [hu]))⟩,
    fun hu hb => ⟨exec_ldgRead_later hu hb b, exec_ldgWrite_later hu hb b⟩, fun hu hb => ?_,
    fun hh hl hf => Ledger.block_plain hh hl hf, fun i => Ledger.mem_removals l b.toNat s.bufBytes, fun h => congrArg
        Host.Outcome.next (State.ldgDone_empty h),
    fun hu os => ⟨fun found h => ?_, fun bad h => ?_⟩⟩
  · refine ⟨fun ha found hf => ⟨_, exec_ldgRead_idle hu hb b found, State.ldgRead_spec ha hf⟩, fun ha => ?_, fun bad ha hp hs => ?_,
      fun ha hr => ?_, fun bad h => ?_, fun found ha => ?_⟩
    · obtain ⟨e, he⟩ := State.ldgRead_fails (b := b) ha
      exact ⟨_, e, exec_ldgRead_idle hu hb b _, he⟩
    · obtain ⟨t, ht, h⟩ := ldgWrite_block ha hp hs
      exact ⟨t, (exec_ldgWrite_idle hu hb b bad).trans (congrArg _ ht), h⟩
    · obtain ⟨t, ht, h⟩ := ldgWrite_removes ha hr
      exact ⟨t, (exec_ldgWrite_idle hu hb b false).trans (congrArg _ ht), h⟩
    · rw [hfailed, exec_ldgWrite_idle hu hb, State.ldgWrite_failed h]
    · rw [hfailed, exec_ldgRead_idle hu hb]
      exact congrArg Host.Outcome.next (if_pos (by simp [show s.ledger.answers = false from ha]))
  · have hx := exec_ldgRead_idle (s := { s with ledger := { l with busy := false, waiting := os } }) hu rfl b found
    rw [hx]
    exact congrArg Host.Outcome.next (State.ldgDone_next h)
  · have hx := exec_ldgWrite_idle (s := { s with ledger := { l with busy := false, waiting := os } }) hu rfl b bad
    rw [hx]
    exact congrArg Host.Outcome.next (State.ldgDone_next h)

end Sys2Proof.Machine

namespace Sys2Proof.Machine
open Sys2Proof.Safety

/-! ### Sowing rounds -/

theorem State.croft_eachCroft_idem (g : Croft → Croft) (hg : ∀ c, g (g c) = g c) (qs : List Nat) (j : Nat) : ∀ s : State,
    (s.eachCroft qs fun _ => g).croft j = if j ∈ qs then g (s.croft j) else s.croft j := by
  induction qs with
  | nil => exact fun s => rfl
  | cons q qs ih =>
    intro s
    refine (ih (s.setCroft q (g (s.croft q)))).trans ?_
    rw [State.croft_setCroft]
    by_cases hj : j = q
    · simp [hj, hg]
    · simp [hj]

/-- A croft with the states of chunks c0 to c1 cleared. -/
def sowCleared (c0 c1 : Nat) (c : Croft) : Croft :=
  { c with sowMask := Tab.clear c.sowMask c0 (c1 + 1), sowMark := Tab.clear c.sowMark c0 (c1 + 1) }

theorem sowCleared_idem (c0 c1 : Nat) (c : Croft) : sowCleared c0 c1 (sowCleared c0 c1 c) = sowCleared c0 c1 c := by
  simp [sowCleared, Tab.clear, List.filter_filter]

theorem get_clear {α : Type} (d : Nat → α) (t : Tab α) (lo hi i : Nat) :
    Tab.get d (Tab.clear t lo hi) i = if lo ≤ i ∧ i < hi then d i else Tab.get d t i := by
  unfold Tab.clear
  rw [get_filter d (fun i => decide (i < lo) || decide (hi ≤ i))]
  by_cases h : lo ≤ i ∧ i < hi
  · rw [if_pos h, if_neg (by simp; omega)]
  · rw [if_neg h, if_pos (by simp; omega)]

theorem sowCleared_spec (c0 c1 : Nat) (c : Croft) (i : Nat) :
    (c0 ≤ i ∧ i ≤ c1 → sowMarkAt (sowCleared c0 c1 c) i = .none ∧ sowMaskAt (sowCleared c0 c1 c) i = 0) ∧
      (¬ (c0 ≤ i ∧ i ≤ c1) → sowMarkAt (sowCleared c0 c1 c) i = sowMarkAt c i ∧ sowMaskAt (sowCleared c0 c1 c) i = sowMaskAt c
          i) := by
  unfold sowMarkAt sowMaskAt sowCleared
  refine ⟨fun h => ⟨?_, ?_⟩, fun h => ⟨?_, ?_⟩⟩
  · exact (get_clear _ _ _ _ _).trans (if_pos (by omega))
  · exact (get_clear _ _ _ _ _).trans (if_pos (by omega))
  · exact (get_clear _ _ _ _ _).trans (if_neg (by omega))
  · exact (get_clear _ _ _ _ _).trans (if_neg (by omega))

theorem get_of_unlisted {α : Type} (d : Nat → α) (t : Tab α) (i : Nat) (h : i ∉ t.map (·.1)) : Tab.get d t i = d i := by
  induction t with
  | nil => rfl
  | cons e t ih =>
    rw [List.map_cons, List.mem_cons, not_or] at h
    rw [Tab.get, if_neg h.1, ih h.2]

/-- A croft that no entry lists holds no chunk states. -/
theorem State.croft_of_unlisted {s : State} {q : Nat} (h : q ∉ s.crofts.map (·.1)) : s.croft q = {} :=
  get_of_unlisted _ _ q h

theorem State.onCroft_sowClear (s : State) (q c0 c1 : Nat) :
    (s.onCroft q fun x => x.sowClear c0 c1) = s.setCroft q (sowCleared c0 c1 (s.croft q)) :=
  State.onCroft_eq s q _ rfl rfl rfl

theorem State.foldl_sowClear (c0 c1 : Nat) (qs : List Nat) (s : State) :
    qs.foldl (fun s q => s.onCroft q fun x => x.sowClear c0 c1) s = s.eachCroft qs fun _ => sowCleared c0 c1 :=
  congrArg (fun f => qs.foldl f s) (funext fun s => funext fun q => State.onCroft_sowClear s q c0 c1)

/-- The round that an OPEN announces. -/
def State.announced (s : State) : Sec :=
  { s.sec with
    sowErr := false, sowBusy := true, sowOpen := true, sowRound := s.field Reg.secSowRound 15 0
    sowC0 := s.field Reg.secSowRange 8 0, sowC1 := s.field Reg.secSowRange 24 16, sowDest := (s.reg Reg.secSowDest).setWidth 32
        }

theorem sowOpen_spec {s : State} (hu : s.up = true) (hb : s.sec.sowBusy = false) (ho : s.sec.sowOpen = false)
    (hc : s.field Reg.secSowRange 8 0 ≤ s.field Reg.secSowRange 24 16) :
    let c0 := s.field Reg.secSowRange 8 0
    let c1 := s.field Reg.secSowRange 24 16
    ∃ t, exec .sowOpen s = .next t ∧ t.sec = s.announced ∧ t = { s with sec := t.sec, crofts := t.crofts } ∧
      ∀ q, t.croft q = { s.croft q with sowMask := (t.croft q).sowMask, sowMark := (t.croft q).sowMark } ∧
        ∀ i, (c0 ≤ i ∧ i ≤ c1 → sowMarkAt (t.croft q) i = .none ∧ sowMaskAt (t.croft q) i = 0) ∧
          (¬ (c0 ≤ i ∧ i ≤ c1) → sowMarkAt (t.croft q) i = sowMarkAt (s.croft q) i ∧ sowMaskAt (t.croft q) i = sowMaskAt
              (s.croft q) i) := by
  intro c0 c1
  have hx : exec .sowOpen s = .next (({ s with sec := s.announced } : State).eachCroft (s.crofts.map (·.1)) fun _ => sowCleared c0 c1) := by
    refine congrArg Host.Outcome.next ((if_pos hu).trans ((if_neg ?_).trans ?_))
    · simp [hb, ho, hc]
    · exact State.foldl_sowClear c0 c1 _ _
  have he := State.eachCroft_frame (fun _ => sowCleared c0 c1) (s.crofts.map (·.1)) { s with sec := s.announced }
  have hcr := fun q => State.croft_eachCroft_idem (sowCleared c0 c1) (sowCleared_idem c0 c1) (s.crofts.map (·.1)) q { s with sec := s.announced }
  generalize ({ s with sec := s.announced } : State).eachCroft (s.crofts.map (·.1)) (fun _ => sowCleared c0 c1) = t at hx he hcr
  have hsec : t.sec = s.announced := by rw [he]
  refine ⟨t, hx, hsec, by rw [hsec]; exact he, fun q => ?_⟩
  have hq : t.croft q = if q ∈ s.crofts.map (·.1) then sowCleared c0 c1 (s.croft q) else s.croft q := hcr q
  by_cases hm : q ∈ s.crofts.map (·.1)
  · rw [hq, if_pos hm]
    exact ⟨rfl, sowCleared_spec c0 c1 _⟩
  · rw [hq, if_neg hm, State.croft_of_unlisted hm]
    exact ⟨rfl, fun i => ⟨fun _ => ⟨rfl, rfl⟩, fun _ => ⟨rfl, rfl⟩⟩⟩

/-! ### Chunks -/

/-- Part i of the eight packets of a chunk. -/
def State.chunkPacket (s : State) (c i : Nat) : Packet :=
  let d := s.num Reg.secSowDest
  let multi := d.testBit 31
  let a := s.num Reg.secSowSrc + 4096 * (c - s.sec.sowC0)
  { op := 0x01, dest := BitVec.ofNat 16 (if multi then 0xFFFF else bitsOf d 30 16), src := BitVec.ofNat 16 s.activeEndpoint
    vc := if multi then 2 else 0, origVc := if multi then 2 else 0, plane := if multi then .b else .a, tclass := true
    holding := 0xF, mgroup := if multi then BitVec.ofNat 8 (bitsOf d 15 8) else 0, window := 15, gen := BitVec.ofNat 8 d
    offset := BitVec.ofNat 32 (4096 * c + 512 * i), length := 512, payload := slice (s.ledger.block (a / 4096)) (512 * i) 512 }

theorem State.chunkPackets_eq (s : State) (c : Nat) : s.chunkPackets c = (List.range 8).map (s.chunkPacket c) := rfl

theorem getElem?_flatMap_eight {α : Type} (f : Nat → Nat → α) (n i : Nat) :
    ((List.range n).flatMap fun c => (List.range 8).map (f c))[i]? = if i < 8 * n then some (f (i / 8) (i % 8)) else none := by
  induction n with
  | zero => simp
  | succ n ih =>
    have hlen : ((List.range n).flatMap fun c => (List.range 8).map (f c)).length = 8 * n := by
      simp [List.length_flatMap, Nat.mul_comm]
    rw [List.range_succ (n := n), List.flatMap_append, List.flatMap_singleton, List.getElem?_append, hlen, ih]
    by_cases h : i < 8 * n
    · rw [if_pos h, if_pos h, if_pos (by omega)]
    · rw [if_neg h, List.getElem?_map]
      by_cases h' : i < 8 * (n + 1)
      · rw [if_pos h', List.getElem?_range (by omega), show i / 8 = n by omega, show i % 8 = i - 8 * n by omega]
        rfl
      · rw [if_neg h', List.getElem?_eq_none (by simp; omega)]
        rfl

theorem State.chunkPacket_spec (s : State) (j i : Nat) :
    let k := s.chunkPacket (s.sec.sowC0 + j) i
    k.op = 0x01 ∧ k.window = 15 ∧ k.holding = 15 ∧ k.tclass = true ∧ k.length = 512 ∧
      k.offset.toNat = (4096 * (s.sec.sowC0 + j) + 512 * i) % 2 ^ 32 ∧
      k.payload = slice (s.ledger.block (s.num Reg.secSowSrc / 4096 + j)) (512 * i) 512 ∧
      ((s.num Reg.secSowDest).testBit 31 = true → k.dest = 0xFFFF ∧ k.plane = .b ∧ k.mgroup.toNat = bitsOf
          (s.num Reg.secSowDest) 15 8) ∧
      ((s.num Reg.secSowDest).testBit 31 = false → k.plane = .a ∧ k.dest.toNat = bitsOf (s.num Reg.secSowDest) 30 16) := by
  unfold State.chunkPacket
  refine ⟨rfl, rfl, rfl, rfl, rfl, BitVec.toNat_ofNat _ _, ?_, fun h => ?_, fun h => ?_⟩
  · dsimp only
    rw [Nat.add_sub_cancel_left, show (s.num Reg.secSowSrc + 4096 * j) / 4096 = s.num Reg.secSowSrc / 4096 + j by omega]
  · dsimp only
    rw [if_pos h, if_pos h, if_pos h, BitVec.toNat_ofNat]
    exact ⟨rfl, rfl, Nat.mod_eq_of_lt (bitsOf_lt _ _ _)⟩
  · dsimp only
    have hn : ¬ (s.num Reg.secSowDest).testBit 31 = true := by rw [h]; decide
    rw [if_neg hn, if_neg hn, BitVec.toNat_ofNat]
    have := bitsOf_lt (s.num Reg.secSowDest) 30 16
    exact ⟨rfl, Nat.mod_eq_of_lt (by omega)⟩

theorem sowSend_spec {s : State} (hu : s.up = true) (hb : s.sec.sowBusy = false) (ho : s.sec.sowOpen = true)
    (hs : s.field Reg.secSowSrc 11 0 = 0) : ∃ ks, exec .sowSend s =
        .next { s with sec := { s.sec with sowErr := false, sowBusy := true }, outq := s.outq ++ ks } ∧
      ks.length = 8 * (s.sec.sowC1 + 1 - s.sec.sowC0) ∧
      ∀ (i : Nat) (k : Packet), ks[i]? = some k → k = s.chunkPacket (s.sec.sowC0 + i / 8) (i % 8) := by
  refine ⟨(List.range (s.sec.sowC1 + 1 - s.sec.sowC0)).flatMap fun i => s.chunkPackets (s.sec.sowC0 + i),
    congrArg Host.Outcome.next ((if_pos hu).trans (if_neg (by simp [hb, ho, hs]))), ?_, fun i k hk => ?_⟩
  · simp [List.length_flatMap, State.chunkPackets_eq, Nat.mul_comm]
  · simp only [State.chunkPackets_eq] at hk
    rw [getElem?_flatMap_eight fun i => s.chunkPacket (s.sec.sowC0 + i)] at hk
    split at hk
    · exact (Option.some.inj hk).symm
    · exact absurd hk (by simp)

/-! ### Completion bitmaps -/

theorem testBit_sum_pow (b : Nat → Bool) (n : Nat) : let m := ((List.range n).map fun i => if b i = true then 2 ^ i else 0).sum
    m < 2 ^ n ∧ ∀ i < n, m.testBit i = b i := by
  induction n with
  | zero => exact ⟨by simp, fun i hi => absurd hi (Nat.not_lt_zero i)⟩
  | succ n ih =>
    obtain ⟨hlt, hb⟩ := ih
    rw [List.range_succ, List.map_append, List.sum_append]
    generalize ((List.range n).map fun i => if b i = true then 2 ^ i else 0).sum = m at hlt hb
    simp only [List.map_cons, List.map_nil, List.sum_cons, List.sum_nil, Nat.add_zero]
    cases hn : b n with
    | true =>
      rw [if_pos rfl, Nat.pow_succ]
      refine ⟨by omega, fun i hi => ?_⟩
      rw [Nat.add_comm]
      rcases Nat.lt_succ_iff_lt_or_eq.mp hi with h | rfl
      · rw [Nat.testBit_two_pow_add_gt h]
        exact hb i h
      · rw [Nat.testBit_two_pow_add_eq, Nat.testBit_lt_two_pow hlt, hn]
        rfl
    | false =>
      rw [if_neg (by decide), Nat.add_zero, Nat.pow_succ]
      refine ⟨by omega, fun i hi => ?_⟩
      rcases Nat.lt_succ_iff_lt_or_eq.mp hi with h | rfl
      · exact hb i h
      · rw [Nat.testBit_lt_two_pow hlt, hn]

theorem get_foldl_setFun (f : Nat → Nat) (l : List Nat) (x : Nat) : ∀ t : Tab Nat,
    Tab.get (fun _ => 0) (l.foldl (fun t p => Tab.set (fun _ => 0) t p (f p)) t) x = if x ∈ l then f x else Tab.get (fun _ => 0)
        t x := by
  induction l with
  | nil => exact fun t => by simp
  | cons i l ih =>
    intro t
    rw [List.foldl_cons, ih, Tab.get_set]
    by_cases hx : x = i
    · simp [hx]
    · simp [hx]

theorem State.sowBit_iff (s : State) (n : Nat) : s.sowBit n = true ↔
    (s.sowDestination n = true → ∀ q, s.physOf n = some q → ∀ j, s.sec.sowC0 ≤ j → j ≤ s.sec.sowC1 → sowMarkAt (s.croft q) j =
        .ok) := by
  unfold State.sowBit
  cases hd : s.sowDestination n with
  | false => simp
  | true =>
    rw [if_neg (by decide)]
    cases hp : s.physOf n with
    | none => simp
    | some q =>
      simp only [List.all_eq_true, List.mem_range, beq_iff_eq, forall_const, Option.some.injEq]
      constructor
      · rintro h q' rfl j h0 h1
        have := h (j - s.sec.sowC0) (by omega)
        rwa [Nat.add_sub_cancel' h0] at this
      · exact fun h i hi => h q rfl (s.sec.sowC0 + i) (by omega) (by omega)

/-- The completion bitmaps of the parishes ps. -/
def State.sowMaps (s : State) (ps : List Nat) : Tab Nat := ps.foldl (fun t p => Tab.set (fun _ => 0) t p (s.sowBitmap p)) []

theorem State.sowMaps_bit (s : State) {ps : List Nat} {p i : Nat} (hp : p ∈ ps) (hi : i < 480) :
    (Tab.get (fun _ => 0) (s.sowMaps ps) p).testBit i = s.sowBit (State.sowCroft p i) := by
  have hmap : Tab.get (fun _ => 0) (s.sowMaps ps) p = s.sowBitmap p := (get_foldl_setFun s.sowBitmap ps p []).trans (if_pos hp)
  rw [hmap]
  exact (testBit_sum_pow (fun i => s.sowBit (State.sowCroft p i)) 480).2 i hi

theorem sowCheck_eq {s : State} (hu : s.up = true) (hb : s.sec.sowBusy = false) (ho : s.sec.sowOpen = true) :
    exec .sowCheck s = .next { s with sec := { s.sec with sowErr := false, sowBusy := true, sowMap := s.sowMaps (List.range 56)
        } } :=
  congrArg Host.Outcome.next ((if_pos hu).trans (if_neg (by simp [hb, ho])))

theorem sowCheck_spec {s : State} (hu : s.up = true) (hb : s.sec.sowBusy = false) (ho : s.sec.sowOpen = true) :
    ∃ t, exec .sowCheck s = .next t ∧
      t = { s with sec := { s.sec with sowErr := false, sowBusy := true, sowMap := t.sec.sowMap } } ∧
      ∀ p < 56, ∀ i < 480, (Tab.get (fun _ => 0) t.sec.sowMap p).testBit i = true ↔ s.sowBit (State.sowCroft p i) = true := by
  have hx := sowCheck_eq hu hb ho
  have hbit := fun p (hp : p < 56) => @State.sowMaps_bit s (List.range 56) p
  generalize s.sowMaps (List.range 56) = m at hx hbit
  exact ⟨_, hx, rfl, fun p hp i hi => by rw [hbit p hp (List.mem_range.mpr hp) hi]⟩

theorem sowEnd_eq {s : State} (hu : s.up = true) (hb : s.sec.sowBusy = false) (ho : s.sec.sowOpen = true) :
    exec .sowEnd s = .next { s with sec := { s.sec with sowErr := false, sowBusy := true, sowOpen := false } } :=
  congrArg Host.Outcome.next ((if_pos hu).trans (if_neg (by simp [hb, ho])))

theorem sow_down {s : State} (hu : s.up = false) {i : Instr} (hi : i ∈ [Instr.sowOpen, .sowSend, .sowCheck, .sowEnd]) : exec i s
    = .next s := by
  have hn : ¬ s.up = true := by rw [hu]; decide
  fin_cases hi <;> exact congrArg Host.Outcome.next (if_neg hn)

theorem sowOpen_refused {s : State} (hu : s.up = true)
    (h : s.sec.sowBusy = true ∨ s.sec.sowOpen = true ∨ s.field Reg.secSowRange 24 16 < s.field Reg.secSowRange 8 0) :
    exec .sowOpen s = .next s.sowRefuse :=
  congrArg Host.Outcome.next ((if_pos hu).trans (if_pos (by simpa [or_assoc] using h)))

theorem sow_refused {s : State} (hu : s.up = true) (h : s.sec.sowBusy = true ∨ s.sec.sowOpen = false) {i : Instr}
    (hi : i ∈ [Instr.sowSend, .sowCheck, .sowEnd]) : exec i s = .next s.sowRefuse := by
  have hc : (s.sec.sowBusy || !s.sec.sowOpen) = true := by simpa using h
  fin_cases hi
  · exact congrArg Host.Outcome.next ((if_pos hu).trans (if_pos (by rw [hc]; rfl)))
  · exact congrArg Host.Outcome.next ((if_pos hu).trans (if_pos hc))
  · exact congrArg Host.Outcome.next ((if_pos hu).trans (if_pos hc))

/-! ### A chunk's check -/

/-- The verdict on the bytes of chunk i in a round. -/
def chunkGood (b : List Byte) (round i : Nat) : Bool :=
  crc32 (b.take 4092) == BitVec.ofNat 32 (ofLe (b.drop 4092)) && ofLe ((b.drop 4088).take 4) == round * 2 ^ 16 + i

/-- A croft with the mark of chunk i set and its mask cleared. -/
def chunkMarked (c : Croft) (i : Nat) (m : SowMark) : Croft :=
  { c with sowMask := Tab.set (fun _ => 0) c.sowMask i 0, sowMark := Tab.set (fun _ => SowMark.none) c.sowMark i m }

theorem slice_within {bs : List Byte} {lo len : Nat} (h : lo + len ≤ bs.length) : slice bs lo len = (bs.drop lo).take len := by
  unfold slice
  dsimp only
  rw [show len - ((bs.drop lo).take len).length = 0 by simp; omega]
  exact List.append_nil _

/-- The check of a full chunk whose bytes read back well. -/
theorem Site.chunkCheck_read {x : Site} {i round : Nat} {b : List Byte} {ok : Bool} (hm : sowMaskAt x.c i = 255)
    (hl : b.length = 4096)
    (hr : x.readBytes (x.winBase 15 + 4096 * i) 4096 = (x, b, false)) (hok : ok = chunkGood b round i) :
    x.chunkCheck i round = ({ x with c := chunkMarked x.c i (if ok = true then .ok else .bad) }, !ok) := by
  unfold Site.chunkCheck
  rw [if_neg (not_not.mpr (show x.sowMaskOf i = 255 from hm)), hr]
  dsimp only
  rw [slice_within (by omega), hok]
  rfl

theorem chunkMarked_spec (c : Croft) (i : Nat) (m : SowMark) :
    sowMarkAt (chunkMarked c i m) i = m ∧ sowMaskAt (chunkMarked c i m) i = 0 ∧ (chunkMarked c i m).mem = c.mem := by
  unfold sowMarkAt sowMaskAt chunkMarked
  exact ⟨by rw [Tab.get_set, if_pos rfl], by rw [Tab.get_set, if_pos rfl], rfl⟩

/-- The check of a chunk of the round that gives its croft d and a verdict. -/
theorem chunkCheck_eq {s : State} {q : Phys} {i : Fin 512} {d : Croft} {ok : Bool} (ho : s.sec.sowOpen = true)
    (h0 : s.sec.sowC0 ≤ i)
    (h1 : i ≤ s.sec.sowC1) (h : (s.site q).chunkCheck i s.sec.sowRound = ({ s.site q with c := d }, !ok)) :
    exec (.chunkCheck q i) s = .next (if ok = true then s.setCroft q d else (s.setCroft q d).count Reg.secSowBad 1) := by
  have hon : (s.onCroft q fun x => (x.chunkCheck i s.sec.sowRound).1) = s.setCroft q d := by
    rw [State.onCroft_eq s q _ (by rw [h]; rfl) (by rw [h]; rfl) (by rw [h]; rfl), h]
  refine congrArg Host.Outcome.next ((if_neg (by simp [ho]; omega)).trans ?_)
  rw [hon, h]
  cases ok <;> rfl

/-- Settles O56: OPEN, SEND, CHECK and END have an equation per case, and a chunk's check one for a range that reads well. -/
theorem sowingRunsInRounds : Obligations.SowingRunsInRounds := by
  unfold Obligations.SowingRunsInRounds
  intro s c c0 c1 refused
  refine ⟨fun hu i hi => sow_down hu hi, fun hu => ⟨sowOpen_spec hu, sowOpen_refused hu, ?_, ?_, sowEnd_eq hu, fun h i hi => sow_refused hu h hi⟩,
    rfl, ?_⟩
  · intro hb ho hs
    obtain ⟨ks, hx, hl, hk⟩ := sowSend_spec hu hb ho hs
    refine ⟨ks, hx, hl, fun i k hik => ?_⟩
    rw [hk i k hik]
    exact State.chunkPacket_spec s (i / 8) (i % 8)
  · intro hb ho
    obtain ⟨t, hx, ht, hm⟩ := sowCheck_spec hu hb ho
    exact ⟨t, hx, ht, fun p hp i hi => (hm p hp i hi).trans (State.sowBit_iff s _)⟩
  · intro q i ho h0 h1 hm he hbase b ok hok
    have hsite := Site.chunkCheck_read (x := s.site q) hm (Memory.length_read ..) (readBytes_clean _ he hbase _ _) hok
    have hmark := chunkMarked_spec (s.croft q) i (if ok = true then .ok else .bad)
    have hx := chunkCheck_eq ho h0 h1 hsite
    change exec (.chunkCheck q i) s = .next (if ok = true then s.setCroft q
        (chunkMarked (s.croft q) i (if ok = true then .ok else .bad))
      else (s.setCroft q (chunkMarked (s.croft q) i (if ok = true then .ok else .bad))).count Reg.secSowBad 1) at hx
    generalize chunkMarked (s.croft q) i (if ok = true then .ok else .bad) = d at hx hmark
    obtain ⟨hmk, hmask, hmem⟩ := hmark
    have hc : (s.setCroft q d).croft q = d := (State.croft_setCroft ..).trans (if_pos rfl)
    cases ok with
    | true =>
      refine ⟨s.setCroft q d, hx, fun j hj => (State.croft_setCroft ..).trans (if_neg hj), ?_, ?_, rfl, ?_⟩
      · exact (congrArg (sowMarkAt · i) hc).trans hmk
      · exact (congrArg (sowMaskAt · i) hc).trans hmask
      · exact (congrArg Croft.mem hc).trans hmem
    | false =>
      refine ⟨(s.setCroft q d).count Reg.secSowBad 1, hx, fun j hj => (State.croft_setCroft ..).trans (if_neg hj), ?_, ?_, ?_,
          ?_⟩
      · exact (congrArg (sowMarkAt · i) hc).trans hmk
      · exact (congrArg (sowMaskAt · i) hc).trans hmask
      · exact (State.num_count _ _ _ _).trans (if_pos rfl)
      · exact (congrArg Croft.mem hc).trans hmem

end Sys2Proof.Machine

namespace Sys2Proof.Machine
open Sys2Proof.Safety

/-! ### Records, causes and the bell -/

theorem execCauseEnd_ended {s : State} (d : Fin 17) {c : Nat} {loc : W32} (h : s.causeHolds c loc = false) :
    exec (.causeEnd d c loc) s = .next (s.setFaults { s.faults with causes := s.faults.causes.erase (d.val, c, loc) }) :=
  if_neg (by rw [h]; decide)

theorem execCauseEnd_holds {s : State} (d : Fin 17) {c : Nat} {loc : W32} (h : s.causeHolds c loc = true) :
    exec (.causeEnd d c loc) s = .next s := if_pos h

theorem execTallySlotClose_spec (s : State) (c : Nat) (loc : W32) :
    ∃ l, exec (.tallySlotClose c loc) s = .next (s.setFaults { s.faults with slots := l }) ∧
      ∀ x, x ∈ l ↔ x ∈ s.faults.slots ∧ ¬ (x.source = c ∧ x.loc = loc) :=
  ⟨s.faults.slots.filter fun t => !(t.source = c && t.loc = loc), rfl, fun x => by simp [List.mem_filter, imp_iff_not_or]⟩

theorem execRecordAppend_dirty {s : State} {d : Fin 17} {r : Record} (ho : s.openRecord d = some r)
    (hd : d.val ∈ s.faults.dirty) :
    exec (.recordAppend d) s = .next ((logged s r).setFaults { s.faults with dirty := s.faults.dirty.erase d }) := by
  change execRecordAppend d s = _
  unfold execRecordAppend
  rw [ho]
  exact if_pos (List.contains_iff_mem.mpr hd)

theorem execRecordAppend_clean {s : State} {d : Fin 17} (h : s.openRecord d = none ∨ d.val ∉ s.faults.dirty) :
    exec (.recordAppend d) s = .next s := by
  change execRecordAppend d s = _
  unfold execRecordAppend
  split
  · rfl
  · next r ho =>
    have hd : d.val ∉ s.faults.dirty := h.resolve_left (by rw [ho]; exact nofun)
    exact if_neg (by rwa [List.contains_iff_mem])

theorem exec_down_next {s : State} (f : State → State) (hu : s.up = false) : s.whenUp f = s :=
  if_neg (by rw [hu]; decide)

theorem exec_up_next {s : State} (f : State → State) (hu : s.up = true) : s.whenUp f = f s := if_pos hu

theorem State.whenUp_same {s : State} {f : State → State} (h : f s = s) : s.whenUp f = s := by
  unfold State.whenUp
  rw [h, ite_self]

/-! #### FLT_CLEAR -/

/-- FLT_CLEAR with DOMAIN d and ERR n. -/
def State.clearShown (s : State) (d n : Nat) : State :=
  (s.setFltField Reg.fltClear 4 0 d).setFltField Reg.fltClear 31 31 n

/-- A record cleared. -/
def Record.cleared (r : Record) : Record := { r with flags := (r.flags &&& 0xFE) ||| 2 }

/-- Only what is done to the state itself counts. -/
theorem State.asOne_congr {s : State} {f g : State → State} (h : f s = g s) : s.asOne f = s.asOne g := by
  unfold State.asOne
  rw [h]

theorem State.causeCount_setFlt (s : State) (o : Nat) (v : W64) (d : Nat) : (s.setFlt o v).causeCount d = s.causeCount d := by
  unfold State.causeCount
  rw [State.setFlt_faults]

theorem State.openRecord_setFlt (s : State) (o : Nat) (v : W64) (d : Nat) : (s.setFlt o v).openRecord d = s.openRecord d := by
  unfold State.openRecord
  rw [State.setFlt_faults]

theorem State.clearShown_causes (s : State) (d d' n : Nat) : (s.clearShown d n).causeCount d' = s.causeCount d' :=
  (State.causeCount_setFlt ..).trans (State.causeCount_setFlt ..)

theorem State.clearShown_record (s : State) (d d' n : Nat) : (s.clearShown d n).openRecord d' = s.openRecord d' :=
  (State.openRecord_setFlt ..).trans (State.openRecord_setFlt ..)

theorem State.clearShown_faults (s : State) (d n : Nat) : (s.clearShown d n).faults = s.faults :=
  (State.setFlt_faults ..).trans (State.setFlt_faults ..)

theorem withRecord_dirty (s : State) (d : Nat) (r : Record) : (logged (withRecord s d r) r).faults.dirty = s.faults.dirty := by
  change (withRecord s d r).faults.dirty = _
  unfold withRecord
  rw [State.setFaults_faults]

theorem State.record_cleared_faults (s : State) (d n d' : Nat) (r : Record) :
    (logged (withRecord (s.clearShown d n) d' r) r).faults.dirty = s.faults.dirty := by
  rw [withRecord_dirty, State.clearShown_faults]

section clear
variable {s : State} {v : W32} {d : Nat} (hv : bitsOf v.toNat 4 0 = d) (hd : d ≤ 16)
include hv hd

theorem State.fltClear_refused (hc : s.causeCount d ≠ 0) : s.fltClear v = s.asOne fun _ => s.clearShown d 1 := by
  subst hv
  refine (if_neg (Nat.not_lt.mpr hd)).trans (State.asOne_congr ?_)
  have hc' : (s.setFltField Reg.fltClear 4 0 (bitsOf v.toNat 4 0)).causeCount (bitsOf v.toNat 4 0) ≠ 0 :=
    (State.causeCount_setFlt ..).trans_ne hc
  exact if_pos hc'

theorem State.fltClear_nothing (hc : s.causeCount d = 0) (ho : s.openRecord d = none) :
    s.fltClear v = s.asOne fun _ => s.clearShown d 0 := by
  subst hv
  refine (if_neg (Nat.not_lt.mpr hd)).trans (State.asOne_congr ?_)
  have hc' : (s.setFltField Reg.fltClear 4 0 (bitsOf v.toNat 4 0)).causeCount (bitsOf v.toNat 4 0) = 0 :=
    (State.causeCount_setFlt ..).trans hc
  have ho' : ((s.setFltField Reg.fltClear 4 0 (bitsOf v.toNat 4 0)).setFltField Reg.fltClear 31 31 0).openRecord (bitsOf v.toNat 4 0) = none :=
    (State.clearShown_record ..).trans ho
  refine (if_neg (not_not.mpr hc')).trans ?_
  dsimp only
  rw [ho']
  rfl

theorem State.fltClear_open {r : Record} (hc : s.causeCount d = 0) (ho : s.openRecord d = some r) : s.fltClear v = s.asOne fun _
    =>
      let t := logged (withRecord (s.clearShown d 0) d r.cleared) r.cleared
      t.setFaults { t.faults with dirty := s.faults.dirty.erase d } := by
  subst hv
  refine (if_neg (Nat.not_lt.mpr hd)).trans (State.asOne_congr ?_)
  have hc' : (s.setFltField Reg.fltClear 4 0 (bitsOf v.toNat 4 0)).causeCount (bitsOf v.toNat 4 0) = 0 :=
    (State.causeCount_setFlt ..).trans hc
  have ho' : ((s.setFltField Reg.fltClear 4 0 (bitsOf v.toNat 4 0)).setFltField Reg.fltClear 31 31 0).openRecord (bitsOf v.toNat 4 0) = some r :=
    (State.clearShown_record ..).trans ho
  refine (if_neg (not_not.mpr hc')).trans ?_
  dsimp only
  rw [ho', ← State.record_cleared_faults s (bitsOf v.toNat 4 0) 0 (bitsOf v.toNat 4 0) r.cleared]
  rfl

end clear

/-! #### The bell -/

theorem State.levelClear_eq {s : State} (h : s.haltOpen = false) : s.levelClear = s.asOne fun s =>
    (s.setFlt Reg.fltBell (setFld (s.reg Reg.fltBell) 0 0 0)).setFaults
        { s.faults with bellLow := s.faults.pulse || s.faults.bootBell } := by
  unfold State.levelClear
  rw [if_neg (by rw [h]; decide)]
  refine State.asOne_congr ?_
  unfold State.modFaults State.setFltField
  rw [State.setFlt_faults]

theorem execLevelClear_halted {s : State} (h : s.haltOpen = true) : exec .levelClear s = .next s := by
  exact congrArg Host.Outcome.next (State.whenUp_same (if_pos h))

/-! #### Injection -/

/-- An event in a domain without an open record opens one. -/
theorem State.record_opened {s : State} {d : Nat} (sev : Nat) (cls perm : Bool) (r : Report) (ho : s.openRecord d = none) :
    s.record d sev cls perm r = recordOpened s d sev cls perm r := by
  unfold State.record State.recordNum
  rw [ho]
  rfl

/-- An event that neither tallies nor isolates nor makes its location permanent, of severity OBSERVE, only opens its domain's record. -/
theorem State.act_observe {s : State} {d : Nat} {r : Report} (hperm : bit (s.classOf r.source) 29 = false)
    (ho : s.openRecord d = none) : s.act d 0 r = recordOpened s d 0 (s.eventClass d r) false r := by
  have hn : ¬ bit (s.classOf r.source) 29 = true := by rw [hperm]; decide
  unfold State.act
  simp [hn, State.record_opened _ _ _ _ ho]

theorem State.takes_untallied {s : State} {r : Report} {n : Nat} (h : bit (s.classOf r.source) 31 = false)
    (hs : fld (s.classOf r.source) 25 24 = n) : s.takes r = (s, some n) := by
  unfold State.takes
  dsimp only
  rw [if_pos (by rw [h]; decide), hs]

theorem sourceNamed_le {c : Nat} (h : sourceNamed c = true) : c ≤ 81 := by
  simp [sourceNamed] at h
  omega

theorem State.classOf_setFlt (s : State) (v : W64) (c : Nat) : (s.setFlt Reg.fltEvents v).classOf c = s.classOf c :=
  State.reg_setFlt_ne s v (by unfold Reg.fltClass Reg.fltEvents; omega)

/-- An injected event of a source that neither tallies nor isolates nor is permanent, of severity OBSERVE. -/
theorem State.event_injected {s : State} {r : Report} (ht : bit (s.classOf r.source) 31 = false)
    (hs : fld (s.classOf r.source) 25 24 = 0)
    (hp : bit (s.classOf r.source) 29 = false) (ho : s.openRecord (s.domainOf r) = none) (hc : r.tclass = some false) :
    s.event r true = recordOpened (s.setFlt Reg.fltEvents (BitVec.ofNat 64 (satAdd (s.num Reg.fltEvents) 1))) (s.domainOf r) 0
        false false r := by
  have hcls := State.classOf_setFlt s (BitVec.ofNat 64 (satAdd (s.num Reg.fltEvents) 1)) r.source
  have hopen := (State.openRecord_setFlt s Reg.fltEvents (BitVec.ofNat 64 (satAdd (s.num Reg.fltEvents) 1)) (s.domainOf r)).trans ho
  unfold State.event
  extract_lets d t key u
  have hu : u = t := if_neg (by simp)
  have htk : t.takes r = (t, some 0) := State.takes_untallied (hcls ▸ ht) (hcls ▸ hs)
  have hec : t.eventClass d r = false := by unfold State.eventClass; rw [hc]
  rw [hu, htk]
  exact (State.act_observe (hcls ▸ hp) hopen).trans (by rw [hec])

theorem State.resume_same {s t : State} (h : t.stewards = s.stewards) : State.resume s t = t := by
  have ha : t.active = s.active := by unfold State.active State.steward; rw [h]
  exact if_neg (by simp [ha])

theorem recordOpened_stewards (s : State) (d sev : Nat) (cls perm : Bool) (r : Report) :
    (recordOpened s d sev cls perm r).stewards = s.stewards := by
  simp [recordOpened, logged, withRecord]

/-- The event that FLT_INJECT raises for a source. -/
def State.injected (s : State) (c : Nat) : Report :=
  { source := c, loc := (s.reg Reg.fltInjectUnit).setWidth 32, time := s.clock.now, tclass := some false }

theorem State.fltInject_unnamed {s : State} {v : W32} {c : Nat} (hv : bitsOf v.toNat 6 0 = c) (h : sourceNamed c = false) :
    s.fltInject v = s := by
  unfold State.fltInject
  rw [hv]
  dsimp only
  rw [h]
  rfl

theorem State.fltInject_named {s : State} {v : W32} {c : Nat} (hv : bitsOf v.toNat 6 0 = c) (h : sourceNamed c = true) :
    s.fltInject v = s.asOne fun s => s.event (s.injected c) true := by
  unfold State.fltInject
  rw [hv]
  dsimp only
  rw [h]
  rfl

/-- Settles O59: every end of a cause, slot, record or pulse has its equation, and an injection opens its record as any event does. -/
theorem recordsEndAndAreRung : Obligations.RecordsEndAndAreRung := by
  unfold Obligations.RecordsEndAndAreRung
  intro s
  refine ⟨fun d _ _ => execCauseEnd_ended d, fun d _ _ => execCauseEnd_holds d, execTallySlotClose_spec s, fun _ _ => execRecordAppend_dirty,
    fun _ => execRecordAppend_clean, fun hu => ⟨?_, fun v => ⟨?_, ?_⟩⟩, ?_,
    fun v hv => ?_, fun hu h => ?_, execLevelClear_halted, rfl, ?_⟩
  · exact congrArg Host.Outcome.next (exec_down_next _ hu)
  · exact congrArg Host.Outcome.next (exec_down_next _ hu)
  · exact congrArg Host.Outcome.next (exec_down_next _ hu)
  · intro hu v d hd
    refine ⟨fun hc => ?_, fun hc ho => ?_, fun r hc ho => ?_⟩
    · exact congrArg Host.Outcome.next ((exec_up_next _ hu).trans (State.fltClear_refused rfl hd hc))
    · exact congrArg Host.Outcome.next ((exec_up_next _ hu).trans (State.fltClear_nothing rfl hd hc ho))
    · exact congrArg Host.Outcome.next ((exec_up_next _ hu).trans (State.fltClear_open rfl hd hc ho))
  · exact congrArg Host.Outcome.next (State.whenUp_same (if_pos hv))
  · exact congrArg Host.Outcome.next ((exec_up_next _ hu).trans (State.levelClear_eq h))
  · intro v c r
    refine ⟨fun h => ?_, fun hu hn ht hs hp ho => ?_⟩
    · have hf := State.fltInject_unnamed (s := s) (v := v) rfl h
      exact congrArg Host.Outcome.next (State.whenUp_same (by rw [hf]; exact State.resume_same rfl))
    · have he : s.event r true = _ := State.event_injected ht hs hp ho rfl
      have hf := (State.fltInject_named (s := s) (v := v) rfl hn).trans (State.asOne_congr (g := fun _ => s.event r true) rfl)
      have hst : (s.fltInject v).stewards = s.stewards := by
        rw [hf, State.asOne_eq, he, recordOpened_stewards]
        exact State.setFlt_stewards ..
      refine congrArg Host.Outcome.next ((exec_up_next _ hu).trans
          ((State.resume_same hst).trans (hf.trans (State.asOne_congr ?_))))
      exact he

end Sys2Proof.Machine

namespace Sys2Proof.Machine
open Sys2Proof.Safety

/-! ### Compute waves and fuses -/

/-- A parish whose compute rail COMPUTE_EN starts. -/
def Parish.started (v : Parish) : Parish := { v.setField Reg.parCtrl 0 0 1 with st := .computeUp }

theorem State.foldl_computeEn (ps : List Nat) (hd : ps.Nodup) : ∀ s : State, (∀ p ∈ ps, (s.parish p).st = .netOn) →
    let t := ps.foldl (fun s p => s.writeComputeEn p true) s
    t = { s with parishes := t.parishes } ∧
      ∀ p, t.parish p = if p ∈ ps then (s.parish p).started else s.parish p := by
  induction ps with
  | nil => exact fun s _ => ⟨rfl, fun p => rfl⟩
  | cons q ps ih =>
    intro s h
    obtain ⟨hq, hd⟩ := List.nodup_cons.mp hd
    have hst := h q List.mem_cons_self
    have hone : s.writeComputeEn q true = s.setParish q (s.parish q).started := by
      have hn : ¬ (!(s.parish q).net) = true := by simp [(s.parish q).net_iff, hst]
      refine (if_neg hn).trans ((if_pos rfl).trans ?_)
      change s.setParish q { (s.parish q).setField Reg.parCtrl 0 0 1 with st := if (s.parish q).st = .netOn then _ else _ } = _
      rw [if_pos hst]
      rfl
    rw [List.foldl_cons, hone]
    obtain ⟨hf, hpar⟩ := ih hd (s.setParish q (s.parish q).started) fun p hm => by
      have hne : p ≠ q := fun he => hq (he ▸ hm)
      rw [State.parish_setParish, if_neg hne]
      exact h p (List.mem_cons_of_mem q hm)
    refine ⟨hf, fun p => ?_⟩
    rw [hpar p, State.parish_setParish]
    by_cases hpq : p = q
    · subst hpq
      rw [if_neg hq, if_pos rfl, if_pos List.mem_cons_self]
    · rw [if_neg hpq]
      simp only [List.mem_cons, hpq, false_or]

/-- The parishes that a wave starts. -/
def State.wave (s : State) (k : Nat) : List Nat := (List.range 56).filter fun p => p % 8 = k && (s.parish p).st = .netOn

theorem State.mem_wave (s : State) (k p : Nat) : p ∈ s.wave k ↔ p < 56 ∧ p % 8 = k ∧ (s.parish p).st = .netOn := by
  simp [State.wave, List.mem_filter]

theorem computeWave_spec {s : State} (hb : s.bringingUp = true) (h4 : s.sec.stage = 4) (k : Fin 8) :
    ∃ t, exec (.computeWave k) s = .next t ∧ t = { s with parishes := t.parishes } ∧
       (∀ p : Nat, p < 56 → p % 8 = k.val → (s.parish p).st = .netOn → (t.parish p).st = .computeUp ∧ (t.parish p).field
           Reg.parCtrl 0 0 = 1) ∧
       (∀ p : Nat, (p % 8 ≠ k.val ∨ (s.parish p).st ≠ .netOn) → t.parish p = s.parish p) := by
  have hx : exec (.computeWave k) s = .next ((s.wave k).foldl (fun s p => s.writeComputeEn p true) s) :=
    congrArg Host.Outcome.next (if_pos (by simp [hb, h4]))
  have hmem := s.mem_wave k
  have hdup : (s.wave k).Nodup := List.nodup_range.filter _
  generalize s.wave k = ps at hx hmem hdup
  obtain ⟨hf, hp⟩ := State.foldl_computeEn ps hdup s fun p h => ((hmem p).mp h).2.2
  refine ⟨_, hx, hf, fun p hlt hk hst => ?_, fun p h => ?_⟩
  · rw [hp p, if_pos ((hmem p).mpr ⟨hlt, hk, hst⟩)]
    exact ⟨rfl, Parish.field_setField _ _ _ _ _ (by decide) (by decide)⟩
  · rw [hp p, if_neg]
    rw [hmem]
    rintro ⟨-, hk, hst⟩
    exact h.elim (absurd hk) (absurd hst)

/-- A die's fuses after the blowing. -/
def State.blown (s : State) (i : Nat) : Fuses :=
  if s.behind i = true then { s.dieFuses i with svn := min 64 s.sec.svn } else s.dieFuses i

theorem State.blown_spec (s : State) (i : Nat) : s.blown i = { s.dieFuses i with svn := (s.blown i).svn } ∧
    ((s.steward i).role ≠ .lost → (s.blown i).svn = max (s.dieFuses i).svn (min 64 s.sec.svn)) ∧
    ((s.steward i).role = .lost → (s.blown i).svn = (s.dieFuses i).svn) := by
  unfold State.blown
  have hb : s.behind i = true ↔ (s.steward i).role ≠ .lost ∧ (s.dieFuses i).svn < min 64 s.sec.svn := by simp [State.behind]
  by_cases h : s.behind i = true
  · obtain ⟨hr, hlt⟩ := hb.mp h
    rw [if_pos h]
    exact ⟨rfl, fun _ => (Nat.max_eq_right (Nat.le_of_lt hlt)).symm, fun hl => absurd hl hr⟩
  · rw [if_neg h]
    exact ⟨rfl, fun hr => (Nat.max_eq_left (Nat.not_lt.mp fun hlt => h (hb.mpr ⟨hr, hlt⟩))).symm, fun _ => rfl⟩

theorem execFuseBlowDone_busy {s : State} (h : s.sec.fuseBusy = true) : exec .fuseBlowDone s =
    .next { s with sec := { s.sec with fuseBusy := false, fuses0 := s.blown 0, fuses1 := s.blown 1 } } :=
  congrArg Host.Outcome.next (if_neg (by simp [h]))

theorem fuseBlowDone_spec {s : State} (h : s.sec.fuseBusy = true) : ∃ t, exec .fuseBlowDone s = .next t ∧
    t = { s with sec := { s.sec with fuseBusy := false, fuses0 := t.sec.fuses0, fuses1 := t.sec.fuses1 } } ∧
    ∀ i < 2, t.dieFuses i = { s.dieFuses i with svn := (t.dieFuses i).svn } ∧
      ((s.steward i).role ≠ .lost → (t.dieFuses i).svn = max (s.dieFuses i).svn (min 64 s.sec.svn)) ∧
      ((s.steward i).role = .lost → (t.dieFuses i).svn = (s.dieFuses i).svn) := by
  refine ⟨_, execFuseBlowDone_busy h, rfl, fun i hi => ?_⟩
  obtain rfl | rfl : i = 0 ∨ i = 1 := by omega
  · exact s.blown_spec 0
  · exact s.blown_spec 1

/-! ### Croft self-tests -/

theorem Site.faultFence_commits (n : Nat) (x : Site) : (iter n Site.commitWrite x).c.faultFence = x.c.faultFence := by
  induction n generalizing x with
  | zero => rfl
  | succ n ih =>
    refine (ih x.commitWrite).trans ?_
    cases h : x.c.accepted with
    | nil => unfold Site.commitWrite; rw [h]
    | cons a rest =>
      rw [commitWrite_eq x a rest h]
      unfold Site.closeDone
      split
      · rw [Site.closeReleases_eq, committed_eq]
        rfl
      · rw [committed_eq]

theorem Site.faultFence_resetDone (x : Site) : x.resetDone.c.faultFence = x.c.faultFence := by
  rw [resetDone_eq]
  unfold closedAll
  rw [resetWins_eq]
  exact Site.faultFence_commits _ x

/-- A croft whose self-test passes serves: it is as its reset has left it, and no fence of its own stands. -/
theorem lift_spec (y : Site) : y.lift.c = { y.c with regs := y.lift.c.regs, resetSince := y.lift.c.resetSince } ∧
    (∀ o, o ≠ Reg.crfCtrl → regOf y.lift.c o = regOf y.c o) ∧
    (y.cut = false → y.c.faultFence = false → (y.c.resetSince = false → bit (regOf y.c Reg.crfCtrl) 0 = false) →
      bit (regOf y.lift.c Reg.crfCtrl) 0 = false) := by
  unfold Site.lift Site.writeFence
  rw [if_neg (by decide)]
  split
  · refine ⟨rfl, fun o ho => (regOf_setReg _ _ _ _).trans (if_neg ho), fun _ _ _ => ?_⟩
    have hr : regOf (y.setReg Reg.crfCtrl (y.reg Reg.crfCtrl &&& ~~~1)).c Reg.crfCtrl = y.reg Reg.crfCtrl &&& ~~~1 :=
      (regOf_setReg y Reg.crfCtrl Reg.crfCtrl _).trans (if_pos rfl)
    refine (congrArg (bit · 0) hr).trans ?_
    simp [bit]
  · next h =>
    refine ⟨rfl, fun o _ => rfl, fun hc hf hr => hr ?_⟩
    simpa [hc, hf] using h

/-- What holds of a croft whose repairs, reset and self-test begin: its parish is on and it backs a logical croft. -/
def SelfTested (s : State) (q : Phys) : Prop :=
  s.bringingUp = true ∧ s.sec.stage = 4 ∧ (s.parish (State.parOf q)).st = .on ∧ (s.logicalOf q).isSome = true ∧ s.repairsOf q = []

/-- The state in which the self-test's outcome is taken. -/
def State.tested (s : State) (q : Nat) : State :=
  (s.onCroft q fun x => x.beginReset.resetDone).markApplied fun h => locKind h.unit == 0 && rowSub h && locIndex h.unit == q

theorem Ledger.foldl_applied (p : Hist → Bool) (es : List (Nat × Option Hist)) : ∀ l : Ledger,
    (es.foldl (fun l e => match e.2 with
      | some h => if h.permanent && p h then l.setEntry e.1 { h with applied := true } else l
      | none => l) l).repairs = l.repairs := by
  induction es with
  | nil => exact fun l => rfl
  | cons e es ih =>
    intro l
    refine (ih _).trans ?_
    dsimp only
    split
    · split <;> rfl
    · rfl

/-- Beside its croft, a self-test has touched only the history's marks and what any command of a croft may touch. -/
theorem State.tested_spec (s : State) (q : Nat) : let t := s.tested q
    t = { s with crofts := t.crofts, ledger := t.ledger, outq := t.outq, reports := t.reports, freeCtr := t.freeCtr } ∧
      t.ledger.repairs = s.ledger.repairs ∧ (∀ j, j ≠ q → t.croft j = s.croft j) ∧
      t.croft q = (s.site q).beginReset.resetDone.c := by
  unfold State.tested
  have hc := State.croft_onCroft_same s q fun x => x.beginReset.resetDone
  obtain ⟨hj, he⟩ := State.onlyCroft_onCroft s q fun x => x.beginReset.resetDone
  generalize (s.onCroft q fun x => x.beginReset.resetDone) = u at hc hj he ⊢
  obtain ⟨l, hl, hm⟩ : ∃ l, (u.markApplied fun h => locKind h.unit == 0 && rowSub h && locIndex h.unit == q) = { u with ledger := l } ∧
      l.repairs = u.ledger.repairs := ⟨_, rfl, Ledger.foldl_applied _ _ _⟩
  rw [hl]
  exact ⟨congrArg (fun v : State => { v with ledger := l }) he, hm.trans (by rw [he]), hj, hc⟩

theorem execCroftSelftest_eq {s : State} {q : Phys} (h : SelfTested s q) (r : SelfTest) : exec (.croftSelftest q r) s =
    .next (match r with
      | .pass => (s.tested q).onCroft q Site.lift
      | .badRow bank row =>
        if (((s.tested q).site q).addRepair (bank % 8) (row % 4096)).2 = true then
          let u := (s.tested q).onCroft q fun x => (x.addRepair (bank % 8) (row % 4096)).1.lift
          { u with ledger := { u.ledger with repairs := u.ledger.repairs ++ [(q.val, bank % 8, row % 4096)] } }
        else (s.tested q).mapOut q
      | .broken => (s.tested q).mapOut q) := by
  obtain ⟨hb, h4, hp, hl, hr⟩ := h
  refine congrArg Host.Outcome.next ?_
  unfold State.croftSelfTest
  rw [if_neg (by simp [hb, h4, hp, hl]), hr]
  rfl

/-- A croft that a reset has left, and one that its self-test then lets serve. -/
theorem lift_resetDone {x y : Site} (hy : y.c = x.beginReset.resetDone.c) : let d := y.lift.c
    d.resetting = false ∧ d.mem = [] ∧ d.seq = {} ∧ d.repairs = x.c.repairs ∧ (∀ w < 16, winState d w = 0) ∧
      (y.cut = false → x.cut = false → x.c.faultFence = false → bit (regOf d Reg.crfCtrl) 0 = false) := by
  obtain ⟨hc, ho, hb⟩ := lift_spec y
  obtain ⟨hs, hr, hw, -⟩ := resetDone_spec x.beginReset
  intro d
  rw [← hy] at hs hr hw
  refine ⟨?_, ?_, ?_, ?_, fun w h => ?_, fun hcy hcx hf => hb hcy ?_ fun hn => ?_⟩
  · rw [show d = _ from hc]; dsimp only; rw [hy, resetDone_eq]
  · rw [show d = _ from hc]; dsimp only; rw [hy, resetDone_eq]
  · rw [show d = _ from hc]; dsimp only; rw [hy, resetDone_eq]
  · rw [show d = _ from hc]; exact hr
  · unfold winState
    rw [ho _ (by unfold Reg.crfWinState Reg.crfCtrl; omega)]
    exact (hw w h).1
  · rw [hy, Site.faultFence_resetDone]; exact hf
  · have hfen : (closedAll x.beginReset).fenced = false := (closedAll_kept x.beginReset).2.2.trans (hs.symm.trans hn)
    unfold Site.fenced at hfen
    rw [hy, regOf_resetDone, if_pos (by decide)]
    simp only [Bool.or_eq_false_iff] at hfen
    exact hfen.1.1

theorem State.cut_of_frame {s t : State} (h : t = { s with
    crofts := t.crofts, ledger := t.ledger, outq := t.outq, reports := t.reports, freeCtr := t.freeCtr }) (q : Nat) :
    t.cut q = s.cut q := by
  rw [h]
  rfl

theorem State.cut_false {s : State} {q : Nat} (hp : (s.parish (State.parOf q)).st = .on) (hl : (s.logicalOf q).isSome = true)
    (hd : s.deadPos q = false) : s.cut q = false := by
  unfold State.cut
  rw [hp, hd, Option.isNone_eq_false_iff.mpr hl]
  rfl

theorem selftestPass_spec {s : State} {q : Phys} (h : SelfTested s q) :
    ∃ t, exec (.croftSelftest q .pass) s = .next t ∧ (∀ j, j ≠ q.val → t.croft j = s.croft j) ∧
      t = { s with crofts := t.crofts, ledger := t.ledger, outq := t.outq, reports := t.reports, freeCtr := t.freeCtr } ∧
      let d := t.croft q
      d.resetting = false ∧ d.mem = [] ∧ d.seq = {} ∧ d.repairs = (s.croft q).repairs ∧ (∀ w < 16, winState d w = 0) ∧
        (s.deadPos q = false → (s.croft q).faultFence = false → bit (regOf d Reg.crfCtrl) 0 = false) := by
  have hx := execCroftSelftest_eq h .pass
  obtain ⟨-, -, hp, hl, -⟩ := h
  obtain ⟨hf, -, hj, hq⟩ := s.tested_spec q
  generalize s.tested q = u at hx hf hj hq
  obtain ⟨hj', hf'⟩ := State.onlyCroft_onCroft u q Site.lift
  have hc := State.croft_onCroft_same u q Site.lift
  obtain ⟨h1, h2, h3, h4, h5, h6⟩ := lift_resetDone (x := s.site q) (y := u.site q) hq
  dsimp only at hx
  generalize u.onCroft q Site.lift = t at hx hj' hf' hc
  refine ⟨t, hx, fun j h => (hj' j h).trans (hj j h), hf'.trans ?_, ?_⟩
  · have hl' : t.ledger = u.ledger := by rw [hf']
    rw [hl']
    exact congrArg (fun v : State => { v with crofts := t.crofts, outq := t.outq, reports := t.reports, freeCtr := t.freeCtr })
        hf
  · rw [hc]
    refine ⟨h1, h2, h3, h4, h5, fun hd hff => h6 ?_ ?_ hff⟩
    · exact (State.cut_of_frame hf q).trans (State.cut_false hp hl hd)
    · exact State.cut_false hp hl hd

/-- A row that has an entry, or finds a free one, has one afterwards. -/
theorem addRepair_taken {y : Site} {b r : Nat} (h : RowTaken y.c b r ∨ ∃ e < 32, repairAt y.c b e = none) :
    (y.addRepair b r).2 = true ∧ RowTaken (y.addRepair b r).1.c b r := by
  unfold Site.addRepair
  by_cases ht : RowTaken y.c b r
  · rw [if_pos ((repairs_any y.c b r y rfl).mpr ht)]
    exact ⟨rfl, ht⟩
  · rw [if_neg (by rwa [repairs_any y.c b r y rfl])]
    obtain ⟨e, he, hn⟩ := h.resolve_left ht
    have hmem : e ∈ y.repairFree b := List.mem_filter.mpr ⟨List.mem_range.mpr he, by rw [show y.repair b e = none from hn]; rfl⟩
    cases hf : y.repairFree b with
    | nil => rw [hf] at hmem; exact absurd hmem List.not_mem_nil
    | cons a l =>
      have ha : a ∈ y.repairFree b := by rw [hf]; exact List.mem_cons_self
      exact ⟨rfl, a, List.mem_range.mp (List.mem_filter.mp ha).1, Tab.get_set_same (fun _ => none) y.c.repairs (32 * b + a)
          (some r)⟩

theorem selftestBadRow_spec {s : State} {q : Phys} (h : SelfTested s q) {bank row : Nat}
    (hr : RowTaken (s.croft q) (bank % 8) (row % 4096) ∨ ∃ e < 32, repairAt (s.croft q) (bank % 8) e = none) :
    ∃ t, exec (.croftSelftest q (.badRow bank row)) s = .next t ∧ (∀ j, j ≠ q.val → t.croft j = s.croft j) ∧
      RowTaken (t.croft q) (bank % 8) (row % 4096) ∧ t.ledger.repairs = s.ledger.repairs ++ [(q.val, bank % 8, row % 4096)] ∧
      t.parishes = s.parishes := by
  have hx := execCroftSelftest_eq h (.badRow bank row)
  obtain ⟨hf, hrep, hj, hq⟩ := s.tested_spec q
  generalize s.tested q = u at hx hf hrep hj hq
  have hsame : (u.croft q).repairs = (s.croft q).repairs := by
    rw [hq]
    exact (resetDone_spec (s.site q).beginReset).2.1
  have hr' : RowTaken (u.site q).c (bank % 8) (row % 4096) ∨ ∃ e < 32, repairAt (u.site q).c (bank % 8) e = none := by
    unfold RowTaken repairAt at hr ⊢
    rwa [show (u.site q).c.repairs = _ from hsame]
  obtain ⟨hok, htaken⟩ := addRepair_taken hr'
  dsimp only at hx
  rw [if_pos hok] at hx
  obtain ⟨hj', hf'⟩ := State.onlyCroft_onCroft u q fun x => (x.addRepair (bank % 8) (row % 4096)).1.lift
  have hc := State.croft_onCroft_same u q fun x => (x.addRepair (bank % 8) (row % 4096)).1.lift
  rw [(lift_spec _).1] at hc
  generalize (u.onCroft q fun x => (x.addRepair (bank % 8) (row % 4096)).1.lift) = v at hx hj' hf' hc
  refine ⟨_, hx, fun j h => (hj' j h).trans (hj j h), ?_, ?_, ?_⟩
  · change RowTaken (v.croft q) _ _
    rw [hc]
    exact htaken
  · change v.ledger.repairs ++ _ = _
    rw [hf']
    exact congrArg (· ++ _) hrep
  · change v.parishes = _
    have hu : v.parishes = u.parishes := by rw [hf']
    rw [hu, hf]

/-! #### A croft that fails -/

theorem mapOutRow_bit31 (m : W64) (c : Nat) (h : bit m 31 = true) : bit (State.mapOutRow m c) 31 = true := by
  unfold State.mapOutRow bit
  split
  · rw [setFld_getLsbD _ _ _ _ _ (by decide), if_neg (by decide), setFld_getLsbD _ _ _ _ _ (by decide), if_neg (by decide)]
    exact h
  · split
    · exact h
    · rw [setFld_getLsbD _ _ _ _ _ (by decide), if_pos (by decide)]
      rfl

/-- A map that a row's column has been mapped out of: the row is lost, or the column is the one that failed. -/
theorem mapOutRow_out (m : W64) (c : Nat) (hc : c < 32) : bit (State.mapOutRow m c) 31 = true ∨
    bit (State.mapOutRow m c) 30 = true ∧ fld (State.mapOutRow m c) 4 0 = c := by
  obtain ⟨h1, h2, h3⟩ := State.mapOutRow_spec m c hc
  cases hb : bit m 30 with
  | false => exact .inr ⟨(h1 hb).1, (h1 hb).2.1⟩
  | true =>
    by_cases hf : fld m 4 0 = c
    · rw [h2 hb hf]
      exact .inr ⟨hb, hf⟩
    · exact .inl (h3 hb hf)

theorem State.logicalOf_out {s : State} {q : Nat} (h : bit (s.rowMap (State.parOf q) (q % 500 / 25)) 31 = true ∨
    bit (s.rowMap (State.parOf q) (q % 500 / 25)) 30 = true ∧ fld (s.rowMap (State.parOf q) (q % 500 / 25)) 4 0 = q % 25) :
    s.logicalOf q = none := by
  unfold State.logicalOf
  dsimp only
  rcases h with h | ⟨h, hf⟩
  · rw [if_pos h]
  · rw [if_pos h, if_pos hf.symm, ite_self]

/-- A croft mapped out of a parish that no holding owns backs no logical croft, and is fenced (R36, R369). -/
theorem bitsOf_mapout {r c : Nat} (hr : r < 20) (hc : c < 25) :
    bitsOf (BitVec.ofNat 32 (r + c * 2 ^ 5)).toNat 4 0 = r ∧ bitsOf (BitVec.ofNat 32 (r + c * 2 ^ 5)).toNat 9 5 = c := by
  unfold bitsOf
  rw [BitVec.toNat_ofNat]
  simp only [Nat.reducePow, Nat.reduceAdd, Nat.reduceSub]
  omega

theorem State.mapOut_unowned {s : State} {q : Nat} (hn : (s.parish (State.parOf q)).net = true)
    (ho : 16 ≤ s.owner (State.parOf q)) (hl : s.logicalOf q ≠ none) :
    (s.mapOut q).logicalOf q = none ∧ bit (regOf ((s.mapOut q).croft q) Reg.crfCtrl) 0 = true := by
  have hu : s.recordUnits [BitVec.ofNat 32 q] = { s with ledger := (s.recordUnits [BitVec.ofNat 32 q]).ledger } := by
    unfold State.recordUnits
    split <;> rfl
  obtain ⟨hr, hc⟩ := bitsOf_mapout (r := q % 500 / 25) (c := q % 25) (by omega) (by omega)
  unfold State.mapOut
  generalize s.recordUnits [BitVec.ofNat 32 q] = u at hu ⊢
  have hx : u.writeMapout (State.parOf q) (BitVec.ofNat 32 (q % 500 / 25 + q % 25 * 2 ^ 5)) =
      u.switchRows (State.parOf q) ((s.parish (State.parOf q)).mapouts ++ [(q % 500 / 25, q % 25)]) := by
    unfold State.writeMapout
    rw [fld_setWidth, fld_setWidth, hr, hc, show u.parish (State.parOf q) = s.parish (State.parOf q) by rw [hu]; rfl,
      show u.owner (State.parOf q) = s.owner (State.parOf q) by rw [hu]; rfl]
    rw [if_neg (by simp [hn]; omega), if_pos ho]
  rw [hx]
  obtain ⟨-, -, -, -, hmap, hout, -⟩ := u.switchRows_spec (State.parOf q)
    ((s.parish (State.parOf q)).mapouts ++ [(q % 500 / 25, q % 25)]) true
  have hlu : u.logicalOf q = s.logicalOf q := by rw [hu]; rfl
  have hgone := State.logicalOf_out (q := q) (s := u.switchRows (State.parOf q) ((s.parish (State.parOf q)).mapouts ++ [(q % 500 / 25, q % 25)])) (by
    rw [hmap, List.filter_append, List.foldl_append]
    simp only [List.filter_cons, beq_self_eq_true, if_true, List.filter_nil, List.foldl_cons, List.foldl_nil]
    exact mapOutRow_out _ _ (by omega))
  refine ⟨hgone, ?_⟩
  rw [hout q rfl (by rwa [hlu]) hgone]
  exact (fencedTo_fenced (u.croft q)).1

theorem selftestBroken_spec {s : State} {q : Phys} (h : SelfTested s q) (ho : 16 ≤ s.owner (State.parOf q)) :
    ∃ t, exec (.croftSelftest q .broken) s = .next t ∧ t.logicalOf q = none ∧ bit (regOf (t.croft q) Reg.crfCtrl) 0 = true := by
  refine ⟨_, execCroftSelftest_eq h .broken, ?_⟩
  obtain ⟨-, -, hp, hl, -⟩ := h
  obtain ⟨hf, -⟩ := s.tested_spec q
  dsimp only
  generalize s.tested q = u at hf ⊢
  refine State.mapOut_unowned ?_ ?_ ?_
  · rw [Parish.net_iff, show u.parish (State.parOf q) = s.parish (State.parOf q) by rw [hf]; rfl, hp]
    exact ⟨nofun, nofun⟩
  · rw [show u.owner (State.parOf q) = s.owner (State.parOf q) by rw [hf]; rfl]
    exact ho
  · rw [show u.logicalOf q = s.logicalOf q by rw [hf]; rfl]
    exact Option.isSome_iff_ne_none.mp hl

/-- Settles O55: a wave starts its parishes one by one, a self-test is a reset, its outcome and a map-out, and the fuses follow COMMIT. -/
theorem croftsAreTestedAndFusesBlown : Obligations.CroftsAreTestedAndFusesBlown := by
  unfold Obligations.CroftsAreTestedAndFusesBlown
  refine ⟨fun s hb h4 => ⟨fun k => ?_, fun q hp hl hr => ?_⟩, fun s => ⟨fun hu => ?_, fun hu h => ?_, fun hu h => ?_, fuseBlowDone_spec, fun h => ?_⟩⟩
  · obtain ⟨t, hx, hf, hin, hout⟩ := computeWave_spec hb h4 k
    refine ⟨t, hx, hf, fun p h0 _ _ => absurd h0 (by omega), fun p h => hout p ?_⟩
    have hk : ∀ r : Fin 8, r % 8 = r := by decide
    rw [hk p] at h
    exact h.imp_left fun hne he => hne (Fin.ext (by omega))
  · have h : SelfTested s q := ⟨hb, h4, hp, hl, hr⟩
    exact ⟨selftestPass_spec h, fun _ _ => selftestBadRow_spec h, selftestBroken_spec h⟩
  · exact congrArg Host.Outcome.next (exec_down_next _ hu)
  · exact congrArg Host.Outcome.next ((exec_up_next _ hu).trans (if_pos h))
  · exact congrArg Host.Outcome.next ((exec_up_next _ hu).trans (if_neg (not_not.mpr h)))
  · exact congrArg Host.Outcome.next (if_pos (by simp [h]))

end Sys2Proof.Machine

namespace Sys2Proof.Machine
open Sys2Proof.Safety

/-! ### Lines of the array -/

/-- Only counters, fault registers, the injection and events have changed. -/
def Counted (x y : Site) : Prop :=
  y = { x with c := { x.c with regs := y.c.regs, counts := y.c.counts, injectChk := y.c.injectChk }, raised := y.raised }

theorem Counted.refl (x : Site) : Counted x x := rfl

theorem Counted.trans {x y z : Site} (h : Counted x y) (h' : Counted y z) : Counted x z := by
  unfold Counted at h h' ⊢
  rw [h] at h'
  exact h'

theorem Counted.ofMismatch (x : Site) (q : QWord) (sbuf part row : Nat) : Counted x (x.mismatch q sbuf part row) := rfl

theorem Counted.ofFoldl {α : Type} (f : Site → α → Site) (hf : ∀ x a, Counted x (f x a)) (l : List α) (x : Site) :
    Counted x (l.foldl f x) := by
  induction l generalizing x with
  | nil => exact .refl x
  | cons a l ih => exact (hf x a).trans (ih _)

theorem Counted.ofChecksum (x : Site) (q : QWord) (v : SBuf) (a : List FV) (b : Option (List FV)) (ps : List FV)
    (row part : Nat) :
    Counted x (x.checksum q v a b ps row part) := by
  unfold Site.checksum
  dsimp only
  split
  · have h : Counted x { x.count Reg.arrChkCount 1 with c := { (x.count Reg.arrChkCount 1).c with injectChk := false } } := rfl
    exact h.trans (.ofFoldl _ (fun y i => .ofMismatch y q _ _ _) _ _)
  · exact rfl

/-- The bytes of rounded values. -/
def rowBytes (vs : List FV) : List Byte :=
  (vs.map fun v => (BitVec.ofNat 32 (fp32.encode v).1 : W32)).flatMap fun w => leBytes 4 w.toNat

/-- What a line leaves beside its row: everything but memory, check bits, counters, injection and events. -/
def LineWritten (x y : Site) (row : Nat) (vs : List FV) : Prop :=
  y = { x with
    c := { x.c with
      regs := y.c.regs, counts := y.c.counts, injectChk := y.c.injectChk, ecc := y.c.ecc
      mem := Memory.write x.c.mem (Site.accRow row) (rowBytes vs) }
    raised := y.raised }

theorem Site.writeRow_written (x : Site) (row : Nat) (vs : List FV) : LineWritten x (x.writeRow row vs) row vs := by
  have h : (((vs.map fun v => fp32.encode v).map fun e => (BitVec.ofNat 32 e.1 : W32)).flatMap fun w => leBytes 4 w.toNat) = rowBytes vs := by
    rw [List.map_map]
    rfl
  unfold LineWritten Site.writeRow Site.storeRow
  dsimp only
  rw [h]
  rfl

theorem LineWritten.checked {x y z : Site} {row : Nat} {vs : List FV} (h : LineWritten x y row vs) (h' : Counted y z) :
    LineWritten x z row vs := by
  unfold LineWritten Counted at *
  have he : z.c.ecc = y.c.ecc := by rw [h']
  rw [he]
  rw [h] at h'
  exact h'

theorem Site.checkAcc_clean (x : Site) (h : ∀ cw, eccAt x.c cw = .clean) (row : Nat) (opc : W16) (poison : Bool) :
    x.checkAcc row opc poison = (x, false) := by
  unfold Site.checkAcc
  generalize List.range 8 = l
  induction l with
  | nil => rfl
  | cons i l ih =>
    rw [List.foldl_cons]
    dsimp only
    rw [check_clean x (h _)]
    exact ih


/-- The site with a line written and the run set on or ended. -/
theorem OnlyCroft.ofSite {s : State} {q : Nat} {f : Site → Site} {y : Site} (h : f (s.site q) = y) :
    OnlyCroft q s (s.onCroft q f) ∧ (s.onCroft q f).croft q = y.c :=
  ⟨State.onlyCroft_onCroft s q f, (State.croft_onCroft_same s q f).trans (congrArg Site.c h)⟩

/-- The old and the new values of a line of a STREAM. -/
def streamValues (x : Site) (r : StreamRun) (ls : List FV) : List FV :=
  let ps := Site.passValues (bufOf x.c (Site.arrSbuf r.q)) ls none
  if wfield r.q.word 70 70 = 1 then List.zipWith FV.add ((x.accValues (Site.arrRow r.q + r.line)).map f32) ps else ps

/-- The rules under which a STREAM takes a tile. -/
def streamTakes (x : Site) (r : StreamRun) (t : Tile) : Bool :=
  t.layout != 2 && Site.pairOk (bufOf x.c (Site.arrSbuf r.q)) t.fmt && (r.fmt.getD t.fmt == t.fmt)

theorem Site.streamInput_line {x : Site} {r : StreamRun} {t : Tile} {cur : Cursor} {ls : List FV}
    (h0 : wfield r.q.word 69 69 = 0)
    (hl : x.nextLine r.cur (wordOpcode r.q.word) (streamTakes x r) = ⟨x, none, (cur, t, ls)⟩) :
    let b := lineResid t (cur.line - 1)
    x.streamInput r (x.sbuf (Site.arrSbuf r.q)) =
      (x, { r with cur := cur, fmt := some t.fmt, pair := Site.pairPlace r.pair b }, .line t.fmt ls none b) := by
  unfold Site.streamInput
  dsimp only
  rw [if_neg (by rw [h0]; decide)]
  rw [show (fun t => t.layout != 2 && Site.pairOk (x.sbuf (Site.arrSbuf r.q)) t.fmt && (r.fmt.getD t.fmt == t.fmt)) = streamTakes x r from rfl, hl]

theorem Site.takenFeed_none {x : Site} (h : ∀ f ∈ x.c.feeds, f.taken = false) : x.takenFeed = none :=
  List.find?_eq_none.mpr fun f hf => by rw [h f hf]; decide

/-- A line of a STREAM that reads well: its row written, and the run gone on or ended. -/
theorem Site.streamLine_written {x : Site} {r : StreamRun} {t : Tile} {cur : Cursor} {ls : List FV}
    (hs : x.c.streaming = some r)
    (hw : wordOp r.q.word = 2) (hh : x.held r.q.num (x.lineSpans r) = false) (he : ∀ cw, eccAt x.c cw = .clean)
    (h0 : wfield r.q.word 69 69 = 0) (hf : ∀ f ∈ x.c.feeds, f.taken = false)
    (hl : x.nextLine r.cur (wordOpcode r.q.word) (streamTakes x r) = ⟨x, none, (cur, t, ls)⟩) :
    ∃ y pair, LineWritten x y (Site.arrRow r.q + r.line) (streamValues x r ls) ∧
      x.streamLine = if r.line + 1 = Site.arrLines r.q then y.endStream true
        else { y with c := { y.c with streaming := some { r with cur := cur, fmt := some t.fmt, pair, line := r.line + 1 } } }
            := by
  have hin := Site.streamInput_line h0 hl
  have hfeed : x.feedHeld = false := by
    unfold Site.feedHeld
    rw [Site.takenFeed_none hf]
  have hacc : (if wfield r.q.word 70 70 = 1 then x.checkAcc (Site.arrRow r.q + r.line) (wordOpcode r.q.word) true else (x, false)) = (x, false) := by
    rw [Site.checkAcc_clean x he, ite_self]
  unfold Site.streamLine
  rw [hs]
  dsimp only
  rw [if_neg (by rw [hw]; decide), if_neg (by rw [hh, hfeed]; decide), hin]
  dsimp only
  rw [hacc]
  dsimp only
  rw [if_neg (by decide)]
  exact ⟨(x.writeRow (Site.arrRow r.q + r.line) (streamValues x r ls)).checksum r.q (x.sbuf (Site.arrSbuf r.q)) ls none
      (Site.passValues (x.sbuf (Site.arrSbuf r.q)) ls none) (Site.arrRow r.q + r.line)
      (if (x.sbuf (Site.arrSbuf r.q)).fmt = 2 ∧ Site.pairPlace r.pair (lineResid t (cur.line - 1)) = 2 then 1 else 0),
    Site.pairPlace r.pair (lineResid t (cur.line - 1)), (Site.writeRow_written x _ _).checked (.ofChecksum ..), rfl⟩

/-- A line of an ADDIN that reads well. -/
theorem Site.addinLine_written {x : Site} {r : StreamRun} {t : Tile} {cur : Cursor} {ls : List FV} (hs : x.c.streaming = some r)
    (hw : wordOp r.q.word = 3) (hh : x.held r.q.num (x.lineSpans r) = false) (he : ∀ cw, eccAt x.c cw = .clean)
    (hl : x.nextLine r.cur (wordOpcode r.q.word) (fun t => t.layout == 0 && (t.fmt == 8 || t.fmt == 9)) =
        ⟨x, none, (cur, t, ls)⟩) :
    ∃ y, LineWritten x y (Site.arrRow r.q + r.line) (List.zipWith FV.add ((x.accValues (Site.arrRow r.q + r.line)).map f32) ls)
        ∧
      x.addinLine = if r.line + 1 = Site.arrLines r.q then y.endStream false
        else { y with c := { y.c with streaming := some { r with line := r.line + 1, cur := cur } } } := by
  have hacc := Site.checkAcc_clean x he (Site.arrRow r.q + r.line) (wordOpcode r.q.word) true
  unfold Site.addinLine
  rw [hs]
  dsimp only
  rw [if_neg (by rw [hw]; decide), if_neg (by rw [hh]; decide), hl]
  dsimp only
  rw [hacc]
  dsimp only
  rw [if_neg (by decide)]
  exact ⟨x.writeRow (Site.arrRow r.q + r.line) (List.zipWith FV.add ((x.accValues (Site.arrRow r.q + r.line)).map f32) ls),
    Site.writeRow_written x _ _, rfl⟩

/-- What a line that has been written leaves of the croft, as its run ends or goes on. -/
theorem LineWritten.kept {x y : Site} {row : Nat} {vs : List FV} (h : LineWritten x y row vs) :
    y.c.mem = Memory.write x.c.mem (Site.accRow row) (rowBytes vs) ∧ y.c.seq = x.c.seq ∧ y.c.arrayQ = x.c.arrayQ ∧
      y.c.sbuf0 = x.c.sbuf0 ∧ y.c.sbuf1 = x.c.sbuf1 := by
  unfold LineWritten at h
  generalize y.c.regs = regs, y.c.counts = counts, y.c.injectChk = chk, y.c.ecc = ecc, y.raised = raised at h
  rw [h]
  exact ⟨rfl, rfl, rfl, rfl, rfl⟩

/-- Settles O30: a line that reads well writes its row, and its counters and checks touch neither memory nor sequencer. -/
theorem arrayLinesRoundOnce : Obligations.ArrayLinesRoundOnce := by
  unfold Obligations.ArrayLinesRoundOnce
  intro q s r c row old put hs hh he
  refine ⟨fun hw h0 hf t cur ls hl => ?_, fun hw t cur ls hl => ?_⟩
  · obtain ⟨y, pair, hy, hx⟩ := Site.streamLine_written (x := s.site q) hs hw hh he h0 hf hl
    obtain ⟨hm, hsq, haq, hb0, hb1⟩ := hy.kept
    obtain ⟨ho, hc⟩ := OnlyCroft.ofSite (s := s) (q := q) (f := Site.streamLine) hx
    refine ⟨_, rfl, ho, ?_⟩
    rw [hc]
    by_cases hend : r.line + 1 = Site.arrLines r.q
    · rw [if_pos hend]
      exact ⟨hm, fun _ => rfl, fun h => absurd hend h, hsq, haq, hb0, hb1⟩
    · rw [if_neg hend]
      exact ⟨hm, fun h => absurd h hend, fun _ => ⟨_, rfl, rfl, rfl, rfl, rfl⟩, hsq, haq, hb0, hb1⟩
  · obtain ⟨y, hy, hx⟩ := Site.addinLine_written (x := s.site q) hs hw hh he hl
    obtain ⟨hm, hsq, haq, -, -⟩ := hy.kept
    obtain ⟨ho, hc⟩ := OnlyCroft.ofSite (s := s) (q := q) (f := Site.addinLine) hx
    refine ⟨_, rfl, ho, ?_⟩
    rw [hc]
    by_cases hend : r.line + 1 = Site.arrLines r.q
    · rw [if_pos hend]
      exact ⟨hm, fun _ => rfl, fun h => absurd hend h, hsq, haq⟩
    · rw [if_neg hend]
      exact ⟨hm, fun h => absurd h hend, fun _ => rfl, hsq, haq⟩

end Sys2Proof.Machine

namespace Sys2Proof.Machine
open Sys2Proof.Safety

/-! ### What reads of tiles change -/

namespace Worked

theorem openTile (x : Site) (a : Nat) (opc : W16) (takes : Tile → Bool) : Worked x (x.openTile a opc takes).x := by
  have h1 := readBytes x a 8 opc none
  have h2 := h1.trans (readBytes _ (a + 8) 4 opc none)
  unfold Site.openTile
  extract_lets h v t r sc t' b n m t''
  split
  · exact h1
  split
  · exact h1
  split
  · exact h1
  split
  · exact h1
  have h3 : Worked x r.1 := by
    unfold r
    split
    · exact h2
    · exact h1
  split
  · exact h3
  split
  · exact h3
  split
  · have h4 := h3.trans (readBytes r.1 t'.after t'.bitmapBytes opc none)
    split
    · exact h4
    split
    · exact h4
    · exact h4
  · exact h3

theorem readResid (x : Site) (t : Tile) (l b : Nat) (opc : W16) : Worked x (x.readResid t l b opc).x := by
  unfold Site.readResid
  dsimp only
  split
  · exact (readBytes _ _ _ _ _).trans (readBytes _ _ _ _ _)
  · exact refl x

theorem addResids (x : Site) (t : Tile) (l : Nat) (vs : List FV) (opc : W16) : Worked x (x.addResids t l vs opc).x := by
  unfold Site.addResids
  generalize hr : (⟨x, none, []⟩ : TileRead (List FV)) = r
  have hx : Worked x r.x := by rw [← hr]; exact refl x
  clear hr
  generalize List.range (lineBlocks t.fmt) = bs
  induction bs generalizing r with
  | nil => exact hx
  | cons b bs ih => exact ih _ (hx.trans (readResid r.x t l b opc))

theorem denseLine (x : Site) (t : Tile) (l : Nat) (opc : W16) : Worked x (x.denseLine t l opc).x := by
  unfold Site.denseLine
  extract_lets nb s e r
  have he : Worked x e.1 := (readBytes _ _ _ _ _).trans (readBytes _ _ _ _ _)
  split
  · exact he
  split
  · exact he
  split
  · exact he.trans (addResids _ _ _ _ _)
  · exact he

theorem sparseHalf (x : Site) (t : Tile) (l bk : Nat) (opc : W16) : Worked x (x.sparseHalf t l bk opc).x := by
  unfold Site.sparseHalf
  dsimp only
  split
  · exact (readBytes _ _ _ _ _).trans (readBytes _ _ _ _ _)
  · exact refl x

theorem metaLine (x : Site) (t : Tile) (l : Nat) (opc : W16) : Worked x (x.metaLine t l opc).x := by
  unfold Site.metaLine
  extract_lets s e m r ns
  have hm : Worked x m.1 := ((readBytes _ _ _ _ _).trans (readBytes _ _ _ _ _)).trans (readBytes _ _ _ _ _)
  split
  · exact hm
  split
  · exact hm
  · exact hm

theorem tileLine (x : Site) (t : Tile) (l : Nat) (opc : W16) : Worked x (x.tileLine t l opc).x := by
  unfold Site.tileLine
  split
  · exact refl x
  split
  · exact denseLine x t l opc
  · exact (sparseHalf _ _ _ _ _).trans (sparseHalf _ _ _ _ _)
  · exact metaLine x t l opc

theorem tileLines (x : Site) (t : Tile) (opc : W16) (n : Nat) : Worked x (x.tileLines t opc n).x := by
  induction n with
  | zero => exact refl x
  | succ n ih =>
    unfold Site.tileLines
    dsimp only
    split
    · exact ih
    split
    · exact ih.trans (tileLine _ _ _ _)
    · exact ih.trans (tileLine _ _ _ _)

end Worked

/-! ### LOAD -/

theorem Worked.croft {x y : Site} (h : Worked x y) : ∃ regs mem ecc corr raised,
    y = { x with c := { x.c with regs := regs, mem := mem, ecc := ecc, corrLog := corr }, raised := raised } :=
  ⟨_, _, _, _, _, h.2.2⟩

theorem Site.loadStart_run {x : Site} {w : QWord} {rest : List QWord} (hq : x.c.arrayQ = w :: rest) (hw : wordOp w.word = 1)
    (hl : x.c.loading = none) (hs : x.c.streaming = none) (hh : x.held w.num [x.tileSpan (Site.arrAddr w)] = false) :
    x.loadStart = { x with c := { x.c with arrayQ := rest } }.loadRun w := by
  unfold Site.loadStart
  rw [hq]
  dsimp only
  rw [hs, hl, if_neg (by simp [hw]), if_neg (by rw [hh]; decide)]

/-- The site with a LOAD's lines in their buffer, which is not ready yet. -/
def loadedWith (y : Site) (w : QWord) (v : SBuf) : Site :=
  { y.setSbuf (Site.arrSbuf w) v with c := { (y.setSbuf (Site.arrSbuf w) v).c with loading := some w } }

/-- A LOAD whose tile reads well and is neither of FORMAT 9 nor SPARSE_2_4. -/
theorem Site.loadRun_reads {y : Site} {w : QWord} :
    let z := y.setSbuf (Site.arrSbuf w) {}
    let t := z.openTile (Site.arrAddr w) (wordOpcode w.word)
    let l := t.x.tileLines t.val (wordOpcode w.word) t.val.lines
    t.err = none → l.err = none → t.val.fmt ≠ 9 → t.val.layout ≠ 2 →
      y.loadRun w = loadedWith l.x w { fmt := t.val.fmt, resid := t.val.count != 0, lines := l.val } := by
  intro z t l ht hl hf hly
  unfold Site.loadRun loadedWith
  dsimp only
  rw [show ((y.setSbuf (Site.arrSbuf w) {}).openTile (Site.arrAddr w) (wordOpcode w.word)).err = none from ht]
  dsimp only
  rw [if_neg hf, show (Site.tileLines _ _ _ _).err = none from hl]
  dsimp only
  rw [if_neg (fun h => hly h.1), show decide (t.val.layout = 2) = false from decide_eq_false hly]

theorem arrSbuf_lt (w : QWord) : Site.arrSbuf w = 0 ∨ Site.arrSbuf w = 1 := by
  have := wfield_lt w.word 107 107
  unfold Site.arrSbuf
  omega

/-- A site that has worked on its memories alone, with buffer b set: what a LOAD leaves of the croft. -/
theorem loaded_kept {x z y : Site} {w : QWord} {rest : List QWord} {v v' : SBuf}
    (hz : z = { x with c := { x.c with arrayQ := rest } }.setSbuf (Site.arrSbuf w) v')
    (h : Worked z y) (hm : y.c.mem = x.c.mem) (hs : x.c.streaming = none) :
    let d := (loadedWith y w v).c
    d.loading = some w ∧ d.arrayQ = rest ∧ bufOf d (Site.arrSbuf w) = v ∧ bufOf d (1 - Site.arrSbuf w) = bufOf x.c
        (1 - Site.arrSbuf w) ∧
      d.mem = x.c.mem ∧ d.seq = x.c.seq ∧ d.streaming = none := by
  unfold loadedWith
  obtain ⟨regs, mem, ecc, corr, raised, hy⟩ := h.croft
  subst hz
  rcases arrSbuf_lt w with hb | hb <;> rw [hb] at hy ⊢ <;> rw [hy] at hm ⊢ <;> exact ⟨rfl, rfl, rfl, rfl, hm, rfl, hs⟩

theorem loadStart_spec {s : State} {q : Phys} {w : QWord} {rest : List QWord} (hq : (s.croft q).arrayQ = w :: rest)
    (hw : wordOp w.word = 1) (hl : (s.croft q).loading = none) (hs : (s.croft q).streaming = none)
    (hh : (s.site q).held w.num [(s.site q).tileSpan (Site.arrAddr w)] = false) :
    let y := Site.setSbuf { s.site q with c := { s.croft q with arrayQ := rest } } (Site.arrSbuf w) {}
    let t := y.openTile (Site.arrAddr w) (wordOpcode w.word)
    let l := t.x.tileLines t.val (wordOpcode w.word) t.val.lines
    t.err = none → l.err = none → t.val.fmt ≠ 9 → t.val.layout ≠ 2 → ∃ u, exec (.loadStart q) s = .next u ∧ OnlyCroft q s u ∧
      let d := u.croft q
      d.loading = some w ∧ d.arrayQ = rest ∧ bufOf d (Site.arrSbuf w) =
          { fmt := t.val.fmt, resid := t.val.count != 0, lines := l.val } ∧
        bufOf d (1 - Site.arrSbuf w) = bufOf (s.croft q) (1 - Site.arrSbuf w) ∧ d.mem = (s.croft q).mem ∧ d.seq =
            (s.croft q).seq ∧
        d.streaming = none := by
  intro y t l ht hlerr hf hly
  have hrun := (Site.loadStart_run (x := s.site q) hq hw hl hs hh).trans (Site.loadRun_reads ht hlerr hf hly)
  obtain ⟨ho, hc⟩ := OnlyCroft.ofSite (s := s) (q := q) (f := Site.loadStart) hrun
  refine ⟨_, rfl, ho, ?_⟩
  rw [hc]
  have hwork : Worked y l.x := (Worked.openTile y _ _ _).trans (Worked.tileLines t.x _ _ _)
  have hmem : l.x.c.mem = (s.croft q).mem := by
    have hy : y.c.mem = (s.croft q).mem := by
      unfold y Site.setSbuf
      dsimp only
      split <;> rfl
    exact (Site.mem_tileLines _ _ _ _).trans ((Site.mem_openTile _ _ _ _).trans hy)
  exact loaded_kept (x := s.site q) (z := y) rfl hwork hmem hs

theorem loadReady_spec {s : State} {q : Phys} {w : QWord} (hl : (s.croft q).loading = some w) : exec (.loadReady q) s =
    .next (s.setCroft q { withBuf (s.croft q) (Site.arrSbuf w)
       (let v := bufOf (s.croft q) (Site.arrSbuf w)
        { v with loaded := true, sums := Site.columnSums (if v.sparse then 128 else 64) (v.lines.take 32)
                 sumsHi := Site.columnSums (if v.sparse then 128 else 64) (v.lines.drop 32) }) with loading := none }) := by
  refine State.onCroft_next ?_
  unfold Site.loadReady
  rw [show (s.site q).c.loading = some w from hl]
  dsimp only
  rcases arrSbuf_lt w with hb | hb <;> rw [hb] <;> rfl

/-! ### STREAM and ADDIN -/

section start
variable {x : Site} {w : QWord} {rest : List QWord} (hq : x.c.arrayQ = w :: rest) (hs : x.c.streaming = none) (hl : x.c.loading = none)
include hq hs hl

/-- A word that waits for an earlier one to be done with its rows stays in the queue. -/
theorem Site.streamStart_held (hw : wordOp w.word = 2 ∨ wordOp w.word = 3) (hh : x.held w.num [Site.arrRows w] = true) :
    x.streamStart = x.stalls := by
  unfold Site.streamStart
  rw [hq]
  dsimp only
  rw [hs, hl, if_neg (by simp; omega), if_pos hh]

/-- The decision on a word that starts now. -/
theorem Site.streamStart_free (hw : wordOp w.word = 2 ∨ wordOp w.word = 3) (hh : x.held w.num [Site.arrRows w] = false) :
    let y := { x with c := { x.c with arrayQ := rest } }
    let v := x.sbuf (Site.arrSbuf w)
    let go (y : Site) : Site := { y with c := { y.c with streaming := some { q := w, cur := { addr := Site.arrAddr w } } } }
    x.streamStart = if 512 < Site.arrRow w + Site.arrLines w then y.arrFaulted 21 w
      else if wordOp w.word = 3 then go y
      else if !v.loaded then y.arrFaulted 22 w
      else if Site.isComplex v.fmt ∧ 32 < v.lines.length then y.arrFaulted 20 w
      else if wfield w.word 69 69 = 0 then (if v.sparse then y.arrFaulted 20 w else go y)
      else match x.c.feeds.find? fun f => !f.taken with
      | some f => go (y.setTaken { f with taken := true })
      | none => if x.c.gathQ.any Site.isFeed then x else y.gthFaulted 28 w 0 0 0 := by
  unfold Site.streamStart
  rw [hq]
  dsimp only
  rw [hs, hl, if_neg (by simp; omega), if_neg (by rw [hh]; decide)] <;> rfl

end start

theorem isComplex_iff (f : Nat) : Site.isComplex f = true ↔ f ∈ [10, 11, 12] := by
  simp [Site.isComplex, or_assoc]

/-- Settles O29: a LOAD's reads work on its memories alone, and a STREAM or ADDIN starts by one decision over its row, buffer and pairing. -/
theorem arrayLoadsAndStarts : Obligations.ArrayLoadsAndStarts := by
  unfold Obligations.ArrayLoadsAndStarts
  refine ⟨fun q s => ⟨fun w rest => loadStart_spec, fun w => loadReady_spec, ?_⟩, fun q s w rest => ?_⟩
  · refine State.onCroft_next ?_
    dsimp only
    split <;> rfl
  · intro c v started halts hq hs hl
    refine ⟨fun hw hh => State.onCroft_next (Site.streamStart_held hq hs hl hw hh), fun hh => ?_⟩
    have hdec (hw : wordOp w.word = 2 ∨ wordOp w.word = 3) := Site.streamStart_free (x := s.site q) hq hs hl hw hh
    refine ⟨fun hw hr => ?_, fun hw hr h0 hld hsp hcx => ?_, fun hw hr => ?_, fun hw hr hld => ?_, fun hw hr h0 hld hf hsp =>
        ?_⟩
    · exact State.onCroft_next ((hdec (.inr hw)).trans ((if_neg (by omega)).trans (if_pos hw)))
    · have hld' : ((s.site q).sbuf (Site.arrSbuf w)).loaded = true := hld
      have hsp' : ((s.site q).sbuf (Site.arrSbuf w)).sparse = false := hsp
      have hc : ¬ (Site.isComplex ((s.site q).sbuf (Site.arrSbuf w)).fmt = true ∧ 32 <
          ((s.site q).sbuf (Site.arrSbuf w)).lines.length) :=
        fun ⟨hc, hlen⟩ => absurd (hcx ((isComplex_iff _).mp hc)) (Nat.not_le.mpr hlen)
      refine State.onCroft_next ((hdec (.inl hw)).trans ?_)
      rw [if_neg (by omega), if_neg (by rw [hw]; decide), if_neg (by rw [hld']; decide), if_neg hc, if_pos h0, if_neg
          (by rw [hsp']; decide)]
      rfl
    · refine State.onCroft_reported ((hdec hw).trans ((if_pos hr).trans ?_))
      rfl
    · have hld' : ((s.site q).sbuf (Site.arrSbuf w)).loaded = false := hld
      refine State.onCroft_reported ((hdec (.inl hw)).trans ?_)
      rw [if_neg (by omega), if_neg (by rw [hw]; decide), if_pos (by rw [hld']; rfl)]
      rfl
    · have hld' : ((s.site q).sbuf (Site.arrSbuf w)).loaded = true := hld
      have hc : ¬ (Site.isComplex ((s.site q).sbuf (Site.arrSbuf w)).fmt = true ∧ 32 <
          ((s.site q).sbuf (Site.arrSbuf w)).lines.length) :=
        fun hc => hf ((isComplex_iff _).mp hc.1)
      refine State.onCroft_reported ((hdec (.inl hw)).trans ?_)
      rw [if_neg (by omega), if_neg (by rw [hw]; decide), if_neg (by rw [hld']; decide), if_neg hc, if_pos h0, if_pos
          (show ((s.site q).sbuf (Site.arrSbuf w)).sparse = true from hsp)]
      rfl

end Sys2Proof.Machine

namespace Sys2Proof.Machine
open Sys2Proof.Safety

/-! ### The reeve's sums -/

/-- The summary of a parish's oldest step. -/
def Parish.oldest (v : Parish) (p : Nat) : Summary :=
  { parish := p, step := v.tallyStep, sat := BitVec.ofNat 32 v.tally0.sat, inf := BitVec.ofNat 32 v.tally0.inf,
    nan := BitVec.ofNat 32 v.tally0.nan, resid := BitVec.ofNat 32 v.tally0.resid, acks := v.tally0.acks,
    incomplete := decide (v.tally0.acks < v.expect) }

/-- The parish once its oldest step has gone out to holding h. -/
def Parish.forwarded (v : Parish) (p h : Nat) : Parish :=
  { v with tallyStep := v.tallyStep + 1, tally0 := v.tally1, tally1 := {}, sentSums := v.sentSums ++ [(h, v.oldest p)] }.setReg
    Reg.parTallyStat (BitVec.ofNat 64 (v.tallyStep.toNat % 2 ^ 16 * 2 ^ 16 + b2n (decide (v.tally0.acks < v.expect)) * 2 ^ 9 +
      min v.tally0.acks 511))

theorem Parish.expect_forwarded (v : Parish) (p h : Nat) : (v.forwarded p h).expect = v.expect := by
  unfold Parish.expect Parish.field
  rw [show (v.forwarded p h).reg Reg.parTallyCfg = v.reg Reg.parTallyCfg from (Parish.reg_setReg _ _ _ _).trans (if_neg (by decide))]

/-- The state with the oldest step's summary sent and held. -/
def State.forwarded (s : State) (p : Nat) : State :=
  { s.setParish p ((s.parish p).forwarded p (s.owner p)) with
    outq := s.outq ++ [s.summaryPacket p (s.owner p) ((s.parish p).oldest p)] }

theorem State.forwardSummary_complete {s : State} {p : Nat} (h : (s.parish p).expect ≤ (s.parish p).tally0.acks) :
    s.forwardSummary p = s.forwarded p := by
  unfold State.forwardSummary
  exact if_neg (by simpa using h)

theorem State.forwardSummary_incomplete {s : State} {p : Nat} (h : (s.parish p).tally0.acks < (s.parish p).expect) :
    s.forwardSummary p = (s.forwarded p).raise 69 (locParish p) := by
  unfold State.forwardSummary
  exact if_pos (by simpa using h)

theorem summaryDue_false {v : Parish} (h : v.tally0.acks < v.expect) (he : v.tally0.elapsed = false) : State.summaryDue v =
    false := by
  unfold State.summaryDue
  rw [he, decide_eq_false (Nat.not_le.mpr h)]
  simp

theorem State.forwardDue_none {s : State} {p : Nat} (h : State.summaryDue (s.parish p) = false) : s.forwardDue p = s := by
  unfold State.forwardDue
  simp [h]

theorem State.forwardDue_one {s : State} {p : Nat} (h : State.summaryDue (s.parish p) = true)
    (h' : State.summaryDue ((s.forwardSummary p).parish p) = false) : s.forwardDue p = s.forwardSummary p := by
  unfold State.forwardDue
  simp [h, h']

theorem State.parish_forwarded (s : State) (p : Nat) : (s.forwarded p).parish p = (s.parish p).forwarded p (s.owner p) := by
  unfold State.forwarded
  exact State.parish_setParish_same s p ((s.parish p).forwarded p (s.owner p))

theorem State.parish_forwardSummary (s : State) (p : Nat) : (s.forwardSummary p).parish p = (s.parish p).forwarded p (s.owner p)
    := by
  rcases Nat.lt_or_ge (s.parish p).tally0.acks (s.parish p).expect with h | h
  · rw [State.forwardSummary_incomplete h]
    exact State.parish_forwarded s p
  · rw [State.forwardSummary_complete h]
    exact State.parish_forwarded s p

/-- The next step is not due behind the oldest one. -/
theorem forwarded_notDue {v : Parish} {p h : Nat} (ha : v.tally1.acks < v.expect) (he : v.tally1.elapsed = false) :
    State.summaryDue (v.forwarded p h) = false :=
  summaryDue_false (by rw [Parish.expect_forwarded]; exact ha) he

/-! ### Records -/

/-- The step of a record. -/
def recordStep (k : Packet) : W32 := BitVec.ofNat 32 (bitsOf k.opdata.toNat 95 64)

theorem Parish.tallyOf_oldest {v : Parish} {step : W32} (h : step = v.tallyStep) : v.tallyOf step = some v.tally0 := if_pos h

theorem Parish.ne_next {v : Parish} {step : W32} (h : step = v.tallyStep + 1) : step ≠ v.tallyStep := by
  rw [h]
  intro h
  bv_omega

theorem Parish.tallyOf_next {v : Parish} {step : W32} (h : step = v.tallyStep + 1) : v.tallyOf step = some v.tally1 :=
  (if_neg (Parish.ne_next h)).trans (if_pos h)

section record
variable {s : State} {p : Par} {k : Packet} (hn : (s.parish p).net = true)
include hn

theorem State.tallyRecord_summed {t : Tally} (ht : (s.parish p).tallyOf (recordStep k) = some t) (he : 0 < (s.parish p).expect)
    :
    s.tallyRecord p k = (s.setParish p ((s.parish p).setTally (recordStep k) (t.addRecord k.opdata.toNat))).forwardDue p := by
  unfold State.tallyRecord
  dsimp only
  rw [if_neg (by simp [hn]), show (s.parish p).tallyOf (BitVec.ofNat 32 (bitsOf k.opdata.toNat 95 64)) = some t from ht]
  exact if_neg (by omega)

theorem State.tallyRecord_stray (h : (recordStep k ≠ (s.parish p).tallyStep ∧ recordStep k ≠ (s.parish p).tallyStep + 1) ∨
    (s.parish p).expect = 0) : s.tallyRecord p k = s.strayRecord p := by
  unfold State.tallyRecord
  dsimp only
  rw [if_neg (by simp [hn])]
  split
  · rfl
  · next t ht =>
    rcases h with ⟨h0, h1⟩ | h
    · have hnone : (s.parish p).tallyOf (BitVec.ofNat 32 (bitsOf k.opdata.toNat 95 64)) = none := (if_neg h0).trans (if_neg h1)
      rw [hnone] at ht
      exact absurd ht (by simp)
    · exact if_pos h

end record

/-! ### A TALLY word -/

theorem bitsOf_tally {a b c d e : Nat} (ha : a < 4294967296) (hb : b < 65536) (hc : c < 65536) (hd : d < 65536) (he : e < 32768)
    :
    let n := (a * 18446744073709551616 + b * 281474976710656 + c * 4294967296 + d * 65536 + e * 2 + 1) %
        79228162514264337593543950336
    bitsOf n 95 64 = a ∧ bitsOf n 63 48 = b ∧ bitsOf n 47 32 = c ∧ bitsOf n 31 16 = d ∧ bitsOf n 15 1 = e ∧ bitsOf n 0 0 = 1 :=
        by
  intro n
  simp only [bitsOf, Nat.reducePow, Nat.reduceAdd, Nat.reduceSub]
  omega

theorem tallyOpdata_fields (step : Nat) (c : StepCounts) : let d := (tallyOpdata step c).toNat
    bitsOf d 95 64 = step % 2 ^ 32 ∧ bitsOf d 63 48 = min c.sat 65535 ∧ bitsOf d 47 32 = min c.inf 65535 ∧
      bitsOf d 31 16 = min c.nan 65535 ∧ bitsOf d 15 1 = min c.resid 32767 ∧ bitsOf d 0 0 = 1 := by
  unfold tallyOpdata
  rw [BitVec.toNat_ofNat]
  exact bitsOf_tally (Nat.mod_lt _ (by decide)) (by omega) (by omega) (by omega) (by omega)

/-- The packet of a TALLY word. -/
def tallyPacket (x : Site) : Packet :=
  { x.packet 0x10 (0x7200 + x.q / 500) 3 with holding := 0xF, opdata := tallyOpdata (x.num Reg.crfStep) x.c.counts }

theorem tally_spec {q : Phys} {s : State} {w : W128} (h : Issues s q w) (hc : wordClass w = 0xC) :
    exec (.tally q) s = .next { s.setCroft q { s.croft q with counts := {}, seq := past (s.croft q).seq } with
      outq := s.outq ++ [tallyPacket (s.site q)] } := by
  refine onCroft_sends ?_
  unfold Site.tallyWord
  rw [Site.issuing_eq h 0xC hc]
  rfl

/-! ### A record at its reeve -/

theorem Parish.net_of {v : Parish} (h0 : v.st ≠ .off) (h1 : v.st ≠ .tripped) : v.net = true := v.net_iff.mpr ⟨h0, h1⟩

/-- A tally record in its turn. -/
theorem tallyRecord_next {p : Par} {s : State} {k : Packet} (hk : k.wellFormed = true) (ht : InTurn s k)
    (hs : ((s.take k).tallyRecord p k).shadows = s.shadows) : exec (.tallyRecord p k) s = .next ((s.take k).tallyRecord p k) :=
  (State.inTurn_eq _ hk ht).trans (congrArg Host.Outcome.next (State.asOne_of_shadows hs))

theorem State.forwardSummary_shadows (s : State) (p : Nat) : (s.forwardSummary p).shadows = s.shadows := by
  rcases Nat.lt_or_ge (s.parish p).tally0.acks (s.parish p).expect with h | h
  · rw [State.forwardSummary_incomplete h]
    rfl
  · rw [State.forwardSummary_complete h]
    rfl

theorem State.forwardDue_shadows (s : State) (p : Nat) : (s.forwardDue p).shadows = s.shadows := by
  have h (u : State) : (if State.summaryDue (u.parish p) = true then u.forwardSummary p else u).shadows = u.shadows := by
    split
    · exact State.forwardSummary_shadows u p
    · rfl
  exact (h _).trans (h s)

theorem State.tallyRecord_shadows (s : State) (p : Nat) (k : Packet) : (s.tallyRecord p k).shadows = s.shadows := by
  unfold State.tallyRecord
  dsimp only
  split
  · rfl
  split
  · rfl
  split
  · rfl
  · exact State.forwardDue_shadows _ p

/-- The parish with a step's sums added to. -/
theorem setTally_oldest {v : Parish} {step : W32} (h : step = v.tallyStep) (t : Tally) : v.setTally step t =
    { v with tally0 := t } := if_pos h

theorem setTally_next {v : Parish} {step : W32} (h : step = v.tallyStep + 1) (t : Tally) : v.setTally step t =
    { v with tally1 := t } :=
  if_neg (Parish.ne_next h)

/-- The state after the oldest step's summary has gone out, from one whose parish p the step has changed to v. -/
theorem State.forwarded_spec {s u : State} {p : Nat} {v : Parish} (hu : u = { s.setParish p v with inbox := u.inbox }) :
    let t := u.forwarded p
    let m := v.oldest p
    t.reports = s.reports ∧ t.summaries = s.summaries ∧
      t.outq = s.outq ++ [{ op := 0x10, src := BitVec.ofNat 16 (0x7200 + p), dest := BitVec.ofNat 16 (0x7100 + s.active.getD 0)
                            vc := 3, origVc := 3, holding := 15, who := .summary (s.owner p) m }] ∧
      (t.parish p).sentSums = v.sentSums ++ [(s.owner p, m)] ∧ ParishTo p s t (t.parish p) ∧ (t.parish p).tallyStep =
          v.tallyStep + 1 ∧
      (t.parish p).tally0 = v.tally1 ∧ (t.parish p).tally1 = {} := by
  intro t m
  have hv : u.parish p = v := by rw [hu]; exact State.parish_setParish_same s p v
  have ht : t = { u.setParish p (v.forwarded p (u.owner p)) with outq := u.outq ++ [u.summaryPacket p (u.owner p) (v.oldest p)] } := by
    unfold t State.forwarded
    rw [hv]
  have hp : t.parish p = v.forwarded p (s.owner p) := by
    rw [ht]
    refine (State.parish_setParish_same u p _).trans ?_
    rw [hu]
    rfl
  have hj (j : Nat) (h : j ≠ p) : t.parish j = s.parish j := by
    rw [ht]
    refine (State.parish_setParish_ne u _ h).trans ?_
    rw [hu]
    exact State.parish_setParish_ne s _ h
  rw [hp]
  have ho : t.outq = s.outq ++ [s.summaryPacket p (s.owner p) (v.oldest p)] := by
    rw [ht, hu]
    rfl
  refine ⟨by rw [ht, hu]; rfl, by rw [ht, hu]; rfl, ho, rfl, ⟨hp, hj, ?_⟩, rfl, rfl, rfl⟩
  rw [ht, hu]
  rfl

/-- The sums of a step with a record added, as their rule says. -/
def recorded (k : Packet) (a : Tally) : Tally :=
  { a with
    sat := min (a.sat + bitsOf k.opdata.toNat 63 48) (2 ^ 32 - 1), inf := min (a.inf + bitsOf k.opdata.toNat 47 32) (2 ^ 32 - 1)
    nan := min (a.nan + bitsOf k.opdata.toNat 31 16) (2 ^ 32 - 1), resid := min (a.resid + bitsOf k.opdata.toNat 15 1)
        (2 ^ 32 - 1)
    acks := a.acks + bitsOf k.opdata.toNat 0 0, timing := true }

theorem addRecord_eq (a : Tally) (k : Packet) : a.addRecord k.opdata.toNat = recorded k a := rfl

section records
variable {s : State} {p : Par} {k : Packet} (hn : (s.parish p).net = true)
include hn

/-- A record of the oldest step that leaves both steps incomplete. -/
theorem tallyRecord_oldest (hst : recordStep k = (s.parish p).tallyStep)
    (ha : (s.parish p).tally0.acks + bitsOf k.opdata.toNat 0 0 < (s.parish p).expect) (he : (s.parish p).tally0.elapsed = false)
        :
    s.tallyRecord p k = s.setParish p { s.parish p with tally0 := recorded k (s.parish p).tally0 } := by
  have hrec := State.tallyRecord_summed (s := s) (k := k) hn (Parish.tallyOf_oldest hst) (Nat.lt_of_le_of_lt (Nat.zero_le _) ha)
  rw [addRecord_eq, setTally_oldest hst] at hrec
  refine hrec.trans (State.forwardDue_none ?_)
  rw [State.parish_setParish_same]
  exact summaryDue_false ha he

theorem tallyRecord_next_step (hst : recordStep k = (s.parish p).tallyStep + 1) (h0 : 0 < (s.parish p).expect)
    (ha : (s.parish p).tally0.acks < (s.parish p).expect) (he : (s.parish p).tally0.elapsed = false) :
    s.tallyRecord p k = s.setParish p { s.parish p with tally1 := recorded k (s.parish p).tally1 } := by
  have hrec := State.tallyRecord_summed (s := s) (k := k) hn (Parish.tallyOf_next hst) h0
  rw [addRecord_eq, setTally_next hst] at hrec
  refine hrec.trans (State.forwardDue_none ?_)
  rw [State.parish_setParish_same]
  exact summaryDue_false ha he

/-- A record that completes the oldest step sends its summary. -/
theorem tallyRecord_completes (hst : recordStep k = (s.parish p).tallyStep) (h0 : 0 < (s.parish p).expect)
    (ha : (s.parish p).expect ≤ (s.parish p).tally0.acks + bitsOf k.opdata.toNat 0 0)
    (ha1 : (s.parish p).tally1.acks < (s.parish p).expect) (he1 : (s.parish p).tally1.elapsed = false) :
    s.tallyRecord p k = (s.setParish p { s.parish p with tally0 := recorded k (s.parish p).tally0 }).forwarded p := by
  have hrec := State.tallyRecord_summed (s := s) (k := k) hn (Parish.tallyOf_oldest hst) h0
  rw [addRecord_eq, setTally_oldest hst] at hrec
  have hp : ((s.setParish p { s.parish p with tally0 := recorded k (s.parish p).tally0 }).parish p) =
    { s.parish p with tally0 := recorded k (s.parish p).tally0 } := State.parish_setParish_same _ _ _
  have ha' : ({ s.parish p with tally0 := recorded k (s.parish p).tally0 } : Parish).expect ≤
    ({ s.parish p with tally0 := recorded k (s.parish p).tally0 } : Parish).tally0.acks := ha
  have ha1' : ({ s.parish p with tally0 := recorded k (s.parish p).tally0 } : Parish).tally1.acks <
    ({ s.parish p with tally0 := recorded k (s.parish p).tally0 } : Parish).expect := ha1
  have h0' : ({ s.parish p with tally0 := recorded k (s.parish p).tally0 } : Parish).expect ≠ 0 := Nat.ne_of_gt h0
  have he1' : ({ s.parish p with tally0 := recorded k (s.parish p).tally0 } : Parish).tally1.elapsed = false := he1
  generalize ({ s.parish p with tally0 := recorded k (s.parish p).tally0 } : Parish) = v at *
  generalize s.setParish p v = u at *
  subst hp
  refine hrec.trans ((State.forwardDue_one ?_ ?_).trans (State.forwardSummary_complete ha'))
  · unfold State.summaryDue
    rw [decide_eq_true ha', bne_iff_ne.mpr h0']
    rfl
  · rw [State.parish_forwardSummary]
    exact forwarded_notDue ha1' he1'

end records

theorem recorded_fields (k : Packet) (v : Parish) (p : Nat) (ha : ({ v with tally0 := recorded k v.tally0 } : Parish).expect ≤
    (recorded k v.tally0).acks) :
    let m := ({ v with tally0 := recorded k v.tally0 } : Parish).oldest p
    m.sat.toNat = (recorded k v.tally0).sat ∧ m.inf.toNat = (recorded k v.tally0).inf ∧ m.nan.toNat = (recorded k v.tally0).nan
        ∧
      m.resid.toNat = (recorded k v.tally0).resid ∧ m.incomplete = false := by
  have hlt (n : Nat) : (BitVec.ofNat 32 (min n (2 ^ 32 - 1))).toNat = min n (2 ^ 32 - 1) := by
    rw [BitVec.toNat_ofNat]
    omega
  exact ⟨hlt _, hlt _, hlt _, hlt _, decide_eq_false (Nat.not_lt.mpr ha)⟩

/-! ### Calls and timeouts -/

section calls
variable {s : State} {p : Par} {step : W32} (hn : (s.parish p).net = true) (h0 : 0 < (s.parish p).expect)
include hn h0

/-- A tally call that has reached its reeve starts its step's time. -/
theorem execTallyCall_called {t : Tally} (hc : (p.val, step) ∈ s.calls) (ht : (s.parish p).tallyOf step = some t) :
    exec (.tallyCall p step) s = .next (({ s with calls := s.calls.erase (p.val, step) } : State).setParish p
      ((s.parish p).setTally step { t with timing := true })) := by
  refine (if_pos (List.contains_iff_mem.mpr hc)).trans (congrArg Host.Outcome.next ?_)
  unfold State.tallyCall
  dsimp only
  have hp : ({ s with calls := s.calls.erase (p.val, step) } : State).parish p = s.parish p := rfl
  rw [hp, ht]
  exact if_neg (by simp [hn]; omega)

omit h0 in
/-- The timeout of the oldest step while its time runs. -/
theorem tallyTimeout_oldest (hst : step = (s.parish p).tallyStep) (ht : (s.parish p).tally0.timing = true) :
    s.tallyTimeout p step = (s.setParish p { s.parish p with tally0 := { (s.parish p).tally0 with elapsed := true }
        }).forwardDue p := by
  unfold State.tallyTimeout
  dsimp only
  rw [Parish.tallyOf_oldest hst]
  dsimp only
  rw [setTally_oldest hst]
  exact if_neg (by simp [hn, ht])

end calls

/-- An elapsed step goes out incomplete, with its event. -/
theorem forwardDue_elapsed {u : State} {p : Nat} (hp : (u.parish p).tally0.elapsed = true) (h0 : 0 < (u.parish p).expect)
    (ha : (u.parish p).tally0.acks < (u.parish p).expect) (ha1 : (u.parish p).tally1.acks < (u.parish p).expect)
    (he1 : (u.parish p).tally1.elapsed = false) : u.forwardDue p = (u.forwarded p).raise 69 (State.locParish p) := by
  refine (State.forwardDue_one ?_ ?_).trans (State.forwardSummary_incomplete ha)
  · unfold State.summaryDue
    rw [hp, bne_iff_ne.mpr (by omega)]
    simp
  · rw [State.parish_forwardSummary]
    exact forwarded_notDue ha1 he1


theorem timedOut_spec {s u : State} {p : Par} (hu : ParishTo p s u (u.parish p)) (hr : u.reports = s.reports) : ∃ r,
    let t := u.raise 69 (State.locParish p)
    t.parish p = u.parish p ∧ t.summaries = u.summaries ∧ ParishTo p s t (t.parish p) ∧ t.reports = s.reports ++ [r] ∧ r.source
        = 69 ∧
      r.loc = State.locParish p ∧ t.outq = u.outq ++ [reportPacket s (0x7200 + p) r] := by
  obtain ⟨-, hj, he⟩ := hu
  rw [State.raise_parish _ _ _ p.isLt (by decide)]
  have hact : u.active = s.active := by rw [he]; rfl
  refine ⟨u.eventOf 69 (State.locParish p) 0 0 (some false) none, rfl, rfl, ⟨rfl, hj, ?_⟩, ?_, rfl, rfl, ?_⟩
  · exact congrArg (fun v : State => { v with
      reports := u.reports ++ [u.eventOf 69 (State.locParish p) 0 0 (some false) none]
      outq := u.outq ++ [reportPacket u (0x7200 + p) (u.eventOf 69 (State.locParish p) 0 0 (some false) none)] }) he
  · exact congrArg (· ++ [u.eventOf 69 (State.locParish p) 0 0 (some false) none]) hr
  · unfold raisedAt reportPacket
    rw [hact]
    rfl

/-- Settles O27: a record adds to its step or is a stray, and what is due goes out once as a packet. -/
theorem talliesAreSummedAndForwarded : Obligations.TalliesAreSummedAndForwarded := by
  unfold Obligations.TalliesAreSummedAndForwarded
  refine ⟨fun q s w h hc => ?_, fun p s k hk ht => ?_, fun p s step => ?_⟩
  · intro c
    obtain ⟨h1, h2, h3, h4, h5, h6⟩ := tallyOpdata_fields ((s.site q).num Reg.crfStep) (s.croft q).counts
    refine ⟨tallyPacket (s.site q), tally_spec h hc, rfl, ?_, rfl, rfl, h1, h2, h3, h4, h5, h6⟩
    change (BitVec.ofNat 16 (0x7200 + q.val / 500)).toNat = _
    rw [BitVec.toNat_ofNat]
    have := q.isLt
    omega
  · intro v d step sums ho htr
    have hn : (s.parish p).net = true := Parish.net_of ho htr
    have hx := tallyRecord_next (p := p) hk ht (State.tallyRecord_shadows _ _ _)
    refine ⟨fun hst ha he => ?_, fun hst h0 ha he => ?_, fun hst h0 ha ha1 he1 => ?_, fun h => ?_⟩
    · exact hx.trans (congrArg Host.Outcome.next (tallyRecord_oldest (s := s.take k) hn hst ha he))
    · exact hx.trans (congrArg Host.Outcome.next (tallyRecord_next_step (s := s.take k) hn hst h0 ha he))
    · have hx' := hx.trans (congrArg Host.Outcome.next (tallyRecord_completes (s := s.take k) hn hst h0 ha ha1 he1))
      obtain ⟨h1, h2, h3, h4, h5⟩ := recorded_fields k v p ha
      have hspec := State.forwarded_spec (s := s) (p := p) (v := { v with tally0 := recorded k v.tally0 })
        (u := (s.take k).setParish p { v with tally0 := recorded k v.tally0 }) rfl
      obtain ⟨hr, hs, ho, hss, hp, hts, ht0, ht1⟩ := hspec
      exact ⟨_, _, hx', hr, hs, ho, hss, rfl, hst.symm, h1, h2, h3, h4, rfl, h5, hp, by rw [hst]; exact hts, ht0, ht1⟩
    · exact hx.trans (congrArg Host.Outcome.next (State.tallyRecord_stray (s := s.take k) hn h))
  · intro v ho htr h0 called
    have hn : (s.parish p).net = true := Parish.net_of ho htr
    refine ⟨fun h => if_neg (by rwa [List.contains_iff_mem]), fun hc hst => ?_, fun hc hst => ?_, fun hst ht ha ha1 he1 => ?_⟩
    · have hx := execTallyCall_called hn h0 hc (Parish.tallyOf_oldest hst)
      rwa [setTally_oldest hst] at hx
    · have hx := execTallyCall_called hn h0 hc (Parish.tallyOf_next hst)
      rwa [setTally_next hst] at hx
    · have hu := State.parish_setParish_same s p { v with tally0 := { v.tally0 with elapsed := true } }
      have hspec := State.forwarded_spec (s := s) (p := p) (v := { v with tally0 := { v.tally0 with elapsed := true } })
        (u := s.setParish p { v with tally0 := { v.tally0 with elapsed := true } }) rfl
      have hd := tallyTimeout_oldest hn hst ht
      have hd' := forwardDue_elapsed (u := s.setParish p { v with tally0 := { v.tally0 with elapsed := true } }) (p := p)
        (by rw [hu]) (by rw [hu]; exact h0) (by rw [hu]; exact ha) (by rw [hu]; exact ha1) (by rw [hu]; exact he1)
      have hx : exec (.tallyTimeout p step) s = .next (s.tallyTimeout p step) := rfl
      rw [hd, hd'] at hx
      generalize (s.setParish p { v with tally0 := { v.tally0 with elapsed := true } }).forwarded p = u at hspec hx
      obtain ⟨hr, hs, hout, hss, hp, hts, ht0, ht1⟩ := hspec
      obtain ⟨r, hp', hs', hto, hrep, hsrc, hloc, hout'⟩ := timedOut_spec hp hr
      exact ⟨_, ({ v with tally0 := { v.tally0 with elapsed := true } } : Parish).oldest p, hx, hs'.trans hs, rfl, hst.symm,
        (congrArg Parish.sentSums hp').trans hss, rfl, decide_eq_true ha, hto, (congrArg Parish.tallyStep hp').trans
            (hts.trans (by rw [hst])),
        (congrArg Parish.tally0 hp').trans ht0, r, hrep, hsrc, hloc, by rw [hout', hout, List.append_assoc]; rfl⟩

end Sys2Proof.Machine

namespace Sys2Proof.Machine
open Sys2Proof.Safety

/-! ### Requests of a context through releases (R314, R325) -/

namespace Gate

/-- A request or a group has a part of context c. -/
def HasPart (g : Gate) (c : Nat) : Prop :=
  (∃ m ∈ g.waiting ++ g.merger, ∃ p ∈ m.parts, p.1 = c) ∨ ∃ r ∈ g.store, ∃ p ∈ r.parts, p.1 = c

theorem sum_map_ne_zero {α : Type} {l : List α} {f : α → Nat} {x : α} (hx : x ∈ l) (hf : f x ≠ 0) : (l.map f).sum ≠ 0 := fun h
    =>
  hf (List.sum_eq_zero_iff.mp h (f x) (List.mem_map_of_mem hx))

theorem partCount_ne_zero {ps : List (Nat × Nat × Nat)} {c : Nat} {p : Nat × Nat × Nat} (hp : p ∈ ps) (hc : p.1 = c) :
    (ps.filter (partOf c)).length ≠ 0 := by
  have h : p ∈ ps.filter (partOf c) := List.mem_filter.mpr ⟨hp, beq_iff_eq.mpr hc⟩
  rw [Ne, List.length_eq_zero_iff]
  exact List.ne_nil_of_mem h

theorem HasPart.storeParts {g : Gate} {c : Nat} (h : g.HasPart c) : g.storeParts c ≠ 0 := by
  unfold Gate.storeParts
  rcases h with ⟨m, hm, p, hp, hc⟩ | ⟨r, hr, p, hp, hc⟩
  · have := sum_map_ne_zero (f := fun m : MergeGroup => (m.parts.filter (partOf c)).length) hm (partCount_ne_zero hp hc)
    omega
  · have := sum_map_ne_zero (f := fun r : StoreReq => (r.parts.filter (partOf c)).length) hr (partCount_ne_zero hp hc)
    omega

/-- What gate b keeps of the requests of gate a: those under a tag, held or sent by now, and a part of every context that has one. -/
structure KeepsRequests (a b : Gate) : Prop where
  tagged (x : StoreReq) : x ∈ a.store → x.tag < 8192 → ∃ y ∈ b.store, y = x ∨ y = { x with heldBack := false }
  parts (c : Nat) : a.HasPart c → b.HasPart c

theorem KeepsRequests.refl (a : Gate) : KeepsRequests a a := ⟨fun x hx _ => ⟨x, hx, .inl rfl⟩, fun _ h => h⟩

theorem KeepsRequests.trans {a b c : Gate} (h : KeepsRequests a b) (h' : KeepsRequests b c) : KeepsRequests a c := by
  refine ⟨fun x hx ht => ?_, fun i hi => h'.parts i (h.parts i hi)⟩
  obtain ⟨y, hy, he⟩ := h.tagged x hx ht
  have hty : y.tag < 8192 := by rcases he with rfl | rfl <;> exact ht
  obtain ⟨z, hz, he'⟩ := h'.tagged y hy hty
  refine ⟨z, hz, ?_⟩
  rcases he with rfl | rfl <;> rcases he' with rfl | rfl
  · exact .inl rfl
  · exact .inr rfl
  · exact .inr rfl
  · exact .inr rfl

/-- Requests and groups that only grow. -/
theorem keepsRequests_of_subset {a b : Gate} (hs : ∀ x ∈ a.store, x ∈ b.store)
    (hm : ∀ m ∈ a.waiting ++ a.merger, m ∈ b.waiting ++ b.merger) :
    KeepsRequests a b := by
  refine ⟨fun x hx _ => ⟨x, hs x hx, .inl rfl⟩, fun c h => ?_⟩
  rcases h with ⟨m, hmem, h⟩ | ⟨r, hr, h⟩
  · exact .inl ⟨m, hm m hmem, h⟩
  · exact .inr ⟨r, hs r hr, h⟩

theorem store_hold (g : Gate) (port : Nat) (m : Msg) (parts : List (Nat × Nat × Nat)) (first : Bool) :
    ∃ r, r.port = port ∧ r.parts = parts ∧ r.heldBack = true ∧
        (∀ t, g.freeTag = some t → r.tag = t ∧ r.msg = { m with tag := BitVec.ofNat 13 t }) ∧
      ∃ n, g.hold port m parts first = { g with nextTag := n, store := if first = true then r :: g.store else g.store ++ [r] }
          := by
  unfold hold tagged
  cases h : g.freeTag with
  | none => exact ⟨_, rfl, rfl, rfl, nofun, g.nextTag, rfl⟩
  | some t => exact ⟨_, rfl, rfl, rfl, fun t' ht => by rw [Option.some.inj ht]; exact ⟨rfl, rfl⟩, _, rfl⟩

theorem keepsRequests_hold (g : Gate) (port : Nat) (m : Msg) (parts : List (Nat × Nat × Nat)) (first : Bool) :
    KeepsRequests g (g.hold port m parts first) ∧ ∀ c, (∃ p ∈ parts, p.1 = c) → (g.hold port m parts first).HasPart c := by
  obtain ⟨r, -, hp, -, -, n, he⟩ := store_hold g port m parts first
  rw [he]
  refine ⟨keepsRequests_of_subset (fun x hx => ?_) fun m hm => hm, fun c hc => .inr ⟨r, ?_, by rwa [hp]⟩⟩
  · dsimp only
    split
    · exact List.mem_cons_of_mem _ hx
    · exact List.mem_append_left _ hx
  · dsimp only
    split
    · exact List.mem_cons_self
    · exact List.mem_append_right _ (List.mem_singleton_self r)

theorem mem_eraseIdx_or {α : Type} {l : List α} {i : Nat} {m x : α} (h : l[i]? = some m) (hx : x ∈ l) : x = m ∨ x ∈ l.eraseIdx i
    := by
  induction l generalizing i with
  | nil => exact absurd hx List.not_mem_nil
  | cons a l ih =>
    cases i with
    | zero =>
      rw [List.getElem?_cons_zero, Option.some.injEq] at h
      rcases List.mem_cons.mp hx with rfl | hx
      · exact .inl h
      · exact .inr hx
    | succ i =>
      rw [List.getElem?_cons_succ] at h
      rcases List.mem_cons.mp hx with rfl | hx
      · exact .inr List.mem_cons_self
      · exact (ih h hx).imp id (List.mem_cons_of_mem a)

theorem keepsRequests_sendGroup (g : Gate) (i : Nat) : KeepsRequests g (g.sendGroup i) := by
  unfold sendGroup
  split
  · exact .refl g
  · next m hm =>
    obtain ⟨hk, hp⟩ := keepsRequests_hold { g with merger := g.merger.eraseIdx i } m.port (groupReq m).msg m.parts true
    refine ⟨fun x hx ht => hk.tagged x hx ht, fun c h => ?_⟩
    rcases h with ⟨m', hm', p, hp', hc⟩ | h
    · rcases List.mem_append.mp hm' with hw | hmg
      · exact hk.parts c (.inl ⟨m', List.mem_append_left _ hw, p, hp', hc⟩)
      · rcases mem_eraseIdx_or hm hmg with rfl | he
        · exact hp c ⟨p, hp', hc⟩
        · exact hk.parts c (.inl ⟨m', List.mem_append_right _ he, p, hp', hc⟩)
    · exact hk.parts c (.inr h)

theorem mem_set_or {α : Type} {l : List α} {i : Nat} {m x : α} (h : l[i]? = some m) (hx : x ∈ l) (y : α) : x = m ∨ x ∈ l.set i y
    := by
  obtain ⟨j, hj⟩ := List.mem_iff_getElem?.mp hx
  by_cases hij : i = j
  · subst hij
    rw [h] at hj
    exact .inl (Option.some.inj hj).symm
  · exact .inr (List.mem_iff_getElem?.mpr ⟨j, by rw [List.getElem?_set_ne hij, hj]⟩)

theorem mem_set_self_of {α : Type} {l : List α} {i : Nat} {m : α} (h : l[i]? = some m) (y : α) : y ∈ l.set i y := by
  have hi : i < l.length := by
    by_contra hn
    rw [List.getElem?_eq_none (Nat.not_lt.mp hn)] at h
    exact absurd h (by simp)
  exact List.mem_iff_getElem?.mpr ⟨i, by rw [List.getElem?_set_self hi]⟩

theorem keepsRequests_join (g : Gate) (r : MergeGroup) :
    KeepsRequests g (g.join r) ∧ ∀ c, (∃ p ∈ r.parts, p.1 = c) → (g.join r).HasPart c := by
  unfold join
  split
  · next i hi =>
    split
    · next hn =>
      have hlt := (List.findIdx?_eq_some_iff_findIdx_eq.mp hi).1
      rw [List.getElem?_eq_none_iff] at hn
      omega
    · next m hm =>
      dsimp only
      have hjoin (m' : MergeGroup) (hp : m'.parts = m.parts ++ r.parts) (n : Nat) :
          KeepsRequests g ({ g with merger := g.merger.set i m' }.count Reg.gatMerged n) ∧
            ∀ c, (∃ p ∈ r.parts, p.1 = c) → ({ g with merger := g.merger.set i m' }.count Reg.gatMerged n).HasPart c := by
        have hin : m' ∈ g.waiting ++ g.merger.set i m' := List.mem_append_right _ (mem_set_self_of hm m')
        refine ⟨⟨fun x hx _ => ⟨x, hx, .inl rfl⟩, fun c h => ?_⟩, fun c ⟨p, hpr, hc⟩ =>
          .inl ⟨m', hin, p, by rw [hp]; exact List.mem_append_right _ hpr, hc⟩⟩
        rcases h with ⟨x, hx, p, hpx, hc⟩ | h
        · rcases List.mem_append.mp hx with hw | hmg
          · exact .inl ⟨x, List.mem_append_left _ hw, p, hpx, hc⟩
          · rcases mem_set_or hm hmg m' with rfl | hs
            · exact .inl ⟨m', hin, p, by rw [hp]; exact List.mem_append_left _ hpx, hc⟩
            · exact .inl ⟨x, List.mem_append_right _ hs, p, hpx, hc⟩
        · exact .inr h
      obtain ⟨hk, hr⟩ := hjoin { m with lo := min m.lo r.lo, hi := max m.hi r.hi, parts := m.parts ++ r.parts } rfl 1
      split
      · exact ⟨hk.trans (keepsRequests_sendGroup _ _), fun c hc => (keepsRequests_sendGroup _ _).parts c (hr c hc)⟩
      · exact ⟨hk, hr⟩
  · refine ⟨keepsRequests_of_subset (fun x hx => hx) fun m hm => ?_, fun c hc => .inl ⟨r, ?_, hc⟩⟩
    · exact (List.mem_append.mp hm).elim (List.mem_append_left _) fun h => List.mem_append_right _ (List.mem_append_left _ h)
    · exact List.mem_append_right _ (List.mem_append_right _ (List.mem_singleton_self r))

theorem keepsRequests_rangeRead (g : Gate) (far : List (W64 × StoreReq)) (r : MergeGroup) :
    KeepsRequests g (g.rangeRead far r) ∧ ∀ c, (∃ p ∈ r.parts, p.1 = c) → (g.rangeRead far r).HasPart c := by
  unfold rangeRead
  split
  · exact keepsRequests_hold _ _ _ _ _
  split
  · refine ⟨keepsRequests_of_subset (fun x hx => hx) fun m hm => ?_, fun c hc => .inl ⟨r, ?_, hc⟩⟩
    · exact (List.mem_append.mp hm).elim (fun h => List.mem_append_left _ (List.mem_append_left _ h)) (List.mem_append_right _)
    · exact List.mem_append_left _ (List.mem_append_right _ (List.mem_singleton_self r))
  · exact keepsRequests_join g r

theorem keepsRequests_of_transmits {a b : Gate} (h : Transmits a b) : KeepsRequests a b := by
  obtain ⟨heq, -, -⟩ := h
  rw [heq]
  exact keepsRequests_of_subset (fun x hx => hx) fun m hm => hm

theorem keepsRequests_post (g : Gate) (k vc hold : Nat) (m : Msg) : KeepsRequests g (g.post k vc hold m) ∧
    (g.post k vc hold m).merger = g.merger ∧ (g.post k vc hold m).waiting = g.waiting := by
  have h := transmits_post g k vc hold m
  exact ⟨keepsRequests_of_transmits h, by rw [h.only], by rw [h.only]⟩

theorem tagged_parts (g : Gate) (r : StoreReq) : (g.tagged r).2.parts = r.parts := by rw [tagged_snd]

/-- The held request of a place goes out. -/
theorem keepsRequests_sent {g : Gate} {i : Nat} {r y : StoreReq} (hr : g.store[i]? = some r) (hp : y.parts = r.parts)
    (ht : r.tag < 8192 → y = { r with heldBack := false }) (n : Nat) : KeepsRequests g
        { g with nextTag := n, store := g.store.set i y } := by
  refine ⟨fun x hx hlt => ?_, fun c h => ?_⟩
  · rcases mem_set_or hr hx y with rfl | hs
    · exact ⟨y, mem_set_self_of hr y, .inr (ht hlt)⟩
    · exact ⟨x, hs, .inl rfl⟩
  · rcases h with h | ⟨x, hx, p, hpx, hc⟩
    · exact .inl h
    · rcases mem_set_or hr hx y with rfl | hs
      · exact .inr ⟨y, mem_set_self_of hr y, p, by rw [hp]; exact hpx, hc⟩
      · exact .inr ⟨x, hs, p, hpx, hc⟩

theorem keepsRequests_releaseFrom (far : List (W64 × StoreReq)) (i fuel : Nat) (g : Gate) :
    KeepsRequests g (releaseFrom far i fuel g) ∧ (releaseFrom far i fuel g).merger = g.merger ∧
      (releaseFrom far i fuel g).waiting = g.waiting := by
  induction fuel generalizing i g with
  | zero => exact ⟨.refl g, rfl, rfl⟩
  | succ fuel ih =>
    unfold releaseFrom
    split
    · exact ⟨.refl g, rfl, rfl⟩
    · next r hr =>
      split
      · dsimp only
        have hsent (t : Gate × StoreReq) (ht : t = if r.tag < 8192 then (g, r) else g.tagged r) :
            KeepsRequests g { t.1 with store := t.1.store.set i { t.2 with heldBack := false } } ∧ t.1.merger = g.merger ∧
              t.1.waiting = g.waiting := by
          by_cases hlt : r.tag < 8192
          · rw [if_pos hlt] at ht
            subst ht
            exact ⟨keepsRequests_sent (y := { r with heldBack := false }) hr rfl (fun _ => rfl) g.nextTag, rfl, rfl⟩
          · rw [if_neg hlt] at ht
            subst ht
            rw [tagged_fst]
            exact ⟨keepsRequests_sent (y := { (g.tagged r).2 with heldBack := false }) hr (tagged_parts g r)
                (fun h => absurd h hlt) _, rfl, rfl⟩
        obtain ⟨hk, hmg, hw⟩ := hsent _ rfl
        generalize (if r.tag < 8192 then (g, r) else g.tagged r) = t at hk hmg hw ⊢
        obtain ⟨hk', hmg', hw'⟩ := keepsRequests_post { t.1 with store := t.1.store.set i { t.2 with heldBack := false } }
            r.port 0 _ t.2.msg
        obtain ⟨hi, hmi, hwi⟩ := ih (i + 1) _
        exact ⟨(hk.trans hk').trans hi, hmi.trans (hmg'.trans hmg), hwi.trans (hw'.trans hw)⟩
      · exact ih _ _

theorem keepsRequests_release (g : Gate) (far : List (W64 × StoreReq)) : KeepsRequests g (g.release far) ∧
    (g.waiting = [] → (g.release far).merger = g.merger ∧ (g.release far).waiting = []) := by
  unfold release
  have hfold (ws : List MergeGroup) (a : Gate) : KeepsRequests a (ws.foldl (fun (g : Gate) r => g.rangeRead far r) a) ∧
      ∀ c, (∃ m ∈ ws, ∃ p ∈ m.parts, p.1 = c) → (ws.foldl (fun (g : Gate) r => g.rangeRead far r) a).HasPart c := by
    induction ws generalizing a with
    | nil => exact ⟨.refl a, fun c ⟨m, hm, _⟩ => absurd hm List.not_mem_nil⟩
    | cons w ws ih =>
      obtain ⟨hk, hp⟩ := keepsRequests_rangeRead a far w
      obtain ⟨hk', hp'⟩ := ih (a.rangeRead far w)
      refine ⟨hk.trans hk', fun c ⟨m, hm, h⟩ => ?_⟩
      rcases List.mem_cons.mp hm with rfl | hm
      · exact hk'.parts c (hp c h)
      · exact hp' c ⟨m, hm, h⟩
  dsimp only
  obtain ⟨hk, hp⟩ := hfold g.waiting { g with waiting := [] }
  obtain ⟨hk', hmg, hw⟩ := keepsRequests_releaseFrom far 0 (g.waiting.foldl (fun (g : Gate) r => g.rangeRead far r) { g with waiting := [] }).store.length
    (g.waiting.foldl (fun (g : Gate) r => g.rangeRead far r) { g with waiting := [] })
  refine ⟨⟨fun x hx ht => (hk.trans hk').tagged x hx ht, fun c h => hk'.parts c ?_⟩, fun hnil => ?_⟩
  · rcases h with ⟨m, hm, h⟩ | h
    · rcases List.mem_append.mp hm with hw | hmg
      · exact hp c ⟨m, hw, h⟩
      · exact hk.parts c (.inl ⟨m, List.mem_append_right _ hmg, h⟩)
    · exact hk.parts c (.inr h)
  · rw [hmg, hw, hnil]
    exact ⟨rfl, rfl⟩

end Gate

theorem State.keepsRequests_releaseStores (s : State) (g : Nat) : Gate.KeepsRequests (s.gate g) (s.releaseStores.gate g) ∧
    ((s.gate g).waiting = [] → (s.releaseStores.gate g).merger = (s.gate g).merger) := by
  have h : Gate.KeepsRequests (s.gate g) (s.releaseStores.gate g) ∧
      ((s.gate g).waiting = [] → (s.releaseStores.gate g).merger = (s.gate g).merger ∧ (s.releaseStores.gate g).waiting = []) :=
          by
    unfold State.releaseStores
    refine List.foldlRecOn (motive := fun t : State => Gate.KeepsRequests (s.gate g) (t.gate g) ∧
      ((s.gate g).waiting = [] → (t.gate g).merger = (s.gate g).merger ∧ (t.gate g).waiting = [])) _ _
          ⟨.refl _, fun h => ⟨rfl, h⟩⟩ fun t ht i _ => ?_
    obtain ⟨hk, hmg⟩ := ht
    unfold State.modGate
    rw [State.gate_setGate]
    split
    · next hg =>
      subst hg
      obtain ⟨hk', hmg'⟩ := Gate.keepsRequests_release (t.gate g) (t.sentElsewhere g)
      exact ⟨hk.trans hk', fun hw => ⟨(hmg' (hmg hw).2).1.trans (hmg hw).1, (hmg' (hmg hw).2).2⟩⟩
    · exact ⟨hk, hmg⟩
  exact ⟨h.1, fun hw => (h.2 hw).1⟩

/-! ### A context that issues (R322, R323) -/

namespace Gate

/-- Gate b is gate a with context i running in generation n, its bytes not counted on, and a request of it sent or waiting once
one has been issued; its registers but the merges counted are as they were, and its other contexts. -/
structure Issues (i : Nat) (n : BitVec 4) (k : Nat) (a b : Gate) : Prop where
  regs (o : Nat) : o ≠ Reg.gatMerged → b.reg o = a.reg o
  others (j : Nat) : j ≠ i → b.chan j = a.chan j
  st : (b.chan i).st = .run
  gen : (b.chan i).gen = n
  bytes : (b.chan i).bytes = k
  asked : ∃ m, (b.chan i).moving = some m ∧ 0 < m.len ∧ (m.next = 0 ∨ (b.chan i).outst ≠ [] ∨ b.HasPart i)

theorem Issues.then {i k : Nat} {n : BitVec 4} {a b c : Gate} (h : Issues i n k a b) (hr : Releases b c)
    (hk : KeepsRequests b c) :
    Issues i n k a c := by
  obtain ⟨-, -, -, -, hregs, -⟩ := hr.sendsOn
  obtain ⟨m, hm, hl, hq⟩ := h.asked
  refine ⟨fun o ho => (hregs o ho).trans (h.regs o ho), fun j hj => (hr.chan j).trans (h.others j hj), ?_, ?_, ?_, m, ?_, hl, ?_⟩
  · rw [hr.chan]
    exact h.st
  · rw [hr.chan]
    exact h.gen
  · rw [hr.chan]
    exact h.bytes
  · rw [hr.chan]
    exact hm
  · rw [hr.chan]
    exact hq.imp id (Or.imp id (hk.parts i))

theorem chan_modChan (g : Gate) (i j : Nat) (f : Chan → Chan) : (g.modChan i f).chan j = if j = i then f (g.chan i) else g.chan
    j :=
  chan_setChan _ _ _ _

/-- The context goes on to a request of a store. -/
theorem Issues.asks {i k : Nat} {n : BitVec 4} {a b c : Gate} (h : Issues i n k a b) {m : Moving} (hl : 0 < m.len)
    (hr : Releases (b.modChan i fun v => { v with moving := some m }) c) (hp : c.HasPart i) : Issues i n k a c := by
  obtain ⟨-, -, -, -, hregs, -⟩ := hr.sendsOn
  have hi : c.chan i = { b.chan i with moving := some m } := by rw [hr.chan, chan_modChan, if_pos rfl]
  refine ⟨fun o ho => (hregs o ho).trans (h.regs o ho), fun j hj => ?_, ?_, ?_, ?_, m, ?_, hl, .inr (.inr hp)⟩
  · rw [hr.chan, chan_modChan, if_neg hj]
    exact h.others j hj
  · rw [hi]
    exact h.st
  · rw [hi]
    exact h.gen
  · rw [hi]
    exact h.bytes
  · rw [hi]

end Gate

/-- Context i of gate g issues from state s on, in generation n. -/
structure State.Issuing (g i : Nat) (n : BitVec 4) (k : Nat) (s t : State) : Prop where
  only : t = { s with gates := t.gates, outq := t.outq }
  sendsOn (j : Nat) : j ≠ g → SendsOn (s.gate j) (t.gate j)
  gate : Gate.Issues i n k (s.gate g) (t.gate g)

namespace State

variable {g i k : Nat} {n : BitVec 4} {s t : State}

theorem Issuing.releaseStores (h : Issuing g i n k s t) : Issuing g i n k s t.releaseStores := by
  have hr := gatesGoOn_releaseStores g t
  refine ⟨?_, fun j hj => Gate.sendsOn_trans (h.sendsOn j hj) (hr.sendsOn j hj),
    h.gate.then ((releaseStores_spec t).2 g) (t.keepsRequests_releaseStores g).1⟩
  have ho : t.releaseStores.outq = t.outq := by rw [hr.only]
  rw [ho]
  exact hr.only.trans (congrArg (fun v : State => { v with gates := t.releaseStores.gates }) h.only)

theorem Issuing.setGate (h : Issuing g i n k s t) {v : Gate} (hv : Gate.Issues i n k (s.gate g) v) :
    Issuing g i n k s (t.setGate g v) := by
  refine ⟨congrArg (fun u : State => { u with gates := (t.setGate g v).gates }) h.only, fun j hj => ?_, ?_⟩
  · rw [gate_setGate_ne _ _ hj]
    exact h.sendsOn j hj
  · rw [gate_setGate_same]
    exact hv

theorem Issuing.readStep (h : Issuing g i n k s t) {m : Moving} (hm : ((t.gate g).chan i).moving = some m) {u : State}
    (hu : t.readStep g i m = some u) : Issuing g i n k s u := by
  have hl : 0 < m.len := by
    obtain ⟨m', hm', hl, -⟩ := h.gate.asked
    rw [hm] at hm'
    exact Option.some.inj hm' ▸ hl
  unfold State.readStep at hu
  dsimp only at hu
  split at hu
  · exact absurd hu nofun
  split at hu
  · rw [← Option.some.inj hu]
    refine (h.setGate (h.gate.asks (m := { m with next := m.len }) hl (Gate.releases_hold _ _ _ _ _) ?_)).releaseStores
    exact (Gate.keepsRequests_hold _ _ _ _ _).2 i ⟨_, List.mem_singleton_self _, rfl⟩
  · rw [← Option.some.inj hu]
    refine (h.setGate (h.gate.asks (m := { m with next := m.next + _ }) hl (Gate.releases_rangeRead _ _ _) ?_)).releaseStores
    exact (Gate.keepsRequests_rangeRead _ _ _).2 i ⟨_, List.mem_singleton_self _, rfl⟩

/-- A request of a context joins those it has sent, under its next number. -/
theorem gateRequest_spec (s : State) (g i : Nat) (p : Packet) (len : Nat) : ∃ q : Packet,
    s.gateRequest g i p len = (s.emit [q]).setGate g ((s.gate g).modChan i fun v =>
      { v with seq := (v.seq + 1) % 4096, outst := v.outst ++ [{ pkt := q, len }] }) := by
  refine ⟨(s.gateTagged g i p).2, ?_⟩
  unfold gateRequest gateTagged modGate
  dsimp only
  have hg (v : Gate) (q : Packet) : ((s.setGate g v).emit [q]).gate g = v := gate_setGate_same s g v
  rw [hg]
  have hs (v w : Gate) (q : Packet) : ((s.setGate g v).emit [q]).setGate g w = (s.emit [q]).setGate g w :=
    congrArg (fun u : State => { u with outq := s.outq ++ [q] }) (setGate_setGate s g v w)
  rw [hs]
  refine congrArg (State.setGate _ g) ?_
  unfold Gate.modChan Gate.setChan Gate.chan
  dsimp only
  rw [Tab.get_set, if_pos rfl, Tab.set_set]

/-- The read of the mesh of a context that writes to a store, from what it has moved on to. -/
theorem Issuing.request (h : Issuing g i n k s t) {m : Moving} (hl : 0 < m.len) (bs : List (Nat × List Byte)) (p : Packet)
    (len : Nat) :
    Issuing g i n k s (State.gateRequest (t.modGate g fun v =>
      { v.modChan i fun v => { v with moving := some m } with buffered := bs }) g i p len) := by
  obtain ⟨q, hq⟩ := gateRequest_spec (t.modGate g fun v => { v.modChan i fun v => { v with moving := some m } with buffered := bs }) g i p len
  rw [hq]
  unfold modGate
  rw [gate_setGate_same]
  have he (v w : Gate) : ((t.setGate g v).emit [q]).setGate g w = (t.emit [q]).setGate g w :=
    congrArg (fun u : State => u.emit [q]) (setGate_setGate t g v w)
  rw [he]
  have ho : Issuing g i n k s (t.emit [q]) :=
    ⟨congrArg (fun u : State => u.emit [q]) h.only, h.sendsOn, h.gate⟩
  refine ho.setGate ?_
  have hc (j : Nat) (f f' : Chan → Chan) : ({ (t.gate g).modChan i f with buffered := bs }.modChan i f').chan j =
      if j = i then f' (f ((t.gate g).chan i)) else (t.gate g).chan j := by
    rw [Gate.chan_modChan]
    have hb (j : Nat) : { (t.gate g).modChan i f with buffered := bs }.chan j = ((t.gate g).modChan i f).chan j := rfl
    rw [hb, hb, Gate.chan_modChan, Gate.chan_modChan, if_pos rfl]
    split <;> rfl
  refine ⟨h.gate.regs, fun j hj => ?_, ?_, ?_, ?_, m, ?_, hl, .inr (.inl ?_)⟩
  · rw [hc, if_neg hj]
    exact h.gate.others j hj
  · rw [hc, if_pos rfl]
    exact h.gate.st
  · rw [hc, if_pos rfl]
    exact h.gate.gen
  · rw [hc, if_pos rfl]
    exact h.gate.bytes
  · rw [hc, if_pos rfl]
  · rw [hc, if_pos rfl]
    simp

theorem Issuing.writeStep (h : Issuing g i n k s t) {m : Moving} (hm : ((t.gate g).chan i).moving = some m) {u : State}
    (hu : t.writeStep' g i m = some u) : Issuing g i n k s u := by
  have hl : 0 < m.len := by
    obtain ⟨m', hm', hl, -⟩ := h.gate.asked
    rw [hm] at hm'
    exact Option.some.inj hm' ▸ hl
  unfold State.writeStep' at hu
  dsimp only at hu
  split at hu
  · rw [← Option.some.inj hu]
    exact (h.setGate (h.gate.then (Gate.releases_hold _ _ _ _ _) (Gate.keepsRequests_hold _ _ _ _ _).1)).releaseStores
  split at hu
  · exact absurd hu nofun
  · rw [← Option.some.inj hu]
    exact h.request (m := { m with next := m.next + _ }) hl _ _ _

theorem Issuing.pump (h : Issuing g i n k s t) (fuel : Nat) : Issuing g i n k s (gatePump g i fuel t) := by
  induction fuel generalizing t with
  | zero => exact h
  | succ fuel ih =>
    unfold gatePump
    dsimp only
    split
    · next m _ hm =>
      split
      · exact h
      · split
        · next u hu =>
          refine ih ?_
          split at hu
          · exact h.writeStep hm hu
          · exact h.readStep hm hu
        · exact h
    · exact h

/-- A context that has issued a request is not at its end. -/
theorem Issuing.finish (h : Issuing g i n k s t) : t.gateFinish g i = t := by
  obtain ⟨m, hm, hl, hq⟩ := h.gate.asked
  unfold gateFinish
  dsimp only
  rw [hm]
  refine if_pos ?_
  rcases hq with h0 | ho | hp
  · have hn : ¬m.len ≤ m.next := by omega
    simp [hn]
  · simp [ho]
  · simp [hp.storeParts]

theorem Issuing.go (h : Issuing g i n k s t) : Issuing g i n k s (t.gateGo g i) := by
  unfold gateGo
  have hp := h.releaseStores.pump (2 * streamDepth + 4)
  rw [hp.finish]
  exact hp

end State

/-! ### The commands of a context -/

/-- A bit apart from the field written reads as before. -/
theorem bit_setFld_apart (v : W64) (hi lo n i : Nat) (h : hi < 64) (hd : i < lo ∨ hi < i) : bit (setFld v hi lo n) i = bit v i
    := by
  unfold bit
  rw [setFld_getLsbD v hi lo n i h, if_neg (by omega)]

theorem bit_setFld_at (v : W64) (i n : Nat) (h : i < 64) : bit (setFld v i i n) i = n.testBit 0 := by
  unfold bit
  rw [setFld_getLsbD v i i n i h, if_pos ⟨Nat.le_refl i, Nat.le_refl i⟩, Nat.sub_self]

theorem Gate.reg_setField (g : Gate) (o hi lo n j : Nat) :
    (g.setField o hi lo n).reg j = if j = o then setFld (g.reg o) hi lo n else g.reg j := Tab.get_set _ _ _ _ _

theorem Gate.ctxHold_lt (g : Gate) (i : Nat) : g.ctxHold i < 16 := bitsOf_lt _ _ _

/-- A new holding in a context's descriptor leaves the rest of it. -/
theorem Gate.ctxIllegal_setField (g : Gate) (i n : Nat) :
    (g.setField (Reg.gatChCfg i) 13 10 n).ctxIllegal i = g.ctxIllegal i := by
  have hreg (o : Nat) (ho : o ≠ Reg.gatChCfg i) : (g.setField (Reg.gatChCfg i) 13 10 n).reg o = g.reg o := by
    rw [Gate.reg_setField, if_neg ho]
  have hbit (b : Nat) (hb : b < 10) : bit ((g.setField (Reg.gatChCfg i) 13 10 n).reg (Reg.gatChCfg i)) b = bit (g.reg (Reg.gatChCfg i)) b := by
    rw [Gate.reg_setField, if_pos rfl]
    exact bit_setFld_apart _ _ _ _ _ (by decide) (.inl hb)
  have hport := g.field_setField_apart (Reg.gatChCfg i) 13 10 n 5 4 (by decide) (.inl (by decide))
  unfold Gate.ctxIllegal Gate.ctxPort Gate.ctxMulti Gate.ctxWrite Gate.ctxDest Gate.ctxAddr Gate.ctxLen Gate.num
  rw [hport, hbit 6 (by decide), hbit 0 (by decide)]
  unfold Gate.field
  rw [hreg _ (by unfold Reg.gatChDest Reg.gatChCfg; omega), hreg _ (by unfold Reg.gatChAddrLo Reg.gatChCfg; omega),
    hreg _ (by unfold Reg.gatChAddrHi Reg.gatChCfg; omega), hreg _ (by unfold Reg.gatChLen Reg.gatChCfg; omega)]

/-- The gate with context i started in the next generation for holding n. -/
def Gate.begun (v : Gate) (i n : Nat) : Gate :=
  ((v.setField (Reg.gatChCfg i) 13 10 n).setChan i
    { (v.chan i).started 0 0 none with moving := some { len := v.ctxLen i } }).setField (Reg.gatChCmd i) 29 29 0

theorem Gate.chan_begun (v : Gate) (i n j : Nat) : (v.begun i n).chan j =
    if j = i then { (v.chan i).started 0 0 none with moving := some { len := v.ctxLen i } } else v.chan j := by
  have hf (w : Gate) (o hi lo n : Nat) : (w.setField o hi lo n).chan j = w.chan j := rfl
  unfold Gate.begun
  rw [hf, Gate.chan_setChan, hf]

theorem State.gateStart_starts (s : State) {g i h : Nat} (hl : (s.gate g).lost = false)
    (hr : State.reaches (s.gate g) i h = true)
    (ha : ((s.gate g).chan i).active = false)
    (ho : State.overLimit (s.gate g) i (if h = 15 then (s.gate g).ctxHold i else h) = false)
        (hi : (s.gate g).ctxIllegal i = false) :
    s.gateStart g i h = (s.setGate g ((s.gate g).begun i (if h = 15 then (s.gate g).ctxHold i else h))).gateGo g i := by
  generalize hn : (if h = 15 then (s.gate g).ctxHold i else h) = n at ho
  have hi' : (((s.gate g).setField (Reg.gatChCfg i) 13 10 n).setChan i
      { ((s.gate g).chan i).started 0 0 none with moving := some { len := (s.gate g).ctxLen i } }).ctxIllegal i = false :=
    (Gate.ctxIllegal_setField (s.gate g) i n).trans hi
  unfold State.gateStart
  dsimp only
  rw [hn, hl, hr, ha, ho, hi']
  refine congrArg (fun u : State => u.gateGo g i) ?_
  unfold setGateErr modGate
  rw [gate_setGate_same, setGate_setGate]
  rfl

theorem Gate.issues_begun (v : Gate) (i n : Nat) : Gate.Issues i ((v.chan i).gen + 1) 0 (v.begun i n) (v.begun i n) := by
  have hc := v.chan_begun i n i
  rw [if_pos rfl] at hc
  refine ⟨fun _ _ => rfl, fun _ _ => rfl, by rw [hc]; rfl, by rw [hc]; rfl, by rw [hc]; rfl, { len := v.ctxLen i }, by rw [hc],
    Nat.succ_pos _, .inl rfl⟩

theorem Gate.ctxHold_begun (v : Gate) (i n : Nat) (hn : n < 16) : (v.begun i n).ctxHold i = n := by
  have hreg : (v.begun i n).reg (Reg.gatChCfg i) = (v.setField (Reg.gatChCfg i) 13 10 n).reg (Reg.gatChCfg i) := by
    unfold Gate.begun
    rw [Gate.reg_setField, if_neg (by unfold Reg.gatChCfg Reg.gatChCmd; omega)]
    rfl
  unfold Gate.ctxHold Gate.field
  rw [hreg]
  exact Gate.field_setField_same _ _ _ _ _ (by decide) hn

theorem Gate.err_begun (v : Gate) (i n : Nat) : bit ((v.begun i n).reg (Reg.gatChCmd i)) 29 = false := by
  unfold Gate.begun
  rw [Gate.reg_setField, if_pos rfl, bit_setFld_at _ _ _ (by decide)]
  rfl

theorem State.gateStart_spec (s : State) {g i h : Nat} (hg : h < 16) (hl : (s.gate g).lost = false)
    (hr : State.reaches (s.gate g) i h = true)
    (ha : ((s.gate g).chan i).active = false)
    (ho : State.overLimit (s.gate g) i (if h = 15 then (s.gate g).ctxHold i else h) = false)
        (hi : (s.gate g).ctxIllegal i = false) :
    let t := s.gateStart g i h
    GateTo g s t (t.gate g) ∧ t.reports = s.reports ∧ ((t.gate g).chan i).st = .run ∧
      ((t.gate g).chan i).gen = ((s.gate g).chan i).gen + 1 ∧ ((t.gate g).chan i).bytes = 0 ∧
      (t.gate g).ctxHold i = (if h = 15 then (s.gate g).ctxHold i else h) ∧ bit ((t.gate g).reg (Reg.gatChCmd i)) 29 = false ∧
      ∀ j, j ≠ i → (t.gate g).chan j = (s.gate g).chan j := by
  dsimp only
  rw [s.gateStart_starts hl hr ha ho hi]
  generalize hn : (if h = 15 then (s.gate g).ctxHold i else h) = n
  have hlt : n < 16 := by
    rw [← hn]
    split
    · exact Gate.ctxHold_lt _ _
    · exact hg
  generalize hv : s.gate g = v
  have hgo : State.Issuing g i ((v.chan i).gen + 1) 0 (s.setGate g (v.begun i n)) ((s.setGate g (v.begun i n)).gateGo g i) := by
    refine State.Issuing.go ⟨rfl, fun _ _ => Gate.sendsOn_refl _, ?_⟩
    rw [State.gate_setGate_same]
    exact v.issues_begun i n
  generalize (s.setGate g (v.begun i n)).gateGo g i = t at hgo
  obtain ⟨honly, hsends, hgate⟩ := hgo
  rw [State.gate_setGate_same] at hgate
  obtain ⟨hregs, hothers, hst, hgen, hbytes, -⟩ := hgate
  refine ⟨⟨rfl, fun j hj => ?_, ?_⟩, by rw [honly]; rfl, hst, hgen, hbytes, ?_, ?_, fun j hj => ?_⟩
  · have := hsends j hj
    rwa [State.gate_setGate_ne _ _ hj] at this
  · rw [honly]
    rfl
  · have hr := hregs (Reg.gatChCfg i) (by unfold Reg.gatChCfg Reg.gatMerged; omega)
    unfold Gate.ctxHold Gate.field
    rw [hr]
    exact v.ctxHold_begun i n hlt
  · rw [hregs _ (by unfold Reg.gatChCmd Reg.gatMerged; omega)]
    exact v.err_begun i n
  · rw [hothers j hj, Gate.chan_begun, if_neg hj]

/-- An event of a gate: a bit of its fault register, and the report. -/
theorem State.raiseGate_eq (s : State) {g b code : Nat} (hg : g < 28) (hc : code ≠ 80) (opc : W16) (syn : W64) (cls : Bool)
    (hold : Option Nat) : ∃ e ks, e.source = code ∧ s.raiseGate g b code opc syn cls hold =
      { s.setGate g ((s.gate g).setReg Reg.gatFault ((s.gate g).reg Reg.gatFault ||| BitVec.ofNat 64 (2 ^ b))) with
        reports := s.reports ++ [e]
        outq := s.outq ++ ks } := by
  unfold raiseGate
  dsimp only
  rw [State.raise_gate _ _ _ hg hc]
  exact ⟨_, _, rfl, rfl⟩

theorem bit_or_pow (v : W64) (b : Nat) (hb : b < 64) : bit (v ||| BitVec.ofNat 64 (2 ^ b)) b = true := by
  unfold bit
  rw [BitVec.getLsbD_or, BitVec.getLsbD_ofNat, Nat.testBit_two_pow_self, decide_eq_true hb, Bool.and_self, Bool.or_true]

/-- The gate of an active context's refused START. -/
theorem State.gateStart_busy (s : State) {g i h : Nat} (hg : g < 28) (hl : (s.gate g).lost = false)
    (hr : State.reaches (s.gate g) i h = true) (ha : ((s.gate g).chan i).active = true) :
    let t := s.gateStart g i h
    GateTo g s t (t.gate g) ∧ (t.gate g).chans = (s.gate g).chans ∧ bit ((t.gate g).reg (Reg.gatChCmd i)) 29 = true ∧
      bit ((t.gate g).reg Reg.gatFault) 2 = true := by
  have he : s.gateStart g i h = (s.setGateErr g i true).raiseGate g 2 58 (accessOpcode (Reg.gatChCmd i)) 0 ((s.gate g).ctxClass i)
      (some ((s.gate g).ctxHold i)) := by
    unfold State.gateStart
    dsimp only
    rw [hl, hr, ha]
    rfl
  obtain ⟨e, ks, -, hraise⟩ := (s.setGateErr g i true).raiseGate_eq hg (b := 2) (code := 58) (by decide)
    (accessOpcode (Reg.gatChCmd i)) 0 ((s.gate g).ctxClass i) (some ((s.gate g).ctxHold i))
  have herr : s.setGateErr g i true = s.setGate g ((s.gate g).setField (Reg.gatChCmd i) 29 29 1) := rfl
  have hgt : (s.setGateErr g i true).gate g = (s.gate g).setField (Reg.gatChCmd i) 29 29 1 := by rw [herr, gate_setGate_same]
  rw [he, hraise, hgt, herr, setGate_setGate]
  generalize hv : (s.gate g).setField (Reg.gatChCmd i) 29 29 1 = v
  dsimp only
  have hgv (w : Gate) (r : List Report) (ks : List Packet) :
      State.gate { s.setGate g w with reports := r, outq := ks } g = w := gate_setGate_same s g w
  rw [hgv]
  refine ⟨⟨hgv _ _ _, fun j hj => ?_, rfl⟩, ?_, ?_, ?_⟩
  · have : State.gate { s.setGate g (v.setReg Reg.gatFault (v.reg Reg.gatFault ||| BitVec.ofNat 64 (2 ^ 2))) with
        reports := (s.setGate g v).reports ++ [e], outq := (s.setGate g v).outq ++ ks } j = s.gate j := gate_setGate_ne _ _ hj
    rw [this]
    exact Gate.sendsOn_refl _
  · rw [← hv]
    rfl
  · rw [Gate.reg_setReg_ne _ _ (by unfold Reg.gatChCmd Reg.gatFault; omega), ← hv, Gate.reg_setField, if_pos rfl,
      bit_setFld_at _ _ _ (by decide)]
    rfl
  · rw [show ∀ w, (v.setReg Reg.gatFault w).reg Reg.gatFault = w from fun w => Tab.get_set_same _ _ _ _]
    exact bit_or_pow _ 2 (by decide)

/-- A new state of a gate whose held requests then go out, and the error bit of a context's command cleared. -/
theorem State.released_spec (s : State) (g i : Nat) (v : Gate) :
    let t := (s.setGate g v).releaseStores.setGateErr g i false
    GateTo g s t (t.gate g) ∧ t.reports = s.reports ∧ ∀ j, (t.gate g).chan j = v.chan j := by
  have hr := gatesGoOn_releaseStores g (s.setGate g v)
  have hc := (releaseStores_spec (s.setGate g v)).2 g
  rw [gate_setGate_same] at hc
  dsimp only
  generalize (s.setGate g v).releaseStores = u at hr hc
  have hu : (u.setGateErr g i false) = u.setGate g ((u.gate g).setField (Reg.gatChCmd i) 29 29 0) := rfl
  have hgu : (u.setGateErr g i false).gate g = (u.gate g).setField (Reg.gatChCmd i) 29 29 0 := by rw [hu, gate_setGate_same]
  refine ⟨⟨rfl, fun j hj => ?_, ?_⟩, ?_, fun j => ?_⟩
  · have := hr.sendsOn j hj
    rwa [gate_setGate_ne _ _ hj, ← gate_setGate_ne u ((u.gate g).setField (Reg.gatChCmd i) 29 29 0) hj] at this
  · rw [hu, hr.only]
    rfl
  · rw [hu, hr.only]
    rfl
  · rw [hgu]
    exact hc.chan j

/-- An ABORT or DESTROY of a context, as its new gate. -/
theorem State.gateAbort_eq (s : State) {g i n : Nat} (hl : (s.gate g).lost = false) (hn : ((s.gate g).chan i).gen.toNat = n) :
    s.gateAbort g i n 15 = (s.setGate g ((s.gate g).abortChan i)).releaseStores.setGateErr g i false := by
  unfold State.gateAbort State.reaches
  dsimp only
  simp only [hl, hn, beq_self_eq_true, Bool.true_or, Bool.not_true, Bool.or_self, Bool.false_eq_true, if_false, ne_eq,
    not_true_eq_false]
  rfl

theorem State.gateDestroy_eq (s : State) {g i n : Nat} (hl : (s.gate g).lost = false) (hn : ((s.gate g).chan i).gen.toNat = n) :
    s.gateDestroy g i n 15 = (s.setGate g ((s.gate g).destroyChan i)).releaseStores.setGateErr g i false := by
  unfold State.gateDestroy State.reaches
  dsimp only
  simp only [hl, hn, beq_self_eq_true, Bool.true_or, Bool.not_true, Bool.or_self, Bool.false_eq_true, if_false, ne_eq,
    not_true_eq_false]
  rfl

theorem Gate.chan_abortChan (v : Gate) (i : Nat) (h : (v.chan i).st = .run) : (v.abortChan i).chan i = draining (v.chan i) 6
    true := by
  unfold Gate.abortChan
  dsimp only
  rw [if_pos h, Gate.chan_dropUnsent, Gate.chan_setChan, if_pos rfl]
  rfl

theorem Gate.chan_abortChan_done (v : Gate) (i : Nat) (h : (v.chan i).st = .done) : (v.abortChan i).chan i =
    { v.chan i with late := true } := by
  unfold Gate.abortChan
  dsimp only
  rw [if_neg (by rw [h]; decide), Gate.chan_setChan, if_pos rfl]
  unfold Chan.abort
  rw [h]

theorem Gate.chan_destroyChan (v : Gate) (i : Nat) (h : (v.chan i).st ≠ .wait) : (v.destroyChan i).chan i = destroyed (v.chan i)
    := by
  unfold Gate.destroyChan
  dsimp only
  rw [Gate.chan_modChan, if_pos rfl]
  split
  · next hrun =>
    rw [Gate.chan_abortChan _ _ hrun]
    unfold destroyed aborted
    rw [hrun]
    rfl
  · unfold destroyed aborted Chan.destroy Chan.abort
    generalize v.chan i = c at *
    cases hst : c.st <;> simp_all

/-! ### Store requests that time out or wait no longer (R315, R324, R325) -/

section
variable {g : Nat} {r : StoreReq} {p : Nat × Nat × Nat}

/-- A timed-out request of one part, with retries left: its context runs on, and the request waits for its backoff. -/
theorem State.failStore_timed (s : State) (hp : r.parts = [p]) (hop : r.msg.op ≠ 0x04) (hrun : ((s.gate g).chan p.1).st = .run)
    (hleft : r.retries < (s.gate g).retryLimit) :
    let t := s.failStore g r 4 0 true false
    GateTo g s t (t.gate g) ∧ t.reports = s.reports ∧ (t.gate g).chans = (s.gate g).chans ∧ ∃ x ∈ (t.gate g).store, RetryOf r x
        p ∧
      ((∀ o ∈ (s.gate g).store.erase r, o.tag ≠ r.tag) → x = { r with retries := r.retries + 1, backoff := true, heldBack :=
          false }) := by
  obtain ⟨n, x, htry, hx⟩ := retryOf_tagged { s.gate g with store := (s.gate g).store.erase r } (r := r) (p := p)
    (x := { r with msg := r.msg, parts := [p], retries := r.retries + 1, backoff := true, heldBack := false, got := r.got })
    ⟨rfl, rfl, rfl, rfl, rfl⟩ (((s.gate g).store.erase r).any fun o => o.tag == r.tag)
  have he : s.failStore g r 4 0 true false = (s.setGate g { s.gate g with
      nextTag := n, store := (s.gate g).store.erase r ++ [x] }).releaseStores := by
    unfold State.failStore
    dsimp only
    rw [hp, List.foldl_cons, List.foldl_nil]
    refine congrArg State.releaseStores ?_
    unfold State.failPart modGate
    dsimp only
    rw [gate_setGate_same]
    have hc (c : Nat) : Gate.chan { s.gate g with store := (s.gate g).store.erase r } c = (s.gate g).chan c := rfl
    have hlim : Gate.retryLimit { s.gate g with store := (s.gate g).store.erase r } = (s.gate g).retryLimit := rfl
    rw [hc, hrun, hlim, if_neg (by decide), if_neg (by decide), if_neg (by simp; omega), if_neg hop, setGate_setGate, hp]
    have htry' := htry
    simp only [List.length_singleton, Nat.le_refl, if_true, Bool.not_false]
    rw [htry']
  have hx' : (∀ o ∈ (s.gate g).store.erase r, o.tag ≠ r.tag) → x = { r with retries := r.retries + 1, backoff := true, heldBack := false } := by
    intro hall
    have hany : (((s.gate g).store.erase r).any fun o => o.tag == r.tag) = false := by
      rw [List.any_eq_false]
      exact fun o ho h => hall o ho (beq_iff_eq.mp h)
    rw [hany] at htry
    have := congrArg Prod.snd htry
    rw [← show _ = x from this, ← hp]
    rfl
  dsimp only
  rw [he]
  generalize hv : ({ s.gate g with nextTag := n, store := (s.gate g).store.erase r ++ [x] } : Gate) = v
  have hr := gatesGoOn_releaseStores g (s.setGate g v)
  have hgt := (releaseStores_spec (s.setGate g v)).2 g
  rw [gate_setGate_same] at hgt
  obtain ⟨-, hchans, -⟩ := hgt.sendsOn
  have ⟨_, _, _, hsent, _⟩ := hx
  refine ⟨⟨rfl, fun j hj => ?_, ?_⟩, ?_, ?_, x, hgt.store x ?_ hsent, hx, hx'⟩
  · have := hr.sendsOn j hj
    rwa [gate_setGate_ne _ _ hj] at this
  · rw [hr.only]
    rfl
  · rw [hr.only]
    rfl
  · rw [hchans, ← hv]
  · rw [← hv]
    exact List.mem_append_right _ (List.mem_singleton_self x)

/-- A timed-out request of one part, with no retry left: its context drains with cause 4, and its event says so. -/
theorem State.failStore_out (s : State) (hg : g < 28) (hp : r.parts = [p]) (hrun : ((s.gate g).chan p.1).st = .run)
    (hout : (s.gate g).retryLimit ≤ r.retries) :
    let t := s.failStore g r 4 0 true false
    GateTo g s t (t.gate g) ∧ ((t.gate g).chan p.1).st = .draining ∧ ((t.gate g).chan p.1).cause = 4 ∧
      ((t.gate g).chan p.1).used = r.retries ∧ bit ((t.gate g).reg Reg.gatFault) 0 = true ∧
      ∃ e, t.reports = s.reports ++ [e] ∧ e.source = 56 := by
  have hf : s.failStore g r 4 0 true false = ((s.modGate g fun g => { g with store := g.store.erase r }).haltGate g p.1 4
      (BitVec.ofNat 8 0) r.retries (msgOpcode r.msg)).releaseStores := by
    unfold State.failStore
    dsimp only
    rw [hp, List.foldl_cons, List.foldl_nil]
    refine congrArg State.releaseStores ?_
    unfold State.failPart modGate
    dsimp only
    rw [gate_setGate_same]
    have hc (c : Nat) : Gate.chan { s.gate g with store := (s.gate g).store.erase r } c = (s.gate g).chan c := rfl
    have hlim : Gate.retryLimit { s.gate g with store := (s.gate g).store.erase r } = (s.gate g).retryLimit := rfl
    rw [hc, hrun, hlim, if_neg (by decide), if_neg (by decide), if_pos (by simp; omega)]
  generalize hb : (s.gate g).store.erase r = st at hf
  have hm : (s.modGate g fun g => { g with store := g.store.erase r }) = s.setGate g { s.gate g with store := st } := by
    rw [← hb]
    rfl
  rw [hm] at hf
  have hgs : (s.setGate g { s.gate g with store := st }).gate g = { s.gate g with store := st } := gate_setGate_same _ _ _
  have hrun' : (Gate.chan { s.gate g with store := st } p.1).st = .run := hrun
  have hchan := chan_haltGate (s := s.setGate g { s.gate g with store := st }) (gi := g) (i := p.1) (by rw [hgs]; exact hrun') 4
    (BitVec.ofNat 8 0) r.retries (msgOpcode r.msg) p.1
  rw [if_pos rfl, hgs] at hchan
  obtain ⟨v, e, ks, hsrc, hfault, hh⟩ : ∃ v e ks, e.source = 56 ∧ bit (v.reg Reg.gatFault) 0 = true ∧
      (s.setGate g { s.gate g with store := st }).haltGate g p.1 4 (BitVec.ofNat 8 0) r.retries (msgOpcode r.msg) =
        { s.setGate g v with reports := s.reports ++ [e], outq := s.outq ++ ks } := by
    unfold State.haltGate
    dsimp only
    rw [hgs, if_pos hrun', setGate_setGate]
    generalize (Gate.setChan { s.gate g with store := st } p.1 _).dropUnsent p.1 = v
    obtain ⟨e, ks, hsrc, he⟩ := (s.setGate g v).raiseGate_eq hg (b := 0) (code := 56) (by decide) (msgOpcode r.msg)
      (BitVec.ofNat 64 ((v.handle g p.1).toNat * 2 ^ 32 + (v.chan p.1).status)) (v.ctxClass p.1) (some (v.ctxHold p.1))
    rw [gate_setGate_same, setGate_setGate] at he
    refine ⟨_, e, ks, hsrc, ?_, he⟩
    rw [show ∀ w, (v.setReg Reg.gatFault w).reg Reg.gatFault = w from fun w => Tab.get_set_same _ _ _ _]
    exact bit_or_pow _ 0 (by decide)
  rw [hh] at hf hchan
  have hgv : State.gate { s.setGate g v with reports := s.reports ++ [e], outq := s.outq ++ ks } g = v := gate_setGate_same s g v
  have hgj (j : Nat) (hj : j ≠ g) : State.gate { s.setGate g v with reports := s.reports ++ [e], outq := s.outq ++ ks } j = s.gate j :=
    gate_setGate_ne s v hj
  rw [hgv] at hchan
  dsimp only
  rw [hf]
  have hr := gatesGoOn_releaseStores g { s.setGate g v with reports := s.reports ++ [e], outq := s.outq ++ ks }
  have hgt := (releaseStores_spec { s.setGate g v with reports := s.reports ++ [e], outq := s.outq ++ ks }).2 g
  rw [hgv] at hgt
  obtain ⟨-, -, -, -, hregs, -⟩ := hgt.sendsOn
  refine ⟨⟨rfl, fun j hj => ?_, ?_⟩, ?_, ?_, ?_, ?_, e, ?_, hsrc⟩
  · have := hr.sendsOn j hj
    rwa [hgj j hj] at this
  · rw [hr.only]
    rfl
  · rw [hgt.chan, hchan]
    rfl
  · rw [hgt.chan, hchan]
    rfl
  · rw [hgt.chan, hchan]
    rfl
  · rw [hregs _ (by decide)]
    exact hfault
  · rw [hr.only]

end

theorem Gate.freeTag_lt {v : Gate} {n : Nat} (h : v.freeTag = some n) : n < 8192 := by
  unfold Gate.freeTag at h
  dsimp only at h
  split at h
  · exact absurd h nofun
  · obtain ⟨i, -, hi⟩ := List.mem_map.mp (List.mem_of_find?_eq_some h)
    rw [← hi]
    exact Nat.mod_lt _ (by decide)

/-- The oldest group of the merger leaves as one read. -/
theorem State.mergeWait_spec (s : State) (g : Nat) {m : MergeGroup} {rest : List MergeGroup} {tag : Nat}
    (hm : (s.gate g).merger = m :: rest) (ht : (s.gate g).freeTag = some tag) :
    let t := (s.modGate g fun v => v.sendGroup 0).releaseStores
    ∃ r, GateTo g s t (t.gate g) ∧ t.reports = s.reports ∧ ((s.gate g).waiting = [] → (t.gate g).merger = rest) ∧
      r ∈ (t.gate g).store ∧ r.tag = tag ∧ r.port = m.port ∧ r.parts = m.parts ∧ r.msg.op = 0x01 ∧
      r.msg.addr.toNat = m.lo % 2 ^ 48 ∧ r.msg.arg0.toNat = (m.hi - m.lo) % 2 ^ 32 := by
  obtain ⟨y, hport, hparts, -, htag, n, he⟩ := Gate.store_hold { s.gate g with merger := rest } m.port (Gate.groupReq m).msg m.parts true
  obtain ⟨htag, hmsg⟩ := htag tag ht
  have hs : (s.modGate g fun v => v.sendGroup 0) = s.setGate g { s.gate g with merger := rest, nextTag := n, store := y :: (s.gate g).store } := by
    unfold modGate
    refine congrArg (s.setGate g) ?_
    dsimp only
    unfold Gate.sendGroup
    rw [hm]
    exact he
  dsimp only
  rw [hs]
  generalize hv : ({ s.gate g with merger := rest, nextTag := n, store := y :: (s.gate g).store } : Gate) = v
  have hr := gatesGoOn_releaseStores g (s.setGate g v)
  obtain ⟨hk, hmg⟩ := (s.setGate g v).keepsRequests_releaseStores g
  rw [gate_setGate_same] at hk hmg
  obtain ⟨r, hr', hry⟩ := hk.tagged y (by rw [← hv]; exact List.mem_cons_self) (by rw [htag]; exact Gate.freeTag_lt ht)
  have hsame : r.tag = y.tag ∧ r.port = y.port ∧ r.parts = y.parts ∧ r.msg = y.msg := by
    rcases hry with rfl | rfl <;> exact ⟨rfl, rfl, rfl, rfl⟩
  obtain ⟨h1, h2, h3, h4⟩ := hsame
  refine ⟨r, ⟨rfl, fun j hj => ?_, ?_⟩, ?_, fun hw => ?_, hr', h1.trans htag, h2.trans hport, h3.trans hparts, ?_, ?_, ?_⟩
  · have := hr.sendsOn j hj
    rwa [gate_setGate_ne _ _ hj] at this
  · rw [hr.only]
    rfl
  · rw [hr.only]
    rfl
  · rw [hmg (by rw [← hv]; exact hw), ← hv]
  · rw [h4, hmsg]
    rfl
  · rw [h4, hmsg]
    exact BitVec.toNat_ofNat _ _
  · rw [h4, hmsg]
    exact BitVec.toNat_ofNat _ _

/-- Settles O28: a context issues with a request of it sent, held or merged; releases keep what waits. -/
theorem gateContextsAndStoreRequests : Obligations.GateContextsAndStoreRequests := by
  unfold Obligations.GateContextsAndStoreRequests
  refine ⟨fun g i s => ⟨fun hdown => ⟨fun h => ?_, fun gen => ⟨?_, ?_⟩⟩, fun hup hl => ⟨fun h hr ha ho hi => ?_, fun h hr ha => ?_,
    fun gen hgen hst => ?_, fun gen hgen hst => ?_, fun gen hgen hst => ?_, fun gen hgen e he => ?_⟩⟩,
    fun g s => ⟨fun tag r i a n hf hp hop hrun => ⟨fun hleft => ?_, fun hout => ?_⟩, fun m rest tag hm ht => ?_⟩⟩
  · exact congrArg Host.Outcome.next (exec_down_next _ hdown)
  · exact congrArg Host.Outcome.next (exec_down_next _ hdown)
  · exact congrArg Host.Outcome.next (exec_down_next _ hdown)
  · have h15 : (h = 15) ↔ h.toNat = 15 := ⟨fun e => by rw [e]; rfl, fun e => BitVec.eq_of_toNat_eq e⟩
    simp only [h15] at hr ho ⊢
    refine ⟨_, congrArg Host.Outcome.next (exec_up_next _ hup), ?_⟩
    refine State.gateStart_spec s h.isLt hl ?_ ha ho hi
    simpa [State.reaches, or_assoc] using hr
  · refine ⟨_, congrArg Host.Outcome.next (exec_up_next _ hup), State.gateStart_busy s g.isLt hl ?_ ha⟩
    unfold State.reaches
    rcases hr with rfl | hr
    · rfl
    · rw [hr, beq_self_eq_true, Bool.or_true]
  · obtain ⟨hto, hrep, hc⟩ := s.released_spec g i ((s.gate g).abortChan i)
    rw [← s.gateAbort_eq hl (congrArg BitVec.toNat hgen.symm)] at hto hrep hc
    refine ⟨_, congrArg Host.Outcome.next (exec_up_next _ hup), hto, hrep, (hc i).trans (Gate.chan_abortChan _ _ hst)⟩
  · obtain ⟨hto, hrep, hc⟩ := s.released_spec g i ((s.gate g).abortChan i)
    rw [← s.gateAbort_eq hl (congrArg BitVec.toNat hgen.symm)] at hto hrep hc
    refine ⟨_, congrArg Host.Outcome.next (exec_up_next _ hup), hto, (hc i).trans (Gate.chan_abortChan_done _ _ hst)⟩
  · obtain ⟨hto, hrep, hc⟩ := s.released_spec g i ((s.gate g).destroyChan i)
    rw [← s.gateDestroy_eq hl (congrArg BitVec.toNat hgen.symm)] at hto hrep hc
    refine ⟨_, congrArg Host.Outcome.next (exec_up_next _ hup), hto, hrep, (hc i).trans (Gate.chan_destroyChan _ _ hst)⟩
  · have hne : ((s.gate g).chan i).gen.toNat ≠ gen.toNat := fun h => hgen (BitVec.eq_of_toNat_eq h.symm)
    rcases he with rfl | rfl
    · refine congrArg Host.Outcome.next ((exec_up_next _ hup).trans ?_)
      unfold State.gateAbort State.reaches
      simp only [hl, beq_self_eq_true, Bool.true_or, Bool.not_true, Bool.or_self, Bool.false_eq_true, if_false, ne_eq, hne,
        not_false_eq_true, if_true]
      rfl
    · refine congrArg Host.Outcome.next ((exec_up_next _ hup).trans ?_)
      unfold State.gateDestroy State.reaches
      simp only [hl, beq_self_eq_true, Bool.true_or, Bool.not_true, Bool.or_self, Bool.false_eq_true, if_false, ne_eq, hne,
        not_false_eq_true, if_true]
      rfl
  · have he : exec (.storeTimeout g tag) s = .next (s.failStore g r 4 0 true false) := by
      change execStoreTimeout g tag s = _
      unfold execStoreTimeout
      rw [hf]
    exact ⟨_, he, s.failStore_timed hp hop hrun hleft⟩
  · have he : exec (.storeTimeout g tag) s = .next (s.failStore g r 4 0 true false) := by
      change execStoreTimeout g tag s = _
      unfold execStoreTimeout
      rw [hf]
    exact ⟨_, he, s.failStore_out g.isLt hp hrun hout⟩
  · obtain ⟨r, h⟩ := s.mergeWait_spec g hm ht
    exact ⟨_, r, rfl, h⟩

end Sys2Proof.Machine

namespace Sys2Proof.Machine
open Sys2Proof.Safety

/-! ### Accesses of the steward cores (R331, R332) -/

section
variable {s : State} {st n : Nat} {a : BitVec 48} {bytes : Nat} {x : W64}

theorem accessWidth_min {bytes : Nat} (h : Sys2Proof.accessWidth bytes = true) : min 8 bytes = bytes := by
  have h' : ((bytes = 1 ∨ bytes = 2) ∨ bytes = 4) ∨ bytes = 8 := by simpa [Sys2Proof.accessWidth] using h
  omega

theorem Place.ofAddr_sram (st : Nat) {a : Nat} (h : a < 0x10000000) : Place.ofAddr st a = .sram a := if_pos h

theorem Place.ofAddr_stc (st : Nat) {h o : Nat} (hh : h < 16) (ho : o < 0x1000) : Place.ofAddr st (0x13000000 + 0x1000 * h + o)
    = .stc h o := by
  have hb : Place.blocks (0x13000000 + 0x1000 * h + o) 0x13000000 = (h, o) := by
    have h1 : (0x13000000 + 0x1000 * h + o - 0x13000000) / 0x1000 = h := by omega
    have h2 : (0x13000000 + 0x1000 * h + o - 0x13000000) % 0x1000 = o := by omega
    unfold Place.blocks
    rw [h1, h2]
  unfold Place.ofAddr
  rw [if_neg (by omega), if_neg (by omega), if_neg (by omega), if_neg (by omega), if_neg (by omega), if_pos (by omega), hb]

theorem Place.ofAddr_croft (st : Nat) {m o : Nat} (hm : m < 26880) (ho : o < 0x10000) :
    Place.ofAddr st (0x400000000 + 0x10000 * m + o) = .croft m o := by
  have h1 : (0x400000000 + 0x10000 * m + o - 0x400000000) / 0x10000 = m := by omega
  have h2 : (0x400000000 + 0x10000 * m + o - 0x400000000) % 0x10000 = o := by omega
  unfold Place.ofAddr
  rw [if_neg (by omega), if_neg (by omega), if_neg (by omega), if_neg (by omega), if_neg (by omega), if_neg (by omega),
    if_neg (by omega), if_neg (by omega), if_neg (by omega), if_neg (by omega), if_pos (by omega), h1, h2]

/-- A write of STC_RESID_LIMIT stores its 32 bits. -/
theorem State.writeStc_residLimit (s : State) (h : Nat) (x : W64) (src : Option Nat) (ha : s.active.isSome = true) :
    s.writeStc h Reg.stcResidLimit 4 x src = s.setStc h ((s.stc h).setReg Reg.stcResidLimit
      (((s.stc h).reg Reg.stcResidLimit &&& ~~~ 0xFFFFFFFF) ||| (x &&& 0xFFFFFFFF))) := by
  have hf : ∃ d, findReg stcMap Reg.stcResidLimit = some d ∧ ∀ c : W64, d.write c x = ((c &&& ~~~ 0xFFFFFFFF) ||| (x &&& 0xFFFFFFFF)) :=
    ⟨_, rfl, fun c => by simp [RegDef.write]⟩
  obtain ⟨d, hd, hw⟩ := hf
  unfold State.writeStc
  rw [hd]
  dsimp only
  rw [if_neg (by simpa using Option.isSome_iff_ne_none.mp ha), if_neg (by decide), if_neg (by decide), if_neg (by decide), if_neg (by decide),
    if_neg (by decide), if_neg (by simp [idleOnly, closedOnly, Reg.stcResidLimit, Reg.stcMirror, Reg.stcNormPartLo,
        Reg.stcLsCfg,
      Reg.stcLsState, Reg.stcCfg]), if_neg (by simp [Reg.stcResidLimit, Reg.stcNormPartLo, Reg.stcLsCfg]), if_neg
          (fun h => absurd h.1 (by decide)), if_neg (by decide),
    if_neg (by decide), hw]

theorem State.coreLoad_sram (hr : s.coreReady st n = true) (ha : a.toNat < 0x10000000) (hw : Sys2Proof.accessWidth bytes = true)
    :
    s.coreLoad st n a bytes = s.setSteward st (loadedBy (s.steward st) n
      (BitVec.ofNat 64 (ofLe (Memory.read (s.steward st).sram a.toNat bytes)))) := by
  unfold State.coreLoad
  dsimp only
  rw [Place.ofAddr_sram _ ha, hr, accessWidth_min hw]
  rfl

theorem State.coreStore_sram (hr : s.coreReady st n = true) (ha : a.toNat < 0x10000000)
    (hw : Sys2Proof.accessWidth bytes = true) :
    s.coreStore st n a bytes x = s.setSteward st { s.steward st with
      sram := Memory.write (s.steward st).sram a.toNat (leBytes bytes x.toNat) } := by
  unfold State.coreStore
  dsimp only
  rw [Place.ofAddr_sram _ ha, hr, accessWidth_min hw]
  rfl

theorem State.core_nowhere (hr : s.coreReady st n = true) (ha : Place.ofAddr st a.toNat = .nowhere) :
    s.coreLoad st n a bytes = s.setSteward st (excepted (s.steward st) n) ∧
      s.coreStore st n a bytes x = s.setSteward st (excepted (s.steward st) n) := by
  unfold State.coreLoad State.coreStore
  dsimp only
  rw [ha, hr]
  exact ⟨rfl, rfl⟩

/-- A core's access to a croft's register leaves as a packet. -/
theorem State.core_croft {m o : Nat} (hr : s.coreReady st n = true) (ha : a.toNat = 0x400000000 + 0x10000 * m + o)
    (hm : m < 26880)
    (ho : o < 0x5000) (hb : bytes = State.placeWidth (.croft m o)) (hal : o % bytes = 0) :
    s.coreLoad st n a bytes = s.coreSend st n a false m (0x0F000000 + o) 0 ∧
      s.coreStore st n a bytes x = s.coreSend st n a true m (0x0F000000 + o) x := by
  have hp : Place.ofAddr st a.toNat = .croft m o := by rw [ha]; exact Place.ofAddr_croft st hm (by omega)
  have hv : coreVoid (.croft m o) a.toNat bytes = false := by
    have hw : bytes = 4 ∨ bytes = 8 := by
      rw [hb]
      unfold State.placeWidth
      dsimp only
      split
      · split
        · exact .inr rfl
        · exact .inl rfl
      · exact .inl rfl
    unfold coreVoid
    rw [← hb]
    have : a.toNat % bytes = 0 := by rcases hw with h | h <;> rw [h] at hal ⊢ <;> omega
    simp [this]
    omega
  unfold State.coreLoad State.coreStore
  dsimp only
  rw [hp, hr]
  dsimp only
  rw [hv]
  exact ⟨rfl, rfl⟩

/-- A store to STC_RESID_LIMIT, in one record. -/
theorem State.coreStore_residLimit {h : Nat} (hh : h < 16) (hr : s.coreReady st n = true) (hact : s.active.isSome = true)
    (ha : a.toNat = 0x13000000 + 0x1000 * h + Reg.stcResidLimit) :
    s.coreStore st n a 4 x = s.asOne fun t => (t.setStc h ((s.stc h).setReg Reg.stcResidLimit
      (((s.stc h).reg Reg.stcResidLimit &&& ~~~ 0xFFFFFFFF) ||| (x &&& 0xFFFFFFFF)))).storeToSet st n a := by
  have hp : Place.ofAddr st a.toNat = .stc h Reg.stcResidLimit := by rw [ha]; exact Place.ofAddr_stc st hh (by decide)
  have hv : coreVoid (.stc h Reg.stcResidLimit) a.toNat 4 = false := by
    have : a.toNat % 4 = 0 := by rw [ha]; unfold Reg.stcResidLimit; omega
    simp [coreVoid, placeWidth, this]
  unfold State.coreStore
  dsimp only
  rw [hp, hr]
  dsimp only
  rw [hv, if_neg (by decide), if_neg (by decide)]
  have hroute : s.coreRoute st a.toNat (.stc h Reg.stcResidLimit) = none := rfl
  rw [hroute]
  unfold State.writePlace
  dsimp only
  refine (congrArg s.asOne (funext fun s => if_pos rfl)).trans ?_
  refine State.asOne_congr (f := fun s => (s.writeStc h Reg.stcResidLimit 4 x).storeToSet st n a) ?_
  exact congrArg (fun t : State => t.storeToSet st n a) (s.writeStc_residLimit h x none hact)

/-- Two records sent one after the other are one. -/
theorem State.asOne_two {s : State} {i : Nat} {f : State → State} {u : State} {c : Change} {w : Nat × Nat}
    (hs : s.standby = some i)
    (hk : ∀ k ∈ s.outq, ∀ j, k.who = .shadow j → j < s.shadowNum)
    (hf : f s = u) (h1 : u.shadows = s.shadows ++ [{ num := s.shadowNum, changes := [c] },
        { num := s.shadowNum + 1, cores := [w] }])
    (h2 : u.outq = s.outq ++ [s.shadowPacket s.shadowNum, s.shadowPacket (s.shadowNum + 1)]) :
    s.asOne f = { u with
      shadows := s.shadows ++ [{ num := s.shadowNum, changes := [c], cores := [w] }]
      shadowNum := s.shadowNum + 1
      outq := s.outq ++ [s.shadowPacket s.shadowNum] } := by
  unfold State.asOne
  dsimp only
  rw [hf, hs, h1, h2, List.drop_left, List.take_left]
  dsimp only
  have hfil : (s.outq ++ [s.shadowPacket s.shadowNum, s.shadowPacket (s.shadowNum + 1)]).filter
      (fun k => !(match k.who with | .shadow n => decide (s.shadowNum < n) | _ => false)) = s.outq ++
          [s.shadowPacket s.shadowNum] := by
    rw [List.filter_append]
    congr 1
    · rw [List.filter_eq_self]
      intro k hk'
      split
      · next j hj =>
        have := hk k hk' j hj
        simp
        omega
      · rfl
    · simp [shadowPacket]
  rw [if_neg (show ¬(some i).isNone = true from Bool.false_ne_true), if_pos rfl]
  refine congrArg₂ (fun (l : List Shadow) (ks : List Packet) => { u with shadows := l, shadowNum := s.shadowNum + 1, outq := ks }) rfl ?_
  exact (Eq.trans (by congr) hfil)

theorem State.setStc_sent (s : State) (h : Nat) (c : Stc) {i : Nat} (hs : s.standby = some i) :
    s.setStc h c = { s with stcs := Tab.set (fun _ => ({} : Stc)) s.stcs h c }.sendShadow { num := 0, changes := [.stc h c] } :=
        by
  have hs' : State.standby { s with stcs := Tab.set (fun _ => ({} : Stc)) s.stcs h c } = some i := hs
  unfold State.setStc State.shadow
  rw [hs']
  rfl

theorem State.setStc_alone (s : State) (h : Nat) (c : Stc) (hs : s.standby = none) :
    s.setStc h c = { s with stcs := Tab.set (fun _ => ({} : Stc)) s.stcs h c } := by
  have hs' : State.standby { s with stcs := Tab.set (fun _ => ({} : Stc)) s.stcs h c } = none := hs
  unfold State.setStc State.shadow
  rw [hs']
  rfl

/-- The access of a core that failed is over, with an exception. -/
def failedAccess (v : Steward) (n : Nat) : Steward := { excepted v n with access := Tab.set (fun _ => none) v.access n none }

theorem State.coreFail_logged (s : State) (st n code : Nat) (c : CoreAccess) (hb : bit (s.reg (Reg.stwBuserrInfo st)) 31 = true)
    :
    s.coreFail st n code c = s.setSteward st (failedAccess (s.steward st) n) := by
  unfold State.coreFail
  dsimp only
  rw [State.reg_setSteward, hb]
  rfl

theorem State.coreFail_first (s : State) (st n code : Nat) (c : CoreAccess) (hb : bit (s.reg (Reg.stwBuserrInfo st)) 31 = false)
    :
    s.coreFail st n code c = (((s.setSteward st (failedAccess (s.steward st) n)).setNum (Reg.stwBuserrInfo st)
      (2 ^ 31 + b2n c.store * 2 ^ 30 + n % 16 * 2 ^ 16 + code % 256 * 2 ^ 8)).setNum (Reg.stwBuserrAddrLo st)
      (c.addr.toNat % 2 ^ 32)).setNum (Reg.stwBuserrAddrHi st) (c.addr.toNat / 2 ^ 32) := by
  unfold State.coreFail failedAccess excepted
  dsimp only
  rw [State.reg_setSteward, hb, if_neg (by decide)]

theorem State.setNum_frame (u : State) (o p q x y z : Nat) : ((u.setNum o x).setNum p y).setNum q z =
    { u with regs := (((u.setNum o x).setNum p y).setNum q z).regs } := rfl

/-- What the bus-error registers read after three writes. -/
theorem State.buserr_read (s : State) (st x y z : Nat) (hx : x < 2 ^ 64) (hy : y < 2 ^ 64) (hz : z < 2 ^ 64) :
    let t := ((s.setNum (Reg.stwBuserrInfo st) x).setNum (Reg.stwBuserrAddrLo st) y).setNum (Reg.stwBuserrAddrHi st) z
    t.num (Reg.stwBuserrInfo st) = x ∧ t.num (Reg.stwBuserrAddrLo st) = y ∧ t.num (Reg.stwBuserrAddrHi st) = z := by
  refine ⟨?_, ?_, ?_⟩
  · rw [State.num_setNum _ _ _ _ hz, if_neg (by unfold Reg.stwBuserrInfo Reg.stwBuserrAddrHi; omega),
      State.num_setNum _ _ _ _ hy, if_neg (by unfold Reg.stwBuserrInfo Reg.stwBuserrAddrLo; omega),
      State.num_setNum _ _ _ _ hx, if_pos rfl]
  · rw [State.num_setNum _ _ _ _ hz, if_neg (by unfold Reg.stwBuserrAddrLo Reg.stwBuserrAddrHi; omega),
      State.num_setNum _ _ _ _ hy, if_pos rfl]
  · rw [State.num_setNum _ _ _ _ hz, if_pos rfl]

theorem State.coreFail_spec (s : State) (st n : Nat) (c : CoreAccess) (hb : bit (s.reg (Reg.stwBuserrInfo st)) 31 = false)
    (hn : n < 16) : let t := s.coreFail st n 0xFF c
    t = { s.setSteward st (failedAccess (s.steward st) n) with regs := t.regs } ∧
      t.num (Reg.stwBuserrInfo st) = 2 ^ 31 + (if c.store = true then 2 ^ 30 else 0) + n * 2 ^ 16 + 0xFF00 ∧
      t.num (Reg.stwBuserrAddrLo st) + t.num (Reg.stwBuserrAddrHi st) * 2 ^ 32 = c.addr.toNat := by
  have ha := c.addr.isLt
  have hle : b2n c.store ≤ 1 := by cases c.store <;> decide
  have hs : (if c.store = true then 2 ^ 30 else 0) = b2n c.store * 2 ^ 30 := by cases c.store <;> simp [b2n]
  dsimp only
  rw [s.coreFail_first st n 0xFF c hb]
  generalize s.setSteward st (failedAccess (s.steward st) n) = u
  obtain ⟨h1, h2, h3⟩ := u.buserr_read st (2 ^ 31 + b2n c.store * 2 ^ 30 + n % 16 * 2 ^ 16 + 0xFF % 256 * 2 ^ 8)
    (c.addr.toNat % 2 ^ 32) (c.addr.toNat / 2 ^ 32) (by omega) (by omega) (by omega)
  generalize hw : (2 ^ 31 + b2n c.store * 2 ^ 30 + n % 16 * 2 ^ 16 + 0xFF % 256 * 2 ^ 8) = w at h1 h2 h3 ⊢
  refine ⟨State.setNum_frame _ _ _ _ _ _ _, ?_, ?_⟩
  · rw [h1, hs]
    omega
  · rw [h2, h3]
    omega

/-- A core's answer gives it the value. -/
theorem State.answer_core (s : State) {k : Packet} {st : Stw} {n : Fin 16} {c : CoreAccess} (hwho : k.who = .core st n)
    (hc : s.coreAccess st n = some c)
    (hop : k.op = 0x14) (hpo : k.poison = false) (htag : k.tag = c.tag) (hst : c.store = false) :
    s.answer k = (s.take k).setSteward st (loadedBy (s.steward st) n (k.opdata.setWidth 64)) := by
  have hc' : (s.take k).coreAccess st n = some c := hc
  unfold State.answer
  dsimp only
  rw [hwho]
  dsimp only
  unfold State.coreAnswer
  rw [hc']
  dsimp only
  rw [if_neg (by rw [htag]; exact not_not_intro rfl), hpo, if_neg (by decide), if_neg (by rw [hop]; decide), hst]
  rfl

/-- The store's access is over with the record. -/
theorem State.storeToSet_sent (s : State) (st n : Nat) (a : BitVec 48) {i : Nat} (hs : s.standby = some i) :
    s.storeToSet st n a = (s.setSteward st { s.steward st with
      access := Tab.set (fun _ => none) (s.steward st).access n (some { addr := a, store := true, tag := s.coreTag n })
          }).sendShadow
      { num := 0, cores := [(st, n)] } := by
  unfold State.storeToSet State.waitFor
  dsimp only
  have := standby_setSteward_access s st (Tab.set (fun _ => none) (s.steward st).access n (some { addr := a, store := true, tag := s.coreTag n }))
  rw [hs] at this
  unfold State.modSteward
  rw [this]
  rfl

/-- The active endpoint of records does not depend on what the cores access. -/
theorem State.active_setSteward_access (s : State) (i : Nat) (l : List (Nat × Option CoreAccess)) :
    (s.setSteward i { s.steward i with access := l }).active = s.active := by
  have hrole (j : Nat) : ((s.setSteward i { s.steward i with access := l }).steward j).role = (s.steward j).role := by
    rw [steward_setSteward]
    split
    · next hj => rw [hj]
    · rfl
  simp only [State.active, hrole]


/-- A change of a step controller by a core's store: one record of both. -/
theorem State.storeInSet_sent (s : State) (h : Nat) (c : Stc) (st n : Nat) (a : BitVec 48) {i : Nat} (hs : s.standby = some i)
    (hk : ∀ k ∈ s.outq, ∀ j, k.who = .shadow j → j < s.shadowNum) :
    (s.asOne fun s => (s.setStc h c).storeToSet st n a) =
      shadowed ({ s with stcs := Tab.set (fun _ => ({} : Stc)) s.stcs h c }.setSteward st { s.steward st with
        access := Tab.set (fun _ => none) (s.steward st).access n
          (some { addr := a, store := true, tag := BitVec.ofNat 16 (s.freeCtr % 4096 * 16 + n) }) }) i
        { num := 0, changes := [.stc h c], cores := [(st, n)] } := by
  have h1 := s.setStc_sent h c hs
  generalize hu : ({ s with stcs := Tab.set (fun _ => ({} : Stc)) s.stcs h c } : State) = u at h1
  have hus : u.standby = some i := by rw [← hu]; exact hs
  have hua : u.active = s.active := by rw [← hu]; rfl
  have husd : u.shadows = s.shadows ∧ u.shadowNum = s.shadowNum ∧ u.outq = s.outq ∧ u.freeCtr = s.freeCtr := by
    rw [← hu]
    exact ⟨rfl, rfl, rfl, rfl⟩
  have hust : u.steward st = s.steward st := by rw [← hu]; rfl
  obtain ⟨hsh, hn, hq, hfr⟩ := husd
  have h2 := (u.sendShadow { num := 0, changes := [.stc h c] }).storeToSet_sent st n a (i := i) hus
  rw [show (u.sendShadow { num := 0, changes := [.stc h c] }).steward st = s.steward st from hust,
    show (u.sendShadow { num := 0, changes := [.stc h c] }).coreTag n = BitVec.ofNat 16 (s.freeCtr % 4096 * 16 + n) from
      congrArg (fun m => BitVec.ofNat 16 (m % 4096 * 16 + n)) hfr] at h2
  generalize hl : Tab.set (fun _ => none) (s.steward st).access n
    (some { addr := a, store := true, tag := BitVec.ofNat 16 (s.freeCtr % 4096 * 16 + n) }) = l at h2 ⊢
  have hact := active_setSteward_access u st l
  have hstb := standby_setSteward_access u st l
  rw [hust] at hact hstb
  generalize ({ s.steward st with access := l } : Steward) = w at h2 hact hstb ⊢
  have hpk (v : State) (ha : v.active = s.active) (hb : v.standby = some i) (m : Nat) : v.shadowPacket m = s.shadowPacket m := by
    unfold State.shadowPacket State.activeEndpoint
    rw [ha, hb, hs]
  have hp : recordPacket (u.setSteward st w) i s.shadowNum = s.shadowPacket s.shadowNum := by
    unfold recordPacket State.shadowPacket State.activeEndpoint State.control
    rw [hact.trans hua, hs]
    rfl
  have hv (x : Shadow) : ((u.sendShadow { num := 0, changes := [.stc h c] }).setSteward st w).sendShadow x =
      { u.setSteward st w with
        shadows := s.shadows ++ [{ num := s.shadowNum, changes := [.stc h c] }, { x with num := s.shadowNum + 1 }]
        shadowNum := s.shadowNum + 2
        outq := s.outq ++ [s.shadowPacket s.shadowNum, s.shadowPacket (s.shadowNum + 1)] } := by
    have ho : s.outq ++ [s.shadowPacket s.shadowNum, s.shadowPacket (s.shadowNum + 1)] =
        (u.outq ++ [u.shadowPacket u.shadowNum]) ++
        [State.shadowPacket ((u.sendShadow { num := 0, changes := [.stc h c] }).setSteward st w) (u.shadowNum + 1)] := by
      rw [hpk u hua hus, hpk ((u.sendShadow { num := 0, changes := [.stc h c] }).setSteward st w) (hact.trans hua)
          (hstb.trans hus), hq, hn, List.append_assoc]
      rfl
    have hd : s.shadows ++ [({ num := s.shadowNum, changes := [.stc h c] } : Shadow), { x with num := s.shadowNum + 1 }] =
        (u.shadows ++ [{ num := u.shadowNum, changes := [.stc h c] }]) ++ [{ x with num := u.shadowNum + 1 }] := by
      rw [hsh, hn, List.append_assoc]
      rfl
    rw [ho, hd, ← hn]
    rfl
  have hf : (fun s : State => (s.setStc h c).storeToSet st n a) s = _ :=
    ((congrArg (fun v : State => v.storeToSet st n a) h1).trans h2).trans (hv _)
  refine (State.asOne_two (c := .stc h c) (w := (st, n)) hs hk hf rfl rfl).trans ?_
  unfold shadowed
  have hn' : (u.setSteward st w).shadowNum = s.shadowNum := hn
  have hsh' : (u.setSteward st w).shadows = s.shadows := hsh
  have hq' : (u.setSteward st w).outq = s.outq := hq
  rw [hn', hsh', hq', hp]

end

/-- Settles O45: each place answers its core, and a store in the set is one record. -/
theorem stewardCoresAccess : Obligations.StewardCoresAccess := by
  unfold Obligations.StewardCoresAccess
  intro st n s
  refine ⟨fun hr addr bytes x hw => ⟨fun ha => ?_, fun ha => ?_, fun h ha hb hact => ⟨fun hs => ?_, fun i hs hk => ?_⟩,
    fun m o ha hm ho hb hal i store hi => ?_⟩, fun c hc => ⟨fun hbit => ?_, fun hbit => ?_, fun k hk ht hwho hop hpo htag hst =>
        ?_⟩⟩
  · rw [State.exec_stewardLoad st n addr hw, State.exec_stewardStore st n addr x hw]
    exact ⟨congrArg _ (State.coreLoad_sram hr ha hw), congrArg _ (State.coreStore_sram hr ha hw)⟩
  · rw [State.exec_stewardLoad st n addr hw, State.exec_stewardStore st n addr x hw]
    exact ⟨congrArg _ (State.core_nowhere (x := x) hr ha).1, congrArg _ (State.core_nowhere hr ha).2⟩
  · subst hb
    rw [State.exec_stewardStore st n addr x hw, State.coreStore_residLimit h.isLt hr hact ha, State.asOne_of_alone _ hs]
    generalize ((s.stc h).setReg Reg.stcResidLimit (((s.stc h).reg Reg.stcResidLimit &&& ~~~ 0xFFFFFFFF) |||
        (x &&& 0xFFFFFFFF))) = c
    rw [State.setStc_alone s h c hs]
    have hs' : State.standby { s with stcs := Tab.set (fun _ => ({} : Stc)) s.stcs h c } = none := hs
    rw [State.storeToSet_of_alone _ _ _ hs']
    refine congrArg Host.Outcome.next ?_
    unfold State.retireStore
    dsimp only
    rw [State.steward_setSteward, if_pos rfl, State.setSteward_setSteward]
    dsimp only
    rw [Tab.set_set]
    rfl
  · subst hb
    rw [State.exec_stewardStore st n addr x hw, State.coreStore_residLimit h.isLt hr hact ha]
    generalize ((s.stc h).setReg Reg.stcResidLimit (((s.stc h).reg Reg.stcResidLimit &&& ~~~ 0xFFFFFFFF) |||
        (x &&& 0xFFFFFFFF))) = c
    have := State.storeInSet_sent s h c st n addr hs hk
    exact congrArg Host.Outcome.next this
  · have he : exec i s = .next (s.coreSend st n addr store m (0x0F000000 + o) (if store = true then x else 0)) := by
      obtain ⟨hl, hst⟩ := State.core_croft (x := x) hr ha hm ho hb hal
      rcases hi with ⟨rfl, rfl⟩ | ⟨rfl, rfl⟩
      · exact (State.exec_stewardLoad st n addr hw).trans (congrArg _ hl)
      · exact (State.exec_stewardStore st n addr x hw).trans (congrArg _ hst)
    refine ⟨_, { State.control (if store then 0x12 else 0x13) (0x7100 + st) m 3 with
      tag := s.coreTag n, offset := BitVec.ofNat 32 (0x0F000000 + o), opdata := (if store = true then x else 0).setWidth 96
      who := .core st n }, he, rfl, ?_, ?_, ?_, ?_, rfl, rfl, fun hst => by rw [hst]; rfl, rfl⟩
    · cases store <;> rfl
    · exact toNat_ofNat_of_lt (by omega)
    · exact toNat_ofNat_of_lt (by omega)
    · exact toNat_ofNat_of_lt (by omega)
  · obtain ⟨h1, h2, h3⟩ := s.coreFail_spec st n c hbit n.isLt
    have he : exec (.stewardAccessTimeout st n) s = .next (s.coreFail st n 0xFF c) := by
      change execStewardAccessTimeout st n s = _
      unfold execStewardAccessTimeout
      rw [hc]
    exact ⟨_, he, h1, h2, h3⟩
  · have he : exec (.stewardAccessTimeout st n) s = .next (s.coreFail st n 0xFF c) := by
      change execStewardAccessTimeout st n s = _
      unfold execStewardAccessTimeout
      rw [hc]
    exact he.trans (congrArg _ (s.coreFail_logged st n 0xFF c hbit))
  · have he : exec (.regData k) s = .next (s.asOne fun s => if k.op = 0x14 then s.answer k else s) := State.inTurn_eq _ hk ht
    have ha := s.answer_core hwho hc hop hpo htag hst
    have hf : (fun s : State => if k.op = 0x14 then s.answer k else s) s = s.answer k := if_pos hop
    have hsh : (if k.op = 0x14 then s.answer k else s).shadows = s.shadows := by
      rw [if_pos hop, ha]
      rfl
    rw [he, State.asOne_of_shadows (f := fun s => if k.op = 0x14 then s.answer k else s) hsh]
    exact congrArg Host.Outcome.next (hf.trans ha)

end Sys2Proof.Machine

namespace Sys2Proof.Machine
open Sys2Proof.Safety

/-! ### What tells the crofts and the partner (R334) -/

/-- Only packets handed out and shadow records differ. -/
def State.Tells (s t : State) : Prop := t = { s with shadows := t.shadows, shadowNum := t.shadowNum, outq := t.outq }

theorem State.Tells.refl (s : State) : State.Tells s s := rfl

theorem State.Tells.trans {s t u : State} (h : State.Tells s t) (h' : State.Tells t u) : State.Tells s u := by
  unfold State.Tells at *
  rw [h', h]

theorem State.Tells.stc {s t : State} (h : State.Tells s t) (j : Nat) : t.stc j = s.stc j := by rw [h]; rfl

theorem State.tells_publish (s : State) (ks : List Packet) : State.Tells s (s.publish ks) := by
  unfold State.publish State.waitFor
  split
  · rfl
  · unfold State.perform State.Tells
    dsimp only [List.foldl_nil]
    rw [List.append_nil]
    rfl

theorem State.tells_asOne (s : State) (f : State → State) : State.Tells (f s) (s.asOne f) := State.asOne_eq s f

/-- The step controller of holding h becomes c, and only what tells of it differs besides. -/
structure State.StcSet (h : Nat) (c : Stc) (s t : State) : Prop where
  stcs : t.stcs = Tab.set (fun _ => ({} : Stc)) s.stcs h c
  only : t = { s with stcs := t.stcs, shadows := t.shadows, shadowNum := t.shadowNum, outq := t.outq }

theorem State.stcSet_setStc (s : State) (h : Nat) (c : Stc) : State.StcSet h c s (s.setStc h c) :=
  ⟨State.setStc_stcs s h c, State.onlyStcs_setStc s h c⟩

section
variable {h : Nat} {c d : Stc} {s t u : State}

theorem State.StcSet.stc (hst : State.StcSet h c s t) : t.stc h = c := by
  unfold State.stc
  rw [hst.stcs, Tab.get_set_same]

theorem State.StcSet.stc_ne (hst : State.StcSet h c s t) {j : Nat} (hj : j ≠ h) : t.stc j = s.stc j := by
  unfold State.stc
  rw [hst.stcs, Tab.get_set_ne _ _ _ hj]

theorem State.StcSet.trans (hst : State.StcSet h c s t) (htu : State.StcSet h d t u) : State.StcSet h d s u := by
  refine ⟨by rw [htu.stcs, hst.stcs, Tab.set_set], ?_⟩
  exact htu.only.trans (congrArg (fun v : State =>
    { v with stcs := u.stcs, shadows := u.shadows, shadowNum := u.shadowNum, outq := u.outq }) hst.only)

theorem State.StcSet.tells (hst : State.StcSet h c s t) (htu : State.Tells t u) : State.StcSet h c s u := by
  refine ⟨by rw [htu]; exact hst.stcs, ?_⟩
  have : u.stcs = t.stcs := by rw [htu]
  rw [this]
  exact Eq.trans htu (congrArg (fun v : State => { v with shadows := u.shadows, shadowNum := u.shadowNum, outq := u.outq }) hst.only)

theorem State.StcSet.after (hst : State.Tells s t) (htu : State.StcSet h c t u) : State.StcSet h c s u := by
  have : t.stcs = s.stcs := by rw [hst]
  refine ⟨by rw [htu.stcs, this], ?_⟩
  exact htu.only.trans (congrArg (fun v : State =>
    { v with stcs := u.stcs, shadows := u.shadows, shadowNum := u.shadowNum, outq := u.outq }) hst)

theorem State.StcSet.asOne {f : State → State} (hst : State.StcSet h c s (f s)) : State.StcSet h c s (s.asOne f) :=
  hst.tells (s.tells_asOne f)

theorem State.StcSet.stcTo (hst : State.StcSet h c s t) : StcTo h s t := by
  refine ⟨fun j hj => hst.stc_ne hj, ?_⟩
  rw [hst.only]

theorem State.StcSet.reports (hst : State.StcSet h c s t) : t.reports = s.reports := by rw [hst.only]

end

/-- A source of a step controller: its bit and its event. -/
theorem State.raiseStc_eq (s : State) (h : Hold) (r b code : Nat) (opc : W16) : ∃ e : Report, e.source = code ∧ e.loc =
    State.locHolding h ∧
    s.raiseStc h r b code opc = { s.setStc h ((s.stc h).setReg r ((s.stc h).reg r ||| BitVec.ofNat 64 (2 ^ b))) with reports :=
        s.reports ++ [e] } := by
  refine ⟨State.holdingEvent (s.setStc h ((s.stc h).setReg r ((s.stc h).reg r ||| BitVec.ofNat 64 (2 ^ b)))) h code opc, rfl, rfl, ?_⟩
  unfold State.raiseStc
  dsimp only
  rw [State.raise_locHolding, State.setStc_reports]

/-! ### The loss-scale keeper (R165 to R167) -/

theorem signed_unsigned {x : Int} (h : -128 ≤ x) (h' : x ≤ 127) : signed 8 (unsigned 8 x) = x := by
  unfold signed unsigned
  norm_num
  split <;> omega

theorem signed_bounds (n : Nat) : -128 ≤ signed 8 n ∧ signed 8 n ≤ 127 := by
  unfold signed
  norm_num
  split <;> omega

theorem Stc.field_setNum (c : Stc) (o n hi lo : Nat) (hn : n < 2 ^ 64) : (c.setNum o n).field o hi lo = bitsOf n hi lo := by
  unfold Stc.field Stc.setNum fld
  rw [Stc.reg_setReg_same, BitVec.toNat_ofNat, Nat.mod_eq_of_lt hn]

/-- What the keeper's register reads. -/
theorem Stc.keeper_set (c : Stc) {e : Int} {n : Nat} (he : -128 ≤ e) (he' : e ≤ 127) (hn : n < 65536) :
    (c.setKeeper e n).exp = e ∧ (c.setKeeper e n).field Reg.stcLsState 31 16 = n := by
  have hu : unsigned 8 e < 256 := by
    unfold unsigned
    omega
  unfold Stc.setKeeper Stc.exp
  rw [Stc.field_setNum _ _ _ _ _ (by omega), Stc.field_setNum _ _ _ _ _ (by omega)]
  have h1 : bitsOf (n * 65536 + unsigned 8 e) 7 0 = unsigned 8 e := by
    simp only [bitsOf, Nat.reduceAdd, Nat.reduceSub, Nat.reducePow]
    omega
  have h2 : bitsOf (n * 65536 + unsigned 8 e) 31 16 = n := by
    simp only [bitsOf, Nat.reduceAdd, Nat.reduceSub, Nat.reducePow]
    omega
  rw [h1, h2]
  exact ⟨signed_unsigned he he', rfl⟩

theorem Stc.exp_bounds (c : Stc) : -128 ≤ c.exp ∧ c.exp ≤ 127 := signed_bounds _
theorem Stc.maxExp_le (c : Stc) : c.maxExp ≤ 127 := (signed_bounds _).2
theorem Stc.minExp_ge (c : Stc) : -128 ≤ c.minExp := (signed_bounds _).1

theorem Stc.keepClean_unfilled (c : Stc) (hd : c.field Reg.stcCfg 7 7 = 0) :
    c.keepClean = if c.field Reg.stcLsGrowth 15 0 = 0 ∨ c.field Reg.stcLsState 31 16 + 1 < c.field Reg.stcLsGrowth 15 0
      then c.setKeeper c.exp (min (c.field Reg.stcLsState 31 16 + 1) 65535)
      else c.setKeeper (if c.exp < c.maxExp then c.exp + 1 else c.exp) 0 := by
  unfold Stc.keepClean
  dsimp only
  refine if_neg fun h => ?_
  have hk (e : Int) (n : Nat) : (c.setKeeper e n).field Reg.stcCfg 7 7 = c.field Reg.stcCfg 7 7 := by
    unfold Stc.field Stc.setKeeper Stc.setNum
    rw [Stc.reg_setReg_ne _ _ (by decide)]
  have hz : Stc.field (if c.field Reg.stcLsGrowth 15 0 = 0 ∨ c.field Reg.stcLsState 31 16 + 1 < c.field Reg.stcLsGrowth 15 0
      then c.setKeeper c.exp (min (c.field Reg.stcLsState 31 16 + 1) 65535)
      else c.setKeeper (if c.exp < c.maxExp then c.exp + 1 else c.exp) 0) Reg.stcCfg 7 7 = 0 := by
    split
    · rw [hk, hd]
    · rw [hk, hd]
  obtain ⟨h1, -⟩ := h
  rw [hz] at h1
  exact absurd h1 (by decide)

theorem Stc.num_setNum (c : Stc) (o n j : Nat) (hn : n < 2 ^ 64) : (c.setNum o n).num j = if j = o then n else c.num j := by
  unfold Stc.num Stc.setNum
  rw [Stc.reg_setReg]
  split
  · rw [BitVec.toNat_ofNat, Nat.mod_eq_of_lt hn]
  · rfl

theorem Stc.keepOverflow_spec (c : Stc) : c.keepOverflow.exp = (if c.minExp < c.exp then c.exp - 1 else c.exp) ∧
    c.keepOverflow.field Reg.stcLsState 31 16 = 0 ∧ c.keepOverflow.num Reg.stcSkips = satAdd (c.num Reg.stcSkips) 1 := by
  have hb := c.exp_bounds
  have hm := c.minExp_ge
  have he : -128 ≤ (if c.minExp < c.exp then c.exp - 1 else c.exp) ∧ (if c.minExp < c.exp then c.exp - 1 else c.exp) ≤ 127 := by
    split <;> omega
  obtain ⟨h1, h2⟩ := c.keeper_set he.1 he.2 (n := 0) (by decide)
  have hs (n : Nat) : satAdd n 1 < 2 ^ 64 := by
    unfold satAdd
    omega
  have hk : ∀ e, c.keepOverflow = ((c.setKeeper e 0).count Reg.stcSkips 1) →
      c.keepOverflow.exp = (c.setKeeper e 0).exp ∧ c.keepOverflow.field Reg.stcLsState 31 16 = (c.setKeeper e 0).field
          Reg.stcLsState 31 16 ∧
        c.keepOverflow.num Reg.stcSkips = satAdd (c.num Reg.stcSkips) 1 := by
    intro e he
    rw [he]
    refine ⟨?_, ?_, ?_⟩
    · unfold Stc.exp Stc.field Stc.count Stc.setNum
      rw [Stc.reg_setReg_ne _ _ (by decide)]
    · unfold Stc.field Stc.count Stc.setNum
      rw [Stc.reg_setReg_ne _ _ (by decide)]
    · unfold Stc.count
      rw [Stc.num_setNum _ _ _ _ (hs _), if_pos rfl]
      unfold Stc.setKeeper Stc.num Stc.setNum
      rw [Stc.reg_setReg_ne _ _ (by decide)]
  obtain ⟨k1, k2, k3⟩ := hk _ rfl
  exact ⟨k1.trans h1, k2.trans h2, k3⟩

/-! ### Retries, restarts and done reports (R164, R251, R252, R286) -/

theorem State.acts_of {s : State} {h : Nat} (ha : Acts s h) : s.acts h = true := by
  obtain ⟨h1, h2⟩ := ha
  unfold State.acts
  rw [h1, h2]
  rfl

theorem State.acts_false {s : State} {h : Nat} (ha : ¬ Acts s h) : s.acts h = false := by
  unfold Acts at ha
  unfold State.acts
  rw [Bool.eq_false_iff]
  intro hb
  rw [Bool.and_eq_true, decide_eq_true_eq] at hb
  exact ha hb

section
variable {s t : State} {h : Nat}

theorem State.verdictTokenRetry_eq {h : Hold} {n : Fin 26880} {k : Nat} (ha : Acts s h)
    (hk : (s.stc h).refused.find? (fun key => key / 8 = n.val) = some k) (hst : (s.stc h).st = .update) :
    exec (.verdictTokenRetry h n) s = .next (s.asOne fun s' =>
        (s'.setStc h { s.stc h with refused := (s.stc h).refused.erase k }).publish
      [if k % 8 = 5 then s'.verdictToken h n else s'.recordToken h n (k % 8)]) := by
  change execVerdictTokenRetry h n s = _
  unfold execVerdictTokenRetry
  dsimp only
  rw [hk]
  dsimp only
  rw [State.acts_of ha, if_neg (by decide), if_pos hst]
  exact congrArg Host.Outcome.next (State.asOne_congr rfl)

/-- A step that ends, with RUN at 0. -/
theorem State.endStep_spec (s : State) (h : Nat) (hrun : (s.stc h).run = false) : ∃ c, State.StcSet h c s (s.endStep h) ∧
    c.step = ((s.stc h).step + 1) % 2 ^ 32 ∧ c.lastOpen = some (s.stc h).opened ∧
    c.st = if (s.stc h).field Reg.stcHist 31 31 = 1 then .warmHold else .idle := by
  generalize hc : s.stc h = c at hrun
  have hstep : (c.setNum Reg.stcStep ((c.step + 1) % 2 ^ 32)).step = (c.step + 1) % 2 ^ 32 := by
    unfold Stc.step
    rw [Stc.num_setNum _ _ _ _ (by omega), if_pos rfl]
  have hhist : (c.setNum Reg.stcStep ((c.step + 1) % 2 ^ 32)).field Reg.stcHist 31 31 = c.field Reg.stcHist 31 31 := by
    unfold Stc.field Stc.setNum
    rw [Stc.reg_setReg_ne _ _ (by decide)]
  have hr : (c.setNum Reg.stcStep ((c.step + 1) % 2 ^ 32)).run = false := by
    unfold Stc.setNum
    rw [Stc.run_setReg_ne _ _ (by decide), hrun]
  have hop : (c.setNum Reg.stcStep ((c.step + 1) % 2 ^ 32)).opened = c.opened := rfl
  unfold State.endStep
  rw [hc]
  dsimp only
  generalize c.setNum Reg.stcStep ((c.step + 1) % 2 ^ 32) = d at hstep hhist hr hop ⊢
  rw [← hop]
  have hh' : Stc.field { d with lastOpen := some d.opened, restarting := false, refused := [], record := [] } Reg.stcHist 31 31 =
      c.field Reg.stcHist 31 31 := hhist
  have hr' : Stc.run { d with lastOpen := some d.opened, restarting := false, refused := [], record := [] } = false := hr
  rw [hh', hr']
  by_cases hw : c.field Reg.stcHist 31 31 = 1
  · rw [if_pos hw, if_pos hw]
    exact ⟨_, s.stcSet_setStc h _, hstep, rfl, rfl⟩
  · rw [if_neg hw, if_neg hw, if_neg (by decide)]
    exact ⟨_, s.stcSet_setStc h _, hstep, rfl, rfl⟩

theorem State.Tells.enrolled (ht : State.Tells s t) (h : Nat) : t.enrolled h = s.enrolled h := by
  rw [ht]
  rfl

theorem State.StcSet.enrolled {c : Stc} {j : Nat} (ht : State.StcSet j c s t) (h : Nat) : t.enrolled h = s.enrolled h := by
  rw [ht.only]
  rfl

/-- The controller with one done report more, of croft n. -/
def reportedDone (c : Stc) (n : Option Nat) : Stc :=
  { c.setField Reg.stcDoneCount 14 0 (c.field Reg.stcDoneCount 14 0 + 1) with
    doneBy := c.doneBy ++ n.toList.filter fun m => !c.doneBy.contains m }

theorem State.doneReport_counted (s : State) (h : Nat) (n : Option Nat) {v : W32} (ha : Acts s h) (hst : (s.stc h).st = .update)
    (hp : (s.stc h).openPending = false) (hv : v.toNat = (s.stc h).step) :
    s.doneReport h n v = (s.setStc h (reportedDone (s.stc h) n)).checkDone h := by
  unfold State.doneReport
  dsimp only
  rw [State.acts_of ha, if_neg (by decide), if_pos ⟨hst, by rw [hp]; decide, hv⟩]
  rfl

theorem Stc.count_reportedDone (c : Stc) (n : Option Nat) (hlt : c.field Reg.stcDoneCount 14 0 + 1 < 2 ^ 15) :
    (reportedDone c n).field Reg.stcDoneCount 14 0 = c.field Reg.stcDoneCount 14 0 + 1 := by
  change fld ((c.setField Reg.stcDoneCount 14 0 _).reg Reg.stcDoneCount) 14 0 = _
  unfold Stc.setField
  rw [Stc.reg_setReg_same, fld_setFld _ _ _ _ (by decide), Nat.mod_eq_of_lt hlt]

/-- A done report changes no register but the done count. -/
theorem Stc.reg_reportedDone (c : Stc) (n : Option Nat) {o : Nat} (ho : o ≠ Reg.stcDoneCount) : (reportedDone c n).reg o = c.reg
    o :=
  Stc.reg_setReg_ne c (setFld (c.reg Reg.stcDoneCount) 14 0 (c.field Reg.stcDoneCount 14 0 + 1)) ho

theorem Stc.run_reportedDone (c : Stc) (n : Option Nat) : (reportedDone c n).run = c.run := by
  unfold Stc.run
  rw [Stc.reg_reportedDone c n (by decide)]

/-- A done report that is not the last. -/
theorem State.doneReport_more (s : State) (h : Nat) (n : Option Nat) {v : W32} (ha : Acts s h) (hst : (s.stc h).st = .update)
    (hp : (s.stc h).openPending = false) (hv : v.toNat = (s.stc h).step)
    (hlt : (s.stc h).field Reg.stcDoneCount 14 0 + 1 < (s.enrolled h).length) (hlen : (s.enrolled h).length < 2 ^ 15) :
    s.doneReport h n v = s.setStc h (reportedDone (s.stc h) n) := by
  rw [s.doneReport_counted h n ha hst hp hv]
  unfold State.checkDone
  dsimp only
  rw [State.stc_setStc_same, (s.stcSet_setStc h _).enrolled, Stc.count_reportedDone _ _ (by omega)]
  exact if_neg fun hx => absurd hx.2.2.2 (by omega)

/-- The last done report ends the step. -/
theorem State.doneReport_last (s : State) (h : Nat) (n : Option Nat) {v : W32} (ha : Acts s h) (hst : (s.stc h).st = .update)
    (hp : (s.stc h).openPending = false) (hab : (s.stc h).abandoning = false) (hv : v.toNat = (s.stc h).step)
    (hlt : (s.stc h).field Reg.stcDoneCount 14 0 + 1 = (s.enrolled h).length) (hlen : (s.enrolled h).length < 2 ^ 15) :
    s.doneReport h n v = (s.setStc h (reportedDone (s.stc h) n)).endStep h := by
  rw [s.doneReport_counted h n ha hst hp hv]
  unfold State.checkDone
  dsimp only
  rw [State.stc_setStc_same, (s.stcSet_setStc h _).enrolled, Stc.count_reportedDone _ _ (by omega)]
  refine if_pos ⟨hst, ?_, ?_, by omega⟩
  · rw [show (reportedDone (s.stc h) n).abandoning = false from hab]
    rfl
  · rw [show (reportedDone (s.stc h) n).openPending = false from hp]
    rfl

/-- The controller with one stray done report more. -/
def strayDone (c : Stc) : Stc := c.setField Reg.stcDoneCount 31 16 (min (c.field Reg.stcDoneCount 31 16 + 1) 0xFFFF)

theorem State.doneReport_stray (s : State) (h : Hold) (n : Option Nat) {v : W32} (ha : Acts s h)
    (hno : (s.stc h).st ≠ .update ∨ (s.stc h).openPending = true ∨ v.toNat ≠ (s.stc h).step) :
    s.doneReport h n v = (s.setStc h (strayDone (s.stc h))).raiseStc h Reg.stcSeqFault 3 51 (accessOpcode Reg.stcDone) := by
  unfold State.doneReport
  dsimp only
  rw [State.acts_of ha, if_neg (by decide)]
  refine if_neg fun hx => ?_
  obtain ⟨h1, h2, h3⟩ := hx
  rcases hno with h | h | h
  · exact h h1
  · rw [h] at h2
    exact absurd h2 (by decide)
  · exact h h3

/-- A record of one controller is one already. -/
theorem State.asOne_one {s : State} {f : State → State} {x : Shadow} (hf : (f s).shadows = s.shadows ++ [x]) : s.asOne f = f s
    := by
  unfold State.asOne
  dsimp only
  rw [hf, List.drop_left]
  exact ite_self _

theorem State.asOne_setStc (s : State) (f : State → State) (h : Nat) (c : Stc) (hf : f s = s.setStc h c) : s.asOne f = s.setStc
    h c := by
  cases hs : s.standby with
  | none => rw [State.asOne_of_alone f hs, hf]
  | some i =>
    refine (State.asOne_one (x := { num := s.shadowNum, changes := [.stc h c] }) ?_).trans hf
    rw [hf, s.setStc_sent h c hs]
    rfl

end

/-- A controller whose step has ended, as one whose step is c's and whose RUN is 0. -/
def StepEnded (h : Nat) (c : Stc) (t : State) : Prop :=
  (t.stc h).step = (c.step + 1) % 2 ^ 32 ∧ (t.stc h).lastOpen = some c.opened ∧
    (t.stc h).st = if c.field Reg.stcHist 31 31 = 1 then .warmHold else .idle

theorem State.overflowRestart_ends (s : State) (h : Nat) (hrun : (s.stc h).run = false) :
    ∃ c, State.StcSet h c s (s.asOne fun s => (s.startCrofts h).endStep h) ∧
      StepEnded h (s.stc h) (s.asOne fun s => (s.startCrofts h).endStep h) := by
  have hstart : State.Tells s (s.startCrofts h) := State.tells_publish _ _
  have hc := hstart.stc h
  obtain ⟨c, hset, h1, h2, h3⟩ := (s.startCrofts h).endStep_spec h (by rw [hc]; exact hrun)
  rw [hc] at h1 h2 h3
  have hall := State.StcSet.asOne (f := fun s => (s.startCrofts h).endStep h) (State.StcSet.after hstart hset)
  refine ⟨c, hall, ?_, ?_, ?_⟩
  · rw [hall.stc, h1]
  · rw [hall.stc, h2]
  · rw [hall.stc, h3]

theorem State.doneReport_ends (s : State) (h : Nat) (n : Option Nat) {v : W32} (ha : Acts s h) (hst : (s.stc h).st = .update)
    (hp : (s.stc h).openPending = false) (hab : (s.stc h).abandoning = false) (hv : v.toNat = (s.stc h).step)
    (hrun : (s.stc h).run = false) (hlt : (s.stc h).field Reg.stcDoneCount 14 0 + 1 = (s.enrolled h).length)
    (hlen : (s.enrolled h).length < 2 ^ 15) : ∃ c, State.StcSet h c s (s.asOne fun s => s.doneReport h n v) ∧
      StepEnded h (s.stc h) (s.asOne fun s => s.doneReport h n v) := by
  have hd := s.doneReport_last h n ha hst hp hab hv hlt hlen
  obtain ⟨c, hset, h1, h2, h3⟩ := (s.setStc h (reportedDone (s.stc h) n)).endStep_spec h
    (by rw [State.stc_setStc_same, Stc.run_reportedDone, hrun])
  rw [State.stc_setStc_same] at h1 h2 h3
  rw [← hd] at hset
  have hall := State.StcSet.asOne (f := fun s => s.doneReport h n v) ((s.stcSet_setStc h (reportedDone (s.stc h) n)).trans hset)
  have hstep : (reportedDone (s.stc h) n).step = (s.stc h).step := by
    unfold Stc.step Stc.num
    rw [Stc.reg_reportedDone _ _ (by decide)]
  have hhist : (reportedDone (s.stc h) n).field Reg.stcHist 31 31 = (s.stc h).field Reg.stcHist 31 31 := by
    unfold Stc.field
    rw [Stc.reg_reportedDone _ _ (by decide)]
  refine ⟨c, hall, ?_, ?_, ?_⟩
  · rw [hall.stc, h1, hstep]
  · rw [hall.stc, h2]
    rfl
  · rw [hall.stc, h3, hhist]

/-- A stray done report is counted, and raises its source. -/
theorem State.doneReport_raises (s : State) (h : Hold) (n : Option Nat) {v : W32} (ha : Acts s h)
    (hno : (s.stc h).st ≠ .update ∨ (s.stc h).openPending = true ∨ v.toNat ≠ (s.stc h).step) :
    ∃ e, StcTo h s (s.asOne fun s => s.doneReport h n v) ∧
      (s.asOne fun s => s.doneReport h n v).reports = s.reports ++ [e] ∧ e.source = 51 ∧ e.loc = State.locHolding h ∧
      (s.asOne fun s => s.doneReport h n v).stc h =
        (strayDone (s.stc h)).setReg Reg.stcSeqFault ((strayDone (s.stc h)).reg Reg.stcSeqFault ||| BitVec.ofNat 64 (2 ^ 3)) :=
            by
  obtain ⟨u, honly, hstcs, hr⟩ := State.raiseStc_setStc s h (strayDone (s.stc h)) Reg.stcSeqFault 3 51 (State.accessOpcode Reg.stcDone)
  have hd := (s.doneReport_stray h n ha hno).trans hr
  have hset : State.StcSet h ((strayDone (s.stc h)).setReg Reg.stcSeqFault
      ((strayDone (s.stc h)).reg Reg.stcSeqFault ||| BitVec.ofNat 64 (2 ^ 3))) s u := ⟨hstcs, honly⟩
  have hall : State.Tells (s.doneReport h n v) (s.asOne fun s => s.doneReport h n v) := State.tells_asOne s _
  rw [hd] at hall
  generalize s.asOne (fun s => s.doneReport h n v) = t at hall ⊢
  have hstc (j : Nat) : t.stc j = u.stc j := hall.stc j
  refine ⟨u.holdingEvent h 51 (State.accessOpcode Reg.stcDone), ⟨fun j hj => (hstc j).trans (hset.stc_ne hj), ?_⟩, ?_, rfl, rfl,
    (hstc h).trans hset.stc⟩
  · rw [hall, hset.only]
  · rw [hall]

/-- What a stray done report leaves in the controller. -/
theorem Stc.strayDone_reads (c : Stc) {d : Stc}
    (hd : d = (strayDone c).setReg Reg.stcSeqFault ((strayDone c).reg Reg.stcSeqFault ||| BitVec.ofNat 64 (2 ^ 3))) :
    d.st = c.st ∧ d.field Reg.stcDoneCount 31 16 = min (c.field Reg.stcDoneCount 31 16 + 1) 65535 ∧
      d.field Reg.stcDoneCount 14 0 = c.field Reg.stcDoneCount 14 0 ∧ bit (d.reg Reg.stcSeqFault) 3 = true := by
  have hcount : d.reg Reg.stcDoneCount = setFld (c.reg Reg.stcDoneCount) 31 16 (min (c.field Reg.stcDoneCount 31 16 + 1) 0xFFFF) := by
    rw [hd, Stc.reg_setReg_ne _ _ (by decide)]
    exact Stc.reg_setReg_same _ _ _
  refine ⟨by rw [hd]; rfl, ?_, ?_, ?_⟩
  · unfold Stc.field
    rw [hcount, fld_setFld _ _ _ _ (by decide)]
    exact Nat.mod_eq_of_lt (by omega)
  · unfold Stc.field
    rw [hcount, fld_setFld_ne _ _ _ _ _ _ (by decide) (.inl (by decide))]
  · rw [hd, Stc.reg_setReg_same]
    exact bit_or_pow _ 3 (by decide)

/-- No done report is taken while the controller does not act. -/
theorem State.doneReport_held (s : State) (h : Nat) (n : Option Nat) (v : W32) (ha : ¬ Acts s h) :
    (s.asOne fun s => s.doneReport h n v) = s := by
  have hf : s.doneReport h n v = s := by
    unfold State.doneReport
    dsimp only
    rw [State.acts_false ha]
    rfl
  exact (State.asOne_of_shadows (f := fun s => s.doneReport h n v) (congrArg State.shadows hf)).trans hf

/-- Settles O42: a step ends in one change of its controller, and the keeper's fields read what it stores. -/
theorem stepsEndAndTheKeeperFollows : Obligations.StepsEndAndTheKeeperFollows := by
  unfold Obligations.StepsEndAndTheKeeperFollows
  refine ⟨fun h s => ⟨fun n k ha hk hst => State.verdictTokenRetry_eq ha hk hst, fun ha hst hre hab => ⟨fun hall hrun => ?_, fun hall => ?_⟩,
    fun r ha hst hp hv hlt hlen => ?_, fun r ha hst hp hab hv hrun hlt hlen => ?_, fun r ha hno => ?_, fun r ha => ?_⟩, fun c =>
        ?_⟩
  · have he : exec (.overflowRestart h) s = .next (s.asOne fun s => (s.startCrofts h).endStep h) := by
      change execOverflowRestart h s = _
      unfold execOverflowRestart
      dsimp only
      exact if_pos ⟨hst, hre, by rw [hab]; rfl, State.acts_of ha, hall⟩
    obtain ⟨c, hset, hend⟩ := s.overflowRestart_ends h hrun
    exact ⟨_, he, hend, by rw [hset.only], by rw [hset.only]⟩
  · change execOverflowRestart h s = _
    unfold execOverflowRestart
    dsimp only
    refine if_neg fun hx => ?_
    rw [hall] at hx
    exact absurd hx.2.2.2.2 (by decide)
  · have hone := s.asOne_setStc (fun s => s.doneReport h (r.croft.map (·.val)) r.step) h _
      (s.doneReport_more h _ ha hst hp hv hlt hlen)
    have he : exec (.doneReport h r) s = .next (s.asOne fun s => s.doneReport h (r.croft.map (·.val)) r.step) := rfl
    exact he.trans (congrArg Host.Outcome.next hone)
  · obtain ⟨c, hset, hend⟩ := s.doneReport_ends h (r.croft.map (·.val)) ha hst hp hab hv hrun hlt hlen
    exact ⟨_, rfl, hend, hset.stcTo, hset.reports⟩
  · obtain ⟨e, hto, hrep, hsrc, hloc, hc⟩ := s.doneReport_raises h (r.croft.map (·.val)) ha hno
    obtain ⟨h1, h2, h3, h4⟩ := Stc.strayDone_reads _ hc
    exact ⟨_, e, rfl, hto, h1, h2, h3, h4, hrep, hsrc, hloc⟩
  · have he : exec (.doneReport h r) s = .next (s.asOne fun s => s.doneReport h (r.croft.map (·.val)) r.step) := rfl
    have hh := s.doneReport_held h (r.croft.map (·.val)) r.step ha
    rw [he, hh]
  · intro n iv hd
    have hb := c.exp_bounds
    have hm := c.maxExp_le
    rw [c.keepClean_unfilled hd]
    refine ⟨fun hiv => ?_, fun h0 hiv => ?_, c.keepOverflow_spec⟩
    · rw [if_pos hiv]
      exact c.keeper_set hb.1 hb.2 (by omega)
    · rw [if_neg (by omega)]
      exact c.keeper_set (by split <;> omega) (by split <;> omega) (by decide)

end Sys2Proof.Machine

namespace Sys2Proof.Machine
open Sys2Proof.Safety

/-! ### Totals and openings (R159, R249, R252, R275) -/

/-- The controller with the totals of its summaries published. -/
def totalled (c : Stc) : Stc :=
  let t := c.sums
  let c := (c.setNum Reg.stcTallySat t.sat).setNum Reg.stcTallyInf t.inf
  let c := (c.setNum Reg.stcTallyNan t.nan).setNum Reg.stcTallyResid t.resid
  let c := (c.setNum Reg.stcTallyAcks (min t.acks 0xFFFFFFFF)).setNum Reg.stcTallyStep c.step
  { c with published := true, localBad := (t.inf != 0 || t.nan != 0) && !c.incomplete }

/-- The registers of the totals. -/
def tallyRegs : List Nat :=
  [Reg.stcTallySat, Reg.stcTallyInf, Reg.stcTallyNan, Reg.stcTallyResid, Reg.stcTallyAcks, Reg.stcTallyStep]

theorem Stc.reg_totalled (c : Stc) {o : Nat} (ho : o ∉ tallyRegs) : (totalled c).reg o = c.reg o := by
  simp only [tallyRegs, List.mem_cons, List.not_mem_nil, or_false, not_or] at ho
  obtain ⟨h1, h2, h3, h4, h5, h6⟩ := ho
  have hset (d : Stc) (p n : Nat) (hp : o ≠ p) : (d.setNum p n).reg o = d.reg o := Stc.reg_setReg_ne _ _ hp
  change Stc.reg (Stc.setNum (Stc.setNum (Stc.setNum (Stc.setNum (Stc.setNum (Stc.setNum c _ _) _ _) _ _) _ _) _ _) _ _) o = _
  rw [hset _ _ _ h6, hset _ _ _ h5, hset _ _ _ h4, hset _ _ _ h3, hset _ _ _ h2, hset _ _ _ h1]

theorem Stc.abandoning_totalled (c : Stc) : (totalled c).abandoning = c.abandoning := rfl

/-- Every parish's summary is in, or none is expected. -/
def State.allSummed (s : State) (h : Nat) : Bool := (s.parishesOf h).all fun p => (s.stc h).parishes.contains p || (s.parish p).expect == 0

theorem Stc.num_congr {c d : Stc} {o : Nat} (h : c.reg o = d.reg o) : c.num o = d.num o := congrArg BitVec.toNat h
theorem Stc.field_congr {c d : Stc} {o : Nat} (h : c.reg o = d.reg o) (hi lo : Nat) : c.field o hi lo = d.field o hi lo :=
  congrArg (fun v => fld v hi lo) h

theorem State.publishTotals_eq (s : State) (h : Nat) : s.publishTotals h =
    if (s.stc h).published || !s.allSummed h then s
    else if (s.stc h).num Reg.stcResidLimit < (s.stc h).sums.resid then (s.setStc h (totalled (s.stc h))).raiseStc h
        Reg.stcFault 2 46
    else s.setStc h (totalled (s.stc h)) := by
  have hlim : (totalled (s.stc h)).num Reg.stcResidLimit = (s.stc h).num Reg.stcResidLimit :=
    Stc.num_congr (Stc.reg_totalled _ (by decide))
  rw [← hlim]
  rfl

/-- The controller with the time of its last step. -/
def stepTimed (c : Stc) (now : Nat) : Stc :=
  match c.lastOpen with
  | some t => c.setNum Reg.stcStepTime (min ((now - t) / 1000) 0xFFFFFFFF)
  | none => c

/-- The controller as its opening leaves it, from the time now on. -/
def begunStep (c : Stc) (now : Nat) : Stc :=
  { (stepTimed c now).clearAttempt.setNum Reg.stcDoneCount 0 with
    st := .opening, order := 0, replays := 0, ireplays := 0, uncounted := 0, mismatches := 0, openPending := false
    doneBy := [], opened := now, lastOpen := none }

theorem Stc.reg_stepTimed (c : Stc) (now : Nat) {o : Nat} (h : o ≠ Reg.stcStepTime) : (stepTimed c now).reg o = c.reg o := by
  unfold stepTimed
  split
  · exact Stc.reg_setReg_ne _ _ h
  · rfl

theorem Stc.abandoning_stepTimed (c : Stc) (now : Nat) : (stepTimed c now).abandoning = c.abandoning := by
  unfold stepTimed
  split <;> rfl

theorem Stc.reg_begunStep (c : Stc) (now : Nat) {o : Nat} (ho : o ∉ Stc.attemptRegs) (h1 : o ≠ Reg.stcStepTime)
    (h2 : o ≠ Reg.stcDoneCount) :
    (begunStep c now).reg o = c.reg o := by
  change Stc.reg (Stc.setNum (stepTimed c now).clearAttempt Reg.stcDoneCount 0) o = _
  unfold Stc.setNum
  rw [Stc.reg_setReg_ne _ _ h2, Stc.reg_clearAttempt_ne _ ho, Stc.reg_stepTimed _ _ h1]

theorem Stc.num_begunStep_done (c : Stc) (now : Nat) : (begunStep c now).num Reg.stcDoneCount = 0 := by
  change Stc.num (Stc.setNum (stepTimed c now).clearAttempt Reg.stcDoneCount 0) Reg.stcDoneCount = 0
  rw [Stc.num_setNum _ _ _ _ (by decide), if_pos rfl]

theorem Stc.abandoning_begunStep (c : Stc) (now : Nat) : (begunStep c now).abandoning = c.abandoning :=
  Stc.abandoning_stepTimed c now

/-- The reeves' oldest step is the step that opens. -/
def stepBased (step : Nat) (v : Parish) : Parish := if v.tallyStep.toNat = step then v else v.tallyBase (BitVec.ofNat 32 step)

theorem tallyStep_stepBased (step : Nat) (v : Parish) : (stepBased step v).tallyStep.toNat = step % 2 ^ 32 := by
  unfold stepBased
  split
  · next h => rw [← h, Nat.mod_eq_of_lt v.tallyStep.isLt]
  · exact BitVec.toNat_ofNat _ _

theorem regs_stepBased (step : Nat) (v : Parish) : (stepBased step v).regs = v.regs := by
  unfold stepBased
  split <;> rfl

/-- The crofts that a holding has are those of its parishes by their row maps. -/
theorem State.enrolled_congr {s t : State} (hr : t.regs = s.regs) (hp : ∀ p, (t.parish p).regs = (s.parish p).regs) (h : Nat) :
    t.enrolled h = s.enrolled h := by
  have hm (p r : Nat) : t.rowMap p r = s.rowMap p r := by
    unfold State.rowMap Parish.reg
    rw [hp]
  have hl : t.logicalOf = s.logicalOf := by
    funext q
    unfold State.logicalOf
    simp only [hm]
  have ho : t.parishesOf h = s.parishesOf h := by
    unfold State.parishesOf State.owner State.field State.reg
    rw [hr]
  unfold State.enrolled State.holdingCrofts
  rw [hl, ho]

theorem State.beginOpening_eq (s : State) (h : Nat) : s.beginOpening h =
    ((s.parishesOf h).foldl (fun t p => t.setParish p (stepBased (begunStep (s.stc h) s.clock.now).step (t.parish p)))
      (s.setStc h (begunStep (s.stc h) s.clock.now))).publishTotals h := rfl

/-- The parishes of a list are each changed by a function. -/
theorem State.foldl_setParish (f : Parish → Parish) (ps : List Nat) (hn : ps.Nodup) (s : State) (q : Nat) :
    (ps.foldl (fun s p => s.setParish p (f (s.parish p))) s).parish q = if q ∈ ps then f (s.parish q) else s.parish q := by
  induction ps generalizing s with
  | nil => rfl
  | cons p ps ih =>
    obtain ⟨hp, hn⟩ := List.nodup_cons.mp hn
    rw [List.foldl_cons, ih hn, State.parish_setParish]
    by_cases hq : q = p
    · subst hq
      rw [if_neg hp, if_pos rfl, if_pos List.mem_cons_self]
    · rw [if_neg hq]
      exact if_congr ⟨List.mem_cons_of_mem p, fun h => (List.mem_cons.mp h).resolve_left hq⟩ rfl rfl

theorem State.foldl_setParish_frame (f : Parish → Parish) (ps : List Nat) (s : State) :
    ps.foldl (fun s p => s.setParish p (f (s.parish p))) s =
      { s with parishes := (ps.foldl (fun s p => s.setParish p (f (s.parish p))) s).parishes } := by
  refine List.foldlRecOn (motive := fun t : State => t = { s with parishes := t.parishes }) _ _ rfl fun t ht p _ => ?_
  exact congrArg (fun u : State => { u with parishes := (t.setParish p (f (t.parish p))).parishes }) ht

/-- What an opening of a step leaves: the controller opens, its parishes sum the step, and nothing else differs but what tells of it. -/
structure State.Begun (h : Nat) (s t : State) : Prop where
  stc : ∃ c, (c = begunStep (s.stc h) s.clock.now ∨ c = totalled (begunStep (s.stc h) s.clock.now)) ∧ t.stc h = c
  others (j : Nat) : j ≠ h → t.stc j = s.stc j
  parish (p : Nat) : p ∉ s.parishesOf h → t.parish p = s.parish p
  based (p : Nat) : p ∈ s.parishesOf h → (t.parish p).tallyStep.toNat = (s.stc h).step % 2 ^ 32
  rows (p : Nat) : (t.parish p).regs = (s.parish p).regs
  alone : s.standby = none → t.outq = s.outq
  only : t = { s with stcs := t.stcs, parishes := t.parishes, shadows := t.shadows, shadowNum := t.shadowNum, outq := t.outq }

theorem State.parishesOf_nodup (s : State) (h : Nat) : (s.parishesOf h).Nodup := List.nodup_range.filter _

theorem State.outq_setStc_alone (s : State) (h : Nat) (c : Stc) (hs : s.standby = none) : (s.setStc h c).outq = s.outq := by
  rw [s.setStc_alone h c hs]

theorem Stc.step_begunStep (c : Stc) (now : Nat) : (begunStep c now).step = c.step :=
  Stc.num_congr (Stc.reg_begunStep c now (by decide) (by decide) (by decide))

theorem State.begun_beginOpening (s : State) (h : Nat) : State.Begun h s (s.beginOpening h) := by
  rw [State.beginOpening_eq, Stc.step_begunStep]
  generalize hd : begunStep (s.stc h) s.clock.now = d
  have hset := s.stcSet_setStc h d
  have hfr := State.foldl_setParish_frame (stepBased (s.stc h).step) (s.parishesOf h) (s.setStc h d)
  have hpar (q : Nat) := State.foldl_setParish (stepBased (s.stc h).step) (s.parishesOf h) (s.parishesOf_nodup h) (s.setStc h d) q
  generalize (s.parishesOf h).foldl (fun s' p => s'.setParish p (stepBased (s.stc h).step (s'.parish p))) (s.setStc h d) = u at hfr hpar ⊢
  have hstcs : u.stcs = (s.setStc h d).stcs := by rw [hfr]
  have hu (j : Nat) : u.stc j = (s.setStc h d).stc j := by
    unfold State.stc
    rw [hstcs]
  have hsb : u.standby = s.standby := by
    unfold State.standby State.steward
    rw [hfr, hset.only]
  have huo : s.standby = none → u.outq = s.outq := fun hs => by rw [hfr, s.outq_setStc_alone h d hs]
  have honly : u = { s with stcs := u.stcs, parishes := u.parishes, shadows := u.shadows, shadowNum := u.shadowNum, outq := u.outq } := by
    rw [hfr, hset.only]
  have hres : ¬ d.num Reg.stcResidLimit < d.sums.resid := by
    have : d.sums.resid = 0 := by rw [← hd]; rfl
    rw [this]
    exact Nat.not_lt_zero _
  have huh : u.stc h = d := (hu h).trans hset.stc
  have hpq (q : Nat) (hq : q ∉ s.parishesOf h) : u.parish q = s.parish q := by
    rw [hpar, if_neg hq, State.parish_setStc]
  have hpb (q : Nat) (hq : q ∈ s.parishesOf h) : (u.parish q).tallyStep.toNat = (s.stc h).step % 2 ^ 32 := by
    rw [hpar, if_pos hq]
    exact tallyStep_stepBased _ _
  have hrow (q : Nat) : (u.parish q).regs = (s.parish q).regs := by
    rw [hpar]
    split
    · rw [regs_stepBased, State.parish_setStc]
    · rw [State.parish_setStc]
  rw [State.publishTotals_eq, huh, if_neg hres]
  split
  · exact ⟨⟨d, .inl hd.symm, huh⟩, fun j hj => (hu j).trans (hset.stc_ne hj), hpq, hpb, hrow, huo, honly⟩
  · have hset' := u.stcSet_setStc h (totalled d)
    refine ⟨⟨totalled d, .inr (by rw [hd]), hset'.stc⟩, fun j hj => ((hset'.stc_ne hj).trans (hu j)).trans (hset.stc_ne hj), fun
        q hq => ?_,
      fun q hq => ?_, fun q => ?_, fun hs => ?_, ?_⟩
    · rw [State.parish_setStc, hpq q hq]
    · rw [State.parish_setStc, hpb q hq]
    · rw [State.parish_setStc, hrow q]
    · rw [u.outq_setStc_alone h _ (hsb.trans hs), huo hs]
    · have hps : (u.setStc h (totalled d)).parishes = u.parishes := State.setStc_parishes _ _ _
      rw [hps]
      exact hset'.only.trans (congrArg (fun v : State => { v with
        stcs := (u.setStc h (totalled d)).stcs, shadows := (u.setStc h (totalled d)).shadows
        shadowNum := (u.setStc h (totalled d)).shadowNum, outq := (u.setStc h (totalled d)).outq }) honly)

/-- What the controller of an opening reads. -/
theorem State.Begun.reads {h : Nat} {s t : State} (hb : State.Begun h s t) :
    (t.stc h).st = .opening ∧ (t.stc h).order = 0 ∧ (t.stc h).run = (s.stc h).run ∧ (t.stc h).step = (s.stc h).step ∧
      (t.stc h).replays = 0 ∧ (t.stc h).committed = false ∧ (t.stc h).num Reg.stcDoneCount = 0 ∧ (t.stc h).stepped = [] ∧
      (t.stc h).openPending = false ∧ (t.stc h).abandoning = (s.stc h).abandoning := by
  obtain ⟨c, hc, ht⟩ := hb.stc
  rw [ht]
  have hrun : (begunStep (s.stc h) s.clock.now).reg Reg.stcSeqCtrl = (s.stc h).reg Reg.stcSeqCtrl :=
    Stc.reg_begunStep _ _ (by decide) (by decide) (by decide)
  rcases hc with rfl | rfl
  · refine ⟨rfl, rfl, ?_, Stc.step_begunStep _ _, rfl, rfl, Stc.num_begunStep_done _ _, rfl, rfl, Stc.abandoning_begunStep _ _⟩
    unfold Stc.run
    rw [hrun]
  · refine ⟨rfl, rfl, ?_, ?_, rfl, rfl, ?_, rfl, rfl, (Stc.abandoning_totalled _).trans (Stc.abandoning_begunStep _ _)⟩
    · unfold Stc.run
      rw [Stc.reg_totalled _ (by decide), hrun]
    · exact (Stc.num_congr (Stc.reg_totalled _ (by decide))).trans (Stc.step_begunStep _ _)
    · exact (Stc.num_congr (Stc.reg_totalled _ (by decide))).trans (Stc.num_begunStep_done _ _)

theorem State.Begun.asOne {h : Nat} {s : State} {f : State → State} (hb : State.Begun h s (f s)) : State.Begun h s (s.asOne f)
    := by
  have ht := s.tells_asOne f
  obtain ⟨hc, ho, hp, hpb, hrow, hal, honly⟩ := hb
  have hpar : (s.asOne f).parishes = (f s).parishes := by rw [ht]
  have hstcs : (s.asOne f).stcs = (f s).stcs := by rw [ht]
  refine ⟨?_, fun j hj => (ht.stc j).trans (ho j hj), fun p hq => ?_, fun p hq => ?_, fun p => ?_,
    fun hs => ?_, ?_⟩
  · rw [ht.stc]
    exact hc
  · unfold State.parish
    rw [hpar]
    exact hp p hq
  · unfold State.parish
    rw [hpar]
    exact hpb p hq
  · unfold State.parish
    rw [hpar]
    exact hrow p
  · rw [State.asOne_of_alone f hs]
    exact hal hs
  · rw [hpar, hstcs]
    exact Eq.trans ht (congrArg (fun v : State => { v with
      shadows := (s.asOne f).shadows, shadowNum := (s.asOne f).shadowNum, outq := (s.asOne f).outq }) honly)

theorem State.Begun.stcTo {h : Nat} {s t : State} (hb : State.Begun h s t) : StcTo h s t := by
  refine ⟨hb.others, ?_⟩
  rw [hb.only]

/-! ### Writes that open a step (R249, R250, R170) -/

section
variable {s : State} {h : Hold}

theorem State.onSet_none (f : State → State) (ha : s.active = none) : s.onSet f = s := by
  unfold State.onSet
  rw [ha]
  rfl

theorem State.onSet_some (f : State → State) (ha : s.active.isSome = true) : s.onSet f = s.asOne f := if_pos ha

theorem State.onSet_same {f : State → State} (hf : f s = s) : s.onSet f = s := by
  unfold State.onSet
  split
  · exact (State.asOne_of_shadows (f := f) (congrArg State.shadows hf)).trans hf
  · rfl

theorem State.onSet_setStc {f : State → State} {c : Stc} (ha : s.active.isSome = true) (hf : f s = s.setStc h c) : s.onSet f =
    s.setStc h c := by
  rw [State.onSet_some f ha, State.asOne_setStc s f h c hf]

theorem State.acts_none (ha : s.active = none) : s.acts h = false := by
  unfold State.acts
  rw [ha]
  rfl

theorem Stc.run_setRun (c : Stc) (on : Bool) : (c.setRun on).run = on := by
  unfold Stc.run Stc.setRun Stc.setField
  rw [Stc.reg_setReg_same, bit_setFld_at _ _ _ (by decide)]
  cases on <;> rfl

theorem Stc.reg_setRun (c : Stc) (on : Bool) {o : Nat} (ho : o ≠ Reg.stcSeqCtrl) : (c.setRun on).reg o = c.reg o :=
  Stc.reg_setReg_ne _ _ ho

theorem Stc.step_setRun (c : Stc) (on : Bool) : (c.setRun on).step = c.step := Stc.num_congr (Stc.reg_setRun c on (by decide))

theorem State.switchPending_setStc (s : State) (h : Nat) (c : Stc) : (s.setStc h c).switchPending h = s.switchPending h := by
  rw [(s.stcSet_setStc h c).only]
  rfl

theorem State.acts_setStc (s : State) (h j : Nat) (c : Stc) : (s.setStc h c).acts j = s.acts j := by
  rw [(s.stcSet_setStc h c).only]
  rfl

/-- Whether the step may open, with a controller that has been written. -/
theorem State.mayOpen_setStc (s : State) (h : Nat) (c : Stc) :
    (s.setStc h c).mayOpen h = (!s.switchPending h && c.field Reg.stcHist 31 31 == 0) := by
  unfold State.mayOpen
  rw [s.switchPending_setStc, State.stc_setStc_same]

theorem State.tryOpen_opens {c : Stc} (hs : s.switchPending h = false) (hh : c.field Reg.stcHist 31 31 = 0) :
    (s.setStc h c).tryOpen h = (s.setStc h c).beginOpening h := by
  unfold State.tryOpen
  rw [s.mayOpen_setStc, hs, hh]
  rfl

theorem State.tryOpen_pends {c : Stc} (hs : s.switchPending h = true ∨ c.field Reg.stcHist 31 31 ≠ 0) :
    (s.setStc h c).tryOpen h = (s.setStc h c).setStc h { c with openPending := true } := by
  have hm : (s.setStc h c).mayOpen h = false := by
    rw [s.mayOpen_setStc]
    rcases hs with hs | hs
    · rw [hs]
      rfl
    · rw [beq_false_of_ne hs, Bool.and_false]
  unfold State.tryOpen
  rw [hm, State.stc_setStc_same]
  rfl

/-- An opening after a change of its controller. -/
theorem State.Begun.of_setStc {s t : State} {h : Nat} {c : Stc} (hb : State.Begun h (s.setStc h c) t) :
    (∀ j, j ≠ h → t.stc j = s.stc j) ∧ (∀ p, p ∉ s.parishesOf h → t.parish p = s.parish p) ∧
      (∀ p ∈ s.parishesOf h, (t.parish p).tallyStep.toNat = c.step % 2 ^ 32) ∧ (s.standby = none → t.outq = s.outq) ∧
      t = { s with stcs := t.stcs, parishes := t.parishes, shadows := t.shadows, shadowNum := t.shadowNum, outq := t.outq } :=
          by
  have hset := s.stcSet_setStc h c
  have hps : (s.setStc h c).parishesOf h = s.parishesOf h := by
    rw [hset.only]
    rfl
  have hsb : (s.setStc h c).standby = s.standby := by
    rw [hset.only]
    rfl
  obtain ⟨-, ho, hp, hpb, -, hal, honly⟩ := hb
  rw [hps] at hp hpb
  rw [State.stc_setStc_same] at hpb
  refine ⟨fun j hj => (ho j hj).trans (hset.stc_ne hj), fun p hq => (hp p hq).trans (State.parish_setStc _ _ _ _), hpb, fun hs => ?_, ?_⟩
  · rw [hal (hsb.trans hs), s.outq_setStc_alone h c hs]
  · exact honly.trans (congrArg (fun v : State =>
      { v with stcs := t.stcs, parishes := t.parishes, shadows := t.shadows, shadowNum := t.shadowNum, outq := t.outq })
          hset.only)

/-- RUN set in an IDLE with nothing under way. -/
theorem State.writeRun_idle (ha : s.acts h = true) (hst : (s.stc h).st = .idle) (hab : (s.stc h).abandoning = false)
    (hop : (s.stc h).openPending = false) : s.writeRun h true false = (s.setStc h ((s.stc h).setRun true)).tryOpen h := by
  unfold State.writeRun
  dsimp only
  rw [if_pos rfl, if_neg (by decide)]
  exact if_pos ⟨hst, by rw [hab]; decide, by rw [hop]; decide, by rw [s.acts_setStc]; exact ha⟩

theorem State.writeRun_busy (hst : (s.stc h).st ≠ .idle) : s.writeRun h true false = s.setStc h ((s.stc h).setRun true) := by
  unfold State.writeRun
  dsimp only
  rw [if_pos rfl, if_neg (by decide)]
  exact if_neg fun hx => hst hx.1

/-- GO of a step that waits for it. -/
theorem State.writeGo_eq (hh : (s.stc h).field Reg.stcHist 31 31 = 1) : s.writeGo h =
    if (s.stc h).abandoning || !s.acts h then s.setStc h ((s.stc h).setField Reg.stcHist 31 31 0)
    else if (s.stc h).st = .warmHold then
      (if (s.stc h).run then (s.setStc h ((s.stc h).setField Reg.stcHist 31 31 0)).tryOpen h
      else (s.setStc h ((s.stc h).setField Reg.stcHist 31 31 0)).setStc h ((s.stc h).setField Reg.stcHist 31 31 0).toIdle)
    else if (s.stc h).st = .idle && (s.stc h).openPending then (s.setStc h ((s.stc h).setField Reg.stcHist 31 31 0)).tryOpen h
    else s.setStc h ((s.stc h).setField Reg.stcHist 31 31 0) := by
  have hrun : ((s.stc h).setField Reg.stcHist 31 31 0).run = (s.stc h).run := Stc.run_setReg_ne _ _ (by decide)
  unfold State.writeGo
  dsimp only
  rw [if_neg (by rw [hh]; decide), s.acts_setStc, hrun]
  rfl

theorem State.writeGo_waits (hh : (s.stc h).field Reg.stcHist 31 31 = 1) (hab : (s.stc h).abandoning = false)
    (ha : s.acts h = true)
    (hw : (s.stc h).st = .warmHold ∧ (s.stc h).run = true ∨ (s.stc h).st = .idle ∧ (s.stc h).openPending = true) :
    s.writeGo h = (s.setStc h ((s.stc h).setField Reg.stcHist 31 31 0)).tryOpen h := by
  rw [State.writeGo_eq hh, hab, ha, if_neg (by decide)]
  rcases hw with ⟨h1, h2⟩ | ⟨h1, h2⟩
  · rw [if_pos h1, if_pos h2]
  · rw [if_neg (by rw [h1]; decide), if_pos (by rw [h1, h2]; rfl)]

theorem Stc.hist_cleared (c : Stc) : (c.setField Reg.stcHist 31 31 0).field Reg.stcHist 31 31 = 0 := by
  unfold Stc.field Stc.setField
  rw [Stc.reg_setReg_same, fld_setFld _ _ _ _ (by decide)]
  decide

/-- The scale TOKENs of an opening leave, and none of its crofts has its step yet. -/
theorem State.openingDone_waits (h : Nat) (hst : (s.stc h).stepped = []) (hen : s.enrolled h ≠ []) : s.openingDone h = s := by
  unfold State.openingDone
  dsimp only
  refine if_neg fun hx => ?_
  obtain ⟨-, -, -, hall⟩ := hx
  obtain ⟨n, hn⟩ := List.exists_mem_of_ne_nil _ hen
  have := List.all_eq_true.mp hall n hn
  rw [hst] at this
  exact absurd this (by simp)

/-- The scale TOKENs of a step that has opened. -/
def State.scaleTokens (s : State) (h : Nat) : State :=
  (s.setStc h { s.stc h with order := 1 }).publish ((s.enrolled h).map fun n => s.scaleToken h n)

theorem State.stc_scaleTokens (s : State) (h : Nat) : (s.scaleTokens h).stc h = { s.stc h with order := 1 } :=
  ((s.stcSet_setStc h { s.stc h with order := 1 }).tells (State.tells_publish _ _)).stc

theorem State.openingDone_scaleTokens (s : State) (h : Nat) (hst : (s.stc h).stepped = []) (hen : s.enrolled h ≠ []) :
    (s.scaleTokens h).openingDone h = s.scaleTokens h := by
  have hen' : (s.scaleTokens h).enrolled h = s.enrolled h :=
    ((s.stcSet_setStc h { s.stc h with order := 1 }).tells (State.tells_publish _ _)).enrolled h
  refine State.openingDone_waits h ?_ ?_
  · rw [s.stc_scaleTokens]
    exact hst
  · rw [hen']
    exact hen

theorem State.opening_sends (ha : s.acts h = true) (hop : (s.stc h).openPending = false) (hst : (s.stc h).st = .opening)
    (ho : (s.stc h).order = 0) (hab : (s.stc h).abandoning = false) (hstep : (s.stc h).stepped = []) (hen : s.enrolled h ≠ []) :
    exec (.opening h) s = .next (s.asOne fun s => s.scaleTokens h) := by
  refine congrArg Host.Outcome.next (State.asOne_congr ?_)
  dsimp only
  have h0 : (if (s.stc h).openPending = true ∧ (!(s.stc h).abandoning) = true ∧ s.mayOpen h = true ∧ s.acts h = true then s.beginOpening h
      else s) = s := if_neg fun hx => absurd hx.1 (by rw [hop]; decide)
  rw [h0, if_pos ⟨hst, ho, by rw [hab]; rfl, ha⟩]
  exact s.openingDone_scaleTokens h hstep hen

theorem State.opening_pending (ha : s.acts h = true) (hop : (s.stc h).openPending = true) (hs : s.switchPending h = false)
    (hh : (s.stc h).field Reg.stcHist 31 31 = 0) (hab : (s.stc h).abandoning = false) (hen : s.enrolled h ≠ []) :
    exec (.opening h) s = .next (s.asOne fun s => (s.beginOpening h).scaleTokens h) := by
  have hb := s.begun_beginOpening h
  obtain ⟨h1, h2, -, -, -, -, -, h3, h4, h5⟩ := hb.reads
  have hacts : (s.beginOpening h).acts h = true := by
    rw [hb.only]
    exact ha
  have hen' : (s.beginOpening h).enrolled h = s.enrolled h := State.enrolled_congr (by rw [hb.only]) hb.rows h
  refine congrArg Host.Outcome.next (State.asOne_congr ?_)
  dsimp only
  have hm : s.mayOpen h = true := by
    unfold State.mayOpen
    rw [hs, hh]
    rfl
  have h0 : (if (s.stc h).openPending = true ∧ (!(s.stc h).abandoning) = true ∧ s.mayOpen h = true ∧ s.acts h = true then s.beginOpening h
      else s) = s.beginOpening h := if_pos ⟨hop, by rw [hab]; rfl, hm, ha⟩
  rw [h0, if_pos ⟨h1, h2, by rw [h5, hab]; rfl, hacts⟩]
  exact (s.beginOpening h).openingDone_scaleTokens h h3 (by rw [hen']; exact hen)

/-! ### Answers of the scale TOKENs (R165, R162) -/

theorem State.scaleAnswer_taken {n : Nat} (ha : s.acts h = true) (hst : (s.stc h).st = .opening) (ho : (s.stc h).order = 1)
    (hab : (s.stc h).abandoning = false) (hn : n ∉ (s.stc h).ackToken) : s.scaleAnswer h n true =
      (s.setStc h { s.stc h with ackToken := (s.stc h).ackToken ++ [n] }).publish [s.stcWrite h n Reg.crfStep (s.stc h).step] :=
          by
  have hw (c : Stc) (v : Nat) : (s.setStc h c).stcWrite h n Reg.crfStep v = s.stcWrite h n Reg.crfStep v := by
    rw [(s.stcSet_setStc h c).only]
    rfl
  unfold State.scaleAnswer
  dsimp only
  rw [if_neg (by simp [hst, ho, hab, ha]), if_neg (by decide), if_pos hst, if_neg (by simpa using hn), hw]

theorem State.scaleAnswer_refused {n : Nat} (ha : s.acts h = true) (hst : (s.stc h).st = .opening) (ho : (s.stc h).order = 1)
    (hab : (s.stc h).abandoning = false) : s.scaleAnswer h n false =
      (s.setStc h (((s.stc h).setVerdict 3 false true).toStopped true)).raiseStc h Reg.stcFault 0 44 := by
  unfold State.scaleAnswer State.held
  dsimp only
  rw [if_neg (by simp [hst, ho, hab, ha]), if_pos (by decide), if_neg (by simp [hst, hab])]

theorem State.exec_scaleTokenAck {k : Packet} {n : Nat} (hk : k.wellFormed = true) (ht : InTurn s k)
    (hw : k.who = .scaleToken h n) :
    exec (.scaleTokenAck h k) s = .next (s.asOne fun s => (s.take k).scaleAnswer h n (k.op = 0x04 && !k.poison)) := by
  refine (State.inTurn_eq _ hk ht).trans (congrArg Host.Outcome.next (State.asOne_congr ?_))
  rw [hw]
  exact if_pos rfl

/-- The HELD verdict's bits. -/
theorem Stc.held_reads (c : Stc) (nonfinite refused : Bool) {d : Stc}
    (hd : d = ((c.setVerdict 3 nonfinite refused).toStopped true).setReg Reg.stcFault
    (((c.setVerdict 3 nonfinite refused).toStopped true).reg Reg.stcFault ||| BitVec.ofNat 64 (2 ^ 0))) :
    d.st = .stopped ∧ d.run = false ∧ d.field Reg.stcVerdict 31 30 = 3 ∧ d.field Reg.stcVerdict 26 26 = b2n refused ∧
      d.field Reg.stcVerdict 27 27 = b2n c.incomplete ∧ bit (d.reg Reg.stcFault) 0 = true := by
  have hreg : d.reg Reg.stcVerdict = (c.setVerdict 3 nonfinite refused).reg Reg.stcVerdict := by
    rw [hd, Stc.reg_setReg_ne _ _ (by decide), Stc.reg_toStopped_ne _ _ (by decide)]
  have hval : (c.setVerdict 3 nonfinite refused).reg Reg.stcVerdict = BitVec.ofNat 64
      (3 * 2 ^ 30 + b2n c.localBad * 2 ^ 29 + b2n nonfinite * 2 ^ 28 + b2n c.incomplete * 2 ^ 27 + b2n refused * 2 ^ 26) := by
    unfold Stc.setVerdict
    dsimp only
    unfold Stc.setNum
    rw [Stc.reg_setReg_ne _ _ (by decide), Stc.reg_setReg_same]
  have hb (b : Bool) : b2n b ≤ 1 := by cases b <;> decide
  have h1 := hb c.localBad
  have h2 := hb nonfinite
  have h3 := hb c.incomplete
  have h4 := hb refused
  have hf (hi lo : Nat) : d.field Reg.stcVerdict hi lo = bitsOf (3 * 2 ^ 30 + b2n c.localBad * 2 ^ 29 + b2n nonfinite * 2 ^ 28 +
      b2n c.incomplete * 2 ^ 27 + b2n refused * 2 ^ 26) hi lo := by
    unfold Stc.field fld
    rw [hreg, hval, BitVec.toNat_ofNat, Nat.mod_eq_of_lt (by omega)]
  refine ⟨by rw [hd]; rfl, ?_, ?_, ?_, ?_, ?_⟩
  · rw [hd, Stc.run_setReg_ne _ _ (by decide), Stc.run_toStopped]
  · rw [hf]
    generalize b2n c.localBad = a, b2n nonfinite = b, b2n c.incomplete = e, b2n refused = f at *
    simp only [bitsOf, Nat.reducePow, Nat.reduceAdd, Nat.reduceSub]
    omega
  · rw [hf]
    generalize b2n c.localBad = a, b2n nonfinite = b, b2n c.incomplete = e, b2n refused = f at *
    simp only [bitsOf, Nat.reducePow, Nat.reduceAdd, Nat.reduceSub]
    omega
  · rw [hf]
    generalize b2n c.localBad = a, b2n nonfinite = b, b2n c.incomplete = e, b2n refused = f at *
    simp only [bitsOf, Nat.reducePow, Nat.reduceAdd, Nat.reduceSub]
    omega
  · rw [hd, Stc.reg_setReg_same]
    exact bit_or_pow _ 0 (by decide)

end

/-- A controller that changes and raises a source, in one record. -/
theorem State.asOne_raises (s : State) (h : Hold) {f : State → State} {u : State} {c : Stc} {r b code : Nat} {opc : W16}
    (hf : f s = (u.setStc h c).raiseStc h r b code opc) : ∃ e, e.source = code ∧ e.loc = State.locHolding h ∧ StcTo h u
        (s.asOne f) ∧
      (s.asOne f).stc h = c.setReg r (c.reg r ||| BitVec.ofNat 64 (2 ^ b)) ∧ (s.asOne f).reports = u.reports ++ [e] := by
  obtain ⟨w, honly, hstcs, hr⟩ := State.raiseStc_setStc u h c r b code opc
  have hset : State.StcSet h (c.setReg r (c.reg r ||| BitVec.ofNat 64 (2 ^ b))) u w := ⟨hstcs, honly⟩
  have hall := s.tells_asOne f
  rw [hf, hr] at hall
  generalize s.asOne f = t at hall
  have hstc (j : Nat) : t.stc j = w.stc j := hall.stc j
  refine ⟨w.holdingEvent h code opc, rfl, rfl, ⟨fun j hj => (hstc j).trans (hset.stc_ne hj), ?_⟩, (hstc h).trans hset.stc, ?_⟩
  · rw [hall, hset.only]
  · rw [hall]

/-- No opening begins or goes on with no steward ACTIVE. -/
theorem State.opening_held {s : State} {h : Hold} (ha : s.active = none) : (s.asOne fun s =>
    let c := s.stc h
    let s := if c.openPending ∧ !c.abandoning ∧ s.mayOpen h ∧ s.acts h then s.beginOpening h else s
    let c := s.stc h
    if c.st = .opening ∧ c.order = 0 ∧ !c.abandoning ∧ s.acts h then
      ((s.setStc h { c with order := 1 }).publish ((s.enrolled h).map fun n => s.scaleToken h n)).openingDone h
    else s) = s := by
  have hacts := State.acts_none (h := h) ha
  refine (State.asOne_congr (g := fun s => s) ?_).trans (State.asOne_of_shadows rfl)
  dsimp only
  rw [hacts]
  have h0 : (if (s.stc h).openPending = true ∧ (!(s.stc h).abandoning) = true ∧ s.mayOpen h = true ∧ false = true then s.beginOpening h
      else s) = s := if_neg fun hx => absurd hx.2.2.2 (by decide)
  rw [h0, hacts]
  exact if_neg fun hx => absurd hx.2.2.2 (by decide)

/-- What an opening by a register write leaves. -/
theorem State.opens_spec {s : State} {h : Hold} {f : State → State} {c : Stc} (hf : f s = (s.setStc h c).beginOpening h) :
    let t := s.asOne f
    StcTo h s t ∧ t.reports = s.reports ∧ (s.standby = none → t.outq = s.outq) ∧ (t.stc h).st = .opening ∧ (t.stc h).order = 0 ∧
      (t.stc h).run = c.run ∧ (t.stc h).step = c.step ∧ (t.stc h).replays = 0 ∧ (t.stc h).committed = false ∧
      (t.stc h).num Reg.stcDoneCount = 0 ∧ (∀ p, s.owner p ≠ h → t.parish p = s.parish p) ∧
      (∀ p ∈ s.parishesOf h, (t.parish p).tallyStep.toNat = c.step % 2 ^ 32) := by
  have hb := (s.setStc h c).begun_beginOpening h
  obtain ⟨h1, h2, h3, h4, h5, h6, h7, -⟩ := hb.reads
  rw [State.stc_setStc_same] at h3 h4
  obtain ⟨k1, k2, k3, k4, k5⟩ := hb.of_setStc
  rw [← hf] at h1 h2 h3 h4 h5 h6 h7 k1 k2 k3 k4 k5
  have ht := s.tells_asOne f
  have hp : (s.asOne f).parish = (f s).parish := by
    funext p
    unfold State.parish
    rw [ht]
  dsimp only
  rw [ht.stc h, hp]
  have honly : s.asOne f = { s with
      stcs := (s.asOne f).stcs, parishes := (s.asOne f).parishes, shadows := (s.asOne f).shadows
      shadowNum := (s.asOne f).shadowNum, outq := (s.asOne f).outq } := by
    have hstcs : (s.asOne f).stcs = (f s).stcs := by rw [ht]
    have hpar : (s.asOne f).parishes = (f s).parishes := by rw [ht]
    rw [hpar, hstcs]
    exact Eq.trans ht (congrArg (fun v : State => { v with
      shadows := (s.asOne f).shadows, shadowNum := (s.asOne f).shadowNum, outq := (s.asOne f).outq }) k5)
  refine ⟨⟨fun j hj => (ht.stc j).trans (k1 j hj), ?_⟩, by rw [honly], fun hs => ?_, h1, h2, h3, h4, h5, h6, h7, fun p hq => k2 p ?_, k3⟩
  · rw [honly]
  · rw [State.asOne_of_alone f hs, k4 hs]
  · unfold State.parishesOf
    rw [List.mem_filter]
    exact fun hx => hq (of_decide_eq_true hx.2)

/-- Settles O40: an opening changes its controller and its parishes' sums; every other write its register or nothing. -/
theorem stepsOpen : Obligations.StepsOpen := by
  unfold Obligations.StepsOpen
  intro h s
  refine ⟨fun b v e he ha => ?_, fun hm => ?_, fun ha hm hst => ?_, fun ha hm hst hab hop => ⟨fun hs hh => ?_, fun hs => ?_⟩,
    fun ha hop => ?_, fun ha hop => ?_, fun ha hop hst ho hab hstep hen => ?_, fun ha hop hs hh hab hen => ?_,
    fun k n ha hk ht hw hst ho hab => ⟨fun hop hpo hn => ?_, fun hno => ?_⟩, fun ha v => ⟨fun hst hab => ?_, fun hno => ?_⟩, fun
        ha b => ?_,
    fun hh => ?_, fun ha hh => ⟨fun hno => ?_, fun hact hab => ⟨fun hst hrun => ?_, fun hw hs => ?_, fun hw hs => ?_⟩⟩,
    fun ha v => ⟨fun hst hv hd => ?_, fun hno => ?_⟩⟩
  · simp only [List.mem_cons, List.not_mem_nil, or_false] at he
    rcases he with rfl | rfl | rfl | rfl | rfl | rfl
    · exact congrArg Host.Outcome.next (State.onSet_none _ ha)
    · exact congrArg Host.Outcome.next (State.onSet_none _ ha)
    · exact congrArg Host.Outcome.next (State.onSet_none _ ha)
    · exact congrArg Host.Outcome.next (State.onSet_none _ ha)
    · exact congrArg Host.Outcome.next (State.onSet_none _ ha)
    · exact congrArg Host.Outcome.next (State.opening_held ha)
  · exact congrArg Host.Outcome.next (State.onSet_same (if_pos (by simp [hm])))
  · refine congrArg Host.Outcome.next (State.onSet_setStc (h := h) ha ?_)
    rw [hm]
    exact State.writeRun_busy hst
  · have hacts := State.acts_of ha
    obtain ⟨hact, -⟩ := ha
    have hf : s.writeRun h true s.moduleHalted = (s.setStc h ((s.stc h).setRun true)).beginOpening h := by
      rw [hm, State.writeRun_idle hacts hst hab hop, State.tryOpen_opens hs]
      exact (Stc.field_congr (Stc.reg_setRun _ _ (by decide)) _ _).trans hh
    have he : exec (.runWrite h true) s = .next (s.asOne fun s => s.writeRun h true s.moduleHalted) :=
      congrArg Host.Outcome.next (State.onSet_some _ hact)
    have hspec := State.opens_spec (f := fun s => s.writeRun h true s.moduleHalted) hf
    rw [Stc.run_setRun, Stc.step_setRun] at hspec
    exact ⟨_, he, hspec⟩
  · have hacts := State.acts_of ha
    obtain ⟨hact, -⟩ := ha
    have hf : s.writeRun h true s.moduleHalted =
        (s.setStc h ((s.stc h).setRun true)).setStc h { (s.stc h).setRun true with openPending := true } := by
      rw [hm, State.writeRun_idle hacts hst hab hop, State.tryOpen_pends]
      exact hs.imp id fun hx => by rwa [Stc.field_congr (Stc.reg_setRun _ _ (by decide))]
    have he : exec (.runWrite h true) s = .next (s.asOne fun s => s.writeRun h true s.moduleHalted) :=
      congrArg Host.Outcome.next (State.onSet_some _ hact)
    rw [he]
    exact congrArg Host.Outcome.next (State.asOne_congr hf)
  · refine congrArg Host.Outcome.next (State.onSet_setStc (h := h) ha ?_)
    have hop' : ((s.stc h).setRun false).openPending = false := hop
    unfold State.writeRun
    dsimp only
    rw [if_neg (by decide), hop', if_neg (by decide)]
  · refine congrArg Host.Outcome.next (State.onSet_setStc (h := h) ha ?_)
    unfold State.writeRun
    dsimp only
    rw [if_neg (by decide), if_pos (show ((s.stc h).setRun false).openPending = true from hop)]
    rfl
  · exact (State.opening_sends (State.acts_of ha) hop hst ho hab hstep hen).trans
      (congrArg Host.Outcome.next (State.asOne_congr rfl))
  · have he := State.opening_pending (State.acts_of ha) hop hs hh hab hen
    have hb := s.begun_beginOpening h
    obtain ⟨h1, h2, -, h3, -, -, -, -, h4, -⟩ := hb.reads
    have ht : (s.asOne fun s => (s.beginOpening h).scaleTokens h).stc h = { (s.beginOpening h).stc h with order := 1 } :=
      ((s.tells_asOne fun s => (s.beginOpening h).scaleTokens h).stc h).trans (State.stc_scaleTokens _ _)
    refine ⟨_, he, ?_, ?_, ?_, ?_⟩
    · rw [ht]
      exact h1
    · rw [ht]
    · rw [ht]
      exact h3
    · rw [ht]
      exact h4
  · have he := State.exec_scaleTokenAck hk ht hw
    have hf : (s.take k).scaleAnswer h n (k.op = 0x04 && !k.poison) = ((s.take k).setStc h
        { s.stc h with ackToken := (s.stc h).ackToken ++ [n] }).publish [s.stcWrite h n Reg.crfStep (s.stc h).step] := by
      rw [hop, hpo]
      exact State.scaleAnswer_taken (s := s.take k) (State.acts_of ha) hst ho hab hn
    exact he.trans (congrArg Host.Outcome.next (State.asOne_congr hf))
  · have he := State.exec_scaleTokenAck hk ht hw
    have hf : (s.take k).scaleAnswer h n (k.op = 0x04 && !k.poison) = ((s.take k).setStc h
        (((s.stc h).setVerdict 3 false true).toStopped true)).raiseStc h Reg.stcFault 0 44 := by
      have hok : (decide (k.op = 0x04) && !k.poison) = false := by
        rcases hno with hno | hno
        · rw [decide_eq_false hno, Bool.false_and]
        · rw [hno, Bool.not_true, Bool.and_false]
      rw [hok]
      exact State.scaleAnswer_refused (s := s.take k) (State.acts_of ha) hst ho hab
    obtain ⟨e, hsrc, hloc, hto, hc, hrep⟩ := State.asOne_raises s h
      (f := fun s => (s.take k).scaleAnswer h n (k.op = 0x04 && !k.poison)) hf
    obtain ⟨h1, h2, h3, h4, -, h5⟩ := Stc.held_reads _ _ _ hc
    exact ⟨_, e, he, hto, h1, h2, h3, h4, h5, hrep, hsrc, hloc⟩
  · refine congrArg Host.Outcome.next (State.onSet_setStc (h := h) ha ?_)
    exact if_pos ⟨hst, by rw [hab]; rfl⟩
  · refine congrArg Host.Outcome.next (State.onSet_same ?_)
    refine if_neg fun hx => ?_
    obtain ⟨h1, h2⟩ := hx
    rcases hno with hno | hno
    · exact hno h1
    · rw [hno] at h2
      exact absurd h2 (by decide)
  · refine congrArg Host.Outcome.next (State.onSet_setStc (h := h) ha ?_)
    cases b <;> rfl
  · exact congrArg Host.Outcome.next (State.onSet_same (if_pos hh))
  · refine congrArg Host.Outcome.next (State.onSet_setStc (h := h) ha ?_)
    rw [State.writeGo_eq hh]
    rcases hno with hno | hno | ⟨h1, h2⟩
    · exact if_pos (by rw [hno]; rfl)
    · exact if_pos (by rw [State.acts_false fun hx => hno hx.2]; simp)
    · rw [if_neg h1]
      split
      · rfl
      refine if_neg fun hx => h2 (.inr ?_)
      rw [Bool.and_eq_true, decide_eq_true_eq] at hx
      exact hx
  · have hg := State.writeGo_eq hh
    rw [hab, State.acts_of ⟨ha, hact⟩, if_neg (by decide), if_pos hst, hrun, if_neg (by decide)] at hg
    exact congrArg Host.Outcome.next ((State.onSet_some _ ha).trans (State.asOne_congr (f := fun s => s.writeGo h) hg))
  · have hg := State.writeGo_waits hh hab (State.acts_of ⟨ha, hact⟩) hw
    rw [State.tryOpen_pends (.inl hs)] at hg
    exact congrArg Host.Outcome.next ((State.onSet_some _ ha).trans (State.asOne_congr (f := fun s => s.writeGo h) hg))
  · have hg := State.writeGo_waits hh hab (State.acts_of ⟨ha, hact⟩) hw
    rw [State.tryOpen_opens hs (Stc.hist_cleared _)] at hg
    obtain ⟨h1, -, -, h2, h3, -, h4, -⟩ := State.opens_spec (f := fun s => s.writeGo h) hg
    have hstep : ((s.stc h).setField Reg.stcHist 31 31 0).step = (s.stc h).step := Stc.num_congr
        (Stc.reg_setReg_ne _ _ (by decide))
    exact ⟨_, congrArg Host.Outcome.next (State.onSet_some _ ha), h1, h2, h3, h4.trans hstep⟩
  · refine congrArg Host.Outcome.next (State.onSet_setStc (h := h) ha ?_)
    unfold State.writeFill
    dsimp only
    refine if_neg ?_
    rw [hd]
    rcases hst with hst | hst | hst <;> simp [Stc.stepOpen, hst, hv]
  · refine congrArg Host.Outcome.next (State.onSet_same ?_)
    unfold State.writeFill
    dsimp only
    refine if_pos ?_
    rcases hno with ⟨h1, h2, h3⟩ | hno | hno
    · simp [Stc.stepOpen, h1, h2, h3]
    · simp [hno]
    · simp [hno]

end Sys2Proof.Machine

namespace Sys2Proof.Machine
open Sys2Proof.Safety

/-! ### Values of a format that are summed with nothing (R128, R284) -/

theorem codeInt_finite (m f a : Nat) :
    (if a / 2 ^ m = 0 then a * 2 ^ (-(f : Int)).toNat * 2 ^ f
      else (2 ^ m + a % 2 ^ m) * 2 ^ (((a / 2 ^ m : Nat) : Int) - 1 - (f : Int)).toNat * 2 ^ f) =
    codeInt m a * 2 ^ (if a / 2 ^ m = 0 then (f : Int) else -(((a / 2 ^ m : Nat) : Int) - 1 - (f : Int))).toNat := by
  unfold codeInt
  split
  · have : (-(f : Int)).toNat = 0 := by omega
    rw [this, pow_zero, mul_one, Int.toNat_natCast]
  · next h =>
    rw [mul_assoc, mul_assoc, ← pow_add, ← pow_add]
    generalize a / 2 ^ m = k at h
    congr 2
    omega

theorem Fl.finite_iff {F : Fl} (c : Nat) : (F.decode c).isFinite = true ↔ c % 2 ^ (F.e + F.m) < F.infCode := by
  unfold Fl.decode
  dsimp only
  split
  · next h => simp [FV.isFinite]; omega
  · split
    · next h => simp [FV.isFinite]; omega
    · next h1 h2 =>
      split
      · simp [FV.isFinite]; omega
      · simp [FV.isFinite]; omega

/-- A finite value of a format encodes to a code of the format that is finite again. -/
theorem Fl.encode_finite {F : Fl} {c : Nat} (hf : (F.decode c).isFinite = true) :
    ∃ s k, k < F.infCode ∧ (F.encode (F.decode c)).1 = F.signCode s + k := by
  have hlt := (Fl.finite_iff c).mp hf
  obtain ⟨s, n, e, hd, hn⟩ : ∃ s n e, F.decode c = .num s n e ∧
      n * 2 ^ e.toNat * 2 ^ F.f = codeInt F.m (c % 2 ^ (F.e + F.m)) * 2 ^ (-e).toNat := by
    have hi := codeInt_finite F.m F.f (c % 2 ^ (F.e + F.m))
    unfold Fl.decode
    dsimp only
    rw [if_neg (by omega), if_neg (by omega)]
    split
    · next h =>
      rw [if_pos h, if_pos h] at hi
      refine ⟨_, _, _, rfl, hi.trans ?_⟩
      rw [Int.neg_neg]
    · next h =>
      rw [if_neg h, if_neg h] at hi
      exact ⟨_, _, _, rfl, hi⟩
  rw [hd]
  have hr := roundCode_le (m := F.m) (f := F.f) .rne hn.le
  unfold Fl.encode Fl.encodeFrac
  dsimp only
  rw [ite_self, if_neg (by omega)]
  exact ⟨s, _, by omega, rfl⟩

theorem Fl.finite_of_code {F : Fl} (hF : F.infCode < 2 ^ (F.e + F.m)) (s : Bool) {k : Nat} (hk : k < F.infCode) :
    (F.decode (F.signCode s + k)).isFinite = true := by
  rw [Fl.finite_iff]
  have : (F.signCode s + k) % 2 ^ (F.e + F.m) = k := by
    unfold Fl.signCode
    split
    · rw [Nat.add_mod_left, Nat.mod_eq_of_lt (by omega)]
    · rw [Nat.zero_add, Nat.mod_eq_of_lt (by omega)]
  omega

theorem FV.zero_add_finite {x : FV} (e : Int) (h : x.isFinite = true) :
    (FV.num false 0 e).add x = x ∨ ∃ e', (FV.num false 0 e).add x = .num false 0 e' := by
  cases x with
  | nan => exact absurd h (by decide)
  | inf s => exact absurd h (by simp [FV.isFinite])
  | num s n e' =>
    cases n with
    | zero => exact .inr ⟨e, rfl⟩
    | succ n => exact .inl rfl

/-- The sum of one finite partial is finite (R284). -/
theorem f64_sum_finite (g : W64) (h : (f64 g).isFinite = true) : (f64 (toF64 ((f64 0).add (f64 g)))).isFinite = true := by
  have h0 : f64 0 = .num false 0 (-1074) := by decide
  have hcode (x : FV) (s : Bool) (k : Nat) (hk : k < fp64.infCode) (hx : (fp64.encode x).1 = fp64.signCode s + k) :
      (f64 (toF64 x)).isFinite = true := by
    have hs : fp64.signCode s ≤ 2 ^ 63 := by cases s <;> decide
    have hi : fp64.infCode < 2 ^ 63 := by decide
    unfold f64 toF64
    rw [hx, BitVec.toNat_ofNat, Nat.mod_eq_of_lt (by omega)]
    exact Fl.finite_of_code hi s hk
  rw [h0]
  rcases FV.zero_add_finite (-1074) h with he | ⟨e, he⟩
  · rw [he]
    obtain ⟨s, k, hk, hx⟩ := Fl.encode_finite h
    exact hcode _ s k hk hx
  · rw [he]
    refine hcode _ false 0 (by decide) ?_
    rw [Fl.encode_zero (by decide), Nat.add_zero]

/-! ### Harvest chunks that leave (R261 to R264, R272) -/

/-- A controller as the leaving of chunks leaves it: the module fingerprint, the horizon, what waits and what is kept. -/
structure ChunkPassed (c d : Stc) : Prop where
  only : d = { c with regs := d.regs, horizon := d.horizon, unsent := d.unsent, kept := d.kept }
  horizon : c.horizon = true → d.horizon = true
  regs (o : Nat) : o ≠ Reg.stcFprintLo → o ≠ Reg.stcFprintHi → d.reg o = c.reg o

theorem ChunkPassed.refl (c : Stc) : ChunkPassed c c := ⟨rfl, id, fun _ _ _ => rfl⟩

theorem ChunkPassed.trans {a b c : Stc} (h : ChunkPassed a b) (h' : ChunkPassed b c) : ChunkPassed a c := by
  refine ⟨?_, fun ha => h'.horizon (h.horizon ha), fun o h1 h2 => (h'.regs o h1 h2).trans (h.regs o h1 h2)⟩
  exact h'.only.trans (congrArg (fun v : Stc => { v with regs := c.regs, horizon := c.horizon, unsent := c.unsent, kept := c.kept }) h.only)

theorem chunkPassed_prints (c : Stc) (m n : Nat) : ChunkPassed c ((c.setNum Reg.stcFprintLo m).setNum Reg.stcFprintHi n) := by
  refine ⟨rfl, id, fun o h1 h2 => ?_⟩
  unfold Stc.setNum
  rw [Stc.reg_setReg_ne _ _ h2, Stc.reg_setReg_ne _ _ h1]

/-- Past its horizon, or as it was. -/
def HorizonPassed (c d : Stc) : Prop := d = c ∨ d = { c with horizon := true }

theorem HorizonPassed.passed {c d : Stc} (h : HorizonPassed c d) : ChunkPassed c d := by
  rcases h with rfl | rfl
  · exact .refl _
  · exact ⟨rfl, fun _ => rfl, fun _ _ _ => rfl⟩

theorem HorizonPassed.trans {a b c : Stc} (h : HorizonPassed a b) (h' : HorizonPassed b c) : HorizonPassed a c := by
  rcases h with rfl | rfl <;> rcases h' with rfl | rfl
  · exact .inl rfl
  · exact .inr rfl
  · exact .inr rfl
  · exact .inr rfl

/-- Chunks of holding h leave, and others that waited at the ports with them. -/
structure State.LetOut (h : Nat) (s t : State) : Prop where
  gates (g : Nat) : SendsOn (s.gate g) (t.gate g)
  own : ChunkPassed (s.stc h) (t.stc h)
  others (j : Nat) : j ≠ h → HorizonPassed (s.stc j) (t.stc j)
  only : t = { s with gates := t.gates, stcs := t.stcs, shadows := t.shadows, shadowNum := t.shadowNum, outq := t.outq }

namespace State

variable {h : Nat} {s t u : State}

theorem LetOut.refl (h : Nat) (s : State) : State.LetOut h s s :=
  ⟨fun _ => Gate.sendsOn_refl _, .refl _, fun _ _ => .inl rfl, rfl⟩

theorem LetOut.trans (hst : State.LetOut h s t) (htu : State.LetOut h t u) : State.LetOut h s u := by
  refine ⟨fun g => Gate.sendsOn_trans (hst.gates g) (htu.gates g), hst.own.trans htu.own, fun j hj => (hst.others j hj).trans (htu.others j hj), ?_⟩
  exact htu.only.trans (congrArg (fun v : State =>
    { v with gates := u.gates, stcs := u.stcs, shadows := u.shadows, shadowNum := u.shadowNum, outq := u.outq }) hst.only)

theorem letOut_foldl {α : Type} {f : State → α → State} (hf : ∀ s a, State.LetOut h s (f s a)) (l : List α) (s : State) :
    State.LetOut h s (l.foldl f s) :=
  List.foldlRecOn (motive := fun t => State.LetOut h s t) l f (.refl h s) fun t ht a _ => ht.trans (hf t a)

theorem letOut_setStc (s : State) {c : Stc} (hc : ChunkPassed (s.stc h) c) : State.LetOut h s (s.setStc h c) := by
  have hset := s.stcSet_setStc h c
  refine ⟨fun g => ?_, ?_, fun j hj => .inl (hset.stc_ne hj), ?_⟩
  · rw [State.gate_setStc]
    exact Gate.sendsOn_refl _
  · rw [hset.stc]
    exact hc
  · have hg : (s.setStc h c).gates = s.gates := State.setStc_gates _ _ _
    rw [hg]
    exact hset.only

theorem letOut_passHorizon (s : State) (e : Nat) (m : Msg) : State.LetOut h s (s.passHorizon e m) := by
  unfold State.passHorizon
  dsimp only
  split
  · have hset := s.stcSet_setStc e { s.stc e with horizon := true }
    have hj (j : Nat) : HorizonPassed (s.stc j) ((s.setStc e { s.stc e with horizon := true }).stc j) := by
      by_cases hj : j = e
      · subst hj
        exact .inr hset.stc
      · exact .inl (hset.stc_ne hj)
    refine ⟨fun g => ?_, (hj h).passed, fun j _ => hj j, ?_⟩
    · rw [State.gate_setStc]
      exact Gate.sendsOn_refl _
    · have hg : (s.setStc e { s.stc e with horizon := true }).gates = s.gates := State.setStc_gates _ _ _
      rw [hg]
      exact hset.only
  · exact .refl h s

theorem letOut_chunksLeave (s : State) (was : List (Nat × Msg)) (g k : Nat) : State.LetOut h s (s.chunksLeave was g k) :=
  letOut_foldl (fun s (e : Nat × Msg) => letOut_passHorizon s e.1 e.2) _ s

theorem letOut_modGate (s : State) (g : Nat) {f : Gate → Gate} (hf : Gate.Transmits (s.gate g) (f (s.gate g))) :
    State.LetOut h s (s.modGate g f) := by
  refine ⟨fun j => ?_, .refl _, fun _ _ => .inl rfl, rfl⟩
  unfold State.modGate
  rw [State.gate_setGate]
  split
  · next hj =>
    rw [hj]
    exact (Gate.releases_of_transmits hf).sendsOn
  · exact Gate.sendsOn_refl _

theorem letOut_countChunk (s : State) (i : Nat) (payload : List Byte) : State.LetOut h s (s.countChunk h i payload) := by
  unfold State.countChunk Stc.setPrint
  exact letOut_setStc s (chunkPassed_prints _ _ _)

theorem letOut_launch (s : State) (i : Nat) (m : Msg) (ps : List (Nat × Nat)) : State.LetOut h s (s.launch h i m ps) := by
  unfold State.launch
  refine (letOut_countChunk s i m.payload).trans (letOut_foldl (fun s gk => ?_) ps _)
  exact (letOut_modGate s gk.1 (Gate.transmits_post _ _ _ _ _)).trans (letOut_chunksLeave _ _ _ _)

theorem letOut_sendChunk (s : State) (i half : Nat) (vs : List W32) : State.LetOut h s (s.sendChunk h i half vs) := by
  unfold State.sendChunk
  dsimp only
  split
  · exact letOut_setStc s ⟨rfl, id, fun _ _ _ => rfl⟩
  · exact letOut_launch s i _ _

theorem letOut_keepChunk (s : State) (i half : Nat) (vs : List W32) : State.LetOut h s (s.keepChunk h i half vs) := by
  unfold State.keepChunk
  dsimp only
  exact (letOut_countChunk s i _).trans (letOut_setStc _ ⟨rfl, id, fun _ _ _ => rfl⟩)

theorem letOut_passChunk (s : State) (i half : Nat) (vs : List W32) : State.LetOut h s (s.passChunk h i half vs) := by
  unfold State.passChunk
  dsimp only
  split
  · exact letOut_keepChunk s i half vs
  · exact letOut_sendChunk s i half vs

/-- The chunks that a module starts leave, once in an attempt. -/
theorem startChunks_started (s : State) (hs : (s.stc h).started = true) : s.startChunks h = s := by
  unfold State.startChunks
  exact if_pos hs

theorem letOut_startChunks (s : State) (hs : (s.stc h).started = false) :
    State.LetOut h (s.setStc h { s.stc h with started := true }) (s.startChunks h) := by
  unfold State.startChunks
  dsimp only
  rw [hs, if_neg (by decide)]
  exact letOut_foldl (f := fun s' (e : Nat × Nat) =>
    s'.passChunk h e.1 e.2 ((List.range (Config.chunkElems h e.1)).map (s'.ownChunk h e.1 e.2)))
    (fun s' e => letOut_passChunk s' e.1 e.2 _) _ _

end State

end Sys2Proof.Machine

namespace Sys2Proof.Machine
open Sys2Proof.Safety

/-! ### Summaries and tally calls (R159, R162, R38) -/

theorem State.callPackets_setStc (s : State) (h : Nat) (c : Stc) (hc : c.step = (s.stc h).step) :
    callPackets (s.setStc h c) h = callPackets s h := by
  have hset := s.stcSet_setStc h c
  have hp : (s.setStc h c).parishesOf h = s.parishesOf h := by
    rw [hset.only]
    rfl
  have ha : (s.setStc h c).active = s.active := by
    rw [hset.only]
    rfl
  unfold callPackets
  rw [hp, ha, State.stc_setStc_same, hc]

theorem State.sendCalls_eq (s : State) (h : Nat) :
    s.sendCalls h = (s.setStc h { s.stc h with callsSent := true }).publish (callPackets s h) := rfl

/-- The controller with a summary of parish m added to its totals. -/
def summed (c : Stc) (m : Summary) : Stc :=
  { c with
    parishes := c.parishes ++ [m.parish]
    sums := { c.sums with
      sat := satAdd c.sums.sat m.sat.toNat, inf := satAdd c.sums.inf m.inf.toNat, nan := satAdd c.sums.nan m.nan.toNat
      resid := satAdd c.sums.resid m.resid.toNat, acks := c.sums.acks + m.acks }
    incomplete := c.incomplete || m.incomplete }

section
variable {s : State} {h : Nat} {m : Summary}

theorem State.tallySummary_taken (ha : s.acts h = true) (hst : (s.stc h).st = .work) (hab : (s.stc h).abandoning = false)
    (hstep : m.step.toNat = (s.stc h).step) (hm : m.parish ∉ (s.stc h).parishes) (ho : s.owner m.parish = h)
    (hp : (s.stc h).published = false) : s.tallySummary h m =
      let t := (s.setStc h (summed (s.stc h) m)).publishTotals h
      let t := if (summed (s.stc h) m).callsSent then t else t.sendCalls h
      if m.incomplete then t.held h false else t.tryHandover h := by
  unfold State.tallySummary
  dsimp only
  refine if_neg ?_
  simp [ha, hst, hab, hstep, hm, ho, hp]

/-- No handover before the totals are published. -/
theorem State.tryHandover_unpublished (hp : (s.stc h).published = false) : s.tryHandover h = s := by
  unfold State.tryHandover
  dsimp only
  refine if_neg fun hx => ?_
  rw [hp] at hx
  exact absurd hx.2.2.2.2.1 (by decide)

theorem State.publishTotals_waits {p : Nat} (hp : p ∈ s.parishesOf h) (hn : p ∉ (s.stc h).parishes)
    (he : (s.parish p).expect ≠ 0) :
    s.publishTotals h = s := by
  have hall : s.allSummed h = false := by
    rw [Bool.eq_false_iff]
    intro hall
    have := List.all_eq_true.mp hall p hp
    simp [hn, he] at this
  rw [State.publishTotals_eq, hall]
  exact if_pos (by simp)

/-- A summary that is not the last of its step. -/
theorem State.tallySummary_counts (ha : s.acts h = true) (hst : (s.stc h).st = .work) (hab : (s.stc h).abandoning = false)
    (hstep : m.step.toNat = (s.stc h).step) (hm : m.parish ∉ (s.stc h).parishes) (ho : s.owner m.parish = h)
    (hp : (s.stc h).published = false) (hinc : m.incomplete = false) {p : Nat} (hpp : p ∈ s.parishesOf h) (hpm : p ≠ m.parish)
    (hpn : p ∉ (s.stc h).parishes) (hpe : (s.parish p).expect ≠ 0) : s.tallySummary h m =
      if (s.stc h).callsSent then s.setStc h (summed (s.stc h) m)
      else ((s.setStc h (summed (s.stc h) m)).setStc h { summed (s.stc h) m with callsSent := true }).publish (callPackets s h)
          := by
  have hset := s.stcSet_setStc h (summed (s.stc h) m)
  have hpub : (s.setStc h (summed (s.stc h) m)).publishTotals h = s.setStc h (summed (s.stc h) m) := by
    refine State.publishTotals_waits (p := p) ?_ ?_ ?_
    · rw [hset.only]
      exact hpp
    · rw [State.stc_setStc_same]
      exact fun hx => (List.mem_append.mp hx).elim hpn fun hx => hpm (List.mem_singleton.mp hx)
    · rw [State.parish_setStc]
      exact hpe
  rw [State.tallySummary_taken ha hst hab hstep hm ho hp]
  dsimp only
  rw [hpub, hinc, if_neg (by decide)]
  have hcs : (summed (s.stc h) m).callsSent = (s.stc h).callsSent := rfl
  rw [hcs]
  split
  · exact State.tryHandover_unpublished (by rw [State.stc_setStc_same]; exact hp)
  · rw [State.sendCalls_eq, State.stc_setStc_same, State.callPackets_setStc s h (summed (s.stc h) m) rfl]
    refine State.tryHandover_unpublished ?_
    have ht : State.StcSet h { summed (s.stc h) m with callsSent := true } (s.setStc h (summed (s.stc h) m))
        (((s.setStc h (summed (s.stc h) m)).setStc h { summed (s.stc h) m with callsSent := true }).publish (callPackets s h))
            :=
      (State.stcSet_setStc _ h _).tells (State.tells_publish _ _)
    rw [ht.stc]
    exact hp

/-- What a summary that is accepted leaves of the controllers and the events. -/
theorem State.stcsReports_acceptSummary (s : State) (h : Nat) (m : Summary) : (s.accept (.summary h m)).stcsReports =
    s.stcsReports := by
  unfold State.accept State.waitFor
  split
  · rfl
  · rfl


end

section
variable {s : State} {h : Hold} {m : Summary}

/-- A controller that is at work on an attempt that an incomplete summary ends. -/
structure HeldAtWork (h : Nat) (s t : State) : Prop where
  st : (t.stc h).st = .work
  abandoning : (t.stc h).abandoning = false
  incomplete : (t.stc h).incomplete = true
  reports : ∃ l, t.reports = s.reports ++ l

theorem State.heldAtWork_publishTotals {c : Stc} (hst : c.st = .work) (hab : c.abandoning = false) (hinc : c.incomplete = true)
    :
    HeldAtWork h s ((s.setStc h c).publishTotals h) := by
  have hset := s.stcSet_setStc h c
  rw [State.publishTotals_eq, State.stc_setStc_same]
  split
  · exact ⟨by rw [hset.stc]; exact hst, by rw [hset.stc]; exact hab, by rw [hset.stc]; exact hinc, [], by rw [hset.reports, List.append_nil]⟩
  · split
    · obtain ⟨u, honly, hstcs, hr⟩ := State.raiseStc_setStc (s.setStc h c) h (totalled c) Reg.stcFault 2 46 0
      have hu : State.StcSet h ((totalled c).setReg Reg.stcFault ((totalled c).reg Reg.stcFault ||| BitVec.ofNat 64 (2 ^ 2)))
          (s.setStc h c) u :=
        ⟨hstcs, honly⟩
      have hs := hu.stc
      rw [hr]
      refine ⟨?_, ?_, ?_, [u.holdingEvent h 46 0], ?_⟩
      · change (u.stc h).st = _
        rw [hs]
        exact hst
      · change (u.stc h).abandoning = _
        rw [hs]
        exact hab
      · change (u.stc h).incomplete = _
        rw [hs]
        exact hinc
      · change (s.setStc h c).reports ++ _ = _
        rw [hset.reports]
    · have hset' := hset.trans ((s.setStc h c).stcSet_setStc h (totalled c))
      exact ⟨by rw [hset'.stc]; exact hst, by rw [hset'.stc]; exact hab, by rw [hset'.stc]; exact hinc, [],
        by rw [hset'.reports, List.append_nil]⟩

theorem State.heldAtWork_sendCalls {t : State} (ht : HeldAtWork h s t) : HeldAtWork h s (t.sendCalls h) := by
  have hset : State.StcSet h { t.stc h with callsSent := true } t (t.sendCalls h) := by
    rw [State.sendCalls_eq]
    exact (State.stcSet_setStc t h _).tells (State.tells_publish _ _)
  obtain ⟨h1, h2, h3, l, h4⟩ := ht
  exact ⟨by rw [hset.stc]; exact h1, by rw [hset.stc]; exact h2, by rw [hset.stc]; exact h3, l, by rw [hset.reports, h4]⟩

theorem State.held_atWork {t : State} (ht : HeldAtWork h s t) : t.held h false =
    (t.setStc h (((t.stc h).setVerdict 3 false false).toStopped true)).raiseStc h Reg.stcFault 0 44 := by
  unfold State.held
  dsimp only
  exact if_neg (by simp [ht.st, ht.abandoning])

/-- An incomplete summary stops the step. -/
theorem State.tallySummary_stops (ha : s.acts h = true) (hst : (s.stc h).st = .work) (hab : (s.stc h).abandoning = false)
    (hstep : m.step.toNat = (s.stc h).step) (hm : m.parish ∉ (s.stc h).parishes) (ho : s.owner m.parish = h)
    (hp : (s.stc h).published = false) (hinc : m.incomplete = true) :
    ∃ l e, e.source = 44 ∧ (s.tallySummary h m).reports = s.reports ++ l ++ [e] ∧ ((s.tallySummary h m).stc h).st = .stopped ∧
      ((s.tallySummary h m).stc h).run = false ∧ ((s.tallySummary h m).stc h).field Reg.stcVerdict 31 30 = 3 ∧
      ((s.tallySummary h m).stc h).field Reg.stcVerdict 27 27 = 1 ∧ bit (((s.tallySummary h m).stc h).reg Reg.stcFault) 0 = true
          := by
  rw [State.tallySummary_taken ha hst hab hstep hm ho hp]
  dsimp only
  have h1 : HeldAtWork h s ((s.setStc h (summed (s.stc h) m)).publishTotals h) :=
    State.heldAtWork_publishTotals hst hab (by change ((s.stc h).incomplete || m.incomplete) = true; rw [hinc, Bool.or_true])
  generalize (s.setStc h (summed (s.stc h) m)).publishTotals h = t1 at h1 ⊢
  have h2 : HeldAtWork h s (if (summed (s.stc h) m).callsSent then t1 else t1.sendCalls h) := by
    split
    · exact h1
    · exact State.heldAtWork_sendCalls h1
  generalize (if (summed (s.stc h) m).callsSent then t1 else t1.sendCalls h) = t2 at h2 ⊢
  obtain ⟨u, honly, hstcs, hr⟩ := State.raiseStc_setStc t2 h (((t2.stc h).setVerdict 3 false false).toStopped true) Reg.stcFault 0 44 0
  obtain ⟨l, hl⟩ := h2.reports
  have hu : u.stc h = (((t2.stc h).setVerdict 3 false false).toStopped true).setReg Reg.stcFault
      ((((t2.stc h).setVerdict 3 false false).toStopped true).reg Reg.stcFault ||| BitVec.ofNat 64 (2 ^ 0)) := by
    unfold State.stc
    rw [hstcs]
    exact Tab.get_set_same _ _ _ _
  rw [if_pos hinc, State.held_atWork h2, hr]
  obtain ⟨k1, k2, k3, -, k4, k5⟩ := Stc.held_reads _ _ _ hu
  rw [h2.incomplete] at k4
  refine ⟨l, u.holdingEvent h 44 0, rfl, ?_, k1, k2, k3, k4, k5⟩
  change t2.reports ++ _ = _
  rw [hl]

end

/-! ### The partial's commit (R282, R264) -/

theorem State.acts_of_only {s t : State} (ha : t.stewards = s.stewards) (hh : t.holdings = s.holdings) (h : Nat) : t.acts h =
    s.acts h := by
  unfold State.acts State.holding State.active State.steward
  rw [ha, hh]

/-- A raise of a controller's source, in one record. -/
theorem State.asOne_raised (s : State) (h : Hold) {f : State → State} {r b code : Nat} {opc : W16}
    (hf : f s = s.raiseStc h r b code opc) : ∃ x, StcTo h s (s.asOne f) ∧
      (s.asOne f).stc h = (s.stc h).setReg r ((s.stc h).reg r ||| BitVec.ofNat 64 (2 ^ b)) ∧ (s.asOne f).reports = s.reports ++
          [x] ∧
      x.source = code ∧ x.loc = State.locHolding h := by
  obtain ⟨x, hc, hl, hr⟩ := State.raiseStc_eq s h r b code opc
  have hset := s.stcSet_setStc h ((s.stc h).setReg r ((s.stc h).reg r ||| BitVec.ofNat 64 (2 ^ b)))
  have hall := s.tells_asOne f
  rw [hf, hr] at hall
  have ht : (s.asOne f).stcs = (s.setStc h ((s.stc h).setReg r ((s.stc h).reg r ||| BitVec.ofNat 64 (2 ^ b)))).stcs := by
    rw [hall]
  refine ⟨x, ⟨fun j hj => ?_, ?_⟩, ?_, ?_, hc, hl⟩
  · unfold State.stc
    rw [ht]
    exact hset.stc_ne hj
  · rw [hall, hset.only]
  · unfold State.stc
    rw [ht]
    exact hset.stc
  · rw [hall]

/-- The chunks of holding h have been started. -/
structure State.ChunksStarted (h : Nat) (s u : State) : Prop where
  gates (g : Nat) : SendsOn (s.gate g) (u.gate g)
  own : ChunkPassed { s.stc h with started := true } (u.stc h)
  others (j : Nat) : j ≠ h → HorizonPassed (s.stc j) (u.stc j)
  only : u = { s with gates := u.gates, stcs := u.stcs, shadows := u.shadows, shadowNum := u.shadowNum, outq := u.outq }

theorem State.chunksStarted (s : State) (h : Nat) : State.ChunksStarted h s (s.startChunks h) := by
  cases hs : (s.stc h).started with
  | true =>
    rw [State.startChunks_started s hs]
    have hc : ({ s.stc h with started := true } : Stc) = s.stc h := by
      rw [← hs]
    exact ⟨fun g => Gate.sendsOn_refl _, by rw [hc]; exact .refl _, fun _ _ => .inl rfl, rfl⟩
  | false =>
    have hset := s.stcSet_setStc h { s.stc h with started := true }
    obtain ⟨hg, ho, hr, honly⟩ := State.letOut_startChunks s hs
    refine ⟨fun g => ?_, ?_, fun j hj => ?_, ?_⟩
    · have := hg g
      rwa [State.gate_setStc] at this
    · rwa [hset.stc] at ho
    · have := hr j hj
      rwa [hset.stc_ne hj] at this
    · exact Eq.trans honly (congrArg (fun v : State => { v with
        gates := (s.startChunks h).gates, stcs := (s.startChunks h).stcs, shadows := (s.startChunks h).shadows
        shadowNum := (s.startChunks h).shadowNum, outq := (s.startChunks h).outq }) hset.only)

/-- The controller with its partial committed. -/
def partCommitted (c : Stc) (v : W32) : Stc := { c.setReg Reg.stcNormPartHi (v.setWidth 64) with committed := true }

section
variable {s : State} {h : Nat} {v : W32}

theorem State.commitPartial_commits (ha : s.acts h = true) (hst : (s.stc h).st = .work) (hc : (s.stc h).committed = false)
    (hab : (s.stc h).abandoning = false) (hm : (s.stc h).mirror = false) : s.commitPartial h v =
      ((s.startChunks h).setStc h (partCommitted ((s.startChunks h).stc h) v)).tryHandover h := by
  unfold State.commitPartial
  dsimp only
  rw [ha, if_neg (by decide), if_pos ⟨hst, by rw [hc]; decide, by rw [hab]; decide⟩, hm, if_neg (by decide)]
  rfl

theorem State.commitPartial_idle (ha : s.acts h = false) : s.commitPartial h v = s := by
  unfold State.commitPartial
  rw [ha]
  exact if_pos rfl

theorem State.commitPartial_raises (ha : s.acts h = true)
    (hc : (s.stc h).st ≠ .work ∨ (s.stc h).committed = true ∨ (s.stc h).abandoning = true) :
    s.commitPartial h v = s.raiseStc h Reg.stcUpdFault 1 53 (State.accessOpcode Reg.stcNormPartHi) := by
  unfold State.commitPartial
  dsimp only
  rw [ha, if_neg (by decide)]
  refine if_neg fun ⟨h1, h2, h3⟩ => ?_
  rcases hc with hc | hc | hc
  · exact hc h1
  · rw [hc] at h2
    exact absurd h2 (by decide)
  · rw [hc] at h3
    exact absurd h3 (by decide)

/-- A partial committed before the totals stand. -/
theorem State.commitPartial_early (ha : s.acts h = true) (hst : (s.stc h).st = .work) (hc : (s.stc h).committed = false)
    (hab : (s.stc h).abandoning = false) (hm : (s.stc h).mirror = false) (hp : (s.stc h).published = false) : s.commitPartial h
        v =
      (s.startChunks h).setStc h (partCommitted ((s.startChunks h).stc h) v) := by
  rw [State.commitPartial_commits ha hst hc hab hm]
  refine State.tryHandover_unpublished ?_
  rw [State.stc_setStc_same]
  change ((s.startChunks h).stc h).published = false
  rw [(State.chunksStarted s h).own.only]
  exact hp

theorem exec_stcNormPartHiWrite (h : Hold) (v : W32) (s : State) :
    exec (.stcNormPartHiWrite h v) s = .next (s.asOne fun s => s.commitPartial h v) := rfl

end

section
variable {s : State} {h : Hold} {v : W32}

/-- The commit that starts the module's half of the ring. -/
theorem State.commit_starts (ha : s.acts h = true) (hst : (s.stc h).st = .work) (hc : (s.stc h).committed = false)
    (hab : (s.stc h).abandoning = false) (hm : (s.stc h).mirror = false) (hp : (s.stc h).published = false) :
    ∃ t, exec (.stcNormPartHiWrite h v) s = .next t ∧ (t.stc h).committed = true ∧ (t.stc h).started = true ∧
      (t.stc h).reg Reg.stcNormPartHi = v.setWidth 64 ∧ (t.stc h).st = .work ∧ (t.stc h).step = (s.stc h).step ∧
      (∀ j, j ≠ h.val → t.stc j = s.stc j ∨ t.stc j = { s.stc j with horizon := true }) ∧
      (∀ g, SendsOn (s.gate g) (t.gate g)) ∧ t.crofts = s.crofts ∧ t.parishes = s.parishes ∧ t.reports = s.reports := by
  have hall := s.tells_asOne fun s => s.commitPartial h v
  rw [State.commitPartial_early ha hst hc hab hm hp] at hall
  have hu := State.chunksStarted s h
  have hset := State.stcSet_setStc (s.startChunks h) h (partCommitted ((s.startChunks h).stc h) v)
  have ht := hset.tells hall
  have hown := hu.own.only
  refine ⟨_, exec_stcNormPartHiWrite h v s, by rw [ht.stc]; rfl, ?_, ?_, ?_, ?_, fun j hj => ?_, fun g => ?_, ?_, ?_, ?_⟩
  · rw [ht.stc]
    change ((s.startChunks h).stc h).started = true
    rw [hown]
  · rw [ht.stc]
    exact Stc.reg_setReg_same _ _ _
  · rw [ht.stc]
    change ((s.startChunks h).stc h).st = .work
    rw [hown]
    exact hst
  · rw [ht.stc]
    refine Stc.num_congr ((Stc.reg_setReg_ne _ _ (by decide)).trans ?_)
    exact hu.own.regs _ (by decide) (by decide)
  · rw [ht.stc_ne hj]
    exact hu.others j hj
  · have hg : (s.asOne fun s => s.commitPartial h v).gate g = (s.startChunks h).gate g := by
      rw [ht.only]
      rfl
    rw [hg]
    exact hu.gates g
  · rw [ht.only]
    change (s.startChunks h).crofts = s.crofts
    rw [hu.only]
  · rw [ht.only]
    change (s.startChunks h).parishes = s.parishes
    rw [hu.only]
  · rw [ht.reports, hu.only]

theorem State.commit_started (ha : s.acts h = true) (hst : (s.stc h).st = .work) (hc : (s.stc h).committed = false)
    (hab : (s.stc h).abandoning = false) (hm : (s.stc h).mirror = false) (hp : (s.stc h).published = false)
    (hs : (s.stc h).started = true) :
    exec (.stcNormPartHiWrite h v) s =
      .next (s.setStc h { (s.stc h).setReg Reg.stcNormPartHi (v.setWidth 64) with committed := true }) := by
  refine congrArg Host.Outcome.next (s.asOne_setStc (fun s => s.commitPartial h v) h _ ?_)
  refine (State.commitPartial_early ha hst hc hab hm hp).trans ?_
  rw [State.startChunks_started s hs]
  rfl

end

/-! ### The verdict of a lone module (R161, R163, R283) -/

/-- The controller that a CLEAN verdict leaves where crofts are enrolled. -/
def cleanVerdict (c : Stc) (g : W64) : Stc :=
  let d := ((c.setVerdict 1 false false).keepClean).setReg Reg.stcNormKappa ((((c.setVerdict 1 false false).keepClean).kappa g).setWidth 64)
  { d.setReg Reg.stcSchedOut ((d.recordOf.getD 2 0).setWidth 64) with st := .update, record := d.recordOf }

theorem Stc.reg_setKeeper (c : Stc) (e : Int) (n : Nat) {o : Nat} (ho : o ≠ Reg.stcLsState) : (c.setKeeper e n).reg o = c.reg o
    :=
  Stc.reg_setReg_ne _ _ ho

theorem Stc.reg_setFieldAt (c : Stc) (p hi lo n : Nat) {o : Nat} (ho : o ≠ p) : (c.setField p hi lo n).reg o = c.reg o :=
  Stc.reg_setReg_ne _ _ ho

theorem Stc.reg_setNumAt (c : Stc) (p n : Nat) {o : Nat} (ho : o ≠ p) : (c.setNum p n).reg o = c.reg o :=
  Stc.reg_setReg_ne _ _ ho

/-- The history fill of a holding with delayed scaling (R170). -/
def historyFilled (c : Stc) : Stc :=
  if c.field Reg.stcCfg 7 7 = 1 ∧ c.field Reg.stcHist 4 0 < 16 then
    if c.field Reg.stcHist 4 0 + 1 = 16 then
      (c.setField Reg.stcHist 4 0 (c.field Reg.stcHist 4 0 + 1)).setField Reg.stcHist 31 31 1
    else c.setField Reg.stcHist 4 0 (c.field Reg.stcHist 4 0 + 1)
  else c

theorem Stc.reg_historyFilled (c : Stc) {o : Nat} (h : o ≠ Reg.stcHist) : (historyFilled c).reg o = c.reg o := by
  unfold historyFilled
  split
  · split
    · rw [Stc.reg_setFieldAt _ _ _ _ _ h, Stc.reg_setFieldAt _ _ _ _ _ h]
    · exact Stc.reg_setFieldAt _ _ _ _ _ h
  · rfl

theorem Stc.keepClean_eq (c : Stc) : c.keepClean = historyFilled
    (if c.field Reg.stcLsGrowth 15 0 = 0 ∨ c.field Reg.stcLsState 31 16 + 1 < c.field Reg.stcLsGrowth 15 0
      then c.setKeeper c.exp (min (c.field Reg.stcLsState 31 16 + 1) 65535)
      else c.setKeeper (if c.exp < c.maxExp then c.exp + 1 else c.exp) 0) := rfl

theorem Stc.reg_keepClean (c : Stc) {o : Nat} (h1 : o ≠ Reg.stcLsState) (h2 : o ≠ Reg.stcHist) : c.keepClean.reg o = c.reg o :=
    by
  rw [Stc.keepClean_eq, Stc.reg_historyFilled _ h2]
  split
  · exact Stc.reg_setKeeper _ _ _ h1
  · exact Stc.reg_setKeeper _ _ _ h1

theorem Stc.reg_cleanVerdict (c : Stc) (g : W64) {o : Nat} (h1 : o ≠ Reg.stcLsState) (h2 : o ≠ Reg.stcHist)
    (h3 : o ≠ Reg.stcNormKappa) (h4 : o ≠ Reg.stcSchedOut) : (cleanVerdict c g).reg o = (c.setVerdict 1 false false).reg o :=
  (Stc.reg_setReg_ne _ _ h4).trans ((Stc.reg_setReg_ne _ _ h3).trans (Stc.reg_keepClean _ h1 h2))

theorem Stc.cleanVerdict_reads (c : Stc) (g : W64) : (cleanVerdict c g).st = .update ∧
    (cleanVerdict c g).field Reg.stcVerdict 31 30 = 1 ∧ (cleanVerdict c g).num Reg.stcVerdictStep = c.step ∧
    (cleanVerdict c g).step = c.step ∧ (cleanVerdict c g).record.length = 5 ∧
    (cleanVerdict c g).field Reg.stcDoneCount 14 0 = c.field Reg.stcDoneCount 14 0 := by
  have hv : (cleanVerdict c g).reg Reg.stcVerdict = BitVec.ofNat 64 (1 * 2 ^ 30 + b2n c.localBad * 2 ^ 29 + b2n false * 2 ^ 28 +
      b2n c.incomplete * 2 ^ 27 + b2n false * 2 ^ 26) :=
    (Stc.reg_cleanVerdict c g (by decide) (by decide) (by decide) (by decide)).trans
      ((Stc.reg_setNumAt _ _ _ (by decide)).trans (Stc.reg_setReg_same _ _ _))
  have hb (b : Bool) : b2n b ≤ 1 := by cases b <;> decide
  have h1 := hb c.localBad
  have h3 := hb c.incomplete
  have hother {o : Nat} (k1 : o ≠ Reg.stcVerdict) (k2 : o ≠ Reg.stcVerdictStep) : (c.setVerdict 1 false false).reg o = c.reg o :=
    (Stc.reg_setNumAt _ _ _ k2).trans (Stc.reg_setNumAt _ _ _ k1)
  refine ⟨rfl, ?_, ?_, ?_, rfl, ?_⟩
  · unfold Stc.field fld
    rw [hv, BitVec.toNat_ofNat]
    have h0 : b2n false = 0 := rfl
    rw [h0]
    generalize b2n c.localBad = a, b2n c.incomplete = e at *
    simp only [bitsOf, Nat.reducePow, Nat.reduceAdd, Nat.reduceSub]
    omega
  · refine (Stc.num_congr (Stc.reg_cleanVerdict c g (by decide) (by decide) (by decide) (by decide))).trans ?_
    exact (Stc.num_setNum _ _ _ _ (BitVec.isLt _)).trans (if_pos rfl)
  · exact Stc.num_congr ((Stc.reg_cleanVerdict c g (by decide) (by decide) (by decide) (by decide)).trans (hother (by decide) (by decide)))
  · exact Stc.field_congr ((Stc.reg_cleanVerdict c g (by decide) (by decide) (by decide) (by decide)).trans
      (hother (by decide) (by decide))) _ _

/-- A CLEAN verdict before the last done report. -/
theorem State.stcSet_verdictClean {s : State} {h : Nat} (g : W64)
    (hd : (s.stc h).field Reg.stcDoneCount 14 0 < (s.enrolled h).length) :
    State.StcSet h (cleanVerdict (s.stc h) g) s (s.verdictClean h g) := by
  have hne : (s.enrolled h).isEmpty = false := by
    cases he : s.enrolled h with
    | nil =>
      rw [he] at hd
      exact absurd hd (Nat.not_lt_zero _)
    | cons a l => rfl
  have hset := s.stcSet_setStc h (cleanVerdict (s.stc h) g)
  have htell := State.tells_publish (s.setStc h (cleanVerdict (s.stc h) g))
    (((s.setStc h (cleanVerdict (s.stc h) g)).enrolled h).flatMap fun n => (List.range 5).map fun i =>
      (s.setStc h (cleanVerdict (s.stc h) g)).recordToken h n i)
  have ht := hset.tells htell
  have hdone : ∀ t, State.StcSet h (cleanVerdict (s.stc h) g) s t → t.checkDone h = t := fun t ht => by
    unfold State.checkDone
    dsimp only
    refine if_neg fun hx => ?_
    obtain ⟨-, -, -, hx⟩ := hx
    rw [ht.stc, ht.enrolled h, (Stc.cleanVerdict_reads _ _).2.2.2.2.2] at hx
    omega
  have he : s.verdictClean h g = ((s.setStc h (cleanVerdict (s.stc h) g)).publish
      (((s.setStc h (cleanVerdict (s.stc h) g)).enrolled h).flatMap fun n => (List.range 5).map fun i =>
        (s.setStc h (cleanVerdict (s.stc h) g)).recordToken h n i)).checkDone h := by
    unfold State.verdictClean
    dsimp only
    rw [hne, if_neg (by decide)]
    rfl
  rw [he, hdone _ ht]
  exact ht

/-- A lone module's own partial, handed over. -/
def handedOver (c : Stc) : Stc := { c.setPart c.ringPos c.partial_ with st := .combine, handed := true }

theorem State.tryHandover_hands {s : State} {h : Nat} (ha : s.acts h = true) (hst : (s.stc h).st = .work)
    (hab : (s.stc h).abandoning = false) (hc : (s.stc h).committed = true) (hp : (s.stc h).published = true)
    (hi : (s.stc h).incomplete = false) (hm : (s.stc h).mirror = false) (hb : (s.stc h).localBad = false)
        (hn : (s.stc h).ringN = 1) :
    s.tryHandover h = (s.setStc h (handedOver (s.stc h))).combine h := by
  unfold State.tryHandover
  dsimp only
  rw [if_pos ⟨hst, ha, by rw [hab]; decide, hc, hp, by rw [hi]; decide, by rw [hm]; rfl⟩, hb, if_neg (by decide)]
  refine congrArg (fun t : State => t.combine h) ?_
  unfold State.sendNorm
  rw [State.stc_setStc_same]
  exact if_pos hn

/-- The sum register pair with a total that has been formed. -/
def combinedSum (c : Stc) (g : W64) : Stc :=
  { (c.setNum Reg.stcNormSumLo (g.toNat % 2 ^ 32)).setNum Reg.stcNormSumHi (g.toNat / 2 ^ 32) with combined := true }

theorem State.combine_clean {s : State} {h : Nat} (hst : (s.stc h).st = .combine) (ha : s.acts h = true)
    (hh : (s.stc h).handed = true)
    (hc : (s.stc h).combined = false) (hab : (s.stc h).abandoning = false) (hall : (s.stc h).allParts = true)
    (hf : (f64 (s.stc h).total).isFinite = true) :
    s.combine h = (s.setStc h (combinedSum (s.stc h) (s.stc h).total)).verdictClean h (s.stc h).total := by
  unfold State.combine
  dsimp only
  rw [if_pos ⟨hst, ha, hh, by rw [hc]; decide, by rw [hab]; decide, hall⟩, if_pos hf]
  rfl

theorem Stc.lone_sum (c : Stc) (hn : c.ringN = 1) (hp : c.ringPos = 0) : (handedOver c).allParts = true ∧
    (handedOver c).total = toF64 ((f64 0).add (f64 c.partial_)) := by
  have hpart : (handedOver c).part 0 = some c.partial_ := by
    have : (handedOver c).parts = Tab.set (fun _ => none) c.parts 0 (some c.partial_) := by
      rw [← hp]
      rfl
    unfold Stc.part
    rw [this]
    exact Tab.get_set_same _ _ _ _
  have hn' : (handedOver c).ringN = 1 := hn
  unfold Stc.allParts Stc.total
  rw [hn']
  refine ⟨?_, ?_⟩
  · simp [hpart]
  · simp [hpart]

section
variable {s : State} {h : Hold} {v : W32}

/-- The commit of a lone module's finite partial. -/
theorem State.commit_clean (ha : s.acts h = true) (hst : (s.stc h).st = .work) (hc : (s.stc h).committed = false)
    (hab : (s.stc h).abandoning = false) (hm : (s.stc h).mirror = false) (hp : (s.stc h).published = true)
    (hi : (s.stc h).incomplete = false) (hb : (s.stc h).localBad = false) (hn : (s.stc h).ringN = 1)
        (hpos : (s.stc h).ringPos = 0)
    (hco : (s.stc h).combined = false) (hd : (s.stc h).field Reg.stcDoneCount 14 0 < (s.enrolled h).length)
    (hf : (f64 (BitVec.ofNat 64 (v.toNat * 2 ^ 32 + (s.stc h).num Reg.stcNormPartLo))).isFinite = true) :
    ∃ t, exec (.stcNormPartHiWrite h v) s = .next t ∧ (t.stc h).st = .update ∧
      (t.stc h).field Reg.stcVerdict 31 30 = 1 ∧ (t.stc h).num Reg.stcVerdictStep = (s.stc h).step ∧ (t.stc h).step =
          (s.stc h).step ∧
      (t.stc h).record.length = 5 ∧ t.crofts = s.crofts ∧ t.parishes = s.parishes := by
  have hu := State.chunksStarted s h
  have hall := s.tells_asOne fun s => s.commitPartial h v
  rw [State.commitPartial_commits ha hst hc hab hm] at hall
  generalize s.startChunks h = u at hu hall
  have hown := hu.own.only
  have hregs := hu.own.regs
  generalize hx : u.stc h = d at hown hregs hall
  have hreg {o : Nat} (h1 : o ≠ Reg.stcFprintLo) (h2 : o ≠ Reg.stcFprintHi) (h3 : o ≠ Reg.stcNormPartHi) :
      (partCommitted d v).reg o = (s.stc h).reg o := (Stc.reg_setReg_ne _ _ h3).trans (hregs o h1 h2)
  have hset := u.stcSet_setStc h (partCommitted d v)
  have hpart : (partCommitted d v).partial_ = BitVec.ofNat 64 (v.toNat * 2 ^ 32 + (s.stc h).num Reg.stcNormPartLo) := by
    have h1 : (partCommitted d v).num Reg.stcNormPartHi = v.toNat := by
      refine (congrArg BitVec.toNat (Stc.reg_setReg_same d Reg.stcNormPartHi (v.setWidth 64))).trans ?_
      rw [BitVec.toNat_setWidth, Nat.mod_eq_of_lt (by omega)]
    have h2 : (partCommitted d v).num Reg.stcNormPartLo = (s.stc h).num Reg.stcNormPartLo :=
      Stc.num_congr (hreg (by decide) (by decide) (by decide))
    unfold Stc.partial_
    rw [h1, h2]
  have hacts (t : State) (ht : t.stewards = u.stewards) (ht' : t.holdings = u.holdings) : t.acts h = true := by
    rw [State.acts_of_only ht ht', State.acts_of_only (s := s) (by rw [hu.only]) (by rw [hu.only])]
    exact ha
  generalize hw : u.setStc h (partCommitted d v) = w at hset hall
  have hwstc := hset.stc
  have hmir : (partCommitted d v).mirror = false := by
    unfold Stc.mirror
    rw [hreg (by decide) (by decide) (by decide)]
    exact hm
  have hring : (partCommitted d v).ringN = 1 := by
    unfold Stc.ringN
    rw [Stc.field_congr (hreg (by decide) (by decide) (by decide))]
    exact hn
  have hpos' : (partCommitted d v).ringPos = 0 := (Stc.field_congr (hreg (by decide) (by decide) (by decide)) _ _).trans hpos
  have hwork : (partCommitted d v).st = .work := by
    change d.st = .work
    rw [hown]
    exact hst
  have habn : (partCommitted d v).abandoning = false := by
    change d.abandoning = false
    rw [hown]
    exact hab
  have hpub : (partCommitted d v).published = true := by
    change d.published = true
    rw [hown]
    exact hp
  have hinc : (partCommitted d v).incomplete = false := by
    change d.incomplete = false
    rw [hown]
    exact hi
  have hlb : (partCommitted d v).localBad = false := by
    change d.localBad = false
    rw [hown]
    exact hb
  have hcmb : (partCommitted d v).combined = false := by
    change d.combined = false
    rw [hown]
    exact hco
  have hcount : (partCommitted d v).field Reg.stcDoneCount 14 0 = (s.stc h).field Reg.stcDoneCount 14 0 :=
    Stc.field_congr (hreg (by decide) (by decide) (by decide)) _ _
  have hstep : (partCommitted d v).step = (s.stc h).step := Stc.num_congr (hreg (by decide) (by decide) (by decide))
  have hcom : (partCommitted d v).committed = true := rfl
  generalize partCommitted d v = e at *
  rw [State.tryHandover_hands (hacts w (by rw [hset.only]) (by rw [hset.only])) (by rw [hwstc]; exact hwork) (by rw [hwstc]; exact habn)
    (by rw [hwstc]; exact hcom) (by rw [hwstc]; exact hpub) (by rw [hwstc]; exact hinc) (by rw [hwstc]; exact hmir)
    (by rw [hwstc]; exact hlb) (by rw [hwstc]; exact hring), hwstc] at hall
  have hset2 := hset.trans (w.stcSet_setStc h (handedOver e))
  generalize w.setStc h (handedOver e) = w2 at hset2 hall
  obtain ⟨hparts, htotal⟩ := Stc.lone_sum e hring hpos'
  rw [State.combine_clean (by rw [hset2.stc]; rfl) (hacts w2 (by rw [hset2.only]) (by rw [hset2.only])) (by rw [hset2.stc]; rfl)
    (by rw [hset2.stc]; exact hcmb) (by rw [hset2.stc]; exact habn) (by rw [hset2.stc]; exact hparts)
    (by rw [hset2.stc, htotal, hpart]; exact f64_sum_finite _ hf), hset2.stc] at hall
  have hset3 := hset2.trans (w2.stcSet_setStc h (combinedSum (handedOver e) (handedOver e).total))
  generalize w2.setStc h (combinedSum (handedOver e) (handedOver e).total) = w3 at hset3 hall
  have hsum {o : Nat} (h1 : o ≠ Reg.stcNormSumLo) (h2 : o ≠ Reg.stcNormSumHi) :
      (combinedSum (handedOver e) (handedOver e).total).reg o = e.reg o :=
    (Stc.reg_setNumAt _ _ _ h2).trans (Stc.reg_setNumAt _ _ _ h1)
  have hverd := State.stcSet_verdictClean (s := w3) (h := h) (handedOver e).total (by
    rw [hset3.stc, hset3.enrolled h, Stc.field_congr (hsum (by decide) (by decide)), hcount]
    have : u.enrolled h = s.enrolled h := by
      rw [hu.only]
      rfl
    rw [this]
    exact hd)
  rw [hset3.stc] at hverd
  have ht := (hset3.trans hverd).tells hall
  obtain ⟨r1, r2, r3, r4, r5, -⟩ := Stc.cleanVerdict_reads (combinedSum (handedOver e) (handedOver e).total) (handedOver e).total
  have hs3 : (combinedSum (handedOver e) (handedOver e).total).step = (s.stc h).step :=
    (Stc.num_congr (hsum (by decide) (by decide))).trans hstep
  refine ⟨_, exec_stcNormPartHiWrite h v s, ?_, ?_, ?_, ?_, ?_, ?_, ?_⟩
  · rw [ht.stc]
    exact r1
  · rw [ht.stc]
    exact r2
  · rw [ht.stc, r3, hs3]
  · rw [ht.stc, r4, hs3]
  · rw [ht.stc]
    exact r5
  · rw [ht.only]
    change u.crofts = s.crofts
    rw [hu.only]
  · rw [ht.only]
    change u.parishes = s.parishes
    rw [hu.only]

end

/-! ### Messages of the ring and of the mirror (R283, R273) -/

section
variable {s : State} {h : Hold}

theorem State.combine_working {t : State} {h : Nat} (hst : (t.stc h).st = .work) : t.combine h = t := by
  unfold State.combine
  dsimp only
  refine if_neg fun hx => ?_
  rw [hst] at hx
  exact absurd hx.1 (by decide)

theorem State.comparePrints_uncommitted {t : State} {h : Nat} (hc : (t.stc h).committed = false) (opc : W16) :
    t.comparePrints h opc = t := by
  unfold State.comparePrints
  dsimp only
  split
  · rfl
  · exact if_pos (by simp [hc])

theorem Stc.stepOpen_work {c : Stc} (hst : c.st = .work) : c.stepOpen = true := by
  unfold Stc.stepOpen
  rw [hst]
  rfl

/-- A partial of another ring position. -/
theorem State.normArrives_keeps {m : NormMsg} (ha : s.acts h = true) (hstep : m.step.toNat = (s.stc h).step)
    (hcount : m.count.toNat = (s.stc h).ireplays % 8) (hr : m.replay = false) (ho : m.origin.toNat < (s.stc h).ringN)
    (hne : m.origin.toNat ≠ (s.stc h).ringPos) (hpart : (s.stc h).part m.origin.toNat = none) (hst : (s.stc h).st = .work)
    (hco : (s.stc h).combined = false) (hh : (s.stc h).ringN ≤ m.hops.toNat + 1) : s.normArrives h m =
      (s.setStc h { s.stc h with parts := Tab.set (fun _ => none) (s.stc h).parts m.origin.toNat (some m.partialSum) }).accept
        (.msg (State.normMsg m)) := by
  unfold State.normArrives
  dsimp only
  rw [if_neg (by omega)]
  refine congrArg (fun t : State => t.accept (.msg (State.normMsg m))) ?_
  unfold State.takeNorm
  dsimp only
  rw [if_neg (by simp [hstep, hcount, ha]), hr, if_neg (by decide),
    if_neg (by simp [hpart, hco, hne, Stc.stepOpen_work hst]; omega)]
  exact State.combine_working (by rw [State.stc_setStc_same]; exact hst)

theorem State.normArrives_idle {m : NormMsg} (ha : s.active = none) : exec (.norm h m) s = .next s :=
  congrArg Host.Outcome.next (State.onSet_none _ ha)

theorem State.fingerprint_keeps {m : Msg} (ha : s.acts h = true) (h0 : m.arg0.toNat = (s.stc h).step)
    (h1 : bitsOf m.arg1.toNat 2 0 = (s.stc h).ireplays % 8) (hm : (s.stc h).mirror = true) (hst : (s.stc h).st = .work)
    (hc : (s.stc h).committed = false) : s.fingerprint h m = s.setStc h
      { ((s.stc h).setNum Reg.stcFprintPeerLo (m.arg2.toNat % 2 ^ 32)).setNum Reg.stcFprintPeerHi (m.arg2.toNat / 2 ^ 32) with
        peerPrint := some (m.arg2, BitVec.ofNat 64 (ofLe m.payload)) } := by
  unfold State.fingerprint
  dsimp only
  rw [if_neg (by simp [h0, h1, hm, ha, Stc.stepOpen_work hst])]
  exact State.comparePrints_uncommitted (by rw [State.stc_setStc_same]; exact hc) _

theorem exec_fingerprint (h : Hold) {m : Msg} (hm : m.wellFormed = true) (s : State) : exec (.fingerprint h m) s =
    .next (s.onSet fun s => (s.fingerprint h m).accept (.msg m)) := if_pos hm

theorem exec_tallySummary (h : Hold) (m : Summary) (s : State) : exec (.tallySummary h m) s =
    .next (({ s with summaries := s.summaries.erase (h.val, m) } : State).onSet
      fun s => (s.tallySummary h m).accept (.summary h m)) := rfl

theorem State.tallyCallTimer_calls (ha : s.acts h = true) (hst : (s.stc h).st = .opening ∨ (s.stc h).st = .work)
    (hab : (s.stc h).abandoning = false) (hcs : (s.stc h).callsSent = false) (hl : (s.stc h).num Reg.stcTallyLimit ≠ 0) :
    exec (.tallyCallTimer h) s = .next (s.asOne fun s => s.sendCalls h) :=
  if_pos ⟨hst, by rw [hab]; decide, by rw [hcs]; decide, ha, hl⟩

theorem State.tallyCallTimer_idle (ha : s.acts h = false) : exec (.tallyCallTimer h) s = .next s := by
  refine if_neg fun ⟨_, _, _, hx, _⟩ => ?_
  rw [ha] at hx
  exact absurd hx (by decide)

theorem State.normTimeout_raises (ha : s.acts h = true) (hst : (s.stc h).st = .combine) (hh : (s.stc h).handed = true)
    (hc : (s.stc h).combined = false) :
    exec (.normTimeout h) s = .next (s.asOne fun s => s.raiseStc h Reg.stcUpdFault 0 52) :=
  if_pos ⟨hst, hh, by rw [hc]; decide, ha⟩

/-- A summary that another is still to follow. -/
theorem State.summary_counted {m : Summary} (ha : Acts s h) (hst : (s.stc h).st = .work) (hab : (s.stc h).abandoning = false)
    (hstep : m.step.toNat = (s.stc h).step) (hm : m.parish ∉ (s.stc h).parishes) (ho : s.owner m.parish = h)
    (hp : (s.stc h).published = false) (hinc : m.incomplete = false) {p : Nat} (hpp : p ∈ s.parishesOf h) (hpm : p ≠ m.parish)
    (hpn : p ∉ (s.stc h).parishes) (hpe : (s.parish p).expect ≠ 0) : exec (.tallySummary h m) s =
      .next (({ s with summaries := s.summaries.erase (h.val, m) } : State).asOne fun t =>
        (if (s.stc h).callsSent then t.setStc h (summed (s.stc h) m)
          else ((t.setStc h (summed (s.stc h) m)).setStc h { summed (s.stc h) m with callsSent := true }).publish
            (callPackets t h)).accept (.summary h m)) := by
  rw [exec_tallySummary, State.onSet_some (s := { s with summaries := s.summaries.erase (h.val, m) }) _ ha.1]
  refine congrArg Host.Outcome.next (State.asOne_congr ?_)
  exact congrArg (fun t : State => t.accept (.summary h m)) (State.tallySummary_counts
    (s := { s with summaries := s.summaries.erase (h.val, m) }) (State.acts_of ha) hst hab hstep hm ho hp hinc hpp hpm hpn hpe)

theorem State.summary_held {m : Summary} (ha : Acts s h) (hst : (s.stc h).st = .work) (hab : (s.stc h).abandoning = false)
    (hstep : m.step.toNat = (s.stc h).step) (hm : m.parish ∉ (s.stc h).parishes) (ho : s.owner m.parish = h)
    (hp : (s.stc h).published = false) (hinc : m.incomplete = true) :
    ∃ t, exec (.tallySummary h m) s = .next t ∧ (t.stc h).st = .stopped ∧ (t.stc h).run = false ∧
      (t.stc h).field Reg.stcVerdict 31 30 = 3 ∧ (t.stc h).field Reg.stcVerdict 27 27 = 1 ∧ bit ((t.stc h).reg Reg.stcFault) 0 =
          true ∧
      ∃ l e, t.reports = s.reports ++ l ++ [e] ∧ e.source = 44 := by
  obtain ⟨l, e, he, hr, h1, h2, h3, h4, h5⟩ := State.tallySummary_stops (s := { s with summaries := s.summaries.erase (h.val, m) })
    (State.acts_of ha) hst hab hstep hm ho hp hinc
  have hacc := State.stcsReports_acceptSummary
    (State.tallySummary { s with summaries := s.summaries.erase (h.val, m) } h m) h m
  have hall := State.tells_asOne ({ s with summaries := s.summaries.erase (h.val, m) } : State)
    fun s => (s.tallySummary h m).accept (.summary h m)
  rw [exec_tallySummary, State.onSet_some (s := { s with summaries := s.summaries.erase (h.val, m) }) _ ha.1]
  refine ⟨_, rfl, ?_⟩
  have hstc := (hall.stc h).trans (congrArg (fun x : List (Nat × Stc) × List Report => Tab.get (fun _ => ({} : Stc)) x.1 h) hacc)
  have hrep := (congrArg State.reports hall).trans (congrArg (fun x : List (Nat × Stc) × List Report => x.2) hacc)
  refine ⟨?_, ?_, ?_, ?_, ?_, l, e, hrep.trans hr, he⟩
  · rw [hstc]
    exact h1
  · rw [hstc]
    exact h2
  · rw [hstc]
    exact h3
  · rw [hstc]
    exact h4
  · rw [hstc]
    exact h5

end

theorem summed_complete (c : Stc) (m : Summary) (h : m.incomplete = false) : summed c m = { c with
    parishes := c.parishes ++ [m.parish]
    sums := { c.sums with
      sat := satAdd c.sums.sat m.sat.toNat, inf := satAdd c.sums.inf m.inf.toNat, nan := satAdd c.sums.nan m.nan.toNat
      resid := satAdd c.sums.resid m.resid.toNat, acks := c.sums.acks + m.acks } } := by
  unfold summed
  rw [h, Bool.or_false]

/-- Settles O41: each arrival acts on its controller in one record; the commit lets the chunks leave first, and a lone
module's finite partial is combined and judged at once. -/
theorem sumsAndPartialsArrive : Obligations.SumsAndPartialsArrive := by
  unfold Obligations.SumsAndPartialsArrive
  intro h s
  dsimp only
  refine ⟨fun m ha hst hab hstep hm ho hp => ⟨fun p hpp hpm hpn hpe hinc => ⟨fun hcs => ?_, fun hcs => ?_⟩, fun hinc => ?_⟩,
    fun ha hst hab hcs hl => ?_, fun v ha hst hc hab hm hp => ⟨fun hs => ?_, fun hs => ?_⟩, fun v ha => ?_, fun v ha hc => ?_,
    fun v ha hst hc hab hm hp hi hb hn hpos hparts hco hd hf => ?_, fun m ha hstep hcount hr ho hne hpart hst hco hh => ?_,
    fun m ha hm h0 h1 hmir hst hc => ?_, fun ha hst hh hc => ?_, fun ha m f y hf => ⟨?_, ?_, ?_, ?_⟩⟩
  · refine (State.summary_counted ha hst hab hstep hm ho hp hinc hpp hpm hpn hpe).trans
      (congrArg Host.Outcome.next (State.asOne_congr ?_))
    rw [summed_complete _ _ hinc]
    exact congrArg (fun t : State => t.accept (.summary h m)) (if_pos hcs)
  · refine (State.summary_counted ha hst hab hstep hm ho hp hinc hpp hpm hpn hpe).trans
      (congrArg Host.Outcome.next (State.asOne_congr ?_))
    rw [summed_complete _ _ hinc]
    exact congrArg (fun t : State => t.accept (.summary h m)) (if_neg (by rw [hcs]; decide))
  · exact State.summary_held ha hst hab hstep hm ho hp hinc
  · exact State.tallyCallTimer_calls (State.acts_of ha) hst hab hcs hl
  · exact State.commit_started (State.acts_of ha) hst hc hab hm hp hs
  · exact State.commit_starts (State.acts_of ha) hst hc hab hm hp
  · exact congrArg Host.Outcome.next ((State.asOne_congr (g := fun t => t) (State.commitPartial_idle (State.acts_false ha))).trans
      (State.asOne_of_shadows rfl))
  · obtain ⟨x, h1, h2, h3, h4, h5⟩ := State.asOne_raised s h (f := fun s => s.commitPartial h v)
      (State.commitPartial_raises (State.acts_of ha) hc)
    exact ⟨_, x, exec_stcNormPartHiWrite h v s, h1, h2, h3, h4, h5⟩
  · exact State.commit_clean (State.acts_of ha) hst hc hab hm hp hi hb hn hpos hco hd hf
  · refine congrArg Host.Outcome.next ((State.onSet_some _ ha.1).trans (State.asOne_congr ?_))
    exact State.normArrives_keeps (State.acts_of ha) hstep hcount hr ho hne hpart hst hco hh
  · rw [exec_fingerprint h hm, State.onSet_some _ ha.1]
    refine congrArg Host.Outcome.next (State.asOne_congr ?_)
    exact congrArg (fun t : State => t.accept (.msg m)) (State.fingerprint_keeps (State.acts_of ha) h0 h1 hmir hst hc)
  · obtain ⟨x, h1, h2, h3, h4, h5⟩ := State.asOne_raised s h (f := fun s => s.raiseStc h Reg.stcUpdFault 0 52) rfl
    exact ⟨_, x, State.normTimeout_raises (State.acts_of ha) hst hh hc, h1, h2, h3, h4, h5⟩
  · exact State.normArrives_idle ha
  · rw [exec_fingerprint h hf, State.onSet_none _ ha]
  · exact State.tallyCallTimer_idle (State.acts_none ha)
  · exact congrArg Host.Outcome.next (State.onSet_none (s := { s with summaries := s.summaries.erase (h.val, y) }) _ ha)

end Sys2Proof.Machine

namespace Sys2Proof.Machine
open Sys2Proof.Safety

/-! ### Records on their way to the STANDBY partner (R334) -/

theorem State.sendShadow_eq (s : State) (d : Shadow) {i : Nat} (hs : s.standby = some i) : s.sendShadow d = shadowed s i d := by
  have hp : s.shadowPacket s.shadowNum = recordPacket s i s.shadowNum := by
    unfold recordPacket State.shadowPacket State.activeEndpoint State.control
    rw [hs]
    rfl
  unfold State.sendShadow shadowed
  rw [hp]

theorem State.waitFor_sent (s : State) (d : Shadow) {i : Nat} (hs : s.standby = some i) : s.waitFor d = shadowed s i d := by
  refine Eq.trans (if_pos ?_) (s.sendShadow_eq d hs)
  rw [hs]
  rfl

theorem State.shadow_sent (s : State) (c : Change) {i : Nat} (hs : s.standby = some i) :
    s.shadow c = shadowed s i { num := 0, changes := [c] } := by
  refine Eq.trans (if_pos ?_) (s.sendShadow_eq _ hs)
  rw [hs]
  rfl

theorem State.standby_of_only {s t : State} (h : t.stewards = s.stewards) : t.standby = s.standby := by
  unfold State.standby State.steward
  rw [h]

theorem State.active_of_only {s t : State} (h : t.stewards = s.stewards) : t.active = s.active := by
  unfold State.active State.steward
  rw [h]

theorem recordPacket_of_only {s t : State} (h : t.stewards = s.stewards) (i n : Nat) : recordPacket t i n = recordPacket s i n
    := by
  unfold recordPacket
  rw [State.active_of_only h]

/-- Two records that one input sends are one, and the second leaves no packet. -/
theorem State.asOne_pair {s t : State} {i : Nat} {f : State → State} {d e : Shadow} (hs : s.standby = some i)
    (hk : ∀ k ∈ s.outq, ∀ n, k.who = .shadow n → n < s.shadowNum)
    (ht : t.stewards = s.stewards ∧ t.shadows = s.shadows ∧ t.shadowNum = s.shadowNum ∧ t.outq = s.outq)
    (hf : f s = shadowed (shadowed t i d) i e) :
    s.asOne f = shadowed t i (({ d with num := s.shadowNum } : Shadow).join e) := by
  obtain ⟨hst, hsh, hn, hq⟩ := ht
  have h1 : (f s).shadows = s.shadows ++ [{ d with num := s.shadowNum }, { e with num := s.shadowNum + 1 }] := by
    rw [hf, ← hsh, ← hn]
    exact List.append_assoc _ _ _
  have h2 : (f s).outq = s.outq ++ [recordPacket s i s.shadowNum, recordPacket s i (s.shadowNum + 1)] := by
    rw [hf, ← hq, ← hn, ← recordPacket_of_only hst, ← recordPacket_of_only hst]
    exact List.append_assoc _ _ _
  have hfil : (s.outq ++ [recordPacket s i s.shadowNum, recordPacket s i (s.shadowNum + 1)]).filter
      (fun k => !(match k.who with | .shadow n => decide (s.shadowNum < n) | _ => false)) = s.outq ++
          [recordPacket s i s.shadowNum] := by
    rw [List.filter_append]
    congr 1
    · rw [List.filter_eq_self]
      intro k hk'
      split
      · next j hj =>
        have := hk k hk' j hj
        simp
        omega
      · rfl
    · simp [recordPacket]
  have hone : s.asOne f = { f s with
      shadows := s.shadows ++ [({ d with num := s.shadowNum } : Shadow).join { e with num := s.shadowNum + 1 }]
      shadowNum := s.shadowNum + 1
      outq := s.outq ++ [recordPacket s i s.shadowNum] } := by
    unfold State.asOne
    dsimp only
    rw [hs, h1, h2, List.drop_left, List.take_left]
    dsimp only
    rw [if_neg (show ¬(some i).isNone = true from Bool.false_ne_true), if_pos rfl]
    exact congrArg (fun ks : List Packet => { f s with
      shadows := s.shadows ++ [({ d with num := s.shadowNum } : Shadow).join { e with num := s.shadowNum + 1 }]
      shadowNum := s.shadowNum + 1, outq := ks }) (Eq.trans (by congr) hfil)
  rw [hone, hf]
  unfold shadowed
  rw [hsh, hn, hq, recordPacket_of_only hst]
  rfl

/-- A controller that changes with an action that waits for it. -/
theorem State.asOne_setStc_waits (s : State) (h : Nat) (v : Stc) (d : Shadow) {i : Nat} (hs : s.standby = some i)
    (hk : ∀ k ∈ s.outq, ∀ n, k.who = .shadow n → n < s.shadowNum) :
    (s.asOne fun s => (s.setStc h v).waitFor d) = shadowed { s with stcs := Tab.set (fun _ => ({} : Stc)) s.stcs h v } i
      (({ num := s.shadowNum, changes := [.stc h v] } : Shadow).join d) := by
  have hset : s.setStc h v = shadowed { s with stcs := Tab.set (fun _ => ({} : Stc)) s.stcs h v } i { num := 0, changes := [.stc h v] } :=
    State.shadow_sent _ _ hs
  refine State.asOne_pair (t := { s with stcs := Tab.set (fun _ => ({} : Stc)) s.stcs h v }) (d := { num := 0, changes := [.stc h v] }) hs hk
    ⟨rfl, rfl, rfl, rfl⟩ ?_
  rw [hset]
  exact State.waitFor_sent _ _ hs

theorem State.accept_alone (s : State) (a : SenderHeld) (hs : s.standby = none) : s.accept a = s.acknowledge a := by
  unfold State.accept State.waitFor State.perform
  rw [hs]
  refine (if_neg (by decide)).trans ?_
  dsimp only [List.foldl_nil, List.foldl_cons]
  rw [State.emit_nil, List.append_nil]

/-! ### Restores (R267, R268) -/

theorem State.abortHolding_frame (s : State) (h cause : Nat) :
    s.abortHolding h cause = { s with gates := (s.abortHolding h cause).gates } := by
  unfold State.abortHolding State.releaseStores
  refine List.foldlRecOn (motive := fun t : State => t = { s with gates := t.gates }) _ _ ?_ fun t ht p _ => ?_
  · refine List.foldlRecOn (motive := fun t : State => t = { s with gates := t.gates }) _ _ rfl fun t ht p _ => ?_
    exact congrArg (fun u : State => { u with gates := (t.modGate p fun g =>
      (g.contextsOf h).foldl (fun g c => g.abortChan c cause) g).gates }) ht
  · exact congrArg (fun u : State => { u with gates := (t.modGate p fun g => g.release (t.sentElsewhere p)).gates }) ht

theorem State.waitFor_aborts (s : State) (h : Nat) (hs : s.standby = none) : s.waitFor { num := 0, aborts := [h] } =
    s.abortHolding h := by
  unfold State.waitFor State.perform
  rw [hs]
  refine (if_neg (by decide)).trans ?_
  dsimp only [List.foldl_nil, List.foldl_cons]
  rw [State.emit_nil, List.append_nil]

theorem State.waitFor_discards (s : State) (e : Nat × W32) (hs : s.standby = none) :
    s.waitFor { num := 0, discards := [e] } = s.discardStep e := by
  unfold State.waitFor State.perform
  rw [hs]
  refine (if_neg (by decide)).trans ?_
  dsimp only [List.foldl_nil, List.foldl_cons]
  rw [State.emit_nil, List.append_nil]

section
variable {s : State} {h : Hold}

/-- STOP to every enrolled croft. -/
def stopPackets (s : State) (h : Nat) : List Packet := (s.enrolled h).map fun n => s.stcWrite h n Reg.crfSeqCtrl 8

theorem State.stcWrite_of_only {s t : State} (hst : t.stewards = s.stewards) (h n o v : Nat) : t.stcWrite h n o v = s.stcWrite h
    n o v := by
  unfold State.stcWrite State.activeEndpoint
  rw [State.active_of_only hst]

theorem State.StcSet.stopPackets {h j : Nat} {c : Stc} {s t : State} (ht : State.StcSet j c s t) : stopPackets t h = stopPackets
    s h := by
  have hst : t.stewards = s.stewards := by rw [ht.only]
  unfold Machine.stopPackets
  rw [ht.enrolled h]
  exact List.map_congr_left fun n _ => State.stcWrite_of_only hst h n _ _

theorem State.startRestore_alone {t : State} {h : Nat} (hs : t.standby = none) : ∃ gs, t.startRestore h =
    ({ t with stcs := Tab.set (fun _ => ({} : Stc)) t.stcs h { (t.stc h).clearAttempt with st := .restoring, order := 1 }
              outq := t.outq ++ stopPackets t h, gates := gs } : State) := by
  unfold State.startRestore
  dsimp only
  have hset := t.stcSet_setStc h { (t.stc h).clearAttempt with st := .restoring, order := 1 }
  have hs' : (t.setStc h { (t.stc h).clearAttempt with st := .restoring, order := 1 }).standby = none :=
    (State.standby_of_only (by rw [hset.only])).trans hs
  have hstop : (t.setStc h { (t.stc h).clearAttempt with st := .restoring, order := 1 }).stopCrofts h =
      (t.setStc h { (t.stc h).clearAttempt with st := .restoring, order := 1 }).emit (stopPackets t h) := by
    rw [← hset.stopPackets]
    exact State.publish_of_alone _ hs'
  rw [hstop, State.waitFor_aborts _ _ (by exact hs'), State.abortHolding_frame, State.setStc_alone _ _ _ hs]
  exact ⟨_, rfl⟩

/-- A counted replay below its limit that does not start a restore again and is local. -/
theorem State.replayNow_local {t : State} {h : Nat} (hagain : (t.stc h).st ≠ .restoring)
    (hl : (t.stc h).replays - (t.stc h).uncounted < (t.stc h).field Reg.stcReplayCfg 2 0) : t.replayNow h false false true =
      (t.setStc h { t.stc h with replays := (t.stc h).replays + 1 }).startRestore h := by
  unfold State.replayNow
  dsimp only
  rw [decide_eq_false hagain, if_neg (by simp; omega)]
  rfl

theorem State.replay_replays {ask : ReplayAsk} (ha : s.acts h = true) (hab : (s.stc h).abandoning = false)
    (hst : (s.stc h).st = .opening ∨ (s.stc h).st = .work) (hask : ask ≠ .notice) (hho : (s.stc h).horizon = false)
    (hl : (s.stc h).replays - (s.stc h).uncounted < (s.stc h).field Reg.stcReplayCfg 2 0) : s.replay h ask =
      (s.setStc h { s.stc h with replays := (s.stc h).replays + 1 }).startRestore h := by
  have hearly : ((s.stc h).st = .opening || (s.stc h).st = .work || (s.stc h).st = .restoring ||
      ((s.stc h).st = .combine && !(s.stc h).handed)) = true := by
    rcases hst with hst | hst <;> simp [hst]
  have hacts : State.replayActs (s.stc h) ask = true := by
    cases ask with
    | notice => exact absurd rfl hask
    | software =>
      unfold State.replayActs
      dsimp only
      rw [hearly]
      rfl
    | faults => exact hearly
  have hagain : (s.stc h).st ≠ .restoring := by
    rcases hst with hst | hst <;> rw [hst] <;> decide
  rw [← State.replayNow_local hagain hl]
  unfold State.replay
  dsimp only
  rw [ha, hab, hacts, if_pos (by decide), hho, decide_eq_false hask]
  rfl

/-- A replay below its limit. -/
theorem State.replay_restores {ask : ReplayAsk} (ha : s.acts h = true) (hab : (s.stc h).abandoning = false)
    (hst : (s.stc h).st = .opening ∨ (s.stc h).st = .work) (hask : ask ≠ .notice) (hho : (s.stc h).horizon = false)
    (hs : s.standby = none) (hl : (s.stc h).replays - (s.stc h).uncounted < (s.stc h).field Reg.stcReplayCfg 2 0) :
    ∃ t, exec (.replay h ask) s = .next t ∧ (t.stc h).st = .restoring ∧
      (t.stc h).order = 1 ∧ (t.stc h).replays = (s.stc h).replays + 1 ∧ (t.stc h).step = (s.stc h).step ∧ (t.stc h).committed =
          false ∧
      t.outq = s.outq ++ stopPackets s h ∧ t.crofts = s.crofts ∧ (∀ j, j ≠ h.val → t.stc j = s.stc j) := by
  have he : exec (.replay h ask) s = .next (s.replay h ask) :=
    congrArg Host.Outcome.next (State.asOne_of_alone _ hs)
  have hset := s.stcSet_setStc h { s.stc h with replays := (s.stc h).replays + 1 }
  have hs' : (s.setStc h { s.stc h with replays := (s.stc h).replays + 1 }).standby = none :=
    (State.standby_of_only (by rw [hset.only])).trans hs
  obtain ⟨gs, hr⟩ := State.startRestore_alone (h := h.val) hs'
  rw [hset.stopPackets, hset.stc, State.outq_setStc_alone _ _ _ hs, hset.stcs, Tab.set_set] at hr
  rw [he, State.replay_replays ha hab hst hask hho hl, hr]
  generalize hc : ({ ({ s.stc h with replays := (s.stc h).replays + 1 } : Stc).clearAttempt with st := .restoring, order := 1 } : Stc) = c
  have hreads : c.st = .restoring ∧ c.order = 1 ∧ c.replays = (s.stc h).replays + 1 ∧ c.committed = false := by
    rw [← hc]
    exact ⟨rfl, rfl, rfl, rfl⟩
  have hstep : c.step = (s.stc h).step := by
    rw [← hc]
    exact Stc.num_congr (Stc.reg_clearAttempt_ne _ (by decide))
  obtain ⟨r1, r2, r3, r4⟩ := hreads
  refine ⟨_, rfl, ?_⟩
  have hsame : Tab.get (fun _ => ({} : Stc)) (Tab.set (fun _ => ({} : Stc)) s.stcs h c) h = c := Tab.get_set_same _ _ _ _
  refine ⟨(congrArg Stc.st hsame).trans r1, (congrArg Stc.order hsame).trans r2, (congrArg Stc.replays hsame).trans r3,
    (congrArg Stc.step hsame).trans hstep, (congrArg Stc.committed hsame).trans r4, rfl, ?_, fun j hj => Tab.get_set_ne _ _ _
        hj⟩
  change (s.setStc h _).crofts = s.crofts
  rw [hset.only]

/-! ### Once the crofts have answered -/

/-- The attempt's summaries go, those on their way too. -/
theorem State.discardStep_frame (t : State) (h : Nat) (w : W32) : t.discardStep (h, w) =
    ({ t with
      parishes := ((t.parishesOf h).foldl (fun s p => s.setParish p ((s.parish p).tallyDiscard w)) t).parishes
      summaries := t.summaries.filter fun e => !(e.1 = h && e.2.step.toNat = w.toNat)
      outq := t.outq.filter fun k => !(match k.who with
        | .summary g m => g == h && m.step.toNat == w.toNat
        | _ => false)
      flights := (t.discardStep (h, w)).flights } : State) := by
  have hfold := State.foldl_setParish_frame (fun v => v.tallyDiscard w) (t.parishesOf h) t
  unfold State.discardStep
  dsimp only
  rw [hfold]
  rfl

theorem Parish.tallyDiscard_regs (v : Parish) (w : W32) : (v.tallyDiscard w).regs = v.regs := by
  unfold Parish.tallyDiscard
  dsimp only
  split
  · rfl
  · split <;> rfl

/-- The row maps stand while reeves discard. -/
theorem State.discarded_rows (w : W32) (ps : List Nat) (t : State) (q : Nat) :
    ((ps.foldl (fun t p => t.setParish p ((t.parish p).tallyDiscard w)) t).parish q).regs = (t.parish q).regs := by
  refine List.foldlRecOn (motive := fun u : State => (u.parish q).regs = (t.parish q).regs) _ _ rfl fun u hu p _ => ?_
  rw [State.parish_setParish]
  split
  · next hq =>
    rw [Parish.tallyDiscard_regs, ← hq, hu]
  · exact hu

theorem Parish.tallyDiscard_reads (v : Parish) (w : W32) : (v.tallyDiscard w).tallyStep = w ∧ (v.tallyDiscard w).tally0 = {} :=
    by
  unfold Parish.tallyDiscard
  dsimp only
  split
  · next hw => exact ⟨hw.symm, rfl⟩
  · split
    · exact ⟨rfl, rfl⟩
    · exact ⟨rfl, rfl⟩

/-- The crofts whose step is to change, or to be marked, before they are armed. -/
def toMarkOf (s : State) (h : Nat) (c : Stc) : List Nat := (s.enrolled h).filter fun n => match s.siteOf n with
  | some x => x.num Reg.crfStep != c.step || !x.c.stepWritten
  | none => false

theorem State.restoreNext_waits {t : State} {h : Nat} (ho : (t.stc h).order = 4) (hst : (t.stc h).stepped = [])
    (hne : t.enrolled h ≠ []) :
    t.restoreNext h = t := by
  have hall : ((t.enrolled h).all fun n => (t.stc h).stepped.contains n) = false := by
    rw [hst]
    cases he : t.enrolled h with
    | nil => exact absurd he hne
    | cons a l => rfl
  unfold State.restoreNext
  dsimp only
  split
  · rfl
  · have h4 : ¬ ((t.stc h).order = 4 ∧ (t.stc h).toMark = [] ∧ ((t.enrolled h).all fun n => (t.stc h).stepped.contains n) = true) :=
      fun hx => by
        rw [hall] at hx
        exact absurd hx.2.2 (by decide)
    rw [if_neg h4]
    refine if_neg fun hx => ?_
    rw [ho] at hx
    exact absurd hx.1 (by decide)

/-- The reeves and the crofts take the step anew. -/
theorem State.contexts_free (ha : s.acts h = true) (hst : (s.stc h).st = .restoring) (hab : (s.stc h).abandoning = false)
    (ho : (s.stc h).order = 2) (hfree : s.allFree h = true) (hhold : (s.stc h).restoreHold = false) (hne : s.enrolled h ≠ [])
    (hs : s.standby = none) : exec (.restoreContextsFree h) s = .next
      (((s.setStc h { s.stc h with order := 4, toMark := toMarkOf s h (s.stc h), stepped := [] }).discardStep
        (h, BitVec.ofNat 32 (s.stc h).step)).emit ((s.enrolled h).map fun n => s.stcWrite h n Reg.crfStep (s.stc h).step)) := by
  refine congrArg Host.Outcome.next ((State.asOne_of_alone _ hs).trans ?_)
  dsimp only
  rw [if_pos ⟨hst, by rw [hab]; decide, ho, ha, hfree, by rw [hhold]; decide⟩]
  have hset := s.stcSet_setStc h { s.stc h with order := 4, toMark := toMarkOf s h (s.stc h), stepped := [] }
  change State.restoreNext (State.publish (State.waitFor (s.setStc h { s.stc h with order := 4, toMark := toMarkOf s h (s.stc h), stepped := [] })
    { num := 0, discards := [(h, BitVec.ofNat 32 (s.stc h).step)] })
        ((State.enrolled (State.waitFor (s.setStc h { s.stc h with order := 4, toMark := toMarkOf s h (s.stc h), stepped := []
            })
    { num := 0, discards := [(h, BitVec.ofNat 32 (s.stc h).step)] }) h).map fun n =>
        (State.waitFor (s.setStc h { s.stc h with order := 4, toMark := toMarkOf s h (s.stc h), stepped := [] })
    { num := 0, discards := [(h, BitVec.ofNat 32 (s.stc h).step)] }).stcWrite h n Reg.crfStep (s.stc h).step)) h = _
  generalize s.setStc h { s.stc h with order := 4, toMark := toMarkOf s h (s.stc h), stepped := [] } = u at hset ⊢
  have hu : u.standby = none := (State.standby_of_only (by rw [hset.only])).trans hs
  rw [State.waitFor_discards _ _ hu]
  have hd := State.discardStep_frame u h (BitVec.ofNat 32 (s.stc h).step)
  generalize u.discardStep (h, BitVec.ofNat 32 (s.stc h).step) = w at hd ⊢
  have hw : w.stewards = s.stewards := by
    rw [hd]
    change u.stewards = s.stewards
    rw [hset.only]
  have henr : w.enrolled h = s.enrolled h := by
    refine Eq.trans (State.enrolled_congr (s := u) (by rw [hd]) (fun p => ?_) h) (hset.enrolled h)
    have hp : w.parishes = ((u.parishesOf h).foldl (fun t p => t.setParish p ((t.parish p).tallyDiscard
        (BitVec.ofNat 32 (s.stc h).step))) u).parishes := by rw [hd]
    unfold State.parish
    rw [hp]
    exact State.discarded_rows _ _ _ p
  have hks : (w.enrolled h).map (fun n => w.stcWrite h n Reg.crfStep (s.stc h).step) =
      (s.enrolled h).map fun n => s.stcWrite h n Reg.crfStep (s.stc h).step := by
    rw [henr]
    exact List.map_congr_left fun n _ => State.stcWrite_of_only hw h n _ _
  rw [hks, State.publish_of_alone _ ((State.standby_of_only hw).trans hs)]
  have hwstc : w.stc h = { s.stc h with order := 4, toMark := toMarkOf s h (s.stc h), stepped := [] } := by
    refine Eq.trans ?_ hset.stc
    rw [hd]
    rfl
  refine State.restoreNext_waits ?_ ?_ ?_
  · exact congrArg Stc.order hwstc
  · exact congrArg Stc.stepped hwstc
  · exact henr ▸ hne

theorem State.restoreContextsFree_arms (ha : s.acts h = true) (hst : (s.stc h).st = .restoring)
    (hab : (s.stc h).abandoning = false)
    (ho : (s.stc h).order = 2) (hfree : s.allFree h = true) (hhold : (s.stc h).restoreHold = false) (hne : s.enrolled h ≠ [])
    (hs : s.standby = none) : ∃ t, exec (.restoreContextsFree h) s = .next t ∧ (t.stc h).order = 4 ∧ (t.stc h).st = .restoring ∧
      t.outq = (s.outq.filter fun k => match k.who with
        | .summary g m => !(g == h.val && m.step.toNat == (s.stc h).step % 2 ^ 32)
        | _ => true) ++ (s.enrolled h).map (fun n => s.stcWrite h n Reg.crfStep (s.stc h).step) ∧ t.crofts = s.crofts ∧
      (∀ p ∈ s.parishesOf h, (t.parish p).tallyStep.toNat = (s.stc h).step % 2 ^ 32 ∧ (t.parish p).tally0 = {}) ∧
      ∀ m, (h.val, m) ∈ t.summaries → m.step.toNat ≠ (s.stc h).step % 2 ^ 32 := by
  have hw : (BitVec.ofNat 32 (s.stc h).step).toNat = (s.stc h).step % 2 ^ 32 := BitVec.toNat_ofNat _ _
  refine ⟨_, State.contexts_free ha hst hab ho hfree hhold hne hs, ?_⟩
  have hset := s.stcSet_setStc h { s.stc h with order := 4, toMark := toMarkOf s h (s.stc h), stepped := [] }
  have hq := State.outq_setStc_alone s h { s.stc h with order := 4, toMark := toMarkOf s h (s.stc h), stepped := [] } hs
  generalize (BitVec.ofNat 32 (s.stc h).step) = w at hw ⊢
  generalize (s.enrolled h).map (fun n => s.stcWrite h n Reg.crfStep (s.stc h).step) = ks
  generalize hu : s.setStc h { s.stc h with order := 4, toMark := toMarkOf s h (s.stc h), stepped := [] } = u at hset hq ⊢
  have hd := State.discardStep_frame u h w
  have hpar (p : Nat) (hp : p ∈ s.parishesOf h) : (u.discardStep (h, w)).parish p = (s.parish p).tallyDiscard w := by
    have hparishes : (u.discardStep (h, w)).parishes =
        ((u.parishesOf h).foldl (fun s p => s.setParish p ((s.parish p).tallyDiscard w)) u).parishes := by
      rw [hd]
    have hmem : p ∈ u.parishesOf h := by
      rw [hset.only]
      exact hp
    have hup : u.parish p = s.parish p := by
      rw [hset.only]
      rfl
    have := State.foldl_setParish (fun v => v.tallyDiscard w) (u.parishesOf h) (u.parishesOf_nodup h) u p
    rw [if_pos hmem, hup] at this
    unfold State.parish at this ⊢
    rw [hparishes]
    exact this
  generalize u.discardStep (h, w) = x at hd hpar ⊢
  have hstc : (x.emit ks).stc h = { s.stc h with order := 4, toMark := toMarkOf s h (s.stc h), stepped := [] } := by
    refine Eq.trans ?_ hset.stc
    rw [hd]
    rfl
  refine ⟨congrArg Stc.order hstc, (congrArg Stc.st hstc).trans hst, ?_, ?_, fun p hp => ?_, fun m hm => ?_⟩
  · change x.outq ++ ks = _
    rw [hd, ← hw]
    refine congrArg (· ++ ks) ?_
    rw [hq]
    refine List.filter_congr fun k _ => ?_
    cases k.who <;> rfl
  · change x.crofts = s.crofts
    rw [hd]
    change u.crofts = s.crofts
    rw [hset.only]
  · change (x.parish p).tallyStep.toNat = _ ∧ (x.parish p).tally0 = _
    rw [hpar p hp, (Parish.tallyDiscard_reads _ _).1]
    exact ⟨hw, (Parish.tallyDiscard_reads _ _).2⟩
  · have hx : x.summaries = u.summaries.filter fun e => !(e.1 = h.val && e.2.step.toNat = w.toNat) := by rw [hd]
    change (h.val, m) ∈ x.summaries at hm
    rw [hx, List.mem_filter] at hm
    intro heq
    rw [← hw] at heq
    exact absurd hm.2 (by simp [heq])

/-! ### Abandonment (R269) -/

theorem State.abandon_idles (ha : s.acts h = true) (hab : (s.stc h).abandoning = false) (hst : (s.stc h).st = .idle) :
    exec (.abandon h) s = .next (s.setStc h ((s.stc h).setRun false).toIdle) := by
  refine congrArg Host.Outcome.next (s.asOne_setStc (fun s => s.abandon h) h _ ?_)
  unfold State.abandon
  dsimp only
  rw [ha, hab, if_neg (by decide)]
  exact if_pos hst

theorem State.abandon_stops (ha : s.acts h = true) (hab : (s.stc h).abandoning = false) (hst : (s.stc h).st ≠ .idle) :
    exec (.abandon h) s = .next (s.asOne fun t => (t.setStc h
      { (s.stc h).setRun false with abandoning := true, order := 1, openPending := false }).publish (stopPackets s h)) := by
  refine congrArg Host.Outcome.next (State.asOne_congr ?_)
  have hset := s.stcSet_setStc h { (s.stc h).setRun false with abandoning := true, order := 1, openPending := false }
  have hidle : ((s.stc h).setRun false).st ≠ .idle := hst
  unfold State.abandon
  dsimp only
  rw [ha, hab, if_neg (by decide), if_neg hidle, ← hset.stopPackets]
  rfl

theorem State.replay_idle (ha : s.acts h = false) (ask : ReplayAsk) : exec (.replay h ask) s = .next s := by
  refine congrArg Host.Outcome.next ((State.asOne_congr (g := fun t => t) ?_).trans (State.asOne_of_shadows rfl))
  unfold State.replay
  dsimp only
  rw [ha]
  exact if_neg (by simp)

theorem State.abandon_idle (ha : s.acts h = false) : exec (.abandon h) s = .next s := by
  refine congrArg Host.Outcome.next ((State.asOne_congr (g := fun t => t) ?_).trans (State.asOne_of_shadows rfl))
  unfold State.abandon
  dsimp only
  rw [ha]
  exact if_pos rfl

end

/-- Settles O43: the replay's orders by what each leaves where no partner listens, and the records that each action and
change waits for where one does. -/
theorem restoresReplayAndActionsWait : Obligations.RestoresReplayAndActionsWait := by
  unfold Obligations.RestoresReplayAndActionsWait
  refine ⟨fun h s => ?_, fun s ks a => ⟨fun hs => ?_, fun i hs => ?_⟩⟩
  · dsimp only
    refine ⟨fun ask ha hab hst hask hho hs hl => ?_, fun ha hab => ⟨fun hst => ?_, fun hst => ?_⟩, fun ha =>
        ⟨fun ask => ?_, ?_⟩,
      fun ha hab hread hfree => ?_, fun ha hst ho hread => ?_, fun ha hst hab ho hfree hhold hne hs => ?_⟩
    · exact State.replay_restores (State.acts_of ha) hab hst hask hho hs hl
    · exact State.abandon_idles (State.acts_of ha) hab hst
    · exact State.abandon_stops (State.acts_of ha) hab hst
    · exact State.replay_idle (State.acts_false ha) ask
    · exact State.abandon_idle (State.acts_false ha)
    · exact if_pos ⟨hab, State.acts_of ha, hread, hfree⟩
    · exact if_pos ⟨hst, ho, State.acts_of ha, hread⟩
    · exact State.restoreContextsFree_arms (State.acts_of ha) hst hab ho hfree hhold hne hs
  · exact ⟨State.publish_of_alone ks hs, State.accept_alone s a hs, fun f => State.asOne_of_alone f hs⟩
  · refine ⟨State.waitFor_sent _ _ hs, State.waitFor_sent _ _ hs, fun h v => State.shadow_sent _ _ hs,
      fun f => State.shadow_sent _ _ hs, fun o v => State.shadow_sent _ _ hs, fun hk h v => ⟨?_, ?_⟩⟩
    · exact State.asOne_setStc_waits s h v { num := 0, release := ks } hs hk
    · exact State.asOne_setStc_waits s h v { num := 0, acks := [a] } hs hk

end Sys2Proof.Machine

namespace Sys2Proof.Machine
open Sys2Proof.Safety

/-! ### A context that goes on after an answer (R322, R323) -/

namespace State

/-- Only gates and packets handed out differ, of gate g anything. -/
structure GateActs (g : Nat) (s t : State) : Prop where
  only : t = { s with gates := t.gates, outq := t.outq }
  sendsOn (j : Nat) : j ≠ g → SendsOn (s.gate j) (t.gate j)

section
variable {g i : Nat} {s t u : State}

theorem GateActs.refl (g : Nat) (s : State) : GateActs g s s := ⟨rfl, fun _ _ => Gate.sendsOn_refl _⟩

theorem GateActs.trans (h : GateActs g s t) (h' : GateActs g t u) : GateActs g s u :=
  ⟨h'.only.trans (congrArg (fun v : State => { v with gates := u.gates, outq := u.outq }) h.only),
    fun j hj => Gate.sendsOn_trans (h.sendsOn j hj) (h'.sendsOn j hj)⟩

theorem GatesGoOn.acts (h : GatesGoOn g s t) : GateActs g s t := by
  refine ⟨?_, h.sendsOn⟩
  have ho : t.outq = s.outq := by rw [h.only]
  rw [ho]
  exact h.only

theorem gateActs_setGate (s : State) (g : Nat) (v : Gate) : GateActs g s (s.setGate g v) := (gatesGoOn_setGate s g v).acts

theorem gateActs_releaseStores (g : Nat) (s : State) : GateActs g s s.releaseStores := (gatesGoOn_releaseStores g s).acts

theorem GateActs.reports (h : GateActs g s t) : t.reports = s.reports := by rw [h.only]

theorem GateActs.onlyGate (h : GateActs g s t) : OnlyGate g s t := by
  have hclock : t.clock = s.clock := by rw [h.only]
  have hstcs (j : Nat) : t.stc j = s.stc j := by
    rw [h.only]
    rfl
  refine ⟨h.sendsOn, .inl hclock, fun j => ?_, by rw [h.only]⟩
  rw [hstcs j]
  exact ⟨rfl, id, fun _ _ _ => rfl⟩

theorem gateActs_request (s : State) (g i : Nat) (p : Packet) (len : Nat) : GateActs g s (s.gateRequest g i p len) := by
  obtain ⟨q, hq⟩ := gateRequest_spec s g i p len
  rw [hq]
  have he : GateActs g s (s.emit [q]) := ⟨rfl, fun _ _ => Gate.sendsOn_refl _⟩
  exact he.trans (gateActs_setGate _ g _)

/-- Context i goes on without counting bytes. -/
structure GoesOn (g i : Nat) (s t : State) : Prop where
  acts : GateActs g s t
  bytes : ((t.gate g).chan i).bytes = ((s.gate g).chan i).bytes

theorem GoesOn.trans (h : GoesOn g i s t) (h' : GoesOn g i t u) : GoesOn g i s u :=
    ⟨h.acts.trans h'.acts, h'.bytes.trans h.bytes⟩

theorem GoesOn.refl (g i : Nat) (s : State) : GoesOn g i s s := ⟨.refl g s, rfl⟩

theorem goesOn_setGate (s : State) {v : Gate} (hv : (v.chan i).bytes = ((s.gate g).chan i).bytes) : GoesOn g i s (s.setGate g v)
    := by
  refine ⟨gateActs_setGate s g v, ?_⟩
  rw [gate_setGate_same]
  exact hv

theorem goesOn_releaseStores (g i : Nat) (s : State) : GoesOn g i s s.releaseStores := by
  refine ⟨gateActs_releaseStores g s, ?_⟩
  rw [((releaseStores_spec s).2 g).chan]

theorem goesOn_request (s : State) (g i : Nat) (p : Packet) (len : Nat) : GoesOn g i s (s.gateRequest g i p len) := by
  refine ⟨gateActs_request s g i p len, ?_⟩
  obtain ⟨q, hq⟩ := gateRequest_spec s g i p len
  rw [hq, gate_setGate_same, Gate.chan_modChan, if_pos rfl]

theorem goesOn_asks {m : Moving} {w : Gate} (hr : Gate.Releases ((s.gate g).modChan i fun v => { v with moving := some m }) w) :
    GoesOn g i s (s.setGate g w).releaseStores := by
  refine (goesOn_setGate s ?_).trans (goesOn_releaseStores g i _)
  rw [hr.chan, Gate.chan_modChan, if_pos rfl]

theorem goesOn_readStep {m : Moving} (hu : s.readStep g i m = some u) : GoesOn g i s u := by
  unfold State.readStep at hu
  dsimp only at hu
  split at hu
  · exact absurd hu nofun
  split at hu
  · rw [← Option.some.inj hu]
    exact goesOn_asks (m := { m with next := m.len }) (Gate.releases_hold _ _ _ _ _)
  · rw [← Option.some.inj hu]
    exact goesOn_asks (m := { m with next := m.next + _ }) (Gate.releases_rangeRead _ _ _)

theorem goesOn_writeStep {m : Moving} (hu : s.writeStep' g i m = some u) : GoesOn g i s u := by
  unfold State.writeStep' at hu
  dsimp only at hu
  split at hu
  · rw [← Option.some.inj hu]
    refine (goesOn_setGate s ?_).trans (goesOn_releaseStores g i _)
    rw [(Gate.releases_hold _ _ _ _ _).chan]
  split at hu
  · exact absurd hu nofun
  · rw [← Option.some.inj hu]
    refine GoesOn.trans (goesOn_setGate s ?_) (goesOn_request _ g i _ _)
    exact (congrArg Chan.bytes (Gate.chan_modChan (s.gate g) i i fun v =>
        { v with moving := some { m with next := m.next + _ } })).trans
      (by rw [if_pos rfl])

theorem goesOn_pump (g i fuel : Nat) (s : State) : GoesOn g i s (gatePump g i fuel s) := by
  induction fuel generalizing s with
  | zero => exact .refl g i s
  | succ fuel ih =>
    unfold gatePump
    dsimp only
    split
    · split
      · exact .refl g i s
      · split
        · next u hu =>
          refine GoesOn.trans ?_ (ih u)
          split at hu
          · exact goesOn_writeStep hu
          · exact goesOn_readStep hu
        · exact .refl g i s
    · exact .refl g i s

theorem goesOn_finish (g i : Nat) (s : State) : GoesOn g i s (s.gateFinish g i) := by
  unfold State.gateFinish
  extract_lets
  have hmod (f : Chan → Chan) (hf : ∀ c : Chan, (f c).bytes = c.bytes) (t : State) : GoesOn g i t (t.modGate g fun v => v.modChan i f) := by
    refine goesOn_setGate t ?_
    rw [Gate.chan_modChan, if_pos rfl, hf]
  split
  · exact .refl g i s
  · split
    · exact (goesOn_request s g i _ 0).trans (hmod (fun v => { v with notified := true }) (fun _ => rfl) _)
    · exact hmod (fun v => { v with st := .done, moving := none }) (fun _ => rfl) s

theorem goesOn_go (g i : Nat) (s : State) : GoesOn g i s (s.gateGo g i) :=
  ((goesOn_releaseStores g i s).trans (goesOn_pump g i _ _)).trans (goesOn_finish g i _)

/-! ### A context that reads a store -/

/-- Context i, which reads, asks for more of the store, and hands nothing out. -/
structure ReadsOn (g i : Nat) (s t : State) : Prop where
  goes : GatesGoOn g s t
  write : (t.gate g).ctxWrite i = (s.gate g).ctxWrite i
  chan : ∃ m, (t.gate g).chan i = { (s.gate g).chan i with moving := m }

theorem ReadsOn.refl (g i : Nat) (s : State) : ReadsOn g i s s := ⟨gatesGoOn_refl g s, rfl, _, rfl⟩

theorem ReadsOn.trans (h : ReadsOn g i s t) (h' : ReadsOn g i t u) : ReadsOn g i s u := by
  obtain ⟨m, hm⟩ := h.chan
  obtain ⟨m', hm'⟩ := h'.chan
  exact ⟨h.goes.trans h'.goes, h'.write.trans h.write, m', by rw [hm', hm]⟩

theorem ctxWrite_congr {a b : Gate} (h : ∀ o, o ≠ Reg.gatMerged → b.reg o = a.reg o) (i : Nat) : b.ctxWrite i = a.ctxWrite i :=
    by
  unfold Gate.ctxWrite
  rw [h _ (by unfold Reg.gatChCfg Reg.gatMerged; omega)]

theorem readsOn_releaseStores (g i : Nat) (s : State) : ReadsOn g i s s.releaseStores := by
  have hr := (releaseStores_spec s).2 g
  obtain ⟨-, -, -, -, hregs, -⟩ := hr.sendsOn
  exact ⟨gatesGoOn_releaseStores g s, ctxWrite_congr hregs i, ((s.gate g).chan i).moving, hr.chan i⟩

theorem readsOn_asks {m : Moving} {w : Gate} (hr : Gate.Releases ((s.gate g).modChan i fun v => { v with moving := some m }) w)
    :
    ReadsOn g i s (s.setGate g w).releaseStores := by
  refine ReadsOn.trans ?_ (readsOn_releaseStores g i _)
  obtain ⟨-, -, -, -, hregs, -⟩ := hr.sendsOn
  refine ⟨gatesGoOn_setGate s g w, ?_, some m, ?_⟩
  · rw [gate_setGate_same]
    exact ctxWrite_congr (a := s.gate g) hregs i
  · rw [gate_setGate_same, hr.chan, Gate.chan_modChan, if_pos rfl]

theorem readsOn_readStep {m : Moving} (hu : s.readStep g i m = some u) : ReadsOn g i s u := by
  unfold State.readStep at hu
  dsimp only at hu
  split at hu
  · exact absurd hu nofun
  split at hu
  · rw [← Option.some.inj hu]
    exact readsOn_asks (m := { m with next := m.len }) (Gate.releases_hold _ _ _ _ _)
  · rw [← Option.some.inj hu]
    exact readsOn_asks (m := { m with next := m.next + _ }) (Gate.releases_rangeRead _ _ _)

theorem readsOn_pump (g i fuel : Nat) (s : State) (hw : (s.gate g).ctxWrite i = false) : ReadsOn g i s (gatePump g i fuel s) :=
    by
  induction fuel generalizing s with
  | zero => exact .refl g i s
  | succ fuel ih =>
    unfold gatePump
    dsimp only
    split
    · split
      · exact .refl g i s
      · split
        · next u hu =>
          rw [hw, if_neg (by decide)] at hu
          have h := readsOn_readStep hu
          exact h.trans (ih u (h.write.trans hw))
        · exact .refl g i s
    · exact .refl g i s

/-- A context that waits for acknowledgements is not at its end. -/
theorem gateFinish_waits (h : ((s.gate g).chan i).outst ≠ []) : s.gateFinish g i = s := by
  unfold State.gateFinish
  refine if_pos ?_
  simp [h]

theorem readsOn_go (hw : (s.gate g).ctxWrite i = false) (ho : ((s.gate g).chan i).outst ≠ []) : ReadsOn g i s (s.gateGo g i) :=
    by
  have h1 := readsOn_releaseStores g i s
  have h := h1.trans (readsOn_pump g i (2 * streamDepth + 4) _ (h1.write.trans hw))
  unfold State.gateGo
  rw [gateFinish_waits]
  · exact h
  · obtain ⟨m, hm⟩ := h.chan
    rw [hm]
    exact ho

/-! ### Store data on its way to the window -/

/-- A packet of the bytes that context c stores at window offset off. -/
theorem carryBytes_cons {d : Gate} {c off n : Nat} {k : Packet} {ks : List Packet} {bs : List Byte} (hn : n ≤ 512)
    (hb : n ≤ bs.length)
    (hop : k.op = 0x01) (hp : k.payload = bs.take n) (hl : k.length.toNat = n) (hd : k.dest.toNat = bitsOf (d.ctxDest c) 26 12)
    (hw : k.window.toNat = bitsOf (d.ctxDest c) 11 8) (hg : k.gen.toNat = bitsOf (d.ctxDest c) 7 0)
    (ho : k.offset.toNat = off % 2 ^ 32) (hks : CarryBytes d c (off + n) ks (bs.drop n)) : CarryBytes d c off (k :: ks) bs := by
  obtain ⟨hflat, hall⟩ := hks
  have hlen : k.payload.length = n := by rw [hp, List.length_take, Nat.min_eq_left hb]
  refine ⟨?_, fun i x hx => ?_⟩
  · rw [List.map_cons, List.flatten_cons, hflat, hp, List.take_append_drop]
  · cases i with
    | zero =>
      obtain rfl : k = x := Option.some.inj hx
      exact ⟨hop, by omega, by omega, hd, hw, hg, by rw [ho]; simp⟩
    | succ i =>
      obtain ⟨h1, h2, h3, h4, h5, h6, h7⟩ := hall i x hx
      refine ⟨h1, h2, h3, h4, h5, h6, ?_⟩
      rw [h7, List.take_succ_cons, List.map_cons, List.sum_cons, hlen, Nat.add_assoc]

theorem carryBytes_nil (d : Gate) (c off : Nat) : CarryBytes d c off [] [] := ⟨rfl, fun _ _ h => absurd h (by simp)⟩

/-- Packets ks of context c are handed out, each a request of it. -/
structure Stores (g c : Nat) (ks : List Packet) (s t : State) : Prop where
  only : t = { s with gates := t.gates, outq := s.outq ++ ks }
  others (j : Nat) : j ≠ g → t.gate j = s.gate j
  regs : (t.gate g).regs = (s.gate g).regs
  chan : ∃ os n, os.map Req.pkt = ks ∧ (t.gate g).chan c = { (s.gate g).chan c with seq := n, outst := ((s.gate g).chan c).outst ++ os }

theorem Stores.refl (g c : Nat) (s : State) : Stores g c [] s s :=
  ⟨by rw [List.append_nil], fun _ _ => rfl, rfl, [], ((s.gate g).chan c).seq, rfl, by rw [List.append_nil]⟩

theorem Stores.trans {c : Nat} {ks ls : List Packet} (h : Stores g c ks s t) (h' : Stores g c ls t u) : Stores g c (ks ++ ls) s
    u := by
  obtain ⟨os, n, ho, hc⟩ := h.chan
  obtain ⟨os', n', ho', hc'⟩ := h'.chan
  have hq : t.outq = s.outq ++ ks := by rw [h.only]
  refine ⟨?_, fun j hj => (h'.others j hj).trans (h.others j hj), h'.regs.trans h.regs, os ++ os', n', ?_, ?_⟩
  · rw [← List.append_assoc, ← hq]
    exact h'.only.trans (congrArg (fun v : State => { v with gates := u.gates, outq := t.outq ++ ls }) h.only)
  · rw [List.map_append, ho, ho']
  · rw [hc', hc]
    simp only [List.append_assoc]

theorem stores_request (s : State) (g c : Nat) (p : Packet) (len : Nat) : ∃ b, Stores g c [{ p with tag := b }] s
    (s.gateRequest g c p len) := by
  have hq : (s.gateTagged g c p).2 = { p with tag := (s.gateTagged g c p).2.tag } := rfl
  have he : s.gateRequest g c p len = (s.emit [(s.gateTagged g c p).2]).setGate g ((s.gate g).modChan c fun v =>
      { v with seq := (v.seq + 1) % 4096, outst := v.outst ++ [{ pkt := (s.gateTagged g c p).2, len }] }) := by
    unfold gateRequest gateTagged modGate
    dsimp only
    have hg (v : Gate) (q : Packet) : ((s.setGate g v).emit [q]).gate g = v := gate_setGate_same s g v
    have hs (v w : Gate) (q : Packet) : ((s.setGate g v).emit [q]).setGate g w = (s.emit [q]).setGate g w :=
      congrArg (fun u : State => { u with outq := s.outq ++ [q] }) (setGate_setGate s g v w)
    rw [hg, hs]
    refine congrArg (State.setGate _ g) ?_
    unfold Gate.modChan Gate.setChan Gate.chan
    dsimp only
    rw [Tab.get_set, if_pos rfl, Tab.set_set]
  refine ⟨(s.gateTagged g c p).2.tag, ?_⟩
  rw [← hq, he]
  refine ⟨rfl, fun j hj => gate_setGate_ne s _ hj, ?_, [{ pkt := (s.gateTagged g c p).2, len }], (((s.gate g).chan c).seq + 1) % 4096, rfl, ?_⟩
  · rw [gate_setGate_same]
    rfl
  · rw [gate_setGate_same, Gate.chan_modChan, if_pos rfl]

theorem ctx_congr {a b : Gate} (h : b.regs = a.regs) (c : Nat) : b.ctxDest c = a.ctxDest c ∧ b.ctxMulti c = a.ctxMulti c ∧
    b.ctxWrite c = a.ctxWrite c := by
  unfold Gate.ctxDest Gate.ctxMulti Gate.ctxWrite Gate.num Gate.reg
  rw [h]
  exact ⟨rfl, rfl, rfl⟩

theorem carryBytes_congr {a b : Gate} {c off : Nat} {ks : List Packet} {bs : List Byte} (h : b.ctxDest c = a.ctxDest c)
    (hb : CarryBytes b c off ks bs) : CarryBytes a c off ks bs := by
  unfold CarryBytes at *
  rwa [h] at hb

/-- The bytes leave as WRITE packets, each a request of the channel. -/
theorem gateWrite_spec (g c fuel : Nat) : ∀ (s : State) (off : Nat) (bs : List Byte), bs.length < fuel → (s.gate g).ctxMulti c =
    false →
    ∃ ks, Stores g c ks s (s.gateWrite g c off bs fuel) ∧ CarryBytes (s.gate g) c off ks bs := by
  induction fuel with
  | zero => exact fun s off bs h => absurd h (Nat.not_lt_zero _)
  | succ fuel ih =>
    intro s off bs hlen hm
    unfold State.gateWrite
    cases hb : bs.isEmpty with
    | true =>
      rw [List.isEmpty_iff.mp hb]
      exact ⟨[], .refl g c s, carryBytes_nil _ _ _⟩
    | false =>
      have hpos : 0 < bs.length := by
        cases bs with
        | nil => exact absurd hb (by decide)
        | cons b bs => exact Nat.succ_pos _
      dsimp only
      rw [hm, if_neg (by decide), if_neg (by decide), if_neg (by decide), if_neg (by decide)]
      obtain ⟨n, hn⟩ : ∃ n, n = min bs.length (512 - off % 512) := ⟨_, rfl⟩
      rw [← hn]
      have hlt := Nat.mod_lt off (show 0 < 512 by decide)
      obtain ⟨b, hreq⟩ := stores_request s g c { s.gatePacket g c 0x01 (bitsOf ((s.gate g).ctxDest c) 26 12) 0 with
        mgroup := 0
        window := BitVec.ofNat 4 (bitsOf ((s.gate g).ctxDest c) 11 8), gen := BitVec.ofNat 8 (bitsOf ((s.gate g).ctxDest c) 7 0)
        offset := BitVec.ofNat 32 off, length := BitVec.ofNat 13 n, payload := bs.take n } n
      obtain ⟨hdest, hmulti, -⟩ := ctx_congr hreq.regs c
      obtain ⟨ks, hst, hks⟩ := ih _ (off + n) (bs.drop n) (by rw [List.length_drop]; omega) (hmulti.trans hm)
      refine ⟨_, hreq.trans hst, carryBytes_cons (n := n) (by omega) (by omega) rfl rfl ?_ ?_ ?_ ?_ ?_
          (carryBytes_congr hdest hks)⟩
      · exact (BitVec.toNat_ofNat _ _).trans (Nat.mod_eq_of_lt (by omega))
      · exact (BitVec.toNat_ofNat _ _).trans (Nat.mod_eq_of_lt ((bitsOf_lt _ _ _).trans (by decide)))
      · exact (BitVec.toNat_ofNat _ _).trans (Nat.mod_eq_of_lt (bitsOf_lt _ _ _))
      · exact (BitVec.toNat_ofNat _ _).trans (Nat.mod_eq_of_lt (bitsOf_lt _ _ _))
      · exact BitVec.toNat_ofNat _ _

end

end State

/-! ### A context without requests (R322) -/

namespace Gate

/-- No request or group has a part of context c. -/
structure NoPart (g : Gate) (c : Nat) : Prop where
  waiting (m : MergeGroup) : m ∈ g.waiting → ∀ p ∈ m.parts, p.1 ≠ c
  merger (m : MergeGroup) : m ∈ g.merger → ∀ p ∈ m.parts, p.1 ≠ c
  store (r : StoreReq) : r ∈ g.store → ∀ p ∈ r.parts, p.1 ≠ c

section
variable {g : Gate} {c : Nat}

theorem partCount_zero {ps : List (Nat × Nat × Nat)} (h : ∀ p ∈ ps, p.1 ≠ c) : (ps.filter (partOf c)).length = 0 := by
  rw [List.length_eq_zero_iff, List.filter_eq_nil_iff]
  exact fun p hp hx => h p hp (beq_iff_eq.mp hx)

theorem ne_of_partCount {ps : List (Nat × Nat × Nat)} (h : (ps.filter (partOf c)).length = 0) : ∀ p ∈ ps, p.1 ≠ c :=
  fun _ hp hc => partCount_ne_zero hp hc h

theorem NoPart.storeParts (h : g.NoPart c) : g.storeParts c = 0 := by
  unfold Gate.storeParts
  have h1 : ((g.waiting ++ g.merger).map fun m => (m.parts.filter (partOf c)).length).sum = 0 := by
    refine List.sum_eq_zero fun x hx => ?_
    obtain ⟨m, hm, rfl⟩ := List.mem_map.mp hx
    exact partCount_zero ((List.mem_append.mp hm).elim (h.waiting m) (h.merger m))
  have h2 : (g.store.map fun r => (r.parts.filter (partOf c)).length).sum = 0 := by
    refine List.sum_eq_zero fun x hx => ?_
    obtain ⟨r, hr, rfl⟩ := List.mem_map.mp hx
    exact partCount_zero (h.store r hr)
  rw [h1, h2]

/-- Where a request is the only one with a part of the context, the others have none. -/
theorem noPart_erase {r : StoreReq} {lo n : Nat} (hr : r ∈ g.store) (hp : r.parts = [(c, lo, n)]) (h1 : g.storeParts c = 1) :
    NoPart { g with store := g.store.erase r } c := by
  have hone : (r.parts.filter (partOf c)).length = 1 := by
    rw [hp]
    simp [partOf]
  have hsum : (g.store.map fun r => (r.parts.filter (partOf c)).length).sum =
      1 + ((g.store.erase r).map fun r => (r.parts.filter (partOf c)).length).sum := by
    have := (List.perm_cons_erase hr).map fun r : StoreReq => (r.parts.filter (partOf c)).length
    rw [this.sum_eq, List.map_cons, List.sum_cons, hone]
  unfold Gate.storeParts at h1
  rw [hsum, List.map_append, List.sum_append] at h1
  have hw : (g.waiting.map fun m => (m.parts.filter (partOf c)).length).sum = 0 := by omega
  have hm' : (g.merger.map fun m => (m.parts.filter (partOf c)).length).sum = 0 := by omega
  have hs : ((g.store.erase r).map fun r => (r.parts.filter (partOf c)).length).sum = 0 := by omega
  refine ⟨fun m hm => ne_of_partCount ?_, fun m hm => ne_of_partCount ?_, fun x hx => ne_of_partCount ?_⟩
  · exact List.sum_eq_zero_iff.mp hw _ (List.mem_map_of_mem (f := fun m : MergeGroup => (m.parts.filter (partOf c)).length) hm)
  · exact List.sum_eq_zero_iff.mp hm' _ (List.mem_map_of_mem (f := fun m : MergeGroup => (m.parts.filter (partOf c)).length) hm)
  · exact List.sum_eq_zero_iff.mp hs _ (List.mem_map_of_mem (f := fun r : StoreReq => (r.parts.filter (partOf c)).length) hx)

theorem NoPart.hold (h : g.NoPart c) (port : Nat) (m : Msg) {parts : List (Nat × Nat × Nat)} (hp : ∀ p ∈ parts, p.1 ≠ c)
    (first : Bool) :
    (g.hold port m parts first).NoPart c := by
  obtain ⟨r, -, hr, -, -, n, he⟩ := store_hold g port m parts first
  rw [he]
  refine ⟨h.waiting, h.merger, fun x hx => ?_⟩
  have hx' : x = r ∨ x ∈ g.store := by
    dsimp only at hx
    split at hx
    · exact List.mem_cons.mp hx
    · exact (List.mem_append.mp hx).symm.imp List.mem_singleton.mp id
  rcases hx' with rfl | hx'
  · rw [hr]
    exact hp
  · exact h.store x hx'

theorem NoPart.sendGroup (h : g.NoPart c) (i : Nat) : (g.sendGroup i).NoPart c := by
  unfold Gate.sendGroup
  split
  · exact h
  · next m hm =>
    refine NoPart.hold (g := { g with merger := g.merger.eraseIdx i })
        ⟨h.waiting, fun x hx => h.merger x (List.mem_of_mem_eraseIdx hx), h.store⟩ _ _
      (h.merger m (List.mem_of_getElem? hm)) true

theorem NoPart.join (h : g.NoPart c) {r : MergeGroup} (hp : ∀ p ∈ r.parts, p.1 ≠ c) : (g.join r).NoPart c := by
  unfold Gate.join
  split
  · split
    · exact h
    · next m hm =>
      have hjoined (m' : MergeGroup) (hm' : m'.parts = m.parts ++ r.parts) (i n : Nat) :
          ({ g with merger := g.merger.set i m' }.count Reg.gatMerged n).NoPart c := by
        refine ⟨h.waiting, fun x hx => ?_, h.store⟩
        rcases List.mem_or_eq_of_mem_set hx with hx | rfl
        · exact h.merger x hx
        · rw [hm']
          exact fun p hpp => (List.mem_append.mp hpp).elim (h.merger m (List.mem_of_getElem? hm) p) (hp p)
      dsimp only
      split
      · exact (hjoined _ rfl _ _).sendGroup _
      · exact hjoined _ rfl _ _
  · refine ⟨h.waiting, fun x hx => ?_, h.store⟩
    rcases List.mem_append.mp hx with hx | hx
    · exact h.merger x hx
    · rw [List.mem_singleton.mp hx]
      exact hp

theorem NoPart.rangeRead (h : g.NoPart c) (far : List (W64 × StoreReq)) {r : MergeGroup} (hp : ∀ p ∈ r.parts, p.1 ≠ c) :
    (g.rangeRead far r).NoPart c := by
  unfold Gate.rangeRead
  split
  · exact h.hold _ _ hp false
  split
  · refine ⟨fun x hx => ?_, h.merger, h.store⟩
    rcases List.mem_append.mp hx with hx | hx
    · exact h.waiting x hx
    · rw [List.mem_singleton.mp hx]
      exact hp
  · exact h.join hp

theorem NoPart.sent (h : g.NoPart c) {i : Nat} {r y : StoreReq} (hr : g.store[i]? = some r) (hp : y.parts = r.parts) (n : Nat) :
    NoPart { g with nextTag := n, store := g.store.set i y } c := by
  refine ⟨h.waiting, h.merger, fun x hx => ?_⟩
  rcases List.mem_or_eq_of_mem_set hx with hx | rfl
  · exact h.store x hx
  · rw [hp]
    exact h.store r (List.mem_of_getElem? hr)

theorem NoPart.transmits {b : Gate} (h : g.NoPart c) (ht : Transmits g b) : b.NoPart c := by
  rw [ht.only]
  exact ⟨h.waiting, h.merger, h.store⟩

theorem NoPart.releaseFrom (far : List (W64 × StoreReq)) (fuel : Nat) : ∀ (i : Nat) (g : Gate), g.NoPart c →
    (Gate.releaseFrom far i fuel g).NoPart c := by
  induction fuel with
  | zero => exact fun i g h => h
  | succ fuel ih =>
    intro i g h
    unfold Gate.releaseFrom
    split
    · exact h
    · next r hr =>
      split
      · dsimp only
        have hsent (t : Gate × StoreReq) (ht : t = if r.tag < 8192 then (g, r) else g.tagged r) :
            NoPart { t.1 with store := t.1.store.set i { t.2 with heldBack := false } } c := by
          by_cases hlt : r.tag < 8192
          · rw [if_pos hlt] at ht
            subst ht
            exact h.sent (y := { r with heldBack := false }) hr rfl g.nextTag
          · rw [if_neg hlt] at ht
            subst ht
            rw [tagged_fst]
            exact h.sent (y := { (g.tagged r).2 with heldBack := false }) hr (tagged_parts g r) _
        have ht := hsent _ rfl
        generalize (if r.tag < 8192 then (g, r) else g.tagged r) = t at ht ⊢
        exact ih (i + 1) _ (ht.transmits (transmits_post _ _ _ _ _))
      · exact ih (i + 1) g h

theorem NoPart.release (h : g.NoPart c) (far : List (W64 × StoreReq)) : (g.release far).NoPart c := by
  unfold Gate.release
  dsimp only
  refine NoPart.releaseFrom far _ 0 _ ?_
  have hfold (ws : List MergeGroup) (hw : ∀ m ∈ ws, ∀ p ∈ m.parts, p.1 ≠ c) (a : Gate) (ha : a.NoPart c) :
      (ws.foldl (fun (g : Gate) r => g.rangeRead far r) a).NoPart c := by
    induction ws generalizing a with
    | nil => exact ha
    | cons w ws ih =>
      exact ih (fun m hm => hw m (List.mem_cons_of_mem w hm)) _ (ha.rangeRead far (hw w List.mem_cons_self))
  exact hfold _ h.waiting _ ⟨fun m hm => absurd hm List.not_mem_nil, h.merger, h.store⟩

end

end Gate

theorem State.noPart_releaseStores {s : State} {g c : Nat} (h : (s.gate g).NoPart c) : (s.releaseStores.gate g).NoPart c := by
  unfold State.releaseStores
  refine List.foldlRecOn (motive := fun t : State => (t.gate g).NoPart c) _ _ h fun t ht i _ => ?_
  unfold State.modGate
  rw [State.gate_setGate]
  split
  · next hg =>
    subst hg
    exact ht.release _
  · exact ht

/-! ### The answers of a store (R313, R322, R324) -/

namespace State

section
variable {s : State} {g : GateId} {k : PortId} {m : Msg} {r : StoreReq} {c lo n op : Nat}

/-- The gate with the request answered taken from its list. -/
def answeredGate (s : State) (g k : Nat) (m : Msg) (r : StoreReq) : Gate :=
  { (msgTaken s g k m).gate g with store := ((msgTaken s g k m).gate g).store.erase r }

theorem answeredGate_reads (s : State) (g k : Nat) (m : Msg) (r : StoreReq) :
    (answeredGate s g k m r).regs = (s.gate g).regs ∧ (answeredGate s g k m r).chans = (s.gate g).chans ∧
      (answeredGate s g k m r).store = (s.gate g).store.erase r ∧ (answeredGate s g k m r).merger = (s.gate g).merger ∧
      (answeredGate s g k m r).waiting = (s.gate g).waiting := by
  unfold answeredGate
  rw [gate_msgTaken]
  exact ⟨rfl, rfl, rfl, rfl, rfl⟩

theorem gateActs_answered (s : State) (g k : Nat) (m : Msg) (r : StoreReq) :
    GateActs g s ((msgTaken s g k m).setGate g (answeredGate s g k m r)) :=
  (gatesGoOn_msgTaken s g k m).acts.trans (gateActs_setGate _ g _)

theorem outq_msgTaken (s : State) (g k : Nat) (m : Msg) : (msgTaken s g k m).outq = s.outq := by
  rw [(gatesGoOn_msgTaken s g k m).only]

/-- The last data of a request of one part, all at once. -/
theorem storeData_whole (hparts : r.parts = [(c, lo, m.payload.length)]) (hout : Outstanding s g k m r [op])
    (hne : m.payload ≠ [])
    (hlast : m.arg1.getLsbD 0 = true) (haddr : m.addr = r.msg.addr) (hlo : r.msg.addr.toNat = lo) (hgot : r.got = 0)
    (hrun : ((s.gate g).chan c).st = .run) : (msgTaken s g k m).storeData g k m op =
      (((msgTaken s g k m).setGate g (answeredGate s g k m r)).gateWrite g c
        ((s.gate g).ctxDoff c + (lo - (s.gate g).ctxAddr c)) m.payload (m.payload.length + 1)).gateGo g c := by
  obtain ⟨hregs, hchans, -⟩ := answeredGate_reads s g k m r
  have hpos : 0 < m.payload.length := List.length_pos_of_ne_nil hne
  have hdoff : (answeredGate s g k m r).ctxDoff c = (s.gate g).ctxDoff c := by
    unfold Gate.ctxDoff Gate.num Gate.reg
    rw [hregs]
  have ha : (answeredGate s g k m r).ctxAddr c = (s.gate g).ctxAddr c := by
    unfold Gate.ctxAddr Gate.field Gate.num Gate.reg
    rw [hregs]
  have hc : (answeredGate s g k m r).chan c = (s.gate g).chan c := by
    unfold Gate.chan
    rw [hchans]
  have hpart : ((msgTaken s g k m).setGate g (answeredGate s g k m r)).partData g (c, lo, m.payload.length) lo m.payload =
      ((msgTaken s g k m).setGate g (answeredGate s g k m r)).gateWrite g c
        ((s.gate g).ctxDoff c + (lo - (s.gate g).ctxAddr c)) m.payload (m.payload.length + 1) := by
    unfold partData takesData
    dsimp only
    rw [gate_setGate_same, hc, hrun, hdoff, ha, Nat.max_self, Nat.min_self, Nat.sub_self, Nat.add_sub_cancel_left,
        List.drop_zero,
      List.take_length]
    exact if_pos (by simp [hpos])
  have hskip : r.msg.addr.toNat + r.got - m.addr.toNat = 0 := by
    rw [haddr, hgot]
    omega
  unfold storeData
  rw [answered_msgTaken, answered_of_outstanding hout]
  dsimp only
  rw [hlast, hskip, if_pos rfl, hparts, haddr, hlo]
  simp only [List.foldl_cons, List.foldl_nil, if_true, List.drop_zero, Nat.add_zero]
  exact congrArg (fun t : State => t.gateGo g c) hpart

theorem data_carried (hparts : r.parts = [(c, lo, m.payload.length)]) (hout : Outstanding s g k m r [op]) (hne : m.payload ≠ [])
    (hlast : m.arg1.getLsbD 0 = true) (haddr : m.addr = r.msg.addr) (hlo : r.msg.addr.toNat = lo) (hgot : r.got = 0)
    (hrun : ((s.gate g).chan c).st = .run) (hw : (s.gate g).ctxWrite c = false) (hm : (s.gate g).ctxMulti c = false) :
    let t := (msgTaken s g k m).storeData g k m op
    ∃ ks, OnlyGate g s t ∧ t.reports = s.reports ∧ t.outq = s.outq ++ ks ∧
      CarryBytes (s.gate g) c ((s.gate g).ctxDoff c + (lo - (s.gate g).ctxAddr c)) ks m.payload ∧ ((t.gate g).chan c).st = .run
          ∧
      ((t.gate g).chan c).bytes = ((s.gate g).chan c).bytes ∧
      ((t.gate g).chan c).outst.map (·.pkt) = ((s.gate g).chan c).outst.map (·.pkt) ++ ks := by
  obtain ⟨hregs, hchans, -⟩ := answeredGate_reads s g k m r
  dsimp only
  rw [storeData_whole hparts hout hne hlast haddr hlo hgot hrun]
  have hact := gateActs_answered s g k m r
  have hq : ((msgTaken s g k m).setGate g (answeredGate s g k m r)).outq = s.outq := outq_msgTaken s g k m
  have hgate : ((msgTaken s g k m).setGate g (answeredGate s g k m r)).gate g = answeredGate s g k m r := gate_setGate_same _ _ _
  generalize (msgTaken s g k m).setGate g (answeredGate s g k m r) = u at hact hq hgate ⊢
  have hur : (u.gate g).regs = (s.gate g).regs := by rw [hgate, hregs]
  have huc : (u.gate g).chan c = (s.gate g).chan c := by
    rw [hgate]
    unfold Gate.chan
    rw [hchans]
  obtain ⟨hdest, hmulti, hwrite⟩ := ctx_congr hur c
  obtain ⟨ks, hst, hks⟩ := gateWrite_spec g c (m.payload.length + 1) u ((s.gate g).ctxDoff c + (lo - (s.gate g).ctxAddr c)) m.payload
    (Nat.lt_succ_self _) (hmulti.trans hm)
  generalize u.gateWrite g c _ m.payload _ = w at hst ⊢
  obtain ⟨os, n, hos, hwc⟩ := hst.chan
  rw [huc] at hwc
  have hkne : ks ≠ [] := by
    rintro rfl
    exact hne hks.1.symm
  have hone : os ≠ [] := by
    rintro rfl
    exact hkne hos.symm
  have hgo := readsOn_go (s := w) (g := g) (i := c) ((ctx_congr hst.regs c).2.2.trans (hwrite.trans hw)) (by
    rw [hwc]
    exact fun h => hone (List.append_eq_nil_iff.mp h).2)
  generalize w.gateGo g c = t at hgo ⊢
  obtain ⟨mv, hmv⟩ := hgo.chan
  have hwa : GateActs g u w := by
    refine ⟨?_, fun j hj => ?_⟩
    · have ho : w.outq = u.outq ++ ks := by rw [hst.only]
      rw [ho]
      exact hst.only
    · rw [hst.others j hj]
      exact Gate.sendsOn_refl _
  have hall := (hact.trans hwa).trans hgo.goes.acts
  refine ⟨ks, hall.onlyGate, hall.reports, ?_, carryBytes_congr hdest hks, ?_, ?_, ?_⟩
  · have h1 : t.outq = w.outq := by rw [hgo.goes.only]
    have h2 : w.outq = u.outq ++ ks := by rw [hst.only]
    rw [h1, h2, hq]
  · rw [hmv, hwc]
    exact hrun
  · rw [hmv, hwc]
  · rw [hmv, hwc]
    change (((s.gate g).chan c).outst ++ os).map (·.pkt) = _
    rw [List.map_append]
    exact congrArg (_ ++ ·) hos

/-- The completion of a request of one part. -/
theorem storeDone_part (hparts : r.parts = [(c, lo, n)]) (hout : Outstanding s g k m r [op]) :
    (msgTaken s g k m).storeDone g k m op =
      ((msgTaken s g k m).setGate g ((answeredGate s g k m r).modChan c fun v => { v with bytes := v.bytes + n })).gateGo g c :=
          by
  unfold storeDone
  rw [answered_msgTaken, answered_of_outstanding hout]
  dsimp only
  rw [hparts, List.foldl_cons, List.foldl_nil]
  refine congrArg (fun t : State => t.gateGo g c) ?_
  unfold gateBytes modGate
  rw [gate_setGate_same, setGate_setGate]
  rfl

theorem done_counted (hparts : r.parts = [(c, lo, n)]) (hout : Outstanding s g k m r [op]) :
    let t := (msgTaken s g k m).storeDone g k m op
    OnlyGate g s t ∧ t.reports = s.reports ∧ ((t.gate g).chan c).bytes = ((s.gate g).chan c).bytes + n := by
  obtain ⟨-, hchans, -⟩ := answeredGate_reads s g k m r
  dsimp only
  rw [storeDone_part hparts hout]
  have hact : GateActs g s ((msgTaken s g k m).setGate g ((answeredGate s g k m r).modChan c fun v => { v with bytes := v.bytes + n })) :=
    (gatesGoOn_msgTaken s g k m).acts.trans (gateActs_setGate _ g _)
  have hgo := goesOn_go g c ((msgTaken s g k m).setGate g ((answeredGate s g k m r).modChan c fun v => { v with bytes := v.bytes + n }))
  have hall := hact.trans hgo.acts
  refine ⟨hall.onlyGate, hall.reports, hgo.bytes.trans ?_⟩
  rw [gate_setGate_same, Gate.chan_modChan, if_pos rfl]
  unfold Gate.chan
  rw [hchans]

theorem outstanding_mem {ops : List Nat} (h : Outstanding s g k m r ops) : r ∈ (s.gate g).store := by
  obtain ⟨l, e, he, -⟩ := h
  rw [he]
  exact List.mem_append_right _ List.mem_cons_self

/-- A channel that has issued all it moves goes no further. -/
theorem pump_issued {i fuel : Nat} {t : State} {mv : Moving} (hm : ((t.gate g).chan i).moving = some mv) (hl : mv.len ≤ mv.next)
    :
    gatePump g i fuel t = t := by
  cases fuel with
  | zero => rfl
  | succ fuel =>
    unfold gatePump
    dsimp only
    rw [hm]
    split
    · next m' _ he =>
      rw [← Option.some.inj he]
      exact if_pos hl
    · rfl

theorem done_ends {mv : Moving} (hparts : r.parts = [(c, lo, n)]) (hout : Outstanding s g k m r [op])
    (hrun : ((s.gate g).chan c).st = .run)
    (hmv : ((s.gate g).chan c).moving = some mv) (hl : mv.len ≤ mv.next) (ho : ((s.gate g).chan c).outst = [])
    (hn : (s.gate g).ctxNotify c = false) (h1 : (s.gate g).storeParts c = 1) :
    let t := (msgTaken s g k m).storeDone g k m op
    ((t.gate g).chan c).st = .done ∧ ((t.gate g).chan c).bytes = ((s.gate g).chan c).bytes + n ∧ t.outq = s.outq := by
  obtain ⟨hregs, hchans, hstore, hmerger, hwaiting⟩ := answeredGate_reads s g k m r
  dsimp only
  rw [storeDone_part hparts hout]
  have hno : Gate.NoPart ((answeredGate s g k m r).modChan c fun v => { v with bytes := v.bytes + n }) c := by
    obtain ⟨k1, k2, k3⟩ := Gate.noPart_erase (outstanding_mem hout) hparts h1
    refine ⟨fun x hx => k1 x ?_, fun x hx => k2 x ?_, fun x hx => k3 x ?_⟩
    · exact hwaiting ▸ hx
    · exact hmerger ▸ hx
    · exact hstore ▸ hx
  have hq : ((msgTaken s g k m).setGate g ((answeredGate s g k m r).modChan c fun v => { v with bytes := v.bytes + n })).outq = s.outq :=
    outq_msgTaken s g k m
  have hgate := gate_setGate_same (msgTaken s g k m) g ((answeredGate s g k m r).modChan c fun v => { v with bytes := v.bytes + n })
  generalize (msgTaken s g k m).setGate g ((answeredGate s g k m r).modChan c fun v => { v with bytes := v.bytes + n }) = u at hq hgate ⊢
  have huc : (u.gate g).chan c = { (s.gate g).chan c with bytes := ((s.gate g).chan c).bytes + n } := by
    rw [hgate, Gate.chan_modChan, if_pos rfl]
    unfold Gate.chan
    rw [hchans]
  have hnotify : (u.gate g).ctxNotify c = false := by
    rw [hgate]
    refine Eq.trans ?_ hn
    unfold Gate.ctxNotify Gate.reg
    exact congrArg (fun rs => bit (Tab.get gateReset rs _) _) hregs
  rw [← hgate] at hno
  have hrel := (releaseStores_spec u).2 g
  have hrc := (hrel.chan c).trans huc
  have hrq : u.releaseStores.outq = s.outq := by rw [(releaseStores_spec u).1, hq]
  have hrno := noPart_releaseStores hno
  obtain ⟨-, -, -, -, hrregs, -⟩ := hrel.sendsOn
  have hrnotify : (u.releaseStores.gate g).ctxNotify c = false := by
    refine Eq.trans ?_ hnotify
    unfold Gate.ctxNotify
    rw [hrregs _ (by unfold Reg.gatChCfg Reg.gatMerged; omega)]
  unfold gateGo
  generalize u.releaseStores = w at hrc hrq hrno hrnotify ⊢
  rw [pump_issued (by rw [hrc]; exact hmv) hl]
  have hfin : w.gateFinish g c = w.modGate g fun v => v.modChan c fun v => { v with st := .done, moving := none } := by
    unfold gateFinish
    dsimp only
    rw [hrc, hmv, hrnotify, hrno.storeParts]
    dsimp only
    rw [hrun, ho, if_neg (by simp [hl]), if_neg (by simp)]
  rw [hfin]
  unfold modGate
  rw [gate_setGate_same, Gate.chan_modChan, if_pos rfl, hrc]
  exact ⟨rfl, rfl, hrq⟩

end

end State

/-! ### Errors of a store (R315, R324) -/

namespace State

section
variable {s : State} {g : GateId} {k : PortId} {m : Msg} {r : StoreReq} {p : Nat × Nat × Nat} {cause code : Nat}

theorem failStore_single (s : State) (hp : r.parts = [p]) (permits later : Bool) : s.failStore g r cause code permits later =
    ((s.setGate g { s.gate g with store := (s.gate g).store.erase r }).failPart g r p cause code permits later).releaseStores :=
        by
  unfold failStore
  dsimp only
  rw [hp, List.foldl_cons, List.foldl_nil]
  rfl

/-- A part of a running channel with retries left waits for its backoff, under its old tag where that is free. -/
theorem failPart_again (s : State) (hrun : ((s.gate g).chan p.1).st = .run)
    (hleft : r.retries < (s.gate g).retryLimit) :
    ∃ v x, s.failPart g r p cause code true false = s.setGate g v ∧ x ∈ v.store ∧ RetryOf r x p ∧
      ((∀ q ∈ (s.gate g).store, q.tag ≠ r.tag) → x.tag = r.tag) := by
  obtain ⟨n, x, htry, hx⟩ := retryOf_tagged (s.gate g) (r := r) (p := p)
    (x := { r with
      msg := if r.parts.length ≤ 1 then r.msg else { r.msg with addr := BitVec.ofNat 48 p.2.1, arg0 := BitVec.ofNat 32 p.2.2 }
      parts := [p], retries := r.retries + 1, backoff := !false, heldBack := false
      got := if r.parts.length ≤ 1 then r.got else 0 })
    ⟨rfl, rfl, rfl, rfl, rfl⟩ ((s.gate g).store.any fun o => o.tag == r.tag)
  have htag : (∀ q ∈ (s.gate g).store, q.tag ≠ r.tag) → x.tag = r.tag := by
    intro hall
    have hany : ((s.gate g).store.any fun o => o.tag == r.tag) = false := by
      rw [List.any_eq_false]
      exact fun o ho h => hall o ho (beq_iff_eq.mp h)
    rw [hany] at htry
    exact (congrArg StoreReq.tag (congrArg Prod.snd htry)).symm
  unfold failPart
  dsimp only
  rw [if_neg (by simp [hrun]), if_neg (by simp [hrun]), if_neg (by simp [hleft]), htry]
  have hmem : x ∈ (s.gate g).store ++ [x] := List.mem_append_right _ (List.mem_singleton_self x)
  split
  · exact ⟨_, x, rfl, hmem, hx, htag⟩
  · exact ⟨_, x, rfl, hmem, hx, htag⟩

theorem error_retried (hm : m.wellFormed = true) (hop : m.op = 0x8F) (hport : AtPort s g k 1 m)
    (hout : Outstanding s g k m r [0x01, 0x02, 0x03, 0x04]) (hp : r.parts = [p]) (hrun : ((s.gate g).chan p.1).st = .run)
    (hst : m.status = 1 ∨ m.status = 3) (hleft : r.retries < (s.gate g).retryLimit) :
    ∃ t x, exec (.error g k m) s = .next t ∧ OnlyGate g s t ∧ t.reports = s.reports ∧ t.outq = s.outq ∧ x ∈ (t.gate g).store ∧
      RetryOf r x p ∧ ((∀ q ∈ (s.gate g).store.erase r, q.tag ≠ r.tag) → x.tag = r.tag) := by
  have hpermits : (decide (m.status = 1) || decide (m.status = 3)) = true := by simpa using hst
  obtain ⟨hregs, hchans, hstore, -⟩ := answeredGate_reads s g k m r
  have hact := (gatesGoOn_msgTaken s g k m).trans (gatesGoOn_setGate _ g (answeredGate s g k m r))
  have hgate := gate_setGate_same (msgTaken s g k m) g (answeredGate s g k m r)
  have hlim : (answeredGate s g k m r).retryLimit = (s.gate g).retryLimit := by
    unfold Gate.retryLimit Gate.field Gate.reg
    rw [hregs]
  obtain ⟨v, x, hv, hx, htry, htag⟩ := failPart_again (g := g) (cause := 3) (code := m.status.toNat)
    ((msgTaken s g k m).setGate g (answeredGate s g k m r))
    (by rw [hgate]; unfold Gate.chan; rw [hchans]; exact hrun) (by rw [hgate, hlim]; exact hleft)
  rw [exec_error hm hop hport, storeError_of_outstanding hout, hpermits, failStore_single _ hp]
  have hv' : ((msgTaken s g k m).setGate g { (msgTaken s g k m).gate g with store := ((msgTaken s g k m).gate g).store.erase r }).failPart g r p 3
      m.status.toNat true false = _ := hv
  rw [hv']
  have hall := (hact.trans (gatesGoOn_setGate _ g v)).trans (gatesGoOn_releaseStores g _)
  have hrel := (releaseStores_spec (((msgTaken s g k m).setGate g (answeredGate s g k m r)).setGate g v)).2 g
  rw [gate_setGate_same] at hrel
  have ⟨_, _, _, hsent, _⟩ := htry
  refine ⟨_, x, rfl, hall.onlyGate, hall.reports, by rw [hall.only], hrel.store x hx hsent, htry, fun hall => htag ?_⟩
  rw [hgate, hstore]
  exact hall

/-- A channel that is halted drains, and its gate raises GATE_HALT. -/
theorem haltGate_eq (s : State) {c : Nat} (hrun : ((s.gate g).chan c).st = .run) (cause : Nat) (code : Byte) (used : Nat)
    (opc : W16) :
    ∃ v x ks, s.haltGate g c cause code used opc = ({ s.setGate g v with reports := s.reports ++ [x], outq := s.outq ++ ks } :
        State) ∧
      x.source = 56 ∧ x.loc = State.locGate g ∧ x.time = s.clock.now ∧ v.chan c = ((s.gate g).chan c).stop cause code used false
          := by
  have hc := chan_haltGate hrun cause code used opc c
  rw [if_pos rfl] at hc
  have he : ∃ v x ks, s.haltGate g c cause code used opc = ({ s.setGate g v with reports := s.reports ++ [x], outq := s.outq ++ ks } : State) ∧
      x.source = 56 ∧ x.loc = State.locGate g ∧ x.time = s.clock.now := by
    unfold haltGate
    dsimp only
    rw [if_pos hrun]
    unfold raiseGate
    dsimp only
    rw [gate_setGate_same, setGate_setGate, State.raise_gate _ _ _ g.isLt (by decide)]
    exact ⟨_, _, _, rfl, rfl, rfl, rfl⟩
  obtain ⟨v, x, ks, he, h1, h2, h3⟩ := he
  refine ⟨v, x, ks, he, h1, h2, h3, ?_⟩
  rw [← hc, he]
  exact congrArg (fun d : Gate => d.chan c) (gate_setGate_same s g v).symm

theorem error_drained (hm : m.wellFormed = true) (hop : m.op = 0x8F) (hport : AtPort s g k 1 m)
    (hout : Outstanding s g k m r [0x01, 0x02, 0x03, 0x04]) (hp : r.parts = [p]) (hrun : ((s.gate g).chan p.1).st = .run)
    (hst : m.status ≠ 1 ∧ m.status ≠ 3 ∨ (s.gate g).retryLimit ≤ r.retries) :
    ∃ t, exec (.error g k m) s = .next t ∧ OnlyGate g s t ∧ ((t.gate g).chan p.1).st = .draining ∧ ((t.gate g).chan p.1).cause =
        3 ∧
      ((t.gate g).chan p.1).code = m.status ∧ ((t.gate g).chan p.1).used = r.retries ∧ Raised s t 56 (State.locGate g) := by
  obtain ⟨hregs, hchans, hstore, -⟩ := answeredGate_reads s g k m r
  have hact := (gatesGoOn_msgTaken s g k m).trans (gatesGoOn_setGate _ g (answeredGate s g k m r))
  have hgate := gate_setGate_same (msgTaken s g k m) g (answeredGate s g k m r)
  have hlim : (answeredGate s g k m r).retryLimit = (s.gate g).retryLimit := by
    unfold Gate.retryLimit Gate.field Gate.reg
    rw [hregs]
  have hfail : (msgTaken s g k m).failStore g r 3 m.status.toNat (m.status = 1 || m.status = 3) false =
      (((msgTaken s g k m).setGate g (answeredGate s g k m r)).failPart g r p 3 m.status.toNat (m.status = 1 || m.status = 3)
        false).releaseStores := failStore_single _ hp _ _
  rw [exec_error hm hop hport, storeError_of_outstanding hout, hfail]
  generalize (msgTaken s g k m).setGate g (answeredGate s g k m r) = u at hact hgate ⊢
  have huc : (u.gate g).chan p.1 = (s.gate g).chan p.1 := by
    rw [hgate]
    unfold Gate.chan
    rw [hchans]
  have hurun : ((u.gate g).chan p.1).st = .run := by rw [huc]; exact hrun
  have hpart : u.failPart g r p 3 m.status.toNat (m.status = 1 || m.status = 3) false =
      u.haltGate g p.1 3 (BitVec.ofNat 8 m.status.toNat) r.retries (msgOpcode r.msg) := by
    unfold failPart
    dsimp only
    rw [if_neg (by simp [hurun]), if_neg (by simp [hurun]), if_pos]
    rw [hgate, hlim]
    rcases hst with ⟨h1, h2⟩ | h
    · rw [decide_eq_false h1, decide_eq_false h2]
      rfl
    · simp [h]
  obtain ⟨v, x, ks, hh, h1, h2, h3, hc⟩ := haltGate_eq u hurun 3 (BitVec.ofNat 8 m.status.toNat) r.retries (msgOpcode r.msg)
  rw [hpart, hh]
  have hur : u.reports = s.reports := hact.reports
  have hclock : u.clock = s.clock := by rw [hact.only]
  have hrel := (releaseStores_spec ({ u.setGate g v with reports := u.reports ++ [x], outq := u.outq ++ ks } : State)).2 g
  have hgv : State.gate { u.setGate g v with reports := u.reports ++ [x], outq := u.outq ++ ks } g = v := gate_setGate_same u g v
  have hgo := gatesGoOn_releaseStores g ({ u.setGate g v with reports := u.reports ++ [x], outq := u.outq ++ ks } : State)
  rw [hgv] at hrel
  have hstc : (State.releaseStores { u.setGate g v with reports := u.reports ++ [x], outq := u.outq ++ ks }) =
      ({ s with gates := (State.releaseStores { u.setGate g v with reports := u.reports ++ [x], outq := u.outq ++ ks }).gates
                reports := u.reports ++ [x], outq := u.outq ++ ks } : State) := by
    refine hgo.only.trans ?_
    exact congrArg (fun w : State => { w with
      gates := (State.releaseStores { u.setGate g v with reports := u.reports ++ [x], outq := u.outq ++ ks }).gates
      reports := u.reports ++ [x], outq := u.outq ++ ks }) hact.only
  have hothers (j : Nat) (hj : j ≠ g.val) : SendsOn (s.gate j)
      ((State.releaseStores { u.setGate g v with reports := u.reports ++ [x], outq := u.outq ++ ks }).gate j) := by
    refine Gate.sendsOn_trans (hact.sendsOn j hj) ?_
    have := hgo.sendsOn j hj
    rwa [show State.gate { u.setGate g v with reports := u.reports ++ [x], outq := u.outq ++ ks } j = u.gate j from
      gate_setGate_ne u v hj] at this
  generalize State.releaseStores { u.setGate g v with reports := u.reports ++ [x], outq := u.outq ++ ks } = t at hrel hstc hothers ⊢
  have htc : (t.gate g).chan p.1 = ((s.gate g).chan p.1).stop 3 (BitVec.ofNat 8 m.status.toNat) r.retries false := by
    rw [hrel.chan, hc, huc]
  have hst' (j : Nat) : t.stc j = s.stc j := by
    rw [hstc]
    rfl
  refine ⟨t, rfl, ⟨hothers, .inl (by rw [hstc]), fun j => ?_, by rw [hstc]⟩, ?_, ?_, ?_, ?_, [], x, [], ?_, h1, h2, ?_⟩
  · rw [hst' j]
    exact ⟨rfl, id, fun _ _ _ => rfl⟩
  · rw [htc]
    rfl
  · rw [htc]
    rfl
  · rw [htc]
    exact (by simp : BitVec.ofNat 8 m.status.toNat = m.status)
  · rw [htc]
    rfl
  · rw [hstc, List.append_nil]
    exact congrArg (· ++ [x]) hur
  · rw [h3, hclock]

end

end State

/-- Settles O52: the data leave as the packets of the channel's write, a completion lets the channel go on or end, and an error
queues another try or halts it. -/
theorem storeAnswersReachChannels : Obligations.StoreAnswersReachChannels := by
  unfold Obligations.StoreAnswersReachChannels
  intro g k m s hm hport
  dsimp only
  refine ⟨fun r c lo hparts i op hi hout hne hlast haddr hlo hgot hle hrun hw hmc hd => ?_, fun r c lo n hparts => ⟨fun i op hi hout => ?_,
    fun hout hop hrun => ⟨fun hst hleft => ?_, fun hst => ?_⟩⟩⟩
  · obtain ⟨ks, h⟩ := State.data_carried hparts hout hne hlast haddr hlo hgot hrun hw hmc
    rcases hi with ⟨rfl, hop, rfl⟩ | ⟨rfl, hop, rfl⟩
    · exact ⟨_, ks, State.exec_ebsoberReadData hm hop hport, h⟩
    · exact ⟨_, ks, State.exec_shardData hm hop hport, h⟩
  · have he : exec i s = .next ((msgTaken s g k m).storeDone g k m op) := by
      rcases hi with ⟨rfl, hop, rfl⟩ | ⟨rfl, hop, rfl⟩
      · exact State.exec_writeDone hm hop hport
      · exact State.exec_shardDone hm hop hport
    exact ⟨⟨_, he, State.done_counted hparts hout⟩, fun mv hrun hmv hl ho hn h1 =>
      ⟨_, he, State.done_ends hparts hout hrun hmv hl ho hn h1⟩⟩
  · exact State.error_retried hm hop hport hout hparts hrun hst hleft
  · exact State.error_drained hm hop hport hout hparts hrun hst

end Sys2Proof.Machine

namespace Sys2Proof.Machine
open Sys2Proof.Safety

/-! ### A role that no write gives (R318, R320)

A role written before a port comes UP waits in the port's record. The record holds any number, and 8, which a write refuses,
takes effect as the UNUSED that its low three bits are. -/

/-- A port of role PEER whose partner matches, about to come UP with a role of 8 that waits. -/
def duePort : Port := { st := .training, powered := true, caps := some (State.capsOf []), nextRole := some 8 }

/-- Gate 0 with that port: lane 0 locks, seven good codewords on, and lane 1 is UP. -/
def dueGate : Gate :=
  ((((({} : Gate).setField (Reg.lnkPortCtrl 0) 6 4 2).setPort 0 duePort).setLane 0 { st := .lock, goodRun := 7 })).setLane 1 { st := .up }

/-- A module that lives, with that gate. -/
def dueState : State :=
  { State.reset with power := { busbar := .within, auxOn := true }, sec := { running := true, stage := 8 } }.setGate 0 dueGate

theorem dueState_inUse : InUse dueState 0 0 := by
  unfold InUse
  decide +kernel

/-- The port comes UP once a lane of it changes, takes the role, and turns every lane off. -/
theorem dueState_laneTrain : laneSt (dueState.laneTrain 0 0) 0 0 = .off := by decide +kernel

theorem dueState_laneFail : laneSt (dueState.laneFail (0 : GateId) (8 * (0 : PortId) + 0)) (0 : GateId) (8 * (0 : PortId) + 1) =
    .off := by
  decide +kernel

theorem dueState_lane1 : laneSt dueState (0 : GateId) (8 * (0 : PortId) + 1) = .up := by decide +kernel

/-- A good codeword, the eighth on lane 0. -/
def eighthFrame : Frame := { decodes := true, corr := 0, marker := 0xA5C00, bytes := List.replicate 640 0 }

theorem eighthFrame_wellFormed : eighthFrame.wellFormed = true := by
  unfold Frame.wellFormed eighthFrame
  rw [List.length_replicate]
  rfl

theorem dueState_laneLock :
    laneSt ((dueState.modGate 0 fun g => g.setLane 0 (State.countCodeword (g.lane 0) eighthFrame)).lockUpdate 0 0) 0 0 = .off :=
        by
  decide +kernel

/-- A codeword on a lane that locks. -/
theorem exec_idle_locking {s : State} {g : GateId} {l : LaneId} {f : Frame} (hf : f.wellFormed = true) (ha : s.alive = true)
    (hl : (s.gate g).lost = false) (hst : ((s.gate g).lane l).st = .lock) : exec (.idle g l f) s =
      .next ((s.modGate g fun v => v.setLane l (State.countCodeword (v.lane l) f)).lockUpdate g l) := by
  refine Eq.trans (if_pos hf) (congrArg Host.Outcome.next ?_)
  unfold State.receive
  dsimp only
  rw [hst, hl, ha, if_neg (by decide), if_pos rfl]

theorem exec_lockTimeout {s : State} {g : GateId} {l : LaneId} (hst : ((s.gate g).lane l).st = .lock) :
    exec (.lockTimeout g l) s = .next (s.laneTrain g l) := by
  refine if_pos (c := ((s.gate g).lane l).st = .lock ∨ ((s.gate g).lane l).st = .caps) ?_
  exact .inl hst

/-- The alarm of one lane. -/
theorem exec_cableAlarmPoll_single {s : State} {g : GateId} {k : PortId} {fatal : Byte} {i : Nat}
    (h : ((List.range 8).filter fun i => fatal.getLsbD i && ((s.gate g).lane (8 * k + i)).st != .off &&
      ((s.gate g).lane (8 * k + i)).st != .failed) = [i]) :
    exec (.cableAlarmPoll g k fatal) s = .next (s.laneFail g (8 * k + i)) := by
  have he : exec (.cableAlarmPoll g k fatal) s = .next (((List.range 8).filter fun i => fatal.getLsbD i &&
    ((s.gate g).lane (8 * k + i)).st != .off && ((s.gate g).lane (8 * k + i)).st != .failed).foldl
      (fun s i => s.laneFail g (8 * k + i)) s) := rfl
  rw [he, h]
  rfl

/-- What O49 says of the lanes without an alarm. -/
theorem alarm_spares_of (h : Obligations.PortsFollowTheirCages) {s : State} {g : GateId} {k : PortId}
    (hl : (s.gate g).lost = false)
    (hu : InUse s g k) (fatal : Byte) : ∃ t, exec (.cableAlarmPoll g k fatal) s = .next t ∧
      ∀ i < 8, fatal.getLsbD i = false → laneSt t g (8 * k + i) = laneSt s g (8 * k + i) := by
  unfold Obligations.PortsFollowTheirCages at h
  obtain ⟨-, -, -, -, -, -, -, halarm, -⟩ := h g k s hl
  obtain ⟨t, ht, -, -, hother, -⟩ := halarm fatal hu
  exact ⟨t, ht, hother⟩

/-- Refutes O49: a fatal alarm of lane 0 of dueState fails that lane alone, it is said, but its port comes UP by it and takes the
role of 8 that waits, which turns lane 1 off. -/
theorem not_portsFollowTheirCages : ¬ Obligations.PortsFollowTheirCages := by
  intro h
  have hlost : (dueState.gate (0 : GateId)).lost = false := by decide +kernel
  obtain ⟨t, ht, hother⟩ := alarm_spares_of h (k := 0) hlost dueState_inUse 1
  have hone : ((List.range 8).filter fun i => (1 : Byte).getLsbD i && ((dueState.gate (0 : GateId)).lane (8 * (0 : PortId) + i)).st != .off &&
      ((dueState.gate (0 : GateId)).lane (8 * (0 : PortId) + i)).st != .failed) = [0] := by decide +kernel
  have ht' := Host.Outcome.next.inj (ht.symm.trans (exec_cableAlarmPoll_single hone))
  have hup := hother 1 (by decide) (by decide)
  rw [ht', dueState_laneFail, dueState_lane1] at hup
  exact absurd hup (by decide)

/-- Refutes O50: the lock timeout of lane 0 of dueState trains it again, it is said, but its port comes UP by it and takes the
role of 8 that waits, which turns the lane off. -/
theorem not_lanesTrainAndRetrain : ¬ Obligations.LanesTrainAndRetrain := by
  unfold Obligations.LanesTrainAndRetrain
  intro h
  have husable : Usable dueState 0 0 := by
    unfold Usable
    decide +kernel
  obtain ⟨-, -, -, -, -, htimeout, -⟩ := h 0 0 dueState husable dueState_inUse (by decide +kernel)
  have hlock : ((dueState.gate 0).lane 0).st = .lock := by decide +kernel
  obtain ⟨t, ht, -, -, hst, -⟩ := htimeout (.inl hlock)
  have he : exec (.lockTimeout 0 0) dueState = .next (dueState.laneTrain 0 0) := exec_lockTimeout hlock
  have ht' : t = dueState.laneTrain 0 0 := Host.Outcome.next.inj (ht.symm.trans he)
  rw [ht'] at hst
  exact absurd (dueState_laneTrain.symm.trans hst) (by decide)

/-- Refutes O51: the eighth good codeword on lane 0 of dueState takes it to CAPS, it is said, but its port comes UP by it and takes
the role of 8 that waits, which turns the lane off. -/
theorem not_framesReceivedAreServed : ¬ Obligations.FramesReceivedAreServed := by
  unfold Obligations.FramesReceivedAreServed
  intro h
  have halive : dueState.alive = true := by decide +kernel
  have hlost : (dueState.gate 0).lost = false := by decide +kernel
  have hlock : ((dueState.gate 0).lane 0).st = .lock := by decide +kernel
  have hserve := ((h 0 0 dueState eighthFrame).2.1 halive (by decide +kernel)).1 eighthFrame_wellFormed hlost hlock dueState_inUse
    (.idle 0 0 eighthFrame) (by simp)
  obtain ⟨t, ht, -, -, hst, -⟩ := hserve.2 (by decide +kernel) (by decide +kernel)
  have ht' : t = _ := Host.Outcome.next.inj (ht.symm.trans (exec_idle_locking eighthFrame_wellFormed halive hlost hlock))
  rw [ht'] at hst
  exact absurd (dueState_laneLock.symm.trans hst) (by decide)

end Sys2Proof.Machine

namespace Sys2Proof.Machine
open Sys2Proof.Safety

/-! Registers by packet and by address (R9, R13, R75, R99). -/

/-! ### A croft's registers -/

/-- A register that starts nothing stores the writable bits of what is written, in an access of its own width (R13). -/
theorem Site.writeReg_plain {x : Site} {o : Nat} {d : RegDef} (v : W64) (hf : findReg croftMap o = some d) (hp : Plain x.c o) :
    x.writeReg o (if d.wide = true then 8 else 4) v = x.setReg o (d.write (x.reg o) v) := by
  obtain ⟨hl, hpred, hwin⟩ := hp
  simp only [List.mem_cons, List.not_mem_nil, or_false, not_or] at hl
  obtain ⟨h1, h2, h3, h4, h5, h6, h7, h8, h9, h10⟩ := hl
  have hw : ¬ (0x40 ≤ o ∧ o < 0xC0 ∧ x.winState ((o - 0x40) / 8) ≠ 0) := fun ⟨a, b, c⟩ => c (hwin a b)
  unfold Site.writeReg
  rw [hf]
  dsimp only
  rw [if_neg (by simp), if_neg h1, if_neg h2, if_neg h3, if_neg h4, if_neg h5, if_neg h6, if_neg h7, if_neg hw, if_neg h8,
    if_neg h9, hpred]
  exact if_neg fun h => h10 h.1

/-- A register that holds its own value answers it, and its read-to-clear bits clear (R13). -/
theorem Site.readReg_own {x : Site} {o : Nat} {d : RegDef} (hf : findReg croftMap o = some d) (ho : o ≠ Reg.crfSeqStall)
    (hs : x.shownReg o = none) :
    x.readReg o (if d.wide = true then 8 else 4) = (if d.rc = 0 then x else x.setReg o (x.reg o &&& ~~~ d.rc), x.reg o) := by
  unfold Site.readReg
  rw [hf]
  dsimp only
  rw [if_neg (by simp), if_neg ho, hs]
  rfl

theorem Site.readReg_stall {x : Site} {d : RegDef} (hf : findReg croftMap Reg.crfSeqStall = some d) :
    x.readReg Reg.crfSeqStall (if d.wide = true then 8 else 4) = x.readStall := by
  unfold Site.readReg
  rw [hf]
  dsimp only
  rw [if_neg (by simp), if_pos rfl]

section
variable {s : State} {q : Nat} {k : Packet}

theorem atRegister_not_refused {o : Nat} {d : RegDef} (h : AtRegister s q k o d) : (s.site q).regRefused k = none := by
  obtain ⟨hr, hh, ho, hl, h4, hf, -, -⟩ := h
  have hr' : (s.site q).c.resetting = false := hr
  unfold Site.regRefused
  dsimp only
  rw [hr', if_neg Bool.false_ne_true, hh, if_neg (by simp), ho, if_neg (by omega), if_neg]
  intro hx
  have := hf hx.1
  omega

theorem atRegister_writes {o : Nat} {d : RegDef} (h : AtRegister s q k o d) (hp : Plain (s.croft q) o) :
    (s.site q).regWritePacket k = { s.site q with
      c := withReg (s.croft q) o (d.write (regOf (s.croft q) o) (k.opdata.setWidth 64))
      out := [{ (s.site q).answer k 0x14 3 with opdata := (k.opdata.setWidth 64 : W64).setWidth 96 }] } := by
  have hn := atRegister_not_refused h
  obtain ⟨-, -, ho, -, -, -, hd, hw⟩ := h
  unfold Site.regWritePacket
  rw [hn]
  dsimp only
  rw [ho, Nat.add_sub_cancel_left, hw, Site.writeReg_plain _ hd hp]
  rfl

theorem atRegister_reads {o : Nat} {d : RegDef} (h : AtRegister s q k o d) :
    (s.site q).regReadPacket k = ((s.site q).readReg o (if d.wide = true then 8 else 4)).1.regReply k
      ((s.site q).readReg o (if d.wide = true then 8 else 4)).2 := by
  have hn := atRegister_not_refused h
  obtain ⟨-, -, ho, -, -, -, hd, hw⟩ := h
  unfold Site.regReadPacket
  rw [hn]
  dsimp only
  rw [ho, Nat.add_sub_cancel_left, hw]

/-- REG_DATA of a croft. -/
theorem regData_answers (s : State) (q : Nat) (k : Packet) (v : W64) :
    RegAnswers k { (s.site q).answer k 0x14 3 with opdata := v.setWidth 96 } v :=
  ⟨rfl, by simp [Site.answer, Site.packet], rfl, rfl, rfl, rfl⟩

/-- A register packet that leaves a croft and one packet behind. -/
theorem serve_left {f : Site → Site} {c : Croft} {o : List Packet} (hr : s.reached k = some q)
    (hf : f (s.site q) = { s.site q with c := c, out := o }) :
    s.serve k f = { (s.take k).setCroft q c with outq := s.outq ++ o } := by
  unfold State.serve
  rw [hr]
  exact onCroft_sent (s := s.take k) hf

/-- One that also draws a free value. -/
theorem serve_drawn {f : Site → Site} {c : Croft} {o : List Packet} (hr : s.reached k = some q)
    (hf : f (s.site q) = { s.site q with c := c, out := o, free := s.freeCtr + 1 }) :
    s.serve k f = { (s.take k).setCroft q c with outq := s.outq ++ o, freeCtr := s.freeCtr + 1 } := by
  unfold State.serve
  rw [hr]
  have hf' : f ((s.take k).site q) = { (s.take k).site q with c := c, out := o, free := s.freeCtr + 1 } := hf
  dsimp only
  rw [State.onCroft_eq', hf']
  simp [State.setCroft, State.take]

theorem dest_of_reached (hr : s.reached k = some q) : k.dest.toNat < 26880 := by
  unfold State.reached at hr
  split at hr
  · assumption
  · cases hr

theorem exec_regWrite_of_served {t : State} (hk : k.wellFormed = true) (ht : InTurn s k) (hr : s.reached k = some q)
    (h : s.serve k (fun x => x.regWritePacket k) = t) (hsh : t.shadows = s.shadows) : exec (.regWrite k) s = .next t := by
  have hd := dest_of_reached hr
  rw [State.exec_regWrite, execRegWrite, State.inTurn_eq _ hk ht, State.asOne_of_shadows]
  · simp only [if_pos hd, h]
  · simp only [if_pos hd, h, hsh]

theorem exec_regRead_of_served {t : State} (hk : k.wellFormed = true) (ht : InTurn s k) (hr : s.reached k = some q)
    (h : s.serve k (fun x => x.regReadPacket k) = t) (hsh : t.shadows = s.shadows) : exec (.regRead k) s = .next t := by
  have hd := dest_of_reached hr
  rw [State.exec_regRead, execRegRead, State.inTurn_eq _ hk ht, State.asOne_of_shadows]
  · simp only [if_pos hd, h]
  · simp only [if_pos hd, h, hsh]

/-- A register write at its croft (R75). -/
theorem exec_regWrite_plain {o : Nat} {d : RegDef} (hk : k.wellFormed = true) (ht : InTurn s k) (hr : s.reached k = some q)
    (h : AtRegister s q k o d) (hp : Plain (s.croft q) o) :
    ∃ a, RegAnswers k a (k.opdata.setWidth 64) ∧ exec (.regWrite k) s =
      .next { (s.take k).setCroft q (withReg (s.croft q) o (d.write (regOf (s.croft q) o) (k.opdata.setWidth 64))) with
        outq := s.outq ++ [a] } :=
  ⟨_, regData_answers s q k _, exec_regWrite_of_served hk ht hr (serve_left hr (atRegister_writes h hp)) rfl⟩

/-- A register read at its croft (R75). -/
theorem exec_regRead_own {o : Nat} {d : RegDef} (hk : k.wellFormed = true) (ht : InTurn s k) (hr : s.reached k = some q)
    (h : AtRegister s q k o d) (hs : (s.site q).shownReg o = none) (ho : o ≠ Reg.crfSeqStall) :
    ∃ a, RegAnswers k a (regOf (s.croft q) o) ∧ exec (.regRead k) s =
      .next { (s.take k).setCroft q (if d.rc = 0 then s.croft q else withReg (s.croft q) o (regOf (s.croft q) o &&& ~~~ d.rc))
          with
        outq := s.outq ++ [a] } := by
  refine ⟨_, regData_answers s q k _, exec_regRead_of_served hk ht hr (serve_left hr ?_) rfl⟩
  have hd : findReg croftMap o = some d := h.2.2.2.2.2.2.1
  rw [atRegister_reads h, Site.readReg_own hd ho hs]
  split <;> rfl

/-- CRF_SEQ_STALL reads zero where no cycle may have passed (R78). -/
theorem exec_regRead_unstalled {d : RegDef} (hk : k.wellFormed = true) (ht : InTurn s k) (hr : s.reached k = some q)
    (h : AtRegister s q k Reg.crfSeqStall d) (hs : (s.croft q).stalled = false) :
    ∃ a, RegAnswers k a 0 ∧ exec (.regRead k) s = .next { (s.take k).setCroft q (s.croft q) with outq := s.outq ++ [a] } := by
  refine ⟨_, regData_answers s q k _, exec_regRead_of_served hk ht hr (serve_left hr ?_) rfl⟩
  have hd : findReg croftMap Reg.crfSeqStall = some d := h.2.2.2.2.2.2.1
  have hread : (s.site q).readStall = (s.site q, 0) := if_neg (by rw [show (s.site q).c.stalled = false from hs]; exact Bool.false_ne_true)
  rw [atRegister_reads h, Site.readReg_stall hd, hread]
  rfl

/-- And a free number of cycles where some may have (log 14). -/
theorem exec_regRead_stalled {d : RegDef} (hk : k.wellFormed = true) (ht : InTurn s k) (hr : s.reached k = some q)
    (h : AtRegister s q k Reg.crfSeqStall d) (hs : (s.croft q).stalled = true) :
    ∃ a b, RegAnswers k a (((Config.freeWord s.freeCtr).setWidth 32).setWidth 64) ∧ exec (.regRead k) s =
      .next { (s.take k).setCroft q { s.croft q with stalled := b } with outq := s.outq ++ [a], freeCtr := s.freeCtr + 1 } := by
  refine ⟨_, (s.site q).fresh.2.stalling, regData_answers s q k _,
    exec_regRead_of_served hk ht hr (serve_drawn hr ?_) rfl⟩
  have hd : findReg croftMap Reg.crfSeqStall = some d := h.2.2.2.2.2.2.1
  have hread := show (s.site q).readStall = _ from if_pos (show (s.site q).c.stalled = true from hs)
  rw [atRegister_reads h, Site.readReg_stall hd, hread]
  rfl

/-! ### Refusals (R71, R75, R99, R100) -/

/-- The codes with which a croft refuses a register packet. -/
theorem regRefused_code {code : Nat}
    (h : (s.croft q).resetting = true ∧ code = 0x06 ∨ (s.croft q).resetting = false ∧ k.holding ≠ 15 ∧ code = 0x07 ∨
      (s.croft q).resetting = false ∧ k.holding = 15 ∧ 0x0F005000 ≤ k.offset.toNat ∧ code = 0x0C ∨
      (s.croft q).resetting = false ∧ k.holding = 15 ∧ (s.site q).fenced = true ∧ 0x0F001000 ≤ k.offset.toNat ∧
        k.offset.toNat < 0x0F005000 ∧ k.offset.toNat % 4 = 0 ∧ code = 0x0B) :
    (s.site q).regRefused k = some code ∧ code < 256 := by
  have hc : (s.site q).c = s.croft q := rfl
  unfold Site.regRefused
  dsimp only
  rw [hc]
  obtain ⟨hr, rfl⟩ | ⟨hr, hh, rfl⟩ | ⟨hr, hh, ho, rfl⟩ | ⟨hr, hh, hf, ho, ho', h4, rfl⟩ := h
  · exact ⟨if_pos hr, by decide⟩
  · exact ⟨by rw [hr, if_neg Bool.false_ne_true]; exact if_pos hh, by decide⟩
  · exact ⟨by rw [hr, if_neg Bool.false_ne_true, hh, if_neg (by simp), if_pos (by omega)], by decide⟩
  · exact ⟨by rw [hr, if_neg Bool.false_ne_true, hh, if_neg (by simp), if_neg (by omega), if_pos ⟨hf, ho⟩], by decide⟩

theorem exec_reg_refused {code : Nat} {i : Instr} (hk : k.wellFormed = true) (ht : InTurn s k) (hr : s.reached k = some q)
    (h : (s.site q).regRefused k = some code) (hc : code < 256) (hi : i = .regWrite k ∨ i = .regRead k) :
    ∃ a, Answers k a 0x05 ∧ a.nack.toNat = code ∧
      exec i s = .next { (s.take k).setCroft q (s.croft q) with outq := s.outq ++ [a] } := by
  have hw : (s.site q).regWritePacket k = (s.site q).refuse k code := by unfold Site.regWritePacket; rw [h]
  have hrd : (s.site q).regReadPacket k = (s.site q).refuse k code := by unfold Site.regReadPacket; rw [h]
  refine ⟨{ (s.site q).answer k 0x05 1 with nack := BitVec.ofNat 8 code },
    ⟨rfl, by simp [Site.answer, Site.packet], rfl, rfl, rfl⟩, ?_, ?_⟩
  · rw [BitVec.toNat_ofNat]
    exact Nat.mod_eq_of_lt hc
  · obtain rfl | rfl := hi
    · exact exec_regWrite_of_served hk ht hr (serve_left hr (hw.trans rfl)) rfl
    · exact exec_regRead_of_served hk ht hr (serve_left hr (hrd.trans rfl)) rfl

end

/-! ### Registers by address (R9, R13) -/

theorem Place.ofAddr_fltClass (st c : Nat) (hc : c < 128) : Place.ofAddr st (0x19000100 + 4 * c) = .module (Reg.fltClass c) :=
    by
  have h1 : 0x600000 + min (0x19000100 + 4 * c - 0x19000000) 0xFFFFF = Reg.fltClass c := by unfold Reg.fltClass; omega
  unfold Place.ofAddr Place.single
  rw [if_neg (by omega), if_neg (by omega), if_neg (by omega), if_neg (by omega), if_neg (by omega), if_neg (by omega),
    if_neg (by omega), if_neg (by omega), if_neg (by omega), if_neg (by omega), if_neg (by omega), if_neg (by omega),
    if_neg (by omega), if_pos (by omega), h1]

section
variable {s : State} {a : BitVec 48} {bytes : Nat} {v : W64}

/-- What an access of a register's width writes at a place outside the crofts. -/
theorem State.registerWrite_of {x : Place} {n : Nat} (hx : Place.ofAddr (s.active.getD 0) n = x) (hc : ∀ m o, x ≠ .croft m o)
    (hup : s.up = true) (hv : State.coreVoid x n bytes = false) : s.registerWrite n bytes v = s.writePlace x bytes 15 v := by
  unfold State.registerWrite
  dsimp only
  rw [hx, hup, hv, if_neg (by simp)]
  cases x with
  | croft m o => exact absurd rfl (hc m o)
  | module _ | parish _ _ | broadcast _ | stc _ _ | gate _ _ | sram _ | nowhere => rfl

theorem State.registerWrite_down (hup : s.up = false) : s.registerWrite a.toNat bytes v = s := by
  unfold State.registerWrite
  dsimp only
  rw [hup]
  exact if_pos (by simp)

theorem State.registerWrite_nowhere (hx : Place.ofAddr (s.active.getD 0) a.toNat = .nowhere) :
    s.registerWrite a.toNat bytes v = s := by
  unfold State.registerWrite
  dsimp only
  rw [hx]
  exact ite_self _

theorem exec_registerWrite_same (hw : Sys2Proof.accessWidth bytes = true) (h : s.registerWrite a.toNat bytes v = s) :
    exec (.registerWrite a bytes v) s = .next s := by
  rw [State.exec_registerWrite a v hw, State.asOne_of_shadows] <;> simp only [h]

/-- A write at a croft's register (R9). -/
theorem State.registerWrite_croft {n q o : Nat} {d : RegDef} (hn : n < 26880) (hq : s.physOf n = some q)
    (hd : findReg croftMap o = some d) (ho : o < 0x5000) (h4 : o % (if d.wide = true then 8 else 4) = 0) (hup : s.up = true) :
    s.registerWrite (0x400000000 + 0x10000 * n + o) (if d.wide = true then 8 else 4) v =
      if !s.atCroft q then s
      else s.onCroft q fun x => if x.c.resetting || x.fenced && 0x1000 ≤ o then x else x.writeReg o
          (if d.wide = true then 8 else 4) v
    := by
  have hx := Place.ofAddr_croft (s.active.getD 0) hn (show o < 0x10000 by omega)
  have hp : State.placeWidth (.croft n o) = if d.wide = true then 8 else 4 := by
    unfold State.placeWidth
    simp only [hd]
  have hvoid : State.coreVoid (.croft n o) (0x400000000 + 0x10000 * n + o) (if d.wide = true then 8 else 4) = false := by
    have hm : (0x400000000 + 0x10000 * n + o) % (if d.wide = true then 8 else 4) = 0 := by split at h4 <;> simp [*] <;> omega
    unfold State.coreVoid
    rw [hp, hm]
    simpa using ho
  unfold State.registerWrite
  dsimp only
  rw [hx, hup, hvoid, if_neg (by simp)]
  unfold State.writeCroft
  dsimp only
  rw [hq]

theorem exec_registerWrite_away {n q o : Nat} {d : RegDef} (hn : n < 26880) (hq : s.physOf n = some q)
    (hd : findReg croftMap o = some d) (ho : o < 0x5000) (h4 : o % (if d.wide = true then 8 else 4) = 0) (hup : s.up = true)
    (ha : a.toNat = 0x400000000 + 0x10000 * n + o) (hat : s.atCroft q = false) :
    exec (.registerWrite a (if d.wide = true then 8 else 4) v) s = .next s := by
  refine exec_registerWrite_same (by split <;> rfl) ?_
  rw [ha, State.registerWrite_croft hn hq hd ho h4 hup, hat]
  rfl

theorem exec_registerWrite_plain {n q o : Nat} {d : RegDef} (hn : n < 26880) (hq : s.physOf n = some q)
    (hd : findReg croftMap o = some d) (ho : o < 0x5000) (h4 : o % (if d.wide = true then 8 else 4) = 0) (hup : s.up = true)
    (ha : a.toNat = 0x400000000 + 0x10000 * n + o) (hat : s.atCroft q = true) (hp : Plain (s.croft q) o)
    (hr : (s.croft q).resetting = false) (hf : (s.site q).fenced = true → o < 0x1000) :
    exec (.registerWrite a (if d.wide = true then 8 else 4) v) s =
      .next (s.setCroft q (withReg (s.croft q) o (d.write (regOf (s.croft q) o) v))) := by
  have hg : ¬ ((s.site q).c.resetting || (s.site q).fenced && decide (0x1000 ≤ o)) = true := by
    have hr' : (s.site q).c.resetting = false := hr
    rw [hr']
    simp only [Bool.false_or, Bool.and_eq_true, decide_eq_true_eq, not_and]
    intro h
    have := hf h
    omega
  have he : s.registerWrite a.toNat (if d.wide = true then 8 else 4) v =
      s.setCroft q (withReg (s.croft q) o (d.write (regOf (s.croft q) o) v)) := by
    rw [ha, State.registerWrite_croft hn hq hd ho h4 hup, hat, if_neg (by simp),
      onCroft_sent (c := withReg (s.croft q) o (d.write (regOf (s.croft q) o) v)) (o := [])]
    · simp [State.setCroft]
    · rw [if_neg hg, Site.writeReg_plain v hd hp]
      rfl
  rw [State.exec_registerWrite a v (by split <;> rfl), State.asOne_of_shadows] <;> simp only [he]
  rfl

/-! ### The fault classes (R390) -/

/-- What the module's write of a fault class rests on: its row of the map, and no command of another block. -/
def ClassRow (c : Nat) : Prop :=
  (∃ d, findReg moduleMap (Reg.fltClass c) = some d ∧ d.rw = 0xE3FFFFFF ∧ d.w1c = 0) ∧
    ((List.range 2).find? fun i => Reg.stwId i ≤ Reg.fltClass c && Reg.fltClass c < Reg.stwId i + 0x100000) = none ∧
    rowOf (Reg.fltClass c) (Reg.hldCtrl 0) 0x10 16 = none ∧ rowOf (Reg.fltClass c) (Reg.hldRect 0) 0x10 16 = none ∧
    rowOf (Reg.fltClass c) (Reg.altRes 0) 0x20 16 = none ∧ rowOf (Reg.fltClass c) (Reg.altPower 0) 0x20 16 = none ∧
    rowOf (Reg.fltClass c) (Reg.fltClass 0) 4 128 = some c ∧ State.sowHeld (Reg.fltClass c) = false

theorem findReg_fltClass {c : Nat} (hc : c < 128) :
    ∃ d, findReg moduleMap (Reg.fltClass c) = some d ∧ d.rw = 0xE3FFFFFF ∧ d.w1c = 0 := by
  have h : ∀ i : Fin 128, ((findReg moduleMap (Reg.fltClass i)).map fun d => (d.rw, d.w1c)) = some (0xE3FFFFFF, 0) := by
    decide +kernel
  have hi := h ⟨c, hc⟩
  cases hd : findReg moduleMap (Reg.fltClass c) with
  | none => rw [hd] at hi; cases hi
  | some d =>
    rw [hd] at hi
    have he := Option.some.inj hi
    exact ⟨d, rfl, congrArg Prod.fst he, congrArg Prod.snd he⟩

theorem classRow {c : Nat} (hc : c < 128) : ClassRow c := by
  refine ⟨findReg_fltClass hc, ?_, if_neg ?_, if_neg ?_, if_neg ?_, if_neg ?_, ?_, ?_⟩
  · simp [List.range_succ, Reg.stwId, Reg.fltClass]
    omega
  · unfold Reg.fltClass Reg.hldCtrl; omega
  · unfold Reg.fltClass Reg.hldRect; omega
  · unfold Reg.fltClass Reg.altRes; omega
  · unfold Reg.fltClass Reg.altPower; omega
  · unfold rowOf Reg.fltClass
    rw [if_pos (by omega)]
    exact congrArg some (by omega)
  · simp [State.sowHeld, Reg.fltClass, Reg.secSowRound, Reg.secSowRange, Reg.secSowDest, Reg.secSowSrc]
    omega

/-- A fault class takes its bits where its source is named, and none otherwise (R390). -/
theorem State.writeModule_fltClass (s : State) {c : Nat} (hc : c < 128) (v : W64) :
    s.writeModule (Reg.fltClass c) 4 v =
      if sourceNamed c = true then s.setFlt (Reg.fltClass c) ((s.classOf c &&& ~~~ 0xE3FFFFFF) ||| (v &&& 0xE3FFFFFF)) else s :=
          by
  obtain ⟨⟨d, hd, hrw, hw1⟩, hstw, h1, h2, h3, h4, hrow, hsow⟩ := classRow hc
  have hw : d.write (s.reg (Reg.fltClass c)) v = ((s.classOf c &&& ~~~ 0xE3FFFFFF) ||| (v &&& 0xE3FFFFFF)) := by
    unfold RegDef.write
    rw [hrw, hw1]
    simp [State.classOf]
  have hne {o : Nat} (ho : o < 0x600100 ∨ 0x600300 ≤ o) : Reg.fltClass c ≠ o := by unfold Reg.fltClass; omega
  unfold State.writeModule State.writeHld
  rw [hd]
  dsimp only
  rw [if_neg (by simp), hstw, h1, h2, h3, h4]
  dsimp only
  rw [if_neg (hne (by decide)), if_neg (hne (by decide)), hsow, if_neg (by simp; exact fun h => absurd h (hne (by decide))),
    if_neg (hne (by decide)), if_neg (hne (by decide)), if_neg (hne (by decide)), if_neg (hne (by decide)), hrow]
  dsimp only
  rw [hw]

theorem State.asOne_setFlt (s : State) (f : State → State) (o : Nat) (x : W64) (hf : f s = s.setFlt o x) : s.asOne f = s.setFlt
    o x := by
  cases hs : s.standby with
  | none => rw [State.asOne_of_alone f hs, hf]
  | some i =>
    have hs' : (s.setReg o x).standby = some i := hs
    refine (State.asOne_one (x := { num := s.shadowNum, changes := [.flt o x] }) ?_).trans hf
    rw [hf]
    unfold State.setFlt
    rw [State.shadow_sent _ _ hs']
    rfl

theorem State.registerWrite_fltClass {c : Nat} (hc : c < 128) (ha : a.toNat = 0x19000100 + 4 * c) (hup : s.up = true) :
    s.registerWrite a.toNat 4 v = s.writeModule (Reg.fltClass c) 4 v := by
  rw [ha, State.registerWrite_of (Place.ofAddr_fltClass _ c hc) (fun _ _ => by simp) hup]
  · rfl
  · simp [State.coreVoid, State.placeWidth]

theorem exec_registerWrite_class {c : Nat} (hc : c < 128) (ha : a.toNat = 0x19000100 + 4 * c) (hup : s.up = true)
    (hn : sourceNamed c = true) : exec (.registerWrite a 4 v) s =
      .next (s.setFlt (Reg.fltClass c) ((s.classOf c &&& ~~~ 0xE3FFFFFF) ||| (v &&& 0xE3FFFFFF))) := by
  rw [State.exec_registerWrite a v rfl]
  refine congrArg Host.Outcome.next (State.asOne_setFlt s _ _ _ ?_)
  rw [State.registerWrite_fltClass hc ha hup, State.writeModule_fltClass s hc, if_pos hn]

theorem exec_registerWrite_unnamed {c : Nat} (hc : c < 128) (ha : a.toNat = 0x19000100 + 4 * c) (hn : sourceNamed c = false) :
    exec (.registerWrite a 4 v) s = .next s := by
  refine exec_registerWrite_same rfl ?_
  cases hup : s.up with
  | false => exact State.registerWrite_down hup
  | true =>
    rw [State.registerWrite_fltClass hc ha hup, State.writeModule_fltClass s hc, hn]
    rfl

/-! ### The step controllers' registers (R273) -/

theorem State.registerWrite_stc {h o : Nat} (hh : h < 16) (ho : o < 0x1000) (h4 : o % 4 = 0)
    (ha : a.toNat = 0x13000000 + 0x1000 * h + o) (hup : s.up = true) :
    s.registerWrite a.toNat 4 v = s.writeStc h o 4 v := by
  rw [ha, State.registerWrite_of (Place.ofAddr_stc _ hh ho) (fun _ _ => by simp) hup]
  · rfl
  · simp [State.coreVoid, State.placeWidth]
    omega

theorem State.writeStc_none (s : State) (h o n : Nat) (x : W64) (src : Option Nat) (ha : s.active = none) : s.writeStc h o n x
    src = s := by
  unfold State.writeStc
  split
  · rfl
  · rw [ha]
    exact if_pos (by simp)

theorem exec_registerWrite_residLimit {h : Nat} (hh : h < 16) (ha : a.toNat = 0x13000000 + 0x1000 * h + Reg.stcResidLimit)
    (hup : s.up = true) (hact : s.active.isSome = true) : exec (.registerWrite a 4 v) s =
      .next (s.setStc h ((s.stc h).setReg Reg.stcResidLimit
        (((s.stc h).reg Reg.stcResidLimit &&& ~~~ 0xFFFFFFFF) ||| (v &&& 0xFFFFFFFF)))) := by
  rw [State.exec_registerWrite a v rfl]
  refine congrArg Host.Outcome.next (State.asOne_setStc s _ _ _ ?_)
  rw [State.registerWrite_stc hh (by decide) (by decide) ha hup, State.writeStc_residLimit s h v none hact]

theorem exec_registerWrite_residLimit_none {h : Nat} (hh : h < 16) (ha : a.toNat = 0x13000000 + 0x1000 * h + Reg.stcResidLimit)
    (hact : s.active = none) : exec (.registerWrite a 4 v) s = .next s := by
  refine exec_registerWrite_same rfl ?_
  cases hup : s.up with
  | false => exact State.registerWrite_down hup
  | true => rw [State.registerWrite_stc hh (by decide) (by decide) ha hup, State.writeStc_none s h _ 4 v none hact]

end

/-! ### The rule -/

/-- Settles O44: a croft that a register packet reaches stores or answers the register's bits, or refuses the packet with
nothing changed; and a write by address comes to the register's own write where the module is up. -/
theorem registersTakeTheirBits : Obligations.RegistersTakeTheirBits := by
  unfold Obligations.RegistersTakeTheirBits
  refine ⟨fun q s k hk ht hr => ⟨fun o d h => ⟨exec_regWrite_plain hk ht hr h, exec_regRead_own hk ht hr h, ?_, ?_⟩, ?_⟩,
    fun s v => ⟨?_, ?_, ?_, ?_, ?_, ?_⟩⟩
  · rintro rfl
    exact exec_regRead_unstalled hk ht hr h
  · rintro rfl
    exact exec_regRead_stalled hk ht hr h
  · intro code hcode i hi
    obtain ⟨hc, hl⟩ := regRefused_code hcode
    exact exec_reg_refused hk ht hr hc hl hi
  · exact fun a bytes hw hup => exec_registerWrite_same hw (State.registerWrite_down hup)
  · exact fun n q o d a hq hd ho h4 hup ha => ⟨exec_registerWrite_away n.isLt hq hd ho h4 hup ha,
      exec_registerWrite_plain n.isLt hq hd ho h4 hup ha⟩
  · exact fun c a hup ha => exec_registerWrite_class c.isLt ha hup
  · exact fun c a ha => exec_registerWrite_unnamed c.isLt ha
  · exact fun h a ha => ⟨exec_registerWrite_residLimit h.isLt ha, exec_registerWrite_residLimit_none h.isLt ha⟩
  · exact fun a bytes hw hx => exec_registerWrite_same hw (State.registerWrite_nowhere hx)

end Sys2Proof.Machine

namespace Sys2Proof.Machine
open Sys2Proof.Safety

/-! Drains (R143, R150 to R154). -/

/-! ### Writes where every codeword is clean -/

/-- Only memory has changed, and every codeword is still clean. -/
def CleanlyWritten (x y : Site) (a : Nat) (bs : List Byte) : Prop :=
  y = { x with c := { x.c with mem := Memory.write x.c.mem a bs, ecc := y.c.ecc } } ∧ ∀ cw, eccAt y.c cw = .clean

section
variable {x : Site} (h : ∀ cw, eccAt x.c cw = .clean)
include h

theorem Site.store_clean (a : Nat) (bs : List Byte) : CleanlyWritten x (x.store a bs) a bs := by
  refine ⟨rfl, fun cw => ?_⟩
  refine (get_clear _ _ _ _ _).trans ?_
  split
  · rfl
  · exact h cw

theorem Site.merge_clean (cw : Nat) (opc : W16) (cls : Option Bool) :
    ∃ e, x.merge cw opc cls = { x with c := { x.c with ecc := e } } ∧
      ∀ i, eccAt ({ x.c with ecc := e } : Croft) i = .clean := by
  refine ⟨Tab.set (fun _ => Ecc.clean) x.c.ecc cw .clean, ?_, ?_⟩
  · unfold Site.merge
    rw [check_clean x (h cw)]
    rfl
  · intro i
    have hs := Tab.get_set (fun _ => Ecc.clean) x.c.ecc cw i .clean
    refine hs.trans ?_
    split
    · rfl
    · exact h i

theorem Site.storeBytes_clean (a : Nat) (bs : List Byte) (opc : W16) (cls : Option Bool) :
    CleanlyWritten x (x.storeBytes a bs opc cls) a bs := by
  have hmerge (x : Site) (h : ∀ cw, eccAt x.c cw = .clean) (p : Prop) [Decidable p] (cw : Nat) :
      ∃ e, (if p then x.merge cw opc cls else x) = { x with c := { x.c with ecc := e } } ∧
        ∀ i, eccAt ({ x.c with ecc := e } : Croft) i = .clean := by
    split
    · exact Site.merge_clean h cw opc cls
    · exact ⟨x.c.ecc, rfl, h⟩
  obtain ⟨e, he, hce⟩ := hmerge x h (a % 32 ≠ 0 ∨ bs.length < 32) (a / 32)
  obtain ⟨e', he', hce'⟩ := hmerge { x with c := { x.c with ecc := e } } hce
    ((a + bs.length) % 32 ≠ 0 ∧ (a + bs.length) / 32 ≠ a / 32) ((a + bs.length) / 32)
  have hs := Site.store_clean (x := { x with c := { x.c with ecc := e' } }) hce' a bs
  unfold Site.storeBytes
  dsimp only
  rw [he, he']
  exact hs

/-- A unit's write in the scratchpad where every codeword is clean. -/
theorem Site.writeBytes_clean {a : Nat} {bs : List Byte} (hn : a + bs.length ≤ 0x200000) (opc : W16) (cls : Option Bool) :
    CleanlyWritten x (x.writeBytes a bs opc cls) a bs := by
  cases bs with
  | nil =>
    have he : x.writeBytes a [] opc cls = x := by
      unfold Site.writeBytes Site.putBytes
      simp [Site.within]
    rw [he]
    exact ⟨rfl, h⟩
  | cons b bs =>
    have hr : Site.region a = .scratch := if_pos (by simp at hn; omega)
    have hw : Site.within a (b :: bs).length = (b :: bs).length := by
      unfold Site.within Site.regionEnd
      rw [hr]
      dsimp only
      exact Nat.min_eq_left (by omega)
    have he : x.writeBytes a (b :: bs) opc cls = x.storeBytes a (b :: bs) opc cls := by
      unfold Site.writeBytes Site.putBytes
      dsimp only
      rw [hw, if_neg (Nat.lt_irrefl _), List.take_length, if_neg (by simp), if_neg (by rw [hr]; decide)]
    rw [he]
    exact Site.storeBytes_clean h a _ opc cls

end

/-! ### The start and the end of a word -/

theorem Site.drainFinish_idle {x : Site} (h : x.c.draining = none) : x.drainFinish = x := by
  unfold Site.drainFinish
  rw [h]

theorem Site.drainFinish_done {x : Site} {r : DrainRun} (h : x.c.draining = some r) (hr : Site.drainRows r.q ≤ r.row) :
    x.drainFinish = { x with c := { (if (f32 ((x.reg (Reg.arrAmax (wfield r.q.word 39 36))).setWidth 32)).lt (f32 r.amax) then
      withReg x.c (Reg.arrAmax (wfield r.q.word 39 36)) (r.amax.setWidth 64) else x.c) with draining := none } } := by
  unfold Site.drainFinish Site.foldAmax
  rw [h]
  dsimp only
  rw [if_neg (by omega)]
  split <;> rfl

section
variable {x : Site} {w : QWord} {rest : List QWord} (hq : x.c.drainQ = w :: rest) (hd : x.c.draining = none)
include hq hd

theorem Site.drainStart_held (hh : x.held w.num [Site.drainSpan w] = true) : x.drainStart = x.stalls := by
  unfold Site.drainStart
  rw [hq]
  dsimp only
  rw [Site.drainFinish_idle hd, hd, if_neg (by decide), if_pos hh]

/-- The decision on a word that starts now (log 154). -/
theorem Site.drainStart_free (hh : x.held w.num [Site.drainSpan w] = false) :
    x.drainStart = if 512 < Site.drainAcc w + Site.drainRows w then
        ({ x with c := { x.c with drainQ := rest } } : Site).arrFaulted 21 w
      else if x.drainIllegal w then ({ x with c := { x.c with drainQ := rest } } : Site).arrFaulted 19 w
      else { x with c := { x.c with drainQ := rest, draining := some { q := w, dest := Site.drainDest w } } } := by
  unfold Site.drainStart
  rw [hq]
  dsimp only
  rw [Site.drainFinish_idle hd, hd, if_neg (by decide), if_neg (by rw [hh]; decide)]
  rfl

end

/-! ### A row -/

/-- The reach of a row's work in a word without PARAM. -/
theorem Site.drainReach_bare {w : QWord} (i d : Nat) (h2 : wfield w.word 102 101 ≠ 2) (hb : wfield w.word 100 100 = 0) :
    (Site.drainReach w i d).take 1 ++ (if i = 0 then ((Site.drainReach w 0 0).drop 1).take 1 else []) ++
        [⟨d, d + 2 * fullTile (Site.drainFmt w), true⟩] =
      [⟨Site.accRow (Site.drainAcc w + i), Site.accRow (Site.drainAcc w + Site.drainRows w), wfield w.word 98 98 = 1⟩] ++
        (if i = 0 then [⟨Site.drainParam w, Site.drainParam w, false⟩] else []) ++
        [⟨d, d + 2 * fullTile (Site.drainFmt w), true⟩] := by
  have hp : Site.paramBytes w = 0 := by
    unfold Site.paramBytes
    rw [if_neg h2, hb]
  unfold Site.drainReach
  rw [hp]
  simp

/-- A word without PARAM reads no columns. -/
theorem Site.paramColumns_bare {x : Site} {w : QWord} (he : ∀ cw, eccAt x.c cw = .clean) (h2 : wfield w.word 102 101 ≠ 2)
    (hb : wfield w.word 100 100 = 0) : x.paramColumns w = (x, [], [], false) := by
  have hp : Site.paramBytes w = 0 := by
    unfold Site.paramBytes
    rw [if_neg h2, hb]
  have ha : Site.drainParam w + 0 ≤ 0x200000 := by
    have := wfield_lt w.word 63 48
    unfold Site.drainParam
    omega
  unfold Site.paramColumns
  dsimp only
  rw [hp, readBytes_clean x he ha, if_neg h2, if_neg (by rw [hb]; decide)]

/-- The elements of a row after the fused stage and the activation, in a word without PARAM. -/
def drainedRow (x : Site) (w : QWord) (row : Nat) : List W32 :=
  (x.accValues row).map fun a => x.activate (wfield w.word 111 109)
    (Site.fusedStage a (if wfield w.word 102 101 = 1 then f32 ((x.reg Reg.arrDrainScale).setWidth 32) else FV.one) .zero)

/-- The memory after a row is read. -/
def drainedMem (x : Site) (w : QWord) (row : Nat) : List (Nat × Byte) :=
  if wfield w.word 98 98 = 1 then Memory.write x.c.mem (Site.accRow row) (List.replicate 256 0) else x.c.mem

/-- A row read and cleared where CLEAR is set, its events counted: beside memory and counters only the run has changed. -/
def RowRead (x y : Site) (r : DrainRun) : Prop :=
  (∃ regs counts ecc r', y = { x with
    c := { x.c with mem := drainedMem x r.q (Site.drainAcc r.q + r.row), ecc, regs, counts, draining := some r' } } ∧
      r'.q = r.q ∧ r'.row = r.row + 1 ∧ r'.dest = r.dest ∧ r'.rows = r.rows ++ [drainedRow x r.q (Site.drainAcc r.q + r.row)]) ∧
    y.reg Reg.crfStep = x.reg Reg.crfStep ∧ ∀ cw, eccAt y.c cw = .clean

theorem mapIdx_const {α β : Type} (f : α → β) (l : List α) : l.mapIdx (fun _ a => f a) = l.map f := by
  induction l with
  | nil => rfl
  | cons a l ih => rw [List.mapIdx_cons, ih, List.map_cons]

theorem storeRow_zeros (x : Site) (row : Nat) :
    x.storeRow row (List.replicate 64 0) = x.store (Site.accRow row) (List.replicate 256 0) := by
  have h (n : Nat) : (List.replicate n (0 : W32)).flatMap (fun w => leBytes 4 w.toNat) = List.replicate (4 * n) 0 := by
    induction n with
    | zero => rfl
    | succ n ih =>
      rw [List.replicate_succ, List.flatMap_cons, ih]
      rfl
  unfold Site.storeRow
  rw [h]

theorem Site.reg_arrEvents_step (x : Site) (ev : Events) : (x.arrEvents ev).reg Reg.crfStep = x.reg Reg.crfStep := by
  have h (x : Site) (o n : Nat) (ho : Reg.crfStep ≠ o) : (x.count o n).reg Reg.crfStep = x.reg Reg.crfStep := by
    unfold Site.reg Site.count Site.setReg
    exact (Tab.get_set _ _ _ _ _).trans (if_neg ho)
  have h' (x : Site) : (x.stepEvents ev).reg Reg.crfStep = x.reg Reg.crfStep := rfl
  unfold Site.arrEvents
  rw [h', h _ _ _ (by decide), h _ _ _ (by decide)]

section row
variable {x : Site} {r : DrainRun}

/-- The clearing of a row. -/
theorem Site.cleared_row (he : ∀ cw, eccAt x.c cw = .clean) (ht : Site.twoPass r.q = false) (row : Nat) :
    ∃ ecc, (if wfield r.q.word 98 98 = 1 ∧ (!Site.twoPass r.q) = true then x.storeRow row (List.replicate 64 0) else x) =
        { x with c := { x.c with mem := drainedMem x r.q row, ecc } } ∧
      ∀ cw, eccAt ({ x.c with ecc } : Croft) cw = .clean := by
  unfold drainedMem
  by_cases hc : wfield r.q.word 98 98 = 1
  · rw [if_pos ⟨hc, by rw [ht]; rfl⟩, if_pos hc, storeRow_zeros]
    have hs := Site.store_clean he (Site.accRow row) (List.replicate 256 0)
    generalize x.store (Site.accRow row) (List.replicate 256 0) = y at hs
    exact ⟨_, hs.1, hs.2⟩
  · rw [if_neg fun h => hc h.1, if_neg hc]
    exact ⟨_, rfl, he⟩

/-- A row's events counted and its elements kept after it is cleared. -/
theorem RowRead.ofCleared {ecc : Tab Ecc} (hce : ∀ cw, eccAt ({ x.c with ecc } : Croft) cw = .clean) (z : Site) (ev : Events)
    (r1 : DrainRun) (us : List W32) (r' : DrainRun)
    (hz : z = { x with c := { x.c with mem := drainedMem x r.q (Site.drainAcc r.q + r.row), ecc } })
    (hr1 : r1 = { r with scales := r1.scales, biases := r1.biases })
    (hr' : r' = { (z.drainEvents r1 ev).2 with row := r.row + 1, rows := r.rows ++ [us] })
    (hus : us = drainedRow x r.q (Site.drainAcc r.q + r.row)) :
    RowRead x { (z.drainEvents r1 ev).1 with c := { (z.drainEvents r1 ev).1.c with draining := some r' } } r := by
  subst hz hr' hus
  rw [hr1]
  exact ⟨⟨_, _, ecc, _, rfl, rfl, rfl, rfl, rfl⟩, Site.reg_arrEvents_step _ ev, hce⟩

theorem Site.drainRow_read (hd : x.c.draining = some r) (hr : r.row < Site.drainRows r.q) (h2 : wfield r.q.word 102 101 ≠ 2)
    (hb : wfield r.q.word 100 100 = 0) (ht : Site.twoPass r.q = false) (he : ∀ cw, eccAt x.c cw = .clean)
    (hh : x.held r.q.num
      ([⟨Site.accRow (Site.drainAcc r.q + r.row), Site.accRow (Site.drainAcc r.q + Site.drainRows r.q), wfield r.q.word 98 98 =
          1⟩] ++
        (if r.row = 0 then [⟨Site.drainParam r.q, Site.drainParam r.q, false⟩] else []) ++
        [⟨r.dest, r.dest + 2 * fullTile (Site.drainFmt r.q), true⟩]) = false) :
    ∃ y r', RowRead x y r ∧ y.c.draining = some r' ∧
      x.drainRow = if (r.row + 1) % 64 = 0 ∨ r.row + 1 = Site.drainRows r.q then y.drainTile r' else y := by
  have hs : ∃ as bs, (if r.row = 0 then x.paramColumns r.q else (x, r.scales, r.biases, false)) = (x, as, bs, false) := by
    split
    · exact ⟨[], [], Site.paramColumns_bare he h2 hb⟩
    · exact ⟨_, _, rfl⟩
  obtain ⟨as, bs, hs⟩ := hs
  obtain ⟨ecc, hcl, hce⟩ := Site.cleared_row he ht (Site.drainAcc r.q + r.row)
  unfold Site.drainRow
  rw [hd]
  dsimp only
  rw [if_neg (by omega), Site.drainReach_bare _ _ h2 hb, hh, if_neg (by decide), hs]
  dsimp only
  rw [if_neg (by decide), Site.checkAcc_clean x he]
  dsimp only
  have hb' : ¬ wfield r.q.word 100 100 = 1 := by rw [hb]; decide
  simp only [if_neg h2, if_neg hb', mapIdx_const, hcl]
  rw [if_neg (by decide)]
  exact ⟨_, _, RowRead.ofCleared hce _ _ _ _ _ rfl rfl rfl rfl, rfl, rfl⟩

end row

/-- A row's line under the site as the row has left it. -/
theorem drainLine_read {x y : Site} {r : DrainRun} (h : RowRead x y r) (w : QWord) (T : W32) (i : Nat) (u : List W32) :
    y.drainLine w T i u = x.drainLine w T i u := by
  obtain ⟨⟨regs, counts, ecc, r', hy, -⟩, hstep, -⟩ := h
  have hn : y.num Reg.crfStep = x.num Reg.crfStep := congrArg BitVec.toNat hstep
  have hs : y.seed = x.seed := by rw [hy]
  have hi : y.n = x.n := by rw [hy]
  unfold Site.drainLine
  rw [hn, hs, hi]

/-- The bytes of a group's tile with the row that ends it. -/
def drainBytes (x : Site) (r : DrainRun) : List Byte :=
  tileBytes (Site.drainFmt r.q) 0x3F800000 ((r.rows ++ [drainedRow x r.q (Site.drainAcc r.q + r.row)]).mapIdx
    fun i u => x.drainLine r.q 0x3F800000 (r.row - r.rows.length + i) u)

/-- The tile of a complete group (R150). -/
theorem Site.drainTile_written {x y : Site} {r r' : DrainRun} (h : RowRead x y r) (hr' : y.c.draining = some r')
    (ht : Site.twoPass r.q = false) (hf : Site.drainFmt r.q ≠ 1)
    (hl : r.dest + (drainBytes x r).length ≤ 0x200000) :
    ∃ z, CleanlyWritten y z r.dest (drainBytes x r) ∧ y.drainTile r' =
      { z with c := { z.c with draining := some { r' with rows := [], dest := r.dest + (drainBytes x r).length } } } := by
  have hline := drainLine_read h
  obtain ⟨⟨regs, counts, ecc, r2, hy, hq, hrow, hdest, hrows⟩, -, hce⟩ := h
  obtain rfl : r2 = r' := by
    rw [hy] at hr'
    exact Option.some.inj hr'
  have hi : r2.row - r2.rows.length = r.row - r.rows.length := by
    rw [hrow, hrows, List.length_append]
    simp
  have hscale : y.drainScale r.q = 0x3F800000 := if_neg hf
  refine ⟨_, Site.writeBytes_clean hce hl (wordOpcode r.q.word) none, ?_⟩
  unfold Site.drainTile
  dsimp only
  rw [hq, ht, hi, hrows, hdest]
  simp only [Bool.false_eq_true, if_false, hscale, hline]
  rw [← drainBytes, hq]


/-! ### The rule -/

section spec
variable {s : State} {q : Phys}

theorem drainRow_spec {r : DrainRun} (hd : (s.croft q).draining = some r) (hr : r.row < Site.drainRows r.q)
    (h2 : wfield r.q.word 102 101 ≠ 2) (hb : wfield r.q.word 100 100 = 0) (ht : Site.twoPass r.q = false)
    (he : ∀ cw, eccAt (s.croft q) cw = .clean)
    (hh : (s.site q).held r.q.num
      ([⟨Site.accRow (Site.drainAcc r.q + r.row), Site.accRow (Site.drainAcc r.q + Site.drainRows r.q), wfield r.q.word 98 98 =
          1⟩] ++
        (if r.row = 0 then [⟨Site.drainParam r.q, Site.drainParam r.q, false⟩] else []) ++
        [⟨r.dest, r.dest + 2 * fullTile (Site.drainFmt r.q), true⟩]) = false) :
    let us := drainedRow (s.site q) r.q (Site.drainAcc r.q + r.row)
    let m := drainedMem (s.site q) r.q (Site.drainAcc r.q + r.row)
    ((r.row + 1) % 64 ≠ 0 → r.row + 1 ≠ Site.drainRows r.q → ∃ u, exec (.drainRow q) s = .next u ∧ OnlyCroft q s u ∧
      (u.croft q).mem = m ∧ (u.croft q).seq = (s.croft q).seq ∧
      ∃ r', (u.croft q).draining = some r' ∧ r'.q = r.q ∧ r'.row = r.row + 1 ∧ r'.dest = r.dest ∧ r'.rows = r.rows ++ [us]) ∧
    (((r.row + 1) % 64 = 0 ∨ r.row + 1 = Site.drainRows r.q) → Site.drainFmt r.q ≠ 1 →
      let ls := (r.rows ++ [us]).mapIdx fun i u => (s.site q).drainLine r.q 0x3F800000 (r.row - r.rows.length + i) u
      r.dest + (tileBytes (Site.drainFmt r.q) 0x3F800000 ls).length ≤ 0x200000 →
      ∃ u, exec (.drainRow q) s = .next u ∧ OnlyCroft q s u ∧
        (u.croft q).mem = Memory.write m r.dest (tileBytes (Site.drainFmt r.q) 0x3F800000 ls) ∧ (u.croft q).seq =
            (s.croft q).seq ∧
        ∃ r', (u.croft q).draining = some r' ∧ r'.row = r.row + 1 ∧ r'.rows = [] ∧
          r'.dest = r.dest + (tileBytes (Site.drainFmt r.q) 0x3F800000 ls).length) := by
  obtain ⟨y, r', hread, hr', hx⟩ := Site.drainRow_read (x := s.site q) hd hr h2 hb ht he hh
  refine ⟨fun h64 hlast => ?_, fun hend hf => ?_⟩
  · rw [if_neg (by omega)] at hx
    obtain ⟨ho, hc⟩ := OnlyCroft.ofSite (s := s) (q := q) (f := Site.drainRow) hx
    obtain ⟨⟨regs, counts, ecc, r2, hy, hq, hrow, hdest, hrows⟩, -, -⟩ := hread
    refine ⟨_, rfl, ho, ?_⟩
    rw [hc, hy]
    exact ⟨rfl, rfl, r2, rfl, hq, hrow, hdest, hrows⟩
  · intro ls hl
    obtain ⟨z, ⟨hz, -⟩, htile⟩ := Site.drainTile_written hread hr' ht hf hl
    rw [if_pos hend, htile] at hx
    obtain ⟨ho, hc⟩ := OnlyCroft.ofSite (s := s) (q := q) (f := Site.drainRow) hx
    obtain ⟨⟨regs, counts, ecc, r2, hy, -, hrow, -, -⟩, -, -⟩ := hread
    obtain rfl : r2 = r' := by
      rw [hy] at hr'
      exact Option.some.inj hr'
    refine ⟨_, rfl, ho, ?_⟩
    rw [hc, hz, hy]
    exact ⟨rfl, rfl, _, rfl, hrow, rfl, rfl⟩

end spec

/-- Settles O31: a word starts, waits or faults as its queue's head; a row is read cleanly, so that its events touch neither
memory nor sequencer; and a complete group is one write of its tile. -/
theorem drainsConvertRows : Obligations.DrainsConvertRows := by
  unfold Obligations.DrainsConvertRows
  intro q s c
  refine ⟨fun w rest hq hd hh => ?_, fun w rest hq hd hh => ⟨fun hr hi => ?_, fun hr => ?_, fun hr hi => ?_⟩,
    ?_, fun r hd hr => ?_⟩
  · exact State.onCroft_next (Site.drainStart_held (x := s.site q) hq hd hh)
  · refine State.onCroft_next ((Site.drainStart_free (x := s.site q) hq hd hh).trans ?_)
    rw [if_neg (by omega), if_neg (by rw [hi]; decide)]
    rfl
  · refine State.onCroft_reported ((Site.drainStart_free (x := s.site q) hq hd hh).trans ?_)
    rw [if_pos hr]
    rfl
  · refine State.onCroft_reported ((Site.drainStart_free (x := s.site q) hq hd hh).trans ?_)
    rw [if_neg (by omega), if_pos hi]
    rfl
  · intro r hd hr h2 hb ht he hh row sigma us m
    obtain ⟨hgo, hend⟩ := drainRow_spec hd hr h2 hb ht he hh
    exact ⟨hgo, fun h hf _ hl => hend h hf hl⟩
  · exact State.onCroft_next (Site.drainFinish_done (x := s.site q) hd hr)

end Sys2Proof.Machine

namespace Sys2Proof.Machine
open Sys2Proof.Safety

/-! Answers at their requesters, timeouts, retries and drains (R227, R240 to R243, R324). -/

/-! ### An answer's way to its requester -/

/-- An answer in its turn that its requester's site or gate takes without a record. -/
theorem exec_answer {s : State} {k : Packet} {e : Instr} (hk : k.wellFormed = true) (ht : InTurn s k)
    (he : k.op = 0x04 ∧ e = .writeAck k ∨ k.op = 0x14 ∧ e = .regData k ∨ k.op = 0x03 ∧ e = .readData k ∨
      k.op = 0x05 ∧ e = .nack k) : exec e s = .next (s.asOne fun s => s.answer k) := by
  obtain ⟨ho, rfl⟩ | ⟨ho, rfl⟩ | ⟨ho, rfl⟩ | ⟨ho, rfl⟩ := he
  all_goals
    refine (State.inTurn_eq _ hk ht).trans (congrArg Host.Outcome.next (State.asOne_congr ?_))
    exact if_pos ho

section carter
variable {s : State} {k : Packet} {q i : Nat} {e : Instr}

/-- An answer to a carter's request reaches its croft. -/
theorem exec_carAnswer (hk : k.wellFormed = true) (ht : InTurn s k) (hw : k.who = .carter q i)
    (he : k.op = 0x04 ∧ e = .writeAck k ∨ k.op = 0x14 ∧ e = .regData k ∨ k.op = 0x03 ∧ e = .readData k ∨
      k.op = 0x05 ∧ e = .nack k) : exec e s = .next ((s.take k).onCroft q fun x => x.carAnswer i k) := by
  have ha : s.answer k = (s.take k).onCroft q fun x => x.carAnswer i k := by
    unfold State.answer
    dsimp only
    rw [hw]
  rw [exec_answer hk ht he, State.asOne_of_shadows, ha]
  rw [ha, State.onCroft_eq']
  rfl

/-- A channel that waits at END for its last answer ends with it (R242). -/
def endsNow (u : Chan) : Chan :=
  if u.st = .run ∧ u.fetched = true ∧ carOpc u.instr = 0 ∧ u.outst = [] then { u with st := .done } else u

theorem Site.endWait_eq (x : Site) (i : Nat) : x.endWait i = x.setChan i (endsNow (x.chan i)) := by
  unfold Site.endWait Site.modChan endsNow
  simp only [List.isEmpty_iff]

theorem Site.setChan_twice (x : Site) (i : Nat) (u v : Chan) : (x.setChan i u).setChan i v = x.setChan i v := by
  unfold Site.setChan
  dsimp only
  rw [Tab.set_set]

theorem Site.endWait_setChan (x : Site) (i : Nat) (v : Chan) : (x.setChan i v).endWait i = x.setChan i (endsNow v) := by
  rw [Site.endWait_eq, Site.chan_setChan, if_pos rfl, Site.setChan_twice]

variable {r : Req} (hl : Live s q)
  (hr : (chanOf (s.croft q) i).outst.find? (fun r => r.pkt.tag == k.tag && !r.backoff) = some r)
include hl hr

/-- What an answer does to the request that waits for it. -/
theorem Site.carAnswer_waiting : (s.site q).carAnswer i k =
    if answerCode k ≠ 0 then (s.site q).failReq i r 1 (answerCode k) (Stc.retriable (answerCode k))
    else if k.op = 0x03 then ((s.site q).readArrives i r k).endWait i
    else (s.site q).setChan i (endsNow { chanOf (s.croft q) i with
      outst := (chanOf (s.croft q) i).outst.erase r, bytes := (chanOf (s.croft q) i).bytes + r.len }) := by
  have hw : (s.site q).waitingReq i k.tag = some r := hr
  have hl' : (s.site q).live = true := hl
  have hm : ((s.site q).modChan i fun c => { c with outst := c.outst.erase r, bytes := c.bytes + r.len }).endWait i =
      (s.site q).setChan i (endsNow { chanOf (s.croft q) i with
        outst := (chanOf (s.croft q) i).outst.erase r, bytes := (chanOf (s.croft q) i).bytes + r.len }) :=
    Site.endWait_setChan _ _ _
  unfold Site.carAnswer
  rw [hl', if_neg (by decide), hw]
  dsimp only
  rw [hm]

/-- A completion (R242). -/
theorem carAnswer_complete (hk : k.wellFormed = true) (ht : InTurn s k) (hw : k.who = .carter q i) (hp : k.poison = false)
    (he : k.op = 0x04 ∧ e = .writeAck k ∨ k.op = 0x14 ∧ e = .regData k) :
    ∃ t, exec e s = .next t ∧ t.outq = s.outq ∧ ChanTo q i (s.take k) t (endsNow { chanOf (s.croft q) i with
      outst := (chanOf (s.croft q) i).outst.erase r, bytes := (chanOf (s.croft q) i).bytes + r.len }) (s.croft q) := by
  have ho : k.op = 0x04 ∨ k.op = 0x14 := he.imp And.left And.left
  have h5 : k.op ≠ 0x05 := by rintro h; rw [h] at ho; revert ho; decide
  have h3 : k.op ≠ 0x03 := by rintro h; rw [h] at ho; revert ho; decide
  have hc : answerCode k = 0 := by unfold answerCode; rw [hp, if_neg (by decide), if_neg h5]
  rw [exec_carAnswer hk ht hw (he.imp id Or.inl)]
  refine chanTo_set (s := s.take k) (d := s.croft q) rfl ?_
  refine (Site.carAnswer_waiting hl hr).trans ?_
  rw [hc, if_neg (by decide), if_neg h3]
  rfl

end carter

/-! ### Failures (R240, R241) -/

section fail
variable {x : Site} {i : Nat} {r : Req} {cause code : Nat}

/-- In a drain a failed request is gone, in doubt where no answer came. -/
theorem Site.failReq_draining {permits : Bool} (h : (x.chan i).st = .draining) : x.failReq i r cause code permits =
    x.setChan i { x.chan i with outst := (x.chan i).outst.erase r, indoubt := (x.chan i).indoubt || cause == 2 } := by
  unfold Site.failReq
  exact if_pos h

/-- A failed request that may be tried again waits for its backoff. -/
theorem Site.failReq_again (h : (x.chan i).st ≠ .draining) (hl : r.retries < x.carRetryLimit) : x.failReq i r cause code true =
    x.setChan i { x.chan i with outst := (x.chan i).outst.erase r ++ [{ r with backoff := true }] } := by
  unfold Site.failReq
  dsimp only
  rw [if_neg h, if_neg]
  simpa using hl

/-- One that may not halts its channel. -/
theorem Site.failReq_last {permits : Bool} (h : (x.chan i).st = .run ∨ (x.chan i).st = .wait)
    (hl : permits = false ∨ x.carRetryLimit ≤ r.retries) :
    x.failReq i r cause code permits = (x.setChan i { x.chan i with outst := (x.chan i).outst.erase r }).haltChan i cause
      (x.opcAt i) (BitVec.ofNat 8 code) r.retries (Site.lostSteward r code) := by
  have hd : (x.chan i).st ≠ .draining := by
    rintro hd
    rw [hd] at h
    exact absurd h (by decide)
  unfold Site.failReq
  dsimp only
  rw [if_neg hd, if_pos]
  simpa using hl

/-- The fault bit and the event of a channel that halts for another cause than an illegal instruction. -/
theorem Site.haltChan_raises {opc : Nat} {b : Byte} {used : Nat} {lost : Option (Fin 2)}
    (h : (x.chan i).st = .run ∨ (x.chan i).st = .wait) (hc : cause ≠ 4) :
    ∃ e : Report, e.source = 40 ∧ e.loc = BitVec.ofNat 32 x.q ∧ x.haltChan i cause opc b used lost =
      { (x.setChan i ((x.chan i).stop cause b used false)).setReg Reg.carFault (x.reg Reg.carFault ||| BitVec.ofNat 64 (2 ^ 0))
          with
        raised := x.raised ++ [e] } := by
  unfold Site.haltChan
  dsimp only
  rw [if_pos h, if_neg hc]
  exact ⟨_, rfl, rfl, rfl⟩

end fail

section
variable {s : State} {q : Phys} {i : Nat} {f : Site → Site}

/-- A command of a croft that raises one event. -/
theorem onCroft_raises {c : Croft} {e : Report} (he : e.loc = BitVec.ofNat 32 q)
    (h : f (s.site q) = { s.site q with c := c, raised := [e] }) :
    (s.onCroft q f).croft q = c ∧
      let u := if (s.parish (q / 500)).net = true then raisedAt s (some (0x7200 + q / 500)) e else s
      (s.onCroft q f).reports = u.reports ∧ (s.onCroft q f).outq = u.outq := by
  refine ⟨by rw [State.croft_onCroft_same, h], ?_⟩
  have ho : s.onCroft q f = (s.setCroft q c).reportAll [e] := by
    unfold State.onCroft State.putSite
    rw [h]
    simp [State.setCroft]
  rw [ho, State.reportAll_croft _ q e he]
  have hn : (s.setCroft q c).parish (q / 500) = s.parish (q / 500) := rfl
  rw [hn]
  split <;> exact ⟨rfl, rfl⟩

/-- A request that fails for the last time: its channel drains with the cause, and its event is raised. -/
theorem failReq_halts {r : Req} {cause code : Nat} {permits : Bool}
    (hf : f (s.site q) = (s.site q).failReq i r cause code permits)
    (hst : (chanOf (s.croft q) i).st = .run ∨ (chanOf (s.croft q) i).st = .wait) (hc : cause ≠ 4)
    (hl : permits = false ∨ (s.site q).carRetryLimit ≤ r.retries) :
    let t := s.onCroft q f
    ∃ e : Report, (chanOf (t.croft q) i).st = .draining ∧ (chanOf (t.croft q) i).cause = cause ∧
      (chanOf (t.croft q) i).code = BitVec.ofNat 8 code ∧ (chanOf (t.croft q) i).used = r.retries ∧
      (chanOf (t.croft q) i).outst = (((chanOf (s.croft q) i).outst.erase r).filter fun a => !a.backoff) ∧
      bit (regOf (t.croft q) Reg.carFault) 0 = true ∧
      let u := if (s.parish (q / 500)).net = true then raisedAt s (some (0x7200 + q / 500)) e else s
      t.reports = u.reports ∧ t.outq = u.outq ∧ e.source = 40 ∧ e.loc.toNat = q := by
  rw [Site.failReq_last (x := s.site q) (i := i) hst hl] at hf
  have hst' : (((s.site q).setChan i { chanOf (s.croft q) i with outst := (chanOf (s.croft q) i).outst.erase r }).chan i).st = .run ∨
      (((s.site q).setChan i { chanOf (s.croft q) i with outst := (chanOf (s.croft q) i).outst.erase r }).chan i).st = .wait :=
          by
    rw [Site.chan_setChan, if_pos rfl]
    exact hst
  obtain ⟨e, hsrc, hloc, hhalt⟩ := Site.haltChan_raises (opc := (s.site q).opcAt i) (b := BitVec.ofNat 8 code) (used := r.retries)
    (lost := Site.lostSteward r code) hst' hc
  rw [Site.chan_setChan, if_pos rfl, Site.setChan_twice] at hhalt
  obtain ⟨hcr, hrep, hout⟩ := onCroft_raises hloc (hf.trans hhalt)
  have hq := q.isLt
  have hch : chanOf ((s.onCroft q f).croft q) i =
      Chan.stop { chanOf (s.croft q) i with outst := (chanOf (s.croft q) i).outst.erase r } cause (BitVec.ofNat 8 code)
          r.retries false := by
    rw [hcr]
    have hset := Site.chan_setChan (s.site q) i i
      (Chan.stop { chanOf (s.croft q) i with outst := (chanOf (s.croft q) i).outst.erase r } cause (BitVec.ofNat 8 code)
          r.retries false)
    rw [if_pos rfl] at hset
    exact hset
  refine ⟨e, ?_⟩
  rw [hch]
  refine ⟨rfl, rfl, rfl, rfl, rfl, ?_, hrep, hout, hsrc, ?_⟩
  · have hb : regOf ((s.onCroft q f).croft q) Reg.carFault = (s.site q).reg Reg.carFault ||| BitVec.ofNat 64 (2 ^ 0) := by
      rw [hcr]
      exact Tab.get_set_same croftReset _ _ _
    rw [hb]
    exact bit_or_pow _ 0 (by decide)
  · rw [hloc, BitVec.toNat_ofNat]
    exact Nat.mod_eq_of_lt (hq.trans (by decide))

/-- A refusal (R240, R241). -/
theorem nack_of_code {k : Packet} (hp : k.poison = false) (ho : k.op = 0x05) : answerCode k = k.nack.toNat := by
  unfold answerCode
  rw [hp, if_neg (by decide), if_pos ho]

theorem retriable_iff (b : Byte) : Stc.retriable b.toNat = true ↔ b ∈ ([0x02, 0x06, 0x09, 0x0A, 0x0B] : List Byte) := by
  revert b
  decide

end

/-! ### Data of a read (R240, R242, R243) -/

/-- A channel with the bytes of an answer arrived and committed for request r. -/
def readOn (v : Chan) (r : Req) (o n : Nat) : Chan :=
  let came := r.came ++ (List.range n).map (o + ·)
  let new := ((List.range n).map (o + ·)).filter fun b => !r.got.contains b
  { v with
    bytes := v.bytes + new.length
    outst := if ∀ b < r.len, b ∈ came then v.outst.erase r
      else v.outst.map fun a => if a = r then { r with came := came, got := r.got ++ new } else a }

/-- Marking the bytes that have come, then those that are committed, marks both, where no other request has the TAG. -/
theorem outst_marked {l : List Req} {r : Req} (hu : ∀ a ∈ l, a ≠ r → a.pkt.tag ≠ r.pkt.tag) (came new : List Nat) :
    (l.map fun a => if a = r then { r with came } else a).map
        (fun a => if a = { r with came } then { r with came, got := r.got ++ new } else a) =
      l.map fun a => if a = r then { r with came, got := r.got ++ new } else a := by
  rw [List.map_map]
  refine List.map_congr_left fun a ha => ?_
  by_cases h : a = r
  · subst h
    simp
  · have hne : a ≠ { r with came } := fun he => hu a ha h (by rw [he])
    simp only [Function.comp_apply, if_neg h, if_neg hne]

/-- Once the request is gone there is none to mark. -/
theorem outst_gone {l : List Req} {r : Req} (hu : ∀ a ∈ l, a ≠ r → a.pkt.tag ≠ r.pkt.tag) {came new : List Nat}
    (hc : r.came = came → new = []) :
    (l.erase r).map (fun a => if a = { r with came } then { r with came, got := r.got ++ new } else a) = l.erase r := by
  refine (List.map_congr_left fun a ha => ?_).trans (List.map_id' _)
  by_cases h : a = { r with came }
  · rw [if_pos h]
    by_cases hr : a = r
    · have hcame : r.came = came := by rw [← hr, h]
      rw [hc hcame, List.append_nil, ← h]
    · exact absurd (by rw [h]) (hu a (List.mem_of_mem_erase ha) hr)
  · exact if_neg h

/-- A write of a channel into clean scratchpad commits every byte. -/
theorem localStore_clean {x : Site} (he : ∀ cw, eccAt x.c cw = .clean) (i : Nat) {a : Nat} {bs : List Byte}
    (ha : a + bs.length ≤ 0x200000) (opc : Nat) (cls : Bool) :
    ∃ y, CleanlyWritten x y a bs ∧ x.localStore i a bs opc cls = (y, (List.range bs.length).map (a + ·)) := by
  have hb : Site.region a ≠ .block := by
    unfold Site.region
    by_cases h : a < 0x200000
    · rw [if_pos h]
      decide
    · have : a = 0x200000 := by omega
      subst this
      decide
  refine ⟨_, Site.writeBytes_clean he ha (carOpcode opc) (some cls), ?_⟩
  have hall : (((List.range bs.length).map (a + ·)).filter fun b => x.stores b && Site.region b == Site.region a) =
      (List.range bs.length).map (a + ·) := by
    refine List.filter_eq_self.mpr fun b hmem => ?_
    obtain ⟨j, hj, rfl⟩ := List.mem_map.mp hmem
    have hj' := List.mem_range.mp hj
    have h1 : Site.region (a + j) = .scratch := if_pos (by omega)
    have h2 : Site.region a = .scratch := if_pos (by omega)
    unfold Site.stores
    rw [h1, h2]
    rfl
  unfold Site.localStore
  rw [if_neg hb, hall]

/-- A read's data in clean scratchpad. -/
theorem readArrives_clean {x : Site} {i : Nat} {r : Req} {k : Packet} (he : ∀ cw, eccAt x.c cw = .clean)
    (hf : (x.chan i).st ≠ .free) (ha : (x.chan i).aborting = false)
    (hu : ∀ a ∈ (x.chan i).outst, a ≠ r → a.pkt.tag ≠ r.pkt.tag)
    (hn : r.dst + (k.offset.toNat - r.pkt.offset.toNat) + k.payload.length ≤ 0x200000) :
    ∃ ecc, (∀ cw, eccAt ({ x.c with ecc } : Croft) cw = .clean) ∧ x.readArrives i r k =
      ({ x with c := { x.c with
        mem := Memory.write x.c.mem (r.dst + (k.offset.toNat - r.pkt.offset.toNat)) k.payload, ecc } } : Site).setChan i
          (readOn (x.chan i) r (k.offset.toNat - r.pkt.offset.toNat) k.payload.length) := by
  generalize ho : k.offset.toNat - r.pkt.offset.toNat = o at hn ⊢
  have hcame : ∀ c : List Nat, (List.range r.len).all c.contains = true ↔ ∀ b < r.len, b ∈ c := by
    intro c
    simp [List.all_eq_true]
  have hnew : ((List.range k.payload.length).map (r.dst + o + ·)).map (· - r.dst) = (List.range k.payload.length).map (o + ·) := by
    rw [List.map_map]
    refine List.map_congr_left fun j _ => ?_
    show r.dst + o + j - r.dst = o + j
    omega
  obtain ⟨w, hw⟩ : ∃ w : Chan, w = { x.chan i with
    outst := if (List.range r.len).all (r.came ++ (List.range k.payload.length).map (o + ·)).contains then
        (x.chan i).outst.erase r
      else (x.chan i).outst.map fun q => if q = r then { r with came := r.came ++ (List.range k.payload.length).map (o + ·) }
          else q } :=
    ⟨_, rfl⟩
  obtain ⟨y, ⟨hy, hey⟩, hs⟩ := localStore_clean (x := x.setChan i w) he i hn 1 r.pkt.tclass
  have h0 : ¬ (x.chan i).aborting = true := by rw [ha]; decide
  have hfree : ¬ w.st = .free := by rw [hw]; exact hf
  unfold Site.readArrives
  rw [ho]
  dsimp only
  rw [if_neg h0, ← hw, hs]
  dsimp only
  rw [hnew]
  have hyc : y.chan i = w := by
    have h1 := Site.chan_setChan x i i w
    rw [if_pos rfl] at h1
    rw [hy]
    exact h1
  have hread : ({ w with
      bytes := w.bytes + (((List.range k.payload.length).map (o + ·)).filter fun b => !r.got.contains b).length
      outst := w.outst.map fun q => if q = { r with came := r.came ++ (List.range k.payload.length).map (o + ·) } then
        { r with
          came := r.came ++ (List.range k.payload.length).map (o + ·)
          got := r.got ++ ((List.range k.payload.length).map (o + ·)).filter fun b => !r.got.contains b } else q } : Chan) =
      readOn (x.chan i) r o k.payload.length := by
    rw [hw]
    unfold readOn
    dsimp only
    by_cases hwhole : ∀ b < r.len, b ∈ r.came ++ (List.range k.payload.length).map (o + ·)
    · rw [if_pos ((hcame _).mpr hwhole), if_pos hwhole, outst_gone hu]
      intro hc
      rw [List.self_eq_append_right] at hc
      rw [hc]
      rfl
    · rw [if_neg fun h => hwhole ((hcame _).mp h), if_neg hwhole, outst_marked hu]
  refine ⟨y.c.ecc, hey, ?_⟩
  unfold Site.modChan
  rw [hyc]
  dsimp only
  rw [if_neg hfree, hread, hy]
  exact Site.setChan_twice { x with c := { x.c with mem := Memory.write x.c.mem (r.dst + o) k.payload, ecc := y.c.ecc } } i w _

section carter
variable {s : State} {k : Packet} {q i : Nat} {r : Req} (hk : k.wellFormed = true) (ht : InTurn s k) (hw : k.who = .carter q i)
  (hp : k.poison = false) (hl : Live s q)
  (hr : (chanOf (s.croft q) i).outst.find? (fun r => r.pkt.tag == k.tag && !r.backoff) = some r)
include hk ht hw hp hl hr

theorem carAnswer_data (ho : k.op = 0x03) (hf : (chanOf (s.croft q) i).st ≠ .free)
    (ha : (chanOf (s.croft q) i).aborting = false)
    (hu : ∀ a ∈ (chanOf (s.croft q) i).outst, a ≠ r → a.pkt.tag ≠ r.pkt.tag)
    (hn : r.dst + (k.offset.toNat - r.pkt.offset.toNat) + k.payload.length ≤ 0x200000)
        (he : ∀ cw, eccAt (s.croft q) cw = .clean) :
    ∃ t, exec (.readData k) s = .next t ∧ t.outq = s.outq ∧ (∀ cw, eccAt (t.croft q) cw = .clean) ∧
      (t.croft q).mem = Memory.write (s.croft q).mem (r.dst + (k.offset.toNat - r.pkt.offset.toNat)) k.payload ∧
      ChanTo q i (s.take k) t (endsNow (readOn (chanOf (s.croft q) i) r (k.offset.toNat - r.pkt.offset.toNat) k.payload.length))
        { s.croft q with mem := (t.croft q).mem, ecc := (t.croft q).ecc } := by
  have hc : answerCode k = 0 := by
    unfold answerCode
    rw [hp, if_neg (by decide), if_neg (by rw [ho]; decide)]
  obtain ⟨ecc, hecc, hread⟩ := readArrives_clean (x := s.site q) (i := i) (r := r) (k := k) he hf ha hu hn
  have hsite : (s.site q).carAnswer i k = siteAs s q (withChan
      { s.croft q with
        mem := Memory.write (s.croft q).mem (r.dst + (k.offset.toNat - r.pkt.offset.toNat)) k.payload, ecc } i
      (endsNow (readOn (chanOf (s.croft q) i) r (k.offset.toNat - r.pkt.offset.toNat) k.payload.length))) := by
    rw [Site.carAnswer_waiting hl hr, hc, if_neg (by decide), if_pos ho, hread]
    exact Site.endWait_setChan _ i _
  obtain ⟨t, hx, hout, hch⟩ := chanTo_set (s := s.take k) (f := fun x => x.carAnswer i k) (d := { s.croft q with
        mem := Memory.write (s.croft q).mem (r.dst + (k.offset.toNat - r.pkt.offset.toNat)) k.payload, ecc }) rfl hsite
  obtain ⟨h1, h2, h3, h4, h5⟩ := hch
  have hmem : (t.croft q).mem = Memory.write (s.croft q).mem (r.dst + (k.offset.toNat - r.pkt.offset.toNat)) k.payload := by rw [h5]
  have hecct : (t.croft q).ecc = ecc := by rw [h5]
  refine ⟨t, (exec_carAnswer hk ht hw (.inr (.inr (.inl ⟨ho, rfl⟩)))).trans hx, hout, fun cw => ?_, hmem, h1, h2, h3, h4, ?_⟩
  · rw [h5]
    exact hecc cw
  · rw [hmem, hecct]
    exact h5

/-- A refusal that permits a retry. -/
theorem carAnswer_again (ho : k.op = 0x05) (hn : k.nack ∈ ([0x02, 0x06, 0x09, 0x0A, 0x0B] : List Byte))
    (hd : (chanOf (s.croft q) i).st ≠ .draining) (hm : r.retries < fld (regOf (s.croft q) Reg.carCfg) 2 0) :
    ∃ t, exec (.nack k) s = .next t ∧ t.outq = s.outq ∧ ChanTo q i (s.take k) t { chanOf (s.croft q) i with
      outst := (chanOf (s.croft q) i).outst.erase r ++ [{ r with backoff := true }] } (s.croft q) := by
  have hc := nack_of_code hp ho
  have h0 : k.nack.toNat ≠ 0 := by
    intro h
    rw [show k.nack = 0 from BitVec.eq_of_toNat_eq h] at hn
    exact absurd hn (by decide)
  rw [exec_carAnswer hk ht hw (.inr (.inr (.inr ⟨ho, rfl⟩)))]
  refine chanTo_set (s := s.take k) (d := s.croft q) rfl ?_
  refine (Site.carAnswer_waiting hl hr).trans ?_
  rw [hc, if_pos h0, (retriable_iff k.nack).mpr hn, Site.failReq_again (x := s.site q) (i := i) hd hm]
  rfl

end carter

/-- A refusal that permits none, or whose retries are used up. -/
theorem carAnswer_last {s : State} {k : Packet} {q : Phys} {i : Nat} {r : Req} (hk : k.wellFormed = true) (ht : InTurn s k)
    (hw : k.who = .carter q i) (hp : k.poison = false) (hl : Live s q)
    (hr : (chanOf (s.croft q) i).outst.find? (fun r => r.pkt.tag == k.tag && !r.backoff) = some r) (ho : k.op = 0x05)
        (h0 : k.nack ≠ 0)
    (hn : k.nack ∉ ([0x02, 0x06, 0x09, 0x0A, 0x0B] : List Byte) ∨ fld (regOf (s.croft q) Reg.carCfg) 2 0 ≤ r.retries)
    (hst : (chanOf (s.croft q) i).st = .run ∨ (chanOf (s.croft q) i).st = .wait) :
    ∃ t e, exec (.nack k) s = .next t ∧ (chanOf (t.croft q) i).st = .draining ∧
      (chanOf (t.croft q) i).cause = 1 ∧ (chanOf (t.croft q) i).code = k.nack ∧ (chanOf (t.croft q) i).used = r.retries ∧
      (chanOf (t.croft q) i).outst = (((chanOf (s.croft q) i).outst.erase r).filter fun a => !a.backoff) ∧
      bit (regOf (t.croft q) Reg.carFault) 0 = true ∧
      let u := if (s.parish (q / 500)).net = true then raisedAt s (some (0x7200 + q / 500)) e else s
      t.reports = u.reports ∧ t.outq = u.outq ∧ e.source = 40 ∧ e.loc.toNat = q := by
  have hc := nack_of_code hp ho
  have hne : k.nack.toNat ≠ 0 := fun h => h0 (BitVec.eq_of_toNat_eq h)
  have hlim : Stc.retriable k.nack.toNat = false ∨ (s.site q).carRetryLimit ≤ r.retries :=
    hn.imp (fun h => Bool.eq_false_iff.mpr fun hc => h ((retriable_iff _).mp hc)) id
  have hf : (s.site q).carAnswer i k = (s.site q).failReq i r 1 k.nack.toNat (Stc.retriable k.nack.toNat) := by
    rw [Site.carAnswer_waiting hl hr, hc, if_pos hne]
  obtain ⟨e, h1, h2, h3, h4, h5, h6, h7, h8, h9⟩ :=
    failReq_halts (s := s.take k) (f := fun x => x.carAnswer i k) hf hst (by decide) hlim
  rw [BitVec.ofNat_toNat, BitVec.setWidth_eq] at h3
  refine ⟨_, e, exec_carAnswer hk ht hw (.inr (.inr (.inr ⟨ho, rfl⟩))), h1, h2, h3, h4, h5, h6, ?_⟩
  have hnet : (s.take k).parish (q / 500) = s.parish (q / 500) := rfl
  rw [hnet] at h7 h8
  dsimp only
  split at h7
  · next hn => rw [if_pos hn] at h8 ⊢; exact ⟨h7, h8, h9⟩
  · next hn => rw [if_neg hn] at h8 ⊢; exact ⟨h7, h8, h9⟩

/-! ### Timeouts, retries and the end of a drain -/

section
variable {s : State} {q : Phys} {i : Chn} {tag : W16} {r : Req} (hl : Live s q)
include hl

theorem Site.requestTimeout_waiting (hr : (chanOf (s.croft q) i).outst.find? (fun r => r.pkt.tag == tag && !r.backoff) = some r)
    :
    (s.site q).requestTimeout i tag = (s.site q).failReq i r 2 0 true := by
  have hw : (s.site q).waitingReq i tag = some r := hr
  have hl' : (s.site q).live = true := hl
  unfold Site.requestTimeout
  rw [hl', if_neg (by decide), hw]

theorem timeout_again (hr : (chanOf (s.croft q) i).outst.find? (fun r => r.pkt.tag == tag && !r.backoff) = some r)
    (hd : (chanOf (s.croft q) i).st ≠ .draining) (hm : r.retries < fld (regOf (s.croft q) Reg.carCfg) 2 0) :
    ∃ t, exec (.requestTimeout (.croft q i) tag) s = .next t ∧ t.outq = s.outq ∧ ChanTo q i s t { chanOf (s.croft q) i with
      outst := (chanOf (s.croft q) i).outst.erase r ++ [{ r with backoff := true }] } (s.croft q) := by
  refine chanTo_set (f := fun x => x.requestTimeout i tag) rfl ((Site.requestTimeout_waiting hl hr).trans ?_)
  rw [Site.failReq_again (x := s.site q) (i := i) hd hm]
  rfl

theorem timeout_draining (hr : (chanOf (s.croft q) i).outst.find? (fun r => r.pkt.tag == tag && !r.backoff) = some r)
    (hd : (chanOf (s.croft q) i).st = .draining) :
    ∃ t, exec (.requestTimeout (.croft q i) tag) s = .next t ∧ t.outq = s.outq ∧ ChanTo q i s t { chanOf (s.croft q) i with
      outst := (chanOf (s.croft q) i).outst.erase r, indoubt := true } (s.croft q) := by
  refine chanTo_set (f := fun x => x.requestTimeout i tag) rfl ((Site.requestTimeout_waiting hl hr).trans ?_)
  rw [Site.failReq_draining (x := s.site q) (i := i) hd]
  have hdoubt : (((s.site q).chan i).indoubt || ((2 : Nat) == 2)) = true := Bool.or_true _
  rw [hdoubt]
  rfl

/-- A retry goes out under the channel's next TAG. -/
theorem retry_sent (hr : (chanOf (s.croft q) i).outst.find? (fun r => r.backoff && r.pkt.tag == tag) = some r)
    (hst : (chanOf (s.croft q) i).st = .run ∨ (chanOf (s.croft q) i).st = .wait) :
    let v := chanOf (s.croft q) i
    let k := { r.pkt with tag := BitVec.ofNat 16 (i * 8192 + v.seq % 8192) }
    ∃ t, exec (.retry (.croft q i) tag) s = .next t ∧ t.outq = s.outq ++ [k] ∧ ChanTo q i s t
      { v with
        seq := (v.seq + 1) % 8192
        outst := v.outst.map fun a => if a = r then { r with pkt := k, retries := r.retries + 1, backoff := false, came := [] }
            else a }
      (withReg (s.croft q) Reg.carRetries (BitVec.ofNat 64 (satAdd (regOf (s.croft q) Reg.carRetries).toNat 1))) := by
  intro v k
  have hgo : ¬ (!(s.site q).live || !(decide (((s.site q).chan i).st = .run) || decide (((s.site q).chan i).st = .wait))) = true := by
    have hl' : (s.site q).live = true := hl
    have hst' : (decide (((s.site q).chan i).st = .run) || decide (((s.site q).chan i).st = .wait)) = true := by
      rw [Bool.or_eq_true, decide_eq_true_iff, decide_eq_true_iff]
      exact hst
    rw [hl', hst']
    decide
  have hr' : ((s.site q).chan i).outst.find? (fun r => r.backoff && r.pkt.tag == tag) = some r := hr
  refine chanTo_sent (f := fun x => x.retry i tag)
    (t := Tab.set (fun _ => ({} : Chan)) (s.croft q).chans i { v with seq := (v.seq + 1) % 8192 })
    (fun j hj => Tab.get_set_ne (fun _ => ({} : Chan)) _ _ hj) ?_
  dsimp only
  unfold Site.retry
  dsimp only
  rw [if_neg hgo, hr']
  dsimp only
  have hch : ((((s.site q).useTag i).count Reg.carRetries 1).send k).chan i = { v with seq := (v.seq + 1) % 8192 } := by
    have h1 := Site.chan_setChan (s.site q) i i { v with seq := (v.seq + 1) % 8192 }
    rw [if_pos rfl] at h1
    exact h1
  have hk : { r.pkt with tag := (s.site q).nextTag i } = k := rfl
  rw [hk]
  unfold Site.modChan
  rw [hch]
  rfl

omit hl in
/-- The end of a drain (R227, R241, R243). -/
theorem Chan.settle_draining {v : Chan} (hd : v.st = .draining) (ho : v.outst = []) :
    v.settle = if v.destroying then { v with st := .free, destroying := false }
      else { v with st := if v.aborting then .aborted else .halted } := by
  have hs : (if v.st = .draining ∧ v.outst = [] then { v with st := if v.aborting then .aborted else .halted } else v) =
      { v with st := if v.aborting then .aborted else .halted } := if_pos ⟨hd, ho⟩
  unfold Chan.settle
  rw [hs]
  cases v.destroying <;> cases v.aborting <;> simp

omit hl in
theorem drainEnd_settles (hd : (chanOf (s.croft q) i).st = .draining) (ho : (chanOf (s.croft q) i).outst = []) :
    let v := chanOf (s.croft q) i
    ∃ t, exec (.channelDrainEnd (.croft q i)) s = .next t ∧ t.outq = s.outq ∧
      ChanTo q i s t (if v.destroying then { v with st := .free, destroying := false }
        else { v with st := if v.aborting then .aborted else .halted }) (s.croft q) := by
  intro v
  rw [← Chan.settle_draining hd ho]
  exact chanTo_set (f := fun x => x.modChan i Chan.settle) rfl rfl

end

/-! ### Gates (R324) -/

section gate
variable {g : GateId} {i : Ctx} {s : State} {r : Req} {tag : W16}

theorem gateTimeout_again (hr : ((s.gate g).chan i).outst.find? (fun r => r.pkt.tag == tag && !r.backoff) = some r)
    (hst : ((s.gate g).chan i).st = .run) (hm : r.retries < (s.gate g).retryLimit) :
    exec (.requestTimeout (.gate g i) tag) s = .next (s.setGate g ((s.gate g).setChan i { (s.gate g).chan i with
      outst := ((s.gate g).chan i).outst.erase r ++ [{ r with backoff := true }] })) := by
  refine congrArg Host.Outcome.next ?_
  unfold State.gateTimeout
  rw [hr]
  unfold State.failMesh
  dsimp only
  rw [if_neg (by rw [hst]; decide), if_neg (by simpa using hm)]
  rfl

theorem gateTo_of_sent {g : Nat} {s t : State} (h : State.GatesGoOn g s { t with outq := s.outq }) : GateTo g s t (t.gate g) :=
    by
  have honly := congrArg (fun u : State => { u with outq := t.outq }) h.only
  have hrep : t.reports = s.reports := h.reports
  refine ⟨rfl, h.sendsOn, ?_⟩
  rw [hrep]
  exact honly

/-- A gate set, a packet sent, and the gate set again. -/
theorem resent_gate (u : State) (g : Nat) (v : Gate) (o : List Packet) (f : Gate → Gate) :
    (({ u.setGate g v with outq := o } : State).modGate g f).gate g = f v := by
  unfold State.modGate
  rw [State.gate_setGate_same]
  exact congrArg f (State.gate_setGate_same u g v)

theorem resent_outq (u : State) (g : Nat) (v : Gate) (o : List Packet) (f : Gate → Gate) :
    (({ u.setGate g v with outq := o } : State).modGate g f).outq = o := rfl

theorem resent_goesOn (u : State) (g : Nat) (v : Gate) (o : List Packet) (f : Gate → Gate) :
    State.GatesGoOn g u { ({ u.setGate g v with outq := o } : State).modGate g f with outq := u.outq } := by
  refine ⟨rfl, fun j hj => ?_⟩
  have h1 : (({ u.setGate g v with outq := o } : State).modGate g f).gate j = u.gate j :=
    (State.gate_setGate_ne _ _ hj).trans (State.gate_setGate_ne u _ hj)
  exact h1 ▸ Gate.sendsOn_refl _

/-- A failed mesh request of a gate goes out again under the context's next TAG. -/
theorem gateRetry_sent (hr : ((s.gate g).chan i).outst.find? (fun r => r.backoff && r.pkt.tag == tag) = some r)
    (hst : ((s.gate g).chan i).st = .run) (ho : r.pkt.op ≠ 0x02) :
    let c := (s.gate g).chan i
    ∃ t p, exec (.retry (.gate g i) tag) s = .next t ∧ GateTo g s t (t.gate g) ∧ t.outq = s.outq ++ [p] ∧ p.op = r.pkt.op ∧
      p.dest = r.pkt.dest ∧ p.payload = r.pkt.payload ∧ p.tag.toNat % 4096 = c.seq % 4096 ∧ ((t.gate g).chan i).seq =
          (c.seq + 1) % 4096 ∧
      ((t.gate g).chan i).outst = c.outst.erase r ++ [{ r with pkt := p, retries := r.retries + 1, backoff := false }] := by
  intro c
  have hex : exec (.retry (.gate g i) tag) s = .next (s.gateRetry g i tag) := rfl
  have htag (n : Nat) : (BitVec.ofNat 16 (n * 4096 + c.seq % 4096)).toNat % 4096 = c.seq % 4096 := by
    rw [BitVec.toNat_ofNat]
    omega
  obtain ⟨u, hu⟩ : ∃ u, u = s.setGate g ((s.gate g).setChan i { c with outst := c.outst.erase r }) := ⟨_, rfl⟩
  obtain ⟨p, hp⟩ : ∃ p : Packet, p = { r.pkt with
    tag := BitVec.ofNat 16 ((u.liveAttach g (i % 12) r.pkt.plane).getD 0 * 4096 + c.seq % 4096) } := ⟨_, rfl⟩
  have huc : (u.gate g).chan i = { c with outst := c.outst.erase r } := by
    rw [hu, State.gate_setGate_same, Gate.chan_setChan, if_pos rfl]
  have htagged : u.gateTagged g i r.pkt = ({ u.setGate g ((u.gate g).setChan i { c with
      outst := c.outst.erase r, seq := (c.seq + 1) % 4096 }) with outq := u.outq ++ [p] }, p) := by
    unfold State.gateTagged
    dsimp only
    rw [huc, ← hp]
    unfold State.modGate Gate.modChan
    dsimp only
    rw [huc]
    rfl
  have hret : s.gateRetry g i tag = ({ u.setGate g ((u.gate g).setChan i { c with
      outst := c.outst.erase r, seq := (c.seq + 1) % 4096 }) with outq := u.outq ++ [p] } : State).modGate g fun v =>
        v.modChan i fun v => { v with outst := v.outst ++ [{ r with pkt := p, retries := r.retries + 1, backoff := false }] } :=
            by
    have hrun : ¬ (!decide (((s.gate g).chan i).st = .run)) = true := by rw [hst]; decide
    have hmod : (s.modGate g fun v => v.setChan i { c with outst := c.outst.erase r }) = u := hu.symm
    unfold State.gateRetry
    dsimp only
    rw [if_neg hrun, hr]
    dsimp only
    rw [hmod, if_neg ho, htagged]
  have hgo : State.GatesGoOn g s { s.gateRetry g i tag with outq := s.outq } := by
    have hu1 : State.GatesGoOn g s u := by rw [hu]; exact State.gatesGoOn_setGate s g _
    have hout : s.outq = u.outq := by rw [hu]; rfl
    rw [hret, hout]
    exact hu1.trans (resent_goesOn u g _ _ _)
  have hch : ((s.gateRetry g i tag).gate g).chan i = { c with
      seq := (c.seq + 1) % 4096
      outst := c.outst.erase r ++ [{ r with pkt := p, retries := r.retries + 1, backoff := false }] } := by
    rw [hret, resent_gate, Gate.chan_modChan, if_pos rfl, Gate.chan_setChan, if_pos rfl]
  have hout : (s.gateRetry g i tag).outq = s.outq ++ [p] := by
    rw [hret, resent_outq, hu]
    rfl
  exact ⟨s.gateRetry g i tag, p, hex, gateTo_of_sent hgo, hout, by rw [hp], by rw [hp], by rw [hp], by rw [hp]; exact htag _,
    by rw [hch], by rw [hch]⟩

theorem gateDrainEnd_settles (hd : ((s.gate g).chan i).st = .draining) (ho : ((s.gate g).chan i).outst = [])
    (hp : (s.gate g).storeParts i = 0) :
    let c := (s.gate g).chan i
    exec (.channelDrainEnd (.gate g i)) s = .next (s.setGate g ((s.gate g).setChan i
      (if c.destroying then { c with st := .free, destroying := false }
        else { c with st := if c.aborting then .aborted else .halted }))) := by
  intro c
  rw [← Chan.settle_draining hd ho]
  exact if_pos hp

/-- A context that drains only counts what completes. -/
theorem gateGo_draining {t : State} (hd : ((t.gate g).chan i).st = .draining) : t.gateGo g i = t.releaseStores := by
  have hd' : ((t.releaseStores.gate g).chan i).st = .draining := by rw [((State.releaseStores_spec t).2 g).chan, hd]
  have hpump : State.gatePump g i (2 * State.streamDepth + 4) t.releaseStores = t.releaseStores := by
    unfold State.gatePump
    dsimp only
    rw [hd']
  unfold State.gateGo
  rw [hpump]
  unfold State.gateFinish
  dsimp only
  rw [hd']
  exact if_pos (by simp)

theorem gateAnswer_draining {k : Packet} (hk : k.wellFormed = true) (ht : InTurn s k) (hw : k.who = .gate g i)
    (hp : k.poison = false) (ho : k.op = 0x04) (hd : ((s.gate g).chan i).st = .draining)
    (hr : ((s.gate g).chan i).outst.find? (fun r => r.pkt.tag == k.tag && !r.backoff) = some r) :
    ∃ t, exec (.writeAck k) s = .next t ∧ GateTo g (s.take k) t (t.gate g) ∧
      (t.gate g).chan i = { (s.gate g).chan i with
        outst := ((s.gate g).chan i).outst.erase r, bytes := ((s.gate g).chan i).bytes + r.len } := by
  obtain ⟨u, hu⟩ : ∃ u, u = (s.take k).setGate g ((s.gate g).setChan i { (s.gate g).chan i with
    outst := ((s.gate g).chan i).outst.erase r, bytes := ((s.gate g).chan i).bytes + r.len }) := ⟨_, rfl⟩
  have huc : (u.gate g).chan i = { (s.gate g).chan i with
      outst := ((s.gate g).chan i).outst.erase r, bytes := ((s.gate g).chan i).bytes + r.len } := by
    rw [hu, State.gate_setGate_same, Gate.chan_setChan, if_pos rfl]
  have hc : answerCode k = 0 := by
    unfold answerCode
    rw [hp, if_neg (by decide), if_neg (by rw [ho]; decide)]
  have hr' : ((s.take k).gate g).chan i = (s.gate g).chan i := rfl
  have ha : s.answer k = u.releaseStores := by
    unfold State.answer
    dsimp only
    rw [hw]
    dsimp only
    unfold State.gateAnswer
    dsimp only
    rw [hr', hr]
    dsimp only
    rw [hc, if_neg (by decide), if_neg (by rw [ho]; decide)]
    exact (congrArg (fun t : State => t.gateGo g i) hu.symm).trans (gateGo_draining (by rw [huc]; exact hd))
  have hgo : State.GatesGoOn g (s.take k) u.releaseStores :=
    State.GatesGoOn.trans (by rw [hu]; exact State.gatesGoOn_setGate _ _ _) (State.gatesGoOn_releaseStores g u)
  refine ⟨u.releaseStores, ?_, ⟨rfl, hgo.sendsOn, ?_⟩, ?_⟩
  · rw [exec_answer hk ht (.inl ⟨ho, rfl⟩), State.asOne_of_shadows, ha]
    rw [ha, hgo.only]
    rfl
  · rw [hgo.only]
  · rw [((State.releaseStores_spec u).2 g).chan, huc]

end gate

/-! ### The rule -/

/-- Settles O34: an answer, a timeout or a retry comes to one change of the channel whose request it names. -/
theorem answersReachRequesters : Obligations.AnswersReachRequesters := by
  unfold Obligations.AnswersReachRequesters
  refine ⟨fun q i s k r hk ht hw hp hl => ?_, fun q i s tag r hl => ⟨fun hr => ⟨timeout_again hl hr, timeout_draining hl hr⟩,
    retry_sent hl, drainEnd_settles⟩, fun g i s r => ⟨fun tag => gateTimeout_again, fun tag => gateRetry_sent,
        gateDrainEnd_settles,
      fun k hk ht hw hp => gateAnswer_draining hk ht hw hp⟩⟩
  intro c v ends hr
  exact ⟨fun e he => carAnswer_complete hl hr hk ht hw hp he,
    fun ho hf ha _ hu hn he => carAnswer_data hk ht hw hp hl hr ho hf ha hu hn he,
    carAnswer_again hk ht hw hp hl hr, carAnswer_last hk ht hw hp hl hr⟩

end Sys2Proof.Machine

namespace Sys2Proof.Machine
open Sys2Proof.Safety

/-! The gather engine (R179, R188 to R196). -/

/-! ### A word issues -/

theorem Site.advance_nil {x : Site} (n : Nat) (h : x.c.gathQ = []) : x.advance n = x := by
  cases n with
  | zero => rfl
  | succ n =>
    unfold Site.advance
    rw [h]

/-- The site with a gather word in its queue. -/
def gathered (s : State) (q : Nat) (w : W128) : Site :=
  { s.site q with c := { s.croft q with gathQ := [queued s q w], seq := past (s.croft q).seq, stalled := true } }

/-- The site with the word taken from it again, as the engine does its work. -/
def gatherTaken (s : State) (q : Nat) : Site :=
  { s.site q with c := { s.croft q with gathQ := [], seq := past (s.croft q).seq, stalled := true } }

section
variable {s : State} {q : Nat} {w : W128} (h : Issues s q w) (hc : wordClass w = 4) (hq : (s.croft q).gathQ = [])
include h hc hq

theorem gatherWord_queues (op : Nat) (ho : wordOp w = op) : (s.site q).gatherWord op = (gathered s q w).advance 5 := by
  unfold Site.gatherWord Site.enqueueGather
  rw [Site.issuing_eq h 4 hc]
  dsimp only
  rw [if_pos ho]
  have he : (s.site q).enqueue w (s.site q).c.gathQ (fun l c => { c with gathQ := l }) = gathered s q w := by
    have hq' : (s.site q).c.gathQ = [] := hq
    rw [hq']
    exact enqueue_room rfl (by simp)
  rw [he]

/-- A FEED word becomes a feed at once. -/
theorem gatherWord_feeds (op : Nat) (ho : wordOp w = op) (hf : op % 2 = 1) : (s.site q).gatherWord op =
    { s.site q with c := { s.croft q with
        feeds := (s.croft q).feeds ++ [{ q := queued s q w, curA := { addr := Site.gathA (queued s q w) }
                                         curB := { addr := Site.gathB (queued s q w) } }]
        seq := past (s.croft q).seq, stalled := true } } := by
  have hfeed : Site.isFeed (queued s q w) = true := by
    subst ho
    exact decide_eq_true hf
  rw [gatherWord_queues h hc hq op ho]
  unfold Site.advance
  dsimp only [gathered]
  rw [if_pos hfeed, Site.advance_nil _ rfl, hq]

/-- Any other word waits in the queue while a feed or an unfinished word stands before it. -/
theorem gatherWord_waits (op : Nat) (ho : wordOp w = op) (hf : op % 2 = 0)
    (hb : (s.croft q).feeds ≠ [] ∨ (s.croft q).gathDone ≠ []) :
    (s.site q).gatherWord op = gathered s q w := by
  have hfeed : ¬ Site.isFeed (queued s q w) = true := by
    subst ho
    simp [Site.isFeed, queued, hf]
  have hbusy : (!(s.croft q).feeds.isEmpty || !(s.croft q).gathDone.isEmpty) = true := by
    simpa [List.isEmpty_iff] using hb
  rw [gatherWord_queues h hc hq op ho]
  unfold Site.advance
  dsimp only [gathered]
  rw [if_neg hfeed]
  exact if_pos hbusy

/-- At an idle engine that R422 allows the word does its work as it issues. -/
theorem gatherWord_works (op : Nat) (ho : wordOp w = op) (hf : op % 2 = 0) (h1 : (s.croft q).feeds = [])
    (h2 : (s.croft q).gathDone = [])
    (hh : (gathered s q w).held (queued s q w).num (Site.gathReach (queued s q w)) = false) :
    (s.site q).gatherWord op = if op = 2 then (gatherTaken s q).runMerge (queued s q w)
      else if op = 4 then (gatherTaken s q).runSelect (queued s q w) else (gatherTaken s q).runGlean (queued s q w) := by
  have hfeed : ¬ Site.isFeed (queued s q w) = true := by
    subst ho
    simp [Site.isFeed, queued, hf]
  have hidle : ¬ (!(s.croft q).feeds.isEmpty || !(s.croft q).gathDone.isEmpty) = true := by simp [h1, h2]
  have hop : wordOp (queued s q w).word = op := ho
  rw [gatherWord_queues h hc hq op ho]
  unfold Site.advance
  dsimp only [gathered] at hh ⊢
  rw [if_neg hfeed]
  refine (if_neg hidle).trans ((if_neg (by rw [hh]; decide)).trans ?_)
  rw [hop]
  rfl

end

/-! ### What the engine's work leaves -/

namespace Worked

theorem rowTiles (x : Site) (a : Nat) (opc : W16) (n : Nat) : Worked x (x.rowTiles a opc n).x := by
  induction n with
  | zero => exact refl x
  | succ n ih =>
    unfold Site.rowTiles
    dsimp only
    split
    · exact ih
    · exact ih.trans (openTile _ _ _ _)

theorem rawBlock (x : Site) (t : Tile) (h bk : Nat) (opc : W16) : Worked x (x.rawBlock t h bk opc).x := by
  unfold Site.rawBlock
  dsimp only
  refine List.foldlRecOn (motive := fun r : TileRead _ => Worked x r.x) _ _ (refl x) fun r hr l _ => ?_
  split
  · exact hr
  · split
    · exact hr
    · exact (hr.trans (readBytes _ _ _ _ _)).trans (readBytes _ _ _ _ _)

theorem entryBlock (x : Site) (ts : List Tile) (f : Nat) (ls : List (Nat × Nat)) (h k : Nat) (opc : W16) :
    Worked x (x.entryBlock ts f ls h k opc).x := by
  unfold Site.entryBlock
  split
  · exact rawBlock _ _ _ _ _
  · exact refl x

theorem entryBlocks (x : Site) (ts : List Tile) (f : Nat) (opc : W16) (es : List (List (Nat × Nat) × Nat × Nat)) :
    Worked x (x.entryBlocks ts f opc es).x := by
  unfold Site.entryBlocks
  refine List.foldlRecOn (motive := fun r : TileRead _ => Worked x r.x) _ _ (refl x) fun r hr e _ => ?_
  split
  · exact hr
  · exact hr.trans (entryBlock _ _ _ _ _ _ _)

/-- Compacted tiles that are all written leave no bytes undefined (R424). -/
theorem compactAll (x : Site) (q : QWord) (ts : List Tile) (f : Nat) (T : W32) (l0 l1 : List (Nat × Nat)) (n : Nat)
    (he : (x.compactAll q ts f T l0 l1 n).err = none) : Worked x (x.compactAll q ts f T l0 l1 n).x := by
  induction n with
  | zero => exact refl x
  | succ n ih =>
    unfold Site.compactAll at he ⊢
    dsimp only at he ⊢
    split at he
    · next hsome => rw [he] at hsome; cases hsome
    · next hnone =>
      rw [if_neg hnone]
      have hn : (x.compactAll q ts f T l0 l1 n).err = none := by simpa using hnone
      split at he
      · next hsome => dsimp only at he; rw [he] at hsome; cases hsome
      · next ht =>
        rw [if_neg ht]
        exact ((ih hn).trans (entryBlocks _ _ _ _ _)).trans (writeBytes _ _ _ _ _)

/-- The engine's own state, the sequencer and the words after work of the memory's. -/
theorem engine {x y : Site} (h : Worked x y) : y.c.gathDone = x.c.gathDone ∧ y.c.gathQ = x.c.gathQ ∧ y.c.seq = x.c.seq := by
  obtain ⟨regs, mem, ecc, corr, raised, rfl⟩ := h.croft
  exact ⟨rfl, rfl, rfl⟩

end Worked

/-- A write of whole bytes in the scratchpad. -/
theorem mem_writeBytes_scratch (x : Site) {a : Nat} {bs : List Byte} (h : a + bs.length ≤ 0x200000) (opc : W16)
    (cls : Option Bool) :
    (x.writeBytes a bs opc cls).c.mem = Memory.write x.c.mem a bs := by
  cases bs with
  | nil =>
    unfold Site.writeBytes Site.putBytes
    simp [Site.within]
    rfl
  | cons b bs =>
    have hr : Site.region a = .scratch := if_pos (by simp at h; omega)
    have hw : Site.within a (b :: bs).length = (b :: bs).length := by
      unfold Site.within Site.regionEnd
      rw [hr]
      dsimp only
      exact Nat.min_eq_left (by omega)
    unfold Site.writeBytes Site.putBytes
    dsimp only
    rw [hw, if_neg (Nat.lt_irrefl _), List.take_length, if_neg (by simp), if_neg (by rw [hr]; decide), mem_storeBytes]

theorem Worked.croftSite {x y : Site} (h : Worked x y) : y.seed = x.seed ∧ y.n = x.n := by
  obtain ⟨regs, mem, ecc, corr, raised, rfl⟩ := h.croft
  exact ⟨rfl, rfl⟩

/-! ### MERGE (R188) -/

section
variable {s : State} {q : Phys} {w : W128}

/-- What a completed word leaves of its croft. -/
theorem gathDone_left {x y : Site} {k : QWord} {n : Nat} (h : Worked x y) (hx : x.c.gathDone = []) :
    (y.gathDone k n).c.gathDone = [(k, n)] ∧ (y.gathDone k n).c.gathQ = x.c.gathQ ∧ (y.gathDone k n).c.seq = x.c.seq := by
  obtain ⟨hd, hg, hs⟩ := h.engine
  refine ⟨?_, hg, hs⟩
  show y.c.gathDone ++ [(k, n)] = [(k, n)]
  rw [hd, hx]
  rfl

theorem Site.runMerge_done {y : Site} {k : QWord}
    (hx : (y.rowTiles (Site.gathA k) (wordOpcode k.word) (Site.gathCount k)).x = y)
    (he : (y.rowTiles (Site.gathA k) (wordOpcode k.word) (Site.gathCount k)).err = none) {ts : List Tile} {f : Nat}
    (hts : (y.rowTiles (Site.gathA k) (wordOpcode k.word) (Site.gathCount k)).val.1 = ts) (hf : (ts.headD {}).fmt = f)
    (ht : ∀ t ∈ ts, t.fmt = f ∧ t.layout ≠ 2 ∧ t.resid = false) (h2 : f ≠ 2) (h8 : f ≤ 8) (h1 : f ≠ 1)
    (hc : (y.compactAll k ts f (BitVec.ofNat 32 (ofLe (Memory.read y.c.mem (Site.gathA k + 8) 4))) (Site.rowBlocks ts 0)
      (Site.rowBlocks ts 1) ((max (Site.rowBlocks ts 0).length (Site.rowBlocks ts 1).length + 1) / 2)).err = none) :
    ∃ z, Worked y z ∧ y.runMerge k =
      z.gathDone k ((max (Site.rowBlocks ts 0).length (Site.rowBlocks ts 1).length + 1) / 2) := by
  have hwrong : ts.find? (fun t => t.fmt != f || t.layout == 2 || t.resid || t.fmt == 2 || decide (8 < t.fmt)) = none := by
    refine List.find?_eq_none.mpr fun t hmem => ?_
    obtain ⟨h, hl, hr⟩ := ht t hmem
    simp [h, hl, hr, h2]
    omega
  have hscale : ts.find? (fun t => f == 1 && t.scale != (ts.headD {}).scale) = none :=
    List.find?_eq_none.mpr fun t _ => by simp [h1]
  have hpass : ceilDiv (max (Site.rowBlocks ts 0).length (Site.rowBlocks ts 1).length) 2 =
      (max (Site.rowBlocks ts 0).length (Site.rowBlocks ts 1).length + 1) / 2 := by unfold ceilDiv; omega
  have hw := Worked.compactAll _ _ _ _ _ _ _ _ hc
  unfold Site.runMerge
  dsimp only
  rw [he]
  dsimp only
  rw [hts, hf, hwrong, hscale]
  dsimp only
  rw [hpass, hx, hc]
  exact ⟨_, hw.trans (.writeBytes _ _ _ _ _), rfl⟩

end

/-! ### SELECT (R192 to R194) -/

/-- The entry of a block of class c in a list: none for a SKIPPED one that is not audited. -/
def listEntry (mode : Nat) (audited : Nat → Bool) (b c : Nat) : Option Nat :=
  if mode = 2 then some b
  else if c = 2 then (if audited b then some (2 * 2 ^ 14 + b) else none)
  else some (c * 2 ^ 14 + b)

/-- A SELECT's list. -/
def selected (mode : Nat) (audited : Nat → Bool) (cs : List Nat) : List Nat := (cs.mapIdx (listEntry mode audited)).filterMap id

theorem selected_all (audited : Nat → Bool) (cs : List Nat) : selected 2 audited cs = List.range cs.length := by
  have h : cs.mapIdx (listEntry 2 audited) = (List.range cs.length).map some :=
    List.ext_getElem (by simp) fun i h1 h2 => by simp [listEntry]
  unfold selected
  rw [h]
  simp

theorem mem_selected {mode : Nat} (hm : mode ≠ 2) (audited : Nat → Bool) (cs : List Nat) (e : Nat) :
    e ∈ selected mode audited cs ↔ ∃ b < cs.length, e = cs.getD b 0 * 2 ^ 14 + b ∧ (cs.getD b 0 = 2 → audited b = true) := by
  unfold selected
  rw [List.mem_filterMap]
  constructor
  · rintro ⟨o, ho, he⟩
    obtain ⟨b, hb, rfl⟩ := List.mem_mapIdx.mp ho
    have hget : cs.getD b 0 = cs[b] := by simp [hb]
    refine ⟨b, hb, ?_⟩
    rw [hget]
    unfold listEntry at he
    rw [if_neg hm] at he
    by_cases hc : cs[b] = 2
    · rw [if_pos hc] at he
      by_cases ha : audited b = true
      · rw [if_pos ha] at he
        rw [hc]
        exact ⟨(Option.some.inj he).symm, fun _ => ha⟩
      · rw [if_neg ha] at he
        cases he
    · rw [if_neg hc] at he
      exact ⟨(Option.some.inj he).symm, fun h => absurd h hc⟩
  · rintro ⟨b, hb, rfl, ha⟩
    have hget : cs.getD b 0 = cs[b] := by simp [hb]
    rw [hget] at ha ⊢
    refine ⟨_, List.mem_mapIdx.mpr ⟨b, hb, rfl⟩, ?_⟩
    unfold listEntry
    rw [if_neg hm]
    by_cases hc : cs[b] = 2
    · rw [if_pos hc, if_pos (ha hc), hc]
      rfl
    · rw [if_neg hc]
      rfl

/-- The room of a list does not rest on the step that it is stamped with. -/
theorem listBytes_length_step (es : List Nat) (nb a b : Nat) :
    (Site.listBytes es nb a).length = (Site.listBytes es nb b).length := by
  have h (x y : Nat) : (leBytes 8 x ++ es.flatMap (leBytes 2)).length = (leBytes 8 y ++ es.flatMap (leBytes 2)).length := by
    simp [leBytes]
  unfold Site.listBytes
  dsimp only
  rw [List.length_append (bs := List.replicate _ _), List.length_replicate, h _ (es.length + nb * 2 ^ 16 + b * 2 ^ 32),
    List.length_append (bs := List.replicate _ _), List.length_replicate]

/-- A SELECT that reads its sketch well: its counts change, and its list is written. -/
theorem Site.runSelect_done {y : Site} {k : QWord} {cs : List Nat}
    (hx : (y.sketch (Site.gathA k) (f32 ((y.reg (Reg.gthPredTheta (Site.slotOf k))).setWidth 32))
      (f32 ((y.reg (Reg.gthPredGuard (Site.slotOf k))).setWidth 32)) (wordOpcode k.word) (Site.gathCount k)).x = y)
    (he : (y.sketch (Site.gathA k) (f32 ((y.reg (Reg.gthPredTheta (Site.slotOf k))).setWidth 32))
      (f32 ((y.reg (Reg.gthPredGuard (Site.slotOf k))).setWidth 32)) (wordOpcode k.word) (Site.gathCount k)).err = none)
    (hcs : (y.sketch (Site.gathA k) (f32 ((y.reg (Reg.gthPredTheta (Site.slotOf k))).setWidth 32))
      (f32 ((y.reg (Reg.gthPredGuard (Site.slotOf k))).setWidth 32)) (wordOpcode k.word) (Site.gathCount k)).val.1 = cs) :
    let es := selected (y.predMode (Site.slotOf k)) (fun b => y.predMode (Site.slotOf k) == 0 ||
      decide (draw (drawKey y.seed (y.num Reg.crfStep) (y.n.getD 0) (wfield k.word 31 16)) b < 1024)) cs
    ∃ v, y.runSelect k = ((y.setPredCounts (Site.slotOf k) v).writeBytes (Site.gathDest k)
      (Site.listBytes es cs.length (y.num Reg.crfStep)) (wordOpcode k.word)).gathDone k es.length := by
  intro es
  unfold Site.runSelect
  dsimp only
  rw [he]
  dsimp only
  rw [hx, hcs]
  exact ⟨_, rfl⟩

/-! ### GLEAN (R196) -/

/-- A GLEAN that reads its list and its tiles well. -/
theorem Site.runGlean_done {y : Site} {k : QWord} {es : List Nat} {nb : Nat}
    (hx : (y.readList (Site.gathB k) (wordOpcode k.word)).x = y)
        (he : (y.readList (Site.gathB k) (wordOpcode k.word)).err = none)
    (hes : (y.readList (Site.gathB k) (wordOpcode k.word)).val = (es, nb, none))
    (hgx : (y.gleaned k es (f32 ((y.reg (Reg.gthPredMissEps (Site.slotOf k))).setWidth 32)) es.length).x = y)
    (hge : (y.gleaned k es (f32 ((y.reg (Reg.gthPredMissEps (Site.slotOf k))).setWidth 32)) es.length).err = none) :
    let kept := if y.predMode (Site.slotOf k) = 1 then
      (y.gleaned k es (f32 ((y.reg (Reg.gthPredMissEps (Site.slotOf k))).setWidth 32)) es.length).val.2.1 else es
    ∃ z : Site, z = { y with c := { y.c with pred := z.c.pred } } ∧ y.runGlean k = (z.writeBytes (Site.gathDest k)
      (Site.listBytes kept nb (z.num Reg.crfStep)) (wordOpcode k.word)).gathDone k kept.length := by
  intro kept
  unfold Site.runGlean
  dsimp only
  rw [he, hes, if_neg (by decide)]
  dsimp only
  rw [hx, hge]
  dsimp only
  rw [hgx]
  refine ⟨_, ?_, rfl⟩
  split <;> rfl

/-! ### The rule -/

theorem complete_posts {s : State} {q : Phys} {w : QWord} {n : Nat} (hd : (s.croft q).gathDone = [(w, n)])
    (hq : (s.croft q).gathQ = [])
    (hf : wfield w.word 39 39 = 1 → (queueOf (s.croft q) (wfield w.word 38 37)).length < 16) :
    (s.site q).gatherComplete = { s.site q with c := { (if wfield w.word 39 39 = 1 then
      withQueue (s.croft q) (wfield w.word 38 37) (queueOf (s.croft q) (wfield w.word 38 37) ++ [BitVec.ofNat 32 n]) else
          s.croft q) with
        gathDone := [], feeds := (s.croft q).feeds.filter fun f => f.q.num != w.num } } := by
  have hd' : (s.site q).c.gathDone = [(w, n)] := hd
  have hfull : ¬ (wfield w.word 39 39 = 1 ∧ (s.site q).queueFull (wfield w.word 38 37) = true) := by
    rintro ⟨h1, h2⟩
    exact absurd (of_decide_eq_true h2) (Nat.not_le.2 (hf h1))
  have hc : (s.site q).complete = { s.site q with c := { (if wfield w.word 39 39 = 1 then
      withQueue (s.croft q) (wfield w.word 38 37) (queueOf (s.croft q) (wfield w.word 38 37) ++ [BitVec.ofNat 32 n]) else
          s.croft q) with
        gathDone := [], feeds := (s.croft q).feeds.filter fun f => f.q.num != w.num } } := by
    unfold Site.complete
    rw [hd']
    dsimp only
    rw [if_neg hfull]
    split <;> rfl
  unfold Site.gatherComplete
  dsimp only
  rw [hd', if_neg (by simp), hc, Site.advance_nil]
  split <;> exact hq

section work
variable {s : State} {q : Phys} {w : W128} (h : Issues s q w) (hc : wordClass w = 4) (hq : (s.croft q).gathQ = [])
  (h1 : (s.croft q).feeds = []) (h2 : (s.croft q).gathDone = [])
  (hh : (gathered s q w).held (queued s q w).num (Site.gathReach (queued s q w)) = false)
include h hc hq h1 h2 hh

theorem merge_spec (ho : wordOp w = 2) {ts : List Tile} {f : Nat}
    (hx : ((gatherTaken s q).rowTiles (Site.gathA (queued s q w)) (wordOpcode w) (Site.gathCount (queued s q w))).x =
        gatherTaken s q)
    (he : ((gatherTaken s q).rowTiles (Site.gathA (queued s q w)) (wordOpcode w) (Site.gathCount (queued s q w))).err = none)
    (hts : ((gatherTaken s q).rowTiles (Site.gathA (queued s q w)) (wordOpcode w) (Site.gathCount (queued s q w))).val.1 = ts)
    (hf : (ts.headD {}).fmt = f) (ht : ∀ t ∈ ts, t.fmt = f ∧ t.layout ≠ 2 ∧ t.resid = false) (hf2 : f ≠ 2) (h8 : f ≤ 8)
        (hf1 : f ≠ 1)
    (hca : ((gatherTaken s q).compactAll (queued s q w) ts f
      (BitVec.ofNat 32 (ofLe (Memory.read (s.croft q).mem (Site.gathA (queued s q w) + 8) 4))) (Site.rowBlocks ts 0)
          (Site.rowBlocks ts 1)
      ((max (Site.rowBlocks ts 0).length (Site.rowBlocks ts 1).length + 1) / 2)).err = none) :
    ∃ u, exec (.merge q) s = .next u ∧ OnlyCroft q s u ∧
      (u.croft q).gathDone = [(queued s q w, (max (Site.rowBlocks ts 0).length (Site.rowBlocks ts 1).length + 1) / 2)] ∧
      (u.croft q).gathQ = [] ∧ (u.croft q).seq = past (s.croft q).seq := by
  obtain ⟨z, hz, hm⟩ := Site.runMerge_done (y := gatherTaken s q) (k := queued s q w) hx he hts hf ht hf2 h8 hf1 hca
  have hrun : (s.site q).gatherWord 2 = _ := (gatherWord_works h hc hq 2 ho rfl h1 h2 hh).trans ((if_pos rfl).trans hm)
  obtain ⟨hon, hcr⟩ := OnlyCroft.ofSite (s := s) (q := q) (f := fun x => x.gatherWord 2) hrun
  obtain ⟨hd, hg, hs⟩ := gathDone_left (k := queued s q w)
    (n := (max (Site.rowBlocks ts 0).length (Site.rowBlocks ts 1).length + 1) / 2) hz h2
  refine ⟨_, rfl, hon, ?_⟩
  rw [hcr]
  exact ⟨hd, hg, hs⟩

omit h hc hq h1 hh in
/-- The counts of a word's slot changed and its list written, as the word completes. -/
theorem listed_spec {op : Nat} {z : Site} {n : Nat} {bs : List Byte} {opc : W16}
    (hz : z = { gatherTaken s q with c := { (gatherTaken s q).c with pred := z.c.pred } })
    (hrun : (s.site q).gatherWord op = (z.writeBytes (Site.gathDest (queued s q w)) bs opc).gathDone (queued s q w) n) :
    let u := s.onCroft q fun x => x.gatherWord op
    OnlyCroft q s u ∧ (u.croft q).gathDone = [(queued s q w, n)] ∧ (u.croft q).seq = past (s.croft q).seq ∧
      (Site.gathDest (queued s q w) + bs.length ≤ 0x200000 →
        (u.croft q).mem = Memory.write (s.croft q).mem (Site.gathDest (queued s q w)) bs) := by
  obtain ⟨hon, hcr⟩ := OnlyCroft.ofSite (s := s) (q := q) (f := fun x => x.gatherWord op) hrun
  have hdone : z.c.gathDone = [] := by rw [hz]; exact h2
  have hseq : z.c.seq = past (s.croft q).seq := by rw [hz]; rfl
  have hmem : z.c.mem = (s.croft q).mem := by rw [hz]; rfl
  obtain ⟨hd, -, hs⟩ := gathDone_left (k := queued s q w) (n := n)
    (Worked.writeBytes z (Site.gathDest (queued s q w)) bs opc none) hdone
  refine ⟨hon, ?_⟩
  rw [hcr]
  refine ⟨hd, hs.trans hseq, fun hl => ?_⟩
  exact (mem_writeBytes_scratch z hl opc none).trans (by rw [hmem])

theorem select_spec (ho : wordOp w = 4) {cs : List Nat}
    (hx : ((gatherTaken s q).sketch (Site.gathA (queued s q w))
      (f32 ((regOf (s.croft q) (Reg.gthPredTheta (Site.slotOf (queued s q w)))).setWidth 32))
      (f32 ((regOf (s.croft q) (Reg.gthPredGuard (Site.slotOf (queued s q w)))).setWidth 32)) (wordOpcode w)
      (Site.gathCount (queued s q w))).x = gatherTaken s q)
    (he : ((gatherTaken s q).sketch (Site.gathA (queued s q w))
      (f32 ((regOf (s.croft q) (Reg.gthPredTheta (Site.slotOf (queued s q w)))).setWidth 32))
      (f32 ((regOf (s.croft q) (Reg.gthPredGuard (Site.slotOf (queued s q w)))).setWidth 32)) (wordOpcode w)
      (Site.gathCount (queued s q w))).err = none)
    (hcs : ((gatherTaken s q).sketch (Site.gathA (queued s q w))
      (f32 ((regOf (s.croft q) (Reg.gthPredTheta (Site.slotOf (queued s q w)))).setWidth 32))
      (f32 ((regOf (s.croft q) (Reg.gthPredGuard (Site.slotOf (queued s q w)))).setWidth 32)) (wordOpcode w)
      (Site.gathCount (queued s q w))).val.1 = cs) :
    let es := selected ((s.site q).predMode (Site.slotOf (queued s q w))) (fun b =>
      (s.site q).predMode (Site.slotOf (queued s q w)) == 0 || decide
          (draw (drawKey (s.site q).seed (regOf (s.croft q) Reg.crfStep).toNat
        ((s.logicalOf q).getD 0) (wfield w 31 16)) b < 1024)) cs
    ∃ u, exec (.select q) s = .next u ∧ OnlyCroft q s u ∧ (u.croft q).gathDone = [(queued s q w, es.length)] ∧
      (u.croft q).seq = past (s.croft q).seq ∧
      (Site.gathDest (queued s q w) + (Site.listBytes es cs.length 0).length ≤ 0x200000 →
        (u.croft q).mem = Memory.write (s.croft q).mem (Site.gathDest (queued s q w))
          (Site.listBytes es cs.length (regOf (s.croft q) Reg.crfStep).toNat)) := by
  intro es
  obtain ⟨v, hsel⟩ := Site.runSelect_done (y := gatherTaken s q) (k := queued s q w) hx he hcs
  have hrun := (gatherWord_works h hc hq 4 ho rfl h1 h2 hh).trans ((if_neg (by decide)).trans ((if_pos rfl).trans hsel))
  obtain ⟨hon, hd, hs, hm⟩ := listed_spec h2 (op := 4) rfl hrun
  rw [listBytes_length_step _ _ 0 (regOf (s.croft q) Reg.crfStep).toNat]
  exact ⟨_, rfl, hon, hd, hs, hm⟩

theorem glean_spec (ho : wordOp w = 6) {es : List Nat} {nb : Nat}
    (hx : ((gatherTaken s q).readList (Site.gathB (queued s q w)) (wordOpcode w)).x = gatherTaken s q)
    (he : ((gatherTaken s q).readList (Site.gathB (queued s q w)) (wordOpcode w)).err = none)
    (hes : ((gatherTaken s q).readList (Site.gathB (queued s q w)) (wordOpcode w)).val = (es, nb, none))
    (hgx : ((gatherTaken s q).gleaned (queued s q w) es
      (f32 ((regOf (s.croft q) (Reg.gthPredMissEps (Site.slotOf (queued s q w)))).setWidth 32)) es.length).x = gatherTaken s q)
    (hge : ((gatherTaken s q).gleaned (queued s q w) es
      (f32 ((regOf (s.croft q) (Reg.gthPredMissEps (Site.slotOf (queued s q w)))).setWidth 32)) es.length).err = none) :
    let kept := if (s.site q).predMode (Site.slotOf (queued s q w)) = 1 then ((gatherTaken s q).gleaned (queued s q w) es
      (f32 ((regOf (s.croft q) (Reg.gthPredMissEps (Site.slotOf (queued s q w)))).setWidth 32)) es.length).val.2.1 else es
    ∃ u, exec (.glean q) s = .next u ∧ OnlyCroft q s u ∧ (u.croft q).gathDone = [(queued s q w, kept.length)] ∧
      (u.croft q).seq = past (s.croft q).seq ∧
      (Site.gathDest (queued s q w) + (Site.listBytes kept nb 0).length ≤ 0x200000 →
        (u.croft q).mem = Memory.write (s.croft q).mem (Site.gathDest (queued s q w))
          (Site.listBytes kept nb (regOf (s.croft q) Reg.crfStep).toNat)) := by
  intro kept
  obtain ⟨z, hz, hgl⟩ := Site.runGlean_done (y := gatherTaken s q) (k := queued s q w) hx he hes hgx hge
  have hrun := (gatherWord_works h hc hq 6 ho rfl h1 h2 hh).trans ((if_neg (by decide)).trans ((if_neg (by decide)).trans hgl))
  obtain ⟨hon, hd, hs, hm⟩ := listed_spec h2 (op := 6) hz hrun
  have hstep : z.num Reg.crfStep = (regOf (s.croft q) Reg.crfStep).toNat := by rw [hz]; rfl
  rw [hstep] at hm
  rw [listBytes_length_step _ _ 0 (regOf (s.croft q) Reg.crfStep).toNat]
  exact ⟨_, rfl, hon, hd, hs, hm⟩

end work

/-- Settles O33: what a word does as it issues is the engine's one advance; MERGE's tiles, SELECT's entries and GLEAN's kept
entries are what their readers give, and only what is written follows. -/
theorem gatherWordsQueueAndWork : Obligations.GatherWordsQueueAndWork := by
  unfold Obligations.GatherWordsQueueAndWork
  refine ⟨fun q s => ⟨fun w h hc hq i hi => ?_, fun w h hc hq hb i hi => ?_, fun w n hd hq hf => ?_⟩, fun q s w h hc => ?_⟩
  · obtain ⟨ho, rfl⟩ | ⟨ho, rfl⟩ | ⟨ho, rfl⟩ := hi
    · exact State.onCroft_next (gatherWord_feeds h hc hq 1 ho rfl)
    · exact State.onCroft_next (gatherWord_feeds h hc hq 3 ho rfl)
    · exact State.onCroft_next (gatherWord_feeds h hc hq 5 ho rfl)
  · obtain ⟨ho, rfl⟩ | ⟨ho, rfl⟩ | ⟨ho, rfl⟩ := hi
    · exact State.onCroft_next (gatherWord_waits h hc hq 2 ho rfl hb)
    · exact State.onCroft_next (gatherWord_waits h hc hq 4 ho rfl hb)
    · exact State.onCroft_next (gatherWord_waits h hc hq 6 ho rfl hb)
  · exact State.onCroft_next (complete_posts hd hq hf)
  · intro c k y opc hq h1 h2 hh
    refine ⟨fun ho => ?_, fun ho => ?_, fun ho => ?_⟩
    · intro r f l0 l1 n hx he ht hf2 h8 hf1 hca
      exact merge_spec h hc hq h1 h2 hh ho hx he rfl rfl ht hf2 h8 hf1 hca
    · intro slot mode r key audited hx he
      obtain ⟨u, hu, hon, hd, hs, hm⟩ := select_spec h hc hq h1 h2 hh ho hx he rfl
      refine ⟨u, _, hu, hon, hd, hs, fun hmode => ?_, fun hmode e => ?_, hm⟩
      · rw [show (s.site q).predMode (Site.slotOf (queued s q w)) = 2 from hmode]
        exact selected_all _ _
      · refine (mem_selected hmode _ _ _).trans (exists_congr fun b => and_congr_right fun _ => and_congr_right fun _ => ?_)
        rw [Bool.or_eq_true, beq_iff_eq, decide_eq_true_iff]
        exact Iff.rfl
    · intro slot mode l r kept hx he hw hgx hge
      exact glean_spec h hc hq h1 h2 hh ho hx he (Prod.ext rfl (Prod.ext rfl hw)) hgx hge

end Sys2Proof.Machine

namespace Sys2Proof.Machine
open Sys2Proof.Safety

/-! ### What leaves the stewards as they are -/

/-- Steps of a fold that leave a part of the state leave it together. -/
theorem foldl_same {α σ β : Type} (g : σ → β) {f : σ → α → σ} (hf : ∀ s a, g (f s a) = g s) (l : List α) (s : σ) :
    g (l.foldl f s) = g s := by
  induction l generalizing s with
  | nil => rfl
  | cons a l ih => exact (ih (f s a)).trans (hf s a)

theorem State.asOne_stewards (s : State) (f : State → State) : (s.asOne f).stewards = (f s).stewards := by
  unfold State.asOne
  dsimp only
  split
  · rfl
  · split
    · split <;> rfl
    · rfl

theorem acknowledge_stewards (s : State) (a : SenderHeld) : (s.acknowledge a).stewards = s.stewards := by
  cases a with
  | msg m =>
    unfold State.acknowledge State.takeAnyMsg
    dsimp only
    split <;> rfl
  | report r => rfl
  | summary h m => rfl

theorem discardStep_stewards (s : State) (e : Nat × W32) : (s.discardStep e).stewards = s.stewards := by
  rw [State.discardStep_frame]

theorem abortHolding_stewards (s : State) (h : Nat) : (s.abortHolding h).stewards = s.stewards := by
  rw [State.abortHolding_frame]

/-- The actions of a record without a core's store. -/
theorem perform_stewards (s : State) {d : Shadow} (hc : d.cores = []) : (s.perform d).stewards = s.stewards := by
  unfold State.perform
  rw [hc]
  dsimp only [List.foldl_nil]
  refine (foldl_same State.stewards discardStep_stewards _ _).trans ?_
  refine (foldl_same State.stewards (fun s h => abortHolding_stewards s h) _ _).trans ?_
  refine (foldl_same State.stewards acknowledge_stewards _ _).trans ?_
  exact foldl_same (f := fun (t : State) (m : Nat × Nat × Nat × Msg) => t.modGate m.1 fun g => g.post m.2.1 m.2.2.1 16 m.2.2.2)
    State.stewards (fun _ _ => rfl) d.msgs (s.emit d.release)

theorem waitFor_stewards (s : State) {d : Shadow} (hc : d.cores = []) : (s.waitFor d).stewards = s.stewards := by
  unfold State.waitFor
  split
  · rfl
  · exact perform_stewards s hc

theorem publish_stewards (s : State) (ks : List Packet) (ms : List (Nat × Nat × Nat × Msg)) : (s.publish ks ms).stewards =
    s.stewards :=
  waitFor_stewards s rfl

theorem sendNorm_stewards (s : State) (h : Nat) (b : Bool) (v : W64) : (s.sendNorm h b v).stewards = s.stewards := by
  unfold State.sendNorm
  dsimp only
  split
  · rfl
  · exact publish_stewards ..

theorem startRestore_stewards (s : State) (h : Nat) : (s.startRestore h).stewards = s.stewards :=
  (waitFor_stewards _ rfl).trans ((publish_stewards ..).trans (State.setStc_stewards ..))

theorem replayNow_stewards (s : State) (h : Nat) (wide notice counted : Bool) :
    (s.replayNow h wide notice counted).stewards = s.stewards := by
  unfold State.replayNow
  extract_lets c again
  split
  · exact (State.raise_stewards ..).trans ((State.setStc_stewards ..).trans (State.setStc_stewards ..))
  · refine (startRestore_stewards _ h).trans ((State.setStc_stewards ..).trans ?_)
    change (if wide && !notice then s.sendNorm h true 0x7FF8000000000000 else s).stewards = s.stewards
    split
    · exact sendNorm_stewards ..
    · rfl

theorem replay_stewards (s : State) (h : Nat) (ask : ReplayAsk) : (s.replay h ask).stewards = s.stewards := by
  unfold State.replay
  extract_lets c
  split
  · exact replayNow_stewards ..
  · rfl

theorem abandon_stewards (s : State) (h : Nat) : (s.abandon h).stewards = s.stewards := by
  unfold State.abandon
  extract_lets c c'
  split
  · rfl
  · split
    · exact State.setStc_stewards ..
    · exact (publish_stewards ..).trans (State.setStc_stewards ..)

/-! ### An event at the fault controller -/

theorem eventTaken_cases (s : State) (r : Report) : ∃ v,
    eventTaken s r = s.setFlt Reg.fltEvents v ∨
      ∃ l, eventTaken s r = (s.setFlt Reg.fltEvents v).setFaults { (s.setFlt Reg.fltEvents v).faults with causes := l } := by
  refine ⟨BitVec.ofNat 64 (satAdd (s.num Reg.fltEvents) 1), ?_⟩
  unfold eventTaken
  extract_lets key t
  split
  · exact .inr ⟨_, rfl⟩
  · exact .inl rfl

/-- What an event that is taken leaves as it was: the register file but FLT_EVENTS, the records, and all that lies outside the
fault controller. -/
theorem eventTaken_kept (s : State) (r : Report) :
    (eventTaken s r).stewards = s.stewards ∧ (∀ d, (eventTaken s r).openRecord d = s.openRecord d) ∧
      (∀ h, (eventTaken s r).stc h = s.stc h) ∧ (∀ c, (eventTaken s r).classOf c = s.classOf c) ∧
      (eventTaken s r).faults = { s.faults with causes := (eventTaken s r).faults.causes } := by
  obtain ⟨v, h | ⟨l, h⟩⟩ := eventTaken_cases s r <;> rw [h]
  · refine ⟨State.setFlt_stewards .., fun d => State.openRecord_setFlt .., fun h => ?_, fun c => State.classOf_setFlt s v c, ?_⟩
    · simp
    · rw [State.setFlt_faults]
  · refine ⟨by simp, fun d => ?_, fun h => by simp, fun c => ?_, ?_⟩
    · unfold State.openRecord
      rw [State.setFaults_faults, State.setFlt_faults]
    · refine Eq.trans ?_ (State.classOf_setFlt s v c)
      unfold State.classOf
      simp
    · rw [State.setFaults_faults, State.setFlt_faults]

theorem eventTaken_class (s : State) (d : Nat) (r r' : Report) : (eventTaken s r).eventClass d r' = s.eventClass d r' := by
  unfold State.eventClass
  rw [(eventTaken_kept s r).2.2.1]

/-- What an event comes to, by what its class makes of it. -/
theorem event_takes {s u : State} {r : Report} {n : Option Nat} (ht : (eventTaken s r).takes r = (u, n)) :
    s.event r false = n.elim u fun sev => u.act (s.domainOf r) sev r := by
  have h : (let t := s.setFlt Reg.fltEvents (BitVec.ofNat 64 (satAdd (s.num Reg.fltEvents) 1))
      if State.lasting r.source && !false && !t.faults.causes.contains (s.domainOf r, r.source, r.loc) then
        t.modFaults fun f => { f with causes := f.causes ++ [(s.domainOf r, r.source, r.loc)] } else t) = eventTaken s r := by
    unfold eventTaken State.modFaults
    simp [State.setFlt_faults]
  unfold State.event
  dsimp only at h ⊢
  rw [h, ht]
  cases n with
  | none => dsimp only [Option.elim_none]
  | some sev => dsimp only [Option.elim_some]

/-- An event in a domain with an open record merges into it. -/
theorem State.record_merged {s : State} {d : Nat} {o : Record} (sev : Nat) (cls : Bool) (r : Report)
    (ho : s.openRecord d = some o) : s.record d sev cls false r =
      if o.severity < (merged o sev false r).severity then logged (withRecord s d (merged o sev false r)) (merged o sev false r)
      else withDirty (withRecord s d (merged o sev false r)) d := by
  unfold State.record
  rw [ho]
  refine ite_congr rfl (fun _ => rfl) fun _ => ?_
  unfold withDirty State.modFaults
  simp only [List.contains_iff_mem]
  rfl

theorem withRecord_stewards (s : State) (d : Nat) (m : Record) : (withRecord s d m).stewards = s.stewards :=
  State.setFaults_stewards ..

theorem record_stewards (s : State) (d sev : Nat) (cls : Bool) (r : Report) : (s.record d sev cls false r).stewards = s.stewards
    := by
  cases ho : s.openRecord d with
  | none => rw [State.record_opened _ _ _ _ ho, recordOpened_stewards]
  | some o =>
    rw [State.record_merged _ _ _ ho]
    split
    · exact withRecord_stewards ..
    · exact (State.setFaults_stewards ..).trans (withRecord_stewards ..)

theorem rung_stewards (s : State) : (rung s).stewards = s.stewards := by
  unfold rung
  split
  · rfl
  · exact (State.setFaults_stewards ..).trans (State.setFlt_stewards ..)

section act
variable {s : State} {d : Nat} {r : Report} (hperm : bit (s.classOf r.source) 29 = false)
include hperm

theorem State.act_nothing {n : Nat} (hiso : bit (s.classOf r.source) 30 = false)
    (hn : n = 0 ∨ n = 1 ∧ s.stepResponse d (s.eventClass d r) = .nothing) :
    s.act d n r = s.record d n (s.eventClass d r) false r := by
  obtain rfl | ⟨rfl, hr⟩ := hn
  · unfold State.act
    simp [hperm]
  · unfold State.act
    simp [hperm, hiso, hr]

theorem State.act_replays (hiso : bit (s.classOf r.source) 30 = false) (hr : s.stepResponse d (s.eventClass d r) = .replay) :
    s.act d 1 r = (s.record d 1 (s.eventClass d r) false r).replay d .faults := by
  unfold State.act
  simp [hperm, hiso, hr]

theorem State.act_halts {n : Nat} (hiso : bit (s.classOf r.source) 30 = false) (hd : d < 16)
    (hn : n = 2 ∨ n = 1 ∧ s.stepResponse d (s.eventClass d r) = .halt) :
    s.act d n r = (rung (s.record d 2 (s.eventClass d r) false r)).abandon d := by
  obtain rfl | ⟨rfl, hr⟩ := hn
  · unfold State.act State.haltDomain
    simp [hperm, hiso, hd]
    rfl
  · unfold State.act State.haltDomain
    simp [hperm, hiso, hr, hd]
    rfl

theorem State.act_isolates (hiso : bit (s.classOf r.source) 30 = true) (hr : s.stepResponse d (s.eventClass d r) = .nothing) :
    s.act d 1 r = ((s.record d 1 (s.eventClass d r) false r).waitFor { num := 0, isolate := [r.loc] }).settle := by
  unfold State.act
  simp [hperm, hiso, hr]

end act

theorem State.stepResponse_nothing {s : State} {d : Nat} (cls : Bool) (h : 16 ≤ d ∨ (s.stc d).stepOpen = false) :
    s.stepResponse d cls = .nothing :=
  if_pos (h.imp_right fun h => by rw [h]; rfl)

/-- The step of holding h may still be replayed: it has handed no update over. -/
def Stc.Early (c : Stc) : Prop := c.st = .opening ∨ c.st = .work ∨ c.st = .restoring ∨ c.st = .combine ∧ c.handed = false

theorem Stc.early_open {c : Stc} (h : c.Early) : c.stepOpen = true := by
  obtain h | h | h | ⟨h, -⟩ := h <;> simp [Stc.stepOpen, h]

theorem State.stepResponse_replay {s : State} {d : Nat} (hd : d < 16) (h : (s.stc d).Early) :
    s.stepResponse d false = .replay := by
  unfold State.stepResponse
  dsimp only
  rw [if_neg (by simp [Stc.early_open h, hd])]
  exact if_pos (by simpa [Stc.Early, or_assoc] using h)

theorem State.stepResponse_halt {s : State} {d : Nat} {cls : Bool} (hd : d < 16) (h : (s.stc d).stepOpen = true)
    (hl : cls = true ∨ ¬ (s.stc d).Early) : s.stepResponse d cls = .halt := by
  unfold State.stepResponse
  dsimp only
  rw [if_neg (by simp [h, hd])]
  refine if_neg fun hb => hl.elim (fun hc => ?_) fun he => he ?_
  · simp [hc] at hb
  · simp only [Bool.and_eq_true, Bool.or_eq_true, decide_eq_true_eq, Bool.not_eq_true'] at hb
    simpa [Stc.Early, or_assoc] using hb.2

/-! #### A report that is taken -/

theorem accept_heard (w : State) (r : Report) : w.accept (.report r) = heard w r := by
  unfold heard
  split
  · next i hs => exact State.waitFor_sent _ _ hs
  · next hs => exact State.accept_alone _ _ hs

theorem heard_stewards (w : State) (r : Report) : (heard w r).stewards = w.stewards := by
  unfold heard
  split <;> rfl

theorem execFaultReport_ignored {s : State} {r : Report}
    (h : s.active = none ∨ sourceNamed r.source = false ∨ ∃ e ∈ s.shadows, SenderHeld.report r ∈ e.acks) :
    exec (.faultReport r) s = .next s := by
  have hf : s.faultReport r = s := by
    refine if_pos ?_
    simpa [State.reportTaken] using or_assoc.mpr h
  change Host.Outcome.next (State.resume s (s.faultReport r)) = _
  rw [hf, State.resume_same rfl]

section taken
variable {s : State} {r : Report} (ha : s.active.isSome = true) (hn : sourceNamed r.source = true)
  (hr : ∀ e ∈ s.shadows, SenderHeld.report r ∉ e.acks)
include ha hn hr

/-- A report that is taken acts as its event does, and its reporter is told. -/
theorem State.faultReport_taken : s.faultReport r = s.asOne fun _ => heard (s.event r false) r := by
  refine (if_neg ?_).trans (State.asOne_congr (accept_heard _ _))
  simpa [hn, State.reportTaken] using ⟨Option.isSome_iff_ne_none.mp ha, hr⟩

theorem execFaultReport_taken {w : State} (he : s.event r false = w) (hw : w.stewards = s.stewards) :
    exec (.faultReport r) s = .next (s.asOne fun _ => heard w r) := by
  change Host.Outcome.next (State.resume s (s.faultReport r)) = _
  rw [State.faultReport_taken ha hn hr, he,
    State.resume_same ((State.asOne_stewards ..).trans ((heard_stewards w r).trans hw))]

end taken

/-- An event whose source does not tally acts at once, with the severity of its class. -/
theorem State.event_acts {s : State} {r : Report} (ht : bit (s.classOf r.source) 31 = false) : s.event r false =
    (eventTaken s r).act (s.domainOf r) (fld (s.classOf r.source) 25 24) r := by
  have hc := (eventTaken_kept s r).2.2.2.1 r.source
  exact event_takes (State.takes_untallied (hc ▸ ht) (by rw [hc]))

/-! #### Tally slots -/

section tally
variable {s : State} {r : Report} (ht : bit (s.classOf r.source) 31 = true)
include ht

theorem State.takes_opens (hno : ∀ x ∈ s.faults.slots, ¬ (x.source = r.source ∧ x.loc = r.loc))
    (hn : 1 < max 1 (fld (s.classOf r.source) 23 16)) (hl : s.faults.slots.length < 4096) : s.takes r =
      (s.setFaults { s.faults with slots := s.faults.slots ++ [{ source := r.source, loc := r.loc, count := 1 }] }, none) := by
  have hf : (s.faults.slots.find? fun t => t.source = r.source && t.loc = r.loc) = none :=
    List.find?_eq_none.mpr fun x hx => by simpa using hno x hx
  unfold State.takes
  dsimp only
  rw [if_neg (by rw [ht]; decide), hf]
  exact if_neg (by omega)

theorem State.takes_counts {a b : List TallySlot} {x : TallySlot} (hs : s.faults.slots = a ++ x :: b)
    (hx : x.source = r.source ∧ x.loc = r.loc) (hab : ∀ y ∈ a ++ b, ¬ (y.source = r.source ∧ y.loc = r.loc))
    (hn : x.count + 1 < max 1 (fld (s.classOf r.source) 23 16)) : s.takes r =
      (s.setFaults { s.faults with slots := a ++ { x with count := x.count + 1 } :: b }, none) := by
  have hf : (s.faults.slots.find? fun t => t.source = r.source && t.loc = r.loc) = some x := by
    rw [hs, List.find?_append, List.find?_eq_none.mpr fun y hy => by simpa using hab y (List.mem_append_left _ hy)]
    simp [hx]
  have hother (l : List TallySlot) (hl : ∀ y ∈ l, y ∈ a ++ b) :
      l.map (fun u => if u = x then { x with count := x.count + 1 } else u) = l :=
    (List.map_congr_left (g := id) fun y hy => if_neg fun he : y = x => hab y (hl y hy) (he ▸ hx)).trans l.map_id
  unfold State.takes
  dsimp only
  rw [if_neg (by rw [ht]; decide), hf]
  refine (if_neg (Nat.not_le.mpr hn)).trans ?_
  rw [hs, List.map_append, List.map_cons, hother a fun y => List.mem_append_left _, hother b fun y => List.mem_append_right _,
    if_pos rfl]

end tally

/-! #### Isolation -/

/-- A croft that the fault handling holds out of service. -/
def CroftOut (c : Croft) : Prop := bit (regOf c Reg.crfCtrl) 0 = true ∧ c.faultFence = true ∧ UnitsIdle c

theorem croftOut_fencedTo {c : Croft} (h : c.faultFence = true) : CroftOut (fencedTo c) :=
  ⟨(fencedTo_fenced c).1, h, (fencedTo_fenced c).2.1⟩

/-- A switch of rows changes its parish, and fences the crofts that it leaves without a number. -/
theorem State.switchRows_eq (s : State) (p : Nat) (l : List (Nat × Nat)) : ∃ v qs, qs.Nodup ∧
    s.switchRows p l = (s.setParish p v).eachCroft qs fun q => unbacked (s.logicalOf q) true := by
  unfold State.switchRows
  extract_lets before v u
  exact ⟨_, _, (State.croftsOf_nodup p).filter _, State.foldl_unbacked before true _ u⟩

theorem State.switchRows_frame (s : State) (p : Nat) (l : List (Nat × Nat)) :
    s.switchRows p l = { s with crofts := (s.switchRows p l).crofts, parishes := (s.switchRows p l).parishes } := by
  obtain ⟨v, qs, -, h⟩ := s.switchRows_eq p l
  rw [h]
  exact (State.eachCroft_frame _ qs _).trans (by rw [State.eachCroft_frame]; rfl)

theorem State.writeMapout_out {s : State} {q : Nat} (hn : (s.parish (State.parOf q)).net = true) :
    s.writeMapout (State.parOf q) (BitVec.ofNat 32 (q % 500 / 25 + q % 25 * 2 ^ 5)) =
      if 16 ≤ s.owner (State.parOf q) then
        s.switchRows (State.parOf q) ((s.parish (State.parOf q)).mapouts ++ [(q % 500 / 25, q % 25)])
      else s.setParish (State.parOf q) { s.parish (State.parOf q) with
        mapouts := (s.parish (State.parOf q)).mapouts ++ [(q % 500 / 25, q % 25)] } := by
  obtain ⟨hr, hc⟩ := bitsOf_mapout (r := q % 500 / 25) (c := q % 25) (by omega) (by omega)
  unfold State.writeMapout
  rw [fld_setWidth, fld_setWidth, hr, hc]
  exact if_neg (by simp [hn]; omega)

/-- A row that switches for a failed croft has no number for it any more. -/
theorem State.switchRows_out (s : State) (q : Nat) (l : List (Nat × Nat)) :
    (s.switchRows (State.parOf q) (l ++ [(q % 500 / 25, q % 25)])).logicalOf q = none := by
  obtain ⟨-, -, -, -, hmap, -⟩ := s.switchRows_spec (State.parOf q) (l ++ [(q % 500 / 25, q % 25)]) true
  refine State.logicalOf_out ?_
  rw [hmap, List.filter_append, List.foldl_append]
  simp only [List.filter_cons, beq_self_eq_true, if_true, List.filter_nil, List.foldl_cons, List.foldl_nil]
  exact mapOutRow_out _ _ (by omega)

/-- A croft out of service stays out as its row switches. -/
theorem State.switchRows_croftOut {s : State} {q : Nat} (h : CroftOut (s.croft q)) (p : Nat) (l : List (Nat × Nat)) :
    CroftOut ((s.switchRows p l).croft q) := by
  obtain ⟨v, qs, hd, he⟩ := s.switchRows_eq p l
  rw [he]
  by_cases hq : q ∈ qs
  · rw [State.croft_eachCroft_mem _ qs hd hq]
    exact croftOut_fencedTo (c := s.croft q) h.2.1
  · rw [State.croft_eachCroft_not_mem _ qs hq]
    exact h

/-- The isolation of a croft fences it and maps it out: at once where no holding owns its parish, and at a boundary where one does
(R389). -/
theorem State.isolateCroft_spec {s : State} {q : Nat} (hn : (s.parish (State.parOf q)).net = true) :
    s.isolateCroft q = { s with crofts := (s.isolateCroft q).crofts, parishes := (s.isolateCroft q).parishes } ∧
      CroftOut ((s.isolateCroft q).croft q) ∧
      (16 ≤ s.owner (State.parOf q) → (s.isolateCroft q).logicalOf q = none) ∧
      (s.owner (State.parOf q) < 16 → ((s.isolateCroft q).parish (State.parOf q)).mapouts =
        (s.parish (State.parOf q)).mapouts ++ [(q % 500 / 25, q % 25)]) := by
  have hf : (s.onCroft q fun x => { x.fence with c := { x.fence.c with faultFence := true } }) =
      s.setCroft q { fencedTo (s.croft q) with faultFence := true } := State.onCroft_eq s q _ rfl rfl rfl
  have hc : CroftOut ((s.setCroft q { fencedTo (s.croft q) with faultFence := true }).croft q) := by
    rw [State.croft_setCroft_same]
    exact ⟨(fencedTo_fenced (s.croft q)).1, rfl, (fencedTo_fenced (s.croft q)).2.1⟩
  unfold State.isolateCroft
  dsimp only
  rw [hf]
  generalize hu : s.setCroft q { fencedTo (s.croft q) with faultFence := true } = u at hc ⊢
  have hus : u = { s with crofts := u.crofts } := by rw [← hu]; rfl
  have hp (p : Nat) : u.parish p = s.parish p := by rw [← hu]; rfl
  have ho (p : Nat) : u.owner p = s.owner p := by rw [← hu]; rfl
  rw [State.writeMapout_out (s := u) (by rw [hp, hn]), ho, hp]
  by_cases h : 16 ≤ s.owner (State.parOf q)
  · rw [if_pos h]
    refine ⟨?_, State.switchRows_croftOut hc _ _, fun _ => State.switchRows_out .., fun h' => absurd h' (by omega)⟩
    rw [State.switchRows_frame, hus]
  · rw [if_neg h]
    refine ⟨?_, hc, fun h' => absurd h' h, fun _ => ?_⟩
    · rw [hus]
      rfl
    · rw [State.parish_setParish_same]

/-! #### The partner's record of an event -/

/-- From state s the fault controller's registers and records have changed, each change with a shadow record where there is a
STANDBY partner, and nothing has been asked of another unit. -/
def Noted (s t : State) : Prop :=
  t.stewards = s.stewards ∧ t.crofts = s.crofts ∧ t.parishes = s.parishes ∧ (∀ o, o ≠ Reg.fltEvents → t.reg o = s.reg o) ∧
    t.reports = s.reports ∧ t.toIsolate = s.toIsolate ∧
    ∃ ds, t.shadows = s.shadows ++ ds ∧ t.shadowNum = s.shadowNum + ds.length ∧ (∀ d ∈ ds, d.isolate = [] ∧ d.acks = []) ∧
      ∀ d ∈ ds.head?, d.num = s.shadowNum

theorem Noted.trans {s t u : State} (h : Noted s t) (k : Noted t u) : Noted s u := by
  obtain ⟨h1, h2, h3, h4, h5, h6, ds, hs, hn, hi, hd⟩ := h
  obtain ⟨k1, k2, k3, k4, k5, k6, es, ks, kn, ki, kd⟩ := k
  refine ⟨k1.trans h1, k2.trans h2, k3.trans h3, fun o ho => (k4 o ho).trans (h4 o ho), k5.trans h5, k6.trans h6, ds ++ es, ?_, ?_, ?_, ?_⟩
  · rw [ks, hs, List.append_assoc]
  · rw [kn, hn, List.length_append, Nat.add_assoc]
  · exact fun d hm => (List.mem_append.mp hm).elim (hi d) (ki d)
  · cases ds with
    | nil => exact fun d hm => (kd d hm).trans hn
    | cons e ds => exact hd

theorem noted_shadow (s : State) (c : Change) : Noted s (s.shadow c) := by
  unfold State.shadow
  split
  · exact ⟨rfl, rfl, rfl, fun _ _ => rfl, rfl, rfl, [_], rfl, rfl, by simp, by simp⟩
  · exact ⟨rfl, rfl, rfl, fun _ _ => rfl, rfl, rfl, [], by simp, rfl, by simp, by simp⟩

theorem noted_setFlt (s : State) (v : W64) : Noted s (s.setFlt Reg.fltEvents v) := by
  obtain ⟨h1, h2, h3, -, h5, h6⟩ := noted_shadow (s.setReg Reg.fltEvents v) (.flt Reg.fltEvents v)
  exact ⟨h1, h2, h3, fun o ho => State.reg_setFlt_ne s v ho, h5, h6⟩

theorem noted_setFaults (s : State) (f : FaultCtl) : Noted s (s.setFaults f) := noted_shadow { s with faults := f } _

theorem noted_eventTaken (s : State) (r : Report) : Noted s (eventTaken s r) := by
  obtain ⟨v, h | ⟨l, h⟩⟩ := eventTaken_cases s r <;> rw [h]
  · exact noted_setFlt ..
  · exact (noted_setFlt ..).trans (noted_setFaults ..)

theorem noted_recordOpened (s : State) (d sev : Nat) (cls : Bool) (r : Report) : Noted s (recordOpened s d sev cls false r) :=
  (noted_setFaults s _).trans (noted_setFaults (logged (withRecord s d _) _) _)

/-- Records that say nothing of isolation and tell no sender leave a joined record's word on both as it is. -/
theorem foldl_join_spec (ds : List Shadow) (d : Shadow) : (ds.foldl Shadow.join d).num = d.num ∧
    (ds.foldl Shadow.join d).isolate = d.isolate ++ (ds.map (·.isolate)).flatten ∧
    (ds.foldl Shadow.join d).acks = d.acks ++ (ds.map (·.acks)).flatten := by
  induction ds generalizing d with
  | nil => simp
  | cons e ds ih =>
    obtain ⟨h1, h2, h3⟩ := ih (d.join e)
    exact ⟨h1, h2.trans (by simp [Shadow.join]), h3.trans (by simp [Shadow.join])⟩

/-- Several records of one input go to the partner as one, under the number of the first. -/
theorem State.asOne_joined {s : State} {f : State → State} {d e : Shadow} {ds : List Shadow} (hs : s.standby.isSome = true)
    (hf : (f s).shadows = s.shadows ++ d :: e :: ds) : ∃ n ks, s.asOne f =
      { f s with shadows := s.shadows ++ [(e :: ds).foldl Shadow.join d], shadowNum := n, outq := ks } := by
  have hn : ¬ s.standby.isNone = true := by
    rw [Option.isNone_iff_eq_none]
    exact Option.isSome_iff_ne_none.mp hs
  unfold State.asOne
  dsimp only
  rw [if_neg hn, hf, List.drop_left, List.take_left]
  exact ⟨_, _, if_pos rfl⟩

/-- An isolation and the word to a sender that follow such records go with them as one. -/
theorem Noted.joined {s t : State} (h : Noted s t) {i : Nat} (hs : s.standby = some i) (loc : W32) (a : SenderHeld) :
    ∃ u e, (s.asOne fun _ => shadowed (shadowed t i { num := 0, isolate := [loc] }) i { num := 0, acks := [a] }) = u ∧
      u.crofts = s.crofts ∧ u.parishes = s.parishes ∧ u.reports = s.reports ∧ u.shadows = s.shadows ++ [e] ∧
      e.isolate = [loc] ∧ e.acks = [a] ∧ e.num = s.shadowNum := by
  obtain ⟨-, h2, h3, -, h5, -, ds, hsh, hn, hi, hd⟩ := h
  have hiso : (ds.map (·.isolate)).flatten = [] := by simpa using fun d hm => (hi d hm).1
  have hack : (ds.map (·.acks)).flatten = [] := by simpa using fun d hm => (hi d hm).2
  obtain ⟨l, hl⟩ : ∃ l, l = ds ++ [{ num := t.shadowNum, isolate := [loc] }, { num := t.shadowNum + 1, acks := [a] }] := ⟨_, rfl⟩
  have hall : (shadowed (shadowed t i { num := 0, isolate := [loc] }) i { num := 0, acks := [a] }).shadows = s.shadows ++ l := by
    change (t.shadows ++ [_]) ++ [_] = _
    rw [hsh, hl, List.append_assoc, List.append_assoc]
    rfl
  have hnum : ∀ d ∈ l.head?, d.num = s.shadowNum := by
    rw [hl]
    cases ds with
    | nil => simpa using hn
    | cons d ds => exact hd
  have hli : (l.map (·.isolate)).flatten = [loc] := by rw [hl]; simp [hiso]
  have hla : (l.map (·.acks)).flatten = [a] := by rw [hl]; simp [hack]
  match l, congrArg List.length hl, hall, hnum, hli, hla with
  | d :: e :: es, _, hall, hnum, hli, hla =>
    obtain ⟨n, ks, he⟩ := State.asOne_joined (f := fun _ => _) (by rw [hs]; rfl) hall
    obtain ⟨k1, k2, k3⟩ := foldl_join_spec (e :: es) d
    exact ⟨_, _, he, h2, h3, h5, rfl, k2.trans hli, k3.trans hla, k1.trans (hnum d rfl)⟩
  | [], hlen, _, _, _, _ => simp at hlen
  | [_], hlen, _, _, _, _ => simp at hlen

/-! #### A croft's isolation -/

theorem State.settle_nothing {s : State} (h : s.toIsolate = []) : s.settle = s := if_pos (by rw [h]; rfl)

/-- The isolation of one croft, which brings on no other. -/
theorem State.settle_croft {s : State} {loc : W32} (hq : loc.toNat < 28000) (h : s.toIsolate = [])
    (hn : (s.parish (State.parOf loc.toNat)).net = true) :
    ({ s with toIsolate := [loc] } : State).settle = s.isolateCroft loc.toNat := by
  have h0 : ({ s with toIsolate := [] } : State) = s := by rw [← h]
  have hk : State.locKind loc = 0 := Nat.div_eq_of_lt (by omega)
  have hi : State.locIndex loc = loc.toNat := Nat.mod_eq_of_lt (by omega)
  have hl : s.isolateLoc loc = s.isolateCroft loc.toNat := by
    unfold State.isolateLoc
    rw [hk, hi]
    exact if_pos hq
  have hdone : (s.isolateCroft loc.toNat).toIsolate = [] := by
    rw [(State.isolateCroft_spec hn).1]
    exact h
  have h1 : ({ s with toIsolate := [loc] } : State).settle = State.isolateDue 2 (({ s with toIsolate := [] } : State).isolateLoc loc) := rfl
  rw [h1, h0, hl]
  exact if_pos (by rw [hdone]; rfl)

theorem State.waitFor_isolates {s : State} (hs : s.standby = none) (h : s.toIsolate = []) (loc : W32) :
    s.waitFor { num := 0, isolate := [loc] } = { s with toIsolate := [loc] } := by
  unfold State.waitFor State.perform
  rw [hs]
  refine (if_neg (by decide)).trans ?_
  dsimp only [List.foldl_nil]
  rw [State.emit_nil, h]
  rfl

section obligation
variable {s : State} {r : Report} (ha : s.active.isSome = true) (hn : sourceNamed r.source = true)
  (hr : ∀ e ∈ s.shadows, SenderHeld.report r ∉ e.acks)

/-- What the fault controller has done once it has taken an event. -/
theorem eventTaken_response (s : State) (d d' : Nat) (r : Report) :
    (eventTaken s r).stepResponse d ((eventTaken s r).eventClass d' r) = s.stepResponse d (s.eventClass d' r) := by
  rw [eventTaken_class]
  unfold State.stepResponse
  rw [(eventTaken_kept s r).2.2.1]

section plain
variable (ht : bit (s.classOf r.source) 31 = false) (hi : bit (s.classOf r.source) 30 = false)
  (hp : bit (s.classOf r.source) 29 = false)
include ha hn hr ht hi hp

theorem faultReport_recorded (h : fld (s.classOf r.source) 25 24 = 0 ∨ fld (s.classOf r.source) 25 24 = 1 ∧
    (16 ≤ s.domainOf r ∨ (s.stc (s.domainOf r)).stepOpen = false)) :
    exec (.faultReport r) s = .next (s.asOne fun _ => heard ((eventTaken s r).record (s.domainOf r)
      (fld (s.classOf r.source) 25 24) (s.eventClass (s.domainOf r) r) false r) r) := by
  obtain ⟨hs, -, -, hc, -⟩ := eventTaken_kept s r
  refine execFaultReport_taken ha hn hr ?_ ((record_stewards ..).trans hs)
  rw [State.event_acts ht, State.act_nothing (by rw [hc, hp]) (by rw [hc, hi]) ?_, eventTaken_class]
  exact h.imp_right fun ⟨h1, h2⟩ => ⟨h1, (eventTaken_response ..).trans (State.stepResponse_nothing _ h2)⟩

theorem faultReport_replays {h : Hold} (hd : s.domainOf r = h.val) (hs : fld (s.classOf r.source) 25 24 = 1)
    (hcls : s.eventClass (s.domainOf r) r = false) (he : (s.stc (s.domainOf r)).Early) :
    exec (.faultReport r) s = .next (s.asOne fun _ =>
      heard (((eventTaken s r).record (s.domainOf r) 1 false false r).replay h .faults) r) := by
  obtain ⟨hst, -, -, hc, -⟩ := eventTaken_kept s r
  refine execFaultReport_taken ha hn hr ?_ ((replay_stewards ..).trans ((record_stewards ..).trans hst))
  rw [State.event_acts ht, hs, State.act_replays (by rw [hc, hp]) (by rw [hc, hi]) ?_, eventTaken_class, hcls, hd]
  rw [eventTaken_response, hcls]
  exact State.stepResponse_replay (by omega) he

theorem faultReport_halts {h : Hold} (hd : s.domainOf r = h.val) (hs : fld (s.classOf r.source) 25 24 = 2 ∨
    fld (s.classOf r.source) 25 24 = 1 ∧ (s.stc (s.domainOf r)).stepOpen = true ∧
      (s.eventClass (s.domainOf r) r = true ∨ ¬ (s.stc (s.domainOf r)).Early)) :
    exec (.faultReport r) s = .next (s.asOne fun _ => heard ((rung ((eventTaken s r).record (s.domainOf r) 2
      (s.eventClass (s.domainOf r) r) false r)).abandon h) r) := by
  obtain ⟨hst, -, -, hc, -⟩ := eventTaken_kept s r
  refine execFaultReport_taken ha hn hr ?_ ((abandon_stewards ..).trans ((rung_stewards _).trans ((record_stewards ..).trans hst)))
  rw [State.event_acts ht, State.act_halts (by rw [hc, hp]) (by rw [hc, hi]) (by omega) ?_, eventTaken_class, hd]
  exact hs.imp_right fun ⟨h1, h2, h3⟩ => ⟨h1, (eventTaken_response ..).trans (State.stepResponse_halt (by omega) h2 h3)⟩

end plain

include ha hn hr

theorem faultReport_tallied {l : List TallySlot} (h : (eventTaken s r).takes r =
    ((eventTaken s r).setFaults { (eventTaken s r).faults with slots := l }, none)) :
    exec (.faultReport r) s = .next (s.asOne fun _ =>
      heard ((eventTaken s r).setFaults { (eventTaken s r).faults with slots := l }) r) :=
  execFaultReport_taken ha hn hr (event_takes h) ((State.setFaults_stewards ..).trans (eventTaken_kept s r).1)

section isolating
variable (ht : bit (s.classOf r.source) 31 = false) (hi : bit (s.classOf r.source) 30 = true)
  (hp : bit (s.classOf r.source) 29 = false) (hs : fld (s.classOf r.source) 25 24 = 1)
  (hno : 16 ≤ s.domainOf r ∨ (s.stc (s.domainOf r)).stepOpen = false) (ho : s.openRecord (s.domainOf r) = none)
include ht hi hp hs hno ho

omit ha hn hr in
/-- An isolating event outside an open step, and what has been noted of it before. -/
theorem event_isolates : ∃ u, u = recordOpened (eventTaken s r) (s.domainOf r) 1 (s.eventClass (s.domainOf r) r) false r ∧
    Noted s u ∧ s.event r false = (u.waitFor { num := 0, isolate := [r.loc] }).settle := by
  obtain ⟨-, hopen, -, hc, -⟩ := eventTaken_kept s r
  refine ⟨_, rfl, (noted_eventTaken s r).trans (noted_recordOpened ..), ?_⟩
  rw [State.event_acts ht, hs, State.act_isolates (by rw [hc, hp]) (by rw [hc, hi])
    ((eventTaken_response ..).trans (State.stepResponse_nothing _ hno)), eventTaken_class,
    State.record_opened _ _ _ _ ((hopen _).trans ho)]

theorem faultReport_isolates (hq : r.loc.toNat < 28000) (hto : s.toIsolate = [])
    (hnet : (s.parish (State.parOf r.loc.toNat)).net = true) (hsb : s.standby = none) :
    ∃ t, exec (.faultReport r) s = .next t ∧
      t.faults = (recordOpened (eventTaken s r) (s.domainOf r) 1 (s.eventClass (s.domainOf r) r) false r).faults ∧
      t.ledger = (recordOpened (eventTaken s r) (s.domainOf r) 1 (s.eventClass (s.domainOf r) r) false r).ledger ∧
      CroftOut (t.croft r.loc.toNat) ∧
      (16 ≤ s.owner (State.parOf r.loc.toNat) → t.logicalOf r.loc.toNat = none) ∧
      (s.owner (State.parOf r.loc.toNat) < 16 → (t.parish (State.parOf r.loc.toNat)).mapouts =
        (s.parish (State.parOf r.loc.toNat)).mapouts ++ [(r.loc.toNat % 500 / 25, r.loc.toNat % 25)]) := by
  obtain ⟨u, hu, hnoted, he⟩ := event_isolates ht hi hp hs hno ho
  obtain ⟨hst, hcr, hpa, hreg, -, hti, -⟩ := hnoted
  have husb : u.standby = none := (State.standby_of_only hst).trans hsb
  have huti : u.toIsolate = [] := hti.trans hto
  have hup (p : Nat) : u.parish p = s.parish p := by unfold State.parish; rw [hpa]
  have huo : u.owner (State.parOf r.loc.toNat) = s.owner (State.parOf r.loc.toNat) := by
    unfold State.owner State.field
    rw [hreg _ (by unfold Reg.hldOwner Reg.fltEvents State.parOf; omega)]
  have hunet : (u.parish (State.parOf r.loc.toNat)).net = true := by rw [hup, hnet]
  obtain ⟨hf, hout, hun, hown⟩ := State.isolateCroft_spec hunet
  rw [State.waitFor_isolates husb huti, State.settle_croft hq huti hunet] at he
  have hwst : (u.isolateCroft r.loc.toNat).stewards = s.stewards := by rw [hf]; exact hst
  have hwsb : (u.isolateCroft r.loc.toNat).standby = none := (State.standby_of_only hwst).trans hsb
  rw [huo, hup] at hown
  rw [huo] at hun
  refine ⟨_, execFaultReport_taken ha hn hr he hwst, ?_⟩
  rw [State.asOne_of_alone _ hsb, ← hu]
  have hh : heard (u.isolateCroft r.loc.toNat) r =
      { u.isolateCroft r.loc.toNat with reports := (u.isolateCroft r.loc.toNat).reports.erase r } := by
    unfold heard
    rw [hwsb]
  rw [hh]
  exact ⟨by rw [hf], by rw [hf], hout, hun, hown⟩

theorem faultReport_isolation_waits (hto : s.toIsolate = []) {i : Nat} (hsb : s.standby = some i) :
    ∃ t e, exec (.faultReport r) s = .next t ∧ t.crofts = s.crofts ∧ t.parishes = s.parishes ∧
      t.reports = s.reports ∧ t.shadows = s.shadows ++ [e] ∧ e.isolate = [r.loc] ∧ e.acks = [.report r] ∧ e.num = s.shadowNum :=
          by
  obtain ⟨u, -, hnoted, he⟩ := event_isolates ht hi hp hs hno ho
  have hst : u.stewards = s.stewards := hnoted.1
  have hti : u.toIsolate = s.toIsolate := hnoted.2.2.2.2.2.1
  have husb : u.standby = some i := (State.standby_of_only hst).trans hsb
  rw [State.waitFor_sent u _ husb, State.settle_nothing (s := shadowed u i _) (hti.trans hto)] at he
  obtain ⟨t, e, ht, hfields⟩ := hnoted.joined hsb r.loc (.report r)
  refine ⟨t, e, (execFaultReport_taken ha hn hr he hst).trans ?_, hfields⟩
  have hh : heard (shadowed u i { num := 0, isolate := [r.loc] }) r =
      shadowed (shadowed u i { num := 0, isolate := [r.loc] }) i { num := 0, acks := [.report r] } := by
    unfold heard
    rw [show (shadowed u i { num := 0, isolate := [r.loc] }).standby = some i from husb]
  rw [hh, ht]

end isolating
end obligation

/-- Settles O58: an event is its record, and what its class and the step add to it, with the word to its reporter. -/
theorem eventsAreClassified : Obligations.EventsAreClassified := by
  unfold Obligations.EventsAreClassified
  intro s r
  refine ⟨execFaultReport_ignored, fun ha hn hr => ?_⟩
  intro d k sev cls u early told
  obtain ⟨hst, hopen, -, hc, hfl⟩ := eventTaken_kept s r
  refine ⟨fun ht hi hp => ⟨fun ho => ⟨fun h => ?_, fun h hd h1 hcl he => ?_, fun h hd h1 => ?_⟩, fun o ho h => ?_⟩,
    fun ht => ⟨fun hno h1 hl => ?_, fun a x b hs hx hl hab h1 => ?_⟩, fun q hq hq2 ht hi hp hs hto hno ho hnet =>
        ⟨fun hsb => ?_, fun hsb => ?_⟩⟩
  · rw [← State.record_opened _ _ _ _ ((hopen d).trans ho)]
    exact faultReport_recorded ha hn hr ht hi hp h
  · rw [hcl, ← State.record_opened _ _ _ _ ((hopen d).trans ho)]
    exact faultReport_replays ha hn hr ht hi hp hd h1 hcl he
  · rw [← State.record_opened _ _ _ _ ((hopen d).trans ho)]
    rw [← hd] at h1
    exact faultReport_halts ha hn hr ht hi hp hd h1
  · have := faultReport_recorded ha hn hr ht hi hp h
    rwa [State.record_merged _ _ _ ((hopen d).trans ho)] at this
  · have hsl : (eventTaken s r).faults.slots = s.faults.slots := by rw [hfl]
    refine faultReport_tallied ha hn hr ?_
    rw [State.takes_opens (hc r.source ▸ ht) (by rw [hsl]; exact hno) (by rw [hc]; exact h1) (by rw [hsl]; exact hl), hsl]
  · have hsl : (eventTaken s r).faults.slots = s.faults.slots := by rw [hfl]
    refine faultReport_tallied ha hn hr ?_
    rw [State.takes_counts (hc r.source ▸ ht) (hsl.trans hs) ⟨hx, hl⟩ hab (by rw [hc]; exact h1)]
  · subst hq
    obtain ⟨t, he, hf, hle, ⟨h1, h2, h3⟩, h4, h5⟩ := faultReport_isolates ha hn hr ht hi hp hs hno ho hq2 hto hnet hsb
    refine ⟨t, he, ?_, ?_, h1, h2, h3, h4, h5⟩
    · rw [show sev = 1 from hs]; exact hf
    · rw [show sev = 1 from hs]; exact hle
  · obtain ⟨i, hi'⟩ := Option.isSome_iff_exists.mp hsb
    exact faultReport_isolation_waits ha hn hr ht hi hp hs hno ho hto hi'

end Sys2Proof.Machine

namespace Sys2Proof.Machine
open Sys2Proof.Safety

/-! ### The vector engine -/

namespace Site

/-- Only counts have changed, and CRF_STEP reads as before. -/
def Tallied (x y : Site) : Prop :=
  y = { x with c := { x.c with regs := y.c.regs, counts := y.c.counts } } ∧ regOf y.c Reg.crfStep = regOf x.c Reg.crfStep

theorem tallied_vecEvents (x : Site) (e : Events) : Tallied x (x.vecEvents e) := by
  refine ⟨rfl, ?_⟩
  change regOf ((x.count Reg.vecSatCount (e.sat + e.inf)).count Reg.vecNanCount e.nan).c Reg.crfStep = _
  exact (regOf_setReg _ _ _ _).trans ((if_neg (by decide)).trans ((regOf_setReg _ _ _ _).trans (if_neg (by decide))))

/-- Without an armed mismatch no residue check fails (R222). -/
theorem residue_unarmed {x : Site} (h : x.c.injectRes = false) (v : VecRun) (prog : List Ins) : x.residue v prog = x := by
  unfold residue
  dsimp only
  rw [h]

/-! #### A start -/

theorem vectorFinish_none {x : Site} (h : x.c.vector = none) : x.vectorFinish = x := by
  unfold vectorFinish
  rw [h]

theorem readScalars_none (x : Site) (q : QWord) (ds : List W64) {ss : List Nat} (h : ∀ k ∈ ss, isScalar (ds.getD k 0) = false) :
    x.readScalars q ds ss = (x, false, []) := by
  unfold readScalars
  refine List.foldlRecOn (motive := fun acc : Site × Bool × Tab W64 => acc = (x, false, [])) _ _ rfl fun acc ha k hk => ?_
  subst ha
  exact if_pos (by rw [h k hk]; rfl)

/-- A word whose program and streams pass their checks and that reads no scalar starts with all of them latched. -/
theorem vectorRun_starts {x : Site} {q : QWord} {prog : List Ins}
    (hp : checkProgram (x.descSet q) ((List.range 32).map fun i =>
        ((x.reg (Reg.vecProg (32 * wfield q.word 107 104 + i))).setWidth 32 : W32))
      0 [] 0 [] = .inr prog) (hs : streamsBad q (x.descSet q) prog = none)
    (ht : tileOutBad q (x.descSet q) ((x.reg Reg.vecTscale).setWidth 32) prog = none)
    (hsc : ∀ k ∈ streamsRead prog, isScalar ((x.descSet q).getD k 0) = false) :
    ∃ v, x.vectorRun q = { x with c := { x.c with vector := some v, vecProg := wfield q.word 107 104 } } ∧
      v.q = q ∧ v.beat = 0 ∧
      v.prog = ((List.range 32).map fun i => ((x.reg (Reg.vecProg (32 * wfield q.word 107 104 + i))).setWidth 32 : W32)) ∧
      v.descs = x.descSet q ∧ v.tscale = (x.reg Reg.vecTscale).setWidth 32 ∧ v.amax = 0 ∧ v.outLines = [] ∧ v.pending = [] ∧
      v.cycle = 0 := by
  unfold vectorRun
  extract_lets p ds words tscale c y
  rw [hp]
  dsimp only
  rw [hs]
  dsimp only
  rw [ht]
  dsimp only
  rw [readScalars_none y q ds fun k hk => hsc k (List.mem_eraseDups.mp hk)]
  exact ⟨_, rfl, rfl, rfl, rfl, rfl, rfl, rfl, rfl, rfl, rfl⟩

/-! #### A beat -/

theorem foldl_pairs {α β : Type} (f : α → β) (g : α → Events) (l : List α) (acc : List β × Events) :
    (l.foldl (fun acc p => (acc.1 ++ [f p], acc.2.plus (g p))) acc).1 = acc.1 ++ l.map f := by
  induction l generalizing acc with
  | nil => simp
  | cons a l ih => rw [List.foldl_cons, ih]; simp

theorem zipIdx_range {α : Type} (f : Nat → α) (n : Nat) : ((List.range n).map f).zipIdx = (List.range n).map fun i => (f i, i)
    := by
  refine List.ext_getElem (by simp) fun i h1 h2 => ?_
  simp

/-- The write of element e + i of flat output s in a beat. -/
def flatWrite (x : Site) (v : VecRun) (s e i : Nat) (l : VLane) : VecWrite :=
  { due := v.cycle + 24, addr := elemAddr v.q (v.descs.getD s 0) (e + i)
    bytes := elemBytes v.q (v.descs.getD s 0) (e + i) (flatBytes (descFmt (v.descs.getD s 0)) l
      (rndOf (wfield v.q.word 72 72 = 1) (drawKey x.seed (x.num Reg.crfStep) (x.n.getD 0) (vecTag v.q s)) (e + i))).1 }

theorem flatWrites_eq (x : Site) (v : VecRun) (s e n : Nat) (f : Nat → VLane) :
    (x.flatWrites v s e ((List.range n).map f)).1 = (List.range n).map fun i => x.flatWrite v s e i (f i) := by
  unfold flatWrites
  extract_lets d key
  refine (foldl_pairs _ _ _ _).trans ?_
  rw [zipIdx_range, List.map_map]
  rfl

theorem flatWrites_tallied {x y : Site} (h : Tallied x y) (v : VecRun) (s e : Nat) (ls : List VLane) :
    y.flatWrites v s e ls = x.flatWrites v s e ls := by
  obtain ⟨h, hr⟩ := h
  have hn : y.num Reg.crfStep = x.num Reg.crfStep := congrArg BitVec.toNat hr
  unfold flatWrites
  rw [hn, show y.seed = x.seed by rw [h], show y.n = x.n by rw [h]]

/-- A beat with one flat output reads nothing that waits, and then does its elements. -/
theorem beat_flat {x : Site} {v : VecRun} {prog : List Ins} {k : Nat} {ins : List (Nat × List VLane)} {cs : List (Nat × Cursor)}
    (hv : x.c.vector = some v) (hb : 128 * v.beat < vecCount v.q) (hp : checkProgram v.descs v.prog 0 [] 0 [] = .inr prog)
    (hw : streamsWritten prog = [k]) (hf : descFmt (v.descs.getD k 0) < 5)
    (hl : outLeaves v [k] (128 * v.beat) (min 128 (vecCount v.q - 128 * v.beat)) = none)
    (hd : ∀ w ∈ v.pending, v.cycle < w.due)
    (hr : x.readInputs v (streamsRead prog).eraseDups (128 * v.beat) (min 128 (vecCount v.q - 128 * v.beat)) =
        (x, false, ins, cs)) :
    x.beat = x.beatDone v prog ((List.range (min 128 (vecCount v.q - 128 * v.beat))).map fun i =>
      prog.foldl (insStep (source v ins i)) {}) cs none := by
  have hc : x.commitDue v = (x, v) := by
    unfold commitDue
    have hnone : (v.pending.filter fun w => w.due ≤ v.cycle) = [] := 
      List.filter_eq_nil_iff.mpr fun w hw => by simpa using hd w hw
    have hall : (v.pending.filter fun w => v.cycle < w.due) = v.pending := 
      List.filter_eq_self.mpr fun w hw => by simpa using hd w hw
    rw [hnone, hall]
    rfl
  have hx : ({ x with c := { x.c with vector := some v } } : Site) = x := by rw [← hv]
  have ho : tileOutput v.descs prog = none := by
    unfold tileOutput
    rw [hw]
    exact List.find?_eq_none.mpr fun s hs => by
      obtain rfl := List.mem_singleton.mp hs
      have : descFmt (v.descs.getD s 0) ≠ 5 := by omega
      simpa using this
  have hk : (streamsWritten prog).eraseDups = [k] := by rw [hw]; rfl
  unfold beat
  rw [hv]
  dsimp only
  rw [if_neg (by omega), hp]
  dsimp only
  rw [hc]
  dsimp only
  rw [hx, hr]
  dsimp only
  rw [if_neg (by decide), hk, hl]
  dsimp only
  rw [ho]
  rfl

theorem outLanes_range (f : Nat → Elem) (n s : Nat) : outLanes ((List.range n).map f) s =
    (List.range n).map fun i => (((f i).outs.reverse.find? fun o => o.1 == s).getD (s, {})).2 := List.map_map

/-- The run of a beat whose only output is flat, and what of the croft it changes. -/
theorem beatDone_flat {x : Site} (v : VecRun) (prog : List Ins) (f : Nat → Elem) (n : Nat) (cs : List (Nat × Cursor)) {k : Nat}
    (hw : streamsWritten prog = [k]) (hf : descFmt (v.descs.getD k 0) < 5) (hi : x.c.injectRes = false) :
    ∃ v' rs ts, x.beatDone v prog ((List.range n).map f) cs none =
        { x with c := { x.c with regs := rs, counts := ts, vector := some v' } } ∧
      v'.beat = v.beat + 1 ∧ v'.q = v.q ∧ v'.prog = v.prog ∧ v'.amax = v.amax ∧
      v'.pending = v.pending ++ (List.range n).map fun i =>
        x.flatWrite v k (128 * v.beat) i (((f i).outs.reverse.find? fun o => o.1 == k).getD (k, {})).2 := by
  have hk : (streamsWritten prog).eraseDups = [k] := by rw [hw]; rfl
  have hflat : [k].filter (fun s => descFmt (v.descs.getD s 0) != 5) = [k] :=
    List.filter_eq_self.mpr fun s hs => by
      obtain rfl := List.mem_singleton.mp hs
      have : descFmt (v.descs.getD s 0) ≠ 5 := by omega
      simpa using this
  unfold beatDone
  rw [hk]
  dsimp only
  rw [hflat, List.map_singleton, List.foldl_cons, List.foldl_nil]
  obtain ⟨y, hy⟩ : ∃ y, y = (x.vecEvents { inf := (((List.range n).map f).map (·.infs)).sum }).residue v prog := ⟨_, rfl⟩
  have ht : Tallied x y := by
    have h := tallied_vecEvents x { inf := (((List.range n).map f).map (·.infs)).sum }
    rw [hy, residue_unarmed (by rw [h.1]; exact hi)]
    exact h
  rw [← hy]
  have hw' : (y.flatWrites v k (128 * v.beat) (outLanes ((List.range n).map f) k)).1 = (List.range n).map fun i =>
      x.flatWrite v k (128 * v.beat) i (((f i).outs.reverse.find? fun o => o.1 == k).getD (k, {})).2 := by
    rw [flatWrites_tallied ht, outLanes_range, flatWrites_eq]
  generalize y.flatWrites v k (128 * v.beat) (outLanes ((List.range n).map f) k) = fl at hw' ⊢
  have he := (tallied_vecEvents y fl.2).1
  generalize y.vecEvents fl.2 = z at he ⊢
  rw [ht.1] at he
  rw [he]
  refine ⟨_, _, _, rfl, rfl, rfl, rfl, rfl, ?_⟩
  change v.pending ++ [fl].flatMap _ = _
  rw [List.flatMap_singleton, hw']

/-! #### The end -/

theorem commits_eq (ws : List VecWrite) (x : Site) : ∃ e, ws.foldl commitOut x =
    { x with c := { x.c with mem := ws.foldl (fun m w => Memory.write m w.addr w.bytes) x.c.mem, ecc := e } } := by
  induction ws generalizing x with
  | nil => exact ⟨x.c.ecc, rfl⟩
  | cons w ws ih => exact ih (x.commitOut w)

theorem foldAmax_spec (x : Site) (o : Nat) (v : W32) : x.foldAmax o v =
    { x with c := { x.c with regs := (x.foldAmax o v).c.regs } } ∧
    ∀ j, j ≠ o → regOf (x.foldAmax o v).c j = regOf x.c j := by
  unfold foldAmax
  split
  · exact ⟨rfl, fun j hj => (regOf_setReg ..).trans (if_neg hj)⟩
  · exact ⟨rfl, fun j _ => rfl⟩

/-- The reduction register of the word takes what the word has reduced (R218). -/
def takeRed (x : Site) (v : VecRun) : Site := if vecRed v.q = 0 then x else x.setReg (Reg.vecRed (vecRedSlot v.q)) v.red

theorem takeRed_spec (x : Site) (v : VecRun) : x.takeRed v = { x with c := { x.c with regs := (x.takeRed v).c.regs } } ∧
    (vecRed v.q ≠ 0 → regOf (x.takeRed v).c (Reg.vecRed (vecRedSlot v.q)) = v.red) ∧
    ∀ j, j ≠ Reg.vecRed (vecRedSlot v.q) → regOf (x.takeRed v).c j = regOf x.c j := by
  unfold takeRed
  split
  · next h => exact ⟨rfl, fun h' => absurd h h', fun _ _ => rfl⟩
  · exact ⟨rfl, fun _ => (regOf_setReg ..).trans (if_pos rfl), fun j hj => (regOf_setReg ..).trans (if_neg hj)⟩

/-- A reduction register is no AMAX register. -/
theorem vecRed_ne_vecAmax (i j : Nat) (hj : j < 16) : Reg.vecRed i ≠ Reg.vecAmax j := by
  unfold Reg.vecRed Reg.vecAmax
  omega

theorem vectorFinish_spec {x : Site} {v : VecRun} (hv : x.c.vector = some v) (hb : vecCount v.q ≤ 128 * v.beat) :
    ∃ d, x.vectorFinish = { x with c := d } ∧ d.vector = none ∧
      d.mem = v.pending.foldl (fun m w => Memory.write m w.addr w.bytes) x.c.mem ∧
      (vecRed v.q ≠ 0 → regOf d (Reg.vecRed (vecRedSlot v.q)) = v.red) ∧
      RegsKept x.c d [Reg.vecRed (vecRedSlot v.q), Reg.vecAmax (wfield v.q.word 60 57)] ∧ d.seq = x.c.seq := by
  have he : x.vectorFinish =
      (let y := ((v.pending.foldl commitOut x).takeRed v).foldAmax (Reg.vecAmax (wfield v.q.word 60 57)) v.amax
       { y with c := { y.c with vector := none } }) := by
    unfold vectorFinish
    rw [hv]
    exact if_neg (by omega)
  obtain ⟨ecc, hx⟩ := commits_eq v.pending x
  rw [he, hx]
  generalize v.pending.foldl (fun m w => Memory.write m w.addr w.bytes) x.c.mem = m
  obtain ⟨hy, hred, hk⟩ := takeRed_spec ({ x with c := { x.c with mem := m, ecc := ecc } } : Site) v
  generalize Site.takeRed _ v = y at hy hred hk ⊢
  obtain ⟨hz, hk'⟩ := foldAmax_spec y (Reg.vecAmax (wfield v.q.word 60 57)) v.amax
  generalize y.foldAmax _ v.amax = z at hz hk' ⊢
  have hne : Reg.vecRed (vecRedSlot v.q) ≠ Reg.vecAmax (wfield v.q.word 60 57) := vecRed_ne_vecAmax _ _ (wfield_lt _ 60 57)
  refine ⟨{ x.c with mem := m, ecc := ecc, regs := z.c.regs, vector := none }, ?_, rfl, rfl, fun h => ?_, fun o ho => ?_, rfl⟩
  · dsimp only
    rw [hz, hy]
  · exact (hk' _ hne).trans (hred h)
  · simp only [List.mem_cons, List.not_mem_nil, or_false, not_or] at ho
    exact (hk' o ho.2).trans (hk o ho.1)

end Site

/-- Settles O32: a start latches its checked word, a beat queues its elements' writes, and the end stores what is queued and reduced. -/
theorem vectorWordsRun : Obligations.VectorWordsRun := by
  unfold Obligations.VectorWordsRun
  intro q s c
  refine ⟨fun w rest prog hq hv => ?_, fun v prog k hv hb hp hw hf hu hi => ?_, fun v hv hb => ?_, ?_⟩
  · intro ds words hh hp hs ht hsc
    have hx : (s.site q).vectorStart = { s.site q with c := { c with vecQ := rest } }.vectorRun w := by
      unfold Site.vectorStart
      rw [show (s.site q).c.vecQ = w :: rest from hq]
      dsimp only
      rw [Site.vectorFinish_none (x := s.site q) hv, if_neg (by rw [show (s.site q).c.vector = none from hv]; decide),
        if_neg (by rw [hh]; decide)]
      rfl
    obtain ⟨v, hr, hfields⟩ := Site.vectorRun_starts (x := { s.site q with c := { c with vecQ := rest } }) (q := w) hp hs ht hsc
    obtain ⟨u, hu, ho, -, -, hc⟩ := onCroft_only (f := Site.vectorStart) (hx.trans hr)
    exact ⟨u, v, hu, ho, hc, hfields⟩
  · intro n d key hl hd ins cs hr
    have hx := Site.beat_flat (x := s.site q) hv hb hp hw hf hl hd hr
    obtain ⟨v', rs, ts, he, h1, h2, h3, h4, h5⟩ := Site.beatDone_flat (x := s.site q) v prog
      (fun i => prog.foldl (insStep (Site.source v ins i)) {}) n cs hw hf hi
    obtain ⟨u, hu, ho, -, -, hc⟩ := onCroft_only (f := Site.beat) (hx.trans he)
    exact ⟨u, v', hu, ho, by rw [hc], h1, h2, h3, h4, by rw [hc]; rfl, by rw [hc]; rfl, h5⟩
  · obtain ⟨d, he, h1, h2, h3, h4, h5⟩ := Site.vectorFinish_spec (x := s.site q) hv hb
    obtain ⟨u, hu, ho, hout, hrep, hc⟩ := onCroft_only (f := Site.vectorFinish) he
    subst hc
    exact ⟨u, hu, ho, hout, hrep, h1, h2, h3, h4, h5⟩
  · refine State.onCroft_next ?_
    split <;> rfl

end Sys2Proof.Machine

namespace Sys2Proof.Machine
open Sys2Proof.Safety

/-! ### One message at a port (R308, R309, R326) -/

theorem slice_slice (bs : List Byte) (n : Nat) : slice (slice bs 0 n) 0 n = slice bs 0 n := by
  have hl : (slice bs 0 n).length = n := by
    unfold slice
    simp
  generalize slice bs 0 n = cs at hl ⊢
  unfold slice
  dsimp only
  rw [List.drop_zero, List.take_of_length_le (by omega), hl, Nat.sub_self]
  simp

/-- A frame pads its payload. -/
theorem frameOf_slice (h : FrameHdr) (bs : List Byte) : frameOf h (slice bs 0 624) = frameOf h bs := by
  unfold frameOf
  rw [slice_slice]

namespace Gate

variable {g : Gate} {k : Nat}

/-- No message of a lower channel, or none at all. -/
theorem ready_none {p : Port} {on : Nat × Nat × Msg → Bool} (h : ∀ e ∈ p.txMsgs, on e = false) : ready p on = none := by
  unfold ready
  rw [List.find?_eq_none.mpr fun e he => by rw [h e he]; decide]

theorem pick_nothing (h : ready (g.port k) (fun e => e.1 == 3) = none) (h1 : ready (g.port k) (fun e => e.1 == 1) = none)
    (h2 : ∀ e ∈ (g.port k).txMsgs, e.1 = 1) : g.pick k = none := by
  have hall (n : Nat) : ready (g.port k) (fun e => (e.1 == 0 || e.1 == 2) && e.2.1 == n) = none :=
    ready_none fun e he => by rw [h2 e he]; rfl
  unfold pick
  dsimp only
  rw [h, h1]
  simp only [hall]
  rfl

/-- A frame leaves the messages that wait at its port. -/
theorem txMsgs_sendData (g : Gate) (k vc : Nat) (f : Nat × List Byte) : ((g.sendData k vc f).port k).txMsgs = (g.port k).txMsgs
    := by
  unfold sendData
  split
  · rfl
  · next l _ =>
    have hp (v : Gate) (t : TxFrame) : (v.sendOn l t).port k = v.port k := by
      unfold sendOn
      dsimp only
      split <;> rfl
    dsimp only
    rw [hp, port_setPort, if_pos rfl]

theorem pump_nothing (h : (g.port k).txMsgs = []) (fuel : Nat) : pump k fuel g = g := by
  cases fuel with
  | zero => rfl
  | succ n =>
    have hn (on : Nat × Nat × Msg → Bool) : ready (g.port k) on = none := ready_none fun e he => by rw [h] at he; simp at he
    have hp : g.pick k = none := pick_nothing (hn _) (hn _) fun e he => by rw [h] at he; simp at he
    unfold pump
    rw [hp]
    exact ite_self _

section answer
variable {hold : Nat} {m : Msg} (ht : (g.port k).txMsgs = [(1, hold, m)])
include ht

/-- An answer waits while its channel has no credit. -/
theorem flush_waits (hc : (g.port k).credits 1 = 0) : g.flush k = g := by
  have hu : ¬ m.units ≤ (g.port k).credits 1 := by
    have : 0 < m.units := by
      unfold Msg.units ceilDiv
      omega
    omega
  have h1 : ready (g.port k) (fun e => e.1 == 1) = none := by
    unfold ready
    rw [ht]
    exact if_neg hu
  have hm : ∀ e ∈ (g.port k).txMsgs, e = (1, hold, m) := by rw [ht]; exact fun e he => List.mem_singleton.mp he
  have hp : g.pick k = none := pick_nothing (ready_none fun e he => by rw [hm e he]; rfl) h1 fun e he => by rw [hm e he]
  unfold flush
  rw [ht]
  change pump k 2 g = g
  unfold pump
  rw [hp]
  exact ite_self _

/-- An answer that one unit carries leaves where its channel has a credit. -/
theorem flush_answers (hup : g.portIsUp k = true) (hc : 0 < (g.port k).credits 1) (hl : m.payload.length ≤ 32)
    (hs : g.pseqSpan k < 256) :
    g.flush k = (g.setPort k (({ g.port k with txMsgs := [] } : Port).setCredits 1 ((g.port k).credits 1 - 1))).sendData k 1
      (0, slice m.bytes 0 624) := by
  have hu : m.units = 1 := by
    unfold Msg.units ceilDiv
    omega
  have hb : framesOf m.bytes = [(0, slice m.bytes 0 624)] := by
    have h : ceilDiv m.bytes.length 624 = 1 := by
      have : m.bytes.length = 32 + m.payload.length := by simp [Msg.bytes, leBytes_length]
      unfold ceilDiv
      omega
    unfold framesOf
    rw [h]
    rfl
  have h1 : ready (g.port k) (fun e => e.1 == 1) = some (1, hold, m) := by
    unfold ready
    rw [ht]
    exact if_pos (by rw [hu]; exact hc)
  have hm : ∀ e ∈ (g.port k).txMsgs, e = (1, hold, m) := by rw [ht]; exact fun e he => List.mem_singleton.mp he
  have h3 : ready (g.port k) (fun e => e.1 == 3) = none := ready_none fun e he => by rw [hm e he]; rfl
  have hp : g.pick k = some (g.port k, (1, hold, m)) := by
    unfold pick
    dsimp only
    rw [h3, h1]
  unfold flush
  rw [ht]
  change pump k 2 g = _
  rw [pump, hup, hp, if_neg (by decide)]
  dsimp only
  rw [hb, hu, if_neg (by simp only [List.length_singleton]; omega), ht, List.foldl_cons, List.foldl_nil, List.erase_cons_head]
  refine pump_nothing ?_ _
  rw [txMsgs_sendData, port_setPort, if_pos rfl]
  rfl

end answer
/-- A lane of a port. -/
theorem openLane_port {l : Nat} (h : g.openLane k = some l) : l / 8 = k := by
  have hm := List.mem_of_find?_eq_some h
  simp only [lanesUp, List.mem_filter, List.mem_map, List.mem_range] at hm
  obtain ⟨⟨i, hi, rfl⟩, -⟩ := hm
  omega

/-- A frame of a message leaves on the open lane of a port that is UP, under the port's next PSEQ (R308). -/
theorem sendData_sent {l : Nat} (hl : g.openLane k = some l) (hup : g.portIsUp k = true) (hq : g.quiet = false) (vc first : Nat)
    (bs : List Byte) : ∃ h, ((g.sendData k vc (first, slice bs 0 624)).lane l).sent =
        (g.lane l).sent ++ [(codewordMarker (g.lane l).txCount.toNat, frameOf h bs)] ∧
      h.ftype = 1 ∧ h.vc = vc ∧ h.first = first ∧ h.pseq = (g.port k).txPseq ∧
      (g.sendData k vc (first, slice bs 0 624)).port k = { g.port k with txPseq := ((g.port k).txPseq + 1) % 2 ^ 32 } := by
  have hk := openLane_port hl
  have hst : (g.port k).st = .up := of_decide_eq_true hup
  unfold sendData
  rw [hl]
  dsimp only
  generalize hd : g.setPort k { g.port k with txPseq := ((g.port k).txPseq + 1) % 2 ^ 32 } = d
  have hdp : d.port k = { g.port k with txPseq := ((g.port k).txPseq + 1) % 2 ^ 32 } := by
    rw [← hd, port_setPort, if_pos rfl]
  have hdl : d.lane l = g.lane l := by rw [← hd]; rfl
  have hdq : d.quiet = false := by rw [← hd]; exact hq
  unfold sendOn
  dsimp only
  have hm : ∀ v : Lane, (d.setLane l v).portState (l / 8) ≠ .mismatch := fun v => by
    change (d.port (l / 8)).st ≠ _
    rw [hk, hdp, hst]
    decide
  rw [if_neg (hm _)]
  unfold transmit
  dsimp only
  have hq' : ∀ v : Lane, (d.setLane l v).quiet = false := fun v => hdq
  rw [hq', if_neg (by decide), lane_setLane, if_pos rfl, frameOf_slice, lane_setLane, if_pos rfl, hdl]
  exact ⟨_, rfl, rfl, rfl, rfl, rfl, hdp⟩

end Gate

/-! ### Messages of peers (R313, R318) -/

section peer
variable {s : State} {g : GateId} {k : PortId} {m : Msg}

/-- A port once a message has been taken from those that wait there. -/
def portTaken (s : State) (g k : Nat) (m : Msg) : Port :=
  { (s.gate g).port k with rx := ((s.gate g).port k).rx.erase m }

theorem port_msgTaken (s : State) (g k : Nat) (m : Msg) : ((msgTaken s g k m).gate g).port k = portTaken s g k m := by
  unfold msgTaken portTaken
  split
  · rw [State.gate_setGate_same, Gate.port_setPort, if_pos rfl]
  · next h => rw [List.erase_of_not_mem h]

theorem setPort_msgTaken (s : State) (g k : Nat) (m : Msg) (p : Port) :
    ((msgTaken s g k m).gate g).setPort k p = (s.gate g).setPort k p := by
  unfold msgTaken
  split
  · rw [State.gate_setGate_same, Gate.setPort_setPort]
  · rfl

/-- A message that has not come before, at a port that is not UP, or that does not take it. -/
theorem atPort_down {vc : Nat} {act : State → State} (hm : m ∉ ((s.gate g).port k).rx) (hu : (portTaken s g k m).st ≠ .up) :
    s.atPort g k vc m act = s := by
  have h1 : ¬ ((s.gate g).port k).rx.contains m = true := fun h => hm (List.contains_iff_mem.mp h)
  unfold State.atPort
  dsimp only
  rw [if_neg h1]
  refine if_pos ?_
  have h2 : ((s.gate g).port k).st ≠ .up := hu
  simp [Gate.portIsUp, h2]

theorem atPort_discards {vc : Nat} {act : State → State} (hm : m ∉ ((s.gate g).port k).rx) (hu : (portTaken s g k m).st = .up)
    (hc : (s.gate g).carries k vc m.op.toNat = false) :
    s.atPort g k vc m act = s.setGate g ((s.gate g).discardMsg k m) := by
  have h1 : ¬ ((s.gate g).port k).rx.contains m = true := fun h => hm (List.contains_iff_mem.mp h)
  have h2 : ((s.gate g).port k).st = .up := hu
  unfold State.atPort
  dsimp only
  rw [if_neg h1, if_neg (by simp [Gate.portIsUp, h2]), hc]
  rfl

/-- The commands of peer messages serve their message at its port. -/
theorem exec_peer (hwf : m.wellFormed = true) {i : Instr} {vc : Nat} (h : i = .permuteData g k m ∧ m.op = 0x41 ∧ vc = 2 ∨
    i = .permuteAck g k m ∧ m.op = 0xC1 ∧ vc = 1 ∨ i = .harvestChunk g k m ∧ m.op = 0x40 ∧ vc = 2) :
    ∃ act, exec i s = .next (s.asOne fun s => s.atPort g k vc m act) ∨ exec i s = .next (s.atPort g k vc m act) := by
  obtain ⟨rfl, ho, rfl⟩ | ⟨rfl, ho, rfl⟩ | ⟨rfl, ho, rfl⟩ := h
  · exact ⟨_, .inr ((if_pos hwf).trans (congrArg Host.Outcome.next (if_pos ho)))⟩
  · exact ⟨_, .inr ((if_pos hwf).trans (congrArg Host.Outcome.next (if_pos ho)))⟩
  · exact ⟨_, .inl ((if_pos hwf).trans (congrArg Host.Outcome.next (if_pos ho)))⟩


theorem discardMsg_quiet (d : Gate) (k : Nat) (h : m.op = 0xC1 ∨ m.op = 0x40) :
    d.discardMsg k m = d.setPort k { d.port k with discarded := (d.port k).discarded + 1 } := by
  unfold Gate.discardMsg
  refine if_neg ?_
  obtain h | h := h <;> rw [h] <;> decide

/-- A message queued at a port that holds none and whose channel has no credit waits there. -/
theorem post_waits {d : Gate} {k : Nat} {p : Port} (hold : Nat) (m : Msg) (hp : d.port k = p) (ht : p.txMsgs = [])
    (hc : p.credits 1 = 0) :
    d.post k 1 hold m = d.setPort k { p with txMsgs := [(1, hold, m)] } := by
  unfold Gate.post
  dsimp only
  rw [hp, ht, List.nil_append]
  refine Gate.flush_waits (hold := hold) (m := m) ?_ ?_
  · rw [Gate.port_setPort, if_pos rfl]
  · rw [Gate.port_setPort, if_pos rfl]
    exact hc

theorem discardMsg_answers (d : Gate) (k : Nat) (ho : m.op = 0x41) (ht : (d.port k).txMsgs = []) (hc : (d.port k).credits 1 = 0)
    :
    d.discardMsg k m = d.setPort k { d.port k with
      discarded := (d.port k).discarded + 1, txMsgs := [(1, 16, { op := 0x8F, status := 4, tag := m.tag })] } := by
  unfold Gate.discardMsg
  dsimp only
  rw [if_pos (by rw [ho]; decide), post_waits (p := { d.port k with discarded := (d.port k).discarded + 1 }) 16 _
    (by rw [Gate.port_setPort, if_pos rfl]) ht hc, Gate.setPort_setPort]

section permute
variable (hwf : m.wellFormed = true)
include hwf

/-- The port of a message of PERMUTE_DATA once its payload is stored. -/
def portPermuted (s : State) (g k : Nat) (m : Msg) : Port :=
  { portTaken s g k m with permuted := Memory.write (portTaken s g k m).permuted m.addr.toNat m.payload }

/-- The acknowledgement of PERMUTE_DATA. -/
def permuteAnswer (m : Msg) : Msg := { op := 0xC1, tag := m.tag }

theorem exec_permuteData (ho : m.op = 0x41) (ha : AtPort s g k 2 m) : exec (.permuteData g k m) s =
    .next (s.setGate g (((s.gate g).setPort k (portPermuted s g k m)).post k 1 16 (permuteAnswer m))) := by
  refine (if_pos hwf).trans (congrArg Host.Outcome.next ((if_pos ho).trans ((State.atPort_serves ha _).trans ?_)))
  unfold State.modGate
  dsimp only
  rw [State.setGate_msgTaken, port_msgTaken, setPort_msgTaken]
  rfl

theorem permuteData_waits (ho : m.op = 0x41) (ha : AtPort s g k 2 m) (ht : (portTaken s g k m).txMsgs = [])
    (hc : (portTaken s g k m).credits 1 = 0) : exec (.permuteData g k m) s =
      .next (s.setGate g ((s.gate g).setPort k { portPermuted s g k m with txMsgs := [(1, 16, permuteAnswer m)] })) := by
  rw [exec_permuteData hwf ho ha, post_waits (p := portPermuted s g k m) 16 _ (by rw [Gate.port_setPort, if_pos rfl]) ht hc,
    Gate.setPort_setPort]

theorem permuteData_answers (ho : m.op = 0x41) (ha : AtPort s g k 2 m) (hup : (portTaken s g k m).st = .up)
    (ht : (portTaken s g k m).txMsgs = []) (hc : 0 < (portTaken s g k m).credits 1) {l : Nat}
    (hl : (s.gate g).openLane k = some l) (hs : (s.gate g).pseqSpan k < 256) (hq : (s.gate g).quiet = false) :
    ∃ t h b, exec (.permuteData g k m) s = .next t ∧ OnlyGate g s t ∧
        t.reports = s.reports ∧ t.outq = s.outq ∧ ((t.gate g).port k).permuted = (portPermuted s g k m).permuted ∧
        ((t.gate g).port k).txMsgs = [] ∧
        ((t.gate g).port k).credits 1 = (portTaken s g k m).credits 1 - 1 ∧ ((t.gate g).lane l).sent =
          ((s.gate g).lane l).sent ++ [(codewordMarker ((s.gate g).lane l).txCount.toNat, frameOf h b)] ∧
        h.ftype = 1 ∧ h.vc = 1 ∧ h.first = 0 ∧ h.pseq = (portTaken s g k m).txPseq ∧ b = (permuteAnswer m).bytes := by
  obtain ⟨p, hp⟩ : ∃ p, p = portPermuted s g k m := ⟨_, rfl⟩
  have hpt : p.txMsgs = [] := by rw [hp]; exact ht
  have hpc : p.credits 1 = (portTaken s g k m).credits 1 := by rw [hp]; rfl
  have hpu : p.st = .up := by rw [hp]; exact hup
  have hps : p.txPseq = (portTaken s g k m).txPseq := by rw [hp]; rfl
  rw [← hpc] at hc ⊢
  rw [← hps, ← hp]
  obtain ⟨d, hd⟩ : ∃ d, d = (s.gate g).setPort k { p with txMsgs := [(1, 16, permuteAnswer m)] } := ⟨_, rfl⟩
  have hdp : d.port k = { p with txMsgs := [(1, 16, permuteAnswer m)] } := by rw [hd, Gate.port_setPort, if_pos rfl]
  have hpost : ((s.gate g).setPort k p).post k 1 16 (permuteAnswer m) = d.flush k := by
    unfold Gate.post
    dsimp only
    rw [Gate.port_setPort, if_pos rfl, hpt, Gate.setPort_setPort, hd]
    rfl
  have hspan : d.pseqSpan k < 256 := by
    have : d.pseqSpan k = (s.gate g).pseqSpan k := by
      unfold Gate.pseqSpan
      rw [hdp, hd]
      change ((Gate.unacked (s.gate g) k).map fun t => (p.txPseq + 2 ^ 32 - t.pseq) % 2 ^ 32).foldl max 0 = _
      rw [hps]
      rfl
    omega
  have hflush := Gate.flush_answers (g := d) (k := k) (hold := 16) (m := permuteAnswer m) (by rw [hdp])
    (decide_eq_true (by rw [hdp]; exact hpu)) (by rw [hdp]; exact hc) (Nat.zero_le _) hspan
  obtain ⟨e, he⟩ : ∃ e, e = d.setPort k (({ d.port k with txMsgs := [] } : Port).setCredits 1 ((d.port k).credits 1 - 1)) := ⟨_, rfl⟩
  have hep : e.port k = ({ p with txMsgs := [] } : Port).setCredits 1 (p.credits 1 - 1) := by
    rw [he, Gate.port_setPort, if_pos rfl, hdp]
    rfl
  have hel (l : Nat) : e.lane l = (s.gate g).lane l := by rw [he, hd]; rfl
  have heo : e.openLane k = some l := by rw [he, hd]; exact hl
  obtain ⟨h, hsent, h1, h2, h3, h4, h5⟩ := Gate.sendData_sent heo (decide_eq_true (by rw [hep]; exact hpu))
    (by rw [he, hd]; exact hq) 1 0 (permuteAnswer m).bytes
  rw [hel] at hsent
  rw [hep] at h4 h5
  refine ⟨_, h, (permuteAnswer m).bytes, exec_permuteData hwf ho ha, ?_⟩
  rw [← hp, hpost, hflush, ← he]
  refine ⟨(State.gatesGoOn_setGate ..).onlyGate, rfl, rfl, ?_⟩
  rw [State.gate_setGate_same]
  refine ⟨?_, ?_, ?_, hsent, h1, h2, h3, h4, rfl⟩
  · rw [h5]; rfl
  · rw [h5]; rfl
  · rw [h5]
    exact Tab.get_set_same ..

theorem permuteAck_frees (ho : m.op = 0xC1) (ha : AtPort s g k 1 m) (ht : m.tag.toNat ∈ (portTaken s g k m).permOut) :
    exec (.permuteAck g k m) s = .next (s.setGate g ((s.gate g).setPort k { portTaken s g k m with
      permOut := (portTaken s g k m).permOut.erase m.tag.toNat })) := by
  refine (if_pos hwf).trans (congrArg Host.Outcome.next ((if_pos ho).trans ((State.atPort_serves ha _).trans ?_)))
  dsimp only
  rw [port_msgTaken, if_pos (List.contains_iff_mem.mpr ht)]
  unfold State.modGate
  dsimp only
  rw [State.setGate_msgTaken, setPort_msgTaken]

end permute

/-! ### A lost gate -/

theorem gateLost_raises (hu : s.up = true) (hl : (s.gate g).lost = false) : exec (.gateLost g) s = .next
    (if (s.parish (State.parOfGate g)).net = true then raisedAt (s.setGate g { s.gate g with lost := true })
        (some (0x7200 + State.parOfGate g))
        { source := 80, loc := State.locGate g, time := s.clock.now, tclass := some false }
      else s.setGate g { s.gate g with lost := true }) := by
  refine (if_neg (by rw [hu, hl]; decide)).trans (congrArg Host.Outcome.next ?_)
  rw [State.raise_eq]
  have hg : g.val < 28 := g.isLt
  have hn : (State.locGate g).toNat = 4 * 268435456 + g := by simp [State.locGate, unitCode]; omega
  have hk : (1073741824 + g.val) / 268435456 = 4 := by omega
  have hi : (1073741824 + g.val) % 268435456 % 32 = g := by omega
  have hi' : (1073741824 + g.val) % 32 = g := by omega
  refine if_congr ?_ ?_ rfl
  · simp [State.mayRaise, State.eventOf, hn, hk, hi', State.modGate]
  · have hr : State.reporter ((s.setGate g { s.gate g with lost := true }).eventOf 80 (State.locGate g) 0 0 (some false) none) =
        some (0x7200 + State.parOfGate g) := by
      simp [State.reporter, State.eventOf, hn, hk, hi]
    exact congrArg (fun e => raisedAt _ e _) hr

end peer
/-! ### Harvest chunks (R261 to R264) -/

section chunk
variable {s : State} {h : Nat}

/-- Sites of crofts hang on the croft, the maps, the clock and the seeds of the step controllers. -/
theorem State.site_congr {s t : State} (ht : t = { s with gates := t.gates, stcs := t.stcs, shadows := t.shadows, shadowNum :=
    t.shadowNum
                                                          outq := t.outq })
    (hreg : ∀ j o, (t.stc j).reg o = (s.stc j).reg o) (q : Nat) : t.site q = s.site q := by
  unfold State.site
  rw [hreg, hreg, ht]
  rfl

theorem State.harvestSite_congr {s t : State} (ht : t = { s with gates := t.gates, stcs := t.stcs, shadows := t.shadows
                                                                 shadowNum := t.shadowNum, outq := t.outq })
    (hreg : ∀ j o, (t.stc j).reg o = (s.stc j).reg o) (h i half : Nat) : t.harvestSite h i half = s.harvestSite h i half := by
  have hp : t.physOf (Config.harvestHome h i half).1 = s.physOf (Config.harvestHome h i half).1 := by rw [ht]; rfl
  unfold State.harvestSite State.siteOf
  rw [hp, funext (State.site_congr ht hreg)]

theorem State.ownChunk_congr {s t : State} (ht : t = { s with gates := t.gates, stcs := t.stcs, shadows := t.shadows
                                                              shadowNum := t.shadowNum, outq := t.outq })
    (hreg : ∀ j o, (t.stc j).reg o = (s.stc j).reg o) (h i half : Nat) : t.ownChunk h i half = s.ownChunk h i half := by
  have hs : (t.stc h).step = (s.stc h).step := congrArg BitVec.toNat (hreg h Reg.stcStep)
  unfold State.ownChunk
  rw [State.harvestSite_congr ht hreg, hs]

theorem State.ownChunk_config {i half e : Nat} (hn : s.harvestSite h i half = none ∨ 512 ≤ State.harvestRow h i half e) :
    s.ownChunk h i half e = Config.ownPartial h (s.stc h).step i half e := by
  unfold State.ownChunk
  obtain hn | hn := hn
  · rw [hn]
  · rw [decide_eq_false (Nat.not_lt.mpr hn)]
    split
    · next h => exact absurd h (by decide)
    · rfl

theorem State.ownChunk_held {i half e : Nat} {x : Site} (hx : s.harvestSite h i half = some x)
    (hr : State.harvestRow h i half e < 512) :
    s.ownChunk h i half e = (x.accValues (State.harvestRow h i half e)).getD (e % 64) 0 := by
  unfold State.ownChunk
  rw [hx, decide_eq_true hr]

theorem State.harvestSite_site {i half : Nat} {x : Site} (hx : s.harvestSite h i half = some x) : s.site x.q = x := by
  unfold State.harvestSite State.siteOf at hx
  obtain ⟨hx, -⟩ := Option.filter_eq_some_iff.mp hx
  obtain ⟨q, -, rfl⟩ := Option.map_eq_some_iff.mp hx
  rfl

/-- Ports hang on the gates' registers and on what their cables have said. -/
theorem State.chunkPorts_congr {s t : State} (hr : ∀ g o, (t.gate g).reg o = (s.gate g).reg o)
    (hp : ∀ g k, ((t.gate g).port k).st = ((s.gate g).port k).st ∧ ((t.gate g).port k).caps = ((s.gate g).port k).caps)
    (dir i : Nat) : t.chunkPorts dir i = s.chunkPorts dir i := by
  have hports (role dir : Nat) : t.portsOf role dir = s.portsOf role dir := by
    unfold State.portsOf Gate.field
    simp only [hr, (hp _ _).1]
  have hpartner : t.partnerOf = s.partnerOf := funext fun gk => by
    unfold State.partnerOf
    rw [(hp _ _).2]
  unfold State.chunkPorts State.devicesOf
  rw [hports, hpartner]

/-! #### The sum in its accumulator rows -/

/-- What a harvest croft holds once it has formed a sum. -/
def sumBytes (row : Nat) (vs : List W32) : List Byte := (vs.take ((512 - row) * 64)).flatMap fun v => leBytes 4 v.toNat

theorem get_flatMap_const {α : Type} {f : α → List Byte} {k : Nat} (hf : ∀ a, (f a).length = k) {l : List α} {e b : Nat} {v : α}
    (hv : l[e]? = some v) (hb : b < k) :
    k * e + b < (l.flatMap f).length ∧ (l.flatMap f).getD (k * e + b) 0 = (f v).getD b 0 := by
  induction l generalizing e with
  | nil => simp at hv
  | cons a l ih =>
    rw [List.flatMap_cons, List.length_append, hf]
    cases e with
    | zero =>
      obtain rfl : a = v := by simpa using hv
      refine ⟨by omega, ?_⟩
      rw [Nat.mul_zero, Nat.zero_add, List.getD_append _ _ _ _ (by rw [hf]; exact hb)]
    | succ e =>
      obtain ⟨hl, hg⟩ := ih (e := e) (by simpa using hv)
      rw [Nat.mul_succ]
      refine ⟨by omega, ?_⟩
      rw [List.getD_append_right _ _ _ _ (by rw [hf]; omega), hf, show k * e + k + b - k = k * e + b by omega, hg]

theorem sumBytes_get {row e : Nat} {vs : List W32} {v : W32} (hv : vs[e]? = some v) (he : row + e / 64 < 512) {b : Nat}
    (hb : b < 4) :
    4 * e + b < (sumBytes row vs).length ∧ (sumBytes row vs).getD (4 * e + b) 0 = (leBytes 4 v.toNat).getD b 0 := by
  refine get_flatMap_const (fun v : W32 => leBytes_length 4 v.toNat) ?_ hb
  rw [List.getElem?_take_of_lt (by omega), hv]


/-! #### Chunks that leave -/

/-- State t is s but for what harvest chunks that leave change, and a croft. -/
def ChunkAdded (s t : State) : Prop :=
  t = { s with gates := t.gates, stcs := t.stcs, shadows := t.shadows, shadowNum := t.shadowNum, outq := t.outq, crofts := t.crofts }

theorem ChunkAdded.trans {s t u : State} (hst : ChunkAdded s t) (htu : ChunkAdded t u) : ChunkAdded s u :=
  Eq.trans htu (congrArg (fun v : State => { v with
    gates := u.gates, stcs := u.stcs, shadows := u.shadows, shadowNum := u.shadowNum, outq := u.outq, crofts := u.crofts }) hst)

theorem State.LetOut.added {s t : State} (ht : State.LetOut h s t) : ChunkAdded s t ∧ t.crofts = s.crofts :=
  ⟨ht.only.trans (by rw [ht.only]), by rw [ht.only]⟩

theorem State.passHorizon_past {s : State} (hz : (s.stc h).horizon = true) (e : Nat) (m : Msg) :
    ((s.passHorizon e m).stc h) = s.stc h ∧ (s.passHorizon e m).gates = s.gates := by
  unfold State.passHorizon
  dsimp only
  split
  · next hc =>
    have he : h ≠ e := by
      rintro rfl
      rw [hz] at hc
      simp at hc
    exact ⟨(s.stcSet_setStc e _).stc_ne he, State.setStc_gates ..⟩
  · exact ⟨rfl, rfl⟩

theorem State.chunksLeave_past {s : State} (hz : (s.stc h).horizon = true) (was : List (Nat × Msg)) (g k : Nat) :
    ((s.chunksLeave was g k).stc h) = s.stc h ∧ (s.chunksLeave was g k).gates = s.gates := by
  unfold State.chunksLeave
  refine List.foldlRecOn (motive := fun t : State => t.stc h = s.stc h ∧ t.gates = s.gates) _ _ ⟨rfl, rfl⟩ fun t ht e _ => ?_
  obtain ⟨h1, h2⟩ := State.passHorizon_past (s := t) (by rw [ht.1]; exact hz) e.1 e.2
  exact ⟨h1.trans ht.1, h2.trans ht.2⟩

/-- A chunk queued at each of a list of ports. -/
def State.postAt (s : State) (h : Nat) (m : Msg) (ps : List (Nat × Nat)) : State :=
  ps.foldl (fun v gk => v.setGate gk.1 ((v.gate gk.1).post gk.2 2 h m)) s

theorem State.postAt_congr (h : Nat) (m : Msg) (ps : List (Nat × Nat)) {s t : State} (hg : s.gates = t.gates) :
    (s.postAt h m ps).gates = (t.postAt h m ps).gates := by
  induction ps generalizing s t with
  | nil => exact hg
  | cons p ps ih =>
    refine ih ?_
    have : s.gate p.1 = t.gate p.1 := by unfold State.gate; rw [hg]
    unfold State.setGate
    dsimp only
    rw [this, hg]

/-- A chunk queued at each of a list of ports, with what leaves them. -/
def State.leaveAt (s : State) (h : Nat) (m : Msg) (ps : List (Nat × Nat)) : State :=
  ps.foldl (fun s gk =>
    (s.modGate gk.1 fun g => g.post gk.2 2 h m).chunksLeave ((h, m) :: s.chunksAt gk.1 gk.2) gk.1 gk.2) s

theorem State.leaveAt_past (m : Msg) (ps : List (Nat × Nat)) {t : State} (hz : (t.stc h).horizon = true) :
    (t.leaveAt h m ps).stc h = t.stc h ∧ (t.leaveAt h m ps).gates = (t.postAt h m ps).gates := by
  induction ps generalizing t with
  | nil => simp only [State.leaveAt, State.postAt, List.foldl_nil, and_self]
  | cons p ps ih =>
    have hz2 : (((t.modGate p.1 fun g => g.post p.2 2 h m)).stc h).horizon = true := hz
    obtain ⟨h1, h2⟩ := State.chunksLeave_past hz2 ((h, m) :: t.chunksAt p.1 p.2) p.1 p.2
    generalize hu : (t.modGate p.1 fun g => g.post p.2 2 h m).chunksLeave ((h, m) :: t.chunksAt p.1 p.2) p.1 p.2 = u at h1 h2
    obtain ⟨k1, k2⟩ := ih (t := u) (by rw [h1]; exact hz2)
    have hl : t.leaveAt h m (p :: ps) = u.leaveAt h m ps := by
      unfold State.leaveAt
      rw [List.foldl_cons, hu]
    have hp : t.postAt h m (p :: ps) = (t.modGate p.1 fun g => g.post p.2 2 h m).postAt h m ps := by
      unfold State.postAt
      rw [List.foldl_cons]
      rfl
    rw [hl, hp]
    exact ⟨k1.trans h1, k2.trans (State.postAt_congr h m ps h2)⟩

/-- A controller once a payload has entered its fingerprint. -/
def printedBy (c : Stc) (i : Nat) (payload : List Byte) : Stc :=
  c.setPrint (c.print ^^^ chunkPrint (BitVec.ofNat 32 c.step) i payload)

theorem Stc.setPrint_kept (c : Stc) (v : W64) : (c.setPrint v).kept = c.kept := rfl

theorem Stc.setPrint_horizon (c : Stc) (v : W64) : (c.setPrint v).horizon = c.horizon := rfl

theorem printedBy_horizon (c : Stc) (i : Nat) (bs : List Byte) : (printedBy c i bs).horizon = c.horizon := Stc.setPrint_horizon
    c _

theorem printedBy_kept (c : Stc) (i : Nat) (bs : List Byte) : (printedBy c i bs).kept = c.kept := Stc.setPrint_kept c _

theorem State.countChunk_stc (s : State) (h i : Nat) (bs : List Byte) : (s.countChunk h i bs).stc h = printedBy (s.stc h) i bs
    :=
  (s.stcSet_setStc h _).stc

theorem State.countChunk_gates (s : State) (h i : Nat) (bs : List Byte) : (s.countChunk h i bs).gates = s.gates :=
  State.setStc_gates ..

/-- A chunk that leaves for its ports counts in the fingerprint, and where its attempt is past the horizon changes no more of its
controller. -/
theorem State.launch_past {s : State} (hz : (s.stc h).horizon = true) (i : Nat) (m : Msg) (ps : List (Nat × Nat)) :
    (s.launch h i m ps).stc h = printedBy (s.stc h) i m.payload ∧ (s.launch h i m ps).gates = (s.postAt h m ps).gates := by
  have hc := s.countChunk_gates h i m.payload
  have hs := s.countChunk_stc h i m.payload
  have he : s.launch h i m ps = (s.countChunk h i m.payload).leaveAt h m ps := by
    unfold State.launch State.leaveAt
    rfl
  rw [he, ← hs, State.postAt_congr h m ps hc.symm]
  generalize s.countChunk h i m.payload = t at hs
  exact State.leaveAt_past m ps (by rw [hs, printedBy_horizon]; exact hz)

/-- A chunk of values as it is sent on. -/
def chunkMsg (h : Nat) (c : Stc) (i half : Nat) (vs : List W32) : Msg :=
  { op := 0x40, addr := BitVec.ofNat 48 i, arg0 := BitVec.ofNat 32 c.step, payload := chunkPayload (Config.harvestBf16 h) vs
    arg1 := BitVec.ofNat 32 (c.ireplays % 8 + half * 2 ^ 8 + b2n (Config.harvestBf16 h) * 2 ^ 9) }

theorem State.passChunk_kept {s : State} {i half : Nat} {vs : List W32}
    (hk : Config.chunkShard h i % (s.stc h).ringN = (s.stc h).ringPos % (s.stc h).ringN) :
    (s.passChunk h i half vs).gates = s.gates ∧ (s.passChunk h i half vs).stc h =
      { printedBy (s.stc h) i (chunkPayload false vs) with
        kept := Tab.set (fun _ => []) (s.stc h).kept (2 * i + half) (chunkPayload false vs) } := by
  have hs := s.countChunk_stc h i (chunkPayload false vs)
  have hg := s.countChunk_gates h i (chunkPayload false vs)
  unfold State.passChunk
  dsimp only
  rw [if_pos hk]
  unfold State.keepChunk
  dsimp only
  rw [hs, printedBy_kept]
  generalize s.countChunk h i (chunkPayload false vs) = t at hg
  generalize printedBy (s.stc h) i (chunkPayload false vs) = c
  exact ⟨(State.setStc_gates ..).trans hg, (State.stcSet_setStc _ h _).stc⟩

theorem State.passChunk_waits {s : State} {i half : Nat} {vs : List W32}
    (hk : Config.chunkShard h i % (s.stc h).ringN ≠ (s.stc h).ringPos % (s.stc h).ringN) (hp : s.chunkPorts (1 + half) i = []) :
    (s.passChunk h i half vs).gates = s.gates ∧ (s.passChunk h i half vs).stc h =
      { s.stc h with unsent := (s.stc h).unsent ++ [(half, i, chunkMsg h (s.stc h) i half vs)] } := by
  unfold State.passChunk
  dsimp only
  rw [if_neg hk]
  unfold State.sendChunk
  dsimp only
  rw [hp]
  exact ⟨State.setStc_gates .., (State.stcSet_setStc _ h _).stc⟩

theorem State.passChunk_sent {s : State} {i half : Nat} {vs : List W32}
    (hk : Config.chunkShard h i % (s.stc h).ringN ≠ (s.stc h).ringPos % (s.stc h).ringN) (hp : s.chunkPorts (1 + half) i ≠ [])
    (hz : (s.stc h).horizon = true) :
    (s.passChunk h i half vs).gates = (s.postAt h (chunkMsg h (s.stc h) i half vs) (s.chunkPorts (1 + half) i)).gates ∧
      (s.passChunk h i half vs).stc h = printedBy (s.stc h) i (chunkMsg h (s.stc h) i half vs).payload := by
  have he : s.passChunk h i half vs = s.launch h i (chunkMsg h (s.stc h) i half vs) (s.chunkPorts (1 + half) i) := by
    unfold State.passChunk
    dsimp only
    rw [if_neg hk]
    unfold State.sendChunk
    dsimp only
    split
    · next h0 => exact absurd h0 hp
    · rfl
  rw [he]
  exact (State.launch_past hz i _ _).symm

end chunk
/-! #### A chunk that is added (R262) -/

section added
variable {t : State} {h i half : Nat}

/-- A controller that has taken a chunk of its open attempt. -/
def Stc.takesChunk (c : Stc) (key : Nat) : Stc := { c with chunks := c.chunks ++ [key], horizon := true }

theorem State.startChunks_marks (t : State) (h : Nat) : ((t.startChunks h).stc h).started = true := by
  cases hs : (t.stc h).started with
  | true => rw [State.startChunks_started t hs, hs]
  | false =>
    have ho := (State.letOut_startChunks t hs).own.only
    rw [(t.stcSet_setStc h { t.stc h with started := true }).stc] at ho
    rw [ho]

/-- The sum stands in the harvest croft, and nothing else changes. -/
theorem State.holdSum_none {vs : List W32} (hx : t.harvestSite h i half = none) : t.holdSum h i half vs = t := by
  unfold State.holdSum
  rw [hx]

theorem State.holdSum_some {vs : List W32} {x : Site} (hx : t.harvestSite h i half = some x) :
    t.holdSum h i half vs = t.setCroft x.q
      (x.store (Site.accRow (State.harvestRow h i half 0)) (sumBytes (State.harvestRow h i half 0) vs)).c := by
  have hs : t.site x.q = x := State.harvestSite_site hx
  unfold State.holdSum
  rw [hx]
  refine (State.onCroft_eq t x.q _ rfl rfl rfl).trans ?_
  rw [hs]
  rfl

theorem State.holdSum_frame (t : State) (h i half : Nat) (vs : List W32) :
    t.holdSum h i half vs = { t with crofts := (t.holdSum h i half vs).crofts } := by
  cases hx : t.harvestSite h i half with
  | none => rw [State.holdSum_none hx]
  | some x => rw [State.holdSum_some hx]; rfl

theorem State.stc_holdSum (t : State) (h i half : Nat) (vs : List W32) (j : Nat) : (t.holdSum h i half vs).stc j = t.stc j := by
  rw [State.holdSum_frame]
  rfl

/-- A chunk that is added marks its attempt, whatever it comes to. -/
theorem State.addChunk_marks (t : State) (h i half : Nat) (bf : Bool) (bs : List Byte) :
    ((t.addChunk h i half bf bs).stc h).started = true ∧ 2 * i + half ∈ ((t.addChunk h i half bf bs).stc h).chunks ∧
      ((t.addChunk h i half bf bs).stc h).horizon = true := by
  unfold State.addChunk
  extract_lets u c v vs
  have hv : v.stc h = { u.stc h with chunks := (u.stc h).chunks ++ [2 * i + half], horizon := true } := (u.stcSet_setStc h _).stc
  have hp := (State.letOut_passChunk (h := h) (v.holdSum h i half vs) i half vs).own
  rw [State.stc_holdSum, hv] at hp
  generalize (State.passChunk _ h i half vs).stc h = c at hp
  refine ⟨?_, ?_, hp.horizon rfl⟩
  · rw [hp.only]
    exact State.startChunks_marks t h
  · rw [hp.only]
    exact List.mem_append_right _ (List.mem_singleton.mpr rfl)

/-- The sum of a received chunk with the module's own partial. -/
def State.summed (t : State) (h i half : Nat) (bf : Bool) (bs : List Byte) : List W32 :=
  chunkSum (t.ownChunk h i half) (chunkValues bf bs)

/-- The state in which a received chunk has been summed, before it is passed on. -/
def State.chunkHeld (t : State) (h i half : Nat) (vs : List W32) : State :=
  (t.setStc h ((t.stc h).takesChunk (2 * i + half))).holdSum h i half vs

theorem State.takesChunk_only (t : State) (h key : Nat) :
    t.setStc h ((t.stc h).takesChunk key) = { t.setStc h ((t.stc h).takesChunk key) with
      gates := t.gates, crofts := t.crofts } ∧
    (∀ j o, ((t.setStc h ((t.stc h).takesChunk key)).stc j).reg o = (t.stc j).reg o) := by
  have hset := t.stcSet_setStc h ((t.stc h).takesChunk key)
  refine ⟨?_, fun j o => ?_⟩
  · rw [hset.only]
  · by_cases hj : j = h
    · rw [hj, hset.stc]
      rfl
    · rw [hset.stc_ne hj]

theorem State.takesChunk_frame (t : State) (h key : Nat) : t.setStc h ((t.stc h).takesChunk key) =
    { t with gates := (t.setStc h ((t.stc h).takesChunk key)).gates, stcs := (t.setStc h ((t.stc h).takesChunk key)).stcs
             shadows := (t.setStc h ((t.stc h).takesChunk key)).shadows
             shadowNum := (t.setStc h ((t.stc h).takesChunk key)).shadowNum
             outq := (t.setStc h ((t.stc h).takesChunk key)).outq } := by
  have hset := t.stcSet_setStc h ((t.stc h).takesChunk key)
  have hg : (t.setStc h ((t.stc h).takesChunk key)).gates = t.gates := State.setStc_gates ..
  rw [hg]
  exact hset.only

theorem State.addChunk_eq (hs : (t.stc h).started = true) (bf : Bool) (bs : List Byte) : t.addChunk h i half bf bs =
    (t.chunkHeld h i half (t.summed h i half bf bs)).passChunk h i half (t.summed h i half bf bs) := by
  have ho : (t.setStc h ((t.stc h).takesChunk (2 * i + half))).ownChunk h i half = t.ownChunk h i half :=
    State.ownChunk_congr (t.takesChunk_frame h _) (t.takesChunk_only h _).2 h i half
  unfold State.addChunk State.chunkHeld State.summed
  dsimp only
  rw [State.startChunks_started t hs, ← ho]
  rfl

/-- What has changed once a received chunk has been summed. -/
theorem State.chunkHeld_spec (t : State) (h i half : Nat) (vs : List W32) :
    ChunkAdded t (t.chunkHeld h i half vs) ∧ (t.chunkHeld h i half vs).gates = t.gates ∧
      (t.chunkHeld h i half vs).stc h = (t.stc h).takesChunk (2 * i + half) ∧
      (∀ j, j ≠ h → (t.chunkHeld h i half vs).stc j = t.stc j) ∧
      (t.harvestSite h i half = none → (t.chunkHeld h i half vs).crofts = t.crofts) ∧
      ∀ x, t.harvestSite h i half = some x → (∀ q, q ≠ x.q → (t.chunkHeld h i half vs).croft q = t.croft q) ∧
        ∀ e v, vs[e]? = some v → State.harvestRow h i half e < 512 → ∀ b < 4,
          Memory.byte ((t.chunkHeld h i half vs).croft x.q).mem (Site.accRow (State.harvestRow h i half 0) + 4 * e + b) =
            (leBytes 4 v.toNat).getD b 0 := by
  have hset := t.stcSet_setStc h ((t.stc h).takesChunk (2 * i + half))
  have hg : (t.setStc h ((t.stc h).takesChunk (2 * i + half))).gates = t.gates := State.setStc_gates ..
  have hx := State.harvestSite_congr (t.takesChunk_frame h (2 * i + half)) (t.takesChunk_only h (2 * i + half)).2 h i half
  unfold State.chunkHeld
  generalize t.setStc h ((t.stc h).takesChunk (2 * i + half)) = u at hset hg hx
  have hf := u.holdSum_frame h i half vs
  refine ⟨?_, ?_, (State.stc_holdSum ..).trans hset.stc, fun j hj => (State.stc_holdSum ..).trans (hset.stc_ne hj), fun hn => ?_,
    fun x hsome => ?_⟩
  · refine ChunkAdded.trans (t := u) ?_ ?_
    · exact hset.only.trans (by rw [hset.only])
    · exact hf.trans (by rw [hf])
  · rw [hf]
    exact hg
  · rw [State.holdSum_none (hx.trans hn), hset.only]
  · rw [State.holdSum_some (hx.trans hsome)]
    refine ⟨fun q hq => ?_, fun e v hv hr b hb => ?_⟩
    · rw [State.croft_setCroft_ne _ _ hq, hset.only]
      rfl
    · obtain ⟨hl, hget⟩ := sumBytes_get (row := State.harvestRow h i half 0) hv hr hb
      rw [State.croft_setCroft_same, Site.byte_store, if_pos (by omega), ← hget]
      congr 1
      omega

end added
/-! #### A received chunk -/

theorem printedBy_takesChunk (c : Stc) (key i : Nat) (bs : List Byte) : printedBy (c.takesChunk key) i bs =
    (c.takesChunk key).setPrint (c.print ^^^ chunkPrint (BitVec.ofNat 32 c.step) i bs) := by
  have hp : (c.takesChunk key).print = c.print := rfl
  have hs : (c.takesChunk key).step = c.step := rfl
  unfold printedBy
  rw [hp, hs]

section received
variable {s : State} {g : GateId} {k : PortId} {m : Msg}

theorem msgTaken_gates (s : State) (g k : Nat) (m : Msg) : msgTaken s g k m = { s with gates := (msgTaken s g k m).gates } := by
  unfold msgTaken
  split <;> rfl

theorem msgTaken_ports (s : State) (g k : Nat) (m : Msg) (j : Nat) :
    (∀ o, ((msgTaken s g k m).gate j).reg o = (s.gate j).reg o) ∧
      ∀ i, (((msgTaken s g k m).gate j).port i).st = ((s.gate j).port i).st ∧
        (((msgTaken s g k m).gate j).port i).caps = ((s.gate j).port i).caps := by
  unfold msgTaken
  split
  · by_cases hj : j = g
    · subst hj
      rw [State.gate_setGate_same]
      refine ⟨fun _ => rfl, fun i => ?_⟩
      rw [Gate.port_setPort]
      split
      · next hi => rw [hi]; exact ⟨rfl, rfl⟩
      · exact ⟨rfl, rfl⟩
    · rw [State.gate_setGate_ne _ _ hj]
      exact ⟨fun _ => rfl, fun _ => ⟨rfl, rfl⟩⟩
  · exact ⟨fun _ => rfl, fun _ => ⟨rfl, rfl⟩⟩

variable (hwf : m.wellFormed = true) (ho : m.op = 0x40) (ha : AtPort s g k 2 m)
include hwf ho ha

theorem exec_harvestChunk : exec (.harvestChunk g k m) s = .next (s.asOne fun _ => (msgTaken s g k m).takeChunk m) :=
  (if_pos hwf).trans (congrArg Host.Outcome.next ((if_pos ho).trans (State.asOne_congr (State.atPort_serves ha _))))

variable {h : Nat} (hh : s.chunkHolding m = some h)
include hh

/-- A chunk that has been taken before is only taken off its port. -/
theorem harvestChunk_again (hk : 2 * m.addr.toNat + bitsOf m.arg1.toNat 8 8 ∈ (s.stc h).chunks) :
    exec (.harvestChunk g k m) s = .next (msgTaken s g k m) := by
  have ht : (msgTaken s g k m).takeChunk m = msgTaken s g k m := by
    have hh' : (msgTaken s g k m).chunkHolding m = some h := by rw [msgTaken_gates]; exact hh
    have hk' : 2 * m.addr.toNat + bitsOf m.arg1.toNat 8 8 ∈ ((msgTaken s g k m).stc h).chunks := by rw [msgTaken_gates]; exact
        hk
    unfold State.takeChunk
    rw [hh']
    exact if_pos (List.contains_iff_mem.mpr hk')
  rw [exec_harvestChunk hwf ho ha, ht, State.asOne_of_shadows]
  rw [msgTaken_gates]

/-- A new chunk is added, as one record. -/
theorem harvestChunk_adds (hk : 2 * m.addr.toNat + bitsOf m.arg1.toNat 8 8 ∉ (s.stc h).chunks) :
    ∃ u, exec (.harvestChunk g k m) s = .next u ∧
      u = { (msgTaken s g k m).addChunk h m.addr.toNat (bitsOf m.arg1.toNat 8 8) (m.arg1.getLsbD 9) m.payload with
        shadows := u.shadows, shadowNum := u.shadowNum, outq := u.outq } := by
  have ht : (msgTaken s g k m).takeChunk m =
      (msgTaken s g k m).addChunk h m.addr.toNat (bitsOf m.arg1.toNat 8 8) (m.arg1.getLsbD 9) m.payload := by
    have hh' : (msgTaken s g k m).chunkHolding m = some h := by rw [msgTaken_gates]; exact hh
    have hk' : 2 * m.addr.toNat + bitsOf m.arg1.toNat 8 8 ∉ ((msgTaken s g k m).stc h).chunks := by rw [msgTaken_gates]; exact
        hk
    unfold State.takeChunk
    rw [hh']
    exact if_neg fun h => hk' (List.contains_iff_mem.mp h)
  rw [exec_harvestChunk hwf ho ha, ht]
  exact ⟨_, rfl, State.asOne_eq s fun _ => _⟩

/-- What a new chunk of an attempt whose own chunks have left comes to. -/
theorem harvestChunk_summed (hk : 2 * m.addr.toNat + bitsOf m.arg1.toNat 8 8 ∉ (s.stc h).chunks)
    (hst : (s.stc h).started = true)
    {i half : Nat} (hi : i = m.addr.toNat) (hhalf : half = bitsOf m.arg1.toNat 8 8) {vs : List W32}
    (hvs : vs = s.summed h i half (m.arg1.getLsbD 9) m.payload) :
    ∃ u w, exec (.harvestChunk g k m) s = .next u ∧ ChunkAdded (msgTaken s g k m) u ∧
      w = (msgTaken s g k m).chunkHeld h i half vs ∧ State.LetOut h w (w.passChunk h i half vs) ∧
      u.crofts = w.crofts ∧ u.gates = (w.passChunk h i half vs).gates ∧ ∀ j, u.stc j = (w.passChunk h i half vs).stc j := by
  subst hi hhalf
  obtain ⟨u, hu, he⟩ := harvestChunk_adds hwf ho ha hh hk
  have hst' : ((msgTaken s g k m).stc h).started = true := by rw [msgTaken_gates]; exact hst
  have hsum : (msgTaken s g k m).summed h m.addr.toNat (bitsOf m.arg1.toNat 8 8) (m.arg1.getLsbD 9) m.payload = vs := by
    rw [hvs]
    unfold State.summed
    rw [State.ownChunk_congr (s := s) (by rw [msgTaken_gates]) fun j o => by rw [msgTaken_gates]; rfl]
  rw [State.addChunk_eq hst', hsum] at he
  obtain ⟨w, hw⟩ : ∃ w, w = (msgTaken s g k m).chunkHeld h m.addr.toNat (bitsOf m.arg1.toNat 8 8) vs := ⟨_, rfl⟩
  have hheld : ChunkAdded (msgTaken s g k m) w := hw ▸ ((msgTaken s g k m).chunkHeld_spec h _ _ vs).1
  rw [← hw] at he
  have hout := State.letOut_passChunk (h := h) w m.addr.toNat (bitsOf m.arg1.toNat 8 8) vs
  obtain ⟨hadd, hcr⟩ := hout.added
  refine ⟨u, w, hu, ?_, hw, hout, ?_, ?_, fun j => ?_⟩
  · refine (hheld.trans hadd).trans ?_
    exact he.trans (by rw [he])
  · rw [he]
    exact hcr
  · rw [he]
  · rw [he]
    rfl

end received

/-- Settles O53: peer messages are served at their port, and a chunk's sum stands in its croft and is kept or sent on. -/
theorem peerDataIsTaken : Obligations.PeerDataIsTaken := by
  unfold Obligations.PeerDataIsTaken
  intro g k m s hwf d p ack
  refine ⟨fun i vc hi hm => ⟨fun hu => ?_, fun hu hc => ?_⟩, fun h => discardMsg_quiet d k h, fun ho ht hc => discardMsg_answers d k ho ht hc,
    fun ho ha hup ht => ⟨permuteData_waits hwf ho ha ht, fun l hc hl hs hq => permuteData_answers hwf ho ha hup ht hc hl hs hq⟩,
    permuteAck_frees hwf, fun ho ha h hh => ?_,
    fun h i half e => ⟨State.ownChunk_config, fun x => State.ownChunk_held⟩, fun hu => ?_, fun hl => ?_, fun hu hl =>
        gateLost_raises hu hl⟩
  · obtain ⟨act, he | he⟩ := exec_peer hwf hi
    · rw [he, State.asOne_of_shadows]
      · rw [atPort_down hm hu]
      · rw [atPort_down hm hu]
    · rw [he, atPort_down hm hu]
  · obtain ⟨act, he | he⟩ := exec_peer hwf hi
    · rw [he, State.asOne_of_shadows]
      · rw [atPort_discards hm hu hc]
      · rw [atPort_discards hm hu hc]
        rfl
    · rw [he, atPort_discards hm hu hc]
  · intro c i half key bf sum heard printed taken
    refine ⟨harvestChunk_again hwf ho ha hh, fun hk => ?_, fun hk hst => ?_⟩
    · obtain ⟨u, hu, he⟩ := harvestChunk_adds hwf ho ha hh hk
      have hs (j : Nat) : u.stc j = (taken.addChunk h i half (m.arg1.getLsbD 9) m.payload).stc j := by rw [he]; rfl
      refine ⟨u, hu, ?_⟩
      rw [hs]
      exact State.addChunk_marks taken h i half _ _
    · obtain ⟨u, w, hu, hadd, hw, hout, hcr, hg, hs⟩ := harvestChunk_summed hwf ho ha hh hk hst rfl rfl (vs := sum) rfl
      obtain ⟨-, hwg, hwh, hwj, hwn, hwx⟩ := taken.chunkHeld_spec h i half sum
      rw [← hw] at hwg hwh hwj hwn hwx
      have hsite : taken.harvestSite h i half = s.harvestSite h i half :=
        State.harvestSite_congr (by rw [show taken = _ from msgTaken_gates s g k m])
            (fun j o => by rw [show taken = _ from msgTaken_gates s g k m]; rfl) h i half
      have htj (j : Nat) : taken.stc j = s.stc j := by rw [show taken = _ from msgTaken_gates s g k m]; rfl
      have htc : taken.crofts = s.crofts := by rw [show taken = _ from msgTaken_gates s g k m]
      rw [htj] at hwh
      have hports : w.chunkPorts (1 + half) i = s.chunkPorts (1 + half) i := State.chunkPorts_congr
        (fun j o => by unfold State.gate; rw [hwg]; exact (msgTaken_ports s g k m j).1 o)
        (fun j b => by unfold State.gate; rw [hwg]; exact (msgTaken_ports s g k m j).2 b) _ _
      refine ⟨u, hu, hadd, fun j hj => ?_, fun hn => ?_, fun x hx => ?_, ?_⟩
      · have := hout.others j hj
        rw [hwj j hj, htj, ← hs] at this
        obtain h | h := this <;> rw [h]
      · rw [hcr, hwn (hsite.trans hn), htc]
      · obtain ⟨h1, h2⟩ := hwx x (hsite.trans hx)
        have hcq (q : Nat) : u.croft q = w.croft q := by unfold State.croft; rw [hcr]
        refine ⟨fun q hq => ?_, ?_⟩
        · rw [hcq, h1 q hq]
          unfold State.croft
          rw [htc]
        · rw [hcq]
          exact h2
      · split
        · next hsh =>
          obtain ⟨k1, k2⟩ := State.passChunk_kept (s := w) (h := h) (i := i) (half := half) (vs := sum) (by rw [hwh]; exact hsh)
          rw [hg, hs, k1, hwg, k2, hwh, printedBy_takesChunk]
          exact ⟨rfl, rfl⟩
        · next hsh =>
          have hsh' : Config.chunkShard h i % (w.stc h).ringN ≠ (w.stc h).ringPos % (w.stc h).ringN := by rw [hwh]; exact hsh
          have hz : (w.stc h).horizon = true := by rw [hwh]; rfl
          have hmsg : chunkMsg h (w.stc h) i half sum = chunkMsg h c i half sum := by rw [hwh]; rfl
          intro next ports
          refine ⟨fun hnil => ?_, fun hne => ?_⟩
          · obtain ⟨k1, k2⟩ := State.passChunk_waits (vs := sum) hsh' (hports.trans hnil)
            rw [hg, hs, k1, hwg, k2, hmsg, hwh]
            exact ⟨rfl, rfl⟩
          · obtain ⟨k1, k2⟩ := State.passChunk_sent (vs := sum) hsh' (hports.trans_ne hne) hz
            rw [hg, hs, k1, k2, hports, hmsg, hwh, printedBy_takesChunk]
            exact ⟨rfl, State.postAt_congr h _ _ hwg⟩
  · exact if_pos (by rw [hu]; rfl)
  · exact if_pos (by rw [show (s.gate g).lost = true from hl, Bool.or_true])

end Sys2Proof.Machine

namespace Sys2Proof.Machine
open Sys2Proof.Safety

/-! ### A transfer within a croft -/

/-- A transfer at output byte p, in its piece of number k. -/
def Moving.at_ (m : Moving) (p k : Nat) : Moving := { m with next := p, packets := k }

/-- Output bytes that a piece writes lie side by side, and a piece is never empty (R234). -/
structure Moving.Laid (m : Moving) : Prop where
  pos (p k : Nat) : p < m.len → 0 < (m.at_ p k).pieceLen 32
  le (p k : Nat) : p < m.len → p + (m.at_ p k).pieceLen 32 ≤ m.len
  run (p k j : Nat) : p < m.len → j < (m.at_ p k).pieceLen 32 → m.dstAt (p + j) = m.dstAt p + j

theorem dstAt_lt (m : Moving) (p : Nat) : m.dstAt p < 2 ^ 32 := Nat.mod_lt _ (by decide)

/-- A transfer whose destination is one range. -/
theorem laid_contiguous {m : Moving} (h : ¬ (m.rsOp = 1 ∨ m.rsOp = 4)) (hd : ∀ p < m.len, m.dstAt p < 0x200000) : m.Laid := by
  have hl (p k : Nat) : (m.at_ p k).pieceLen 32 = min (min (m.len - p) (m.len - p)) (32 - m.dstAt p % 32) := by
    unfold Moving.pieceLen
    dsimp only
    rw [if_neg (show ¬ ((m.at_ p k).rsOp = 1 ∨ (m.at_ p k).rsOp = 4) from h)]
    rfl
  have ha (p : Nat) : m.dstAt p = (m.dstOff + p) % 2 ^ 32 := by
    unfold Moving.dstAt
    dsimp only
    rw [if_neg h]
  refine ⟨fun p k hp => ?_, fun p k hp => ?_, fun p k j hp hj => ?_⟩
  · rw [hl]
    omega
  · rw [hl]
    omega
  · rw [hl] at hj
    have := hd p hp
    rw [ha] at this
    rw [ha, ha]
    omega

/-- A transfer whose destination is one range for each plane or stream. -/
theorem laid_strided {m : Moving} (h : m.rsOp = 1 ∨ m.rsOp = 4) (hs : 0 < m.segLen) (hd : ∀ p < m.len, m.dstAt p < 0x200000) :
    m.Laid := by
  have hl (p k : Nat) : (m.at_ p k).pieceLen 32 = min (min (m.segLen - p % m.segLen) (m.len - p)) (32 - m.dstAt p % 32) := by
    unfold Moving.pieceLen
    dsimp only
    rw [if_pos (show (m.at_ p k).rsOp = 1 ∨ (m.at_ p k).rsOp = 4 from h)]
    rfl
  have ha (p : Nat) : m.dstAt p = (m.dstOff + (p / m.segLen * m.pstride + p % m.segLen)) % 2 ^ 32 := by
    unfold Moving.dstAt
    dsimp only
    rw [if_pos h]
  refine ⟨fun p k hp => ?_, fun p k hp => ?_, fun p k j hp hj => ?_⟩
  · have := Nat.mod_lt p hs
    rw [hl]
    omega
  · rw [hl]
    omega
  · rw [hl] at hj
    have h0 := hd p hp
    have hin : p % m.segLen + j < m.segLen := by omega
    have hsplit : p + j = m.segLen * (p / m.segLen) + (p % m.segLen + j) := by
      have := Nat.div_add_mod p m.segLen
      omega
    have hq : (p + j) / m.segLen = p / m.segLen := by
      rw [hsplit, Nat.mul_add_div hs, Nat.div_eq_of_lt hin, Nat.add_zero]
    have hr : (p + j) % m.segLen = p % m.segLen + j := by
      rw [hsplit, Nat.mul_add_mod, Nat.mod_eq_of_lt hin]
    rw [ha] at h0
    rw [ha, ha, hq, hr]
    generalize p / m.segLen * m.pstride = o at h0 ⊢
    omega

/-! #### Its pieces -/

/-- The croft of channel i as a local transfer m has written its first p output bytes: v is the channel at its start. -/
structure InMove (s : State) (q i : Nat) (v : Chan) (m : Moving) (p : Nat) (x : Site) : Prop where
  only : x = siteAs s q { s.croft q with chans := x.c.chans, mem := x.c.mem, ecc := x.c.ecc }
  chan : ∃ k, x.chan i = { carrying v m with bytes := v.bytes + p, moving := some (m.at_ p k) }
  others (j : Nat) : j ≠ i → x.chan j = chanOf (s.croft q) j
  clean (cw : Nat) : eccAt x.c cw = .clean
  done (r : Nat) : r < p → Memory.byte x.c.mem (m.dstAt r) = outOf m (s.croft q).mem r
  kept (a : Nat) : (∀ r < p, m.dstAt r ≠ a) → Memory.byte x.c.mem a = Memory.byte (s.croft q).mem a

theorem outOf_congr {m : Moving} {M M' : Memory} {p : Nat} (h : ∀ a ∈ m.sources p, Memory.byte M a = Memory.byte M' a) :
    outOf m M p = outOf m M' p := by
  unfold outOf
  rw [List.map_congr_left h]

section
variable {s : State} {q i : Nat} {v : Chan} {m : Moving} (hv : v.st = .run) (ho : v.outst = []) (hw : m.srcWin = false) (hd : m.dst = 0)
  (hf : m.failed = none) (ht : m.tries = 0) (hl : m.Laid) (hdst : ∀ p < m.len, m.dstAt p < 0x200000)
  (hinj : ∀ p < m.len, ∀ r < m.len, m.dstAt p = m.dstAt r → p = r) (hsrc : ∀ p < m.len, ∀ a ∈ m.sources p, a < 0x200000)
  (hapart : ∀ p < m.len, ∀ r < m.len, m.dstAt p ∉ m.sources r)
include hv ho hw hd hf ht hl hdst hinj hsrc hapart

/-- A piece of the transfer. -/
theorem InMove.piece {p : Nat} {x : Site} (hx : InMove s q i v m p x) (hp : p < m.len) (far : Far) (opc : Nat) :
    ∃ n y m', 0 < n ∧ p + n ≤ m.len ∧ (x.chan i).moving = some m' ∧ m'.failed = none ∧ m'.len = m.len ∧ m'.next = p ∧
      x.movePiece far i m' opc = some y ∧ InMove s q i v m (p + n) y := by
  obtain ⟨k, hch⟩ := hx.chan
  have hn0 := hl.pos p k hp
  have hle := hl.le p k hp
  have hrun (j : Nat) := hl.run p k j hp
  generalize hn : (m.at_ p k).pieceLen 32 = n at hn0 hle hrun
  have hlast := hdst (p + (n - 1)) (by omega)
  rw [hrun (n - 1) (by omega)] at hlast
  have hreg : Site.region (m.dstAt p) = .scratch := region_scratch (hdst p hp)
  have hg := gatherOut_clean x hx.clean (m.at_ p k) p n opc fun j hj a ha => hsrc (p + j) (by omega) a ha
  have hbs : ((List.range n).map fun j => outOf (m.at_ p k) x.c.mem (p + j)) = (List.range n).map fun j => outOf m (s.croft q).mem (p + j) :=
    List.map_congr_left fun j hj => outOf_congr (m := m) fun a ha => hx.kept a fun r hr he =>
      hapart r (by omega) (p + j) (by have := List.mem_range.mp hj; omega) (he ▸ ha)
  rw [hbs] at hg
  obtain ⟨y, ⟨hy, hclean⟩, hst⟩ := localStore_clean hx.clean i (a := m.dstAt p)
    (bs := (List.range n).map fun j => outOf m (s.croft q).mem (p + j)) (by rw [List.length_map, List.length_range]; omega) opc
        m.tclass
  have hyc : y.chan i = x.chan i := by rw [hy]; rfl
  have hmv : y.moved i (m.at_ p k) n n = y.modChan i fun c =>
      { c with bytes := c.bytes + n, moving := some (pieceDone (m.at_ p k) n) } :=
    moved_running y i _ n n (by rw [hyc, hch]; exact hv) (by rw [hyc, hch]; rfl)
  refine ⟨n, y.moved i (m.at_ p k) n n, m.at_ p k, hn0, hle, by rw [hch], hf, rfl, rfl, ?_, ?_⟩
  · have hq : (x.chan i).outst = [] := by rw [hch]; exact ho
    unfold Site.movePiece
    dsimp only
    rw [if_neg (show ¬ (m.at_ p k).srcWin = true by rw [show (m.at_ p k).srcWin = false from hw]; decide)]
    rw [if_pos (show (m.at_ p k).dst = 0 from hd)]
    rw [if_neg (show ¬ Site.region ((m.at_ p k).dstAt (m.at_ p k).next) = .block by
      rw [show (m.at_ p k).dstAt (m.at_ p k).next = m.dstAt p from rfl, hreg]; decide)]
    rw [hn, clashes_quiet _ _ _ _ _ _ hq, show (m.at_ p k).next = p from rfl, hg]
    rw [if_neg (by rw [show (m.at_ p k).dst = 0 from hd]; simp)]
    dsimp only
    rw [if_neg (by decide), if_pos (show (m.at_ p k).dst = 0 from hd), show (m.at_ p k).dstAt p = m.dstAt p from rfl,
      show (m.at_ p k).tclass = m.tclass from rfl, hst]
    simp only [List.length_map, List.length_range]
    rfl
  · rw [hmv]
    have hget (j : Nat) (hj : j < n) : (((List.range n).map fun j => outOf m (s.croft q).mem (p + j)).getD j 0) =
        outOf m (s.croft q).mem (p + j) := by simp [hj]
    have hmem (a : Nat) : Memory.byte (y.modChan i fun c =>
        { c with bytes := c.bytes + n, moving := some (pieceDone (m.at_ p k) n) }).c.mem a =
        if m.dstAt p ≤ a ∧ a < m.dstAt p + n then outOf m (s.croft q).mem (p + (a - m.dstAt p)) else Memory.byte x.c.mem a := by
      rw [hy]
      refine (Memory.byte_write _ _ _ _).trans ?_
      rw [List.length_map, List.length_range]
      refine ite_congr rfl (fun h => hget _ (by omega)) fun _ => rfl
    refine ⟨?_, ⟨k + 1, ?_⟩, fun j hj => ?_, hclean, fun r hr' => ?_, fun a ha => ?_⟩
    · rw [hy, hx.only]
      rfl
    · unfold Site.modChan
      rw [Site.chan_setChan, if_pos rfl, hyc, hch]
      unfold pieceDone carrying Moving.at_
      dsimp only
      rw [hf, ht, Nat.add_assoc]
    · unfold Site.modChan
      rw [Site.chan_setChan, if_neg hj, show y.chan j = x.chan j by rw [hy]; rfl, hx.others j hj]
    · rw [hmem]
      by_cases hin : m.dstAt p ≤ m.dstAt r ∧ m.dstAt r < m.dstAt p + n
      · rw [if_pos hin]
        have hsame : m.dstAt r = m.dstAt (p + (m.dstAt r - m.dstAt p)) := by
          rw [hrun _ (by omega)]
          omega
        rw [← hinj r (by omega) (p + (m.dstAt r - m.dstAt p)) (by omega) hsame]
      · rw [if_neg hin]
        by_cases hrp : r < p
        · exact hx.done r hrp
        · exfalso
          have := hrun (r - p) (by omega)
          rw [show p + (r - p) = r by omega] at this
          omega
    · rw [hmem, if_neg ?_]
      · exact hx.kept a fun r hr' => ha r (by omega)
      · rintro ⟨h1, h2⟩
        refine ha (p + (a - m.dstAt p)) (by omega) ?_
        rw [hrun _ (by omega)]
        omega

/-- A transfer runs to its end. -/
theorem InMove.pump {p : Nat} {x : Site} (hx : InMove s q i v m p x) (hp : p ≤ m.len) (far : Far) (opc fuel : Nat)
    (hfuel : m.len - p < fuel) : ∃ y, InMove s q i v m m.len y ∧ x.pump far i opc fuel = y.modChan i Chan.advance := by
  induction fuel generalizing p x with
  | zero => omega
  | succ fuel ih =>
    by_cases hend : p = m.len
    · subst hend
      obtain ⟨k, hch⟩ := hx.chan
      refine ⟨x, hx, ?_⟩
      rw [Site.pump, hch]
      dsimp only
      rw [show (m.at_ m.len k).failed = none from hf, if_neg (by decide)]
      exact if_pos (Nat.le_refl _)
    · obtain ⟨n, y, m', hn, hle, hm, hfail, hlen, hnext, hpiece, hy⟩ := hx.piece hv ho hw hd hf ht hl hdst hinj hsrc hapart
        (Nat.lt_of_le_of_ne hp hend) far opc
      obtain ⟨z, hz, he⟩ := ih hy hle (by omega)
      refine ⟨z, hz, ?_⟩
      rw [Site.pump, hm]
      dsimp only
      rw [hfail, if_neg (by decide), if_neg (by omega), hpiece]
      exact he

end

/-- A local transfer that its targets allow moves its bytes. -/
theorem local_moved {s : State} {q : Phys} {i : Chn} {w : W256} (h : CarterAt s q i w) {m : Moving}
    (hm : m = Site.moveOf (chanOf (s.croft q) i) w) (far : Far) (rs : Nat) (hopc : carOpc w = if rs = 0 then 1 else 2)
    (hrs : rs = 0 ∨ cfield w 120 117 = rs) (hw : m.srcWin = false) (hd : m.dst = 0) (hmov : Movable s q i m) (hl : m.Laid) :
    ∃ t, (Host.Outcome.next (s.onCroft q fun x => x.moveCmd far i rs) : Host.Outcome State Fault Refusal) = .next t ∧
      Moved q i s t w m ∧ ∀ r < m.len, Memory.byte (t.croft q).mem (m.dstAt r) = outOf m (s.croft q).mem r := by
  obtain ⟨hq, hclean, href, hscr, hapart⟩ := hmov
  obtain ⟨hdst, hinj, hdis⟩ := hapart hd
  have hmf : Site.moveOf (fetchedTo (chanOf (s.croft q) i) w) w = m := hm.symm
  have h0 : m.at_ 0 0 = m := by rw [hm]; rfl
  have hf : m.failed = none := by rw [hm]; rfl
  have ht : m.tries = 0 := by rw [hm]; rfl
  obtain ⟨x, hx, hcmd⟩ := moveCmd_at h far rs hopc hrs (by rw [hmf]; exact href)
  rw [hmf] at hx hcmd
  obtain ⟨v, hvdef⟩ : ∃ v, v = fetchedTo (chanOf (s.croft q) i) w := ⟨_, rfl⟩
  have hvb : v.bytes = (chanOf (s.croft q) i).bytes := by rw [hvdef]; rfl
  have hvs : v.st = .run := by rw [hvdef]; exact h.2.1
  have hvo : v.outst = [] := by rw [hvdef]; exact hq
  rw [← hvdef] at hx
  have hstart : InMove s q i v m 0 x := by
    obtain ⟨t, rfl, hch, hoth⟩ := hx
    refine ⟨rfl, ⟨0, ?_⟩, hoth, hclean, fun r hr => absurd hr (by omega), fun _ _ => rfl⟩
    rw [h0]
    exact hch
  obtain ⟨y, hy, hpump⟩ := hstart.pump hvs hvo hw hd hf ht hl hdst hinj (hscr hw) (hdis hw) (Nat.zero_le _) far (carOpc w) (m.len + 2)
    (by omega)
  obtain ⟨k, hych⟩ := hy.chan
  have hz : (s.site q).moveCmd far i rs = y.modChan i Chan.advance := hcmd.trans hpump
  have hyc : (y.modChan i Chan.advance).c = { y.c with chans := (y.modChan i Chan.advance).c.chans } := rfl
  have hcroft : (s.onCroft q fun x => x.moveCmd far i rs).croft q = (y.modChan i Chan.advance).c := by
    rw [State.croft_onCroft_same, hz]
  have hout : y.out = [] ∧ y.raised = [] := by rw [hy.only]; exact ⟨rfl, rfl⟩
  refine ⟨_, rfl, ⟨?_, ?_, ?_, ?_⟩, ?_⟩
  · rw [State.onCroft_eq', hz]
    have ho : (y.modChan i Chan.advance).out = [] ∧ (y.modChan i Chan.advance).raised = [] := hout
    simp [ho]
  · rw [hcroft]
    exact hy.clean
  · have hto : ChanTo q i s (s.onCroft q fun x => x.moveCmd far i rs) _ _ := chanTo_onCroft
      (v := ({ v with tclass := m.tclass, bytes := v.bytes + m.len, moving := none } : Chan).advance)
      (c := { s.croft q with mem := y.c.mem, ecc := y.c.ecc }) (by rw [hz]; exact hout.2) ?_ (fun j hj => ?_) ?_
    · rw [hcroft, ← hvb]
      rw [hvdef] at hto ⊢
      exact hto
    · rw [hz]
      change (y.modChan i Chan.advance).chan i = _
      unfold Site.modChan
      rw [Site.chan_setChan, if_pos rfl, hych]
      rfl
    · rw [hz]
      change (y.modChan i Chan.advance).chan j = _
      unfold Site.modChan
      rw [Site.chan_setChan, if_neg hj, hy.others j hj]
    · rw [hz, hyc]
      have hc : y.c = { s.croft q with chans := y.c.chans, mem := y.c.mem, ecc := y.c.ecc } := congrArg Site.c hy.only
      generalize (y.modChan i Chan.advance).c.chans = cs
      rw [hc]
  · intro a ha
    rw [hcroft]
    exact hy.kept a ha
  · intro r hr
    rw [hcroft]
    exact hy.done r hr

/-! ### The five orders (R232, R238, R239) -/

theorem byteOf_bit (f : Nat → Bool) {k : Nat} (hk : k < 8) : (Moving.byteOf f).getLsbD k = f k := by
  unfold Moving.byteOf
  rw [BitVec.getLsbD_ofNat, decide_eq_true hk, Bool.true_and]
  exact (testBit_sum_pow f 8).2 k hk

/-- Bit n of the bits from an address is bit n % 8 of byte n / 8. -/
theorem memBit_eq (M : Memory) (a n : Nat) : memBit M a n = (Memory.byte M (a + n / 8)).getLsbD (n % 8) := rfl

section orders
variable {m : Moving} (href : Site.moveRefused m = 0) (hw : m.srcWin = false) (hd : m.dst = 0)
  (hs : m.srcOff < 2 ^ 32) (hdo : m.dstOff < 2 ^ 32)
include href

theorem dstOff_end (hd : m.dst = 0) (hdo : m.dstOff < 2 ^ 32) (h : ¬ (m.rsOp = 1 ∨ m.rsOp = 4)) : m.dstOff + m.len ≤ 0x0F005000
    := by
  have hr : (m.dstOff % 2 ^ 32, m.len) ∈ m.ranges true := by
    unfold Moving.ranges
    dsimp only
    rw [if_neg (by simpa using h)]
    exact List.mem_singleton.2 rfl
  have := (ranges_end href).2 hd _ hr
  dsimp only at this
  omega

theorem dstAt_contiguous (hd : m.dst = 0) (hdo : m.dstOff < 2 ^ 32) (h : ¬ (m.rsOp = 1 ∨ m.rsOp = 4)) {p : Nat} (hp : p < m.len)
    :
    m.dstAt p = m.dstOff + p := by
  have := dstOff_end href hd hdo h
  unfold Moving.dstAt
  dsimp only
  rw [if_neg h]
  omega

theorem srcOff_end (hw : m.srcWin = false) (hs : m.srcOff < 2 ^ 32) (h : ¬ (m.rsOp = 2 ∨ m.rsOp = 3)) :
    m.srcOff + m.len ≤ 0x0F005000 := by
  have hr : (m.srcOff % 2 ^ 32, m.len) ∈ m.ranges false := by
    unfold Moving.ranges
    dsimp only
    rw [if_neg (by simpa using h)]
    exact List.mem_singleton.2 rfl
  have := (ranges_end href).1 hw _ hr
  dsimp only at this
  omega

theorem srcRow_end (hw : m.srcWin = false) (h : m.rsOp = 2 ∨ m.rsOp = 3) {j : Nat} (hj : j < m.len / m.segLen) :
    (m.srcOff + j * m.pstride) % 2 ^ 32 + m.segLen ≤ 0x0F005000 := by
  have hr : ((m.srcOff + j * m.pstride) % 2 ^ 32, m.segLen) ∈ m.ranges false := by
    unfold Moving.ranges
    dsimp only
    rw [if_pos (by simpa using h)]
    exact List.mem_map.2 ⟨j, List.mem_range.2 hj, rfl⟩
  exact (ranges_end href).1 hw _ hr

end orders

/-- Output byte b of plane or stream j. -/
theorem dstAt_strided {m : Moving} (h : m.rsOp = 1 ∨ m.rsOp = 4) {j b : Nat} (hb : b < m.segLen) :
    m.dstAt (j * m.segLen + b) = (m.dstOff + j * m.pstride + b) % 2 ^ 32 ∧ (j * m.segLen + b) / m.segLen = j ∧
      (j * m.segLen + b) % m.segLen = b := by
  have h1 : (j * m.segLen + b) / m.segLen = j := by
    rw [Nat.mul_comm, Nat.mul_add_div (by omega), Nat.div_eq_of_lt hb, Nat.add_zero]
  have h2 : (j * m.segLen + b) % m.segLen = b := by
    rw [Nat.mul_comm, Nat.mul_add_mod, Nat.mod_eq_of_lt hb]
  refine ⟨?_, h1, h2⟩
  unfold Moving.dstAt
  dsimp only
  rw [if_pos h, h1, h2, Nat.add_assoc]

theorem outOf_planes {m : Moving} (h : m.rsOp = 1) (M : Memory) (p : Nat) : outOf m M p =
    Moving.byteOf fun t => ((((List.range m.width).map fun t => (m.srcOff + (p % m.segLen * m.width + t)) % 2 ^ 32).map
      (Memory.byte M)).getD ((t * m.width + p / m.segLen) / 8) 0).getLsbD ((t * m.width + p / m.segLen) % 8) := by
  unfold outOf Moving.outByte Moving.sources
  rw [h]
  rfl

theorem outOf_samples {m : Moving} (h : m.rsOp = 2) (M : Memory) (p : Nat) : outOf m M p =
    Moving.byteOf fun t => ((((List.range 8).map fun t =>
      (m.srcOff + ((8 * p + t) % m.width * m.pstride + (8 * p + t) / m.width / 8)) % 2 ^ 32).map (Memory.byte M)).getD t
          0).getLsbD
        ((8 * p + t) / m.width % 8) := by
  unfold outOf Moving.outByte Moving.sources
  rw [h]
  rfl

theorem outOf_merged {m : Moving} (h : m.rsOp = 3) (M : Memory) (p : Nat) : outOf m M p = Memory.byte M
    ((m.srcOff + (p / m.gran % m.streams * m.pstride + p / m.gran / m.streams * m.gran + p % m.gran)) % 2 ^ 32) := by
  unfold outOf Moving.outByte Moving.sources
  rw [h]
  rfl

theorem outOf_streams {m : Moving} (h : m.rsOp = 4) (M : Memory) (p : Nat) : outOf m M p = Memory.byte M
    ((m.srcOff + ((p % m.segLen / m.gran * m.streams + p / m.segLen) * m.gran + p % m.segLen % m.gran)) % 2 ^ 32) := by
  unfold outOf Moving.outByte Moving.sources
  rw [h]
  rfl

/-- A bit of a plane that SPLIT_PLANES writes (R238). -/
theorem outOf_split {m : Moving} (h : m.rsOp = 1) {M : Memory} {j b k : Nat} (hj : j < m.width) (hb : b < m.segLen) (hk : k < 8)
    (hend : m.srcOff + m.len ≤ 0x0F005000) (hlen : m.len = m.width * m.segLen) :
    (outOf m M (j * m.segLen + b)).getLsbD k = memBit M m.srcOff ((8 * b + k) * m.width + j) := by
  obtain ⟨-, h1, h2⟩ := dstAt_strided (.inl h) (j := j) hb
  have hin : (k * m.width + j) / 8 < m.width := by
    have : k * m.width ≤ 7 * m.width := Nat.mul_le_mul_right _ (by omega)
    omega
  have hbound : b * m.width + m.width ≤ m.len := by
    rw [hlen, ← Nat.succ_mul, Nat.mul_comm m.width]
    exact Nat.mul_le_mul_right _ hb
  have hn : (8 * b + k) * m.width + j = 8 * (b * m.width) + (k * m.width + j) := by ring
  rw [outOf_planes h, h1, h2, byteOf_bit _ hk, List.map_map, List.getD_eq_getElem _ _ (by simpa using hin), List.getElem_map, List.getElem_range,
    memBit_eq, hn]
  dsimp only [Function.comp_apply]
  generalize b * m.width = o at hbound ⊢
  generalize k * m.width + j = c at hin ⊢
  have haddr : (m.srcOff + (o + c / 8)) % 2 ^ 32 = m.srcOff + (8 * o + c) / 8 := by omega
  rw [haddr, show c % 8 = (8 * o + c) % 8 by omega]

/-- A bit that MERGE_PLANES takes from its plane (R238). -/
theorem outOf_merge {m : Moving} (h : m.rsOp = 2) {M : Memory} {n : Nat}
    (hend : (m.srcOff + n % m.width * m.pstride) % 2 ^ 32 + m.segLen ≤ 0x0F005000) (hn : n / m.width / 8 < m.segLen) :
    (outOf m M (n / 8)).getLsbD (n % 8) = memBit M ((m.srcOff + n % m.width * m.pstride) % 2 ^ 32) (n / m.width) := by
  have h8 : 8 * (n / 8) + n % 8 = n := Nat.div_add_mod n 8
  rw [outOf_samples h, byteOf_bit _ (Nat.mod_lt _ (by decide)), List.map_map, List.getD_eq_getElem _ _ (by simpa using Nat.mod_lt n (by decide)),
    List.getElem_map, List.getElem_range, memBit_eq]
  dsimp only [Function.comp_apply]
  rw [h8]
  generalize n % m.width * m.pstride = o at hend ⊢
  generalize n / m.width = c at hn ⊢
  congr 2
  omega

theorem outOf_interleave {m : Moving} (h : m.rsOp = 3) (M : Memory) (p : Nat) : outOf m M p = Memory.byte M
    ((m.srcOff + p / m.gran % m.streams * m.pstride + p / m.gran / m.streams * m.gran + p % m.gran) % 2 ^ 32) := by
  rw [outOf_merged h]
  congr 2
  omega

theorem outOf_deinterleave {m : Moving} (h : m.rsOp = 4) {M : Memory} {j r : Nat} (hj : j < m.streams) (hr : r < m.segLen)
    (hend : m.srcOff + m.len ≤ 0x0F005000) (hlen : r * m.streams ≤ m.len) (hg : m.gran ≤ 128) (hs : m.streams ≤ 16) :
    outOf m M (j * m.segLen + r) = Memory.byte M (m.srcOff + (r / m.gran * m.streams + j) * m.gran + r % m.gran) := by
  obtain ⟨-, h1, h2⟩ := dstAt_strided (.inr h) (j := j) hr
  have hb : (r / m.gran * m.streams + j) * m.gran ≤ m.len + 16 * 128 := by
    have e : (r / m.gran * m.streams + j) * m.gran = r / m.gran * m.gran * m.streams + j * m.gran := by ring
    have e1 : r / m.gran * m.gran * m.streams ≤ r * m.streams := Nat.mul_le_mul_right _ (Nat.div_mul_le_self _ _)
    have e2 : j * m.gran ≤ 16 * 128 := Nat.mul_le_mul (by omega) hg
    omega
  have hm : r % m.gran ≤ m.len + 128 := by
    by_cases h0 : m.gran = 0
    · rw [h0, Nat.mod_zero]
      have : r * 1 ≤ r * m.streams := Nat.mul_le_mul_left _ (by omega)
      omega
    · have := Nat.mod_lt r (Nat.pos_of_ne_zero h0)
      omega
  rw [outOf_streams h, h1, h2]
  congr 1
  omega


/-! #### The fields of a local RESHUFFLE (R230) -/

theorem moveOf_local {w : W256} (v : Chan) (hs : cfield w 251 250 = 0) (hd : cfield w 249 248 = 0) :
    (Site.moveOf v w).srcWin = false ∧ (Site.moveOf v w).dst = 0 :=
  ⟨decide_eq_false (by rw [hs]; decide), hd⟩

theorem moveOf_reshuffle {w : W256} (v : Chan) (ho : carOpc w = 2) : (Site.moveOf v w).rsOp = cfield w 120 117 := if_pos ho

theorem reshuffle_legal {w : W256} (hl : carLegal w = true) (ho : carOpc w = 2) : reshuffleFields w = true := by
  unfold carLegal at hl
  dsimp only at hl
  rw [ho] at hl
  simp only [Bool.and_eq_true] at hl
  exact hl.2.2

/-- SPLIT_PLANES and MERGE_PLANES move whole codewords of each plane. -/
theorem planes_legal {w : W256} (hl : carLegal w = true) (ho : carOpc w = 2) (hop : cfield w 120 117 = 1 ∨ cfield w 120 117 = 2)
    :
    0 < cfield w 116 112 ∧ ∃ z, cfield w 240 221 + 1 = cfield w 116 112 * (32 * z) := by
  have h := reshuffle_legal hl ho
  have hsel : (cfield w 120 117 == 1 || cfield w 120 117 == 2) = true := by
    obtain h | h := hop <;> rw [h] <;> rfl
  unfold reshuffleFields at h
  dsimp only at h
  rw [hsel, if_pos rfl] at h
  generalize cfield w 116 112 = W at h ⊢
  generalize cfield w 240 221 + 1 = n at h ⊢
  simp only [Bool.and_eq_true, Bool.or_eq_true, beq_iff_eq] at h
  obtain ⟨-, ⟨⟨⟨hW, -⟩, -⟩, hdiv⟩, hmod⟩ := h
  refine ⟨by omega, n * 8 / W / 256, ?_⟩
  rcases hW with (((rfl | rfl) | rfl) | rfl) | rfl <;> omega

/-- INTERLEAVE and DEINTERLEAVE move whole codewords of each stream. -/
theorem streams_legal {w : W256} (hl : carLegal w = true) (ho : carOpc w = 2)
    (hop : cfield w 120 117 = 3 ∨ cfield w 120 117 = 4) :
    ∃ z, cfield w 240 221 + 1 = (cfield w 111 108 + 1) * (32 * z) := by
  have h := reshuffle_legal hl ho
  have hsel : (cfield w 120 117 == 1 || cfield w 120 117 == 2) = false := by
    obtain h | h := hop <;> rw [h] <;> rfl
  have hsel' : (cfield w 120 117 == 3 || cfield w 120 117 == 4) = true := by
    obtain h | h := hop <;> rw [h] <;> rfl
  unfold reshuffleFields at h
  dsimp only at h
  rw [hsel, if_neg (by decide), hsel', if_pos rfl] at h
  simp only [Bool.and_eq_true, beq_iff_eq] at h
  obtain ⟨z, hz⟩ := Nat.dvd_of_mod_eq_zero h.2.2
  refine ⟨z, hz.trans ?_⟩
  ring

/-- Settles O25: a local transfer writes its pieces one by one, each byte the one that its order names. -/
theorem carterMovesBytes : Obligations.CarterMovesBytes := by
  unfold Obligations.CarterMovesBytes
  intro q i s w h c m W S G stride hsrc hdst hmov
  have hlegal : carLegal w = true := h.2.2.2.1
  obtain ⟨hw, hd⟩ := moveOf_local (chanOf c i) hsrc hdst
  obtain ⟨hso, hdo⟩ := moveOf_offsets (chanOf c i) w
  have href : Site.moveRefused m = 0 := hmov.2.2.1
  have hin : ∀ p < m.len, m.dstAt p < 0x200000 := (hmov.2.2.2.2 hd).1
  have hmd : m = Site.moveOf (chanOf (s.croft q) i) w := rfl
  have hlen : m.len = cfield w 240 221 + 1 := rfl
  have hwidth : m.width = W := rfl
  have hstreams : m.streams = S := rfl
  have hgran : m.gran = G := rfl
  have hstride : m.pstride = stride := rfl
  have hpos : 0 < m.len := Nat.succ_pos _
  refine ⟨fun ho => ?_, fun ho hop => ?_, fun ho hop => ?_, fun ho hop => ?_, fun ho hop => ?_⟩
  · have hr : m.rsOp = 0 := moveOf_move ho
    have hc : ¬ (m.rsOp = 1 ∨ m.rsOp = 4) := by omega
    obtain ⟨t, ht, hmoved, hbytes⟩ := local_moved h hmd (s.far q) 0 ho (.inl rfl) hw hd hmov (laid_contiguous hc hin)
    have hend := srcOff_end href hw hso (by omega)
    refine ⟨t, ht, hmoved, fun p hp => ?_⟩
    rw [← dstAt_contiguous href hd hdo hc hp, hbytes p hp, outOf_move hr]
    congr 1
    omega
  · have hr : m.rsOp = 1 := (moveOf_reshuffle _ ho).trans hop
    obtain ⟨hW, z, hz⟩ := planes_legal hlegal ho (.inl hop)
    have hseg : m.segLen = m.len / W := if_pos (.inl hr)
    have hsz : m.segLen = 32 * z := by rw [hseg, hlen, hz, Nat.mul_div_cancel_left _ hW]
    have hlw : m.len = W * m.segLen := by rw [hsz, hlen, hz]
    have hsp : 0 < m.segLen := Nat.pos_of_ne_zero fun h0 => by rw [h0, Nat.mul_zero] at hlw; omega
    obtain ⟨t, ht, hmoved, hbytes⟩ := local_moved h hmd (s.far q) 1 ho (.inr hop) hw hd hmov (laid_strided (.inl hr) hsp hin)
    have hend := srcOff_end href hw hso (by omega)
    refine ⟨t, ht, hmoved, fun j hj b hb k hk => ?_⟩
    rw [← hseg] at hb
    have hp : j * m.segLen + b < m.len := by
      have : (j + 1) * m.segLen ≤ W * m.segLen := Nat.mul_le_mul_right _ hj
      rw [Nat.succ_mul] at this
      omega
    rw [memBit_eq, Nat.div_eq_of_lt hk, Nat.add_zero, Nat.mod_eq_of_lt hk, ← hstride, ← (dstAt_strided (.inl hr) hb).1, hbytes _
        hp,
      outOf_split hr hj hb hk hend hlw]
    rfl
  · have hr : m.rsOp = 2 := (moveOf_reshuffle _ ho).trans hop
    have hc : ¬ (m.rsOp = 1 ∨ m.rsOp = 4) := by omega
    obtain ⟨hW, z, hz⟩ := planes_legal hlegal ho (.inr hop)
    have hseg : m.segLen = m.len / W := if_pos (.inr hr)
    have hsz : m.segLen = 32 * z := by rw [hseg, hlen, hz, Nat.mul_div_cancel_left _ hW]
    have hlw : m.len = W * m.segLen := by rw [hsz, hlen, hz]
    have hsp : 0 < m.segLen := Nat.pos_of_ne_zero fun h0 => by rw [h0, Nat.mul_zero] at hlw; omega
    obtain ⟨t, ht, hmoved, hbytes⟩ := local_moved h hmd (s.far q) 2 ho (.inr hop) hw hd hmov (laid_contiguous hc hin)
    refine ⟨t, ht, hmoved, fun n hn => ?_⟩
    have hj : n % m.width < m.len / m.segLen := by
      rw [hlw, Nat.mul_div_cancel _ hsp]
      exact Nat.mod_lt _ hW
    have hb : n / m.width / 8 < m.segLen := by
      rw [Nat.div_div_eq_div_mul, Nat.mul_comm]
      refine Nat.div_lt_of_lt_mul ?_
      rw [hwidth, Nat.mul_assoc, ← hlw]
      exact hn
    rw [memBit_eq, ← dstAt_contiguous href hd hdo hc (by omega), hbytes _ (by omega), outOf_merge hr
        (srcRow_end href hw (.inl hr) hj) hb]
    rfl
  · have hr : m.rsOp = 3 := (moveOf_reshuffle _ ho).trans hop
    have hc : ¬ (m.rsOp = 1 ∨ m.rsOp = 4) := by omega
    obtain ⟨t, ht, hmoved, hbytes⟩ := local_moved h hmd (s.far q) 3 ho (.inr hop) hw hd hmov (laid_contiguous hc hin)
    refine ⟨t, ht, hmoved, fun p hp => ?_⟩
    rw [← dstAt_contiguous href hd hdo hc hp, hbytes p hp, outOf_interleave hr]
    rfl
  · have hr : m.rsOp = 4 := (moveOf_reshuffle _ ho).trans hop
    obtain ⟨z, hz⟩ := streams_legal hlegal ho (.inr hop)
    have hseg : m.segLen = m.len / S := (if_neg (by omega)).trans (if_neg (by omega))
    have hsz : m.segLen = 32 * z := by rw [hseg, hlen, hz, Nat.mul_div_cancel_left _ (Nat.succ_pos _)]
    have hls : m.len = S * m.segLen := by rw [hsz, hlen, hz]
    have hsp : 0 < m.segLen := Nat.pos_of_ne_zero fun h0 => by rw [h0, Nat.mul_zero] at hls; omega
    obtain ⟨t, ht, hmoved, hbytes⟩ := local_moved h hmd (s.far q) 4 ho (.inr hop) hw hd hmov (laid_strided (.inr hr) hsp hin)
    have hend := srcOff_end href hw hso (by omega)
    refine ⟨t, ht, hmoved, fun j hj r hr' => ?_⟩
    rw [← hseg] at hr'
    have hp : j * m.segLen + r < m.len := by
      have : (j + 1) * m.segLen ≤ S * m.segLen := Nat.mul_le_mul_right _ hj
      rw [Nat.succ_mul] at this
      omega
    have hrs : r * m.streams ≤ m.len := by
      rw [hls, hstreams, Nat.mul_comm]
      exact Nat.mul_le_mul_left _ (Nat.le_of_lt hr')
    have hg : m.gran ≤ 128 := Nat.pow_le_pow_right (n := 2) (by decide)
        (show cfield w 107 105 ≤ 7 from Nat.le_of_lt_succ (cfield_lt w 107 105))
    have hk : m.streams ≤ 16 := cfield_lt w 111 108
    rw [← hstride, ← (dstAt_strided (.inr hr) hr').1, hbytes _ hp, outOf_deinterleave hr hj hr' hend hrs hg hk]
    rfl

end Sys2Proof.Machine

namespace Sys2Proof.Machine
open Sys2Proof.Safety

/-! ## O54: bring-up passes its stages

### What bring-up reads of the state, and what leaves it alone -/

namespace State

/-- Bring-up's own view: the security registers, the clock, whether the ledger answers and its cycle, and the boot bell. -/
def boot (s : State) : Sec × Clock × Bool × Nat × Bool := (s.sec, s.clock, s.ledger.answers, s.ledger.cycle, s.faults.bootBell)

@[simp] theorem boot_mk (regs power clock parishes deadR linksDown steered linkCorr linkUnc pulses crofts stcs gates stewards
    shadows shadowNum toIsolate shadowStcs shadowFaults shadowFlt holdings faults ledger sec cables twb tap bscan slotId outq
        flights inbox reports summaries calls freeCtr pending) :
    boot (State.mk regs power clock parishes deadR linksDown steered linkCorr linkUnc pulses crofts stcs gates stewards shadows
        shadowNum toIsolate shadowStcs shadowFaults shadowFlt holdings faults ledger sec cables twb tap bscan slotId outq
            flights inbox reports summaries calls freeCtr pending) =
      (sec, clock, ledger.answers, ledger.cycle, faults.bootBell) := (rfl)

@[simp] theorem boot_fold (s : State) : (s.sec, s.clock, s.ledger.answers, s.ledger.cycle, s.faults.bootBell) = s.boot := (rfl)

@[simp] theorem boot_ite (c : Prop) [Decidable c] (a b : State) : (if c then a else b).boot = if c then a.boot else b.boot :=
  apply_ite _ _ _ _

@[simp] theorem boot_foldl {α : Type} {f : State → α → State} (hf : ∀ s a, (f s a).boot = s.boot) (l : List α) (s : State) :
    (l.foldl f s).boot = s.boot := foldl_same State.boot hf l s

/-- The same operation on the same view leaves the same security registers, clock, answers, cycle and boot bell. -/
theorem of_boot {s t : State} (h : t.boot = s.boot) : t.sec = s.sec ∧ t.clock = s.clock ∧ t.ledger.answers = s.ledger.answers ∧
    t.ledger.cycle = s.ledger.cycle ∧ t.faults.bootBell = s.faults.bootBell := by
  simpa only [boot, Prod.mk.injEq] using h

theorem sec_of_boot {s t : State} (h : t.boot = s.boot) : t.sec = s.sec := (of_boot h).1

@[simp] theorem boot_setCroft (s : State) (q : Nat) (c : Croft) : (s.setCroft q c).boot = s.boot := (rfl)
@[simp] theorem boot_onCroft (s : State) (q : Nat) (f : Site → Site) : (s.onCroft q f).boot = s.boot := (rfl)
@[simp] theorem boot_raise (s : State) (code : Nat) (loc : W32) (syn : W64) (opc : W16) (cls : Option Bool)
    (hold : Option Nat) : (s.raise code loc syn opc cls hold).boot = s.boot := (rfl)
@[simp] theorem boot_setParish (s : State) (p : Nat) (v : Parish) : (s.setParish p v).boot = s.boot := (rfl)
@[simp] theorem boot_modGate (s : State) (g : Nat) (f : Gate → Gate) : (s.modGate g f).boot = s.boot := (rfl)
@[simp] theorem boot_setGate (s : State) (g : Nat) (v : Gate) : (s.setGate g v).boot = s.boot := (rfl)
@[simp] theorem boot_setSteward (s : State) (i : Nat) (v : Steward) : (s.setSteward i v).boot = s.boot := (rfl)
@[simp] theorem boot_setHolding (s : State) (h : Nat) (v : Holding) : (s.setHolding h v).boot = s.boot := (rfl)
@[simp] theorem boot_setReg (s : State) (o : Nat) (v : W64) : (s.setReg o v).boot = s.boot := (rfl)
@[simp] theorem boot_setNum (s : State) (o n : Nat) : (s.setNum o n).boot = s.boot := (rfl)
@[simp] theorem boot_setField (s : State) (o hi lo n : Nat) : (s.setField o hi lo n).boot = s.boot := (rfl)
@[simp] theorem boot_emit (s : State) (ks : List Packet) : (s.emit ks).boot = s.boot := (rfl)
@[simp] theorem boot_loseParish (s : State) (p : Nat) : (s.loseParish p).boot = s.boot := (rfl)
@[simp] theorem boot_sendShadow (s : State) (d : Shadow) : (s.sendShadow d).boot = s.boot := (rfl)

@[simp] theorem boot_shadow (s : State) (c : Change) : (s.shadow c).boot = s.boot := by
  unfold shadow; simp

@[simp] theorem boot_setStc (s : State) (h : Nat) (v : Stc) : (s.setStc h v).boot = s.boot := boot_shadow _ _

@[simp] theorem boot_setFlt (s : State) (o : Nat) (v : W64) : (s.setFlt o v).boot = s.boot := boot_shadow _ _

@[simp] theorem boot_setFltField (s : State) (o hi lo n : Nat) : (s.setFltField o hi lo n).boot = s.boot := boot_setFlt _ _ _

theorem boot_setFaults (s : State) (f : FaultCtl) : (s.setFaults f).boot = { s with faults := f }.boot := boot_shadow _ _

@[simp] theorem boot_fenceAll (s : State) (qs : List Nat) : (s.fenceAll qs).boot = s.boot :=
  boot_foldl (fun s q => boot_onCroft s q Site.fence) qs s

@[simp] theorem boot_isolate (s : State) (p : Nat) : (s.isolate p).boot = s.boot := by
  show ((s.fenceAll (croftsOf p)).loseParish p).boot = s.boot
  rw [boot_loseParish, boot_fenceAll]

@[simp] theorem boot_switchRows (s : State) (p : Nat) (ms : List (Nat × Nat)) (running : Bool) :
    (s.switchRows p ms running).boot = s.boot := by
  unfold switchRows
  simp

@[simp] theorem boot_releaseStores (s : State) : s.releaseStores.boot = s.boot := by
  unfold releaseStores; simp

@[simp] theorem boot_abortHolding (s : State) (h cause : Nat) : (s.abortHolding h cause).boot = s.boot := by
  unfold abortHolding; simp

@[simp] theorem boot_discardStep (s : State) (e : Nat × W32) : (s.discardStep e).boot = s.boot :=
  boot_foldl (fun s p => boot_setParish s p ((s.parish p).tallyDiscard e.2)) (s.parishesOf e.1) s

@[simp] theorem boot_acknowledge (s : State) (a : SenderHeld) : (s.acknowledge a).boot = s.boot := by
  cases a with
  | msg m =>
    show (s.takeAnyMsg m).boot = s.boot
    unfold takeAnyMsg
    split <;> rfl
  | report r => rfl
  | summary h m => rfl

@[simp] theorem boot_perform (s : State) (d : Shadow) : (s.perform d).boot = s.boot := by
  unfold perform retireStore
  simp

@[simp] theorem boot_waitFor (s : State) (d : Shadow) : (s.waitFor d).boot = s.boot := by
  unfold waitFor; simp

@[simp] theorem boot_publish (s : State) (ks : List Packet) (ms : List (Nat × Nat × Nat × Msg)) :
    (s.publish ks ms).boot = s.boot := boot_waitFor _ _

@[simp] theorem boot_sendNorm (s : State) (h : Nat) (replay : Bool) (v : W64) : (s.sendNorm h replay v).boot = s.boot := by
  unfold sendNorm sendNext; simp

@[simp] theorem boot_stopCrofts (s : State) (h : Nat) : (s.stopCrofts h).boot = s.boot := boot_publish _ _ _

@[simp] theorem boot_startRestore (s : State) (h : Nat) : (s.startRestore h).boot = s.boot := by
  unfold startRestore; simp

@[simp] theorem boot_raiseStc (s : State) (h r b code : Nat) (opc : W16) : (s.raiseStc h r b code opc).boot = s.boot := by
  unfold raiseStc; simp

@[simp] theorem boot_replay (s : State) (h : Nat) (ask : ReplayAsk) : (s.replay h ask).boot = s.boot := by
  unfold replay replayNow; simp

@[simp] theorem boot_abandon (s : State) (h : Nat) : (s.abandon h).boot = s.boot := by
  unfold abandon; simp

@[simp] theorem boot_haltDomain (s : State) (d : Nat) : (s.haltDomain d).boot = s.boot := by
  unfold haltDomain; simp

/-! ### An event whose location nothing isolates -/

theorem boot_modFaults {s : State} {f : FaultCtl → FaultCtl} (hf : (f s.faults).bootBell = s.faults.bootBell) :
    (s.modFaults f).boot = s.boot := by
  rw [show s.modFaults f = s.setFaults (f s.faults) from rfl, boot_setFaults]
  simp only [boot, hf]

theorem boot_appendRecord (s : State) (r : Record) : (s.appendRecord r).boot = s.boot := by
  unfold appendRecord Ledger.append
  split <;> rfl

@[simp] theorem boot_takes (s : State) (r : Report) : (s.takes r).1.boot = s.boot := by
  unfold takes
  dsimp only
  split
  · rfl
  · split
    · split <;> exact boot_setFaults _ _
    · split
      · rfl
      · exact boot_setFaults _ _

@[simp] theorem boot_record (s : State) (d sev : Nat) (cls perm : Bool) (r : Report) : (s.record d sev cls perm r).boot = s.boot
    := by
  have hput : ∀ n, (s.putRecord d n).boot = s.boot := fun n => boot_modFaults rfl
  unfold record
  split
  · exact (boot_modFaults rfl).trans ((boot_appendRecord _ _).trans (hput _))
  · dsimp only
    split
    · exact (boot_appendRecord _ _).trans (hput _)
    · exact (boot_modFaults rfl).trans (hput _)

@[simp] theorem boot_ring (s : State) : s.ring.boot = s.boot := by
  unfold ring
  split
  · rfl
  · exact (boot_modFaults rfl).trans (boot_setFltField _ _ _ _ _)

theorem countEvent_kept (l : Ledger) (unit : W32) (sub source n : Nat) :
    (l.countEvent unit sub source n).1.answers = l.answers ∧ (l.countEvent unit sub source n).1.cycle = l.cycle := by
  unfold Ledger.countEvent
  split
  · exact ⟨rfl, rfl⟩
  · dsimp only
    split <;> exact ⟨rfl, rfl⟩

/-- The locations that wait to be isolated are of kinds that no isolation touches. -/
def Idle (s : State) : Prop := ∀ loc ∈ s.toIsolate, 9 ≤ locKind loc

theorem isolateLoc_idle {loc : W32} (h : 9 ≤ locKind loc) (s : State) : s.isolateLoc loc = s := by
  obtain ⟨k, hk⟩ : ∃ k, locKind loc = k + 9 := ⟨locKind loc - 9, by omega⟩
  unfold isolateLoc
  simp only [hk]

theorem foldl_isolateLoc_idle {l : List W32} (h : ∀ loc ∈ l, 9 ≤ locKind loc) (s : State) : l.foldl isolateLoc s = s := by
  induction l with
  | nil => rfl
  | cons a l ih =>
    rw [List.foldl_cons, isolateLoc_idle (h a List.mem_cons_self)]
    exact ih fun b hb => h b (List.mem_cons_of_mem a hb)

theorem settle_idle {s : State} (h : s.Idle) : s.settle = { s with toIsolate := [] } := by
  by_cases h0 : s.toIsolate = []
  · rw [settle_nothing h0, ← h0]
  · refine (if_neg (by simpa using h0)).trans ?_
    rw [foldl_isolateLoc_idle h]
    rfl

theorem waitFor_idle {s : State} (h : s.toIsolate = []) {loc : W32} (hl : 9 ≤ locKind loc) :
    (s.waitFor { num := 0, isolate := [loc] }).Idle := by
  unfold waitFor
  split
  · intro l hm
    rw [sendShadow_toIsolate, h] at hm
    cases hm
  · intro l hm
    have hp : (s.perform { num := 0, isolate := [loc] }).toIsolate = s.toIsolate ++ [loc] := rfl
    rw [hp, h] at hm
    rw [List.mem_singleton.1 hm]
    exact hl

theorem putRecord_toIsolate (s : State) (d : Nat) (r : Record) : (s.putRecord d r).toIsolate = s.toIsolate :=
  setFaults_toIsolate _ _

theorem record_toIsolate (s : State) (d sev : Nat) (cls perm : Bool) (r : Report) :
    (s.record d sev cls perm r).toIsolate = s.toIsolate := by
  unfold record
  split
  · exact (setFaults_toIsolate _ _).trans (putRecord_toIsolate s d _)
  · dsimp only
    split
    · exact putRecord_toIsolate s d _
    · exact (setFaults_toIsolate _ _).trans (putRecord_toIsolate s d _)

theorem ring_toIsolate (s : State) : s.ring.toIsolate = s.toIsolate := by
  unfold ring
  split
  · rfl
  · exact (setFaults_toIsolate _ _).trans (setFlt_toIsolate _ _ _)

theorem takes_toIsolate (s : State) (r : Report) : (s.takes r).1.toIsolate = s.toIsolate := by
  unfold takes
  dsimp only
  split
  · rfl
  · split
    · split <;> exact setFaults_toIsolate _ _
    · split
      · rfl
      · exact setFaults_toIsolate _ _

theorem boot_act {s : State} (hi : s.toIsolate = []) (d sev : Nat) {r : Report} (hr : 9 ≤ locKind r.loc) :
    (s.act d sev r).boot = s.boot := by
  unfold act
  extract_lets cls resp sev' k counted u v iso w x y
  have hu : u.boot = s.boot ∧ u.toIsolate = [] := by
    refine ⟨(boot_record _ _ _ _ _ _).trans ?_, (record_toIsolate _ _ _ _ _ _).trans hi⟩
    have hc : counted.1.answers = s.ledger.answers ∧ counted.1.cycle = s.ledger.cycle := by
      unfold counted
      split
      · exact countEvent_kept _ _ _ _ _
      · exact ⟨rfl, rfl⟩
    simp only [boot, hc.1, hc.2]
  have hv : v.boot = s.boot ∧ v.toIsolate = [] := by
    unfold v
    split
    · exact ⟨(boot_ring u).trans hu.1, (ring_toIsolate u).trans hu.2⟩
    · exact hu
  have hw : w.boot = s.boot ∧ w.toIsolate = [] := by
    unfold w
    split
    · exact ⟨(boot_setStc _ _ _).trans hv.1, (setStc_toIsolate _ _ _).trans hv.2⟩
    · exact hv
  have hx : x.boot = s.boot := by
    unfold x
    split
    · rw [settle_idle (waitFor_idle hw.2 hr)]
      exact (boot_waitFor w _).trans hw.1
    · exact hw.1
  have hy : y.boot = s.boot := by
    unfold y
    split
    · exact (boot_replay _ _ _).trans hx
    · exact hx
  split
  · exact (boot_haltDomain _ _).trans hy
  · split
    · exact (boot_haltDomain _ _).trans hy
    · exact hy

theorem boot_event {s : State} (hi : s.toIsolate = []) {r : Report} (hr : 9 ≤ locKind r.loc) (injected : Bool) :
    (s.event r injected).boot = s.boot := by
  unfold event
  extract_lets d u key v
  have hu : u.boot = s.boot ∧ u.toIsolate = [] := ⟨boot_setFlt _ _ _, (setFlt_toIsolate _ _ _).trans hi⟩
  have hv : v.boot = s.boot ∧ v.toIsolate = [] := by
    unfold v
    split
    · exact ⟨(boot_modFaults rfl).trans hu.1, (setFaults_toIsolate _ _).trans hu.2⟩
    · exact hu
  have ht := (boot_takes v r).trans hv.1
  have hti := (takes_toIsolate v r).trans hv.2
  generalize v.takes r = a at ht hti
  obtain ⟨w, sev⟩ := a
  cases sev with
  | none => exact ht
  | some n => exact (boot_act hti d n hr).trans ht

/-! ### The network stages and the self-test -/

@[simp] theorem boot_leaveOff (s : State) (p : Nat) : (s.leaveOff p).boot = s.boot := by
  unfold leaveOff; simp

@[simp] theorem boot_netUp (s : State) (p : Nat) : (s.netUp p).boot = s.boot := by
  unfold netUp; simp

theorem markApplied_frame (s : State) (p : Hist → Bool) :
    s.markApplied p = { s with ledger := { s.ledger with history := (s.markApplied p).ledger.history } } := by
  have h : ∀ (es : List (Nat × Option Hist)) (l : Ledger), (es.foldl (fun l e => match e.2 with
      | some h => if h.permanent && p h then l.setEntry e.1 { h with applied := true } else l
      | none => l) l) = { l with history := (es.foldl (fun l e => match e.2 with
      | some h => if h.permanent && p h then l.setEntry e.1 { h with applied := true } else l
      | none => l) l).history } := by
    intro es
    induction es with
    | nil => intro l; rfl
    | cons e es ih =>
      intro l
      simp only [List.foldl_cons]
      split
      · split
        · exact ih _
        · exact ih _
      · exact ih _
  exact congrArg (fun l => ({ s with ledger := l } : State)) (h s.ledger.history s.ledger)

@[simp] theorem boot_markApplied (s : State) (p : Hist → Bool) : (s.markApplied p).boot = s.boot :=
  (congrArg boot (markApplied_frame s p)).trans rfl

theorem boot_retireKind (s : State) (kind : Nat) (p : Hist → Bool) {f : State → W32 → State}
    (hf : ∀ s loc, (f s loc).boot = s.boot) : (s.retireKind kind p f).boot = s.boot :=
  (boot_markApplied _ _).trans (boot_foldl hf _ s)

@[simp] theorem boot_recordUnits (s : State) (l : List W32) : (s.recordUnits l).boot = s.boot := by
  unfold recordUnits; simp

@[simp] theorem boot_recordFound (s : State) : s.recordFound.boot = s.boot := boot_recordUnits _ _

@[simp] theorem boot_netStage (s : State) (r : StageResult) (ps : List Nat) : (s.netStage r ps).boot = s.boot := by
  unfold netStage
  refine (boot_foldl boot_netUp ps _).trans ((boot_retireKind _ _ _ fun t loc => boot_leaveOff t _).trans ?_)
  exact boot_foldl boot_leaveOff _ s

@[simp] theorem boot_downLink (s : State) (l : Link) : (s.downLink l).boot = s.boot := by
  unfold downLink; simp

@[simp] theorem boot_downBoth (s : State) (l : Link) : (s.downBoth l).boot = s.boot := by
  unfold downBoth
  split <;> simp

@[simp] theorem boot_markRouter (s : State) (q : Nat) (pl : Plane) : (s.markRouter q pl).boot = s.boot := by
  unfold markRouter; simp

@[simp] theorem boot_aloneRouter (s : State) (q : Nat) (pl : Plane) : (s.aloneRouter q pl).boot = s.boot := by
  unfold aloneRouter; simp

@[simp] theorem boot_retireLink (s : State) (loc : W32) : (s.retireLink loc).boot = s.boot := by
  unfold retireLink
  dsimp only
  split
  · split <;> simp
  · rfl

@[simp] theorem boot_retireRouter (s : State) (loc : W32) : (s.retireRouter loc).boot = s.boot := by
  unfold retireRouter; simp

@[simp] theorem boot_testGroup (s : State) (r : StageResult) (g : Link × Nat) : (s.testGroup r g).boot = s.boot := by
  unfold testGroup
  dsimp only
  split <;> simp

@[simp] theorem boot_wireTest (s : State) (r : StageResult) (ps : List Nat) : (s.wireTest r ps).boot = s.boot := by
  unfold wireTest
  exact (boot_foldl (fun t g => boot_testGroup t r g) _ _).trans rfl

@[simp] theorem boot_selfTest (s : State) (r : StageResult) (ps : List Nat) : (s.selfTest r ps).boot = s.boot := by
  unfold selfTest
  refine (boot_foldl boot_leaveOff _ _).trans ((boot_retireKind _ _ _ boot_retireRouter).trans ?_)
  refine (boot_foldl (fun t (d : Nat × Plane) => boot_markRouter t d.1 d.2) _ _).trans ((boot_retireKind _ _ _ boot_retireLink).trans ?_)
  exact (boot_foldl boot_downLink _ _).trans (boot_wireTest s r ps)

/-! ### The tables, the row maps, the holdings and the ports -/

@[simp] theorem boot_rewriteHops (s : State) (d : Nat) (far : List Nat) (p : Nat) : (s.rewriteHops d far p).boot = s.boot :=
  boot_foldl (fun _ _ => boot_setParish _ _ _) [0, 1] s

@[simp] theorem boot_rewriteTables (s : State) : s.rewriteTables.boot = s.boot := by
  unfold rewriteTables
  split
  · rfl
  · exact boot_foldl (fun t d => boot_foldl (fun u p => boot_rewriteHops u d _ p) _ t) _ s

@[simp] theorem boot_mapRow (s : State) (e : Nat × Nat × Nat) : (s.mapRow e).boot = s.boot := by
  unfold mapRow; simp

@[simp] theorem boot_mapsLoaded (s : State) : s.mapsLoaded.boot = s.boot :=
  boot_foldl (fun _ _ => boot_setParish _ _ _) _ s

@[simp] theorem boot_setHldErr (s : State) (h : Nat) (on : Bool) : (s.setHldErr h on).boot = s.boot := boot_setField _ _ _ _ _

@[simp] theorem boot_startReset (s : State) (h : Nat) (st : HldState) (creating : Bool) :
    (s.startReset h st creating).boot = s.boot := by
  unfold startReset; simp

@[simp] theorem boot_createHolding (s : State) (h : Nat) : (s.createHolding h).boot = s.boot := by
  unfold createHolding; simp

@[simp] theorem boot_createEntry (s : State) (e : HoldingEntry) : (s.createEntry e).boot = s.boot := by
  unfold createEntry; simp

@[simp] theorem boot_enablePort (s : State) (gi k : Nat) : (s.enablePort gi k).boot = s.boot := by
  unfold enablePort; simp

@[simp] theorem boot_loadPort (s : State) (e : PortEntry) : (s.loadPort e).boot = s.boot := by
  unfold loadPort; simp

@[simp] theorem boot_enterLanes (s : State) : s.enterLanes.boot = s.boot := by
  unfold enterLanes
  refine (boot_foldl boot_loadPort _ _).trans ((boot_retireKind _ _ _ fun t loc => ?_).trans ?_)
  · exact boot_modGate _ _ _
  · exact boot_retireKind _ _ _ fun t loc => boot_modGate _ _ _

end State

/-! ### Stages 2 to 7 and a section whose digest does not match -/

/-- A change of both stewards, as each takes it. -/
theorem State.foldl_modSteward (s : State) (f : Steward → Steward) {i : Nat} (hi : i < 2) :
    ([0, 1].foldl (fun t j => t.modSteward j f) s).steward i = f (s.steward i) := by
  simp only [List.foldl_cons, List.foldl_nil, State.modSteward]
  obtain rfl | rfl : i = 0 ∨ i = 1 := by omega
  · rw [State.steward_setSteward_ne _ _ (by decide), State.steward_setSteward_same]
  · rw [State.steward_setSteward_same, State.steward_setSteward_ne _ _ (by decide)]

/-- What the completion of stage n does. -/
def State.stageDone (s : State) (r : StageResult) : Nat → State
  | 0 => s.stageRom r
  | 1 => s.stageBl1 r
  | 2 => s.stageNet r
  | 3 => s.stageSelfTest r
  | 4 => s.enterStage 5
  | 5 => s.enterStage 6
  | 6 => s.enterStage 7
  | 7 => s.enterStage 8
  | _ => s

section
variable {s : State} {r : StageResult} (hb : s.bringingUp = true)
include hb

theorem exec_stageComplete_of {n : Nat} (h : s.sec.stage = n) {t : State} (ht : s.stageDone r n = t) :
    exec (.stageComplete r) s = .next t := by
  rw [← ht, ← h]
  exact congrArg Host.Outcome.next ((if_neg (by simp [hb])).trans rfl)

theorem stageComplete_next (h : s.sec.stage = 2 ∨ s.sec.stage = 3 ∨ s.sec.stage = 6) :
    ∃ t, exec (.stageComplete r) s = .next t ∧ t.sec = { s.sec with stage := s.sec.stage + 1 } := by
  rcases h with h | h | h
  · refine ⟨s.stageNet r, exec_stageComplete_of hb h rfl, ?_⟩
    rw [h]
    refine congrArg (fun c : Sec => { c with stage := 3 }) (State.sec_of_boot (t := (s.netStage r _).recordFound) ?_)
    exact (State.boot_recordFound _).trans (State.boot_netStage s r _)
  · refine ⟨s.stageSelfTest r, exec_stageComplete_of hb h rfl, ?_⟩
    rw [h]
    unfold State.stageSelfTest
    extract_lets u v w
    have hu : u.boot = s.boot := (State.boot_rewriteTables _).trans
        ((State.boot_recordFound _).trans (State.boot_selfTest s r _))
    have hv : v.boot = s.boot := (State.boot_foldl State.boot_mapRow _ u).trans hu
    have hw : w.boot = s.boot := (State.boot_retireKind v _ _ fun t loc => State.boot_mapRow t _).trans hv
    exact congrArg (fun c : Sec => { c with stage := 4 }) (State.sec_of_boot ((State.boot_mapsLoaded w).trans hw))
  · refine ⟨s.enterStage 7, exec_stageComplete_of hb h rfl, ?_⟩
    rw [h]
    exact State.sec_of_boot (State.boot_enterLanes (s.modSec fun c => { c with stage := 7 }))

theorem stageComplete_sowing (h : s.sec.stage = 5) :
    ∃ t, exec (.stageComplete r) s = .next t ∧ t.sec = { s.sec with stage := 6, sowOpen := false, sowBusy := false } :=
  ⟨s.enterStage 6, exec_stageComplete_of hb h rfl, State.sec_of_boot (State.boot_foldl State.boot_createEntry _ _)⟩

theorem stageComplete_papione (h : s.sec.stage = 4) : ∃ t, exec (.stageComplete r) s = .next t ∧
    t = { s with sec := { s.sec with stage := 5 }, stewards := t.stewards } ∧
    ∀ i < 2, t.steward i = { s.steward i with mgmtUp := (s.steward i).mgmtCable && (s.steward i).role != .lost } := by
  refine ⟨s.enterStage 5, exec_stageComplete_of hb h rfl, rfl, fun i hi => ?_⟩
  exact State.foldl_modSteward (s.modSec fun c => { c with stage := 5 }) (fun v => { v with mgmtUp := v.mgmtCable && v.role != .lost }) hi

theorem stageComplete_ready (h : s.sec.stage = 7) :
    exec (.stageComplete r) s = .next { s with sec := { s.sec with stage := 8 } } := exec_stageComplete_of hb h rfl

theorem sectionDigest_marks {b : Bool} (h1 : 1 ≤ s.sec.stage) (h7 : s.sec.stage ≤ 7) (h : s.sec.stage = 1 ∨ s.sec.copyB = b) :
    (s.sectionMismatch b = true → exec (.sectionDigest b) s =
      .next { s with sec := { s.sec with badA := s.sec.badA || !b, badB := s.sec.badB || b, stage := 1 } }) ∧
    (s.sectionMismatch b = false → exec (.sectionDigest b) s = .next s) := by
  refine ⟨fun hm => congrArg Host.Outcome.next (if_pos ?_), fun hm => congrArg Host.Outcome.next (if_neg ?_)⟩
  · simp [hb, h1, h7, hm, h]
  · simp [hm]

end

/-! ### Stage 0 -/

namespace State

theorem bootFail_silent {s : State} (h : s.ledger.answers = false) (n : Nat) : s.bootFail n = failedWith s n := by
  refine if_neg ?_
  have hl : ∀ (t : State) f, (t.modFaults f).ledger.answers = t.ledger.answers :=
    fun t f => congrArg Ledger.answers (setFaults_ledger t _)
  rw [hl]
  exact Bool.eq_false_iff.1 h

theorem markApplied_none {s : State} (h : s.permanents = []) (p : Hist → Bool) : s.markApplied p = s := by
  have hn : ∀ e ∈ s.ledger.history, ∀ x, e.2 = some x → x.permanent = false := by
    intro e he x hx
    have := List.filterMap_eq_nil_iff.1 h e he
    rw [hx] at this
    simpa using this
  have hl : ∀ l : Ledger, ∀ es : List (Nat × Option Hist), (∀ e ∈ es, ∀ x, e.2 = some x → x.permanent = false) →
      (es.foldl (fun l e => match e.2 with
        | some h => if h.permanent && p h then l.setEntry e.1 { h with applied := true } else l
        | none => l) l) = l := by
    intro l es hes
    refine List.foldlRecOn (motive := fun t => t = l) es _ rfl fun t ht e he => ?_
    split
    next x hx => rw [hes e he x hx, ht]; rfl
    next => exact ht
  exact congrArg (fun l => ({ s with ledger := l } : State)) (hl s.ledger _ hn)

theorem retireKind_none {s : State} (h : s.permanents = []) (kind : Nat) (p : Hist → Bool) (f : State → W32 → State) :
    s.retireKind kind p f = s := by
  unfold retireKind
  rw [h]
  exact markApplied_none h _

/-- What decides whether parish p comes up and stays up. -/
def rail (p : Nat) (s : State) : Parish × List Nat × List Nat × List (Nat × Option Hist) :=
  (s.parish p, s.power.groupsOff, s.deadR, s.ledger.history)

theorem rail_setParish {p q : Nat} (h : p ≠ q) (s : State) (v : Parish) : rail p (s.setParish q v) = rail p s :=
  Prod.ext (parish_setParish_ne s v h) rfl

theorem rail_fenceAll (p : Nat) (s : State) (l : List Nat) : rail p (s.fenceAll l) = rail p s :=
  foldl_same (rail p) (fun t q => (rfl : rail p (t.onCroft q Site.fence) = rail p t)) l s

theorem rail_isolate {p q : Nat} (h : p ≠ q) (s : State) : rail p (s.isolate q) = rail p s := by
  have hf : rail p (s.fenceAll (croftsOf q)) = rail p s := rail_fenceAll p s _
  show rail p ((s.fenceAll (croftsOf q)).loseParish q) = rail p s
  generalize s.fenceAll (croftsOf q) = u at hf ⊢
  have hp : (u.loseParish q).parish p = u.parish p := parish_setParish_ne u _ h
  refine Eq.trans ?_ hf
  unfold rail
  rw [hp]
  rfl

theorem rail_leaveOff {p q : Nat} (h : p ≠ q) (s : State) : rail p (s.leaveOff q) = rail p s := by
  unfold leaveOff
  refine (rail_setParish h _ _).trans ?_
  split
  · exact rail_isolate h s
  · rfl

theorem rail_netUp_ne {p q : Nat} (h : p ≠ q) (s : State) : rail p (s.netUp q) = rail p s := by
  unfold netUp
  dsimp only
  split
  · exact rail_setParish h s _
  · rfl

/-- Parish p has come up, and no router is dead. -/
def Railed (p : Nat) (s : State) : Prop :=
  (s.parish p).st = .netOn ∧ (s.parish p).nclkLock = true ∧ (s.parish p).pclkLock = true ∧ s.deadR = []

theorem Railed.of_rail {p : Nat} {s t : State} (h : Railed p s) (ht : rail p t = rail p s) : Railed p t := by
  obtain ⟨hp, -, hd, -⟩ := by simpa only [rail, Prod.mk.injEq] using ht
  unfold Railed
  rw [hp, hd]
  exact h

theorem Railed.netUp {p : Nat} {s : State} (h : Railed p s) (q : Nat) : Railed p (s.netUp q) := by
  by_cases hq : p = q
  · subst hq
    have hn : s.netUp p = s := if_neg (by rw [h.1]; simp)
    rw [hn]
    exact h
  · exact h.of_rail (rail_netUp_ne hq s)

theorem railed_netUp {p : Nat} {s : State} (ho : (s.parish p).st = .off) (hd : (s.parish p).dead = false)
    (hg : p % 8 ∉ s.power.groupsOff) (hr : s.deadR = []) : Railed p (s.netUp p) := by
  have hn : s.netUp p = s.setParish p { s.parish p with
      st := .netOn, nclkLock := true, pclkLock := true
      pclkMoving := (s.parish p).field Reg.parPclk 20 16 != pclkTarget (s.parish p) } :=
    if_pos (by simp [ho, hd, hg])
  unfold Railed
  rw [hn, parish_setParish_same]
  exact ⟨rfl, rfl, rfl, hr⟩

theorem railed_foldl_netUp {p : Nat} {ps : List Nat} (hp : p ∈ ps) {s : State} (ho : (s.parish p).st = .off)
    (hd : (s.parish p).dead = false) (hg : p % 8 ∉ s.power.groupsOff) (hr : s.deadR = []) :
    Railed p (ps.foldl State.netUp s) := by
  induction ps generalizing s with
  | nil => cases hp
  | cons q ps ih =>
    rw [List.foldl_cons]
    by_cases hq : p = q
    · subst hq
      exact List.foldlRecOn (motive := Railed p) ps _ (railed_netUp ho hd hg hr) fun t ht a _ => ht.netUp a
    · have hn := rail_netUp_ne hq s
      obtain ⟨h1, h2, h3, -⟩ := by simpa only [rail, Prod.mk.injEq] using hn
      exact ih ((List.mem_cons.1 hp).resolve_left hq) (by rw [h1]; exact ho) (by rw [h1]; exact hd) (by rw [h2]; exact hg)
          (h3.trans hr)

/-- The ledger's history and the dead routers. -/
def past (s : State) : List Nat × List (Nat × Option Hist) := (s.deadR, s.ledger.history)

theorem permanents_of_past {s t : State} (h : past t = past s) : t.permanents = s.permanents := by
  obtain ⟨-, hh⟩ := by simpa only [past, Prod.mk.injEq] using h
  unfold permanents
  rw [hh]

theorem past_leaveOff (s : State) (q : Nat) : past (s.leaveOff q) = past s := by
  have h := rail_leaveOff (Nat.succ_ne_self q) s
  obtain ⟨-, -, h1, h2⟩ := by simpa only [rail, Prod.mk.injEq] using h
  simp only [past, h1, h2]

theorem railed_netStage {s : State} (hn : NoPermanents s) {r : StageResult} {p : Nat} {ps : List Nat} (hp : p ∈ ps)
    (hoff : p ∉ r.offParishes)
    (ho : (s.parish p).st = .off) (hd : (s.parish p).dead = false) (hg : p % 8 ∉ s.power.groupsOff) (hr : s.deadR = []) :
    Railed p (s.netStage r ps) := by
  unfold netStage
  extract_lets u v
  have hu : rail p u = rail p s := by
    refine List.foldlRecOn (motive := fun t => rail p t = rail p s) _ _ rfl fun t ht q hq => ?_
    refine (rail_leaveOff ?_ t).trans ht
    rintro rfl
    exact hoff (by simpa using (List.mem_filter.1 hq).2)
  obtain ⟨h1, h2, h3, h4⟩ := by simpa only [rail, Prod.mk.injEq] using hu
  have hv : v = u := retireKind_none ((permanents_of_past (by simp only [past, h3, h4])).trans hn) _ _ _
  rw [hv]
  exact railed_foldl_netUp hp (by rw [h1]; exact ho) (by rw [h1]; exact hd) (by rw [h2]; exact hg) (h3.trans hr)

theorem rail_downLink (p : Nat) (s : State) (l : Link) : rail p (s.downLink l) = rail p s := by
  unfold downLink
  split <;> rfl

theorem rail_testGroup (p : Nat) (s : State) (r : StageResult) (g : Link × Nat) : rail p (s.testGroup r g) = rail p s := by
  unfold testGroup
  extract_lets wires entries known _ u
  have hu : rail p u = rail p s := by
    unfold u
    split <;> rfl
  clear_value u entries
  split
  · exact hu
  · exact hu
  · exact (rail_downLink p u _).trans hu

theorem rail_wireTest (p : Nat) (s : State) (r : StageResult) (ps : List Nat) : rail p (s.wireTest r ps) = rail p s := by
  unfold wireTest
  exact (foldl_same (rail p) (fun t g => rail_testGroup p t r g) _ _).trans rfl

theorem parishDeadByRouters_none {s : State} (h : s.deadR = []) (p : Nat) : s.parishDeadByRouters p = false := by
  have hd : s.deadPositions p = [] := List.filter_eq_nil_iff.2 fun q _ => by
    unfold deadPos
    rw [h]
    simp
  unfold parishDeadByRouters
  rw [hd]
  rfl

/-- Without permanent history and dead routers a self-test changes no parish. -/
theorem rail_selfTest {s : State} (hn : s.permanents = []) (hr : s.deadR = []) {r : StageResult} (hdr : r.deadRouters = [])
    (p : Nat)
    (ps : List Nat) : rail p (s.selfTest r ps) = rail p s := by
  unfold selfTest
  extract_lets inPs u v w x y
  have hv : rail p v = rail p s :=
    (foldl_same (rail p) (fun t l => rail_downLink p t l) _ _).trans (rail_wireTest p s r ps)
  obtain ⟨-, -, h3, h4⟩ := by simpa only [rail, Prod.mk.injEq] using hv
  have hvn : v.permanents = [] := (permanents_of_past (by simp only [past, h3, h4])).trans hn
  have hw : w = v := retireKind_none hvn _ _ _
  have hx : x = v := by
    unfold x
    rw [hdr, hw]
    rfl
  have hy : y = v := by
    unfold y
    rw [hx]
    exact retireKind_none hvn _ _ _
  have he : ps.filter y.parishDeadByRouters = [] := List.filter_eq_nil_iff.2 fun q _ => by
    rw [hy, parishDeadByRouters_none (h3.trans hr)]
    exact Bool.false_ne_true
  rw [he, hy]
  exact hv

theorem past_netStage {s : State} (hn : NoPermanents s) (r : StageResult) (ps : List Nat) : past (s.netStage r ps) = past s :=
    by
  unfold netStage
  extract_lets u v
  have hu : past u = past s := foldl_same past (fun t q => past_leaveOff t q) _ _
  have hv : v = u := retireKind_none ((permanents_of_past hu).trans hn) _ _ _
  rw [hv]
  refine (foldl_same past (fun t q => ?_) _ _).trans hu
  unfold netUp
  dsimp only
  split <;> rfl

end State

section
variable {s : State} {r : StageResult} (hb : s.bringingUp = true) (h0 : s.sec.stage = 0)
include hb h0

theorem stageRom_fails (hp : ({ (s.netStage r State.bootRow).selfTest r State.bootRow with
      clock := { s.clock with refclkOk := true } } : State).bootPath = false) (ha : s.ledger.answers = false) :
    exec (.stageComplete r) s = .next (failedWith ({ (s.netStage r State.bootRow).selfTest r State.bootRow with
      clock := { s.clock with refclkOk := true } } : State) 3) := by
  refine exec_stageComplete_of hb h0 ?_
  have hk : ((s.netStage r State.bootRow).selfTest r State.bootRow).boot = s.boot :=
    (State.boot_selfTest _ _ _).trans (State.boot_netStage s r _)
  show s.stageRom r = _
  unfold State.stageRom
  generalize (s.netStage r State.bootRow).selfTest r State.bootRow = u at hk hp ⊢
  obtain ⟨-, hc, hl, -, -⟩ := State.of_boot hk
  dsimp only
  rw [hc, if_pos (by rw [hp]; rfl)]
  exact State.bootFail_silent (s := { u with clock := { s.clock with refclkOk := true } }) (hl.trans ha) 3

theorem stageRom_passes (hp : ({ (s.netStage r State.bootRow).selfTest r State.bootRow with
      clock := { s.clock with refclkOk := true } } : State).bootPath = true) (hn : NoPermanents s) :
    ∃ t, exec (.stageComplete r) s = .next t ∧ t.sec = { s.sec with stage := 1 } ∧
      t.clock = { s.clock with refclkOk := true } ∧ t.ledger.answers = true ∧
      (s.deadR = [] → r.deadRouters = [] → ∀ p, 25 ≤ p → p ≤ 30 → p ∉ r.offParishes → (s.parish p).st = .off →
        (s.parish p).dead = false → p % 8 ∉ s.power.groupsOff →
        (t.parish p).st = .netOn ∧ (t.parish p).nclkLock = true ∧ (t.parish p).pclkLock = true) := by
  refine ⟨s.stageRom r, exec_stageComplete_of hb h0 rfl, ?_⟩
  have hk : ((s.netStage r State.bootRow).selfTest r State.bootRow).boot = s.boot :=
    (State.boot_selfTest _ _ _).trans (State.boot_netStage s r _)
  have hr : s.deadR = [] → r.deadRouters = [] → ∀ p, 25 ≤ p → p ≤ 30 → p ∉ r.offParishes → (s.parish p).st = .off →
      (s.parish p).dead = false → p % 8 ∉ s.power.groupsOff →
      State.Railed p ((s.netStage r State.bootRow).selfTest r State.bootRow) := by
    intro hd hdr p h25 h30 hoff ho hdead hg
    have hm : p ∈ State.bootRow := by
      unfold State.bootRow
      obtain rfl | rfl | rfl | rfl | rfl | rfl : p = 25 ∨ p = 26 ∨ p = 27 ∨ p = 28 ∨ p = 29 ∨ p = 30 := by omega
      all_goals decide
    have hup := State.railed_netStage hn hm hoff ho hdead hg hd
    exact hup.of_rail (State.rail_selfTest ((State.permanents_of_past (State.past_netStage hn r _)).trans hn) hup.2.2.2 hdr p _)
  unfold State.stageRom
  generalize (s.netStage r State.bootRow).selfTest r State.bootRow = u at hk hp hr ⊢
  obtain ⟨hs, hc, -, -, -⟩ := State.of_boot hk
  dsimp only
  rw [hc, if_neg (by rw [hp]; decide)]
  generalize hv : ({ u with
    clock := { s.clock with refclkOk := true }
    ledger := { u.ledger with answers := true } } : State) = v
  have hf := State.of_boot (State.boot_recordFound v)
  subst hv
  obtain ⟨hs', hc', hl', -, -⟩ := hf
  refine ⟨congrArg (fun c : Sec => { c with stage := 1 }) (hs'.trans hs), hc', hl', fun hd hdr p h25 h30 hoff ho hdead hg => ?_⟩
  obtain ⟨h1, h2, h3, -⟩ := hr hd hdr p h25 h30 hoff ho hdead hg
  exact ⟨h1, h2, h3⟩

end

end Sys2Proof.Machine

namespace Sys2Proof.Machine
open Sys2Proof.Safety

/-! ### What the ROMs read of a copy -/

namespace State

/-- The two ledgers hold the same two image copies. -/
def SameImage (s t : State) : Prop := ∀ b off n, off + n ≤ 0x60000000 → t.copyBytes b off n = s.copyBytes b off n

section
variable {s t : State} (h : SameImage s t)
include h

theorem SameImage.headerNum (b : Bool) {lo n : Nat} (hn : lo + n ≤ 256) : t.headerNum b lo n = s.headerNum b lo n :=
  congrArg ofLe (h b lo n (by omega))

theorem SameImage.imageSvn (b : Bool) : t.imageSvn b = s.imageSvn b := h.headerNum b (by decide)

omit h in
theorem headerNum_entries_lt (s : State) (b : Bool) : s.headerNum b 14 2 < 65536 := by
  have hl := ofLe_lt (s.copyBytes b 14 2)
  rwa [show (s.copyBytes b 14 2).length = 2 from Memory.length_read _ _ _] at hl

theorem SameImage.sectionTable (b : Bool) : t.sectionTable b = s.sectionTable b := by
  have hlt := headerNum_entries_lt s b
  unfold State.sectionTable
  rw [h.headerNum b (by decide)]
  exact h b _ _ (by omega)

theorem SameImage.sectionEntries (b : Bool) : t.sectionEntries b = s.sectionEntries b := by
  have hlt := headerNum_entries_lt s b
  unfold State.sectionEntries
  rw [h.headerNum b (by decide)]
  refine List.map_congr_left fun i hi => h b _ _ ?_
  have := List.mem_range.1 hi
  omega

theorem SameImage.sectionOf (b : Bool) (type : Nat) : t.sectionOf b type = s.sectionOf b type := by
  unfold State.sectionOf
  rw [h.sectionEntries]

theorem SameImage.sectionBytes (b : Bool) (e : List Byte) : t.sectionBytes b e = s.sectionBytes b e := by
  unfold State.sectionBytes
  split
  next hl => rw [h b _ _ hl]
  next => rfl

theorem SameImage.sectionMismatch (b : Bool) : t.sectionMismatch b = s.sectionMismatch b := by
  unfold State.sectionMismatch
  simp only [h.sectionEntries, h.sectionBytes]

theorem SameImage.debugToken (b : Bool) (serial : W64) : t.debugToken b serial = s.debugToken b serial := by
  unfold State.debugToken
  simp only [h.sectionOf, h.sectionBytes]

theorem SameImage.headerOk (b : Bool) : t.headerOk b = s.headerOk b := by
  unfold State.headerOk
  rw [h b 0 8 (by decide), h b 224 32 (by decide), h.headerNum b (lo := 8) (by decide), h.headerNum b (lo := 13) (by decide),
    h.headerNum b (lo := 14) (by decide), h.sectionEntries]

theorem SameImage.tableOk (b : Bool) : t.tableOk b = s.tableOk b := by
  unfold State.tableOk
  simp only [h.sectionEntries]

theorem SameImage.keysOk (b : Bool) (f : Fuses) : t.keysOk b f = s.keysOk b f := by
  unfold State.keysOk
  rw [h b 32 96 (by decide), h.headerNum b (lo := 10) (by decide), h.headerNum b (lo := 12) (by decide),
    h.headerNum b (lo := 24) (by decide), h.imageSvn]

theorem SameImage.signedOk (b : Bool) : t.signedOk b = s.signedOk b := by
  unfold State.signedOk
  rw [h b 32 96 (by decide), h b 0 128 (by decide), h b 128 96 (by decide), h.sectionTable]
  simp only [h.sectionOf, h.sectionBytes]

/-- The ROMs choose the same copy where the ledgers answer alike and the same copies are marked bad. -/
theorem SameImage.chooseCopy (ha : t.ledger.answers = s.ledger.answers) (hA : t.sec.badA = s.sec.badA)
    (hB : t.sec.badB = s.sec.badB) (f : Fuses) : t.chooseCopy f = s.chooseCopy f := by
  have hacc : ∀ b, t.accepted f b = s.accepted f b := by
    intro b
    unfold accepted
    rw [ha, hA, hB, h.headerOk, h.tableOk, h.keysOk, h.signedOk]
  unfold State.chooseCopy imageSequence
  rw [hacc, hacc, h.imageSvn, h.imageSvn, h.headerNum false (by decide), h.headerNum true (by decide)]

end

theorem SameImage.of_bytes {s t : State} (h : t.ledger.bytes = s.ledger.bytes) : SameImage s t := by
  intro b off n _
  unfold copyBytes
  rw [h]

theorem Memory.read_write_above (m : List (Nat × Byte)) {a n c : Nat} (bs : List Byte) (h : a + n ≤ c) :
    Memory.read (Memory.write m c bs) a n = Memory.read m a n := by
  rw [← read_eq_map, ← read_eq_map]
  refine List.map_congr_left fun k hk => ?_
  have := List.mem_range.1 hk
  rw [Memory.byte_write, if_neg (by omega)]

/-! ### The start of stage 1 -/

/-- The module as stage 1 begins with a ledger that answers. -/
def blOpened (s : State) : State := { s with ledger := { s.ledger with answers := true } }.raiseCycle

theorem blOpened_eq (s : State) : s.blOpened = { s with
    ledger := { s.ledger with
      answers := true
      cycle := s.ledger.cycle + if s.sec.cycled = true then 0 else 1
      bytes := s.blOpened.ledger.bytes }
    sec := { s.sec with cycled := true } } := by
  unfold blOpened raiseCycle
  cases hc : s.sec.cycled with
  | true =>
    rw [if_pos (by simp)]
    simp only [if_true, Nat.add_zero]
    rw [← hc]
  | false =>
    rw [if_neg (by simp)]
    rfl

theorem sameImage_blOpened (s : State) : SameImage s s.blOpened := by
  intro b off n hn
  unfold blOpened raiseCycle
  split
  · rfl
  · exact Memory.read_write_above _ _ (by unfold copyBase; split <;> omega)

theorem permanents_blOpened (s : State) : s.blOpened.permanents = s.permanents := by
  unfold permanents
  rw [show s.blOpened.ledger.history = s.ledger.history from
    (congrArg (fun t : State => t.ledger.history) s.blOpened_eq).trans rfl]

theorem stewardOk_blOpened {s : State} {r : StageResult} (hn : NoPermanents s) (h0 : r.steward0Ok = true)
    (h1 : r.steward1Ok = true)
    (i : Nat) : s.blOpened.stewardOk r i = true := by
  unfold stewardOk
  rw [permanents_blOpened, hn, h0, h1]
  simp

theorem dieFuses_blOpened (s : State) (i : Nat) : s.blOpened.dieFuses i = s.dieFuses i := by
  unfold dieFuses
  rw [show s.blOpened.sec = { s.sec with cycled := true } from congrArg State.sec s.blOpened_eq]

/-- A die's fuses once its ROM has chosen a copy. -/
def romRevoked (s : State) (i : Nat) : Fuses :=
  match s.chooseCopy (s.dieFuses i) with
  | some b => revoke (s.dieFuses i) (s.headerNum b 12 1)
  | none => s.dieFuses i

section
variable {s : State} {r : StageResult} (hn : NoPermanents s) (h0 : r.steward0Ok = true) (h1 : r.steward1Ok = true)
  (ha : s.ledger.answers = true)
include hn h0 h1 ha

theorem romChoice_blOpened (i : Nat) : s.blOpened.romChoice r i = s.chooseCopy (s.dieFuses i) := by
  unfold romChoice
  rw [if_pos (stewardOk_blOpened hn h0 h1 i), dieFuses_blOpened]
  refine (sameImage_blOpened s).chooseCopy ?_ ?_ ?_ _
  · exact (congrArg (fun t : State => t.ledger.answers) s.blOpened_eq).trans ha.symm
  · exact (congrArg (fun t : State => t.sec.badA) s.blOpened_eq).trans rfl
  · exact (congrArg (fun t : State => t.sec.badB) s.blOpened_eq).trans rfl

theorem revoked_blOpened (i : Nat) : s.blOpened.revoked r i = s.romRevoked i := by
  unfold State.revoked State.romRevoked
  rw [romChoice_blOpened hn h0 h1 ha, dieFuses_blOpened]
  cases s.chooseCopy (s.dieFuses i) with
  | some b =>
    dsimp only
    rw [(sameImage_blOpened s).headerNum b (by decide)]
  | none => rfl

end

/-! ### A copy that the ROM has accepted -/

theorem romSets_eq (v : State) (i : Nat) (b : Bool) : v.romSets i b = { v with
    sec := { v.sec with copyB := b, svn := v.imageSvn b, keySlot := (v.romSets i b).sec.keySlot, udsLocked := true
                        debug := v.sec.debug || v.debugToken b (v.dieFuses i).serial }
    stewards := (v.romSets i b).stewards } := rfl

theorem steward_romSets (v : State) (i : Nat) (b : Bool) {j : Nat} (hj : j < 2) :
    (v.romSets i b).steward j = { v.steward j with coreDebug := v.sec.debug || v.debugToken b (v.dieFuses i).serial } :=
  foldl_modSteward (v.modSec _) _ hj

theorem bootCopy_eq (v : State) (b : Bool) : v.bootCopy b = { v with
    regs := (v.bootCopy b).regs
    sec := { v.sec with
      image := (v.bootCopy b).sec.image, identity0 := (v.bootCopy b).sec.identity0, identity1 := (v.bootCopy b).sec.identity1
      stage := 2 } } := by
  unfold bootCopy
  extract_lets u w x
  have hx : x = { w with regs := x.regs } := by
    refine List.foldlRecOn (motive := fun t : State => t = { w with regs := t.regs }) _ _ rfl fun t ht e _ => ?_
    split
    · exact congrArg (fun y : State => y.setReg (Reg.fltClass e.2) ((e.1 &&& 0xE3FFFFFF).setWidth 64)) ht
    · exact ht
  rw [hx]
  rfl

theorem bootCopy_kept (v : State) (b : Bool) : (v.bootCopy b).ledger = v.ledger ∧ (v.bootCopy b).power = v.power ∧
    (v.bootCopy b).stewards = v.stewards ∧ (v.bootCopy b).reports = v.reports ∧ (v.bootCopy b).clock = v.clock := by
  rw [bootCopy_eq]
  exact ⟨rfl, rfl, rfl, rfl, rfl⟩

/-- The stewards' roles once one copy boots: the partner is STANDBY where its own ROM has chosen the same copy. -/
theorem steward_chooseRoles (s : State) (both : Bool) :
    (s.chooseRoles 0 both).steward 0 = { s.steward 0 with role := .active } ∧
    (s.chooseRoles 0 both).steward 1 =
      if both = true then { s.steward 1 with role := .standby } else { s.steward 1 with role := .lost, heldReset := true } := by
  have h : ∀ f g, ((s.modSteward 0 f).modSteward 1 g).steward 0 = f (s.steward 0) ∧
      ((s.modSteward 0 f).modSteward 1 g).steward 1 = g (s.steward 1) := fun f g =>
    ⟨(steward_setSteward_ne _ _ (by decide)).trans (steward_setSteward_same s 0 _),
      (steward_setSteward_same _ 1 _).trans (congrArg g (steward_setSteward_ne s _ (by decide)))⟩
  cases both with
  | true => exact h (fun v => { v with role := .active }) fun v => { v with role := .standby }
  | false => exact h (fun v => { v with role := .active }) fun v => { v with role := .lost, heldReset := true }

theorem chooseRoles_kept (s : State) (both : Bool) : (s.chooseRoles 0 both).sec = s.sec ∧ (s.chooseRoles 0 both).ledger =
    s.ledger ∧
    (s.chooseRoles 0 both).power = s.power := by
  cases both <;> exact ⟨rfl, rfl, rfl⟩

theorem chooseRoles_raises (s : State) : Raised s (s.chooseRoles 0 false) 74 (locSteward 1) := by
  let u := (s.modSteward 0 fun v => { v with role := .active }).modSteward 1 fun v => { v with role := .lost, heldReset := true }
  refine ⟨[], u.eventOf 74 (locSteward 1) 0 0 (some false) none, [], ?_, rfl, rfl, rfl⟩
  refine (congrArg State.reports (raise_steward u 1 74 (by decide) _ _ _ _)).trans ?_
  rw [List.append_nil]
  rfl

end State

/-! ### Stage 1 -/

theorem bootFail_spec {u : State} (hi : u.toIsolate = []) (n : Nat) : (u.bootFail n).sec = { u.sec with fail := n } ∧
    (u.bootFail n).faults.bootBell = true ∧ (u.bootFail n).ledger.cycle = u.ledger.cycle := by
  unfold State.bootFail
  extract_lets v w
  have hw : w.boot = ({ u.sec with fail := n }, u.clock, u.ledger.answers, u.ledger.cycle, true) :=
    State.boot_setFaults v { v.faults with bootBell := true, bellLow := true }
  have hwi : w.toIsolate = [] := (State.setFaults_toIsolate _ _).trans hi
  have hk : ∀ t : State, t.boot = w.boot → t.sec = { u.sec with fail := n } ∧ t.faults.bootBell = true ∧
      t.ledger.cycle = u.ledger.cycle := by
    intro t ht
    obtain ⟨h1, -, -, h4, h5⟩ := by simpa only [State.boot, Prod.mk.injEq] using ht.trans hw
    exact ⟨h1, h5, h4⟩
  split
  · exact hk _ (State.boot_event hwi (show 9 ≤ State.locKind State.locModule by decide) _)
  · exact hk _ rfl
section
variable {s : State} {r : StageResult} (hb : s.bringingUp = true) (hs : s.sec.stage = 1)
include hb hs

/-- Both stewards have failed. -/
theorem stageBl1_stewards (hi : s.toIsolate = []) (h0 : r.steward0Ok = false) (h1 : r.steward1Ok = false) :
    ∃ t, exec (.stageComplete r) s = .next t ∧ t.sec.fail = 4 ∧ t.faults.bootBell = true ∧ t.sec.stage = 1 ∧
      (r.ledgerOk = true → s.sec.cycled = false → t.ledger.cycle = s.ledger.cycle + 1) := by
  refine ⟨s.stageBl1 r, exec_stageComplete_of hb hs rfl, ?_⟩
  unfold State.stageBl1
  extract_lets _ u i
  have hu : u.sec.stage = 1 ∧ u.toIsolate = [] ∧ (r.ledgerOk = true → s.sec.cycled = false → u.ledger.cycle = s.ledger.cycle + 1) := by
    unfold u State.raiseCycle
    split
    next hc =>
      refine ⟨hs, hi, fun hl hcy => ?_⟩
      rw [hl, hcy] at hc
      exact absurd hc (by simp)
    next => exact ⟨hs, hi, fun _ _ => rfl⟩
  clear_value u
  have hno : ∀ j, u.stewardOk r j = false := fun j => by
    unfold State.stewardOk
    rw [h0, h1, ite_self, Bool.false_and]
  rw [hno, hno, if_pos (by decide)]
  obtain ⟨h2, h3, h4⟩ := bootFail_spec hu.2.1 4
  refine ⟨congrArg Sec.fail h2, h3, (congrArg Sec.stage h2).trans hu.1, fun hl hc => h4.trans (hu.2.2 hl hc)⟩

end

section
variable {s : State} {r : StageResult} (hb : s.bringingUp = true) (hs : s.sec.stage = 1) (h0 : r.steward0Ok = true)
  (h1 : r.steward1Ok = true) (hl : r.ledgerOk = true) (ha : s.ledger.answers = true) (hn : NoPermanents s)
include hb hs h0 h1 hl ha hn

/-- Neither die's ROM accepts a copy. -/
theorem stageBl1_none (hi : s.toIsolate = []) (hc0 : s.chooseCopy (s.dieFuses 0) = none)
    (hc1 : s.chooseCopy (s.dieFuses 1) = none) :
    ∃ t, exec (.stageComplete r) s = .next t ∧ t.sec = { s.sec with fail := 1, cycled := true } ∧
      t.faults.bootBell = true ∧ t.ledger.cycle = s.ledger.cycle + (if s.sec.cycled = true then 0 else 1) := by
  refine ⟨s.stageBl1 r, exec_stageComplete_of hb hs rfl, ?_⟩
  have hst : s.stageBl1 r = s.blOpened.bootFail 1 := by
    unfold State.stageBl1
    rw [hl]
    extract_lets _ u i
    have hu : u = s.blOpened := rfl
    clear_value u
    subst hu
    have hok : s.blOpened.stewardOk r 0 = true := State.stewardOk_blOpened hn h0 h1 0
    have hnone : s.blOpened.romChoice r 0 = none := (State.romChoice_blOpened hn h0 h1 ha 0).trans hc0
    have hi1 : i = 1 := by
      unfold i
      rw [hnone]
      rfl
    clear_value i
    subst hi1
    rw [hok, if_neg (by simp), (State.romChoice_blOpened hn h0 h1 ha 1).trans hc1]
  rw [hst]
  have ho : s.blOpened.toIsolate = [] := (congrArg State.toIsolate s.blOpened_eq).trans hi
  obtain ⟨h2, h3, h4⟩ := bootFail_spec ho 1
  refine ⟨h2.trans ?_, h3, h4.trans ?_⟩
  · exact congrArg (fun c : Sec => { c with fail := 1 }) (congrArg State.sec s.blOpened_eq)
  · exact (congrArg (fun t : State => t.ledger.cycle) s.blOpened_eq).trans rfl

end

/-! ### A copy boots -/

namespace State

/-- The state in which BL1 starts from copy b on steward 0. -/
def blStarted (s : State) (b : Bool) : State :=
  (s.blOpened.modSec fun c => { c with fuses0 := s.romRevoked 0, fuses1 := s.romRevoked 1 }).romSets 0 b

theorem romSets_ledger (v : State) (i : Nat) (b : Bool) : (v.romSets i b).ledger = v.ledger := rfl

theorem modSec_ledger (v : State) (f : Sec → Sec) : (v.modSec f).ledger = v.ledger := rfl

theorem serial_romRevoked (s : State) (i : Nat) : (s.romRevoked i).serial = (s.dieFuses i).serial := by
  unfold romRevoked
  split <;> rfl

/-- What the ROM has set by then. -/
theorem blStarted_eq (s : State) (b : Bool) : s.blStarted b = { s with
    ledger := { s.ledger with
      answers := true
      cycle := s.ledger.cycle + if s.sec.cycled = true then 0 else 1
      bytes := s.blOpened.ledger.bytes }
    sec := { s.sec with
      cycled := true, fuses0 := s.romRevoked 0, fuses1 := s.romRevoked 1, copyB := b, svn := s.imageSvn b
      keySlot := (s.blStarted b).sec.keySlot, udsLocked := true
      debug := s.sec.debug || s.debugToken b s.sec.fuses0.serial }
    stewards := (s.blStarted b).stewards } := by
  have hsame := sameImage_blOpened s
  have ho := s.blOpened_eq
  have hser := serial_romRevoked s 0
  unfold blStarted
  generalize s.blOpened = u at hsame ho ⊢
  generalize hv : (u.modSec fun c => { c with fuses0 := s.romRevoked 0, fuses1 := s.romRevoked 1 }) = v
  have hsv : SameImage s v := fun c off n hn => by
    subst hv
    exact hsame c off n hn
  refine (romSets_eq v 0 b).trans ?_
  rw [hsv.imageSvn, hsv.debugToken, show (v.dieFuses 0).serial = s.sec.fuses0.serial by subst hv; exact hser]
  generalize (v.romSets 0 b).sec.keySlot = ks
  generalize (v.romSets 0 b).stewards = sts
  subst hv
  have h1 := congrArg (fun t : State => ({ t with
    sec := { t.sec with
      fuses0 := s.romRevoked 0, fuses1 := s.romRevoked 1, copyB := b, svn := s.imageSvn b, keySlot := ks, udsLocked := true
      debug := t.sec.debug || s.debugToken b s.sec.fuses0.serial }
    stewards := sts } : State)) ho
  exact h1

theorem blStarted_kept (s : State) (b : Bool) :
    (s.blStarted b).power = s.power ∧ (s.blStarted b).ledger.history = s.ledger.history := by
  rw [blStarted_eq]
  exact ⟨rfl, rfl⟩

theorem steward_blStarted (s : State) (b : Bool) {j : Nat} (hj : j < 2) :
    (s.blStarted b).steward j = { s.steward j with coreDebug := (s.blStarted b).sec.debug } := by
  refine (steward_romSets _ 0 b hj).trans ?_
  rw [show (s.blOpened.modSec fun c => { c with fuses0 := s.romRevoked 0, fuses1 := s.romRevoked 1 }).steward j = s.steward j from
    (congrArg (fun t : State => t.steward j) s.blOpened_eq).trans rfl]
  rfl

theorem sectionMismatch_blStarted (s : State) (b : Bool) : (s.blStarted b).sectionMismatch b = s.sectionMismatch b := by
  have hl : (s.blStarted b).ledger = s.blOpened.ledger := (romSets_ledger _ 0 b).trans (modSec_ledger _ _)
  have hs : SameImage s (s.blStarted b) := by
    intro c off n hn
    have ho := sameImage_blOpened s c off n hn
    unfold copyBytes at ho ⊢
    rw [hl]
    exact ho
  exact hs.sectionMismatch b

end State

section
variable {s : State} {r : StageResult} (h0 : r.steward0Ok = true)
  (h1 : r.steward1Ok = true) (hl : r.ledgerOk = true) (ha : s.ledger.answers = true) (hn : NoPermanents s)
include h0 h1 hl ha hn

/-- BL1 starts from the copy of steward 0's ROM, unless a section of it does not match. -/
theorem stageBl1_some (ht : s.power.tripRecord = none) {b : Bool} (hc : s.chooseCopy (s.dieFuses 0) = some b) :
    s.stageBl1 r = if s.sectionMismatch b = true then (s.blStarted b).markBad b
      else ((s.blStarted b).bootCopy b).chooseRoles 0 (decide (s.chooseCopy (s.dieFuses 1) = some b)) := by
  have hok : s.blOpened.stewardOk r 0 = true := State.stewardOk_blOpened hn h0 h1 0
  have hr0 : s.blOpened.romChoice r 0 = some b := (State.romChoice_blOpened hn h0 h1 ha 0).trans hc
  have hr1 : s.blOpened.romChoice r 1 = s.chooseCopy (s.dieFuses 1) := State.romChoice_blOpened hn h0 h1 ha 1
  unfold State.stageBl1
  rw [hl]
  extract_lets _ u i
  have hu : u = s.blOpened := rfl
  clear_value u
  subst hu
  have hi0 : i = 0 := by
    unfold i
    rw [hr0]
    rfl
  clear_value i
  subst hi0
  rw [hok, if_neg (by simp), hr0]
  dsimp -zeta only
  extract_lets both v w x
  have hv : v = s.blStarted b := by
    unfold v State.blStarted
    rw [State.revoked_blOpened hn h0 h1 ha, State.revoked_blOpened hn h0 h1 ha]
  have hboth : decide both = decide (s.chooseCopy (s.dieFuses 1) = some b) := by
    refine decide_eq_decide.2 ?_
    unfold both
    rw [show State.otherSteward 0 = 1 from rfl, hr1]
  clear_value v
  subst hv
  rw [State.sectionMismatch_blStarted]
  split
  · rfl
  · have hwl : w.ledger = (s.blStarted b).ledger :=
      (State.chooseRoles_kept _ _).2.1.trans (State.bootCopy_kept _ b).1
    have hwp : w.power = s.power := ((State.chooseRoles_kept _ _).2.2.trans
      (State.bootCopy_kept _ b).2.1).trans (s.blStarted_kept b).1
    have hwn : w.permanents = [] := by
      rw [← hn]
      unfold State.permanents
      rw [hwl, show (s.blStarted b).ledger.history = s.ledger.history from
        (s.blStarted_kept b).2]
    have hx : x = w := State.retireKind_none hwn _ _ _
    rw [hx, State.markApplied_none hwn]
    unfold State.recordTrip
    rw [hwp, ht]
    unfold w
    rw [hboth]

end

section
variable {s : State} {r : StageResult} (hb : s.bringingUp = true) (hs : s.sec.stage = 1) (h0 : r.steward0Ok = true)
  (h1 : r.steward1Ok = true) (hl : r.ledgerOk = true) (ha : s.ledger.answers = true) (hn : NoPermanents s)
  (ht : s.power.tripRecord = none) {b : Bool} (hc : s.chooseCopy (s.dieFuses 0) = some b)
include hb hs h0 h1 hl ha hn ht hc

/-- A section of the copy does not match: the copy is bad and the ROM starts again. -/
theorem stageBl1_bad (hm : s.sectionMismatch b = true) : ∃ t, exec (.stageComplete r) s = .next t ∧
    t = { s with sec := t.sec, ledger := t.ledger, stewards := t.stewards } ∧ t.sec = { s.sec with
      fuses0 := s.romRevoked 0, fuses1 := s.romRevoked 1, badA := s.sec.badA || !b, badB := s.sec.badB || b, stage := 1
      cycled := true, copyB := b, svn := s.imageSvn b, keySlot := t.sec.keySlot, udsLocked := true
      debug := s.sec.debug || s.debugToken b s.sec.fuses0.serial } ∧
    t.ledger.cycle = s.ledger.cycle + (if s.sec.cycled = true then 0 else 1) ∧
    ∀ i < 2, t.steward i = { s.steward i with coreDebug := t.sec.debug } := by
  refine ⟨(s.blStarted b).markBad b, exec_stageComplete_of hb hs
    ((stageBl1_some h0 h1 hl ha hn ht hc).trans (if_pos hm)), ?_⟩
  have hst := fun i hi => s.steward_blStarted b (j := i) hi
  have he := s.blStarted_eq b
  generalize s.blStarted b = u at hst he ⊢
  have hu : u = { s with sec := u.sec, ledger := u.ledger, stewards := u.stewards } := by rw [he]
  refine ⟨congrArg (fun v : State => v.markBad b) hu, congrArg (fun v : State => (v.markBad b).sec) he, ?_, hst⟩
  exact (congrArg (fun v : State => v.ledger.cycle) he).trans rfl

/-- Every section matches: the copy boots. -/
theorem stageBl1_boots (hm : s.sectionMismatch b = false) : ∃ t, exec (.stageComplete r) s = .next t ∧ t.sec.stage = 2 ∧
    t.sec.copyB = b ∧ t.sec.svn = s.imageSvn b ∧ t.sec.udsLocked = true ∧ t.sec.fuses0 = s.romRevoked 0 ∧
    t.sec.fuses1 = s.romRevoked 1 ∧ t.sec.debug = (s.sec.debug || s.debugToken b s.sec.fuses0.serial) ∧
    (∀ i < 2, (t.steward i).coreDebug = t.sec.debug) ∧
    t.ledger.cycle = s.ledger.cycle + (if s.sec.cycled = true then 0 else 1) ∧ (t.steward 0).role = .active ∧
    (s.chooseCopy (s.dieFuses 1) = some b → (t.steward 1).role = .standby ∧ t.reports = s.reports) ∧
    (s.chooseCopy (s.dieFuses 1) ≠ some b → (t.steward 1).role = .lost ∧ (t.steward 1).heldReset = true ∧
      Raised s t 74 (State.locSteward 1)) := by
  refine ⟨((s.blStarted b).bootCopy b).chooseRoles 0 (decide (s.chooseCopy (s.dieFuses 1) = some b)), exec_stageComplete_of hb hs
    ((stageBl1_some h0 h1 hl ha hn ht hc).trans (if_neg (by rw [hm]; decide))), ?_⟩
  have hst := fun i hi => s.steward_blStarted b (j := i) hi
  have he := s.blStarted_eq b
  generalize s.blStarted b = u at hst he ⊢
  have hv := u.bootCopy_eq b
  obtain ⟨hvl, -, hvs, hvr, hvc⟩ := u.bootCopy_kept b
  generalize u.bootCopy b = v at hv hvl hvs hvr hvc ⊢
  have hd : ∀ i < 2, (v.steward i).coreDebug = u.sec.debug := by
    intro i hi
    have hvi : v.steward i = u.steward i := by
      unfold State.steward
      rw [hvs]
    rw [hvi, hst i hi]
  have hsec : v.sec.stage = 2 ∧ v.sec.copyB = b ∧ v.sec.svn = s.imageSvn b ∧ v.sec.udsLocked = true ∧
      v.sec.fuses0 = s.romRevoked 0 ∧ v.sec.fuses1 = s.romRevoked 1 ∧
      v.sec.debug = (s.sec.debug || s.debugToken b s.sec.fuses0.serial) ∧ v.sec.debug = u.sec.debug := by
    rw [hv, he]
    exact ⟨rfl, rfl, rfl, rfl, rfl, rfl, rfl, rfl⟩
  obtain ⟨e1, e2, e3, e4, e5, e6, e7, e8⟩ := hsec
  have hcy : v.ledger.cycle = s.ledger.cycle + (if s.sec.cycled = true then 0 else 1) := by
    rw [hvl, he]
  have hr : v.reports = s.reports := by rw [hvr, he]
  have hk : v.clock = s.clock := by rw [hvc, he]
  generalize hboth : decide (s.chooseCopy (s.dieFuses 1) = some b) = both
  obtain ⟨k1, k2, -⟩ := v.chooseRoles_kept both
  obtain ⟨r0, r1⟩ := v.steward_chooseRoles both
  have hsd : ∀ i < 2, ((v.chooseRoles 0 both).steward i).coreDebug = (v.steward i).coreDebug := by
    intro i hi
    obtain rfl | rfl : i = 0 ∨ i = 1 := by omega
    · rw [r0]
    · rw [r1]
      split <;> rfl
  rw [k1, k2, r0, r1]
  refine ⟨e1, e2, e3, e4, e5, e6, e7, fun i hi => (hsd i hi).trans ((hd i hi).trans e8.symm), hcy, rfl, fun hch => ?_, fun hch => ?_⟩
  · obtain rfl : true = both := by rw [← hboth, hch]; simp
    exact ⟨rfl, hr⟩
  · obtain rfl : false = both := by rw [← hboth]; simp [hch]
    refine ⟨rfl, rfl, ?_⟩
    obtain ⟨l, e, m, hrep, hsrc, hloc, htime⟩ := v.chooseRoles_raises
    exact ⟨l, e, m, by rw [hrep, hr], hsrc, hloc, by rw [htime, hk]⟩

end

/-- Settles O54: the network stages and the self-test leave the security registers, the clock and the ledger's
answer as they are, so that each stage's own record says what it passes on; in stage 1 the two copies read the same before
and after the cycle count rises. -/
theorem bringUpPassesItsStages : Obligations.BringUpPassesItsStages := by
  unfold Obligations.BringUpPassesItsStages
  intro s r hb
  refine ⟨fun h0 => ⟨fun hp ha => stageRom_fails hb h0 hp ha, fun hp hn => stageRom_passes hb h0 hp hn⟩,
    fun hs hi h0 h1 => stageBl1_stewards hb hs hi h0 h1,
    fun hs h0 h1 hl ha hn ht => ⟨fun b hc hm => stageBl1_boots hb hs h0 h1 hl ha hn ht hc hm,
      fun b hc hm => stageBl1_bad hb hs h0 h1 hl ha hn ht hc hm,
      fun hc0 hc1 hi => stageBl1_none hb hs h0 h1 hl ha hn hi hc0 hc1⟩,
    fun h => stageComplete_next hb h, fun h => stageComplete_sowing hb h, fun h => stageComplete_papione hb h,
    fun h => stageComplete_ready hb h, fun b h1 h7 h => sectionDigest_marks hb h1 h7 h⟩

end Sys2Proof.Machine

namespace Sys2Proof.Machine
open Sys2Proof.Safety

/-! ## O46: heartbeats, watchdogs, takeover, release, shadow records and the control service

### What an isolation, a resolution and a reset leave of the stewards -/

namespace State

@[simp] theorem stewards_ite (c : Prop) [Decidable c] (a b : State) :
    (if c then a else b).stewards = if c then a.stewards else b.stewards := apply_ite _ _ _ _

@[simp] theorem stewards_foldl {α : Type} {f : State → α → State} (hf : ∀ s a, (f s a).stewards = s.stewards) (l : List α)
    (s : State) :
    (l.foldl f s).stewards = s.stewards := foldl_same State.stewards hf l s

@[simp] theorem modGate_stewards (s : State) (gi : Nat) (f : Gate → Gate) : (s.modGate gi f).stewards = s.stewards := rfl

@[simp] theorem loseParish_stewards (s : State) (p : Nat) : (s.loseParish p).stewards = s.stewards := rfl

@[simp] theorem fenceAll_stewards (s : State) (qs : List Nat) : (s.fenceAll qs).stewards = s.stewards :=
  foldl_same State.stewards (fun t q => onCroft_stewards t q Site.fence) qs s

@[simp] theorem isolate_stewards (s : State) (p : Nat) : (s.isolate p).stewards = s.stewards := by
  show ((s.fenceAll (croftsOf p)).loseParish p).stewards = s.stewards
  rw [loseParish_stewards, fenceAll_stewards]

@[simp] theorem switchRows_stewards (s : State) (p : Nat) (l : List (Nat × Nat)) : (s.switchRows p l).stewards = s.stewards :=
    by
  rw [switchRows_frame]

@[simp] theorem isolateCroft_stewards (s : State) (q : Nat) : (s.isolateCroft q).stewards = s.stewards := by
  unfold isolateCroft writeMapout; simp

/-! ### Routers and links -/

@[simp] theorem markRouter_stewards (s : State) (q : Nat) (pl : Plane) : (s.markRouter q pl).stewards = s.stewards := by
  unfold markRouter; simp

@[simp] theorem checkParish_stewards (s : State) (p : Nat) : (s.checkParish p).stewards = s.stewards := by
  unfold checkParish; simp

@[simp] theorem markDead_stewards (s : State) (q : Nat) (pl : Plane) : (s.markDead q pl).stewards = s.stewards := by
  unfold markDead; simp

@[simp] theorem downLink_stewards (s : State) (l : Link) : (s.downLink l).stewards = s.stewards := by
  unfold downLink; simp

@[simp] theorem downBoth_stewards (s : State) (l : Link) : (s.downBoth l).stewards = s.stewards := by
  unfold downBoth
  split <;> simp

@[simp] theorem deadIfAlone_stewards (s : State) (q : Nat) (pl : Plane) : (s.deadIfAlone q pl).stewards = s.stewards := by
  unfold deadIfAlone; simp

@[simp] theorem isolateRouter_stewards (s : State) (q : Nat) (pl : Plane) : (s.isolateRouter q pl).stewards = s.stewards :=
  (foldl_same State.stewards (fun t q => deadIfAlone_stewards t q pl) _ _).trans
    ((markDead_stewards _ q pl).trans (foldl_same State.stewards downBoth_stewards _ s))

/-! ### Gates, ports and lanes -/

@[simp] theorem raiseLink_stewards (s : State) (gi b : Nat) (loc : W32) (syn : W64) (opc : W16) :
    (s.raiseLink gi b loc syn opc).stewards = s.stewards := rfl

@[simp] theorem raiseGate_stewards (s : State) (gi b code : Nat) (opc : W16) (syn : W64) (cls : Bool) (hold : Option Nat) :
    (s.raiseGate gi b code opc syn cls hold).stewards = s.stewards := rfl

@[simp] theorem releaseStores_stewards (s : State) : s.releaseStores.stewards = s.stewards := by
  unfold releaseStores
  exact stewards_foldl (fun t p => modGate_stewards t p _) _ s

@[simp] theorem failPart_stewards (s : State) (gi : Nat) (r : StoreReq) (p : Nat × Nat × Nat) (cause code : Nat)
    (permits later : Bool) :
    (s.failPart gi r p cause code permits later).stewards = s.stewards := by
  unfold failPart haltGate; simp

@[simp] theorem failStore_stewards (s : State) (gi : Nat) (r : StoreReq) (cause code : Nat) (permits later : Bool) :
    (s.failStore gi r cause code permits later).stewards = s.stewards := by
  unfold failStore; simp

@[simp] theorem failPort_stewards (s : State) (gi k : Nat) : (s.failPort gi k).stewards = s.stewards := by
  unfold failPort; simp

@[simp] theorem checkSlew_stewards (s : State) : s.checkSlew.stewards = s.stewards := by
  unfold checkSlew; simp

@[simp] theorem portMismatch_stewards (s : State) (gi k : Nat) (opc : W16) : (s.portMismatch gi k opc).stewards = s.stewards :=
    by
  unfold portMismatch; simp

@[simp] theorem lanesOff_stewards (s : State) (gi k : Nat) : (s.lanesOff gi k).stewards = s.stewards := by
  unfold lanesOff
  exact stewards_foldl (fun t i => modGate_stewards t gi _) _ s

@[simp] theorem unpower_stewards (s : State) (gi k : Nat) (st : PortState) : (s.unpower gi k st).stewards = s.stewards := rfl

@[simp] theorem chunksLeave_stewards (s : State) (was : List (Nat × Msg)) (gi k : Nat) :
    (s.chunksLeave was gi k).stewards = s.stewards := by
  unfold chunksLeave passHorizon; simp

@[simp] theorem flushPort_stewards (s : State) (gi k : Nat) : (s.flushPort gi k).stewards = s.stewards := by
  unfold flushPort; simp

@[simp] theorem launch_stewards (s : State) (h i : Nat) (m : Msg) (ps : List (Nat × Nat)) : (s.launch h i m ps).stewards =
    s.stewards := by
  unfold launch countChunk; simp

@[simp] theorem sendUnsent_stewards (s : State) (h : Nat) : (s.sendUnsent h).stewards = s.stewards := by
  unfold sendUnsent; simp

@[simp] theorem sendWaiting_stewards (s : State) : s.sendWaiting.stewards = s.stewards := stewards_foldl sendUnsent_stewards _ s

@[simp] theorem portUp_stewards (s : State) (gi k : Nat) (opc : W16) : (s.portUp gi k opc).stewards = s.stewards := by
  unfold portUp; simp

@[simp] theorem portUpdate_stewards (s : State) (gi k : Nat) (opc : W16) : (s.portUpdate gi k opc).stewards = s.stewards := by
  unfold portUpdate; simp

@[simp] theorem laneFail_stewards (s : State) (gi l : Nat) : (s.laneFail gi l).stewards = s.stewards := by
  unfold laneFail; simp

@[simp] theorem disablePort_stewards (s : State) (gi k : Nat) (opc : W16) : (s.disablePort gi k opc).stewards = s.stewards := by
  unfold disablePort cageOff; simp

/-! ### Holdings -/

@[simp] theorem raiseStc_stewards (s : State) (h r b code : Nat) (opc : W16) : (s.raiseStc h r b code opc).stewards = s.stewards
    := by
  unfold raiseStc; simp

@[simp] theorem publishTotals_stewards (s : State) (h : Nat) : (s.publishTotals h).stewards = s.stewards := by
  unfold publishTotals; simp

@[simp] theorem tryOpen_stewards (s : State) (h : Nat) : (s.tryOpen h).stewards = s.stewards := by
  unfold tryOpen
  split
  · exact (publishTotals_stewards _ h).trans ((stewards_foldl (fun t p => setParish_stewards t p _) _ _).trans (setStc_stewards _ h _))
  · exact setStc_stewards s h _

@[simp] theorem checkDone_stewards (s : State) (h : Nat) : (s.checkDone h).stewards = s.stewards := by
  unfold checkDone endStep; simp

@[simp] theorem resolve_stewards (s : State) (h : Nat) : (s.resolve h).stewards = s.stewards := by
  unfold resolve
  dsimp only
  split <;> simp [replayNow_stewards]

theorem contextsAborted_stewards (s : State) (h cause : Nat) : (s.abortHolding h cause).stewards = s.stewards := by
  rw [abortHolding_frame]

@[simp] theorem startReset_stewards (s : State) (h : Nat) (st : HldState) (creating : Bool) :
    (s.startReset h st creating).stewards = s.stewards := by
  unfold startReset
  refine (stewards_foldl (fun t p => setParish_stewards t p _) _ _).trans ?_
  refine (contextsAborted_stewards _ h 8).trans ?_
  exact (stewards_foldl (fun t q => onCroft_stewards t q Site.beginReset) _ _).trans (setStc_stewards _ h _)

/-! ### A LOST steward stays LOST -/

/-- Steward j is LOST. -/
def LostAt (j : Nat) (s : State) : Prop := (s.steward j).role = .lost

theorem LostAt.of_stewards {j : Nat} {s t : State} (h : LostAt j s) (ht : t.stewards = s.stewards) : LostAt j t := by
  unfold LostAt steward
  rw [ht]
  exact h

theorem LostAt.setSteward {j : Nat} {s : State} (h : LostAt j s) {i : Nat} {v : Steward} (hv : i = j → v.role = .lost) :
    LostAt j (s.setSteward i v) := by
  unfold LostAt
  rw [steward_setSteward]
  split
  next hj => exact hv hj.symm
  next => exact h

theorem lostAt_foldl {α : Type} {j : Nat} {f : State → α → State} (hf : ∀ s a, LostAt j s → LostAt j (f s a)) (l : List α)
    {s : State}
    (h : LostAt j s) : LostAt j (l.foldl f s) :=
  List.foldlRecOn (motive := LostAt j) l f h fun t ht a _ => hf t a ht

theorem LostAt.perform {j : Nat} {s : State} (h : LostAt j s) (d : Shadow) : LostAt j (s.perform d) := by
  unfold State.perform
  extract_lets t u v w
  have ht : LostAt j t := h
  have hu : LostAt j u := ht.of_stewards (stewards_foldl (fun t m => modGate_stewards t m.1 _) d.msgs t)
  have hv : LostAt j v := by
    refine lostAt_foldl (fun s c hs => hs.setSteward fun hc => ?_) d.cores
      (hu.of_stewards (stewards_foldl acknowledge_stewards d.acks u))
    exact hc ▸ hs
  have hw : LostAt j w := (hv.of_stewards (stewards_foldl (fun t g => abortHolding_stewards t g) d.aborts v)).of_stewards
    (stewards_foldl discardStep_stewards d.discards _)
  exact hw

theorem LostAt.releaseShadows {j : Nat} {s : State} (h : LostAt j s) : LostAt j s.releaseShadows :=
  lostAt_foldl (fun _ d ht => ht.perform d) s.shadows h

theorem LostAt.becomeActive {i j : Nat} {s : State} (h : LostAt j s) (hij : i ≠ j) : LostAt j (s.becomeActive i) := by
  unfold State.becomeActive
  extract_lets t f mine u v w
  have ht : LostAt j t := LostAt.of_stewards
    (h.setSteward (v := { s.steward i with role := .active, expired := false }) fun hi => absurd hi hij) rfl
  have hu : LostAt j u := lostAt_foldl (fun _ d hs => hs.perform d) mine ht
  have hv : LostAt j v := by
    unfold v
    split
    · exact hu
    · exact hu
  refine lostAt_foldl (fun s h hs => ?_) _ (show LostAt j w from hv)
  split
  · exact hs
  · exact hs.of_stewards (resolve_stewards s h)
  · exact hs.of_stewards (startReset_stewards s h _ _)

theorem LostAt.takeover {j : Nat} {s : State} (h : LostAt j s) (i : Nat) : LostAt j (s.takeover i) := by
  unfold State.takeover
  split
  next hr =>
    have hij : i ≠ j := by
      rintro rfl
      rw [show (s.steward i).role = .lost from h] at hr
      exact absurd hr.1 (by decide)
    exact LostAt.becomeActive (LostAt.of_stewards (h.setSteward fun hi => hi ▸ h) rfl) hij
  next => exact h

theorem LostAt.loseSteward {j : Nat} {s : State} (h : LostAt j s) (i : Nat) : LostAt j (s.loseSteward i) := by
  unfold State.loseSteward
  extract_lets was k t u
  have ht : LostAt j t := h.setSteward fun _ => rfl
  have hu : LostAt j u := by
    unfold u
    split
    · exact ht
    · exact ht
  split
  · exact h
  · split
    · split
      · exact hu.takeover k
      · exact hu
    · exact LostAt.releaseShadows (ht.setSteward fun hi => hi ▸ ht)

theorem LostAt.isolateLoc {j : Nat} {s : State} (h : LostAt j s) (loc : W32) : LostAt j (s.isolateLoc loc) := by
  unfold State.isolateLoc
  extract_lets i q pl l u
  split
  · split
    · exact h.of_stewards (isolateCroft_stewards s i)
    · exact h
  · split
    · exact h
    · exact h.of_stewards ((isolateCroft_stewards _ q).trans (isolateRouter_stewards s q pl))
  · split
    · exact h
    · have hu : LostAt j u := h.of_stewards ((deadIfAlone_stewards _ _ _).trans (downBoth_stewards s l))
      split
      · exact hu.of_stewards (deadIfAlone_stewards u _ _)
      · exact hu
  · split
    · exact h.of_stewards ((setParish_stewards _ i _).trans (isolate_stewards s i))
    · exact h
  · split
    · exact h.of_stewards ((modGate_stewards _ i _).trans (stewards_foldl (fun t k => disablePort_stewards t i k 0) _ s))
    · exact h
  · split
    · refine h.of_stewards ((modGate_stewards _ _ _).trans ?_)
      split
      · rfl
      · exact laneFail_stewards s _ _
    · exact h
  · split
    · exact h.of_stewards ((modGate_stewards _ _ _).trans (disablePort_stewards s _ _ 0))
    · exact h
  · exact LostAt.setSteward (h.loseSteward _) fun hi => hi ▸ h.loseSteward _
  · exact h
  · exact h

theorem LostAt.settle {j : Nat} {s : State} (h : LostAt j s) : LostAt j s.settle := by
  have hd : ∀ n, ∀ t : State, LostAt j t → LostAt j (isolateDue n t) := by
    intro n
    induction n with
    | zero => exact fun t ht => ht
    | succ n ih =>
      intro t ht
      unfold isolateDue
      split
      · exact ht
      · exact ih _ (lostAt_foldl (fun u loc hu => hu.isolateLoc loc) _ (show LostAt j { t with toIsolate := [] } from ht))
  exact hd 3 s h

end State

end Sys2Proof.Machine

namespace Sys2Proof.Machine
open Sys2Proof.Safety

/-! ### Heartbeats and watchdogs -/

section
variable {st : Stw} {s : State}

theorem exec_heartbeat_sent (hr : (s.steward st).role = .active) (he : (s.steward st).expired = false) :
    exec (.heartbeat st) s = .next { s.setSteward st { s.steward st with heartbeats := (s.steward st).heartbeats + 1 } with
      outq := s.outq ++ [{
        op := 0x12, src := BitVec.ofNat 16 (0x7100 + st), dest := BitVec.ofNat 16 (0x7100 + State.otherSteward st)
        vc := 3, origVc := 3, holding := 15, who := .heartbeat st }] } :=
  if_pos (by simp [hr, he])

theorem exec_heartbeat_none (h : (s.steward st).role ≠ .active ∨ (s.steward st).expired = true) : exec (.heartbeat st) s = .next
    s :=
  if_neg (by
    rintro ⟨hr, he⟩
    rcases h with h | h
    · exact h hr
    · simp [h] at he)

theorem exec_kick (h : (s.steward st).heldReset = false) :
    exec (.kick st) s = .next (s.setSteward st { s.steward st with expired := false }) :=
  congrArg Host.Outcome.next (congrArg (s.setSteward st) (if_neg (by simp [h])))

theorem exec_watchdogExpiry (hu : s.up = true) (h : (s.steward st).heldReset = false) :
    exec (.watchdogExpiry st) s = .next (s.setSteward st { s.steward st with expired := true }) :=
  congrArg Host.Outcome.next ((if_pos hu).trans (congrArg (s.setSteward st) (if_neg (by simp [h]))))

theorem exec_watchdogExpiry_down (hu : s.up = false) : exec (.watchdogExpiry st) s = .next s :=
  congrArg Host.Outcome.next (if_neg (by simp [hu]))

theorem exec_stewardUe (hu : s.up = true) (h : (s.steward st).heldReset = false) :
    ∃ e, e.source = 79 ∧ e.loc = State.locSteward st ∧ exec (.stewardUe st) s = .next { s with reports := s.reports ++ [e] } :=
  ⟨_, rfl, rfl, (if_neg (by simp [hu, h])).trans (congrArg Host.Outcome.next (State.raise_steward s st 79 st.isLt _ _ _ _))⟩

theorem exec_stewardUe_none (h : s.up = false ∨ (s.steward st).heldReset = true) : exec (.stewardUe st) s = .next s :=
  if_pos (by
    rcases h with h | h
    · simp [h]
    · simp [h])

/-! ### A lost partner -/

theorem otherSteward_ne (st : Stw) : (st : Nat) ≠ State.otherSteward st := by
  unfold State.otherSteward
  omega

theorem otherSteward_lt (st : Stw) : State.otherSteward st < 2 := by
  unfold State.otherSteward
  omega

/-- The roles of steward i and of the other one say whether one is ACTIVE. -/
theorem active_none (h : (s.steward st).role ≠ .active) (hj : (s.steward (State.otherSteward st)).role ≠ .active) : s.active =
    none := by
  unfold State.active
  obtain ⟨i, hi⟩ := st
  obtain rfl | rfl : i = 0 ∨ i = 1 := by omega
  · exact (if_neg h).trans (if_neg hj)
  · exact (if_neg hj).trans (if_neg h)

theorem active_partner (h : (s.steward st).role ≠ .active) (hj : (s.steward (State.otherSteward st)).role = .active) :
    s.active = some (State.otherSteward st) := by
  unfold State.active
  obtain ⟨i, hi⟩ := st
  obtain rfl | rfl : i = 0 ∨ i = 1 := by omega
  · exact (if_neg h).trans (if_pos hj)
  · exact if_pos hj

theorem active_ne_of_lost {j : Nat} (h : State.LostAt j s) : s.active ≠ some j := by
  intro ha
  have hr : (s.steward j).role = .active := by
    unfold State.active at ha
    split at ha
    next h0 => rwa [← Option.some.inj ha]
    next =>
      split at ha
      next h1 => rwa [← Option.some.inj ha]
      next => cases ha
  rw [show (s.steward j).role = .lost from h] at hr
  cases hr

/-- After the partner is lost: its role and its management port. -/
def State.lostPartner (s : State) (j : Nat) (e : Report) : State :=
  { s.setSteward j { s.steward j with role := .lost, mgmtUp := false } with reports := s.reports ++ [e] }

/-- The event of a partner that is lost, at the steward that declares it. -/
def State.partnerEvent (s : State) (j : Nat) : Report :=
  (s.setSteward j { s.steward j with role := .lost, mgmtUp := false }).eventOf 74 (State.locSteward j) 0 0 (some false) none

section
variable (hv : (s.steward st).role = .standby)
include hv

theorem declareLost_active (hp : (s.steward (State.otherSteward st)).role = .active) :
    let lost := s.lostPartner (State.otherSteward st) (s.partnerEvent (State.otherSteward st))
    s.declareLost st = if bit (s.reg (Reg.stwCtrl st)) 0 = true then lost.takeover st else lost := by
  have hoo : State.otherSteward (State.otherSteward st) = st := by
    unfold State.otherSteward
    omega
  intro lost
  refine (if_pos hv).trans ?_
  unfold State.loseSteward
  extract_lets was i u v
  have hw : was = .active := hp
  have hi : i = st := hoo
  have hu : (u.steward i).role = .standby := by
    rw [hi, show u.steward st = s.steward st from State.steward_setSteward_ne s _ (otherSteward_ne st)]
    exact hv
  have hvl : v = lost := (if_pos hu).trans (State.raise_steward u _ 74 (otherSteward_lt st) _ _ _ _)
  rw [if_neg (by rw [hw]; decide), if_pos hw, hvl, hi]
  rfl

omit hv in
theorem lostPartner_roles (j : Nat) (e : Report) : State.LostAt j (s.lostPartner j e) :=
  congrArg Steward.role (State.steward_setSteward_same s j { s.steward j with role := .lost, mgmtUp := false })

omit hv in
theorem steward_lostPartner (e : Report) : (s.lostPartner (State.otherSteward st) e).steward st = s.steward st :=
  State.steward_setSteward_ne s { s.steward (State.otherSteward st) with role := .lost, mgmtUp := false } (otherSteward_ne st)

/-- With AUTO the STANDBY steward takes over at once, without it it waits. -/
theorem exec_heartbeatTimeout_active (hp : (s.steward (State.otherSteward st)).role = .active) :
    let lost := s.lostPartner (State.otherSteward st) (s.partnerEvent (State.otherSteward st))
    (bit (s.reg (Reg.stwCtrl st)) 0 = false → s.toIsolate = [] → exec (.heartbeatTimeout st) s = .next lost) ∧
    (bit (s.reg (Reg.stwCtrl st)) 0 = true → exec (.heartbeatTimeout st) s = exec (.takeover st) lost) := by
  intro lost
  have hd := declareLost_active hv hp
  have hl : State.LostAt (State.otherSteward st) lost := lostPartner_roles _ _
  have hvl : (lost.steward st).role = .standby :=
    (congrArg Steward.role (steward_lostPartner _)).trans hv
  have hnone : lost.active = none := active_none (st := st) (by rw [hvl]; decide) (by rw [show _ = _ from hl]; decide)
  refine ⟨fun hb hi => congrArg Host.Outcome.next ?_, fun hb => congrArg Host.Outcome.next ?_⟩
  · rw [hd, if_neg (by rw [hb]; decide), State.settle_nothing (s := lost) hi]
    exact if_neg (by rw [hnone]; simp)
  · rw [hd, if_pos hb]
    have hx : State.LostAt (State.otherSteward st) (lost.takeover st).settle := (hl.takeover st).settle
    generalize (lost.takeover st).settle = x at hx ⊢
    have hxa := active_ne_of_lost hx
    have hsa : s.active = some (State.otherSteward st) := active_partner (by rw [hv]; decide) hp
    have hc : (x.active != s.active) = true := by simpa [hsa] using hxa
    cases ha : x.active with
    | none => exact (if_neg (by rw [ha]; simp)).trans (if_neg (by rw [ha]; simp)).symm
    | some i =>
      have hc' : (x.active != lost.active) = true := by rw [ha, hnone]; rfl
      unfold State.resume
      rw [hc, hc']

end

end

/-! ### Takeover and release -/

section
variable {st : Stw} {s : State}

theorem exec_heartbeatTimeout_none (h : (s.steward st).role ≠ .standby) (hi : s.toIsolate = []) :
    exec (.heartbeatTimeout st) s = .next s := by
  refine congrArg Host.Outcome.next ?_
  rw [show s.declareLost st = s from if_neg h, State.settle_nothing hi]
  exact State.resume_same rfl

theorem exec_takeover_none (h : (s.steward st).role ≠ .standby ∨ (s.steward (State.otherSteward st)).role ≠ .lost)
    (hi : s.toIsolate = []) : exec (.takeover st) s = .next s := by
  refine congrArg Host.Outcome.next ?_
  rw [show s.takeover st = s from if_neg fun hc => h.elim (fun h => h hc.1) fun h => h hc.2, State.settle_nothing hi]
  exact State.resume_same rfl

theorem exec_release_none (h : (s.steward st).role ≠ .active ∨ (s.steward (State.otherSteward st)).role ≠ .standby)
    (hi : s.toIsolate = []) : exec (.release st) s = .next s := by
  refine congrArg Host.Outcome.next ?_
  rw [show s.release st = s from if_neg fun hc => h.elim (fun h => h hc.1) fun h => h hc.2, State.settle_nothing hi]

/-- Nothing that the holdings stand in is resolved. -/
theorem foldl_resolve_none (hn : NothingToResolve s) :
    (List.range 16).foldl (fun s h => match (s.holding h).st with
      | .free => s
      | .active => s.resolve h
      | st => s.startReset h st (s.holding h).creating) s = s := by
  refine List.foldlRecOn (motive := fun t => t = s) _ _ rfl fun t ht h hm => ?_
  rw [ht]
  rcases hn h (List.mem_range.1 hm) with hf | ⟨ha, hc⟩
  · rw [hf]
  · rw [ha]
    dsimp only
    unfold State.resolve
    rcases hc with hc | hc | hc | hc <;> simp only [hc]

/-- A steward with no applied records of its partner's, and no holding to resolve, becomes ACTIVE. -/
theorem becomeActive_quiet (i : Nat) (hd : ∀ d ∈ s.shadows, d.applied = false) (hn : NothingToResolve s) :
    s.becomeActive i = if (s.setSteward i { s.steward i with role := .active, expired := false }).standby.isSome = true
      then (actsNow { s with shadows := [] } i).syncShadow else actsNow { s with shadows := [] } i := by
  unfold State.becomeActive
  extract_lets t f mine u v w
  have hm : mine = [] := by
    have hf : t.shadows.filter (·.applied) = [] := List.filter_eq_nil_iff.2 fun d hmem => by
      rw [hd d hmem]
      decide
    unfold mine
    rw [hf]
    rfl
  have hu : u = { t with shadows := [] } := by
    unfold u
    rw [hm]
    rfl
  have hw : w = if (s.setSteward i { s.steward i with role := .active, expired := false }).standby.isSome = true
      then (actsNow { s with shadows := [] } i).syncShadow else actsNow { s with shadows := [] } i := by
    unfold w v
    rw [hu]
    split
    next hs => exact Eq.trans rfl (if_pos hs).symm
    next hs => exact Eq.trans rfl (if_neg hs).symm
  have hwn : NothingToResolve w := by
    rw [hw]
    split
    · exact hn
    · exact hn
  exact (foldl_resolve_none hwn).trans hw

theorem standby_isSome {i : Nat} (hi : i < 2) (h : (s.steward i).role = .standby) : s.standby.isSome = true := by
  unfold State.standby
  obtain rfl | rfl : i = 0 ∨ i = 1 := by omega
  · rw [if_pos h]
    rfl
  · split
    · rfl
    · rfl

theorem standby_none (h : (s.steward st).role ≠ .standby) (hj : (s.steward (State.otherSteward st)).role ≠ .standby) :
    s.standby = none := by
  unfold State.standby
  obtain ⟨i, hi⟩ := st
  obtain rfl | rfl : i = 0 ∨ i = 1 := by omega
  · exact (if_neg h).trans (if_neg hj)
  · exact (if_neg hj).trans (if_neg h)

theorem active_self (h : (s.steward st).role = .active) (hj : (s.steward (State.otherSteward st)).role ≠ .active) :
    s.active = some (st : Nat) := by
  unfold State.active
  obtain ⟨i, hi⟩ := st
  obtain rfl | rfl : i = 0 ∨ i = 1 := by omega
  · exact if_pos h
  · exact (if_neg hj).trans (if_pos h)

/-- The STANDBY steward takes the place of its LOST partner, with the set that the records have told it. -/
theorem exec_takeover_quiet (hv : (s.steward st).role = .standby) (hp : (s.steward (State.otherSteward st)).role = .lost)
    (hd : ∀ d ∈ s.shadows, d.applied = false) (hi : s.toIsolate = []) :
    let u := (s.setSteward (State.otherSteward st)
      { s.steward (State.otherSteward st) with heldReset := true, access := [] }).adoptShadow
    NothingToResolve u → exec (.takeover st) s = .next (State.restartStage (actsNow { u with shadows := [] } st)) := by
  intro u hn
  have hus : u.steward st = s.steward st :=
    State.steward_setSteward_ne s { s.steward (State.otherSteward st) with heldReset := true, access := [] }
        (otherSteward_ne st)
  have huj : (u.steward (State.otherSteward st)).role = .lost :=
    (congrArg Steward.role (State.steward_setSteward_same s (State.otherSteward st)
      { s.steward (State.otherSteward st) with heldReset := true, access := [] })).trans hp
  let a := u.setSteward st { u.steward st with role := .active, expired := false }
  have has : (a.steward st).role = .active := congrArg Steward.role (State.steward_setSteward_same u st _)
  have haj : (a.steward (State.otherSteward st)).role = .lost :=
    (congrArg Steward.role (State.steward_setSteward_ne u _ (otherSteward_ne st).symm)).trans huj
  have hq : s.takeover st = actsNow { u with shadows := [] } st := by
    refine (if_pos ⟨hv, hp⟩).trans ((becomeActive_quiet (s := u) (st : Nat) hd hn).trans (if_neg ?_))
    rw [show a.standby = none from standby_none (st := st) (by rw [has]; decide) (by rw [haj]; decide)]
    decide
  refine congrArg Host.Outcome.next ?_
  rw [hq, State.settle_nothing (s := actsNow { u with shadows := [] } st) hi]
  have hx : (actsNow { u with shadows := [] } st).stewards = a.stewards := rfl
  generalize actsNow { u with shadows := [] } st = x at hx ⊢
  have hxs : ∀ i, x.steward i = a.steward i := fun i => by
    unfold State.steward
    rw [hx]
  have hxa : x.active = some (st : Nat) := active_self (by rw [hxs, has]) (by rw [hxs, haj]; decide)
  have hsa : s.active = none := active_none (st := st) (by rw [hv]; decide) (by rw [hp]; decide)
  have hlost : ((List.range 2).any fun i => (x.steward i).role == .lost) = true :=
    List.any_eq_true.2 ⟨State.otherSteward st, List.mem_range.2 (otherSteward_lt st), by rw [hxs, haj]; rfl⟩
  exact if_pos (by rw [hlost, hxa, hsa]; rfl)

theorem exec_release_quiet (hv : (s.steward st).role = .active) (hp : (s.steward (State.otherSteward st)).role = .standby)
    (hsh : s.shadows = []) (hi : s.toIsolate = []) (hn : NothingToResolve s) : exec (.release st) s =
      .next (actsNow (s.setSteward st { s.steward st with role := .standby }) (State.otherSteward st)).syncShadow := by
  let t := s.setSteward st { s.steward st with role := .standby }
  have ht : { t with shadows := s.shadows.map fun (d : Shadow) => { d with applied := true } } = t := by
    rw [hsh, List.map_nil, ← hsh]
    rfl
  have hts : t.shadows = [] := hsh
  let a := t.setSteward (State.otherSteward st) { t.steward (State.otherSteward st) with role := .active, expired := false }
  have has : (a.steward st).role = .standby :=
    (congrArg Steward.role (State.steward_setSteward_ne t _ (otherSteward_ne st))).trans
      (congrArg Steward.role (State.steward_setSteward_same s st _))
  have hq : s.release st = (actsNow t (State.otherSteward st)).syncShadow := by
    refine (if_pos ⟨hv, hp⟩).trans ((congrArg (fun u : State => u.becomeActive (State.otherSteward st)) ht).trans ?_)
    refine (becomeActive_quiet (s := t) _ (fun d hd => by rw [hts] at hd; cases hd) hn).trans ((if_pos ?_).trans ?_)
    · exact standby_isSome (s := a) st.isLt has
    · rw [show ({ t with shadows := [] } : State) = t by rw [← hts]]
  refine congrArg Host.Outcome.next ?_
  rw [hq]
  exact State.settle_nothing hi

end

/-! ### Shadow records -/

namespace State

/-- A change of the partner's set leaves alone what is under way, and an edit of what is under way leaves alone the change. -/
theorem foldl_applyChange (cs : List Change) (s : State) (l : List Packet) (ds : List Shadow) (q : List Packet) :
    { cs.foldl applyChange { s with inbox := l } with shadows := ds, outq := q } =
      { cs.foldl applyChange s with inbox := l, shadows := ds, outq := q } ∧
    (cs.foldl applyChange { s with inbox := l }).shadows = s.shadows ∧ (cs.foldl applyChange { s with inbox := l }).outq =
        s.outq := by
  induction cs generalizing s with
  | nil => exact ⟨rfl, rfl, rfl⟩
  | cons c cs ih =>
    have hc : ({ s with inbox := l } : State).applyChange c = { s.applyChange c with inbox := l } ∧
        (s.applyChange c).shadows = s.shadows ∧ (s.applyChange c).outq = s.outq := by
      cases c <;> exact ⟨rfl, rfl, rfl⟩
    rw [List.foldl_cons, hc.1, List.foldl_cons]
    obtain ⟨h1, h2, h3⟩ := ih (s.applyChange c)
    exact ⟨h1, h2.trans hc.2.1, h3.trans hc.2.2⟩

end State

section
variable {s : State} {n : Nat}

theorem exec_shadowRecord_some {k : Packet} {d : Shadow} (hk : (s.inbox.find? fun k => k.who = .shadow n && k.op = 0x12) = some
    k)
    (hd : s.shadows.find? (fun d => !d.applied) = some d) :
    (d.num = n → exec (.shadowRecord n) s = .next { d.changes.foldl State.applyChange s with
      inbox := s.inbox.erase k, outq := s.outq ++ [State.answerTo k 0x14 3]
      shadows := s.shadows.map fun e => if e.num = n then { e with applied := true } else e }) ∧
    (d.num ≠ n → exec (.shadowRecord n) s = .next s) := by
  have he : exec (.shadowRecord n) s = execShadowRecord n s := rfl
  rw [he]
  unfold execShadowRecord
  rw [hk, hd]
  refine ⟨fun hn => (if_pos hn).trans (congrArg Host.Outcome.next ?_), fun hn => if_neg hn⟩
  obtain ⟨h1, h2, h3⟩ := State.foldl_applyChange d.changes s (s.inbox.erase k)
    (s.shadows.map fun e => if e.num = n then { e with applied := true } else e) (s.outq ++ [State.answerTo k 0x14 3])
  refine Eq.trans ?_ h1
  unfold State.take
  generalize d.changes.foldl State.applyChange { s with inbox := s.inbox.erase k } = t at h2 h3 ⊢
  show ({ t with shadows := t.shadows.map _, outq := t.outq ++ [State.answerTo k 0x14 3] } : State) = _
  rw [h2, h3]

theorem exec_shadowRecord_none (h : (s.inbox.find? fun k => k.who = .shadow n && k.op = 0x12) = none ∨
    s.shadows.find? (fun d => !d.applied) = none) : exec (.shadowRecord n) s = .next s := by
  have he : exec (.shadowRecord n) s = execShadowRecord n s := rfl
  rw [he]
  unfold execShadowRecord
  rcases h with h | h
  · rw [h]
  · rw [h]
    cases s.inbox.find? fun k => k.who = .shadow n && k.op = 0x12 <;> rfl

theorem exec_shadowAck_some {k : Packet} {d : Shadow} {ds : List Shadow}
    (hk : (s.inbox.find? fun k => k.who = .shadow n && k.op = 0x14) = some k) (hd : s.shadows = d :: ds) :
    (d.num = n → d.applied = true → exec (.shadowAck n) s =
      .next (({ s with inbox := s.inbox.erase k, shadows := ds } : State).perform d).settle) ∧
    ((d.num ≠ n ∨ d.applied = false) → exec (.shadowAck n) s = .next s) := by
  have he : exec (.shadowAck n) s = execShadowAck n s := rfl
  rw [he]
  unfold execShadowAck
  rw [hk, hd]
  refine ⟨fun hn ha => if_pos ⟨hn, ha⟩, fun h => if_neg fun hc => ?_⟩
  rcases h with h | h
  · exact h hc.1
  · rw [h] at hc
    cases hc.2

theorem exec_shadowAck_none (h : (s.inbox.find? fun k => k.who = .shadow n && k.op = 0x14) = none ∨ s.shadows = []) :
    exec (.shadowAck n) s = .next s := by
  have he : exec (.shadowAck n) s = execShadowAck n s := rfl
  rw [he]
  unfold execShadowAck
  rcases h with h | h
  · rw [h]
  · rw [h]
    cases s.inbox.find? fun k => k.who = .shadow n && k.op = 0x14 <;> rfl

/-- The record's packets leave. -/
theorem perform_release (s : State) {d : Shadow} (hm : d.msgs = []) (ha : d.acks = []) (hc : d.cores = []) (hb : d.aborts = [])
    (hx : d.discards = []) (hi : d.isolate = []) : s.perform d = { s with outq := s.outq ++ d.release } := by
  unfold State.perform
  rw [hm, ha, hc, hb, hx, hi]
  simp only [List.foldl_nil, List.append_nil]
  rfl

/-- The isolation that waited is made. -/
theorem settle_perform_isolate (s : State) (loc : W32) (hi : s.toIsolate = []) (hl : (s.isolateLoc loc).toIsolate = []) :
    (s.perform { num := n, applied := true, isolate := [loc] }).settle = s.isolateLoc loc := by
  have hp : s.perform { num := n, applied := true, isolate := [loc] } = { s with toIsolate := [loc] } := by
    unfold State.perform
    simp only [List.foldl_nil]
    rw [State.emit_nil, hi]
    rfl
  rw [hp]
  have hs : ({ s with toIsolate := [] } : State) = s := by rw [← hi]
  have h1 : ({ s with toIsolate := [loc] } : State).settle = State.isolateDue 2 (({ s with toIsolate := [] } : State).isolateLoc loc) := rfl
  rw [h1, hs]
  exact if_pos (by rw [hl]; rfl)

end

end Sys2Proof.Machine

namespace Sys2Proof.Machine
open Sys2Proof.Safety

/-! ### The control service -/

namespace State

/-- A change that leaves at most one record for the partner is one record already. -/
def OneRecord (s t : State) : Prop := t.shadows = s.shadows ∨ ∃ x, t.shadows = s.shadows ++ [x]

theorem asOne_of_record {s : State} {f : State → State} (h : OneRecord s (f s)) : s.asOne f = f s := by
  rcases h with h | ⟨x, h⟩
  · exact asOne_of_shadows h
  · exact asOne_one h

/-- An answer at the management port is no part of a record. -/
theorem asOne_answer (s : State) (f : State → State) (a : ControlAnswer) :
    (s.asOne fun s => (f s).answerControl a) = (s.asOne f).answerControl a := by
  have hs : ((f s).answerControl a).shadows = (f s).shadows := rfl
  unfold asOne
  dsimp only
  rw [hs]
  split
  · rfl
  · split
    · split <;> rfl
    · rfl

theorem oneRecord_setStc (s : State) (h : Nat) (c : Stc) : OneRecord s (s.setStc h c) := by
  unfold setStc
  generalize hu : ({ s with stcs := _ } : State) = u
  have hs : u.shadows = s.shadows := by rw [← hu]
  cases hst : u.standby with
  | none =>
    refine .inl ?_
    rw [show u.shadow (.stc h c) = u from if_neg (by rw [hst]; decide)]
    exact hs
  | some i =>
    refine .inr ⟨{ num := u.shadowNum, changes := [.stc h c] }, ?_⟩
    rw [u.shadow_sent _ hst, ← hs]
    rfl

theorem abortHolding_shadows (s : State) (h cause : Nat) : (s.abortHolding h cause).shadows = s.shadows := by
  rw [abortHolding_frame]

theorem oneRecord_startReset (s : State) (h : Nat) (st : HldState) (creating : Bool) : OneRecord s (s.startReset h st creating)
    := by
  have hs : (s.startReset h st creating).shadows =
      ((s.setHolding h { s.holding h with st, creating }).setStc h
        { (s.setHolding h { s.holding h with st, creating }).stc h with abandoning := false, openPending := false, order := 0
            }).shadows := by
    unfold startReset
    refine (foldl_same State.shadows (fun t p => setParish_shadows t p _) _ _).trans ((abortHolding_shadows _ h 8).trans ?_)
    exact foldl_same State.shadows (fun t q => onCroft_shadows t q Site.beginReset) _ _
  exact (oneRecord_setStc (s.setHolding h { s.holding h with st, creating }) h _).imp (fun h1 => hs.trans h1)
    fun ⟨x, h1⟩ => ⟨x, hs.trans h1⟩

theorem oneRecord_createHolding (s : State) (h : Nat) : OneRecord s (s.createHolding h) := by
  unfold createHolding
  extract_lets ps ok
  split
  · exact .inl rfl
  · have hf : (ps.foldl (fun s p => s.setNum (Reg.hldOwner p) h) (s.setHldErr h false)).shadows = s.shadows :=
      (foldl_same State.shadows (fun t p => setNum_shadows t (Reg.hldOwner p) h) ps _).trans rfl
    exact (oneRecord_startReset _ h .resetting true).imp (fun h1 => h1.trans hf) fun ⟨x, h1⟩ => ⟨x, h1.trans (by rw [hf])⟩

theorem oneRecord_resetHolding (s : State) (h : Nat) : OneRecord s (s.resetHolding h) := by
  unfold resetHolding
  split
  · exact .inl rfl
  · exact oneRecord_startReset (s.setHldErr h false) h .resetting false
  · exact .inl rfl

theorem oneRecord_destroyHolding (s : State) (h : Nat) : OneRecord s (s.destroyHolding h) := by
  unfold destroyHolding
  split
  · exact .inl rfl
  · exact oneRecord_startReset (s.setHldErr h false) h .destroying false
  · exact .inl rfl
  · exact .inl rfl

theorem writeCaps_shadows (s : State) : s.writeCaps.shadows = s.shadows := by
  unfold writeCaps
  refine foldl_same State.shadows (fun t p => ?_) _ s
  unfold writePclkCap
  exact setParish_shadows t p _

theorem writeAltRes_shadows (s : State) (h : Nat) (v : W32) : (s.writeAltRes h v).shadows = s.shadows := by
  unfold writeAltRes
  dsimp only
  split <;> rfl

theorem writeAltPower_shadows (s : State) (h : Nat) (v : W32) : (s.writeAltPower h v).shadows = s.shadows := by
  unfold writeAltPower formCode
  dsimp only
  split
  · rfl
  · exact writeCaps_shadows _
  · rfl

theorem up_of_mgmtPin {s : State} {i : Nat} (h : s.mgmtPin i = true) : s.up = true := by
  unfold mgmtPin pins at h
  cases hu : s.up with
  | true => rfl
  | false =>
    have ha : s.alive = false := by unfold alive; rw [hu]; rfl
    rw [ha] at h
    split at h <;> simp at h

end State

section
variable {st : Stw} {s : State} (hp : s.mgmtPin st = true) (h5 : 5 ≤ s.sec.stage)
include hp h5

theorem exec_control_active (hr : (s.steward st).role = .active) (r : ControlRequest) :
    exec (.controlServiceRequest st r) s = .next (s.asOne fun s => s.serveControl r) := by
  have he : exec (.controlServiceRequest st r) s = execControlServiceRequest st r s := rfl
  rw [he]
  unfold execControlServiceRequest
  rw [if_neg (by simp [hp]; omega)]
  rw [hr]

theorem exec_control_standby (hr : (s.steward st).role = .standby) :
    exec (.controlServiceRequest st .status) s = .next (s.answerControl (.status s.holdingStates)) ∧
    ∀ r, r ≠ .status → exec (.controlServiceRequest st r) s = .next (s.answerControl (.refusedNaming (s.active.getD 2))) := by
  have he : ∀ r, exec (.controlServiceRequest st r) s = execControlServiceRequest st r s := fun _ => rfl
  have hn : ¬ (!s.mgmtPin st || s.sec.stage < 5) = true := by
    simp [hp]
    omega
  refine ⟨?_, fun r hne => ?_⟩
  · rw [he]
    unfold execControlServiceRequest
    rw [if_neg hn, hr]
  · rw [he]
    unfold execControlServiceRequest
    rw [if_neg hn, hr]
    cases r with
    | status => exact absurd rfl hne
    | _ => rfl

section
variable (hr : (s.steward st).role = .active)
include hr

/-- A request that changes the ACTIVE set as f does. -/
theorem exec_control_done {r : ControlRequest} (f : State → State) {a : ControlAnswer}
    (hf : s.serveControl r = (f s).answerControl a) :
    exec (.controlServiceRequest st r) s = .next ((s.asOne f).answerControl a) := by
  rw [exec_control_active hp h5 hr, State.asOne_congr (g := fun s => (f s).answerControl a) hf, State.asOne_answer]

end

end

/-! ### Checkpoints and maps -/

namespace State

theorem takeCheckpoint_saved (s : State) (h : Nat) :
    ∃ k : Checkpoint, Tab.get (fun _ => none) (s.takeCheckpoint h).sec.saved h = some k ∧ k.step = (s.stc h).reg Reg.stcStep ∧
      k.lsState = (s.stc h).reg Reg.stcLsState ∧ k.fill = (s.stc h).field Reg.stcHist 4 0 ∧
      k.pos = (s.stc h).reg Reg.stcSchedPos ∧ k.rewarm = (s.stc h).reg Reg.stcSchedRewarm ∧
      s.takeCheckpoint h = { s with sec := { s.sec with saved := (s.takeCheckpoint h).sec.saved } } := by
  unfold takeCheckpoint
  extract_lets c preds k
  exact ⟨k, Tab.get_set_same _ s.sec.saved h (some k), rfl, rfl, rfl, rfl, rfl, rfl⟩

theorem ofAddr_own (i : Nat) {a : Nat} (h : 0x16000000 ≤ a ∧ a < 0x16001000) :
    Place.ofAddr i a = .module (Reg.stwId i + (a - 0x16000000)) := by
  unfold Place.ofAddr
  rw [if_neg (by omega), if_neg (by omega), if_neg (by omega), if_neg (by omega), if_neg (by omega), if_neg (by omega),
    if_neg (by omega), if_neg (by omega), if_pos h]

theorem ofAddr_partner (i : Nat) {a : Nat} (h : 0x16001000 ≤ a ∧ a < 0x16002000) :
    Place.ofAddr i a = .module (Reg.stwId (otherSteward i) + (a - 0x16001000)) := by
  unfold Place.ofAddr
  rw [if_neg (by omega), if_neg (by omega), if_neg (by omega), if_neg (by omega), if_neg (by omega), if_neg (by omega),
    if_neg (by omega), if_neg (by omega), if_neg (by omega), if_pos h]

/-- The stewards see every place alike, but for their own registers. -/
theorem ofAddr_alike (i j a : Nat) : Place.ofAddr i a = Place.ofAddr j a ∨
    ∃ m n, Place.ofAddr i a = .module m ∧ Place.ofAddr j a = .module n := by
  by_cases h1 : 0x16000000 ≤ a ∧ a < 0x16001000
  · exact .inr ⟨_, _, ofAddr_own i h1, ofAddr_own j h1⟩
  · by_cases h2 : 0x16001000 ≤ a ∧ a < 0x16002000
    · exact .inr ⟨_, _, ofAddr_partner i h2, ofAddr_partner j h2⟩
    · unfold Place.ofAddr
      rw [if_neg h1, if_neg h2, if_neg h1, if_neg h2]
      exact .inl rfl

theorem placeWidth_alike (i j a : Nat) : placeWidth (Place.ofAddr i a) = placeWidth (Place.ofAddr j a) := by
  rcases ofAddr_alike i j a with h | ⟨m, n, hi, hj⟩
  · rw [h]
  · rw [hi, hj]
    rfl

theorem ofAddr_croft (i : Nat) {j a n o : Nat} (h : Place.ofAddr j a = .croft n o) : Place.ofAddr i a = .croft n o := by
  rcases ofAddr_alike i j a with hij | ⟨k, l, hi, hj⟩
  · exact hij.trans h
  · rw [h] at hj
    cases hj

theorem loadMap_mine (s : State) (h i : Nat) (a : BitVec 48) (v : W64) (ws : List (BitVec 48 × W64))
    (hx : (∀ n o, Place.ofAddr i a.toNat ≠ .croft n o) ∨
      ∃ n o, Place.ofAddr i a.toNat = .croft n o ∧ s.owner (parOfLogical n) = h) :
    s.loadMap h ((a, v) :: ws) = (s.registerWrite a.toNat (placeWidth (Place.ofAddr i a.toNat)) v).loadMap h ws := by
  rw [placeWidth_alike i (s.active.getD 0)]
  unfold loadMap
  rw [List.foldl_cons]
  refine congrArg (fun t => ws.foldl _ t) (if_pos ?_)
  dsimp only
  split
  next n o hc =>
    have hi := ofAddr_croft i hc
    rcases hx with hx | ⟨n', o', hi', ho⟩
    · exact absurd hi (hx n o)
    · rw [hi] at hi'
      cases hi'
      rw [ho]
      exact beq_self_eq_true h
  next => rfl

theorem loadMap_other (s : State) (h i : Nat) (a : BitVec 48) (v : W64) (ws : List (BitVec 48 × W64)) {n o : Nat}
    (hx : Place.ofAddr i a.toNat = .croft n o) (ho : s.owner (parOfLogical n) ≠ h) :
    s.loadMap h ((a, v) :: ws) = s.loadMap h ws := by
  unfold loadMap
  rw [List.foldl_cons]
  refine congrArg (fun t => ws.foldl _ t) (if_neg ?_)
  dsimp only
  rw [ofAddr_croft (s.active.getD 0) hx]
  simpa using ho

end State

theorem exec_registerWrite_next {s t : State} {a : BitVec 48} {n : Nat} {v : W64} (h : exec (.registerWrite a n v) s = .next t)
    :
    t = s.asOne fun s => s.registerWrite a.toNat n v := by
  have he : exec (.registerWrite a n v) s = checked (accessWidth n) (s.asOne fun s => s.registerWrite a.toNat n v) := rfl
  rw [he] at h
  unfold checked at h
  split at h
  · exact (Host.Outcome.next.inj h).symm
  · cases h

theorem active_isSome {s : State} {i : Nat} (hi : i < 2) (h : (s.steward i).role = .active) : s.active.isSome = true := by
  unfold State.active
  obtain rfl | rfl : i = 0 ∨ i = 1 := by omega
  · rw [if_pos h]
    rfl
  · split
    · rfl
    · rfl

section
variable {st : Stw} {s : State} (hp : s.mgmtPin st = true) (h5 : 5 ≤ s.sec.stage) (hr : (s.steward st).role = .active)
include hp h5 hr

/-- A request for what a command does at a module that is up, which leaves at most one record. -/
theorem exec_control_up {r : ControlRequest} {f : State → State} {i : Instr} {t : State}
    (hf : s.serveControl r = (f s).answerControl .done) (h1 : State.OneRecord s (f s)) (hi : exec i s = .next (s.whenUp f))
    (ht : exec i s = .next t) : exec (.controlServiceRequest st r) s = .next (t.answerControl .done) := by
  rw [hi] at ht
  have hft : f s = t := (if_pos (State.up_of_mgmtPin hp)).symm.trans (Host.Outcome.next.inj ht)
  rw [exec_control_done hp h5 hr f hf, State.asOne_of_record h1, hft]

/-- A request for what a register write of a step controller does. -/
theorem exec_control_onSet {r : ControlRequest} {f : State → State} {i : Instr} {t : State}
    (hf : s.serveControl r = (f s).answerControl .done) (hi : exec i s = .next (s.onSet f)) (ht : exec i s = .next t) :
    exec (.controlServiceRequest st r) s = .next (t.answerControl .done) := by
  rw [hi] at ht
  have hft : s.asOne f = t := (State.onSet_some f (active_isSome st.isLt hr)).symm.trans (Host.Outcome.next.inj ht)
  rw [exec_control_done hp h5 hr f hf, hft]

theorem exec_control_alone {r : ControlRequest} {f : State → State} {a : ControlAnswer}
    (hf : s.serveControl r = (f s).answerControl a) (hs : (f s).shadows = s.shadows) :
    exec (.controlServiceRequest st r) s = .next ((f s).answerControl a) := by
  rw [exec_control_done hp h5 hr f hf, State.asOne_of_record (.inl hs)]

end

/-- Settles O46: a partner that is LOST stays LOST through whatever is isolated or resolved, so that a takeover which
HB_TIMEOUT brings on is the takeover itself; the control service's requests are the register commands, each with its answer. -/
theorem stewardsTakeOver : Obligations.StewardsTakeOver := by
  unfold Obligations.StewardsTakeOver
  refine ⟨fun st s => ?_, fun s n => ?_, fun st s hp h5 => ?_⟩
  · refine ⟨exec_heartbeat_sent, exec_heartbeat_none, fun h => ⟨exec_kick h, fun hu => exec_watchdogExpiry hu h⟩,
      exec_watchdogExpiry_down, fun hv hp => ⟨s.partnerEvent (State.otherSteward st), rfl, rfl, rfl,
        exec_heartbeatTimeout_active hv hp⟩, exec_heartbeatTimeout_none, ⟨rfl, rfl, exec_takeover_quiet⟩,
      exec_takeover_none, exec_release_quiet, exec_release_none, fun u => rfl, exec_stewardUe, exec_stewardUe_none⟩
  · refine ⟨fun k d hk hd => exec_shadowRecord_some hk hd, exec_shadowRecord_none, fun k d ds hk hd => ?_, exec_shadowAck_none,
      fun h v => rfl, fun f => rfl, fun o v => rfl⟩
    obtain ⟨hdone, hwait⟩ := exec_shadowAck_some hk hd
    refine ⟨fun hn ha => ⟨hdone hn ha, fun hm hak hc hb hx hi ht => ?_, fun loc hl ht hi => ?_⟩, hwait⟩
    · rw [hdone hn ha, perform_release _ hm hak hc hb hx hi]
      exact congrArg Host.Outcome.next (State.settle_nothing ht)
    · rw [hdone hn ha, hl]
      exact congrArg Host.Outcome.next (settle_perform_isolate _ loc ht hi)
  · refine ⟨fun hr h => ⟨fun t ht => ?_, fun t ht => ?_, fun t ht => ?_, fun t ht => ?_, fun t h8 ht => ?_, fun res power t u ht hu => ?_⟩,
      fun hr h => ⟨?_, s.takeCheckpoint_saved h, exec_control_active hp h5 hr _, fun hs => ?_, fun h8 => ?_⟩,
      fun hr h ws => ⟨exec_control_active hp h5 hr _, rfl, fun a v =>
          ⟨fun hx => ⟨s.loadMap_mine h st a v ws hx, fun t ht => ?_⟩,
        fun n o hx ho => s.loadMap_other h st a v ws hx ho⟩⟩, fun hr => ?_, fun hr => ?_,
      fun hr => (exec_control_standby hp h5 hr).2⟩
    · exact exec_control_up hp h5 hr (f := fun s => s.createHolding h) rfl (State.oneRecord_createHolding s h) (i := .create h)
        rfl ht
    · exact exec_control_up hp h5 hr (f := fun s => s.resetHolding h) rfl (State.oneRecord_resetHolding s h) (i := .reset h) rfl
        ht
    · exact exec_control_up hp h5 hr (f := fun s => s.destroyHolding h) rfl (State.oneRecord_destroyHolding s h)
        (i := .destroy h) rfl ht
    · exact exec_control_onSet hp h5 hr (f := fun s => s.writeRun h false s.moduleHalted) rfl (i := .runWrite h false) rfl ht
    · exact exec_control_onSet hp h5 hr (f := fun s => s.writeRun h true s.moduleHalted)
        (show s.serveControl (.startRun h) = _ from if_pos h8) (i := .runWrite h true) rfl ht
    · obtain rfl : s.writeAltRes h res = t := Host.Outcome.next.inj ht
      obtain rfl : (s.writeAltRes h res).writeAltPower h power = u := Host.Outcome.next.inj hu
      exact exec_control_alone hp h5 hr (f := fun s => (s.writeAltRes h res).writeAltPower h power) rfl
        ((State.writeAltPower_shadows _ h power).trans (s.writeAltRes_shadows h res))
    · exact exec_control_alone hp h5 hr (f := fun s => s.takeCheckpoint h) rfl rfl
    · unfold State.restoreCheckpoint
      rw [hs]
    · exact exec_control_alone hp h5 hr (f := fun s => s) (if_neg h8) rfl
    · rw [exec_registerWrite_next ht]
      exact exec_control_done hp h5 hr (fun s => s.registerWrite a.toNat (State.placeWidth (Place.ofAddr st a.toNat)) v)
        (congrArg (fun t : State => t.answerControl .done) (s.loadMap_mine h st a v [] hx))
    · rcases hr with hr | hr
      · exact exec_control_alone hp h5 hr (f := fun s => s) rfl rfl
      · exact (exec_control_standby hp h5 hr).1
    · exact exec_control_alone hp h5 hr (f := fun s => s) rfl rfl

end Sys2Proof.Machine
